-- ==== Sys2Proof/Word.lean ====
section
/-!
DEFINITION. The word types. A register's raw contents are a natural number below 2^width (the width is the
entry table's); bytes of requests, frames, packets and codewords are `Byte`s.
-/

namespace Sys2Proof

/-- One byte of a request, a frame, a packet or a codeword (R10, R367). -/
abbrev Byte := BitVec 8

end Sys2Proof
end

