-- ==== Sys2Proof/Syntax.lean ====
section
/-!
DEFINITION. The commands of the block: one constructor per row of the operation table, with the operands that
come from outside (an entry's value, a received message, a measured quantity).
-/

namespace Sys2Proof

/-- What moves by itself toward its written value, a step at a time (R37, R92, R151). -/
inductive Ramp where
  | ctle | swing | ifs | ampA | ampB
deriving DecidableEq, Repr

/-- A boundary at which accepted writes take effect (R391): the two codeword grids of a line lane, the 17-hc period of a
port group, the control frame, the gauge tick. -/
inductive BoundAt where
  | rx (n : Fin 16)
  | tx (n : Fin 16)
  | period (k : Fin 4)
  | frame
  | tick
deriving DecidableEq, Repr

/-- What a DBG_ACCESS asks for (R458): the core, a byte of its SRAM, a word of the management fabric. -/
inductive DebugOp where
  | halt | resume | step
  | sramRead (a : BitVec 20)
  | sramWrite (a : BitVec 20) (b : Byte)
  | fabricRead (a : BitVec 32)
  | fabricWrite (a v : BitVec 32)
deriving DecidableEq, Repr

/-- Where a PRBS generator and checker stand (R158): host lane, line lane, ring port. -/
inductive PrbsAt where
  | host (m : Fin 32)
  | line (n : Fin 16)
  | port (p : Fin 2)
deriving DecidableEq, Repr

/-- The header and prefix of a received cast-on packet (Tables 7-3, 8-3): sequence byte, ACK, PHASE, SESSION. -/
structure MsgHead where
  seq : BitVec 8
  ack : BitVec 8
  phase : BitVec 4
  session : BitVec 16
deriving DecidableEq, Repr

/-- The body of a CAP (Table 7-4). -/
structure CapMsg where
  uid : BitVec 64
  pgMode : BitVec 4
  lane : BitVec 4
  formats : BitVec 8
  flags : BitVec 8
  main : BitVec 8
  policy : BitVec 8
deriving DecidableEq, Repr

/-- The body of a TIME message (Table 7-4). -/
structure TimeMsg where
  txRow : BitVec 32
  txStamp : BitVec 96
  echoRow : BitVec 32
  echoStamp : BitVec 96
  echoFrac : BitVec 16
  flags : BitVec 8
deriving DecidableEq, Repr

/-- Whose expected measurement period has passed (R295, R298). -/
inductive MissOf where
  | source | beacon | lane (n : Fin 16)
deriving DecidableEq, Repr

/-- One slice's results of a lane calibration (R267): offset 1/256 code, gain 2^-15, skew steps. -/
structure SliceCorr where
  off : BitVec 16
  gain : BitVec 16
  skew : BitVec 8
deriving DecidableEq, Repr

/-- The header of a good ring frame (Table 12-5). -/
structure RingHead where
  dest : BitVec 8
  src : BitVec 8
  seq : BitVec 8
deriving DecidableEq, Repr

/-- A SECDED error in control-engine memory (R328): corrected, in a loop's configuration, in RC entry `i`. -/
inductive CeMem where
  | corrected | config | rc (i : Fin 1024)
deriving DecidableEq, Repr

/-- Every command: a request, a write of an entry with a row of its own, a received message, a timer or a
boundary that falls due, a measured event. -/
inductive Instr where
  /-- `REGISTER_WRITE` (R375). A write to an entry that has no row of its own is checked and applied with the entry's own effect. -/
  | registerWrite (r : Fin 18) (idx : BitVec 16) (sub : BitVec 8) (data : List Byte) (x : BitVec 128)
  /-- `CLEAR_ON_READ_READ` (R431). A read of a detail or status register that is cleared on read returns its bits and clears them. -/
  | clearOnReadRead (r : Fin 18) (idx : BitVec 16) (sub : BitVec 8)
  /-- `READ` (R374). An expedited READ command returns an entry's value, or answers OK_SEGMENTED and takes a snapshot when the value exceeds 248 bytes. -/
  | read (r : Fin 18) (tag : BitVec 8) (idx : BitVec 16) (sub : BitVec 8)
  /-- `WRITE` (R375). An expedited WRITE command is checked in the order of Table 13-9 and either applied, staged in an open group or refused. -/
  | write (r : Fin 18) (tag : BitVec 8) (idx : BitVec 16) (sub : BitVec 8) (data : List Byte)
  /-- `WRITE_INIT` (R384). WRITE_INIT opens a segmented download of SIZE bytes and ends any transfer the same requester had in progress. -/
  | writeInit (r : Fin 18) (tag : BitVec 8) (idx : BitVec 16) (sub : BitVec 8) (size : BitVec 32)
  /-- `WRITE_SEG` (R384). WRITE_SEG stores one download segment under the toggle rule, and the segment with LAST completes the download as one write. -/
  | writeSeg (r : Fin 18) (tag : BitVec 8) (flags : BitVec 8) (rsv : BitVec 8) (data : List Byte) (x : BitVec 128)
  /-- `READ_SEG` (R383). READ_SEG returns the next segment of the read snapshot under the toggle rule and ends the transfer at LAST. -/
  | readSeg (r : Fin 18) (tag : BitVec 8) (flags : BitVec 8)
  /-- `ABORT` (R384). The ABORT command ends the requester's transfer with REQUESTER_ABORT and is itself answered OK. -/
  | abort (r : Fin 18) (tag : BitVec 8) (code : BitVec 32)
  /-- `FENCE_LOCAL` (R388). FENCE_LOCAL orders the requester's earlier writes before its later ones and is answered at once. -/
  | fenceLocal (r : Fin 18) (tag : BitVec 8)
  /-- `FENCE_APPLY` (R388). FENCE_APPLY orders the requester's writes and waits until all earlier writes have taken effect. -/
  | fenceApply (r : Fin 18) (tag : BitVec 8)
  /-- `FENCE_PERSIST` (R388). FENCE_PERSIST orders the requester's writes, triggers a save and waits until the save that includes them completes. -/
  | fencePersist (r : Fin 18) (tag : BitVec 8)
  /-- `FENCE_APPLY_DONE` (R388). Once every earlier write of the requester has taken effect, the pending FENCE_APPLY is answered OK. -/
  | fenceApplyDone (r : Fin 18)
  /-- `FENCE_PERSIST_DONE` (R388). When the save that includes the earlier writes completes or fails, the pending FENCE_PERSIST is answered OK or FLASH. -/
  | fencePersistDone (r : Fin 18)
  /-- `GROUP_OPEN` (R389). GROUP_OPEN opens the requester's commit group, or ends its lost-group state and opens a new group. -/
  | groupOpen (r : Fin 18) (tag : BitVec 8)
  /-- `GROUP_CLOSE` (R390). GROUP_CLOSE checks every staged value and condition and then either discards the whole group or commits it. -/
  | groupClose (r : Fin 18) (tag : BitVec 8) (x : BitVec 128)
  /-- `GROUP_CANCEL` (R389). GROUP_CANCEL discards the requester's open group. -/
  | groupCancel (r : Fin 18) (tag : BitVec 8)
  /-- `DESCRIBE` (R374). DESCRIBE returns an entry's type, access, roles, persistence, size and fast-path flag. -/
  | describe (r : Fin 18) (tag : BitVec 8) (idx : BitVec 16) (sub : BitVec 8)
  /-- `GROUP_APPLY` (R391). A closed commit group takes effect at the boundary or boundaries of its commit domain. -/
  | groupApply (b : BoundAt)
  /-- `GROUP_TIMEOUT` (R392). An open group whose requester has been silent for OD_GROUP_TIMEOUT is cancelled, and the requester enters the lost-group state. -/
  | groupTimeout (r : Fin 18)
  /-- `SEG_TIMEOUT` (R384). A segmented transfer that receives no segment for OD_SEG_TIMEOUT ends with SEG_TIMEOUT. -/
  | segTimeout (r : Fin 18)
  /-- `CORE_WRITE_COMMIT` (R382). The management core reaches the commit point of a queued write, applies it and has the fast path send OK. -/
  | coreWriteCommit (x : BitVec 128)
  /-- `TWI_READ_TRANSACTION` (R394). A TWI read returns STATE and the oldest ready response, clears OVERFLOW and frees a slot once the response has been read in full. -/
  | twiReadTransaction (full : Bool)
  /-- `SAVE_DELAY_TIMER` (R373). OD_SAVE_DELAY seconds after the first unsaved write, or after a failed save, the device starts a configuration save. -/
  | saveDelayTimer
  /-- `CONFIG_SAVE_COMPLETE` (R373). A save of the configuration copy ends with its read-back, either completing or raising CFG_SAVE_FAIL. -/
  | configSaveComplete (ok : Bool)
  /-- `OD_CFG_ERASE` (R396). A write of 1 erases both saved configuration copies. -/
  | odCfgErase (r : Fin 18) (v : BitVec 8) (ok : Bool)
  /-- `OD_STATS_CLEAR` (R396). A write of 1 clears the dictionary statistics counters. -/
  | odStatsClear (r : Fin 18) (v : BitVec 8)
  /-- `CLK_REF_SRC_WRITE` (R14). A write of CLK_REF_SRC, accepted only while every lane is down, moves the synthesizers onto the new root without a phase step. -/
  | clkRefSrcWrite (r : Fin 18) (v : BitVec 8) (valid : Bool)
  /-- `ROOT_LOST` (R20). The always-on domain declares the root lost, and LSYN is held while HSYN is re-referenced, CLK_REF_LOSS raised and time holdover entered. -/
  | rootLost
  /-- `ROOT_RESTORED` (R22). A root that has stayed valid for 10 ms is re-acquired by LSYN, HELD and CROSS_LOCK clear and CLK_REF_RESTORED is raised. -/
  | rootRestored
  /-- `SYNTH_LOCK` (R24). LSYN and HSYN lock, the time counter and control frames start and the selvage switches open. -/
  | synthLock (dist : List (Fin 16 × Fin 256))
  /-- `SYNTH_LOCK_LOSS` (R146). A synthesizer loses lock outside held-frequency mode, the gearbox falls back to WAIT and the transmitters send code 0. -/
  | synthLockLoss (hsyn : Bool)
  /-- `RCLKO_CFG_WRITE` (R26). A write to LANE or DIV of an RCLKO output squelches that output. -/
  | rclkoCfgWrite (r : Fin 18) (q : Fin 2) (v : BitVec 16)
  /-- `RCLKO_RELEASE` (R26). A squelched recovered-clock output is released at the first epoch boundary after its source lane has held frame lock for a whole epoch. -/
  | rclkoRelease (q : Fin 2)
  /-- `AVAIL_CLEAR` (R31). A write of 1 clears the availability entries and starts a save at once. -/
  | availClear (r : Fin 18) (v : BitVec 8)
  /-- `CTLE_RAMP_STEP` (R37). Every 4,096 cc the CTLE peaking, or a line swing or current, moves one step toward its written value. -/
  | ctleRampStep (n : Fin 16) (w : Ramp)
  /-- `CTLE_SEARCH_STEP` (R38). After each settle wait the CTLE search reads the first post-cursor tap and raises, lowers or ends the peaking search. -/
  | ctleSearchStep (n : Fin 16)
  /-- `AGC_GAIN_STEP` (R39). In tracking the AGC changes the VGA gain by one step at a codeword boundary and rescales the FFE taps. -/
  | agcGainStep (n : Fin 16)
  /-- `LINE_LOS_SET` (R40). Amplitude below the threshold for 256 cc sets LINE_LOS_STATUS and raises LINE_LOS. -/
  | lineLosSet (n : Fin 16)
  /-- `LINE_LOS_CLEAR` (R40). Amplitude above the threshold for 4,096 cc clears LINE_LOS_STATUS and ends the loss-of-signal freeze. -/
  | lineLosClear (n : Fin 16)
  /-- `ADAPT_UPDATE` (R57). Every 4 cc the FFE taps and the MLSE target are updated from the gathered gradient samples. -/
  | adaptUpdate (n : Fin 16) (cc : List (List (BitVec 8)))
  /-- `ADAPT_RESTART` (R58). A write of 1 to the RESTART bit starts acquisition at the next codeword boundary when the lane is in C4–C7. -/
  | adaptRestart (r : Fin 18) (n : Fin 16) (v : BitVec 16)
  /-- `ACQUISITION_END` (R58). The acquisition period, extended by any CTLE search, ends and adaptation changes to tracking. -/
  | acquisitionEnd (n : Fin 16)
  /-- `GUARD_TRIP` (R61). A coefficient at its limit for 64 consecutive updates restores the fallback set, freezes the stage and raises RX_ADAPT_ALARM. -/
  | guardTrip (n : Fin 16)
  /-- `CODEWORD_BOUNDARY_APPLY` (R62). Pending coefficient, level, tap, predistortion and source changes take effect at the next inner codeword boundary of their chain. -/
  | codewordBoundaryApply (n : Fin 16) (rx : Bool) (bits : List Bool) (tone : List Int)
  /-- `LINE_FFE_SNAP` (R63). A write of 1 takes a consistent snapshot of the receive coefficients at one codeword boundary. -/
  | lineFfeSnap (r : Fin 18) (n : Fin 16) (v : BitVec 8)
  /-- `LINE_LQM_CLEAR` (R65). A write of 1 zeroes the running totals, or restarts the current window. -/
  | lineLqmClear (r : Fin 18) (n : Fin 16) (v : BitVec 8)
  /-- `LINE_SWATCH_ARM` (R69). A write of 1 discards the earlier capture and arms swatch capture. -/
  | lineSwatchArm (r : Fin 18) (n : Fin 16) (v : BitVec 8)
  /-- `SWATCH_TRIGGER` (R69). The first trigger event accepted after the pre-trigger part has filled fixes the trigger point of the capture. -/
  | swatchTrigger (n : Fin 16) (src : Fin 6)
  /-- `SWATCH_COMPLETE` (R69). The post-trigger samples have been stored, the status becomes complete and SWATCH_DONE is raised. -/
  | swatchComplete (n : Fin 16)
  /-- `OUTPUT_STAGE_STEP` (R92). After each 1,024 cc of idle, the line output stage moves to its next state between disabled, idle and modulating. -/
  | outputStageStep (n : Fin 16)
  /-- `COMPLIANCE_SET` (R93). A leg outside its compliance window for 256 cc sets COMPLIANCE and raises TX_FAULT. -/
  | complianceSet (n : Fin 16)
  /-- `COMPLIANCE_CLEAR` (R93). Both legs inside their window for 4,096 cc clear COMPLIANCE. -/
  | complianceClear (n : Fin 16)
  /-- `TX_EPOCH_BOUNDARY` (R110). At each transmit epoch boundary the tag is sent, LINE_ROW_TX increments and the per-epoch host, FEC, latency and slot checks run. -/
  | txEpochBoundary (k : Fin 4) (freqs : List (BitVec 32))
  /-- `CODEWORD_DECODED` (R115). A received codeword is decoded with errors and erasures, tag-tested, counted and delivered. -/
  | codewordDecoded (n : Fin 16)
  /-- `BLOCK_DECODED` (R120). Each decoded interleave block drives the codeword lock machine between HUNT, CONFIRM and LOCK. -/
  | blockDecoded (n : Fin 16)
  /-- `MARKER_POSITION` (R120). The expected marker position of a stream is reached and the marker lock machine judges it good or bad. -/
  | markerPosition (n : Fin 16) (b : Bool) (differ : BitVec 8) (p : BitVec 12) (moved : Bool)
  /-- `EPOCH_TAG_BLOCK` (R120). A tag, or an expected tag block, drives the epoch lock machine and LINE_ROW_RX. -/
  | epochTagBlock (n : Fin 16) (j : Fin 128)
  /-- `FILL_START` (R113). At the first block boundary after a host lane loses signal or alignment, marker fill replaces its bits. -/
  | fillStart (m : Fin 32)
  /-- `FILL_END` (R113). At the first block boundary after the host lane is aligned again, the fill ends. -/
  | fillEnd (m : Fin 32) (p : BitVec 12) (moved : Bool)
  /-- `LINE_FEC_CLEAR` (R124). A write of 1 clears the lane's inner-code counters. -/
  | lineFecClear (r : Fin 18) (n : Fin 16) (v : BitVec 8)
  /-- `HOST_SIGNAL_CLEAR` (R134). Host input amplitude below the threshold for 256 hc clears SIGNAL. -/
  | hostSignalClear (m : Fin 32)
  /-- `HOST_SIGNAL_SET` (R134). Host input amplitude above the threshold for 4,096 hc sets SIGNAL and starts training or CDR lock. -/
  | hostSignalSet (m : Fin 32)
  /-- `HOST_MARKER_POSITION` (R135). The host alignment monitor judges a marker and follows the M rows of Table 4-4 to set or clear ALIGN. -/
  | hostMarkerPosition (m : Fin 32) (differ : BitVec 8) (pos : BitVec 64) (p : BitVec 12) (moved : Bool)
  /-- `HCKI_TRAINING_DONE` (R137). The forwarded-clock phase sweep ends, the sampling phase is centred and CLK_OK sets. -/
  | hckiTrainingDone (m : Fin 32) (phase : Fin 602353)
  /-- `HOST_CDR_LOCK` (R138). The per-lane CDR locks and CLK_OK sets. -/
  | hostCdrLock (m : Fin 32) (phase : Fin 602353)
  /-- `HOST_RX_ACQUISITION_END` (R133). The host receive acquisition of 65,536 hc after CLK_OK ends and tracking follows. -/
  | hostRxAcquisitionEnd (m : Fin 32) (ctle : BitVec 8)
  /-- `HCKI_LOST` (R137). HCKIk without an edge for 64 hc clears HCKI_PRESENT and, in forwarded-clock mode, CLK_OK on the group's lanes. -/
  | hckiLost (k : Fin 4)
  /-- `HOST_PERIOD_BOUNDARY` (R149). At a 17-hc period boundary, pending host presets, FEC mode changes, PRBS enables and HCKO source changes take effect. -/
  | hostPeriodBoundary (g : Fin 4) (fills : List (Fin 8 × Fin 129))
  /-- `GEARBOX_LOCK` (R146). At a gauge tick the gearbox enters LOCKED, places the block grid, resets LINE_ROW_TX and reports the lock. -/
  | gearboxLock (k : Fin 4) (blocks : BitVec 18)
  /-- `PG_FEC_MODE_WRITE` (R153). A write of the host FEC mode is accepted under its conditions and takes effect at the next 17-hc period boundary. -/
  | pgFecModeWrite (r : Fin 18) (k : Fin 4) (v : BitVec 8)
  /-- `PG_FEC_CLEAR` (R156). A write of 1 clears both directions' host FEC counters. -/
  | pgFecClear (r : Fin 18) (k : Fin 4) (v : BitVec 8)
  /-- `PRBS_GEN_CFG_WRITE` (R160). Enabling or disabling a PRBS generator replaces or restores the lane's data under the rules of its lane kind. -/
  | prbsGenCfgWrite (r : Fin 18) (a : PrbsAt) (v : BitVec 16)
  /-- `PRBS_CHK_CFG_WRITE` (R160). Enabling or disabling a PRBS checker starts seeding or releases the lane. -/
  | prbsChkCfgWrite (r : Fin 18) (a : PrbsAt) (v : BitVec 16)
  /-- `PRBS_INJECT_ONCE` (R158). A write of ONCE injects one error into the pattern now. -/
  | prbsInjectOnce (r : Fin 18) (a : PrbsAt) (v : BitVec 32)
  /-- `PRBS_CHK_CLEAR` (R158). A write of 1 zeroes the checker counters and LOST. -/
  | prbsChkClear (r : Fin 18) (a : PrbsAt) (v : BitVec 8)
  /-- `PRBS_WINDOW_END` (R159). At the end of each 1,024-bit window the checker declares LOCK, seeds again or loses LOCK. -/
  | prbsWindowEnd (a : PrbsAt) (bits : List Bool)
  /-- `LINE_ADMIN_WRITE` (R180). A write of LINE_ADMIN starts cast-on, starts bind-off or takes the lane to C0. -/
  | lineAdminWrite (r : Fin 18) (n : Fin 16) (v : BitVec 8)
  /-- `CO_RESTART` (R181). The RESTART command restarts the conversation without bind-off. -/
  | coRestart (r : Fin 18) (n : Fin 16)
  /-- `CO_BIND_OFF` (R181). The BIND_OFF command binds off with reason HOST_COMMAND and holds the lane in C0. -/
  | coBindOff (r : Fin 18) (n : Fin 16)
  /-- `CAP` (R197). A received CAP is recorded, checked for loopback and used to fix or restart the agreement. -/
  | cap (n : Fin 16) (h : MsgHead) (b : CapMsg)
  /-- `PROPOSE` (R202). A received PROPOSE is answered with ACCEPT or REJECT, after the tie rule and any return to C3. -/
  | propose (n : Fin 16) (h : MsgHead) (num : BitVec 8) (format : BitVec 8) (precode : BitVec 8) (time : BitVec 8)
  /-- `ACCEPT` (R203). A received ACCEPT that echoes the outstanding PROPOSE completes the agreement, and any other ACCEPT is rejected as a contradiction. -/
  | accept (n : Fin 16) (h : MsgHead) (num : BitVec 8) (format : BitVec 8) (precode : BitVec 8) (time : BitVec 8)
  /-- `REJECT` (R202). A received REJECT makes the proposer compute the agreement again, or resets AGR on reason 6. -/
  | reject (n : Fin 16) (h : MsgHead) (num : BitVec 8) (reason : BitVec 8) (detail : BitVec 8)
  /-- `TXEQ_REQ` (R209). A received TXEQ_REQ in C4 is applied or refused and then answered with TXEQ_ACK. -/
  | txeqReq (n : Fin 16) (h : MsgHead) (id : BitVec 8) (main : BitVec 8) (taps : List (BitVec 16))
  /-- `TXEQ_ACK` (R210). A received TXEQ_ACK records the far taps and advances or ends the TXEQ policy. -/
  | txeqAck (n : Fin 16) (h : MsgHead) (id : BitVec 8) (result : BitVec 8) (taps : List (BitVec 16))
  /-- `STATUS` (R216). A received STATUS updates the peer lock and fill flags, and VERIFY = 2 sends the lane back to C4. -/
  | status (n : Fin 16) (h : MsgHead) (agr : BitVec 8) (lock : BitVec 8) (fill : BitVec 8) (verify : BitVec 8)
  /-- `READY` (R196). A received READY is held for its phase and can advance the lane. -/
  | ready (n : Fin 16) (h : MsgHead) (agr : BitVec 8) (done : BitVec 8)
  /-- `BIND` (R222). A received BIND is acknowledged, its reason recorded and the lane returned to C1. -/
  | bind (n : Fin 16) (h : MsgHead)
  /-- `TIME` (R290). A received TIME message is associated with an arrival and yields an offset and delay result or a counted rejection. -/
  | time (n : Fin 16) (h : MsgHead) (m : TimeMsg) (back : BitVec 8)
  /-- `KEEPALIVE` (R192). A received KEEPALIVE applies its ACK and PHASE and takes a lane in C1 to C2. -/
  | keepalive (n : Fin 16) (h : MsgHead) (agr : BitVec 8)
  /-- `RESPONSE_TIMER` (R191). Expiry of the response timer resends the outstanding messages or declares the partner silent. -/
  | responseTimer (n : Fin 16)
  /-- `PARTNER_SILENCE` (R217). No valid packet for LINE_CO_T_SILENT restarts the conversation in C2–C6, or sets PARTNER_SILENT in C7. -/
  | partnerSilence (n : Fin 16)
  /-- `BEACON_TIMER` (R197). In C1 a KEEPALIVE beacon is sent every LINE_CO_T_BEACON. -/
  | beaconTimer (n : Fin 16)
  /-- `KEEPALIVE_TIMER` (R193). After LINE_CO_T_KEEPALIVE without a sent packet, a KEEPALIVE is sent. -/
  | keepaliveTimer (n : Fin 16)
  /-- `PHASE_TIMEOUT` (R193). A phase timer expires and restarts the conversation, or in REALIGN restarts acquisition cold. -/
  | phaseTimeout (n : Fin 16)
  /-- `CAST_ON_LIMIT` (R193). The cast-on limit from entry to C2 expires and restarts the conversation. -/
  | castOnLimit (n : Fin 16)
  /-- `STATUS_TIMER` (R216). In C7 a STATUS is sent every LINE_CO_T_STATUS. -/
  | statusTimer (n : Fin 16)
  /-- `BIND_TIMEOUT` (R221). LINE_CO_T_BIND passes without acknowledgement of BIND and the lane goes to C0. -/
  | bindTimeout (n : Fin 16)
  /-- `RESTART_BACKOFF_END` (R195). After the fixed 10 ms backoff of a restart the lane begins beaconing. -/
  | restartBackoffEnd (n : Fin 16)
  /-- `PROPOSE_TIMER` (R200). An auto-role lane with the lower ID proposes after 2 × LINE_CO_T_RESP in C3 without a PROPOSE. -/
  | proposeTimer (n : Fin 16)
  /-- `VERIFY_WINDOW_END` (R214). The C6 verify window ends and the gate passes or fails, leading to READY or a retrain. -/
  | verifyWindowEnd (n : Fin 16)
  /-- `LINE_CO_TXEQ_GO` (R210). Under policy 2, a write of 1 sends one TXEQ_REQ of the host taps and a write of 2 ends the policy. -/
  | lineCoTxeqGo (r : Fin 18) (n : Fin 16) (v : BitVec 8)
  /-- `TXEQ_SEARCH_MEASURE` (R211). After its settle wait the auto search measures SNR_T and keeps or reverts the step. -/
  | txeqSearchMeasure (n : Fin 16)
  /-- `LINE_CO_CLEAR` (R225). A write of 1 clears the cast-on counters. -/
  | lineCoClear (r : Fin 18) (n : Fin 16) (v : BitVec 8)
  /-- `PICOT_BURST_START` (R241). At the first grid boundary that meets the start conditions, a queued packet's burst starts. -/
  | picotBurstStart (n : Fin 16)
  /-- `PICOT_BURST_END` (R242). A burst ends with its ramp-down, or is cut when the output stage leaves modulating. -/
  | picotBurstEnd (n : Fin 16)
  /-- `PICOT_CANDIDATE_END` (R250). A preamble candidate ends and starts an attempt, supersedes one, becomes pending or is ignored. -/
  | picotCandidateEnd (n : Fin 16) (ds : List (BitVec 9 × BitVec 16 × BitVec 16))
  /-- `PICOT_MODE_MISMATCH` (R247). The other-mode correlator finds a preamble of the other Picot mode and counts it. -/
  | picotModeMismatch (n : Fin 16)
  /-- `PICOT_SYNC_FOUND` (R248). The sync word is found and the receiver enters HEADER. -/
  | picotSyncFound (n : Fin 16) (sym : List (BitVec 16))
  /-- `PICOT_SYNC_TIMEOUT` (R250). 40 symbols pass without the sync word, SYNC_FAIL is counted and the receiver resumes. -/
  | picotSyncTimeout (n : Fin 16) (sym : List (BitVec 16))
  /-- `PICOT_HEADER_END` (R250). The header CRC ends and the header is validated or failed. -/
  | picotHeaderEnd (n : Fin 16) (sym : List (BitVec 16)) (snr : BitVec 16) (foff : BitVec 16)
  /-- `PICOT_PILOT_PAIR` (R251). A pilot pair corrects frequency and timing, and a second consecutive missed pair ends the attempt. -/
  | picotPilotPair (n : Fin 16) (a : BitVec 4) (b : BitVec 4) (got : List Byte)
  /-- `PICOT_PAYLOAD_END` (R250). The payload CRC ends and the packet is delivered to cast-on or counted as failed. -/
  | picotPayloadEnd (n : Fin 16) (payload : List Byte) (crc : BitVec 32) (snr : BitVec 16) (foff : BitVec 16) (back : BitVec 8)
  /-- `PICOT_CLEAR` (R253). A write of 1 clears the Picot counters. -/
  | picotClear (r : Fin 18) (n : Fin 16) (v : BitVec 8)
  /-- `SS_STEP_END` (R259). A slip-stitch step of the spare ends, and the attempt goes on, fails or becomes READY. -/
  | ssStepEnd (n : Fin 16) (v : BitVec 16)
  /-- `SS_INTERVAL_END` (R258). The substitution interval ends and a substitution is made or POSTPONED is set. -/
  | ssIntervalEnd (n : Fin 16)
  /-- `SS_SUBSTITUTION` (R260). At a codeword boundary the spare takes over a slot, the map is updated and the freeze starts. -/
  | ssSubstitution (n : Fin 16)
  /-- `LINE_SS_RETEST` (R265). A write of 1 retests every FAILED slice of the lane. -/
  | lineSsRetest (r : Fin 18) (n : Fin 16) (v : BitVec 8)
  /-- `LINE_SS_CLEAR` (R266). A write of 1 clears the slip-stitch counters. -/
  | lineSsClear (r : Fin 18) (n : Fin 16) (v : BitVec 8)
  /-- `LANE_CAL_COMPLETE` (R267). Lane calibration ends, its results apply and the lane enters C1 or is held in C0. -/
  | laneCalComplete (n : Fin 16) (corr : List SliceCorr)
  /-- `LANE_CAL_RETRY` (R267). Each 1 s while two or more slices have failed, lane calibration runs again. -/
  | laneCalRetry (n : Fin 16)
  /-- `DAC_CAL_COMPLETE` (R268). DAC calibration ends with PASS or OUT_OF_RANGE. -/
  | dacCalComplete (n : Fin 16) (outOfRange : Bool)
  /-- `LINE_CAL_LANE` (R269). Command 1 of LINE_CAL_CMD starts a lane calibration in C0. -/
  | lineCalLane (r : Fin 18) (n : Fin 16)
  /-- `LINE_CAL_DAC` (R269). Command 2 of LINE_CAL_CMD starts a DAC calibration in C0. -/
  | lineCalDac (r : Fin 18) (n : Fin 16)
  /-- `LINE_CAL_BOTH` (R269). Command 3 of LINE_CAL_CMD starts lane and DAC calibration together. -/
  | lineCalBoth (r : Fin 18) (n : Fin 16)
  /-- `MON_CAL_CMD` (R271). A write of 1 requests a monitor ADC calibration. -/
  | monCalCmd (r : Fin 18) (v : BitVec 8)
  /-- `MON_CAL_START` (R272). At a frame boundary with no conversion in progress, monitor calibration starts and the sequencer and loops hold. -/
  | monCalStart
  /-- `MON_CAL_END` (R272). Monitor ADC calibration ends, MON_CAL_DONE is raised and the sequencer resumes at the next boundary. -/
  | monCalEnd (outOfRange : Bool)
  /-- `TIME_SET` (R279). A write of TIME_SET arms, replaces or cancels a counter set at the next SYNC_IN edge. -/
  | timeSet (r : Fin 18) (v : BitVec 96)
  /-- `TIME_STEP` (R279). A write of TIME_STEP adds a signed step to the step pending for the next gauge tick. -/
  | timeStep (r : Fin 18) (v : BitVec 64)
  /-- `TIME_RATE_ADJ` (R279). A write of the host rate term is taken into the counter rate at the next gauge tick. -/
  | timeRateAdj (r : Fin 18) (v : BitVec 32)
  /-- `TIME_ADJ_APPLY` (R280). At a gauge tick the pending steps and rate are applied, and TIME_GEN advances with a record and TIME_STEP_DONE. -/
  | timeAdjApply
  /-- `SYNC_IN_EDGE` (R283). A SYNC_IN rising edge is stamped, judged, applies a pending set and feeds the servo. -/
  | syncInEdge (j : Fin 16) (tick : Bool)
  /-- `SYNC_IN_SILENCE` (R283). 1.5 s without a SYNC_IN edge raises SYNC_IN_FAULT once. -/
  | syncInSilence
  /-- `SYNC_OUT_PULSE` (R282). The counter reaches a whole second plus the offset and SYNC_OUT rises. -/
  | syncOutPulse
  /-- `SYNC_OUT_PULSE_END` (R282). After SYNC_OUT_WIDTH the SYNC_OUT pulse ends. -/
  | syncOutPulseEnd
  /-- `TIME_MESSAGE_DUE` (R287). 128 µs after a row departs, a TIME message is queued or counted as skipped. -/
  | timeMessageDue (n : Fin 16)
  /-- `TIME_WITHDRAWN` (R287). A TIME message not started 128 µs before the next row is removed from the queue and counted. -/
  | timeWithdrawn (n : Fin 16)
  /-- `TIME_MEASUREMENT_MISS` (R295). An expected measurement period passes without a valid measurement, which can lead to holdover. -/
  | timeMeasurementMiss (w : MissOf)
  /-- `TIME_DISC_SRC_WRITE` (R293). A change of discipline source or lane clears the servo terms at the next gauge tick. -/
  | timeDiscSrcWrite (r : Fin 18) (isLane : Bool) (v : BitVec 8)
  /-- `TIME_CLEAR` (R292). A write of 1 clears the line time counters. -/
  | timeClear (r : Fin 18) (n : Fin 16) (v : BitVec 8)
  /-- `BEACON_SOURCE_TIMER` (R296). At each multiple of TIME_RING_PERIOD a beacon source sends a BEACON from both ports. -/
  | beaconSourceTimer
  /-- `BEACON` (R297). A received BEACON is forwarded with CORR updated, accepted as a follower measurement or used as the source's loop error. -/
  | beacon (p : Fin 2) (h : RingHead) (src : BitVec 64) (dep : BitVec 96) (corr : BitVec 64) (j : Fin 16) (meas : BitVec 32)
  /-- `CONTROL_FRAME_BOUNDARY` (R304). At cycle 0 of a frame the accepted control writes take effect and a monitor pass may start. -/
  | controlFrameBoundary
  /-- `LOOP_SNAPSHOT` (R305). At cycle 923 every input is snapshot and every due loop is evaluated, including its fault and limit checks. -/
  | loopSnapshot (levels : BitVec 16)
  /-- `OUTPUT_WRITE` (R304). At cycle 960 the aux DAC codes, cascaded setpoints and GPIO levels are written together. -/
  | outputWrite (compl : BitVec 48) (short : BitVec 48)
  /-- `MON_CONVERSION_END` (R307). A monitor conversion slot ends, and its result feeds the chain and possibly MON_DATA. -/
  | monConversionEnd (code : BitVec 12)
  /-- `MON_DATA_READ` (R309). A read of MON_DATA or MON_DATA_ALL returns the result and clears VALID and OVERRUN. -/
  | monDataRead (r : Fin 18) (all_ : Bool)
  /-- `MON_URGENT_REQ` (R310). An urgent conversion request is served, held, dropped or refused under the urgent mode. -/
  | monUrgentReq (r : Fin 18) (v : BitVec 16) (fits : Bool)
  /-- `MON_URGENT_END` (R310). An urgent conversion ends, its result goes to MON_DATA and MON_URGENT_DONE is raised. -/
  | monUrgentEnd (code : BitVec 12)
  /-- `MON_CNT_CLEAR` (R311). A write of 1 clears the monitor counters. -/
  | monCntClear (r : Fin 18) (v : BitVec 8)
  /-- `FILT_PRESET` (R313). A write of a preset loads it into the chain's inactive bank. -/
  | filtPreset (r : Fin 18) (e : Fin 64) (v : BitVec 8)
  /-- `FILT_SWAP` (R315). A write of 1 makes the inactive bank active and starts the crossfade. -/
  | filtSwap (r : Fin 18) (e : Fin 64) (v : BitVec 8)
  /-- `LOOP_MODE_WRITE` (R323). A write of LOOP_MODE transfers the loop between OFF, MANUAL and AUTO. -/
  | loopModeWrite (r : Fin 18) (j : Fin 64) (v : BitVec 8)
  /-- `LOOP_INTEGRATOR_WRITE` (R323). A write of LOOP_INTEGRATOR replaces the integrator and any pending preset at the next frame boundary. -/
  | loopIntegratorWrite (r : Fin 18) (j : Fin 64) (v : BitVec 64)
  /-- `RC_CLEAR` (R322). A write of 1 zeroes the repetitive-controller memory and index. -/
  | rcClear (r : Fin 18) (j : Fin 64) (v : BitVec 8)
  /-- `CE_MEM_ERROR` (R328). A SECDED error in control-engine memory is corrected, or puts the loop in SAFE or zeroes the RC entry. -/
  | ceMemError (j : Fin 64) (w : CeMem)
  /-- `AUX_MODE_WRITE` (R329). A change of AUX_MODE turns the pin off and brings it up in the new mode at code 0. -/
  | auxModeWrite (r : Fin 18) (a : Fin 48) (v : BitVec 8)
  /-- `CE_PAD_RELEASE` (R331). A write of 1 releases every latched pin at the next cycle 960 and returns loops from HOLD. -/
  | cePadRelease (r : Fin 18) (v : BitVec 8)
  /-- `TEMP_CONVERSION` (R332). A temperature sensor converts, and the maxima, warnings and broken-sensor state are updated. -/
  | tempConversion (q : Fin 24) (v : BitVec 16) (answers : Bool)
  /-- `PORT_ADMIN_WRITE` (R341). A write of PORT_ADMIN takes the ring port to DISABLED or DOWN. -/
  | portAdminWrite (r : Fin 18) (p : Fin 2) (v : BitVec 8)
  /-- `RING_LINK_DETECT` (R341). 16 clean ordered sets in DOWN take the port to TRAIN. -/
  | ringLinkDetect (p : Fin 2)
  /-- `LINK` (R342). A received LINK ordered set drives the rate negotiation of the hop. -/
  | link (p : Fin 2) (d : BitVec 8)
  /-- `RING_TRAIN_TIMEOUT` (R341). 2^20 symbols in TRAIN without reaching VERIFY take the port back to DOWN. -/
  | ringTrainTimeout (p : Fin 2)
  /-- `RING_VERIFY_PASS` (R341). 2^16 clean code groups in VERIFY take the port to UP. -/
  | ringVerifyPass (p : Fin 2)
  /-- `RING_CODE_VIOLATION` (R340). A code violation voids a frame, fails VERIFY or counts toward a link drop. -/
  | ringCodeViolation (p : Fin 2) (inFrame : Bool)
  /-- `RING_RXC_LOSS` (R341). RXC without an edge for 64 symbols takes an UP port DOWN. -/
  | ringRxcLoss (p : Fin 2)
  /-- `TOKEN` (R348). An arriving TOKEN is captured to send a frame or forwarded. -/
  | token (p : Fin 2)
  /-- `SOF` (R348). A SOF arriving while the device sends its own frame aborts that frame as a collision. -/
  | sof (p : Fin 2)
  /-- `RING_TOKEN_LOSS` (R349). 2^18 symbols without a TOKEN or SOF on an UP port raise RING_TOKEN_LOSS. -/
  | ringTokenLoss (p : Fin 2)
  /-- `RATE_GO` (R345). A received RATE_GO, after an accepted RATE_SET, switches the ports to the new loop rate. -/
  | rateGo (p : Fin 2) (x : Fin 4)
  /-- `TOPO` (R346). A received TOPO ordered set is forwarded as a report of a wrap change. -/
  | topo (p : Fin 2) (wrapped : Bool)
  /-- `ENUM` (R357). A received ENUM is forwarded with HOPS incremented and assigns the device's address. -/
  | enum (p : Fin 2) (h : RingHead) (hops : BitVec 8) (rsv : BitVec 8) (epoch : BitVec 32)
  /-- `CLAIM` (R359). A received CLAIM is judged under Table 12-8 and may change the owner. -/
  | claim (p : Fin 2) (h : RingHead) (epoch : BitVec 32) (flags : BitVec 8) (rsv : BitVec 8)
  /-- `RATE_SET` (R345). A received RATE_SET from the owner is answered with RATE_REPLY. -/
  | rateSet (p : Fin 2) (h : RingHead) (target : BitVec 8) (rsv : BitVec 8)
  /-- `RESET` (R361). A received RESET naming the device is answered with RESET_REPLY. -/
  | reset (p : Fin 2) (h : RingHead) (target : BitVec 64) (kind : BitVec 8) (rsv : BitVec 8)
  /-- `RING_DEVICE_RESET` (R361). After its RESET_REPLY has left, the device performs the ring device reset. -/
  | ringDeviceReset
  /-- `EVENT_ACK` (R362). An EVENT_ACK matching the outstanding EVENT ends it. -/
  | eventAck (p : Fin 2) (h : RingHead) (seq : BitVec 32)
  /-- `EVENT_RETRY_TIMER` (R362). 1 ms after an unacknowledged EVENT it is sent again, or abandoned after 3 retries. -/
  | eventRetryTimer
  /-- `RING_CRC_ALARM` (R363). RING_CRC_ERR rising by RING_CRC_THR within one second raises RING_CRC_ALARM. -/
  | ringCrcAlarm
  /-- `RING_CLEAR` (R363). A write of 1 clears the ring counters. -/
  | ringClear (r : Fin 18) (v : BitVec 8)
  /-- `PL_CHANGE_DONE` (R400). A change of performance level completes, with a record and PL_CHG. -/
  | plChangeDone
  /-- `PL_AUTO_RAISE` (R401). A request queued for more than 200 µs, or load above 50 %, starts a change to PL2. -/
  | plAutoRaise (load : BitVec 8)
  /-- `PL_AUTO_LOWER` (R401). Load below 15 % for 1 s lowers the level by one step. -/
  | plAutoLower (load : BitVec 8)
  /-- `SRAM_ECC_ERROR` (R403). A SECDED error in core SRAM is corrected and counted, or causes an MRST. -/
  | sramEccError (corrected : Bool) (addr : BitVec 32)
  /-- `WATCHDOG_EXPIRY` (R404). The watchdog unserved for 500 ms causes a watchdog reset. -/
  | watchdogExpiry
  /-- `MGMT_MRST` (R404). A write of 1 requests an MRST after the OK is sent. -/
  | mgmtMrst (r : Fin 18) (v : BitVec 8)
  /-- `MRST` (R404). A management reset resets the core and fabric, steps the core generation and boots. -/
  | mrst
  /-- `MGMT_MASTER_RESTART` (R407). A write of 1 steps the writer's generation, releases its locks and marks its full channels. -/
  | mgmtMasterRestart (r : Fin 18) (v : BitVec 8)
  /-- `LK_TAKE` (R409). A read of LK_TAKE takes a free lock for the reader and reports its state. -/
  | lkTake (m : Fin 19) (k : Fin 32)
  /-- `LK_RELEASE` (R410). A write of 1 by the holder frees the lock. -/
  | lkRelease (m : Fin 19) (k : Fin 32) (v : BitVec 8)
  /-- `LK_FORCE` (R410). A write of 1 frees a held lock whatever its holder and records the forced release. -/
  | lkForce (r : Fin 18) (k : Fin 32) (v : BitVec 8)
  /-- `MB_CFG_WRITE` (R413). A write of MB_CFG sets a channel's sender and receiver while the channel is empty. -/
  | mbCfgWrite (r : Fin 18) (c : Fin 12) (v : BitVec 16)
  /-- `MB_DATA_WRITE` (R414). The sender's write of MB_DATA sends a message, fills the channel and raises MB_MSG. -/
  | mbDataWrite (m : Fin 19) (c : Fin 12) (data : List Byte)
  /-- `MB_ACK` (R415). The receiver's write of 1 empties the channel and raises MB_EMPTY. -/
  | mbAck (m : Fin 19) (c : Fin 12) (v : BitVec 8)
  /-- `PC_ENABLE_WRITE` (R420). A write of PC_ENABLE starts and stops the named counters in one fabric cycle. -/
  | pcEnableWrite (r : Fin 18) (v : BitVec 8)
  /-- `PC_REPROGRAM` (R424). A write to PC_CFG, PC_ADDR_LO, PC_ADDR_HI or PC_PRESET reprograms the counter and discards its pending overflow. -/
  | pcReprogram (r : Fin 18) (k : Fin 8) (w : Fin 4) (v : BitVec 64)
  /-- `PC_LO_READ` (R421). A read of PC_LO latches the high bits for the reader's next PC_HI read. -/
  | pcLoRead (m : Fin 19) (k : Fin 8)
  /-- `PC_HI_READ` (R421). A read of PC_HI returns and consumes the latch, or returns the live bits. -/
  | pcHiRead (m : Fin 19) (k : Fin 8)
  /-- `PC_STATUS_READ` (R421). A read of PC_STATUS returns the status and clears WRAP. -/
  | pcStatusRead (m : Fin 19) (k : Fin 8)
  /-- `PC_OVERFLOW` (R423). A counter overflows to 0, sets OVF, may raise PC_OVERFLOW and may sample an address. -/
  | pcOverflow (k : Fin 8) (addr : BitVec 32)
  /-- `EVR_RECORD_WRITE` (R427). The recorder writes the next queued record into its slot and drives its sources. -/
  | evrRecordWrite
  /-- `EVR_ACK_WRITE` (R429). A write of EVR_ACK sets the host's acknowledgement and may re-arm EVR_WATERMARK. -/
  | evrAckWrite (r : Fin 18) (v : BitVec 32)
  /-- `IRQ_CAUSE_WRITE` (R431). A write of 1s to IRQ_CAUSE clears those cause bits and may release IRQ_N. -/
  | irqCauseWrite (r : Fin 18) (g : Fin 32) (v : BitVec 16)
  /-- `IRQ_SW_SET` (R433). A write raises the software interrupt sources named by its bits. -/
  | irqSwSet (r : Fin 18) (v : BitVec 8)
  /-- `BOOT_COMPLETE` (R442). The boot of a skein ends with CORE_READY, or falls back to the other slot or to recovery. -/
  | bootComplete (flash : Bool) (rootOk : Bool)
  /-- `FW_ACTIVATE` (R446). A write of 1 sets the VALID slot in TRIAL, resets the core and boots it. -/
  | fwActivate (r : Fin 18) (v : BitVec 8)
  /-- `FW_CONFIRM` (R447). A write of 1 confirms the trial slot as ACTIVE. -/
  | fwConfirm (r : Fin 18) (v : BitVec 8)
  /-- `TRIAL_TIME_SERVED` (R447). The trial count reaches FW_TRIAL_S and the slot is confirmed. -/
  | trialTimeServed
  /-- `TRIAL_RECORD_TIMER` (R441). Every 60 s during a trial the slot-state record is written. -/
  | trialRecordTimer
  /-- `TRIAL_BOOT_TIMEOUT` (R447). No CORE_READY within 5 s of the skein's start fails the trial. -/
  | trialBootTimeout
  /-- `FW_SVN_COMMIT` (R448). A write of 1 programs MIN_SVN up to the active skein's SVN. -/
  | fwSvnCommit (r : Fin 18) (v : BitVec 8) (failed : BitVec 128)
  /-- `SEC_ATTEST_NONCE` (R451). A write of a nonce starts the build of a signed attestation report. -/
  | secAttestNonce (r : Fin 18) (data : List Byte)
  /-- `ATTEST_DONE` (R451). The attestation report is complete, SEC_ATTEST_SEQ increments and ATTEST_DONE is raised. -/
  | attestDone
  /-- `SEC_LC_ADVANCE` (R453). A write of a target state advances the life cycle, programs the fuses and ends grants. -/
  | secLcAdvance (r : Fin 18) (v : BitVec 8)
  /-- `SEC_TOKEN` (R456). A token written through the dictionary is checked and grants or refuses a level. -/
  | secToken (r : Fin 18) (token : List Byte) (eraseOk : Bool)
  /-- `DBG_TOKEN` (R455). The DBG_TOKEN TAP instruction submits a token that is checked at Update-DR. -/
  | dbgToken (token : List Byte) (eraseOk : Bool)
  /-- `EXTEST` (R454). The EXTEST TAP instruction drives the boundary register at the scan level, and acts as BYPASS otherwise. -/
  | extest (pins : BitVec 16) (d : List Bool)
  /-- `IDCODE` (R454). The IDCODE TAP instruction returns 0x164165EB. -/
  | idcode
  /-- `SAMPLE_PRELOAD` (R454). The SAMPLE/PRELOAD TAP instruction samples or preloads the boundary register. -/
  | samplePreload (pins : BitVec 16) (d : List Bool)
  /-- `CLAMP` (R454). The CLAMP TAP instruction acts at the scan level and as BYPASS otherwise. -/
  | clamp (d : List Bool)
  /-- `HIGHZ` (R454). The HIGHZ TAP instruction acts at the scan level and as BYPASS otherwise. -/
  | highz (d : List Bool)
  /-- `DBG_ACCESS` (R458). The DBG_ACCESS TAP instruction gives debug access at the DEBUG or SCAN level. -/
  | dbgAccess (d : List Bool) (op : DebugOp)
  /-- `SCAN_ACCESS` (R459). The SCAN_ACCESS TAP instruction gives access to the scan chains at the SCAN level. -/
  | scanAccess (d : List Bool)
  /-- `BYPASS` (R454). The BYPASS TAP instruction selects the bypass register. -/
  | bypass (code : BitVec 5) (d : List Bool)
  /-- `SEC_DEBUG_CLOSE` (R458). A write of 1 ends the debug session. -/
  | secDebugClose (r : Fin 18) (v : BitVec 8)
  /-- `DEBUG_DURATION_EXPIRY` (R458). The DURATION of a debug grant expires and the session ends. -/
  | debugDurationExpiry
  /-- `SEC_VENDOR_DROP` (R460). A write of 1 ends the writer's Vendor grant. -/
  | secVendorDrop (r : Fin 18) (v : BitVec 8)
  /-- `VENDOR_DURATION_EXPIRY` (R460). The DURATION of a Vendor grant expires and the grant ends. -/
  | vendorDurationExpiry (r : Fin 18)
  /-- `VIN_POR_RELEASE` (R467). 2 ms after VIN rises above 3.00 V, POR is released and the power-up sequence proceeds. -/
  | vinPorRelease (straps : BitVec 3)
  /-- `VIN_UNDER` (R467). VIN below 3.10 V for 10 µs raises VIN_UNDER. -/
  | vinUnder
  /-- `VIN_OVER` (R467). VIN above 3.50 V for 10 µs raises VIN_OVER. -/
  | vinOver
  /-- `VIN_LOSS` (R470). VIN below 2.90 V asserts POR and turns the regulators off. -/
  | vinLoss (deep : Bool)
  /-- `RAIL_FAULT` (R468). A rail out of window for 20 µs, or at its current limit, is declared a rail fault and reported. -/
  | railFault (rail : BitVec 8) (current : Bool)
  /-- `RAIL_FAULT_POR` (R468). A rail fault persisting for 200 µs asserts POR with cause REG_FAULT. -/
  | railFaultPor
  /-- `REG_FAULT_RESTART` (R468). After 100 ms with the regulators off, the power-up sequence runs again, or the device stays Off after three faults. -/
  | regFaultRestart (straps : BitVec 3)
  /-- `RESET_N_ASSERT` (R471). A filtered low on RESET_N resets the device. -/
  | resetNAssert
  /-- `RESET_N_RELEASE` (R487). RESET_N rises and the synthesizers relock on the latched root. -/
  | resetNRelease
  /-- `WAKE_EDGE` (R477). A WAKE edge wakes the masked units or, in Off, performs a POR. -/
  | wakeEdge (straps : BitVec 3)
  /-- `PWR_REQ_WRITE` (R474). A write of PWR_REQ is refused, starts a transition or fills the pending slot. -/
  | pwrReqWrite (r : Fin 18) (u : Fin 22) (v : BitVec 8)
  /-- `PWR_ENTRY_STEP_END` (R476). An entry step ends at an abort point, where the pending slot and wake events are acted on. -/
  | pwrEntryStepEnd (u : Fin 23)
  /-- `PWR_WAKE_DONE` (R479). A unit's wake completes and PWR_TRANSITION_DONE is raised. -/
  | pwrWakeDone (u : Fin 22)
  /-- `PWR_DEVICE_OFF` (R482). A write of 1 switches the device Off through bind-off and a save. -/
  | pwrDeviceOff (r : Fin 18) (v : BitVec 8)
  /-- `PWR_CNT_CLEAR` (R481). A write of 1 clears the power counters. -/
  | pwrCntClear (r : Fin 18) (v : BitVec 8)
  /-- `RST_LANE` (R488). A write resets every named line lane in the same cc. -/
  | rstLane (r : Fin 18) (v : BitVec 16)
  /-- `THERMAL_TRIP` (R491). The trip maximum reaches 125 °C and the device trips lanes and port groups into trip hold. -/
  | thermalTrip
  /-- `THERMAL_RESTART` (R493). After 2 s below 105 °C the device clears the trip and returns the held units to Run. -/
  | thermalRestart
  /-- `THERM_TRIP_TEST` (R496). A write of 1 starts the test of each sensor's trip comparator. -/
  | thermTripTest (r : Fin 18) (v : BitVec 8)
  /-- `TRIP_TEST_DONE` (R496). The 24-period trip test ends and TRIP_TEST_DONE is raised. -/
  | tripTestDone (fired : BitVec 24)
  /-- `BIST_START` (R499). A write of a target code starts a memory BIST. -/
  | bistStart (r : Fin 18) (v : BitVec 8)
  /-- `BIST_STOP` (R503). A write of 1 aborts the running test. -/
  | bistStop (r : Fin 18) (v : BitVec 8)
  /-- `BIST_DONE` (R510). A test ends, its result is judged, it is counted and recorded and BIST_DONE is raised. -/
  | bistDone (fails : List (BitVec 17)) (sig : BitVec 32)
  /-- `REPAIR_APPLY` (R507). After DONE the failing rows are mapped to spare rows, or the spares run out. -/
  | repairApply (lost : Bool)
  /-- `REPAIR_FUSE_CMD` (R509). A write of 1 programs the unfused soft repair mappings into OTP. -/
  | repairFuseCmd (r : Fin 18) (v : BitVec 8) (failed : BitVec 64)
  /-- `BIST_CNT_CLEAR` (R503). A write of 1 clears the BIST counters. -/
  | bistCntClear (r : Fin 18) (v : BitVec 8)
  /-- `HCKI_RETURN` (R137). A forwarded clock HCKIk toggles again after a loss: HCKI_PRESENT sets and, in forwarded-clock mode, each lane of the group trains again. -/
  | hckiReturn (k : Fin 4)
  /-- `HOST_FEC_CODEWORD` (R154). At the end of each RS(544,514) codeword of a port, the host FEC unit decodes it, corrects it in terminate mode and updates the counters and histogram, or passes it unchanged. -/
  | hostFecCodeword (k : Fin 4) (rx : Bool) (p : Fin 4) (skew : BitVec 16) (syms : Option (Fin 16))
  /-- `RING_FRAME_ARRIVAL` (R353). A ring frame whose type has no step of its own arrives (an own frame returning, a reply or EVENT of another device, an unknown type, or a frame failing CRC or length) and is stripped, forwarded or counted under R353. -/
  | ringFrameArrival (p : Fin 2) (bytes : List Byte) (void : Bool)
  /-- `MALFORMED_REQUEST` (R374). A request of fewer than 2 bytes, or one whose TWI CRC or LEN is wrong, is discarded and counted, and a request with a reserved CMD or a length that does not fit its command is refused with BAD_CMD. -/
  | malformedRequest (r : Fin 18) (bytes : List Byte) (bad : Bool)
  /-- `TAP_RESET` (R533). A low level on TRST_N resets the test access port. -/
  | tapReset
deriving DecidableEq, Repr

end Sys2Proof
end

