-- ==== Sys2Proof/WellFormed.lean ====
section
/-!
DEFINITION. Well-formed commands: the lengths that the spec's layouts fix for the operands that are lists. A command that
is not well formed is one that no sender can send; the machine gives it a meaning all the same.
-/

namespace Sys2Proof

/-- The lengths of a command's list operands are those of its layout. -/
def Instr.wf : Instr → Bool
  | .write _ _ _ _ data => data.length ≤ 248
  | .registerWrite _ _ _ data _ => data.length ≤ 3670016
  | .writeSeg _ _ _ _ data _ => 1 ≤ data.length && data.length ≤ 252
  | .mbDataWrite _ _ data => data.length ≤ 64
  | .secAttestNonce _ data => data.length == 32
  | .secToken _ d _ => d.length == 3437
  | .dbgToken d _ => d.length == 3437
  | .adaptUpdate _ cc => cc.length == 4 && cc.all fun codes => codes.length == 128
  | .txEpochBoundary _ freqs => freqs.length == 8
  | .codewordBoundaryApply _ rx bits tone => if rx then bits.isEmpty && tone.isEmpty else bits.length == 576 && tone.length ≤ 576
  | .hostPeriodBoundary _ fills => fills.length ≤ 8
  | .txeqReq _ _ _ _ taps => taps.length == 9
  | .txeqAck _ _ _ _ taps => taps.length == 9
  | .picotPilotPair _ _ _ got => got.length ≤ 255
  | .picotPayloadEnd _ payload _ _ _ _ => 1 ≤ payload.length && payload.length ≤ 255
  | .laneCalComplete _ corr => corr.length == 17
  | .ringFrameArrival _ bytes _ => 10 ≤ bytes.length && bytes.length ≤ 522
  | .synthLock dist => dist.length ≤ 16
  | .bypass code _ => !([0x00, 0x01, 0x02, 0x04, 0x05, 0x10, 0x11, 0x12].contains code.toNat)
  | .malformedRequest _ bytes _ => bytes.length ≤ 256
  | _ => true

end Sys2Proof
end

