-- ==== Sys2Proof/Decode.lean ====
section
/-!
DEFINITION. The word of a command. The operation table gives no row any bits: commands arrive as requests, messages and
events with the operands of `Instr`, not as encoded words.
-/

namespace Sys2Proof

/-- The command that a word spells by the table's bits: none, since no row of the table has bits. -/
def decodeTableWord (_nbits _w : Nat) : Option Instr := none

end Sys2Proof
end

