-- ==== Sys2Proof/Config.lean ====
section
/-!
DEFINITION. What an implementation fixes and what the spec leaves open. Every name here is opaque, without a
body: nothing can evaluate it, so a statement that holds holds whatever the value is (log entries 2 to 5).
-/

namespace Sys2Proof.Config

/-- A fresh free value: the n-th value the spec leaves open, read with the counter `State.free` (log entry 2). -/
opaque freeNat : Nat → Nat

/-- Which neighbour a result takes that lies strictly between two integers where the spec states no rounding:
`true` the upper one (log entry 3). -/
opaque roundUp : Int → Nat → Bool

/-- One ADC code in 2^-16 normalized units (R47; log entry 74). -/
opaque codeUnit : Nat

/-- The distance of two alignment markers of a stream in payload bits, by the port mode (IEEE 802.3; log entry 78). -/
opaque markerPeriod : Nat → Nat

/-- A bit of PRBS13Q, PRBS31Q or SSPRQ by its place, and the place that received bits spell (IEEE 802.3; log entry 85). -/
opaque ieeeBit : Nat → Nat → Bool
opaque ieeeSeed : Nat → List Bool → Nat

/-- The running disparity at the start of what a ring port sends at a cc, after the disparity given: the IDLEs or the passing
code groups between are not fixed (log entry 93). -/
opaque fillDisparity : Nat → Bool → Bool

/-- The TARGET in a LINK to a partner of another loop rate, by the cc (log entry 54). -/
opaque heldTarget : Nat → BitVec 2

/-- The device's fused 64-bit unique ID, `ID_UNIQUE` (R3). -/
opaque uniqueId : BitVec 64

/-- A value fused at production, by the number the model gives the fuse (log entry 4). -/
opaque fused : Nat → Nat

/-- Does an Ed25519 signature verify: key, message, signature (standard named by R436 and R455; log entry 5). -/
opaque ed25519Verify : List Byte → List Byte → List Byte → Bool

/-- Does an ML-DSA-65 signature verify: key, message, signature (log entry 5). -/
opaque mldsaVerify : List Byte → List Byte → List Byte → Bool

/-- SHA-384 of a byte string (log entry 5). -/
opaque sha384 : List Byte → List Byte

/-- The public key of an Ed25519 private key, and of an ML-DSA-65 key-generation seed (log entry 5). -/
opaque publicEd : List Byte → List Byte
opaque publicMl : List Byte → List Byte

/-- A key wrapped under a key-wrapping key, and unwrapped (log entry 5). -/
opaque wrap : List Byte → List Byte → List Byte
opaque unwrap : List Byte → List Byte → List Byte

/-- The signature with a private key, 1 Ed25519 or 2 ML-DSA-65: the key, the message (log entry 5). -/
opaque sign : Nat → List Byte → List Byte → List Byte

/-- What an erased byte of the flash reads as (R440; log entry 114). -/
opaque erasedByte : Byte

end Sys2Proof.Config
end

