-- ==== Sys2Proof/Machine/Keys.lean ====
section
/-!
DEFINITION. The names of the object dictionary's entries (13_object_dictionary.md, R366, R395).
A `Key` names one entry by its block and its place in it, so that "`LINE_ADMIN` of L3" is
`K.LINE_ADMIN 3`; `Key.index` gives the 16-bit index of Table 12 of that chapter.
-/

namespace Sys2Proof.Machine

/-- The blocks of Table 13-12. `dev` holds every block that stands once (its offset is the whole index);
the others stand once per unit. -/
inductive Blk where
  | dev
  | line (n : Fin 16)
  | host (m : Fin 32)
  | pg (k : Fin 4)
  | port (p : Fin 2)
  | loop (j : Fin 64)
  | aux (a : Fin 48)
  | og (g : Fin 16)
  | chain (e : Fin 64)
  | pwr (u : Fin 22)
  | irq (g : Fin 32)
  | mb (c : Fin 12)
  | pc (k : Fin 8)
  | slot (x : Fin 2)
deriving DecidableEq, Repr

/-- One entry: its block, the offset of its index in the block, and its subindex (R366). -/
structure Key where
  blk : Blk
  off : Nat
  sub : Nat
deriving DecidableEq, Repr

/-- A number per block, which orders blocks in the store's canonical form. -/
def Blk.rank : Blk → Nat
  | .dev => 0
  | .line n => 64 + n.val
  | .host m => 128 + m.val
  | .pg k => 192 + k.val
  | .port p => 256 + p.val
  | .loop j => 320 + j.val
  | .aux a => 384 + a.val
  | .og g => 448 + g.val
  | .chain e => 512 + e.val
  | .pwr u => 576 + u.val
  | .irq g => 640 + g.val
  | .mb c => 704 + c.val
  | .pc k => 768 + k.val
  | .slot x => 832 + x.val

/-- Strict lexicographic order of keys: the store lists its keys in this order. -/
def Key.lt (a b : Key) : Bool :=
  a.blk.rank < b.blk.rank ||
  (a.blk.rank == b.blk.rank && (a.off < b.off || (a.off == b.off && a.sub < b.sub)))

/-- The 16-bit index of an entry (Tables 13-12 and 13-13). -/
def Key.index (k : Key) : Nat :=
  match k.blk with
  | .dev => k.off
  | .line n => 0x4000 + n.val * 0x40 + k.off
  | .host m => 0x3000 + m.val * 0x20 + k.off
  | .pg p => 0x3800 + p.val * 0x10 + k.off
  | .port p => if k.off < 0xF0 then 0x2000 + p.val + k.off else 0x2000 + p.val * 2 + k.off
  | .loop j => 0x6000 + k.off * 0x100 + j.val
  | .aux a => 0x6800 + a.val
  | .og g => 0x6900 + g.val
  | .chain e => 0x7000 + k.off * 0x100 + e.val
  | .pwr u => 0x8010 + u.val
  | .irq g => 0x9020 + g.val
  | .mb c => 0x9420 + c.val
  | .pc c => 0xC000 + c.val
  | .slot x => 0xA011 + x.val

/-- The entry a request names by index and subindex (Table 13-12): the block that holds the index. -/
def Key.ofIndex (idx sub : Nat) : Key :=
  if h : 0x4000 ≤ idx ∧ idx < 0x4400 then
    ⟨.line ⟨(idx - 0x4000) / 0x40, by omega⟩, (idx - 0x4000) % 0x40, sub⟩
  else if h : 0x3000 ≤ idx ∧ idx < 0x3400 then
    ⟨.host ⟨(idx - 0x3000) / 0x20, by omega⟩, (idx - 0x3000) % 0x20, sub⟩
  else if h : 0x3800 ≤ idx ∧ idx < 0x3840 then
    ⟨.pg ⟨(idx - 0x3800) / 0x10, by omega⟩, (idx - 0x3800) % 0x10, sub⟩
  else if h : 0x2001 ≤ idx ∧ idx < 0x2003 then ⟨.port ⟨idx - 0x2001, by omega⟩, 1, sub⟩
  else if h : 0x20F0 ≤ idx ∧ idx < 0x20F4 then
    ⟨.port ⟨(idx - 0x20F0) / 2, by omega⟩, 0xF0 + (idx - 0x20F0) % 2, sub⟩
  else if h : 0x6100 ≤ idx ∧ idx < 0x6600 ∧ (idx - 0x6000) % 0x100 < 64 then
    ⟨.loop ⟨(idx - 0x6000) % 0x100, h.2.2⟩, (idx - 0x6000) / 0x100, sub⟩
  else if h : 0x6800 ≤ idx ∧ idx < 0x6830 then ⟨.aux ⟨idx - 0x6800, by omega⟩, 0, sub⟩
  else if h : 0x6900 ≤ idx ∧ idx < 0x6910 then ⟨.og ⟨idx - 0x6900, by omega⟩, 0, sub⟩
  else if h : 0x7100 ≤ idx ∧ idx < 0x7500 ∧ (idx - 0x7000) % 0x100 < 64 then
    ⟨.chain ⟨(idx - 0x7000) % 0x100, h.2.2⟩, (idx - 0x7000) / 0x100, sub⟩
  else if h : 0x8010 ≤ idx ∧ idx < 0x8026 then ⟨.pwr ⟨idx - 0x8010, by omega⟩, 0, sub⟩
  else if h : 0x9020 ≤ idx ∧ idx < 0x9040 then ⟨.irq ⟨idx - 0x9020, by omega⟩, 0, sub⟩
  else if h : 0x9420 ≤ idx ∧ idx < 0x942C then ⟨.mb ⟨idx - 0x9420, by omega⟩, 0, sub⟩
  else if h : 0xC000 ≤ idx ∧ idx < 0xC008 then ⟨.pc ⟨idx - 0xC000, by omega⟩, 0, sub⟩
  else if h : 0xA011 ≤ idx ∧ idx < 0xA013 then ⟨.slot ⟨idx - 0xA011, by omega⟩, 0, sub⟩
  else ⟨.dev, idx, sub⟩

end Sys2Proof.Machine

namespace Sys2Proof.Machine.K

/-- `ID_PART`, R3. -/
@[reducible] def ID_PART : Key := ⟨.dev, 0x1000, 0x01⟩
/-- `ID_STEPPING`, R3. -/
@[reducible] def ID_STEPPING : Key := ⟨.dev, 0x1000, 0x02⟩
/-- `ID_UNIQUE`, R3. -/
@[reducible] def ID_UNIQUE : Key := ⟨.dev, 0x1000, 0x03⟩
/-- `PG_MODE`, R12. -/
@[reducible] def PG_MODE (k : Fin 4) : Key := ⟨(.pg k), 0x00, 0x01⟩
/-- `CLK_REF_SRC`, R14. -/
@[reducible] def CLK_REF_SRC : Key := ⟨.dev, 0x5100, 0x01⟩
/-- `CLK_STATUS`, R24. -/
@[reducible] def CLK_STATUS : Key := ⟨.dev, 0x5100, 0x02⟩
/-- `CLK_REF_LOSS_COUNT`, R24. -/
@[reducible] def CLK_REF_LOSS_COUNT : Key := ⟨.dev, 0x5100, 0x03⟩
/-- `RCLKO0_CFG`, R25. -/
@[reducible] def RCLKO0_CFG : Key := ⟨.dev, 0x5110, 0x01⟩
/-- `RCLKO1_CFG`, R25. -/
@[reducible] def RCLKO1_CFG : Key := ⟨.dev, 0x5110, 0x02⟩
/-- `AVAIL_OUTAGE_US`, R31. -/
@[reducible] def AVAIL_OUTAGE_US : Key := ⟨.dev, 0x9100, 0x01⟩
/-- `AVAIL_CNT_LINE`, R31. -/
@[reducible] def AVAIL_CNT_LINE : Key := ⟨.dev, 0x9100, 0x02⟩
/-- `AVAIL_CNT_POWER`, R31. -/
@[reducible] def AVAIL_CNT_POWER : Key := ⟨.dev, 0x9100, 0x03⟩
/-- `AVAIL_CNT_TRIP`, R31. -/
@[reducible] def AVAIL_CNT_TRIP : Key := ⟨.dev, 0x9100, 0x04⟩
/-- `AVAIL_CLEAR`, R31. -/
@[reducible] def AVAIL_CLEAR : Key := ⟨.dev, 0x9100, 0x05⟩
/-- `LINE_CTLE_PEAK`, R37. -/
@[reducible] def LINE_CTLE_PEAK (n : Fin 16) : Key := ⟨(.line n), 0x01, 0x01⟩
/-- `LINE_CTLE_ADAPT`, R38. -/
@[reducible] def LINE_CTLE_ADAPT (n : Fin 16) : Key := ⟨(.line n), 0x01, 0x02⟩
/-- `LINE_AGC_TARGET`, R39. -/
@[reducible] def LINE_AGC_TARGET (n : Fin 16) : Key := ⟨(.line n), 0x02, 0x01⟩
/-- `LINE_VGA_GAIN`, R39. -/
@[reducible] def LINE_VGA_GAIN (n : Fin 16) : Key := ⟨(.line n), 0x02, 0x02⟩
/-- `LINE_AGC_EN`, R39. -/
@[reducible] def LINE_AGC_EN (n : Fin 16) : Key := ⟨(.line n), 0x02, 0x03⟩
/-- `LINE_LOS_THR`, R40. -/
@[reducible] def LINE_LOS_THR (n : Fin 16) : Key := ⟨(.line n), 0x03, 0x01⟩
/-- `LINE_LOS_STATUS`, R40. -/
@[reducible] def LINE_LOS_STATUS (n : Fin 16) : Key := ⟨(.line n), 0x03, 0x02⟩
/-- `LINE_SLOT_MAP`, R42. -/
@[reducible] def LINE_SLOT_MAP (n : Fin 16) (i : Nat) : Key := ⟨(.line n), 0x04, 0x01 + i⟩
/-- `LINE_SLOT_SPARE`, R42. -/
@[reducible] def LINE_SLOT_SPARE (n : Fin 16) : Key := ⟨(.line n), 0x04, 0x11⟩
/-- `LINE_SLOT_GEN`, R42. -/
@[reducible] def LINE_SLOT_GEN (n : Fin 16) : Key := ⟨(.line n), 0x04, 0x12⟩
/-- `LINE_SLOT_MAP_ALL`, R42. -/
@[reducible] def LINE_SLOT_MAP_ALL (n : Fin 16) : Key := ⟨(.line n), 0x04, 0x13⟩
/-- `LINE_ADC_CLIP`, R43. -/
@[reducible] def LINE_ADC_CLIP (n : Fin 16) : Key := ⟨(.line n), 0x1E, 0x03⟩
/-- `LINE_CDR_KP`, R45. -/
@[reducible] def LINE_CDR_KP (n : Fin 16) : Key := ⟨(.line n), 0x05, 0x01⟩
/-- `LINE_CDR_KI`, R45. -/
@[reducible] def LINE_CDR_KI (n : Fin 16) : Key := ⟨(.line n), 0x05, 0x02⟩
/-- `LINE_CDR_FREQ`, R45. -/
@[reducible] def LINE_CDR_FREQ (n : Fin 16) : Key := ⟨(.line n), 0x05, 0x03⟩
/-- `LINE_CDR_PHASE`, R45. -/
@[reducible] def LINE_CDR_PHASE (n : Fin 16) : Key := ⟨(.line n), 0x05, 0x04⟩
/-- `LINE_CDR_HOLD`, R45. -/
@[reducible] def LINE_CDR_HOLD (n : Fin 16) : Key := ⟨(.line n), 0x05, 0x05⟩
/-- `LINE_FFE_LEN`, R47. -/
@[reducible] def LINE_FFE_LEN (n : Fin 16) : Key := ⟨(.line n), 0x10, 0x01⟩
/-- `LINE_FFE_MAIN`, R47. -/
@[reducible] def LINE_FFE_MAIN (n : Fin 16) : Key := ⟨(.line n), 0x10, 0x02⟩
/-- `LINE_FFE_MU_ACQ`, R47. -/
@[reducible] def LINE_FFE_MU_ACQ (n : Fin 16) : Key := ⟨(.line n), 0x10, 0x03⟩
/-- `LINE_FFE_MU_TRK`, R47. -/
@[reducible] def LINE_FFE_MU_TRK (n : Fin 16) : Key := ⟨(.line n), 0x10, 0x04⟩
/-- `LINE_FFE_SNAP`, R63. -/
@[reducible] def LINE_FFE_SNAP (n : Fin 16) : Key := ⟨(.line n), 0x11, 0x01⟩
/-- `LINE_FFE_SNAP_SEQ`, R63. -/
@[reducible] def LINE_FFE_SNAP_SEQ (n : Fin 16) : Key := ⟨(.line n), 0x11, 0x02⟩
/-- `LINE_FFE_TAP`, R48. -/
@[reducible] def LINE_FFE_TAP (n : Fin 16) (i : Nat) : Key := ⟨(.line n), 0x12, 0x01 + i⟩
/-- `LINE_NLC_EN`, R51. -/
@[reducible] def LINE_NLC_EN (n : Fin 16) : Key := ⟨(.line n), 0x13, 0x01⟩
/-- `LINE_NLC_MU_ACQ`, R51. -/
@[reducible] def LINE_NLC_MU_ACQ (n : Fin 16) : Key := ⟨(.line n), 0x13, 0x02⟩
/-- `LINE_NLC_MU_TRK`, R51. -/
@[reducible] def LINE_NLC_MU_TRK (n : Fin 16) : Key := ⟨(.line n), 0x13, 0x03⟩
/-- `LINE_NLC_LUT`, R51. -/
@[reducible] def LINE_NLC_LUT (n : Fin 16) (i : Nat) : Key := ⟨(.line n), 0x14, 0x01 + i⟩
/-- `LINE_MLSE_MODE`, R53. -/
@[reducible] def LINE_MLSE_MODE (n : Fin 16) : Key := ⟨(.line n), 0x15, 0x01⟩
/-- `LINE_MLSE_H1`, R53. -/
@[reducible] def LINE_MLSE_H1 (n : Fin 16) : Key := ⟨(.line n), 0x15, 0x02⟩
/-- `LINE_MLSE_H2`, R53. -/
@[reducible] def LINE_MLSE_H2 (n : Fin 16) : Key := ⟨(.line n), 0x15, 0x03⟩
/-- `LINE_RX_PRECODE`, R53. -/
@[reducible] def LINE_RX_PRECODE (n : Fin 16) : Key := ⟨(.line n), 0x15, 0x04⟩
/-- `LINE_MLSE_MU_ACQ`, R53. -/
@[reducible] def LINE_MLSE_MU_ACQ (n : Fin 16) : Key := ⟨(.line n), 0x15, 0x05⟩
/-- `LINE_MLSE_MU_TRK`, R53. -/
@[reducible] def LINE_MLSE_MU_TRK (n : Fin 16) : Key := ⟨(.line n), 0x15, 0x06⟩
/-- `LINE_ERASE_THR`, R56. -/
@[reducible] def LINE_ERASE_THR (n : Fin 16) : Key := ⟨(.line n), 0x16, 0x01⟩
/-- `LINE_ERASE_MAX`, R56. -/
@[reducible] def LINE_ERASE_MAX (n : Fin 16) : Key := ⟨(.line n), 0x16, 0x02⟩
/-- `LINE_ERASE_COUNT`, R56. -/
@[reducible] def LINE_ERASE_COUNT (n : Fin 16) : Key := ⟨(.line n), 0x16, 0x03⟩
/-- `LINE_ADAPT_CTRL`, R59. -/
@[reducible] def LINE_ADAPT_CTRL (n : Fin 16) : Key := ⟨(.line n), 0x17, 0x01⟩
/-- `LINE_ADAPT_STATUS`, R59. -/
@[reducible] def LINE_ADAPT_STATUS (n : Fin 16) : Key := ⟨(.line n), 0x18, 0x01⟩
/-- `LINE_ADAPT_ACQ_CC`, R58. -/
@[reducible] def LINE_ADAPT_ACQ_CC (n : Fin 16) : Key := ⟨(.line n), 0x19, 0x01⟩
/-- `LINE_BLT_EN`, R50. -/
@[reducible] def LINE_BLT_EN (n : Fin 16) : Key := ⟨(.line n), 0x1A, 0x01⟩
/-- `LINE_BLT_SHIFT`, R50. -/
@[reducible] def LINE_BLT_SHIFT (n : Fin 16) : Key := ⟨(.line n), 0x1A, 0x02⟩
/-- `LINE_LQM_WINDOW`, R65. -/
@[reducible] def LINE_LQM_WINDOW (n : Fin 16) : Key := ⟨(.line n), 0x1B, 0x01⟩
/-- `LINE_LQM_CLEAR`, R65. -/
@[reducible] def LINE_LQM_CLEAR (n : Fin 16) : Key := ⟨(.line n), 0x1B, 0x02⟩
/-- `LINE_LQM_SNR_ALARM`, R66. -/
@[reducible] def LINE_LQM_SNR_ALARM (n : Fin 16) : Key := ⟨(.line n), 0x1B, 0x03⟩
/-- `LINE_LQM_SNR`, R66. -/
@[reducible] def LINE_LQM_SNR (n : Fin 16) : Key := ⟨(.line n), 0x1C, 0x01⟩
/-- `LINE_LQM_SNR_LEVEL`, R66. -/
@[reducible] def LINE_LQM_SNR_LEVEL (n : Fin 16) (i : Nat) : Key := ⟨(.line n), 0x1C, 0x02 + i⟩
/-- `LINE_LQM_MEAN_LEVEL`, R66. -/
@[reducible] def LINE_LQM_MEAN_LEVEL (n : Fin 16) (i : Nat) : Key := ⟨(.line n), 0x1C, 0x06 + i⟩
/-- `LINE_LQM_SEQ`, R66. -/
@[reducible] def LINE_LQM_SEQ (n : Fin 16) : Key := ⟨(.line n), 0x1C, 0x0A⟩
/-- `LINE_LQM_HIST`, R66. -/
@[reducible] def LINE_LQM_HIST (n : Fin 16) : Key := ⟨(.line n), 0x1D, 0x01⟩
/-- `LINE_SLICER_DIFF`, R66. -/
@[reducible] def LINE_SLICER_DIFF (n : Fin 16) : Key := ⟨(.line n), 0x1E, 0x01⟩
/-- `LINE_SYM_ERR`, R66. -/
@[reducible] def LINE_SYM_ERR (n : Fin 16) : Key := ⟨(.line n), 0x1E, 0x02⟩
/-- `LINE_GUARD_TRIPS`, R61. -/
@[reducible] def LINE_GUARD_TRIPS (n : Fin 16) : Key := ⟨(.line n), 0x1E, 0x04⟩
/-- `LINE_SWATCH_POINT`, R67. -/
@[reducible] def LINE_SWATCH_POINT (n : Fin 16) : Key := ⟨(.line n), 0x1F, 0x01⟩
/-- `LINE_SWATCH_TRIGGER`, R67. -/
@[reducible] def LINE_SWATCH_TRIGGER (n : Fin 16) : Key := ⟨(.line n), 0x1F, 0x02⟩
/-- `LINE_SWATCH_PRE`, R67. -/
@[reducible] def LINE_SWATCH_PRE (n : Fin 16) : Key := ⟨(.line n), 0x1F, 0x03⟩
/-- `LINE_SWATCH_DECIM`, R67. -/
@[reducible] def LINE_SWATCH_DECIM (n : Fin 16) : Key := ⟨(.line n), 0x1F, 0x04⟩
/-- `LINE_SWATCH_ARM`, R67. -/
@[reducible] def LINE_SWATCH_ARM (n : Fin 16) : Key := ⟨(.line n), 0x1F, 0x05⟩
/-- `LINE_SWATCH_STATUS`, R67. -/
@[reducible] def LINE_SWATCH_STATUS (n : Fin 16) : Key := ⟨(.line n), 0x1F, 0x06⟩
/-- `LINE_SWATCH_TRIG_TIME`, R67. -/
@[reducible] def LINE_SWATCH_TRIG_TIME (n : Fin 16) : Key := ⟨(.line n), 0x1F, 0x07⟩
/-- `LINE_SWATCH_SUBST_INDEX`, R67. -/
@[reducible] def LINE_SWATCH_SUBST_INDEX (n : Fin 16) : Key := ⟨(.line n), 0x1F, 0x08⟩
/-- `LINE_SWATCH_SUBST_COUNT`, R67. -/
@[reducible] def LINE_SWATCH_SUBST_COUNT (n : Fin 16) : Key := ⟨(.line n), 0x1F, 0x09⟩
/-- `LINE_SWATCH_DATA`, R67. -/
@[reducible] def LINE_SWATCH_DATA (n : Fin 16) : Key := ⟨(.line n), 0x1F, 0x0A⟩
/-- `LINE_TX_OUT_MODE`, R90. -/
@[reducible] def LINE_TX_OUT_MODE (n : Fin 16) : Key := ⟨(.line n), 0x20, 0x01⟩
/-- `LINE_TX_OUT_EN`, R90. -/
@[reducible] def LINE_TX_OUT_EN (n : Fin 16) : Key := ⟨(.line n), 0x20, 0x02⟩
/-- `LINE_TX_SWING`, R90. -/
@[reducible] def LINE_TX_SWING (n : Fin 16) : Key := ⟨(.line n), 0x20, 0x03⟩
/-- `LINE_TX_IFS`, R90. -/
@[reducible] def LINE_TX_IFS (n : Fin 16) : Key := ⟨(.line n), 0x20, 0x04⟩
/-- `LINE_PRECODE_REQ`, R77. -/
@[reducible] def LINE_PRECODE_REQ (n : Fin 16) : Key := ⟨(.line n), 0x21, 0x01⟩
/-- `LINE_TX_PRECODE`, R76. -/
@[reducible] def LINE_TX_PRECODE (n : Fin 16) : Key := ⟨(.line n), 0x21, 0x02⟩
/-- `LINE_TX_LEVEL`, R78. -/
@[reducible] def LINE_TX_LEVEL (n : Fin 16) (i : Nat) : Key := ⟨(.line n), 0x22, 0x01 + i⟩
/-- `LINE_TX_FFE_MAIN`, R79. -/
@[reducible] def LINE_TX_FFE_MAIN (n : Fin 16) : Key := ⟨(.line n), 0x23, 0x01⟩
/-- `LINE_TX_FFE_SUM`, R79. -/
@[reducible] def LINE_TX_FFE_SUM (n : Fin 16) : Key := ⟨(.line n), 0x23, 0x02⟩
/-- `LINE_TX_FFE_TAP`, R79. -/
@[reducible] def LINE_TX_FFE_TAP (n : Fin 16) (i : Nat) : Key := ⟨(.line n), 0x24, 0x01 + i⟩
/-- `LINE_TX_PD_LUT`, R83. -/
@[reducible] def LINE_TX_PD_LUT (n : Fin 16) (i : Nat) : Key := ⟨(.line n), 0x25, 0x01 + i⟩
/-- `LINE_TX_PD_EN`, R83. -/
@[reducible] def LINE_TX_PD_EN (n : Fin 16) : Key := ⟨(.line n), 0x26, 0x01⟩
/-- `LINE_PICOT_DEPTH`, R84. -/
@[reducible] def LINE_PICOT_DEPTH (n : Fin 16) : Key := ⟨(.line n), 0x27, 0x01⟩
/-- `LINE_TX_SKEW`, R89. -/
@[reducible] def LINE_TX_SKEW (n : Fin 16) : Key := ⟨(.line n), 0x28, 0x01⟩
/-- `LINE_TX_SRC`, R95. -/
@[reducible] def LINE_TX_SRC (n : Fin 16) : Key := ⟨(.line n), 0x29, 0x01⟩
/-- `LINE_TX_TEST_SRC`, R95. -/
@[reducible] def LINE_TX_TEST_SRC (n : Fin 16) : Key := ⟨(.line n), 0x29, 0x02⟩
/-- `LINE_TX_DAC_CLIP`, R86. -/
@[reducible] def LINE_TX_DAC_CLIP (n : Fin 16) : Key := ⟨(.line n), 0x2A, 0x01⟩
/-- `LINE_TX_FAULT`, R93. -/
@[reducible] def LINE_TX_FAULT (n : Fin 16) : Key := ⟨(.line n), 0x2A, 0x02⟩
/-- `LINE_TX_QUEUE_SLIPS`, R88. -/
@[reducible] def LINE_TX_QUEUE_SLIPS (n : Fin 16) : Key := ⟨(.line n), 0x2A, 0x03⟩
/-- `LINE_FORMAT`, R128. -/
@[reducible] def LINE_FORMAT (n : Fin 16) : Key := ⟨(.line n), 0x30, 0x01⟩
/-- `LINE_LOCK_STATUS`, R123. -/
@[reducible] def LINE_LOCK_STATUS (n : Fin 16) : Key := ⟨(.line n), 0x31, 0x01⟩
/-- `LINE_CW_TOTAL`, R124. -/
@[reducible] def LINE_CW_TOTAL (n : Fin 16) : Key := ⟨(.line n), 0x32, 0x01⟩
/-- `LINE_CW_CLEAN`, R124. -/
@[reducible] def LINE_CW_CLEAN (n : Fin 16) : Key := ⟨(.line n), 0x32, 0x02⟩
/-- `LINE_CW_CORR`, R124. -/
@[reducible] def LINE_CW_CORR (n : Fin 16) (i : Nat) : Key := ⟨(.line n), 0x32, 0x03 + i⟩
/-- `LINE_CW_UNCORR`, R124. -/
@[reducible] def LINE_CW_UNCORR (n : Fin 16) : Key := ⟨(.line n), 0x32, 0x07⟩
/-- `LINE_SYM_CORR`, R124. -/
@[reducible] def LINE_SYM_CORR (n : Fin 16) : Key := ⟨(.line n), 0x32, 0x08⟩
/-- `LINE_BIT_CORR`, R124. -/
@[reducible] def LINE_BIT_CORR (n : Fin 16) : Key := ⟨(.line n), 0x32, 0x09⟩
/-- `LINE_ERASE_TRUE`, R124. -/
@[reducible] def LINE_ERASE_TRUE (n : Fin 16) : Key := ⟨(.line n), 0x32, 0x0A⟩
/-- `LINE_ERASE_FALSE`, R124. -/
@[reducible] def LINE_ERASE_FALSE (n : Fin 16) : Key := ⟨(.line n), 0x32, 0x0B⟩
/-- `LINE_CWLOCK_LOSS`, R124. -/
@[reducible] def LINE_CWLOCK_LOSS (n : Fin 16) : Key := ⟨(.line n), 0x32, 0x0C⟩
/-- `LINE_FRAME_LOSS`, R124. -/
@[reducible] def LINE_FRAME_LOSS (n : Fin 16) : Key := ⟨(.line n), 0x32, 0x0D⟩
/-- `LINE_MARKER_BAD`, R124. -/
@[reducible] def LINE_MARKER_BAD (n : Fin 16) : Key := ⟨(.line n), 0x32, 0x0E⟩
/-- `LINE_TAG_MISS`, R124. -/
@[reducible] def LINE_TAG_MISS (n : Fin 16) : Key := ⟨(.line n), 0x32, 0x0F⟩
/-- `LINE_UNCORR_EPOCH`, R124. -/
@[reducible] def LINE_UNCORR_EPOCH (n : Fin 16) : Key := ⟨(.line n), 0x32, 0x10⟩
/-- `LINE_SYM_CORR_EPOCH`, R124. -/
@[reducible] def LINE_SYM_CORR_EPOCH (n : Fin 16) : Key := ⟨(.line n), 0x32, 0x11⟩
/-- `LINE_FEC_CNT_ALL`, R124. -/
@[reducible] def LINE_FEC_CNT_ALL (n : Fin 16) : Key := ⟨(.line n), 0x32, 0x12⟩
/-- `LINE_FEC_CLEAR`, R124. -/
@[reducible] def LINE_FEC_CLEAR (n : Fin 16) : Key := ⟨(.line n), 0x33, 0x01⟩
/-- `LINE_UNCORR_THR`, R126. -/
@[reducible] def LINE_UNCORR_THR (n : Fin 16) : Key := ⟨(.line n), 0x33, 0x02⟩
/-- `LINE_FEC_INJECT`, R127. -/
@[reducible] def LINE_FEC_INJECT (n : Fin 16) : Key := ⟨(.line n), 0x34, 0x01⟩
/-- `LINE_FEC_INJ_COUNT`, R127. -/
@[reducible] def LINE_FEC_INJ_COUNT (n : Fin 16) : Key := ⟨(.line n), 0x34, 0x02⟩
/-- `LINE_ROW_TX`, R110. -/
@[reducible] def LINE_ROW_TX (n : Fin 16) : Key := ⟨(.line n), 0x35, 0x01⟩
/-- `LINE_ROW_RX`, R112. -/
@[reducible] def LINE_ROW_RX (n : Fin 16) : Key := ⟨(.line n), 0x35, 0x02⟩
/-- `PG_LINE_FORMAT`, R128. -/
@[reducible] def PG_LINE_FORMAT (k : Fin 4) : Key := ⟨(.pg k), 0x00, 0x02⟩
/-- `HOST_RX_STATUS`, R135. -/
@[reducible] def HOST_RX_STATUS (m : Fin 32) : Key := ⟨(.host m), 0x01, 0x01⟩
/-- `HOST_LOS_THR`, R134. -/
@[reducible] def HOST_LOS_THR (m : Fin 32) : Key := ⟨(.host m), 0x01, 0x02⟩
/-- `HOST_RX_CTLE`, R133. -/
@[reducible] def HOST_RX_CTLE (m : Fin 32) : Key := ⟨(.host m), 0x02, 0x01⟩
/-- `HOST_RX_ADAPT`, R133. -/
@[reducible] def HOST_RX_ADAPT (m : Fin 32) : Key := ⟨(.host m), 0x02, 0x02⟩
/-- `HOST_RX_FRZ`, R133. -/
@[reducible] def HOST_RX_FRZ (m : Fin 32) : Key := ⟨(.host m), 0x02, 0x03⟩
/-- `HOST_RX_SNR`, R133. -/
@[reducible] def HOST_RX_SNR (m : Fin 32) : Key := ⟨(.host m), 0x02, 0x04⟩
/-- `HOST_RX_FFE`, R133. -/
@[reducible] def HOST_RX_FFE (m : Fin 32) : Key := ⟨(.host m), 0x02, 0x05⟩
/-- `HOST_RX_CAPTURE_FRAC`, R139. -/
@[reducible] def HOST_RX_CAPTURE_FRAC (m : Fin 32) : Key := ⟨(.host m), 0x04, 0x01⟩
/-- `HOST_RX_FREQ`, R141. -/
@[reducible] def HOST_RX_FREQ (m : Fin 32) : Key := ⟨(.host m), 0x04, 0x02⟩
/-- `HOST_RX_SLIPS`, R140. -/
@[reducible] def HOST_RX_SLIPS (m : Fin 32) : Key := ⟨(.host m), 0x04, 0x03⟩
/-- `HOST_TX_PRESET`, R149. -/
@[reducible] def HOST_TX_PRESET (m : Fin 32) : Key := ⟨(.host m), 0x08, 0x01⟩
/-- `HOST_TX_AMP`, R151. -/
@[reducible] def HOST_TX_AMP (m : Fin 32) : Key := ⟨(.host m), 0x08, 0x02⟩
/-- `HOST_TX_TAP`, R150. -/
@[reducible] def HOST_TX_TAP (m : Fin 32) (i : Nat) : Key := ⟨(.host m), 0x09, 0x01 + i⟩
/-- `PRBS_GEN_CFG`, R158. -/
@[reducible] def PRBS_GEN_CFG (m : Fin 32) : Key := ⟨(.host m), 0x10, 0x01⟩
/-- `PRBS_INJECT`, R158. -/
@[reducible] def PRBS_INJECT (m : Fin 32) : Key := ⟨(.host m), 0x10, 0x02⟩
/-- `PRBS_INJ_COUNT`, R158. -/
@[reducible] def PRBS_INJ_COUNT (m : Fin 32) : Key := ⟨(.host m), 0x10, 0x03⟩
/-- `PRBS_CHK_CFG`, R158. -/
@[reducible] def PRBS_CHK_CFG (m : Fin 32) : Key := ⟨(.host m), 0x11, 0x01⟩
/-- `PRBS_CHK_STATUS`, R158. -/
@[reducible] def PRBS_CHK_STATUS (m : Fin 32) : Key := ⟨(.host m), 0x11, 0x02⟩
/-- `PRBS_BITS`, R158. -/
@[reducible] def PRBS_BITS (m : Fin 32) : Key := ⟨(.host m), 0x11, 0x03⟩
/-- `PRBS_BIT_ERR`, R158. -/
@[reducible] def PRBS_BIT_ERR (m : Fin 32) : Key := ⟨(.host m), 0x11, 0x04⟩
/-- `PRBS_SYM_ERR`, R158. -/
@[reducible] def PRBS_SYM_ERR (m : Fin 32) : Key := ⟨(.host m), 0x11, 0x05⟩
/-- `PRBS_LOCK_LOSS`, R158. -/
@[reducible] def PRBS_LOCK_LOSS (m : Fin 32) : Key := ⟨(.host m), 0x11, 0x06⟩
/-- `PRBS_CHK_ALL`, R158. -/
@[reducible] def PRBS_CHK_ALL (m : Fin 32) : Key := ⟨(.host m), 0x11, 0x07⟩
/-- `PRBS_CHK_CLEAR`, R158. -/
@[reducible] def PRBS_CHK_CLEAR (m : Fin 32) : Key := ⟨(.host m), 0x11, 0x08⟩
/-- `PG_CLK_MODE`, R136. -/
@[reducible] def PG_CLK_MODE (k : Fin 4) : Key := ⟨(.pg k), 0x00, 0x03⟩
/-- `PG_FEC_MODE`, R153. -/
@[reducible] def PG_FEC_MODE (k : Fin 4) : Key := ⟨(.pg k), 0x00, 0x04⟩
/-- `PG_HOST_NOLOCK`, R152. -/
@[reducible] def PG_HOST_NOLOCK (k : Fin 4) : Key := ⟨(.pg k), 0x00, 0x05⟩
/-- `PG_RX_MAP`, R144. -/
@[reducible] def PG_RX_MAP (k : Fin 4) (i : Nat) : Key := ⟨(.pg k), 0x01, 0x01 + i⟩
/-- `PG_TX_MAP`, R144. -/
@[reducible] def PG_TX_MAP (k : Fin 4) (i : Nat) : Key := ⟨(.pg k), 0x02, 0x01 + i⟩
/-- `PG_RX_POL`, R144. -/
@[reducible] def PG_RX_POL (k : Fin 4) : Key := ⟨(.pg k), 0x03, 0x01⟩
/-- `PG_TX_POL`, R144. -/
@[reducible] def PG_TX_POL (k : Fin 4) : Key := ⟨(.pg k), 0x03, 0x02⟩
/-- `PG_GB_STATUS`, R148. -/
@[reducible] def PG_GB_STATUS (k : Fin 4) : Key := ⟨(.pg k), 0x04, 0x01⟩
/-- `PG_XPHASE`, R147. -/
@[reducible] def PG_XPHASE (k : Fin 4) : Key := ⟨(.pg k), 0x04, 0x02⟩
/-- `PG_GB_LOCKS`, R148. -/
@[reducible] def PG_GB_LOCKS (k : Fin 4) : Key := ⟨(.pg k), 0x04, 0x03⟩
/-- `PG_GB_SLIPS`, R148. -/
@[reducible] def PG_GB_SLIPS (k : Fin 4) : Key := ⟨(.pg k), 0x04, 0x04⟩
/-- `FEC_CW_TOTAL`, R155. -/
@[reducible] def FEC_CW_TOTAL (k : Fin 4) (i : Nat) : Key := ⟨(.pg k), 0x05, 0x01 + i⟩
/-- `FEC_CW_CORR`, R155. -/
@[reducible] def FEC_CW_CORR (k : Fin 4) (i : Nat) : Key := ⟨(.pg k), 0x05, 0x05 + i⟩
/-- `FEC_CW_UNCORR`, R155. -/
@[reducible] def FEC_CW_UNCORR (k : Fin 4) (i : Nat) : Key := ⟨(.pg k), 0x05, 0x09 + i⟩
/-- `FEC_SYM_CORR`, R155. -/
@[reducible] def FEC_SYM_CORR (k : Fin 4) (i : Nat) : Key := ⟨(.pg k), 0x05, 0x0D + i⟩
/-- `FEC_HIST`, R155. -/
@[reducible] def FEC_HIST (k : Fin 4) : Key := ⟨(.pg k), 0x05, 0x11⟩
/-- `FEC_UNCORR_EPOCH`, R155. -/
@[reducible] def FEC_UNCORR_EPOCH (k : Fin 4) (i : Nat) : Key := ⟨(.pg k), 0x05, 0x12 + i⟩
/-- `FEC_ALL`, R155. -/
@[reducible] def FEC_ALL (k : Fin 4) : Key := ⟨(.pg k), 0x05, 0x16⟩
/-- `FEC_CW_TOTAL_RX`, R155. -/
@[reducible] def FEC_CW_TOTAL_RX (k : Fin 4) (i : Nat) : Key := ⟨(.pg k), 0x06, 0x01 + i⟩
/-- `FEC_CW_CORR_RX`, R155. -/
@[reducible] def FEC_CW_CORR_RX (k : Fin 4) (i : Nat) : Key := ⟨(.pg k), 0x06, 0x05 + i⟩
/-- `FEC_CW_UNCORR_RX`, R155. -/
@[reducible] def FEC_CW_UNCORR_RX (k : Fin 4) (i : Nat) : Key := ⟨(.pg k), 0x06, 0x09 + i⟩
/-- `FEC_SYM_CORR_RX`, R155. -/
@[reducible] def FEC_SYM_CORR_RX (k : Fin 4) (i : Nat) : Key := ⟨(.pg k), 0x06, 0x0D + i⟩
/-- `FEC_HIST_RX`, R155. -/
@[reducible] def FEC_HIST_RX (k : Fin 4) : Key := ⟨(.pg k), 0x06, 0x11⟩
/-- `FEC_UNCORR_EPOCH_RX`, R155. -/
@[reducible] def FEC_UNCORR_EPOCH_RX (k : Fin 4) (i : Nat) : Key := ⟨(.pg k), 0x06, 0x12 + i⟩
/-- `FEC_ALL_RX`, R155. -/
@[reducible] def FEC_ALL_RX (k : Fin 4) : Key := ⟨(.pg k), 0x06, 0x16⟩
/-- `PG_FEC_CLEAR`, R156. -/
@[reducible] def PG_FEC_CLEAR (k : Fin 4) : Key := ⟨(.pg k), 0x07, 0x01⟩
/-- `PG_FEC_UNCORR_THR`, R156. -/
@[reducible] def PG_FEC_UNCORR_THR (k : Fin 4) : Key := ⟨(.pg k), 0x07, 0x02⟩
/-- `HOST_LOS_LANES`, R162. -/
@[reducible] def HOST_LOS_LANES (k : Fin 4) : Key := ⟨(.pg k), 0x08, 0x01⟩
/-- `HOST_ALIGN_CHG_LANES`, R162. -/
@[reducible] def HOST_ALIGN_CHG_LANES (k : Fin 4) : Key := ⟨(.pg k), 0x08, 0x02⟩
/-- `HOST_FREQ_OFFSET_LANES`, R162. -/
@[reducible] def HOST_FREQ_OFFSET_LANES (k : Fin 4) : Key := ⟨(.pg k), 0x08, 0x03⟩
/-- `PG_HCKO_EN`, R142. -/
@[reducible] def PG_HCKO_EN (k : Fin 4) : Key := ⟨(.pg k), 0x09, 0x01⟩
/-- `PG_HCKO_SRC`, R142. -/
@[reducible] def PG_HCKO_SRC (k : Fin 4) : Key := ⟨(.pg k), 0x09, 0x02⟩
/-- `PG_HCKO_SPREAD`, R142. -/
@[reducible] def PG_HCKO_SPREAD (k : Fin 4) : Key := ⟨(.pg k), 0x09, 0x03⟩
/-- `LAT_TX_CC`, R176. -/
@[reducible] def LAT_TX_CC (n : Fin 16) : Key := ⟨(.line n), 0x3A, 0x01⟩
/-- `LAT_TX_ANALOG_FS`, R176. -/
@[reducible] def LAT_TX_ANALOG_FS (n : Fin 16) : Key := ⟨(.line n), 0x3A, 0x02⟩
/-- `LAT_TX_FRAC_A_FS`, R176. -/
@[reducible] def LAT_TX_FRAC_A_FS (n : Fin 16) : Key := ⟨(.line n), 0x3A, 0x03⟩
/-- `LAT_TX_FRAC_B_FS`, R176. -/
@[reducible] def LAT_TX_FRAC_B_FS (n : Fin 16) : Key := ⟨(.line n), 0x3A, 0x04⟩
/-- `LAT_TX_SLIP_A`, R176. -/
@[reducible] def LAT_TX_SLIP_A (n : Fin 16) : Key := ⟨(.line n), 0x3A, 0x05⟩
/-- `LAT_TX_SLIP_B`, R176. -/
@[reducible] def LAT_TX_SLIP_B (n : Fin 16) : Key := ⟨(.line n), 0x3A, 0x06⟩
/-- `LAT_TX_MARKER_A`, R176. -/
@[reducible] def LAT_TX_MARKER_A (n : Fin 16) : Key := ⟨(.line n), 0x3A, 0x07⟩
/-- `LAT_TX_MARKER_B`, R176. -/
@[reducible] def LAT_TX_MARKER_B (n : Fin 16) : Key := ⟨(.line n), 0x3A, 0x08⟩
/-- `LAT_TX_TOTAL_FS`, R176. -/
@[reducible] def LAT_TX_TOTAL_FS (n : Fin 16) : Key := ⟨(.line n), 0x3A, 0x09⟩
/-- `LAT_RX_CC`, R176. -/
@[reducible] def LAT_RX_CC (n : Fin 16) : Key := ⟨(.line n), 0x3B, 0x01⟩
/-- `LAT_RX_ANALOG_FS`, R176. -/
@[reducible] def LAT_RX_ANALOG_FS (n : Fin 16) : Key := ⟨(.line n), 0x3B, 0x02⟩
/-- `LAT_RX_MARKER_A`, R176. -/
@[reducible] def LAT_RX_MARKER_A (n : Fin 16) : Key := ⟨(.line n), 0x3B, 0x03⟩
/-- `LAT_RX_MARKER_B`, R176. -/
@[reducible] def LAT_RX_MARKER_B (n : Fin 16) : Key := ⟨(.line n), 0x3B, 0x04⟩
/-- `LAT_RX_TOTAL_FS`, R176. -/
@[reducible] def LAT_RX_TOTAL_FS (n : Fin 16) : Key := ⟨(.line n), 0x3B, 0x05⟩
/-- `LAT_FRAME_TAU`, R176. -/
@[reducible] def LAT_FRAME_TAU (n : Fin 16) : Key := ⟨(.line n), 0x3C, 0x01⟩
/-- `LAT_SEQ`, R176. -/
@[reducible] def LAT_SEQ (n : Fin 16) : Key := ⟨(.line n), 0x3C, 0x02⟩
/-- `LAT_CAUSE`, R176. -/
@[reducible] def LAT_CAUSE (n : Fin 16) : Key := ⟨(.line n), 0x3C, 0x03⟩
/-- `LAT_EVENT_TIME`, R176. -/
@[reducible] def LAT_EVENT_TIME (n : Fin 16) : Key := ⟨(.line n), 0x3C, 0x04⟩
/-- `LAT_EPOCH_SHORT`, R176. -/
@[reducible] def LAT_EPOCH_SHORT (n : Fin 16) : Key := ⟨(.line n), 0x3C, 0x05⟩
/-- `LAT_EVENT_COUNT`, R176. -/
@[reducible] def LAT_EVENT_COUNT (n : Fin 16) : Key := ⟨(.line n), 0x3C, 0x06⟩
/-- `LAT_STATUS`, R176. -/
@[reducible] def LAT_STATUS (n : Fin 16) : Key := ⟨(.line n), 0x3C, 0x07⟩
/-- `LAT_ALL`, R176. -/
@[reducible] def LAT_ALL (n : Fin 16) : Key := ⟨(.line n), 0x3C, 0x08⟩
/-- `LINE_ADMIN`, R180. -/
@[reducible] def LINE_ADMIN (n : Fin 16) : Key := ⟨(.line n), 0x2B, 0x01⟩
/-- `LINE_CO_CMD`, R181. -/
@[reducible] def LINE_CO_CMD (n : Fin 16) : Key := ⟨(.line n), 0x2B, 0x02⟩
/-- `LINE_CO_ROLE`, R200. -/
@[reducible] def LINE_CO_ROLE (n : Fin 16) : Key := ⟨(.line n), 0x2B, 0x03⟩
/-- `LINE_CO_TIME_EN`, R220. -/
@[reducible] def LINE_CO_TIME_EN (n : Fin 16) : Key := ⟨(.line n), 0x2B, 0x04⟩
/-- `LINE_CO_VERIFY_WIN`, R214. -/
@[reducible] def LINE_CO_VERIFY_WIN (n : Fin 16) : Key := ⟨(.line n), 0x2B, 0x05⟩
/-- `LINE_CO_VERIFY_SER`, R214. -/
@[reducible] def LINE_CO_VERIFY_SER (n : Fin 16) : Key := ⟨(.line n), 0x2B, 0x06⟩
/-- `LINE_CO_VERIFY_UNCORR`, R214. -/
@[reducible] def LINE_CO_VERIFY_UNCORR (n : Fin 16) : Key := ⟨(.line n), 0x2B, 0x07⟩
/-- `LINE_CO_RETRAIN_MAX`, R215. -/
@[reducible] def LINE_CO_RETRAIN_MAX (n : Fin 16) : Key := ⟨(.line n), 0x2B, 0x08⟩
/-- `LINE_CO_PHASE`, R224. -/
@[reducible] def LINE_CO_PHASE (n : Fin 16) : Key := ⟨(.line n), 0x2C, 0x01⟩
/-- `LINE_CO_FLAGS`, R224. -/
@[reducible] def LINE_CO_FLAGS (n : Fin 16) : Key := ⟨(.line n), 0x2C, 0x02⟩
/-- `LINE_CO_PEER_ID`, R224. -/
@[reducible] def LINE_CO_PEER_ID (n : Fin 16) : Key := ⟨(.line n), 0x2C, 0x03⟩
/-- `LINE_CO_SESSION`, R224. -/
@[reducible] def LINE_CO_SESSION (n : Fin 16) : Key := ⟨(.line n), 0x2C, 0x04⟩
/-- `LINE_CO_PEER_SESSION`, R224. -/
@[reducible] def LINE_CO_PEER_SESSION (n : Fin 16) : Key := ⟨(.line n), 0x2C, 0x05⟩
/-- `LINE_CO_AGR`, R224. -/
@[reducible] def LINE_CO_AGR (n : Fin 16) : Key := ⟨(.line n), 0x2C, 0x06⟩
/-- `LINE_CO_PEER_PHASE`, R224. -/
@[reducible] def LINE_CO_PEER_PHASE (n : Fin 16) : Key := ⟨(.line n), 0x2C, 0x07⟩
/-- `LINE_CO_TRAIN_SNR`, R224. -/
@[reducible] def LINE_CO_TRAIN_SNR (n : Fin 16) : Key := ⟨(.line n), 0x2C, 0x08⟩
/-- `LINE_CO_LAST_US`, R224. -/
@[reducible] def LINE_CO_LAST_US (n : Fin 16) : Key := ⟨(.line n), 0x2C, 0x09⟩
/-- `LINE_CO_LAST_FAIL`, R224. -/
@[reducible] def LINE_CO_LAST_FAIL (n : Fin 16) : Key := ⟨(.line n), 0x2C, 0x0A⟩
/-- `LINE_CO_PHASE_TIME`, R224. -/
@[reducible] def LINE_CO_PHASE_TIME (n : Fin 16) : Key := ⟨(.line n), 0x2C, 0x0B⟩
/-- `LINE_CO_FAR_TAPS`, R224. -/
@[reducible] def LINE_CO_FAR_TAPS (n : Fin 16) : Key := ⟨(.line n), 0x2C, 0x0C⟩
/-- `LINE_CO_T_RESP`, R193. -/
@[reducible] def LINE_CO_T_RESP (n : Fin 16) : Key := ⟨(.line n), 0x2D, 0x01⟩
/-- `LINE_CO_RETRIES`, R193. -/
@[reducible] def LINE_CO_RETRIES (n : Fin 16) : Key := ⟨(.line n), 0x2D, 0x02⟩
/-- `LINE_CO_T_BEACON`, R193. -/
@[reducible] def LINE_CO_T_BEACON (n : Fin 16) : Key := ⟨(.line n), 0x2D, 0x03⟩
/-- `LINE_CO_T_KEEPALIVE`, R193. -/
@[reducible] def LINE_CO_T_KEEPALIVE (n : Fin 16) : Key := ⟨(.line n), 0x2D, 0x04⟩
/-- `LINE_CO_T_SILENT`, R193. -/
@[reducible] def LINE_CO_T_SILENT (n : Fin 16) : Key := ⟨(.line n), 0x2D, 0x05⟩
/-- `LINE_CO_T_PHASE`, R193. -/
@[reducible] def LINE_CO_T_PHASE (n : Fin 16) (i : Nat) : Key := ⟨(.line n), 0x2D, 0x06 + i⟩
/-- `LINE_CO_T_LIMIT`, R193. -/
@[reducible] def LINE_CO_T_LIMIT (n : Fin 16) : Key := ⟨(.line n), 0x2D, 0x0B⟩
/-- `LINE_CO_T_STATUS`, R193. -/
@[reducible] def LINE_CO_T_STATUS (n : Fin 16) : Key := ⟨(.line n), 0x2D, 0x0C⟩
/-- `LINE_CO_T_BIND`, R193. -/
@[reducible] def LINE_CO_T_BIND (n : Fin 16) : Key := ⟨(.line n), 0x2D, 0x0D⟩
/-- `LINE_CO_RUNS`, R225. -/
@[reducible] def LINE_CO_RUNS (n : Fin 16) : Key := ⟨(.line n), 0x2E, 0x01⟩
/-- `LINE_CO_RESTARTS`, R225. -/
@[reducible] def LINE_CO_RESTARTS (n : Fin 16) : Key := ⟨(.line n), 0x2E, 0x02⟩
/-- `LINE_CO_RETRANSMIT`, R225. -/
@[reducible] def LINE_CO_RETRANSMIT (n : Fin 16) : Key := ⟨(.line n), 0x2E, 0x03⟩
/-- `LINE_CO_DUP`, R225. -/
@[reducible] def LINE_CO_DUP (n : Fin 16) : Key := ⟨(.line n), 0x2E, 0x04⟩
/-- `LINE_CO_AHEAD`, R225. -/
@[reducible] def LINE_CO_AHEAD (n : Fin 16) : Key := ⟨(.line n), 0x2E, 0x05⟩
/-- `LINE_CO_OOW`, R225. -/
@[reducible] def LINE_CO_OOW (n : Fin 16) : Key := ⟨(.line n), 0x2E, 0x06⟩
/-- `LINE_CO_UNKNOWN`, R225. -/
@[reducible] def LINE_CO_UNKNOWN (n : Fin 16) : Key := ⟨(.line n), 0x2E, 0x07⟩
/-- `LINE_CO_MALFORMED`, R225. -/
@[reducible] def LINE_CO_MALFORMED (n : Fin 16) : Key := ⟨(.line n), 0x2E, 0x08⟩
/-- `LINE_CO_BAD_ACK`, R225. -/
@[reducible] def LINE_CO_BAD_ACK (n : Fin 16) : Key := ⟨(.line n), 0x2E, 0x09⟩
/-- `LINE_CO_STALE`, R225. -/
@[reducible] def LINE_CO_STALE (n : Fin 16) : Key := ⟨(.line n), 0x2E, 0x0A⟩
/-- `LINE_CO_EARLY`, R225. -/
@[reducible] def LINE_CO_EARLY (n : Fin 16) : Key := ⟨(.line n), 0x2E, 0x0B⟩
/-- `LINE_CO_TXEQ_REFUSED`, R225. -/
@[reducible] def LINE_CO_TXEQ_REFUSED (n : Fin 16) : Key := ⟨(.line n), 0x2E, 0x0C⟩
/-- `LINE_CO_TXEQ_DENIED`, R225. -/
@[reducible] def LINE_CO_TXEQ_DENIED (n : Fin 16) : Key := ⟨(.line n), 0x2E, 0x0D⟩
/-- `LINE_CO_REJECT_RX`, R225. -/
@[reducible] def LINE_CO_REJECT_RX (n : Fin 16) : Key := ⟨(.line n), 0x2E, 0x0E⟩
/-- `LINE_CO_REJECT_TX`, R225. -/
@[reducible] def LINE_CO_REJECT_TX (n : Fin 16) : Key := ⟨(.line n), 0x2E, 0x0F⟩
/-- `LINE_CO_CONTRADICT`, R225. -/
@[reducible] def LINE_CO_CONTRADICT (n : Fin 16) : Key := ⟨(.line n), 0x2E, 0x10⟩
/-- `LINE_CO_TIE_YIELD`, R225. -/
@[reducible] def LINE_CO_TIE_YIELD (n : Fin 16) : Key := ⟨(.line n), 0x2E, 0x11⟩
/-- `LINE_CO_SILENCE`, R225. -/
@[reducible] def LINE_CO_SILENCE (n : Fin 16) : Key := ⟨(.line n), 0x2E, 0x12⟩
/-- `LINE_CO_PEER_RESTART`, R225. -/
@[reducible] def LINE_CO_PEER_RESTART (n : Fin 16) : Key := ⟨(.line n), 0x2E, 0x13⟩
/-- `LINE_CO_PHASE_TIMEOUT`, R225. -/
@[reducible] def LINE_CO_PHASE_TIMEOUT (n : Fin 16) : Key := ⟨(.line n), 0x2E, 0x14⟩
/-- `LINE_CO_LIMIT`, R225. -/
@[reducible] def LINE_CO_LIMIT (n : Fin 16) : Key := ⟨(.line n), 0x2E, 0x15⟩
/-- `LINE_CO_RETRAIN`, R225. -/
@[reducible] def LINE_CO_RETRAIN (n : Fin 16) : Key := ⟨(.line n), 0x2E, 0x16⟩
/-- `LINE_CO_REALIGN`, R225. -/
@[reducible] def LINE_CO_REALIGN (n : Fin 16) : Key := ⟨(.line n), 0x2E, 0x17⟩
/-- `LINE_CO_BIND_TX`, R225. -/
@[reducible] def LINE_CO_BIND_TX (n : Fin 16) : Key := ⟨(.line n), 0x2E, 0x18⟩
/-- `LINE_CO_BIND_RX`, R225. -/
@[reducible] def LINE_CO_BIND_RX (n : Fin 16) : Key := ⟨(.line n), 0x2E, 0x19⟩
/-- `LINE_CO_LOOPBACK`, R225. -/
@[reducible] def LINE_CO_LOOPBACK (n : Fin 16) : Key := ⟨(.line n), 0x2E, 0x1A⟩
/-- `LINE_CO_CNT_ALL`, R225. -/
@[reducible] def LINE_CO_CNT_ALL (n : Fin 16) : Key := ⟨(.line n), 0x2E, 0x1B⟩
/-- `LINE_CO_CLEAR`, R225. -/
@[reducible] def LINE_CO_CLEAR (n : Fin 16) : Key := ⟨(.line n), 0x2E, 0x1C⟩
/-- `LINE_CO_TXEQ_POLICY`, R210. -/
@[reducible] def LINE_CO_TXEQ_POLICY (n : Fin 16) : Key := ⟨(.line n), 0x2F, 0x01⟩
/-- `LINE_CO_TXEQ_HOST`, R210. -/
@[reducible] def LINE_CO_TXEQ_HOST (n : Fin 16) (i : Nat) : Key := ⟨(.line n), 0x2F, 0x02 + i⟩
/-- `LINE_CO_TXEQ_GO`, R210. -/
@[reducible] def LINE_CO_TXEQ_GO (n : Fin 16) : Key := ⟨(.line n), 0x2F, 0x0B⟩
/-- `LINE_CO_TXEQ_PRESET`, R210. -/
@[reducible] def LINE_CO_TXEQ_PRESET (n : Fin 16) (i : Nat) : Key := ⟨(.line n), 0x2F, 0x0C + i⟩
/-- `LINE_CO_TXEQ_STEPS`, R210. -/
@[reducible] def LINE_CO_TXEQ_STEPS (n : Fin 16) : Key := ⟨(.line n), 0x2F, 0x15⟩
/-- `PICOT_MODE`, R232. -/
@[reducible] def PICOT_MODE (n : Fin 16) : Key := ⟨(.line n), 0x06, 0x01⟩
/-- `PICOT_TX_CHAN`, R229. -/
@[reducible] def PICOT_TX_CHAN (n : Fin 16) : Key := ⟨(.line n), 0x06, 0x02⟩
/-- `PICOT_RX_CHAN`, R229. -/
@[reducible] def PICOT_RX_CHAN (n : Fin 16) : Key := ⟨(.line n), 0x06, 0x03⟩
/-- `PICOT_DET_THR`, R246. -/
@[reducible] def PICOT_DET_THR (n : Fin 16) : Key := ⟨(.line n), 0x06, 0x04⟩
/-- `PICOT_SQUELCH`, R246. -/
@[reducible] def PICOT_SQUELCH (n : Fin 16) : Key := ⟨(.line n), 0x06, 0x05⟩
/-- `PICOT_RX_STATE`, R252. -/
@[reducible] def PICOT_RX_STATE (n : Fin 16) : Key := ⟨(.line n), 0x07, 0x01⟩
/-- `PICOT_TX_STATE`, R252. -/
@[reducible] def PICOT_TX_STATE (n : Fin 16) : Key := ⟨(.line n), 0x07, 0x02⟩
/-- `PICOT_LAST_RSSI`, R252. -/
@[reducible] def PICOT_LAST_RSSI (n : Fin 16) : Key := ⟨(.line n), 0x07, 0x03⟩
/-- `PICOT_LAST_SNR`, R252. -/
@[reducible] def PICOT_LAST_SNR (n : Fin 16) : Key := ⟨(.line n), 0x07, 0x04⟩
/-- `PICOT_LAST_FOFF`, R252. -/
@[reducible] def PICOT_LAST_FOFF (n : Fin 16) : Key := ⟨(.line n), 0x07, 0x05⟩
/-- `PICOT_LAST_PKT`, R252. -/
@[reducible] def PICOT_LAST_PKT (n : Fin 16) : Key := ⟨(.line n), 0x07, 0x06⟩
/-- `PICOT_PKT_SEQ`, R252. -/
@[reducible] def PICOT_PKT_SEQ (n : Fin 16) : Key := ⟨(.line n), 0x07, 0x07⟩
/-- `PICOT_TX_PACKETS`, R253. -/
@[reducible] def PICOT_TX_PACKETS (n : Fin 16) : Key := ⟨(.line n), 0x08, 0x01⟩
/-- `PICOT_TX_CUT`, R253. -/
@[reducible] def PICOT_TX_CUT (n : Fin 16) : Key := ⟨(.line n), 0x08, 0x02⟩
/-- `PICOT_TX_DROPPED`, R253. -/
@[reducible] def PICOT_TX_DROPPED (n : Fin 16) : Key := ⟨(.line n), 0x08, 0x03⟩
/-- `PICOT_RX_DETECT`, R253. -/
@[reducible] def PICOT_RX_DETECT (n : Fin 16) : Key := ⟨(.line n), 0x08, 0x04⟩
/-- `PICOT_RX_SYNC_FAIL`, R253. -/
@[reducible] def PICOT_RX_SYNC_FAIL (n : Fin 16) : Key := ⟨(.line n), 0x08, 0x05⟩
/-- `PICOT_RX_HDR_FAIL`, R253. -/
@[reducible] def PICOT_RX_HDR_FAIL (n : Fin 16) : Key := ⟨(.line n), 0x08, 0x06⟩
/-- `PICOT_RX_CHAN_MISMATCH`, R253. -/
@[reducible] def PICOT_RX_CHAN_MISMATCH (n : Fin 16) : Key := ⟨(.line n), 0x08, 0x07⟩
/-- `PICOT_RX_SUPERSEDED`, R253. -/
@[reducible] def PICOT_RX_SUPERSEDED (n : Fin 16) : Key := ⟨(.line n), 0x08, 0x08⟩
/-- `PICOT_RX_RESUMED`, R253. -/
@[reducible] def PICOT_RX_RESUMED (n : Fin 16) : Key := ⟨(.line n), 0x08, 0x09⟩
/-- `PICOT_RX_IGNORED`, R253. -/
@[reducible] def PICOT_RX_IGNORED (n : Fin 16) : Key := ⟨(.line n), 0x08, 0x0A⟩
/-- `PICOT_RX_PILOT_LOSS`, R253. -/
@[reducible] def PICOT_RX_PILOT_LOSS (n : Fin 16) : Key := ⟨(.line n), 0x08, 0x0B⟩
/-- `PICOT_RX_PAYLOAD_FAIL`, R253. -/
@[reducible] def PICOT_RX_PAYLOAD_FAIL (n : Fin 16) : Key := ⟨(.line n), 0x08, 0x0C⟩
/-- `PICOT_RX_PACKETS`, R253. -/
@[reducible] def PICOT_RX_PACKETS (n : Fin 16) : Key := ⟨(.line n), 0x08, 0x0D⟩
/-- `PICOT_RX_MODE_MISMATCH`, R253. -/
@[reducible] def PICOT_RX_MODE_MISMATCH (n : Fin 16) : Key := ⟨(.line n), 0x08, 0x0E⟩
/-- `PICOT_CNT_ALL`, R253. -/
@[reducible] def PICOT_CNT_ALL (n : Fin 16) : Key := ⟨(.line n), 0x08, 0x0F⟩
/-- `PICOT_CLEAR`, R253. -/
@[reducible] def PICOT_CLEAR (n : Fin 16) : Key := ⟨(.line n), 0x08, 0x10⟩
/-- `LINE_SS_INTERVAL`, R266. -/
@[reducible] def LINE_SS_INTERVAL (n : Fin 16) : Key := ⟨(.line n), 0x09, 0x01⟩
/-- `LINE_SS_VERIFY_THR`, R266. -/
@[reducible] def LINE_SS_VERIFY_THR (n : Fin 16) : Key := ⟨(.line n), 0x09, 0x02⟩
/-- `LINE_SS_ATTEMPTS`, R266. -/
@[reducible] def LINE_SS_ATTEMPTS (n : Fin 16) : Key := ⟨(.line n), 0x09, 0x03⟩
/-- `LINE_SS_RETEST`, R265. -/
@[reducible] def LINE_SS_RETEST (n : Fin 16) : Key := ⟨(.line n), 0x09, 0x04⟩
/-- `LINE_SS_NEXT_SLOT`, R266. -/
@[reducible] def LINE_SS_NEXT_SLOT (n : Fin 16) : Key := ⟨(.line n), 0x09, 0x05⟩
/-- `LINE_SS_STATUS`, R266. -/
@[reducible] def LINE_SS_STATUS (n : Fin 16) : Key := ⟨(.line n), 0x09, 0x06⟩
/-- `LINE_SS_SLICE`, R266. -/
@[reducible] def LINE_SS_SLICE (n : Fin 16) (i : Nat) : Key := ⟨(.line n), 0x0A, 0x01 + i⟩
/-- `LINE_SS_CORR_ALL`, R266. -/
@[reducible] def LINE_SS_CORR_ALL (n : Fin 16) : Key := ⟨(.line n), 0x0A, 0x12⟩
/-- `LINE_SS_SUBST`, R266. -/
@[reducible] def LINE_SS_SUBST (n : Fin 16) : Key := ⟨(.line n), 0x0B, 0x01⟩
/-- `LINE_SS_OUT_OF_TURN`, R266. -/
@[reducible] def LINE_SS_OUT_OF_TURN (n : Fin 16) : Key := ⟨(.line n), 0x0B, 0x02⟩
/-- `LINE_SS_ATTEMPT_FAIL`, R266. -/
@[reducible] def LINE_SS_ATTEMPT_FAIL (n : Fin 16) : Key := ⟨(.line n), 0x0B, 0x03⟩
/-- `LINE_SS_SLICE_FAILED`, R266. -/
@[reducible] def LINE_SS_SLICE_FAILED (n : Fin 16) : Key := ⟨(.line n), 0x0B, 0x04⟩
/-- `LINE_SS_POSTPONED`, R266. -/
@[reducible] def LINE_SS_POSTPONED (n : Fin 16) : Key := ⟨(.line n), 0x0B, 0x05⟩
/-- `LINE_SS_ROTATIONS`, R266. -/
@[reducible] def LINE_SS_ROTATIONS (n : Fin 16) : Key := ⟨(.line n), 0x0B, 0x06⟩
/-- `LINE_SS_LAST_SUBST`, R266. -/
@[reducible] def LINE_SS_LAST_SUBST (n : Fin 16) : Key := ⟨(.line n), 0x0B, 0x07⟩
/-- `LINE_SS_LAST_FAIL`, R266. -/
@[reducible] def LINE_SS_LAST_FAIL (n : Fin 16) : Key := ⟨(.line n), 0x0B, 0x08⟩
/-- `LINE_SS_CLEAR`, R266. -/
@[reducible] def LINE_SS_CLEAR (n : Fin 16) : Key := ⟨(.line n), 0x0B, 0x09⟩
/-- `LINE_CAL_CMD`, R269. -/
@[reducible] def LINE_CAL_CMD (n : Fin 16) : Key := ⟨(.line n), 0x0C, 0x01⟩
/-- `LINE_CAL_LANE_COUNT`, R270. -/
@[reducible] def LINE_CAL_LANE_COUNT (n : Fin 16) : Key := ⟨(.line n), 0x0C, 0x02⟩
/-- `LINE_CAL_LANE_LAST`, R270. -/
@[reducible] def LINE_CAL_LANE_LAST (n : Fin 16) : Key := ⟨(.line n), 0x0C, 0x03⟩
/-- `LINE_CAL_LANE_RESULT`, R270. -/
@[reducible] def LINE_CAL_LANE_RESULT (n : Fin 16) : Key := ⟨(.line n), 0x0C, 0x04⟩
/-- `LINE_CAL_FAIL_MASK`, R270. -/
@[reducible] def LINE_CAL_FAIL_MASK (n : Fin 16) : Key := ⟨(.line n), 0x0C, 0x05⟩
/-- `LINE_CAL_DAC_COUNT`, R270. -/
@[reducible] def LINE_CAL_DAC_COUNT (n : Fin 16) : Key := ⟨(.line n), 0x0C, 0x06⟩
/-- `LINE_CAL_DAC_LAST`, R270. -/
@[reducible] def LINE_CAL_DAC_LAST (n : Fin 16) : Key := ⟨(.line n), 0x0C, 0x07⟩
/-- `LINE_CAL_DAC_RESULT`, R270. -/
@[reducible] def LINE_CAL_DAC_RESULT (n : Fin 16) : Key := ⟨(.line n), 0x0C, 0x08⟩
/-- `MON_CAL_CMD`, R273. -/
@[reducible] def MON_CAL_CMD : Key := ⟨.dev, 0x70E0, 0x01⟩
/-- `MON_CAL_DT`, R273. -/
@[reducible] def MON_CAL_DT : Key := ⟨.dev, 0x70E0, 0x02⟩
/-- `MON_CAL_COUNT`, R273. -/
@[reducible] def MON_CAL_COUNT : Key := ⟨.dev, 0x70E0, 0x03⟩
/-- `MON_CAL_LAST`, R273. -/
@[reducible] def MON_CAL_LAST : Key := ⟨.dev, 0x70E0, 0x04⟩
/-- `MON_CAL_RESULT`, R273. -/
@[reducible] def MON_CAL_RESULT : Key := ⟨.dev, 0x70E0, 0x05⟩
/-- `MON_CAL_URGENT_REFUSED`, R273. -/
@[reducible] def MON_CAL_URGENT_REFUSED : Key := ⟨.dev, 0x70E0, 0x06⟩
/-- `MON_CAL_TEMP`, R273. -/
@[reducible] def MON_CAL_TEMP : Key := ⟨.dev, 0x70E0, 0x07⟩
/-- `CAL_SLICE_FAIL_LANES`, R274. -/
@[reducible] def CAL_SLICE_FAIL_LANES : Key := ⟨.dev, 0xB010, 0x01⟩
/-- `CAL_FG_FAIL_SRC`, R274. -/
@[reducible] def CAL_FG_FAIL_SRC : Key := ⟨.dev, 0xB010, 0x02⟩
/-- `TIME_NOW`, R278. -/
@[reducible] def TIME_NOW : Key := ⟨.dev, 0x5000, 0x01⟩
/-- `TIME_STATUS`, R281. -/
@[reducible] def TIME_STATUS : Key := ⟨.dev, 0x5000, 0x02⟩
/-- `TIME_GEN`, R281. -/
@[reducible] def TIME_GEN : Key := ⟨.dev, 0x5000, 0x03⟩
/-- `TIME_SET`, R279. -/
@[reducible] def TIME_SET : Key := ⟨.dev, 0x5001, 0x01⟩
/-- `TIME_STEP`, R279. -/
@[reducible] def TIME_STEP : Key := ⟨.dev, 0x5001, 0x02⟩
/-- `TIME_RATE_ADJ`, R279. -/
@[reducible] def TIME_RATE_ADJ : Key := ⟨.dev, 0x5001, 0x03⟩
/-- `TIME_ADJ_DISCARDED`, R279. -/
@[reducible] def TIME_ADJ_DISCARDED : Key := ⟨.dev, 0x5001, 0x04⟩
/-- `TIME_DISC_SRC`, R293. -/
@[reducible] def TIME_DISC_SRC : Key := ⟨.dev, 0x5002, 0x01⟩
/-- `TIME_LINE_LANE`, R293. -/
@[reducible] def TIME_LINE_LANE : Key := ⟨.dev, 0x5002, 0x02⟩
/-- `TIME_STEP_THR`, R294. -/
@[reducible] def TIME_STEP_THR : Key := ⟨.dev, 0x5002, 0x03⟩
/-- `TIME_KP`, R294. -/
@[reducible] def TIME_KP : Key := ⟨.dev, 0x5002, 0x04⟩
/-- `TIME_KI`, R294. -/
@[reducible] def TIME_KI : Key := ⟨.dev, 0x5002, 0x05⟩
/-- `TIME_HOLDOVER_MISS`, R294. -/
@[reducible] def TIME_HOLDOVER_MISS : Key := ⟨.dev, 0x5002, 0x06⟩
/-- `TIME_SERVO_FREQ`, R294. -/
@[reducible] def TIME_SERVO_FREQ : Key := ⟨.dev, 0x5002, 0x07⟩
/-- `TIME_SERVO_ERR`, R294. -/
@[reducible] def TIME_SERVO_ERR : Key := ⟨.dev, 0x5002, 0x08⟩
/-- `TIME_ALARM_THR`, R294. -/
@[reducible] def TIME_ALARM_THR : Key := ⟨.dev, 0x5002, 0x09⟩
/-- `SYNC_OUT_WIDTH`, R283. -/
@[reducible] def SYNC_OUT_WIDTH : Key := ⟨.dev, 0x5003, 0x01⟩
/-- `SYNC_OUT_OFFSET`, R283. -/
@[reducible] def SYNC_OUT_OFFSET : Key := ⟨.dev, 0x5003, 0x02⟩
/-- `SYNC_IN_EN`, R283. -/
@[reducible] def SYNC_IN_EN : Key := ⟨.dev, 0x5003, 0x03⟩
/-- `SYNC_IN_DELAY`, R283. -/
@[reducible] def SYNC_IN_DELAY : Key := ⟨.dev, 0x5003, 0x04⟩
/-- `SYNC_IN_STAMP`, R283. -/
@[reducible] def SYNC_IN_STAMP : Key := ⟨.dev, 0x5003, 0x05⟩
/-- `SYNC_IN_SEQ`, R283. -/
@[reducible] def SYNC_IN_SEQ : Key := ⟨.dev, 0x5003, 0x06⟩
/-- `SYNC_IN_VALID`, R283. -/
@[reducible] def SYNC_IN_VALID : Key := ⟨.dev, 0x5003, 0x07⟩
/-- `SYNC_IN_FAULTS`, R283. -/
@[reducible] def SYNC_IN_FAULTS : Key := ⟨.dev, 0x5003, 0x08⟩
/-- `TIME_RING_BEACON_EN`, R299. -/
@[reducible] def TIME_RING_BEACON_EN : Key := ⟨.dev, 0x5004, 0x01⟩
/-- `TIME_RING_PERIOD`, R299. -/
@[reducible] def TIME_RING_PERIOD : Key := ⟨.dev, 0x5004, 0x02⟩
/-- `TIME_RING_SRC_ID`, R299. -/
@[reducible] def TIME_RING_SRC_ID : Key := ⟨.dev, 0x5004, 0x03⟩
/-- `TIME_RING_WIRE_FS`, R299. -/
@[reducible] def TIME_RING_WIRE_FS (i : Nat) : Key := ⟨.dev, 0x5004, 0x04 + i⟩
/-- `TIME_RING_LAST_ERR`, R299. -/
@[reducible] def TIME_RING_LAST_ERR : Key := ⟨.dev, 0x5004, 0x06⟩
/-- `TIME_RING_LOOP_ERR`, R299. -/
@[reducible] def TIME_RING_LOOP_ERR : Key := ⟨.dev, 0x5004, 0x07⟩
/-- `TIME_RING_BEACONS`, R299. -/
@[reducible] def TIME_RING_BEACONS : Key := ⟨.dev, 0x5004, 0x08⟩
/-- `TIME_RING_PORT_SWITCH`, R299. -/
@[reducible] def TIME_RING_PORT_SWITCH : Key := ⟨.dev, 0x5004, 0x09⟩
/-- `TIME_LINE_PERIOD`, R292. -/
@[reducible] def TIME_LINE_PERIOD (n : Fin 16) : Key := ⟨(.line n), 0x3D, 0x01⟩
/-- `TIME_LINE_ASYM`, R292. -/
@[reducible] def TIME_LINE_ASYM (n : Fin 16) : Key := ⟨(.line n), 0x3D, 0x02⟩
/-- `TIME_LINE_OFFSET_FS`, R292. -/
@[reducible] def TIME_LINE_OFFSET_FS (n : Fin 16) : Key := ⟨(.line n), 0x3E, 0x01⟩
/-- `TIME_LINE_DELAY_FS`, R292. -/
@[reducible] def TIME_LINE_DELAY_FS (n : Fin 16) : Key := ⟨(.line n), 0x3E, 0x02⟩
/-- `TIME_LINE_REF`, R292. -/
@[reducible] def TIME_LINE_REF (n : Fin 16) : Key := ⟨(.line n), 0x3E, 0x03⟩
/-- `TIME_LINE_RATE`, R292. -/
@[reducible] def TIME_LINE_RATE (n : Fin 16) : Key := ⟨(.line n), 0x3E, 0x04⟩
/-- `TIME_LINE_FLAGS`, R292. -/
@[reducible] def TIME_LINE_FLAGS (n : Fin 16) : Key := ⟨(.line n), 0x3E, 0x05⟩
/-- `TIME_LINE_SEQ`, R292. -/
@[reducible] def TIME_LINE_SEQ (n : Fin 16) : Key := ⟨(.line n), 0x3E, 0x06⟩
/-- `TIME_LINE_STAMPS`, R292. -/
@[reducible] def TIME_LINE_STAMPS (n : Fin 16) : Key := ⟨(.line n), 0x3E, 0x07⟩
/-- `TIME_LINE_ALL`, R292. -/
@[reducible] def TIME_LINE_ALL (n : Fin 16) : Key := ⟨(.line n), 0x3E, 0x08⟩
/-- `TIME_TX_SENT`, R292. -/
@[reducible] def TIME_TX_SENT (n : Fin 16) : Key := ⟨(.line n), 0x3F, 0x01⟩
/-- `TIME_WITHDRAWN`, R292. -/
@[reducible] def TIME_WITHDRAWN (n : Fin 16) : Key := ⟨(.line n), 0x3F, 0x02⟩
/-- `TIME_SKIPPED`, R292. -/
@[reducible] def TIME_SKIPPED (n : Fin 16) : Key := ⟨(.line n), 0x3F, 0x03⟩
/-- `TIME_RX`, R292. -/
@[reducible] def TIME_RX (n : Fin 16) : Key := ⟨(.line n), 0x3F, 0x04⟩
/-- `TIME_RESULTS`, R292. -/
@[reducible] def TIME_RESULTS (n : Fin 16) : Key := ⟨(.line n), 0x3F, 0x05⟩
/-- `TIME_INVALID_FLAG`, R292. -/
@[reducible] def TIME_INVALID_FLAG (n : Fin 16) : Key := ⟨(.line n), 0x3F, 0x06⟩
/-- `TIME_NO_DEPARTURE`, R292. -/
@[reducible] def TIME_NO_DEPARTURE (n : Fin 16) : Key := ⟨(.line n), 0x3F, 0x07⟩
/-- `TIME_NO_ARRIVAL`, R292. -/
@[reducible] def TIME_NO_ARRIVAL (n : Fin 16) : Key := ⟨(.line n), 0x3F, 0x08⟩
/-- `TIME_GEN_MISMATCH`, R292. -/
@[reducible] def TIME_GEN_MISMATCH (n : Fin 16) : Key := ⟨(.line n), 0x3F, 0x09⟩
/-- `TIME_IMPLAUSIBLE`, R292. -/
@[reducible] def TIME_IMPLAUSIBLE (n : Fin 16) : Key := ⟨(.line n), 0x3F, 0x0A⟩
/-- `TIME_CLEAR`, R292. -/
@[reducible] def TIME_CLEAR (n : Fin 16) : Key := ⟨(.line n), 0x3F, 0x0B⟩
/-- `CE_STATUS`, R334. -/
@[reducible] def CE_STATUS : Key := ⟨.dev, 0x6000, 0x01⟩
/-- `CE_FRAME`, R304. -/
@[reducible] def CE_FRAME : Key := ⟨.dev, 0x6000, 0x02⟩
/-- `CE_PAD_RELEASE`, R331. -/
@[reducible] def CE_PAD_RELEASE : Key := ⟨.dev, 0x6000, 0x03⟩
/-- `DET_LOOP_FAULT`, R333. -/
@[reducible] def DET_LOOP_FAULT : Key := ⟨.dev, 0x6001, 0x01⟩
/-- `DET_LOOP_SAFE`, R333. -/
@[reducible] def DET_LOOP_SAFE : Key := ⟨.dev, 0x6001, 0x02⟩
/-- `DET_LOOP_LIMIT`, R333. -/
@[reducible] def DET_LOOP_LIMIT : Key := ⟨.dev, 0x6001, 0x03⟩
/-- `DET_LOOP_STALE`, R333. -/
@[reducible] def DET_LOOP_STALE : Key := ⟨.dev, 0x6001, 0x04⟩
/-- `DET_LOOP_REGION_CHG`, R333. -/
@[reducible] def DET_LOOP_REGION_CHG : Key := ⟨.dev, 0x6001, 0x05⟩
/-- `DET_LOOP_MODE_CHG`, R333. -/
@[reducible] def DET_LOOP_MODE_CHG : Key := ⟨.dev, 0x6001, 0x06⟩
/-- `DET_AUX`, R333. -/
@[reducible] def DET_AUX : Key := ⟨.dev, 0x6001, 0x07⟩
/-- `DET_OG`, R333. -/
@[reducible] def DET_OG : Key := ⟨.dev, 0x6001, 0x08⟩
/-- `CE_MEM_CORRECTED`, R328. -/
@[reducible] def CE_MEM_CORRECTED : Key := ⟨.dev, 0x6002, 0x01⟩
/-- `LOOP_MODE`, R327. -/
@[reducible] def LOOP_MODE (j : Fin 64) : Key := ⟨(.loop j), 0x01, 0x01⟩
/-- `LOOP_INPUT`, R327. -/
@[reducible] def LOOP_INPUT (j : Fin 64) : Key := ⟨(.loop j), 0x01, 0x02⟩
/-- `LOOP_OUTPUT`, R327. -/
@[reducible] def LOOP_OUTPUT (j : Fin 64) : Key := ⟨(.loop j), 0x01, 0x03⟩
/-- `LOOP_PERIOD`, R327. -/
@[reducible] def LOOP_PERIOD (j : Fin 64) : Key := ⟨(.loop j), 0x01, 0x04⟩
/-- `LOOP_SETPOINT`, R327. -/
@[reducible] def LOOP_SETPOINT (j : Fin 64) : Key := ⟨(.loop j), 0x01, 0x05⟩
/-- `LOOP_POLARITY`, R327. -/
@[reducible] def LOOP_POLARITY (j : Fin 64) : Key := ⟨(.loop j), 0x01, 0x06⟩
/-- `LOOP_UMIN`, R327. -/
@[reducible] def LOOP_UMIN (j : Fin 64) : Key := ⟨(.loop j), 0x01, 0x07⟩
/-- `LOOP_UMAX`, R327. -/
@[reducible] def LOOP_UMAX (j : Fin 64) : Key := ⟨(.loop j), 0x01, 0x08⟩
/-- `LOOP_FF`, R327. -/
@[reducible] def LOOP_FF (j : Fin 64) : Key := ⟨(.loop j), 0x01, 0x09⟩
/-- `LOOP_MAN_VALUE`, R327. -/
@[reducible] def LOOP_MAN_VALUE (j : Fin 64) : Key := ⟨(.loop j), 0x01, 0x0A⟩
/-- `LOOP_MAN_SLEW`, R327. -/
@[reducible] def LOOP_MAN_SLEW (j : Fin 64) : Key := ⟨(.loop j), 0x01, 0x0B⟩
/-- `LOOP_SAFE_VALUE`, R327. -/
@[reducible] def LOOP_SAFE_VALUE (j : Fin 64) : Key := ⟨(.loop j), 0x01, 0x0C⟩
/-- `LOOP_FAULT_LO`, R327. -/
@[reducible] def LOOP_FAULT_LO (j : Fin 64) : Key := ⟨(.loop j), 0x01, 0x0D⟩
/-- `LOOP_FAULT_HI`, R327. -/
@[reducible] def LOOP_FAULT_HI (j : Fin 64) : Key := ⟨(.loop j), 0x01, 0x0E⟩
/-- `LOOP_FAULT_COUNT`, R327. -/
@[reducible] def LOOP_FAULT_COUNT (j : Fin 64) : Key := ⟨(.loop j), 0x01, 0x0F⟩
/-- `LOOP_LASER_EN`, R327. -/
@[reducible] def LOOP_LASER_EN (j : Fin 64) : Key := ⟨(.loop j), 0x01, 0x10⟩
/-- `LOOP_GAIN_SHIFT`, R327. -/
@[reducible] def LOOP_GAIN_SHIFT (j : Fin 64) : Key := ⟨(.loop j), 0x01, 0x11⟩
/-- `LOOP_LIMIT_COUNT`, R327. -/
@[reducible] def LOOP_LIMIT_COUNT (j : Fin 64) : Key := ⟨(.loop j), 0x01, 0x12⟩
/-- `LOOP_PRESET`, R327. -/
@[reducible] def LOOP_PRESET (j : Fin 64) : Key := ⟨(.loop j), 0x01, 0x13⟩
/-- `LOOP_GAIN_LUT`, R327. -/
@[reducible] def LOOP_GAIN_LUT (j : Fin 64) (i : Nat) : Key := ⟨(.loop j), 0x02, 0x01 + i⟩
/-- `SCHED_VAR`, R327. -/
@[reducible] def SCHED_VAR (j : Fin 64) : Key := ⟨(.loop j), 0x03, 0x01⟩
/-- `SCHED_REGIONS`, R327. -/
@[reducible] def SCHED_REGIONS (j : Fin 64) : Key := ⟨(.loop j), 0x03, 0x02⟩
/-- `SCHED_HYST`, R327. -/
@[reducible] def SCHED_HYST (j : Fin 64) : Key := ⟨(.loop j), 0x03, 0x03⟩
/-- `SCHED_BOUND`, R327. -/
@[reducible] def SCHED_BOUND (j : Fin 64) (i : Nat) : Key := ⟨(.loop j), 0x03, 0x04 + i⟩
/-- `SCHED_KP`, R327. -/
@[reducible] def SCHED_KP (j : Fin 64) (i : Nat) : Key := ⟨(.loop j), 0x03, 0x0B + i⟩
/-- `SCHED_KI`, R327. -/
@[reducible] def SCHED_KI (j : Fin 64) (i : Nat) : Key := ⟨(.loop j), 0x03, 0x13 + i⟩
/-- `RC_LEN`, R327. -/
@[reducible] def RC_LEN (j : Fin 64) : Key := ⟨(.loop j), 0x04, 0x01⟩
/-- `RC_LEAD`, R327. -/
@[reducible] def RC_LEAD (j : Fin 64) : Key := ⟨(.loop j), 0x04, 0x02⟩
/-- `RC_GAIN`, R327. -/
@[reducible] def RC_GAIN (j : Fin 64) : Key := ⟨(.loop j), 0x04, 0x03⟩
/-- `RC_FORGET`, R327. -/
@[reducible] def RC_FORGET (j : Fin 64) : Key := ⟨(.loop j), 0x04, 0x04⟩
/-- `RC_LIMIT`, R327. -/
@[reducible] def RC_LIMIT (j : Fin 64) : Key := ⟨(.loop j), 0x04, 0x05⟩
/-- `RC_FREEZE`, R327. -/
@[reducible] def RC_FREEZE (j : Fin 64) : Key := ⟨(.loop j), 0x04, 0x06⟩
/-- `RC_CLEAR`, R327. -/
@[reducible] def RC_CLEAR (j : Fin 64) : Key := ⟨(.loop j), 0x04, 0x07⟩
/-- `RC_MEM`, R327. -/
@[reducible] def RC_MEM (j : Fin 64) : Key := ⟨(.loop j), 0x04, 0x08⟩
/-- `RC_SETTLE_THR`, R327. -/
@[reducible] def RC_SETTLE_THR (j : Fin 64) : Key := ⟨(.loop j), 0x04, 0x09⟩
/-- `RC_ERR_RMS`, R327. -/
@[reducible] def RC_ERR_RMS (j : Fin 64) : Key := ⟨(.loop j), 0x04, 0x0A⟩
/-- `LOOP_STATE`, R327. -/
@[reducible] def LOOP_STATE (j : Fin 64) : Key := ⟨(.loop j), 0x05, 0x01⟩
/-- `LOOP_OUT`, R327. -/
@[reducible] def LOOP_OUT (j : Fin 64) : Key := ⟨(.loop j), 0x05, 0x02⟩
/-- `LOOP_ERR`, R327. -/
@[reducible] def LOOP_ERR (j : Fin 64) : Key := ⟨(.loop j), 0x05, 0x03⟩
/-- `LOOP_INTEGRATOR`, R327. -/
@[reducible] def LOOP_INTEGRATOR (j : Fin 64) : Key := ⟨(.loop j), 0x05, 0x04⟩
/-- `LOOP_REGION`, R327. -/
@[reducible] def LOOP_REGION (j : Fin 64) : Key := ⟨(.loop j), 0x05, 0x05⟩
/-- `LOOP_RC_INDEX`, R327. -/
@[reducible] def LOOP_RC_INDEX (j : Fin 64) : Key := ⟨(.loop j), 0x05, 0x06⟩
/-- `LOOP_EXEC`, R327. -/
@[reducible] def LOOP_EXEC (j : Fin 64) : Key := ⟨(.loop j), 0x05, 0x07⟩
/-- `LOOP_STALE`, R327. -/
@[reducible] def LOOP_STALE (j : Fin 64) : Key := ⟨(.loop j), 0x05, 0x08⟩
/-- `LOOP_ALL`, R327. -/
@[reducible] def LOOP_ALL (j : Fin 64) : Key := ⟨(.loop j), 0x05, 0x09⟩
/-- `AUX_MODE`, R329. -/
@[reducible] def AUX_MODE (a : Fin 48) : Key := ⟨(.aux a), 0x00, 0x01⟩
/-- `AUX_VALUE`, R329. -/
@[reducible] def AUX_VALUE (a : Fin 48) : Key := ⟨(.aux a), 0x00, 0x02⟩
/-- `AUX_SLEW`, R329. -/
@[reducible] def AUX_SLEW (a : Fin 48) : Key := ⟨(.aux a), 0x00, 0x03⟩
/-- `AUX_CODE`, R329. -/
@[reducible] def AUX_CODE (a : Fin 48) : Key := ⟨(.aux a), 0x00, 0x04⟩
/-- `AUX_STATUS`, R329. -/
@[reducible] def AUX_STATUS (a : Fin 48) : Key := ⟨(.aux a), 0x00, 0x05⟩
/-- `OG_CFG`, R330. -/
@[reducible] def OG_CFG (g : Fin 16) : Key := ⟨(.og g), 0x00, 0x01⟩
/-- `OG_OUT`, R330. -/
@[reducible] def OG_OUT (g : Fin 16) : Key := ⟨(.og g), 0x00, 0x02⟩
/-- `OG_IN`, R330. -/
@[reducible] def OG_IN (g : Fin 16) : Key := ⟨(.og g), 0x00, 0x03⟩
/-- `OG_IN_IRQ`, R330. -/
@[reducible] def OG_IN_IRQ (g : Fin 16) : Key := ⟨(.og g), 0x00, 0x04⟩
/-- `MON_SEQ_LEN`, R308. -/
@[reducible] def MON_SEQ_LEN : Key := ⟨.dev, 0x7000, 0x01⟩
/-- `MON_URGENT_MODE`, R309. -/
@[reducible] def MON_URGENT_MODE : Key := ⟨.dev, 0x7000, 0x02⟩
/-- `MON_PASS_FRAMES`, R308. -/
@[reducible] def MON_PASS_FRAMES : Key := ⟨.dev, 0x7000, 0x03⟩
/-- `MON_STATUS`, R311. -/
@[reducible] def MON_STATUS : Key := ⟨.dev, 0x7000, 0x04⟩
/-- `MON_SEQ_ENTRY`, R307. -/
@[reducible] def MON_SEQ_ENTRY (i : Nat) : Key := ⟨.dev, 0x7001, 0x01 + i⟩
/-- `MON_DATA`, R309. -/
@[reducible] def MON_DATA : Key := ⟨.dev, 0x7002, 0x01⟩
/-- `MON_DATA_TIME`, R309. -/
@[reducible] def MON_DATA_TIME : Key := ⟨.dev, 0x7002, 0x02⟩
/-- `MON_DATA_ALL`, R309. -/
@[reducible] def MON_DATA_ALL : Key := ⟨.dev, 0x7002, 0x03⟩
/-- `MON_URGENT_REQ`, R310. -/
@[reducible] def MON_URGENT_REQ : Key := ⟨.dev, 0x7003, 0x01⟩
/-- `MON_CONVERSIONS`, R311. -/
@[reducible] def MON_CONVERSIONS : Key := ⟨.dev, 0x7004, 0x01⟩
/-- `MON_PASSES`, R311. -/
@[reducible] def MON_PASSES : Key := ⟨.dev, 0x7004, 0x02⟩
/-- `MON_OVERRUNS`, R311. -/
@[reducible] def MON_OVERRUNS : Key := ⟨.dev, 0x7004, 0x03⟩
/-- `MON_URGENT_SERVED`, R311. -/
@[reducible] def MON_URGENT_SERVED : Key := ⟨.dev, 0x7004, 0x04⟩
/-- `MON_URGENT_DROPPED`, R311. -/
@[reducible] def MON_URGENT_DROPPED : Key := ⟨.dev, 0x7004, 0x05⟩
/-- `MON_ENTRY_RESTARTED`, R311. -/
@[reducible] def MON_ENTRY_RESTARTED : Key := ⟨.dev, 0x7004, 0x06⟩
/-- `MON_CLIPS`, R311. -/
@[reducible] def MON_CLIPS : Key := ⟨.dev, 0x7004, 0x07⟩
/-- `MON_CNT_CLEAR`, R311. -/
@[reducible] def MON_CNT_CLEAR : Key := ⟨.dev, 0x7004, 0x08⟩
/-- `DET_MON_CLIP`, R333. -/
@[reducible] def DET_MON_CLIP : Key := ⟨.dev, 0x7005, 0x01⟩
/-- `DET_FILT_SPIKE`, R333. -/
@[reducible] def DET_FILT_SPIKE : Key := ⟨.dev, 0x7005, 0x02⟩
/-- `DET_FILT_XFADE_DONE`, R333. -/
@[reducible] def DET_FILT_XFADE_DONE : Key := ⟨.dev, 0x7005, 0x03⟩
/-- `DET_FILT_SATURATED`, R333. -/
@[reducible] def DET_FILT_SATURATED : Key := ⟨.dev, 0x7005, 0x04⟩
/-- `FILT_MEDIAN`, R315. -/
@[reducible] def FILT_MEDIAN (e : Fin 64) : Key := ⟨(.chain e), 0x01, 0x01⟩
/-- `FILT_MODE`, R315. -/
@[reducible] def FILT_MODE (e : Fin 64) : Key := ⟨(.chain e), 0x01, 0x02⟩
/-- `FILT_SETTLE_LOG2`, R315. -/
@[reducible] def FILT_SETTLE_LOG2 (e : Fin 64) : Key := ⟨(.chain e), 0x01, 0x03⟩
/-- `FILT_XFADE_LEN`, R315. -/
@[reducible] def FILT_XFADE_LEN (e : Fin 64) : Key := ⟨(.chain e), 0x01, 0x04⟩
/-- `FILT_SPIKE_THR`, R315. -/
@[reducible] def FILT_SPIKE_THR (e : Fin 64) : Key := ⟨(.chain e), 0x01, 0x05⟩
/-- `FILT_SWAP`, R315. -/
@[reducible] def FILT_SWAP (e : Fin 64) : Key := ⟨(.chain e), 0x01, 0x06⟩
/-- `FILT_PRESET`, R315. -/
@[reducible] def FILT_PRESET (e : Fin 64) : Key := ⟨(.chain e), 0x01, 0x07⟩
/-- `FILT_ACTIVE`, R315. -/
@[reducible] def FILT_ACTIVE (e : Fin 64) : Key := ⟨(.chain e), 0x01, 0x08⟩
/-- `FILT_BANK_A`, R315. -/
@[reducible] def FILT_BANK_A (e : Fin 64) (i : Nat) : Key := ⟨(.chain e), 0x02, 0x01 + i⟩
/-- `FILT_BANK_B`, R315. -/
@[reducible] def FILT_BANK_B (e : Fin 64) (i : Nat) : Key := ⟨(.chain e), 0x03, 0x01 + i⟩
/-- `FILT_OUT`, R315. -/
@[reducible] def FILT_OUT (e : Fin 64) : Key := ⟨(.chain e), 0x04, 0x01⟩
/-- `FILT_SEQ`, R315. -/
@[reducible] def FILT_SEQ (e : Fin 64) : Key := ⟨(.chain e), 0x04, 0x02⟩
/-- `FILT_STATE`, R315. -/
@[reducible] def FILT_STATE (e : Fin 64) : Key := ⟨(.chain e), 0x04, 0x03⟩
/-- `FILT_SPIKES`, R315. -/
@[reducible] def FILT_SPIKES (e : Fin 64) : Key := ⟨(.chain e), 0x04, 0x04⟩
/-- `FILT_RAW`, R315. -/
@[reducible] def FILT_RAW (e : Fin 64) : Key := ⟨(.chain e), 0x04, 0x05⟩
/-- `FILT_SATURATED_COUNT`, R315. -/
@[reducible] def FILT_SATURATED_COUNT (e : Fin 64) : Key := ⟨(.chain e), 0x04, 0x06⟩
/-- `TEMP_T`, R332. -/
@[reducible] def TEMP_T (i : Nat) : Key := ⟨.dev, 0x8100, 0x01 + i⟩
/-- `TEMP_MAX`, R332. -/
@[reducible] def TEMP_MAX : Key := ⟨.dev, 0x8100, 0x19⟩
/-- `TEMP_MAX_SENSOR`, R332. -/
@[reducible] def TEMP_MAX_SENSOR : Key := ⟨.dev, 0x8100, 0x1A⟩
/-- `TEMP_BROKEN`, R332. -/
@[reducible] def TEMP_BROKEN : Key := ⟨.dev, 0x8100, 0x1B⟩
/-- `DET_LINE_TIME_RESULT`, R302. -/
@[reducible] def DET_LINE_TIME_RESULT : Key := ⟨.dev, 0x5006, 0x01⟩
/-- `DET_LINE_TIME_FAULT`, R302. -/
@[reducible] def DET_LINE_TIME_FAULT : Key := ⟨.dev, 0x5006, 0x02⟩
/-- `RING_ADDR`, R363. -/
@[reducible] def RING_ADDR : Key := ⟨.dev, 0x2000, 0x01⟩
/-- `RING_RATE_MAX`, R344. -/
@[reducible] def RING_RATE_MAX : Key := ⟨.dev, 0x2000, 0x02⟩
/-- `RING_LOOP_RATE`, R363. -/
@[reducible] def RING_LOOP_RATE : Key := ⟨.dev, 0x2000, 0x03⟩
/-- `RING_STATUS`, R363. -/
@[reducible] def RING_STATUS : Key := ⟨.dev, 0x2000, 0x04⟩
/-- `PORT_ADMIN`, R363. -/
@[reducible] def PORT_ADMIN (p : Fin 2) : Key := ⟨(.port p), 0x01, 0x01⟩
/-- `PORT_STATE`, R363. -/
@[reducible] def PORT_STATE (p : Fin 2) : Key := ⟨(.port p), 0x01, 0x02⟩
/-- `PORT_RATE`, R363. -/
@[reducible] def PORT_RATE (p : Fin 2) : Key := ⟨(.port p), 0x01, 0x03⟩
/-- `PORT_PARTNER`, R363. -/
@[reducible] def PORT_PARTNER (p : Fin 2) : Key := ⟨(.port p), 0x01, 0x04⟩
/-- `PORT_CLOCK`, R363. -/
@[reducible] def PORT_CLOCK (p : Fin 2) : Key := ⟨(.port p), 0x01, 0x05⟩
/-- `RING_OWNER_EPOCH`, R363. -/
@[reducible] def RING_OWNER_EPOCH : Key := ⟨.dev, 0x2010, 0x01⟩
/-- `RING_OWNER_HOST`, R363. -/
@[reducible] def RING_OWNER_HOST : Key := ⟨.dev, 0x2010, 0x02⟩
/-- `RING_OWNER_WRITES`, R363. -/
@[reducible] def RING_OWNER_WRITES : Key := ⟨.dev, 0x2010, 0x03⟩
/-- `RING_RIVAL_EPOCH`, R363. -/
@[reducible] def RING_RIVAL_EPOCH : Key := ⟨.dev, 0x2010, 0x04⟩
/-- `RING_RIVAL_HOST`, R363. -/
@[reducible] def RING_RIVAL_HOST : Key := ⟨.dev, 0x2010, 0x05⟩
/-- `RING_EVENT_DEST`, R362. -/
@[reducible] def RING_EVENT_DEST : Key := ⟨.dev, 0x2020, 0x01⟩
/-- `RING_EVENT_SEQ`, R362. -/
@[reducible] def RING_EVENT_SEQ : Key := ⟨.dev, 0x2020, 0x02⟩
/-- `RING_CODE_VIOL_SA`, R363. -/
@[reducible] def RING_CODE_VIOL_SA : Key := ⟨.dev, 0x2030, 0x01⟩
/-- `RING_CODE_VIOL_SB`, R363. -/
@[reducible] def RING_CODE_VIOL_SB : Key := ⟨.dev, 0x2030, 0x02⟩
/-- `RING_LINK_DOWN_SA`, R363. -/
@[reducible] def RING_LINK_DOWN_SA : Key := ⟨.dev, 0x2030, 0x03⟩
/-- `RING_LINK_DOWN_SB`, R363. -/
@[reducible] def RING_LINK_DOWN_SB : Key := ⟨.dev, 0x2030, 0x04⟩
/-- `RING_TRAIN_FAIL_SA`, R363. -/
@[reducible] def RING_TRAIN_FAIL_SA : Key := ⟨.dev, 0x2030, 0x05⟩
/-- `RING_TRAIN_FAIL_SB`, R363. -/
@[reducible] def RING_TRAIN_FAIL_SB : Key := ⟨.dev, 0x2030, 0x06⟩
/-- `RING_RX_FRAMES`, R363. -/
@[reducible] def RING_RX_FRAMES : Key := ⟨.dev, 0x2030, 0x07⟩
/-- `RING_CRC_ERR`, R363. -/
@[reducible] def RING_CRC_ERR : Key := ⟨.dev, 0x2030, 0x08⟩
/-- `RING_LEN_ERR`, R363. -/
@[reducible] def RING_LEN_ERR : Key := ⟨.dev, 0x2030, 0x09⟩
/-- `RING_ABORTED`, R363. -/
@[reducible] def RING_ABORTED : Key := ⟨.dev, 0x2030, 0x0A⟩
/-- `RING_UNKNOWN_TYPE`, R363. -/
@[reducible] def RING_UNKNOWN_TYPE : Key := ⟨.dev, 0x2030, 0x0B⟩
/-- `RING_UNDELIVERED`, R363. -/
@[reducible] def RING_UNDELIVERED : Key := ⟨.dev, 0x2030, 0x0C⟩
/-- `RING_TX_FRAMES`, R363. -/
@[reducible] def RING_TX_FRAMES : Key := ⟨.dev, 0x2030, 0x0D⟩
/-- `RING_COLLISION`, R363. -/
@[reducible] def RING_COLLISION : Key := ⟨.dev, 0x2030, 0x0E⟩
/-- `RING_TOKEN_LOSS`, R363. -/
@[reducible] def RING_TOKEN_LOSS : Key := ⟨.dev, 0x2030, 0x0F⟩
/-- `RING_CLAIM_REFUSED`, R363. -/
@[reducible] def RING_CLAIM_REFUSED : Key := ⟨.dev, 0x2030, 0x10⟩
/-- `RING_EVENT_LOST`, R363. -/
@[reducible] def RING_EVENT_LOST : Key := ⟨.dev, 0x2030, 0x11⟩
/-- `RING_CNT_ALL`, R363. -/
@[reducible] def RING_CNT_ALL : Key := ⟨.dev, 0x2030, 0x12⟩
/-- `RING_CLEAR`, R363. -/
@[reducible] def RING_CLEAR : Key := ⟨.dev, 0x2030, 0x13⟩
/-- `RING_CRC_THR`, R363. -/
@[reducible] def RING_CRC_THR : Key := ⟨.dev, 0x2030, 0x14⟩
/-- `OD_TWI_ROLE`, R396. -/
@[reducible] def OD_TWI_ROLE : Key := ⟨.dev, 0x1010, 0x01⟩
/-- `OD_TWI_ADDR`, R396. -/
@[reducible] def OD_TWI_ADDR : Key := ⟨.dev, 0x1010, 0x02⟩
/-- `OD_SEG_TIMEOUT`, R396. -/
@[reducible] def OD_SEG_TIMEOUT : Key := ⟨.dev, 0x1010, 0x03⟩
/-- `OD_GROUP_TIMEOUT`, R396. -/
@[reducible] def OD_GROUP_TIMEOUT : Key := ⟨.dev, 0x1010, 0x04⟩
/-- `OD_SAVE_DELAY`, R396. -/
@[reducible] def OD_SAVE_DELAY : Key := ⟨.dev, 0x1010, 0x05⟩
/-- `OD_CFG_ERASE`, R396. -/
@[reducible] def OD_CFG_ERASE : Key := ⟨.dev, 0x1010, 0x06⟩
/-- `OD_CORE_LOAD`, R396. -/
@[reducible] def OD_CORE_LOAD : Key := ⟨.dev, 0x1020, 0x01⟩
/-- `OD_CORE_STATE`, R396. -/
@[reducible] def OD_CORE_STATE : Key := ⟨.dev, 0x1020, 0x02⟩
/-- `OD_QUEUE_DEPTH`, R396. -/
@[reducible] def OD_QUEUE_DEPTH : Key := ⟨.dev, 0x1020, 0x03⟩
/-- `OD_BUSY_COUNT`, R396. -/
@[reducible] def OD_BUSY_COUNT : Key := ⟨.dev, 0x1020, 0x04⟩
/-- `OD_BUSY_TEST_COUNT`, R396. -/
@[reducible] def OD_BUSY_TEST_COUNT : Key := ⟨.dev, 0x1020, 0x05⟩
/-- `OD_ABORT_COUNT`, R396. -/
@[reducible] def OD_ABORT_COUNT : Key := ⟨.dev, 0x1020, 0x06⟩
/-- `OD_MAX_RESP_US`, R396. -/
@[reducible] def OD_MAX_RESP_US : Key := ⟨.dev, 0x1020, 0x07⟩
/-- `OD_TWI_ERR`, R396. -/
@[reducible] def OD_TWI_ERR : Key := ⟨.dev, 0x1020, 0x08⟩
/-- `OD_TWI_OVERFLOW`, R396. -/
@[reducible] def OD_TWI_OVERFLOW : Key := ⟨.dev, 0x1020, 0x09⟩
/-- `OD_GROUPS_LOST`, R396. -/
@[reducible] def OD_GROUPS_LOST : Key := ⟨.dev, 0x1020, 0x0A⟩
/-- `OD_FLASH_SAVES`, R396. -/
@[reducible] def OD_FLASH_SAVES : Key := ⟨.dev, 0x1020, 0x0B⟩
/-- `OD_MALFORMED`, R396. -/
@[reducible] def OD_MALFORMED : Key := ⟨.dev, 0x1020, 0x0C⟩
/-- `OD_STATS_CLEAR`, R396. -/
@[reducible] def OD_STATS_CLEAR : Key := ⟨.dev, 0x1020, 0x0D⟩
/-- `MGMT_PL`, R405. -/
@[reducible] def MGMT_PL : Key := ⟨.dev, 0x9000, 0x01⟩
/-- `MGMT_PL_MODE`, R405. -/
@[reducible] def MGMT_PL_MODE : Key := ⟨.dev, 0x9000, 0x02⟩
/-- `MGMT_PL_FIXED`, R405. -/
@[reducible] def MGMT_PL_FIXED : Key := ⟨.dev, 0x9000, 0x03⟩
/-- `MGMT_PL_CHANGES`, R405. -/
@[reducible] def MGMT_PL_CHANGES : Key := ⟨.dev, 0x9000, 0x04⟩
/-- `MGMT_SRAM_CORRECTED`, R405. -/
@[reducible] def MGMT_SRAM_CORRECTED : Key := ⟨.dev, 0x9000, 0x05⟩
/-- `MGMT_SRAM_UNCORR`, R405. -/
@[reducible] def MGMT_SRAM_UNCORR : Key := ⟨.dev, 0x9000, 0x06⟩
/-- `MGMT_WDT_RESETS`, R405. -/
@[reducible] def MGMT_WDT_RESETS : Key := ⟨.dev, 0x9000, 0x07⟩
/-- `MGMT_MRST_COUNT`, R405. -/
@[reducible] def MGMT_MRST_COUNT : Key := ⟨.dev, 0x9000, 0x08⟩
/-- `MGMT_MRST`, R405. -/
@[reducible] def MGMT_MRST : Key := ⟨.dev, 0x9000, 0x09⟩
/-- `MGMT_MASTER_RESTART`, R405. -/
@[reducible] def MGMT_MASTER_RESTART : Key := ⟨.dev, 0x9000, 0x0A⟩
/-- `MGMT_MASTER_GEN`, R405. -/
@[reducible] def MGMT_MASTER_GEN : Key := ⟨.dev, 0x9000, 0x0B⟩
/-- `IRQ_SUMMARY`, R433. -/
@[reducible] def IRQ_SUMMARY : Key := ⟨.dev, 0x9010, 0x01⟩
/-- `IRQ_PIN_MASK`, R433. -/
@[reducible] def IRQ_PIN_MASK : Key := ⟨.dev, 0x9010, 0x02⟩
/-- `IRQ_EVENT_MASK`, R433. -/
@[reducible] def IRQ_EVENT_MASK : Key := ⟨.dev, 0x9010, 0x03⟩
/-- `IRQ_PIN_STATE`, R433. -/
@[reducible] def IRQ_PIN_STATE : Key := ⟨.dev, 0x9010, 0x04⟩
/-- `IRQ_SW_SET`, R433. -/
@[reducible] def IRQ_SW_SET : Key := ⟨.dev, 0x9010, 0x05⟩
/-- `IRQ_CAUSE`, R431. -/
@[reducible] def IRQ_CAUSE (g : Fin 32) : Key := ⟨(.irq g), 0x00, 0x01⟩
/-- `IRQ_ENABLE`, R431. -/
@[reducible] def IRQ_ENABLE (g : Fin 32) : Key := ⟨(.irq g), 0x00, 0x02⟩
/-- `IRQ_FIRST`, R431. -/
@[reducible] def IRQ_FIRST (g : Fin 32) : Key := ⟨(.irq g), 0x00, 0x03⟩
/-- `EVR_HEAD`, R429. -/
@[reducible] def EVR_HEAD : Key := ⟨.dev, 0x9200, 0x01⟩
/-- `EVR_HEAD_SLOT`, R429. -/
@[reducible] def EVR_HEAD_SLOT : Key := ⟨.dev, 0x9200, 0x02⟩
/-- `EVR_ACK`, R429. -/
@[reducible] def EVR_ACK : Key := ⟨.dev, 0x9200, 0x03⟩
/-- `EVR_WATERMARK`, R429. -/
@[reducible] def EVR_WATERMARK : Key := ⟨.dev, 0x9200, 0x04⟩
/-- `EVR_LOST`, R429. -/
@[reducible] def EVR_LOST : Key := ⟨.dev, 0x9200, 0x05⟩
/-- `EVR_DROPPED`, R429. -/
@[reducible] def EVR_DROPPED : Key := ⟨.dev, 0x9200, 0x06⟩
/-- `DET_MB_MSG`, R417. -/
@[reducible] def DET_MB_MSG : Key := ⟨.dev, 0x9400, 0x01⟩
/-- `DET_MB_EMPTY`, R417. -/
@[reducible] def DET_MB_EMPTY : Key := ⟨.dev, 0x9400, 0x02⟩
/-- `DET_MB_RX_RESET`, R417. -/
@[reducible] def DET_MB_RX_RESET : Key := ⟨.dev, 0x9400, 0x03⟩
/-- `DET_MB_TX_RESET`, R417. -/
@[reducible] def DET_MB_TX_RESET : Key := ⟨.dev, 0x9400, 0x04⟩
/-- `LK_TAKE`, R409. -/
@[reducible] def LK_TAKE (i : Nat) : Key := ⟨.dev, 0x9410, 0x01 + i⟩
/-- `LK_RELEASE`, R410. -/
@[reducible] def LK_RELEASE (i : Nat) : Key := ⟨.dev, 0x9411, 0x01 + i⟩
/-- `LK_FORCE`, R410. -/
@[reducible] def LK_FORCE (i : Nat) : Key := ⟨.dev, 0x9412, 0x01 + i⟩
/-- `LK_STATE`, R412. -/
@[reducible] def LK_STATE : Key := ⟨.dev, 0x9413, 0x01⟩
/-- `LK_NOTIFY`, R412. -/
@[reducible] def LK_NOTIFY : Key := ⟨.dev, 0x9413, 0x02⟩
/-- `LK_CE_SAFE`, R412. -/
@[reducible] def LK_CE_SAFE : Key := ⟨.dev, 0x9413, 0x03⟩
/-- `LK_FORCED_COUNT`, R412. -/
@[reducible] def LK_FORCED_COUNT : Key := ⟨.dev, 0x9413, 0x04⟩
/-- `MB_CFG`, R413. -/
@[reducible] def MB_CFG (c : Fin 12) : Key := ⟨(.mb c), 0x00, 0x01⟩
/-- `MB_STATUS`, R417. -/
@[reducible] def MB_STATUS (c : Fin 12) : Key := ⟨(.mb c), 0x00, 0x02⟩
/-- `MB_DATA`, R417. -/
@[reducible] def MB_DATA (c : Fin 12) : Key := ⟨(.mb c), 0x00, 0x03⟩
/-- `MB_ACK`, R417. -/
@[reducible] def MB_ACK (c : Fin 12) : Key := ⟨(.mb c), 0x00, 0x04⟩
/-- `PC_CFG`, R419. -/
@[reducible] def PC_CFG (k : Fin 8) : Key := ⟨(.pc k), 0x00, 0x01⟩
/-- `PC_ADDR_LO`, R419. -/
@[reducible] def PC_ADDR_LO (k : Fin 8) : Key := ⟨(.pc k), 0x00, 0x02⟩
/-- `PC_ADDR_HI`, R419. -/
@[reducible] def PC_ADDR_HI (k : Fin 8) : Key := ⟨(.pc k), 0x00, 0x03⟩
/-- `PC_LO`, R421. -/
@[reducible] def PC_LO (k : Fin 8) : Key := ⟨(.pc k), 0x00, 0x04⟩
/-- `PC_HI`, R421. -/
@[reducible] def PC_HI (k : Fin 8) : Key := ⟨(.pc k), 0x00, 0x05⟩
/-- `PC_STATUS`, R421. -/
@[reducible] def PC_STATUS (k : Fin 8) : Key := ⟨(.pc k), 0x00, 0x06⟩
/-- `PC_PRESET`, R419. -/
@[reducible] def PC_PRESET (k : Fin 8) : Key := ⟨(.pc k), 0x00, 0x07⟩
/-- `PC_SAMPLE_ADDR`, R423. -/
@[reducible] def PC_SAMPLE_ADDR (k : Fin 8) : Key := ⟨(.pc k), 0x00, 0x08⟩
/-- `PC_ENABLE`, R420. -/
@[reducible] def PC_ENABLE : Key := ⟨.dev, 0xC010, 0x01⟩
/-- `PC_ALL`, R422. -/
@[reducible] def PC_ALL : Key := ⟨.dev, 0xC010, 0x02⟩
/-- `PC_OVF_CAUSE`, R423. -/
@[reducible] def PC_OVF_CAUSE : Key := ⟨.dev, 0xC010, 0x03⟩
/-- `SEC_LC_STATE`, R463. -/
@[reducible] def SEC_LC_STATE : Key := ⟨.dev, 0xA000, 0x01⟩
/-- `SEC_LC_ADVANCE`, R453. -/
@[reducible] def SEC_LC_ADVANCE : Key := ⟨.dev, 0xA000, 0x02⟩
/-- `SEC_DEBUG_STATE`, R463. -/
@[reducible] def SEC_DEBUG_STATE : Key := ⟨.dev, 0xA000, 0x03⟩
/-- `SEC_DEBUG_CLOSE`, R463. -/
@[reducible] def SEC_DEBUG_CLOSE : Key := ⟨.dev, 0xA000, 0x04⟩
/-- `SEC_CHALLENGE`, R463. -/
@[reducible] def SEC_CHALLENGE : Key := ⟨.dev, 0xA000, 0x05⟩
/-- `SEC_TOKEN`, R455. -/
@[reducible] def SEC_TOKEN : Key := ⟨.dev, 0xA000, 0x06⟩
/-- `SEC_TOKEN_RESULT`, R463. -/
@[reducible] def SEC_TOKEN_RESULT : Key := ⟨.dev, 0xA000, 0x07⟩
/-- `SEC_VENDOR_DROP`, R463. -/
@[reducible] def SEC_VENDOR_DROP : Key := ⟨.dev, 0xA000, 0x08⟩
/-- `SEC_VENDOR_HOLDERS`, R463. -/
@[reducible] def SEC_VENDOR_HOLDERS : Key := ⟨.dev, 0xA000, 0x09⟩
/-- `SEC_DEBUG_REMAIN`, R463. -/
@[reducible] def SEC_DEBUG_REMAIN : Key := ⟨.dev, 0xA000, 0x0A⟩
/-- `SEC_TOKEN_FAILS`, R463. -/
@[reducible] def SEC_TOKEN_FAILS : Key := ⟨.dev, 0xA000, 0x0B⟩
/-- `FW_ACTIVE_SLOT`, R463. -/
@[reducible] def FW_ACTIVE_SLOT : Key := ⟨.dev, 0xA010, 0x01⟩
/-- `FW_ACTIVATE`, R446. -/
@[reducible] def FW_ACTIVATE : Key := ⟨.dev, 0xA010, 0x02⟩
/-- `FW_CONFIRM`, R463. -/
@[reducible] def FW_CONFIRM : Key := ⟨.dev, 0xA010, 0x03⟩
/-- `FW_TRIAL_S`, R463. -/
@[reducible] def FW_TRIAL_S : Key := ⟨.dev, 0xA010, 0x04⟩
/-- `FW_SVN_COMMIT`, R448. -/
@[reducible] def FW_SVN_COMMIT : Key := ⟨.dev, 0xA010, 0x05⟩
/-- `FW_MIN_SVN`, R463. -/
@[reducible] def FW_MIN_SVN : Key := ⟨.dev, 0xA010, 0x06⟩
/-- `FW_LAST_FAIL`, R463. -/
@[reducible] def FW_LAST_FAIL : Key := ⟨.dev, 0xA010, 0x07⟩
/-- `FW_BOOT_COUNT`, R463. -/
@[reducible] def FW_BOOT_COUNT : Key := ⟨.dev, 0xA010, 0x08⟩
/-- `FW_SLOT_IMAGE`, R445. -/
@[reducible] def FW_SLOT_IMAGE (x : Fin 2) : Key := ⟨(.slot x), 0x00, 0x01⟩
/-- `FW_SLOT_STATUS`, R444. -/
@[reducible] def FW_SLOT_STATUS (x : Fin 2) : Key := ⟨(.slot x), 0x00, 0x02⟩
/-- `FW_SLOT_SVN`, R463. -/
@[reducible] def FW_SLOT_SVN (x : Fin 2) : Key := ⟨(.slot x), 0x00, 0x03⟩
/-- `FW_SLOT_VERSION`, R463. -/
@[reducible] def FW_SLOT_VERSION (x : Fin 2) : Key := ⟨(.slot x), 0x00, 0x04⟩
/-- `FW_SLOT_HDR_HASH`, R463. -/
@[reducible] def FW_SLOT_HDR_HASH (x : Fin 2) : Key := ⟨(.slot x), 0x00, 0x05⟩
/-- `ID_PUB_ED25519`, R450. -/
@[reducible] def ID_PUB_ED25519 : Key := ⟨.dev, 0xA020, 0x01⟩
/-- `ID_PUB_MLDSA`, R450. -/
@[reducible] def ID_PUB_MLDSA : Key := ⟨.dev, 0xA020, 0x02⟩
/-- `ID_CERT`, R463. -/
@[reducible] def ID_CERT : Key := ⟨.dev, 0xA020, 0x03⟩
/-- `SEC_ATTEST_NONCE`, R451. -/
@[reducible] def SEC_ATTEST_NONCE : Key := ⟨.dev, 0xA020, 0x04⟩
/-- `SEC_ATTEST_REPORT`, R451. -/
@[reducible] def SEC_ATTEST_REPORT : Key := ⟨.dev, 0xA020, 0x05⟩
/-- `SEC_ATTEST_SEQ`, R451. -/
@[reducible] def SEC_ATTEST_SEQ : Key := ⟨.dev, 0xA020, 0x06⟩
/-- `PWR_REQ`, R474. -/
@[reducible] def PWR_REQ (u : Fin 22) : Key := ⟨(.pwr u), 0x00, 0x01⟩
/-- `PWR_STATE`, R474. -/
@[reducible] def PWR_STATE (u : Fin 22) : Key := ⟨(.pwr u), 0x00, 0x02⟩
/-- `PWR_TRANSITION`, R474. -/
@[reducible] def PWR_TRANSITION (u : Fin 22) : Key := ⟨(.pwr u), 0x00, 0x03⟩
/-- `PWR_PENDING`, R474. -/
@[reducible] def PWR_PENDING (u : Fin 22) : Key := ⟨(.pwr u), 0x00, 0x04⟩
/-- `PWR_LAST_REFUSER`, R474. -/
@[reducible] def PWR_LAST_REFUSER (u : Fin 22) : Key := ⟨(.pwr u), 0x00, 0x05⟩
/-- `RST_CAUSE`, R489. -/
@[reducible] def RST_CAUSE : Key := ⟨.dev, 0x8000, 0x01⟩
/-- `PWR_VIN`, R489. -/
@[reducible] def PWR_VIN : Key := ⟨.dev, 0x8000, 0x02⟩
/-- `PWR_VCORE`, R489. -/
@[reducible] def PWR_VCORE : Key := ⟨.dev, 0x8000, 0x03⟩
/-- `PWR_LAST_FAULT`, R489. -/
@[reducible] def PWR_LAST_FAULT : Key := ⟨.dev, 0x8000, 0x05⟩
/-- `PWR_DEVICE_OFF`, R482. -/
@[reducible] def PWR_DEVICE_OFF : Key := ⟨.dev, 0x8000, 0x06⟩
/-- `PWR_WAKE_MASK`, R489. -/
@[reducible] def PWR_WAKE_MASK : Key := ⟨.dev, 0x8000, 0x07⟩
/-- `RST_LANE`, R488. -/
@[reducible] def RST_LANE : Key := ⟨.dev, 0x8000, 0x08⟩
/-- `PWR_REG_FAULTS`, R489. -/
@[reducible] def PWR_REG_FAULTS : Key := ⟨.dev, 0x8000, 0x09⟩
/-- `PWR_OFF_LAST_REFUSER`, R482. -/
@[reducible] def PWR_OFF_LAST_REFUSER : Key := ⟨.dev, 0x8000, 0x0A⟩
/-- `PWR_CNT_REFUSED_SECURITY`, R481. -/
@[reducible] def PWR_CNT_REFUSED_SECURITY : Key := ⟨.dev, 0x8002, 0x01⟩
/-- `PWR_CNT_REFUSED_BIST`, R481. -/
@[reducible] def PWR_CNT_REFUSED_BIST : Key := ⟨.dev, 0x8002, 0x02⟩
/-- `PWR_CNT_REFUSED_DEPENDENCY`, R481. -/
@[reducible] def PWR_CNT_REFUSED_DEPENDENCY : Key := ⟨.dev, 0x8002, 0x03⟩
/-- `PWR_CNT_REFUSED_FLASH`, R481. -/
@[reducible] def PWR_CNT_REFUSED_FLASH : Key := ⟨.dev, 0x8002, 0x04⟩
/-- `PWR_CNT_REFUSED_TRIP`, R481. -/
@[reducible] def PWR_CNT_REFUSED_TRIP : Key := ⟨.dev, 0x8002, 0x05⟩
/-- `PWR_CNT_REFUSED_STATE`, R481. -/
@[reducible] def PWR_CNT_REFUSED_STATE : Key := ⟨.dev, 0x8002, 0x06⟩
/-- `PWR_CNT_REFUSED_FIRMWARE`, R481. -/
@[reducible] def PWR_CNT_REFUSED_FIRMWARE : Key := ⟨.dev, 0x8002, 0x07⟩
/-- `PWR_CNT_ABORTED_WAKE_PIN`, R481. -/
@[reducible] def PWR_CNT_ABORTED_WAKE_PIN : Key := ⟨.dev, 0x8002, 0x08⟩
/-- `PWR_CNT_ABORTED_REQUEST`, R481. -/
@[reducible] def PWR_CNT_ABORTED_REQUEST : Key := ⟨.dev, 0x8002, 0x09⟩
/-- `PWR_CNT_ABORTED_DEBUG`, R481. -/
@[reducible] def PWR_CNT_ABORTED_DEBUG : Key := ⟨.dev, 0x8002, 0x0A⟩
/-- `PWR_CNT_ABORTED_CORE_REQUEST`, R481. -/
@[reducible] def PWR_CNT_ABORTED_CORE_REQUEST : Key := ⟨.dev, 0x8002, 0x0B⟩
/-- `PWR_CNT_ABORTED_TRIP`, R481. -/
@[reducible] def PWR_CNT_ABORTED_TRIP : Key := ⟨.dev, 0x8002, 0x0C⟩
/-- `PWR_CNT_REPLACED`, R481. -/
@[reducible] def PWR_CNT_REPLACED : Key := ⟨.dev, 0x8002, 0x0D⟩
/-- `PWR_CNT_CLEAR`, R481. -/
@[reducible] def PWR_CNT_CLEAR : Key := ⟨.dev, 0x8002, 0x0E⟩
/-- `PWR_RET_FAIL_BANKS`, R486. -/
@[reducible] def PWR_RET_FAIL_BANKS : Key := ⟨.dev, 0x8030, 0x01⟩
/-- `PWR_RET_FAIL_COUNT`, R486. -/
@[reducible] def PWR_RET_FAIL_COUNT : Key := ⟨.dev, 0x8030, 0x02⟩
/-- `DET_PWR_TRANSITION_DONE`, R497. -/
@[reducible] def DET_PWR_TRANSITION_DONE : Key := ⟨.dev, 0x8031, 0x01⟩
/-- `DET_PWR_ENTRY_REFUSED`, R497. -/
@[reducible] def DET_PWR_ENTRY_REFUSED : Key := ⟨.dev, 0x8031, 0x02⟩
/-- `DET_PWR_ENTRY_ABORTED`, R497. -/
@[reducible] def DET_PWR_ENTRY_ABORTED : Key := ⟨.dev, 0x8031, 0x03⟩
/-- `DET_PWR_REQ_REPLACED`, R497. -/
@[reducible] def DET_PWR_REQ_REPLACED : Key := ⟨.dev, 0x8031, 0x04⟩
/-- `THERM_STATUS`, R496. -/
@[reducible] def THERM_STATUS : Key := ⟨.dev, 0x8200, 0x01⟩
/-- `THERM_TRIP_MAX`, R496. -/
@[reducible] def THERM_TRIP_MAX : Key := ⟨.dev, 0x8200, 0x02⟩
/-- `THERM_TRIP_EXCLUDE`, R494. -/
@[reducible] def THERM_TRIP_EXCLUDE : Key := ⟨.dev, 0x8200, 0x03⟩
/-- `THERM_WARN_HIGH`, R496. -/
@[reducible] def THERM_WARN_HIGH : Key := ⟨.dev, 0x8200, 0x04⟩
/-- `THERM_WARN_LOW`, R496. -/
@[reducible] def THERM_WARN_LOW : Key := ⟨.dev, 0x8200, 0x05⟩
/-- `THERM_AUTO_RESUME`, R496. -/
@[reducible] def THERM_AUTO_RESUME : Key := ⟨.dev, 0x8200, 0x06⟩
/-- `THERM_TRIP_TEST`, R496. -/
@[reducible] def THERM_TRIP_TEST : Key := ⟨.dev, 0x8200, 0x07⟩
/-- `THERM_TRIP_COUNT`, R496. -/
@[reducible] def THERM_TRIP_COUNT : Key := ⟨.dev, 0x8200, 0x08⟩
/-- `THERM_LAST_TRIP`, R496. -/
@[reducible] def THERM_LAST_TRIP : Key := ⟨.dev, 0x8200, 0x09⟩
/-- `THERM_LAST_SENSOR`, R496. -/
@[reducible] def THERM_LAST_SENSOR : Key := ⟨.dev, 0x8200, 0x0A⟩
/-- `THERM_COOL_MS`, R496. -/
@[reducible] def THERM_COOL_MS : Key := ⟨.dev, 0x8200, 0x0B⟩
/-- `BIST_START`, R503. -/
@[reducible] def BIST_START : Key := ⟨.dev, 0xB000, 0x01⟩
/-- `BIST_STOP`, R503. -/
@[reducible] def BIST_STOP : Key := ⟨.dev, 0xB000, 0x02⟩
/-- `BIST_STATUS`, R502. -/
@[reducible] def BIST_STATUS : Key := ⟨.dev, 0xB001, 0x01⟩
/-- `BIST_CYCLES`, R503. -/
@[reducible] def BIST_CYCLES : Key := ⟨.dev, 0xB001, 0x02⟩
/-- `BIST_EXPECTED`, R503. -/
@[reducible] def BIST_EXPECTED : Key := ⟨.dev, 0xB001, 0x03⟩
/-- `BIST_SIGNATURE`, R503. -/
@[reducible] def BIST_SIGNATURE : Key := ⟨.dev, 0xB001, 0x04⟩
/-- `BIST_SIG_EXPECTED`, R503. -/
@[reducible] def BIST_SIG_EXPECTED : Key := ⟨.dev, 0xB001, 0x05⟩
/-- `BIST_FAIL_WORDS`, R503. -/
@[reducible] def BIST_FAIL_WORDS : Key := ⟨.dev, 0xB001, 0x06⟩
/-- `BIST_FIRST_FAIL`, R503. -/
@[reducible] def BIST_FIRST_FAIL : Key := ⟨.dev, 0xB001, 0x07⟩
/-- `BIST_REMAIN_US`, R503. -/
@[reducible] def BIST_REMAIN_US : Key := ⟨.dev, 0xB001, 0x08⟩
/-- `BIST_START_TIME`, R503. -/
@[reducible] def BIST_START_TIME : Key := ⟨.dev, 0xB001, 0x09⟩
/-- `BIST_DISCARDED`, R503. -/
@[reducible] def BIST_DISCARDED : Key := ⟨.dev, 0xB001, 0x0A⟩
/-- `BIST_ALL`, R503. -/
@[reducible] def BIST_ALL : Key := ⟨.dev, 0xB001, 0x0B⟩
/-- `BIST_RUNS`, R503. -/
@[reducible] def BIST_RUNS : Key := ⟨.dev, 0xB002, 0x01⟩
/-- `BIST_PASSES`, R503. -/
@[reducible] def BIST_PASSES : Key := ⟨.dev, 0xB002, 0x02⟩
/-- `BIST_FAILS`, R503. -/
@[reducible] def BIST_FAILS : Key := ⟨.dev, 0xB002, 0x03⟩
/-- `BIST_ABORTS`, R503. -/
@[reducible] def BIST_ABORTS : Key := ⟨.dev, 0xB002, 0x04⟩
/-- `BIST_CNT_CLEAR`, R503. -/
@[reducible] def BIST_CNT_CLEAR : Key := ⟨.dev, 0xB002, 0x05⟩
/-- `REPAIR_STATE`, R509. -/
@[reducible] def REPAIR_STATE (i : Nat) : Key := ⟨.dev, 0xB020, 0x01 + i⟩
/-- `REPAIR_FUSE_CMD`, R509. -/
@[reducible] def REPAIR_FUSE_CMD : Key := ⟨.dev, 0xB030, 0x01⟩
/-- `REPAIR_FUSE_FREE`, R509. -/
@[reducible] def REPAIR_FUSE_FREE : Key := ⟨.dev, 0xB030, 0x02⟩
/-- `PRBS_GEN_CFG_L`, R158. -/
@[reducible] def PRBS_GEN_CFG_L (n : Fin 16) : Key := ⟨(.line n), 0x38, 0x01⟩
/-- `PRBS_GEN_CFG_R`, R158. -/
@[reducible] def PRBS_GEN_CFG_R (p : Fin 2) : Key := ⟨(.port p), 0xF0, 0x01⟩
/-- `PRBS_INJECT_L`, R158. -/
@[reducible] def PRBS_INJECT_L (n : Fin 16) : Key := ⟨(.line n), 0x38, 0x02⟩
/-- `PRBS_INJECT_R`, R158. -/
@[reducible] def PRBS_INJECT_R (p : Fin 2) : Key := ⟨(.port p), 0xF0, 0x02⟩
/-- `PRBS_INJ_COUNT_L`, R158. -/
@[reducible] def PRBS_INJ_COUNT_L (n : Fin 16) : Key := ⟨(.line n), 0x38, 0x03⟩
/-- `PRBS_INJ_COUNT_R`, R158. -/
@[reducible] def PRBS_INJ_COUNT_R (p : Fin 2) : Key := ⟨(.port p), 0xF0, 0x03⟩
/-- `PRBS_CHK_CFG_L`, R158. -/
@[reducible] def PRBS_CHK_CFG_L (n : Fin 16) : Key := ⟨(.line n), 0x39, 0x01⟩
/-- `PRBS_CHK_CFG_R`, R158. -/
@[reducible] def PRBS_CHK_CFG_R (p : Fin 2) : Key := ⟨(.port p), 0xF1, 0x01⟩
/-- `PRBS_CHK_STATUS_L`, R158. -/
@[reducible] def PRBS_CHK_STATUS_L (n : Fin 16) : Key := ⟨(.line n), 0x39, 0x02⟩
/-- `PRBS_CHK_STATUS_R`, R158. -/
@[reducible] def PRBS_CHK_STATUS_R (p : Fin 2) : Key := ⟨(.port p), 0xF1, 0x02⟩
/-- `PRBS_BITS_L`, R158. -/
@[reducible] def PRBS_BITS_L (n : Fin 16) : Key := ⟨(.line n), 0x39, 0x03⟩
/-- `PRBS_BITS_R`, R158. -/
@[reducible] def PRBS_BITS_R (p : Fin 2) : Key := ⟨(.port p), 0xF1, 0x03⟩
/-- `PRBS_BIT_ERR_L`, R158. -/
@[reducible] def PRBS_BIT_ERR_L (n : Fin 16) : Key := ⟨(.line n), 0x39, 0x04⟩
/-- `PRBS_BIT_ERR_R`, R158. -/
@[reducible] def PRBS_BIT_ERR_R (p : Fin 2) : Key := ⟨(.port p), 0xF1, 0x04⟩
/-- `PRBS_SYM_ERR_L`, R158. -/
@[reducible] def PRBS_SYM_ERR_L (n : Fin 16) : Key := ⟨(.line n), 0x39, 0x05⟩
/-- `PRBS_SYM_ERR_R`, R158. -/
@[reducible] def PRBS_SYM_ERR_R (p : Fin 2) : Key := ⟨(.port p), 0xF1, 0x05⟩
/-- `PRBS_LOCK_LOSS_L`, R158. -/
@[reducible] def PRBS_LOCK_LOSS_L (n : Fin 16) : Key := ⟨(.line n), 0x39, 0x06⟩
/-- `PRBS_LOCK_LOSS_R`, R158. -/
@[reducible] def PRBS_LOCK_LOSS_R (p : Fin 2) : Key := ⟨(.port p), 0xF1, 0x06⟩
/-- `PRBS_CHK_ALL_L`, R158. -/
@[reducible] def PRBS_CHK_ALL_L (n : Fin 16) : Key := ⟨(.line n), 0x39, 0x07⟩
/-- `PRBS_CHK_ALL_R`, R158. -/
@[reducible] def PRBS_CHK_ALL_R (p : Fin 2) : Key := ⟨(.port p), 0xF1, 0x07⟩
/-- `PRBS_CHK_CLEAR_L`, R158. -/
@[reducible] def PRBS_CHK_CLEAR_L (n : Fin 16) : Key := ⟨(.line n), 0x39, 0x08⟩
/-- `PRBS_CHK_CLEAR_R`, R158. -/
@[reducible] def PRBS_CHK_CLEAR_R (p : Fin 2) : Key := ⟨(.port p), 0xF1, 0x08⟩
/-- `EVR_SLOT0`, R428. -/
@[reducible] def EVR_SLOT0 (i : Nat) : Key := ⟨.dev, 0x9300, 0x01 + i⟩
/-- `EVR_SLOT1`, R428. -/
@[reducible] def EVR_SLOT1 (i : Nat) : Key := ⟨.dev, 0x9301, 0x01 + i⟩
/-- `EVR_SLOT2`, R428. -/
@[reducible] def EVR_SLOT2 (i : Nat) : Key := ⟨.dev, 0x9302, 0x01 + i⟩
/-- `EVR_SLOT3`, R428. -/
@[reducible] def EVR_SLOT3 (i : Nat) : Key := ⟨.dev, 0x9303, 0x01 + i⟩
/-- `EVR_SLOT4`, R428. -/
@[reducible] def EVR_SLOT4 (i : Nat) : Key := ⟨.dev, 0x9304, 0x01 + i⟩
/-- `EVR_SLOT5`, R428. -/
@[reducible] def EVR_SLOT5 (i : Nat) : Key := ⟨.dev, 0x9305, 0x01 + i⟩
/-- `EVR_SLOT6`, R428. -/
@[reducible] def EVR_SLOT6 (i : Nat) : Key := ⟨.dev, 0x9306, 0x01 + i⟩
/-- `EVR_SLOT7`, R428. -/
@[reducible] def EVR_SLOT7 (i : Nat) : Key := ⟨.dev, 0x9307, 0x01 + i⟩

end Sys2Proof.Machine.K
end

