-- ==== Sys2Proof/Machine/Entries.lean ====
section
/-!
DEFINITION. The dictionary's entry table: for every entry its type (R367), access class (R369), persistence
(R372), write role (R370), plain range and reset value, as the tables of the chapters give them. Each row
covers `cnt` like subindexes from `sub`. A range that depends on other entries or on a state is not in the
row: it stands in the family file that owns the entry.
-/

namespace Sys2Proof.Machine

/-- Types of Table 13-1. `domMax` is a DOMAIN of stated maximum. -/
inductive Ty where
  | bool | u8 | u16 | u32 | u64 | i8 | i16 | i32 | i64 | time96 | str
  | dom (n : Nat)
  | domMax (n : Nat)
deriving DecidableEq, Repr

/-- Access classes of Table 13-2. -/
inductive Acc where
  | ro | rw | wo | rwd | const
deriving DecidableEq, Repr

/-- Persistence classes of R372; `aon` is the always-on domain of R489, `const` a fixed value. -/
inductive Pers where
  | vol | mrst | flash | aon | const
deriving DecidableEq, Repr

/-- Roles of R370, in rank order. -/
inductive Role where
  | observer | operator | owner | vendor
deriving DecidableEq, Repr

/-- A plain range of an entry's value. -/
inductive Rng where
  | any
  | rng (lo hi : Int)
deriving DecidableEq, Repr

/-- One row of an entry table. -/
structure Entry where
  off : Nat
  sub : Nat
  cnt : Nat
  ty : Ty
  acc : Acc
  pers : Pers
  wrole : Role
  rng : Rng
  reset : Nat
deriving DecidableEq, Repr

def devRows0 : List Entry := [
  ⟨0x1000, 0x01, 1, .str, .const, .const, .owner, .any, 0⟩, -- ID_PART
  ⟨0x1000, 0x02, 1, .u8, .const, .const, .owner, .any, 176⟩, -- ID_STEPPING
  ⟨0x1000, 0x03, 1, .u64, .const, .const, .owner, .any, 0⟩, -- ID_UNIQUE
  ⟨0x1010, 0x01, 1, .u8, .rw, .flash, .owner, (.rng (0) (2)), 2⟩, -- OD_TWI_ROLE
  ⟨0x1010, 0x02, 1, .u8, .ro, .vol, .owner, .any, 0⟩, -- OD_TWI_ADDR
  ⟨0x1010, 0x03, 1, .u16, .rw, .flash, .owner, (.rng (10) (10000)), 1000⟩, -- OD_SEG_TIMEOUT
  ⟨0x1010, 0x04, 1, .u16, .rw, .flash, .owner, (.rng (10) (10000)), 1000⟩, -- OD_GROUP_TIMEOUT
  ⟨0x1010, 0x05, 1, .u16, .rw, .flash, .owner, (.rng (0) (600)), 10⟩, -- OD_SAVE_DELAY
  ⟨0x1010, 0x06, 1, .u8, .wo, .vol, .owner, (.rng (0) (1)), 0⟩, -- OD_CFG_ERASE
  ⟨0x1020, 0x01, 1, .u8, .ro, .vol, .owner, .any, 0⟩, -- OD_CORE_LOAD
  ⟨0x1020, 0x02, 1, .u8, .ro, .vol, .owner, .any, 0⟩, -- OD_CORE_STATE
  ⟨0x1020, 0x03, 1, (.dom 18), .ro, .vol, .owner, .any, 0⟩, -- OD_QUEUE_DEPTH
  ⟨0x1020, 0x04, 1, .u32, .ro, .mrst, .owner, .any, 0⟩, -- OD_BUSY_COUNT
  ⟨0x1020, 0x05, 1, .u32, .ro, .mrst, .owner, .any, 0⟩, -- OD_BUSY_TEST_COUNT
  ⟨0x1020, 0x06, 1, .u32, .ro, .mrst, .owner, .any, 0⟩, -- OD_ABORT_COUNT
  ⟨0x1020, 0x07, 1, .u32, .ro, .mrst, .owner, .any, 0⟩, -- OD_MAX_RESP_US
  ⟨0x1020, 0x08, 1, .u32, .ro, .mrst, .owner, .any, 0⟩, -- OD_TWI_ERR
  ⟨0x1020, 0x09, 1, .u32, .ro, .mrst, .owner, .any, 0⟩, -- OD_TWI_OVERFLOW
  ⟨0x1020, 0x0A, 1, .u32, .ro, .mrst, .owner, .any, 0⟩, -- OD_GROUPS_LOST
  ⟨0x1020, 0x0B, 1, .u32, .ro, .flash, .owner, .any, 0⟩, -- OD_FLASH_SAVES
  ⟨0x1020, 0x0C, 1, .u32, .ro, .mrst, .owner, .any, 0⟩, -- OD_MALFORMED
  ⟨0x1020, 0x0D, 1, .u8, .wo, .vol, .operator, (.rng (0) (1)), 0⟩, -- OD_STATS_CLEAR
  ⟨0x2000, 0x01, 1, .u8, .ro, .mrst, .owner, .any, 0⟩, -- RING_ADDR
  ⟨0x2000, 0x02, 1, .u8, .rw, .flash, .owner, (.rng (0) (3)), 3⟩, -- RING_RATE_MAX
  ⟨0x2000, 0x03, 1, .u8, .ro, .mrst, .owner, .any, 0⟩, -- RING_LOOP_RATE
  ⟨0x2000, 0x04, 1, .u16, .ro, .vol, .owner, .any, 0⟩, -- RING_STATUS
  ⟨0x2010, 0x01, 1, .u32, .ro, .mrst, .owner, .any, 0⟩, -- RING_OWNER_EPOCH
  ⟨0x2010, 0x02, 1, .u8, .ro, .mrst, .owner, .any, 255⟩, -- RING_OWNER_HOST
  ⟨0x2010, 0x03, 1, .u32, .ro, .mrst, .owner, .any, 0⟩, -- RING_OWNER_WRITES
  ⟨0x2010, 0x04, 1, .u32, .ro, .mrst, .owner, .any, 0⟩, -- RING_RIVAL_EPOCH
  ⟨0x2010, 0x05, 1, .u8, .ro, .mrst, .owner, .any, 255⟩, -- RING_RIVAL_HOST
  ⟨0x2020, 0x01, 1, .u8, .rw, .flash, .owner, .any, 0⟩, -- RING_EVENT_DEST
  ⟨0x2020, 0x02, 1, .u32, .ro, .mrst, .owner, .any, 0⟩, -- RING_EVENT_SEQ
  ⟨0x2030, 0x01, 17, .u32, .ro, .mrst, .owner, .any, 0⟩, -- RING_CODE_VIOL_SA ...
  ⟨0x2030, 0x12, 1, (.dom 68), .ro, .mrst, .owner, .any, 0⟩, -- RING_CNT_ALL
  ⟨0x2030, 0x13, 1, .u8, .wo, .vol, .operator, (.rng (0) (1)), 0⟩, -- RING_CLEAR
  ⟨0x2030, 0x14, 1, .u32, .rw, .flash, .owner, .any, 16⟩, -- RING_CRC_THR
  ⟨0x5000, 0x01, 1, .time96, .ro, .vol, .owner, .any, 0⟩, -- TIME_NOW
  ⟨0x5000, 0x02, 1, .u16, .ro, .vol, .owner, .any, 0⟩, -- TIME_STATUS
  ⟨0x5000, 0x03, 1, .u32, .ro, .mrst, .owner, .any, 0⟩ -- TIME_GEN
  ]

def devRows1 : List Entry := [
  ⟨0x5001, 0x01, 1, .time96, .wo, .vol, .owner, .any, 0⟩, -- TIME_SET
  ⟨0x5001, 0x02, 1, .i64, .wo, .vol, .owner, .any, 0⟩, -- TIME_STEP
  ⟨0x5001, 0x03, 1, .i32, .rw, .mrst, .owner, (.rng (-2000000) 2000000), 0⟩, -- TIME_RATE_ADJ
  ⟨0x5001, 0x04, 1, .u32, .ro, .mrst, .owner, .any, 0⟩, -- TIME_ADJ_DISCARDED
  ⟨0x5002, 0x01, 1, .u8, .rw, .flash, .owner, (.rng (0) (3)), 0⟩, -- TIME_DISC_SRC
  ⟨0x5002, 0x02, 1, .u8, .rw, .flash, .owner, (.rng (0) (15)), 0⟩, -- TIME_LINE_LANE
  ⟨0x5002, 0x03, 1, .u32, .rw, .flash, .owner, .any, 1000⟩, -- TIME_STEP_THR
  ⟨0x5002, 0x04, 1, .u8, .rw, .flash, .owner, (.rng (0) (8)), 1⟩, -- TIME_KP
  ⟨0x5002, 0x05, 1, .u8, .rw, .flash, .owner, (.rng (2) (12)), 4⟩, -- TIME_KI
  ⟨0x5002, 0x06, 1, .u8, .rw, .flash, .owner, (.rng (1) (16)), 4⟩, -- TIME_HOLDOVER_MISS
  ⟨0x5002, 0x07, 1, .i32, .ro, .mrst, .owner, .any, 0⟩, -- TIME_SERVO_FREQ
  ⟨0x5002, 0x08, 1, .i64, .ro, .vol, .owner, .any, 0⟩, -- TIME_SERVO_ERR
  ⟨0x5002, 0x09, 1, .u32, .rw, .flash, .owner, .any, 50000⟩, -- TIME_ALARM_THR
  ⟨0x5003, 0x01, 1, .u32, .rw, .flash, .owner, .any, 100000⟩, -- SYNC_OUT_WIDTH
  ⟨0x5003, 0x02, 1, .i32, .rw, .flash, .owner, (.rng (-100000000) 100000000), 0⟩, -- SYNC_OUT_OFFSET
  ⟨0x5003, 0x03, 1, .bool, .rw, .flash, .owner, .any, 0⟩, -- SYNC_IN_EN
  ⟨0x5003, 0x04, 1, .i32, .rw, .flash, .owner, .any, 0⟩, -- SYNC_IN_DELAY
  ⟨0x5003, 0x05, 1, .time96, .ro, .vol, .owner, .any, 0⟩, -- SYNC_IN_STAMP
  ⟨0x5003, 0x06, 1, .u32, .ro, .vol, .owner, .any, 0⟩, -- SYNC_IN_SEQ
  ⟨0x5003, 0x07, 1, .bool, .ro, .vol, .owner, .any, 0⟩, -- SYNC_IN_VALID
  ⟨0x5003, 0x08, 1, .u32, .ro, .mrst, .owner, .any, 0⟩, -- SYNC_IN_FAULTS
  ⟨0x5004, 0x01, 1, .bool, .rw, .flash, .owner, .any, 0⟩, -- TIME_RING_BEACON_EN
  ⟨0x5004, 0x02, 1, .u16, .rw, .flash, .owner, (.rng (0) (1000)), 16⟩, -- TIME_RING_PERIOD
  ⟨0x5004, 0x03, 1, .u64, .rw, .flash, .owner, .any, 0⟩, -- TIME_RING_SRC_ID
  ⟨0x5004, 0x04, 2, .u32, .rw, .flash, .owner, .any, 0⟩, -- TIME_RING_WIRE_FS
  ⟨0x5004, 0x06, 1, .i64, .ro, .vol, .owner, .any, 0⟩, -- TIME_RING_LAST_ERR
  ⟨0x5004, 0x07, 1, .i64, .ro, .vol, .owner, .any, 0⟩, -- TIME_RING_LOOP_ERR
  ⟨0x5004, 0x08, 1, .u32, .ro, .mrst, .owner, .any, 0⟩, -- TIME_RING_BEACONS
  ⟨0x5004, 0x09, 1, .u32, .ro, .mrst, .owner, .any, 0⟩, -- TIME_RING_PORT_SWITCH
  ⟨0x5006, 0x01, 1, .u16, .ro, .vol, .owner, .any, 0⟩, -- DET_LINE_TIME_RESULT
  ⟨0x5006, 0x02, 1, .u16, .ro, .vol, .owner, .any, 0⟩, -- DET_LINE_TIME_FAULT
  ⟨0x5100, 0x01, 1, .u8, .rwd, .flash, .owner, (.rng (0) (1)), 0⟩, -- CLK_REF_SRC
  ⟨0x5100, 0x02, 1, .u32, .ro, .vol, .owner, .any, 0⟩, -- CLK_STATUS
  ⟨0x5100, 0x03, 1, .u32, .ro, .mrst, .owner, .any, 0⟩, -- CLK_REF_LOSS_COUNT
  ⟨0x5110, 0x01, 1, .u16, .rw, .flash, .owner, .any, 0⟩, -- RCLKO0_CFG
  ⟨0x5110, 0x02, 1, .u16, .rw, .flash, .owner, .any, 0⟩, -- RCLKO1_CFG
  ⟨0x6000, 0x01, 1, .u8, .ro, .vol, .owner, .any, 0⟩, -- CE_STATUS
  ⟨0x6000, 0x02, 1, .u64, .ro, .vol, .owner, .any, 0⟩, -- CE_FRAME
  ⟨0x6000, 0x03, 1, .u8, .wo, .vol, .owner, (.rng (0) (1)), 0⟩, -- CE_PAD_RELEASE
  ⟨0x6001, 0x01, 6, .u64, .ro, .vol, .owner, .any, 0⟩ -- DET_LOOP_FAULT ...
  ]

def devRows2 : List Entry := [
  ⟨0x6001, 0x07, 1, .u64, .ro, .vol, .owner, .any, 0⟩, -- DET_AUX
  ⟨0x6001, 0x08, 1, .u16, .ro, .vol, .owner, .any, 0⟩, -- DET_OG
  ⟨0x6002, 0x01, 1, .u32, .ro, .mrst, .owner, .any, 0⟩, -- CE_MEM_CORRECTED
  ⟨0x7000, 0x01, 1, .u8, .rw, .flash, .owner, (.rng (0) (64)), 0⟩, -- MON_SEQ_LEN
  ⟨0x7000, 0x02, 1, .u8, .rw, .flash, .owner, (.rng (0) (1)), 0⟩, -- MON_URGENT_MODE
  ⟨0x7000, 0x03, 1, .u8, .ro, .vol, .owner, .any, 0⟩, -- MON_PASS_FRAMES
  ⟨0x7000, 0x04, 1, .u8, .ro, .vol, .owner, .any, 0⟩, -- MON_STATUS
  ⟨0x7001, 0x01, 64, .u32, .rw, .flash, .owner, .any, 0⟩, -- MON_SEQ_ENTRY
  ⟨0x7002, 0x01, 1, .u32, .ro, .vol, .owner, .any, 0⟩, -- MON_DATA
  ⟨0x7002, 0x02, 1, .time96, .ro, .vol, .owner, .any, 0⟩, -- MON_DATA_TIME
  ⟨0x7002, 0x03, 1, (.dom 16), .ro, .vol, .owner, .any, 0⟩, -- MON_DATA_ALL
  ⟨0x7003, 0x01, 1, .u16, .wo, .vol, .operator, .any, 0⟩, -- MON_URGENT_REQ
  ⟨0x7004, 0x01, 1, .u64, .ro, .mrst, .owner, .any, 0⟩, -- MON_CONVERSIONS
  ⟨0x7004, 0x02, 6, .u32, .ro, .mrst, .owner, .any, 0⟩, -- MON_PASSES ...
  ⟨0x7004, 0x08, 1, .u8, .wo, .vol, .operator, (.rng (0) (1)), 0⟩, -- MON_CNT_CLEAR
  ⟨0x7005, 0x01, 4, .u64, .ro, .vol, .owner, .any, 0⟩, -- DET_MON_CLIP ...
  ⟨0x70E0, 0x01, 1, .u8, .wo, .vol, .operator, (.rng (0) (1)), 0⟩, -- MON_CAL_CMD
  ⟨0x70E0, 0x02, 1, .u8, .rw, .flash, .owner, (.rng (0) (60)), 20⟩, -- MON_CAL_DT
  ⟨0x70E0, 0x03, 1, .u32, .ro, .mrst, .owner, .any, 0⟩, -- MON_CAL_COUNT
  ⟨0x70E0, 0x04, 1, .time96, .ro, .mrst, .owner, .any, 0⟩, -- MON_CAL_LAST
  ⟨0x70E0, 0x05, 1, .u8, .ro, .mrst, .owner, .any, 0⟩, -- MON_CAL_RESULT
  ⟨0x70E0, 0x06, 1, .u32, .ro, .mrst, .owner, .any, 0⟩, -- MON_CAL_URGENT_REFUSED
  ⟨0x70E0, 0x07, 1, .i16, .ro, .mrst, .owner, .any, 0⟩, -- MON_CAL_TEMP
  ⟨0x8000, 0x01, 1, .u16, .rw, .aon, .owner, .any, 64⟩, -- RST_CAUSE
  ⟨0x8000, 0x02, 1, .u16, .ro, .vol, .owner, .any, 0⟩, -- PWR_VIN
  ⟨0x8000, 0x03, 1, .u16, .ro, .vol, .owner, .any, 0⟩, -- PWR_VCORE
  ⟨0x8000, 0x05, 1, .u16, .ro, .aon, .owner, .any, 0⟩, -- PWR_LAST_FAULT
  ⟨0x8000, 0x06, 1, .u8, .wo, .vol, .owner, (.rng (0) (1)), 0⟩, -- PWR_DEVICE_OFF
  ⟨0x8000, 0x07, 1, .u32, .rw, .flash, .owner, .any, 4194303⟩, -- PWR_WAKE_MASK
  ⟨0x8000, 0x08, 1, .u16, .wo, .vol, .owner, .any, 0⟩, -- RST_LANE
  ⟨0x8000, 0x09, 1, .u32, .ro, .aon, .owner, .any, 0⟩, -- PWR_REG_FAULTS
  ⟨0x8000, 0x0A, 1, .u16, .ro, .mrst, .owner, .any, 0⟩, -- PWR_OFF_LAST_REFUSER
  ⟨0x8002, 0x01, 7, .u32, .ro, .mrst, .owner, .any, 0⟩, -- PWR_CNT_REFUSED_SECURITY ...
  ⟨0x8002, 0x08, 5, .u32, .ro, .mrst, .owner, .any, 0⟩, -- PWR_CNT_ABORTED_WAKE_PIN ...
  ⟨0x8002, 0x0D, 1, .u32, .ro, .mrst, .owner, .any, 0⟩, -- PWR_CNT_REPLACED
  ⟨0x8002, 0x0E, 1, .u8, .wo, .vol, .operator, (.rng (0) (1)), 0⟩, -- PWR_CNT_CLEAR
  ⟨0x8030, 0x01, 1, .u8, .ro, .vol, .owner, .any, 0⟩, -- PWR_RET_FAIL_BANKS
  ⟨0x8030, 0x02, 1, .u32, .ro, .mrst, .owner, .any, 0⟩, -- PWR_RET_FAIL_COUNT
  ⟨0x8031, 0x01, 4, .u32, .ro, .vol, .owner, .any, 0⟩, -- DET_PWR_TRANSITION_DONE ...
  ⟨0x8100, 0x01, 24, .i16, .ro, .vol, .owner, .any, 0⟩ -- TEMP_T
  ]

def devRows3 : List Entry := [
  ⟨0x8100, 0x19, 1, .i16, .ro, .vol, .owner, .any, 0⟩, -- TEMP_MAX
  ⟨0x8100, 0x1A, 1, .u8, .ro, .vol, .owner, .any, 0⟩, -- TEMP_MAX_SENSOR
  ⟨0x8100, 0x1B, 1, .u32, .ro, .vol, .owner, .any, 0⟩, -- TEMP_BROKEN
  ⟨0x8200, 0x01, 1, .u8, .ro, .vol, .owner, .any, 0⟩, -- THERM_STATUS
  ⟨0x8200, 0x02, 1, .i16, .ro, .vol, .owner, .any, 0⟩, -- THERM_TRIP_MAX
  ⟨0x8200, 0x03, 1, .u32, .rw, .flash, .owner, .any, 0⟩, -- THERM_TRIP_EXCLUDE
  ⟨0x8200, 0x04, 1, .i16, .rw, .flash, .owner, (.rng (-500) (12400)), 11000⟩, -- THERM_WARN_HIGH
  ⟨0x8200, 0x05, 1, .i16, .rw, .flash, .owner, (.rng (-2000) (10000)), 65236⟩, -- THERM_WARN_LOW
  ⟨0x8200, 0x06, 1, .bool, .rw, .flash, .owner, .any, 0⟩, -- THERM_AUTO_RESUME
  ⟨0x8200, 0x07, 1, .u8, .wo, .vol, .owner, (.rng (0) (1)), 0⟩, -- THERM_TRIP_TEST
  ⟨0x8200, 0x08, 1, .u32, .ro, .mrst, .owner, .any, 0⟩, -- THERM_TRIP_COUNT
  ⟨0x8200, 0x09, 1, .time96, .ro, .mrst, .owner, .any, 0⟩, -- THERM_LAST_TRIP
  ⟨0x8200, 0x0A, 1, .u8, .ro, .mrst, .owner, .any, 255⟩, -- THERM_LAST_SENSOR
  ⟨0x8200, 0x0B, 1, .u32, .ro, .vol, .owner, .any, 0⟩, -- THERM_COOL_MS
  ⟨0x9000, 0x01, 1, .u8, .ro, .vol, .owner, .any, 2⟩, -- MGMT_PL
  ⟨0x9000, 0x02, 1, .u8, .rw, .flash, .owner, (.rng (0) (1)), 0⟩, -- MGMT_PL_MODE
  ⟨0x9000, 0x03, 1, .u8, .rw, .flash, .owner, (.rng (0) (2)), 2⟩, -- MGMT_PL_FIXED
  ⟨0x9000, 0x04, 5, .u32, .ro, .mrst, .owner, .any, 0⟩, -- MGMT_PL_CHANGES ...
  ⟨0x9000, 0x09, 1, .u8, .wo, .vol, .owner, (.rng (0) (1)), 0⟩, -- MGMT_MRST
  ⟨0x9000, 0x0A, 1, .u8, .wo, .vol, .observer, (.rng (0) (1)), 0⟩, -- MGMT_MASTER_RESTART
  ⟨0x9000, 0x0B, 1, (.dom 19), .ro, .mrst, .owner, .any, 0⟩, -- MGMT_MASTER_GEN
  ⟨0x9010, 0x01, 1, .u32, .ro, .vol, .owner, .any, 0⟩, -- IRQ_SUMMARY
  ⟨0x9010, 0x02, 1, .u32, .rw, .flash, .owner, .any, 4294967295⟩, -- IRQ_PIN_MASK
  ⟨0x9010, 0x03, 1, .u32, .rw, .flash, .owner, .any, 4294967295⟩, -- IRQ_EVENT_MASK
  ⟨0x9010, 0x04, 1, .bool, .ro, .vol, .owner, .any, 0⟩, -- IRQ_PIN_STATE
  ⟨0x9010, 0x05, 1, .u8, .wo, .vol, .operator, .any, 0⟩, -- IRQ_SW_SET
  ⟨0x9100, 0x01, 1, .u64, .ro, .flash, .owner, .any, 0⟩, -- AVAIL_OUTAGE_US
  ⟨0x9100, 0x02, 1, .u32, .ro, .flash, .owner, .any, 0⟩, -- AVAIL_CNT_LINE
  ⟨0x9100, 0x03, 1, .u32, .ro, .flash, .owner, .any, 0⟩, -- AVAIL_CNT_POWER
  ⟨0x9100, 0x04, 1, .u32, .ro, .flash, .owner, .any, 0⟩, -- AVAIL_CNT_TRIP
  ⟨0x9100, 0x05, 1, .u8, .wo, .vol, .owner, (.rng (0) (1)), 0⟩, -- AVAIL_CLEAR
  ⟨0x9200, 0x01, 1, .u32, .ro, .mrst, .owner, .any, 0⟩, -- EVR_HEAD
  ⟨0x9200, 0x02, 1, .u16, .ro, .mrst, .owner, .any, 0⟩, -- EVR_HEAD_SLOT
  ⟨0x9200, 0x03, 1, .u32, .rw, .mrst, .operator, .any, 4294967295⟩, -- EVR_ACK
  ⟨0x9200, 0x04, 1, .u16, .rw, .flash, .owner, (.rng (0) (768)), 512⟩, -- EVR_WATERMARK
  ⟨0x9200, 0x05, 1, .u32, .ro, .mrst, .owner, .any, 0⟩, -- EVR_LOST
  ⟨0x9200, 0x06, 1, .u32, .ro, .mrst, .owner, .any, 0⟩, -- EVR_DROPPED
  ⟨0x9300, 0x01, 128, (.dom 32), .ro, .mrst, .owner, .any, 0⟩, -- EVR_SLOT0
  ⟨0x9301, 0x01, 128, (.dom 32), .ro, .mrst, .owner, .any, 0⟩, -- EVR_SLOT1
  ⟨0x9302, 0x01, 128, (.dom 32), .ro, .mrst, .owner, .any, 0⟩ -- EVR_SLOT2
  ]

def devRows4 : List Entry := [
  ⟨0x9303, 0x01, 128, (.dom 32), .ro, .mrst, .owner, .any, 0⟩, -- EVR_SLOT3
  ⟨0x9304, 0x01, 128, (.dom 32), .ro, .mrst, .owner, .any, 0⟩, -- EVR_SLOT4
  ⟨0x9305, 0x01, 128, (.dom 32), .ro, .mrst, .owner, .any, 0⟩, -- EVR_SLOT5
  ⟨0x9306, 0x01, 128, (.dom 32), .ro, .mrst, .owner, .any, 0⟩, -- EVR_SLOT6
  ⟨0x9307, 0x01, 128, (.dom 32), .ro, .mrst, .owner, .any, 0⟩, -- EVR_SLOT7
  ⟨0x9400, 0x01, 4, .u16, .ro, .vol, .owner, .any, 0⟩, -- DET_MB_MSG ...
  ⟨0x9410, 0x01, 32, .u16, .ro, .vol, .owner, .any, 255⟩, -- LK_TAKE
  ⟨0x9411, 0x01, 32, .u8, .wo, .vol, .observer, (.rng (0) (1)), 0⟩, -- LK_RELEASE
  ⟨0x9412, 0x01, 32, .u8, .wo, .vol, .owner, (.rng (0) (1)), 0⟩, -- LK_FORCE
  ⟨0x9413, 0x01, 1, (.dom 32), .ro, .vol, .owner, .any, 0⟩, -- LK_STATE
  ⟨0x9413, 0x02, 1, .u32, .rw, .flash, .owner, .any, 0⟩, -- LK_NOTIFY
  ⟨0x9413, 0x03, 1, .u32, .rw, .flash, .owner, .any, 0⟩, -- LK_CE_SAFE
  ⟨0x9413, 0x04, 1, .u32, .ro, .mrst, .owner, .any, 0⟩, -- LK_FORCED_COUNT
  ⟨0xA000, 0x01, 1, .u8, .ro, .vol, .owner, .any, 0⟩, -- SEC_LC_STATE
  ⟨0xA000, 0x02, 1, .u8, .wo, .vol, .owner, .any, 0⟩, -- SEC_LC_ADVANCE
  ⟨0xA000, 0x03, 1, .u16, .ro, .vol, .owner, .any, 0⟩, -- SEC_DEBUG_STATE
  ⟨0xA000, 0x04, 1, .u8, .wo, .vol, .owner, (.rng (0) (1)), 0⟩, -- SEC_DEBUG_CLOSE
  ⟨0xA000, 0x05, 1, (.dom 32), .ro, .vol, .owner, .any, 0⟩, -- SEC_CHALLENGE
  ⟨0xA000, 0x06, 1, (.dom 3437), .wo, .vol, .operator, .any, 0⟩, -- SEC_TOKEN
  ⟨0xA000, 0x07, 1, .u8, .ro, .mrst, .owner, .any, 0⟩, -- SEC_TOKEN_RESULT
  ⟨0xA000, 0x08, 1, .u8, .wo, .vol, .owner, (.rng (0) (1)), 0⟩, -- SEC_VENDOR_DROP
  ⟨0xA000, 0x09, 1, .u32, .ro, .vol, .owner, .any, 0⟩, -- SEC_VENDOR_HOLDERS
  ⟨0xA000, 0x0A, 1, .u32, .ro, .vol, .owner, .any, 0⟩, -- SEC_DEBUG_REMAIN
  ⟨0xA000, 0x0B, 1, .u32, .ro, .mrst, .owner, .any, 0⟩, -- SEC_TOKEN_FAILS
  ⟨0xA010, 0x01, 1, .u8, .ro, .vol, .owner, .any, 0⟩, -- FW_ACTIVE_SLOT
  ⟨0xA010, 0x02, 1, .u8, .wo, .vol, .owner, (.rng (0) (1)), 0⟩, -- FW_ACTIVATE
  ⟨0xA010, 0x03, 1, .u8, .wo, .vol, .owner, (.rng (0) (1)), 0⟩, -- FW_CONFIRM
  ⟨0xA010, 0x04, 1, .u16, .rw, .flash, .owner, (.rng (0) (3600)), 600⟩, -- FW_TRIAL_S
  ⟨0xA010, 0x05, 1, .u8, .wo, .vol, .owner, (.rng (0) (1)), 0⟩, -- FW_SVN_COMMIT
  ⟨0xA010, 0x06, 1, .u8, .ro, .vol, .owner, .any, 0⟩, -- FW_MIN_SVN
  ⟨0xA010, 0x07, 1, .u16, .ro, .mrst, .owner, .any, 0⟩, -- FW_LAST_FAIL
  ⟨0xA010, 0x08, 1, .u32, .ro, .mrst, .owner, .any, 0⟩, -- FW_BOOT_COUNT
  ⟨0xA020, 0x01, 1, (.dom 32), .ro, .vol, .owner, .any, 0⟩, -- ID_PUB_ED25519
  ⟨0xA020, 0x02, 1, (.dom 1952), .ro, .vol, .owner, .any, 0⟩, -- ID_PUB_MLDSA
  ⟨0xA020, 0x03, 1, (.domMax 8192), .rw, .flash, .vendor, .any, 0⟩, -- ID_CERT
  ⟨0xA020, 0x04, 1, (.dom 32), .wo, .vol, .operator, .any, 0⟩, -- SEC_ATTEST_NONCE
  ⟨0xA020, 0x05, 1, (.dom 3597), .ro, .vol, .owner, .any, 0⟩, -- SEC_ATTEST_REPORT
  ⟨0xA020, 0x06, 1, .u32, .ro, .vol, .owner, .any, 0⟩, -- SEC_ATTEST_SEQ
  ⟨0xB000, 0x01, 1, .u8, .wo, .vol, .owner, .any, 0⟩, -- BIST_START
  ⟨0xB000, 0x02, 1, .u8, .wo, .vol, .owner, (.rng (0) (1)), 0⟩ -- BIST_STOP
  ]

def devRows5 : List Entry := [
  ⟨0xB001, 0x01, 1, .u32, .ro, .mrst, .owner, .any, 0⟩, -- BIST_STATUS
  ⟨0xB001, 0x02, 1, .u32, .ro, .mrst, .owner, .any, 0⟩, -- BIST_CYCLES
  ⟨0xB001, 0x03, 1, .u32, .ro, .mrst, .owner, .any, 0⟩, -- BIST_EXPECTED
  ⟨0xB001, 0x04, 1, .u32, .ro, .mrst, .owner, .any, 0⟩, -- BIST_SIGNATURE
  ⟨0xB001, 0x05, 1, .u32, .ro, .mrst, .owner, .any, 0⟩, -- BIST_SIG_EXPECTED
  ⟨0xB001, 0x06, 1, .u32, .ro, .mrst, .owner, .any, 0⟩, -- BIST_FAIL_WORDS
  ⟨0xB001, 0x07, 1, .u32, .ro, .mrst, .owner, .any, 4294967295⟩, -- BIST_FIRST_FAIL
  ⟨0xB001, 0x08, 1, .u32, .ro, .vol, .owner, .any, 0⟩, -- BIST_REMAIN_US
  ⟨0xB001, 0x09, 1, .time96, .ro, .mrst, .owner, .any, 0⟩, -- BIST_START_TIME
  ⟨0xB001, 0x0A, 1, .u64, .ro, .mrst, .owner, .any, 0⟩, -- BIST_DISCARDED
  ⟨0xB001, 0x0B, 1, (.dom 52), .ro, .vol, .owner, .any, 0⟩, -- BIST_ALL
  ⟨0xB002, 0x01, 4, .u32, .ro, .mrst, .owner, .any, 0⟩, -- BIST_{RUNS PASSES FAILS ABORTS}
  ⟨0xB002, 0x05, 1, .u8, .wo, .vol, .operator, (.rng (0) (1)), 0⟩, -- BIST_CNT_CLEAR
  ⟨0xB010, 0x01, 1, .u16, .ro, .vol, .owner, .any, 0⟩, -- CAL_SLICE_FAIL_LANES
  ⟨0xB010, 0x02, 1, .u32, .ro, .vol, .owner, .any, 0⟩, -- CAL_FG_FAIL_SRC
  ⟨0xB020, 0x01, 22, .u32, .ro, .vol, .owner, .any, 0⟩, -- REPAIR_STATE
  ⟨0xB030, 0x01, 1, .u8, .wo, .vol, .owner, (.rng (0) (1)), 0⟩, -- REPAIR_FUSE_CMD
  ⟨0xB030, 0x02, 1, .u8, .ro, .vol, .owner, .any, 64⟩, -- REPAIR_FUSE_FREE
  ⟨0xC010, 0x01, 1, .u8, .rw, .vol, .operator, .any, 0⟩, -- PC_ENABLE
  ⟨0xC010, 0x02, 1, (.dom 48), .ro, .vol, .owner, .any, 0⟩, -- PC_ALL
  ⟨0xC010, 0x03, 1, .u8, .ro, .vol, .owner, .any, 0⟩ -- PC_OVF_CAUSE
  ]

/-- Every entry of the `dev` blocks. -/
def devEntries : List Entry := devRows0 ++ devRows1 ++ devRows2 ++ devRows3 ++ devRows4 ++ devRows5

def lineRows0 : List Entry := [
  ⟨0x01, 0x01, 1, .u8, .rw, .flash, .owner, (.rng (0) (28)), 12⟩, -- LINE_CTLE_PEAK
  ⟨0x01, 0x02, 1, .bool, .rw, .flash, .owner, .any, 1⟩, -- LINE_CTLE_ADAPT
  ⟨0x02, 0x01, 1, .u8, .rw, .flash, .owner, (.rng (24) (80)), 48⟩, -- LINE_AGC_TARGET
  ⟨0x02, 0x02, 1, .u8, .rw, .flash, .owner, (.rng (0) (60)), 0⟩, -- LINE_VGA_GAIN
  ⟨0x02, 0x03, 1, .bool, .rw, .flash, .owner, .any, 1⟩, -- LINE_AGC_EN
  ⟨0x03, 0x01, 1, .u8, .rw, .flash, .owner, .any, 10⟩, -- LINE_LOS_THR
  ⟨0x03, 0x02, 1, .bool, .ro, .vol, .owner, .any, 0⟩, -- LINE_LOS_STATUS
  ⟨0x04, 0x01, 16, .u8, .ro, .vol, .owner, .any, 0⟩, -- LINE_SLOT_MAP
  ⟨0x04, 0x11, 1, .u8, .ro, .vol, .owner, .any, 0⟩, -- LINE_SLOT_SPARE
  ⟨0x04, 0x12, 1, .u32, .ro, .vol, .owner, .any, 0⟩, -- LINE_SLOT_GEN
  ⟨0x04, 0x13, 1, (.dom 21), .ro, .vol, .owner, .any, 0⟩, -- LINE_SLOT_MAP_ALL
  ⟨0x05, 0x01, 1, .u8, .rw, .flash, .owner, (.rng (4) (12)), 7⟩, -- LINE_CDR_KP
  ⟨0x05, 0x02, 1, .u8, .rw, .flash, .owner, (.rng (10) (20)), 15⟩, -- LINE_CDR_KI
  ⟨0x05, 0x03, 1, .i32, .ro, .vol, .owner, .any, 0⟩, -- LINE_CDR_FREQ
  ⟨0x05, 0x04, 1, .u16, .ro, .vol, .owner, .any, 0⟩, -- LINE_CDR_PHASE
  ⟨0x05, 0x05, 1, .bool, .ro, .vol, .owner, .any, 0⟩, -- LINE_CDR_HOLD
  ⟨0x06, 0x01, 1, .u8, .rw, .flash, .owner, (.rng (0) (1)), 0⟩, -- PICOT_MODE
  ⟨0x06, 0x02, 1, .u8, .rw, .flash, .owner, (.rng (0) (15)), 0⟩, -- PICOT_TX_CHAN
  ⟨0x06, 0x03, 1, .u8, .rw, .flash, .owner, (.rng (0) (15)), 0⟩, -- PICOT_RX_CHAN
  ⟨0x06, 0x04, 1, .u8, .rw, .flash, .owner, (.rng (128) (240)), 192⟩, -- PICOT_DET_THR
  ⟨0x06, 0x05, 1, .i16, .rw, .flash, .owner, (.rng (-8000) (-2000)), 59536⟩, -- PICOT_SQUELCH
  ⟨0x07, 0x01, 1, .u8, .ro, .vol, .owner, .any, 0⟩, -- PICOT_RX_STATE
  ⟨0x07, 0x02, 1, .u8, .ro, .vol, .owner, .any, 0⟩, -- PICOT_TX_STATE
  ⟨0x07, 0x03, 1, .i16, .ro, .vol, .owner, .any, 32768⟩, -- PICOT_LAST_RSSI
  ⟨0x07, 0x04, 1, .i16, .ro, .vol, .owner, .any, 32768⟩, -- PICOT_LAST_SNR
  ⟨0x07, 0x05, 1, .i16, .ro, .vol, .owner, .any, 32768⟩, -- PICOT_LAST_FOFF
  ⟨0x07, 0x06, 1, (.dom 260), .ro, .vol, .owner, .any, 0⟩, -- PICOT_LAST_PKT
  ⟨0x07, 0x07, 1, .u32, .ro, .vol, .owner, .any, 0⟩, -- PICOT_PKT_SEQ
  ⟨0x08, 0x01, 14, .u32, .ro, .mrst, .owner, .any, 0⟩, -- PICOT_TX_PACKETS ...
  ⟨0x08, 0x0F, 1, (.dom 56), .ro, .mrst, .owner, .any, 0⟩, -- PICOT_CNT_ALL
  ⟨0x08, 0x10, 1, .u8, .wo, .vol, .operator, (.rng (0) (1)), 0⟩, -- PICOT_CLEAR
  ⟨0x09, 0x01, 1, .u8, .rw, .flash, .owner, .any, 50⟩, -- LINE_SS_INTERVAL
  ⟨0x09, 0x02, 1, .u16, .rw, .flash, .owner, (.rng (64) (1024)), 256⟩, -- LINE_SS_VERIFY_THR
  ⟨0x09, 0x03, 1, .u8, .rw, .flash, .owner, (.rng (1) (7)), 3⟩, -- LINE_SS_ATTEMPTS
  ⟨0x09, 0x04, 1, .u8, .wo, .vol, .owner, (.rng (0) (1)), 0⟩, -- LINE_SS_RETEST
  ⟨0x09, 0x05, 1, .u8, .ro, .vol, .owner, .any, 255⟩, -- LINE_SS_NEXT_SLOT
  ⟨0x09, 0x06, 1, .u8, .ro, .vol, .owner, .any, 0⟩, -- LINE_SS_STATUS
  ⟨0x0A, 0x01, 17, .u32, .ro, .vol, .owner, .any, 0⟩, -- LINE_SS_SLICE
  ⟨0x0A, 0x12, 1, (.dom 68), .ro, .vol, .owner, .any, 0⟩, -- LINE_SS_CORR_ALL
  ⟨0x0B, 0x01, 1, .u32, .ro, .mrst, .owner, .any, 0⟩ -- LINE_SS_SUBST
  ]

def lineRows1 : List Entry := [
  ⟨0x0B, 0x02, 1, .u32, .ro, .mrst, .owner, .any, 0⟩, -- LINE_SS_OUT_OF_TURN
  ⟨0x0B, 0x03, 1, .u32, .ro, .mrst, .owner, .any, 0⟩, -- LINE_SS_ATTEMPT_FAIL
  ⟨0x0B, 0x04, 1, .u32, .ro, .mrst, .owner, .any, 0⟩, -- LINE_SS_SLICE_FAILED
  ⟨0x0B, 0x05, 1, .u32, .ro, .mrst, .owner, .any, 0⟩, -- LINE_SS_POSTPONED
  ⟨0x0B, 0x06, 1, .u32, .ro, .mrst, .owner, .any, 0⟩, -- LINE_SS_ROTATIONS
  ⟨0x0B, 0x07, 1, .time96, .ro, .mrst, .owner, .any, 0⟩, -- LINE_SS_LAST_SUBST
  ⟨0x0B, 0x08, 1, .u16, .ro, .mrst, .owner, .any, 0⟩, -- LINE_SS_LAST_FAIL
  ⟨0x0B, 0x09, 1, .u8, .wo, .vol, .operator, (.rng (0) (1)), 0⟩, -- LINE_SS_CLEAR
  ⟨0x0C, 0x01, 1, .u8, .wo, .vol, .operator, (.rng (0) (3)), 0⟩, -- LINE_CAL_CMD
  ⟨0x0C, 0x02, 1, .u32, .ro, .mrst, .owner, .any, 0⟩, -- LINE_CAL_LANE_COUNT
  ⟨0x0C, 0x03, 1, .time96, .ro, .mrst, .owner, .any, 0⟩, -- LINE_CAL_LANE_LAST
  ⟨0x0C, 0x04, 1, .u8, .ro, .mrst, .owner, .any, 0⟩, -- LINE_CAL_LANE_RESULT
  ⟨0x0C, 0x05, 1, .u32, .ro, .mrst, .owner, .any, 0⟩, -- LINE_CAL_FAIL_MASK
  ⟨0x0C, 0x06, 1, .u32, .ro, .mrst, .owner, .any, 0⟩, -- LINE_CAL_DAC_COUNT
  ⟨0x0C, 0x07, 1, .time96, .ro, .mrst, .owner, .any, 0⟩, -- LINE_CAL_DAC_LAST
  ⟨0x0C, 0x08, 1, .u8, .ro, .mrst, .owner, .any, 0⟩, -- LINE_CAL_DAC_RESULT
  ⟨0x10, 0x01, 1, .u8, .rwd, .flash, .owner, (.rng (0) (3)), 0⟩, -- LINE_FFE_LEN
  ⟨0x10, 0x02, 1, .u8, .rwd, .flash, .owner, (.rng (4) (24)), 8⟩, -- LINE_FFE_MAIN
  ⟨0x10, 0x03, 1, .u8, .rw, .flash, .owner, (.rng (8) (14)), 10⟩, -- LINE_FFE_MU_ACQ
  ⟨0x10, 0x04, 1, .u8, .rw, .flash, .owner, (.rng (12) (20)), 14⟩, -- LINE_FFE_MU_TRK
  ⟨0x11, 0x01, 1, .bool, .wo, .vol, .owner, .any, 0⟩, -- LINE_FFE_SNAP
  ⟨0x11, 0x02, 1, .u32, .ro, .vol, .owner, .any, 0⟩, -- LINE_FFE_SNAP_SEQ
  ⟨0x12, 0x01, 8, .i16, .rw, .mrst, .owner, (.rng (-2048) (2047)), 0⟩, -- LINE_FFE_TAP
  ⟨0x12, 0x09, 1, .i16, .rw, .mrst, .owner, (.rng (-2048) (2047)), 1024⟩, -- LINE_FFE_TAP
  ⟨0x12, 0x0A, 39, .i16, .rw, .mrst, .owner, (.rng (-2048) (2047)), 0⟩, -- LINE_FFE_TAP
  ⟨0x13, 0x01, 1, .bool, .rw, .flash, .owner, .any, 1⟩, -- LINE_NLC_EN
  ⟨0x13, 0x02, 1, .u8, .rw, .flash, .owner, (.rng (4) (8)), 6⟩, -- LINE_NLC_MU_ACQ
  ⟨0x13, 0x03, 1, .u8, .rw, .flash, .owner, (.rng (7) (12)), 9⟩, -- LINE_NLC_MU_TRK
  ⟨0x14, 0x01, 64, .i8, .rw, .mrst, .owner, .any, 0⟩, -- LINE_NLC_LUT
  ⟨0x15, 0x01, 1, .u8, .rwd, .flash, .owner, (.rng (0) (1)), 0⟩, -- LINE_MLSE_MODE
  ⟨0x15, 0x02, 1, .i16, .rw, .mrst, .owner, (.rng (0) (768)), 512⟩, -- LINE_MLSE_H1
  ⟨0x15, 0x03, 1, .i16, .rw, .mrst, .owner, (.rng (-256) (256)), 0⟩, -- LINE_MLSE_H2
  ⟨0x15, 0x04, 1, .bool, .ro, .vol, .owner, .any, 0⟩, -- LINE_RX_PRECODE
  ⟨0x15, 0x05, 1, .u8, .rw, .flash, .owner, (.rng (10) (16)), 12⟩, -- LINE_MLSE_MU_ACQ
  ⟨0x15, 0x06, 1, .u8, .rw, .flash, .owner, (.rng (12) (20)), 16⟩, -- LINE_MLSE_MU_TRK
  ⟨0x16, 0x01, 1, .u8, .rw, .flash, .owner, (.rng (0) (15)), 3⟩, -- LINE_ERASE_THR
  ⟨0x16, 0x02, 1, .u8, .rw, .flash, .owner, (.rng (0) (4)), 2⟩, -- LINE_ERASE_MAX
  ⟨0x16, 0x03, 1, .u64, .ro, .mrst, .owner, .any, 0⟩, -- LINE_ERASE_COUNT
  ⟨0x17, 0x01, 1, .u16, .rw, .mrst, .owner, .any, 64⟩, -- LINE_ADAPT_CTRL
  ⟨0x18, 0x01, 1, .u16, .ro, .vol, .owner, .any, 0⟩ -- LINE_ADAPT_STATUS
  ]

def lineRows2 : List Entry := [
  ⟨0x19, 0x01, 1, .u32, .rw, .flash, .owner, .any, 131072⟩, -- LINE_ADAPT_ACQ_CC
  ⟨0x1A, 0x01, 1, .bool, .rw, .flash, .owner, .any, 1⟩, -- LINE_BLT_EN
  ⟨0x1A, 0x02, 1, .u8, .rw, .flash, .owner, (.rng (2) (8)), 4⟩, -- LINE_BLT_SHIFT
  ⟨0x1B, 0x01, 1, .u8, .rw, .flash, .owner, .any, 1⟩, -- LINE_LQM_WINDOW
  ⟨0x1B, 0x02, 1, .bool, .wo, .vol, .owner, .any, 0⟩, -- LINE_LQM_CLEAR
  ⟨0x1B, 0x03, 1, .i16, .rw, .flash, .owner, .any, 1800⟩, -- LINE_LQM_SNR_ALARM
  ⟨0x1C, 0x01, 1, .i16, .ro, .vol, .owner, .any, 0⟩, -- LINE_LQM_SNR
  ⟨0x1C, 0x02, 4, .i16, .ro, .vol, .owner, .any, 0⟩, -- LINE_LQM_SNR_LEVEL
  ⟨0x1C, 0x06, 4, .i16, .ro, .vol, .owner, .any, 0⟩, -- LINE_LQM_MEAN_LEVEL
  ⟨0x1C, 0x0A, 1, .u32, .ro, .vol, .owner, .any, 0⟩, -- LINE_LQM_SEQ
  ⟨0x1D, 0x01, 1, (.dom 1024), .ro, .vol, .owner, .any, 0⟩, -- LINE_LQM_HIST
  ⟨0x1E, 0x01, 1, .u64, .ro, .mrst, .owner, .any, 0⟩, -- LINE_SLICER_DIFF
  ⟨0x1E, 0x02, 1, .u64, .ro, .mrst, .owner, .any, 0⟩, -- LINE_SYM_ERR
  ⟨0x1E, 0x03, 1, .u64, .ro, .mrst, .owner, .any, 0⟩, -- LINE_ADC_CLIP
  ⟨0x1E, 0x04, 1, .u32, .ro, .mrst, .owner, .any, 0⟩, -- LINE_GUARD_TRIPS
  ⟨0x1F, 0x01, 1, .u8, .rw, .vol, .owner, (.rng (0) (3)), 0⟩, -- LINE_SWATCH_POINT
  ⟨0x1F, 0x02, 1, .u8, .rw, .vol, .owner, (.rng (0) (5)), 0⟩, -- LINE_SWATCH_TRIGGER
  ⟨0x1F, 0x03, 1, .u8, .rw, .vol, .owner, (.rng (0) (15)), 0⟩, -- LINE_SWATCH_PRE
  ⟨0x1F, 0x04, 1, .u8, .rw, .vol, .owner, (.rng (0) (16)), 0⟩, -- LINE_SWATCH_DECIM
  ⟨0x1F, 0x05, 1, .bool, .wo, .vol, .owner, .any, 0⟩, -- LINE_SWATCH_ARM
  ⟨0x1F, 0x06, 1, .u8, .ro, .vol, .owner, .any, 0⟩, -- LINE_SWATCH_STATUS
  ⟨0x1F, 0x07, 1, .time96, .ro, .vol, .owner, .any, 0⟩, -- LINE_SWATCH_TRIG_TIME
  ⟨0x1F, 0x08, 1, .u32, .ro, .vol, .owner, .any, 4294967295⟩, -- LINE_SWATCH_SUBST_INDEX
  ⟨0x1F, 0x09, 1, .u8, .ro, .vol, .owner, .any, 0⟩, -- LINE_SWATCH_SUBST_COUNT
  ⟨0x1F, 0x0A, 1, (.dom 65536), .ro, .vol, .owner, .any, 0⟩, -- LINE_SWATCH_DATA
  ⟨0x20, 0x01, 1, .u8, .rwd, .flash, .owner, (.rng (0) (1)), 0⟩, -- LINE_TX_OUT_MODE
  ⟨0x20, 0x02, 1, .bool, .rw, .flash, .owner, .any, 0⟩, -- LINE_TX_OUT_EN
  ⟨0x20, 0x03, 1, .u8, .rw, .flash, .owner, (.rng (30) (100)), 70⟩, -- LINE_TX_SWING
  ⟨0x20, 0x04, 1, .u8, .rw, .flash, .owner, (.rng (32) (160)), 64⟩, -- LINE_TX_IFS
  ⟨0x21, 0x01, 1, .bool, .rwd, .flash, .owner, .any, 0⟩, -- LINE_PRECODE_REQ
  ⟨0x21, 0x02, 1, .bool, .ro, .vol, .owner, .any, 0⟩, -- LINE_TX_PRECODE
  ⟨0x22, 0x01, 1, .i16, .rw, .flash, .owner, (.rng (-896) (896)), 64768⟩, -- LINE_TX_LEVEL
  ⟨0x22, 0x02, 1, .i16, .rw, .flash, .owner, (.rng (-896) (896)), 65280⟩, -- LINE_TX_LEVEL
  ⟨0x22, 0x03, 1, .i16, .rw, .flash, .owner, (.rng (-896) (896)), 256⟩, -- LINE_TX_LEVEL
  ⟨0x22, 0x04, 1, .i16, .rw, .flash, .owner, (.rng (-896) (896)), 768⟩, -- LINE_TX_LEVEL
  ⟨0x23, 0x01, 1, .u8, .rwd, .flash, .owner, (.rng (1) (4)), 2⟩, -- LINE_TX_FFE_MAIN
  ⟨0x23, 0x02, 1, .u16, .ro, .vol, .owner, .any, 1024⟩, -- LINE_TX_FFE_SUM
  ⟨0x24, 0x01, 2, .i16, .rw, .mrst, .owner, .any, 0⟩, -- LINE_TX_FFE_TAP
  ⟨0x24, 0x03, 1, .i16, .rw, .mrst, .owner, .any, 1024⟩, -- LINE_TX_FFE_TAP
  ⟨0x24, 0x04, 6, .i16, .rw, .mrst, .owner, .any, 0⟩ -- LINE_TX_FFE_TAP
  ]

def lineRows3 : List Entry := [
  ⟨0x25, 0x01, 64, .i8, .rw, .flash, .owner, .any, 0⟩, -- LINE_TX_PD_LUT
  ⟨0x26, 0x01, 1, .bool, .rw, .flash, .owner, .any, 0⟩, -- LINE_TX_PD_EN
  ⟨0x27, 0x01, 1, .u8, .rw, .flash, .owner, (.rng (0) (100)), 25⟩, -- LINE_PICOT_DEPTH
  ⟨0x28, 0x01, 1, .i16, .rwd, .flash, .owner, (.rng (-256) (255)), 0⟩, -- LINE_TX_SKEW
  ⟨0x29, 0x01, 1, .u8, .ro, .vol, .owner, .any, 0⟩, -- LINE_TX_SRC
  ⟨0x29, 0x02, 1, .u8, .rwd, .vol, .owner, (.rng (0) (2)), 0⟩, -- LINE_TX_TEST_SRC
  ⟨0x2A, 0x01, 1, .u64, .ro, .mrst, .owner, .any, 0⟩, -- LINE_TX_DAC_CLIP
  ⟨0x2A, 0x02, 1, .u8, .ro, .vol, .owner, .any, 0⟩, -- LINE_TX_FAULT
  ⟨0x2A, 0x03, 1, .u32, .ro, .mrst, .owner, .any, 0⟩, -- LINE_TX_QUEUE_SLIPS
  ⟨0x2B, 0x01, 1, .u8, .rw, .flash, .owner, (.rng (0) (1)), 0⟩, -- LINE_ADMIN
  ⟨0x2B, 0x02, 1, .u8, .wo, .vol, .operator, (.rng (0) (2)), 0⟩, -- LINE_CO_CMD
  ⟨0x2B, 0x03, 1, .u8, .rw, .flash, .owner, (.rng (0) (2)), 0⟩, -- LINE_CO_ROLE
  ⟨0x2B, 0x04, 1, .bool, .rw, .flash, .owner, .any, 1⟩, -- LINE_CO_TIME_EN
  ⟨0x2B, 0x05, 1, .u8, .rw, .flash, .owner, .any, 16⟩, -- LINE_CO_VERIFY_WIN
  ⟨0x2B, 0x06, 1, .u16, .rw, .flash, .owner, .any, 1000⟩, -- LINE_CO_VERIFY_SER
  ⟨0x2B, 0x07, 1, .u32, .rw, .flash, .owner, .any, 0⟩, -- LINE_CO_VERIFY_UNCORR
  ⟨0x2B, 0x08, 1, .u8, .rw, .flash, .owner, (.rng (0) (7)), 2⟩, -- LINE_CO_RETRAIN_MAX
  ⟨0x2C, 0x01, 1, .u8, .ro, .vol, .owner, .any, 0⟩, -- LINE_CO_PHASE
  ⟨0x2C, 0x02, 1, .u16, .ro, .vol, .owner, .any, 0⟩, -- LINE_CO_FLAGS
  ⟨0x2C, 0x03, 1, .u64, .ro, .vol, .owner, .any, 0⟩, -- LINE_CO_PEER_ID
  ⟨0x2C, 0x04, 1, .u16, .ro, .vol, .owner, .any, 0⟩, -- LINE_CO_SESSION
  ⟨0x2C, 0x05, 1, .u16, .ro, .vol, .owner, .any, 0⟩, -- LINE_CO_PEER_SESSION
  ⟨0x2C, 0x06, 1, .u8, .ro, .vol, .owner, .any, 0⟩, -- LINE_CO_AGR
  ⟨0x2C, 0x07, 1, .u8, .ro, .vol, .owner, .any, 255⟩, -- LINE_CO_PEER_PHASE
  ⟨0x2C, 0x08, 1, .i16, .ro, .vol, .owner, .any, 32768⟩, -- LINE_CO_TRAIN_SNR
  ⟨0x2C, 0x09, 1, .u32, .ro, .vol, .owner, .any, 0⟩, -- LINE_CO_LAST_US
  ⟨0x2C, 0x0A, 1, .u16, .ro, .vol, .owner, .any, 0⟩, -- LINE_CO_LAST_FAIL
  ⟨0x2C, 0x0B, 1, .u32, .ro, .vol, .owner, .any, 0⟩, -- LINE_CO_PHASE_TIME
  ⟨0x2C, 0x0C, 1, (.dom 18), .ro, .vol, .owner, .any, 0⟩, -- LINE_CO_FAR_TAPS
  ⟨0x2D, 0x01, 1, .u8, .rw, .flash, .owner, (.rng (2) (16)), 2⟩, -- LINE_CO_T_RESP
  ⟨0x2D, 0x02, 1, .u8, .rw, .flash, .owner, (.rng (0) (7)), 3⟩, -- LINE_CO_RETRIES
  ⟨0x2D, 0x03, 1, .u8, .rw, .flash, .owner, (.rng (1) (50)), 5⟩, -- LINE_CO_T_BEACON
  ⟨0x2D, 0x04, 1, .u8, .rw, .flash, .owner, (.rng (5) (100)), 10⟩, -- LINE_CO_T_KEEPALIVE
  ⟨0x2D, 0x05, 1, .u16, .rw, .flash, .owner, (.rng (20) (2000)), 100⟩, -- LINE_CO_T_SILENT
  ⟨0x2D, 0x06, 2, .u16, .rw, .flash, .owner, (.rng (0) (2000)), 20⟩, -- LINE_CO_T_PHASE
  ⟨0x2D, 0x08, 1, .u16, .rw, .flash, .owner, (.rng (0) (2000)), 200⟩, -- LINE_CO_T_PHASE
  ⟨0x2D, 0x09, 2, .u16, .rw, .flash, .owner, (.rng (0) (2000)), 20⟩, -- LINE_CO_T_PHASE
  ⟨0x2D, 0x0B, 1, .u16, .rw, .flash, .owner, (.rng (100) (10000)), 800⟩, -- LINE_CO_T_LIMIT
  ⟨0x2D, 0x0C, 1, .u16, .rw, .flash, .owner, (.rng (0) (10000)), 100⟩, -- LINE_CO_T_STATUS
  ⟨0x2D, 0x0D, 1, .u8, .rw, .flash, .owner, (.rng (0) (100)), 10⟩ -- LINE_CO_T_BIND
  ]

def lineRows4 : List Entry := [
  ⟨0x2E, 0x01, 26, .u32, .ro, .mrst, .owner, .any, 0⟩, -- LINE_CO_RUNS ...
  ⟨0x2E, 0x1B, 1, (.dom 104), .ro, .mrst, .owner, .any, 0⟩, -- LINE_CO_CNT_ALL
  ⟨0x2E, 0x1C, 1, .u8, .wo, .vol, .operator, (.rng (0) (1)), 0⟩, -- LINE_CO_CLEAR
  ⟨0x2F, 0x01, 1, .u8, .rw, .flash, .owner, (.rng (0) (3)), 1⟩, -- LINE_CO_TXEQ_POLICY
  ⟨0x2F, 0x02, 9, .i16, .rw, .vol, .owner, .any, 0⟩, -- LINE_CO_TXEQ_HOST
  ⟨0x2F, 0x0B, 1, .u8, .wo, .vol, .owner, (.rng (0) (2)), 0⟩, -- LINE_CO_TXEQ_GO
  ⟨0x2F, 0x0C, 2, .i16, .rw, .flash, .owner, .any, 0⟩, -- LINE_CO_TXEQ_PRESET
  ⟨0x2F, 0x0E, 1, .i16, .rw, .flash, .owner, .any, 1024⟩, -- LINE_CO_TXEQ_PRESET
  ⟨0x2F, 0x0F, 6, .i16, .rw, .flash, .owner, .any, 0⟩, -- LINE_CO_TXEQ_PRESET
  ⟨0x2F, 0x15, 1, .u8, .ro, .vol, .owner, .any, 0⟩, -- LINE_CO_TXEQ_STEPS
  ⟨0x30, 0x01, 1, .u8, .ro, .vol, .owner, .any, 0⟩, -- LINE_FORMAT
  ⟨0x31, 0x01, 1, .u16, .ro, .vol, .owner, .any, 0⟩, -- LINE_LOCK_STATUS
  ⟨0x32, 0x01, 1, .u64, .ro, .mrst, .owner, .any, 0⟩, -- LINE_CW_TOTAL
  ⟨0x32, 0x02, 1, .u64, .ro, .mrst, .owner, .any, 0⟩, -- LINE_CW_CLEAN
  ⟨0x32, 0x03, 4, .u64, .ro, .mrst, .owner, .any, 0⟩, -- LINE_CW_CORR
  ⟨0x32, 0x07, 1, .u64, .ro, .mrst, .owner, .any, 0⟩, -- LINE_CW_UNCORR
  ⟨0x32, 0x08, 1, .u64, .ro, .mrst, .owner, .any, 0⟩, -- LINE_SYM_CORR
  ⟨0x32, 0x09, 1, .u64, .ro, .mrst, .owner, .any, 0⟩, -- LINE_BIT_CORR
  ⟨0x32, 0x0A, 1, .u64, .ro, .mrst, .owner, .any, 0⟩, -- LINE_ERASE_TRUE
  ⟨0x32, 0x0B, 1, .u64, .ro, .mrst, .owner, .any, 0⟩, -- LINE_ERASE_FALSE
  ⟨0x32, 0x0C, 1, .u32, .ro, .mrst, .owner, .any, 0⟩, -- LINE_CWLOCK_LOSS
  ⟨0x32, 0x0D, 1, .u32, .ro, .mrst, .owner, .any, 0⟩, -- LINE_FRAME_LOSS
  ⟨0x32, 0x0E, 1, .u32, .ro, .mrst, .owner, .any, 0⟩, -- LINE_MARKER_BAD
  ⟨0x32, 0x0F, 1, .u32, .ro, .mrst, .owner, .any, 0⟩, -- LINE_TAG_MISS
  ⟨0x32, 0x10, 1, .u32, .ro, .mrst, .owner, .any, 0⟩, -- LINE_UNCORR_EPOCH
  ⟨0x32, 0x11, 1, .u32, .ro, .mrst, .owner, .any, 0⟩, -- LINE_SYM_CORR_EPOCH
  ⟨0x32, 0x12, 1, (.dom 112), .ro, .mrst, .owner, .any, 0⟩, -- LINE_FEC_CNT_ALL
  ⟨0x33, 0x01, 1, .u8, .wo, .vol, .operator, (.rng (0) (1)), 0⟩, -- LINE_FEC_CLEAR
  ⟨0x33, 0x02, 1, .u32, .rw, .flash, .owner, .any, 1⟩, -- LINE_UNCORR_THR
  ⟨0x34, 0x01, 1, .u32, .rw, .vol, .owner, .any, 0⟩, -- LINE_FEC_INJECT
  ⟨0x34, 0x02, 1, .u64, .ro, .vol, .owner, .any, 0⟩, -- LINE_FEC_INJ_COUNT
  ⟨0x35, 0x01, 1, .u32, .ro, .vol, .owner, .any, 0⟩, -- LINE_ROW_TX
  ⟨0x35, 0x02, 1, .u32, .ro, .vol, .owner, .any, 0⟩, -- LINE_ROW_RX
  ⟨0x38, 0x01, 1, .u16, .rw, .vol, .owner, .any, 0⟩, -- PRBS_GEN_CFG_L
  ⟨0x38, 0x02, 1, .u32, .rw, .vol, .owner, .any, 0⟩, -- PRBS_INJECT_L
  ⟨0x38, 0x03, 1, .u64, .ro, .vol, .owner, .any, 0⟩, -- PRBS_INJ_COUNT_L
  ⟨0x39, 0x01, 1, .u16, .rw, .vol, .owner, .any, 0⟩, -- PRBS_CHK_CFG_L
  ⟨0x39, 0x02, 1, .u8, .ro, .vol, .owner, .any, 0⟩, -- PRBS_CHK_STATUS_L
  ⟨0x39, 0x03, 1, .u64, .ro, .vol, .owner, .any, 0⟩, -- PRBS_BITS_L
  ⟨0x39, 0x04, 1, .u64, .ro, .vol, .owner, .any, 0⟩ -- PRBS_BIT_ERR_L
  ]

def lineRows5 : List Entry := [
  ⟨0x39, 0x05, 1, .u64, .ro, .vol, .owner, .any, 0⟩, -- PRBS_SYM_ERR_L
  ⟨0x39, 0x06, 1, .u32, .ro, .vol, .owner, .any, 0⟩, -- PRBS_LOCK_LOSS_L
  ⟨0x39, 0x07, 1, (.dom 28), .ro, .vol, .owner, .any, 0⟩, -- PRBS_CHK_ALL_L
  ⟨0x39, 0x08, 1, .bool, .wo, .vol, .owner, .any, 0⟩, -- PRBS_CHK_CLEAR_L
  ⟨0x3A, 0x01, 1, .u16, .ro, .vol, .owner, .any, 0⟩, -- LAT_TX_CC
  ⟨0x3A, 0x02, 1, .u32, .ro, .vol, .owner, .any, 0⟩, -- LAT_TX_ANALOG_FS
  ⟨0x3A, 0x03, 1, .i16, .ro, .vol, .owner, .any, 0⟩, -- LAT_TX_FRAC_A_FS
  ⟨0x3A, 0x04, 1, .i16, .ro, .vol, .owner, .any, 0⟩, -- LAT_TX_FRAC_B_FS
  ⟨0x3A, 0x05, 1, .i16, .ro, .vol, .owner, .any, 0⟩, -- LAT_TX_SLIP_A
  ⟨0x3A, 0x06, 1, .i16, .ro, .vol, .owner, .any, 0⟩, -- LAT_TX_SLIP_B
  ⟨0x3A, 0x07, 1, .u16, .ro, .vol, .owner, .any, 0⟩, -- LAT_TX_MARKER_A
  ⟨0x3A, 0x08, 1, .u16, .ro, .vol, .owner, .any, 0⟩, -- LAT_TX_MARKER_B
  ⟨0x3A, 0x09, 1, .u32, .ro, .vol, .owner, .any, 0⟩, -- LAT_TX_TOTAL_FS
  ⟨0x3B, 0x01, 1, .u16, .ro, .vol, .owner, .any, 0⟩, -- LAT_RX_CC
  ⟨0x3B, 0x02, 1, .u32, .ro, .vol, .owner, .any, 0⟩, -- LAT_RX_ANALOG_FS
  ⟨0x3B, 0x03, 1, .u16, .ro, .vol, .owner, .any, 0⟩, -- LAT_RX_MARKER_A
  ⟨0x3B, 0x04, 1, .u16, .ro, .vol, .owner, .any, 0⟩, -- LAT_RX_MARKER_B
  ⟨0x3B, 0x05, 1, .u32, .ro, .vol, .owner, .any, 0⟩, -- LAT_RX_TOTAL_FS
  ⟨0x3C, 0x01, 1, .u32, .ro, .vol, .owner, .any, 0⟩, -- LAT_FRAME_TAU
  ⟨0x3C, 0x02, 1, .u32, .ro, .mrst, .owner, .any, 0⟩, -- LAT_SEQ
  ⟨0x3C, 0x03, 1, .u16, .ro, .mrst, .owner, .any, 0⟩, -- LAT_CAUSE
  ⟨0x3C, 0x04, 1, .time96, .ro, .mrst, .owner, .any, 0⟩, -- LAT_EVENT_TIME
  ⟨0x3C, 0x05, 1, .u32, .ro, .mrst, .owner, .any, 0⟩, -- LAT_EPOCH_SHORT
  ⟨0x3C, 0x06, 1, .u32, .ro, .mrst, .owner, .any, 0⟩, -- LAT_EVENT_COUNT
  ⟨0x3C, 0x07, 1, .u8, .ro, .vol, .owner, .any, 0⟩, -- LAT_STATUS
  ⟨0x3C, 0x08, 1, (.dom 47), .ro, .vol, .owner, .any, 0⟩, -- LAT_ALL
  ⟨0x3D, 0x01, 1, .u8, .rw, .flash, .owner, (.rng (0) (32)), 4⟩, -- TIME_LINE_PERIOD
  ⟨0x3D, 0x02, 1, .i32, .rw, .flash, .owner, (.rng (-2000000000) 2000000000), 0⟩, -- TIME_LINE_ASYM
  ⟨0x3E, 0x01, 1, .i64, .ro, .vol, .owner, .any, 0⟩, -- TIME_LINE_OFFSET_FS
  ⟨0x3E, 0x02, 1, .u64, .ro, .vol, .owner, .any, 0⟩, -- TIME_LINE_DELAY_FS
  ⟨0x3E, 0x03, 1, .time96, .ro, .vol, .owner, .any, 0⟩, -- TIME_LINE_REF
  ⟨0x3E, 0x04, 1, .i32, .ro, .vol, .owner, .any, 0⟩, -- TIME_LINE_RATE
  ⟨0x3E, 0x05, 1, .u8, .ro, .vol, .owner, .any, 0⟩, -- TIME_LINE_FLAGS
  ⟨0x3E, 0x06, 1, .u32, .ro, .vol, .owner, .any, 0⟩, -- TIME_LINE_SEQ
  ⟨0x3E, 0x07, 1, (.dom 48), .ro, .vol, .owner, .any, 0⟩, -- TIME_LINE_STAMPS
  ⟨0x3E, 0x08, 1, (.dom 85), .ro, .vol, .owner, .any, 0⟩, -- TIME_LINE_ALL
  ⟨0x3F, 0x01, 10, .u32, .ro, .mrst, .owner, .any, 0⟩, -- TIME_TX_SENT ...
  ⟨0x3F, 0x0B, 1, .u8, .wo, .vol, .operator, (.rng (0) (1)), 0⟩ -- TIME_CLEAR
  ]

/-- Every entry of the `line` blocks. -/
def lineEntries : List Entry := lineRows0 ++ lineRows1 ++ lineRows2 ++ lineRows3 ++ lineRows4 ++ lineRows5

def hostRows0 : List Entry := [
  ⟨0x01, 0x01, 1, .u16, .ro, .vol, .owner, .any, 0⟩, -- HOST_RX_STATUS
  ⟨0x01, 0x02, 1, .u8, .rw, .flash, .owner, .any, 10⟩, -- HOST_LOS_THR
  ⟨0x02, 0x01, 1, .u8, .rw, .flash, .owner, (.rng (0) (24)), 12⟩, -- HOST_RX_CTLE
  ⟨0x02, 0x02, 1, .bool, .rw, .flash, .owner, .any, 1⟩, -- HOST_RX_ADAPT
  ⟨0x02, 0x03, 1, .bool, .rw, .mrst, .owner, .any, 0⟩, -- HOST_RX_FRZ
  ⟨0x02, 0x04, 1, .i16, .ro, .vol, .owner, .any, 32768⟩, -- HOST_RX_SNR
  ⟨0x02, 0x05, 1, (.dom 32), .ro, .vol, .owner, .any, 0⟩, -- HOST_RX_FFE
  ⟨0x04, 0x01, 1, .i16, .ro, .vol, .owner, .any, 0⟩, -- HOST_RX_CAPTURE_FRAC
  ⟨0x04, 0x02, 1, .i32, .ro, .vol, .owner, .any, 0⟩, -- HOST_RX_FREQ
  ⟨0x04, 0x03, 1, .u32, .ro, .mrst, .owner, .any, 0⟩, -- HOST_RX_SLIPS
  ⟨0x08, 0x01, 1, .u8, .rw, .flash, .owner, (.rng (0) (15)), 2⟩, -- HOST_TX_PRESET
  ⟨0x08, 0x02, 1, .u8, .rw, .flash, .owner, (.rng (40) (120)), 85⟩, -- HOST_TX_AMP
  ⟨0x09, 0x01, 2, .i16, .rw, .flash, .owner, .any, 0⟩, -- HOST_TX_TAP
  ⟨0x09, 0x03, 1, .i16, .rw, .flash, .owner, .any, 1024⟩, -- HOST_TX_TAP
  ⟨0x09, 0x04, 1, .i16, .rw, .flash, .owner, .any, 0⟩, -- HOST_TX_TAP
  ⟨0x10, 0x01, 1, .u16, .rw, .vol, .owner, .any, 0⟩, -- PRBS_GEN_CFG
  ⟨0x10, 0x02, 1, .u32, .rw, .vol, .owner, .any, 0⟩, -- PRBS_INJECT
  ⟨0x10, 0x03, 1, .u64, .ro, .vol, .owner, .any, 0⟩, -- PRBS_INJ_COUNT
  ⟨0x11, 0x01, 1, .u16, .rw, .vol, .owner, .any, 0⟩, -- PRBS_CHK_CFG
  ⟨0x11, 0x02, 1, .u8, .ro, .vol, .owner, .any, 0⟩, -- PRBS_CHK_STATUS
  ⟨0x11, 0x03, 1, .u64, .ro, .vol, .owner, .any, 0⟩, -- PRBS_BITS
  ⟨0x11, 0x04, 1, .u64, .ro, .vol, .owner, .any, 0⟩, -- PRBS_BIT_ERR
  ⟨0x11, 0x05, 1, .u64, .ro, .vol, .owner, .any, 0⟩, -- PRBS_SYM_ERR
  ⟨0x11, 0x06, 1, .u32, .ro, .vol, .owner, .any, 0⟩, -- PRBS_LOCK_LOSS
  ⟨0x11, 0x07, 1, (.dom 28), .ro, .vol, .owner, .any, 0⟩, -- PRBS_CHK_ALL
  ⟨0x11, 0x08, 1, .bool, .wo, .vol, .owner, .any, 0⟩ -- PRBS_CHK_CLEAR
  ]

/-- Every entry of the `host` blocks. -/
def hostEntries : List Entry := hostRows0

def pgRows0 : List Entry := [
  ⟨0x00, 0x01, 1, .u8, .rwd, .flash, .owner, (.rng (0) (2)), 0⟩, -- PG_MODE
  ⟨0x00, 0x02, 1, .u8, .rwd, .flash, .owner, (.rng (0) (2)), 0⟩, -- PG_LINE_FORMAT
  ⟨0x00, 0x03, 1, .u8, .rwd, .flash, .owner, (.rng (0) (1)), 0⟩, -- PG_CLK_MODE
  ⟨0x00, 0x04, 1, .u8, .rw, .flash, .owner, (.rng (0) (2)), 0⟩, -- PG_FEC_MODE
  ⟨0x00, 0x05, 1, .u8, .rw, .flash, .owner, (.rng (0) (2)), 0⟩, -- PG_HOST_NOLOCK
  ⟨0x01, 0x01, 1, .u8, .rwd, .flash, .owner, .any, 0⟩, -- PG_RX_MAP
  ⟨0x01, 0x02, 1, .u8, .rwd, .flash, .owner, .any, 1⟩, -- PG_RX_MAP
  ⟨0x01, 0x03, 1, .u8, .rwd, .flash, .owner, .any, 2⟩, -- PG_RX_MAP
  ⟨0x01, 0x04, 1, .u8, .rwd, .flash, .owner, .any, 3⟩, -- PG_RX_MAP
  ⟨0x01, 0x05, 1, .u8, .rwd, .flash, .owner, .any, 4⟩, -- PG_RX_MAP
  ⟨0x01, 0x06, 1, .u8, .rwd, .flash, .owner, .any, 5⟩, -- PG_RX_MAP
  ⟨0x01, 0x07, 1, .u8, .rwd, .flash, .owner, .any, 6⟩, -- PG_RX_MAP
  ⟨0x01, 0x08, 1, .u8, .rwd, .flash, .owner, .any, 7⟩, -- PG_RX_MAP
  ⟨0x02, 0x01, 1, .u8, .rwd, .flash, .owner, .any, 0⟩, -- PG_TX_MAP
  ⟨0x02, 0x02, 1, .u8, .rwd, .flash, .owner, .any, 1⟩, -- PG_TX_MAP
  ⟨0x02, 0x03, 1, .u8, .rwd, .flash, .owner, .any, 2⟩, -- PG_TX_MAP
  ⟨0x02, 0x04, 1, .u8, .rwd, .flash, .owner, .any, 3⟩, -- PG_TX_MAP
  ⟨0x02, 0x05, 1, .u8, .rwd, .flash, .owner, .any, 4⟩, -- PG_TX_MAP
  ⟨0x02, 0x06, 1, .u8, .rwd, .flash, .owner, .any, 5⟩, -- PG_TX_MAP
  ⟨0x02, 0x07, 1, .u8, .rwd, .flash, .owner, .any, 6⟩, -- PG_TX_MAP
  ⟨0x02, 0x08, 1, .u8, .rwd, .flash, .owner, .any, 7⟩, -- PG_TX_MAP
  ⟨0x03, 0x01, 1, .u8, .rwd, .flash, .owner, .any, 0⟩, -- PG_RX_POL
  ⟨0x03, 0x02, 1, .u8, .rwd, .flash, .owner, .any, 0⟩, -- PG_TX_POL
  ⟨0x04, 0x01, 1, .u16, .ro, .vol, .owner, .any, 0⟩, -- PG_GB_STATUS
  ⟨0x04, 0x02, 1, .u8, .ro, .vol, .owner, .any, 255⟩, -- PG_XPHASE
  ⟨0x04, 0x03, 1, .u32, .ro, .mrst, .owner, .any, 0⟩, -- PG_GB_LOCKS
  ⟨0x04, 0x04, 1, .u32, .ro, .mrst, .owner, .any, 0⟩, -- PG_GB_SLIPS
  ⟨0x05, 0x01, 4, .u64, .ro, .mrst, .owner, .any, 0⟩, -- FEC_CW_TOTAL
  ⟨0x05, 0x05, 4, .u64, .ro, .mrst, .owner, .any, 0⟩, -- FEC_CW_CORR
  ⟨0x05, 0x09, 4, .u64, .ro, .mrst, .owner, .any, 0⟩, -- FEC_CW_UNCORR
  ⟨0x05, 0x0D, 4, .u64, .ro, .mrst, .owner, .any, 0⟩, -- FEC_SYM_CORR
  ⟨0x05, 0x11, 1, (.dom 512), .ro, .mrst, .owner, .any, 0⟩, -- FEC_HIST
  ⟨0x05, 0x12, 4, .u32, .ro, .mrst, .owner, .any, 0⟩, -- FEC_UNCORR_EPOCH
  ⟨0x05, 0x16, 1, (.dom 144), .ro, .mrst, .owner, .any, 0⟩, -- FEC_ALL
  ⟨0x06, 0x01, 4, .u64, .ro, .mrst, .owner, .any, 0⟩, -- FEC_CW_TOTAL_RX
  ⟨0x06, 0x05, 4, .u64, .ro, .mrst, .owner, .any, 0⟩, -- FEC_CW_CORR_RX
  ⟨0x06, 0x09, 4, .u64, .ro, .mrst, .owner, .any, 0⟩, -- FEC_CW_UNCORR_RX
  ⟨0x06, 0x0D, 4, .u64, .ro, .mrst, .owner, .any, 0⟩, -- FEC_SYM_CORR_RX
  ⟨0x06, 0x11, 1, (.dom 512), .ro, .mrst, .owner, .any, 0⟩, -- FEC_HIST_RX
  ⟨0x06, 0x12, 4, .u32, .ro, .mrst, .owner, .any, 0⟩ -- FEC_UNCORR_EPOCH_RX
  ]

def pgRows1 : List Entry := [
  ⟨0x06, 0x16, 1, (.dom 144), .ro, .mrst, .owner, .any, 0⟩, -- FEC_ALL_RX
  ⟨0x07, 0x01, 1, .u8, .wo, .vol, .operator, (.rng (0) (1)), 0⟩, -- PG_FEC_CLEAR
  ⟨0x07, 0x02, 1, .u32, .rw, .flash, .owner, .any, 1⟩, -- PG_FEC_UNCORR_THR
  ⟨0x08, 0x01, 1, .u8, .ro, .vol, .owner, .any, 0⟩, -- HOST_LOS_LANES
  ⟨0x08, 0x02, 1, .u8, .ro, .vol, .owner, .any, 0⟩, -- HOST_ALIGN_CHG_LANES
  ⟨0x08, 0x03, 1, .u8, .ro, .vol, .owner, .any, 0⟩, -- HOST_FREQ_OFFSET_LANES
  ⟨0x09, 0x01, 1, .bool, .rw, .flash, .owner, .any, 0⟩, -- PG_HCKO_EN
  ⟨0x09, 0x02, 1, .u8, .rw, .flash, .owner, (.rng (0) (3)), 0⟩, -- PG_HCKO_SRC
  ⟨0x09, 0x03, 1, .u32, .ro, .vol, .owner, .any, 0⟩ -- PG_HCKO_SPREAD
  ]

/-- Every entry of the `pg` blocks. -/
def pgEntries : List Entry := pgRows0 ++ pgRows1

def portRows0 : List Entry := [
  ⟨0x01, 0x01, 1, .bool, .rw, .flash, .owner, .any, 1⟩, -- PORT_ADMIN
  ⟨0x01, 0x02, 1, .u8, .ro, .vol, .owner, .any, 0⟩, -- PORT_STATE
  ⟨0x01, 0x03, 1, .u8, .ro, .vol, .owner, .any, 0⟩, -- PORT_RATE
  ⟨0x01, 0x04, 1, .u8, .ro, .vol, .owner, .any, 0⟩, -- PORT_PARTNER
  ⟨0x01, 0x05, 1, .u8, .ro, .vol, .owner, .any, 0⟩, -- PORT_CLOCK
  ⟨0xF0, 0x01, 1, .u16, .rw, .vol, .owner, .any, 0⟩, -- PRBS_GEN_CFG_R
  ⟨0xF0, 0x02, 1, .u32, .rw, .vol, .owner, .any, 0⟩, -- PRBS_INJECT_R
  ⟨0xF0, 0x03, 1, .u64, .ro, .vol, .owner, .any, 0⟩, -- PRBS_INJ_COUNT_R
  ⟨0xF1, 0x01, 1, .u16, .rw, .vol, .owner, .any, 0⟩, -- PRBS_CHK_CFG_R
  ⟨0xF1, 0x02, 1, .u8, .ro, .vol, .owner, .any, 0⟩, -- PRBS_CHK_STATUS_R
  ⟨0xF1, 0x03, 1, .u64, .ro, .vol, .owner, .any, 0⟩, -- PRBS_BITS_R
  ⟨0xF1, 0x04, 1, .u64, .ro, .vol, .owner, .any, 0⟩, -- PRBS_BIT_ERR_R
  ⟨0xF1, 0x05, 1, .u64, .ro, .vol, .owner, .any, 0⟩, -- PRBS_SYM_ERR_R
  ⟨0xF1, 0x06, 1, .u32, .ro, .vol, .owner, .any, 0⟩, -- PRBS_LOCK_LOSS_R
  ⟨0xF1, 0x07, 1, (.dom 28), .ro, .vol, .owner, .any, 0⟩, -- PRBS_CHK_ALL_R
  ⟨0xF1, 0x08, 1, .bool, .wo, .vol, .owner, .any, 0⟩ -- PRBS_CHK_CLEAR_R
  ]

/-- Every entry of the `port` blocks. -/
def portEntries : List Entry := portRows0

def loopRows0 : List Entry := [
  ⟨0x01, 0x01, 1, .u8, .rw, .flash, .owner, (.rng (0) (2)), 0⟩, -- LOOP_MODE
  ⟨0x01, 0x02, 1, .u8, .rw, .flash, .owner, .any, 255⟩, -- LOOP_INPUT
  ⟨0x01, 0x03, 1, .u8, .rw, .flash, .owner, .any, 255⟩, -- LOOP_OUTPUT
  ⟨0x01, 0x04, 1, .u16, .rw, .flash, .owner, (.rng (1) (1024)), 1⟩, -- LOOP_PERIOD
  ⟨0x01, 0x05, 1, .u16, .rw, .flash, .owner, .any, 0⟩, -- LOOP_SETPOINT
  ⟨0x01, 0x06, 1, .bool, .rw, .flash, .owner, .any, 0⟩, -- LOOP_POLARITY
  ⟨0x01, 0x07, 1, .u16, .rw, .flash, .owner, .any, 0⟩, -- LOOP_UMIN
  ⟨0x01, 0x08, 1, .u16, .rw, .flash, .owner, .any, 65520⟩, -- LOOP_UMAX
  ⟨0x01, 0x09, 1, .i32, .rw, .flash, .owner, .any, 0⟩, -- LOOP_FF
  ⟨0x01, 0x0A, 1, .u16, .rw, .mrst, .owner, .any, 0⟩, -- LOOP_MAN_VALUE
  ⟨0x01, 0x0B, 1, .u16, .rw, .flash, .owner, .any, 0⟩, -- LOOP_MAN_SLEW
  ⟨0x01, 0x0C, 1, .u16, .rw, .flash, .owner, .any, 0⟩, -- LOOP_SAFE_VALUE
  ⟨0x01, 0x0D, 1, .u16, .rw, .flash, .owner, .any, 0⟩, -- LOOP_FAULT_LO
  ⟨0x01, 0x0E, 1, .u16, .rw, .flash, .owner, .any, 65535⟩, -- LOOP_FAULT_HI
  ⟨0x01, 0x0F, 1, .u8, .rw, .flash, .owner, .any, 0⟩, -- LOOP_FAULT_COUNT
  ⟨0x01, 0x10, 1, .u8, .rw, .flash, .owner, .any, 255⟩, -- LOOP_LASER_EN
  ⟨0x01, 0x11, 1, .u8, .rw, .flash, .owner, (.rng (0) (12)), 8⟩, -- LOOP_GAIN_SHIFT
  ⟨0x01, 0x12, 1, .u16, .rw, .flash, .owner, .any, 0⟩, -- LOOP_LIMIT_COUNT
  ⟨0x01, 0x13, 1, .bool, .rw, .flash, .owner, .any, 1⟩, -- LOOP_PRESET
  ⟨0x02, 0x01, 64, .u16, .rw, .flash, .owner, .any, 16384⟩, -- LOOP_GAIN_LUT
  ⟨0x03, 0x01, 1, .u8, .rw, .flash, .owner, .any, 255⟩, -- SCHED_VAR
  ⟨0x03, 0x02, 1, .u8, .rw, .flash, .owner, (.rng (1) (8)), 1⟩, -- SCHED_REGIONS
  ⟨0x03, 0x03, 1, .u16, .rw, .flash, .owner, .any, 0⟩, -- SCHED_HYST
  ⟨0x03, 0x04, 7, .u16, .rw, .flash, .owner, .any, 0⟩, -- SCHED_BOUND
  ⟨0x03, 0x0B, 8, .i32, .rw, .flash, .owner, .any, 0⟩, -- SCHED_KP
  ⟨0x03, 0x13, 8, .i32, .rw, .flash, .owner, .any, 0⟩, -- SCHED_KI
  ⟨0x04, 0x01, 1, .u16, .rw, .flash, .owner, (.rng (0) (1024)), 0⟩, -- RC_LEN
  ⟨0x04, 0x02, 1, .u8, .rw, .flash, .owner, (.rng (0) (15)), 1⟩, -- RC_LEAD
  ⟨0x04, 0x03, 1, .i32, .rw, .flash, .owner, .any, 0⟩, -- RC_GAIN
  ⟨0x04, 0x04, 1, .u16, .rw, .flash, .owner, .any, 65535⟩, -- RC_FORGET
  ⟨0x04, 0x05, 1, .u16, .rw, .flash, .owner, .any, 0⟩, -- RC_LIMIT
  ⟨0x04, 0x06, 1, .bool, .rw, .mrst, .owner, .any, 0⟩, -- RC_FREEZE
  ⟨0x04, 0x07, 1, .u8, .wo, .vol, .owner, (.rng (0) (1)), 0⟩, -- RC_CLEAR
  ⟨0x04, 0x08, 1, (.dom 4096), .rw, .mrst, .owner, .any, 0⟩, -- RC_MEM
  ⟨0x04, 0x09, 1, .u16, .rw, .flash, .owner, .any, 0⟩, -- RC_SETTLE_THR
  ⟨0x04, 0x0A, 1, .u16, .ro, .vol, .owner, .any, 0⟩, -- RC_ERR_RMS
  ⟨0x05, 0x01, 1, .u16, .ro, .vol, .owner, .any, 0⟩, -- LOOP_STATE
  ⟨0x05, 0x02, 1, .u16, .ro, .mrst, .owner, .any, 0⟩, -- LOOP_OUT
  ⟨0x05, 0x03, 1, .i32, .ro, .vol, .owner, .any, 0⟩, -- LOOP_ERR
  ⟨0x05, 0x04, 1, .i64, .rw, .mrst, .owner, .any, 0⟩ -- LOOP_INTEGRATOR
  ]

def loopRows1 : List Entry := [
  ⟨0x05, 0x05, 1, .u8, .ro, .mrst, .owner, .any, 0⟩, -- LOOP_REGION
  ⟨0x05, 0x06, 1, .u16, .ro, .mrst, .owner, .any, 0⟩, -- LOOP_RC_INDEX
  ⟨0x05, 0x07, 1, .u32, .ro, .vol, .owner, .any, 0⟩, -- LOOP_EXEC
  ⟨0x05, 0x08, 1, .u32, .ro, .mrst, .owner, .any, 0⟩, -- LOOP_STALE
  ⟨0x05, 0x09, 1, (.dom 27), .ro, .vol, .owner, .any, 0⟩ -- LOOP_ALL
  ]

/-- Every entry of the `loop` blocks. -/
def loopEntries : List Entry := loopRows0 ++ loopRows1

def auxRows0 : List Entry := [
  ⟨0x00, 0x01, 1, .u8, .rw, .flash, .owner, (.rng (0) (2)), 0⟩, -- AUX_MODE
  ⟨0x00, 0x02, 1, .u16, .rw, .flash, .owner, (.rng (0) (4095)), 0⟩, -- AUX_VALUE
  ⟨0x00, 0x03, 1, .u16, .rw, .flash, .owner, .any, 0⟩, -- AUX_SLEW
  ⟨0x00, 0x04, 1, .u16, .ro, .vol, .owner, .any, 0⟩, -- AUX_CODE
  ⟨0x00, 0x05, 1, .u8, .ro, .vol, .owner, .any, 0⟩ -- AUX_STATUS
  ]

/-- Every entry of the `aux` blocks. -/
def auxEntries : List Entry := auxRows0

def ogRows0 : List Entry := [
  ⟨0x00, 0x01, 1, .u8, .rw, .flash, .owner, .any, 0⟩, -- OG_CFG
  ⟨0x00, 0x02, 1, .bool, .rw, .flash, .owner, .any, 0⟩, -- OG_OUT
  ⟨0x00, 0x03, 1, .bool, .ro, .vol, .owner, .any, 0⟩, -- OG_IN
  ⟨0x00, 0x04, 1, .bool, .rw, .flash, .owner, .any, 0⟩ -- OG_IN_IRQ
  ]

/-- Every entry of the `og` blocks. -/
def ogEntries : List Entry := ogRows0

def chainRows0 : List Entry := [
  ⟨0x01, 0x01, 1, .u8, .rw, .flash, .owner, (.rng (0) (3)), 0⟩, -- FILT_MEDIAN
  ⟨0x01, 0x02, 1, .u8, .rw, .flash, .owner, (.rng (0) (1)), 0⟩, -- FILT_MODE
  ⟨0x01, 0x03, 1, .u8, .rw, .flash, .owner, (.rng (0) (4)), 0⟩, -- FILT_SETTLE_LOG2
  ⟨0x01, 0x04, 1, .u8, .rw, .flash, .owner, .any, 16⟩, -- FILT_XFADE_LEN
  ⟨0x01, 0x05, 1, .u16, .rw, .flash, .owner, .any, 0⟩, -- FILT_SPIKE_THR
  ⟨0x01, 0x06, 1, .u8, .wo, .vol, .owner, (.rng (0) (1)), 0⟩, -- FILT_SWAP
  ⟨0x01, 0x07, 1, .u8, .wo, .vol, .owner, (.rng (0) (3)), 0⟩, -- FILT_PRESET
  ⟨0x01, 0x08, 1, .u8, .ro, .flash, .owner, .any, 0⟩, -- FILT_ACTIVE
  ⟨0x02, 0x01, 16, .i16, .rw, .flash, .owner, .any, 0⟩, -- FILT_BANK_A
  ⟨0x03, 0x01, 16, .i16, .rw, .flash, .owner, .any, 0⟩, -- FILT_BANK_B
  ⟨0x04, 0x01, 1, .u16, .ro, .vol, .owner, .any, 0⟩, -- FILT_OUT
  ⟨0x04, 0x02, 1, .u32, .ro, .vol, .owner, .any, 0⟩, -- FILT_SEQ
  ⟨0x04, 0x03, 1, .u8, .ro, .vol, .owner, .any, 0⟩, -- FILT_STATE
  ⟨0x04, 0x04, 1, .u32, .ro, .mrst, .owner, .any, 0⟩, -- FILT_SPIKES
  ⟨0x04, 0x05, 1, .u16, .ro, .vol, .owner, .any, 0⟩, -- FILT_RAW
  ⟨0x04, 0x06, 1, .u32, .ro, .mrst, .owner, .any, 0⟩ -- FILT_SATURATED_COUNT
  ]

/-- Every entry of the `chain` blocks. -/
def chainEntries : List Entry := chainRows0

def pwrRows0 : List Entry := [
  ⟨0x00, 0x01, 1, .u8, .rw, .vol, .owner, (.rng (0) (3)), 0⟩, -- PWR_REQ
  ⟨0x00, 0x02, 1, .u8, .ro, .vol, .owner, .any, 0⟩, -- PWR_STATE
  ⟨0x00, 0x03, 1, .u8, .ro, .vol, .owner, .any, 0⟩, -- PWR_TRANSITION
  ⟨0x00, 0x04, 1, .u8, .ro, .vol, .owner, .any, 255⟩, -- PWR_PENDING
  ⟨0x00, 0x05, 1, .u16, .ro, .mrst, .owner, .any, 0⟩ -- PWR_LAST_REFUSER
  ]

/-- Every entry of the `pwr` blocks. -/
def pwrEntries : List Entry := pwrRows0

def irqRows0 : List Entry := [
  ⟨0x00, 0x01, 1, .u16, .rw, .vol, .owner, .any, 0⟩, -- IRQ_CAUSE
  ⟨0x00, 0x02, 1, .u16, .rw, .flash, .owner, .any, 0⟩, -- IRQ_ENABLE
  ⟨0x00, 0x03, 1, .time96, .ro, .vol, .owner, .any, 0⟩ -- IRQ_FIRST
  ]

/-- Every entry of the `irq` blocks. -/
def irqEntries : List Entry := irqRows0

def mbRows0 : List Entry := [
  ⟨0x00, 0x01, 1, .u16, .rw, .flash, .owner, .any, 0⟩, -- MB_CFG
  ⟨0x00, 0x02, 1, .u32, .ro, .vol, .owner, .any, 0⟩, -- MB_STATUS
  ⟨0x00, 0x03, 1, (.domMax 64), .rw, .vol, .observer, .any, 0⟩, -- MB_DATA
  ⟨0x00, 0x04, 1, .u8, .wo, .vol, .observer, (.rng (0) (1)), 0⟩ -- MB_ACK
  ]

/-- Every entry of the `mb` blocks. -/
def mbEntries : List Entry := mbRows0

def pcRows0 : List Entry := [
  ⟨0x00, 0x01, 1, .u32, .rw, .vol, .operator, .any, 0⟩, -- PC_CFG
  ⟨0x00, 0x02, 1, .u32, .rw, .vol, .operator, .any, 0⟩, -- PC_ADDR_LO
  ⟨0x00, 0x03, 1, .u32, .rw, .vol, .operator, .any, 0⟩, -- PC_ADDR_HI
  ⟨0x00, 0x04, 1, .u32, .ro, .vol, .owner, .any, 0⟩, -- PC_LO
  ⟨0x00, 0x05, 1, .u16, .ro, .vol, .owner, .any, 0⟩, -- PC_HI
  ⟨0x00, 0x06, 1, .u8, .ro, .vol, .owner, .any, 0⟩, -- PC_STATUS
  ⟨0x00, 0x07, 1, .u64, .wo, .vol, .operator, .any, 0⟩, -- PC_PRESET
  ⟨0x00, 0x08, 1, .u32, .ro, .vol, .owner, .any, 0⟩ -- PC_SAMPLE_ADDR
  ]

/-- Every entry of the `pc` blocks. -/
def pcEntries : List Entry := pcRows0

def slotRows0 : List Entry := [
  ⟨0x00, 0x01, 1, (.domMax 3670016), .rw, .flash, .owner, .any, 0⟩, -- FW_SLOT_IMAGE
  ⟨0x00, 0x02, 1, .u8, .ro, .flash, .owner, .any, 0⟩, -- FW_SLOT_STATUS
  ⟨0x00, 0x03, 1, .u32, .ro, .flash, .owner, .any, 0⟩, -- FW_SLOT_SVN
  ⟨0x00, 0x04, 1, .u32, .ro, .flash, .owner, .any, 0⟩, -- FW_SLOT_VERSION
  ⟨0x00, 0x05, 1, (.dom 48), .ro, .flash, .owner, .any, 0⟩ -- FW_SLOT_HDR_HASH
  ]

/-- Every entry of the `slot` blocks. -/
def slotEntries : List Entry := slotRows0

/-- The rows of the block a key lies in. -/
def blockEntries : Blk → List Entry
  | .dev => devEntries
  | .line _ => lineEntries
  | .host _ => hostEntries
  | .pg _ => pgEntries
  | .port _ => portEntries
  | .loop _ => loopEntries
  | .aux _ => auxEntries
  | .og _ => ogEntries
  | .chain _ => chainEntries
  | .pwr _ => pwrEntries
  | .irq _ => irqEntries
  | .mb _ => mbEntries
  | .pc _ => pcEntries
  | .slot _ => slotEntries

/-- Does the row cover this subindex of this offset? -/
def Entry.covers (e : Entry) (off sub : Nat) : Bool :=
  e.off == off && (Nat.ble e.sub sub && Nat.blt sub (e.sub + e.cnt))

/-- The row of an entry, if the dictionary has it (R366). An event-recorder slot (R428) is a row of its own. -/
def entryOf (k : Key) : Option Entry :=
  (blockEntries k.blk).find? fun e => e.covers k.off k.sub

/-- Highest subindex present at an index; none where the index does not exist (R366). -/
def highestSub (b : Blk) (off : Nat) : Option Nat :=
  (blockEntries b).foldl (fun acc e =>
    if e.off == off then some (Nat.max (acc.getD 0) (e.sub + e.cnt - 1)) else acc) none

/-- Size in bytes, or the maximum for STRING and DOMAIN of stated maximum (R367, R368). -/
def Ty.size : Ty → Nat
  | .bool | .u8 | .i8 => 1
  | .u16 | .i16 => 2
  | .u32 | .i32 => 4
  | .u64 | .i64 => 8
  | .time96 => 12
  | .str => 255
  | .dom n | .domMax n => n

/-- Is the type's encoding two's complement (Table 13-1)? -/
def Ty.signed : Ty → Bool
  | .i8 | .i16 | .i32 | .i64 => true
  | _ => false

/-- The code of Table 13-1. -/
def Ty.code : Ty → Nat
  | .bool => 0x01 | .u8 => 0x02 | .u16 => 0x03 | .u32 => 0x04 | .u64 => 0x05
  | .i8 => 0x06 | .i16 => 0x07 | .i32 => 0x08 | .i64 => 0x09
  | .time96 => 0x0B | .str => 0x0C | .dom _ | .domMax _ => 0x0D

/-- Width in bits of the value an entry holds; 0 where there is no such entry, so nothing can be stored there. -/
def bitsOf (k : Key) : Nat :=
  match entryOf k with
  | some e => 8 * e.ty.size
  | none => 0

/-- Roles rank Observer < Operator < Owner < Vendor (R370). -/
def Role.rank : Role → Nat
  | .observer => 0 | .operator => 1 | .owner => 2 | .vendor => 3

/-- A requester holding a role also holds every lower one (R370). -/
def Role.covers (have_ need : Role) : Bool := need.rank ≤ have_.rank

end Sys2Proof.Machine
end

