-- ==== Sys2Proof/Machine/State.lean ====
section
/-!
DEFINITION. The machine's state, all of it plain data. The registers of the object dictionary stand in `store`,
one number per entry, sparse: an entry that is not listed holds its reset value (`resetOf`). Everything the
chapters give the block beside its registers (state machines, queues, timers, histories) stands in the records.
-/

namespace Sys2Proof.Machine

/-- Why a step stops with a fault. No command of this block ends in one: the spec names no state in which the
block stops (every refusal of a request is an answer, every reset goes on). Kept for the interface. -/
inductive Fault where
  /-- Raised by no meaning; safe. -/
  | none_
deriving DecidableEq, Repr

/-- Why a command has no meaning. -/
inductive Refusal where
  /-- Answered by an arm of `exec` whose command has no meaning yet; safe. -/
  | notModelled (mnemonic : String)
deriving DecidableEq, Repr

/-- The register store: (entry, value) pairs in the order of `Key.lt`, none equal to its reset value. -/
abbrev Store := List (Key × Nat)

/-! ## Object dictionary (13_object_dictionary.md) -/

/-- The boundary at which an accepted write takes effect (R62, R149, R306, R391); `anyCw`: the earlier of a lane's two codeword
boundaries. -/
inductive Bound where
  | rxCw (n : Fin 16)
  | txCw (n : Fin 16)
  | anyCw (n : Fin 16)
  | period (k : Fin 4)
  | frame
  | tick
deriving DecidableEq, Repr

/-- An accepted request that is not answered yet: it waits for the core, or for the requests ordered before it (R382, R386,
R388). -/
structure CoreReq where
  req : Fin 18
  bytes : List Byte
  epoch : Nat                          -- fences that the requester had sent before it (R388)
  core : Bool                          -- the core serves it (R379)
  x : Nat := 0                         -- what is measured with the write it completes
deriving DecidableEq, Repr

/-- Accepted writes that wait for their boundary: one, or a closed commit group's part of it (R388, R391). -/
structure Waiting where
  req : Fin 18
  epoch : Nat
  bound : Bound
  grp : Bool
  writes : List (Key × List Byte)
deriving DecidableEq, Repr

/-- An answered request in the response cache (R377): the request and the response, byte for byte. -/
structure Cached where
  req : List Byte
  resp : List Byte
deriving DecidableEq, Repr

/-- A request in its queue: its bytes, the cc of its acceptance, whether the core serves it (R378, R379). -/
structure QReq where
  bytes : List Byte
  at_ : Nat
  core : Bool
deriving DecidableEq, Repr

/-- The requester's segmented transfer (R383, R384). -/
inductive Transfer where
  | idle
  | reading (snap : List Byte) (pos : Nat) (toggle : Bool) (last : List Byte)
  | writing (key : Key) (size got : Nat) (data : List Byte) (toggle : Bool)
  | timedOut
deriving DecidableEq, Repr

/-- A fence that waits (R388): its kind 2 or 3, its request, the writes before it, and how the save it waits for ended. -/
structure Fence where
  kind : Nat
  req : List Byte
  epoch : Nat
  saved : Option Bool := none
deriving DecidableEq, Repr

/-- One requester of Table 13-4 (R370). -/
structure Requester where
  queue : List QReq := []              -- accepted, unanswered requests, oldest first (R378)
  cache : List Cached := []            -- last 8 answered (R377)
  transfer : Transfer := .idle
  group : Option (List (Key × List Byte)) := none  -- open commit group (R389)
  lost : Bool := false                 -- lost-group state (R392)
  fences : List Fence := []
  epoch : Nat := 0                     -- fences sent so far; orders writes (R388)
  dirty : Bool := false                -- a saved-to-flash write of its own is in no completed save (R388)
  lastAnswer : List Byte := []         -- the latest response sent (Table 13-7)
  outcome : Nat := 0                   -- of the latest request: 0 OK, 2 BUSY, 3 BUSY_TEST, or the abort code
deriving DecidableEq, Repr

/-- One saved-configuration copy in the flash (R373). -/
structure FlashCopy where
  valid : Bool := false
  seq : Nat := 0
  vals : Store := []
deriving DecidableEq, Repr

/-- Object dictionary and configuration save. -/
structure OdS where
  reqs : Vector Requester 18 := Vector.replicate 18 {}
  coreQ : List CoreReq := []           -- accepted requests not yet served, in order of acceptance (R378, R382)
  coreAt : Option (Fin 18) := none     -- the requester whose write the core is serving (R378, R382)
  coreTurn : Fin 18 := 17              -- the requester whose request the core served last
  waiting : List Waiting := []         -- committed writes before their boundary, in order of acceptance (R387, R388)
  twiSlots : Nat := 0                  -- TWI slots in use (R394)
  twiReady : List (List Byte) := []    -- completed TWI responses not yet read, oldest first
  twiOverflow : Bool := false
  copies : Vector FlashCopy 2 := Vector.replicate 2 {}
  unsaved : Bool := false              -- a saved-to-flash entry differs from the copy
  saving : Bool := false
  saveTimer : Bool := false            -- OD_SAVE_DELAY is running
  erased : Bool := false               -- both copies were erased by OD_CFG_ERASE
deriving DecidableEq, Repr

/-! ## Clocks, outages (01_architecture.md) -/

/-- Why an outage started (R30, R31). -/
inductive OutageCause where
  | line | power | trip
deriving DecidableEq, Repr

/-- Clock unit: root, synthesizers, recovered-clock outputs, the outage in progress. -/
structure ClkS where
  rootValid : Bool := false            -- the selected root is valid under R20
  lsynRuns : Bool := false             -- LSYN has locked and not stopped since (R303)
  squelched : Vector Bool 2 := Vector.replicate 2 true
  outage : Option (OutageCause × Nat) := none  -- cause and start, in cc (R30)
deriving DecidableEq, Repr

/-! ## Time unit (10_time_unit.md) -/

/-- The latest adjustment waiting for the gauge tick, and the servo's internals (R279 to R295). -/
structure TimeS where
  counter : Nat := 0                   -- units of 2^-40 ns, below 2^48 s (R277)
  r : Nat := 0                         -- the remainder of R277, 0 to 224
  rate : Int := 0                      -- rate in force, 0.1 ppb
  rateSeq : Nat := 0                   -- changes of the rate in force (RATE_CHANGED of Table 10-6)
  pendHost : Int := 0                  -- host step pending, 2^-16 ns
  pendServo : Int := 0                 -- servo step pending, 2^-16 ns
  pendSet : Option Nat := none         -- TIME96 to hold at the next SYNC_IN edge
  srcChange : Bool := false            -- a change of source waits for the tick (R293)
  lane : Nat := 0                      -- TIME_LINE_LANE in force
  slew : Int := 0                      -- s of R294, 0.1 ppb
  lastMeas : Option Nat := none        -- counter at the source's previous measurement
  missed : Nat := 0                    -- missing measurements in a row (R295)
  recent : List Int := []              -- the last 4 errors, fs (LOCKED of Table 10-3)
  alarmArmed : Bool := true            -- TIME_OFFSET_ALARM may be raised (R294)
  prevEdge : Option Nat := none        -- the stamp the next edge is judged against, in 2^-40 ns (R283)
  silenceTold : Bool := false          -- SYNC_IN_FAULT raised for this silence
  edgeSeen : Bool := false             -- an edge was stamped since SYNC_IN_EN became 1
  outHigh : Bool := false              -- SYNC_OUT pin
  outSkip : Option Nat := none         -- the latest whole second that a set or step passed over: no pulse for it (R282)
  lastPulse : Option Nat := none       -- cc of the last SYNC_OUT rise
  outSub : Nat := 0                    -- its place in that cc, in LSYN periods (R282)
  outWidth : Nat := 0                  -- SYNC_OUT_WIDTH of the present pulse, ns
  adjSincePulse : Bool := false        -- a set or step since the last SYNC_OUT rise
  port : Fin 2 := 0                    -- beacon port in use: 0 SA, 1 SB (R298)
  portMiss : Nat := 0                  -- periods without an accepted beacon on SA
  beaconSeen : Bool := false           -- an accepted beacon in the present period
  followed : Bool := false             -- a measurement came in the present expected period
deriving DecidableEq, Repr

/-! ## Management (14_management.md) -/

/-- An event-recorder record on its way to its slot (R426, R427). -/
structure Rec where
  cc : Nat
  time : Nat
  kind : Nat
  unit : Nat
  data : List Byte
deriving DecidableEq, Repr

/-- A mailbox channel: the message's bytes while full (Table 14-8 stands in the store). -/
structure MailBox where
  data : List Byte := []
deriving DecidableEq, Repr

/-- A performance counter: 48-bit count and the latches of R421 by requester (0 to 17). -/
structure PerfCnt where
  count : Nat := 0
  latch : List (Fin 19 × Nat) := []    -- bits [47:32] by reader, 18 the core (R421)
deriving DecidableEq, Repr

/-- Management core, fabric units, event recorder queue. -/
structure MgmtS where
  plChange : Option (Nat × Nat) := none  -- change in progress: from, to (R400)
  plWanted : Option Nat := none        -- level decided last, while a change is in progress (R401)
  forcedPl0 : Bool := false            -- thermal trip (Table 16-13 step 5)
  watchdogPend : Bool := false         -- the reset under way is a watchdog reset
  mrstPend : Bool := false             -- an MRST has been requested and not begun (R404)
  mrstEcc : Bool := false              -- that MRST is caused by an uncorrectable SRAM error (R403)
  eccAddr : Nat := 0                   -- the failing word's address
  owedDone : Nat := 0                  -- sources owed at the next CORE_READY: bit 0 MRST_DONE, bit 1 WATCHDOG_RESET
  lockOwner : Vector Nat 32 := Vector.replicate 32 0xFF
  boxes : Vector MailBox 12 := Vector.replicate 12 {}
  pcs : Vector PerfCnt 8 := Vector.replicate 8 {}
  coreRead : List Byte := []           -- what the core's latest read through its own port returned (R409, R421)
  gens : Vector Nat 19 := Vector.replicate 19 0
  recQ : List Rec := []                -- recorder queue (R427)
  firstLap : Bool := true              -- fewer than 2^32 records since POR (R425)
  wmArmed : Bool := true               -- EVR_WATERMARK may be raised (R429)
deriving DecidableEq, Repr

/-! ## Supply, power units, thermal (16_power_reset_thermal.md) -/

/-- Where a power unit is (R476, R479). `entering` names the step E1 to E6 in progress and the target;
`waking` the state it leaves. -/
inductive PwrTrans where
  | still
  | entering (step target : Nat)
  | waking (target : Nat)
deriving DecidableEq, Repr

/-- One power unit of Table 16-3. `level` is `PWR_STATE`. -/
structure PwrUnit where
  trans : PwrTrans := .still
  pendWake : Option Nat := none        -- wake event awaiting the next abort point: cause of R477
  cold : Bool := false                 -- marked for cold initialisation (R486)
  waitPg : Bool := false               -- a lane wake waits for its port-group unit (R480)
  former : Nat := 0                    -- the state before the transition (record 0x40)
  byRequest : Bool := false            -- out of Run by a power request: no outage counts until C7 (R480)
  save : Nat := 0                      -- the save of step E4: 0 none, 1 under way, 2 complete, 3 failed
deriving DecidableEq, Repr

/-- Where the supply and the power-up sequence stand (R467 to R471). -/
inductive Supply where
  | off          -- VIN below its threshold, or regulators off with POR asserted
  | deviceOff    -- Off (R482)
  | faultOff     -- regulators held off after a rail fault (R468)
  | stuckOff     -- third rail-fault POR within 10 s: Off until WAKE or VIN returns
  | starting     -- POR released, sequence waits for LSYN (steps 8, 9)
  | booting      -- LSYN locked, boot under way (step 10)
  | up
deriving DecidableEq, Repr

/-- Power, reset, thermal. -/
structure PwrS where
  supply : Supply := .starting
  resetLow : Bool := false             -- RESET_N held low
  units : Vector PwrUnit 22 := Vector.replicate 22 {}
  railFault : Option (Nat × Nat) := none  -- the rail fault declared last: rail, kind
  faultPors : List Nat := []           -- cc of the rail-fault PORs
  offStep : Nat := 0                   -- Off entry: 0 none, 1 bind-off, 2 save
  offWake : Option Nat := none         -- a wake event waits for the Off entry's abort point: its cause
  strapRef : Bool := false             -- REFSEL latched (R515); low at reset is a choice (log entry 88)
  strapTwi : Nat := 0                  -- TWIA1, TWIA0 latched
  tripCc : Nat := 0                    -- cc of the trip in force
  coolAt : Option Nat := none          -- cc since which the trip maximum has been below 105.00 °C (R493)
  porCc : Nat := 0                     -- cc at which the latest POR completed (R30)
  offSave : Nat := 0                   -- the save of Off: as `PwrUnit.save`
  lockedOnce : Bool := false           -- LSYN has locked since the POR (R530)
  tripSensor : Nat := 0                -- the sensor that set the trip maximum at the latest conversion (R491)
  fromPor : Bool := true               -- the boot under way follows a POR: a power cycle (R30)
  loadDue : Bool := true               -- the boot under way ends with the load of the configuration (R442)
  bankBad : List Nat := []             -- banks whose latest self-test failed (R508)
  brokenRun : Vector Nat 24 := Vector.replicate 24 0   -- 0, or 1 + the valid conversions since the sensor broke
  warnHighArmed : Bool := true
  warnLowArmed : Bool := true
deriving DecidableEq, Repr

/-! ## Line lanes (02_line_receive.md to 10_time_unit.md) -/

/-- The receive coefficients in force (R48, R50, R51, R53, R57): the FFE accumulators (24 bits, 2^-22), the NLC table
(2^-7), h1, h2 and the baseline estimate b (2^-22, log entry 12). -/
structure Coefs where
  acc : List Int
  lut : List Int
  h1 : Int
  h2 : Int
  b : Int
deriving DecidableEq, Repr

/-- The cold-start values of R58 for main tap `main`. -/
def Coefs.cold (main : Nat) : Coefs :=
  { acc := (List.range 48).map fun k => if k = main then 4194304 else 0
    lut := List.replicate 64 0, h1 := 2097152, h2 := 0, b := 0 }

/-- One level's running totals of the quality monitor (R64): samples, sum and sum of squares of u, in 2^-26. -/
structure LevelSum where
  n : Nat := 0
  sum : Int := 0
  sq : Int := 0
deriving DecidableEq, Repr

/-- The receive chain of a lane at work (R35 to R57), histories newest first: corrected samples x (2^-16), the last FFE outputs,
z with its NLC index, the last two decided symbols with their reliabilities; the loop of R44; the received symbols that no
codeword has taken yet, oldest first. -/
structure RxS where
  xs : List Int := []
  ys : List Int := []
  zs : List Int := []
  ids : List Nat := []
  prev : List (Fin 4 × Nat) := [(0, 15), (0, 15)]   -- oldest first
  pos : Nat := 0                       -- position of the gradient samples in the cc (R57)
  slot0 : Nat := 0                     -- logical slot of the first sample of a cc (R41)
  integ : Int := 0                     -- frequency integrator, 2^-46 steps of 1/64 UI a cc
  phase : Int := 0                     -- phase accumulator, 2^-46 steps
  steps : Int := 0                     -- where the interpolators stand
  syms : List (Fin 4 × Nat) := []
  headSlot : Nat := 0                  -- logical slot of the first of `syms`
deriving DecidableEq, Repr

/-- A swatch capture (R67 to R69). -/
structure SwatchS where
  ring : List Byte := []               -- stored samples, newest first, at most 65,536
  stored : Nat := 0                    -- samples stored since arming
  post : Nat := 0                      -- of them, since the trigger
  phase : Nat := 0                     -- samples seen since arming (decimation)
  substs : List Nat := []              -- `stored` at each substitution, newest first
deriving DecidableEq, Repr

/-- Running totals of one logical slot over an epoch (R263): corrected samples in 2^-23 code. -/
structure SlotSum where
  n : Nat := 0
  sum : Int := 0
  sq : Nat := 0
deriving DecidableEq, Repr

/-- The transmit path of a lane (R73 to R87): the level indices sent and their LEVEL values, newest first (the precoder's state, the FFE's
history, the predistortion index); the place in the TRAIN pattern; the codes in the DAC sample queue, newest first. -/
structure TxS where
  idx : List (Fin 4) := []
  amp : List Int := []
  train : Nat := 0
  codes : List Int := []
  at_ : Nat := 0                       -- cc of the latest codeword boundary
deriving DecidableEq, Repr

/-- The three states of the output stage (R91). -/
inductive OutStage where
  | disabled | idle | modulating
deriving DecidableEq, Repr

/-- A marker lock machine (M rows of Table 4-4). -/
inductive MState where
  | hunt | confirm | lock
deriving DecidableEq, Repr

/-- A marker machine with its counts and the payload position at which it expects the next marker (Table 4-4). -/
structure Marker where
  st : MState := .hunt
  good : Nat := 0
  bad : Nat := 0
  expected : Nat := 0
deriving DecidableEq, Repr

/-- A PRBS checker (R159). -/
inductive PrbsChk where
  | off | seeding | locked
deriving DecidableEq, Repr

/-- A periodic error injection (R127, R158): the cc since which its present rate holds, codewords or bits counted before, and
counted so far. -/
structure InjS where
  start : Nat := 0
  base : Nat := 0
  n : Nat := 0
  onceAt : Option Nat := none          -- cc of the latest ONCE (Table 5-7)
deriving DecidableEq, Repr

/-- The registers of a place's PRBS generator and checker (R157, R159): the generator's as it stood at cc `start`; a line lane's
decided bits that no window has taken; how many bits of a symbol the windows so far have begun, and whether one of them was in error
in LOCK (`PRBS_SYM_ERR`). -/
structure PrbsReg where
  gen : Nat := 0
  start : Nat := 0
  chk : Nat := 0
  bits : List Bool := []
  part : Nat := 0
  partErr : Bool := false
deriving DecidableEq, Repr

/-- What a host lane holds beside its entries (05_host_interface.md). -/
structure HostS where
  training : Bool := false             -- forwarded-clock training or CDR lock under way (R137, R138)
  acq : Nat := 0                       -- equalizer: 0 none, 1 acquisition, 2 tracking (R133)
  align : Marker := {}                 -- alignment monitor (R135)
  fracFixed : Option Int := none       -- the fraction of forwarded clock with root HCKI0/85 (R139)
  delay : Nat := 0                     -- compensating delay of the capture, 0 to 63 symbols (R139)
  fill : Nat := 64                     -- symbols in the capture buffer (R140)
  slipDue : Bool := false              -- a slip fell in a relock: the capture is fixed again with it (R148)
  refind : Nat := 0                    -- marker periods until the FEC unit has the codeword positions after a slip (R155)
  taps : List Int := [0, -102400, 921600, 0]  -- transmit taps in force, 1/1,024,000 (R149)
  filled : Bool := false               -- marker fill replaces the lane's bits (R113)
  ampNow : Nat := 85                   -- amplitude in place, on its way to HOST_TX_AMP (R151)
  prbs : PrbsChk := .off
  pinj : InjS := {}                    -- PRBS injection
  preg : PrbsReg := {}
deriving DecidableEq, Repr

/-- Gearbox states (Table 5-2). -/
inductive Gb where
  | off | wait | locked
deriving DecidableEq, Repr

/-- What a port group holds beside its entries. -/
structure PgS where
  gb : Gb := .off
  lostLock : Bool := false             -- the gearbox left LOCKED on a synthesizer loss: the next lock shortens an epoch
  relockFmt : Bool := false            -- the relock under way is that of R204
  code0 : Bool := false                -- the group's transmitters send code 0 until relock (Table 5-2)
  lockedAt : Nat := 0                  -- cc of the latest entry to LOCKED
  hckoSlew : Bool := false             -- HCKO slews to its source's frequency since a change of the source (R142)
  hckoFrom : Int := 0                  -- its frequency at cc `hckoAt`, 1/28,125 of 0.001 ppm
  hckoAt : Nat := 0
  grid : Nat := 0                      -- format of the grid in place: 0 none yet, 1 Courn-450, 2 Courn-225
  fixed : Nat := 0                     -- the fixed format (R204): 0 none
  epTx : Vector Nat 4 := Vector.replicate 4 0   -- running uncorrectable codewords per port, host to line (R156)
  epRx : Vector Nat 4 := Vector.replicate 4 0
deriving DecidableEq, Repr

/-- One ADC slice (R257 to R266): 0 active, 1 spare, 2 spare READY, 3 FAILED. -/
structure SliceS where
  st : Nat := 0
  fails : Nat := 0                     -- FAIL_COUNT
  slot : Nat := 31                     -- logical slot served; 31 none
  age : Nat := 0
  skew : Int := 0
  off : Int := 0                       -- offset correction, 1/256 code
  gain : Nat := 32768                  -- gain, 2^-15
  calAt : Nat := 0                     -- order of its last calibration (R257)
deriving DecidableEq, Repr

/-- The corrections of slice `i` of lane `n` fused at production, within the limits of Table 9-2 (R275; log entry 4). -/
def fusedSlice (n i : Nat) (c : SliceS) : SliceS :=
  let f (j : Nat) : Nat := Config.fused (8192 + 64 * n + 3 * i + j)
  { c with off := (f 0 % 8193 : Nat) - 4096, gain := 28672 + f 1 % 8193, skew := (f 2 % 65 : Nat) - 32 }

/-- Slip-stitch of a lane: slices in service order S0 to S16; slot j is served by slice j and slice 16 is the spare after
POR (log entry 13). -/
structure SsS where
  slices : Vector SliceS 17 := Vector.ofFn fun i => if i.val < 16 then { slot := i.val } else { st := 1 }
  step : Nat := 0                      -- 0 stopped, 1 A, 2 B, 3 C, 4 waiting for D, 5 D, 6 READY
  target : Nat := 0                    -- slot the spare will fill
  ended : Bool := false                -- the interval has ended
  postponed : Bool := false
  outOfTurn : Bool := false            -- the target is a suspect slot (R263)
  retest : Bool := false               -- the attempt is a retest (R265)
  tries : Nat := 0                     -- failed attempts of the retest
  subNow : Bool := false               -- a passed retest substitutes at the next boundary
  degraded : List Nat := []            -- the suspect slices left serving (R263), oldest first
  calSeq : Nat := 1                    -- next calibration number
  rot : Nat := 0                       -- substitutions of the present run of 17
deriving DecidableEq, Repr

/-- Slip-stitch of lane `n` with every slice at its fused corrections and no mark (R275). -/
def fusedSs (n : Fin 16) : SsS :=
  { slices := Vector.ofFn fun i => fusedSlice n.val i.val (if i.val < 16 then { slot := i.val } else { st := 1 }) }

/-- A packet of the Picot transmit queue (R240): type, sequence byte, whether it is sequenced, payload. -/
structure Packet where
  typ : Nat
  seq : Nat
  data : List Byte
deriving DecidableEq, Repr

/-- Picot receive states (Table 8-6). -/
inductive PicotRx where
  | off | search | sync | header | payload
deriving DecidableEq, Repr

/-- The Picot modem of a lane (08_picot_channel.md). -/
structure PicotS where
  queue : List Packet := []
  waiting : List Packet := []          -- sequenced packets that wait for a place (R240)
  burst : Option Packet := none
  burstMode : Nat := 0                 -- mode in which the burst is sent
  tone : List Int := []                -- its symbols, ramps, preamble, sync word and pilots included (R236, R237)
  startAt : Nat := 0                   -- cc of its start
  sent : Nat := 0                      -- samples of it sent (R84)
  gapUntil : Nat := 0                  -- cc at which the 4 symbols after a ramp-down have passed
  mode : Nat := 0                      -- mode in use since the last entry to C1 (R232)
  depth : Nat := 25                    -- depth of the latest burst (R84)
  chan : Nat := 0                      -- channel of the latest burst (R229)
  rx : PicotRx := .off
  rxChan : Nat := 0                    -- listening channel since the last entry to SEARCH
  disc : List Int := []                -- discriminator output of the last 96 symbols, newest first (R249)
  symNo : Nat := 0                     -- symbols received so far: the number of the newest
  strength : Int := 0                  -- of the current attempt
  candAt : Nat := 0                    -- the symbol at which its candidate ended
  syncAt : Nat := 0                    -- the last symbol of its sync word
  pend : Option (Int × Nat) := none    -- the pending candidate: strength, the symbol at which it ended
  hdr : List Byte := []                -- the validated header
  missed : Nat := 0                    -- pilot pairs missed in a row
deriving DecidableEq, Repr

/-- What a CAP says (Table 7-4). -/
structure Cap where
  uid : Nat
  pgMode : Nat
  formats : Nat
  precodeReq : Bool
  timeEn : Bool
  role : Nat
  main : Nat
  policy : Nat
deriving DecidableEq, Repr

/-- What a PROPOSE or ACCEPT says. -/
structure Proposal where
  num : Nat
  format : Nat
  precode : Nat
  time : Nat
deriving DecidableEq, Repr

/-- A sequenced message: its type and body, its number once it has one, whether a burst with it has started. -/
structure Msg where
  typ : Nat
  body : List Byte
  seq : Nat := 0
  sent : Bool := false
deriving DecidableEq, Repr

/-- The TXEQ policy's progress (R210, R211). -/
inductive Txeq where
  | idle                               -- not begun
  | baseline                           -- auto: the first SNR_T is being measured
  | stepAck                            -- auto: a step's request is unanswered
  | settle                             -- auto: waiting and measuring
  | backAck                            -- auto: the return of a step is unanswered
  | request                            -- preset, host: the request is unanswered
  | host                               -- host: waits for LINE_CO_TXEQ_GO
  | done
deriving DecidableEq, Repr

/-- The conversation of a lane (07_cast_on.md). -/
structure CoS where
  hold : Bool := false                 -- BIND_OFF hold in C0 (R181)
  calCo : Bool := false                -- the calibrations of R183 are under way
  txSeq : Nat := 0                     -- next sequence number
  lastAck : Nat := 0xFF                -- last value acknowledged
  numbered : Nat := 0                  -- sequence numbers given out since the last entry to C2 (R190)
  out : List Msg := []                 -- outstanding, at most 4
  wait : List Msg := []                -- sequenced messages that wait for a place among the 4
  e : Nat := 0                         -- E of R190
  retries : Nat := 0
  timers : List Nat := []              -- the 13 values of Table 7-5 taken at the last entry to C2
  backoff : Bool := false              -- the 10 ms after a restart
  phaseAt : Nat := 0                   -- cc of the entry to the present phase
  c2At : Nat := 0                      -- cc of the last entry to C2
  cap : Option Cap := none             -- newest partner CAP
  ownCap : Option Cap := none          -- the CAP last sent
  capAcked : Bool := false
  propNum : Nat := 1                   -- next proposal number
  prop : Option Proposal := none       -- own proposal, unanswered
  rejected : Option Proposal := none   -- own proposal that was rejected and stays the result (R202)
  accepted : Option Proposal := none   -- partner's proposal that own ACCEPT answers
  heardPropose : Bool := false         -- in the present visit to C3
  noPropose : Bool := false            -- C3 was entered under R207
  precOwn : Bool := false              -- agreed: this transmitter precodes
  precFar : Bool := false              -- agreed: the far transmitter precodes
  peerReady : List Nat := []           -- READY messages held, by their DONE
  readySent : Bool := false            -- own READY for the present phase sent
  readyAcked : Bool := false
  needReacq : Bool := false            -- R208
  txeq : Txeq := .idle
  reqId : Nat := 0
  reqFrom : Nat := 0                   -- reqId at the entry to C4: the requests after it are this visit's (R210)
  farKnown : Bool := false             -- a TXEQ_ACK has arrived: LINE_CO_FAR_TAPS holds the taps in place (R211)
  tTaps : List Int := []               -- t of the search
  uTaps : List Int := []               -- u of the search
  best : Int := 0
  eqJ : Nat := 0                       -- 0: main + 1; 1: main - 1
  eqStep : Nat := 1
  ackOwed : Option Nat := none         -- REQ_ID of an applied TXEQ_REQ, answered after its boundary (R209)
  uncorr0 : Nat := 0                   -- counters at the start of the verify window (R214)
  symErr0 : Nat := 0
  win : Nat := 0                       -- LINE_CO_VERIFY_WIN as the entry to C6 took it
  heldC6 : Bool := false               -- frame lock held since the window opened
  gate : Nat := 0                      -- 0 no result, 1 passed, 2 failed
  retrains : Nat := 0
  realignOuts : Nat := 0
  bind : Option Nat := none            -- bind-off under way: its reason
  oow : Nat := 0
  lastStatus : Nat := 0                -- LOCK and FILL bytes of the latest STATUS
  owe : Bool := false                  -- an acknowledgement or an announcement is due, no packet queued since (R190)
deriving DecidableEq, Repr

/-- A departure stamp of the log (R284, R286): row, generation, counter value, whether a held analogue value was used, and the
count of rate changes at it. -/
structure DepStamp where
  row : Nat
  gen : Nat
  stamp : Nat
  held : Bool
  rateSeq : Nat
deriving DecidableEq, Repr

/-- An arrival stamp of the log (R285): the coarse part, the CDR phase, the rate in force. -/
structure ArrStamp where
  row : Nat
  gen : Nat
  coarse : Nat
  frac : Nat
  held : Bool
  rateSeq : Nat
  rate : Int
deriving DecidableEq, Repr

/-- The echo that the next TIME message carries (R289): of the latest message associated. `ok`: its boundary has an arrival stamp. -/
structure Echo where
  row : Nat
  ok : Bool
  gen : Nat
  coarse : Nat
  frac : Nat
deriving DecidableEq, Repr

/-- Line time transfer of a lane (R284 to R292). -/
structure XferS where
  dep : List DepStamp := []            -- the last 64 rows carried, newest first
  arr : List ArrStamp := []            -- the last 64 rows received, newest first
  last : Option DepStamp := none       -- the latest departure
  per : Nat := 4                       -- TIME_LINE_PERIOD in force since that row (R292)
  rows : Nat := 0                      -- epoch boundaries sent on the present grid
  due : Option DepStamp := none        -- of a TIME message that fell due and has neither started nor been withdrawn
  echo : Option Echo := none
  fit : List (Nat × Int) := []         -- t_ref and theta of the last 7 valid results, newest first (R290)
  got : Bool := false                  -- a valid result in the present period (R295)
  miss : Nat := 0
deriving DecidableEq, Repr

/-- A measurement of SNR_T (R211): the cc at which it begins, the gradient errors gathered and the sum of their squares, 2^-52. -/
structure SnrS where
  at_ : Option Nat := none
  n : Nat := 0
  sq : Nat := 0
deriving DecidableEq, Repr

/-- What a line lane holds beside its entries. -/
structure LaneS where
  lockedAtEpoch : Bool := false        -- frame lock held at the last received epoch boundary
  heldEpoch : Bool := false            -- frame lock held for a whole epoch (R26)
  -- receive chain (R37 to R71)
  ctleNow : Nat := 12                  -- the peaking in place, on its way to the written value (R37)
  ctleSearch : Option Nat := none      -- steps made by the search of R38 in progress
  adapt : Nat := 0                     -- 0 not started, 1 acquisition, 2 tracking
  restartPend : Bool := false          -- RESTART waits for its codeword boundary
  reachedC7 : Bool := false            -- since POR (R58)
  coldNext : Bool := false             -- a lane reset makes the next acquisition cold (R71)
  coldApply : Bool := false            -- coefficients return to cold start at the next codeword boundary (R71)
  coef : Coefs := Coefs.cold 8
  lastC7 : Option Coefs := none        -- what the chain held when the lane last left C7
  fallback : Option Coefs := none      -- the guard's copy (R61)
  tripFfe : Bool := false              -- stage frozen by a guard trip
  tripMlse : Bool := false
  guardTripped : Bool := false         -- GUARD_TRIPPED (Table 2-5)
  warm : Bool := false                 -- WARM (Table 2-5)
  satFfe : Nat := 0                    -- consecutive updates with a tap at its limit
  satMlse : Nat := 0
  satEpoch : Bool := false             -- a tap sat at its limit in the present epoch
  tripEpoch : Bool := false            -- the guard tripped in the present epoch
  snrT : SnrS := {}
  substUntil : Nat := 0                -- cc at which the substitution freeze ends (Table 2-6)
  snapPend : Bool := false             -- a snapshot waits for its codeword boundary (R63)
  wroteAt : Nat := 0                   -- cc of the boundary at which written coefficients last took effect (R62)
  wrote : List (Nat × Nat) := []       -- those coefficients: offset and subindex
  agcAt : Option Nat := none           -- cc of the gain's latest step in tracking (R39)
  power : Nat × Nat := (0, 0)          -- samples of the latest update and the sum of their squares, 2^-23 code
  rx : RxS := {}
  rotFreq : Int := 0                   -- frequency of the HSYN rotator, 0.001 ppm against the local root (R19, R143)
  swatch : SwatchS := {}
  levels : Vector LevelSum 4 := Vector.replicate 4 {}  -- quality monitor, running
  hist : Nat := 0                      -- running histogram: 256 bins of 32 bits, bin 0 most significant
  lqmEpochs : Nat := 0                 -- epochs of the present window
  -- transmit chain (R73 to R97)
  out : OutStage := .disabled
  outMode : Nat := 0                   -- the mode the stage is in (R92)
  outOff : Bool := true                -- held disabled: POR, RESET_N, thermal trip, Sleep, Deep sleep, Off (R91)
  modeStep : Bool := false             -- disabled between the two modes of a mode change (R92)
  laneReset : Bool := false            -- a lane reset is under way: output idle (R97)
  resetEnd : Nat := 0                  -- cc at which it ends
  tx : TxS := {}
  queue : Nat := 2                     -- distance of the DAC sample queue's reader and writer, in cc (R87)
  swingNow : Nat := 70                 -- the drive in place, on its way to LINE_TX_SWING, LINE_TX_IFS (R92)
  ifsNow : Nat := 64
  srcCo : Nat := 1                     -- the source cast-on chose (R95)
  srcNow : Nat := 1                    -- the source in place since the last codeword boundary (R96)
  txTapsPend : Option (List Int) := none  -- a TXEQ set that waits for its boundary (R81)
  txTapsDefault : Bool := false        -- taps return to default at the next boundary (R82)
  -- line format (R115 to R127)
  offset : Nat := 0                    -- candidate offset c of a hunt, 0 to 1,151 (Table 4-4)
  cwGood : Nat := 0                    -- good of CW CONFIRM
  uncorrRun : Nat := 0                 -- consecutive UNCORRECTABLE codewords in CW LOCK
  blkW : Nat := 0                      -- codewords of the present block decoded so far
  blkTag : Bool := false               -- the tag of the present block has been judged
  blkNo : Nat := 0                     -- blocks since codeword lock was taken
  tagNext : Nat := 0                   -- the block at which the next tag is expected (Table 4-4)
  blkClean : Nat := 0                  -- codewords of the present block decoded CLEAN, tags included
  blkBad : Nat := 0                    -- of the present block, UNCORRECTABLE
  blkSym : Nat := 0                    -- bytes changed in the present block, in CW LOCK (R126)
  mkA : Marker := {}
  mkB : Marker := {}
  epMiss : Nat := 0                    -- miss of E LOCK
  epUncorr : Nat := 0                  -- running epoch totals (R126)
  epSym : Nat := 0
  delivered : List Byte := []          -- data bytes of the latest codeword delivered (R103, R117)
  toA : List Bool := []                -- its payload bits for the transmitter of H(2n)
  toB : List Bool := []                -- and of H(2n+1)
  inj : InjS := {}                     -- LINE_FEC_INJECT: codewords (R127)
  pinj : InjS := {}                    -- PRBS injection (R158)
  -- latency (R163 to R178)
  pHost : Int := 0                     -- compensated analogue parts, 1/100 fs (R170)
  pDac : Int := 0
  pRx : Int := 0
  pDrv : Int := 0
  tempHeld : Bool := false             -- an analogue part is held (LAT_STATUS, R171)
  laneHeld : Bool := false             -- one of sensor Tn is, which the stamps use (R286)
  cfgPend : Bool := false              -- a CONFIG change waits for the lane to come up (R173)
  latAt : Option Nat := none           -- cc of the latest latency report: events of one cc share it (R174)
  prbs : PrbsChk := .off               -- line PRBS checker
  preg : PrbsReg := {}
  -- calibration (R256 to R275)
  ss : SsS := {}
  lockTx : Bool := false               -- frame lock held since the last transmit epoch boundary (R263)
  slots : Vector SlotSum 16 := Vector.replicate 16 {}  -- logical slots over the present epoch (R263)
  calLane : Bool := false              -- lane calibration under way
  calDac : Bool := false
  calDacDue : Bool := false            -- DAC calibration waits for a burst to end (R94)
  calBad : Bool := false               -- two or more slices failed: the lane is held in C0 (R267)
  calCmd : Bool := false               -- the calibration under way is a commanded one (R269)
  calPend : Option (Nat × List (Int × Nat × Int)) := none  -- fail mask and corrections, in effect at C1
  picot : PicotS := {}
  co : CoS := {}
  xfer : XferS := {}
deriving DecidableEq, Repr

/-! ## Optics control (11_optics_control.md) -/

/-- A filter chain beside its entries (R312 to R315). -/
structure ChainS where
  restart : Bool := true               -- the next result restarts the chain (R314)
  raws : List Nat := []                -- latest results in Q12.4, newest first, at most 7
  meds : List Nat := []                -- latest median outputs, newest first, at most 16
  blkSum : Nat := 0                    -- settle mode: the present block
  blkN : Nat := 0
  swap : Bool := false                 -- a swap waits for the next output
  fade : Option (Nat × Nat) := none    -- k and X of the crossfade
  newAt : Option Nat := none           -- the first frame whose snapshot sees the latest output
deriving DecidableEq, Repr

/-- A loop beside its entries (R316 to R327). -/
structure LoopS where
  prevDue : Option Nat := none         -- its previous due frame
  staleRun : Nat := 0
  faultRun : Nat := 0
  limitRun : Nat := 0
  preset : Bool := false               -- a bumpless preset is pending (R323)
  former : Nat := 0                    -- the mode before SAFE
  heldFrom : Nat := 0                  -- the mode before HOLD (R331)
  tripped : Bool := false              -- in SAFE by the thermal trip
  out : Option Nat := none             -- u of this frame, for cycle 960
  e1s : List Int := []                 -- e1 of the latest M executions, newest first (R322)
  rcArmed : Bool := true               -- RC_SETTLED may be raised
deriving DecidableEq, Repr

/-- An aux pin: the mode in force and the step of a change of mode (2 turns off next, 1 takes the new mode next). -/
structure AuxS where
  mode : Nat := 0
  step : Nat := 0
  complRun : Nat := 0                  -- consecutive frames with the COMPLIANCE condition, or without it where the flag is set (R535)
  shortRun : Nat := 0
deriving DecidableEq, Repr

/-- Control engine, monitor ADC and sequencer, pins. -/
structure CeS where
  chains : Vector ChainS 64 := Vector.replicate 64 {}
  loops : Vector LoopS 64 := Vector.replicate 64 {}
  auxs : Vector AuxS 48 := Vector.replicate 48 {}
  ogLevel : Vector (Option Bool) 16 := Vector.replicate 16 none  -- the level a pin drives; none: an input
  snapDone : Bool := false             -- cycle 923 of the present frame has passed
  outDone : Bool := false              -- cycle 960 of the present frame has passed
  seq : List Nat := []                 -- the sequence entries in force, of the present or last pass
  pass : Option Nat := none            -- the entry being converted
  passStart : Nat := 0                 -- cc at which the pass started
  sampled : Nat := 0                   -- counter value at the latest sampling instant (R309)
  urgMode : Nat := 0                   -- MON_URGENT_MODE in force
  urgent : Option Nat := none          -- urgent conversion in progress: CHAN and RANGE as written
  urgHeld : Option Nat := none
  calPend : Bool := true               -- a monitor ADC calibration is triggered; once after POR (R271)
  calRun : Bool := false
  hold : Bool := false                 -- loops and sequencer held, until the first boundary after it (R272)
  release : Bool := false              -- CE_PAD_RELEASE for the next cycle 960
  trip : Bool := false                 -- thermal trip for the next cycle 960
  resume : Bool := false               -- THERM_AUTO_RESUME for the next cycle 960
  tempNew : Vector (Option Nat) 24 := Vector.replicate 24 none  -- as `newAt`, per sensor
deriving DecidableEq, Repr

/-! ## Shecalink ring (12_shecalink_ring.md) -/

/-- What an output sent last in place of an arriving code group: an ordered set, an own or a changed frame, or the arriving
frame as it came. -/
inductive RingTx where
  | idle
  | token
  | through
  | abort
  | topo (wrapped : Bool)
  | cutTopo (wrapped : Bool)           -- the ABORT of a frame that was passing, then TOPO (R346)
  | tokenTopo (wrapped : Bool)         -- the TOKEN after an own frame, then the TOPO that waited for its end
  | link (d : Nat)                     -- LINK with data byte `d` and IDLE, alternately (Table 12-4)
  | rateGo (code : Nat)
  | frame (bytes : List Byte)
deriving DecidableEq, Repr

/-- An own frame that waits for a TOKEN (R348). `out`: the port a BEACON leaves on; other frames take the wanted
direction. `seq`: the sequence byte where it is given (R374). -/
structure RingFrame where
  dest : Nat
  typ : Nat
  data : List Byte
  out : Option (Fin 2) := none
  seq : Option Nat := none
deriving DecidableEq, Repr

/-- What a ring port holds beside its entries: 0 SA, 1 SB. -/
structure PortS where
  maxRate : Nat := 3                   -- `RING_RATE_MAX` taken at the last entry to TRAIN (R344)
  same : Nat := 0                      -- LINKs in a row with the own TARGET (Table 12-3)
  atTarget : Bool := false             -- in TRAIN, switched to the agreed TARGET
  held : Bool := false                 -- held at the base rate (R342)
  byGo : Bool := false                 -- trains after a RATE_GO (R345)
  goIn : Bool := false                 -- its input switches when the other direction's RATE_GO arrives on it (R345)
  viols : List Nat := []               -- cc of the latest code violations in UP
  tx : RingTx := .idle
  line : List (BitVec 10) := []        -- the code groups of `tx` (R336)
  disp : Bool := false                 -- the running disparity after them: true, positive
  loopValid : Bool := false            -- has been UP (R343)
  passing : Bool := false              -- between SOF and the end of an arriving frame
  cut : Bool := false                  -- that frame is void: a code violation fell in it
  flight : Option (RingFrame × Nat) := none  -- own frame on its way, and the cc of its EOF
  topoDue : Option Bool := none        -- a TOPO that waits for the next ordered-set boundary (R346)
deriving DecidableEq, Repr

/-- The outstanding EVENT (R362). -/
structure RingEvent where
  seq : Nat
  dest : Nat
  data : List Byte
  rose : Nat
  time : Nat
  retries : Nat := 0
  again : Bool := false                -- to be sent again at the next TOKEN
deriving DecidableEq, Repr

/-- Ring agent and ports. -/
structure RingS where
  ports : Vector PortS 2 := Vector.replicate 2 {}
  queue : List RingFrame := []         -- oldest first
  seq : Nat := 0                       -- SEQ of the next own frame
  rateSet : Option (Nat × Nat) := none -- accepted RATE_SET: code and cc (R345)
  resetPend : Bool := false            -- a ring device reset waits for its reply (R361)
  resetGo : Bool := false              -- the EOF of that reply has left
  selvage : Bool := true               -- the selvage switches are closed (R347)
  crcAt : List Nat := []               -- cc of the rises of RING_CRC_ERR within one second, newest first (R363)
  event : Option RingEvent := none
  prbs : Vector PrbsChk 2 := Vector.replicate 2 .off
  pinj : Vector InjS 2 := Vector.replicate 2 {}
  preg : Vector PrbsReg 2 := Vector.replicate 2 {}
  rose : Nat := 0                      -- summary rises not yet sent (ROSE of the next EVENT, R362)
  roseTime : Nat := 0                  -- time of the first of them, TIME96
deriving DecidableEq, Repr

/-! ## Security (15_security.md) -/

/-- Life-cycle states (R452). -/
inductive LifeCycle where
  | manuf | provisioned | deployed | returned | scrapped
deriving DecidableEq, Repr

/-- Status of a firmware slot (R444), in the order of its codes. -/
inductive SlotSt where
  | empty | writing | valid | invalid | rollback | active | trial | failedTrial
deriving DecidableEq, Repr

/-- A firmware slot: its status and the bytes stored (R440, R444). -/
structure Slot where
  st : SlotSt := .empty
  image : List Byte := []
  writer : Option (Fin 18) := none     -- the requester whose download fills it
deriving DecidableEq, Repr

/-- One copy of the slot-state record in the flash (R441): the status of each slot, TRIAL among them, the preferred slot, the trial time
served; the CRC-32 it bears, none where the copy is erased or its write is not complete. -/
structure SlotRec where
  crc : Option Nat := none
  seq : Nat := 0
  st : Vector SlotSt 2 := Vector.replicate 2 .empty
  preferred : Fin 2 := 0
  served : Nat := 0
deriving DecidableEq, Repr

/-- The fuses that change or fail (R436, R437): three copies of LC, ID_KILL, MIN_SVN, KEY_REVOKE; `weak` names the MIN_SVN and
KEY_REVOKE bits whose read margin fails. -/
structure Otp where
  lc : Vector Nat 3 := Vector.replicate 3 0
  kill : Nat := 0
  minSvn : Nat := 0
  minSvnWeak : Nat := 0
  revoke : Nat := 0
  revokeWeak : Nat := 0
  seed : Nat := Config.fused 3 % (2 ^ 256 - 1) + 1  -- ID_SEED: programmed (log entry 4)
deriving DecidableEq, Repr

/-- Instructions of the test access port (Table 15-9). -/
inductive TapIr where
  | extest | idcode | sample | clamp | highz | token | access | scan | bypass
deriving DecidableEq, Repr

/-- The balls of the boundary register (R454, R533, Table 0-3): the low-speed digital ones, without OG0 to OG15. The order of their cells
in the register is the model's (DESIGN CHOICE, log entry 113). -/
inductive ScanBall where
  | twiScl | twiSda | qspiSck | qspiCsN | qspiIo0 | qspiIo1 | qspiIo2 | qspiIo3 | syncIn | syncOut | irqN | resetN | wake | refsel | twia1 | twia0
deriving DecidableEq, Repr

/-- The boundary register from its end at TDO. -/
def scanBalls : List ScanBall :=
  [.twiScl, .twiSda, .qspiSck, .qspiCsN, .qspiIo0, .qspiIo1, .qspiIo2, .qspiIo3, .syncIn, .syncOut, .irqN, .resetN, .wake, .refsel, .twia1, .twia0]

/-- The test access port: its 5-bit instruction register, the boundary register as last updated, what TDO shifted out last. After a reset
of the TAP the register holds IDCODE (IEEE 1149.1: PRESUMED, log entry 113). -/
structure TapS where
  ir : BitVec 5 := 1
  boundary : List Bool := List.replicate 16 false
  out : List Bool := []
deriving DecidableEq, Repr

/-- The key store (R450): the key-wrapping key, the private keys wrapped under it, the public keys. Empty where nothing is derived. -/
structure KeyStore where
  kwk : List Byte := []
  ed : List Byte := []                 -- the Ed25519 private key, wrapped
  ml : List Byte := []                 -- the ML-DSA-65 key-generation seed, wrapped
  pubEd : List Byte := []
  pubMl : List Byte := []
deriving DecidableEq, Repr

/-- Security block, firmware slots, TAP. -/
structure SecS where
  otp : Otp := {}
  lc : LifeCycle := .manuf             -- voted at POR, advanced by R453
  kill : Bool := false                 -- ID_KILL as voted
  minSvn : Nat := 0                    -- MIN_SVN as a number
  revoked : Nat := 0                   -- bit i: ROM key i revoked
  slots : Vector Slot 2 := Vector.replicate 2 {}
  preferred : Fin 2 := 0
  recs : Vector SlotRec 2 := Vector.replicate 2 {}  -- the slot-state record, written in turn (R441)
  recDue : Option (Fin 2) := none      -- the copy whose write is not complete
  keys : KeyStore := {}
  sram : List Host.Cell := []          -- the core's 1 MiB SRAM (R402): rising addresses; what is not listed is not known
  entry : Nat := 0                     -- the SRAM address at which the core was started (R442)
  fallback : Option (Fin 2) := none    -- of the trial that runs
  served : Nat := 0                    -- seconds of trial served, as recorded last
  servedAt : Nat := 0                  -- cc from which the count goes on while the core serves
  running : Option (Fin 2) := none     -- the slot whose skein runs; none: not booted, or recovery
  privLoad : Nat := 0                  -- memory protection (R449): SRAM address at which privileged CODE starts
  privLen : Nat := 0                   -- and its bytes; code outside is unprivileged
  recovery : Bool := false             -- the ROM serves (R443)
  fwNew : Bool := false                -- FW_ACTIVATED is owed at the next CORE_READY
  cert : List Byte := []               -- ID_CERT
  challenge : Nat := 0                 -- the number of the free value that SEC_CHALLENGE holds
  refusals : Nat := 0                  -- refusals with results 2 to 9 since POR
  lastRefusal : Option Nat := none     -- cc of the latest of them
  grants : Vector Nat 18 := Vector.replicate 18 0  -- DURATION of each Vendor grant
  grantAt : Vector Nat 18 := Vector.replicate 18 0
  dbgDur : Nat := 0                    -- DURATION of the debug session
  dbgAt : Nat := 0                     -- cc at which it opened
  halted : Bool := false               -- the core is halted through the debug port
  nonce : Option (List Byte) := none   -- an attestation report is being built
  tap : TapS := {}
deriving DecidableEq, Repr

/-! ## Self-test and repair (17_self_test.md) -/

/-- What a self-test tests (Table 17-1). -/
inductive BistTarget where
  | lane (n : Fin 16)
  | pg (k : Fin 4)
  | engine
  | sram
  | keyStore
  | bank (b : Fin 8)
  | otp
  | rom
deriving DecidableEq, Repr

/-- A mapped row of a repairable memory (R507): the memory in the order of `REPAIR_STATE`, the row, fused or soft. -/
structure RepairMap where
  mem : Nat
  row : Nat
  fused : Bool
deriving DecidableEq, Repr

/-- Self-test. -/
structure BistS where
  running : Option BistTarget := none
  startCc : Nat := 0                   -- cc of its first operation
  failing : Option (BistTarget × List Nat) := none  -- failing rows that wait for repair (R507)
  maps : List RepairMap := []
deriving DecidableEq, Repr

/-- The whole machine. -/
structure State where
  pending : List Instr := []           -- the commands that wait, first in, first out
  now : Nat := 0                       -- cc since reset (idle steps)
  free : Nat := 1                      -- how many free values were drawn; the first is SEC_CHALLENGE (log entry 2)
  store : Store := [(K.OD_CORE_STATE, 1)]
  od : OdS := {}
  clk : ClkS := {}
  time : TimeS := {}
  mgmt : MgmtS := {}
  pwr : PwrS := {}
  lanes : Vector LaneS 16 := Vector.ofFn fun n => { ss := fusedSs n }
  hosts : Vector HostS 32 := Vector.replicate 32 {}
  pgs : Vector PgS 4 := Vector.replicate 4 {}
  ce : CeS := {}
  ring : RingS := {}
  sec : SecS := {}
  bist : BistS := {}
deriving DecidableEq, Repr

/-- The machine right after reset (log entry 9): power-on reset has ended, straps and fuses are read, the power-up sequence
waits at step 8 for a root (Table 16-2); every register holds its reset value. The straps are latched low: which level a board gives
REFSEL the spec leaves open, so that `CLK_REF_SRC` begins at 0 here is a DESIGN CHOICE (R14, R515; log entry 88). -/
def State.reset : State := {}

end Sys2Proof.Machine
end

