-- ==== Sys2Proof/Machine/Ops.lean ====
section
/-!
DEFINITION. The named operations over the state: the register store (R366, R372, R490), the units' records,
free values, and byte strings. Every register is read and written through `rd` and `wr` and their forms.
-/

namespace Sys2Proof.Machine

/-! ## Byte strings (R10, R367): most significant byte first -/

/-- The low `n` bytes of a number, most significant byte first. -/
def be : Nat → Nat → List Byte
  | 0, _ => []
  | n + 1, v => BitVec.ofNat 8 (v / 256 ^ n) :: be n v

/-- The number a byte string spells, most significant byte first. -/
def beNat (l : List Byte) : Nat := l.foldl (fun acc b => acc * 256 + b.toNat) 0

/-- `n` bytes of `l` from byte `i`. -/
def slice (l : List Byte) (i n : Nat) : List Byte := (l.drop i).take n

/-- The signed value of a raw two's-complement number of `w` bits. -/
def sx (w v : Nat) : Int := if v % 2 ^ w < 2 ^ (w - 1) then (v % 2 ^ w : Nat) else (v % 2 ^ w : Nat) - (2 ^ w : Nat)

/-- The raw two's-complement number of `w` bits of a signed value. -/
def zx (w : Nat) (i : Int) : Nat := (i % (2 ^ w : Nat)).toNat

/-- Saturate a signed value to a range. -/
def clampI (lo hi i : Int) : Int := if i < lo then lo else if hi < i then hi else i

/-- Bit `i` of a number. -/
def bitOf (v i : Nat) : Bool := v.testBit i

/-- A number with bit `i` set to `b`. -/
def withBit (v i : Nat) (b : Bool) : Nat :=
  if v.testBit i == b then v else if b then v + 2 ^ i else v - 2 ^ i

/-- Field [hi:lo] of a number. -/
def field (v hi lo : Nat) : Nat := v / 2 ^ lo % 2 ^ (hi + 1 - lo)

/-- A number with field [hi:lo] replaced. -/
def withField (v hi lo x : Nat) : Nat :=
  v - field v hi lo * 2 ^ lo + (x % 2 ^ (hi + 1 - lo)) * 2 ^ lo

/-- A quotient whose rounding the spec does not state: exact where exact, else one of the two neighbours
(log entry 3). -/
def divOpen (a : Int) (b : Nat) : Int :=
  if a % (b : Int) = 0 then a / (b : Int)
  else if Config.roundUp a b then a / (b : Int) + 1 else a / (b : Int)

/-! ## Reset values -/

/-- Default `MB_CFG` of a channel (Table 14-7): SENDER in [12:8], RECEIVER in [4:0]. -/
def mbCfgReset (c : Nat) : Nat :=
  match c with
  | 0 => 20 * 256 + 18
  | 1 => 18 * 256 + 20
  | 2 => 16 * 256 + 18
  | 3 => 18 * 256 + 16
  | 4 => 20 * 256 + 16
  | 5 => 16 * 256 + 20
  | _ => 31 * 256 + 31

/-- The reset value of an entry: its table's, or the one its chapter gives per unit. -/
def resetOf (k : Key) : Nat :=
  match k.blk, k.off, k.sub with
  | .line n, 0x06, 2 => n.val
  | .line n, 0x06, 3 => n.val
  | .mb c, 0, 1 => mbCfgReset c.val
  | .chain _, 0x02, 1 => 16384
  | .chain _, 0x03, 1 => 16384
  | _, _, _ =>
    match entryOf k with
    | some e => e.reset
    | none => 0

/-! ## The register store -/

namespace Store

/-- The listed value of an entry. -/
def find (k : Key) : Store → Option Nat
  | [] => none
  | (k', v) :: r => if k' = k then some v else find k r

/-- The value an entry reads as: listed, or its reset value. -/
def get (m : Store) (k : Key) : Nat := (find k m).getD (resetOf k)

/-- Put a pair in its place in the order of keys. -/
def insert (k : Key) (v : Nat) : Store → Store
  | [] => [(k, v)]
  | (k', v') :: r => if Key.lt k k' then (k, v) :: (k', v') :: r else (k', v') :: insert k v r

/-- The store without an entry. -/
def erase (m : Store) (k : Key) : Store := m.filter fun p => decide (p.1 ≠ k)

/-- Write an entry; an entry at its reset value is not listed. -/
def set (m : Store) (k : Key) (v : Nat) : Store :=
  if v = resetOf k then erase m k else insert k v (erase m k)

/-- The canonical form: keys rising, no listed value equal to the reset value. -/
def wf : Store → Bool
  | [] => true
  | (k, v) :: r => (v != resetOf k) && (r.all fun p => Key.lt k p.1) && wf r

end Store

/-! ## Reading and writing registers -/

/-! ## The core's SRAM (R402, R442, R458): rising addresses; a byte that is not listed is not known -/

/-- The byte at an address, where it is known. -/
def Memory.read (m : List Host.Cell) (a : Nat) : Option Byte := (m.find? fun c => c.1 == a).map (·.2)

/-- A byte is written. -/
def Memory.write : List Host.Cell → Nat → Byte → List Host.Cell
  | [], a, b => [(a, b)]
  | c :: m, a, b => if a < c.1 then (a, b) :: c :: m else if a = c.1 then (a, b) :: m else c :: Memory.write m a b

/-- Bytes in a row from an address, as a memory that knows no others. -/
def Memory.block : Nat → List Byte → List Host.Cell
  | _, [] => []
  | a, b :: l => (a, b) :: Memory.block (a + 1) l

/-- The canonical form: addresses strictly rising. -/
abbrev Memory.wf (m : List Host.Cell) : Prop := m.Pairwise fun c d => c.1 < d.1

namespace State

/-- Read an entry, raw. -/
def rd (s : State) (k : Key) : Nat := s.store.get k

/-- Write an entry, raw: the entry holds the low bits its type has (R367). -/
def wr (s : State) (k : Key) (v : Nat) : State := { s with store := s.store.set k (v % 2 ^ bitsOf k) }

/-- Read a signed entry. -/
def rdI (s : State) (k : Key) : Int := sx (bitsOf k) (s.rd k)

/-- Write a signed entry. -/
def wrI (s : State) (k : Key) (i : Int) : State := s.wr k (zx (bitsOf k) i)

/-- Read bit `i` of an entry. -/
def bit (s : State) (k : Key) (i : Nat) : Bool := (s.rd k).testBit i

/-- Is an entry nonzero? For BOOL entries. -/
def on (s : State) (k : Key) : Bool := s.rd k != 0

/-- Write bit `i` of an entry. -/
def wrBit (s : State) (k : Key) (i : Nat) (b : Bool) : State := s.wr k (withBit (s.rd k) i b)

/-- Write field [hi:lo] of an entry. -/
def wrField (s : State) (k : Key) (hi lo x : Nat) : State := s.wr k (withField (s.rd k) hi lo x)

/-- Increment a saturating counter by `n`. -/
def addSat (s : State) (k : Key) (n : Nat) : State := s.wr k (min (s.rd k + n) (2 ^ bitsOf k - 1))

/-- Increment a saturating counter. -/
def incSat (s : State) (k : Key) : State := s.addSat k 1

/-- Increment a wrapping counter. -/
def incWrap (s : State) (k : Key) : State := s.wr k (s.rd k + 1)

/-- Return an entry to its reset value. -/
def clr (s : State) (k : Key) : State := { s with store := s.store.erase k }

/-- Return several entries to their reset values. -/
def clrAll (s : State) (ks : List Key) : State := ks.foldl clr s

/-- Return every entry that a test names to its reset value. -/
def resetEntries (s : State) (p : Key → Bool) : State := { s with store := s.store.filter fun e => !p e.1 }

/-- Draw a free value (log entry 2): the value is that of an opaque constant, and the counter moves on. -/
def fresh (s : State) : Nat × State := (Config.freeNat s.free, { s with free := s.free + 1 })

/-! ## The saved configuration (R373) -/

/-- The copy a load takes: the valid copy with the higher sequence number. -/
def bestCopy (s : State) : Option FlashCopy :=
  let a := s.od.copies.get 0
  let b := s.od.copies.get 1
  if a.valid && (!b.valid || b.seq ≤ a.seq) then some a else if b.valid then some b else none

/-- The saved values; with no valid copy the defaults, that is nothing listed. -/
def savedStore (s : State) : Store := (s.bestCopy.map (·.vals)).getD []

/-- Does a value of an entry differ from the flash copy (R373)? With no valid copy every value does. -/
def notInCopy (s : State) (k : Key) (v : Nat) : Bool :=
  match s.bestCopy with
  | some c => v != c.vals.get k
  | none => true

/-- A save of the configuration starts (R373): a fence, the end of an outage, `AVAIL_CLEAR`, step E4, Off. -/
def startSave (s : State) : State := { s with od := { s.od with saving := true, saveTimer := false } }

/-! ## Units -/

/-- Replace the requester's record. -/
def modReq (s : State) (r : Fin 18) (f : Requester → Requester) : State :=
  { s with od := { s.od with reqs := s.od.reqs.set r (f (s.od.reqs.get r)) } }

/-- A requester's record. -/
def req (s : State) (r : Fin 18) : Requester := s.od.reqs.get r

/-- A power unit's record. -/
def unit (s : State) (u : Fin 22) : PwrUnit := s.pwr.units.get u

/-- Replace a power unit's record. -/
def modUnit (s : State) (u : Fin 22) (f : PwrUnit → PwrUnit) : State :=
  { s with pwr := { s.pwr with units := s.pwr.units.set u (f (s.pwr.units.get u)) } }

/-- A line lane's record. -/
def lane (s : State) (n : Fin 16) : LaneS := s.lanes.get n

/-- Replace a line lane's record. -/
def modLane (s : State) (n : Fin 16) (f : LaneS → LaneS) : State :=
  { s with lanes := s.lanes.set n (f (s.lanes.get n)) }

/-- A host lane's record. -/
def host (s : State) (m : Fin 32) : HostS := s.hosts.get m

/-- Replace a host lane's record. -/
def modHost (s : State) (m : Fin 32) (f : HostS → HostS) : State :=
  { s with hosts := s.hosts.set m (f (s.hosts.get m)) }

/-- A port group's record. -/
def pg (s : State) (k : Fin 4) : PgS := s.pgs.get k

/-- Replace a port group's record. -/
def modPg (s : State) (k : Fin 4) (f : PgS → PgS) : State := { s with pgs := s.pgs.set k (f (s.pgs.get k)) }

/-- An accepted write waits for its boundary (R388); `READ` returns its value meanwhile (R386). -/
def defer (s : State) (b : Bound) (r : Fin 18) (k : Key) (data : List Byte) : State :=
  { s with od := { s.od with waiting := s.od.waiting ++ [{ req := r, epoch := (s.od.reqs.get r).epoch, bound := b, grp := false, writes := [(k, data)] }] } }

def modOd (s : State) (f : OdS → OdS) : State := { s with od := f s.od }

/-- Writes of the entries `p` that still wait for a boundary are superseded by a later one that acts at once. -/
def dropWaiting (s : State) (p : Key → Bool) : State :=
  s.modOd fun o => { o with waiting := o.waiting.map fun g => { g with writes := g.writes.filter fun w => !p w.1 } }

def modClk (s : State) (f : ClkS → ClkS) : State := { s with clk := f s.clk }
def modTime (s : State) (f : TimeS → TimeS) : State := { s with time := f s.time }
def modMgmt (s : State) (f : MgmtS → MgmtS) : State := { s with mgmt := f s.mgmt }
def modPwr (s : State) (f : PwrS → PwrS) : State := { s with pwr := f s.pwr }

end State

/-- Count a periodic injection up to cc `now`, at `num/den` units a cc: how many multiples of `period` were passed, and the
count carried on. -/
def InjS.advance (i : InjS) (now num den period : Nat) : Nat × InjS :=
  let u := max i.n (i.base + (now - i.start) * num / den)
  (if period = 0 then 0 else u / period - i.n / period, { i with n := u })

/-- A count goes on from cc `now`, at another rate from there. -/
def InjS.rebase (i : InjS) (now : Nat) : InjS := { i with start := now, base := i.n }

/-- Apply a change for each unit of a list, in order. -/
def forAll {α : Type} (l : List α) (f : α → State → State) (s : State) : State := l.foldl (fun s a => f a s) s

/-- All units of a kind. -/
def allFin (n : Nat) : List (Fin n) := List.finRange n

/-- A change made only under a condition. -/
def when_ (c : Bool) (f : State → State) (s : State) : State := if c then f s else s

/-- The power unit of a line lane (Table 16-3). -/
def laneUnit (n : Fin 16) : Fin 22 := ⟨n.val, by omega⟩

/-- The power unit of a port group (Table 16-3). -/
def pgUnit (k : Fin 4) : Fin 22 := ⟨16 + k.val, by omega⟩

/-- The port group of a line lane (R11). -/
def pgOf (n : Fin 16) : Fin 4 := ⟨n.val / 4, by omega⟩

/-- The four line lanes of a port group (R11). -/
def lanesOf (k : Fin 4) : List (Fin 16) :=
  [⟨4 * k.val, by omega⟩, ⟨4 * k.val + 1, by omega⟩, ⟨4 * k.val + 2, by omega⟩, ⟨4 * k.val + 3, by omega⟩]

/-- Host lane H(2n) of line lane Ln (R11). -/
def hostA (n : Fin 16) : Fin 32 := ⟨2 * n.val, by omega⟩

/-- Host lane H(2n+1) of line lane Ln (R11). -/
def hostB (n : Fin 16) : Fin 32 := ⟨2 * n.val + 1, by omega⟩

/-- The line lane that carries a host lane (R11). -/
def lineOfHost (m : Fin 32) : Fin 16 := ⟨m.val / 2, by omega⟩

/-- The port group of a host lane (R11). -/
def pgOfHost (m : Fin 32) : Fin 4 := ⟨m.val / 8, by omega⟩

/-- The eight host lanes of a port group (R11). -/
def hostsOf (k : Fin 4) : List (Fin 32) := (allFin 8).map fun j => ⟨8 * k.val + j.val, by omega⟩

/-- cc in one millisecond and in one second: 225 cc last exactly 128 ns (R277). -/
def ccPerSecond : Nat := 1757812500

/-- A time in cc as whole microseconds, rounded down. -/
def ccToUs (cc : Nat) : Nat := cc * 128 / 225000

end Sys2Proof.Machine
end

