-- ==== Sys2Proof/Machine/Flags.lean ====
section
/-!
DEFINITION. Time stamps, the event recorder's queue (R426, R427) and the interrupt tree (R431 to R434): the
operations every other family uses to report what happened.
-/

namespace Sys2Proof.Machine

/-! ## Time stamps (R276, R277) -/

/-- One second in the counter's units of 2^-40 ns. -/
def secUnits : Nat := 1000000000 * 2 ^ 40

/-- The counter as TIME96: SECONDS [95:48], NANOSECONDS [47:16], FRACTION [15:0]; reads truncate (R276, R277). -/
def time96 (c : Nat) : Nat :=
  (c / secUnits % 2 ^ 48) * 2 ^ 48 + (c % secUnits / 2 ^ 40) * 2 ^ 16 + c % 2 ^ 40 / 2 ^ 24

/-- A TIME96 as a number in the counter's units. -/
def ofTime96 (t : Nat) : Nat := (t / 2 ^ 48) * secUnits + (t / 2 ^ 16 % 2 ^ 32) * 2 ^ 40 + (t % 2 ^ 16) * 2 ^ 24

/-- The time unit's value now, as TIME96. -/
def State.timeNow (s : State) : Nat := time96 s.time.counter

/-- Does the counter run (RUNNING of Table 10-3)? -/
def State.running (s : State) : Bool := s.bit K.TIME_STATUS 0

/-! ## Event recorder: arrival of a record (R426, R427) -/

/-- Put a record in its place in the queue: records of one cc in order of kind and then of unit (R427). -/
def recInsert (e : Rec) : List Rec → List Rec
  | [] => [e]
  | q :: r =>
    if e.cc == q.cc && (e.kind < q.kind || (e.kind == q.kind && e.unit < q.unit)) then e :: q :: r
    else q :: recInsert e r

/-- A record arrives at the recorder: queued, or dropped and counted when 32 wait (R427). TIME is the time of the
event, 0 while the counter is not running (Table 14-11). -/
def State.record (s : State) (kind unit : Nat) (data : List Byte) : State :=
  if s.mgmt.recQ.length ≥ 32 then s.incSat K.EVR_DROPPED
  else s.modMgmt fun m =>
    { m with recQ := recInsert ⟨s.now, if s.running then s.timeNow else 0, kind, unit, data⟩ m.recQ }

/-! ## Interrupt tree -/

/-- A leaf source of Table 14-16: its group and its bit. -/
structure Src where
  g : Fin 32
  b : Nat
deriving DecidableEq, Repr

/-- The summary register: bit g is 1 while IRQ_CAUSE AND IRQ_ENABLE of group g is not zero (R432). -/
def State.groupOn (s : State) (g : Fin 32) : Bool := (s.rd (K.IRQ_CAUSE g) &&& s.rd (K.IRQ_ENABLE g)) != 0

/-- `IRQ_SUMMARY` (R432). -/
def State.summary (s : State) : Nat :=
  (allFin 32).foldl (fun acc g => if s.groupOn g then acc + 2 ^ g.val else acc) 0

/-- The device drives IRQ_N low (R432); also `IRQ_PIN_STATE`. -/
def State.irqLow (s : State) : Bool := (s.summary &&& s.rd K.IRQ_PIN_MASK) != 0

/-- A rise of summary bit g is mirrored in an EVENT only while the bit of `IRQ_EVENT_MASK` is 1 (R433): it is ORed
into ROSE, with the time of the first rise (R362). The ring sends the EVENT at a TOKEN. -/
def State.summaryRise (s : State) (g : Fin 32) : State :=
  if s.bit K.IRQ_EVENT_MASK g.val then
    { s with ring := { s.ring with
        roseTime := if s.ring.rose = 0 then s.timeNow else s.ring.roseTime
        rose := s.ring.rose ||| 2 ^ g.val } }
  else s

/-- Change a group's cause or enable register and follow its summary bit (R432, R433). -/
def State.followSummary (s : State) (g : Fin 32) (f : State → State) : State :=
  if !s.groupOn g && (f s).groupOn g then (f s).summaryRise g else f s

/-- A source event: its cause bit sets whether or not it is enabled, `IRQ_FIRST` takes the time when the register
was all zero (R431, Table 14-14). -/
def State.raise (s : State) (x : Src) : State :=
  s.followSummary x.g fun s =>
    let c := s.rd (K.IRQ_CAUSE x.g)
    let s1 := if c = 0 then s.wr (K.IRQ_FIRST x.g) s.timeNow else s
    s1.wr (K.IRQ_CAUSE x.g) (c ||| 2 ^ x.b)

/-- Raise a source and set a bit of its detail register (the registers that are cleared on read). -/
def State.raiseIn (s : State) (x : Src) (detail : Key) (b : Nat) : State :=
  (s.wr detail (s.rd detail ||| 2 ^ b)).raise x

namespace Src

/-- Group of a line lane's sources. -/
def lineG (n : Fin 16) : Fin 32 := ⟨n.val, by omega⟩
/-- Group of a port group's sources. -/
def pgG (k : Fin 4) : Fin 32 := ⟨16 + k.val, by omega⟩

def LINE_LOS (n : Fin 16) : Src := ⟨lineG n, 0⟩
def FRAME_LOCK_CHG (n : Fin 16) : Src := ⟨lineG n, 1⟩
def INNER_FEC_ALARM (n : Fin 16) : Src := ⟨lineG n, 2⟩
def LATENCY_CHG (n : Fin 16) : Src := ⟨lineG n, 3⟩
def TX_FAULT (n : Fin 16) : Src := ⟨lineG n, 4⟩
def RX_ADAPT_ALARM (n : Fin 16) : Src := ⟨lineG n, 5⟩
def LQM_SNR_LOW (n : Fin 16) : Src := ⟨lineG n, 6⟩
def SWATCH_DONE (n : Fin 16) : Src := ⟨lineG n, 7⟩
def HOST_LOS (k : Fin 4) : Src := ⟨pgG k, 0⟩
def HOST_ALIGN_CHG (k : Fin 4) : Src := ⟨pgG k, 1⟩
def HOST_FREQ_OFFSET (k : Fin 4) : Src := ⟨pgG k, 2⟩
def GEARBOX_EVENT (k : Fin 4) : Src := ⟨pgG k, 3⟩
def HOST_FEC_ALARM (k : Fin 4) : Src := ⟨pgG k, 4⟩
def RING_PORT_CHG : Src := ⟨20, 0⟩
def RING_WRAP_CHG : Src := ⟨20, 1⟩
def RING_RATE_CHG : Src := ⟨20, 2⟩
def RING_RATE_FAIL : Src := ⟨20, 3⟩
def RING_ENUM : Src := ⟨20, 4⟩
def RING_ENUM_OVERFLOW : Src := ⟨20, 5⟩
def RING_CLAIM : Src := ⟨20, 6⟩
def OWNERSHIP_CONFLICT : Src := ⟨20, 7⟩
def RING_CRC_ALARM : Src := ⟨20, 8⟩
def RING_TOKEN_LOSS : Src := ⟨20, 9⟩
def RING_COLLISION : Src := ⟨20, 10⟩
def RING_EVENT_UNACKED : Src := ⟨20, 11⟩
def TIME_SET_DONE : Src := ⟨21, 0⟩
def TIME_STEP_DONE : Src := ⟨21, 1⟩
def TIME_HOLDOVER_CHG : Src := ⟨21, 2⟩
def TIME_OFFSET_ALARM : Src := ⟨21, 3⟩
def SYNC_IN_EDGE : Src := ⟨21, 4⟩
def SYNC_IN_FAULT : Src := ⟨21, 5⟩
def LINE_TIME_RESULT : Src := ⟨21, 6⟩
def LINE_TIME_FAULT : Src := ⟨21, 7⟩
def RING_BEACON_FAULT : Src := ⟨21, 8⟩
def TIME_COMP_HELD : Src := ⟨21, 9⟩
def CE (i : Nat) : Src := ⟨22, i⟩
def MON (i : Nat) : Src := ⟨23, i⟩
def TEMP_SENSOR_BROKEN : Src := ⟨24, 0⟩
def TEMP_WARN_HIGH : Src := ⟨24, 1⟩
def TEMP_WARN_LOW : Src := ⟨24, 2⟩
def TEMP_FAST_SAMPLE : Src := ⟨24, 3⟩
def THERMAL_TRIP : Src := ⟨24, 4⟩
def THERMAL_RESTART : Src := ⟨24, 5⟩
def TEMP_SENSOR_RESTORED : Src := ⟨24, 6⟩
def TRIP_TEST_DONE : Src := ⟨24, 7⟩
def CLK_REF_LOSS : Src := ⟨25, 0⟩
def CLK_REF_RESTORED : Src := ⟨25, 1⟩
def VIN_UNDER : Src := ⟨25, 2⟩
def VIN_OVER : Src := ⟨25, 3⟩
def REG_FAULT : Src := ⟨25, 4⟩
def PWR_TRANSITION_DONE : Src := ⟨25, 5⟩
def PWR_ENTRY_REFUSED : Src := ⟨25, 6⟩
def PWR_ENTRY_ABORTED : Src := ⟨25, 7⟩
def PWR_REQ_REPLACED : Src := ⟨25, 8⟩
def RETENTION_FAIL : Src := ⟨25, 9⟩
def SKEIN_AUTH_FAIL : Src := ⟨26, 0⟩
def ROLLBACK_REFUSED : Src := ⟨26, 1⟩
def DEBUG_OPENED : Src := ⟨26, 2⟩
def DEBUG_UNLOCK_FAIL : Src := ⟨26, 3⟩
def VENDOR_TOKEN_FAIL : Src := ⟨26, 4⟩
def LIFE_CYCLE_CHG : Src := ⟨26, 5⟩
def OTP_FAULT : Src := ⟨26, 6⟩
def ATTEST_DONE : Src := ⟨26, 7⟩
def CORE_READY : Src := ⟨27, 0⟩
def MRST_DONE : Src := ⟨27, 1⟩
def WATCHDOG_RESET : Src := ⟨27, 2⟩
def FW_ACTIVATED : Src := ⟨27, 3⟩
def FW_SLOT_WRITTEN : Src := ⟨27, 4⟩
def FW_UPDATE_FAIL : Src := ⟨27, 5⟩
def FLASH_FAULT : Src := ⟨27, 6⟩
def CFG_SAVE_FAIL : Src := ⟨27, 7⟩
def SRAM_CORRECTED : Src := ⟨27, 8⟩
def SRAM_UNCORRECTABLE : Src := ⟨27, 9⟩
def PC_OVERFLOW : Src := ⟨27, 10⟩
def PL_CHG : Src := ⟨27, 11⟩
def EVR_NEW : Src := ⟨28, 0⟩
def EVR_WATERMARK : Src := ⟨28, 1⟩
def EVR_OVERWRITE : Src := ⟨28, 2⟩
def EVR_FIXED_FULL : Src := ⟨28, 3⟩
def SLICE_FAIL : Src := ⟨29, 0⟩
def FG_CAL_FAIL : Src := ⟨29, 1⟩
def BIST_DONE : Src := ⟨29, 2⟩
def BIST_FAIL : Src := ⟨29, 3⟩
def REPAIR_APPLIED : Src := ⟨29, 4⟩
def REPAIR_EXHAUSTED : Src := ⟨29, 5⟩
def MB_MSG : Src := ⟨30, 0⟩
def MB_EMPTY : Src := ⟨30, 1⟩
def MB_RX_RESET : Src := ⟨30, 2⟩
def MB_TX_RESET : Src := ⟨30, 3⟩
def LK_RELEASED : Src := ⟨30, 4⟩
def LK_FORCED : Src := ⟨30, 5⟩
def SW_IRQ (i : Nat) : Src := ⟨31, i⟩

end Src

/-- The number of sources of a group (Table 14-16): bits beyond it are reserved. -/
def groupBits (g : Nat) : Nat :=
  if g < 16 then 8 else if g < 20 then 5
  else match g with
    | 20 => 12 | 21 => 10 | 22 => 16 | 23 => 10 | 24 => 8 | 25 => 10 | 26 => 8 | 27 => 12
    | 28 => 4 | 29 => 6 | 30 => 6 | _ => 6

end Sys2Proof.Machine
end

