-- ==== Sys2Proof/Machine/Operands.lean ====
section
/-!
DEFINITION. What a write of an entry must pass (Table 13-9): type and length, range, reserved bits and
conditions of the entry (step 12), unit down (step 13), state conditions (step 14), and who may write
(steps 5 to 10). Every family's conditions on its entries' values and states stand here, once.
-/

namespace Sys2Proof.Machine

/-- Abort codes (Table 13-10). -/
inductive Abort where
  | toggle | segTimeout | badCmd | size | noTransfer | access | role | notOwner | lifeCycle | noEntry | length
  | noSubindex | outOfRange | unitUp | inUse | notReadable | coreReset | groupSpan | groupFull | noGroup
  | groupLost | requesterAbort | flash
deriving DecidableEq, Repr

/-- The 32-bit code of Table 13-10. -/
def Abort.code : Abort → Nat
  | .toggle => 0x05030000 | .segTimeout => 0x05040000 | .badCmd => 0x05040001 | .size => 0x05040005
  | .noTransfer => 0x05040007 | .access => 0x06010000 | .role => 0x06010001 | .notOwner => 0x06010002
  | .lifeCycle => 0x06010003 | .noEntry => 0x06020000 | .length => 0x06070010 | .noSubindex => 0x06090011
  | .outOfRange => 0x06090030 | .unitUp => 0x08000020 | .inUse => 0x08000021 | .notReadable => 0x08000022
  | .coreReset => 0x08000023 | .groupSpan => 0x08000024 | .groupFull => 0x08000025 | .noGroup => 0x08000026
  | .groupLost => 0x08000027 | .requesterAbort => 0x08000028 | .flash => 0x08000029

/-- What a request is answered with. -/
inductive Verdict where
  | ok
  | abort (a : Abort)
  | busy
  | busyTest
deriving DecidableEq, Repr

/-- The number kept in `Requester.outcome`. -/
def Verdict.num : Verdict → Nat
  | .ok => 0 | .busy => 2 | .busyTest => 3 | .abort a => a.code

/-! ## Requests as bytes (Tables 13-5, 13-6) -/

/-- A request's command byte and tag, the entry it names, the data after it. -/
def reqCmd (b : List Byte) : Nat := ((b[0]?).getD 0).toNat
def reqTag (b : List Byte) : Nat := ((b[1]?).getD 0).toNat
def reqKey (b : List Byte) : Key := Key.ofIndex (beNat (slice b 2 2)) (beNat (slice b 4 1))
def reqData (b : List Byte) : List Byte := b.drop 5

namespace State

/-! ## Requesters and roles (R370, R371) -/

/-- Is requester `r` the ring owner (R358)? -/
def isOwner (s : State) (r : Fin 18) : Bool :=
  s.rd K.RING_OWNER_EPOCH != 0 && r.val < 16 && s.rd K.RING_OWNER_HOST == r.val

/-- The requester's role (Table 13-4); a Vendor grant raises it (R370, R460). -/
def roleOf (s : State) (r : Fin 18) : Role :=
  if s.bit K.SEC_VENDOR_HOLDERS r.val then .vendor
  else if r.val = 17 then .vendor
  else if r.val = 16 then
    match s.rd K.OD_TWI_ROLE with
    | 0 => .observer
    | 1 => .operator
    | _ => .owner
  else if s.isOwner r then .owner else .observer

/-- The four entries exempt from ownership (R371). -/
def ownershipExempt (k : Key) : Bool :=
  match k.blk, k.off, k.sub with
  | .dev, 0x9000, 0x0A => true
  | .dev, 0x9411, _ => true
  | .mb _, 0, 3 => true
  | .mb _, 0, 4 => true
  | _, _, _ => false

/-- A ring write from a host that is not the owner is refused (R371). -/
def notOwnerRefuses (s : State) (r : Fin 18) (k : Key) : Bool :=
  r.val < 16 && !s.isOwner r && !ownershipExempt k

/-- The index lies in the vendor range (R370). -/
def vendorIndex (k : Key) : Bool := 0xF000 ≤ k.index

/-! ## Core (R379, R380) -/

/-- Reads that need the core: 0xA000 and 0xF000 areas, and content that lives only in flash (R379). -/
def readNeedsCore (k : Key) : Bool := (0xA000 ≤ k.index && k.index < 0xB000) || vendorIndex k

/-- Writes the fast path serves without the core: interrupt tree, mailboxes, locks, counters, recorder (R379); no other. -/
def fastWrite (k : Key) : Bool :=
  let i := k.index
  (0x9010 ≤ i && i < 0x9040) || (0x9200 ≤ i && i < 0x9308) || (0x9400 ≤ i && i < 0x942C) ||
  (0xC000 ≤ i && i < 0xC011)

/-- The core is available (R380): serving, that is not in reset, booting or activating. -/
def coreUp (s : State) : Bool := s.rd K.OD_CORE_STATE == 0

/-- The scan level is open: TWI and the fast path are not served (R459). -/
def scanOn (s : State) : Bool := field (s.rd K.SEC_DEBUG_STATE) 1 0 == 2

/-- The regulators run. -/
def supplied (s : State) : Bool := s.pwr.supply == .starting || s.pwr.supply == .booting || s.pwr.supply == .up

/-- The device has power and is not held in reset: elsewhere only the wake logic runs (R482, R487). -/
def powered (s : State) : Bool := !s.pwr.resetLow && s.supplied

/-- The core is at work: its unit in Run, or on its way to the idle point of a step E1, and not halted (R458, R476, R477). -/
def coreAwake (s : State) : Bool :=
  s.powered && !s.scanOn && !s.sec.halted && s.rd (K.PWR_STATE 21) == 0 &&
    (match (s.unit 21).trans with | .still | .entering 1 _ => true | _ => false)

/-- The entry is served although it needs the core: by the core, or in recovery by the ROM, which serves 0xA000 to 0xA020
(R443). -/
def coreServes (s : State) (k : Key) : Bool :=
  s.coreUp || (s.sec.recovery && 0xA000 ≤ k.index && k.index ≤ 0xA020)

/-! ## Administrative state (R180, Table 13-3) -/

/-- Ln is administratively down: in C0 with `LINE_ADMIN` = 0 (R180). -/
def laneDown (s : State) (n : Fin 16) : Bool := s.rd (K.LINE_CO_PHASE n) == 0 && s.rd (K.LINE_ADMIN n) == 0

/-- The lane's power unit is in Run (R474). -/
def inRun (s : State) (n : Fin 16) : Bool := s.rd (K.PWR_STATE (laneUnit n)) == 0

/-- The unit's power switch is open: what it drives is clamped and its interrupt sources are quiet (R483). -/
def clamped (s : State) (u : Fin 22) : Bool := s.rd (K.PWR_STATE u) == 3

/-- No lane or DAC calibration of the lane is running or due (R269). -/
def calIdle (s : State) (n : Fin 16) : Bool := !(s.lane n).calLane && !(s.lane n).calDac && !(s.lane n).calDacDue

/-- A self-test holds the lane or its port group (R504, R505). -/
def laneTested (s : State) (n : Fin 16) : Bool := s.bist.running == some (.lane n) || s.bist.running == some (.pg (pgOf n))

/-- Every line lane is down. -/
def allDown (s : State) : Bool := (allFin 16).all s.laneDown

/-- Every line lane of the port group is down. -/
def pgDown (s : State) (k : Fin 4) : Bool := (lanesOf k).all s.laneDown

/-- The unit of an RWD entry is administratively down (Table 13-3). -/
def unitDown (s : State) (b : Blk) : Bool :=
  match b with
  | .line n => s.laneDown n
  | .host m => s.laneDown (lineOfHost m)
  | .pg k => s.pgDown k
  | _ => s.allDown

/-! ## Self-test (R381, Table 17-4) -/

/-- The request's entry lies in a memory under self-test (Table 17-4). `write` with its value. -/
def busyTest (s : State) (k : Key) (write : Option Nat) (needsCore : Bool) : Bool :=
  match s.bist.running with
  | none => false
  | some (.lane n) =>
    k.blk == .line n && ((0x06 ≤ k.off && k.off ≤ 0x08) || (0x10 ≤ k.off && k.off ≤ 0x1F) || (0x23 ≤ k.off && k.off ≤ 0x26))
  | some (.pg p) => k.blk == .pg p && (k.off == 5 || k.off == 6)
  | some .engine =>
    (0x6100 ≤ k.index && k.index ≤ 0x653F) || (0x7100 ≤ k.index && k.index ≤ 0x743F) ||
    (k == K.MON_SEQ_LEN && (match write with | some v => v != 0 | none => false))
  | some .sram => needsCore
  | some .keyStore => k.index == 0xA020
  | some _ => false

/-- Steps 8 to 10 for a request that needs the core and names no entry (R380, R452, Table 17-4). -/
def coreCheck (s : State) : Verdict :=
  if s.sec.lc == .scrapped then .abort .lifeCycle
  else if s.bist.running == some .sram then .busyTest
  else if !s.coreUp then .busy
  else .ok

/-! ## Life cycle (R452) -/

/-- Writes and core reads the life-cycle state refuses. -/
def lifeCycleRefuses (s : State) (k : Key) (write : Bool) (needsCore : Bool) : Bool :=
  match s.sec.lc with
  | .scrapped => write || (needsCore && !(0xA000 ≤ k.index && k.index ≤ 0xA020))
  | .manuf => false
  | .returned => write && k == K.ID_CERT
  | _ => write && (k == K.ID_CERT || vendorIndex k)

/-- The advances of Table 15-8: does a step from one state to another need the Vendor role (`true`) or the Owner's? -/
def lcStep (s : State) (target : Nat) : Option Bool :=
  match s.sec.lc, target with
  | .manuf, 1 => some true
  | .provisioned, 2 => some false
  | .provisioned, 3 => some true
  | .deployed, 3 => some true
  | .scrapped, _ => none
  | _, 4 => some false
  | _, _ => none

/-- The condition of an advance (Table 15-8). -/
def lcReady (s : State) (target : Nat) : Bool :=
  match target with
  | 1 => s.sec.otp.seed != 0 && !s.sec.cert.isEmpty
  | 4 => s.allDown
  | _ => true

/-- A slot on trial; a slot being written. -/
def onTrial (s : State) : Bool := s.sec.slots.toList.any fun c => c.st == .trial
def writingSlot (s : State) : Bool := s.sec.slots.toList.any fun c => c.st == .writing

/-- A slot that a WRITE_INIT finds in use (Table 15-5): ACTIVE, on trial, the fallback of a trial, or written by another. -/
def slotBusy (s : State) (x : Fin 2) (r : Fin 18) : Bool :=
  let c := s.sec.slots.get x
  c.st == .active || c.st == .trial || (s.onTrial && s.sec.fallback == some x) || (c.st == .writing && c.writer != some r)

/-- `FW_ACTIVATE` may take effect (R446): a slot that is not ACTIVE is VALID, none is WRITING, no trial runs. -/
def mayActivate (s : State) : Bool := (s.sec.slots.toList.any fun c => c.st == .valid) && !s.writingSlot && !s.onTrial

/-! ## Conditions of self-test (R499, R500, R509) -/

/-- The unit is in Run and in no transition. -/
def unitRun (s : State) (u : Fin 22) : Bool := s.rd (K.PWR_STATE u) == 0 && (s.unit u).trans == .still

/-- The units of a retention bank (Table 16-9). -/
def unitsOfBank (b : Nat) : List (Fin 22) :=
  (allFin 22).filter fun u =>
    if b < 4 then u.val / 4 = b && u.val < 16 else if b = 4 then 16 ≤ u.val && u.val < 20 else if b = 5 then u.val = 20 else u.val = 21

/-- The condition of Table 17-1 for a target code. -/
def bistReady (s : State) (v : Nat) : Bool :=
  if h : 0x10 ≤ v ∧ v < 0x20 then s.laneDown ⟨v - 0x10, by omega⟩ && s.rd (K.PWR_STATE (laneUnit ⟨v - 0x10, by omega⟩)) == 0
  else if h : 0x20 ≤ v ∧ v < 0x24 then s.pgDown ⟨v - 0x20, by omega⟩ && s.rd (K.PWR_STATE (pgUnit ⟨v - 0x20, by omega⟩)) == 0
  else if v = 0x30 then
    (allFin 64).all (fun j => s.rd (K.LOOP_MODE j) == 0) && s.rd K.MON_SEQ_LEN == 0 && !s.bit K.MON_STATUS 0 && s.rd (K.PWR_STATE 20) == 0
  else if v = 0x31 then
    !s.writingSlot && !s.onTrial && s.rd K.OD_CORE_STATE != 3 && field (s.rd K.SEC_DEBUG_STATE) 1 0 == 0
  else if 0x40 ≤ v && v ≤ 0x47 then (unitsOfBank (v - 0x40)).all s.unitRun
  else true

/-- Free fuse records of the 64 (R509); a record that failed its read-back stays unused. -/
def fuseFree (s : State) : Nat := 64 - (s.bist.maps.filter (·.fused)).length

/-- Mappings that are not fused. -/
def softMaps (s : State) : Nat := (s.bist.maps.filter fun m => !m.fused).length

/-! ## Key store (R457, R461) -/

/-- Every key is erased. -/
def eraseKeys (s : State) : State := { s with sec := { s.sec with keys := {} } }.wrBit K.SEC_DEBUG_STATE 5 false

/-- The key store is erased and reads back as zero; TAINT is set for a debug or scan grant, never for a self-test. -/
def zeroize (s : State) (tainted : Bool) : State :=
  (s.eraseKeys.wrBit K.SEC_DEBUG_STATE 4 true).wrBit K.SEC_DEBUG_STATE 3 (s.bit K.SEC_DEBUG_STATE 3 || tainted)

/-- The TWI target acknowledges its address from LSYN's lock after a POR on (R530). -/
def twiAnswers (s : State) : Bool := s.pwr.lockedOnce

/-- Requester `r` is served: power, no scan, for 16 a TWI target that acknowledges, and for 17 an open debug port (R370, R455,
R459, R530). -/
def served (s : State) (r : Fin 18) : Bool :=
  s.powered && !s.scanOn && (r.val != 16 || s.twiAnswers) && (r.val != 17 || field (s.rd K.SEC_DEBUG_STATE) 1 0 == 1)

end State

/-! ## Values (R367, R368, steps 11 and 12) -/

/-- The length fits the type (R368). -/
def lengthOk (t : Ty) (n : Nat) : Bool :=
  match t with
  | .str => n ≤ 255
  | .domMax m => n ≤ m
  | t => n == t.size

/-- The value of a write's bytes, signed where the type is. -/
def valueOf (t : Ty) (data : List Byte) : Int :=
  if t.signed then sx (8 * t.size) (beNat data) else beNat data

/-- The type's own rule (Table 13-1): BOOL is 0 or 1; STRING is printable ASCII; a TIME96 holds at most 999,999,999
nanoseconds (R276; `TIME_SET` gives 0xFFFFFFFF a meaning, R279). -/
def typeOk (k : Key) (t : Ty) (data : List Byte) : Bool :=
  match t with
  | .bool => beNat data ≤ 1
  | .str => data.all fun b => 0x20 ≤ b.toNat && b.toNat ≤ 0x7E
  | .time96 => field (beNat data) 47 16 ≤ 999999999 || (k == K.TIME_SET && field (beNat data) 47 16 == 0xFFFFFFFF)
  | _ => true

/-- The row's plain range. -/
def rngOk (r : Rng) (v : Int) : Bool :=
  match r with
  | .any => true
  | .rng lo hi => lo ≤ v && v ≤ hi

/-- The bits of an interrupt group's registers beyond the group are reserved (Table 14-14). -/
def maskOk (v mask : Nat) : Bool := v &&& mask == v

/-- The fields of a performance counter's configuration on their own (R419, Tables 14-9, 14-10). -/
def pcFieldsOk (v : Nat) : Bool :=
  let cls := field v 7 0
  let priv := field v 29 28
  let master := field v 27 24
  let addrEn := v.testBit 23
  field v 22 8 == 0 && cls ≤ 0x0B && priv != 3 && master ≤ 5 &&
  (priv == 0 || cls == 1 || cls == 2 || cls == 3 || cls == 7) &&
  ((master == 0 && !addrEn) || cls == 4 || cls == 5 || cls == 6)

/-- The configuration as the set stands. -/
def pcCfgOk (s : State) (c : Fin 8) : Bool :=
  let v := s.rd (K.PC_CFG c)
  pcFieldsOk v && (!v.testBit 23 || s.rd (K.PC_ADDR_LO c) ≤ s.rd (K.PC_ADDR_HI c))

/-- A channel configuration (R413): reserved bits 0, no 19, sender and receiver differ, not 20 on both sides
(which the difference gives), 31 on both sides or on neither, and each a master of Table 14-3. -/
def mbCfgOk (v : Nat) : Bool :=
  let sd := field v 12 8
  let rc := field v 4 0
  let known (m : Nat) := m ≤ 18 || m == 20 || m == 31
  maskOk v 0x1F1F && known sd && known rc && ((sd == 31 && rc == 31) || (sd != rc && sd != 31 && rc != 31))

/-- Number of set bits among the low `n`. -/
def popCount (n v : Nat) : Nat := ((List.range n).filter fun i => v.testBit i).length

/-- Step 12 for the blocks that stand once: `v` is the written value, `s` the state with the write's whole set in
place. -/
def condDev (k : Key) (v : Nat) (s : State) : Bool :=
  match k.off, k.sub with
  | 0x7001, _ => maskOk v 0xC03F && field v 5 0 ≤ 53
  | 0x7003, _ => maskOk v 0x403F && field v 5 0 ≤ 53
  | 0x5110, _ => maskOk v 0x7F && field v 5 4 != 3
  | 0x5003, 1 => v == 0 || (1000 ≤ v && v ≤ 500000000)
  | 0x5002, 4 => s.rd K.TIME_KI ≥ s.rd K.TIME_KP + 1
  | 0x5002, 5 => s.rd K.TIME_KI ≥ s.rd K.TIME_KP + 1
  | 0x2020, 1 => v == 0 || (0xC0 ≤ v && v ≤ 0xCF) || v == 0xFE || v == 0xFF
  | 0x9010, 5 => maskOk v 0x3F
  | 0x8200, 3 => maskOk v 0xFFFFFF && popCount 24 v ≤ 4
  | 0x8000, 1 => maskOk v 0x1FF
  | 0x8000, 7 => maskOk v 0x3FFFFF
  | 0xA000, 2 => (s.lcStep v).isSome
  | 0xB000, 1 =>
    v == 0 || (0x10 ≤ v && v ≤ 0x23) || v == 0x30 || v == 0x31 || (0x40 ≤ v && v ≤ 0x47) || (0x50 ≤ v && v ≤ 0x52)
  | _, _ => true

/-- Step 12 for an interrupt group: bits beyond the group are reserved (Table 14-14). -/
def condIrq (g : Fin 32) (k : Key) (v : Nat) : Bool :=
  match k.sub with
  | 1 | 2 => v < 2 ^ groupBits g.val
  | _ => true

/-- Step 12 for a mailbox. -/
def condMb (k : Key) (v : Nat) : Bool :=
  match k.sub with
  | 1 => mbCfgOk v
  | _ => true

/-- Step 12 for a performance counter (R419). -/
def condPc (c : Fin 8) (k : Key) (v : Nat) (s : State) : Bool :=
  match k.sub with
  | 1 | 2 | 3 => pcCfgOk s c
  | 7 => v < 2 ^ 48
  | _ => true

/-- Taps active by `LINE_FFE_LEN` (R47). -/
def ffeTaps (v : Nat) : Nat := match v with | 0 => 48 | 1 => 32 | 2 => 24 | _ => 16

/-- A set of transmit levels (R78): each at least 128 above the one before. -/
def levelsOk (n : Fin 16) (s : State) : Bool :=
  let l (i : Nat) := s.rdI (K.LINE_TX_LEVEL n i)
  l 0 + 128 ≤ l 1 && l 1 + 128 ≤ l 2 && l 2 + 128 ≤ l 3

/-- A set of transmit taps (R80): main tap at least 512, magnitudes together at most 1,024. -/
def txTapsOk (main : Nat) (taps : List Int) : Bool :=
  512 ≤ (taps[main]?).getD 0 && (taps.foldl (fun a c => a + c.natAbs) 0) ≤ 1024

/-- The taps of the lane's transmit FFE. -/
def txTaps (s : State) (n : Fin 16) : List Int := (List.range 9).map fun k => s.rdI (K.LINE_TX_FFE_TAP n k)

/-- Default taps with main tap `main` (R79). -/
def txTapsCold (main : Nat) : List Int := (List.range 9).map fun k => if k = main then 1024 else 0

/-- Put a set of transmit taps in place. -/
def State.setTxTaps (s : State) (n : Fin 16) (taps : List Int) : State :=
  forAll (List.range 9) (fun k s => s.wrI (K.LINE_TX_FFE_TAP n k) ((taps[k]?).getD 0)) s

/-- Step 12 for a line lane. -/
def condLine (n : Fin 16) (k : Key) (v : Nat) (s : State) : Bool :=
  match k.off, k.sub with
  | 0x05, 1 => s.rd (K.LINE_CDR_KI n) ≥ s.rd (K.LINE_CDR_KP n) + 4
  | 0x05, 2 => s.rd (K.LINE_CDR_KI n) ≥ s.rd (K.LINE_CDR_KP n) + 4
  | 0x10, 1 => s.rd (K.LINE_FFE_MAIN n) + 8 ≤ ffeTaps (s.rd (K.LINE_FFE_LEN n))
  | 0x10, 2 => s.rd (K.LINE_FFE_MAIN n) + 8 ≤ ffeTaps (s.rd (K.LINE_FFE_LEN n))
  | 0x12, i => i ≤ ffeTaps (s.rd (K.LINE_FFE_LEN n))
  | 0x17, _ => maskOk v 0x1FF
  | 0x22, _ => levelsOk n s
  | 0x24, _ => txTapsOk (s.rd (K.LINE_TX_FFE_MAIN n)) (txTaps s n)
  | 0x34, 1 => maskOk v 0x00FFFF07 && field v 2 0 ≤ 4
  | 0x38, 1 => maskOk v 0x0F00 && field v 11 8 ≤ 8
  | 0x38, 2 => maskOk v 0x80FFFFFF
  | 0x39, 1 => maskOk v 0x0F01 && field v 11 8 ≤ 8
  | 0x09, 1 => v == 0 || 8 ≤ v
  | _, _ => true

/-- A set of host transmit taps (R150): c0 at least 512, magnitudes together at most 1,024. -/
def hostTapsOk (m : Fin 32) (s : State) : Bool :=
  let t (i : Nat) := s.rdI (K.HOST_TX_TAP m i)
  512 ≤ t 2 && (t 0).natAbs + (t 1).natAbs + (t 2).natAbs + (t 3).natAbs ≤ 1024

/-- Step 12 for a host lane. -/
def condHost (m : Fin 32) (k : Key) (v : Nat) (s : State) : Bool :=
  match k.off, k.sub with
  | 0x08, 1 => v ≤ 7 || v == 15
  | 0x09, _ => hostTapsOk m s
  | 0x10, 1 => maskOk v 0x0F01 && field v 11 8 ≤ 8
  | 0x10, 2 => maskOk v 0x80FFFFFF
  | 0x11, 1 => maskOk v 0x0F01 && field v 11 8 ≤ 8
  | _, _ => true

/-- A lane map is a permutation of 0 to 7 (R145). -/
def mapOk (f : Nat → Nat) : Bool := (List.range 8).all fun v => (List.range 8).any fun i => f i == v

/-- Step 12 for a port group. -/
def condPg (g : Fin 4) (k : Key) (s : State) : Bool :=
  match k.off, k.sub with
  | 0x00, 1 => !(s.rd (K.PG_MODE g) == 2 && s.rd (K.PG_LINE_FORMAT g) == 1)
  | 0x00, 2 => !(s.rd (K.PG_MODE g) == 2 && s.rd (K.PG_LINE_FORMAT g) == 1)
  | 0x01, _ => mapOk fun i => s.rd (K.PG_RX_MAP g i)
  | 0x02, _ => mapOk fun i => s.rd (K.PG_TX_MAP g i)
  | _, _ => true

/-- Step 12 for a ring port's PRBS entries: PRBS7 and PRBS31 only (Table 5-6). -/
def condPort (k : Key) (v : Nat) : Bool :=
  match k.off, k.sub with
  | 0xF0, 1 => maskOk v 0x0F01 && (field v 11 8 == 0 || field v 11 8 == 5)
  | 0xF0, 2 => maskOk v 0x80FFFFFF
  | 0xF1, 1 => maskOk v 0x0F01 && (field v 11 8 == 0 || field v 11 8 == 5)
  | _, _ => true

/-- A source of Table 11-8. -/
def srcOk (v : Nat) : Bool := v ≤ 87 || (128 ≤ v && v ≤ 191) || v == 255

/-- The boundaries in use rise strictly (R321). -/
def boundsOk (j : Fin 64) (s : State) : Bool :=
  (List.range (s.rd (K.SCHED_REGIONS j) - 2)).all fun i => s.rd (K.SCHED_BOUND j i) < s.rd (K.SCHED_BOUND j (i + 1))

/-- Step 12 for a loop (R321 to R326). -/
def condLoop (j : Fin 64) (k : Key) (v : Nat) (s : State) : Bool :=
  match k.off, k.sub with
  | 0x01, 0x01 => !(v == 2 && s.rd (K.LOOP_INPUT j) == 255)
  | 0x01, 0x02 => srcOk v
  | 0x01, 0x03 => (v ≤ 47 || (64 ≤ v && v ≤ 127) || v == 255) && v != 64 + j.val
  | 0x01, 0x07 | 0x01, 0x08 => s.rd (K.LOOP_UMIN j) ≤ s.rd (K.LOOP_UMAX j)
  | 0x01, 0x10 => v ≤ 15 || v == 255
  | 0x03, 0x01 => srcOk v
  | 0x03, 0x02 => boundsOk j s
  | 0x03, i => if 4 ≤ i && i ≤ 0x0A then boundsOk j s else true
  | 0x04, 0x01 | 0x04, 0x02 => s.rd (K.RC_LEN j) == 0 || s.rd (K.RC_LEAD j) < s.rd (K.RC_LEN j)
  | 0x04, 0x05 => v ≤ 32752
  | _, _ => true

/-- Step 12 for an optics GPIO (R330). -/
def condOg (k : Key) (v : Nat) : Bool :=
  match k.sub with
  | 1 => maskOk v 7 && field v 1 0 != 3
  | _ => true
/-- Step 12 beyond the row's range: reserved bits and encodings, and conditions that involve other entries. -/
def condOk (k : Key) (v : Nat) (s : State) : Bool :=
  match k.blk with
  | .dev => condDev k v s
  | .irq g => condIrq g k v
  | .mb _ => condMb k v
  | .pc c => condPc c k v s
  | .line n => condLine n k v s
  | .host m => condHost m k v s
  | .pg g => condPg g k s
  | .port _ => condPort k v
  | .loop j => condLoop j k v s
  | .og _ => condOg k v
  | _ => true

/-! ## State conditions (step 14) -/

/-- The master a mailbox side names, resolved at the access: 20 is the ring owner (Table 14-3). -/
def isMaster (s : State) (side : Nat) (m : Nat) : Bool :=
  if side == 20 then s.rd K.RING_OWNER_EPOCH != 0 && m < 16 && s.rd K.RING_OWNER_HOST == m else side == m

/-- A channel is full (Table 14-8). -/
def mbFull (s : State) (c : Fin 12) : Bool := s.bit (K.MB_STATUS c) 0

/-- IN_USE conditions of the blocks that stand once, for requester `r` writing `v`. -/
def inUseDev (k : Key) (v : Nat) (r : Fin 18) (s : State) : Bool :=
  match k.off, k.sub with
  | 0x5001, 3 => s.rd K.TIME_DISC_SRC != 0
  | 0x5002, 1 => v != s.rd K.TIME_DISC_SRC && ((v == 1 && !s.on K.SYNC_IN_EN) || (v == 2 && s.on K.TIME_RING_BEACON_EN))
  | 0x5004, 1 => s.rd K.TIME_DISC_SRC == 2
  | 0x9411, sub =>
    v == 1 && (match s.mgmt.lockOwner.toList[sub - 1]? with
      | some o => !(o == r.val) && !(o == 19 && (s.roleOf r).covers .owner)
      | none => true)
  | 0x8200, 7 => s.bit K.THERM_STATUS 6
  | 0xA000, 2 => !s.lcReady v
  | 0xA010, 2 => v == 1 && !s.mayActivate
  | 0xA010, 5 => v == 1 && s.onTrial
  | 0xA020, 4 => s.sec.nonce.isSome
  | 0xB000, 1 => v != 0 && (s.bist.running.isSome || !s.bistReady v)
  | 0xB030, 1 => v == 1 && (s.bist.running.isSome || s.fuseFree < s.softMaps)
  | _, _ => false

/-- IN_USE conditions of a mailbox (R413 to R415). -/
def inUseMb (c : Fin 12) (k : Key) (v : Nat) (r : Fin 18) (s : State) : Bool :=
  let cfg := s.rd (K.MB_CFG c)
  match k.sub with
  | 1 => mbFull s c
  | 3 => !isMaster s (field cfg 12 8) r.val || mbFull s c
  | 4 => v == 1 && (!mbFull s c || !isMaster s (field cfg 4 0) r.val)
  | _ => false

/-- IN_USE conditions of a line lane's entries. -/
def inUseLine (n : Fin 16) (k : Key) (v : Nat) (s : State) : Bool :=
  match k.off, k.sub with
  | 0x1F, 1 | 0x1F, 2 | 0x1F, 3 | 0x1F, 4 => s.rd (K.LINE_SWATCH_STATUS n) == 1 || s.rd (K.LINE_SWATCH_STATUS n) == 2
  | 0x24, _ => s.rd (K.LINE_CO_PHASE n) == 4
  | 0x09, 4 => v != 0 && s.rd (K.LINE_CO_PHASE n) < 4
  | 0x0C, 1 => s.bist.running == some (.lane n) || (v != 0 && !(s.inRun n && s.rd (K.LINE_CO_PHASE n) == 0 && s.calIdle n))
  | 0x2F, 0x0B => v != 0 && !(s.rd (K.LINE_CO_PHASE n) == 4 && s.rd (K.LINE_CO_TXEQ_POLICY n) == 2)
  | _, _ => false

/-- IN_USE conditions of a host lane: in Courn-225 H(2n+1) is powered down (R129, R160). -/
def inUseHost (m : Fin 32) (k : Key) (v : Nat) (s : State) : Bool :=
  match k.off, k.sub with
  | 0x10, 1 | 0x11, 1 => v.testBit 0 && m.val % 2 == 1 && s.rd (K.LINE_FORMAT (lineOfHost m)) == 2
  | _, _ => false

/-- IN_USE conditions of a port group (R153). -/
def inUsePg (g : Fin 4) (k : Key) (v : Nat) (s : State) : Bool :=
  match k.off, k.sub with
  | 0x00, 4 => (v == 2) != (s.rd k == 2) && !s.pgDown g
  | _, _ => false

/-- IN_USE conditions of a ring port: its PRBS is enabled only while it is out of service (R160, R341). -/
def inUsePort (p : Fin 2) (k : Key) (v : Nat) (s : State) : Bool :=
  match k.off, k.sub with
  | 0xF0, 1 | 0xF1, 1 => v.testBit 0 && s.on (K.PORT_ADMIN p)
  | _, _ => false

/-- A loop is not in OFF. -/
def loopOn (s : State) (j : Fin 64) : Bool := s.rd (K.LOOP_MODE j) != 0

/-- A destination is driven: some loop not in OFF, other than `but`, names it. -/
def driven (s : State) (dest : Nat) (but : Option (Fin 64)) : Bool :=
  dest != 255 && (allFin 64).any fun i => some i != but && loopOn s i && s.rd (K.LOOP_OUTPUT i) == dest

/-- IN_USE conditions of a loop (R323, R326), `s'` with the set in place. -/
def inUseLoop (j : Fin 64) (k : Key) (v : Nat) (s s' : State) : Bool :=
  match k.off, k.sub with
  | 0x01, 0x01 => ((s.rd (K.LOOP_MODE j) == 3 || (s.rd (K.LOOP_MODE j) == 4 && (s.ce.loops.get j).heldFrom == 3)) && v == 2) || (v != 0 && driven s' (s'.rd (K.LOOP_OUTPUT j)) (some j))
  | 0x01, 0x03 => loopOn s' j && driven s' v (some j)
  | 0x01, 0x05 => driven s' (64 + j.val) none
  | _, _ => false

/-- IN_USE conditions of an aux pin (R326, R329). -/
def inUseAux (a : Fin 48) (k : Key) (s' : State) : Bool :=
  match k.sub with
  | 1 | 2 => driven s' a.val none
  | _ => false

/-- A crossfade runs on the chain. -/
def fading (s : State) (e : Fin 64) : Bool := (s.ce.chains.get e).fade.isSome

/-- IN_USE conditions of a chain (R315). -/
def inUseChain (e : Fin 64) (k : Key) (v : Nat) (s : State) : Bool :=
  match k.off, k.sub with
  | 0x02, _ => s.rd (K.FILT_ACTIVE e) == 0 || fading s e
  | 0x03, _ => s.rd (K.FILT_ACTIVE e) == 1 || fading s e
  | 0x01, 6 => v != 0 && fading s e
  | 0x01, 7 => fading s e
  | _, _ => false
/-- Step 14: the entry refuses the write in the present state `s`; `s'` has the write's set in place. -/
def inUse (k : Key) (v : Nat) (r : Fin 18) (s s' : State) : Bool :=
  match k.blk with
  | .dev => inUseDev k v r s
  | .mb c => inUseMb c k v r s
  | .line n => inUseLine n k v s
  | .host m => inUseHost m k v s
  | .pg g => inUsePg g k v s
  | .port p => inUsePort p k v s
  | .loop j => inUseLoop j k v s s'
  | .aux a => inUseAux a k s'
  | .chain e => inUseChain e k v s
  | .slot x => s.slotBusy x r
  | _ => false

/-! ## Step 7 beyond Table 13-4 -/

/-- The role a write needs: the entry's, and Vendor for the vendor range (R370). -/
def needRole (k : Key) (e : Entry) : Role := if State.vendorIndex k then .vendor else e.wrole

/-- Entries whose writer is limited in a way of its own: `OD_TWI_ROLE` (Table 13-14). -/
def roleRefuses (s : State) (r : Fin 18) (k : Key) (e : Entry) : Bool :=
  !(s.roleOf r).covers (needRole k e) || (k == K.OD_TWI_ROLE && !(s.isOwner r || s.roleOf r == .vendor))

/-- An advance of the life cycle that the table gives another role (R453). -/
def lcRoleRefuses (s : State) (r : Fin 18) (k : Key) (data : List Byte) : Bool :=
  k == K.SEC_LC_ADVANCE && s.lcStep (beNat data) == some true && !(s.roleOf r).covers .vendor

/-- The key store and the OTP are tested only in MANUF and RETURNED (R500). -/
def bistLcRefuses (s : State) (k : Key) (data : List Byte) : Bool :=
  k == K.BIST_START && (beNat data == 0x50 || beNat data == 0x51) && (s.sec.lc == .provisioned || s.sec.lc == .deployed)

/-! ## The order of checks (Table 13-9, steps 4 to 14) -/

/-- A write's value in place; a changed `LINE_TX_FFE_MAIN` returns the taps to main 1.0 and all others 0 (R80). -/
def placed (s : State) (w : Key × List Byte) : State :=
  match w.1.blk, w.1.off with
  | .line n, 0x23 => if beNat w.2 = s.rd w.1 then s else (s.wr w.1 (beNat w.2)).setTxTaps n (txTapsCold (beNat w.2))
  | _, _ => s.wr w.1 (beNat w.2)

/-- The store as its entries read: accepted writes that wait for their boundary in place (R386). -/
def overlay (s : State) : State := s.od.waiting.foldl (fun s g => g.writes.foldl placed s) s

/-- The state with a write's value in place, for conditions on the set it produces (R389). -/
def withValue (s : State) (k : Key) (data : List Byte) : State := placed (overlay s) (k, data)

/-- Entries of class RW that are read-only in a setting (R39, R133). -/
def readOnlyNow (s : State) (k : Key) : Bool :=
  match k.blk, k.off, k.sub with
  | .line n, 0x02, 2 => s.on (K.LINE_AGC_EN n)
  | .host m, 0x02, 1 => s.on (K.HOST_RX_ADAPT m)
  | _, _, _ => false

/-- Steps 4 to 10 for a write. -/
def checkEntry (s : State) (r : Fin 18) (k : Key) (data : List Byte) : Verdict :=
  match entryOf k with
  | none => .abort (if (highestSub k.blk k.off).isSome then (if k.sub = 0 then .access else .noSubindex) else .noEntry)
  | some e =>
    if e.acc == .ro || e.acc == .const || readOnlyNow s k then .abort .access
    else if s.notOwnerRefuses r k then .abort .notOwner
    else if roleRefuses s r k e || lcRoleRefuses s r k data then .abort .role
    else if s.lifeCycleRefuses k true (!State.fastWrite k) || bistLcRefuses s k data then .abort .lifeCycle
    else if s.busyTest k (some (beNat data)) (!State.fastWrite k) then .busyTest
    else if !State.fastWrite k && !s.coreServes k then .busy
    else .ok

/-- Steps 4 to 11 for a write. -/
def checkAccess (s : State) (r : Fin 18) (k : Key) (data : List Byte) : Verdict :=
  match checkEntry s r k data, entryOf k with
  | .ok, some e => if lengthOk e.ty data.length then .ok else .abort .length
  | v, _ => v

/-- Step 12 for one entry, the set in place in `s'`. -/
def rangeBad (s' : State) (k : Key) (data : List Byte) : Bool :=
  match entryOf k with
  | none => true
  | some e => !(typeOk k e.ty data && rngOk e.rng (valueOf e.ty data) && condOk k (beNat data) s')

/-- Steps 13 and 14 for one entry, the set in place in `s'`. -/
def checkState (s s' : State) (r : Fin 18) (k : Key) (data : List Byte) : Verdict :=
  match entryOf k with
  | none => .abort .noEntry
  | some e =>
    if e.acc == .rwd && !s.unitDown k.blk then .abort .unitUp
    else if inUse k (beNat data) r s s' then .abort .inUse
    else .ok

/-- Steps 4 to 14 for one write on its own. -/
def checkWrite (s : State) (r : Fin 18) (k : Key) (data : List Byte) : Verdict :=
  match checkAccess s r k data with
  | .ok => if rangeBad (withValue s k data) k data then .abort .outOfRange else checkState s (withValue s k data) r k data
  | v => v

namespace State

/-! ## Performance counters (R419 to R421) -/

def pc (s : State) (k : Fin 8) : PerfCnt := s.mgmt.pcs.get k

def modPc (s : State) (k : Fin 8) (f : PerfCnt → PerfCnt) : State :=
  s.modMgmt fun m => { m with pcs := m.pcs.set k (f (m.pcs.get k)) }

/-- A counter overflows to 0 (R421, R423): OVF, its cause bit, WRAP when a latch is pending, the interrupt and the
sampled address as configured. -/
def pcOverflow (s : State) (k : Fin 8) (addr : Nat) : State :=
  let cfg := s.rd (K.PC_CFG k)
  let s1 := s.modPc k fun p => { p with count := 0 }
  let s2 := s1.wrBit (K.PC_STATUS k) 0 true
  let s3 := when_ (!(s.pc k).latch.isEmpty) (fun s => s.wrBit (K.PC_STATUS k) 1 true) s2
  let s4 := s3.wrBit K.PC_OVF_CAUSE k.val true
  let s5 := when_ (cfg.testBit 31) (fun s => s.wr (K.PC_SAMPLE_ADDR k) addr) s4
  when_ (cfg.testBit 30) (fun s => s.raise Src.PC_OVERFLOW) s5

/-- Count `n` events in one counter; past 2^48 - 1 it overflows and the sampled address is a free value. -/
def pcAdd (s : State) (k : Fin 8) (n : Nat) : State :=
  let c := (s.pc k).count + n
  if c < 2 ^ 48 then s.modPc k fun p => { p with count := c }
  else ((s.fresh.2).pcOverflow k s.fresh.1).modPc k fun p => { p with count := c - 2 ^ 48 }

/-- An event of class `cls` that no filter narrows is counted by every enabled counter of that class whose filters
are all open (R419, R420). -/
def pcEvent (s : State) (cls n : Nat) : State :=
  forAll (allFin 8) (fun k s =>
    let cfg := s.rd (K.PC_CFG k)
    if s.bit K.PC_ENABLE k.val && cfg % 256 == cls && field cfg 29 23 == 0 then s.pcAdd k n else s) s

/-- A dictionary request is accepted: it counts in class 0x08. -/
def taken (s : State) : State := s.pcEvent 0x08 1

/-! ## Verdicts -/

/-- Record how a request was answered, with its counter (R375, Table 13-14); a BUSY counts in class 0x0A. -/
def answered (s : State) (r : Fin 18) (v : Verdict) : State :=
  let s := s.modReq r fun q => { q with outcome := v.num }
  match v with
  | .ok => s
  | .abort _ => s.incSat K.OD_ABORT_COUNT
  | .busy => (s.incSat K.OD_BUSY_COUNT).pcEvent 0x0A 1
  | .busyTest => s.incSat K.OD_BUSY_TEST_COUNT

/-- An accepted ring write of the owner counts in `RING_OWNER_WRITES` (R360). -/
def countOwnerWrite (s : State) (r : Fin 18) : State :=
  if s.isOwner r then s.incSat K.RING_OWNER_WRITES else s

/-- A saved-to-flash entry whose value now differs from the flash copy is unsaved: the delay timer starts with the
first such write (R373). -/
def noteUnsaved (s : State) (k : Key) : State :=
  match entryOf k with
  | some e =>
    if e.pers == .flash && s.notInCopy k (s.rd k) then
      s.modOd fun o => { o with unsaved := true, saveTimer := true }
    else s
  | none => s

/-- An accepted write of the requester's that no completed save holds yet (R388). -/
def markDirty (s : State) (r : Fin 18) (k : Key) (data : List Byte) : State :=
  match entryOf k with
  | some e =>
    if e.pers == .flash && s.notInCopy k (beNat data) then s.modReq r fun q => { q with dirty := true } else s
  | none => s

/-! ## Wake events of the management unit (R477, R478) -/

/-- The pending slot of a unit is emptied; its content counts as replaced. -/
def slotReplaced (s : State) (u : Fin 22) : State :=
  if s.rd (K.PWR_PENDING u) = 0xFF then s
  else ((s.wr (K.PWR_PENDING u) 0xFF).incSat K.PWR_CNT_REPLACED).raiseIn Src.PWR_REQ_REPLACED K.DET_PWR_REQ_REPLACED u.val

/-- A unit starts to wake to level `t` (Table 16-6). -/
def wakingTo (s : State) (u : Fin 22) (t : Nat) : State :=
  (s.modUnit u fun p => { p with trans := .waking t, former := s.rd (K.PWR_STATE u) }).wr (K.PWR_TRANSITION u) (16 * t + 7)

/-- The banks that hold a unit's region (Table 16-9). -/
def unitBanks (u : Fin 22) : List Nat := (List.range 8).filter fun b => (unitsOfBank b).contains u

/-- A bank fails its check: its units in Deep sleep are marked for cold initialisation (R486). -/
def bankFail (s : State) (b : Nat) : State :=
  let marked := (unitsOfBank b).filter fun u => s.rd (K.PWR_STATE u) == 3
  let mask := (marked.map fun u => 2 ^ u.val).foldl (· + ·) 0
  let s1 := ((s.wrBit K.PWR_RET_FAIL_BANKS b true).incSat K.PWR_RET_FAIL_COUNT).record 0x43 b (be 4 mask)
  forAll marked (fun u s => s.modUnit u fun p => { p with cold := true }) (s1.raise Src.RETENTION_FAIL)

/-- A wake from Deep sleep checks the unit's banks at its start, before any region is read (R486): which of them has decayed is a free
value (log entry 108). -/
def bankCheck (s : State) (u : Fin 22) : State :=
  if s.rd (K.PWR_STATE u) = 3 then
    forAll ((unitBanks u).filter fun b => s.fresh.1.testBit b) (fun b s => s.bankFail b) s.fresh.2
  else s

/-- A request that needs the core is a wake event of the management unit (R477). -/
def coreWake (s : State) : State :=
  match (s.unit 21).trans with
  | .entering _ _ => (s.slotReplaced 21).modUnit 21 fun p => { p with pendWake := p.pendWake.or (some 4) }
  | .still => if 1 ≤ s.rd (K.PWR_STATE 21) && s.rd (K.PWR_STATE 21) ≤ 3 then (s.wakingTo 21 0).bankCheck 21 else s
  | .waking t =>
    let s1 := s.slotReplaced 21
    if t = 0 then s1 else s1.modUnit 21 fun p => { p with pendWake := p.pendWake.or (some 4) }

/-- Such a request, where its verdict is that it waits for the core or is served by it. -/
def coreAsked (s : State) (k : Key) (v : Verdict) : State :=
  if fastWrite k then s
  else match v with
    | .ok | .busy => s.coreWake
    | _ => s

/-- A queued request that writes: WRITE, WRITE_SEG, GROUP_CLOSE; a token of the TAP, which waits under the number 0xF0. -/
def isWrite (q : CoreReq) : Bool :=
  reqCmd q.bytes == 0x02 || reqCmd q.bytes == 0x04 || reqCmd q.bytes == 0x09 || reqCmd q.bytes == 0xF0

/-- An entry, or those with which it is ordered: tokens and advances of the life cycle are taken in the order of acceptance (R456). -/
def orderKeys (k : Key) : List Key := if k == K.SEC_TOKEN || k == K.SEC_LC_ADVANCE then [K.SEC_TOKEN, K.SEC_LC_ADVANCE] else [k]

/-- The entries that a queued request reads or writes: its own, its download's, its group's. -/
def keysOf (s : State) (q : CoreReq) : List Key :=
  let named : List Key := match reqCmd q.bytes with
    | 0x01 | 0x02 => [reqKey q.bytes]
    | 0x04 => match (s.req q.req).transfer with
      | .writing k _ _ _ _ => [k]
      | _ => []
    | 0x09 => ((s.req q.req).group.getD []).map (·.1)
    | 0xF0 => [K.SEC_TOKEN]
    | _ => []
  named.flatMap orderKeys

/-- A queued write of the entry, or of one with which it is ordered, comes before (R386, R456). -/
def writeAhead (s : State) (k : Key) : Bool := s.od.coreQ.any fun q => isWrite q && (orderKeys k).any fun x => (s.keysOf q).contains x

/-- A write that needs the core finds it available but not at work, or with earlier writes of the entry: it waits, and wakes it (R386, R458,
R477). -/
def mustWake (s : State) (k : Key) : Bool := !fastWrite k && s.coreServes k && (!s.coreAwake || s.writeAhead k)

/-- The request is counted: accepted, and where the core serves it with its verdict (R419). -/
def counted (s : State) (k : Key) (v : Verdict) : State :=
  when_ (!fastWrite k && v == .ok) (fun s => s.pcEvent 0x09 1) (s.taken.coreAsked k v)

/-- A write of an entry by requester `r`: checked (Table 13-9); refused it changes no entry and is counted (R375);
accepted it has the effect `eff`, the entry's own. In scan and without power nothing is served (R459, R482); what needs a core that is
halted or asleep waits, and wakes it (R458, R477). -/
def write (s : State) (r : Fin 18) (k : Key) (data : List Byte) (eff : State → State) : State :=
  if !s.served r then s
  else if s.mustWake k then s.coreWake
  else match checkWrite s r k data with
  | .ok => ((eff (((s.counted k .ok).countOwnerWrite r).markDirty r k data)).noteUnsaved k).answered r .ok
  | v => (s.counted k v).answered r v

end State

end Sys2Proof.Machine
end

