-- ==== Sys2Proof/Machine/Mgmt.lean ====
section
/-!
DEFINITION. Management units of 14_management.md: performance levels (R399 to R401), masters and generations
(R406, R407), lock registers (R409 to R412), mailboxes (R413 to R418), performance counters (R419 to R424), the
event recorder's writes (R425 to R430) and the interrupt registers (R431 to R433).
-/

namespace Sys2Proof.Machine

namespace State

/-- Give requester `r` a value it read. -/
def reply (s : State) (r : Fin 18) (v : List Byte) : State :=
  s.modReq r fun q => { q with lastAnswer := v, outcome := 0 }

/-- The master that a requester is (Table 14-3). -/
def masterOf (r : Fin 18) : Fin 19 := ⟨r.val, by omega⟩

/-- A master's read is a request, but for the core's through its own port; it is given what it reads. -/
def readBy (s : State) (m : Fin 19) : State := if m.val < 18 then s.taken else s
def give (s : State) (m : Fin 19) (v : List Byte) : State :=
  if h : m.val < 18 then s.reply ⟨m.val, h⟩ v else s.modMgmt fun g => { g with coreRead := v }

/-! ## Performance levels -/

/-- Start a change of level, if it is one (R400). -/
def plStart (s : State) (target : Nat) : State :=
  if target = s.rd K.MGMT_PL then s
  else s.modMgmt fun m => { m with plChange := some (s.rd K.MGMT_PL, target), plWanted := none }

/-- A level is decided: at once, or after the change in progress, which is never interrupted (R401). -/
def plDecide (s : State) (target : Nat) : State :=
  match s.mgmt.plChange with
  | some _ => s.modMgmt fun m => { m with plWanted := some target }
  | none => s.plStart target

/-- The level follows `MGMT_PL_MODE` and `MGMT_PL_FIXED` (R401); a thermal trip forces PL0 (Table 16-13). -/
def plFollow (s : State) : State :=
  if s.mgmt.forcedPl0 then s.plDecide 0
  else if s.rd K.MGMT_PL_MODE = 1 then s.plDecide (s.rd K.MGMT_PL_FIXED) else s

/-- A change completes: the level, its count, its record, PL_CHG; then the level decided last (R400, R401). -/
def plDone (s : State) : State :=
  match s.mgmt.plChange with
  | none => s
  | some (a, b) =>
    let s1 := ((((s.wr K.MGMT_PL b).incSat K.MGMT_PL_CHANGES).record 0x09 0xFF (be 1 a ++ be 1 b)).raise Src.PL_CHG)
    match s.mgmt.plWanted with
    | some w => (s1.modMgmt fun m => { m with plChange := none, plWanted := none }).plStart w
    | none => s1.modMgmt fun m => { m with plChange := none }

/-- The level whose speed the core has: of a change in progress the lower one (R400). -/
def coreLevel (s : State) : Nat :=
  match s.mgmt.plChange with
  | some (a, b) => min a b
  | none => s.rd K.MGMT_PL

/-- The core clock's divider of LSYN (Table 14-1). -/
def coreDivider (s : State) : Nat := 256 / 2 ^ s.coreLevel

/-- The island voltage in mV that a level has, and that is in force or ramped to: of a change the higher one (Table 14-1, R400). -/
def coreMillivolts (s : State) : Nat :=
  550 + 50 * (match s.mgmt.plChange with
    | some (a, b) => max a b
    | none => s.rd K.MGMT_PL)

/-- The level is in auto mode (R401). -/
def plAuto (s : State) : Bool := s.rd K.MGMT_PL_MODE == 0 && !s.mgmt.forcedPl0

/-! ## Lock registers -/

/-- Holder of LKk; 0xFF free. -/
def lockOwner (s : State) (k : Fin 32) : Nat := s.mgmt.lockOwner.get k

def setLock (s : State) (k : Fin 32) (o : Nat) : State :=
  s.modMgmt fun m => { m with lockOwner := m.lockOwner.set k o }

/-- A release of LKk: free, and LK_RELEASED when `LK_NOTIFY` names it (R410). -/
def releaseLock (s : State) (k : Fin 32) : State :=
  let s1 := s.setLock k 0xFF
  if s.bit K.LK_NOTIFY k.val then s1.raise Src.LK_RELEASED else s1

/-- A forced release of a held lock: counted, recorded, LK_FORCED (R410). -/
def forceLock (s : State) (k : Fin 32) (by_ : Nat) : State :=
  if s.lockOwner k = 0xFF then s
  else (((s.incSat K.LK_FORCED_COUNT).record 0x0A k.val (be 1 (s.lockOwner k) ++ be 1 by_)).raise Src.LK_FORCED).releaseLock k

/-- A take of LKk by master `m` (R409). -/
def takeLock (s : State) (k : Fin 32) (m : Nat) : State := if s.lockOwner k = 0xFF then s.setLock k m else s

/-- The value a take by `m` returns (Table 14-4), `s` the state before it. -/
def takeValue (s : State) (k : Fin 32) (m : Nat) : Nat :=
  if s.lockOwner k = 0xFF then 0xC000 + m else 0x4000 + s.lockOwner k

/-- When a loop enters SAFE the control engine takes every lock marked in `LK_CE_SAFE` that is free (R412). -/
def ceSafeTake (s : State) : State :=
  forAll (allFin 32) (fun k s => if s.bit K.LK_CE_SAFE k.val then s.takeLock k 19 else s) s

/-! ## Mailboxes -/

/-- Is a side of a channel one that is told by the interrupt tree: masters 0 to 17 or the ring owner (R414). -/
def sideTold (side : Nat) : Bool := side ≤ 17 || side == 20

def mbCfgSender (s : State) (c : Fin 12) : Nat := field (s.rd (K.MB_CFG c)) 12 8
def mbCfgReceiver (s : State) (c : Fin 12) : Nat := field (s.rd (K.MB_CFG c)) 4 0

/-- Generation of a master (R407). -/
def gen (s : State) (m : Nat) : Nat := (s.mgmt.gens.toList[m]?).getD 0

/-- Accept a message from master `m` on channel `c` (R414). -/
def mbSend (s : State) (c : Fin 12) (m : Nat) (data : List Byte) : State :=
  let old := s.rd (K.MB_STATUS c)
  let st := (s.gen m) * 2 ^ 24 + field old 23 16 * 2 ^ 16 + data.length * 2 ^ 8 + m * 8 + 1
  let s1 := (s.wr (K.MB_STATUS c) st).modMgmt fun g => { g with boxes := g.boxes.set c ⟨data⟩ }
  if sideTold (s.mbCfgReceiver c) then s1.raiseIn Src.MB_MSG K.DET_MB_MSG c.val else s1

/-- Empty a full channel (R415): EMPTY_GEN takes MSG_GEN, RX_RESET and TX_RESET clear. -/
def mbEmpty (s : State) (c : Fin 12) : State :=
  let g := field (s.rd (K.MB_STATUS c)) 31 24
  let s1 := (s.wr (K.MB_STATUS c) (g * 2 ^ 16)).modMgmt fun x => { x with boxes := x.boxes.set c ⟨[]⟩ }
  if sideTold (s.mbCfgSender c) then s1.raiseIn Src.MB_EMPTY K.DET_MB_EMPTY c.val else s1

/-- Receiver-reset rule of a full channel (R416). -/
def mbRxReset (s : State) (c : Fin 12) : State :=
  let s1 := s.wrBit (K.MB_STATUS c) 2 true
  if sideTold (s.mbCfgSender c) then s1.raiseIn Src.MB_RX_RESET K.DET_MB_RX_RESET c.val else s1

/-- Sender-reset rule of a full channel (R417). -/
def mbTxReset (s : State) (c : Fin 12) : State :=
  let s1 := s.wrBit (K.MB_STATUS c) 1 true
  if sideTold (s.mbCfgReceiver c) then s1.raiseIn Src.MB_TX_RESET K.DET_MB_TX_RESET c.val else s1

/-- A restart of master `m` meets channel `c` (R407, R416, R417). -/
def mbRestart (s : State) (m : Nat) (c : Fin 12) : State :=
  if !mbFull s c then s
  else
    let s1 := if isMaster s (s.mbCfgReceiver c) m then s.mbRxReset c else s
    if field (s.rd (K.MB_STATUS c)) 7 3 == m then s1.mbTxReset c else s1

/-- The generation step of master `m` (R407): the generation wraps, its locks are released (the core's as forced
releases, R411), its full channels follow the receiver-reset and sender-reset rules. The forcing master of a
core's release is not stated: a free value (log entry 6). -/
def restartMaster (s : State) (m : Nat) : State :=
  let s1 := s.modMgmt fun g => { g with gens := Vector.ofFn fun i => if i.val = m then (g.gens.get i + 1) % 256 else g.gens.get i }
  let s2 := forAll (allFin 32) (fun k s =>
    if s.lockOwner k = m then
      if m = 18 then (s.fresh.2).forceLock k (s.fresh.1 % 256) else s.releaseLock k
    else s) s1
  forAll (allFin 12) (fun c s => s.mbRestart m c) s2

/-! ## Performance counters -/

/-- A SECDED correction at an address, or at one that is not known, is counted (class 0x06); the unit that corrected it is not known, so
a MASTER filter lets it pass or not (free, log entry 19). -/
def pcSecded (s : State) (addr : Option Nat) : State :=
  forAll (allFin 8) (fun k s =>
    let cfg := s.rd (K.PC_CFG k)
    let within : Option Bool :=
      if !cfg.testBit 23 then some true else addr.map fun a => s.rd (K.PC_ADDR_LO k) ≤ a && a ≤ s.rd (K.PC_ADDR_HI k)
    if !(s.bit K.PC_ENABLE k.val && cfg % 256 == 0x06) || within == some false then s
    else if field cfg 27 24 = 0 && within == some true then s.pcAdd k 1
    else s.fresh.2.pcAdd k (s.fresh.1 % 2)) s

/-- One cc of the fabric's and the core's clocks (classes 0x0B and 0x01 of any privilege): a fabric cycle lasts 4 cc (R398), a core
cycle `coreDivider` LSYN periods, of which 16 are a cc. -/
def pcTick (s : State) : State :=
  if s.rd K.PC_ENABLE = 0 || !s.powered then s
  else
    let s1 := if s.now % 4 = 0 then s.pcEvent 0x0B 1 else s
    if s.now % (s.coreDivider / 16) = 0 && s.rd (K.PWR_STATE 21) = 0 then s1.pcEvent 0x01 1 else s1

/-- A counter of a class whose events no command shows: 0x02 to 0x05, 0x07, and 0x01 of one privilege class. -/
def pcHidden (s : State) (k : Fin 8) : Bool :=
  let cfg := s.rd (K.PC_CFG k)
  s.bit K.PC_ENABLE k.val && ((2 ≤ cfg % 256 && cfg % 256 ≤ 5) || cfg % 256 == 7 || (cfg % 256 == 1 && field cfg 29 28 != 0))

/-- When such a counter is looked at, it has counted on by a free number, short of its overflow (log entry 19). -/
def pcSeen (s : State) (k : Fin 8) : State :=
  if s.pcHidden k then s.fresh.2.modPc k fun p => { p with count := p.count + s.fresh.1 % (2 ^ 48 - p.count) } else s

/-- What a counter of cycles counts in the `n` cc from now on: fabric cycles (class 0x0B), the core's (0x01 of any privilege). -/
def pcCycles (s : State) (k : Fin 8) (n : Nat) : Nat :=
  let cfg := s.rd (K.PC_CFG k)
  let within (d : Nat) : Nat := (s.now + n) / d - s.now / d
  if !s.bit K.PC_ENABLE k.val || field cfg 29 23 != 0 then 0
  else if cfg % 256 = 0x0B then within 4
  else if cfg % 256 = 0x01 && s.rd (K.PWR_STATE 21) = 0 then within (s.coreDivider / 16) else 0

/-- The value of counter k when it is taken for `PC_ALL`, k fabric cycles of 4 cc after PC0: one that counts cycles has gone on meanwhile
(R422). -/
def pcSkewed (s : State) (k : Fin 8) : Nat := ((s.pc k).count + s.pcCycles k (4 * k.val)) % 2 ^ 48

/-- `PC_ALL`: 6 bytes a counter, PC0 first (R422). -/
def pcAll (s : State) : List Byte := (allFin 8).flatMap fun k => be 6 (s.pcSkewed k)

/-- A reprogram (R424): the pending overflow, WRAP and the latches go; PC_OVERFLOW clears when no counter has OVF. -/
def pcReprogram (s : State) (k : Fin 8) : State :=
  let s1 := (((s.wr (K.PC_STATUS k) 0).wrBit K.PC_OVF_CAUSE k.val false).modPc k fun p => { p with latch := [] })
  if (allFin 8).all fun j => !s1.bit (K.PC_STATUS j) 0 then s1.wrBit (K.IRQ_CAUSE 27) 10 false else s1

/-- Reset of every counter (R424). -/
def pcReset (s : State) : State :=
  let s1 := s.resetEntries fun k => match k.blk with | .pc _ => true | .dev => k.off == 0xC010 | _ => false
  s1.modMgmt fun m => { m with pcs := Vector.replicate 8 {} }

/-- A read of `PC_LO` keeps bits [47:32] for its reader (R421). -/
def pcLatch (s : State) (k : Fin 8) (r : Fin 19) : State :=
  s.modPc k fun p => { p with latch := (r, p.count / 2 ^ 32) :: p.latch.filter fun q => q.1 != r }

/-- Drop a reader's latch of a counter, returning what it held. -/
def pcTakeLatch (s : State) (k : Fin 8) (r : Fin 19) : Option Nat × State :=
  (((s.pc k).latch.find? fun p => p.1 == r).map (·.2),
   s.modPc k fun p => { p with latch := p.latch.filter fun q => q.1 != r })

/-! ## Event recorder -/

/-- The slot of record `s` (R425): the fixed area in the first lap, else the circular area. -/
def evrSlot (first : Bool) (seq : Nat) : Nat :=
  if first && seq < 256 then seq else 256 + ((seq + 2 ^ 32 - 256) % 2 ^ 32) % 768

/-- The entry of slot r (R428). -/
def evrKey (slot : Nat) : Key := ⟨.dev, 0x9300 + slot / 128, slot % 128 + 1⟩

/-- Records written after `EVR_ACK` (R429). -/
def evrAfterAck (s : State) : Nat := (s.rd K.EVR_HEAD + 2 ^ 33 - 1 - s.rd K.EVR_ACK) % 2 ^ 32

/-- The 32 bytes of a record (Table 14-11), as one number. -/
def recValue (seq : Nat) (e : Rec) : Nat :=
  beNat (be 4 seq ++ be 12 e.time ++ be 1 e.kind ++ be 1 e.unit ++ (e.data ++ List.replicate 14 0).take 14)

/-- The recorder writes the next queued record (R425 to R429). -/
def evrWrite (s : State) : State :=
  match s.mgmt.recQ with
  | [] => s
  | e :: rest =>
    let seq := s.rd K.EVR_HEAD
    let first := s.mgmt.firstLap
    let slot := evrSlot first seq
    let old := s.rd (evrKey slot)
    let oldSeq := old / 2 ^ 224
    let overwrites := 256 ≤ slot && old != 0 &&
      (seq + 2 ^ 32 - 1 - oldSeq) % 2 ^ 32 < s.evrAfterAck
    let next := (seq + 1) % 2 ^ 32
    let first' := first && next != 0
    let s1 := s.modMgmt fun m => { m with recQ := rest, firstLap := first' }
    let s2 := s1.wr (evrKey slot) (recValue seq e)
    let s3 := (s2.wr K.EVR_HEAD next).wr K.EVR_HEAD_SLOT (evrSlot first' next)
    let s4 := when_ overwrites (fun s => (s.incSat K.EVR_LOST).raise Src.EVR_OVERWRITE) s3
    let s5 := s4.raise Src.EVR_NEW
    let s6 := when_ (first && seq == 255) (fun s => s.raise Src.EVR_FIXED_FULL) s5
    let wm := s6.rd K.EVR_WATERMARK
    if wm != 0 && s6.mgmt.wmArmed && wm ≤ s6.evrAfterAck then
      (s6.modMgmt fun m => { m with wmArmed := false }).raise Src.EVR_WATERMARK
    else s6

end State

/-! ## Effects of writes that have a row of their own -/

/-- `PC_ENABLE`: what runs has counted up to here; what stops keeps its count (R420). -/
def effPcEnable (v : Nat) (s : State) : State := (forAll (allFin 8) (fun k s => s.pcSeen k) s).wr K.PC_ENABLE v

/-- A write to `PC_CFG`, `PC_ADDR_LO`, `PC_ADDR_HI` (subindex 1 to 3) or `PC_PRESET` (7) reprograms (R424). -/
def effPcReprogram (k : Fin 8) (sub v : Nat) (s : State) : State :=
  if sub = 7 then (s.modPc k fun p => { p with count := v % 2 ^ 48 }).pcReprogram k
  else ((s.pcSeen k).wr ⟨.pc k, 0, sub⟩ v).pcReprogram k

def effLkRelease (k : Fin 32) (v : Nat) (s : State) : State := if v = 1 then s.releaseLock k else s
def effLkForce (k : Fin 32) (v : Nat) (by_ : Nat) (s : State) : State := if v = 1 then s.forceLock k by_ else s
def effMbCfg (c : Fin 12) (v : Nat) (s : State) : State := s.wr (K.MB_CFG c) v
def effMbAck (c : Fin 12) (v : Nat) (s : State) : State := if v = 1 then s.mbEmpty c else s
def effMasterRestart (m v : Nat) (s : State) : State := if v = 1 then s.restartMaster m else s

/-- `EVR_ACK`: re-arms the watermark when the write brings the number below it (R429). -/
def effEvrAck (v : Nat) (s : State) : State :=
  let s1 := s.wr K.EVR_ACK v
  if s1.evrAfterAck < s1.rd K.EVR_WATERMARK then s1.modMgmt fun m => { m with wmArmed := true } else s1

/-- A 1 clears its cause bit (R431). -/
def effIrqCause (g : Fin 32) (v : Nat) (s : State) : State :=
  s.wr (K.IRQ_CAUSE g) (s.rd (K.IRQ_CAUSE g) - (s.rd (K.IRQ_CAUSE g) &&& v))

/-- `IRQ_ENABLE`: a summary bit may rise (R432, R433). -/
def effIrqEnable (g : Fin 32) (v : Nat) (s : State) : State := s.followSummary g fun s => s.wr (K.IRQ_ENABLE g) v

/-- `IRQ_SW_SET` raises the sources its bits name (R433). -/
def effIrqSwSet (v : Nat) (s : State) : State :=
  forAll (List.range 6) (fun i s => when_ (v.testBit i) (fun s => s.raise (Src.SW_IRQ i)) s) s

/-- `MGMT_MRST`: an MRST is requested; the OK goes first (R404). -/
def effMgmtMrst (v : Nat) (s : State) : State := if v = 1 then s.modMgmt fun m => { m with mrstPend := true } else s

/-! ## Meanings -/

def execPlChangeDone (s : State) : Host.Outcome State Fault Refusal := .next s.plDone

/-- Raise: load above 50 % or a request queued for more than 200 µs, in auto mode (R401). `load` is the measured
`OD_CORE_LOAD`. -/
def execPlAutoRaise (load : BitVec 8) (s : State) : Host.Outcome State Fault Refusal :=
  let s1 := s.wr K.OD_CORE_LOAD load.toNat
  let queued := (allFin 18).any fun r => (s.req r).queue.any fun q => q.at_ + 351562 < s.now
  .next (if s.plAuto && (50 < load.toNat || queued) then s1.plDecide 2 else s1)

/-- Lower: load below 15 % for 1 s after the end of the last change, in auto mode: one step down (R401). -/
def execPlAutoLower (load : BitVec 8) (s : State) : Host.Outcome State Fault Refusal :=
  let s1 := s.wr K.OD_CORE_LOAD load.toNat
  .next (if s.plAuto && load.toNat < 15 && s.mgmt.plChange.isNone && s.rd K.MGMT_PL != 0 then s1.plDecide (s.rd K.MGMT_PL - 1) else s1)

def execMgmtMrst (r : Fin 18) (v : BitVec 8) (s : State) : Host.Outcome State Fault Refusal :=
  .next (s.write r K.MGMT_MRST (be 1 v.toNat) (effMgmtMrst v.toNat))

def execMgmtMasterRestart (r : Fin 18) (v : BitVec 8) (s : State) : Host.Outcome State Fault Refusal :=
  .next (s.write r K.MGMT_MASTER_RESTART (be 1 v.toNat) (effMasterRestart r.val v.toNat))

/-- A read of `LK_TAKE` by master `m` (0 to 17 a requester, 18 the core through its own port) (R409). -/
def execLkTake (m : Fin 19) (k : Fin 32) (s : State) : Host.Outcome State Fault Refusal :=
  .next (((s.readBy m).takeLock k m.val).give m (be 2 (s.takeValue k m.val)))

/-- A write of `LK_RELEASE` by master `m`; the core's own port is no dictionary request, and only its own lock is
freed (R410). -/
def execLkRelease (m : Fin 19) (k : Fin 32) (v : BitVec 8) (s : State) : Host.Outcome State Fault Refusal :=
  .next (if h : m.val < 18 then s.write ⟨m.val, h⟩ (K.LK_RELEASE k.val) (be 1 v.toNat) (effLkRelease k v.toNat)
    else if s.lockOwner k = 18 then effLkRelease k v.toNat s else s)

def execLkForce (r : Fin 18) (k : Fin 32) (v : BitVec 8) (s : State) : Host.Outcome State Fault Refusal :=
  .next (s.write r (K.LK_FORCE k.val) (be 1 v.toNat) (effLkForce k v.toNat r.val))

def execMbCfgWrite (r : Fin 18) (c : Fin 12) (v : BitVec 16) (s : State) : Host.Outcome State Fault Refusal :=
  .next (s.write r (K.MB_CFG c) (be 2 v.toNat) (effMbCfg c v.toNat))

/-- A send by requester `m`, or by the core (18) through its own port, under the same conditions (R414). -/
def execMbDataWrite (m : Fin 19) (c : Fin 12) (data : List Byte) (s : State) : Host.Outcome State Fault Refusal :=
  .next (if h : m.val < 18 then s.write ⟨m.val, h⟩ (K.MB_DATA c) data (fun s => s.mbSend c m.val data)
    else if s.mbCfgSender c == 18 && !mbFull s c && data.length ≤ 64 then s.mbSend c 18 data else s)

def execMbAck (m : Fin 19) (c : Fin 12) (v : BitVec 8) (s : State) : Host.Outcome State Fault Refusal :=
  .next (if h : m.val < 18 then s.write ⟨m.val, h⟩ (K.MB_ACK c) (be 1 v.toNat) (effMbAck c v.toNat)
    else if s.mbCfgReceiver c == 18 && mbFull s c then effMbAck c v.toNat s else s)

def execPcEnableWrite (r : Fin 18) (v : BitVec 8) (s : State) : Host.Outcome State Fault Refusal :=
  .next (s.write r K.PC_ENABLE (be 1 v.toNat) (effPcEnable v.toNat))

/-- Which of the four reprogramming entries: 0 `PC_CFG`, 1 `PC_ADDR_LO`, 2 `PC_ADDR_HI`, 3 `PC_PRESET`. -/
def pcSub (w : Fin 4) : Nat := if w.val = 3 then 7 else w.val + 1

def execPcReprogram (r : Fin 18) (k : Fin 8) (w : Fin 4) (v : BitVec 64) (s : State) :
    Host.Outcome State Fault Refusal :=
  .next (s.write r ⟨.pc k, 0, pcSub w⟩ (be (if w.val = 3 then 8 else 4) v.toNat) (effPcReprogram k (pcSub w) v.toNat))

/-- A read of `PC_LO` by master `m` (0 to 17 a requester, 18 the core) latches bits [47:32] for the reader (R421). -/
def execPcLoRead (m : Fin 19) (k : Fin 8) (s0 : State) : Host.Outcome State Fault Refusal :=
  let s := (s0.readBy m).pcSeen k
  .next ((s.pcLatch k m).give m (be 4 ((s.pc k).count % 2 ^ 32)))

/-- A read of `PC_HI` returns and consumes the reader's latch, or returns the live bits (R421). -/
def execPcHiRead (m : Fin 19) (k : Fin 8) (s0 : State) : Host.Outcome State Fault Refusal :=
  let s := (s0.readBy m).pcSeen k
  .next ((s.pcTakeLatch k m).2.give m (be 2 (((s.pcTakeLatch k m).1).getD ((s.pc k).count / 2 ^ 32))))

/-- A read of `PC_STATUS` clears WRAP (Table 14-10). -/
def execPcStatusRead (m : Fin 19) (k : Fin 8) (s : State) : Host.Outcome State Fault Refusal :=
  .next (((s.readBy m).wrBit (K.PC_STATUS k) 1 false).give m (be 1 (s.rd (K.PC_STATUS k))))

/-- Counter `k` overflows; `addr` is the address of an instruction retired 2 to 4 instructions later (R423). Only a counter that runs
overflows (R420), here one whose events no command shows; the others overflow with the event that carries them past 2^48 - 1. -/
def execPcOverflow (k : Fin 8) (addr : BitVec 32) (s : State) : Host.Outcome State Fault Refusal :=
  .next (if s.pcHidden k then s.pcOverflow k addr.toNat else s)

def execEvrRecordWrite (s : State) : Host.Outcome State Fault Refusal := .next s.evrWrite

def execEvrAckWrite (r : Fin 18) (v : BitVec 32) (s : State) : Host.Outcome State Fault Refusal :=
  .next (s.write r K.EVR_ACK (be 4 v.toNat) (effEvrAck v.toNat))

def execIrqCauseWrite (r : Fin 18) (g : Fin 32) (v : BitVec 16) (s : State) : Host.Outcome State Fault Refusal :=
  .next (s.write r (K.IRQ_CAUSE g) (be 2 v.toNat) (effIrqCause g v.toNat))

def execIrqSwSet (r : Fin 18) (v : BitVec 8) (s : State) : Host.Outcome State Fault Refusal :=
  .next (s.write r K.IRQ_SW_SET (be 1 v.toNat) (effIrqSwSet v.toNat))

end Sys2Proof.Machine
end

