-- ==== Sys2Proof/Machine/TimeUnit.lean ====
section
/-!
DEFINITION. The time unit's counter, adjustments, SYNC pins, discipline and holdover (10_time_unit.md, R276 to
R283, R293 to R295, R298). Line time transfer stands in LineTime.lean, beacons in Ring.lean.
-/

namespace Sys2Proof.Machine

/-- The counter's modulus: 2^48 s in units of 2^-40 ns (Table 10-1). -/
def counterMod : Nat := 2 ^ 48 * secUnits

/-- Add a signed number of 2^-40 ns to a counter value. -/
def counterAdd (c : Nat) (d : Int) : Nat := (((c : Int) + d) % (counterMod : Int)).toNat

/-- Femtoseconds as units of 2^-40 ns. -/
def fsUnits (fs : Int) : Int := divOpen (fs * 2 ^ 40) 1000000

/-- The rate term of one cc, in 2^-40 ns: `rate` 0.1 ppb of 568.889 ps (R277). -/
def rateUnits (rate : Int) : Int := divOpen (rate * 128 * 2 ^ 40) (225 * 10 ^ 10)

/-- Signed difference of two counter values, the nearer way round. -/
def counterDiff (a b : Nat) : Int :=
  let d := ((a : Int) - (b : Int)) % (counterMod : Int)
  if 2 * d < (counterMod : Int) then d else d - (counterMod : Int)

/-- One cc of the counter (R277). -/
def TimeS.tick (t : TimeS) : TimeS :=
  let r' := t.r + 158
  let wrap := 225 ≤ r'
  let inc : Int := if wrap then 37283 else 37282
  { t with r := if wrap then r' - 225 else r', counter := counterAdd t.counter (inc * 2 ^ 24 + rateUnits t.rate) }

namespace State

/-! ## Starting and stopping (R277, R303) -/

/-- LSYN locks: the counter starts at 0, RUNNING set and SET clear. -/
def timeStart (s : State) : State :=
  ((s.modTime fun t => { t with counter := 0, r := 0, prevEdge := none }).wrBit K.TIME_STATUS 0 true).wrBit K.TIME_STATUS 1 false

/-- LSYN stops: RUNNING and SET clear; the pin is low while RUNNING is 0 (R282). -/
def timeStop (s : State) : State :=
  ((s.modTime fun t => { t with outHigh := false }).wrBit K.TIME_STATUS 0 false).wrBit K.TIME_STATUS 1 false

/-! ## Holdover (R295) -/

def holdover (s : State) : Bool := s.bit K.TIME_STATUS 3

/-- Enter holdover: s is 0, f held. -/
def holdoverEnter (s : State) : State :=
  let s1 := s.modTime fun t => { t with slew := 0 }
  if s.holdover then s1 else (s1.wrBit K.TIME_STATUS 3 true).raise Src.TIME_HOLDOVER_CHG

/-- Leave holdover. -/
def holdoverExit (s : State) : State :=
  if s.holdover then (s.wrBit K.TIME_STATUS 3 false).raise Src.TIME_HOLDOVER_CHG else s

/-- Root loss: holdover, with ROOT_HOLD (R20, R295). -/
def timeRootLost (s : State) : State := (s.wrBit K.TIME_STATUS 4 true).holdoverEnter

/-- The source in force: SRC of `TIME_STATUS`. -/
def timeSrc (s : State) : Nat := field (s.rd K.TIME_STATUS) 7 5

/-- Root return: ROOT_HOLD clears; with source 0 in force holdover ends (R295). -/
def timeRootBack (s : State) : State :=
  let s1 := s.wrBit K.TIME_STATUS 4 false
  if s.timeSrc = 0 then s1.holdoverExit else s1

/-! ## Discipline (R293, R294) -/

/-- An epoch of a lane in cc: 2^20 inner codewords, of 2.25 cc in Courn-450 and 4.5 cc in Courn-225 (Table 4-1). -/
def epochCc (s : State) (n : Fin 16) : Nat := if s.rd (K.LINE_FORMAT n) = 2 then 4718592 else 2359296

/-- Nominal period of the source, in 2^-40 ns (R294). -/
def nominalPeriod (s : State) : Nat :=
  match s.timeSrc with
  | 1 => secUnits
  | 2 => s.rd K.TIME_RING_PERIOD * 1000000 * 2 ^ 40
  | _ =>
    if h : s.time.lane < 16 then
      (s.lanes.get ⟨s.time.lane, h⟩).xfer.per * s.epochCc ⟨s.time.lane, h⟩ * 128 * 2 ^ 40 / 225
    else 0

/-- The rate of R277: `TIME_RATE_ADJ` + f + s, clamped to 200 ppm. -/
def timeRate (s : State) : Int :=
  clampI (-2000000) 2000000 (s.rdI K.TIME_RATE_ADJ + s.rdI K.TIME_SERVO_FREQ + s.time.slew)

/-- A step becomes pending for the next gauge tick. -/
def setStepPending (s : State) : State :=
  s.wrBit K.TIME_STATUS 8 (s.time.pendHost != 0 || s.time.pendServo != 0)

/-- TIME_OFFSET_ALARM at the first error beyond the threshold, re-armed at or below it (R294). `e` in fs. -/
def offsetAlarm (s : State) (e : Int) : State :=
  let thr := s.rd K.TIME_ALARM_THR
  if thr != 0 && (thr : Int) * 1000 < |e| then
    if s.time.alarmArmed then (s.modTime fun t => { t with alarmArmed := false }).raise Src.TIME_OFFSET_ALARM else s
  else s.modTime fun t => { t with alarmArmed := true }

/-- The servo's terms of one measurement without a step (R294): `p` the seconds since the last one, in 2^-40 ns. -/
def servoTerms (s : State) (e : Int) (p : Nat) : State :=
  let f := s.rdI K.TIME_SERVO_FREQ + divOpen (e * 10 ^ 4 * 2 ^ 40) (max p 1 * 2 ^ s.rd K.TIME_KI)
  (s.wrI K.TIME_SERVO_FREQ (clampI (-1000000) 1000000 f)).modTime fun t =>
    { t with slew := divOpen (e * 10 ^ 4 * 2 ^ 40) (max p 1 * 2 ^ s.rd K.TIME_KP) }

/-- SERVO_MEASUREMENT (R294): error `e` in fs, taken at counter value `at_`. A first valid measurement with a valid
root ends holdover (R295); while the root is lost f and s stand still. -/
def servoMeasure (s : State) (e : Int) (at_ : Nat) : State :=
  let p := match s.time.lastMeas with
    | some m => (counterDiff at_ m).toNat
    | none => s.nominalPeriod
  let s1 := (s.wrI K.TIME_SERVO_ERR e).modTime fun t =>
    { t with missed := 0, followed := true, lastMeas := some at_, recent := (e :: t.recent).take 4 }
  let s2 := (s1.wrBit K.TIME_STATUS 2 (s1.time.recent.length == 4 && s1.time.recent.all fun x => |x| ≤ 10000000)).offsetAlarm e
  if s2.bit K.TIME_STATUS 4 then s2
  else
    let s3 := s2.holdoverExit
    let thr := s3.rd K.TIME_STEP_THR
    if thr != 0 && (thr : Int) * 1000000 < |e| then
      (s3.modTime fun t => { t with pendServo := divOpen (e * 65536) 1000000, slew := 0 }).setStepPending
    else s3.servoTerms e p

/-- A measurement of the selected source is missing (R295). -/
def timeMiss (s : State) : State :=
  let s1 := s.modTime fun t => { t with missed := t.missed + 1 }
  if s.timeSrc != 0 && s.rd K.TIME_HOLDOVER_MISS ≤ s1.time.missed then s1.holdoverEnter else s1

/-- A change of beacon port (R298): counted, and one missing measurement. -/
def beaconSwitch (s : State) (p : Fin 2) : State :=
  when_ (s.timeSrc == 2) (fun s => s.timeMiss) ((s.modTime fun t => { t with port := p, portMiss := 0 }).incSat K.TIME_RING_PORT_SWITCH)

/-- A beacon period passes without an accepted beacon on the port in use (R298, R299). -/
def beaconMiss (s : State) : State :=
  let s1 := when_ (s.timeSrc == 2) (fun s => s.raise Src.RING_BEACON_FAULT) s
  if s.time.port = 0 then
    let s2 := s1.modTime fun t => { t with portMiss := t.portMiss + 1 }
    if s.rd K.TIME_HOLDOVER_MISS ≤ s2.time.portMiss then s2.beaconSwitch 1 else s2
  else s1

/-! ## Steps, sets, the gauge tick (R279 to R281) -/

/-- What every set and every non-zero step does: a new generation, SET, the pending slew cleared, the next edge valid
without judgement (R280, R281, R283). -/
def adjusted (s : State) : State :=
  ((s.incWrap K.TIME_GEN).wrBit K.TIME_STATUS 1 true).modTime fun t =>
    { t with slew := 0, prevEdge := none, adjSincePulse := true }

/-- A set or step puts the counter at `new`. A whole second that it passes over on the way forward has no pulse; one that it falls back
behind is still to come (R282). -/
def counterTo (s : State) (new : Nat) : State :=
  let old := s.time.counter
  let skip :=
    if 0 < counterDiff new old then (if new < old || old / secUnits < (new - 1) / secUnits then some ((new - 1) / secUnits) else s.time.outSkip)
    else s.time.outSkip.filter fun w => w * secUnits < new
  s.modTime fun t => { t with counter := new, outSkip := skip }

/-- The pending steps are applied, summed (R280, R281); a sum of zero is no step. The time of the last measurement moves with the counter, so
that P of R294 stays the time between measurements. -/
def applySteps (s : State) : State :=
  let h := s.time.pendHost
  let v := s.time.pendServo
  let s1 := (s.modTime fun t => { t with pendHost := 0, pendServo := 0 }).wrBit K.TIME_STATUS 8 false
  if h + v = 0 then s1
  else
    let s2 := ((s1.counterTo (counterAdd s1.time.counter ((h + v) * 2 ^ 24))).modTime fun t =>
      { t with lastMeas := t.lastMeas.map fun m => counterAdd m ((h + v) * 2 ^ 24) }).adjusted
    let origin := if h != 0 && v != 0 then 2 else if v != 0 then 1 else 0
    (s2.record 0x04 0xFF (be 8 (zx 64 (h + v)) ++ be 4 (s2.rd K.TIME_GEN) ++ be 1 origin)).raise Src.TIME_STEP_DONE

/-- A change of source or lane takes effect (R293). -/
def applySource (s : State) : State :=
  if s.time.srcChange then
    let s1 := (((s.modTime fun t => { t with srcChange := false, lane := s.rd K.TIME_LINE_LANE, slew := 0, missed := 0, lastMeas := none }).wr K.TIME_SERVO_FREQ 0).wrField
      K.TIME_STATUS 7 5 (s.rd K.TIME_DISC_SRC))
    if s.rd K.TIME_DISC_SRC = 0 && !s.bit K.TIME_STATUS 4 then s1.holdoverExit else s1
  else s

/-- A gauge tick. -/
def gaugeTick (s : State) : State :=
  let s1 := s.applySteps.applySource
  s1.modTime fun t => { t with rate := s1.timeRate, rateSeq := if t.rate = s1.timeRate then t.rateSeq else t.rateSeq + 1 }

/-! ## SYNC_IN (R283) -/

/-- The sub-cc position of a SYNC_IN edge: `j` LSYN periods of 35.556 ps, in 2^-40 ns. -/
def subCc (j : Nat) : Nat := j * 128 * 2 ^ 40 / 3600

/-! ## SYNC_OUT (R282) -/

/-- From the counter to the next whole second plus `SYNC_OUT_OFFSET`, in 2^-40 ns. -/
def toSecond (s : State) : Nat := ((fsUnits (s.rdI K.SYNC_OUT_OFFSET) - (s.time.counter : Int)) % (secUnits : Int)).toNat

/-- The counter reaches that instant within this cc. -/
def reachesSecond (s : State) : Bool := (s.toSecond : Int) < counterDiff s.time.tick.counter s.time.counter

/-- The whole second to which that instant belongs. -/
def pulseSecond (s : State) : Nat :=
  (((s.time.counter : Int) + s.toSecond - fsUnits (s.rdI K.SYNC_OUT_OFFSET)) / (secUnits : Int) % (2 ^ 48 : Int)).toNat

/-- A set or step since the last pulse would bring two pulses less than 500 ms apart. -/
def pulseNear (s : State) : Bool :=
  match s.time.lastPulse with
  | some c => s.time.adjSincePulse && 2 * (s.now - c) < ccPerSecond
  | none => false

/-- What every stamped edge does. -/
def edgeStamped (s : State) (stamp : Nat) (valid : Bool) : State :=
  ((((s.wr K.SYNC_IN_STAMP (time96 stamp)).incWrap K.SYNC_IN_SEQ).wr K.SYNC_IN_VALID valid.toNat).modTime fun t =>
    { t with prevEdge := some stamp, silenceTold := false, edgeSeen := true }).raise Src.SYNC_IN_EDGE

/-- A pending set takes effect at an edge: the stamp reads the written value plus `SYNC_IN_DELAY`; a step pending for
the same cc is discarded and counted (R280, R283). -/
def edgeSets (s : State) (v : Nat) (j : Nat) (tick : Bool) : State :=
  let target := counterAdd (ofTime96 v) (fsUnits (s.rdI K.SYNC_IN_DELAY))
  let s1 := if tick && (s.time.pendHost != 0 || s.time.pendServo != 0) then
      ((s.modTime fun t => { t with pendHost := 0, pendServo := 0 }).wrBit K.TIME_STATUS 8 false).incSat K.TIME_ADJ_DISCARDED
    else s
  let new := counterAdd target (-(subCc j : Int))
  let s2 := ((s1.counterTo new).modTime fun t =>
    { t with pendSet := none, lastMeas := t.lastMeas.map fun m => counterAdd m (counterDiff new s1.time.counter) }).wrBit K.TIME_STATUS 9 false
  ((s2.adjusted).raise Src.TIME_SET_DONE).edgeStamped target true

/-- Is an edge valid: judged against the edge before it, unless it has none or a silence of 1.5 s lies between. -/
def edgeValid (s : State) (stamp : Nat) : Bool :=
  match s.time.prevEdge with
  | none => true
  | some p =>
    let d := counterDiff stamp p
    let ms := (1000000 * 2 ^ 40 : Int)
    (1500 * ms ≤ d) || ((1000 * ms - 100000 * 2 ^ 40 ≤ d) && (d ≤ 1000 * ms + 100000 * 2 ^ 40))

/-- The error of a SYNC_IN measurement, fs: nearest whole second + delay − stamp (R293). -/
def syncError (s : State) (stamp : Nat) : Int :=
  let x := stamp % secUnits
  let toSec : Int := if 2 * x < secUnits then -(x : Int) else (secUnits : Int) - x
  divOpen (toSec * 1000000) (2 ^ 40) + s.rdI K.SYNC_IN_DELAY

/-- A rising edge of SYNC_IN, `j` LSYN periods into this cc; `tick` when this cc is a gauge tick. -/
def syncEdge (s : State) (j : Nat) (tick : Bool) : State :=
  if !s.on K.SYNC_IN_EN || !s.running then s
  else
    match s.time.pendSet with
    | some v => s.edgeSets v j tick
    | none =>
      let stamp := counterAdd s.time.counter (subCc j)
      let ok := s.edgeValid stamp
      let s1 := s.edgeStamped stamp ok
      if ok then (if s.timeSrc = 1 then s1.servoMeasure (s.syncError stamp) stamp else s1)
      else (s1.incSat K.SYNC_IN_FAULTS).raise Src.SYNC_IN_FAULT

end State

/-! ## Effects of writes -/

/-- `TIME_SET`: armed, replaced, or cancelled by NANOSECONDS = 0xFFFFFFFF (R279). -/
def effTimeSet (v : Nat) (s : State) : State :=
  if field v 47 16 = 0xFFFFFFFF then (s.modTime fun t => { t with pendSet := none }).wrBit K.TIME_STATUS 9 false
  else (s.modTime fun t => { t with pendSet := some v }).wrBit K.TIME_STATUS 9 true

/-- `TIME_STEP`: added to the pending step (R279). -/
def effTimeStep (v : Nat) (s : State) : State :=
  (s.modTime fun t => { t with pendHost := t.pendHost + sx 64 v }).setStepPending

def effTimeRateAdj (v : Nat) (s : State) : State := s.wr K.TIME_RATE_ADJ v

/-- `TIME_DISC_SRC`: a change takes effect at the next gauge tick (R293). -/
def effDiscSrc (v : Nat) (s : State) : State :=
  if v = s.rd K.TIME_DISC_SRC then s
  else (s.wr K.TIME_DISC_SRC v).modTime fun t => { t with srcChange := true }

/-- `TIME_LINE_LANE`: as a change of source while the source is 3 (R293). -/
def effLineLane (v : Nat) (s : State) : State :=
  if v = s.rd K.TIME_LINE_LANE then s
  else (s.wr K.TIME_LINE_LANE v).modTime fun t => { t with srcChange := t.srcChange || s.rd K.TIME_DISC_SRC = 3 }

/-- `SYNC_IN_EN`: the first edge after it becomes 1 is valid (R283). -/
def effSyncInEn (v : Nat) (s : State) : State :=
  let s1 := s.wr K.SYNC_IN_EN v
  if v = 1 && !s.on K.SYNC_IN_EN then
    s1.modTime fun t => { t with prevEdge := none, silenceTold := false, edgeSeen := false }
  else s1

/-! ## Meanings -/

def execTimeSet (r : Fin 18) (v : BitVec 96) (s : State) : Host.Outcome State Fault Refusal :=
  .next (s.write r K.TIME_SET (be 12 v.toNat) (effTimeSet v.toNat))

def execTimeStep (r : Fin 18) (v : BitVec 64) (s : State) : Host.Outcome State Fault Refusal :=
  .next (s.write r K.TIME_STEP (be 8 v.toNat) (effTimeStep v.toNat))

def execTimeRateAdj (r : Fin 18) (v : BitVec 32) (s : State) : Host.Outcome State Fault Refusal :=
  .next (s.write r K.TIME_RATE_ADJ (be 4 v.toNat) (effTimeRateAdj v.toNat))

def execSyncInEdge (j : Fin 16) (tick : Bool) (s : State) : Host.Outcome State Fault Refusal :=
  .next (s.syncEdge j.val tick)

/-- 1.5 s without an edge raises SYNC_IN_FAULT once (R283). -/
def execSyncInSilence (s : State) : Host.Outcome State Fault Refusal :=
  .next (if s.on K.SYNC_IN_EN && s.running && !s.time.silenceTold then
    (s.modTime fun t => { t with silenceTold := true, prevEdge := none }).raise Src.SYNC_IN_FAULT else s)

/-- SYNC_OUT rises in the cc in which the counter reaches a whole second plus `SYNC_OUT_OFFSET`, unless the pin is held low or a set or step
carried the counter across that second (R282). -/
def execSyncOutPulse (s : State) : Host.Outcome State Fault Refusal :=
  .next (if s.running && s.rd K.SYNC_OUT_WIDTH != 0 && s.reachesSecond && !s.pulseNear && s.time.outSkip != some s.pulseSecond then
    s.modTime fun t =>
      { t with outHigh := true, lastPulse := some s.now, outSub := s.toSecond / State.subCc 1, outWidth := s.rd K.SYNC_OUT_WIDTH
               adjSincePulse := false }
    else s)

/-- The pulse ends when its width has passed, never earlier (R282): 225 cc last 128 ns. -/
def execSyncOutPulseEnd (s : State) : Host.Outcome State Fault Refusal :=
  .next (match s.time.lastPulse with
    | some c => if 225 * s.time.outWidth ≤ 128 * (s.now - c) then s.modTime fun t => { t with outHigh := false } else s
    | none => s)

/-- `isLane`: the write is of `TIME_LINE_LANE`, else of `TIME_DISC_SRC` (R293). -/
def execTimeDiscSrcWrite (r : Fin 18) (isLane : Bool) (v : BitVec 8) (s : State) : Host.Outcome State Fault Refusal :=
  .next (if isLane then s.write r K.TIME_LINE_LANE (be 1 v.toNat) (effLineLane v.toNat)
    else s.write r K.TIME_DISC_SRC (be 1 v.toNat) (effDiscSrc v.toNat))

end Sys2Proof.Machine
end

