-- ==== Sys2Proof/Machine/Clock.lean ====
section
/-!
DEFINITION. Root and synthesizers, recovered-clock outputs, availability (01_architecture.md, R14, R20 to R26, R30,
R31). Locking and unlocking of the synthesizers stands in Power.lean.
-/

namespace Sys2Proof.Machine

namespace State

/-! ## Availability (R30, R31) -/

/-- An outage starts, unless one is in progress, which it joins (R30). -/
def outageStart (s : State) (c : OutageCause) : State :=
  match s.clk.outage with
  | some _ => s
  | none => s.modClk fun k => { k with outage := some (c, s.now) }

/-- Lanes that keep an outage open: administratively up, not in C7, and not out of Run by a power request (R30,
R480). -/
def laneOpen (s : State) (n : Fin 16) : Bool :=
  !s.laneDown n && s.rd (K.LINE_CO_PHASE n) != 7 && !(s.unit (laneUnit n)).byRequest

/-- The counter of a cause (R31). -/
def outageKey : OutageCause → Key
  | .line => K.AVAIL_CNT_LINE
  | .power => K.AVAIL_CNT_POWER
  | .trip => K.AVAIL_CNT_TRIP

/-- The outage ends when every administratively up lane is in C7: its time is added, it is counted once under the
cause that started it, and the entries are saved (R30, R31). From a POR to the load that follows no outage ends: which lanes count
the load alone says. -/
def outageCheck (s : State) : State :=
  match s.clk.outage with
  | none => s
  | some (c, t0) =>
    if (s.pwr.fromPor && s.pwr.loadDue) || (allFin 16).any s.laneOpen then s
    else (((s.addSat K.AVAIL_OUTAGE_US (ccToUs (s.now - t0))).incSat (outageKey c)).modClk fun k =>
      { k with outage := none }).startSave

/-! ## Root (R20, R22) -/

/-- The root is declared lost. With LSYN running: held-frequency mode, HSYN on LSYN/180, CLK_REF_LOSS, the count,
holdover (R20, R24). -/
def rootLost (s : State) : State :=
  let s1 := (s.modClk fun c => { c with rootValid := false }).wrBit K.CLK_STATUS 2 false
  if s.clk.lsynRuns then
    let s2 := (((s1.wrBit K.CLK_STATUS 0 false).wrBit K.CLK_STATUS 3 true).wrBit K.CLK_STATUS 4 true).wrBit K.CLK_STATUS 1 true
    ((s2.incSat K.CLK_REF_LOSS_COUNT).raise Src.CLK_REF_LOSS).timeRootLost
  else s1

/-- The root is valid again and LSYN has re-acquired it: HELD and CROSS_LOCK clear, CLK_REF_RESTORED (R22). -/
def rootBack (s : State) : State :=
  let s1 := (s.modClk fun c => { c with rootValid := true }).wrBit K.CLK_STATUS 2 true
  if s.bit K.CLK_STATUS 3 then
    let s2 := ((s1.wrBit K.CLK_STATUS 3 false).wrBit K.CLK_STATUS 4 false).wrBit K.CLK_STATUS 0 true
    (s2.raise Src.CLK_REF_RESTORED).timeRootBack
  else s1

/-- The synthesizers move to root `v`; `valid` says whether that root is valid (R14). A change from a lost root to one that is not valid
either raises and counts nothing: the device has no root before and none after (DESIGN CHOICE, log entry 94). -/
def rootSelect (s : State) (v : Nat) (valid : Bool) : State :=
  let s1 := s.wrBit K.CLK_STATUS 5 (v == 1)
  if valid then (if s.clk.rootValid then s1 else s1.rootBack) else (if s.clk.rootValid then s1.rootLost else s1)

/-! ## Recovered-clock outputs (R25, R26) -/

def rclkoKey (i : Fin 2) : Key := if i = 0 then K.RCLKO0_CFG else K.RCLKO1_CFG

def squelch (s : State) (i : Fin 2) (b : Bool) : State :=
  s.modClk fun c => { c with squelched := c.squelched.set i b }

/-- The source lane of an output. -/
def rclkoLane (s : State) (i : Fin 2) : Nat := field (s.rd (rclkoKey i)) 3 0

/-- Lane Ln lost frame lock: the outputs it sources are squelched (R26). -/
def rclkoLaneLost (s : State) (n : Fin 16) : State :=
  forAll (allFin 2) (fun i s => if s.rclkoLane i == n.val then s.squelch i true else s) s

end State

/-! ## Effects of writes -/

/-- `CLK_REF_SRC`: a change moves the synthesizers (R14); it is a setting of R173 for every lane. -/
def effClkRefSrc (v : Nat) (valid : Bool) (s : State) : State :=
  let s1 := s.wr K.CLK_REF_SRC v
  if v = s.rd K.CLK_REF_SRC then s1
  else forAll (allFin 16) (fun n s => s.modLane n fun l => { l with cfgPend := true }) (s1.rootSelect v valid)

/-- A write of LANE or DIV squelches the output (R26). -/
def effRclko (i : Fin 2) (v : Nat) (s : State) : State := (s.wr (State.rclkoKey i) v).squelch i true

def effAvailClear (v : Nat) (s : State) : State :=
  if v = 1 then
    (s.clrAll [K.AVAIL_OUTAGE_US, K.AVAIL_CNT_LINE, K.AVAIL_CNT_POWER, K.AVAIL_CNT_TRIP]).startSave
  else s

/-! ## Meanings -/

/-- A write of `CLK_REF_SRC`; `valid`: is the newly selected root valid (R14). -/
def execClkRefSrcWrite (r : Fin 18) (v : BitVec 8) (valid : Bool) (s : State) : Host.Outcome State Fault Refusal :=
  .next (s.write r K.CLK_REF_SRC (be 1 v.toNat) (effClkRefSrc v.toNat valid))

def execRootLost (s : State) : Host.Outcome State Fault Refusal := .next (if s.clk.rootValid then s.rootLost else s)

def execRootRestored (s : State) : Host.Outcome State Fault Refusal := .next (if s.clk.rootValid then s else s.rootBack)

def execRclkoCfgWrite (r : Fin 18) (i : Fin 2) (v : BitVec 16) (s : State) : Host.Outcome State Fault Refusal :=
  .next (s.write r (State.rclkoKey i) (be 2 v.toNat) (effRclko i v.toNat))

/-- The first epoch boundary at which the source lane has held frame lock for a whole epoch (R26). -/
def execRclkoRelease (i : Fin 2) (s : State) : Host.Outcome State Fault Refusal :=
  .next (if h : s.rclkoLane i < 16 then
    if (s.lane ⟨s.rclkoLane i, h⟩).heldEpoch then s.squelch i false else s
  else s)

def execAvailClear (r : Fin 18) (v : BitVec 8) (s : State) : Host.Outcome State Fault Refusal :=
  .next (s.write r K.AVAIL_CLEAR (be 1 v.toNat) (effAvailClear v.toNat))

end Sys2Proof.Machine
end

