-- ==== Sys2Proof/Machine/Detect.lean ====
section
/-!
DEFINITION. What the receive chain of a line lane does with its samples (02_line_receive.md, R35, R41 to R57): per-slice
correction, FFE, baseline, NLC, MLSE and slicer with their reliabilities, precoder inverse, timing recovery. Plain functions of
the samples; LineRx.lean puts them in place. Corrected samples are in 2^-23 code, x in 2^-16 and y, z, e in 2^-26 normalized
units, coefficients in 2^-22 (log entry 12).
-/

namespace Sys2Proof.Machine

/-! ## Rounding -/

/-- round(a / b): the nearest integer; of two equally near ones the spec names none (log entry 3). -/
def roundOpen (a : Int) (b : Nat) : Int :=
  if 2 * (a % (b : Int)) = (b : Int) then divOpen a b
  else (2 * a + (b : Int)) / (2 * (b : Int))

/-- The amplitude of level index 0 to 3: -3, -1, +1, +3. -/
def levelOf (a : Fin 4) : Int := 2 * a.val - 3

/-- Number of active taps by `LINE_FFE_LEN` (R47). -/
def ffeLen (v : Nat) : Nat := match v with | 0 => 48 | 1 => 32 | 2 => 24 | _ => 16

/-- Element of a list of integers, 0 beyond it. -/
def getI (l : List Int) (i : Nat) : Int := (l[i]?).getD 0

/-- The coefficient of an accumulator: rounded and saturated (R57). -/
def tapOf (acc : Int) : Int := clampI (-2048) 2047 (roundOpen acc 4096)

/-! ## Samples (R41, R43, R259, R260) -/

/-- A code at the end of the converter's range (R43). -/
def clipped (c : BitVec 8) : Bool := c == 0x80 || c == 0x7F

/-- A code corrected by the slice that took it: the offset correction added, then the gain (R41, log entry 74). -/
def sliceCorr (sl : List SliceS) (slot : Nat) (c : BitVec 8) : Int :=
  match sl.find? fun y => y.slot == slot with
  | some y => (c.toInt * 256 + y.off) * y.gain
  | none => c.toInt * 2 ^ 23

/-- The corrected samples of a cc whose first sample lies in logical slot `slot0`. -/
def corrected (sl : List SliceS) (slot0 : Nat) (codes : List (BitVec 8)) : List Int :=
  codes.mapIdx fun i c => sliceCorr sl ((slot0 + i) % 16) c

/-- A corrected sample in normalized units; how many codes a unit is stays open (log entry 74). -/
def unitsOf (v : Int) : Int := divOpen (v * Config.codeUnit) (2 ^ 23)

/-- A corrected sample as a two's complement code (swatch point 0). -/
def codeOf (v : Int) : BitVec 8 := BitVec.ofInt 8 (clampI (-128) 127 (roundOpen v (2 ^ 23)))

/-! ## FFE, baseline, NLC (R47 to R51, R70) -/

/-- FFE output with the samples from x[n+main] back, newest first (2^-26). -/
def ffeOut (taps : List Int) (x : List Int) : Int := (List.zipWith (· * ·) taps x).foldl (· + ·) 0

/-- Level index of a value in 2^-26 quantized at -2, 0 and +2; a value at a threshold takes the upper level (R51, R53; DESIGN
CHOICE, log entry 75). -/
def quant (y : Int) : Fin 4 :=
  if y < -(2 * 2 ^ 26) then 0 else if y < 0 then 1 else if y < 2 * 2 ^ 26 then 2 else 3

/-- NLC index of the symbol between its two neighbours (R51). -/
def nlcIdx (before now after : Int) : Nat := 16 * (quant before).val + 4 * (quant now).val + (quant after).val

/-- What of the lane's settings the chain uses: taps in force, samples a symbol (2 in Courn-225, R70), the switches. -/
structure RxCfg where
  taps : List Int
  main : Nat
  perSym : Nat
  slicer : Bool
  blt : Bool
  nlc : Bool
  prec : Bool
deriving DecidableEq, Repr

/-- Symbols a cc: 128, in Courn-225 64 (R52, R70). -/
def RxCfg.syms (g : RxCfg) : Nat := 128 / g.perSym

/-- z of a symbol (R50, R51). -/
def zOf (g : RxCfg) (c : Coefs) (idx : Nat) (y : Int) : Int :=
  y - (if g.blt then c.b * 16 else 0) - (if g.nlc then getI c.lut idx * 2 ^ 19 else 0)

/-- The samples of one symbol enter, oldest first: the FFE's output of the newest symbol, z of the symbol before it (R47, R51,
R70: every second FFE output is dropped in Courn-225). -/
def rxPush (g : RxCfg) (c : Coefs) (r : RxS) (x : List Int) : RxS :=
  let xs := x.reverse ++ r.xs
  let y := ffeOut g.taps xs
  let now := getI r.ys 0
  let idx := nlcIdx (getI r.ys 1) now y
  { r with xs := xs, ys := y :: r.ys, zs := zOf g c idx now :: r.zs, ids := idx :: r.ids }

/-- Cut a list into pieces of `k`, `fuel` of them at most. -/
def chunks {α : Type} (k : Nat) : Nat → List α → List (List α)
  | 0, _ => []
  | fuel + 1, l => if l.isEmpty then [] else l.take k :: chunks k fuel (l.drop k)

/-- All samples of a cc enter; the histories keep what later symbols need. -/
def rxFilter (g : RxCfg) (c : Coefs) (r : RxS) (x : List Int) : RxS :=
  let r1 := (chunks g.perSym x.length x).foldl (rxPush g c) r
  { r1 with xs := r1.xs.take 400, ys := r1.ys.take 200, zs := r1.zs.take 200, ids := r1.ids.take 200 }

/-! ## MLSE and slicer (R52 to R54) -/

/-- The partial-response reference of a symbol after two others (2^-26). -/
def refOf (h1 h2 : Int) (a a1 a2 : Fin 4) : Int := levelOf a * 2 ^ 26 + h1 * 16 * levelOf a1 + h2 * 16 * levelOf a2

/-- Branch metric: the square of z - ref (2^-52). -/
def branch (h1 h2 z : Int) (a a1 a2 : Fin 4) : Int := (z - refOf h1 h2 a a1 a2) ^ 2

/-- The least of a list, `d` of an empty one. -/
def minOf (d : Int) (l : List Int) : Int :=
  match l with
  | [] => d
  | x :: xs => xs.foldl min x

/-- Metric of state (a1, a2). -/
def metric (m : List Int) (a1 a2 : Fin 4) : Int := getI m (4 * a1.val + a2.val)

/-- The best metric of every state (a, a1) after a symbol, from those before it. -/
def viterbiFwd (h1 h2 : Int) (m : List Int) (z : Int) : List Int :=
  (allFin 4).flatMap fun a => (allFin 4).map fun a1 =>
    minOf 0 ((allFin 4).map fun a2 => metric m a1 a2 + branch h1 h2 z a a1 a2)

/-- The best metric of the rest of the window from every state (a1, a2), from those after the symbol. -/
def viterbiBack (h1 h2 : Int) (z : Int) (m : List Int) : List Int :=
  (allFin 4).flatMap fun a1 => (allFin 4).map fun a2 =>
    minOf 0 ((allFin 4).map fun a => metric m a a1 + branch h1 h2 z a a1 a2)

/-- Before each symbol the best metrics of the past, oldest first. -/
def fwdAll (h1 h2 : Int) : List Int → List Int → List (List Int)
  | _, [] => []
  | m, z :: zs => m :: fwdAll h1 h2 (viterbiFwd h1 h2 m z) zs

/-- After each symbol the best metrics of the rest of the window, oldest first; none remains after the last. -/
def backAll (h1 h2 : Int) : List Int → List (List Int)
  | [] => []
  | [_] => [List.replicate 16 0]
  | _ :: z :: zs =>
    let rest := backAll h1 h2 (z :: zs)
    viterbiBack h1 h2 z (rest.headD []) :: rest

/-- The best metric of any path through the window that decides a symbol as `a`. -/
def pathCost (h1 h2 z : Int) (past rest : List Int) (a : Fin 4) : Int :=
  minOf 0 ((allFin 4).flatMap fun a1 => (allFin 4).map fun a2 => metric past a1 a2 + branch h1 h2 z a a1 a2 + metric rest a a1)

/-- The level of least cost; of equal ones the lowest (DESIGN CHOICE, log entry 75). -/
def bestLevel (cost : Fin 4 → Int) : Fin 4 := ((allFin 4).drop 1).foldl (fun b a => if cost a < cost b then a else b) 0

/-- Reliability (R54): Δ in 2^-3 for the MLSE, the distance in 2^-5 for the slicer, both cut off at 15. -/
def reliability (steps : Nat) : Nat := min 15 steps

/-- Decision and reliability of a symbol by the MLSE: Δ is the best metric of a path that decides differently, less the best. -/
def mlseDecide (h1 h2 z : Int) (past rest : List Int) : Fin 4 × Nat :=
  let cost := pathCost h1 h2 z past rest
  let a := bestLevel cost
  (a, reliability ((minOf 0 (((allFin 4).filter (· != a)).map cost) - cost a) / 2 ^ 49).toNat)

/-- The Viterbi detector on a window: its decisions with their reliabilities (R52 to R54). -/
def mlse (h1 h2 : Int) (zs : List Int) : List (Fin 4 × Nat) :=
  List.zipWith (fun z pr => mlseDecide h1 h2 z pr.1 pr.2) zs
    (List.zip (fwdAll h1 h2 (List.replicate 16 0) zs) (backAll h1 h2 zs))

/-- Slicer mode: the level between the thresholds, its distance to the nearest one (R53, R54). -/
def slicerDecide (z : Int) : Fin 4 × Nat :=
  let d := min z.natAbs (min (z - 2 * 2 ^ 26).natAbs (z + 2 * 2 ^ 26).natAbs)
  (quant z, reliability (32 * d / 2 ^ 26))

/-- The z values of a window, oldest first: 32 symbols of warm-up, the symbols of a cc, 32 of traceback (R52). -/
def rxWindow (g : RxCfg) (r : RxS) : List Int := (List.range (64 + g.syms)).map fun i => getI r.zs (63 + g.syms - i)

/-- The symbols of a cc that are decided now, oldest first: those before the 32 symbols of traceback (R52). -/
def decided (g : RxCfg) (c : Coefs) (r : RxS) : List (Fin 4 × Nat) :=
  let w := rxWindow g r
  if g.slicer then ((w.drop 32).take g.syms).map slicerDecide else ((mlse c.h1 c.h2 w).drop 32).take g.syms

/-- The data symbols of decided ones after `p`: with the precoder inverse b = (a + a') mod 4, the smaller of the two
reliabilities (R55). -/
def dataSyms (prec : Bool) : Fin 4 × Nat → List (Fin 4 × Nat) → List (Fin 4 × Nat)
  | _, [] => []
  | p, a :: as => (if prec then (a.1 + p.1, min a.2 p.2) else a) :: dataSyms prec a as

/-- A value at swatch points 1 and 2: 32 steps a unit (R68). -/
def swatchValue (v : Int) : Byte := BitVec.ofInt 8 (clampI (-128) 127 (roundOpen v (2 ^ 21)))

/-- A decision at swatch point 3: level index, reliability, zeros (R68). -/
def swatchDecision (d : Fin 4 × Nat) : Byte := BitVec.ofNat 8 (64 * d.1.val + 4 * d.2)

/-- The samples of a cc at a swatch point, oldest first; in Courn-225 point 0 gives both samples of a symbol, the others one
value (R67, R68, R70). -/
def swatchBytes (g : RxCfg) (point : Nat) (v : List Int) (r : RxS) (dec : List (Fin 4 × Nat)) : List Byte :=
  match point with
  | 0 => v.map codeOf
  | 1 => ((r.ys.take g.syms).reverse).map swatchValue
  | 2 => ((r.zs.take g.syms).reverse).map swatchValue
  | _ => dec.map swatchDecision

/-- The bit pair of a level: Gray code backwards (R75, Table 3-2), the first bit the more significant. -/
def levelBits (a : Fin 4) : Nat := match a with | 0 => 0 | 1 => 1 | 2 => 3 | 3 => 2

/-- The bits of PAM4 levels. -/
def pam4Bits (l : List (Fin 4)) : List Bool := l.flatMap fun a => [(levelBits a).testBit 1, (levelBits a).testBit 0]

/-! ## Gradient samples (R57) -/

/-- A gradient sample: the samples x[n+main], x[n+main-1], ..., the NLC index, z[n], z[n-1], the decisions a[n], a[n-1], a[n-2]. -/
structure Grad where
  x : List Int
  idx : Nat
  z : Int
  zp : Int
  a0 : Fin 4
  a1 : Fin 4
  a2 : Fin 4
deriving DecidableEq, Repr

/-- The sixteen gradient samples of a cc: consecutive symbols from the rotating position on (log entry 76), out of the symbols
`dec` decided now, the last two before them being `prev`. -/
def gradients (g : RxCfg) (r : RxS) (prev dec : List (Fin 4 × Nat)) : List Grad :=
  let lv : List (Fin 4) := (prev ++ dec).map (·.1)
  (List.range 16).map fun i =>
    let p := (r.pos + i) % g.syms
    let q := 32 + (g.syms - 1 - p)
    ⟨(r.xs.drop (g.perSym * (q + 1))).take 48, (r.ids[q]?).getD 0, getI r.zs q, getI r.zs (q + 1),
      (lv[p + 2]?).getD 0, (lv[p + 1]?).getD 0, (lv[p]?).getD 0⟩

/-- The main-cursor value u (R64); in slicer mode h1 = h2 = 0 (R53). -/
def uOf (c : Coefs) (slicer : Bool) (g : Grad) : Int :=
  if slicer then g.z else g.z - c.h1 * 16 * levelOf g.a1 - c.h2 * 16 * levelOf g.a2

/-- The error e of a sample (R57). -/
def eOf (c : Coefs) (slicer : Bool) (g : Grad) : Int := uOf c slicer g - levelOf g.a0 * 2 ^ 26

/-! ## Timing recovery (R44, R46) -/

/-- The Mueller-Müller detector on a sample (2^-26). -/
def mmDetect (g : Grad) : Int := g.z * levelOf g.a1 - g.zp * levelOf g.a0

/-- One cc of the loop, integrator and phase in 2^-46 steps of 1/64 UI (log entry 77): `held` under loss of signal, `frz` the
integrator alone; the interpolators follow the phase by at most 2 steps. -/
def cdrStep (kp ki : Nat) (held frz : Bool) (sum : Int) (r : RxS) : RxS :=
  let integ := if held || frz then r.integ else r.integ + sum * 2 ^ (20 - ki)
  let phase := r.phase + integ + (if held then 0 else sum * 2 ^ (20 - kp))
  { r with integ := integ, phase := phase, steps := r.steps + clampI (-2) 2 (phase / 2 ^ 46 - r.steps) }

/-- `LINE_CDR_FREQ`: the far end is fast by what the sampling delay loses a cc (log entry 77). -/
def cdrFreq (r : RxS) : Int := clampI (-2147483648) 2147483647 (-(divOpen (r.integ * 1220703125) (10000 * 2 ^ 46)))

/-- `LINE_CDR_PHASE`: the fraction of a UI, 2^-16. -/
def cdrPhase (r : RxS) : Nat := (r.phase / 2 ^ 36 % 65536).toNat

end Sys2Proof.Machine
end

