-- ==== Sys2Proof/Machine/LineRx.lean ====
section
/-!
DEFINITION. The receive chain of a line lane (02_line_receive.md, R35 to R72): CTLE, AGC, adaptation and its freezes,
the divergence guard, snapshots, the quality monitor and swatch capture, over the functions of Detect.lean.
-/

namespace Sys2Proof.Machine

/-! ## Decibels (R64) -/

/-- The largest i of `bits` bits, plus `lo`, with 10^i <= (p/q)^1000; `lo` itself is taken to satisfy it. -/
def log10Search (p q : Nat) (lo : Int) : Nat → Int
  | 0 => lo
  | bits + 1 =>
    let m := lo + 2 ^ bits
    let ok := if 0 ≤ m then 10 ^ m.toNat * q ^ 1000 ≤ p ^ 1000 else q ^ 1000 ≤ p ^ 1000 * 10 ^ (-m).toNat
    log10Search p q (if ok then m else lo) bits

/-- 10 log10(p / q) in units of 0.01 dB, its rounding open (R64, log entry 3); below 2^15 in magnitude. -/
def centiDb (p q : Nat) : Int :=
  let f := log10Search p q (-32767) 16
  let exact := if 0 ≤ f then 10 ^ f.toNat * q ^ 1000 = p ^ 1000 else q ^ 1000 = p ^ 1000 * 10 ^ (-f).toNat
  if exact then f else if Config.roundUp p q then f + 1 else f

namespace State

/-! ## Freezes (R60, Table 2-6) -/

/-- Frame lock of the lane (R119, Table 4-5). -/
def frameLock (s : State) (n : Fin 16) : Bool := s.bit (K.LINE_LOCK_STATUS n) 1

/-- Cast-on phase of the lane. -/
def phase (s : State) (n : Fin 16) : Nat := s.rd (K.LINE_CO_PHASE n)

def losOn (s : State) (n : Fin 16) : Bool := s.on (K.LINE_LOS_STATUS n)
def substFreeze (s : State) (n : Fin 16) : Bool := s.now < (s.lane n).substUntil
def lockFreeze (s : State) (n : Fin 16) : Bool := 5 ≤ s.phase n && !s.frameLock n
def adaptCtrl (s : State) (n : Fin 16) (i : Nat) : Bool := s.bit (K.LINE_ADAPT_CTRL n) i

/-- Causes that freeze every stage but the baseline for lock absence. -/
def freezeBase (s : State) (n : Fin 16) : Bool := (s.lane n).adapt = 0 || s.losOn n || s.substFreeze n

def frzFfe (s : State) (n : Fin 16) : Bool := s.freezeBase n || s.lockFreeze n || s.adaptCtrl n 1 || (s.lane n).tripFfe
def frzNlc (s : State) (n : Fin 16) : Bool := s.freezeBase n || s.lockFreeze n || s.adaptCtrl n 2
def frzMlse (s : State) (n : Fin 16) : Bool := s.freezeBase n || s.lockFreeze n || s.adaptCtrl n 3 || (s.lane n).tripMlse
def frzAgc (s : State) (n : Fin 16) : Bool := s.freezeBase n || s.lockFreeze n || s.adaptCtrl n 4
def frzBlt (s : State) (n : Fin 16) : Bool := s.freezeBase n || s.adaptCtrl n 5

/-- `LINE_ADAPT_STATUS` (Table 2-5). -/
def adaptStatus (s : State) (n : Fin 16) : Nat :=
  let l := s.lane n
  let all := s.frzFfe n && s.frzNlc n && s.frzMlse n && s.frzAgc n && s.frzBlt n
  (if l.guardTripped then 128 else 0) + (if s.substFreeze n then 64 else 0) + (if s.losOn n then 32 else 0) +
  (if s.lockFreeze n then 16 else 0) + (if field (s.rd (K.LINE_ADAPT_CTRL n)) 5 0 != 0 then 8 else 0) +
  (if l.warm then 4 else 0) + (if l.adapt = 0 then 0 else if all then 3 else l.adapt)

/-! ## Snapshots (R63) -/

/-- Take a snapshot: the entries take what is in force, the sequence moves. -/
def snapshot (s : State) (n : Fin 16) : State :=
  let c := (s.lane n).coef
  let s1 := forAll (List.range 48) (fun k s => s.wrI (K.LINE_FFE_TAP n k) (tapOf (getI c.acc k))) s
  let s2 := forAll (List.range 64) (fun k s => s.wrI (K.LINE_NLC_LUT n k) (getI c.lut k)) s1
  let s3 := s2.wrI (K.LINE_MLSE_H1 n) (clampI 0 768 (roundOpen c.h1 4096))
  ((s3.wrI (K.LINE_MLSE_H2 n) (clampI (-256) 256 (roundOpen c.h2 4096))).incWrap (K.LINE_FFE_SNAP_SEQ n))

/-- A snapshot is due at the next receive codeword boundary (R63). -/
def snapLater (s : State) (n : Fin 16) : State := s.modLane n fun l => { l with snapPend := true }

/-- A change that may start a freeze of the FFE; its start takes a snapshot (R63). -/
def followFreeze (s : State) (n : Fin 16) (f : State → State) : State :=
  if !s.frzFfe n && (f s).frzFfe n then (f s).snapLater n else f s

/-- Taps at or above `LINE_FFE_LEN`'s count are held at zero, and tap main - 1 in acquisition (R47, R48). -/
def holdTaps (s : State) (n : Fin 16) (c : Coefs) : Coefs :=
  let len := ffeLen (s.rd (K.LINE_FFE_LEN n))
  { c with acc := c.acc.mapIdx fun k v =>
      if len ≤ k || ((s.lane n).adapt = 1 && k + 1 = s.rd (K.LINE_FFE_MAIN n)) then 0 else v }

/-- Replace the coefficients in force. -/
def setCoef (s : State) (n : Fin 16) (c : Coefs) : State := s.modLane n fun l => { l with coef := s.holdTaps n c }

/-- The cold-start coefficients of the lane. -/
def coldCoef (s : State) (n : Fin 16) : Coefs := Coefs.cold (s.rd (K.LINE_FFE_MAIN n))

/-! ## Acquisition (R58) -/

/-- Start an acquisition: warm when the lane has reached C7 since POR and COLD is 0 (and no lane reset intervened,
R71). A period of 0 starts in tracking. A warm RESTART in C7 of a lane that has never left C7 keeps the set in force: the set 'it held
when it last left C7' does not exist yet (DESIGN CHOICE, log entry 95). -/
def acqStart (s : State) (n : Fin 16) (forceCold : Bool) : State :=
  let l := s.lane n
  let warm := l.reachedC7 && !s.adaptCtrl n 7 && !l.coldNext && !forceCold
  let c := if warm then l.lastC7.getD l.coef else s.coldCoef n
  (s.modLane n fun l =>
    { l with warm := warm, coldNext := false, restartPend := false, ctleSearch := none,
             adapt := if s.rd (K.LINE_ADAPT_ACQ_CC n) = 0 then 2 else 1 }).setCoef n c

/-- RESTART clears GUARD_TRIPPED and ends the freeze of the tripped stage (Tables 2-5, 2-6). -/
def guardClear (s : State) (n : Fin 16) : State :=
  s.modLane n fun l => { l with guardTripped := false, tripFfe := false, tripMlse := false, satFfe := 0, satMlse := 0 }

/-- Adaptation stops: the lane left C4 to C7 for C0 to C3, or went down (Table 2-6). A CTLE search that this or a RESTART cuts
leaves the peaking where it stood and `LINE_CTLE_PEAK` as it was (DESIGN CHOICE, log entry 96). -/
def adaptStop (s : State) (n : Fin 16) : State :=
  s.followFreeze n fun s => s.modLane n fun l => { l with adapt := 0, restartPend := false, ctleSearch := none }

/-- The lane leaves C7: what the chain holds is what a warm start takes (R58). -/
def leaveC7 (s : State) (n : Fin 16) : State := s.modLane n fun l => { l with lastC7 := some l.coef }

/-! ## CTLE search (R38) -/

/-- The first post-cursor tap, as a coefficient × 1,024. -/
def firstPost (s : State) (n : Fin 16) : Int := tapOf (getI (s.lane n).coef.acc (s.rd (K.LINE_FFE_MAIN n) + 1))

/-- The search ends at the peaking in place; tracking follows. -/
def ctleSearchEnd (s : State) (n : Fin 16) : State :=
  ((s.wr (K.LINE_CTLE_PEAK n) (s.lane n).ctleNow).noteUnsaved (K.LINE_CTLE_PEAK n)).modLane n fun l =>
    { l with ctleSearch := none, adapt := 2 }

/-- One read of the search: above 0.35 up, below 0.15 down, else stop; at most 28 steps. The peaking stays within
0 to 28, and a step that would leave the range ends the search. -/
def ctleSearchRead (s : State) (n : Fin 16) (steps : Nat) : State :=
  let c := (s.firstPost n).natAbs
  let p := (s.lane n).ctleNow
  if steps < 28 && 20 * c > 7 * 1024 && p < 28 then
    s.modLane n fun l => { l with ctleNow := p + 1, ctleSearch := some (steps + 1) }
  else if steps < 28 && 20 * c < 3 * 1024 && 0 < p then
    s.modLane n fun l => { l with ctleNow := p - 1, ctleSearch := some (steps + 1) }
  else s.ctleSearchEnd n

/-- The acquisition period has ended: the search starts, or tracking (R38, R58). -/
def acqPeriodEnd (s : State) (n : Fin 16) : State :=
  if (s.lane n).adapt = 1 && (s.lane n).ctleSearch.isNone then
    if s.on (K.LINE_CTLE_ADAPT n) then s.ctleSearchRead n 0 else s.modLane n fun l => { l with adapt := 2 }
  else s

/-- A settle wait of the search has passed. The device chooses only while `LINE_CTLE_ADAPT` is 1: at 0 the search ends where it
is (R38, log entry 79). -/
def ctleSearchStep (s : State) (n : Fin 16) : State :=
  match (s.lane n).ctleSearch with
  | some k => if s.on (K.LINE_CTLE_ADAPT n) then s.ctleSearchRead n k else s.ctleSearchEnd n
  | none => s

/-! ## AGC (R39) -/

/-- The RMS code of the latest update's samples against `LINE_AGC_TARGET`: below it, above it, or equal. -/
def agcSense (s : State) (n : Fin 16) : Ordering :=
  let p := (s.lane n).power
  compare p.2 (p.1 * (s.rd (K.LINE_AGC_TARGET n) * 2 ^ 23) ^ 2)

/-- The gain one step nearer to the target, within 0 to 60. -/
def agcNext (s : State) (n : Fin 16) : Nat :=
  let g := s.rd (K.LINE_VGA_GAIN n)
  match s.agcSense n with
  | .lt => min 60 (g + 1)
  | .gt => g - 1
  | .eq => g

/-- In acquisition the gain moves freely: a step an update (log entry 79). -/
def agcFree (s : State) (n : Fin 16) : State :=
  if s.on (K.LINE_AGC_EN n) && (s.lane n).adapt = 1 && !s.frzAgc n && (s.lane n).power.1 != 0 then
    s.wr (K.LINE_VGA_GAIN n) (s.agcNext n)
  else s

/-- One step of the gain in tracking at a codeword boundary, at most one in 65,536 cc, and every tap times the inverse of the
gain change (0.9716 for +0.25 dB). -/
def agcStep (s : State) (n : Fin 16) : State :=
  let g := s.rd (K.LINE_VGA_GAIN n)
  let g' := s.agcNext n
  let due := match (s.lane n).agcAt with | none => true | some c => c + 65536 ≤ s.now
  if s.on (K.LINE_AGC_EN n) && (s.lane n).adapt = 2 && !s.frzAgc n && (s.lane n).power.1 != 0 && due && g' != g then
    let scale (v : Int) : Int := clampI (-8388608) 8388607 (if g < g' then divOpen (v * 9716) 10000 else divOpen (v * 10000) 9716)
    (s.wr (K.LINE_VGA_GAIN n) g').modLane n fun l =>
      { l with agcAt := some s.now, coef := { l.coef with acc := l.coef.acc.map scale } }
  else s

/-! ## Adaptation (R57) -/

/-- NLC and baseline updates of one cc, and the errors of its samples. -/
def adaptCc (s : State) (n : Fin 16) (gs : List Grad) (c : Coefs) : Coefs × List Int :=
  let slicer := s.rd (K.LINE_MLSE_MODE n) == 1
  let mu := s.rd (if (s.lane n).adapt = 1 then K.LINE_NLC_MU_ACQ n else K.LINE_NLC_MU_TRK n)
  let es := gs.map (eOf c slicer)
  let lut :=
    if s.on (K.LINE_NLC_EN n) && !s.frzNlc n then
      (List.zip gs es).foldl (fun lut p =>
        lut.modify p.1.idx fun v => clampI (-128) 127 (v + roundOpen (128 * p.2) (2 ^ (26 + mu)))) c.lut
    else c.lut
  let b :=
    if s.on (K.LINE_BLT_EN n) && !s.frzBlt n && !gs.isEmpty then
      c.b + divOpen (es.foldl (· + ·) 0) (gs.length * 2 ^ (4 + s.rd (K.LINE_BLT_SHIFT n)))
    else c.b
  ({ c with lut := lut, b := b }, es)

/-- FFE and target updates of R57 on the samples gathered since the last update. In slicer mode h1 and h2 are not in use and keep
their stored values (DESIGN CHOICE, log entry 75). -/
def adaptSlow (s : State) (n : Fin 16) (ps : List (Grad × Int)) (c : Coefs) : Coefs :=
  let acq := (s.lane n).adapt = 1
  let muF := s.rd (if acq then K.LINE_FFE_MU_ACQ n else K.LINE_FFE_MU_TRK n)
  let muM := s.rd (if acq then K.LINE_MLSE_MU_ACQ n else K.LINE_MLSE_MU_TRK n)
  let corr (f : Grad → Int) : Int := ps.foldl (fun a p => a + p.2 * f p.1) 0
  let acc :=
    if s.frzFfe n then c.acc
    else c.acc.mapIdx fun k v => clampI (-8388608) 8388607 (v - divOpen (corr fun g => getI g.x k) (2 ^ (26 + muF)))
  let c1 := s.holdTaps n { c with acc := acc }
  if s.frzMlse n || s.rd (K.LINE_MLSE_MODE n) = 1 then c1
  else
    { c1 with
      h1 := clampI 0 3145728 (c.h1 + divOpen (corr fun g => levelOf g.a1) (2 ^ (10 + muM)))
      h2 := clampI (-1048576) 1048576 (c.h2 + divOpen (corr fun g => levelOf g.a2) (2 ^ (10 + muM))) }

/-- Coefficients of an update with those of `c0` that a write put in place at this cc's boundary: the written value stands (R62). -/
def keepWritten (s : State) (n : Fin 16) (c0 c : Coefs) : Coefs :=
  let l := s.lane n
  if l.wroteAt != s.now then c
  else l.wrote.foldl (fun c w =>
    match w.1 with
    | 0x12 => { c with acc := c.acc.set (w.2 - 1) (getI c0.acc (w.2 - 1)) }
    | 0x14 => { c with lut := c.lut.set (w.2 - 1) (getI c0.lut (w.2 - 1)) }
    | _ => if w.2 = 2 then { c with h1 := c0.h1 } else { c with h2 := c0.h2 }) c

/-- A tap sits at a saturation limit (R61). -/
def tapAtLimit (c : Coefs) : Bool := c.acc.any fun v => tapOf v == -2048 || tapOf v == 2047

/-- h1 or h2 sits at a limit of its range (R61). -/
def targetAtLimit (c : Coefs) : Bool := c.h1 == 0 || c.h1 == 3145728 || c.h2 == 1048576 || c.h2 == -1048576

/-! ## Quality monitor (R64 to R66) -/

/-- One bin of a histogram of 256 × U32, most significant byte first, counts one more, saturating. -/
def histAdd (h bin : Nat) : Nat :=
  let i := 32 * (255 - bin)
  if field h (i + 31) i = 0xFFFFFFFF then h else h + 2 ^ i

/-- Accumulate one gradient sample. -/
def lqmSample (c : Coefs) (slicer : Bool) (l : LaneS) (g : Grad) : LaneS :=
  let u := uOf c slicer g
  let t := l.levels.get g.a0
  { l with
    levels := l.levels.set g.a0 ⟨t.n + 1, t.sum + u, t.sq + u * u⟩
    hist := histAdd l.hist (clampI 0 255 (roundOpen u (2 ^ 21) + 128)).toNat }

/-- σ² of a level as a fraction: n·Σu² − (Σu)² over n² × 2^52. -/
def varNum (t : LevelSum) : Nat := (t.n * t.sq - t.sum * t.sum).toNat
def varDen (t : LevelSum) : Nat := t.n * t.n * 2 ^ 52

/-- SNR of a ratio p / q, as I16: an infinite ratio has no stated value (log entry 2). -/
def snrValue (s : State) (p q : Nat) : Int × State :=
  if q = 0 then (sx 16 s.fresh.1, s.fresh.2) else (clampI (-32767) 32767 (centiDb p q), s)

/-- The result entries of a level; with no sample decided at it both read 0x8000, of the mean the spec states nothing (DESIGN
CHOICE, log entry 80). -/
def lqmLevel (s : State) (n : Fin 16) (i : Fin 4) : State :=
  let t := (s.lane n).levels.get i
  if t.n = 0 then (s.wr (K.LINE_LQM_SNR_LEVEL n i.val) 0x8000).wrI (K.LINE_LQM_MEAN_LEVEL n i.val) (sx 16 0x8000)
  else
    let r := s.snrValue (varDen t) (varNum t)
    (r.2.wrI (K.LINE_LQM_SNR_LEVEL n i.val) r.1).wrI (K.LINE_LQM_MEAN_LEVEL n i.val) (divOpen t.sum (t.n * 2 ^ 16))

/-- Overall SNR: 5 over the mean of the four variances. With samples at some levels only, no value is stated
(log entry 2). -/
def lqmOverall (s : State) (n : Fin 16) : Int × State :=
  let t (i : Fin 4) := (s.lane n).levels.get i
  let some_ := (allFin 4).any fun i => (t i).n != 0
  let all := (allFin 4).all fun i => (t i).n != 0
  if !some_ then (-32768, s)
  else if !all then (sx 16 s.fresh.1, s.fresh.2)
  else
    let den := varDen (t 0) * varDen (t 1) * varDen (t 2) * varDen (t 3)
    let num := varNum (t 0) * varDen (t 1) * varDen (t 2) * varDen (t 3) + varDen (t 0) * varNum (t 1) * varDen (t 2) * varDen (t 3) +
      varDen (t 0) * varDen (t 1) * varNum (t 2) * varDen (t 3) + varDen (t 0) * varDen (t 1) * varDen (t 2) * varNum (t 3)
    s.snrValue (20 * den) num

/-- Zero the running totals. With a window of 0 the result entries follow at the next epoch boundary's refresh (DESIGN CHOICE, log
entry 80). -/
def lqmZero (s : State) (n : Fin 16) : State :=
  s.modLane n fun l => { l with levels := Vector.replicate 4 {}, hist := 0, lqmEpochs := 0 }

/-- Copy the results to the result entries; LQM_SNR_LOW below the alarm threshold (R65, R66). Every copy moves the sequence, the
refresh of a window of 0 too (DESIGN CHOICE, log entry 80). -/
def lqmLatch (s : State) (n : Fin 16) : State :=
  let s1 := forAll (allFin 4) (fun i s => s.lqmLevel n i) s
  let r := s1.lqmOverall n
  let s2 := ((r.2.wrI (K.LINE_LQM_SNR n) r.1).wr (K.LINE_LQM_HIST n) (s.lane n).hist).incWrap (K.LINE_LQM_SEQ n)
  let thr := s.rdI (K.LINE_LQM_SNR_ALARM n)
  when_ (thr != 0 && r.1 != -32768 && r.1 < thr) (fun s => s.raise (Src.LQM_SNR_LOW n)) s2

/-- An epoch boundary passes the monitor (R65). -/
def lqmEpoch (s : State) (n : Fin 16) : State :=
  let w := s.rd (K.LINE_LQM_WINDOW n)
  if w = 0 then s.lqmLatch n
  else if w ≤ (s.lane n).lqmEpochs + 1 then (s.lqmLatch n).lqmZero n
  else s.modLane n fun l => { l with lqmEpochs := l.lqmEpochs + 1 }

/-! ## Swatch (R67 to R69) -/

def swatchBusy (s : State) (n : Fin 16) : Bool := s.rd (K.LINE_SWATCH_STATUS n) == 1 || s.rd (K.LINE_SWATCH_STATUS n) == 2

/-- Sixteenths of the buffer before the trigger: 0 with an immediate trigger (R69). -/
def swatchPre (s : State) (n : Fin 16) : Nat :=
  if s.rd (K.LINE_SWATCH_TRIGGER n) = 0 then 0 else s.rd (K.LINE_SWATCH_PRE n)

/-- Samples stored after the trigger that complete the capture. -/
def swatchPost (s : State) (n : Fin 16) : Nat := (16 - s.swatchPre n) * 4096

/-- Samples of a cc enter the ring of a running capture: every 2^d-th, the first after arming among them (DESIGN CHOICE, log entry
98), after the trigger as many as are wanted. -/
def swatchStore (s : State) (n : Fin 16) (b : List Byte) : State :=
  let w := (s.lane n).swatch
  if !s.swatchBusy n then s
  else
    let step := 2 ^ s.rd (K.LINE_SWATCH_DECIM n)
    let kept := ((b.mapIdx fun i x => (i, x)).filter fun p => (w.phase + p.1) % step == 0).map (·.2)
    let trig := s.rd (K.LINE_SWATCH_STATUS n) == 2
    let put := if trig then kept.take (s.swatchPost n - w.post) else kept
    s.modLane n fun l => { l with swatch :=
      { w with
        ring := (put.reverse ++ w.ring).take 65536, stored := w.stored + put.length
        post := if trig then w.post + put.length else 0, phase := w.phase + b.length } }

/-- The trigger is accepted: status 2 and the time of the trigger sample. -/
def swatchAccept (s : State) (n : Fin 16) : State :=
  (s.wr (K.LINE_SWATCH_STATUS n) 2).wr (K.LINE_SWATCH_TRIG_TIME n) s.timeNow

/-- A trigger event of source `src`: taken when it is the selected one, the capture is armed and the part before the trigger has
filled. -/
def swatchTrigger (s : State) (n : Fin 16) (src : Nat) : State :=
  if s.rd (K.LINE_SWATCH_STATUS n) = 1 && s.rd (K.LINE_SWATCH_TRIGGER n) = src && s.swatchPre n * 4096 ≤ (s.lane n).swatch.stored then
    s.swatchAccept n
  else s

/-- Arm: the earlier capture is discarded, the ring is written; trigger 0 triggers at arming. -/
def swatchArm (s : State) (n : Fin 16) : State :=
  let s1 := ((s.clrAll [K.LINE_SWATCH_TRIG_TIME n, K.LINE_SWATCH_SUBST_INDEX n, K.LINE_SWATCH_SUBST_COUNT n, K.LINE_SWATCH_DATA n]).wr
    (K.LINE_SWATCH_STATUS n) 1).modLane n fun l => { l with swatch := {} }
  s1.swatchTrigger n 0

/-- The capture ends as aborted (lane reset, lane down, lane self-test). -/
def swatchAbort (s : State) (n : Fin 16) : State := if s.swatchBusy n then s.wr (K.LINE_SWATCH_STATUS n) 4 else s

/-- Buffer index of the first sample after the first substitution that the buffer holds (R67). -/
def swatchIndex (w : SwatchS) : Nat :=
  let base := w.stored - 65536
  match w.substs.reverse.find? fun p => base ≤ p && p < w.stored with
  | some p => p - base
  | none => 0xFFFFFFFF

/-- The samples after the trigger are stored: the capture, oldest sample first. -/
def swatchComplete (s : State) (n : Fin 16) : State :=
  let w := (s.lane n).swatch
  if s.rd (K.LINE_SWATCH_STATUS n) = 2 && s.swatchPost n ≤ w.post then
    (((s.wr (K.LINE_SWATCH_DATA n) (beNat w.ring.reverse)).wr (K.LINE_SWATCH_STATUS n) 3).wr
      (K.LINE_SWATCH_SUBST_INDEX n) (swatchIndex w)).raise (Src.SWATCH_DONE n)
  else s

/-- A substitution on the lane: the freeze of 1,792 cc (Table 2-6), and the capture's count (R67). -/
def rxSubstituted (s : State) (n : Fin 16) : State :=
  let s1 := s.followFreeze n fun s => s.modLane n fun l => { l with substUntil := s.now + 1792 }
  if s.swatchBusy n then
    (s1.incSat (K.LINE_SWATCH_SUBST_COUNT n)).modLane n fun l =>
      { l with swatch := { l.swatch with substs := l.swatch.stored :: l.swatch.substs } }
  else s1

/-! ## Update (R35, R44, R57, R64) -/

/-- The settings the chain uses now. -/
def rxCfg (s : State) (n : Fin 16) : RxCfg :=
  { taps := (s.lane n).coef.acc.map tapOf, main := s.rd (K.LINE_FFE_MAIN n)
    perSym := if s.rd (K.LINE_FORMAT n) = 2 then 2 else 1, slicer := s.rd (K.LINE_MLSE_MODE n) == 1
    blt := s.on (K.LINE_BLT_EN n), nlc := s.on (K.LINE_NLC_EN n), prec := s.on (K.LINE_RX_PRECODE n) }

/-- Totals of the logical slots over the epoch (R263). -/
def slotTotals (slot0 : Nat) (v : List Int) (t : Vector SlotSum 16) : Vector SlotSum 16 :=
  (v.mapIdx fun i x => (i, x)).foldl (fun t p =>
    let j : Fin 16 := ⟨(slot0 + p.1) % 16, Nat.mod_lt _ (by decide)⟩
    let y := t.get j
    t.set j ⟨y.n + 1, y.sum + p.2, y.sq + p.2.natAbs ^ 2⟩) t

/-- Timing recovery idles until acquisition starts; under loss of signal it holds the frequency and stops the proportional path,
under CDR_FRZ it holds the frequency (R44, R46, Table 2-6). -/
def cdrCc (s : State) (n : Fin 16) (gs : List Grad) (r : RxS) : RxS :=
  if (s.lane n).adapt = 0 then r
  else
    cdrStep (s.rd (K.LINE_CDR_KP n)) (s.rd (K.LINE_CDR_KI n)) (s.losOn n) (s.adaptCtrl n 0)
      ((gs.map mmDetect).foldl (· + ·) 0) r

/-- One cc of samples through the chain of Table 2-1: the counters of every sample and symbol, the received symbols, the swatch,
the monitor, NLC and baseline, timing recovery. The gradient samples with their errors are answered. -/
def rxCc (s : State) (n : Fin 16) (g : RxCfg) (codes : List (BitVec 8)) : State × List (Grad × Int) :=
  let l := s.lane n
  let v := corrected l.ss.slices.toList l.rx.slot0 codes
  let r := rxFilter g l.coef l.rx (v.map unitsOf)
  let dec := decided g l.coef r
  let gs := gradients g r l.rx.prev dec
  let data := dataSyms g.prec ((l.rx.prev[1]?).getD (0, 15)) dec
  let a := s.adaptCc n gs l.coef
  let diff := if g.slicer then 0 else ((List.zip (((rxWindow g r).drop 32).take g.syms) dec).filter fun p => quant p.1 != p.2.1).length
  let hunting := field (s.rd (K.LINE_LOCK_STATUS n)) 11 10 != 0
  let r1 : RxS :=
    { s.cdrCc n gs r with
      pos := (r.pos + 7) % 128
      prev := (r.prev ++ dec).drop dec.length
      syms := if hunting then r.syms ++ data else []
      headSlot := if r.syms.isEmpty then (r.slot0 + 63 - g.main) % 16 else r.headSlot }
  let l1 : LaneS :=
    { l with
      rx := r1, coef := s.keepWritten n l.coef a.1
      power := (l.power.1 + v.length, l.power.2 + (v.map fun x => x.natAbs ^ 2).foldl (· + ·) 0)
      slots := slotTotals l.rx.slot0 v l.slots
      preg := if l.prbs == .off then l.preg else { l.preg with bits := l.preg.bits ++ pam4Bits (data.map (·.1)) } }
  let l2 := if s.frameLock n && !s.losOn n then gs.foldl (lqmSample l.coef g.slicer) l1 else l1
  let s1 := ((s.modLane n fun _ => l2).addSat (K.LINE_ADC_CLIP n) (codes.filter clipped).length).addSat (K.LINE_SLICER_DIFF n) diff
  (s1.swatchStore n (swatchBytes g (s.rd (K.LINE_SWATCH_POINT n)) v r dec), List.zip gs a.2)

/-- The cc of an update in turn, with the gradient samples gathered. -/
def rxCcs (s : State) (n : Fin 16) (g : RxCfg) : List (List (BitVec 8)) → State × List (Grad × Int)
  | [] => (s, [])
  | codes :: rest =>
    let p := s.rxCc n g codes
    let q := p.1.rxCcs n g rest
    (q.1, p.2 ++ q.2)

/-- The line lane whose rotator HCKOk passes through (R142). -/
def hckoLane (s : State) (k : Fin 4) : Fin 16 := ⟨4 * k.val + s.rd (K.PG_HCKO_SRC k) % 4, by omega⟩

/-- The offset of HCKOk's frequency from the local root's, in 1/28,125 of 0.001 ppm: that of the source lane's rotator; after a change of
source it is reached by slewing at 1 ppm per ms, 16 units a cc (R142, R143). -/
def hckoFreq (s : State) (k : Fin 4) : Int :=
  let g := s.pg k
  let lim : Int := (s.now - g.hckoAt) * 16
  let rot := (s.lane (s.hckoLane k)).rotFreq * 28125
  if g.hckoSlew then clampI (g.hckoFrom - lim) (g.hckoFrom + lim) rot else rot

/-- Before the source lane's rotator moves: a slew that has reached it has ended, another goes on from where it stands. -/
def hckoFollow (s : State) (k : Fin 4) : State :=
  let f := s.hckoFreq k
  s.modPg k fun g =>
    { g with hckoSlew := g.hckoSlew && f != (s.lane (s.hckoLane k)).rotFreq * 28125, hckoFrom := f, hckoAt := s.now }

/-- The entries that follow the loop; the integrator drives the HSYN rotator of the host pair, which holds its last frequency
without codeword lock (R45, R143). -/
def cdrShow (s : State) (n : Fin 16) : State :=
  let f := cdrFreq (s.lane n).rx
  let s1 := if s.hckoLane (pgOf n) = n then s.hckoFollow (pgOf n) else s
  ((s1.wrI (K.LINE_CDR_FREQ n) f).wr (K.LINE_CDR_PHASE n) (cdrPhase (s.lane n).rx)).modLane n fun l =>
    { l with rotFreq := if s.bit (K.LINE_LOCK_STATUS n) 2 then f else l.rotFreq }

/-- A measurement of SNR_T under way takes the errors of an update, for 65,536 cc (R211). -/
def snrTake (now : Nat) (es : List Int) (t : SnrS) : SnrS :=
  match t.at_ with
  | some a => if a ≤ now && now < a + 65536 then { t with n := t.n + es.length, sq := t.sq + (es.map fun e => e.natAbs ^ 2).foldl (· + ·) 0 } else t
  | none => t

/-- One update of 4 cc: the cc of samples in turn, then the FFE taps and the target once (R57). While a stage is frozen its run of
updates at a limit stands still: it neither grows nor starts anew (DESIGN CHOICE, log entry 97). Nothing reaches the chain of a lane
under self-test, whose samples are discarded (R505). -/
def adaptUpdate (s : State) (n : Fin 16) (cc : List (List (BitVec 8))) : State :=
  if s.laneTested n then s
  else
  let p := (s.modLane n fun l => { l with power := (0, 0) }).rxCcs n (s.rxCfg n) cc
  let c0 := (p.1.lane n).coef
  let c := p.1.keepWritten n c0 (p.1.adaptSlow n p.2 c0)
  let s1 := p.1.modLane n fun l =>
    { l with
      coef := c
      satFfe := if s.frzFfe n then l.satFfe else if tapAtLimit c then l.satFfe + 1 else 0
      satMlse := if s.frzMlse n then l.satMlse else if targetAtLimit c then l.satMlse + 1 else 0
      satEpoch := l.satEpoch || tapAtLimit c
      snrT := snrTake s.now (p.2.map (·.2)) l.snrT }
  (s1.cdrShow n).agcFree n

/-! ## Divergence guard (R61) -/

/-- An epoch with frame lock held, no tap at a limit and no trip refreshes the fallback. -/
def guardEpoch (s : State) (n : Fin 16) : State :=
  let l := s.lane n
  let ok := s.adaptCtrl n 6 && l.heldEpoch && !l.satEpoch && !l.tripEpoch
  s.modLane n fun l => { l with satEpoch := false, tripEpoch := false, fallback := if ok then some l.coef else l.fallback }

/-- The guard trips when a stage has sat at a limit for 64 consecutive updates. -/
def guardTrip (s : State) (n : Fin 16) : State :=
  let l := s.lane n
  let f := 64 ≤ l.satFfe
  let m := 64 ≤ l.satMlse
  if s.adaptCtrl n 6 && (f || m) then
    let fb := l.fallback.getD (s.coldCoef n)
    let s1 := (s.setCoef n { fb with b := l.coef.b }).modLane n fun l =>
      { l with tripFfe := l.tripFfe || f, tripMlse := l.tripMlse || m
               satFfe := 0, satMlse := 0, guardTripped := true, tripEpoch := true }
    ((s1.snapshot n).raise (Src.RX_ADAPT_ALARM n)).incSat (K.LINE_GUARD_TRIPS n)
  else s

/-! ## Writes of coefficients (R62) -/

/-- A written tap, NLC entry, h1 or h2 takes effect: it replaces the accumulator; the boundary takes a snapshot (R63). -/
def coefWritten (s : State) (n : Fin 16) (off sub v : Nat) : State :=
  let c := (s.lane n).coef
  let c' : Coefs := match off with
    | 0x12 => { c with acc := c.acc.set (sub - 1) (sx 16 v * 4096) }
    | 0x14 => { c with lut := c.lut.set (sub - 1) (sx 8 v) }
    | _ => if sub = 2 then { c with h1 := sx 16 v * 4096 } else { c with h2 := sx 16 v * 4096 }
  (s.setCoef n c').modLane n fun l =>
    { l with wroteAt := s.now, wrote := (off, sub) :: (if l.wroteAt = s.now then l.wrote else []) }

/-! ## Lane reset (R71) -/

/-- The receive part of a lane reset: swatch aborted, status cleared, the next acquisition cold, the coefficients cold
from the first codeword boundary on. -/
def rxLaneReset (s : State) (n : Fin 16) : State :=
  ((s.swatchAbort n).adaptStop n).modLane n fun l =>
    { l with guardTripped := false, warm := false, tripFfe := false, tripMlse := false, satFfe := 0, satMlse := 0
             coldNext := true, coldApply := true, substUntil := 0 }

/-- The receive part of a codeword boundary: the cold coefficients of a lane reset, RESTART, a snapshot that is due (R58, R63,
R71). -/
def rxBoundary (s : State) (n : Fin 16) : State :=
  let s1 := if (s.lane n).coldApply then
    ((s.setCoef n (s.coldCoef n)).modLane n fun l => { l with coldApply := false }).snapshot n else s
  let s2 := if (s1.lane n).restartPend then (s1.guardClear n).acqStart n false else s1
  if (s2.lane n).snapPend then (s2.snapshot n).modLane n fun l => { l with snapPend := false } else s2

end State

/-! ## Effects of writes -/

/-- `LINE_ADAPT_CTRL`: RESTART reads 0; in C4 to C7 it starts acquisition at the next codeword boundary (R58, R59). -/
def effAdaptCtrl (n : Fin 16) (v : Nat) (s : State) : State :=
  let s1 := s.followFreeze n fun s => s.wr (K.LINE_ADAPT_CTRL n) (v % 256)
  if v.testBit 8 && 4 ≤ s.phase n then s1.modLane n fun l => { l with restartPend := true } else s1

def effFfeSnap (n : Fin 16) (v : Nat) (s : State) : State := if v = 1 then s.snapLater n else s

/-- With a window the current one restarts and the results stay; without one the totals are zeroed (R65). -/
def effLqmClear (n : Fin 16) (v : Nat) (s : State) : State := if v = 1 then s.lqmZero n else s

def effSwatchArm (n : Fin 16) (v : Nat) (s : State) : State := if v = 1 then s.swatchArm n else s

/-- `LINE_CTLE_PEAK`: during the search the write ends it; while the lane carries traffic the peaking moves by steps
(R37, R38). -/
def effCtlePeak (n : Fin 16) (v : Nat) (s : State) : State :=
  let s1 := s.wr (K.LINE_CTLE_PEAK n) v
  let s2 := if (s.lane n).ctleSearch.isSome then s1.modLane n fun l => { l with ctleSearch := none, adapt := 2 } else s1
  if s.phase n = 7 then s2 else s2.modLane n fun l => { l with ctleNow := v }

/-- `LINE_FFE_LEN`: taps at or above len are held at zero (R47). -/
def effFfeLen (n : Fin 16) (v : Nat) (s : State) : State :=
  let s1 := s.wr (K.LINE_FFE_LEN n) v
  s1.setCoef n (s1.lane n).coef

/-! ## Meanings -/

def execAgcGainStep (n : Fin 16) (s : State) : Host.Outcome State Fault Refusal := .next (s.agcStep n)

/-- Four cc of ADC codes, oldest first. -/
def execAdaptUpdate (n : Fin 16) (cc : List (List (BitVec 8))) (s : State) : Host.Outcome State Fault Refusal :=
  .next (s.adaptUpdate n cc)

/-- A write of `LINE_ADAPT_CTRL` (R58, R59). -/
def execAdaptRestart (r : Fin 18) (n : Fin 16) (v : BitVec 16) (s : State) : Host.Outcome State Fault Refusal :=
  .next (s.write r (K.LINE_ADAPT_CTRL n) (be 2 v.toNat) (effAdaptCtrl n v.toNat))

def execGuardTrip (n : Fin 16) (s : State) : Host.Outcome State Fault Refusal := .next (s.guardTrip n)

def execLineFfeSnap (r : Fin 18) (n : Fin 16) (v : BitVec 8) (s : State) : Host.Outcome State Fault Refusal :=
  .next (s.write r (K.LINE_FFE_SNAP n) (be 1 v.toNat) (effFfeSnap n v.toNat))

def execLineLqmClear (r : Fin 18) (n : Fin 16) (v : BitVec 8) (s : State) : Host.Outcome State Fault Refusal :=
  .next (s.write r (K.LINE_LQM_CLEAR n) (be 1 v.toNat) (effLqmClear n v.toNat))

def execLineSwatchArm (r : Fin 18) (n : Fin 16) (v : BitVec 8) (s : State) : Host.Outcome State Fault Refusal :=
  .next (s.write r (K.LINE_SWATCH_ARM n) (be 1 v.toNat) (effSwatchArm n v.toNat))

/-- A trigger event of source 1 to 5 (R67). -/
def execSwatchTrigger (n : Fin 16) (src : Fin 6) (s : State) : Host.Outcome State Fault Refusal := .next (s.swatchTrigger n src.val)

def execSwatchComplete (n : Fin 16) (s : State) : Host.Outcome State Fault Refusal := .next (s.swatchComplete n)

end Sys2Proof.Machine
end

