-- ==== Sys2Proof/Machine/LineTx.lean ====
section
/-!
DEFINITION. The transmit chain of a line lane (03_line_transmit.md, R73 to R98): the digital path per symbol, taps and
levels, the output stage, transmit faults and the data source.
-/

namespace Sys2Proof.Machine

/-! ## The digital path per symbol -/

/-- Gray code (Table 3-2): the first bit is the more significant. -/
def gray (hi lo : Bool) : Fin 4 :=
  match hi, lo with
  | false, false => 0
  | false, true => 1
  | true, true => 2
  | true, false => 3

/-- The level sent (R76): a = (g - a') mod 4 with the precoder on. -/
def precodeStep (on : Bool) (prev g : Fin 4) : Fin 4 := if on then g - prev else g

/-- The levels of a sequence, the precoder's state carried through (R76). -/
def precode (on : Bool) : Fin 4 → List (Fin 4) → List (Fin 4)
  | _, [] => []
  | prev, g :: gs => precodeStep on prev g :: precode on (precodeStep on prev g) gs

/-- The receiver's inverse (R55): b = (a + a') mod 4. -/
def unprecode : Fin 4 → List (Fin 4) → List (Fin 4)
  | _, [] => []
  | prev, a :: as => (a + prev) :: unprecode a as

/-- The code of a sample before it is clamped (R86): `y` in 2^-18 normalized units (level 2^-8 times tap 2^-10), `pd` in 2^-7 or 0,
`picot` in 2^-18 codes. -/
def dacSum (y pd picot : Int) : Int := roundOpen (32 * (y + pd * 2 ^ 11) + picot) (2 ^ 18)

/-- The DAC code of a sample (R86). -/
def dacCode (y pd picot : Int) : Int := clampI (-128) 127 (dacSum y pd picot)

/-- The transmit FFE (R73): `lv` holds the LEVEL values A[n+main], A[n+main-1], ... -/
def txFfe (taps lv : List Int) : Int := (List.zipWith (· * ·) taps lv).foldl (· + ·) 0

/-- Index of the predistortion table (R83). -/
def pdIdx (before now after : Fin 4) : Nat := 16 * before.val + 4 * now.val + after.val

namespace State

/-- `LINE_TX_FFE_SUM`: the sum of the magnitudes of the taps in use (R79). -/
def txFfeSum (s : State) (n : Fin 16) : Nat := (txTaps s n).foldl (fun a c => a + c.natAbs) 0

/-! ## Output stage (R91, R92) -/

/-- DAC calibration begins: internal load, pins to idle (R94). -/
def calDacBegin (s : State) (n : Fin 16) : State :=
  ((s.modLane n fun l => { l with calDac := true, calDacDue := false }).wr (K.LINE_CAL_DAC_LAST n) s.timeNow).wrBit
    (K.LINE_TX_FAULT n) 2 true

/-- The output stage leaves modulating during a burst: the tone stops in the same cc (R242), and a calibration that waited for the
burst starts (R94). -/
def picotCut (s : State) (n : Fin 16) : State :=
  if (s.lane n).picot.burst.isSome then
    let s1 := (s.incSat (K.PICOT_TX_CUT n)).modLane n fun l => { l with picot := { l.picot with burst := none, tone := [] } }
    if (s.lane n).calDacDue then s1.calDacBegin n else s1
  else s

/-! ## Error injection (R127) -/

/-- GB_LOCK of a port group. -/
def gbLock (s : State) (k : Fin 4) : Bool := s.bit (K.PG_GB_STATUS k) 0

/-- Codewords that the lane sends in 9 cc: none without gearbox lock (Tables 4-1, 5-2). -/
def injRate (s : State) (n : Fin 16) : Nat :=
  if !s.gbLock (pgOf n) then 0 else if (s.pg (pgOf n)).grid = 2 then 2 else 4

/-- `LINE_TX_SRC`. -/
def txSrc (s : State) (n : Fin 16) : Nat := if (s.lane n).out = .disabled then 0 else (s.lane n).srcNow

/-- Bring the injection's count up to this cc (R127): every codeword sent counts, bytes count while TRAFFIC is sent. -/
def injFollow (s : State) (n : Fin 16) : State :=
  let v := s.rd (K.LINE_FEC_INJECT n)
  let r := (s.lane n).inj.advance s.now (s.injRate n) 9 (field v 23 8)
  (s.addSat (K.LINE_FEC_INJ_COUNT n) (if s.txSrc n = 3 then field v 2 0 * r.1 else 0)).modLane n fun l => { l with inj := r.2 }

/-- A change of the codewords' rate: the count goes on from here at the new rate. -/
def injRebase (s : State) (n : Fin 16) : State :=
  (s.injFollow n).modLane n fun l => { l with inj := l.inj.rebase s.now }

/-- A change of the output stage, which may start or end what is sent: the injection's count is brought up to it first (R127). -/
def outSet (s : State) (n : Fin 16) (f : LaneS → LaneS) : State := (s.injFollow n).modLane n f

/-- What a line transmitter drives (R91, Table 5-2): code 0 while its gearbox relocks, else the source of Table 3-7. -/
inductive LineOut where
  | off | idle | code0
  | source (v : Nat)
deriving DecidableEq, Repr

/-- What the line transmitter drives. -/
def lineOut (s : State) (n : Fin 16) : LineOut :=
  match (s.lane n).out with
  | .disabled => .off
  | .idle => .idle
  | .modulating => if (s.pg (pgOf n)).code0 then .code0 else .source (s.lane n).srcNow

/-- What the legs of a lane do (R90, R91): nothing, a differential voltage in 10 mVppd/512, or the currents that P and N sink in
0.25 mA/512. -/
inductive Drive where
  | highZ
  | volts (v : Int)
  | sinks (p n : Int)
deriving DecidableEq, Repr

/-- The drive of DAC code `k` (R90), of `none` at idle (R91), at the swing or full-scale current in place. -/
def drive (s : State) (n : Fin 16) (k : Option Int) : Drive :=
  let l := s.lane n
  let ifs : Int := l.ifsNow
  if l.out = .disabled then .highZ
  else if l.outMode = 0 then .volts ((k.map fun k => (l.swingNow : Int) * (2 * k + 1)).getD 0)
  else match k with
    | some k => .sinks (ifs * (2 * k + 257)) (512 * ifs - ifs * (2 * k + 257))
    | none => .sinks (256 * ifs) (256 * ifs)

/-- What the pins LnTXP and LnTXN carry now: the code that the DAC reads, behind the queue's distance (R87). -/
def pinDrive (s : State) (n : Fin 16) : Drive :=
  let l := s.lane n
  s.drive n (if l.out = .modulating then some (getI l.tx.codes (128 * l.queue - 1)) else none)

/-- What the stage is asked to be; in SCRAPPED disabled (R452). -/
def outWanted (s : State) (n : Fin 16) : OutStage :=
  let l := s.lane n
  if l.outOff || s.sec.lc == .scrapped || !s.on (K.LINE_TX_OUT_EN n) then .disabled
  else if l.out != .disabled && l.outMode != s.rd (K.LINE_TX_OUT_MODE n) then .disabled
  else if s.bit (K.LINE_TX_FAULT n) 2 || l.laneReset then .idle
  else .modulating

/-- The change a new demand makes at once: modulating to idle, disabled to idle; the others wait for their 1,024 cc. Leaving disabled
sets the DAC sample queue's distance to 2 cc (R87). -/
def outFollow (s : State) (n : Fin 16) : State :=
  let w := s.outWanted n
  let l := s.lane n
  match l.out with
  | .modulating => if w = .modulating then s else (s.outSet n fun l => { l with out := .idle }).picotCut n
  | .disabled =>
    if w = .disabled || l.modeStep then s
    else s.outSet n fun l => { l with out := .idle, outMode := s.rd (K.LINE_TX_OUT_MODE n), queue := 2 }
  | .idle => s

/-- The stage has been idle, or disabled between two modes, for 1,024 cc. -/
def outStep (s : State) (n : Fin 16) : State :=
  let l := s.lane n
  match l.out, s.outWanted n with
  | .idle, .modulating => s.outSet n fun l => { l with out := .modulating }
  | .idle, .disabled => s.outSet n fun l => { l with out := .disabled, modeStep := !l.outOff && s.on (K.LINE_TX_OUT_EN n) }
  | .disabled, .idle | .disabled, .modulating =>
    s.outSet n fun l => { l with out := .idle, modeStep := false, outMode := s.rd (K.LINE_TX_OUT_MODE n), queue := 2 }
  | _, _ => s

/-- The stage is disabled at once: POR, RESET_N, thermal trip, Sleep, Deep sleep, Off (R91). -/
def outForceOff (s : State) (n : Fin 16) : State :=
  (s.outSet n fun l => { l with out := .disabled, outOff := true, modeStep := false }).picotCut n

/-- What held the stage off has passed: it follows `LINE_TX_OUT_EN` again. -/
def outRelease (s : State) (n : Fin 16) : State := (s.modLane n fun l => { l with outOff := false }).outFollow n

/-! ## Data source (R95, R96) -/

/-- The source that the next codeword boundary puts in place. -/
def srcWanted (s : State) (n : Fin 16) : Nat :=
  match s.rd (K.LINE_TX_TEST_SRC n) with
  | 1 => 1
  | 2 => 4
  | _ => if s.laneDown n then 1 else (s.lane n).srcCo

/-- Cast-on chooses a source. -/
def chooseSrc (s : State) (n : Fin 16) (v : Nat) : State := s.modLane n fun l => { l with srcCo := v }

/-- The transmit part of a codeword boundary: source, a TXEQ set, the default taps of a reset (R81, R82, R96). The return to the default
comes after the writes that waited for the same boundary and overrides them (DESIGN CHOICE, log entry 101). -/
def txBoundary (s : State) (n : Fin 16) : State :=
  let l := s.lane n
  let s1 := if l.txTapsDefault then s.setTxTaps n (txTapsCold (s.rd (K.LINE_TX_FFE_MAIN n))) else s
  let s2 := match l.txTapsPend with
    | some t => s1.setTxTaps n t
    | none => s1
  s2.modLane n fun l => { l with txTapsDefault := false, txTapsPend := none, srcNow := s.srcWanted n }

/-! ## Faults (R88, R93) -/

/-- The queue distance found at a relock has changed: re-centred at 2 cc, QUEUE_SLIP, the count, TX_FAULT (R88). The latency event
is reported by the caller. -/
def queueSlip (s : State) (n : Fin 16) : State :=
  (((s.modLane n fun l => { l with queue := 2 }).wrBit (K.LINE_TX_FAULT n) 0 true).incSat (K.LINE_TX_QUEUE_SLIPS n)).raise (Src.TX_FAULT n)

/-- One step of a drive, of a host amplitude or of the peaking toward its written value (R37, R92, R151). -/
def rampStep (s : State) (n : Fin 16) (w : Ramp) : State :=
  let toward (a b : Nat) : Nat := if a < b then a + 1 else if b < a then a - 1 else a
  match w with
  | .ctle => s.modLane n fun l =>
      if l.ctleSearch.isSome then l else { l with ctleNow := toward l.ctleNow (s.rd (K.LINE_CTLE_PEAK n)) }
  | .swing => s.modLane n fun l => { l with swingNow := toward l.swingNow (s.rd (K.LINE_TX_SWING n)) }
  | .ifs => s.modLane n fun l => { l with ifsNow := toward l.ifsNow (s.rd (K.LINE_TX_IFS n)) }
  | .ampA => s.modHost (hostA n) fun h => { h with ampNow := toward h.ampNow (s.rd (K.HOST_TX_AMP (hostA n))) }
  | .ampB => s.modHost (hostB n) fun h => { h with ampNow := toward h.ampNow (s.rd (K.HOST_TX_AMP (hostB n))) }

/-- The transmit part of a lane reset: output idle for its duration, taps default, QUEUE_SLIP cleared (R82, R97). -/
def txLaneReset (s : State) (n : Fin 16) : State :=
  ((s.wrBit (K.LINE_TX_FAULT n) 0 false).modLane n fun l =>
    { l with laneReset := true, txTapsDefault := true, txTapsPend := none }).outFollow n

end State

/-! ## Effects of writes -/

def effTxOut (n : Fin 16) (k : Key) (v : Nat) (s : State) : State := (s.wr k v).outFollow n

/-- Is the entry one of the lane's transmit taps? -/
def isTxTap (n : Fin 16) (k : Key) : Bool := k.blk == .line n && k.off == 0x24

/-- A change of `LINE_TX_FFE_MAIN` returns the taps to the default: at its commit point, whatever tap write accepted before it still
waits (R80; that the return does not wait for a codeword boundary is a DESIGN CHOICE, log entry 86). -/
def effTxFfeMain (n : Fin 16) (v : Nat) (s : State) : State :=
  if v = s.rd (K.LINE_TX_FFE_MAIN n) then s
  else
    let s1 := (s.dropWaiting (isTxTap n)).modLane n fun l => { l with txTapsPend := none }
    (s1.wr (K.LINE_TX_FFE_MAIN n) v).setTxTaps n (txTapsCold v)

/-! ## Meanings -/

def execCtleRampStep (n : Fin 16) (w : Ramp) (s : State) : Host.Outcome State Fault Refusal := .next (s.rampStep n w)

def execOutputStageStep (n : Fin 16) (s : State) : Host.Outcome State Fault Refusal := .next (s.outStep n)

/-- A leg stayed outside its compliance window for 256 cc (R93); without power nothing is seen (R483). -/
def execComplianceSet (n : Fin 16) (s : State) : Host.Outcome State Fault Refusal :=
  .next (if s.clamped (laneUnit n) then s else (s.wrBit (K.LINE_TX_FAULT n) 1 true).raise (Src.TX_FAULT n))

def execComplianceClear (n : Fin 16) (s : State) : Host.Outcome State Fault Refusal :=
  .next (if s.clamped (laneUnit n) then s else s.wrBit (K.LINE_TX_FAULT n) 1 false)

end Sys2Proof.Machine
end

