-- ==== Sys2Proof/Machine/LineFormat.lean ====
section
/-!
DEFINITION. The Courn line format (04_courn_line_format.md, R100 to R130): the inner code RS(72,68), its encoder and
the decoder with errors and erasures (R104, R105, R115), erasure marks (R56), the tag test (R116), the interleave
(R106), the lock machines of Table 4-4 and the counters of Table 4-6.
-/

namespace Sys2Proof.Machine

/-! ## GF(2^8) on 0x11D (R104) -/

/-- Multiply by α = 0x02. -/
def gfX (a : Nat) : Nat := if a < 128 then 2 * a else (2 * a) ^^^ 0x11D

/-- Product in the field: `n` bits of `b` remain, `a` the multiple of the lowest. -/
def gfMulAux : Nat → Nat → Nat → Nat
  | 0, _, _ => 0
  | n + 1, a, b => (if b % 2 = 1 then a else 0) ^^^ gfMulAux n (gfX a) (b / 2)

/-- Product in GF(2^8). -/
def gfMul (a b : Nat) : Nat := gfMulAux 8 a b

/-- A power. -/
def gfPow (a : Nat) : Nat → Nat
  | 0 => 1
  | n + 1 => gfMul a (gfPow a n)

/-- α to a power. -/
def alpha (p : Nat) : Nat := gfPow 2 (p % 255)

/-- The inverse of a field element, 0 of 0. -/
def gfInv (a : Nat) : Nat :=
  let a2 := gfMul a a
  let a4 := gfMul a2 a2
  let a8 := gfMul a4 a4
  let a16 := gfMul a8 a8
  let a32 := gfMul a16 a16
  let a64 := gfMul a32 a32
  gfMul (gfMul (gfMul (gfMul (gfMul (gfMul a2 a4) a8) a16) a32) a64) (gfMul a64 a64)

def gfDiv (a b : Nat) : Nat := gfMul a (gfInv b)

/-- The locator of byte `i` (R105): α^(71-i). -/
def locator (i : Nat) : Nat := alpha (71 - i)

/-! ## Encoder (R105, R109) -/

/-- One data byte enters the division by g(x); the remainder's bytes most significant first. -/
def rsStep (rem : List Nat) (d : Nat) : List Nat :=
  match rem with
  | [a, b, c, e] =>
    let f := d ^^^ a
    [b ^^^ gfMul f 0x0F, c ^^^ gfMul f 0x36, e ^^^ gfMul f 0x78, gfMul f 0x40]
  | l => l

/-- The four parity bytes of 68 data bytes. -/
def rsParity (data : List Byte) : List Byte := ((data.map (·.toNat)).foldl rsStep [0, 0, 0, 0]).map (BitVec.ofNat 8)

/-- The codeword of 68 data bytes. -/
def rsEncode (data : List Byte) : List Byte := data ++ rsParity data

/-- The epoch tag (R109), its own inverse: 0x5A into each parity byte. -/
def tag (cw : List Byte) : List Byte := cw.take 68 ++ (cw.drop 68).map fun b => b ^^^ 0x5A

/-- Error injection (R127): 0x01 into bytes 0, 18, 36 and 54, `count` of them. -/
def inject (count : Nat) (cw : List Byte) : List Byte :=
  ([0, 18, 36, 54].take count).foldl (fun cw i => cw.modify i fun b => b ^^^ 1) cw

/-- The codeword, byte and pair of block symbol `k` (R106). -/
def symbolPlace (k : Nat) : Nat × Nat × Nat := (k / 4 % 4, k / 16, k % 4)

/-- The symbols of codeword `w` of a block, in order of bytes and pairs (R106). -/
def wordSyms (blk : List (Fin 4 × Nat)) (w : Nat) : List (Fin 4 × Nat) :=
  (List.range 288).map fun m => (blk[16 * (m / 4) + 4 * w + m % 4]?).getD (0, 0)

/-- The 72 bytes of a codeword's symbols: symbol s carries bits [7-2s : 6-2s] (R106). -/
def wordBytes (syms : List (Fin 4 × Nat)) : List Byte :=
  (List.range 72).map fun i => BitVec.ofNat 8 (((syms.drop (4 * i)).take 4).foldl (fun a x => 4 * a + levelBits x.1) 0)

/-- The payload bits of data bytes, most significant bit first (R102). -/
def payloadBits (data : List Byte) : List Bool := data.flatMap fun b => (List.range 8).map fun i => b.getLsbD (7 - i)

/-- Every second element from the first on. -/
def evens {α : Type} : List α → List α
  | [] => []
  | [a] => [a]
  | a :: _ :: l => a :: evens l

/-- The payload bits for H(2n) and H(2n+1): even and odd bits, in Courn-225 all for H(2n) (R101, R103). -/
def hostBits (f225 : Bool) (data : List Byte) : List Bool × List Bool :=
  let p := payloadBits data
  if f225 then (p, []) else (evens p, evens (p.drop 1))

/-! ## Decoder (R115) -/

/-- Syndrome S[j] = r(α^j). -/
def syndrome (r : List Byte) (j : Nat) : Nat := r.foldl (fun acc b => gfMul acc (alpha j) ^^^ b.toNat) 0

/-- Result of a decode: the corrections are (byte, value) pairs, the marked bytes first. -/
inductive Decoded where
  | clean
  | corrected (fix : List (Nat × Nat))
  | uncorrectable
deriving DecidableEq, Repr

/-- Coefficients, lowest first, of the product of (x + X) over a list. -/
def polyRoots : List Nat → List Nat
  | [] => [1]
  | x :: xs =>
    let p := polyRoots xs
    List.zipWith (· ^^^ ·) ((p.map fun c => gfMul x c) ++ [0]) (0 :: p)

/-- The erasure polynomial's coefficients γ0 .. γf: the product of (1 + Y x). -/
def gammaPoly (ys : List Nat) : List Nat := (polyRoots ys).reverse

/-- T[j] of R115. -/
def modSyndrome (s : List Nat) (gamma : List Nat) (j : Nat) : Nat :=
  let f := gamma.length - 1
  (List.range (f + 1)).foldl (fun acc m => acc ^^^ gfMul ((gamma[m]?).getD 0) ((s[j + f - m]?).getD 0)) 0

/-- The value at each located byte (R115): with the other locators removed from the syndromes. -/
def solveValues (s : List Nat) (pos : List Nat) : List (Nat × Nat) :=
  pos.map fun i =>
    let x := locator i
    let others := (pos.filter (· != i)).map locator
    let num := (List.zip (polyRoots others) s).foldl (fun acc p => acc ^^^ gfMul p.1 p.2) 0
    let den := others.foldl (fun acc y => gfMul acc (x ^^^ y)) 1
    (i, gfDiv num den)

/-- The byte of a locator that lies in the codeword. -/
def byteOf (x : Nat) : Option Nat := (List.range 72).find? fun i => locator i == x

/-- Errors alone (f = 0): the shortest locator of degree at most 2 that the syndromes give, accepted only with as many
distinct roots in the codeword as its degree. -/
def locateErrors (s0 s1 s2 s3 : Nat) : Option (List Nat) :=
  if s0 != 0 && s1 != 0 && gfMul s1 s1 == gfMul s0 s2 && gfMul s1 s2 == gfMul s0 s3 then
    (byteOf (gfDiv s1 s0)).map fun i => [i]
  else
    let d := gfMul s1 s1 ^^^ gfMul s0 s2
    if d == 0 then none
    else
      let a := gfDiv (gfMul s0 s3 ^^^ gfMul s1 s2) d
      let b := gfDiv (gfMul s1 s3 ^^^ gfMul s2 s2) d
      let roots := (List.range 72).filter fun i =>
        let x := locator i
        (gfMul x x ^^^ gfMul a x ^^^ b) == 0
      if b != 0 && roots.length == 2 then some roots else none

/-- Decode 72 bytes with marked bytes (R115). -/
def rsDecode (r : List Byte) (marks : List Nat) : Decoded :=
  let s := (List.range 4).map (syndrome r)
  let sj (j : Nat) := (s[j]?).getD 0
  if s.all (· == 0) then .clean
  else
    let gamma := gammaPoly (marks.map locator)
    let t (j : Nat) := modSyndrome s gamma j
    match marks.length with
    | 0 =>
      match locateErrors (sj 0) (sj 1) (sj 2) (sj 3) with
      | some pos => .corrected (solveValues s pos)
      | none => .uncorrectable
    | 1 =>
      if t 0 == 0 && t 1 == 0 && t 2 == 0 then .corrected (solveValues s marks)
      else if t 0 != 0 && t 1 != 0 && gfMul (t 2) (t 0) == gfMul (t 1) (t 1) then
        match byteOf (gfDiv (t 1) (t 0)) with
        | some i => if marks.contains i then .uncorrectable else .corrected (solveValues s (marks ++ [i]))
        | none => .uncorrectable
      else .uncorrectable
    | 2 =>
      if t 0 == 0 && t 1 == 0 then .corrected (solveValues s marks)
      else if t 0 != 0 && t 1 != 0 then
        match byteOf (gfDiv (t 1) (t 0)) with
        | some i => if marks.contains i then .uncorrectable else .corrected (solveValues s (marks ++ [i]))
        | none => .uncorrectable
      else .uncorrectable
    | 3 => if t 0 == 0 then .corrected (solveValues s marks) else .uncorrectable
    | _ => .corrected (solveValues s marks)

/-- The corrections with a value: bytes changed. -/
def changes (fix : List (Nat × Nat)) : List (Nat × Nat) := fix.filter fun p => p.2 != 0

/-- The word after a decode; an uncorrectable word is delivered as received (R117). -/
def applyFix (r : List Byte) (fix : List (Nat × Nat)) : List Byte :=
  fix.foldl (fun r p => r.modify p.1 fun b => b ^^^ BitVec.ofNat 8 p.2) r

/-- The tag test (R116): the word with 0x5A removed decodes, without marks, CLEAN or with one byte changed. -/
def tagTest (r : List Byte) : Option (List (Nat × Nat)) :=
  match rsDecode (tag r) [] with
  | .clean => some []
  | .corrected fix => if (changes fix).length ≤ 1 then some fix else none
  | .uncorrectable => none

/-! ## Erasure marks (R54 to R56) -/

/-- Reliability of byte `i`: the smallest of its four symbols (R56). -/
def byteReliability (rel : List Nat) (i : Nat) : Nat := ((rel.drop (4 * i)).take 4).foldl min 15

/-- The `n` candidates of lowest reliability, ties to the lower byte (R56). -/
def pickMarks (c : List (Nat × Nat)) : Nat → List Nat
  | 0 => []
  | n + 1 =>
    match c with
    | [] => []
    | p :: ps =>
      let best := ps.foldl (fun b q => if q.2 < b.2 then q else b) p
      best.1 :: pickMarks (c.filter fun q => q.1 != best.1) n

/-- The erasure marks of a codeword, thresholds as configured. -/
def erasureMarks (rel : List Nat) (thr max_ : Nat) : List Nat :=
  pickMarks (((List.range 72).map fun i => (i, byteReliability rel i)).filter fun p => p.2 ≤ thr) max_

/-- Set bits of a byte value. -/
def bits8 (v : Nat) : Nat := ((List.range 8).filter fun i => v.testBit i).length

/-- PAM4 symbols that a byte's change touches. -/
def pairs8 (v : Nat) : Nat := ((List.range 4).filter fun i => field v (2 * i + 1) (2 * i) != 0).length

/-! ## Marker machine (M rows of Table 4-4) -/

/-- A marker is good when at most 8 of its bits differ from the standard's (Table 4-4, R135). -/
def markerGood (differ : Nat) : Bool := differ ≤ 8

/-- A pattern at stream position `at_` is judged, the markers lying `period` apart: in HUNT a good one is a find, elsewhere only the
expected position is judged. The flag says that a bad marker was met in LOCK. -/
def Marker.judge (m : Marker) (good : Bool) (at_ period : Nat) : Marker × Bool :=
  let next := at_ + period
  match m.st with
  | .hunt => (if good then { st := .confirm, good := 1, bad := 0, expected := next } else m, false)
  | .confirm =>
    if at_ != m.expected then (m, false)
    else if !good then ({}, false)
    else if 4 ≤ m.good + 1 then ({ st := .lock, good := m.good + 1, bad := 0, expected := next }, false)
    else ({ m with good := m.good + 1, expected := next }, false)
  | .lock =>
    if at_ != m.expected then (m, false)
    else if good then ({ m with bad := 0, expected := next }, false)
    else if 3 ≤ m.bad + 1 then ({}, true)
    else ({ m with bad := m.bad + 1, expected := next }, true)

namespace State

/-! ## Lock status (Table 4-5) -/

def cwState (s : State) (n : Fin 16) : Nat := field (s.rd (K.LINE_LOCK_STATUS n)) 11 10
def epState (s : State) (n : Fin 16) : Nat := field (s.rd (K.LINE_LOCK_STATUS n)) 9 8
def cwLock (s : State) (n : Fin 16) : Bool := s.bit (K.LINE_LOCK_STATUS n) 2
def epochLock (s : State) (n : Fin 16) : Bool := s.bit (K.LINE_LOCK_STATUS n) 5

def setCw (s : State) (n : Fin 16) (v : Nat) : State :=
  (s.wrField (K.LINE_LOCK_STATUS n) 11 10 v).wrBit (K.LINE_LOCK_STATUS n) 2 (v == 3)

/-- The epoch machine's state; a loss of epoch lock clears the arrival log (R286). -/
def setEp (s : State) (n : Fin 16) (v : Nat) : State :=
  ((s.wrField (K.LINE_LOCK_STATUS n) 9 8 v).wrBit (K.LINE_LOCK_STATUS n) 5 (v == 2)).modLane n fun l =>
    if v = 2 then l else { l with xfer := { l.xfer with arr := [] } }

/-- Is the lane in Courn-225 (`LINE_FORMAT`, R128)? -/
def is225 (s : State) (n : Fin 16) : Bool := s.rd (K.LINE_FORMAT n) == 2

/-- Put the marker machines' states into the status; VALID of the received positions follows them (Table 6-8). -/
def showMarkers (s : State) (n : Fin 16) : State :=
  let a := (s.lane n).mkA.st == .lock
  let b := (s.lane n).mkB.st == .lock
  (((s.wrBit (K.LINE_LOCK_STATUS n) 3 a).wrBit (K.LINE_LOCK_STATUS n) 4 b).wrBit (K.LAT_RX_MARKER_A n) 15 a).wrBit
    (K.LAT_RX_MARKER_B n) 15 b

/-- Frame lock as its parts give it (R119). -/
def frameNow (s : State) (n : Fin 16) : Bool :=
  s.cwLock n && (s.lane n).mkA.st == .lock && (s.is225 n || (s.lane n).mkB.st == .lock)

/-- Follow frame lock after a change of its parts: FRAME_LOCK_CHG once (R122); the recovered-clock outputs it sources are
squelched (R26), an outage starts on a lane that is up and did not go by a power request (R30). `lineLoss`: the line caused it, while the lane stays in C5 to C7. -/
def followFrame (s : State) (n : Fin 16) (lineLoss : Bool) : State :=
  let was := s.frameLock n
  let is_ := s.frameNow n
  if was == is_ then s
  else
    let s1 := (s.followFreeze n fun s => s.wrBit (K.LINE_LOCK_STATUS n) 1 is_).raise (Src.FRAME_LOCK_CHG n)
    if is_ then s1
    else
      let s2 := (s1.modLane n fun l =>
        { l with lockedAtEpoch := false, heldEpoch := false, lockTx := false, co := { l.co with heldC6 := false } }).rclkoLaneLost n
      let s3 := if lineLoss then s2.incSat (K.LINE_FRAME_LOSS n) else s2
      if s.laneDown n || (s.unit (laneUnit n)).byRequest then s3 else s3.outageStart .line

/-- The marker and epoch machines return to HUNT and SEARCH (R120). -/
def markersOff (s : State) (n : Fin 16) : State :=
  ((s.modLane n fun l => { l with mkA := {}, mkB := {}, epMiss := 0 }).setEp n 0).showMarkers n

/-- Codeword lock is lost on the line (Table 4-4): HUNT, counted; everything above it falls in the same cc. The hunt resumes on the
grid that was lost, offset 0 (DESIGN CHOICE: Table 4-4 names no offset, log entry 81). -/
def cwLost (s : State) (n : Fin 16) : State :=
  if s.cwState n = 3 then
    ((((s.setCw n 1).modLane n fun l => { l with offset := 0, uncorrRun := 0, cwGood := 0 }).incSat (K.LINE_CWLOCK_LOSS n)).markersOff n).followFrame n true
  else s

/-- The machines start in HUNT when cast-on enters C5 (R120). -/
def lockHunt (s : State) (n : Fin 16) : State :=
  if s.cwState n = 0 then
    (s.setCw n 1).modLane n fun l =>
      { l with offset := 0, cwGood := 0, uncorrRun := 0, blkClean := 0, blkBad := 0, blkSym := 0, blkW := 0, blkTag := false, rx := { l.rx with syms := [] } }
  else s

/-- The machines return to IDLE: the lane leaves C5 to C7, or is reset (R120, R130). No loss is counted (R122). -/
def lockIdle (s : State) (n : Fin 16) : State :=
  (((s.setCw n 0).modLane n fun l => { l with cwGood := 0, uncorrRun := 0 }).markersOff n).followFrame n false

/-! ## Decoding (R115 to R117, R124) -/

/-- PAM4 symbols that the decoder's corrections change, in whatever state it decodes (`LINE_SYM_ERR`, Table 2-7). -/
def countSyms (s : State) (n : Fin 16) (d : Decoded) : State :=
  match d with
  | .corrected fix => s.addSat (K.LINE_SYM_ERR n) ((changes fix).foldl (fun a p => a + pairs8 p.2) 0)
  | _ => s

/-- Count a decoded codeword: outcome, corrections and marks (Table 4-6), in CW LOCK; of the epoch's running totals, what belongs to
the present block is known apart (R126). -/
def countCw (s : State) (n : Fin 16) (d : Decoded) (marks : List Nat) : State :=
  let s0 := s.incSat (K.LINE_CW_TOTAL n)
  match d with
  | .clean => (s0.incSat (K.LINE_CW_CLEAN n)).addSat (K.LINE_ERASE_FALSE n) marks.length
  | .uncorrectable => (s0.incSat (K.LINE_CW_UNCORR n)).modLane n fun l => { l with epUncorr := l.epUncorr + 1 }
  | .corrected fix =>
    let ch := changes fix
    let trueM := (ch.filter fun p => marks.contains p.1).length
    let s1 := if ch.isEmpty then s0.incSat (K.LINE_CW_CLEAN n) else s0.incSat (K.LINE_CW_CORR n (ch.length - 1))
    let s2 := (s1.addSat (K.LINE_SYM_CORR n) ch.length).addSat (K.LINE_BIT_CORR n) (ch.foldl (fun a p => a + bits8 p.2) 0)
    ((s2.addSat (K.LINE_ERASE_TRUE n) trueM).addSat (K.LINE_ERASE_FALSE n) (marks.length - trueM)).modLane n fun l =>
      { l with epSym := l.epSym + ch.length, blkSym := l.blkSym + ch.length }

/-- The received block at the candidate offset, or on the grid of codeword lock, once it has all come in (R106). -/
def rxBlock (s : State) (n : Fin 16) : Option (List (Fin 4 × Nat)) :=
  let y := (s.lane n).rx.syms
  if y.length < 1152 then none else some (y.take 1152)

/-- Is the present block the one at which a tag is expected (Table 4-4)? -/
def tagExpected (s : State) (n : Fin 16) : Bool := s.epState n != 0 && (s.lane n).blkNo == (s.lane n).tagNext

/-- How a codeword is decoded by its place (R116): the outcome, the word it was made on, and the marks it used. A tag that the test
delivers used no marks: it counts in neither `LINE_ERASE_TRUE` nor `LINE_ERASE_FALSE` (DESIGN CHOICE, log entry 81). -/
def decodeAt (s : State) (n : Fin 16) (w : Nat) (r : List Byte) (marks : List Nat) : Decoded × List Byte × List Nat :=
  if w = 0 && s.epochLock n && s.tagExpected n then (rsDecode (tag r) marks, tag r, marks)
  else if w = 0 && !s.epochLock n then
    match tagTest r with
    | some fix => (if fix.isEmpty then .clean else .corrected fix, tag r, [])
    | none => (rsDecode r marks, r, marks)
  else (rsDecode r marks, r, marks)

/-- The next codeword of the received block (R115 to R117): decoded with its marks, which are counted (R56); in CW LOCK counted in
Table 4-6 and delivered, even bits to H(2n), odd ones to H(2n+1) (R103); the 12th UNCORRECTABLE in a row loses codeword lock
(Table 4-4). -/
def codeword (s : State) (n : Fin 16) : State :=
  let w := (s.lane n).blkW
  match s.rxBlock n with
  | none => s
  | some blk =>
    if s.laneTested n || s.cwState n = 0 || 4 ≤ w then s
    else
      let y := wordSyms blk w
      let r := wordBytes y
      let marks := erasureMarks (y.map (·.2)) (s.rd (K.LINE_ERASE_THR n)) (s.rd (K.LINE_ERASE_MAX n))
      let d := s.decodeAt n w r marks
      let bad := d.1 == .uncorrectable
      let word := match d.1 with
        | .corrected fix => applyFix d.2.1 fix
        | .clean => d.2.1
        | .uncorrectable => r
      let s1 := (s.modLane n fun l =>
        { l with blkW := w + 1
                 blkClean := if d.1 == .clean then l.blkClean + 1 else if w = 0 && (tagTest r).isSome then l.blkClean + 1 else l.blkClean
                 blkBad := if bad then l.blkBad + 1 else l.blkBad }).countSyms n d.1 |>.addSat (K.LINE_ERASE_COUNT n) marks.length
      if s.cwState n = 3 then
        let out := hostBits (s.is225 n) (word.take 68)
        let s2 := (s1.countCw n d.1 d.2.2).modLane n fun l =>
          { l with delivered := word.take 68, toA := out.1, toB := out.2, uncorrRun := if bad then l.uncorrRun + 1 else 0 }
        if 12 ≤ (s2.lane n).uncorrRun then s2.cwLost n else s2
      else s1

/-- Rename the logical slots by the slot in which the codeword period begins (R121). -/
def slotRename (s : State) (n : Fin 16) (shift : Nat) : State :=
  let f (j : Nat) : Nat := if j < 16 then (j + 16 - shift % 16) % 16 else j
  s.modLane n fun l => { l with
    rx := { l.rx with slot0 := f l.rx.slot0, headSlot := f l.rx.headSlot }
    ss := { l.ss with
      target := f l.ss.target
      slices := Vector.ofFn fun i => let x := l.ss.slices.get i; { x with slot := f x.slot } } }

/-- CW LOCK is entered: slots renamed, `LINE_SLOT_GEN` (R121); blocks count from the next one on. -/
def cwEnter (s : State) (n : Fin 16) : State :=
  (((s.setCw n 3).incWrap (K.LINE_SLOT_GEN n)).slotRename n (s.lane n).rx.headSlot).modLane n fun l =>
    { l with uncorrRun := 0, cwGood := 0, offset := 0, blkNo := 0 }

/-- The received symbols move on by a block, and by `more` symbols. -/
def takeBlock (s : State) (n : Fin 16) (more : Nat) : State :=
  let step := if s.is225 n then 2 else 1
  s.modLane n fun l =>
    { l with blkW := 0, blkTag := false, blkClean := 0, blkBad := 0, blkSym := 0, blkNo := l.blkNo + 1
             rx := { l.rx with syms := l.rx.syms.drop (1152 + more), headSlot := (l.rx.headSlot + step * more) % 16 } }

/-- All four codewords of a block have been decoded: HUNT and CONFIRM (Table 4-4) on their outcomes; a failed candidate moves the
offset by one symbol. -/
def blockDecoded (s : State) (n : Fin 16) : State :=
  let l := s.lane n
  let miss (s : State) : State := ((s.takeBlock n 1).setCw n 1).modLane n fun l => { l with offset := (l.offset + 1) % 1152, cwGood := 0 }
  if l.blkW != 4 then s
  else match s.cwState n with
    | 1 => if 3 ≤ l.blkClean then ((s.takeBlock n 0).setCw n 2).modLane n fun l => { l with cwGood := 1 } else miss s
    | 2 =>
      if l.blkBad ≤ 1 then
        if 8 ≤ l.cwGood + 1 then (s.takeBlock n 0).cwEnter n
        else (s.takeBlock n 0).modLane n fun l => { l with cwGood := l.cwGood + 1 }
      else miss s
    | _ => s.takeBlock n 0

/-- Distance of the markers of a stream in positions of P (IEEE 802.3, by the port mode). -/
def markerStep (s : State) (n : Fin 16) : Nat :=
  Config.markerPeriod (s.rd (K.PG_MODE (pgOf n))) * (if s.is225 n then 1 else 2)

/-- A pattern of stream A or B (`b`) that differs from a marker in `differ` bits, its first bit at position `p` of the present
block (Table 6-8). -/
def markerAt (s : State) (n : Fin 16) (b : Bool) (differ p : Nat) : State :=
  if !s.cwLock n || (b && s.is225 n) then s
  else
    let m := if b then (s.lane n).mkB else (s.lane n).mkA
    let at_ := 2176 * (s.lane n).blkNo + p
    let good := markerGood differ
    let r := m.judge good at_ (s.markerStep n)
    let s1 := s.modLane n fun l => if b then { l with mkB := r.1 } else { l with mkA := r.1 }
    let s2 := if good && (m.st == .hunt || at_ == m.expected) then
      s1.wrField (if b then K.LAT_RX_MARKER_B n else K.LAT_RX_MARKER_A n) 11 0 p else s1
    let s3 := (if r.2 then s2.incSat (K.LINE_MARKER_BAD n) else s2).showMarkers n
    s3.followFrame n true

/-! ## Epoch lock and received rows (R112, R120, R126) -/

/-- The epoch's totals restart at the boundary before the present block: what its codewords gave already belongs to the new
epoch (R126). -/
def epochRestart (l : LaneS) : LaneS := { l with epUncorr := l.blkBad, epSym := l.blkSym }

/-- A received epoch boundary under E LOCK that completes an epoch: totals up to the block that starts the next one, alarm, monitor,
guard, the recovered-clock condition (R26, R61, R65, R126). -/
def rxEpoch (s : State) (n : Fin 16) : State :=
  let l := s.lane n
  let s1 := (s.wr (K.LINE_UNCORR_EPOCH n) (l.epUncorr - l.blkBad)).wr (K.LINE_SYM_CORR_EPOCH n) (l.epSym - l.blkSym)
  let thr := s1.rd (K.LINE_UNCORR_THR n)
  let s2 := when_ (thr != 0 && thr ≤ l.epUncorr - l.blkBad) (fun s => s.raise (Src.INNER_FEC_ALARM n)) s1
  let s3 := s2.modLane n fun l =>
    { epochRestart l with heldEpoch := l.lockedAtEpoch && s.frameLock n, lockedAtEpoch := s.frameLock n }
  (s3.lqmEpoch n).guardEpoch n

/-- Does the first codeword of the present block pass the tag test (R116)? -/
def tagPresent (s : State) (n : Fin 16) : Bool :=
  match s.rxBlock n with
  | some blk => (tagTest (wordBytes (wordSyms blk 0))).isSome
  | none => false

/-- The first codeword of the present block has been decoded and its tag is judged (E rows of Table 4-4): a tag, or the expected
one absent. -/
def epochTag (s : State) (n : Fin 16) : State :=
  let present := s.tagPresent n
  let expected := s.tagExpected n
  let l := s.lane n
  let next (s : State) : State := s.modLane n fun l => { l with tagNext := l.blkNo + 2 ^ 18 }
  if !s.cwLock n || l.blkW = 0 || l.blkTag || (s.rxBlock n).isNone then s
  else
    let s0 := s.modLane n fun l => { l with blkTag := true }
    match s.epState n with
    | 0 => if present then (next s0).setEp n 1 else s0
    | 1 =>
      if expected then
        if present then
          (((next s0).setEp n 2).incWrap (K.LINE_ROW_RX n)).modLane n fun l =>
            { epochRestart l with
              epMiss := 0, heldEpoch := false, lockedAtEpoch := s.frameLock n, satEpoch := false, tripEpoch := false }
        else s0.setEp n 0
      else if present then next s0 else s0
    | _ =>
      if !expected then s0
      else if present then (((next s0).modLane n fun l => { l with epMiss := 0 }).incWrap (K.LINE_ROW_RX n)).rxEpoch n
      else if 2 ≤ l.epMiss + 1 then
        ((s0.modLane n fun l => { l with epMiss := 0 }).setEp n 0).incSat (K.LINE_TAG_MISS n)
      else
        ((((next s0).modLane n fun l => { l with epMiss := l.epMiss + 1 }).incWrap (K.LINE_ROW_RX n)).incSat (K.LINE_TAG_MISS n)).rxEpoch n

/-! ## Reset and clear -/

/-- Clear the counters of Table 4-6 (R124). The running totals of the epoch, which the next boundary copies, are no counters of the
table and run on (DESIGN CHOICE, log entry 99). -/
def fecClear (s : State) (n : Fin 16) : State :=
  s.clrAll ((List.range 17).map fun i => ⟨.line n, 0x32, i + 1⟩)

/-- The format part of a lane reset (R130). -/
def formatLaneReset (s : State) (n : Fin 16) : State :=
  (((s.lockIdle n).wr (K.LINE_ROW_RX n) 0).wr (K.LINE_FEC_INJECT n) 0).modLane n fun l => { l with inj := {} }

end State

/-! ## Effects of writes -/

def effFecClear (n : Fin 16) (v : Nat) (s : State) : State := if v = 1 then s.fecClear n else s

/-- `LINE_FEC_INJECT`: codewords count from the write (R127). -/
def effFecInject (n : Fin 16) (v : Nat) (s : State) : State :=
  ((s.injFollow n).wr (K.LINE_FEC_INJECT n) v).modLane n fun l => { l with inj := { start := s.now } }

/-! ## Meanings -/

def execLineFecClear (r : Fin 18) (n : Fin 16) (v : BitVec 8) (s : State) : Host.Outcome State Fault Refusal :=
  .next (s.write r (K.LINE_FEC_CLEAR n) (be 1 v.toNat) (effFecClear n v.toNat))

end Sys2Proof.Machine
end

