-- ==== Sys2Proof/Machine/Latency.lean ====
section
/-!
DEFINITION. Latency (06_latency.md, R163 to R178): the clocked counts, the analogue parts and their compensation, the
position term, the totals, and the reporting of latency-changing events.
-/

namespace Sys2Proof.Machine

/-! ## Position term (R163, R168), in τ -/

/-- Codeword, byte and bit of payload position `p` in its block. -/
def placeOf (p : Nat) : Nat × Nat × Nat := (p / 544, p % 544 / 8, p % 8)

/-- Line symbol of payload position `p`. -/
def symbolOf (p : Nat) : Nat := 16 * (p % 544 / 8) + 4 * (p / 544) + p % 8 / 2

/-- d of R168. -/
def positionTerm (f225 : Bool) (p : Nat) : Int :=
  if f225 then 1360 * symbolOf p - 1440 * (p / 2 : Nat) else 680 * symbolOf p - 1440 * (p / 4 : Nat)

/-- F of R168. -/
def frameTau (f225 : Bool) : Nat := if f225 then 998720 else 531360

/-- Position of the bit m places after a marker at `p` (R177). -/
def afterMarker (f225 : Bool) (p m : Nat) : Nat := if f225 then (p + m) % 2176 else (p + 2 * m) % 2176

/-- Cause bits of Table 6-6. -/
def causeRelock : Nat := 0x001
def causeSlip (b : Bool) : Nat := if b then 0x004 else 0x002
def causeCapture (b : Bool) : Nat := if b then 0x010 else 0x008
def causeCwRelock : Nat := 0x020
def causeQueue : Nat := 0x040
def causeConfig : Nat := 0x080
def causeMarker (b : Bool) : Nat := if b then 0x200 else 0x100

/-- A fused analogue part (R170), fs at 85 °C: within 15 ps of the typical value (log entry 4). Part 0 to 3 of unit u. -/
def fusedPart (typical : Nat) (part u : Nat) : Int :=
  (typical : Int) - 15000 + (Config.fused (64 * part + u) % 30001 : Nat)

namespace State

/-! ## Clocked counts (Tables 6-1, 6-7, 6-8) -/

/-- Does the group terminate host FEC? -/
def fecTerminates (s : State) (k : Fin 4) : Bool := s.rd (K.PG_FEC_MODE k) == 2

/-- `LAT_TX_CC`; the DAC sample queue's share is its 2 cc (R87). -/
def latTxCc (s : State) (n : Fin 16) : Nat :=
  let k := pgOf n
  if !s.gbLock k then 0
  else (if (s.pg k).grid = 2 then 8 else 7) + (if s.rd (K.PG_CLK_MODE k) = 0 then 5 else 0) + (if s.fecTerminates k then 360 else 0)

/-- `LAT_RX_CC`. -/
def latRxCc (s : State) (n : Fin 16) : Nat :=
  if !s.cwLock n then 0 else (if s.is225 n then 33 else 24) + (if s.fecTerminates (pgOf n) then 360 else 0)

/-- `LAT_FRAME_TAU`: 0 before the format is agreed. -/
def latFrameTau (s : State) (n : Fin 16) : Nat :=
  match s.rd (K.LINE_FORMAT n) with
  | 0 => 0
  | f => frameTau (f == 2)

/-- Capture fraction of lane A or B; lane B reads 0 in Courn-225 (R176). -/
def latFrac (s : State) (n : Fin 16) (b : Bool) : Int :=
  if b then (if s.is225 n then 0 else s.rdI (K.HOST_RX_CAPTURE_FRAC (hostB n))) else s.rdI (K.HOST_RX_CAPTURE_FRAC (hostA n))

/-- `LAT_TX_TOTAL_FS`: one cc is 5,120,000/9 fs, one hc 10,240,000/17 fs (Table 6-7). -/
def latTxTotal (s : State) (n : Fin 16) : Nat :=
  if s.latTxCc n = 0 then 0
  else zx 32 (roundOpen ((s.latTxCc n : Int) * 87040000 + 153 * ((s.rd (K.LAT_TX_ANALOG_FS n) : Int) + s.latFrac n false) +
    s.rdI (K.LAT_TX_SLIP_A n) * 92160000) 153)

/-- `LAT_RX_TOTAL_FS`. -/
def latRxTotal (s : State) (n : Fin 16) : Nat :=
  if s.latRxCc n = 0 then 0 else zx 32 (roundOpen ((s.latRxCc n : Int) * 87040000 + 153 * (s.rd (K.LAT_RX_ANALOG_FS n) : Int)) 153)

/-- `LAT_STATUS`. -/
def latStatus (s : State) (n : Fin 16) : Nat :=
  (if (s.lane n).tempHeld then 4 else 0) + (if s.latRxCc n != 0 then 2 else 0) + (if s.latTxCc n != 0 then 1 else 0)

/-- What a read of a latency entry gives (R176); lane-B entries read 0 in Courn-225. -/
def latRead (s : State) (n : Fin 16) (k : Key) : Nat :=
  match k.off, k.sub with
  | 0x3A, 1 => s.latTxCc n
  | 0x3A, 3 => zx 16 (s.latFrac n false)
  | 0x3A, 4 => zx 16 (s.latFrac n true)
  | 0x3A, 6 => if s.is225 n then 0 else s.rd k
  | 0x3A, 8 => if s.is225 n then 0 else s.rd k
  | 0x3A, 9 => s.latTxTotal n
  | 0x3B, 1 => s.latRxCc n
  | 0x3B, 4 => if s.is225 n then 0 else s.rd k
  | 0x3B, 5 => s.latRxTotal n
  | 0x3C, 1 => s.latFrameTau n
  | 0x3C, 7 => s.latStatus n
  | _, _ => s.rd k

/-- `LAT_ALL`, taken in one cc. -/
def latAll (s : State) (n : Fin 16) : List Byte :=
  let f (off sub bytes : Nat) := be bytes (s.latRead n ⟨.line n, off, sub⟩)
  f 0x3A 1 2 ++ f 0x3A 2 4 ++ f 0x3A 3 2 ++ f 0x3A 4 2 ++ f 0x3A 5 2 ++ f 0x3A 6 2 ++ f 0x3A 7 2 ++ f 0x3A 8 2 ++ f 0x3A 9 4 ++
  f 0x3B 1 2 ++ f 0x3B 2 4 ++ f 0x3B 3 2 ++ f 0x3B 4 2 ++ f 0x3B 5 4 ++
  f 0x3C 1 4 ++ f 0x3C 2 4 ++ f 0x3C 3 2 ++ f 0x3C 7 1

/-! ## Events (R174) -/

/-- Data of the lane's latency record, with the counts and the sequence number as they now stand (Table 14-13). -/
def latData (s : State) (n : Fin 16) : List Byte :=
  be 2 (s.rd (K.LAT_CAUSE n)) ++ be 4 (s.rd (K.LAT_SEQ n)) ++ be 2 (s.latTxCc n) ++ be 2 (s.latRxCc n) ++ be 4 (s.rd (K.LAT_EPOCH_SHORT n))

/-- Report a latency-changing event of one lane that takes effect in this cc: one record, one step of `LAT_SEQ` and the OR of the
causes for all events of one cc, so that a second one completes the first one's record. A lane in Deep sleep reports none (R483). -/
def latEvent (s : State) (n : Fin 16) (cause : Nat) : State :=
  if s.clamped (laneUnit n) then s
  else
  let s1 :=
    if (s.lane n).latAt = some s.now then
      let t := s.wr (K.LAT_CAUSE n) (s.rd (K.LAT_CAUSE n) ||| cause)
      t.modMgmt fun m => { m with recQ := m.recQ.map fun e =>
        if e.cc = s.now && e.kind = 0x01 && e.unit = n.val then { e with data := t.latData n } else e }
    else
      let t := ((((s.incWrap (K.LAT_SEQ n)).wr (K.LAT_CAUSE n) cause).wr (K.LAT_EVENT_TIME n) s.timeNow).incSat (K.LAT_EVENT_COUNT n)).modLane n
        fun l => { l with latAt := some s.now }
      t.record 0x01 n.val (t.latData n)
  s1.raise (Src.LATENCY_CHG n)

/-- A DAC sample queue's distance found when LSYN relocks: a changed one is re-centred and reported (R88, R173). -/
def queueFound (s : State) (n : Fin 16) (dist : Nat) : State :=
  if (s.lane n).out = .disabled || dist = (s.lane n).queue then s else (s.queueSlip n).latEvent n causeQueue

/-! ## Analogue parts (R170, R171) -/

/-- Value of a part at a sensor's reading (0.01 °C), in 1/100 fs: fused value and coefficient in fs/K. -/
def partAt (fused coef : Int) (t : Int) : Int := 100 * fused + coef * (t - 8500)

/-- Recompute the lane's analogue parts; a broken sensor holds the last values. -/
def latRecompute (s : State) (n : Fin 16) : State :=
  let k := pgOf n
  let tn := s.rdI (K.TEMP_T n.val)
  let tk := s.rdI (K.TEMP_T (16 + k.val))
  let okN := tn != 0x7FFF
  let okK := tk != 0x7FFF
  let l := s.lane n
  let dac := if s.rd (K.LINE_TX_OUT_MODE n) = 0 then partAt (fusedPart 427000 0 n.val) 30 tn else partAt (fusedPart 409000 1 n.val) 34 tn
  let pHost := if okK then partAt (fusedPart 142000 2 k.val) 10 tk else l.pHost
  let pDac := if okN then dac else l.pDac
  let pRx := if okN then partAt (fusedPart 690000 3 n.val) 45 tn else l.pRx
  let pDrv := if okK then partAt (fusedPart 450000 2 (16 + k.val)) 20 tk else l.pDrv
  let tx := divOpen (9 * (pHost + pDac) + 62500 * s.rdI (K.LINE_TX_SKEW n)) 900
  let rx := divOpen (pRx + pDrv) 100
  (((s.modLane n fun l => { l with pHost := pHost, pDac := pDac, pRx := pRx, pDrv := pDrv, tempHeld := !(okN && okK), laneHeld := !okN }).wrI
    (K.LAT_TX_ANALOG_FS n) tx).wrI (K.LAT_RX_ANALOG_FS n) rx)

/-- The analogue parts are computed again: at a transmit epoch boundary (R170), and with a CONFIG change, whose skew and output mode
they include (R168, R173; that the temperature is then taken anew is a DESIGN CHOICE, log entry 105). TEMP_HELD that sets raises
TIME_COMP_HELD (R171). -/
def epochLatency (s : State) (n : Fin 16) : State :=
  let s1 := s.latRecompute n
  if (s1.lane n).tempHeld && !(s.lane n).tempHeld then s1.raise Src.TIME_COMP_HELD else s1

/-! ## CONFIG (R173) -/

/-- A setting of R173 changed: it takes effect, and is reported, when the lane next comes up; on a lane that is up with its gearbox
locked, now. -/
def cfgChanged (s : State) (n : Fin 16) : State :=
  if s.gbLock (pgOf n) && !s.laneDown n then (s.epochLatency n).latEvent n causeConfig
  else s.modLane n fun l => { l with cfgPend := true }

/-- The CONFIG bit of a lane whose change takes effect now. -/
def cfgCause (s : State) (n : Fin 16) : Nat := if (s.lane n).cfgPend then causeConfig else 0

/-- A lane comes up with its group's gearbox already locked: a change that waited takes effect. -/
def cfgReport (s : State) (n : Fin 16) : State :=
  if (s.lane n).cfgPend && s.gbLock (pgOf n) then
    ((s.modLane n fun l => { l with cfgPend := false }).epochLatency n).latEvent n causeConfig
  else s

end State

/-- `LINE_TX_SKEW`, `LINE_TX_OUT_MODE`: settings of R173. -/
def effTxSkew (n : Fin 16) (v : Nat) (s : State) : State :=
  if v = s.rd (K.LINE_TX_SKEW n) then s else (s.wr (K.LINE_TX_SKEW n) v).cfgChanged n

def effTxOutMode (n : Fin 16) (v : Nat) (s : State) : State :=
  if v = s.rd (K.LINE_TX_OUT_MODE n) then s else ((s.wr (K.LINE_TX_OUT_MODE n) v).outFollow n).cfgChanged n

end Sys2Proof.Machine
end

