-- ==== Sys2Proof/Machine/HostLane.lean ====
section
/-!
DEFINITION. Host lanes, forwarded clocks, gearbox and host FEC (05_host_interface.md, R131 to R156, R161, R162), and
marker fill (R113, R114).
-/

namespace Sys2Proof.Machine

/-- Lane index j of a host lane in its group. -/
def hostJ (m : Fin 32) : Nat := m.val % 8

/-- Does a host lane ride as lane B of its line lane? -/
def isB (m : Fin 32) : Bool := m.val % 2 == 1

/-- Table 5-4, taps × 1,000 of presets 0 to 7. -/
def hostPreset : Nat → List Int
  | 0 => [0, 0, 1000, 0]
  | 1 => [0, -50, 950, 0]
  | 2 => [0, -100, 900, 0]
  | 3 => [0, -150, 850, 0]
  | 4 => [25, -150, 825, 0]
  | 5 => [50, -200, 750, 0]
  | 6 => [0, -100, 850, -50]
  | _ => [25, -200, 725, -50]

/-- Polarity inversion negates every PAM4 level (R145). -/
def invertLevel (l : Fin 4) : Fin 4 := 3 - l

/-- Where a lane's arrival phase lies against hc, in fs: the nearest host symbol of 160,000/17 fs, the delay of 0 to 63 symbols
that fills the hc, and the part finer than a symbol (R139, log entry 82). -/
def captureOf (phase : Nat) : Nat × Int :=
  let k := roundOpen (17 * phase : Nat) 160000
  (((64 - k) % 64).toNat, divOpen (17 * (phase : Int) - 160000 * k) 17)

/-- What a host transmitter sends (R152, R160). -/
inductive HostOut where
  | idle | fill | prbs31 | generator | data
deriving DecidableEq, Repr

namespace State

/-! ## Ports (R12, Table 4-8) -/

/-- Host lanes of port `p` of group `k`, by index j in the group. -/
def portLanes (s : State) (k : Fin 4) (p : Nat) : List Nat :=
  if (s.pg k).grid = 2 then
    match s.rd (K.PG_MODE k) with
    | 0 => if p < 2 then [4 * p, 4 * p + 2] else []
    | 1 => if p = 0 then [0, 2, 4, 6] else []
    | _ => []
  else
    match s.rd (K.PG_MODE k) with
    | 0 => if p < 4 then [2 * p, 2 * p + 1] else []
    | 1 => if p < 2 then (List.range 4).map (4 * p + ·) else []
    | _ => if p = 0 then List.range 8 else []

/-! ## Receiver status -/

def hostBit (s : State) (m : Fin 32) (i : Nat) : Bool := s.bit (K.HOST_RX_STATUS m) i
def setHostBit (s : State) (m : Fin 32) (i : Nat) (b : Bool) : State := s.wrBit (K.HOST_RX_STATUS m) i b

/-- The lane counts as lost: signal, clock or alignment absent, or its checker enabled (R113, R135). -/
def hostLost (s : State) (m : Fin 32) : Bool :=
  !(s.hostBit m 1 && s.hostBit m 2 && s.hostBit m 4) || s.hostBit m 7

/-- SIGNAL changes: HOST_LOS with the lane's bit (R162). -/
def setSignal (s : State) (m : Fin 32) (b : Bool) : State :=
  (s.setHostBit m 1 b).raiseIn (Src.HOST_LOS (pgOfHost m)) (K.HOST_LOS_LANES (pgOfHost m)) (hostJ m)

/-- ALIGN follows the monitor; a change raises HOST_ALIGN_CHG (R135, R162). -/
def setAlign (s : State) (m : Fin 32) (b : Bool) : State :=
  if s.hostBit m 4 == b then s
  else (s.setHostBit m 4 b).raiseIn (Src.HOST_ALIGN_CHG (pgOfHost m)) (K.HOST_ALIGN_CHG_LANES (pgOfHost m)) (hostJ m)

/-- Do the taps of the host FFE move: adaptation on, not frozen, a clock to work with (R133)? -/
def hostTapsMove (s : State) (m : Fin 32) : Bool := s.on (K.HOST_RX_ADAPT m) && !s.on (K.HOST_RX_FRZ m) && (s.host m).acq != 0

/-- The taps stop where they are: a value that the spec does not state (log entry 2). -/
def hostTapsHeld (s : State) (m : Fin 32) : State := s.fresh.2.wr (K.HOST_RX_FFE m) s.fresh.1

/-- A change after which the taps may stand still. -/
def hostTapsFollow (s : State) (m : Fin 32) (f : State → State) : State :=
  if s.hostTapsMove m && !(f s).hostTapsMove m then (f s).hostTapsHeld m else f s

/-- CLK_OK is lost: the capture is no longer fixed, the equalizer has no lane to work on, alignment falls. -/
def clkOkLost (s0 : State) (m : Fin 32) : State :=
  s0.hostTapsFollow m fun s =>
  let s1 := (s.setHostBit m 2 false).setHostBit m 3 false
  (s1.modHost m fun h => { h with acq := 0, align := {}, training := false }).setAlign m false

def hckiPresent (s : State) (k : Fin 4) : Bool := s.bit (K.PG_GB_STATUS k) 3
def fwdClock (s : State) (k : Fin 4) : Bool := s.rd (K.PG_CLK_MODE k) == 1

/-- Training on the forwarded clock, or CDR lock, begins (R137, R138); in Courn-225 H(2n+1) is powered down (R129). -/
def hostTrain (s : State) (m : Fin 32) : State :=
  if s.hostBit m 1 && (!s.fwdClock (pgOfHost m) || s.hckiPresent (pgOfHost m)) && !(isB m && s.is225 (lineOfHost m)) then
    s.modHost m fun h => { h with training := true }
  else s

def hostSignalClear (s : State) (m : Fin 32) : State :=
  if s.rd (K.HOST_LOS_THR m) != 0 && s.hostBit m 1 then (s.setSignal m false).clkOkLost m else s

def hostSignalSet (s : State) (m : Fin 32) : State :=
  if s.hostBit m 1 then s else (s.setSignal m true).hostTrain m

/-- With forwarded clock and the root from HCKI0/85 the capture fraction is the same at every lock (R139). -/
def captureSame (s : State) (m : Fin 32) : Bool := s.fwdClock (pgOfHost m) && s.rd K.CLK_REF_SRC = 1

/-- The capture is fixed at 1 hc, the buffer holding 64 symbols: fraction, delay, no slips since (R139). -/
def capture (s : State) (m : Fin 32) (phase : Nat) : State :=
  let c := captureOf phase
  let f := if s.captureSame m then (s.host m).fracFixed.getD c.2 else c.2
  let s1 := s.modHost m fun h =>
    { h with fracFixed := if s.captureSame m then some f else none, delay := c.1, fill := 64, refind := 0 }
  (s1.wrI (K.HOST_RX_CAPTURE_FRAC m) f).wr (if isB m then K.LAT_TX_SLIP_B (lineOfHost m) else K.LAT_TX_SLIP_A (lineOfHost m)) 0

/-- CLK_OK sets: the capture is fixed and reported, acquisition starts (R133, R139). `phase`: the arrival phase measured, below
one hc. -/
def clkOkSet (s : State) (m : Fin 32) (phase : Nat) : State :=
  if !(s.host m).training then s
  else
    let s1 := s.modHost m fun h => { h with training := false, acq := 1 }
    (((s1.setHostBit m 2 true).setHostBit m 3 true).capture m phase).latEvent (lineOfHost m) (causeCapture (isB m))

/-- The equalizer's acquisition ends (R133): `ctle` the peaking it chose. -/
def hostAcqEnd (s : State) (m : Fin 32) (ctle : Nat) : State :=
  if (s.host m).acq = 1 then
    let s1 := s.modHost m fun h => { h with acq := 2 }
    if s.on (K.HOST_RX_ADAPT m) then s1.wr (K.HOST_RX_CTLE m) (min ctle 24) else s1
  else s

/-- The alignment monitor meets a pattern at bit `at_` of the lane's stream that differs from a marker of the port mode in `differ`
bits (R135); `p` is the marker's position as sent on the line, `moved` whether it left its earlier positions (R113, Table 6-6).
A judged period brings the FEC unit nearer to the codeword positions that a slip moved (R155). -/
def hostMarkerAt (s : State) (m : Fin 32) (differ at_ p : Nat) (moved : Bool) : State :=
  if !s.hostBit m 2 then s
  else
    let n := lineOfHost m
    let good := markerGood differ
    let r := (s.host m).align.judge good at_ (Config.markerPeriod (s.rd (K.PG_MODE (pgOfHost m))))
    let s1 := (s.modHost m fun h => { h with align := r.1, refind := h.refind - 1 }).setAlign m (r.1.st == .lock)
    let key := if isB m then K.LAT_TX_MARKER_B n else K.LAT_TX_MARKER_A n
    if r.1.st == .lock && good && !(s.host m).filled then
      let had := s.bit key 15
      let s2 := s1.wr key (0x8000 + p % 4096)
      if had && moved then s2.latEvent n (causeMarker (isB m)) else s2
    else s1

/-! ## Forwarded clock input (R137) -/

/-- A group without power sees nothing of its input (R483). -/
def hckiLost (s : State) (k : Fin 4) : State :=
  if !s.hckiPresent k || s.clamped (pgUnit k) then s
  else
    let s1 := (s.wrBit (K.PG_GB_STATUS k) 3 false).wrBit (K.PG_GB_STATUS k) 4 true
    if s.fwdClock k then (forAll (hostsOf k) (fun m s => s.clkOkLost m) s1).raise (Src.GEARBOX_EVENT k) else s1

def hckiReturn (s : State) (k : Fin 4) : State :=
  if s.hckiPresent k || s.clamped (pgUnit k) then s
  else
    let s1 := s.wrBit (K.PG_GB_STATUS k) 3 true
    if s.fwdClock k then forAll (hostsOf k) (fun m s => s.hostTrain m) s1 else s1

/-! ## Gearbox, transmit side (Table 5-2) -/

/-- LSYN and HSYN locked, or held frequency. -/
def clocksOk (s : State) : Bool := (s.bit K.CLK_STATUS 0 && s.bit K.CLK_STATUS 1) || s.bit K.CLK_STATUS 3

/-- A line lane of the group is up, its port-group unit in Run and the clocks run: OFF to WAIT (R480). -/
def gbUp (s : State) (k : Fin 4) : State :=
  if (s.pg k).gb = .off && s.rd (K.PWR_STATE (pgUnit k)) = 0 && !s.pgDown k && s.clocksOk then s.modPg k fun g => { g with gb := .wait, lostLock := false } else s

/-- GB_LOCK and XPHASE of a group that enters or leaves LOCKED; its codewords start or stop (R127). -/
def gbShow (s : State) (k : Fin 4) (b : Bool) : State :=
  (((forAll (lanesOf k) (fun n s => s.injRebase n) s).wrBit (K.PG_GB_STATUS k) 0 b).wr (K.PG_XPHASE k) (if b then 2 else 0xFF))

/-- Every line lane of the group went down: OFF. Table 5-2 gives the event for LOCKED; a group in WAIT, which nothing would take to OFF
otherwise, follows it too (DESIGN CHOICE, log entry 100). -/
def gbDown (s : State) (k : Fin 4) : State :=
  if s.pgDown k && (s.pg k).gb != .off then (s.gbShow k false).modPg k fun g => { g with gb := .off, lostLock := false, relockFmt := false } else s

/-- The gearbox goes to OFF with its unit (R480, Table 16-13). -/
def gbStop (s : State) (k : Fin 4) : State :=
  (s.gbShow k false).modPg k fun g => { g with gb := .off, lostLock := false, relockFmt := false }

/-- LOCKED to WAIT, RELOCK: the transmitters send code 0 until relock; the epoch in progress ends at its last whole block and the
row counters move on by 1 (R111, Table 5-2, log entry 83). -/
def gbUnlock (s : State) (k : Fin 4) : State :=
  forAll (lanesOf k) (fun n s => s.incWrap (K.LINE_ROW_TX n))
    (((s.gbShow k false).wrBit (K.PG_GB_STATUS k) 2 true).modPg k fun g => { g with gb := .wait, code0 := true })

/-- A synthesizer lost lock: LOCKED to WAIT; a group that waits goes on waiting (Table 5-2). -/
def gbLose (s : State) (k : Fin 4) : State :=
  match (s.pg k).gb with
  | .locked => (s.gbUnlock k).modPg k fun g => { g with lostLock := true }
  | _ => s

/-- The format of the grid to be placed: the fixed one, else the one in place, else Courn-450 (or 225 where only that is
allowed). -/
def gridFormat (s : State) (k : Fin 4) : Nat :=
  if (s.pg k).fixed != 0 then (s.pg k).fixed
  else if s.rd (K.PG_LINE_FORMAT k) = 1 then 2
  else if s.rd (K.PG_LINE_FORMAT k) = 0 || (s.pg k).grid = 0 then 1 else (s.pg k).grid

/-- The capture of a lane is fixed again with a relock that swallowed its slip (R148): the phase is measured again, of which the spec
states no value (log entry 2). Only GB_RELOCK is reported. -/
def recapture (s : State) (m : Fin 32) : State := s.fresh.2.capture m (s.fresh.1 % 602353)

/-- Entry to LOCKED at a gauge tick (Table 5-2): grid, rows at 0 and departure logs empty (R286), GB_LOCK, the count, GEARBOX_EVENT,
the report on every lane of the group, whose analogue parts are computed again, since an epoch starts (R110, R170); captures whose
slip fell in the relock are fixed again (R148). `blocks`: whole blocks sent of the epoch that the relock shortened (Table 6-9). -/
def gbEnter (s : State) (k : Fin 4) (blocks : Nat) : State :=
  let g := s.pg k
  let relock := g.relockFmt
  let short := if g.lostLock || relock then blocks % 2 ^ 18 else 0
  let s1 := (s.gbShow k true).modPg k fun g =>
    { g with gb := .locked, lostLock := false, relockFmt := false, code0 := false, lockedAt := s.now, grid := s.gridFormat k }
  let s2 := forAll (hostsOf k) (fun m s => if (s.host m).slipDue then
    (s.recapture m).modHost m fun h => { h with slipDue := false } else s) ((s1.incSat (K.PG_GB_LOCKS k)).raise (Src.GEARBOX_EVENT k))
  forAll (lanesOf k) (fun n s =>
    let c := if relock then causeConfig + (if g.lostLock then causeRelock else 0) else causeRelock + s.cfgCause n
    ((((s.wr (K.LINE_ROW_TX n) 0).wr (K.LAT_EPOCH_SHORT n) short).modLane n fun l =>
      { l with cfgPend := false, xfer := { l.xfer with dep := [], last := none, rows := 0 } }).epochLatency n).latEvent n c) s2

/-- The fill of lane j's capture buffer at a 17-hc period boundary (R140). At 4 or 124 it slips: the read point moves by 64 symbols
toward the centre; the lane's cause bit is answered for the one report of its line lane (R174). In the period of a relock, or
without lock, the slip is discarded and the capture fixed again (R148). -/
def hostFill (s : State) (k : Fin 4) (j : Fin 8) (fill : Nat) : State × Nat :=
  let m : Fin 32 := ⟨8 * k.val + j.val, by omega⟩
  let n := lineOfHost m
  let s0 := s.modHost m fun h => { h with fill := fill }
  if !s.hostBit m 3 || (4 < fill && fill < 124) then (s0, 0)
  else if (s.pg k).gb != .locked then (s0.modHost m fun h => { h with slipDue := (s.pg k).gb == .wait }, 0)
  else if s.now < (s.pg k).lockedAt + 18 then (s0.recapture m, 0)
  else
    let dropped := decide (124 ≤ fill)
    let key := if isB m then K.LAT_TX_SLIP_B n else K.LAT_TX_SLIP_A n
    let s1 := (s0.modHost m fun h => { h with fill := if dropped then fill - 64 else fill + 64, refind := 4 }).wrI key
      (clampI (-32767) 32767 (s.rdI key + (if dropped then -1 else 1)))
    let s2 := ((s1.setHostBit m 6 true).incSat (K.HOST_RX_SLIPS m)).incSat (K.PG_GB_SLIPS k)
    ((s2.wrBit (K.PG_GB_STATUS k) 1 true).raise (Src.GEARBOX_EVENT k), causeSlip (isB m))

/-- The fills of a group's lanes at one boundary: each line lane reports the slips of its pair in one record (R174). -/
def hostFills (s : State) (k : Fin 4) (fills : List (Fin 8 × Nat)) : State :=
  let r := fills.foldl (fun (a : State × List (Nat × Nat)) f =>
    let q := a.1.hostFill k f.1 f.2
    (q.1, (f.1.val / 2, q.2) :: a.2)) (s, [])
  forAll (lanesOf k) (fun n s =>
    let c := r.2.foldl (fun c p => if p.1 = n.val % 4 then c ||| p.2 else c) 0
    if c = 0 then s else s.latEvent n c) r.1

/-! ## Host transmitters (R152) -/

/-- What host transmitter `m` sends. -/
def hostOut (s : State) (m : Fin 32) : HostOut :=
  let n := lineOfHost m
  if (isB m && s.is225 n) || !s.inRun n then .idle
  else if s.bit (K.PRBS_GEN_CFG m) 0 then .generator
  else if s.frameLock n && !(s.lane n).laneReset then .data
  else match s.rd (K.PG_HOST_NOLOCK (pgOf n)) with
    | 0 => .idle
    | 1 => .fill
    | _ => .prbs31

/-- The taps of host transmitter `m` in force, c-2 to c1, in units of 1/1,024,000: a preset's, under 15 those of `HOST_TX_TAP`
(R149, R150). -/
def hostTaps (s : State) (m : Fin 32) : List Int :=
  if s.rd (K.HOST_TX_PRESET m) = 15 then (List.range 4).map fun i => 1000 * s.rdI (K.HOST_TX_TAP m i)
  else (hostPreset (s.rd (K.HOST_TX_PRESET m))).map (1024 * ·)

/-- A preset or a tap acts: the transmitter's taps follow. -/
def hostTapsSet (s : State) (m : Fin 32) : State := s.modHost m fun h => { h with taps := s.hostTaps m }

/-- Ball lane that feeds a logical receive lane, and the one that a logical transmit lane drives (R144, R145). -/
def rxBall (s : State) (m : Fin 32) : Nat := s.rd (K.PG_RX_MAP (pgOfHost m) (hostJ m))
def txBall (s : State) (m : Fin 32) : Nat := s.rd (K.PG_TX_MAP (pgOfHost m) (hostJ m))

/-- The level that a logical receive lane sees of its ball lane's, and that a ball lane gets of its logical transmit lane's (R145). -/
def rxLevel (s : State) (m : Fin 32) (l : Fin 4) : Fin 4 := if s.bit (K.PG_RX_POL (pgOfHost m)) (hostJ m) then invertLevel l else l
def txLevel (s : State) (m : Fin 32) (l : Fin 4) : Fin 4 := if s.bit (K.PG_TX_POL (pgOfHost m)) (hostJ m) then invertLevel l else l

/-- HCKOk: driven with its frequency, or at electrical idle (R142). -/
def hcko (s : State) (k : Fin 4) : Option Int := if s.on (K.PG_HCKO_EN k) then some (s.hckoFreq k) else none

/-- `PG_HCKO_SPREAD` (R142): the largest difference between the source lane's offset and a frame-locked lane's. A source lane without
frame lock counts with its last `LINE_CDR_FREQ` (DESIGN CHOICE, log entry 84). -/
def hckoSpread (s : State) (k : Fin 4) : Nat :=
  let src := s.hckoLane k
  (lanesOf k).foldl (fun a n =>
    if s.frameLock n then max a (s.rdI (K.LINE_CDR_FREQ n) - s.rdI (K.LINE_CDR_FREQ src)).natAbs else a) 0

/-! ## Marker fill (R113, R114) -/

/-- FILL_A or FILL_B of the line lane. -/
def setFill (s : State) (m : Fin 32) (b : Bool) : State :=
  (s.wrBit (K.LINE_LOCK_STATUS (lineOfHost m)) (if isB m then 7 else 6) b).modHost m fun h => { h with filled := b }

/-- FILL_A and FILL_B show what is sent: a lane reset leaves the fill (R114). -/
def fillShow (s : State) (n : Fin 16) : State :=
  (s.wrBit (K.LINE_LOCK_STATUS n) 6 (s.host (hostA n)).filled).wrBit (K.LINE_LOCK_STATUS n) 7 (s.host (hostB n)).filled

/-- Fill starts at a block boundary, in Courn-225 for H(2n) alone: the markers continue the last positions, or stand where the device chooses, which
the spec does not say (log entry 2). -/
def fillStart (s : State) (m : Fin 32) : State :=
  if s.hostLost m && !(s.host m).filled && s.gbLock (pgOfHost m) && !(isB m && s.is225 (lineOfHost m)) then
    let n := lineOfHost m
    let key := if isB m then K.LAT_TX_MARKER_B n else K.LAT_TX_MARKER_A n
    if s.bit key 15 then s.setFill m true
    else (s.fresh.2.wr key (0x8000 + s.fresh.1 % 2176)).setFill m true
  else s

/-- Fill ends: the lane's own markers return at position `p`; `moved`: it is not the fill's. -/
def fillEnd (s : State) (m : Fin 32) (p : Nat) (moved : Bool) : State :=
  if !s.hostLost m && (s.host m).filled then
    let n := lineOfHost m
    let s1 := (s.setFill m false).wr (if isB m then K.LAT_TX_MARKER_B n else K.LAT_TX_MARKER_A n) (0x8000 + p % 4096)
    if moved then s1.latEvent n (causeMarker (isB m)) else s1
  else s

/-! ## Host FEC (R153 to R156) -/

/-- Is a port's direction decoded: every host lane aligned and its codeword positions found again since a slip, or every line lane
in frame lock (R154, R155)? -/
def fecDecodes (s : State) (k : Fin 4) (rx : Bool) (p : Nat) : Bool :=
  s.rd (K.PG_FEC_MODE k) != 0 && !(s.portLanes k p).isEmpty &&
  (allFin 8).all fun j =>
    let m : Fin 32 := ⟨8 * k.val + j.val, by omega⟩
    !(s.portLanes k p).contains j.val || (if rx then s.frameLock (lineOfHost m) else s.hostBit m 4 && (s.host m).refind = 0)

/-- One more codeword in a bin of a 512-byte histogram, bin 0 most significant (Table 5-5). -/
def fecHistAdd (h bin : Nat) : Nat :=
  let i := 64 * (63 - bin)
  if field h (i + 63) i = 2 ^ 64 - 1 then h else h + 2 ^ i

/-- A codeword of a port ends (R154, R155): `syms` symbols corrected, none for an uncorrectable one; `skew`: between the port's
lanes, in hc; beyond 32 the unit decodes nothing, and under self-test nothing reaches it (R505). -/
def fecCodeword (s : State) (k : Fin 4) (rx : Bool) (p : Fin 4) (skew : Nat) (syms : Option (Fin 16)) : State :=
  if s.bist.running == some (.pg k) || !(skew ≤ 32 && s.fecDecodes k rx p.val) then s
  else
    let o := if rx then 0x06 else 0x05
    let key (sub : Nat) : Key := ⟨.pg k, o, sub⟩
    let s1 := s.incSat (key (1 + p.val))
    match syms with
    | none =>
      (s1.incSat (key (9 + p.val))).modPg k fun g =>
        if rx then { g with epRx := g.epRx.set p (g.epRx.get p + 1) } else { g with epTx := g.epTx.set p (g.epTx.get p + 1) }
    | some e =>
      let s2 := if e.val = 0 then s1 else s1.incSat (key (5 + p.val))
      (s2.addSat (key (0x0D + p.val)) e.val).wr (key 0x11) (fecHistAdd (s.rd (key 0x11)) (16 * p.val + e.val))

/-- A transmit epoch boundary (R156): the totals are copied; HOST_FEC_ALARM at the threshold. -/
def fecEpoch (s : State) (k : Fin 4) : State :=
  let g := s.pg k
  let s1 := forAll (allFin 4) (fun p s =>
    (s.wr (K.FEC_UNCORR_EPOCH k p.val) (g.epTx.get p)).wr (K.FEC_UNCORR_EPOCH_RX k p.val) (g.epRx.get p)) s
  let thr := s.rd (K.PG_FEC_UNCORR_THR k)
  let hit := thr != 0 && (allFin 4).any fun p => thr ≤ g.epTx.get p || thr ≤ g.epRx.get p
  when_ hit (fun s => s.raise (Src.HOST_FEC_ALARM k)) (s1.modPg k fun g =>
    { g with epTx := Vector.replicate 4 0, epRx := Vector.replicate 4 0 })

/-- The average frequency of a lane over a transmit epoch, 0.001 ppm (R141). -/
def hostFreq (s : State) (m : Fin 32) (f : Nat) : State :=
  let s1 := s.wr (K.HOST_RX_FREQ m) f
  if 100 < (sx 32 f).natAbs then
    (s1.setHostBit m 5 true).raiseIn (Src.HOST_FREQ_OFFSET (pgOfHost m)) (K.HOST_FREQ_OFFSET_LANES (pgOfHost m)) (hostJ m)
  else s1.setHostBit m 5 false

/-- Clear both directions' counters (R156). The running totals of the epoch, which the next boundary copies, are no counters of Table
5-5 and run on (DESIGN CHOICE, log entry 84). -/
def hostFecClear (s : State) (k : Fin 4) : State :=
  s.clrAll ((List.range 21).flatMap fun i => [⟨.pg k, 0x05, i + 1⟩, ⟨.pg k, 0x06, i + 1⟩])

/-! ## Lane reset (R161) -/

/-- Both receivers of the pair train again. -/
def hostLaneReset (s : State) (n : Fin 16) : State :=
  forAll [hostA n, hostB n] (fun m s => (s.clkOkLost m).hostTrain m) s

end State

/-! ## Effects of writes -/

/-- `HOST_LOS_THR`: 0 holds SIGNAL at 1 (R134). -/
def effHostLosThr (m : Fin 32) (v : Nat) (s : State) : State :=
  let s1 := s.wr (K.HOST_LOS_THR m) v
  if v = 0 then s1.hostSignalSet m else s1

/-- `PG_CLK_MODE`: a setting of R173; the receivers take their phase anew in the mode selected (R136 to R138). -/
def effPgClkMode (k : Fin 4) (v : Nat) (s : State) : State :=
  if v = s.rd (K.PG_CLK_MODE k) then s
  else
    let s1 := forAll (hostsOf k) (fun m s => s.clkOkLost m) s
    let s2 := forAll (lanesOf k) (fun n s => s.cfgChanged n) (s1.wr (K.PG_CLK_MODE k) v)
    forAll (hostsOf k) (fun m s => s.hostTrain m) s2

/-- `HOST_RX_ADAPT`, `HOST_RX_FRZ`: taps that stop moving keep their value (R133). -/
def effHostAdapt (m : Fin 32) (k : Key) (v : Nat) (s : State) : State := s.hostTapsFollow m fun s => s.wr k v

/-- `HOST_TX_PRESET`, `HOST_TX_TAP` (R149, R150). -/
def effHostTaps (m : Fin 32) (k : Key) (v : Nat) (s : State) : State := (s.wr k v).hostTapsSet m

/-- `PG_HCKO_SRC`: from here HCKOk slews to the new lane's rotator (R142). -/
def effHckoSrc (k : Fin 4) (v : Nat) (s : State) : State :=
  (s.wr (K.PG_HCKO_SRC k) v).modPg k fun g => { g with hckoSlew := true, hckoFrom := s.hckoFreq k, hckoAt := s.now }

/-- The FEC mode takes effect; to or from terminate it is a setting of R173. -/
def effPgFecMode (k : Fin 4) (v : Nat) (s : State) : State :=
  let old := s.rd (K.PG_FEC_MODE k)
  let s1 := s.wr (K.PG_FEC_MODE k) v
  if (old = 2) = (v = 2) then s1 else forAll (lanesOf k) (fun n s => s.cfgChanged n) s1

/-- Does a write of the FEC mode wait for a 17-hc period boundary (R153)? One to or from terminate, whose lanes are down, is in place
when a lane comes up (R173). -/
def fecModeWaits (k : Fin 4) (v : Nat) (s : State) : Bool := (s.rd (K.PG_FEC_MODE k) == 2) == (v == 2)

/-- One to or from terminate takes effect at its commit point, over an earlier one that still waits. -/
def fecModeNow (k : Fin 4) (v : Nat) (s : State) : State := effPgFecMode k v (s.dropWaiting fun q => q == K.PG_FEC_MODE k)

def effPgFecClear (k : Fin 4) (v : Nat) (s : State) : State := if v = 1 then s.hostFecClear k else s

/-! ## Meanings -/

/-- A receiver without power sees no signal come or go (R483). -/
def execHostSignalClear (m : Fin 32) (s : State) : Host.Outcome State Fault Refusal :=
  .next (if s.clamped (laneUnit (lineOfHost m)) then s else s.hostSignalClear m)
def execHostSignalSet (m : Fin 32) (s : State) : Host.Outcome State Fault Refusal :=
  .next (if s.clamped (laneUnit (lineOfHost m)) then s else s.hostSignalSet m)

def execHostMarkerPosition (m : Fin 32) (differ : BitVec 8) (pos : BitVec 64) (p : BitVec 12) (moved : Bool) (s : State) :
    Host.Outcome State Fault Refusal := .next (s.hostMarkerAt m differ.toNat pos.toNat p.toNat moved)

/-- The sweep has centred the sampling phase (R137). `phase`: the arrival phase against hc in fs. -/
def execHckiTrainingDone (m : Fin 32) (phase : Fin 602353) (s : State) : Host.Outcome State Fault Refusal :=
  .next (if s.fwdClock (pgOfHost m) then s.clkOkSet m phase.val else s)

/-- The CDR has locked (R138). -/
def execHostCdrLock (m : Fin 32) (phase : Fin 602353) (s : State) : Host.Outcome State Fault Refusal :=
  .next (if s.fwdClock (pgOfHost m) then s else s.clkOkSet m phase.val)

def execHostRxAcquisitionEnd (m : Fin 32) (ctle : BitVec 8) (s : State) : Host.Outcome State Fault Refusal :=
  .next (s.hostAcqEnd m ctle.toNat)

def execHckiLost (k : Fin 4) (s : State) : Host.Outcome State Fault Refusal := .next (s.hckiLost k)
def execHckiReturn (k : Fin 4) (s : State) : Host.Outcome State Fault Refusal := .next (s.hckiReturn k)

/-- A write of the host FEC mode: between 0 and 1 it waits, accepted, for the next 17-hc period boundary (R153). -/
def execPgFecModeWrite (r : Fin 18) (k : Fin 4) (v : BitVec 8) (s : State) : Host.Outcome State Fault Refusal :=
  .next (s.write r (K.PG_FEC_MODE k) (be 1 v.toNat) fun s =>
    if fecModeWaits k v.toNat s then s.defer (.period k) r (K.PG_FEC_MODE k) (be 1 v.toNat)
    else fecModeNow k v.toNat s)

def execPgFecClear (r : Fin 18) (k : Fin 4) (v : BitVec 8) (s : State) : Host.Outcome State Fault Refusal :=
  .next (s.write r (K.PG_FEC_CLEAR k) (be 1 v.toNat) (effPgFecClear k v.toNat))

def execHostFecCodeword (k : Fin 4) (rx : Bool) (p : Fin 4) (skew : BitVec 16) (syms : Option (Fin 16)) (s : State) :
    Host.Outcome State Fault Refusal := .next (s.fecCodeword k rx p skew.toNat syms)

end Sys2Proof.Machine
end

