-- ==== Sys2Proof/Machine/Picot.lean ====
section
/-!
DEFINITION. The Picot tone channel (08_picot_channel.md, R228 to R255): packets and their CRCs, the transmit queue, the
receiver's states. What cast-on does with a delivered packet stands in Convo.lean and CastOn.lean.
-/

namespace Sys2Proof.Machine

/-! ## Packets (R235 to R239) -/

/-- Bits of a byte string in the order sent: bit 7 first (R235). -/
def bitsOut (l : List Byte) : List Bool := l.flatMap fun b => (List.range 8).map fun i => b.toNat.testBit (7 - i)

/-- One bit into a CRC register of width `w`. -/
def crcBit (w poly : Nat) (c : Nat) (b : Bool) : Nat :=
  if c.testBit (w - 1) != b then (c * 2) % 2 ^ w ^^^ poly else (c * 2) % 2 ^ w

/-- The header CRC (R238). -/
def crc16 (l : List Byte) : Nat := (bitsOut l).foldl (crcBit 16 0x1021) 0xFFFF

/-- The payload CRC (R238). -/
def crc32 (l : List Byte) : Nat := 2 ^ 32 - 1 - (bitsOut l).foldl (crcBit 32 0x04C11DB7) 0xFFFFFFFF

/-- The header of Table 8-3, sent on channel `chan`. -/
def picotHeader (p : Packet) (chan : Nat) : List Byte := be 1 p.typ ++ be 1 p.seq ++ be 1 (chan * 16) ++ be 1 p.data.length

/-- Fields 4 to 7 of Table 8-2. -/
def picotBytes (p : Packet) (chan : Nat) : List Byte :=
  let h := picotHeader p chan ++ be 2 (crc16 (picotHeader p chan))
  h ++ p.data ++ (if p.data.isEmpty then [] else be 4 (crc32 (h ++ p.data)))

/-- Data symbols of a packet with L payload bytes (R237): mode 0 two bits a symbol, mode 1 one. -/
def picotData (mode l : Nat) : Nat := (if mode = 0 then 4 else 8) * (6 + l + (if l = 0 then 0 else 4))

/-- Pilot pairs among `n` data symbols (R237). -/
def pilotPairs (n : Nat) : Nat := (n - 1) / 30

/-- Symbols of a packet (R237). -/
def picotSymbols (mode l : Nat) : Nat := 56 + picotData mode l + 2 * pilotPairs (picotData mode l)

/-! ## Symbols (R235 to R237) -/

/-- A of Table 8-2. -/
def picotAmp (mode : Nat) : Int := if mode = 0 then 3 else 1

/-- A 4-GFSK symbol of a bit pair, the more significant first (R235). -/
def picotGray : Bool → Bool → Int
  | false, false => -3
  | false, true => -1
  | true, true => 1
  | true, false => 3

/-- Bits in pairs to 4-GFSK symbols. -/
def grayPairs : List Bool → List Int
  | a :: b :: rest => picotGray a b :: grayPairs rest
  | _ => []

/-- Bits to symbols: Gray pairs in 4-GFSK, -1 and +1 in robust mode (R235). -/
def picotMap (mode : Nat) (bits : List Bool) : List Int :=
  if mode = 0 then grayPairs bits else bits.map fun b => if b then 1 else -1

/-- `n` symbols of an alternating run that starts with +A. -/
def alternating (a : Int) (n : Nat) : List Int := (List.range n).map fun i => if i % 2 = 0 then a else -a

/-- The sync word 0xF28D, bit 15 first: 1 is +A, 0 is -A (Table 8-2). -/
def syncWord (a : Int) : List Int := (bitsOut (be 2 0xF28D)).map fun b => if b then a else -a

/-- Data symbols with a pilot pair +A, -A after each 30th that is followed by another; `k` have passed since the last pair (R237). -/
def withPilots (a : Int) : Nat → List Int → List Int
  | _, [] => []
  | k, x :: rest => if k = 30 then a :: -a :: x :: withPilots a 1 rest else x :: withPilots a (k + 1) rest

/-- The symbols of a burst, in the order of Table 8-2: ramp-up and preamble, sync word, fields 4 to 7 with their pilots, ramp-down. -/
def picotBurst (mode chan : Nat) (p : Packet) : List Int :=
  let a := picotAmp mode
  alternating a 32 ++ syncWord a ++ withPilots a 0 (picotMap mode (bitsOut (picotBytes p chan))) ++ alternating a 8

/-- The sync word is found: 16 decisions that differ from it in at most two symbols, ending at most 40 symbols after the candidate
(R248). -/
def syncFound (mode : Nat) (dec : List Int) (after : Nat) : Bool :=
  dec.length == 16 && after ≤ 40 && ((dec.zip (syncWord (picotAmp mode))).filter fun p => p.1 != p.2).length ≤ 2

/-- A pilot pair is received: its decisions are +A, then -A (R251). -/
def pilotOk (mode : Nat) (a b : Int) : Bool := a == picotAmp mode && b == -picotAmp mode

/-- Does the preamble correlator detect at a symbol: correlation in 1/256, power in 0.01 dBFS (R246)? -/
def detects (thr : Nat) (squelch : Int) (d : Nat × Int) : Bool := thr ≤ d.1 && squelch ≤ d.2

/-- The candidate that ends, of the first run of consecutive detections: the largest power among them and the place of the last; none
without one (R246). -/
def candidateOf (thr : Nat) (squelch : Int) (ds : List (Nat × Int)) : Option (Int × Nat) :=
  let lead := (ds.takeWhile fun d => !detects thr squelch d).length
  match (ds.drop lead).takeWhile fun d => detects thr squelch d with
  | [] => none
  | d :: rest => some (rest.foldl (fun m e => if m < e.2 then e.2 else m) d.2, lead + 1 + rest.length)

/-! ## Decoding from the store (R249): discriminator outputs in 1/256 of a symbol value -/

/-- The discriminator outputs of symbols `a` + 1 to `a` + `k`, oldest first; none unless the store holds them all. -/
def storeAt (m : PicotS) (a k : Nat) : Option (List Int) :=
  if m.symNo < a + k || m.disc.length < m.symNo - a then none
  else some (((m.disc.drop (m.symNo - (a + k))).take k).reverse)

/-- Sixteen times the frequency offset of an attempt: the sum of the discriminator's outputs over the 16 preamble symbols that end its
candidate, which alternate about it (R250; DESIGN CHOICE, log entry 102). -/
def offsetOf (m : PicotS) : Int := ((storeAt m (m.candAt - 16) 16).getD []).foldl (· + ·) 0

/-- The symbol that a discriminator output decides for: the nearest, an output half way the upper (log entry 102). -/
def discDecide (mode : Nat) (off16 d : Int) : Int :=
  let x := 16 * d - off16
  if mode = 0 then (if x < -8192 then -3 else if x < 0 then -1 else if x < 8192 then 1 else 3) else if x < 0 then -1 else 1

/-- Decisions on symbols `a` + 1 to `a` + `k`. -/
def decisions (m : PicotS) (a k : Nat) : Option (List Int) := (storeAt m a k).map fun l => l.map (discDecide m.mode (offsetOf m))

/-- The end of the first sync word, among the symbols received, that ends at most 40 symbols after the candidate (R248). -/
def syncIn (m : PicotS) : Option Nat :=
  ((List.range 40).map fun k => m.candAt + k + 1).find? fun e =>
    match decisions m (e - 16) 16 with
    | some d => syncFound m.mode d (e - m.candAt)
    | none => false

/-- Bits of decided symbols (R235). -/
def symBits (mode : Nat) (l : List Int) : List Bool :=
  if mode = 0 then l.flatMap fun x => if x = -3 then [false, false] else if x = -1 then [false, true] else if x = 1 then [true, true] else [true, false]
  else l.map fun x => x == 1

/-- Bytes of bits, bit 7 first. -/
def bitBytes (l : List Bool) : List Byte := (chunks 8 l.length l).map fun g => BitVec.ofNat 8 (g.foldl (fun a b => 2 * a + b.toNat) 0)

/-- Header and header CRC, once their symbols have come in: 24 in 4-GFSK, 48 in robust mode with the pilot pair after the 30th
(R236, R237). -/
def headerIn (m : PicotS) : Option (List Byte) :=
  if m.mode = 0 then (decisions m m.syncAt 24).map fun d => bitBytes (symBits 0 d)
  else (decisions m m.syncAt 50).map fun d => bitBytes (symBits 1 (d.take 30 ++ d.drop 32))

/-- Is a type sequenced: bit 6 is 0 (Table 7-2)? -/
def sequenced (typ : Nat) : Bool := !typ.testBit 6

namespace State

def picot (s : State) (n : Fin 16) : PicotS := (s.lane n).picot

def modPicot (s : State) (n : Fin 16) (f : PicotS → PicotS) : State :=
  s.modLane n fun l => { l with picot := f l.picot }

/-! ## Transmitter (R240 to R242) -/

/-- The same sequenced message. -/
def sameMsg (a b : Packet) : Bool := a.typ == b.typ && a.seq == b.seq

/-- Cast-on offers a packet (R240): a newer copy of a queued message replaces it; at a full queue an unsequenced packet is
dropped, a sequenced one waits. -/
def picotOffer (s : State) (n : Fin 16) (p : Packet) : State :=
  let q := (s.picot n).queue
  let w := (s.picot n).waiting
  let put (l : List Packet) := l.map fun o => if sameMsg o p then p else o
  if sequenced p.typ && q.any (sameMsg p) then s.modPicot n fun m => { m with queue := put m.queue }
  else if sequenced p.typ && w.any (sameMsg p) then s.modPicot n fun m => { m with waiting := put m.waiting }
  else if q.length < 8 then s.modPicot n fun m => { m with queue := m.queue ++ [p] }
  else if sequenced p.typ then s.modPicot n fun m => { m with waiting := m.waiting ++ [p] }
  else s.incSat (K.PICOT_TX_DROPPED n)

/-- Packets that have not started are removed (R242); a TIME message among them counts as withdrawn (R287). -/
def picotFlush (s : State) (n : Fin 16) : State :=
  let s1 := s.modPicot n fun m => { m with queue := [], waiting := [] }
  if (s.lane n).xfer.due.isSome then
    (s1.modLane n fun l => { l with xfer := { l.xfer with due := none } }).incSat (K.TIME_WITHDRAWN n)
  else s1

/-- A burst may start (R241): 4 symbols after the previous ramp-down, not in C0, output modulating and enabled, no calibration of R183
or R94. -/
def picotMay (s : State) (n : Fin 16) : Bool :=
  (s.picot n).burst.isNone && (s.picot n).gapUntil ≤ s.now && s.phase n != 0 && (s.lane n).out == .modulating && s.on (K.LINE_TX_OUT_EN n) &&
  !s.bit (K.LINE_TX_FAULT n) 2 && !(s.lane n).calLane && !(s.lane n).calDac

/-- The queue's first packet starts, its symbols built, on the channel and at the depth written last; a packet that waited takes the free
place (R84, R229, R236, R240, R241). -/
def picotStart (s : State) (n : Fin 16) : State :=
  match (s.picot n).queue with
  | [] => s
  | p :: rest =>
    if s.picotMay n then
      (s.incSat (K.PICOT_TX_PACKETS n)).modPicot n fun m =>
        { m with queue := rest ++ m.waiting.take 1, waiting := m.waiting.drop 1, burst := some p, burstMode := m.mode
                 tone := picotBurst m.mode (s.rd (K.PICOT_TX_CHAN n)) p, startAt := s.now, sent := 0
                 depth := s.rd (K.LINE_PICOT_DEPTH n), chan := s.rd (K.PICOT_TX_CHAN n) }
    else s

/-- The ramp-down ends; four symbols of gap follow (R241). -/
def picotBurstEnd (s : State) (n : Fin 16) : State :=
  s.modPicot n fun m => { m with burst := none, tone := [], gapUntil := s.now + (if m.burstMode = 0 then 28125 else 112500) }

/-- `PICOT_TX_STATE` (R252). -/
def picotTxState (s : State) (n : Fin 16) : Nat :=
  let m := s.picot n
  16 * m.queue.length +
    (if m.burst.isSome then 1 else if s.now < m.gapUntil then 2
     else if s.phase n = 0 || (s.lane n).out != .modulating || !s.on (K.LINE_TX_OUT_EN n) || s.bit (K.LINE_TX_FAULT n) 2 then 3 else 0)

/-- `PICOT_RX_STATE` (R252). -/
def picotRxState (s : State) (n : Fin 16) : Nat :=
  match (s.picot n).rx with | .off => 0 | .search => 1 | .sync => 2 | .header => 3 | .payload => 4

/-! ## Receiver (Table 8-6) -/

/-- What holds the receiver OFF: a lane reset, a state other than Run, a lane calibration. -/
def picotHeld (s : State) (n : Fin 16) : Bool := (s.lane n).laneReset || !s.inRun n || (s.lane n).calLane

/-- Enter SEARCH: a written channel takes effect (R229). -/
def picotSearch (s : State) (n : Fin 16) : State :=
  s.modPicot n fun m => { m with rx := .search, pend := none, rxChan := s.rd (K.PICOT_RX_CHAN n), missed := 0 }

/-- Follow the causes of OFF: the attempt and the pending candidate are discarded. -/
def picotFollow (s : State) (n : Fin 16) : State :=
  if s.picotHeld n then s.modPicot n fun m => { m with rx := .off, pend := none, hdr := [], missed := 0 }
  else if (s.picot n).rx = .off then s.picotSearch n else s

/-- RESUME: SYNC on the pending candidate, decoded from the store and counted, or SEARCH. -/
def picotResume (s : State) (n : Fin 16) : State :=
  match (s.picot n).pend with
  | some p => (s.incSat (K.PICOT_RX_RESUMED n)).modPicot n fun m => { m with rx := .sync, strength := p.1, candAt := p.2, pend := none }
  | none => s.picotSearch n

/-- Symbols come in: their discriminator outputs enter the store, which holds the last 96 (R249). Nothing reaches a receiver that is OFF,
or that of a lane under test (R505). -/
def picotStore (s : State) (n : Fin 16) (sym : List Int) : State :=
  if s.laneTested n || (s.picot n).rx = .off then s
  else s.modPicot n fun m => { m with disc := (sym.reverse ++ m.disc).take 96, symNo := m.symNo + sym.length }

/-- A pending candidate is discarded, counted IGNORED. -/
def picotDropPend (s : State) (n : Fin 16) : State :=
  if (s.picot n).pend.isSome then (s.incSat (K.PICOT_RX_IGNORED n)).modPicot n fun m => { m with pend := none } else s

/-- A candidate of strength `p` (0.01 dBFS) ends at symbol `e`. Nothing reaches the receiver of a lane under test (R505). -/
def picotCandidate (s : State) (n : Fin 16) (p : Int) (e : Nat) : State :=
  let m := s.picot n
  match (if s.laneTested n then .off else m.rx) with
  | .off => s
  | .search => (s.incSat (K.PICOT_RX_DETECT n)).modPicot n fun m => { m with rx := .sync, strength := p, candAt := e }
  | .payload => (s.incSat (K.PICOT_RX_DETECT n)).incSat (K.PICOT_RX_IGNORED n)
  | .sync | .header =>
    let s1 := s.incSat (K.PICOT_RX_DETECT n)
    if m.strength + 600 ≤ p then
      ((s1.incSat (K.PICOT_RX_SUPERSEDED n)).picotDropPend n).modPicot n fun m => { m with rx := .sync, strength := p, candAt := e }
    else
      match m.pend with
      | none => s1.modPicot n fun m => { m with pend := some (p, e) }
      | some q =>
        (s1.incSat (K.PICOT_RX_IGNORED n)).modPicot n fun m => { m with pend := some (if q.1 < p then (p, e) else q) }

/-- Write `PICOT_LAST_PKT`: header, payload so far, and its end code (R252). -/
def picotLast (s : State) (n : Fin 16) (hdr payload : List Byte) (code : Nat) : State :=
  (s.wr (K.PICOT_LAST_PKT n) (beNat (hdr ++ (payload ++ List.replicate 255 0).take 255 ++ be 1 code))).incWrap (K.PICOT_PKT_SEQ n)

/-- A packet is delivered: counted, with its strength, SNR and offset. -/
def picotDelivered (s : State) (n : Fin 16) (snr foff : Nat) : State :=
  ((((s.incSat (K.PICOT_RX_PACKETS n)).wrI (K.PICOT_LAST_RSSI n) (s.picot n).strength).wr (K.PICOT_LAST_SNR n) snr).wr
    (K.PICOT_LAST_FOFF n) foff).picotSearch n

/-- Byte `i` of a byte string, 0 beyond it. -/
def byteAt (l : List Byte) (i : Nat) : Nat := ((l[i]?).getD 0).toNat

/-- The header CRC of `hdr` passes, and its CHAN is the lane's (R248). -/
def headerCrcOk (hdr crc : List Byte) : Bool := crc16 hdr == beNat crc

/-- The payload CRC passes (R238): header, header CRC and payload. -/
def payloadCrcOk (hdr payload crc : List Byte) : Bool := crc32 (hdr ++ be 2 (crc16 hdr) ++ payload) == beNat crc

/-- A pilot pair with the decisions `a` and `b` (R251); a second consecutive one that is missed ends the attempt (Table 8-6). `got` is
the payload received so far. -/
def picotPilot (s : State) (n : Fin 16) (a b : Int) (got : List Byte) : State :=
  if s.laneTested n || (s.picot n).rx != .payload then s
  else if pilotOk (s.picot n).mode a b then s.modPicot n fun m => { m with missed := 0 }
  else if (s.picot n).missed = 0 then s.modPicot n fun m => { m with missed := 1 }
  else ((s.incSat (K.PICOT_RX_PILOT_LOSS n)).picotLast n (s.picot n).hdr (got.take (byteAt (s.picot n).hdr 3)) 2).picotSearch n

/-- Clear the counters (R253). -/
def picotClear (s : State) (n : Fin 16) : State := s.clrAll ((List.range 14).map fun i => ⟨.line n, 0x08, i + 1⟩)

/-- A lane reset empties the queue and turns the receiver off (R242, Table 8-6); a burst ends with the output stage. -/
def picotLaneReset (s : State) (n : Fin 16) : State := (s.picotFlush n).picotFollow n

end State

def effPicotClear (n : Fin 16) (v : Nat) (s : State) : State := if v = 1 then s.picotClear n else s

/-! ## Meanings without an effect on the conversation -/

/-- A candidate ends. `ds`: normalized correlation in 1/256, power in 0.01 dBFS and discriminator output at the symbols since the last
command that gave any; without a detection among them there is no candidate (R246). -/
def execPicotCandidateEnd (n : Fin 16) (ds : List (BitVec 9 × BitVec 16 × BitVec 16)) (s : State) : Host.Outcome State Fault Refusal :=
  let s1 := s.picotStore n (ds.map fun d => d.2.2.toInt)
  .next (match candidateOf (s.rd (K.PICOT_DET_THR n)) (s.rdI (K.PICOT_SQUELCH n)) (ds.map fun d => (d.1.toNat, d.2.1.toInt)) with
    | some p => s1.picotCandidate n p.1 ((s.picot n).symNo + p.2)
    | none => s1)

/-- The other mode's preamble is counted and never decoded (R247). -/
def execPicotModeMismatch (n : Fin 16) (s : State) : Host.Outcome State Fault Refusal :=
  .next (if s.laneTested n || (s.picot n).rx = .off then s else s.incSat (K.PICOT_RX_MODE_MISMATCH n))

/-- Symbols come in, `sym` their discriminator outputs; the sync word is among the symbols stored, or not (R248). After a RESUME the store
alone may hold it. -/
def execPicotSyncFound (n : Fin 16) (sym : List (BitVec 16)) (s : State) : Host.Outcome State Fault Refusal :=
  let s1 := s.picotStore n (sym.map BitVec.toInt)
  .next (match (if !s.laneTested n && (s1.picot n).rx = .sync then syncIn (s1.picot n) else none) with
    | some e => s1.modPicot n fun m => { m with rx := .header, syncAt := e }
    | none => s1)

/-- The symbols up to 40 after the candidate have come in without the sync word. -/
def execPicotSyncTimeout (n : Fin 16) (sym : List (BitVec 16)) (s : State) : Host.Outcome State Fault Refusal :=
  let s1 := s.picotStore n (sym.map BitVec.toInt)
  .next (if !s.laneTested n && (s1.picot n).rx = .sync && (syncIn (s1.picot n)).isNone then
    (s1.incSat (K.PICOT_RX_SYNC_FAIL n)).picotResume n else s1)

def execPicotPilotPair (n : Fin 16) (a b : BitVec 4) (got : List Byte) (s : State) : Host.Outcome State Fault Refusal :=
  .next (s.picotPilot n a.toInt b.toInt got)

def execPicotClear (r : Fin 18) (n : Fin 16) (v : BitVec 8) (s : State) : Host.Outcome State Fault Refusal :=
  .next (s.write r (K.PICOT_CLEAR n) (be 1 v.toNat) (effPicotClear n v.toNat))

end Sys2Proof.Machine
end

