-- ==== Sys2Proof/Machine/Slip.lean ====
section
/-!
DEFINITION. Slip-stitch and the lane and DAC calibrations (09_calibration.md, R256 to R270, R274, R275). What a
calibration's end does to cast-on stands in CastOn.lean.
-/

namespace Sys2Proof.Machine

/-- Is a logical slot suspect by the totals of an epoch (R263): its mean more than 4 codes from the lane's (`some false`), its RMS
outside 0.80 to 1.25 of the lane's (`some true`)? -/
def slotSuspect (t : Vector SlotSum 16) (j : Fin 16) : Option Bool :=
  let n : Nat := t.toList.foldl (fun a y => a + y.n) 0
  let sum : Int := t.toList.foldl (fun a y => a + y.sum) 0
  let sq : Nat := t.toList.foldl (fun a y => a + y.sq) 0
  let y := t.get j
  if y.n = 0 then none
  else if 4 * 2 ^ 23 * (y.n * n) < (y.sum * n - sum * y.n).natAbs then some false
  else if 25 * (y.sq * n) < 16 * (sq * y.n) || 25 * (sq * y.n) < 16 * (y.sq * n) then some true
  else none

namespace State

/-! ## Slices -/

def ss (s : State) (n : Fin 16) : SsS := (s.lane n).ss
def modSs (s : State) (n : Fin 16) (f : SsS → SsS) : State := s.modLane n fun l => { l with ss := f l.ss }

def sliceOf (s : State) (n : Fin 16) (i : Fin 17) : SliceS := (s.ss n).slices.get i

def modSlice (s : State) (n : Fin 16) (i : Fin 17) (f : SliceS → SliceS) : State :=
  s.modSs n fun x => { x with slices := x.slices.set i (f (x.slices.get i)) }

/-- The slice that serves no slot: sixteen of the seventeen serve. -/
def sliceOut (s : State) (n : Fin 16) : Option (Fin 17) := (allFin 17).find? fun i => (s.sliceOf n i).st != 0

/-- The spare. -/
def sliceSpare (s : State) (n : Fin 16) : Option (Fin 17) :=
  (allFin 17).find? fun i => (s.sliceOf n i).st == 1 || (s.sliceOf n i).st == 2

/-- The slice that serves a slot. -/
def sliceAt (s : State) (n : Fin 16) (slot : Nat) : Option (Fin 17) :=
  (allFin 17).find? fun i => (s.sliceOf n i).st == 0 && (s.sliceOf n i).slot == slot

/-- The active slice whose last calibration is the oldest, the lower number on a tie (R257). -/
def oldestSlice (s : State) (n : Fin 16) : Option (Fin 17) :=
  (allFin 17).foldl (fun b i =>
    if (s.sliceOf n i).st != 0 then b
    else match b with
      | none => some i
      | some j => if (s.sliceOf n i).calAt < (s.sliceOf n j).calAt then some i else some j) none

/-- The slot that the next substitution fills (R257). -/
def nextSlot (s : State) (n : Fin 16) : Nat := ((s.oldestSlice n).map fun i => (s.sliceOf n i).slot).getD 0

/-- During a retest the suspect slice left serving is relieved first (R265). -/
def retestSlot (s : State) (n : Fin 16) : Nat :=
  match (s.ss n).degraded with
  | d :: _ => if h : d < 17 then (s.sliceOf n ⟨d, h⟩).slot else s.nextSlot n
  | [] => s.nextSlot n

/-! ## What the entries report (R42, R266) -/

/-- `LINE_SS_STATUS` (Table 9-5). -/
def ssStatus (s : State) (n : Fin 16) : Nat :=
  let x := s.ss n
  (if x.degraded.isEmpty then 0 else 32) + (if (s.sliceSpare n).isNone then 16 else 0) + (if x.postponed then 8 else 0) +
    (if x.retest && x.step != 0 then 7 else x.step)

/-- `LINE_SS_NEXT_SLOT`. -/
def ssNextSlot (s : State) (n : Fin 16) : Nat :=
  if (s.sliceSpare n).isNone || (s.ss n).step = 0 then 0xFF else (s.ss n).target

/-- `LINE_SS_SLICE` (Table 9-6). -/
def ssSlice (s : State) (n : Fin 16) (i : Fin 17) : Nat :=
  let x := s.sliceOf n i
  x.st * 2 ^ 30 + min 7 x.fails * 2 ^ 27 + x.slot * 2 ^ 22 + min 16383 x.age * 2 ^ 8 + zx 8 x.skew

/-- `LINE_SS_CORR_ALL`. -/
def ssCorrAll (s : State) (n : Fin 16) : List Byte :=
  (allFin 17).flatMap fun i => be 2 (zx 16 (s.sliceOf n i).off) ++ be 2 (s.sliceOf n i).gain

/-- `LINE_SLOT_MAP` of a logical slot, `LINE_SLOT_SPARE`. -/
def slotMap (s : State) (n : Fin 16) (slot : Nat) : Nat := ((s.sliceAt n slot).map (·.val)).getD 0xFF
def slotSpare (s : State) (n : Fin 16) : Nat := ((s.sliceSpare n).map (·.val)).getD 0xFF

/-- `LINE_SLOT_MAP_ALL`. -/
def slotMapAll (s : State) (n : Fin 16) : List Byte :=
  (List.range 16).flatMap (fun j => be 1 (s.slotMap n j)) ++ be 1 (s.slotSpare n) ++ be 4 (s.rd (K.LINE_SLOT_GEN n))

/-! ## Rotation (R258, R259, R261) -/

/-- The lane is where attempts may run: Run, C4 to C7. -/
def ssMay (s : State) (n : Fin 16) : Bool := s.inRun n && 4 ≤ s.phase n

/-- Rotation runs (R261). -/
def ssRuns (s : State) (n : Fin 16) : Bool := s.ssMay n && s.rd (K.LINE_SS_INTERVAL n) != 0

/-- An attempt starts at step A on the slot named by R257. -/
def ssStart (s : State) (n : Fin 16) : State :=
  match s.sliceSpare n with
  | some i => (s.modSlice n i fun c => { c with st := 1 }).modSs n fun x => { x with step := 1, target := s.nextSlot n }
  | none => s.modSs n fun x => { x with step := 0 }

/-- Rotation stops: the attempt is abandoned uncounted, a READY spare is no longer READY (R261). -/
def ssStop (s : State) (n : Fin 16) : State :=
  let s1 := match s.sliceSpare n with
    | some i => s.modSlice n i fun c => { c with st := 1 }
    | none => s
  s1.modSs n fun x =>
    { x with step := 0, ended := false, postponed := false, outOfTurn := false, retest := false, subNow := false, tries := 0 }

/-- Follow the conditions of R261: rotation starts, with a fresh interval, or stops. A retest and the relief of a suspect run on in C4
to C7. -/
def ssFollow (s : State) (n : Fin 16) : State :=
  let x := s.ss n
  if s.ssRuns n || (s.ssMay n && (x.retest || x.subNow || x.outOfTurn)) then (if x.step = 0 then s.ssStart n else s)
  else if x.step = 0 then s else s.ssStop n

/-! ## Failure (R262, R265) -/

/-- The lane caused SLICE_FAIL: record and source. `what`: 1 FAILED, 2 DEGRADED. -/
def sliceReport (s : State) (n : Fin 16) (i : Fin 17) (what cause : Nat) : State :=
  let s1 := s.wr (K.LINE_SS_LAST_FAIL n) (i.val * 256 + cause)
  (s1.record 0x03 n.val (be 1 i.val ++ be 1 what ++ be 2 (i.val * 256 + cause))).raiseIn Src.SLICE_FAIL K.CAL_SLICE_FAIL_LANES n.val

/-- A slice becomes FAILED: no spare, rotation stops, SLICE_FAIL (R262). -/
def sliceFailed (s : State) (n : Fin 16) (i : Fin 17) (cause : Nat) : State :=
  let s1 := (s.modSlice n i fun c => { c with st := 3, slot := 31 }).incSat (K.LINE_SS_SLICE_FAILED n)
  (s1.sliceReport n i 1 cause).modSs n fun x => { x with step := 0, ended := false, postponed := false, outOfTurn := false, retest := false, subNow := false, tries := 0 }

/-- An attempt fails at a step (R262, R265). -/
def ssFail (s : State) (n : Fin 16) (i : Fin 17) (cause : Nat) : State :=
  let fails := min 7 ((s.sliceOf n i).fails + 1)
  let s1 := ((s.modSlice n i fun c => { c with fails := fails }).incSat (K.LINE_SS_ATTEMPT_FAIL n)).wr (K.LINE_SS_LAST_FAIL n)
    (i.val * 256 + cause)
  let limit := s.rd (K.LINE_SS_ATTEMPTS n)
  if (s.ss n).retest then
    if limit ≤ (s.ss n).tries + 1 then
      if (s.sliceOf n i).st = 3 then s1.modSs n fun x => { x with step := 0, retest := false, tries := 0 }
      else s1.sliceFailed n i cause
    else s1.modSs n fun x => { x with step := 1, tries := x.tries + 1 }
  else if limit ≤ fails then s1.sliceFailed n i cause
  else s1.modSs n fun x => { x with step := 1 }

/-! ## Substitution (R260, R265) -/

/-- The spare takes over its target slot. The relieved slice is the next spare; a relieved suspect that served on without
a spare goes through its own retest. -/
def ssSubstitute (s : State) (n : Fin 16) : State :=
  let x := s.ss n
  match s.sliceSpare n, s.sliceAt n x.target with
  | some i, some j =>
    let slots : State := (s.modSlice n i fun c => { c with st := 0, slot := x.target }).modSlice n j fun c => { c with st := 1, slot := 31 }
    let s1 := slots.modSs n fun y => { y with slices := y.slices.map fun c => { c with age := min 16383 (c.age + 1) } }
    let s2 := ((s1.incSat (K.LINE_SS_SUBST n)).incWrap (K.LINE_SLOT_GEN n)).wr (K.LINE_SS_LAST_SUBST n) s.timeNow
    let s3 := if x.outOfTurn then s2.incSat (K.LINE_SS_OUT_OF_TURN n) else s2
    let s4 := if x.rot + 1 = 17 then s3.incSat (K.LINE_SS_ROTATIONS n) else s3
    let suspect := x.degraded.contains j.val
    let s5 := (s4.modSs n fun y =>
      { y with rot := (y.rot + 1) % 17, ended := false, postponed := false, outOfTurn := false, subNow := false, step := 0
               retest := suspect, tries := 0, degraded := y.degraded.filter fun d => d != j.val }).rxSubstituted n
    (s5.ssFollow n).modSs n fun y => { y with retest := suspect && y.step != 0 }
  | _, _ => s

/-- A READY spare substitutes: after the interval, out of turn, or after a passed retest; never during loss of signal
(R258, R261, R263, R265). -/
def ssReady (s : State) (n : Fin 16) : Bool :=
  let x := s.ss n
  x.step == 6 && !s.losOn n && (x.ended || x.outOfTurn || x.subNow)

/-! ## Steps (Table 9-2) -/

/-- The attempt passes: READY (R259). A passed retest clears FAILED, and with no spare before it substitutes at the next
boundary (R265). -/
def ssPass (s : State) (n : Fin 16) (i : Fin 17) : State :=
  let x := s.ss n
  let s1 := s.modSlice n i fun c => { c with st := 2, fails := 0, age := 0, calAt := x.calSeq }
  s1.modSs n fun y => { y with step := 6, calSeq := y.calSeq + 1, retest := false, tries := 0, subNow := y.retest }

/-- The slice that the attempt calibrates. -/
def ssUnder (s : State) (n : Fin 16) : Option (Fin 17) := if (s.ss n).retest then s.sliceOut n else s.sliceSpare n

/-- A step ends with the measured value `v`: offset I16 in 1/256 code, gain in 2^-15, skew I16 in steps, RMS in 1/256 code.
The wait between C and D ends with any value. -/
def ssStepEnd (s : State) (n : Fin 16) (v : Nat) : State :=
  match s.ssUnder n with
  | none => s
  | some i =>
    match (s.ss n).step with
    | 1 => if (sx 16 v).natAbs ≤ 4096 then (s.modSlice n i fun c => { c with off := sx 16 v }).modSs n fun x => { x with step := 2 }
           else s.ssFail n i 1
    | 2 => if 28672 ≤ v && v ≤ 36864 then (s.modSlice n i fun c => { c with gain := v }).modSs n fun x => { x with step := 3 }
           else s.ssFail n i 2
    | 3 =>
      if s.losOn n then s
      else if (sx 16 v).natAbs ≤ 32 then
        (s.modSlice n i fun c => { c with skew := sx 16 v }).modSs n fun x => { x with step := if x.ended || x.retest then 5 else 4 }
      else s.ssFail n i 3
    | 4 => s.modSs n fun x => { x with step := if s.losOn n then 3 else 5 }
    | 5 => if s.losOn n then s else if v ≤ s.rd (K.LINE_SS_VERIFY_THR n) then s.ssPass n i else s.ssFail n i 4
    | _ => s

/-- The interval ends (R258, R262): a READY spare substitutes; without one the substitution is postponed. -/
def ssIntervalEnd (s : State) (n : Fin 16) : State :=
  let x := s.ss n
  if x.step = 0 || x.retest || x.ended then s
  else
    let s1 := s.modSs n fun y => { y with ended := true }
    if x.step = 6 then (if s1.ssReady n then s1.ssSubstitute n else s1)
    else (s1.modSs n fun y => { y with postponed := true }).incSat (K.LINE_SS_POSTPONED n)

/-- Loss of signal: an attempt in C or D is abandoned uncounted and goes on from C when the status clears (R261). -/
def ssLos (s : State) (n : Fin 16) : State :=
  s.modSs n fun x => { x with step := if x.step = 5 then 3 else x.step }

/-- A slot is suspect at an epoch boundary (R263): with a spare it is the next target, at once; without one the suspect
serves on, DEGRADED. `rms`: the RMS differed, else the mean. While one suspect is being relieved another waits (DESIGN CHOICE, log
entry 87). -/
def ssSuspect (s : State) (n : Fin 16) (slot : Nat) (rms : Bool) : State :=
  let x := s.ss n
  match s.sliceAt n slot with
  | none => s
  | some j =>
    match s.sliceSpare n with
    | some i =>
      if !s.ssMay n || x.outOfTurn then s
      else (s.modSlice n i fun c => { c with st := 1 }).modSs n fun y =>
        { y with step := 1, target := slot, outOfTurn := true, retest := false, subNow := false, tries := 0 }
    | none =>
      if x.degraded.contains j.val then s
      else (s.sliceReport n j 2 (if rms then 6 else 5)).modSs n fun y => { y with degraded := y.degraded ++ [j.val] }

/-- A write of 1 to `LINE_SS_RETEST` (R265). -/
def ssRetest (s : State) (n : Fin 16) : State :=
  match s.sliceOut n with
  | some i =>
    if (s.sliceOf n i).st = 3 then s.modSs n fun x => { x with retest := true, tries := 0, step := 1, target := s.retestSlot n }
    else s
  | none => s

/-- Clear the counters (R266). -/
def ssClear (s : State) (n : Fin 16) : State := s.clrAll ((List.range 6).map fun i => ⟨.line n, 0x0B, i + 1⟩)

/-! ## Lane and DAC calibration (R267 to R270) -/

/-- DAC calibration starts: internal load, pins idle (R94). -/
def calDacStart (s : State) (n : Fin 16) : State :=
  (s.calDacBegin n).outFollow n

/-- Start calibrations: the lane's turns the Picot receiver off; the DAC's waits for a burst in progress (R94). -/
def calStart (s : State) (n : Fin 16) (lane dac : Bool) : State :=
  let s1 := if lane then
    ((s.modLane n fun l => { l with calLane := true, calBad := false, calCmd := false }).wr (K.LINE_CAL_LANE_LAST n) s.timeNow).picotFollow n else s
  if dac then
    if (s.picot n).burst.isSome then s1.modLane n fun l => { l with calDacDue := true } else s1.calDacStart n
  else s1

/-- Slices that a fail mask names. -/
def maskSlices (mask : Nat) : List (Fin 17) := (allFin 17).filter fun i => mask.testBit i.val

/-- The correction of slice `i` in a calibration's results. -/
def corrOf (corr : List (Int × Nat × Int)) (i : Nat) : Int × Nat × Int := (corr[i]?).getD (0, 32768, 0)

/-- Does a measured slice fail a step of Table 9-2: offset beyond 16 codes, gain outside 0.875 to 1.125, skew beyond 32 steps? -/
def corrFails (v : Int × Nat × Int) : Bool := 4096 < v.1.natAbs || v.2.1 < 28672 || 36864 < v.2.1 || 32 < v.2.2.natAbs

/-- The mask of the slices that fail by the limits of steps A to C (R267). -/
def corrMask (corr : List (Int × Nat × Int)) : Nat :=
  (List.range 17).foldl (fun m i => if corrFails (corrOf corr i) then m + 2 ^ i else m) 0

/-- Lane calibration ends (R267). -/
def calLaneEnd (s : State) (n : Fin 16) (corr : List (Int × Nat × Int)) : State :=
  let mask := corrMask corr
  let bad := (maskSlices mask).length
  let s1 := (((s.modLane n fun l => { l with calLane := false, calBad := 2 ≤ bad || (l.calCmd && l.calBad), calPend := if 2 ≤ bad then l.calPend else some (mask, corr) }).incSat
    (K.LINE_CAL_LANE_COUNT n)).wr (K.LINE_CAL_FAIL_MASK n) mask).wr (K.LINE_CAL_LANE_RESULT n) (min 3 (bad + 1))
  (if 2 ≤ bad then s1.raiseIn Src.FG_CAL_FAIL K.CAL_FG_FAIL_SRC n.val else s1).picotFollow n

/-- DAC calibration ends (R268). -/
def calDacEnd (s : State) (n : Fin 16) (outOfRange : Bool) : State :=
  let s1 := ((((s.modLane n fun l => { l with calDac := false }).wrBit (K.LINE_TX_FAULT n) 2 false).outFollow n).incSat
    (K.LINE_CAL_DAC_COUNT n)).wr (K.LINE_CAL_DAC_RESULT n) (if outOfRange then 2 else 1)
  if outOfRange then s1.raiseIn Src.FG_CAL_FAIL K.CAL_FG_FAIL_SRC n.val else s1

/-- A lane reset, a low-power entry or a trip aborts the calibrations in progress (R270). -/
def calAbort (s : State) (n : Fin 16) : State :=
  let s1 := if (s.lane n).calLane then
    (((s.modLane n fun l => { l with calLane := false }).incSat (K.LINE_CAL_LANE_COUNT n)).wr (K.LINE_CAL_LANE_RESULT n) 4).picotFollow n
    else s
  let s2 := if (s.lane n).calDac then
    (((s1.modLane n fun l => { l with calDac := false }).incSat (K.LINE_CAL_DAC_COUNT n)).wr (K.LINE_CAL_DAC_RESULT n) 3).wrBit
      (K.LINE_TX_FAULT n) 2 false
    else s1
  s2.modLane n fun l => { l with calDacDue := false, calBad := false, calCmd := false }

/-- Lane calibration takes effect, in the cc in which the lane enters C1 (R257, R267, Table 9-3): every slice counts as
calibrated at one instant; one failed slice is FAILED, its attempts uncounted since its last pass stand, and the spare takes its slot if
it served one. -/
def calApply (s : State) (n : Fin 16) : State :=
  match (s.lane n).calPend with
  | none => s
  | some (mask, corr) =>
    let out := (s.sliceOut n).getD 16
    let bad := (maskSlices mask).head?
    let x := s.ss n
    let fill := match bad with | some f => f != out | none => false
    let slices : Vector SliceS 17 := Vector.ofFn fun i =>
      let c := x.slices.get i
      let v := corrOf corr i.val
      let slot := if fill && i == out then (match bad with | some f => (x.slices.get f).slot | none => 31)
        else if bad == some i || i == out then 31 else c.slot
      { c with
        st := if bad == some i then 3 else if i == out && !fill then 1 else 0
        fails := if bad == some i then c.fails else 0
        slot := slot, age := 0, calAt := x.calSeq
        off := if bad == some i then c.off else v.1
        gain := if bad == some i then c.gain else v.2.1
        skew := if bad == some i then c.skew else v.2.2 }
    (s.modLane n fun l => { l with calPend := none }).modSs n fun y =>
      { y with slices := slices, calSeq := y.calSeq + 1, degraded := [] }

end State

/-! ## Effects of writes -/

/-- `LINE_SS_INTERVAL`: at once if rotation is stopped; 0 stops it (R261, Table 9-4). -/
def effSsInterval (n : Fin 16) (v : Nat) (s : State) : State := (s.wr (K.LINE_SS_INTERVAL n) v).ssFollow n

def effSsRetest (n : Fin 16) (v : Nat) (s : State) : State := if v = 1 then s.ssRetest n else s
def effSsClear (n : Fin 16) (v : Nat) (s : State) : State := if v = 1 then s.ssClear n else s

/-- `LINE_CAL_CMD` (R269). In the hold of R267 the lane stays held: only its own repetition ends the hold. -/
def effCalCmd (n : Fin 16) (v : Nat) (s : State) : State :=
  if v = 0 then s
  else (s.calStart n (v.testBit 0) (v.testBit 1)).modLane n fun l => { l with calCmd := true, calBad := (s.lane n).calBad && (s.lane n).co.calCo }

/-! ## Meanings -/

def execSsStepEnd (n : Fin 16) (v : BitVec 16) (s : State) : Host.Outcome State Fault Refusal := .next (s.ssStepEnd n v.toNat)

def execSsIntervalEnd (n : Fin 16) (s : State) : Host.Outcome State Fault Refusal := .next (s.ssIntervalEnd n)

/-- A codeword boundary with a READY spare that may substitute (R258, R260). -/
def execSsSubstitution (n : Fin 16) (s : State) : Host.Outcome State Fault Refusal :=
  .next (if s.ssReady n then s.ssSubstitute n else s)

def execLineSsRetest (r : Fin 18) (n : Fin 16) (v : BitVec 8) (s : State) : Host.Outcome State Fault Refusal :=
  .next (s.write r (K.LINE_SS_RETEST n) (be 1 v.toNat) (effSsRetest n v.toNat))

def execLineSsClear (r : Fin 18) (n : Fin 16) (v : BitVec 8) (s : State) : Host.Outcome State Fault Refusal :=
  .next (s.write r (K.LINE_SS_CLEAR n) (be 1 v.toNat) (effSsClear n v.toNat))

def execLineCalLane (r : Fin 18) (n : Fin 16) (s : State) : Host.Outcome State Fault Refusal :=
  .next (s.write r (K.LINE_CAL_CMD n) (be 1 1) (effCalCmd n 1))

def execLineCalDac (r : Fin 18) (n : Fin 16) (s : State) : Host.Outcome State Fault Refusal :=
  .next (s.write r (K.LINE_CAL_CMD n) (be 1 2) (effCalCmd n 2))

def execLineCalBoth (r : Fin 18) (n : Fin 16) (s : State) : Host.Outcome State Fault Refusal :=
  .next (s.write r (K.LINE_CAL_CMD n) (be 1 3) (effCalCmd n 3))

/-- Each 1 s while two or more slices have failed and `LINE_ADMIN` is 1 (R267). -/
def execLaneCalRetry (n : Fin 16) (s : State) : Host.Outcome State Fault Refusal :=
  .next (if (s.lane n).calBad && s.on (K.LINE_ADMIN n) && s.phase n = 0 && s.inRun n && s.calIdle n then s.calStart n true false else s)

end Sys2Proof.Machine
end

