-- ==== Sys2Proof/Machine/Convo.lean ====
section
/-!
DEFINITION. The cast-on conversation (07_cast_on.md, R179 to R227): messages out, phases, agreement, TXEQ, verify gate,
restart and bind-off. The received messages and the timers stand in CastOn.lean.
-/

namespace Sys2Proof.Machine

/-! ## Types (Table 7-2) -/

/-- First and last phase in which a type is accepted; none for an unknown type. -/
def acceptedIn : Nat → Option (Nat × Nat)
  | 0x01 => some (2, 3)
  | 0x02 => some (3, 7)
  | 0x03 => some (3, 3)
  | 0x04 => some (3, 7)
  | 0x05 => some (4, 4)
  | 0x06 => some (4, 4)
  | 0x07 => some (5, 7)
  | 0x08 => some (4, 6)
  | 0x09 => some (2, 7)
  | 0x41 => some (7, 7)
  | 0x42 => some (1, 7)
  | _ => none

/-- Payload length of a type (Table 7-2); the prefix for an unknown one (R188). -/
def payloadLen : Nat → Nat
  | 0x01 => 18 | 0x02 => 8 | 0x03 => 8 | 0x04 => 7 | 0x05 => 24 | 0x06 => 24 | 0x07 => 14 | 0x08 => 6 | 0x09 => 6
  | 0x41 => 40 | 0x42 => 5 | _ => 4

/-- How a type stands to a phase (R192). -/
inductive Judged where
  | valid | stale | later | unknown
deriving DecidableEq, Repr

def judge (typ phase : Nat) : Judged :=
  match acceptedIn typ with
  | none => .unknown
  | some (lo, hi) => if phase < lo then .later else if hi < phase then .stale else .valid

/-- A packet that passed its Picot checks is malformed (R188). -/
def malformed (typ : Nat) (payload : List Byte) : Bool :=
  payload.length < payloadLen typ || 7 < State.byteAt payload 1 / 16 || State.byteAt payload 1 % 16 == 0 ||
  beNat (slice payload 2 2) == 0

/-- Agreement (R199): format and what each side precodes and time. -/
structure Agreed where
  format : Nat
  own : Bool
  far : Bool
  time : Bool
deriving DecidableEq, Repr

/-- A PROPOSE's PRECODE byte from the proposer's side: bit 1 the responder's transmitter, bit 0 the proposer's. -/
def Agreed.precode (a : Agreed) : Nat := a.far.toNat * 2 + a.own.toNat

/-- Nine I16 taps as bytes. -/
def tapBytes (taps : List Int) : List Byte := (List.range 9).flatMap fun k => be 2 (zx 16 (getI taps k))

namespace State

def co (s : State) (n : Fin 16) : CoS := (s.lane n).co
def modCo (s : State) (n : Fin 16) (f : CoS → CoS) : State := s.modLane n fun l => { l with co := f l.co }

def uid : Nat := Config.uniqueId.toNat

/-- A timer value of Table 7-5 (subindex `i`), as the last entry to C2 took it (R193). -/
def coTimer (s : State) (n : Fin 16) (i : Nat) : Nat := ((s.co n).timers[i - 1]?).getD (s.rd ⟨.line n, 0x2D, i⟩)

def coFlag (s : State) (n : Fin 16) (i : Nat) : Bool := s.bit (K.LINE_CO_FLAGS n) i
def setCoFlag (s : State) (n : Fin 16) (i : Nat) (b : Bool) : State := s.wrBit (K.LINE_CO_FLAGS n) i b

def binding (s : State) (n : Fin 16) : Bool := s.coFlag n 0
def realign (s : State) (n : Fin 16) : Bool := s.coFlag n 1
/-- The holds of R198 and R199 stop the phase timer and the limit. -/
def coHeld (s : State) (n : Fin 16) : Bool := s.coFlag n 8 || s.coFlag n 9

/-- `LINE_CO_PHASE_TIME`. -/
def phaseTime (s : State) (n : Fin 16) : Nat := min (2 ^ 32 - 1) (ccToUs (s.now - (s.co n).phaseAt))

/-! ## Messages out (R185, R189 to R191) -/

/-- The payload prefix (Table 7-3), as it stands now. -/
def coPrefix (s : State) (n : Fin 16) : List Byte :=
  be 1 ((s.co n).e + 255) ++ be 1 (s.phase n * 16 + 1) ++ be 2 (s.rd (K.LINE_CO_SESSION n))

/-- Offer a packet with the current ACK and PHASE. -/
def coOffer (s : State) (n : Fin 16) (typ seq : Nat) (body : List Byte) : State :=
  (s.picotOffer n ⟨typ, seq, s.coPrefix n ++ body⟩).modCo n fun c => { c with owe := false }

/-- Send an unsequenced message: it carries the number of the next sequenced one (R189). -/
def sendPlain (s : State) (n : Fin 16) (typ : Nat) (body : List Byte) : State := s.coOffer n typ (s.co n).txSeq body

def sendKeepalive (s : State) (n : Fin 16) : State := s.sendPlain n 0x42 (be 1 (s.rd (K.LINE_CO_AGR n)))

/-- Send a sequenced message: at most four are outstanding, others wait (R189). -/
def sendSeq (s : State) (n : Fin 16) (typ : Nat) (body : List Byte) : State :=
  let c := s.co n
  if c.out.length < 4 && c.wait.isEmpty then
    (s.modCo n fun c => { c with out := c.out ++ [⟨typ, body, c.txSeq, false⟩], txSeq := (c.txSeq + 1) % 256, numbered := c.numbered + 1 }).coOffer n typ c.txSeq body
  else s.modCo n fun c => { c with wait := c.wait ++ [⟨typ, body, 0, false⟩], owe := false }

/-- Waiting messages take the free places. -/
def coPump (s : State) (n : Fin 16) : Nat → State
  | 0 => s
  | k + 1 =>
    match (s.co n).wait with
    | [] => s
    | m :: rest =>
      if (s.co n).out.length < 4 then
        (((s.modCo n fun c => { c with wait := [] }).sendSeq n m.typ m.body).modCo n fun c => { c with wait := rest }).coPump n k
      else s

/-- LOCK and FILL bytes of STATUS (Table 7-4), as one number. -/
def lockFill (s : State) (n : Fin 16) : Nat :=
  let v := s.rd (K.LINE_LOCK_STATUS n)
  field v 5 1 * 256 + field v 7 6

def sendStatus (s : State) (n : Fin 16) : State :=
  (s.sendSeq n 0x07 (be 1 (s.rd (K.LINE_CO_AGR n)) ++ be 2 (s.lockFill n) ++ be 1 (s.co n).gate ++
    be 2 (s.rd (K.LINE_LQM_SNR n)) ++ be 4 (s.rd (K.LINE_UNCORR_EPOCH n)))).modCo n fun c => { c with lastStatus := s.lockFill n }

/-- REJECT (Table 7-7a). -/
def sendReject (s : State) (n : Fin 16) (num reason detail : Nat) : State :=
  s.sendSeq n 0x04 (be 1 num ++ be 1 reason ++ be 1 detail)

/-! ## Capabilities (R197, R204) -/

/-- The formats this lane offers: `PG_LINE_FORMAT`, restricted while the group's format is fixed. -/
def coOffers (s : State) (n : Fin 16) : Nat :=
  let k := pgOf n
  let base := match s.rd (K.PG_LINE_FORMAT k) with
    | 0 => 1
    | 1 => 2
    | _ => if s.rd (K.PG_MODE k) = 2 then 1 else 3
  if (s.pg k).fixed = 0 then base else base &&& 2 ^ ((s.pg k).fixed - 1)

/-- The lane's CAP as its entries stand (Table 7-4). -/
def capNow (s : State) (n : Fin 16) : Cap :=
  { uid := uid, pgMode := s.rd (K.PG_MODE (pgOf n)), formats := s.coOffers n, precodeReq := s.on (K.LINE_PRECODE_REQ n)
    timeEn := s.on (K.LINE_CO_TIME_EN n), role := s.rd (K.LINE_CO_ROLE n), main := s.rd (K.LINE_TX_FFE_MAIN n)
    policy := s.rd (K.LINE_CO_TXEQ_POLICY n) }

def capBytes (n : Fin 16) (c : Cap) : List Byte :=
  be 8 c.uid ++ be 1 (c.pgMode * 16 + n.val) ++ be 1 c.formats ++ be 1 (c.precodeReq.toNat * 8 + c.timeEn.toNat * 4 + c.role) ++
  be 1 c.main ++ be 1 c.policy ++ be 1 0

def sendCap (s : State) (n : Fin 16) : State :=
  (s.sendSeq n 0x01 (capBytes n (s.capNow n))).modCo n fun c => { c with ownCap := some (s.capNow n), capAcked := false }

/-! ## Agreement (R199) -/

/-- What the two CAPs agree on; none if impossible. -/
def agreement (s : State) (n : Fin 16) : Option Agreed :=
  match (s.co n).ownCap, (s.co n).cap with
  | some a, some b =>
    let both := a.formats &&& b.formats
    if a.pgMode != b.pgMode || both % 4 = 0 then none
    else some ⟨if both.testBit 0 then 1 else 2, b.precodeReq, a.precodeReq, a.timeEn && b.timeEn⟩
  | _, _ => none

/-- The offer changed while the lane is in C2 or C3: a new CAP (R197). In C3 the agreement is fixed from it anew; where none is possible
the lane holds (R199). -/
def offerCheck (s : State) (n : Fin 16) : State :=
  match (s.co n).ownCap with
  | some c =>
    if (s.phase n = 2 || s.phase n = 3) && c.formats != s.coOffers n then
      let s1 := s.sendCap n
      if s.phase n = 3 && (s1.agreement n).isNone then s1.setCoFlag n 9 true else s1
    else s
  | none => s

/-- Send a PROPOSE of the agreement computed; numbers run from 1 and skip 0 (R200). -/
def propose (s : State) (n : Fin 16) (a : Agreed) : State :=
  let c := s.co n
  let p : Proposal := ⟨c.propNum, a.format, a.precode, a.time.toNat⟩
  (s.modCo n fun c => { c with prop := some p, rejected := none, propNum := if c.propNum = 255 then 1 else c.propNum + 1 }).sendSeq n 0x02
    (be 1 p.num ++ be 1 p.format ++ be 1 p.precode ++ be 1 p.time)

/-- Is this end's UNIQUE_ID the higher? -/
def idHigher (s : State) (n : Fin 16) : Bool := s.rd (K.LINE_CO_PEER_ID n) < uid

/-- Proposals start in C3 (R200), or agreement is impossible (R199). -/
def c3Start (s : State) (n : Fin 16) : State :=
  match s.agreement n with
  | none => s.setCoFlag n 9 true
  | some a =>
    let s1 := s.setCoFlag n 9 false
    if (s.co n).noPropose then s1
    else match s.rd (K.LINE_CO_ROLE n) with
      | 1 => s1.propose n a
      | 0 => if s.idHigher n then s1.propose n a else s1
      | _ => s1

/-! ## Format of the lane and of its group (R128, R129, R204) -/

/-- `LINE_FORMAT` changes: in Courn-225 the receiver of H(2n+1) is powered down and its fill ends (R114, R129). -/
def setFormat (s : State) (n : Fin 16) (f : Nat) : State :=
  if s.rd (K.LINE_FORMAT n) = f then s
  else if f = 2 then ((s.wr (K.LINE_FORMAT n) f).clkOkLost (hostB n)).setFill (hostB n) false
  else if s.is225 n then (s.wr (K.LINE_FORMAT n) f).hostTrain (hostB n)
  else s.wr (K.LINE_FORMAT n) f

/-- The group's format is fixed; a grid of another format relocks at the next gauge tick. -/
def groupFix (s : State) (k : Fin 4) (f : Nat) : State :=
  s.modPg k fun g => { g with fixed := f, relockFmt := g.gb == .locked && g.grid != f }

/-- The group's format follows its lanes in C4 to C7. -/
def groupFollow (s : State) (n : Fin 16) : State :=
  let k := pgOf n
  let any4 := (lanesOf k).any fun m => 4 ≤ s.phase m
  let s1 := if any4 then (if (s.pg k).fixed = 0 then s.groupFix k (s.rd (K.LINE_FORMAT n)) else s)
    else s.modPg k fun g => { g with fixed := 0, relockFmt := false }
  if (s.pg k).fixed = (s1.pg k).fixed then s1 else forAll (lanesOf k) (fun m s => s.offerCheck m) s1

/-! ## Phases (R182, R196, R226) -/

/-- The record of a change of phase to `p` (R226). -/
def phaseRecord (s : State) (n : Fin 16) (p : Nat) : State :=
  s.record 0x02 n.val (be 1 (s.phase n) ++ be 1 p ++ be 2 (s.rd (K.LINE_CO_LAST_FAIL n)) ++ be 2 (s.rd (K.LINE_CO_SESSION n)) ++
    be 2 (s.rd (K.LINE_CO_PEER_SESSION n)))

/-- Put a phase in place: its record, its transmit source, what the phases below C4 and C5 do not hold, slip-stitch, the
group's format. An announcement is due in C2 and above (R190). TRAIN starts from its seed at each entry to C4 (R206); the hold of R199
does not outlast C3. -/
def phaseSet (s : State) (n : Fin 16) (p : Nat) : State :=
  let old := s.phase n
  let s1 := if old = 7 && p != 7 then s.leaveC7 n else s
  let s2 := ((if old = p then s1 else s1.phaseRecord n p).wr (K.LINE_CO_PHASE n) p).setCoFlag n 9 false
  let s3 := (s2.chooseSrc n (if p ≤ 3 then 1 else if p = 4 then 2 else 3)).modCo n fun c =>
    { c with phaseAt := s.now, readySent := false, readyAcked := false, owe := 2 ≤ p
             peerReady := if p ≤ 4 then [] else c.peerReady, gate := if p = 7 then c.gate else 0 }
  let s4 := if p < 5 && 5 ≤ old then (s3.lockIdle n).setCoFlag n 1 false else s3
  let s5 := if p ≤ 3 then
      (((((if 4 ≤ old then s4.adaptStop n else s4).wr (K.LINE_CO_AGR n) 0).setFormat n 0).setCoFlag n 3 false).setCoFlag n 2 false).modCo n
        fun c => { c with precOwn := false, precFar := false, needReacq := false, txeq := .idle }
    else s4
  let s6 := if p = 4 then s5.modLane n fun l => { l with tx := { l.tx with train := 0 } } else s5
  (s6.ssFollow n).groupFollow n

/-- A new SESSION: never 0, never the one it replaces (R186). -/
def newSession (s : State) (n : Fin 16) : State :=
  let old := s.rd (K.LINE_CO_SESSION n)
  let v := 1 + s.fresh.1 % 65535
  s.fresh.2.wr (K.LINE_CO_SESSION n) (if v = old then v % 65535 + 1 else v)

/-- Outstanding and waiting messages are discarded. -/
def coDiscard (s : State) (n : Fin 16) : State :=
  s.modCo n fun c => { c with out := [], wait := [], retries := 0, ackOwed := none }

def setFail (s : State) (n : Fin 16) (cause : Nat) : State := s.wr (K.LINE_CO_LAST_FAIL n) (s.phase n * 256 + cause)

/-- C1 in the present session: nothing outstanding, E is 0 (R190); a written Picot mode takes effect (R232). -/
def enterC1 (s : State) (n : Fin 16) : State :=
  ((((s.coDiscard n).phaseSet n 1).wr (K.LINE_CO_FLAGS n) 0).modPicot n fun m => { m with mode := s.rd (K.PICOT_MODE n) }).modCo n
    fun c => { c with e := 0, bind := none, backoff := false }

/-! ## Verify gate of a port (R215) -/

/-- Line lanes of the lane's Ethernet port (Table 1-2, Table 4-8). -/
def portLines (s : State) (n : Fin 16) : List (Fin 16) :=
  let k := pgOf n
  match (List.range 4).find? fun p => (s.portLanes k p).contains (2 * (n.val % 4)) with
  | some p => (lanesOf k).filter fun m => (s.portLanes k p).contains (2 * (m.val % 4))
  | none => [n]

/-- Every administratively up lane of the port has passed its gate (R215). -/
def portPassed (s : State) (n : Fin 16) : Bool :=
  (s.portLines n).all fun m => s.laneDown m || s.phase m == 7 || (s.phase m == 6 && (s.co m).gate == 1)

/-- READY for the present phase (R196). -/
def sendReady (s : State) (n : Fin 16) : State :=
  (s.modCo n fun c => { c with readySent := true }).sendSeq n 0x08 (be 1 (s.rd (K.LINE_CO_AGR n)) ++ be 1 (s.phase n))

/-- A lane has passed its gate or counts as down: with that the C6 work of the port's other lanes may be done, which send READY. -/
def portReady (s : State) (n : Fin 16) : State :=
  forAll (s.portLines n) (fun m s =>
    if m != n && s.phase m = 6 && (s.co m).gate = 1 && !(s.co m).readySent && !s.binding m && s.portPassed m then s.sendReady m else s) s

/-- A lane counts as down, or comes up: gearbox, swatch, the gates of its port, waiting CONFIG, outage (R30, R69, R173, R215, Table
5-2). -/
def laneWentDown (s : State) (n : Fin 16) : State := (((s.gbDown (pgOf n)).swatchAbort n).portReady n).outageCheck
def laneCameUp (s : State) (n : Fin 16) : State := (s.gbUp (pgOf n)).cfgReport n

/-- C0 → C1 begins with both calibrations (R183). -/
def castStart (s : State) (n : Fin 16) : State :=
  if s.phase n = 0 && s.on (K.LINE_ADMIN n) && !(s.co n).hold && s.inRun n && (s.unit (laneUnit n)).trans == .still && s.pwr.offStep = 0 && !(s.lane n).laneReset && !s.laneTested n && s.calIdle n &&
      !(s.co n).calCo then
    (s.modCo n fun c => { c with calCo := true }).calStart n true true
  else s

/-- The lane goes to C0: no bursts, queue empty, nothing agreed; cast-on starts again if nothing holds it (R196, R221,
R242). `hold`: BIND_OFF (R181). -/
def toC0 (s : State) (n : Fin 16) (hold : Bool) : State :=
  let s1 := (((s.coDiscard n).picotFlush n).phaseSet n 0).wr (K.LINE_CO_FLAGS n) 0
  let s2 := ((s1.wr (K.LINE_CO_PEER_ID n) 0).wr (K.LINE_CO_PEER_SESSION n) 0).wr (K.LINE_CO_PEER_PHASE n) 0xFF
  let s3 := s2.modCo n fun c =>
    { c with hold := hold, bind := none, backoff := false, e := 0, cap := none, ownCap := none, prop := none, rejected := none
             accepted := none, owe := false, oow := 0 }
  if s3.laneDown n then s3.laneWentDown n else s3.castStart n

/-- Restart of the conversation (R195), of a lane that binds off too: its BIND is discarded with the rest, and from C1 it goes on to C0
(Table 7-6, R181; DESIGN CHOICE, log entry 27). -/
def coRestart (s : State) (n : Fin 16) (cause : Nat) : State :=
  let s1 := (((((s.setFail n cause).incSat (K.LINE_CO_RESTARTS n)).picotFlush n).newSession n).enterC1 n).modCo n fun c =>
    { c with backoff := true, owe := false }
  match (s.co n).bind with
  | some reason => s1.toC0 n (reason == 1)
  | none => s1

/-- Entry to C2 (R189, R190, R193, R197): numbers and E from 0, the timers taken, CAP due. -/
def enterC2 (s : State) (n : Fin 16) : State :=
  let s1 := (((s.coDiscard n).modCo n fun c => { c with ownCap := none }).phaseSet n 2).modCo n fun c =>
    { c with txSeq := 0, numbered := 0, lastAck := 0xFF, e := 0, oow := 0, propNum := 1, cap := none, ownCap := none, prop := none, rejected := none
             accepted := none, capAcked := false, noPropose := false, retrains := 0, realignOuts := 0
             timers := (List.range 13).map fun i => s.rd ⟨.line n, 0x2D, i + 1⟩, c2At := s.now, backoff := false }
  ((s1.wr (K.LINE_CO_PEER_ID n) 0).setCoFlag n 8 false).setCoFlag n 9 false

/-- Entry to C3; `noPropose`: to handle a PROPOSE (R207). -/
def enterC3 (s : State) (n : Fin 16) (noPropose : Bool) : State :=
  ((s.phaseSet n 3).modCo n fun c =>
    { c with prop := none, rejected := none, accepted := none, heardPropose := false, noPropose := noPropose }).c3Start n

/-- Entry to C4: acquisition, again when the partner's PHASE is still below 4 (R208). -/
def enterC4 (s : State) (n : Fin 16) (cold : Bool) : State :=
  ((s.phaseSet n 4).acqStart n cold).modCo n fun c =>
    { c with needReacq := s.rd (K.LINE_CO_PEER_PHASE n) < 4 || s.rd (K.LINE_CO_PEER_PHASE n) = 0xFF, txeq := .idle, reqFrom := c.reqId, gate := 0 }

/-- Entry to C5 (R213, R218): the lock machines start in HUNT, and with them the freezes of an absent lock (R63, Table 2-6). -/
def enterC5 (s : State) (n : Fin 16) (re : Bool) : State :=
  s.followFreeze n fun s => ((s.phaseSet n 5).setCoFlag n 1 re).lockHunt n

/-- Entry to C7 (R216): the run counted, its time, REALIGN clear, STATUS, no time result yet (Table 10-6); an outage may end (R30). -/
def enterC7 (s : State) (n : Fin 16) : State :=
  let s1 := (((s.phaseSet n 7).modLane n fun l => { l with reachedC7 := true }).incSat (K.LINE_CO_RUNS n)).wrBit (K.TIME_LINE_FLAGS n) 0 false
  ((((s1.modUnit (laneUnit n) fun u => { u with byRequest := false }).wr (K.LINE_CO_LAST_US n) (min (2 ^ 32 - 1) (ccToUs (s.now - (s.co n).c2At)))).setCoFlag n 1 false).sendStatus n).outageCheck

/-! ## Contradiction, agreement made (R203 to R205) -/

/-- A contradiction: counted, REJECT reason 6 naming a proposal, AGR 0, C3. A lane that binds off keeps its phase (R221). -/
def contradict (s : State) (n : Fin 16) (num : Nat) : State :=
  let s1 := (s.incSat (K.LINE_CO_CONTRADICT n)).sendReject n num 6 (s.rd (K.LINE_CO_AGR n))
  if s.binding n then s1 else s1.enterC3 n false

/-- The agreement takes effect: AGR, format, precoders, time; C4. -/
def agreeTake (s : State) (n : Fin 16) (p : Proposal) (own : Bool) : State :=
  let bit (i : Nat) := p.precode.testBit i
  let s1 := ((((s.wr (K.LINE_CO_AGR n) p.num).setFormat n p.format).setCoFlag n 3 (p.time.testBit 0)).setCoFlag n 2 own).modCo n fun c =>
    { c with precOwn := if own then bit 0 else bit 1, precFar := if own then bit 1 else bit 0, prop := none, accepted := none, rejected := none }
  s1.enterC4 n false

/-- The agreement is made; `own`: this end's proposal. Two lanes of a group that enter C4 in one cc with different
formats: the lower-numbered prevails (R204). -/
def agree (s : State) (n : Fin 16) (p : Proposal) (own : Bool) : State :=
  let k := pgOf n
  let holders := (lanesOf k).filter fun m => 4 ≤ s.phase m
  if (s.pg k).fixed = 0 || (s.pg k).fixed = p.format then s.agreeTake n p own
  else if holders.all fun m => n < m && s.phase m == 4 && (s.co m).phaseAt == s.now then
    (forAll holders (fun m s => s.contradict m (s.rd (K.LINE_CO_AGR m))) s).agreeTake n p own
  else s.contradict n p.num

/-! ## TXEQ policy (R210, R211) -/

/-- The main tap index of the far transmitter, from its CAP. -/
def farMain (s : State) (n : Fin 16) : Nat := ((s.co n).cap.map (·.main)).getD 2

/-- Send a TXEQ_REQ of the taps. -/
def sendTxeq (s : State) (n : Fin 16) (taps : List Int) : State :=
  (s.modCo n fun c => { c with reqId := (c.reqId + 1) % 256 }).sendSeq n 0x05
    (be 1 ((s.co n).reqId + 1) ++ be 1 (s.farMain n) ++ tapBytes taps)

/-- Nine taps read from consecutive entries. -/
def tapEntries (s : State) (n : Fin 16) (first : Nat) : List Int := (List.range 9).map fun k => s.rdI ⟨.line n, 0x2F, first + k⟩

/-- `LINE_CO_FAR_TAPS` as taps. -/
def farTaps (s : State) (n : Fin 16) : List Int :=
  (List.range 9).map fun k => sx 16 (s.rd (K.LINE_CO_FAR_TAPS n) / 2 ^ (16 * (8 - k)))

/-- The taps that one more step of tap `j` gives, none where the search of that tap breaks off (R211). -/
def stepTaps (t : List Int) (main : Nat) (j : Option Nat) : Option (List Int) :=
  match j with
  | some j =>
    if 8 < j then none
    else
      let v : List Int := t.mapIdx fun k x => if k = j then x - 16 else x
      let rest : Nat := (v.mapIdx fun k (x : Int) => if k = main then 0 else x.natAbs).foldl (fun a b => a + b) 0
      let m : Int := 1024 - (rest : Int)
      if m < 512 then none else some (v.mapIdx fun k x => if k = main then m else x)
  | none => none

/-- The tap that the search moves: main + 1, then main - 1. -/
def searchTap (s : State) (n : Fin 16) : Option Nat :=
  if (s.co n).eqJ = 0 then some (s.farMain n + 1) else if s.farMain n = 0 then none else some (s.farMain n - 1)

/-- Try the next step of the search, or the next tap, or end it. -/
def searchNext (s : State) (n : Fin 16) : Nat → State
  | 0 => s.modCo n fun c => { c with txeq := .done }
  | fuel + 1 =>
    let c := s.co n
    if 2 ≤ c.eqJ then s.modCo n fun c => { c with txeq := .done }
    else
      match (if 12 < c.eqStep then none else stepTaps c.tTaps (s.farMain n) (s.searchTap n)) with
      | some u => (s.modCo n fun c => { c with uTaps := u, txeq := .stepAck }).sendTxeq n u
      | none => (s.modCo n fun c => { c with eqJ := c.eqJ + 1, eqStep := 1 }).searchNext n fuel

/-- A measurement of SNR_T begins at cc `t` (R211). -/
def trainFrom (s : State) (n : Fin 16) (t : Nat) : State := s.modLane n fun l => { l with snrT := { at_ := some t } }

/-- SNR_T of the errors gathered, 5 over their mean square, in 0.01 dB (R64, R211); with none, or all 0, no value is stated (log entry
2). -/
def trainSnr (s : State) (n : Fin 16) : Int × State :=
  let t := (s.lane n).snrT
  let r := s.snrValue (5 * t.n * 2 ^ 52) t.sq
  (r.1, r.2.modLane n fun l => { l with snrT := {} })

/-- SNR_T has been measured (R211). -/
def searchMeasured (s0 : State) (n : Fin 16) : State :=
  let snr := (s0.trainSnr n).1
  let s := (s0.trainSnr n).2
  let s1 := s.wrI (K.LINE_CO_TRAIN_SNR n) snr
  match (s.co n).txeq with
  | .baseline =>
    let main := s.farMain n
    let t := if (s.co n).farKnown then s.farTaps n else txTapsCold main
    (((s1.wr (K.LINE_CO_TXEQ_STEPS n) 0).modCo n fun c => { c with best := snr, eqJ := 0, eqStep := 1, tTaps := t })).searchNext n 3
  | .settle =>
    if snr < (s.co n).best + 5 then (s1.modCo n fun c => { c with txeq := .backAck }).sendTxeq n (s.co n).tTaps
    else
      ((s1.incSat (K.LINE_CO_TXEQ_STEPS n)).modCo n fun c =>
        { c with tTaps := c.uTaps, best := snr, eqStep := c.eqStep + 1 }).searchNext n 3
  | _ => s0

/-- A TXEQ_ACK answers the policy's request. -/
def txeqAnswered (s : State) (n : Fin 16) (result : Nat) : State :=
  if result != 0 then s.modCo n fun c => { c with txeq := .done }
  else match (s.co n).txeq with
    | .stepAck => (s.modCo n fun c => { c with txeq := .settle }).trainFrom n (s.now + 524288)
    | .backAck => (s.modCo n fun c => { c with eqJ := c.eqJ + 1, eqStep := 1 }).searchNext n 3
    | .request => s.modCo n fun c => { c with txeq := .done }
    | _ => s

/-- The policy begins when acquisition and the CTLE search have ended on the far TRAIN (R208, R210). -/
def policyStart (s : State) (n : Fin 16) : State :=
  if s.phase n = 4 && (s.co n).txeq = .idle && (s.lane n).adapt = 2 && !(s.co n).needReacq && !s.binding n then
    match s.rd (K.LINE_CO_TXEQ_POLICY n) with
    | 0 => s.modCo n fun c => { c with txeq := .done }
    | 1 => (s.modCo n fun c => { c with txeq := .baseline }).trainFrom n s.now
    | 2 => s.modCo n fun c => { c with txeq := .host }
    | _ => (s.modCo n fun c => { c with txeq := .request }).sendTxeq n (s.tapEntries n 0x0C)
  else s

/-! ## Verify gate (R214, R215) -/

/-- Does the gate pass at the end of a window of `win` units? -/
def gatePasses (s : State) (n : Fin 16) (win : Nat) : Bool :=
  let c := s.co n
  if win = 0 then s.frameLock n
  else
    c.heldC6 && s.frameLock n && s.rd (K.LINE_CW_UNCORR n) - c.uncorr0 ≤ s.rd (K.LINE_CO_VERIFY_UNCORR n) &&
    (s.rd (K.LINE_SYM_ERR n) - c.symErr0) * 10 ^ 7 ≤ s.rd (K.LINE_CO_VERIFY_SER n) * 288 * (win * 2 ^ 16)

/-- The gate's result (R214, R215): on a failure STATUS, then a retrain or a restart. -/
def gateEnd (s : State) (n : Fin 16) : State :=
  if s.gatePasses n (s.co n).win then (s.modCo n fun c => { c with gate := 1 }).portReady n
  else
    let s1 := (s.modCo n fun c => { c with gate := 2 }).sendStatus n
    if (s.co n).retrains < s.rd (K.LINE_CO_RETRAIN_MAX n) then
      ((s1.incSat (K.LINE_CO_RETRAIN n)).modCo n fun c => { c with retrains := c.retrains + 1 }).enterC4 n true
    else s1.coRestart n 5

/-- Entry to C6: the window opens; a window of 0 is judged at once (R214). -/
def enterC6 (s : State) (n : Fin 16) : State :=
  let s1 := (s.phaseSet n 6).modCo n fun c =>
    { c with gate := 0, win := s.rd (K.LINE_CO_VERIFY_WIN n), heldC6 := s.frameLock n, uncorr0 := s.rd (K.LINE_CW_UNCORR n), symErr0 := s.rd (K.LINE_SYM_ERR n) }
  if s.rd (K.LINE_CO_VERIFY_WIN n) = 0 then s1.gateEnd n else s1

/-! ## Advance (R196) -/

/-- The phase's work is done (R212, R213, R215). -/
def workDone (s : State) (n : Fin 16) : Bool :=
  match s.phase n with
  | 4 => (s.lane n).adapt == 2 && !(s.co n).needReacq && (s.co n).txeq == .done
  | 5 => s.frameLock n
  | 6 => (s.co n).gate == 1 && s.portPassed n
  | _ => false

/-- One step of the lane's own progress: C2 to C3, READY, the next phase. -/
def advanceOnce (s : State) (n : Fin 16) : State :=
  let c := s.co n
  let p := s.phase n
  if s.binding n then s
  else if p = 2 then
    if c.capAcked && c.cap.isSome && !s.coFlag n 8 then s.enterC3 n false else s
  else if !s.workDone n then s
  else if !c.readySent then s.sendReady n
  else
    let peer := s.rd (K.LINE_CO_PEER_PHASE n)
    if c.readyAcked && (c.peerReady.contains p || (p < peer && peer ≤ 7)) then
      match p with
      | 4 => s.enterC5 n false
      | 5 => s.enterC6 n
      | _ => s.enterC7 n
    else s

/-- Progress as far as it goes. -/
def coAdvance (s : State) (n : Fin 16) : State :=
  let s1 := (s.policyStart n).advanceOnce n
  let s2 := ((s1.policyStart n).advanceOnce n).advanceOnce n
  (s2.advanceOnce n).advanceOnce n

/-- Progress, then the packet that is still owed (R190). -/
def coSettle (s : State) (n : Fin 16) : State :=
  let s3 := s.coAdvance n
  if (s3.co n).owe && s3.phase n != 0 then s3.sendKeepalive n else s3

/-! ## Bind-off (R221) -/

def bindOff (s : State) (n : Fin 16) (reason : Nat) : State :=
  if (s.co n).bind.isSome then s
  else
    (((s.setCoFlag n 0 true).incSat (K.LINE_CO_BIND_TX n)).modCo n fun c => { c with bind := some reason }).sendSeq n 0x09
      (be 1 reason ++ be 1 0)

/-- BIND is acknowledged, or its wait has passed: C0, held after the BIND_OFF command. -/
def bindDone (s : State) (n : Fin 16) : State := if (s.co n).bind.isSome then s.toC0 n ((s.co n).bind == some 1) else s

/-! ## Changes of lock and fill (R216, R218) -/

/-- Follow a change of the lane's locks or fill: a loss of frame lock in C7 goes to C5 with REALIGN; in C7 a changed LOCK or
FILL byte sends STATUS; the lane's own progress follows. -/
def coFollow (s : State) (n : Fin 16) (f : State → State) : State :=
  let s1 := f s
  if s.phase n = 7 && s.frameLock n && !s1.frameLock n then
    ((((s1.incSat (K.LINE_CO_REALIGN n)).modCo n fun c => { c with realignOuts := 0 }).enterC5 n true).sendStatus n).coSettle n
  else if s.phase n = 7 && s1.lockFill n != (s1.co n).lastStatus then (s1.sendStatus n).coSettle n
  else s1.coSettle n

end State

end Sys2Proof.Machine
end

