-- ==== Sys2Proof/Machine/CastOn.lean ====
section
/-!
DEFINITION. Cast-on's commands: received messages (R188 to R192, R197 to R222), timers, the writes that drive it, the Picot
events that reach it, and the ends of the cast-on calibrations (R183, R267, R268).
-/

namespace Sys2Proof.Machine

namespace State

/-! ## ACK (R190) -/

/-- What the acknowledgement of one message does. -/
def ackedMsg (s : State) (n : Fin 16) (m : Msg) : State :=
  match m.typ with
  | 0x01 =>
    let c := s.co n
    if (c.out ++ c.wait).any fun o => o.typ == 0x01 then s else s.modCo n fun c => { c with capAcked := true }
  | 0x03 =>
    match (s.co n).accepted with
    | some p => if s.phase n = 3 && byteAt m.body 0 == p.num && !s.binding n then s.agree n p false else s
    | none => s
  | 0x08 => if byteAt m.body 1 == s.phase n then s.modCo n fun c => { c with readyAcked := true } else s
  | 0x09 => s.bindDone n
  | _ => s

/-- Was number `a` never sent in this conversation: not given out yet, or given out for the first time to a message whose burst has not
started (R190)? -/
def neverSent (c : CoS) (a : Nat) : Bool :=
  c.numbered ≤ a || (c.numbered ≤ a + 4 && c.out.any fun m => m.seq == a && !m.sent)

/-- Apply an ACK: every outstanding message up to the one it names; a number never sent is a bad ACK; one that is no longer outstanding
changes nothing. -/
def applyAck (s : State) (n : Fin 16) (a : Nat) : State :=
  let c := s.co n
  if a = c.lastAck then s
  else
    match c.out.findIdx? fun m => m.seq == a && m.sent with
    | none => if neverSent c a then s.incSat (K.LINE_CO_BAD_ACK n) else s
    | some i =>
      let done := c.out.take (i + 1)
      let s1 := s.modCo n fun c => { c with out := c.out.drop (i + 1), lastAck := a, retries := 0 }
      forAll done (fun m s => s.ackedMsg n m) (s1.coPump n 4)

/-! ## Reception (R192) -/

/-- A partner restart (R219): counted, messages discarded, new SESSION, the partner's recorded, C2; the CAP and a BIND that
was under way are sent after the packet. -/
def partnerRestart (s : State) (n : Fin 16) (session : Nat) : State :=
  let s1 := (((s.setFail n 4).incSat (K.LINE_CO_PEER_RESTART n)).picotFlush n).newSession n
  (s1.wr (K.LINE_CO_PEER_SESSION n) session).enterC2 n

/-- The lane leaves C1 on a packet: not while its output is disabled or its depth is 0 (R184). -/
def leavesC1 (s : State) (n : Fin 16) : Bool := s.on (K.LINE_TX_OUT_EN n) && s.rd (K.LINE_PICOT_DEPTH n) != 0

/-- What every packet does before its type counts: session, ACK, PHASE, R208, and the moves of Table 7-6 that the ACK and the PHASE
allow, so that the type is judged in the phase they lead to (R192). The first flag: a CAP is due; the second: the packet's type is looked
at. One whose PHASE or SESSION is malformed is counted (R188). In C1 every other one takes the lane to C2, in the 10 ms after a restart
too, which it ends (R197 over R195: DESIGN CHOICE, log entry 106). -/
def recvHead (s : State) (n : Fin 16) (h : MsgHead) : State × Bool × Bool :=
  let ses := h.session.toNat
  if s.phase n = 0 then (s, false, false)
  else if ses = 0 || 7 < h.phase.toNat then (s.incSat (K.LINE_CO_MALFORMED n), false, false)
  else if s.phase n = 1 && !s.leavesC1 n then (s, false, false)
  else
    let peer := s.rd (K.LINE_CO_PEER_SESSION n)
    let fresh := s.phase n == 1
    let restart := !fresh && peer != 0 && ses != peer
    let s1 := if fresh then (s.wr (K.LINE_CO_PEER_SESSION n) ses).enterC2 n
      else if restart then s.partnerRestart n ses
      else if peer = 0 then s.wr (K.LINE_CO_PEER_SESSION n) ses else s
    let s2 := ((s1.setCoFlag n 7 false).applyAck n h.ack.toNat)
    if s2.phase n = 0 then (s2, false, false)
    else
      let s3 := s2.wr (K.LINE_CO_PEER_PHASE n) h.phase.toNat
      let s4 := if s3.phase n = 4 && (s3.co n).needReacq && 4 ≤ h.phase.toNat then
          (s3.acqStart n !(s3.lane n).warm).modCo n fun c => { c with needReacq := false } else s3
      (s4.coAdvance n, fresh || restart, true)

/-- Stale handling of a sequenced message (Table 7-7). -/
def staleMsg (s : State) (n : Fin 16) (typ : Nat) (body0 : Nat) : State :=
  let s1 := s.incSat (K.LINE_CO_STALE n)
  if typ = 0x05 then s1.sendSeq n 0x06 (be 1 body0 ++ be 1 3 ++ tapBytes (txTaps s n)) else s1

/-- The sequence rules of R192; `body0` is the body's first byte. -/
def recvSequenced (s : State) (n : Fin 16) (typ seq body0 : Nat) (body : State → State) : State :=
  let d := (seq + 256 - (s.co n).e) % 256
  let inWin := d ≤ 3 || 252 ≤ d
  let s0 := s.modCo n fun c => { c with oow := if inWin then 0 else c.oow + 1 }
  if 252 ≤ d then (s0.incSat (K.LINE_CO_DUP n)).modCo n fun c => { c with owe := true }
  else if 1 ≤ d && d ≤ 3 then s0.incSat (K.LINE_CO_AHEAD n)
  else if d != 0 then
    let s1 := s0.incSat (K.LINE_CO_OOW n)
    if 16 ≤ (s1.co n).oow then s1.coRestart n 6 else s1
  else
    let acc (s : State) := s.modCo n fun c => { c with e := (c.e + 1) % 256, owe := true }
    match judge typ (s0.phase n) with
    | .unknown => (acc s0).incSat (K.LINE_CO_UNKNOWN n)
    | .later => s0.incSat (K.LINE_CO_EARLY n)
    | .valid => body (acc s0)
    | .stale => (acc s0).staleMsg n typ body0

/-- A received packet (R192). -/
def recv (s : State) (n : Fin 16) (typ : Nat) (h : MsgHead) (body0 : Nat) (body : State → State) : State :=
  let r := s.recvHead n h
  if !r.2.2 then r.1
  else
    let s1 := if sequenced typ then r.1.recvSequenced n typ h.seq.toNat body0 body
      else match judge typ (r.1.phase n) with
        | .valid => body r.1
        | .unknown => r.1.incSat (K.LINE_CO_UNKNOWN n)
        | _ => r.1.incSat (K.LINE_CO_STALE n)
    let s2 := if r.2.1 && s1.phase n = 2 then
        let s3 := s1.sendCap n
        match (s3.co n).bind with
        | some reason => (s3.setCoFlag n 0 true).sendSeq n 0x09 (be 1 reason ++ be 1 0)
        | none => s3
      else s1
    s2.coSettle n

/-- A partner at PHASE 4 or more names another agreement (R205). -/
def agrDiffers (s : State) (n : Fin 16) (agr : Nat) : Bool :=
  4 ≤ s.phase n && 4 ≤ s.rd (K.LINE_CO_PEER_PHASE n) && agr != s.rd (K.LINE_CO_AGR n)

/-- Run a body unless its AGR contradicts. -/
def underAgr (s : State) (n : Fin 16) (agr : Nat) (f : State → State) : State :=
  if s.agrDiffers n agr then s.contradict n (s.rd (K.LINE_CO_AGR n)) else f s

/-! ## Bodies -/

/-- CAP (R197 to R199): recorded; the device's own identity holds the lane in LOOPBACK, in C2 and, where it comes there, in C3, which the
lane does not leave (DESIGN CHOICE, log entry 107); in C3 the agreement is computed again. -/
def capBody (s : State) (n : Fin 16) (c : Cap) : State :=
  let s1 := (s.modCo n fun x => { x with cap := some c }).wr (K.LINE_CO_PEER_ID n) c.uid
  if c.uid = uid then
    (if s.coFlag n 8 then s1 else s1.incSat (K.LINE_CO_LOOPBACK n)).setCoFlag n 8 true
  else
    let s2 := s1.setCoFlag n 8 false
    if s2.phase n = 3 && (s2.coFlag n 9 || (s2.co n).rejected.isSome || (s2.agreement n).isNone) then
      (s2.modCo n fun x => { x with rejected := none }).c3Start n
    else s2

/-- The first applicable reason of Table 7-7a, with its DETAIL; none: the PROPOSE is accepted (R202). -/
def rejectReason (s : State) (n : Fin 16) (p : Proposal) : Option (Nat × Nat) :=
  match (s.co n).ownCap, (s.co n).cap with
  | some a, some b =>
    let fixed := (s.pg (pgOf n)).fixed
    let both := a.formats &&& b.formats
    let fmt := if both.testBit 0 then 1 else if both.testBit 1 then 2 else 0
    let prec := a.precodeReq.toNat + b.precodeReq.toNat * 2
    let time := (a.timeEn && b.timeEn).toNat
    if fixed = 0 && (fmt = 0 || p.format != fmt) then some (1, a.formats)
    else if p.precode % 4 != prec then some (2, prec)
    else if p.time % 2 != time then some (3, time)
    else if a.pgMode != b.pgMode then some (4, a.pgMode)
    else if fixed != 0 && p.format != fixed then some (5, fixed)
    else none
  | _, _ => some (1, 0)

/-- PROPOSE (R201, R202, R207). A lane that binds off answers it and keeps its phase, and with it the source (R221, log entry 27). -/
def proposeBody (s : State) (n : Fin 16) (p : Proposal) : State :=
  let s0 := (if 4 ≤ s.phase n && !s.binding n then s.enterC3 n true else s).modCo n fun c => { c with heardPropose := true }
  let answer (s : State) : State :=
    match s.rejectReason n p with
    | none =>
      (s.modCo n fun c => { c with accepted := some p }).sendSeq n 0x03 (be 1 p.num ++ be 1 p.format ++ be 1 p.precode ++ be 1 p.time)
    | some (r, d) => (s.incSat (K.LINE_CO_REJECT_TX n)).sendReject n p.num r d
  match (s0.co n).prop with
  | some _ =>
    if s0.idHigher n then s0
    else answer ((s0.modCo n fun c => { c with prop := none }).incSat (K.LINE_CO_TIE_YIELD n))
  | none => answer s0

/-- ACCEPT (R203). A lane that binds off makes no agreement (R221, log entry 27). -/
def acceptBody (s : State) (n : Fin 16) (p : Proposal) : State :=
  if (s.co n).prop = some p then (if s.binding n then s else s.agree n p true)
  else
    let s1 := (s.incSat (K.LINE_CO_CONTRADICT n)).sendReject n p.num 6 (s.rd (K.LINE_CO_AGR n))
    match s1.agreement n with
    | some a => if s.rd (K.LINE_CO_ROLE n) = 2 || (s.co n).noPropose || s.coHeld n then s1 else s1.propose n a
    | none => s1

/-- REJECT (R202, R203, Table 7-6). A lane that binds off keeps its phase (log entry 27). -/
def rejectBody (s : State) (n : Fin 16) (num reason : Nat) : State :=
  let s1 := s.incSat (K.LINE_CO_REJECT_RX n)
  let six := !(1 ≤ reason && reason ≤ 5)
  if 4 ≤ s.phase n then (if six && !s.binding n then s1.enterC3 n false else s1)
  else
    let s2 := if six && ((s.co n).accepted.map (·.num)) == some num then s1.modCo n fun c => { c with accepted := none } else s1
    match (s.co n).prop with
    | some p =>
      if p.num != num then s2
      else
        let s3 := s2.modCo n fun c => { c with prop := none }
        match s3.agreement n with
        | none => s3.setCoFlag n 9 true
        | some a =>
          if a.format = p.format && a.precode = p.precode && a.time.toNat = p.time then s3.modCo n fun c => { c with rejected := some p }
          else s3.propose n a
    | none => s2

/-- TXEQ_REQ in C4 (R209): answered at once if refused, else after the boundary at which the taps take effect. -/
def txeqReqBody (s : State) (n : Fin 16) (id main : Nat) (taps : List Int) : State :=
  let refuse (r : Nat) : State := (s.incSat (K.LINE_CO_TXEQ_REFUSED n)).sendSeq n 0x06 (be 1 id ++ be 1 r ++ tapBytes (txTaps s n))
  if main != s.rd (K.LINE_TX_FFE_MAIN n) then refuse 2
  else if !txTapsOk main ((List.range 9).map (getI taps)) then refuse 1
  else
    (s.modLane n fun l => { l with txTapsPend := some ((List.range 9).map (getI taps)) }).modCo n fun c =>
      { c with ackOwed := some id, owe := false }

/-- The TXEQ_ACK of an applied request, after its boundary (R209). -/
def txeqAckDue (s : State) (n : Fin 16) : State :=
  match (s.co n).ackOwed with
  | some id =>
    let s1 := s.modCo n fun c => { c with ackOwed := none }
    if 4 ≤ s.phase n then s1.sendSeq n 0x06 (be 1 id ++ be 1 0 ++ tapBytes (txTaps s n)) else s1
  | none => s

/-- Does the id name a request of the present visit to C4? -/
def ownRequest (c : CoS) (id : Nat) : Bool :=
  let d := (id + 256 - c.reqFrom) % 256
  1 ≤ d && d ≤ (c.reqId + 256 - c.reqFrom) % 256

/-- TXEQ_ACK (R210): a refusal of any request ends the policy, APPLIED to the latest lets it go on. -/
def txeqAckBody (s : State) (n : Fin 16) (id result : Nat) (taps : List Int) : State :=
  let s1 := (s.wr (K.LINE_CO_FAR_TAPS n) (beNat (tapBytes taps))).modCo n fun c => { c with farKnown := true }
  let s2 := if result = 0 then s1 else s1.incSat (K.LINE_CO_TXEQ_DENIED n)
  if id = (s.co n).reqId || (result != 0 && ownRequest (s.co n) id) then s2.txeqAnswered n result else s2

/-- STATUS (R215, R216). -/
def statusBody (s : State) (n : Fin 16) (lock fill verify : Nat) : State :=
  let s1 := ((s.setCoFlag n 4 (lock.testBit 0)).setCoFlag n 5 (fill.testBit 0)).setCoFlag n 6 (fill.testBit 1)
  if verify = 2 && !s.binding n then s1.enterC4 n false else s1

/-- READY is held for its phase (R196). -/
def readyBody (s : State) (n : Fin 16) (done : Nat) : State :=
  if s.phase n ≤ done then s.modCo n fun c => { c with peerReady := if c.peerReady.contains done then c.peerReady else done :: c.peerReady } else s

/-- BIND (R222): acknowledged in the present session, counted, recorded; C1, beaconing. A lane that is binding off itself goes on to
its own end in C0, the higher row of Table 7-6 (R221). -/
def bindBody (s : State) (n : Fin 16) : State :=
  let s1 := ((s.sendKeepalive n).incSat (K.LINE_CO_BIND_RX n)).setFail n 8
  if s.binding n then s1 else s1.enterC1 n

/-! ## Silence and retries (R191, R217) -/

/-- The partner is silent: in C7 the lane stays and the outstanding messages make way for those that wait, a BIND among them; below it
restarts (R195, R217). -/
def silent (s : State) (n : Fin 16) : State :=
  if s.phase n = 7 then
    let s1 := if s.coFlag n 7 then s else (s.setCoFlag n 7 true).incSat (K.LINE_CO_SILENCE n)
    (s1.modCo n fun c => { c with out := [], retries := 0 }).coPump n 4
  else if 2 ≤ s.phase n then (s.incSat (K.LINE_CO_SILENCE n)).coRestart n 3
  else s

/-- The response timer expires with a message outstanding (R191). -/
def responseTimer (s : State) (n : Fin 16) : State :=
  let c := s.co n
  let sent := c.out.filter (·.sent)
  if sent.isEmpty then s
  else if s.coTimer n 2 < c.retries + 1 then s.silent n
  else
    forAll sent (fun m s => s.coOffer n m.typ m.seq m.body)
      ((s.addSat (K.LINE_CO_RETRANSMIT n) sent.length).modCo n fun c => { c with retries := c.retries + 1 })

/-! ## Calibrations of C0 → C1 (R183, R267) -/

/-- The calibrations of R183 have ended well: C1, with a new SESSION, their results in effect, and the first beacon. -/
def calFinished (s : State) (n : Fin 16) : State :=
  if !s.calIdle n || s.phase n != 0 then s
  else if (s.co n).calCo then
    if !s.on (K.LINE_ADMIN n) || (s.co n).hold then s.modCo n fun c => { c with calCo := false }
    else if (s.lane n).calBad then s
    else
      let s1 := ((s.modCo n fun c => { c with calCo := false }).newSession n).calApply n
      (s1.enterC1 n).sendKeepalive n
  else s.castStart n

/-! ## Picot events that reach cast-on -/

/-- The message of a starting burst counts as sent (R190); a TIME burst is counted (R287), and the row it carries
logged (R286). -/
def burstStarted (s : State) (n : Fin 16) : State :=
  match (s.picot n).queue with
  | [] => s
  | p :: _ =>
    let s1 := s.picotStart n
    if (s.picot n).burst.isNone && (s1.picot n).burst.isSome && sequenced p.typ then
      s1.modCo n fun c => { c with out := c.out.map fun m => if m.typ == p.typ && m.seq == p.seq then { m with sent := true } else m }
    else if (s.picot n).burst.isNone && (s1.picot n).burst.isSome && p.typ = 0x41 then
      (s1.incSat (K.TIME_TX_SENT n)).modLane n fun l =>
        { l with xfer := { l.xfer with dep := (l.xfer.due.toList ++ l.xfer.dep).take 64, due := none } }
    else s1

/-- A burst ends: a calibration that waited starts (R94); with `LINE_CO_T_BIND` 0 the end of BIND is the end of bind-off
(R221). -/
def burstEnded (s : State) (n : Fin 16) : State :=
  match (s.picot n).burst with
  | none => s
  | some p =>
    let s1 := s.picotBurstEnd n
    let s2 := if (s.lane n).calDacDue then s1.calDacStart n else s1
    if p.typ = 0x09 && s.coTimer n 13 = 0 then s2.bindDone n else s2

/-- Clear the counters (R225). -/
def coClear (s : State) (n : Fin 16) : State := s.clrAll ((List.range 26).map fun i => ⟨.line n, 0x2E, i + 1⟩)

/-- A write named in R199 is in place, `s0` the state before it: during the INCOMPATIBLE hold it restarts the conversation; else a changed
offer is sent. -/
def coConfig (s0 s : State) (n : Fin 16) : State := if s0.coFlag n 9 && s0.phase n = 3 then s.coRestart n 11 else s.offerCheck n

/-- A lane reset, or the lane leaves Run: C0 at once, without bind-off (Table 7-6). -/
def coDrop (s : State) (n : Fin 16) : State :=
  let s1 := s.modCo n fun c => { c with calCo := false }
  if s.phase n = 0 then s1.picotFlush n else s1.toC0 n (s.co n).hold

end State

/-! ## Effects of writes -/

/-- `LINE_ADMIN` (R180, R181). -/
def effLineAdmin (n : Fin 16) (v : Nat) (s : State) : State :=
  let s1 := (s.wr (K.LINE_ADMIN n) v).modCo n fun c => { c with hold := false }
  if v = 1 then
    if s.phase n = 0 then (if s.laneDown n then s1.laneCameUp n else s1).castStart n else s1
  else
    match s.phase n with
    | 0 => if s.laneDown n then s1 else (s1.modCo n fun c => { c with calCo := false }).laneWentDown n
    | 1 => s1.toC0 n false
    | _ => (s1.bindOff n 0).coSettle n

/-- `LINE_CO_CMD` (R181). -/
def effCoCmd (n : Fin 16) (v : Nat) (s : State) : State :=
  if s.phase n = 0 then s
  else if v = 1 then s.coRestart n 10
  else if v = 2 then (if s.phase n = 1 then s.toC0 n true else (s.bindOff n 1).coSettle n)
  else s

/-- `LINE_CO_TXEQ_GO` (R210): accepted in C4 under policy 2, before the acquisition has ended too. -/
def effTxeqGo (n : Fin 16) (v : Nat) (s : State) : State :=
  if s.phase n != 4 || s.rd (K.LINE_CO_TXEQ_POLICY n) != 2 then s
  else if v = 1 then (s.sendTxeq n (s.tapEntries n 2)).coSettle n
  else if v = 2 then (s.modCo n fun c => { c with txeq := .done }).coSettle n
  else s

def effCoClear (n : Fin 16) (v : Nat) (s : State) : State := if v = 1 then s.coClear n else s

/-- A lane's entry named in R199. -/
def effCoCfg (n : Fin 16) (k : Key) (v : Nat) (s : State) : State := State.coConfig s (s.wr k v) n

/-- A port group's entry named in R199 (`PG_MODE`, `PG_LINE_FORMAT`). -/
def effPgCfg (k : Fin 4) (key : Key) (v : Nat) (s : State) : State :=
  forAll (lanesOf k) (fun n x => State.coConfig s x n) (s.wr key v)

/-- `LINE_TX_OUT_EN`: the output stage follows; a lane that held in C1 under R184 needs no other action. A BIND burst that the stage cuts
ends in that cc, and with `LINE_CO_T_BIND` 0 the bind-off with it (R191, R221). -/
def effOutEn (n : Fin 16) (v : Nat) (s : State) : State :=
  let s1 := effTxOut n (K.LINE_TX_OUT_EN n) v s
  if ((s.picot n).burst.map (·.typ)) == some 0x09 && (s1.picot n).burst.isNone && s.coTimer n 13 = 0 then s1.bindDone n else s1

/-! ## Meanings: writes -/

def execLineAdminWrite (r : Fin 18) (n : Fin 16) (v : BitVec 8) (s : State) : Host.Outcome State Fault Refusal :=
  .next (s.write r (K.LINE_ADMIN n) (be 1 v.toNat) (effLineAdmin n v.toNat))

def execCoRestart (r : Fin 18) (n : Fin 16) (s : State) : Host.Outcome State Fault Refusal :=
  .next (s.write r (K.LINE_CO_CMD n) (be 1 1) (effCoCmd n 1))

def execCoBindOff (r : Fin 18) (n : Fin 16) (s : State) : Host.Outcome State Fault Refusal :=
  .next (s.write r (K.LINE_CO_CMD n) (be 1 2) (effCoCmd n 2))

def execLineCoTxeqGo (r : Fin 18) (n : Fin 16) (v : BitVec 8) (s : State) : Host.Outcome State Fault Refusal :=
  .next (s.write r (K.LINE_CO_TXEQ_GO n) (be 1 v.toNat) (effTxeqGo n v.toNat))

def execLineCoClear (r : Fin 18) (n : Fin 16) (v : BitVec 8) (s : State) : Host.Outcome State Fault Refusal :=
  .next (s.write r (K.LINE_CO_CLEAR n) (be 1 v.toNat) (effCoClear n v.toNat))

/-! ## Meanings: received messages -/

def execCap (n : Fin 16) (h : MsgHead) (b : CapMsg) (s : State) : Host.Outcome State Fault Refusal :=
  .next (s.recv n 0x01 h 0 fun s => s.capBody n
    ⟨b.uid.toNat, b.pgMode.toNat, b.formats.toNat % 4, b.flags.toNat.testBit 3, b.flags.toNat.testBit 2, b.flags.toNat % 4,
      b.main.toNat, b.policy.toNat⟩)

def execPropose (n : Fin 16) (h : MsgHead) (num format precode time : BitVec 8) (s : State) : Host.Outcome State Fault Refusal :=
  .next (s.recv n 0x02 h 0 fun s => s.proposeBody n ⟨num.toNat, format.toNat, precode.toNat, time.toNat⟩)

def execAccept (n : Fin 16) (h : MsgHead) (num format precode time : BitVec 8) (s : State) : Host.Outcome State Fault Refusal :=
  .next (s.recv n 0x03 h 0 fun s => s.acceptBody n ⟨num.toNat, format.toNat, precode.toNat, time.toNat⟩)

/-- DETAIL tells a person why; nothing in the device follows from it. -/
def execReject (n : Fin 16) (h : MsgHead) (num reason _detail : BitVec 8) (s : State) : Host.Outcome State Fault Refusal :=
  .next (s.recv n 0x04 h 0 fun s => s.rejectBody n num.toNat reason.toNat)

def execTxeqReq (n : Fin 16) (h : MsgHead) (id main : BitVec 8) (taps : List (BitVec 16)) (s : State) :
    Host.Outcome State Fault Refusal :=
  .next (s.recv n 0x05 h id.toNat fun s => s.txeqReqBody n id.toNat main.toNat (taps.map BitVec.toInt))

def execTxeqAck (n : Fin 16) (h : MsgHead) (id result : BitVec 8) (taps : List (BitVec 16)) (s : State) :
    Host.Outcome State Fault Refusal :=
  .next (s.recv n 0x06 h id.toNat fun s => s.txeqAckBody n id.toNat result.toNat (taps.map BitVec.toInt))

def execStatus (n : Fin 16) (h : MsgHead) (agr lock fill verify : BitVec 8) (s : State) : Host.Outcome State Fault Refusal :=
  .next (s.recv n 0x07 h 0 fun s => s.underAgr n agr.toNat fun s => s.statusBody n lock.toNat fill.toNat verify.toNat)

def execReady (n : Fin 16) (h : MsgHead) (agr done : BitVec 8) (s : State) : Host.Outcome State Fault Refusal :=
  .next (s.recv n 0x08 h 0 fun s => s.underAgr n agr.toNat fun s => s.readyBody n done.toNat)

/-- A BIND; its reason has no place of its own in `LINE_CO_LAST_FAIL`, whose cause is 8 (R224). -/
def execBind (n : Fin 16) (h : MsgHead) (s : State) : Host.Outcome State Fault Refusal :=
  .next (s.recv n 0x09 h 0 fun s => s.bindBody n)

def execKeepalive (n : Fin 16) (h : MsgHead) (agr : BitVec 8) (s : State) : Host.Outcome State Fault Refusal :=
  .next (s.recv n 0x42 h 0 fun s => s.underAgr n agr.toNat id)

/-! ## Meanings: timers -/

def execResponseTimer (n : Fin 16) (s : State) : Host.Outcome State Fault Refusal := .next ((s.responseTimer n).coSettle n)

def execPartnerSilence (n : Fin 16) (s : State) : Host.Outcome State Fault Refusal := .next ((s.silent n).coSettle n)

def execBeaconTimer (n : Fin 16) (s : State) : Host.Outcome State Fault Refusal :=
  .next (if s.phase n = 1 && !(s.co n).backoff then s.sendKeepalive n else s)

def execKeepaliveTimer (n : Fin 16) (s : State) : Host.Outcome State Fault Refusal :=
  .next (if 2 ≤ s.phase n then s.sendKeepalive n else s)

/-- A phase timer expires (R193, R218); the holds stop it, 0 disables it. It, the limit, silence, the 16th message out of window and a loss
of frame lock act on a lane that binds off as on any other (log entry 27). -/
def execPhaseTimeout (n : Fin 16) (s : State) : Host.Outcome State Fault Refusal :=
  let p := s.phase n
  .next (
    if p < 2 || p = 7 || s.coHeld n || s.coTimer n (p + 4) = 0 then s
    else if p = 5 && s.realign n && (s.co n).realignOuts = 0 then
      (s.modCo n fun c => { c with realignOuts := 1 }).acqStart n true
    else (s.incSat (K.LINE_CO_PHASE_TIMEOUT n)).coRestart n (if p = 5 && s.realign n then 7 else 1))

def execCastOnLimit (n : Fin 16) (s : State) : Host.Outcome State Fault Refusal :=
  .next (if s.phase n < 2 || s.phase n = 7 || s.coHeld n then s
    else (s.incSat (K.LINE_CO_LIMIT n)).coRestart n 2)

def execStatusTimer (n : Fin 16) (s : State) : Host.Outcome State Fault Refusal :=
  .next (if s.phase n = 7 && s.coTimer n 12 != 0 then s.sendStatus n else s)

/-- `LINE_CO_T_BIND` has passed since BIND was first sent: none passes while BIND has not started (R221). -/
def execBindTimeout (n : Fin 16) (s : State) : Host.Outcome State Fault Refusal :=
  let waits := ((s.co n).out ++ (s.co n).wait).any fun m => m.typ == 0x09 && !m.sent
  .next (if s.binding n && s.coTimer n 13 != 0 && !waits then s.bindDone n else s)

def execRestartBackoffEnd (n : Fin 16) (s : State) : Host.Outcome State Fault Refusal :=
  .next (if s.phase n = 1 && (s.co n).backoff then (s.modCo n fun c => { c with backoff := false }).sendKeepalive n else s)

/-- Auto role with the lower ID, no PROPOSE received (R200). -/
def execProposeTimer (n : Fin 16) (s : State) : Host.Outcome State Fault Refusal :=
  let c := s.co n
  .next (
    if s.phase n = 3 && s.rd (K.LINE_CO_ROLE n) = 0 && !s.idHigher n && c.prop.isNone && c.accepted.isNone && c.rejected.isNone &&
        !c.heardPropose && !c.noPropose && !s.coHeld n then
      match s.agreement n with
      | some a => s.propose n a
      | none => s
    else s)

/-- The verify window ends: the gate, and READY of the other lanes of the port (R214, R215). -/
def execVerifyWindowEnd (n : Fin 16) (s : State) : Host.Outcome State Fault Refusal :=
  .next (if s.phase n = 6 && (s.co n).gate = 0 && !s.binding n then
    forAll (s.portLines n) (fun m s => s.coSettle m) (s.gateEnd n) else s)

def execTxeqSearchMeasure (n : Fin 16) (s : State) : Host.Outcome State Fault Refusal :=
  .next (if s.phase n = 4 then (s.searchMeasured n).coSettle n else s)

/-! ## Meanings: Picot and calibration -/

def execPicotBurstStart (n : Fin 16) (s : State) : Host.Outcome State Fault Refusal := .next (s.burstStarted n)

def execPicotBurstEnd (n : Fin 16) (s : State) : Host.Outcome State Fault Refusal := .next (s.burstEnded n)

/-- Lane calibration ends: `corr` offset, gain and skew of S0 to S16 as measured (R267). -/
def execLaneCalComplete (n : Fin 16) (corr : List SliceCorr) (s : State) : Host.Outcome State Fault Refusal :=
  .next (if (s.lane n).calLane then
    (s.calLaneEnd n (corr.map fun c => (c.off.toInt, c.gain.toNat, c.skew.toInt))).calFinished n else s)

def execDacCalComplete (n : Fin 16) (outOfRange : Bool) (s : State) : Host.Outcome State Fault Refusal :=
  .next (if (s.lane n).calDac then (s.calDacEnd n outOfRange).calFinished n else s)

end Sys2Proof.Machine
end

