-- ==== Sys2Proof/Machine/LineTime.lean ====
section
/-!
DEFINITION. Two-way time transfer on a line lane (10_time_unit.md, R284 to R292, R295): departure and arrival stamps, TIME
messages, offset and delay. Counter values are in 2^-40 ns.
-/

namespace Sys2Proof.Machine

namespace State

def xfer (s : State) (n : Fin 16) : XferS := (s.lane n).xfer
def modXfer (s : State) (n : Fin 16) (f : XferS → XferS) : State := s.modLane n fun l => { l with xfer := f l.xfer }

/-! ## Stamps (R284 to R286) -/

/-- A departure in this cc: 5 cc, the DAC's compensated part and the skew of 69.444 fs a step are added (R284). -/
def departure (s : State) (n : Fin 16) : Nat :=
  counterAdd s.time.counter
    (divOpen ((5 * 512000000 + 9 * (s.lane n).pDac + 62500 * s.rdI (K.LINE_TX_SKEW n)) * 2 ^ 40) 900000000)

/-- A row departs: its stamp, with the generation it was taken in. A changed `TIME_LINE_PERIOD` applies from here on (R292). -/
def stampRow (s : State) (n : Fin 16) : State :=
  let d : DepStamp := ⟨s.rd (K.LINE_ROW_TX n), s.rd K.TIME_GEN, s.departure n, (s.lane n).laneHeld, s.time.rateSeq⟩
  s.modXfer n fun x => { x with last := some d, rows := x.rows + 1, per := s.rd (K.TIME_LINE_PERIOD n) }

/-- The coarse part of an arrival whose first symbol was sampled in this cc at position `j` (R285). -/
def arrivalCoarse (s : State) (n : Fin 16) (j : Nat) : Nat :=
  counterAdd s.time.counter (divOpen (((j : Int) * 4000000 - 9 * (s.lane n).pRx) * 2 ^ 40) 900000000)

/-- A confirmed tag in E LOCK stamps its row. -/
def stampArrival (s : State) (n : Fin 16) (j frac : Nat) : State :=
  let a : ArrStamp := ⟨s.rd (K.LINE_ROW_RX n), s.rd K.TIME_GEN, s.arrivalCoarse n j, frac, (s.lane n).laneHeld, s.time.rateSeq, s.time.rate⟩
  s.modXfer n fun x => { x with arr := (a :: x.arr).take 64 }

/-- A fraction of one symbol, 40,000/9 fs, in 2^-16, as a counter difference. -/
def fracUnits (frac : Nat) : Int := divOpen (((40000 * frac * 2 ^ 40 : Nat) : Int)) (9 * 65536 * 1000000)

/-- The whole arrival stamp. -/
def arrivalOf (coarse frac : Nat) : Nat := counterAdd coarse (fracUnits frac)

/-- A counter difference in fs. -/
def unitsFs (u : Int) : Int := divOpen (u * 1000000) (2 ^ 40)

/-! ## Sending (R287, R289) -/

/-- Does time transfer run on the lane: agreed, and in C7? -/
def xferRuns (s : State) (n : Fin 16) : Bool := s.phase n == 7 && s.coFlag n 3 && (s.xfer n).per != 0

/-- The TIME body for the latest departed row (R289). -/
def timeBody (s : State) (n : Fin 16) (d : DepStamp) : List Byte :=
  let e := (s.xfer n).echo
  let valid := match e with | some e => e.ok && e.gen == d.gen | none => false
  let flags := (if s.gbLock (pgOf n) then 4 else 0) + (if s.holdover then 2 else 0) + (if valid then 1 else 0)
  be 4 d.row ++ be 12 (time96 d.stamp) ++ be 4 ((e.map (·.row)).getD 0) ++ be 12 ((e.map fun e => time96 e.coarse).getD 0) ++
  be 2 ((e.map (·.frac)).getD 0) ++ be 1 flags ++ be 1 0

/-- 128 µs after a row's departure (R287): rows that are a multiple of the period, not the first 16 of a grid. -/
def timeDue (s : State) (n : Fin 16) : State :=
  match (s.xfer n).last with
  | none => s
  | some d =>
    let per := (s.xfer n).per
    if !s.xferRuns n || d.row % per != 0 || (s.xfer n).rows < 16 then s
    else if ((s.picot n).burst.map (·.typ)) = some 0x41 then s.incSat (K.TIME_SKIPPED n)
    else
      let s1 := s.sendPlain n 0x41 (s.timeBody n d)
      if (s.picot n).queue.length < 8 then
        s1.modXfer n fun x => { x with due := some d }
      else s1.incSat (K.TIME_SKIPPED n)

/-- 128 µs before the next row's departure: a message whose burst has not started is withdrawn. -/
def timeWithdraw (s : State) (n : Fin 16) : State :=
  if (s.xfer n).due.isSome then
    let q := (s.picot n).queue.filter fun p => p.typ != 0x41
    let free := 8 - q.length
    ((s.modPicot n fun m => { m with queue := q ++ m.waiting.take free, waiting := m.waiting.drop free }).modXfer n fun x =>
      { x with due := none }).incSat (K.TIME_WITHDRAWN n)
  else s

/-! ## Offset and delay (R290, R291) -/

/-- Least-squares slope in 0.1 ppb of (t in fs, theta in fs) points; none where the points do not fix one. -/
def slope (ps : List (Int × Int)) : Option Int :=
  let n : Int := ps.length
  let sx := (ps.map (·.1)).foldl (· + ·) 0
  let sy := (ps.map (·.2)).foldl (· + ·) 0
  let sxx := (ps.map fun p => p.1 * p.1).foldl (· + ·) 0
  let sxy := (ps.map fun p => p.1 * p.2).foldl (· + ·) 0
  let den := n * sxx - sx * sx
  if ps.length < 2 || den = 0 then none else some (divOpen ((n * sxy - sx * sy) * 10 ^ 10) den.toNat)

/-- What the four stamps give. -/
structure XferOut where
  theta : Int
  mean : Int
  ref : Nat
  y : Int
  coarse : Bool
deriving DecidableEq, Repr

/-- Offset, drift and delay of the four stamps (R290): `t1`, `t4` local, `t2`, `t3` far counter values. -/
def xferCompute (s : State) (n : Fin 16) (t1 t2 t3 t4 : Nat) (rLocal : Int) : XferOut :=
  let a := s.rdI (K.TIME_LINE_ASYM n)
  let out := unitsFs (counterDiff t2 t1)
  let back := unitsFs (counterDiff t4 t3)
  let span := unitsFs (counterDiff t4 t1)
  let theta := divOpen (out - back - a) 2
  let raw := divOpen (out + back) 2
  let prov := divOpen (2 * (span - raw) + a) 4
  let pts := (prov, theta) :: ((s.xfer n).fit.map fun p => (unitsFs (counterDiff p.1 t1), p.2))
  let yo := slope pts
  let y := yo.getD (10 * s.rdI (K.LINE_CDR_FREQ n) - rLocal)
  let mean := raw + divOpen (y * (span - raw)) (2 * 10 ^ 10)
  ⟨theta, mean, counterAdd t1 (fsUnits (divOpen (2 * (span - mean) + a) 4)), y, yo.isNone⟩

/-- A message without a result: the cause counted, LINE_TIME_FAULT (R291). -/
def xferFault (s : State) (n : Fin 16) (k : Key) : State :=
  (s.incSat k).raiseIn Src.LINE_TIME_FAULT K.DET_LINE_TIME_FAULT n.val

/-- A valid result replaces all of `0x403E` (R292) and is the measurement of source 3 (R293). -/
def xferResult (s : State) (n : Fin 16) (t1 t2 t3 t4 : Nat) (o : XferOut) (flags : Nat) : State :=
  let s1 := ((((s.wrI (K.TIME_LINE_OFFSET_FS n) o.theta).wr (K.TIME_LINE_DELAY_FS n) o.mean.toNat).wr (K.TIME_LINE_REF n) (time96 o.ref)).wrI
    (K.TIME_LINE_RATE n) (clampI (-2147483648) 2147483647 o.y)).wr (K.TIME_LINE_FLAGS n) flags
  let s2 := ((s1.incWrap (K.TIME_LINE_SEQ n)).wr (K.TIME_LINE_STAMPS n)
    (beNat (be 12 (time96 t1) ++ be 12 (time96 t2) ++ be 12 (time96 t3) ++ be 12 (time96 t4)))).incSat (K.TIME_RESULTS n)
  let s3 := (s2.modXfer n fun x => { x with fit := ((o.ref, o.theta) :: x.fit).take 7, got := true, miss := 0 }).raiseIn
    Src.LINE_TIME_RESULT K.DET_LINE_TIME_RESULT n.val
  if s.timeSrc = 3 && s.time.lane = n.val then s3.servoMeasure o.theta s.time.counter else s3

/-- A TIME message is handled (R288 to R291): `back` boundaries were received since the one it is associated with. -/
def timeHandle (s : State) (n : Fin 16) (m : TimeMsg) (back : Nat) : State :=
  if !s.xferRuns n then s
  else
    let row := (s.rd (K.LINE_ROW_RX n) + 2 ^ 32 - back) % 2 ^ 32
    let arr := (s.xfer n).arr.find? fun a => a.row == row
    let s1 := match arr with
      | some a => s.modXfer n fun x => { x with echo := some ⟨m.txRow.toNat, true, a.gen, a.coarse, a.frac⟩ }
      | none => s.modXfer n fun x => { x with echo := some ⟨m.txRow.toNat, false, 0, 0, 0⟩ }
    if !m.flags.toNat.testBit 2 || !m.flags.toNat.testBit 0 then s1.xferFault n (K.TIME_INVALID_FLAG n)
    else match (s.xfer n).dep.find? fun d => d.row == m.echoRow.toNat with
      | none => s1.xferFault n (K.TIME_NO_DEPARTURE n)
      | some d =>
        match arr with
        | none => s1.xferFault n (K.TIME_NO_ARRIVAL n)
        | some a =>
          if d.gen != a.gen then s1.xferFault n (K.TIME_GEN_MISMATCH n)
          else
            let t2 := arrivalOf (ofTime96 m.echoStamp.toNat) m.echoFrac.toNat
            let t3 := ofTime96 m.txStamp.toNat
            let t4 := arrivalOf a.coarse a.frac
            let o := s1.xferCompute n d.stamp t2 t3 t4 a.rate
            if o.mean < (0 : Int) || (1000000000000 : Int) < o.mean then s1.xferFault n (K.TIME_IMPLAUSIBLE n)
            else
              let flags := 1 + (if m.flags.toNat.testBit 1 then 4 else 0) + (if o.coarse then 8 else 0) +
                (if d.rateSeq != a.rateSeq then 16 else 0) + (if d.held || a.held then 32 else 0)
              s1.xferResult n d.stamp t2 t3 t4 o flags

/-! ## Delivery of a received packet (R188, R245, Table 8-6) -/

/-- A TIME message, delivered by Picot. -/
def timeMessage (s : State) (n : Fin 16) (h : MsgHead) (m : TimeMsg) (back : Nat) : State :=
  (s.incSat (K.TIME_RX n)).recv n 0x41 h 0 fun s => s.timeHandle n m back

/-- The TIME body in a payload (Table 7-4). -/
def timeMsgOf (p : List Byte) : TimeMsg :=
  let f (i m : Nat) := beNat (slice p i m)
  ⟨BitVec.ofNat 32 (f 4 4), BitVec.ofNat 96 (f 8 12), BitVec.ofNat 32 (f 20 4), BitVec.ofNat 96 (f 24 12), BitVec.ofNat 16 (f 36 2),
    BitVec.ofNat 8 (f 38 1)⟩

/-- The nine taps in a TXEQ payload. -/
def tapsOf (p : List Byte) : List Int := (List.range 9).map fun k => sx 16 (beNat (slice p (6 + 2 * k) 2))

/-- A packet passes its checks and is delivered to cast-on (R188, R245): in C0 it is discarded, a malformed one is counted, another is
handled by its type (R192). `back`: boundaries received since the one that precedes the burst (R288). -/
def delivered (s : State) (n : Fin 16) (hdr p : List Byte) (back : Nat) : State :=
  let typ := byteAt hdr 0
  let f (i m : Nat) := beNat (slice p i m)
  let h : MsgHead := ⟨BitVec.ofNat 8 (byteAt hdr 1), BitVec.ofNat 8 (byteAt p 0), BitVec.ofNat 4 (byteAt p 1 / 16), BitVec.ofNat 16 (f 2 2)⟩
  let prop : Proposal := ⟨f 4 1, f 5 1, f 6 1, f 7 1⟩
  if s.phase n = 0 then s
  else if malformed typ p then s.incSat (K.LINE_CO_MALFORMED n)
  else
    match typ with
    | 0x01 => s.recv n typ h 0 fun s => s.capBody n
        ⟨f 4 8, f 12 1 / 16, f 13 1 % 4, (f 14 1).testBit 3, (f 14 1).testBit 2, f 14 1 % 4, f 15 1, f 16 1⟩
    | 0x02 => s.recv n typ h 0 fun s => s.proposeBody n prop
    | 0x03 => s.recv n typ h 0 fun s => s.acceptBody n prop
    | 0x04 => s.recv n typ h 0 fun s => s.rejectBody n (f 4 1) (f 5 1)
    | 0x05 => s.recv n typ h (f 4 1) fun s => s.txeqReqBody n (f 4 1) (f 5 1) (tapsOf p)
    | 0x06 => s.recv n typ h (f 4 1) fun s => s.txeqAckBody n (f 4 1) (f 5 1) (tapsOf p)
    | 0x07 => s.recv n typ h 0 fun s => s.underAgr n (f 4 1) fun s => s.statusBody n (f 5 1) (f 6 1) (f 7 1)
    | 0x08 => s.recv n typ h 0 fun s => s.underAgr n (f 4 1) fun s => s.readyBody n (f 5 1)
    | 0x09 => s.recv n typ h 0 fun s => s.bindBody n
    | 0x41 => s.timeMessage n h (timeMsgOf p) back
    | 0x42 => s.recv n typ h 0 fun s => s.underAgr n (f 4 1) id
    | _ => s.recv n typ h 0 id

/-- The header CRC ends (Table 8-6): `hdr` and `crc` as decided. -/
def headerEnd (s : State) (n : Fin 16) (hdr crc : List Byte) (snr foff : Nat) : State :=
  if s.laneTested n || (s.picot n).rx != .header then s
  else if !headerCrcOk hdr crc then (s.incSat (K.PICOT_RX_HDR_FAIL n)).picotResume n
  else if byteAt hdr 2 / 16 != (s.picot n).rxChan then (s.incSat (K.PICOT_RX_CHAN_MISMATCH n)).picotResume n
  else
    let s1 := s.picotDropPend n
    if byteAt hdr 3 = 0 then ((s1.picotLast n hdr [] 0).picotDelivered n snr foff).delivered n hdr [] 0
    else (s1.picotLast n hdr [] 3).modPicot n fun m => { m with rx := .payload, hdr := hdr, missed := 0 }

/-- The payload CRC ends (Table 8-6). -/
def payloadEnd (s : State) (n : Fin 16) (payload crc : List Byte) (snr foff back : Nat) : State :=
  let hdr := (s.picot n).hdr
  let pl := payload.take (byteAt hdr 3)
  if s.laneTested n || (s.picot n).rx != .payload then s
  else if payloadCrcOk hdr pl crc then ((s.picotLast n hdr pl 0).picotDelivered n snr foff).delivered n hdr pl back
  else ((s.picotLast n hdr pl 1).incSat (K.PICOT_RX_PAYLOAD_FAIL n)).picotSearch n

/-! ## Missing measurements (R295, R298) -/

/-- A period of lane n passes (R295). -/
def lanePeriod (s : State) (n : Fin 16) : State :=
  let s1 := s.modXfer n fun x => { x with got := false, miss := if x.got then 0 else x.miss + 1 }
  if !(s.xfer n).got && s.rd K.TIME_HOLDOVER_MISS ≤ (s1.xfer n).miss then s1.wrBit (K.TIME_LINE_FLAGS n) 1 true else s1

/-- An expected period passes: of the selected source, of the ring's beacons, or of a lane's transfer. -/
def periodMiss (s : State) (w : MissOf) : State :=
  let source (s : State) : State :=
    if s.time.followed then s.modTime fun t => { t with followed := false } else s.timeMiss
  match w with
  | .source => if s.timeSrc = 2 then s else source s
  | .beacon =>
    if s.on K.TIME_RING_BEACON_EN then s
    else
      let s1 := if s.time.beaconSeen then s.modTime fun t => { t with beaconSeen := false } else s.beaconMiss
      if s.timeSrc = 2 then source s1 else s1
  | .lane n => s.lanePeriod n

/-- Clear the counters (Table 10-7). -/
def timeClear (s : State) (n : Fin 16) : State := s.clrAll ((List.range 10).map fun i => ⟨.line n, 0x3F, i + 1⟩)

/-- `TIME_LINE_ALL`. -/
def timeAll (s : State) (n : Fin 16) : List Byte :=
  let f (sub bytes : Nat) := be bytes (s.rd ⟨.line n, 0x3E, sub⟩)
  f 1 8 ++ f 2 8 ++ f 3 12 ++ f 4 4 ++ f 5 1 ++ f 6 4 ++ f 7 48

/-- A lane reset clears `0x403E` and the logs (R286, Table 10-7). -/
def timeLaneReset (s : State) (n : Fin 16) : State :=
  (s.clrAll ((List.range 8).map fun i => ⟨.line n, 0x3E, i + 1⟩)).modXfer n fun x => { rows := x.rows, last := x.last, per := x.per }

end State

def effTimeClear (n : Fin 16) (v : Nat) (s : State) : State := if v = 1 then s.timeClear n else s

/-! ## Meanings -/

/-- A TIME message; `back` is measured from the end of its sync word (R288). -/
def execTime (n : Fin 16) (h : MsgHead) (m : TimeMsg) (back : BitVec 8) (s : State) : Host.Outcome State Fault Refusal :=
  .next (s.timeMessage n h m back.toNat)

/-- The symbols of header and header CRC have come in, `sym` those since the last command that gave any. -/
def execPicotHeaderEnd (n : Fin 16) (sym : List (BitVec 16)) (snr foff : BitVec 16) (s : State) : Host.Outcome State Fault Refusal :=
  let s1 := s.picotStore n (sym.map BitVec.toInt)
  .next (match headerIn (s1.picot n) with
    | some b => s1.headerEnd n (b.take 4) (b.drop 4) snr.toNat foff.toNat
    | none => s1)

/-- `back`: boundaries received since the one that precedes the burst, which a TIME message is associated with (R288). -/
def execPicotPayloadEnd (n : Fin 16) (payload : List Byte) (crc : BitVec 32) (snr foff : BitVec 16) (back : BitVec 8) (s : State) :
    Host.Outcome State Fault Refusal :=
  .next (s.payloadEnd n payload (be 4 crc.toNat) snr.toNat foff.toNat back.toNat)

def execTimeMessageDue (n : Fin 16) (s : State) : Host.Outcome State Fault Refusal := .next (s.timeDue n)

def execTimeWithdrawn (n : Fin 16) (s : State) : Host.Outcome State Fault Refusal := .next (s.timeWithdraw n)

def execTimeMeasurementMiss (w : MissOf) (s : State) : Host.Outcome State Fault Refusal := .next (s.periodMiss w)

def execTimeClear (r : Fin 18) (n : Fin 16) (v : BitVec 8) (s : State) : Host.Outcome State Fault Refusal :=
  .next (s.write r (K.TIME_CLEAR n) (be 1 v.toNat) (effTimeClear n v.toNat))

end Sys2Proof.Machine
end

