-- ==== Sys2Proof/Machine/Prbs.lean ====
section
/-!
DEFINITION. PRBS generators, checkers and error injection (05_host_interface.md, R157 to R160) on host lanes, line lanes
and ring ports: the patterns' next bit, the entries, and the checker's windows.
-/

namespace Sys2Proof.Machine

/-! ## Patterns (Table 5-6): registers of the pattern's degree, the newest bit lowest, seed all ones -/

/-- Degree and second tap of a binary pattern of two taps. -/
def prbsTaps : Nat → Nat × Nat
  | 0 => (7, 6)
  | 1 => (9, 5)
  | 3 => (15, 14)
  | 4 => (23, 18)
  | _ => (31, 28)

/-- One bit of a two-tap pattern: the new bit, and the register with it. -/
def prbsNext (pattern : Nat) (reg : Nat) : Bool × Nat :=
  let t := prbsTaps pattern
  let b := Bool.xor (reg.testBit (t.1 - 1)) (reg.testBit (t.2 - 1))
  (b, (2 * reg + (if b then 1 else 0)) % 2 ^ t.1)

/-- One bit of PRBS13, x^13 + x^12 + x^2 + x + 1. -/
def prbs13Next (reg : Nat) : Bool × Nat :=
  let b := Bool.xor (Bool.xor (reg.testBit 12) (reg.testBit 11)) (Bool.xor (reg.testBit 1) (reg.testBit 0))
  (b, (2 * reg + (if b then 1 else 0)) % 2 ^ 13)

/-- A pattern that IEEE 802.3 defines: PRBS13Q, PRBS31Q, SSPRQ. Its register is the place in the pattern (log entry 85). -/
def prbsIeee (pattern : Nat) : Bool := pattern = 6 || pattern = 7 || pattern = 8

/-- Bits from which a checker seeds. -/
def prbsDegree (pattern : Nat) : Nat := if pattern = 2 || pattern = 6 then 13 else (prbsTaps pattern).1

/-- The next bit of a pattern, and its register with it. -/
def prbsStep (pattern reg : Nat) : Bool × Nat :=
  if prbsIeee pattern then (Config.ieeeBit pattern reg, reg + 1)
  else if pattern = 2 then prbs13Next reg else prbsNext pattern reg

/-- The seed (R157): all ones; of a pattern that IEEE 802.3 defines, its beginning. -/
def prbsSeed (pattern : Nat) : Nat := if prbsIeee pattern then 0 else 2 ^ prbsDegree pattern - 1

/-- The register that a checker seeds from received bits, oldest first. -/
def prbsSeedFrom (pattern : Nat) (bits : List Bool) : Nat :=
  if prbsIeee pattern then Config.ieeeSeed pattern bits else bits.foldl (fun r b => 2 * r + b.toNat) 0

/-- The next `k` bits of a pattern, and its register after them. -/
def prbsRun (pattern : Nat) : Nat → Nat → List Bool × Nat
  | reg, 0 => ([], reg)
  | reg, k + 1 =>
    let p := prbsStep pattern reg
    let q := prbsRun pattern p.2 k
    (p.1 :: q.1, q.2)

/-! Jumps ahead: the register n bits on, by x^n modulo the pattern's recurrence. -/

/-- The recurrence of a pattern below its leading term: bit k stands for the bit `degree - k` places back. -/
def prbsPoly (pattern : Nat) : Nat :=
  if pattern = 2 then 1 + 2 + 2 ^ 11 + 2 ^ 12 else let t := prbsTaps pattern; 1 + 2 ^ (t.1 - t.2)

/-- x times a residue. -/
def polyX (deg low a : Nat) : Nat := let b := 2 * a; if b.testBit deg then b ^^^ (2 ^ deg + low) else b

/-- The product of two residues, `n` bits of the second remaining. -/
def polyMul (deg low : Nat) : Nat → Nat → Nat → Nat
  | 0, _, _ => 0
  | n + 1, a, b => (if b % 2 = 1 then a else 0) ^^^ polyMul deg low n (polyX deg low a) (b / 2)

/-- x^n, for n below 2^fuel. -/
def polyPow (deg low : Nat) : Nat → Nat → Nat
  | 0, _ => 1
  | fuel + 1, n =>
    let h := polyPow deg low fuel (n / 2)
    let q := polyMul deg low deg h h
    if n % 2 = 1 then polyX deg low q else q

/-- Is the number of set bits odd, of the lowest `n`? -/
def parity (n a : Nat) : Bool := (List.range n).foldl (fun p i => Bool.xor p (a.testBit i)) false

/-- The register `n` bits on. -/
def prbsAdvance (pattern reg n : Nat) : Nat :=
  if prbsIeee pattern then reg + n
  else
    let deg := prbsDegree pattern
    let low := prbsPoly pattern
    let w := (List.range deg).foldl (fun w k => if reg.testBit (deg - 1 - k) then w + 2 ^ k else w) 0
    ((List.range deg).foldl (fun (a : Nat × Nat) _ => (2 * a.1 + (parity deg (a.2 &&& w)).toNat, polyX deg low a.2))
      (0, polyPow deg low 64 n)).1

/-- Gray-coded levels of consecutive bit pairs, the first bit the more significant (R75, R157). -/
def pam4 : List Bool → List (Fin 4)
  | hi :: lo :: l => gray hi lo :: pam4 l
  | _ => []

/-- Groups of `k` bits with at least one error: `errs` marks the bits in error. -/
def groupErrs (k : Nat) (errs : List Bool) : Nat := ((chunks k errs.length errs).filter fun g => g.any id).length

/-! ## Entries by place (R158) -/

def prbsGen : PrbsAt → Nat → Key
  | .host m, i => ⟨.host m, 0x10, i⟩
  | .line n, i => ⟨.line n, 0x38, i⟩
  | .port p, i => ⟨.port p, 0xF0, i⟩

def prbsChk : PrbsAt → Nat → Key
  | .host m, i => ⟨.host m, 0x11, i⟩
  | .line n, i => ⟨.line n, 0x39, i⟩
  | .port p, i => ⟨.port p, 0xF1, i⟩

namespace State

/-- State of a checker. -/
def prbsState (s : State) : PrbsAt → PrbsChk
  | .host m => (s.host m).prbs
  | .line n => (s.lane n).prbs
  | .port p => s.ring.prbs.get p

def setPrbs (s : State) (a : PrbsAt) (v : PrbsChk) : State :=
  let s1 := s.wrBit (prbsChk a 2) 0 (v == .locked)
  match a with
  | .host m => s1.modHost m fun h => { h with prbs := v }
  | .line n => s1.modLane n fun l => { l with prbs := v }
  | .port p => { s1 with ring := { s1.ring with prbs := s1.ring.prbs.set p v } }

/-- Does the generator send its pattern: enabled, or on a line lane the source in place (R160)? -/
def prbsSends (s : State) : PrbsAt → Bool
  | .line n => (s.lane n).srcNow == 4
  | .host m => s.bit (prbsGen (.host m) 1) 0
  | .port p => s.rd (K.PORT_STATE p) == 5 && s.bit (prbsGen (.port p) 1) 0

/-- Bits that a place sends in 45 cc: host lanes 212.5 Gb/s, line lanes 450 or 225 Gb/s, ring ports at their rate. -/
def prbsRate (s : State) : PrbsAt → Nat
  | .host _ => 5440
  | .line n => if s.is225 n then 5760 else 11520
  | .port p => 3 * 2 ^ s.rd (K.PORT_RATE p)

def prbsReg (s : State) : PrbsAt → PrbsReg
  | .host m => (s.host m).preg
  | .line n => (s.lane n).preg
  | .port p => s.ring.preg.get p

def modPrbsReg (s : State) (a : PrbsAt) (f : PrbsReg → PrbsReg) : State :=
  match a with
  | .host m => s.modHost m fun h => { h with preg := f h.preg }
  | .line n => s.modLane n fun l => { l with preg := f l.preg }
  | .port p => { s with ring := { s.ring with preg := s.ring.preg.set p (f (s.ring.preg.get p)) } }

/-- PATTERN of a generator or checker. -/
def prbsPattern (s : State) (k : Key) : Nat := field (s.rd k) 11 8

/-- Bits of a symbol: two of a PAM4 lane, ten of a ring port. -/
def prbsUnit : PrbsAt → Nat
  | .port _ => 10
  | _ => 2

/-- Bits sent in a number of cc, in whole symbols. -/
def prbsSent (s : State) (a : PrbsAt) (cc : Nat) : Nat := prbsUnit a * (cc * s.prbsRate a / (45 * prbsUnit a))

/-- The generator's register at cc `t`: it has advanced by one bit per transmitted bit since it was seeded (R157). -/
def prbsGenAt (s : State) (a : PrbsAt) (t : Nat) : Nat :=
  let r := s.prbsReg a
  if s.prbsSends a then prbsAdvance (s.prbsPattern (prbsGen a 1)) r.gen (s.prbsSent a (t - r.start)) else r.gen

/-- The generator's register now. -/
def prbsGenNow (s : State) (a : PrbsAt) : Nat := s.prbsGenAt a s.now

def prbsInj (s : State) : PrbsAt → InjS
  | .host m => (s.host m).pinj
  | .line n => (s.lane n).pinj
  | .port p => s.ring.pinj.get p

def setPrbsInj (s : State) (a : PrbsAt) (i : InjS) : State :=
  match a with
  | .host m => s.modHost m fun h => { h with pinj := i }
  | .line n => s.modLane n fun l => { l with pinj := i }
  | .port p => { s with ring := { s.ring with pinj := s.ring.pinj.set p i } }

/-- PERIOD in bits (Table 5-7). -/
def prbsPeriod (s : State) (a : PrbsAt) : Nat := 1024 * (s.rd (prbsGen a 2) % 2 ^ 24)

/-- Is bit `i` of those sent from cc `t` on inverted (R158)? Periodically the one that completes a period, and the one that a ONCE
falls on; a period being a whole number of symbols, either is on a PAM4 lane the second bit of a symbol. -/
def prbsInverted (s : State) (a : PrbsAt) (t i : Nat) : Bool :=
  let j := s.prbsInj a
  let p := s.prbsPeriod a
  (p != 0 && (prbsUnit a * ((j.base + (t - j.start) * s.prbsRate a / 45) / prbsUnit a) + i + 1) % p == 0) ||
    (match j.onceAt with
      | some c => t ≤ c && i == s.prbsSent a (c - t) + (match a with | .port _ => 0 | _ => 1)
      | none => false)

/-- `k` bits that a generator sends from cc `t` on, with the errors injected (R157, R158). -/
def prbsBits (s : State) (a : PrbsAt) (t k : Nat) : List Bool :=
  ((prbsRun (s.prbsPattern (prbsGen a 1)) (s.prbsGenAt a t) k).1).mapIdx fun i b => b != s.prbsInverted a t i

/-- The next levels that a host lane's generator puts on its ball lane (R145, R157). -/
def prbsHostLevels (s : State) (m : Fin 32) (k : Nat) : List (Fin 4) := (pam4 (s.prbsBits (.host m) s.now (2 * k))).map (s.txLevel m)

/-- The next raw 10-bit groups of a ring port in TEST, in place of code groups (R157). -/
def prbsRingGroups (s : State) (p : Fin 2) (k : Nat) : List (List Bool) := chunks 10 k (s.prbsBits (.port p) s.now (10 * k))

/-- The generator starts at its seed. -/
def prbsReseed (s : State) (a : PrbsAt) : State :=
  s.modPrbsReg a fun r => { r with gen := prbsSeed (s.prbsPattern (prbsGen a 1)), start := s.now }

/-- Bring the periodic injection's count up to this cc (Table 5-7): errors count while the pattern is sent. -/
def prbsInjFollow (s : State) (a : PrbsAt) : State :=
  let r := (s.prbsInj a).advance s.now (s.prbsRate a) 45 (s.prbsPeriod a)
  (s.addSat (prbsGen a 3) (if s.prbsSends a then r.1 else 0)).setPrbsInj a r.2

/-- The checker of a place is enabled or disabled (R159, R160): a host lane's counts as lost while it is. -/
def prbsCheck (s : State) (a : PrbsAt) (v : Nat) : State :=
  let s1 := ((s.wr (prbsChk a 1) v).setPrbs a (if v.testBit 0 then .seeding else .off)).modPrbsReg a fun r => { r with bits := [], part := 0, partErr := false }
  match a with
  | .host m => s1.setHostBit m 7 (v.testBit 0)
  | _ => s1

/-- Received bits as the checker sees them: a host lane's after polarity, which of a symbol's two bits inverts the first (level l becomes
3 - l, R75, R145), a line lane's those of its own receive chain (R160). -/
def prbsSeen (s : State) (a : PrbsAt) (bits : List Bool) : List Bool :=
  match a with
  | .host m =>
    if s.bit (K.PG_RX_POL (pgOfHost m)) (hostJ m) then bits.mapIdx fun i b => b != (((s.prbsReg a).part + i) % 2 == 0) else bits
  | .line _ => (s.prbsReg a).bits
  | .port _ => bits

/-- Which of the bits differ from the pattern's. -/
def prbsErrors (bits want : List Bool) : List Bool := List.zipWith (fun b w => b != w) bits want

/-- Symbols of `k` bits with an error (`PRBS_SYM_ERR`), in a window that begins `part` bits into one; `had`: an error among those was
counted in the window before. -/
def symErrs (k part : Nat) (had : Bool) (errs : List Bool) : Nat :=
  groupErrs k (List.replicate part had ++ errs) - (if had && part != 0 then 1 else 0)

/-- A window of `errs`, its errors marked, has passed: the place in a symbol at which the next one begins, and whether an error before
that place was counted. -/
def windowPart (k : Nat) (count : Bool) (errs : List Bool) (r : PrbsReg) : PrbsReg :=
  let all := List.replicate r.part r.partErr ++ errs
  let rest := all.drop (k * (all.length / k))
  { r with part := rest.length, partErr := count && rest.any id }

/-- A self-test discards the samples of the place (R505). -/
def prbsTested (s : State) (a : PrbsAt) : Bool :=
  match a with
  | .line n => s.laneTested n
  | .host m => s.bist.running == some (.pg (pgOfHost m))
  | .port _ => false

/-- The bits of a window have come in (R159): a checker without LOCK seeds from the first, then compares the next 1,024; in LOCK it
compares 1,024. A symbol is two bits, on a ring port ten. -/
def prbsWindow (s : State) (a : PrbsAt) (bits : List Bool) : State :=
  let pat := s.prbsPattern (prbsChk a 1)
  let rx := s.prbsSeen a bits
  let take (k : Nat) (s : State) : State := s.modPrbsReg a fun r => { r with bits := r.bits.drop k }
  match (if s.prbsTested a then .off else s.prbsState a) with
  | .off => s
  | .seeding =>
    let d := prbsDegree pat
    if rx.length < d + 1024 then s
    else
      let p := prbsRun pat (prbsSeedFrom pat (rx.take d)) 1024
      let s1 := (take (d + 1024) s).modPrbsReg a fun r =>
        windowPart (prbsUnit a) false (List.replicate (d + 1024) false) { r with chk := p.2 }
      if ((prbsErrors ((rx.drop d).take 1024) p.1).filter id).length < 8 then s1.setPrbs a .locked else s1
  | .locked =>
    if rx.length < 1024 then s
    else
      let p := prbsRun pat (s.prbsReg a).chk 1024
      let e := prbsErrors (rx.take 1024) p.1
      let errs := (e.filter id).length
      let syms := symErrs (prbsUnit a) (s.prbsReg a).part (s.prbsReg a).partErr e
      let s1 := ((((take 1024 s).modPrbsReg a fun r => windowPart (prbsUnit a) true e { r with chk := p.2 }).addSat (prbsChk a 3) 1024).addSat (prbsChk a 4) errs).addSat
        (prbsChk a 5) syms
      if 256 ≤ errs then ((s1.setPrbs a .seeding).wrBit (prbsChk a 2) 1 true).incSat (prbsChk a 6) else s1

/-- TEST of a ring port that is out of service (Table 12-4): entered when its generator or checker is enabled, left when
both are disabled; a port brought into service meanwhile goes on to DOWN. -/
def portTest (s : State) (a : PrbsAt) : State :=
  match a with
  | .port p =>
    let any := s.bit (prbsGen a 1) 0 || s.bit (prbsChk a 1) 0
    if s.rd (K.PORT_STATE p) = 0 && any && !s.on (K.PORT_ADMIN p) then s.wr (K.PORT_STATE p) 5
    else if s.rd (K.PORT_STATE p) = 5 && !any then s.wr (K.PORT_STATE p) (if s.on (K.PORT_ADMIN p) then 1 else 0)
    else s
  | _ => s

/-- Zero the checker's counters and LOST (Table 5-7). -/
def prbsClear (s : State) (a : PrbsAt) : State :=
  (s.clrAll ((List.range 4).map fun i => prbsChk a (3 + i))).wrBit (prbsChk a 2) 1 false

/-- Disable the generator and checker of a place (R161). -/
def prbsOff (s : State) (a : PrbsAt) : State := ((s.prbsInjFollow a).wr (prbsGen a 1) 0).prbsCheck a 0

end State

/-! ## Effects of writes -/

/-- A host generator acts from the next 17-hc period boundary on, the others at once (R160). -/
def effPrbsGen (a : PrbsAt) (r : Fin 18) (v : Nat) (s : State) : State :=
  match a with
  | .host m => s.defer (.period (pgOfHost m)) r (prbsGen a 1) (be 2 v)
  | _ => (((s.prbsInjFollow a).wr (prbsGen a 1) v).prbsReseed a).portTest a

def effPrbsChk (a : PrbsAt) (v : Nat) (s : State) : State := (s.prbsCheck a v).portTest a

/-- ONCE injects one error now into the pattern being sent; it reads 0 (Table 5-7). -/
def effPrbsInject (a : PrbsAt) (v : Nat) (s : State) : State :=
  let once := v.testBit 31 && s.prbsSends a
  let s1 := ((s.prbsInjFollow a).wr (prbsGen a 2) (v % 2 ^ 24)).setPrbsInj a { start := s.now, onceAt := if once then some s.now else none }
  if once then s1.incSat (prbsGen a 3) else s1

def effPrbsClear (a : PrbsAt) (v : Nat) (s : State) : State := if v = 1 then s.prbsClear a else s

/-! ## Meanings -/

def execPrbsGenCfgWrite (r : Fin 18) (a : PrbsAt) (v : BitVec 16) (s : State) : Host.Outcome State Fault Refusal :=
  .next (s.write r (prbsGen a 1) (be 2 v.toNat) (effPrbsGen a r v.toNat))

def execPrbsChkCfgWrite (r : Fin 18) (a : PrbsAt) (v : BitVec 16) (s : State) : Host.Outcome State Fault Refusal :=
  .next (s.write r (prbsChk a 1) (be 2 v.toNat) (effPrbsChk a v.toNat))

/-- A write of `PRBS_INJECT` (R158). -/
def execPrbsInjectOnce (r : Fin 18) (a : PrbsAt) (v : BitVec 32) (s : State) : Host.Outcome State Fault Refusal :=
  .next (s.write r (prbsGen a 2) (be 4 v.toNat) (effPrbsInject a v.toNat))

def execPrbsChkClear (r : Fin 18) (a : PrbsAt) (v : BitVec 8) (s : State) : Host.Outcome State Fault Refusal :=
  .next (s.write r (prbsChk a 8) (be 1 v.toNat) (effPrbsClear a v.toNat))

/-- `bits`: what the lane received, as its balls carry it; a line lane's checker takes the bits of its own chain. -/
def execPrbsWindowEnd (a : PrbsAt) (bits : List Bool) (s : State) : Host.Outcome State Fault Refusal :=
  .next (s.prbsWindow a bits)

end Sys2Proof.Machine
end

