-- ==== Sys2Proof/Machine/Link.lean ====
section
/-!
DEFINITION. The line's events, brought to every unit that follows them: loss of signal (R40, R46), the end of acquisition
(R38, R58), the transmit epoch boundary (R110, R141, R156, R170, R263), received codewords, blocks, markers and tags (R115
to R120), marker fill (R113) and gearbox lock (R146).
-/

namespace Sys2Proof.Machine

namespace State

/-! ## Loss of signal (R40, R46) -/

/-- The status sets: nothing at a threshold of 0, or without power (R483). The CDR is held, codeword lock is lost in the same cc (R120), an attempt
of slip-stitch in C or D is abandoned (R261). -/
def losSet (s : State) (n : Fin 16) : State :=
  if s.rd (K.LINE_LOS_THR n) = 0 || s.losOn n || s.clamped (laneUnit n) then s
  else
    let s1 := (s.followFreeze n fun s => (s.wr (K.LINE_LOS_STATUS n) 1).wr (K.LINE_CDR_HOLD n) 1).raise (Src.LINE_LOS n)
    (s1.cwLost n).ssLos n

/-- The status clears: the freezes end and the CDR runs. -/
def losClear (s : State) (n : Fin 16) : State :=
  s.followFreeze n fun s => (s.wr (K.LINE_LOS_STATUS n) 0).wr (K.LINE_CDR_HOLD n) 0

/-! ## Transmit epoch boundary -/

/-- One lane's part: row, stamp, injection. -/
def epochLane (s : State) (n : Fin 16) : State := (((s.epochLatency n).incWrap (K.LINE_ROW_TX n)).stampRow n).injFollow n

/-- The slot check of a lane that held frame lock through the epoch; the totals of the next one start at 0 (R263). -/
def slotCheck (s : State) (n : Fin 16) : State :=
  let t := (s.lane n).slots
  let s1 := if (s.lane n).lockTx then
    forAll (allFin 16) (fun j s => match slotSuspect t j with
      | some rms => s.ssSuspect n j.val rms
      | none => s) s else s
  s1.modLane n fun l => { l with lockTx := s.frameLock n, slots := Vector.replicate 16 {} }

/-- A transmit epoch boundary of a port group: there is none without gearbox lock. `freqs` in order of the group's host lanes. -/
def txEpoch (s : State) (k : Fin 4) (freqs : List Nat) : State :=
  if !s.gbLock k then s
  else
    let s1 := forAll (lanesOf k) (fun n s => s.epochLane n) s
    let s2 := forAll (hostsOf k) (fun m s =>
      match freqs[m.val % 8]? with
      | some f => s.hostFreq m f
      | none => s) s1
    forAll (lanesOf k) (fun n s => s.slotCheck n) (s2.fecEpoch k)

/-! ## Received blocks and markers -/

/-- A block has been decoded; an entry to CW LOCK is reported (R174). -/
def blockEnd (s : State) (n : Fin 16) : State :=
  let s1 := s.blockDecoded n
  if s.cwState n != 3 && s1.cwState n = 3 then s1.latEvent n causeCwRelock else s1

/-- A marker position is judged; a lock taken again at another position (`moved`) is reported (Table 6-6). -/
def markerEnd (s : State) (n : Fin 16) (b : Bool) (differ p : Nat) (moved : Bool) : State :=
  let lock (s : State) : Bool := (if b then (s.lane n).mkB else (s.lane n).mkA).st == .lock
  let s1 := s.markerAt n b differ p
  if moved && !lock s && lock s1 then s1.latEvent n (causeMarker b) else s1

/-- A tag is judged; in E LOCK a confirmed one stamps its row's arrival, with the CDR's phase (R285). -/
def tagEnd (s : State) (n : Fin 16) (j : Nat) : State :=
  let s1 := s.epochTag n
  if s.epochLock n && s.cwLock n && s1.rd (K.LINE_ROW_RX n) != s.rd (K.LINE_ROW_RX n) && s.tagPresent n then
    s1.stampArrival n j (s.rd (K.LINE_CDR_PHASE n))
  else s1

end State

/-! ## Effects of writes -/

/-- `LINE_LOS_THR`: 0 disables the detector, the status stays 0 (R40). -/
def effLosThr (n : Fin 16) (v : Nat) (s : State) : State :=
  let s1 := s.wr (K.LINE_LOS_THR n) v
  if v = 0 && s1.losOn n then s1.losClear n else s1

/-! ## Meanings -/

def execCtleSearchStep (n : Fin 16) (s : State) : Host.Outcome State Fault Refusal := .next ((s.ctleSearchStep n).coSettle n)

def execLineLosSet (n : Fin 16) (s : State) : Host.Outcome State Fault Refusal := .next (s.coFollow n fun s => s.losSet n)

def execLineLosClear (n : Fin 16) (s : State) : Host.Outcome State Fault Refusal := .next (s.coFollow n fun s => s.losClear n)

def execAcquisitionEnd (n : Fin 16) (s : State) : Host.Outcome State Fault Refusal := .next ((s.acqPeriodEnd n).coSettle n)

def execTxEpochBoundary (k : Fin 4) (freqs : List (BitVec 32)) (s : State) :
    Host.Outcome State Fault Refusal := .next (s.txEpoch k (freqs.map (·.toNat)))

/-- The next codeword of the received block. -/
def execCodewordDecoded (n : Fin 16) (s : State) : Host.Outcome State Fault Refusal := .next (s.coFollow n fun s => s.codeword n)

def execBlockDecoded (n : Fin 16) (s : State) : Host.Outcome State Fault Refusal := .next (s.coFollow n fun s => s.blockEnd n)

/-- `differ`: bits in which the pattern differs from a marker of the port mode; `p`: its place in the block. -/
def execMarkerPosition (n : Fin 16) (b : Bool) (differ : BitVec 8) (p : BitVec 12) (moved : Bool) (s : State) :
    Host.Outcome State Fault Refusal := .next (s.coFollow n fun s => s.markerEnd n b differ.toNat p.toNat moved)

/-- `j`: position in its cc of the sample that took the block's first symbol (R285). -/
def execEpochTagBlock (n : Fin 16) (j : Fin 128) (s : State) : Host.Outcome State Fault Refusal :=
  .next (s.coFollow n fun s => s.tagEnd n j.val)

def execFillStart (m : Fin 32) (s : State) : Host.Outcome State Fault Refusal :=
  .next (s.coFollow (lineOfHost m) fun s => s.fillStart m)

def execFillEnd (m : Fin 32) (p : BitVec 12) (moved : Bool) (s : State) : Host.Outcome State Fault Refusal :=
  .next (s.coFollow (lineOfHost m) fun s => s.fillEnd m p.toNat moved)

/-- A gauge tick at which the gearbox waits, or a grid of another format is to be placed (R204), and its clocks are locked or held;
`blocks`: whole blocks of the epoch that a relock shortens. -/
def execGearboxLock (k : Fin 4) (blocks : BitVec 18) (s : State) : Host.Outcome State Fault Refusal :=
  .next (
    if !s.clocksOk then s
    else if (s.pg k).gb = .wait then s.gbEnter k blocks.toNat
    else if (s.pg k).gb = .locked && (s.pg k).relockFmt then (s.gbUnlock k).gbEnter k blocks.toNat
    else s)

end Sys2Proof.Machine
end

