-- ==== Sys2Proof/Machine/Code8b10b.lean ====
section
/-!
DEFINITION. The IEEE 802.3 8b/10b code of the ring ports (12_shecalink_ring.md, R336 and R340): code groups with running
disparity. A code group is written abcdei fghj from bit 9 down to bit 0; bit a goes first. The tables are those of the
standard that R336 names (PRESUMED, log entry 93).
-/

namespace Sys2Proof.Machine

/-- abcdei of D.x at negative running disparity. -/
def code6 : Nat → BitVec 6
  | 0 => 0b100111 | 1 => 0b011101 | 2 => 0b101101 | 3 => 0b110001 | 4 => 0b110101 | 5 => 0b101001 | 6 => 0b011001 | 7 => 0b111000
  | 8 => 0b111001 | 9 => 0b100101 | 10 => 0b010101 | 11 => 0b110100 | 12 => 0b001101 | 13 => 0b101100 | 14 => 0b011100 | 15 => 0b010111
  | 16 => 0b011011 | 17 => 0b100011 | 18 => 0b010011 | 19 => 0b110010 | 20 => 0b001011 | 21 => 0b101010 | 22 => 0b011010 | 23 => 0b111010
  | 24 => 0b110011 | 25 => 0b100110 | 26 => 0b010110 | 27 => 0b110110 | 28 => 0b001110 | 29 => 0b101110 | 30 => 0b011110 | _ => 0b101011

/-- fghj of D.y at negative running disparity; `alt`: the second form of y = 7. -/
def code4 (alt : Bool) : Nat → BitVec 4
  | 0 => 0b1011 | 1 => 0b1001 | 2 => 0b0101 | 3 => 0b1100 | 4 => 0b1101 | 5 => 0b1010 | 6 => 0b0110
  | _ => if alt then 0b0111 else 0b1110

/-- The ones of a group of `w` bits. -/
def onesIn {w : Nat} (b : BitVec w) : Nat := ((List.range w).filter b.getLsbD).length

/-- The running disparity after a group: more ones make it positive, more zeros negative, else it stays. -/
def dispAfter {w : Nat} (b : BitVec w) (rd : Bool) : Bool :=
  if w < 2 * onesIn b then true else if 2 * onesIn b < w then false else rd

/-- The form of a group at a disparity: what is not neutral, and D.7 and D.x.3, are complemented at positive disparity. -/
def atDisp {w : Nat} (b : BitVec w) (two : Bool) (rd : Bool) : BitVec w := if rd && (two || 2 * onesIn b != w) then ~~~b else b

/-- The code group of a data byte HGFEDCBA (D.x.y: x = EDCBA, y = HGF), and the running disparity after it. -/
def dataGroup (v : Byte) (rd : Bool) : BitVec 10 × Bool :=
  let x := v.toNat % 32
  let y := v.toNat / 32
  let a := atDisp (code6 x) (x = 7) rd
  let r := dispAfter a rd
  let alt := if r then [11, 13, 14].contains x else [17, 18, 20].contains x
  let b := atDisp (code4 alt y) (y = 3) r
  (a ++ b, dispAfter b r)

/-- The control code groups of Table 12-2, at negative running disparity. -/
inductive RingK where
  | k28_0 | k28_1 | k28_2 | k28_3 | k28_5 | k27_7 | k29_7 | k30_7
deriving DecidableEq, Repr

def RingK.code : RingK → BitVec 10
  | .k28_0 => 0b0011110100 | .k28_1 => 0b0011111001 | .k28_2 => 0b0011110101 | .k28_3 => 0b0011110011 | .k28_5 => 0b0011111010
  | .k27_7 => 0b1101101000 | .k29_7 => 0b1011101000 | .k30_7 => 0b0111101000

/-- Its form at a running disparity, and the running disparity after it. -/
def RingK.group (k : RingK) (rd : Bool) : BitVec 10 × Bool :=
  let g := if rd then ~~~k.code else k.code
  (g, dispAfter g rd)

/-- The code groups of control and data bytes, and the running disparity after them. -/
def encodeGroups : List (RingK ⊕ Byte) → Bool → List (BitVec 10) × Bool
  | [], rd => ([], rd)
  | x :: xs, rd =>
    let g := match x with | .inl k => k.group rd | .inr v => dataGroup v rd
    let r := encodeGroups xs g.2
    (g.1 :: r.1, r.2)

/-- IDLE: D5.6 follows where the disparity after K28.5 is positive, else D16.2. -/
def idleSet (rd : Bool) : List (RingK ⊕ Byte) := [.inl .k28_5, .inr (if (RingK.k28_5.group rd).2 then 0xC5 else 0x50)]

/-- The ordered sets, delimiters and frames of Table 12-2; of an arriving frame that passes, nothing here. -/
def ringSets (rd : Bool) : RingTx → List (RingK ⊕ Byte)
  | .idle => idleSet rd
  | .token => [.inl .k28_1, .inr 0x4A]
  | .through => []
  | .abort => [.inl .k30_7]
  | .topo w => [.inl .k28_3, .inr (if w then 0 else 1)]
  | .cutTopo w => [.inl .k30_7, .inl .k28_3, .inr (if w then 0 else 1)]
  | .tokenTopo w => [.inl .k28_1, .inr 0x4A, .inl .k28_3, .inr (if w then 0 else 1)]
  | .rateGo x => [.inl .k28_2, .inr (BitVec.ofNat 8 x)]
  | .link d => [.inl .k28_0, .inr (BitVec.ofNat 8 d)]
  | .frame bs => .inl .k27_7 :: bs.map .inr ++ [.inl .k29_7]

/-- The code groups a port sends for `x`, and the running disparity after them; in TRAIN an IDLE follows each LINK. -/
def ringGroups (x : RingTx) (rd : Bool) : List (BitVec 10) × Bool :=
  let a := encodeGroups (ringSets rd x) rd
  match x with
  | .link _ =>
    let b := encodeGroups (idleSet a.2) a.2
    (a.1 ++ b.1, b.2)
  | _ => a

/-- The ring symbols of code groups, bit a of each first. -/
def ringBits (gs : List (BitVec 10)) : List Bool := gs.flatMap fun g => (List.range 10).map fun i => g.getLsbD (9 - i)

end Sys2Proof.Machine
end

