-- ==== Sys2Proof/Machine/Ring.lean ====
section
/-!
DEFINITION. The Shecalink ring (12_shecalink_ring.md, R335 to R365) and its time beacons (R296 to R299): ports, link
negotiation, wraps, medium access, frames, enumeration, ownership, resets and events. Port 0 is SA, port 1 SB.
-/

namespace Sys2Proof.Machine

/-! ## Frames (R351, R352) -/

/-- The bytes of a frame, its CRC last. -/
def ringBytes (dest src seq typ : Nat) (data : List Byte) : List Byte :=
  let b := be 1 dest ++ be 1 src ++ be 1 seq ++ be 1 typ ++ be 2 data.length ++ data
  b ++ be 4 (crc32 b)

/-- The length a TYPE has (Table 12-6); OD frames have any up to 256. -/
def ringLen : Nat → Option Nat
  | 0x01 => some 6 | 0x02 => some 20 | 0x03 => some 6 | 0x04 => some 14 | 0x05 => some 2 | 0x06 => some 10
  | 0x07 => some 10 | 0x08 => some 10 | 0x20 => some 24 | 0x21 => some 4 | 0x30 => some 28
  | _ => none

/-- Is the type one a host sends (Table 12-6)? -/
def ringHostType (t : Nat) : Bool := [0x01, 0x03, 0x05, 0x07, 0x10, 0x21].contains t

/-- A host address. -/
def isHostAddr (a : Nat) : Bool := 0xC0 ≤ a && a ≤ 0xCF

/-- What becomes of an arriving frame (R353). -/
inductive RingFate where
  | strip | absorb | both | forward
deriving DecidableEq, Repr

/-- Least significant byte first (CORR). -/
def leBytes (n v : Nat) : List Byte := (be n v).reverse

/-- The lengths of ring times in cc: `n` symbols at rate code `c` (one symbol of the base rate is 15 cc), rounded up. -/
def symbolsCc (n c : Nat) : Nat := (15 * n + 2 ^ c - 1) / 2 ^ c

/-- The hop latency of Table 12-1 in fs. -/
def hopFs (c : Nat) : Nat := 409600000 / 2 ^ c

namespace State

def port (s : State) (p : Fin 2) : PortS := s.ring.ports.get p
def modPort (s : State) (p : Fin 2) (f : PortS → PortS) : State :=
  { s with ring := { s.ring with ports := s.ring.ports.set p (f (s.ring.ports.get p)) } }
def modRing (s : State) (f : RingS → RingS) : State := { s with ring := f s.ring }

def portState (s : State) (p : Fin 2) : Nat := s.rd (K.PORT_STATE p)
def portUp (s : State) (p : Fin 2) : Bool := s.portState p == 4
def saUp (s : State) : Bool := s.portUp 0
def sbUp (s : State) : Bool := s.portUp 1

/-- The opposite port. -/
def other (p : Fin 2) : Fin 2 := if p = 0 then 1 else 0

/-- Where what arrives on a port leaves: the opposite port, or the same one at a wrap (R346). -/
def outOf (s : State) (p : Fin 2) : Fin 2 := if s.portUp (other p) then other p else p

def ringAddr (s : State) : Nat := s.rd K.RING_ADDR
def ringOwnerIs (s : State) (src : Nat) : Bool := s.rd K.RING_OWNER_EPOCH != 0 && src == 0xC0 + s.rd K.RING_OWNER_HOST

/-- A port sends `x`, in code groups that follow the running disparity (R336). -/
def setTx (s : State) (q : Fin 2) (x : RingTx) : State :=
  s.modPort q fun o =>
    let g := ringGroups x (Config.fillDisparity s.now o.disp)
    { o with tx := x, line := g.1, disp := g.2 }

/-! ## Own frames -/

/-- Is a frame the reply to an accepted RESET (R361)? -/
def isResetGo (f : RingFrame) : Bool := f.typ == 0x08 && byteAt f.data 0 == 0

/-- A TOKEN leaves, and after it the TOPO that is due (R346). -/
def sendToken (s : State) (q : Fin 2) : State :=
  match (s.port q).topoDue with
  | some w => (s.modPort q fun o => { o with topoDue := none }).setTx q (.tokenTopo w)
  | none => s.setTx q .token

/-- A TOPO that a collision put off leaves at the end of the frame that passed. -/
def sendTopo (s : State) (q : Fin 2) : State :=
  match (s.port q).topoDue with
  | some w => (s.modPort q fun o => { o with topoDue := none }).setTx q (.topo w)
  | none => s

/-- An own frame reaches its EOF: counted, a TOKEN follows. -/
def ringEof (s : State) (q : Fin 2) : State :=
  match (s.port q).flight with
  | some (f, _) =>
    let s1 := if isResetGo f then s.modRing fun r => { r with resetGo := true } else s
    ((s1.incSat K.RING_TX_FRAMES).modPort q fun o => { o with flight := none }).sendToken q
  | none => s

/-- Frames whose last code group has left by now. -/
def ringTick (s : State) : State :=
  forAll (allFin 2) (fun q s =>
    match (s.port q).flight with
    | some (_, e) => if e ≤ s.now then s.ringEof q else s
    | none => s) s

/-- An own frame on its way is lost with its port; a reset whose reply it was does not start (R361). -/
def flightLost (s : State) (p : Fin 2) : State :=
  match (s.port p).flight with
  | some (f, _) =>
    (s.modPort p fun o => { o with flight := none }).modRing fun r =>
      { r with resetPend := r.resetPend && (!isResetGo f || r.queue.any isResetGo) }
  | none => s

/-! ## Wraps and clocks (R337, R343, R346) -/

/-- The status bits and clocks that the UP ports give. -/
def ringShow (s : State) : State :=
  let a := s.saUp
  let b := s.sbUp
  let s1 := ((((s.wrBit K.RING_STATUS 0 a).wrBit K.RING_STATUS 1 b).wrBit K.RING_STATUS 2 (!a && b)).wrBit K.RING_STATUS 3 (a && !b)).wrBit
    K.RING_STATUS 5 (b && !a)
  (s1.wr (K.PORT_CLOCK 0) (if a && b then 1 else if a then 2 else 0)).wr (K.PORT_CLOCK 1) (if a && b then 1 else 0)

/-- Follow the set of UP ports after a change: loop rate, status, TOPO on each UP port, at the end of an own frame that is on its way there,
RING_WRAP_CHG; what a port that left UP was sending is lost. -/
def ringFollow (s0 : State) (f : State → State) : State :=
  let s := s0.ringTick
  let s1 := f s
  let a := s1.saUp
  let b := s1.sbUp
  if s.saUp == a && s.sbUp == b then s1
  else
    let s2 := s1.ringShow
    let s3 := if (a && !s.saUp) || (b && !s.sbUp) then
        s2.wr K.RING_LOOP_RATE (0x80 + s2.rd (K.PORT_RATE (if a && !s.saUp then 0 else 1))) else s2
    let cut (p : Fin 2) : Bool := (allFin 2).any fun i => s.portUp i && (s.port i).passing && s.outOf i == p
    let s4 := forAll (allFin 2) (fun p s =>
      let w := !(a && b)
      (if s.portUp p then
        let s2 := s.modPort p fun o => { o with loopValid := true }
        if (s.port p).flight.isSome then s2.modPort p fun o => { o with topoDue := some w }
        else (s2.modPort p fun o => { o with topoDue := none }).setTx p (if cut p then .cutTopo w else .topo w)
      else ((s.flightLost p).modPort p fun o => { o with topoDue := none }).setTx p .idle).modPort p fun o => { o with passing := false }) s3
    let s5 := s4.modRing fun r =>
      { r with queue := r.queue.filter fun q => match q.out with | some p => s4.portUp p | none => true }
    let wraps (x : State) : Bool × Bool := (!x.saUp && x.sbUp, x.saUp && !x.sbUp)
    if wraps s == wraps s1 then s5 else s5.raise Src.RING_WRAP_CHG

/-- The TARGET of R342: none where both ends have been in loops of different rates. -/
def ownTarget (s : State) (p : Fin 2) (d : Nat) : Option Nat :=
  let own := field (s.rd K.RING_LOOP_RATE) 1 0
  match (s.port p).loopValid, d.testBit 3 with
  | false, false => some 0
  | false, true => some (field d 5 4)
  | true, false => some own
  | true, true => if own = field d 5 4 then some own else none

/-- The LINK data byte of a port (Table 12-3); the partner's loop is that of its last LINK. -/
def linkByte (s : State) (p : Fin 2) (agree : Bool) : Nat :=
  let target := (s.ownTarget p (s.rd (K.PORT_PARTNER p))).getD (Config.heldTarget s.now).toNat
  64 * (s.port p).maxRate + 16 * field (s.rd K.RING_LOOP_RATE) 1 0 + (if (s.port p).loopValid then 8 else 0) + 2 * target +
    (if agree then 1 else 0)

def sendLink (s : State) (p : Fin 2) (agree : Bool) : State := s.setTx p (.link (s.linkByte p agree))

/-- The last LINK this port sent carried AGREE. -/
def agreeSent (s : State) (p : Fin 2) : Bool :=
  match (s.port p).tx with
  | .link d => d.testBit 0
  | _ => false

/-- RATE_MISMATCH follows the ports that are held (R342). -/
def showHeld (s : State) : State := s.wrBit K.RING_STATUS 4 ((s.port 0).held || (s.port 1).held)

/-- A port's state and rate; leaving TRAIN ends a hold. In TRAIN it sends LINK and IDLE, in the other states IDLE until it is
UP. -/
def portTo (s : State) (p : Fin 2) (st rate : Nat) : State :=
  s.ringFollow fun s =>
    let s1 := (((s.wr (K.PORT_STATE p) st).wr (K.PORT_RATE p) rate).modPort p fun o =>
      { o with same := 0, held := false, atTarget := st = 2 && o.byGo, goIn := false, viols := [], passing := false, cut := false
               maxRate := if st = 2 then s.rd K.RING_RATE_MAX else o.maxRate }).showHeld
    if st = 2 then s1.sendLink p false else s1.setTx p .idle

/-- Counter of a port: `sub` is SA's, the next SB's (Table 12-11). -/
def countPort (s : State) (p : Fin 2) (sub : Nat) : State := s.incSat ⟨.dev, 0x2030, sub + p.val⟩

/-! ## Links (Table 12-4, R341 to R345) -/

/-- `PORT_ADMIN` (Table 12-4). -/
def portAdmin (s : State) (p : Fin 2) (v : Nat) : State :=
  let s1 := s.wr (K.PORT_ADMIN p) v
  if v = 0 then (s1.modPort p fun o => { o with byGo := false }).portTo p 0 0
  else if s.portState p = 0 then s1.portTo p 1 0 else s1

/-- 16 consecutive clean ordered sets: DOWN to TRAIN; at the TARGET, TRAIN to VERIFY. -/
def linkDetect (s : State) (p : Fin 2) : State :=
  if s.portState p = 1 then (s.modPort p fun o => { o with byGo := false }).portTo p 2 0
  else if s.portState p = 2 && (s.port p).atTarget then s.portTo p 3 (s.rd (K.PORT_RATE p))
  else s

/-- A LINK with data byte `d` (R342): its TARGET is compared with the own one; held, with AGREE 0, where the hop may not take
it; own AGREE sent and the partner's received: the rate switches. The port answers with its next LINK. -/
def linkSet (s : State) (p : Fin 2) (d : Nat) : State :=
  let st := s.portState p
  if st = 0 || st = 5 then s
  else
    let s1 := s.wr (K.PORT_PARTNER p) d
    if st != 2 || (s.port p).atTarget || (s.port p).byGo then s1
    else
      let ok := match s.ownTarget p d with
        | some t => if t ≤ (s.port p).maxRate && t ≤ field d 7 6 then some t else none
        | none => none
      match ok with
      | none =>
        let s2 := (s1.modPort p fun o => { o with held := true, same := 0 }).showHeld.sendLink p false
        if (s.port p).held then s2 else s2.raise Src.RING_RATE_FAIL
      | some t =>
        let same := if field d 2 1 = t then (s.port p).same + 1 else 0
        let s2 := (s1.modPort p fun o => { o with held := false, same := same }).showHeld.sendLink p (64 ≤ same)
        if 64 ≤ same && s.agreeSent p && d.testBit 0 then (s2.wr (K.PORT_RATE p) t).modPort p fun o => { o with atTarget := true } else s2

/-- 2^20 symbols in TRAIN: DOWN; a held hop stays (R342). -/
def trainTimeout (s : State) (p : Fin 2) : State :=
  if s.portState p = 2 && !(s.port p).held then (s.modPort p fun o => { o with byGo := false }).portTo p 1 0 else s

/-- 2^16 clean code groups in VERIFY: UP. -/
def verifyPass (s : State) (p : Fin 2) : State :=
  if s.portState p = 3 then
    ((s.modPort p fun o => { o with byGo := false }).portTo p 4 (s.rd (K.PORT_RATE p))).raise Src.RING_PORT_CHG
  else s

/-- UP to DOWN: counted, RING_PORT_CHG. -/
def linkDown (s : State) (p : Fin 2) : State := ((s.portTo p 1 0).countPort p 3).raise Src.RING_PORT_CHG

/-- The arriving frame on a port is over. -/
def frameOver (s : State) (p : Fin 2) : State := s.modPort p fun o => { o with passing := false, cut := false }

/-- A code violation (R340, Table 12-4): counted; a frame it falls in is void, and counted once; VERIFY fails; in UP the eighth within 2^16 code
groups takes the port down. -/
def codeViolation (s : State) (p : Fin 2) (inFrame : Bool) : State :=
  let st := s.portState p
  if st = 0 || st = 5 then s
  else
    let s1 := when_ (inFrame && st == 4 && !(s.port p).cut)
      (fun s => (s.incSat K.RING_ABORTED).modPort p fun o => { o with cut := true }) (s.countPort p 1)
    if st = 3 then
      let s2 := ((s1.modPort p fun o => { o with byGo := false }).portTo p 1 0).countPort p 5
      if (s.port p).byGo then s2.raise Src.RING_RATE_FAIL else s2
    else if st = 4 then
      let win := symbolsCc (10 * 2 ^ 16) (s.rd (K.PORT_RATE p))
      let v := s.now :: (s.port p).viols.filter fun t => s.now < t + win
      if 8 ≤ v.length then s1.linkDown p else s1.modPort p fun o => { o with viols := v }
    else s1

/-- RXC without an edge for 64 symbols. -/
def rxcLoss (s : State) (p : Fin 2) : State := if s.portUp p then s.linkDown p else s

/-- RATE_GO of code `x` on a port (R345). With a RATE_SET of that code accepted within 100 ms it leaves at the old rate, the output it leaves
on and the input it came by switch, and both ports train at the new rate; the other direction's RATE_GO, which comes by the port whose input
waits for it, leaves on the output that waits. Any other passes. -/
def rateGo (s : State) (p : Fin 2) (x : Nat) : State :=
  if (s.port p).goIn && s.portState p = 2 then
    if s.rd (K.PORT_RATE p) = x then (s.modPort p fun o => { o with goIn := false, atTarget := true }).setTx (other p) (.rateGo x)
    else s.setTx (other p) (.rateGo x)
  else if !s.portUp p then s
  else
    let act := match s.ring.rateSet with
      | some (c, t) => c == x && s.now ≤ t + 175781250
      | none => false
    let s1 := s.setTx (s.outOf p) (.rateGo x)
    if !act then s1
    else
      let s2 := (s1.modRing fun r => { r with rateSet := none }).ringFollow fun s =>
        forAll (allFin 2) (fun q s =>
          if s.portUp q then
            ((s.wr (K.PORT_STATE q) 2).wr (K.PORT_RATE q) x).modPort q fun o =>
              { o with byGo := true, atTarget := q = p, goIn := q != p, same := 0, held := false, viols := [], maxRate := s.rd K.RING_RATE_MAX }
          else s) s
      ((s2.setTx (s.outOf p) (.rateGo x)).wr K.RING_LOOP_RATE (withField (s2.rd K.RING_LOOP_RATE) 1 0 x)).raise Src.RING_RATE_CHG

/-! ## Medium access (R348, R349, R362) -/

/-- The destination of EVENTs (R362). -/
def eventDest (s : State) : Option Nat :=
  match s.rd K.RING_EVENT_DEST with
  | 0x00 => if s.rd K.RING_OWNER_EPOCH = 0 then none else some (0xC0 + s.rd K.RING_OWNER_HOST)
  | 0xFE => none
  | d => some d

/-- A frame is sent on port `q`, SOF in place of the TOKEN at the hop latency; T_DEP of a BEACON is that instant (R354). -/
def ringSend (s : State) (q : Fin 2) (f : RingFrame) : State :=
  let c := s.rd (K.PORT_RATE q)
  let f1 : RingFrame := if f.typ = 0x30 then
      { f with data := be 8 uid ++ be 12 (time96 (counterAdd s.time.counter (fsUnits (hopFs c)))) ++ leBytes 8 0 } else f
  let bytes := ringBytes f1.dest s.ringAddr (f1.seq.getD s.ring.seq) f1.typ f1.data
  ((s.modPort q fun o => { o with flight := some (f1, s.now + symbolsCc (48 + 10 * (bytes.length + 2)) c) }).setTx q (.frame bytes)).modRing
    fun r => { r with seq := if f1.seq.isSome then r.seq else (r.seq + 1) % 256 }

/-- The EVENT that is due: the outstanding one again, or a new one with the next EVSEQ (R362). -/
def eventDue (s : State) : Option (RingFrame × State) :=
  match s.ring.event with
  | some e =>
    if e.again then
      some ({ dest := e.dest, typ := 0x20, data := e.data }, s.modRing fun r => { r with event := some { e with again := false } })
    else none
  | none =>
    match s.eventDest with
    | none => none
    | some d =>
      if s.ring.rose = 0 then none
      else
        let s1 := s.incWrap K.RING_EVENT_SEQ
        let n := s1.rd K.RING_EVENT_SEQ
        let data := be 4 n ++ be 4 s.summary ++ be 4 s.ring.rose ++ be 12 s.ring.roseTime
        some ({ dest := d, typ := 0x20, data := data }, s1.modRing fun r =>
          { r with rose := 0, roseTime := 0, event := if d = 0xFF then none else some ⟨n, d, data, r.rose, r.roseTime, 0, false⟩ })

/-- May a frame leave on port `q`: a BEACON on its own port, others in direction A, or in B at a wrap with SA not UP? -/
def mayLeave (s : State) (q : Fin 2) (f : RingFrame) : Bool :=
  match f.out with
  | some o => o == q
  | none => q == 0 || !s.saUp

/-- A TOKEN arrives on a port (R348): captured to send the EVENT that is due, or the oldest own frame of this direction;
else it passes. -/
def ringTokenAt (s0 : State) (p : Fin 2) : State :=
  let s := s0.ringTick.frameOver p
  let q := s.outOf p
  if !s.portUp p || (s.port q).flight.isSome then s
  else if s.ringAddr = 0 then s.sendToken q
  else
    match (if q == 0 || !s.saUp then s.eventDue else none) with
    | some (f, s1) => s1.ringSend q f
    | none =>
      match s.ring.queue.find? (s.mayLeave q) with
      | some f => (s.modRing fun r => { r with queue := r.queue.erase f }).ringSend q f
      | none => s.sendToken q

/-- SOF arrives (R348): the own frame in its way ends with ABORT and is sent again at the next TOKEN. -/
def ringSof (s0 : State) (p : Fin 2) : State :=
  let s := s0.ringTick.modPort p fun o => { o with passing := s0.portUp p, cut := false }
  let q := s.outOf p
  if !s.portUp p then s
  else match (s.port q).flight with
    | some (f, _) =>
      ((((s.modPort q fun o => { o with flight := none }).setTx q .abort).modRing fun r => { r with queue := f :: r.queue }).incSat
        K.RING_COLLISION).raise Src.RING_COLLISION
    | none => s.setTx q .through

def tokenLoss (s : State) (p : Fin 2) : State :=
  if s.portUp p then (s.incSat K.RING_TOKEN_LOSS).raise Src.RING_TOKEN_LOSS else s

/-- TOPO passes. -/
def topoAt (s : State) (p : Fin 2) (wrapped : Bool) : State := if s.portUp p then s.setTx (s.outOf p) (.topo wrapped) else s

/-- Queue an own frame; a device without an address sends none (R352). -/
def ringOffer (s : State) (f : RingFrame) : State :=
  if s.ringAddr = 0 then s else s.modRing fun r => { r with queue := r.queue ++ [f] }

/-! ## Arrival of frames (R353) -/

def ringFate (s : State) (dest src : Nat) : RingFate :=
  let own := s.ringAddr
  if src = own && own != 0 then .strip
  else if dest = own && own != 0 then .absorb
  else if dest = 0xFF then .both
  else .forward

/-- A good frame: stripped, absorbed or forwarded (`pass` is what leaves where it is forwarded), and delivered; a host's
type from another address is counted and dropped. One that a code violation cut is void: it is not delivered, and passes as it came
(R340). -/
def ringFrame (s0 : State) (p : Fin 2) (h : RingHead) (host : Bool) (pass : RingTx) (f : State → State) : State :=
  let s := s0.frameOver p
  if !s.portUp p then s
  else
    let q := s.outOf p
    let dest := h.dest.toNat
    let src := h.src.toNat
    let cut := (s0.port p).cut
    let deliver (s : State) : State :=
      if cut then s else if host && !isHostAddr src then s.incSat K.RING_UNKNOWN_TYPE else f (s.incSat K.RING_RX_FRAMES)
    let send (x : RingTx) : State := (s.setTx q (if cut && x != .idle then .through else x)).sendTopo q
    match s.ringFate dest src with
    | .strip => if dest = 0xFF then send .idle else (send .idle).incSat K.RING_UNDELIVERED
    | .absorb => deliver (send .idle)
    | .both => deliver (send pass)
    | .forward => send pass

/-- The counter of the test of R353 that a whole frame fails. -/
def ringBad (bytes : List Byte) : Option Key :=
  let b (i : Nat) : Nat := byteAt bytes i
  let n := bytes.length
  let len := 256 * b 4 + b 5
  let typ := b 3
  let known := (ringLen typ).isSome || typ = 0x10 || typ = 0x11
  if n < 10 then some K.RING_LEN_ERR
  else if crc32 (bytes.take (n - 4)) != beNat (bytes.drop (n - 4)) then some K.RING_CRC_ERR
  else if 256 < len || len + 10 != n || (match ringLen typ with | some m => m != len | none => false) then some K.RING_LEN_ERR
  else if !known || (ringHostType typ && !isHostAddr (b 1)) then some K.RING_UNKNOWN_TYPE
  else none

/-- A whole frame that was delivered, or failed a test: counted; the rises of `RING_CRC_ERR` are kept for a second (R363). -/
def ringCount (s : State) (bytes : List Byte) : State :=
  let k := (ringBad bytes).getD K.RING_RX_FRAMES
  let s1 := s.incSat k
  if k = K.RING_CRC_ERR then s1.modRing fun r => { r with crcAt := s.now :: r.crcAt.filter fun t => s.now < t + ccPerSecond } else s1

/-- A frame is judged on its bytes (R353), and counted; `void`: it ended with ABORT, which counts wherever the frame goes, as a code
violation in it has (R363). -/
def ringArrival (s0 : State) (p : Fin 2) (bytes : List Byte) (void : Bool) : State :=
  let s := s0.frameOver p
  if !s.portUp p then s
  else
    let q := s.outOf p
    let b (i : Nat) : Nat := byteAt bytes i
    let n := bytes.length
    let cut := (s0.port p).cut
    let judge (s : State) : State := if void || cut then s else s.ringCount bytes
    let send (x : RingTx) : State := when_ (void && !cut) (fun s => s.incSat K.RING_ABORTED) ((s.setTx q x).sendTopo q)
    if n < 2 then judge (send .through)
    else match s.ringFate (b 0) (b 1) with
      | .strip => if b 0 = 0xFF then send .idle else (send .idle).incSat K.RING_UNDELIVERED
      | .absorb => judge (send .idle)
      | .both => judge (send .through)
      | .forward => send .through

/-- Queue a reply to the sender of a request. -/
def ringReply (s : State) (h : RingHead) (typ : Nat) (data : List Byte) : State :=
  s.ringOffer { dest := h.src.toNat, typ := typ, data := data }

/-! ## Enumeration (R357) -/

def enumReply (s : State) : List Byte :=
  be 8 uid ++ be 1 s.ringAddr ++ be 1 (s.portState 0 * 16 + s.portState 1) ++ be 1 (s.rd K.RING_RATE_MAX) ++
  be 1 (s.rd K.RING_LOOP_RATE) ++ be 4 (s.rd K.RING_OWNER_EPOCH) ++ be 1 (s.rd K.RING_OWNER_HOST) ++ be 3 0

/-- An address is taken: RING_ENUM where it changed, ENUM_REPLY; 0x00 for a ring that is too long. -/
def takeAddr (s : State) (h : RingHead) (hops : Nat) : State :=
  let a := if hops < 64 then hops + 1 else 0
  let s1 := (s.wr K.RING_ADDR a).wrBit K.RING_STATUS 8 (a = 0)
  let s2 := if a = 0 then s1.raise Src.RING_ENUM_OVERFLOW else s1.ringReply h 0x02 s1.enumReply
  if a = s.ringAddr then s2 else s2.raise Src.RING_ENUM

/-- ENUM: counted on in direction A, where the device may take its address. -/
def enumAt (s : State) (p : Fin 2) (h : RingHead) (hops rsv : Nat) (epoch : Nat) : State :=
  let dirA := p = 1 || !s.sbUp
  let pass : RingTx := if dirA then
      .frame (ringBytes h.dest.toNat h.src.toNat h.seq.toNat 0x01 (be 1 (if hops < 64 then hops + 1 else 64) ++ be 1 rsv ++ be 4 epoch))
    else .through
  s.ringFrame p h true pass fun s =>
    if rsv != 0 then s.incSat K.RING_UNKNOWN_TYPE
    else if dirA && (s.ringOwnerIs h.src.toNat || s.rd K.RING_OWNER_EPOCH = 0) then s.takeAddr h hops
    else s

/-! ## Ownership (R358 to R360) -/

/-- C > O: by EPOCH, then by host ID. -/
def claimAbove (s : State) (epoch host : Nat) : Bool :=
  s.rd K.RING_OWNER_EPOCH < epoch || (s.rd K.RING_OWNER_EPOCH == epoch && s.rd K.RING_OWNER_HOST < host)

def claimReply (s : State) (h : RingHead) (result : Nat) : State :=
  s.ringReply h 0x04 (be 1 result ++ be 1 (s.rd K.RING_OWNER_HOST) ++ be 4 (s.rd K.RING_OWNER_EPOCH) ++ be 8 uid)

/-- A requester's open group is cancelled (R392); `cause` as Table 14-12, kind 0x07. -/
def groupLost (s : State) (r : Fin 18) (cause : Nat) : State :=
  if (s.req r).group.isSome then
    ((s.modReq r fun q => { q with group := none, lost := true }).incSat K.OD_GROUPS_LOST).record 0x07 r.val (be 1 cause)
  else s

/-- O becomes C; the owner that another host displaces loses its open group (R392). -/
def adopt (s : State) (epoch host : Nat) : State :=
  let s1 := (s.wr K.RING_OWNER_EPOCH epoch).wr K.RING_OWNER_HOST host
  let oh := s.rd K.RING_OWNER_HOST
  if h : oh < 16 then (if oh = host then s1 else s1.groupLost ⟨oh, by omega⟩ 3) else s1

/-- Table 12-8. -/
def claimJudge (s : State) (h : RingHead) (epoch flags rsv : Nat) : State :=
  let host := h.src.toNat - 0xC0
  let oe := s.rd K.RING_OWNER_EPOCH
  let oh := s.rd K.RING_OWNER_HOST
  let same := oe = epoch && oh = host
  if flags / 2 != 0 || rsv != 0 then s.claimReply h 1
  else if epoch = 0 then s.claimReply h 2
  else if flags = 0 then
    if s.claimAbove epoch host || same then
      let s1 := ((s.adopt epoch host).wrBit K.RING_STATUS 6 false).wrBit K.RING_STATUS 7 false
      let s2 := if host = oh then s1 else (s1.wr K.RING_OWNER_WRITES 0).raise Src.RING_CLAIM
      s2.claimReply h 0
    else (s.incSat K.RING_CLAIM_REFUSED).claimReply h 1
  else if same then s
  else if s.claimAbove epoch host then
    if host = oh then s.adopt epoch host
    else
      let w := s.rd K.RING_OWNER_WRITES
      let s1 := if w = 0 then s else
        (s.record 0x05 0xFF (be 4 oe ++ be 1 oh ++ be 4 epoch ++ be 1 host ++ be 4 w)).wrBit K.RING_STATUS 7 true
      ((((s1.adopt epoch host).wr K.RING_OWNER_WRITES 0).wrBit K.RING_STATUS 6 true).raise Src.OWNERSHIP_CONFLICT).raise Src.RING_CLAIM
  else
    (((s.wr K.RING_RIVAL_EPOCH epoch).wr K.RING_RIVAL_HOST host).wrBit K.RING_STATUS 6 true).raise Src.OWNERSHIP_CONFLICT

/-! ## Rate, reset, events (R345, R361, R362) -/

def rateSetAt (s : State) (h : RingHead) (target rsv : Nat) : State :=
  if !s.ringOwnerIs h.src.toNat then s
  else
    let ok := target ≤ s.rd K.RING_RATE_MAX && target ≤ 3 && rsv = 0
    let s1 := if ok then s.modRing fun r => { r with rateSet := some (target, s.now) } else s
    s1.ringReply h 0x06 (be 1 (if ok then 0 else 1) ++ be 1 (s.rd K.RING_RATE_MAX) ++ be 8 uid)

def resetAt (s : State) (h : RingHead) (target kind rsv : Nat) : State :=
  if target != uid then s
  else
    let ok := s.ringOwnerIs h.src.toNat && kind = 0 && rsv = 0 && s.ringAddr != 0
    let s1 := if ok then s.modRing fun r => { r with resetPend := true } else s
    s1.ringReply h 0x08 (be 1 (if ok then 0 else 1) ++ be 1 0 ++ be 8 uid)

/-- EVENT_ACK of the outstanding EVENT ends it. -/
def eventAck (s : State) (seq : Nat) : State :=
  match s.ring.event with
  | some e => if e.seq = seq then s.modRing fun r => { r with event := none } else s
  | none => s

/-- 1 ms without an acknowledgement: again, at most 3 times; then abandoned, its ROSE passes on. -/
def eventRetry (s0 : State) : State :=
  let s := s0.ringTick
  match s.ring.event with
  | none => s
  | some e =>
    if s.ringAddr = 0 || e.again then s
    else if e.retries < 3 then s.modRing fun r => { r with event := some { e with retries := e.retries + 1, again := true } }
    else
      ((s.modRing fun r => { r with event := none, rose := r.rose ||| e.rose, roseTime := e.time }).incSat K.RING_EVENT_LOST).raise
        Src.RING_EVENT_UNACKED

/-- The EOF of the reply to an accepted RESET has left. -/
def resetReplied (s : State) : Bool :=
  let left (p : Fin 2) : Bool := match (s.port p).flight with
    | some (f, e) => isResetGo f && e ≤ s.now
    | none => false
  s.ring.resetPend && (s.ring.resetGo || (allFin 2).any left)

def ringClear (s : State) : State := s.clrAll ((List.range 17).map fun i => ⟨.dev, 0x2030, i + 1⟩)

/-- `RING_CNT_ALL`. -/
def ringCntAll (s : State) : List Byte := (List.range 17).flatMap fun i => be 4 (s.rd ⟨.dev, 0x2030, i + 1⟩)

/-- The ring unit starts (R347): the selvage switches open, the ports are in service where `PORT_ADMIN` is 1. -/
def ringStart (s : State) : State :=
  forAll (allFin 2) (fun p s => if s.on (K.PORT_ADMIN p) && s.portState p = 0 then s.portTo p 1 0 else s)
    (s.modRing fun r => { r with selvage := false })

/-! ## Beacons (R296 to R299, R354 to R356) -/

/-- A beacon falls due: one on each UP port, whatever still waits for a TOKEN (R296). -/
def beaconDue (s : State) : State :=
  if s.on K.TIME_RING_BEACON_EN && s.rd K.TIME_RING_PERIOD != 0 && s.running then
    forAll (allFin 2) (fun p s =>
      if s.portUp p then s.ringOffer { dest := 0xFF, typ := 0x30, data := [], out := some p }
      else s) s
  else s

/-- Expected arrival minus the stamp, fs (R297). -/
def beaconErr (s : State) (p : Fin 2) (dep corr stamp : Nat) : Int :=
  unitsFs (counterDiff (ofTime96 dep) stamp) + (corr : Int) + (s.rd (K.TIME_RING_WIRE_FS p.val) : Int)

/-- A follower accepts a beacon (R297, R298): SA is taken again at the first beacon on it. -/
def beaconFollow (s : State) (p : Fin 2) (src dep corr stamp : Nat) : State :=
  let want := s.rd K.TIME_RING_SRC_ID
  if s.on K.TIME_RING_BEACON_EN || !(want = 0 || want = src) || (p = 1 && s.time.port = 0) then s
  else
    let s1 := if p = 0 && s.time.port = 1 then s.beaconSwitch 0 else s
    let e := s1.beaconErr p dep corr stamp
    let s2 := ((s1.wrI K.TIME_RING_LAST_ERR e).incSat K.TIME_RING_BEACONS).modTime fun t => { t with beaconSeen := true, portMiss := 0 }
    if s2.timeSrc = 2 then s2.servoMeasure e stamp else s2

/-- A source's own beacon is back: the loop error (R299). -/
def beaconLoop (s : State) (p : Fin 2) (dep corr stamp : Nat) : State :=
  let e := -(s.beaconErr p dep corr stamp)
  let s1 := s.wrI K.TIME_RING_LOOP_ERR e
  if 500000 < e.natAbs then s1.raise Src.RING_BEACON_FAULT else s1

/-- A BEACON whose SOF was stamped `j` LSYN periods into this cc. `meas`: the difference a retiming point measures (R356). -/
def beaconAt (s : State) (p : Fin 2) (h : RingHead) (src dep corr : Nat) (j meas : Nat) : State :=
  let stamp := counterAdd s.time.counter (subCc j)
  let hop := if s.bit K.RING_STATUS 5 then meas else hopFs (s.rd (K.PORT_RATE p))
  let corr' := (corr + hop + s.rd (K.TIME_RING_WIRE_FS p.val)) % 2 ^ 64
  let pass : RingTx := .frame (ringBytes h.dest.toNat h.src.toNat h.seq.toNat 0x30 (be 8 src ++ be 12 dep ++ leBytes 8 corr'))
  let s1 := s.ringFrame p h false pass fun s => s.beaconFollow p src dep corr stamp
  if s.portUp p && !(s.port p).cut && s.ringFate h.dest.toNat h.src.toNat = .strip && s.on K.TIME_RING_BEACON_EN && src = uid then s1.beaconLoop p dep corr stamp
  else s1

end State

/-! ## Effects of writes -/

def effPortAdmin (p : Fin 2) (v : Nat) (s : State) : State := s.portAdmin p v

def effRingClear (v : Nat) (s : State) : State := if v = 1 then s.ringClear else s

/-! ## Meanings -/

def execBeaconSourceTimer (s : State) : Host.Outcome State Fault Refusal := .next s.beaconDue

def execBeacon (p : Fin 2) (h : RingHead) (src : BitVec 64) (dep : BitVec 96) (corr : BitVec 64) (j : Fin 16) (meas : BitVec 32)
    (s : State) : Host.Outcome State Fault Refusal :=
  .next (s.beaconAt p h src.toNat dep.toNat corr.toNat j.val meas.toNat)

def execPortAdminWrite (r : Fin 18) (p : Fin 2) (v : BitVec 8) (s : State) : Host.Outcome State Fault Refusal :=
  .next (s.write r (K.PORT_ADMIN p) (be 1 v.toNat) (effPortAdmin p v.toNat))

def execRingLinkDetect (p : Fin 2) (s : State) : Host.Outcome State Fault Refusal := .next (s.linkDetect p)
def execLink (p : Fin 2) (d : BitVec 8) (s : State) : Host.Outcome State Fault Refusal := .next (s.linkSet p d.toNat)
def execRingTrainTimeout (p : Fin 2) (s : State) : Host.Outcome State Fault Refusal := .next (s.trainTimeout p)
def execRingVerifyPass (p : Fin 2) (s : State) : Host.Outcome State Fault Refusal := .next (s.verifyPass p)
def execRingCodeViolation (p : Fin 2) (inFrame : Bool) (s : State) : Host.Outcome State Fault Refusal :=
  .next (s.codeViolation p inFrame)
def execRingRxcLoss (p : Fin 2) (s : State) : Host.Outcome State Fault Refusal := .next (s.rxcLoss p)
def execToken (p : Fin 2) (s : State) : Host.Outcome State Fault Refusal := .next (s.ringTokenAt p)
def execSof (p : Fin 2) (s : State) : Host.Outcome State Fault Refusal := .next (s.ringSof p)
def execRingTokenLoss (p : Fin 2) (s : State) : Host.Outcome State Fault Refusal := .next (s.tokenLoss p)
def execRateGo (p : Fin 2) (x : Fin 4) (s : State) : Host.Outcome State Fault Refusal := .next (s.rateGo p x.val)
def execTopo (p : Fin 2) (wrapped : Bool) (s : State) : Host.Outcome State Fault Refusal := .next (s.topoAt p wrapped)

def execEnum (p : Fin 2) (h : RingHead) (hops rsv : BitVec 8) (epoch : BitVec 32) (s : State) : Host.Outcome State Fault Refusal :=
  .next (s.enumAt p h hops.toNat rsv.toNat epoch.toNat)

def execClaim (p : Fin 2) (h : RingHead) (epoch : BitVec 32) (flags rsv : BitVec 8) (s : State) : Host.Outcome State Fault Refusal :=
  .next (s.ringFrame p h true .through fun s => s.claimJudge h epoch.toNat flags.toNat rsv.toNat)

def execRateSet (p : Fin 2) (h : RingHead) (target rsv : BitVec 8) (s : State) : Host.Outcome State Fault Refusal :=
  .next (s.ringFrame p h true .through fun s => s.rateSetAt h target.toNat rsv.toNat)

def execReset (p : Fin 2) (h : RingHead) (target : BitVec 64) (kind rsv : BitVec 8) (s : State) : Host.Outcome State Fault Refusal :=
  .next (s.ringFrame p h true .through fun s => s.resetAt h target.toNat kind.toNat rsv.toNat)

def execEventAck (p : Fin 2) (h : RingHead) (seq : BitVec 32) (s : State) : Host.Outcome State Fault Refusal :=
  .next (s.ringFrame p h true .through fun s => s.eventAck seq.toNat)

def execEventRetryTimer (s : State) : Host.Outcome State Fault Refusal := .next s.eventRetry

/-- Has `RING_CRC_ERR` risen by the threshold or more within the last second (R363)? -/
def State.crcAlarmDue (s : State) : Bool :=
  let thr := s.rd K.RING_CRC_THR
  thr != 0 && thr ≤ (s.ring.crcAt.filter fun t => s.now < t + ccPerSecond).length

def execRingCrcAlarm (s : State) : Host.Outcome State Fault Refusal := .next (if s.crcAlarmDue then s.raise Src.RING_CRC_ALARM else s)

def execRingClear (r : Fin 18) (v : BitVec 8) (s : State) : Host.Outcome State Fault Refusal :=
  .next (s.write r K.RING_CLEAR (be 1 v.toNat) (effRingClear v.toNat))

end Sys2Proof.Machine
end

