-- ==== Sys2Proof/Machine/SelfTest.lean ====
section
/-!
DEFINITION. The targets of self-test (Table 17-1), the running test's cycles and remaining time, and its end
(R499, R502, R503, R506, R510). The commands stand in Bist.lean.
-/

namespace Sys2Proof.Machine

namespace Bist

/-- The target code (Table 17-1). -/
def code : BistTarget → Nat
  | .lane n => 0x10 + n.val
  | .pg k => 0x20 + k.val
  | .engine => 0x30
  | .sram => 0x31
  | .bank b => 0x40 + b.val
  | .keyStore => 0x50
  | .otp => 0x51
  | .rom => 0x52

/-- The target of a code. -/
def ofCode (v : Nat) : Option BistTarget :=
  if h : 0x10 ≤ v ∧ v < 0x20 then some (.lane ⟨v - 0x10, by omega⟩)
  else if h : 0x20 ≤ v ∧ v < 0x24 then some (.pg ⟨v - 0x20, by omega⟩)
  else if v = 0x30 then some .engine
  else if v = 0x31 then some .sram
  else if h : 0x40 ≤ v ∧ v < 0x48 then some (.bank ⟨v - 0x40, by omega⟩)
  else if v = 0x50 then some .keyStore
  else if v = 0x51 then some .otp
  else if v = 0x52 then some .rom
  else none

/-- Words of 72 bits. -/
def words : BistTarget → Nat
  | .lane _ => 10240
  | .pg _ => 16384
  | .engine => 36864
  | .sram => 131072
  | .bank _ => 1024
  | .keyStore => 512
  | .otp => 128
  | .rom => 16384

/-- Fabric cycles per word. -/
def opsPerWord : BistTarget → Nat
  | .lane _ | .pg _ | .engine => 15
  | .sram => 22
  | .bank _ | .keyStore => 10
  | .otp => 128
  | .rom => 1

/-- A test of N operations ends after exactly N + 8 fabric cycles (R499). -/
def expected (t : BistTarget) : Nat := words t * opsPerWord t + 8

/-- The memory's place in `REPAIR_STATE`, for a memory with spares. -/
def mem : BistTarget → Option Nat
  | .lane n => some n.val
  | .pg k => some (16 + k.val)
  | .engine => some 20
  | .sram => some 21
  | _ => none

/-- Spare rows of a memory of `REPAIR_STATE`. -/
def spares (m : Nat) : Nat := if m < 20 then 4 else if m = 20 then 8 else 32

/-- The units that hold a target (R506). -/
def holders : BistTarget → List (Fin 22)
  | .lane n => [laneUnit n]
  | .pg k => [pgUnit k]
  | .engine => [20]
  | .sram | .keyStore => [21]
  | .bank b => State.unitsOfBank b.val
  | .otp | .rom => []

end Bist

/-- µs of a number of cc, rounded up. -/
def ccToUsUp (cc : Nat) : Nat := (cc * 1000000 + ccPerSecond - 1) / ccPerSecond

namespace State

def modBist (s : State) (f : BistS → BistS) : State := { s with bist := f s.bist }

/-- Fabric cycles (4 cc) that the running test has run. -/
def bistCycles (s : State) (t : BistTarget) : Nat := min (Bist.expected t) ((s.now - s.bist.startCc) / 4)

/-- `BIST_REMAIN_US`. -/
def bistRemain (s : State) : Nat :=
  match s.bist.running with
  | none => 0
  | some t => ccToUsUp (4 * Bist.expected t - (s.now - s.bist.startCc))

/-- A test holds the unit (R506). -/
def unitTested (s : State) (u : Fin 22) : Bool :=
  match s.bist.running with
  | none => false
  | some t => (Bist.holders t).contains u

/-- The result of the latest test: 0 NONE, 1 RUNNING, 2 PASS, 3 PASS_REPAIRED, 4 FAIL, 5 ABORTED. -/
def bistResult (s : State) : Nat := field (s.rd K.BIST_STATUS) 19 16

/-- A test ends (R510): result, abort cause, DONE; SIG_MATCH as the registers stand. -/
def bistEnd (s : State) (t : BistTarget) (result cause : Nat) : State :=
  let m := s.rd K.BIST_SIGNATURE == s.rd K.BIST_SIG_EXPECTED
  let st := Bist.code t * 2 ^ 24 + result * 2 ^ 16 + cause * 2 ^ 8 + (if result = 5 then 0 else 2) + (if m then 1 else 0)
  let s1 := ((s.wr K.BIST_STATUS st).incSat K.BIST_RUNS).modBist fun b => { b with running := none }
  let s2 := s1.incSat (if result = 5 then K.BIST_ABORTS else if result = 4 then K.BIST_FAILS else K.BIST_PASSES)
  let s3 := (s2.record 0x70 (Bist.code t) (be 1 result ++ be 1 cause ++ be 4 (s2.rd K.BIST_FAIL_WORDS) ++ be 4 (s2.rd K.BIST_CYCLES))).raise
    Src.BIST_DONE
  let s4 := if result = 4 then s3.raise Src.BIST_FAIL else s3
  match t with
  | .lane n => s4.castStart n
  | .pg k => forAll (lanesOf k) (fun n s => s.castStart n) s4
  | _ => s4

/-- The samples that the test has discarded so far (R505): a lane's ADC takes 128 a cc (Table 2-1); a host receiver, a sample a symbol, takes 64
an hc, or 64 in 18/17 cc, and those that Courn-225 powers down (R129) take none (DESIGN CHOICE, log entry 120). -/
def bistLost (s : State) (t : BistTarget) : Nat :=
  let cc := min (4 * Bist.expected t) (s.now - s.bist.startCc)
  match t with
  | .lane _ => 128 * cc
  | .pg k => 64 * 17 * cc / 18 * ((allFin 32).filter fun m =>
      pgOfHost m == k && !(m.val % 2 == 1 && s.rd (K.LINE_FORMAT (lineOfHost m)) == 2)).length
  | _ => 0

/-- They are counted. -/
def bistDiscard (s : State) (t : BistTarget) : State := s.addSat K.BIST_DISCARDED (s.bistLost t)

/-- `BIST_DISCARDED` as it reads. -/
def bistDiscarded (s : State) : Nat :=
  match s.bist.running, s.bist.failing with
  | some t, none => min (2 ^ 64 - 1) (s.rd K.BIST_DISCARDED + s.bistLost t)
  | _, _ => s.rd K.BIST_DISCARDED

/-- The running test is cut (R503): the cycles and the signature stay as they stand; what the engine had found until then is a
free value. The ROM test compares no word, it only takes a signature (Table 17-1). -/
def bistAbort (s : State) (cause : Nat) : State :=
  match s.bist.running with
  | none => s
  | some t =>
    if s.bist.failing.isSome then s
    else
    let (sig, s1) := (s.wr K.BIST_CYCLES (s.bistCycles t)).fresh
    let (bad, s2) := (s1.wr K.BIST_SIGNATURE sig).fresh
    let (first, s3) := (s2.wr K.BIST_FAIL_WORDS (if t == .rom then 0 else bad % (Bist.words t + 1))).fresh
    let s4 := if s3.rd K.BIST_FAIL_WORDS = 0 then s3 else s3.wr K.BIST_FIRST_FAIL (first % Bist.words t)
    (s4.bistDiscard t).bistEnd t 5 cause

end State

end Sys2Proof.Machine
end

