-- ==== Sys2Proof/Machine/OdBase.lean ====
section
/-!
DEFINITION. Answers to requests (Table 13-7, R374 to R378, R394), the loss of commit groups (R392) and what a core reset
does to the requests it meets (R382). The commands stand in Od.lean.
-/

namespace Sys2Proof.Machine

namespace State

/-- `OD_CORE_LOAD` is the sender's measurement; the typical core service time at the present level, in cc (Table 14-1). -/
def coreTypical (s : State) : Nat := (match s.coreLevel with | 0 => 32 | 1 => 16 | _ => 8) * 1757812500 / 1000000

/-- HINT of a BUSY that finds the queue full (R378), in 10 µs. -/
def queueHint (s : State) (r : Fin 18) : Nat :=
  match (s.req r).queue with
  | [] => 1
  | q :: _ =>
    let typ := if q.core then s.coreTypical else 1024
    let age := s.now - q.at_
    max 1 ((ccToUsUp (if typ ≤ age then typ else typ - age) + 9) / 10)

/-- FLAGS of a response other than OK (Table 13-7): the TOGGLE, and of a WRITE_SEG the LAST, that the request bore. -/
def respFlags (req : List Byte) : Nat :=
  match reqCmd req with
  | 0x04 => byteAt req 2 / 64 * 64
  | 0x05 => byteAt req 2 / 128 * 128
  | _ => 0

/-- A response's first four bytes (Table 13-7), with its body. -/
def respBytes (req : List Byte) (status flags : Nat) (body : List Byte) : List Byte :=
  [BitVec.ofNat 8 status, BitVec.ofNat 8 (reqTag req), BitVec.ofNat 8 (reqCmd req), BitVec.ofNat 8 flags] ++ body

/-- A response leaves: over TWI it waits to be read (R394), over the ring it goes to the requester's host with its tag as
SEQ (R374). -/
def deliver (s : State) (r : Fin 18) (tag : Nat) (resp : List Byte) : State :=
  let s1 := s.modReq r fun q => { q with lastAnswer := resp }
  if r.val = 16 then s1.modOd fun o => { o with twiReady := o.twiReady ++ [resp] }
  else if r.val < 16 then s1.ringOffer { dest := 0xC0 + r.val, typ := 0x11, data := resp, seq := some tag }
  else s1

/-- Send a response (Table 13-7): the request leaves its queue; all but BUSY and BUSY_TEST are cached (R377). -/
def respond (s : State) (r : Fin 18) (req : List Byte) (status flags : Nat) (body : List Byte) : State :=
  let resp := respBytes req status flags body
  let waited := ((s.req r).queue.find? fun q => q.bytes == req).elim 0 fun q => if q.core then ccToUs (s.now - q.at_) else 0
  let s1 := if s.rd K.OD_MAX_RESP_US < waited then s.wr K.OD_MAX_RESP_US waited else s
  let s2 := s1.modReq r fun q =>
    { q with
      queue := q.queue.eraseP fun x => x.bytes == req
      cache := if status = 2 || status = 3 then q.cache
               else (⟨req, resp⟩ :: q.cache.filter fun c => reqTag c.req != reqTag req).take 8 }
  s2.deliver r (reqTag req) resp

/-- Answer a request with its verdict: counted (R375, Table 13-14), with the body of Table 13-7. `hint`: of a BUSY. -/
def answer (s : State) (r : Fin 18) (req : List Byte) (v : Verdict) (hint : Nat := 0xFFFF) : State :=
  let s1 := s.answered r v
  match v with
  | .ok => s1.respond r req 0 0 []
  | .abort a => s1.respond r req 1 (respFlags req) (be 4 a.code)
  | .busy => s1.respond r req 2 (respFlags req) (be 2 hint ++ be 1 (s.rd K.OD_CORE_LOAD))
  | .busyTest => s1.respond r req 3 (respFlags req) (be 4 s.bistRemain)

/-- Answer OK with a body. -/
def answerOk (s : State) (r : Fin 18) (req : List Byte) (flags : Nat) (body : List Byte) : State :=
  (s.answered r .ok).respond r req 0 flags body

/-- BUSY while the core is unavailable (R380): no estimate in recovery, where no skein boots; elsewhere the spec leaves the
estimate open. -/
def answerNoCore (s : State) (r : Fin 18) (req : List Byte) : State :=
  if s.sec.recovery then s.answer r req .busy else s.fresh.2.answer r req .busy (s.fresh.1 % 65536)

/-- The oldest request of a requester that waits for the core, or is being served by it, and its place. -/
def coreHead (s : State) (r : Fin 18) : Option (CoreReq × Nat) := s.od.coreQ.zipIdx.find? fun p => p.1.req == r && p.1.core

/-- A core reset cuts the write that the core was serving before its commit point (CORE_RESET); the requests that waited are answered
BUSY when their turn comes (R380, R382). -/
def odCut (s : State) : State :=
  let cut : Option Nat := match s.od.coreAt with
    | some r => (s.coreHead r).map (·.2)
    | none => none
  forAll (s.od.coreQ.zipIdx.filter (·.1.core))
    (fun p s => if cut = some p.2 then s.answer p.1.req p.1.bytes (.abort .coreReset) else s.answerNoCore p.1.req p.1.bytes)
    (s.modOd fun o => { o with coreQ := o.coreQ.filter fun q => !q.core, coreAt := none })

end State

end Sys2Proof.Machine
end

