-- ==== Sys2Proof/Machine/Optics.lean ====
section
/-!
DEFINITION. Optics control (11_optics_control.md, R304 to R334) and the monitor ADC calibration (R271 to R273): control
frames, the monitor sequencer and its data register, filter chains, loops, aux DACs, optics GPIOs.
-/

namespace Sys2Proof.Machine

/-! ## Arithmetic (R319) -/

/-- a / b rounded half away from zero. -/
def roundAway (a : Int) (b : Nat) : Int :=
  if 0 ≤ a then (2 * a + (b : Int)) / (2 * (b : Int)) else -((2 * -a + (b : Int)) / (2 * (b : Int)))

/-- The whole root of `n`, found bit by bit below `r + 2^bits`. -/
def rootBits (n : Nat) (r : Nat) : Nat → Nat
  | 0 => r
  | b + 1 => rootBits n (if (r + 2 ^ b) * (r + 2 ^ b) ≤ n then r + 2 ^ b else r) b

/-- The nearest integer to the root of s / m. -/
def rootMean (s m : Nat) : Nat := (rootBits (4 * s / m) 0 36 + 1) / 2

/-- g(e) of R320: `g` the table, Δ = 2^shift. -/
def loopGain (g : Nat → Nat) (shift : Nat) (e : Int) : Nat :=
  let d : Int := 2 ^ shift
  if e < -32 * d then g 0
  else if 31 * d ≤ e then g 63
  else
    let k := (e / d + 32).toNat
    let f := e - ((k : Int) - 32) * d
    (roundAway ((g k : Int) * d + f * ((g (k + 1) : Int) - (g k : Int))) (2 ^ shift)).toNat

/-- Region of R321: `b i` is boundary B(i), 1 ≤ i ≤ regions - 1. -/
def loopRegion (b : Nat → Nat) (regions hyst now v : Nat) : Nat :=
  let stays := now < regions && (now = 0 || b now - hyst ≤ v) && (now + 1 = regions || v < b (now + 1) + hyst)
  if stays then now else ((List.range (regions - 1)).filter fun i => b (i + 1) ≤ v).length

/-- The code of an output (R319). -/
def dacCodeOf (u : Nat) : Nat := min 4095 ((u + 8) / 16)

/-- Preset coefficients (Table 11-6). -/
def filtPreset (p : Nat) : List Int :=
  let minPhase (k : Nat) : Nat := (2 * 4096 * 3 ^ k + 4 ^ k) / (2 * 4 ^ k)
  (List.range 16).map fun k =>
    match p with
    | 0 => if k = 0 then 16384 else 0
    | 1 => 1024
    | 2 => if k < 4 then 4096 else 0
    | _ => if k = 0 then 16384 - ((((List.range 15).map fun i => minPhase (i + 1)).foldl (· + ·) 0 : Nat) : Int) else (minPhase k : Int)

/-- The middle value of an odd number of values. -/
def median (l : List Nat) : Nat := ((l.insertionSort (· ≤ ·))[l.length / 2]?).getD 0

/-- FIR output before saturation (R312). -/
def firOut (h : List Int) (m : List Nat) : Int := roundOpen ((List.zipWith (fun a b => a * (b : Int)) h m).foldl (· + ·) 0) 16384

namespace State

def modCe (s : State) (f : CeS → CeS) : State := { s with ce := f s.ce }
def chain (s : State) (e : Fin 64) : ChainS := s.ce.chains.get e
def modChain (s : State) (e : Fin 64) (f : ChainS → ChainS) : State :=
  s.modCe fun c => { c with chains := c.chains.set e (f (c.chains.get e)) }
def loop (s : State) (j : Fin 64) : LoopS := s.ce.loops.get j
def modLoop (s : State) (j : Fin 64) (f : LoopS → LoopS) : State :=
  s.modCe fun c => { c with loops := c.loops.set j (f (c.loops.get j)) }
def modAux (s : State) (a : Fin 48) (f : AuxS → AuxS) : State :=
  s.modCe fun c => { c with auxs := c.auxs.set a (f (c.auxs.get a)) }

/-- The control engine runs (CE_STATUS.RUNNING). -/
def ceRuns (s : State) : Bool := s.bit K.CE_STATUS 0

/-- The first frame whose snapshot sees a value produced now. -/
def newFrame (s : State) : Nat := s.rd K.CE_FRAME + (if s.ce.snapDone then 1 else 0)

/-! ## Monitor data register (R309) -/

/-- A slot starts, its track-and-hold closes: the sampling instant (Table 11-1). -/
def sampleNow (s : State) : State := s.modCe fun c => { c with sampled := s.time.counter }

/-- A result for MON_DATA, `head` its bits above VALID and OVERRUN; its time is the time unit's at the sampling instant. -/
def monLoad (s : State) (head code : Nat) : State :=
  let t := time96 s.ce.sampled
  let ovr := s.bit K.MON_DATA 31
  let s1 := (s.wr K.MON_DATA (2 ^ 31 + (if ovr then 2 ^ 30 else 0) + head + code)).wr K.MON_DATA_TIME t
  if ovr then (s1.incSat K.MON_OVERRUNS).raise (Src.MON 1) else s1.raise (Src.MON 0)

/-- A read clears VALID and OVERRUN. -/
def monTaken (s : State) : State := (s.wrBit K.MON_DATA 31 false).wrBit K.MON_DATA 30 false

/-- `MON_DATA_ALL`. -/
def monAll (s : State) : List Byte := be 4 (s.rd K.MON_DATA) ++ be 12 (s.rd K.MON_DATA_TIME)

/-- A result of 0 or 4,095 (R307). -/
def monClip (s : State) (e : Option Nat) (code : Nat) : State :=
  if code = 0 || code = 4095 then
    let s1 := s.incSat K.MON_CLIPS
    match e with
    | some e => s1.raiseIn (Src.MON 5) K.DET_MON_CLIP e
    | none => s1.raise (Src.MON 5)
  else s

/-! ## Filter chains (R312 to R315) -/

def filtBank (s : State) (e : Fin 64) (b : Bool) : List Int :=
  (List.range 16).map fun i => s.rdI (if b then K.FILT_BANK_B e i else K.FILT_BANK_A e i)

/-- The active bank: A, or B. -/
def filtActive (s : State) (e : Fin 64) : Bool := s.rd (K.FILT_ACTIVE e) == 1

/-- An output of the chain. -/
def chainOut (s : State) (e : Fin 64) (y : Int) : State :=
  let c := clampI 0 65535 y
  let s1 := (((s.wr (K.FILT_OUT e) c.toNat).incWrap (K.FILT_SEQ e)).wrBit (K.FILT_STATE e) 1 false).modChain e fun c =>
    { c with newAt := some s.newFrame }
  if c = y then s1 else (s1.incSat (K.FILT_SATURATED_COUNT e)).raiseIn (Src.MON 9) K.DET_FILT_SATURATED e.val

/-- The end of a crossfade, or a switch without one. -/
def fadeDone (s : State) (e : Fin 64) : State :=
  ((s.modChain e fun c => { c with fade := none }).wrBit (K.FILT_STATE e) 0 false).raiseIn (Src.MON 8) K.DET_FILT_XFADE_DONE e.val

/-- A FIR output; a swap that waits switches the bank at it (R315). -/
def firStep (s : State) (e : Fin 64) : State :=
  let swap := (s.chain e).swap
  let x := s.rd (K.FILT_XFADE_LEN e)
  let s1 := if swap then
      let s2 := (s.wr (K.FILT_ACTIVE e) (1 - s.rd (K.FILT_ACTIVE e))).modChain e fun c => { c with swap := false, fade := if x = 0 then none else some (0, x) }
      if x = 0 then s2.fadeDone e else s2.wrBit (K.FILT_STATE e) 0 true
    else s
  let m := (s1.chain e).meds
  let y := firOut (s1.filtBank e (s1.filtActive e)) m
  match (s1.chain e).fade with
  | none => s1.chainOut e y
  | some (k, x) =>
    let old := firOut (s1.filtBank e (!s1.filtActive e)) m
    let s2 := s1.chainOut e (roundOpen (((x : Int) - (k + 1)) * old + ((k + 1 : Nat) : Int) * y) x)
    if x ≤ k + 1 then s2.fadeDone e else s2.modChain e fun c => { c with fade := some (k + 1, x) }

/-- A median output in settle mode: the mean of a block of N. -/
def settleStep (s : State) (e : Fin 64) (m : Nat) : State :=
  let c := s.chain e
  let n := 2 ^ s.rd (K.FILT_SETTLE_LOG2 e)
  if n ≤ c.blkN + 1 then
    (s.modChain e fun c => { c with blkSum := 0, blkN := 0 }).chainOut e (divOpen ((c.blkSum + m : Nat) : Int) (c.blkN + 1))
  else s.modChain e fun c => { c with blkSum := c.blkSum + m, blkN := c.blkN + 1 }

/-- A result enters the chain. The first after a restart fills the history with copies of itself; in settle mode the first of every block
does, so that an output depends on the results of its own block only (R314). -/
def chainResult (s : State) (e : Fin 64) (code : Nat) : State :=
  let raw := 16 * code
  let c := s.chain e
  let settle := s.rd (K.FILT_MODE e) == 1
  let fill := c.restart || (settle && c.blkN == 0)
  let raws := if fill then List.replicate 7 raw else (raw :: c.raws).take 7
  let med := median (raws.take (2 * s.rd (K.FILT_MEDIAN e) + 1))
  let meds := if fill then List.replicate 16 med else (med :: c.meds).take 16
  let s1 := ((s.wr (K.FILT_RAW e) code).modChain e fun c =>
    { c with raws := raws, meds := meds, restart := false, blkSum := if c.restart then 0 else c.blkSum, blkN := if c.restart then 0 else c.blkN })
  let s2 := if c.restart then s1.wrBit (K.FILT_STATE e) 1 settle else s1
  let thr := s.rd (K.FILT_SPIKE_THR e)
  let s3 := if thr != 0 && thr < ((raw : Int) - (med : Int)).natAbs then
      (s2.incSat (K.FILT_SPIKES e)).raiseIn (Src.MON 7) K.DET_FILT_SPIKE e.val else s2
  if settle then s3.settleStep e med else s3.firStep e

/-! ## Sequencer (R307, R308, R310, R311) -/

/-- A conversion slot of a pass is under way. -/
def slotRuns (s : State) : Bool := s.ce.pass.isSome && !s.ce.hold && s.ce.urgent.isNone

/-- A pass starts: sequence, length and urgent mode are taken; chains whose input changed, or whose entry enters, restart. -/
def passStart (s : State) : State :=
  let l := s.rd K.MON_SEQ_LEN
  let seq := (List.range l).map fun i => s.rd (K.MON_SEQ_ENTRY i)
  let old := s.ce.seq
  let s1 := (s.wr K.MON_PASS_FRAMES ((105 * l + 1023) / 1024)).modCe fun c =>
    { c with seq := seq, urgMode := s.rd K.MON_URGENT_MODE, pass := if l = 0 then none else some 0, passStart := s.now, sampled := s.time.counter }
  let s2 := forAll (allFin 64) (fun e s =>
    match seq[e.val]? with
    | none => s
    | some v =>
      let same := match old[e.val]? with
        | some w => field v 5 0 == field w 5 0 && v.testBit 14 == w.testBit 14
        | none => false
      if same then s else s.modChain e fun c => { c with restart := true }) s1
  s2.wrBit K.MON_STATUS 0 (l != 0)

/-- A slot of the pass ends with a result; while the engine stands, so do sequencer and ADC (R476). -/
def conversionEnd (s : State) (code : Nat) : State :=
  match s.ce.pass with
  | none => s
  | some e =>
    if !s.ceRuns || !s.slotRuns then s
    else
      let v := (s.ce.seq[e]?).getD 0
      let s1 := (s.incSat K.MON_CONVERSIONS).monClip (some e) code
      let s2 := if v.testBit 15 then
          s1.monLoad ((if v.testBit 14 then 2 ^ 28 else 0) + field v 5 0 * 2 ^ 22 + e * 2 ^ 16) code else s1
      let s3 := if h : e < 64 then s2.chainResult ⟨e, h⟩ code else s2
      if e + 1 < s.ce.seq.length then (s3.modCe fun c => { c with pass := some (e + 1) }).sampleNow
      else ((s3.modCe fun c => { c with pass := none }).incSat K.MON_PASSES).wrBit K.MON_STATUS 0 false

/-- Follow URGENT_HELD. -/
def setHeld (s : State) (h : Option Nat) : State := (s.modCe fun c => { c with urgHeld := h }).wrBit K.MON_STATUS 1 h.isSome

def urgentDropped (s : State) : State := (s.incSat K.MON_URGENT_DROPPED).raise (Src.MON 3)

/-- An urgent conversion would end before the next pass start, by the passes' length. -/
def urgentFits (s : State) : Bool := s.now + 16 + 1680 ≤ s.ce.passStart + 16384 * s.rd K.MON_PASS_FRAMES

/-- An urgent request (R272, R310, R311). DESIGN CHOICE (log entry 111): while the ADC stands it is dropped and counted. -/
def urgentReq (s : State) (v : Nat) (fits : Bool) : State :=
  if s.ce.calRun then s.incSat K.MON_CAL_URGENT_REFUSED
  else if !s.ceRuns then s.urgentDropped
  else if s.ce.urgMode = 0 then
    let stopped := s.ce.pass.isNone && s.rd K.MON_PASS_FRAMES = 0
    if s.ce.urgent.isNone && !s.slotRuns && (fits || stopped) then (s.modCe fun c => { c with urgent := some v }).sampleNow
    else s.urgentDropped
  else if s.ce.urgent.isSome then (if s.ce.urgHeld.isSome then s.urgentDropped else s.setHeld (some v))
  else
    let s1 := if s.slotRuns then (s.incSat K.MON_ENTRY_RESTARTED).raise (Src.MON 4) else s
    (s1.modCe fun c => { c with urgent := some v }).sampleNow

/-- An urgent conversion ends; one that is held is served at once, or the interrupted entry is converted from its start (R311). -/
def urgentEnd (s : State) (code : Nat) : State :=
  match (if s.ceRuns then s.ce.urgent else none) with
  | none => s
  | some v =>
    let s1 := ((s.incSat K.MON_CONVERSIONS).monClip none code).monLoad (2 ^ 29 + (if v.testBit 14 then 2 ^ 28 else 0) + field v 5 0 * 2 ^ 22) code
    ((((s1.incSat K.MON_URGENT_SERVED).raise (Src.MON 2)).modCe fun c => { c with urgent := c.urgHeld }).setHeld none).sampleNow

/-- The sequencer and the ADC stop (R476). DESIGN CHOICE (log entry 111): the pass and the urgent conversions end without a result. -/
def monStop (s : State) : State :=
  ((s.modCe fun c => { c with pass := none, urgent := none }).setHeld none).wrBit K.MON_STATUS 0 false

/-! ## Monitor ADC calibration (R271 to R273) -/

def setMonHold (s : State) (b : Bool) : State := (s.modCe fun c => { c with hold := b }).wrBit K.CE_STATUS 1 b

/-- A trigger; while one is running or pending it adds nothing. -/
def monCalTrigger (s : State) : State := if s.ce.calRun then s else s.modCe fun c => { c with calPend := true }

def monCalStart (s : State) : State :=
  if s.ce.calPend && s.ceRuns && s.ce.urgent.isNone then
    ((((s.modCe fun c => { c with calPend := false, calRun := true }).setMonHold true).wrBit K.MON_STATUS 2 true).wr K.MON_CAL_LAST
      s.timeNow).wr K.MON_CAL_TEMP (s.rd (K.TEMP_T 20))
  else s

/-- A calibration ends with a result; the loops stay held until the sequencer resumes. -/
def monCalFinish (s : State) (result : Nat) : State :=
  if s.ce.calRun then
    ((((s.modCe fun c => { c with calRun := false }).wrBit K.MON_STATUS 2 false).incSat K.MON_CAL_COUNT).wr K.MON_CAL_RESULT result).raise
      (Src.MON 6)
  else s

def monCalEnd (s : State) (outOfRange : Bool) : State :=
  if s.ce.calRun then
    let s1 := s.monCalFinish (if outOfRange then 2 else 1)
    if outOfRange then s1.raiseIn Src.FG_CAL_FAIL K.CAL_FG_FAIL_SRC 16 else s1
  else s

/-- A move of T20 by `MON_CAL_DT` or more since the last run triggers one. -/
def monCalDrift (s : State) : State :=
  let d := s.rd K.MON_CAL_DT
  if d != 0 && s.rdI (K.TEMP_T 20) != 0x7FFF && 100 * d ≤ (s.rdI (K.TEMP_T 20) - s.rdI K.MON_CAL_TEMP).natAbs then s.monCalTrigger else s

/-! ## Sources of loops (R317, R318) -/

def srcValue (s : State) (x : Nat) : Nat :=
  if h : x < 64 then s.rd (K.FILT_OUT ⟨x, h⟩)
  else if x < 88 then
    let t := s.rdI (K.TEMP_T (x - 64))
    if t = 0x7FFF then 65535 else (clampI 0 65535 (roundOpen ((t + 5000) * 256) 100)).toNat
  else if h : 128 ≤ x ∧ x < 192 then s.rd (K.LOOP_OUT ⟨x - 128, by omega⟩)
  else 0

/-- The source produced a value between the snapshots of frames `prev` and `cur`. -/
def srcNew (s : State) (x cur : Nat) (prev : Option Nat) : Bool :=
  let seen (a : Option Nat) : Bool :=
    match a with
    | none => false
    | some f => f ≤ cur && (match prev with | some p => p < f | none => true)
  if h : x < 64 then seen (s.chain ⟨x, h⟩).newAt
  else if h : x < 88 then seen (s.ce.tempNew.get ⟨x - 64, by omega⟩)
  else 128 ≤ x && x < 192

/-! ## Repetitive controller (R322) -/

def rcAt (s : State) (j : Fin 64) (i : Nat) : Int := sx 32 (s.rd (K.RC_MEM j) / 2 ^ (32 * (1023 - i)))

def rcSet (s : State) (j : Fin 64) (i : Nat) (v : Int) : State :=
  s.wr (K.RC_MEM j) (withField (s.rd (K.RC_MEM j)) (32 * (1023 - i) + 31) (32 * (1023 - i)) (zx 32 v))

/-- The index advances. -/
def rcAdvance (s : State) (j : Fin 64) : State :=
  let m := s.rd (K.RC_LEN j)
  if m = 0 then s else s.wr (K.LOOP_RC_INDEX j) ((s.rd (K.LOOP_RC_INDEX j) + 1) % m)

def rcZero (s : State) (j : Fin 64) : State := (s.wr (K.RC_MEM j) 0).wr (K.LOOP_RC_INDEX j) 0

/-- One value is updated, unless frozen. -/
def rcUpdate (s : State) (j : Fin 64) (e1 : Int) : State :=
  let m := s.rd (K.RC_LEN j)
  if m = 0 || s.on (K.RC_FREEZE j) then s
  else
    let i := (s.rd (K.LOOP_RC_INDEX j) + m - s.rd (K.RC_LEAD j) % m) % m
    let lim : Int := (s.rd (K.RC_LIMIT j) * 2 ^ 16 : Nat)
    s.rcSet j i (clampI (-lim) lim (roundAway ((s.rd (K.RC_FORGET j) : Int) * s.rcAt j i + s.rdI (K.RC_GAIN j) * e1 * 65536) 65536))

/-- RC_ERR_RMS over the last M executions, and RC_SETTLED. -/
def rcRms (s : State) (j : Fin 64) (e1 : Int) : State :=
  let m := s.rd (K.RC_LEN j)
  if m = 0 then s
  else
    let h := (e1 :: (s.loop j).e1s).take m
    let rms := min 65535 (rootMean (h.foldl (fun a x => a + x.natAbs * x.natAbs) 0) h.length)
    let thr := s.rd (K.RC_SETTLE_THR j)
    let s1 := (s.wr (K.RC_ERR_RMS j) rms).modLoop j fun l => { l with e1s := h, rcArmed := l.rcArmed || 2 * thr < rms }
    if (s1.loop j).rcArmed && thr != 0 && rms < thr then (s1.modLoop j fun l => { l with rcArmed := false }).raise (Src.CE 6) else s1

/-! ## Loops (R318 to R327) -/

/-- Put a mode in place; LOOP_STATE shows it. -/
def setMode (s : State) (j : Fin 64) (m : Nat) : State :=
  ((s.wr (K.LOOP_MODE j) m).wrField (K.LOOP_STATE j) 2 0 m).wrBit (K.LOOP_STATE j) 6 (m = 2 && s.rd (K.RC_LEN j) != 0)

/-- The loop enters SAFE (R324, R328, R334); its output is written at cycle 960. `fault`: by its fault window. DESIGN CHOICE (log entry 110): the
run of faults ends here. -/
def toSafe (s : State) (j : Fin 64) (fault : Bool) : State :=
  let m := s.rd (K.LOOP_MODE j)
  let was := if m = 4 then (s.loop j).heldFrom else m
  let s1 := ((s.modLoop j fun l => { l with former := if was = 3 then l.former else was, out := some (s.rd (K.LOOP_SAFE_VALUE j))
                                            faultRun := 0, preset := false }).setMode j 3).ceSafeTake
  let s2 := when_ fault (fun s => s.raiseIn (Src.CE 0) K.DET_LOOP_FAULT j.val) s1
  let s3 := (s2.raiseIn (Src.CE 1) K.DET_LOOP_SAFE j.val).raiseIn (Src.CE 5) K.DET_LOOP_MODE_CHG j.val
  when_ (s.rd (K.LOOP_LASER_EN j) ≤ 15) (fun s => s.raise (Src.CE 9)) s3

/-- MANUAL: u moves toward LOOP_MAN_VALUE. -/
def manualStep (s : State) (j : Fin 64) : State :=
  let u := s.rd (K.LOOP_OUT j)
  let v := s.rd (K.LOOP_MAN_VALUE j)
  let d := s.rd (K.LOOP_MAN_SLEW j)
  let n := if d = 0 then v else if u < v then min v (u + d) else max v (u - d)
  s.modLoop j fun l => { l with out := some n }

/-- u sits at a limit, or not (R325). -/
def limitStep (s : State) (j : Fin 64) (u : Nat) : State :=
  if u = s.rd (K.LOOP_UMIN j) || u = s.rd (K.LOOP_UMAX j) then
    let s1 := s.modLoop j fun l => { l with limitRun := l.limitRun + 1 }
    if s.rd (K.LOOP_LIMIT_COUNT j) != 0 && (s1.loop j).limitRun = s.rd (K.LOOP_LIMIT_COUNT j) then
      (s1.wrBit (K.LOOP_STATE j) 5 true).raiseIn (Src.CE 2) K.DET_LOOP_LIMIT j.val
    else s1
  else (s.modLoop j fun l => { l with limitRun := 0 }).wrBit (K.LOOP_STATE j) 5 false

/-- Region of the scheduling variable; in AUTO a change keeps u (R321): `e1` is the shaped error then. -/
def regionStep (s : State) (j : Fin 64) (e1 : Option Int) : State :=
  let x := s.rd (K.SCHED_VAR j)
  let old := s.rd (K.LOOP_REGION j)
  let new := if x = 255 then 0
    else loopRegion (fun i => s.rd (K.SCHED_BOUND j (i - 1))) (s.rd (K.SCHED_REGIONS j)) (s.rd (K.SCHED_HYST j)) old (s.srcValue x)
  if new = old then s
  else
    let s1 := (s.wr (K.LOOP_REGION j) new).raiseIn (Src.CE 4) K.DET_LOOP_REGION_CHG j.val
    match e1 with
    | some e => s1.wrI (K.LOOP_INTEGRATOR j) (s1.rdI (K.LOOP_INTEGRATOR j) + (s.rdI (K.SCHED_KP j old) - s.rdI (K.SCHED_KP j new)) * e)
    | none => s1

/-- An execution in AUTO (R319); in HOLD nothing reaches the pin, I is preset to the latched value and the RC memory stays
(R331). -/
def autoStep (s : State) (j : Fin 64) (y : Nat) (hold : Bool) : State :=
  let r : Int := s.rd (K.LOOP_SETPOINT j)
  let e : Int := if s.on (K.LOOP_POLARITY j) then (y : Int) - r else r - (y : Int)
  let g := loopGain (fun k => s.rd (K.LOOP_GAIN_LUT j k)) (s.rd (K.LOOP_GAIN_SHIFT j)) e
  let e1 := clampI (-2147483648) 2147483647 (roundAway (e * (g : Int)) 16384)
  let s1 := (s.regionStep j (some e1)).wrI (K.LOOP_ERR j) e1
  let reg := s1.rd (K.LOOP_REGION j)
  let p := s1.rdI (K.SCHED_KP j reg) * e1
  let rc := if s1.rd (K.RC_LEN j) = 0 then 0 else s1.rcAt j (s1.rd (K.LOOP_RC_INDEX j))
  let ff := s1.rdI (K.LOOP_FF j) * 65536
  let umin : Int := (s1.rd (K.LOOP_UMIN j) * 65536 : Nat)
  let umax : Int := (s1.rd (K.LOOP_UMAX j) * 65536 : Nat)
  let u0 : Int := (s1.rd (K.LOOP_OUT j) * 65536 : Nat)
  let pre := (s1.loop j).preset
  let i0 := if pre then u0 - p - rc - ff else s1.rdI (K.LOOP_INTEGRATOR j)
  let d := if pre then 0 else s1.rdI (K.SCHED_KI j reg) * e1
  let sum := p + i0 + rc + ff
  let i1 := if !(umax < sum && 0 < d) && !(sum < umin && d < 0) then clampI umin umax (i0 + d) else i0
  let u := (roundAway (clampI umin umax (p + i1 + rc + ff)) 65536).toNat
  let s2 := s1.modLoop j fun l => { l with preset := false, out := if hold then none else some u }
  if hold then (((s2.wrI (K.LOOP_INTEGRATOR j) (u0 - p - rc - ff)).rcRms j e1).rcAdvance j).limitStep j (s1.rd (K.LOOP_OUT j))
  else ((((s2.wrI (K.LOOP_INTEGRATOR j) i1).rcUpdate j e1).rcRms j e1).rcAdvance j).limitStep j u

/-- A stale execution (R318). -/
def staleStep (s : State) (j : Fin 64) (m : Nat) (hold : Bool) : State :=
  let s1 := (((s.wrBit (K.LOOP_STATE j) 4 true).incSat (K.LOOP_STALE j)).modLoop j fun l => { l with staleRun := l.staleRun + 1 }).rcAdvance j
  let s2 := if (s1.loop j).staleRun = 8 then s1.raiseIn (Src.CE 3) K.DET_LOOP_STALE j.val else s1
  if hold then s2.limitStep j (s.rd (K.LOOP_OUT j))
  else if m = 1 then (s2.manualStep j).limitStep j (((s2.manualStep j).loop j).out.getD 0)
  else (s2.modLoop j fun l => { l with out := some (s.rd (K.LOOP_OUT j)) }).limitStep j (s.rd (K.LOOP_OUT j))

/-- The fault window (R324): the state, and whether the loop has entered SAFE. -/
def faultStep (s : State) (j : Fin 64) (y : Nat) : State × Bool :=
  let n := s.rd (K.LOOP_FAULT_COUNT j)
  if n = 0 then (s, false)
  else if s.rd (K.LOOP_FAULT_LO j) ≤ y && y ≤ s.rd (K.LOOP_FAULT_HI j) then
    ((s.modLoop j fun l => { l with faultRun := 0 }).wrBit (K.LOOP_STATE j) 3 false, false)
  else
    let s1 := (s.modLoop j fun l => { l with faultRun := l.faultRun + 1 }).wrBit (K.LOOP_STATE j) 3 true
    if n ≤ (s1.loop j).faultRun then ((s1.toSafe j true).rcAdvance j, true) else (s1, false)

/-- A due execution of a loop in MANUAL, AUTO or HOLD; in HOLD it executes as in its former mode (R331). -/
def loopExec (s : State) (j : Fin 64) (fresh : Bool) : State :=
  let mode := s.rd (K.LOOP_MODE j)
  let hold := mode == 4
  let m := if hold then (s.loop j).heldFrom else mode
  if m = 3 then s.rcAdvance j
  else
  let s1 := s.incWrap (K.LOOP_EXEC j)
  if !fresh then s1.staleStep j m hold
  else
    let y := s.srcValue (s.rd (K.LOOP_INPUT j))
    let s2 := (s1.wrBit (K.LOOP_STATE j) 4 false).modLoop j fun l => { l with staleRun := 0 }
    let f := s2.faultStep j y
    if f.2 then f.1
    else if m = 2 then f.1.autoStep j y hold
    else
      let s3 := (f.1.regionStep j none).rcAdvance j
      if hold then s3.limitStep j (s3.rd (K.LOOP_OUT j)) else (s3.manualStep j).limitStep j (((s3.manualStep j).loop j).out.getD 0)

/-- A loop at cycle 923. A due frame in which a calibration holds the loops is a due frame all the same: only the index advances (R318,
R327). -/
def loopAt (s : State) (j : Fin 64) : State :=
  let mode := s.rd (K.LOOP_MODE j)
  let frame := s.rd K.CE_FRAME
  if frame % s.rd (K.LOOP_PERIOD j) != 0 then (if mode = 1 && !s.ce.hold then s.manualStep j else s)
  else
    let fresh := s.srcNew (s.rd (K.LOOP_INPUT j)) frame (s.loop j).prevDue
    let s1 := s.modLoop j fun l => { l with prevDue := some frame }
    if mode = 0 then s1
    else if s.ce.hold || mode = 3 then s1.rcAdvance j
    else s1.loopExec j fresh

/-- OG_IN at cycle 923 (R330). -/
def ogSample (s : State) (levels : Nat) : State :=
  forAll (allFin 16) (fun g s =>
    let b := levels.testBit g.val
    if s.on (K.OG_IN g) == b then s
    else
      let s1 := s.wr (K.OG_IN g) b.toNat
      if s.on (K.OG_IN_IRQ g) then s1.raiseIn (Src.CE 10) K.DET_OG g.val else s1) s

/-- A due frame that finds the engine standing is the loop's previous due frame all the same (R318). -/
def loopPassed (s : State) (j : Fin 64) : State :=
  if s.rd K.CE_FRAME % s.rd (K.LOOP_PERIOD j) = 0 then s.modLoop j fun l => { l with prevDue := some (s.rd K.CE_FRAME) } else s

/-- Cycle 923: every input is taken, every due loop evaluated. -/
def loopSnapshot (s : State) (levels : Nat) : State :=
  if s.ce.snapDone then s
  else if !s.ceRuns then
    if s.clk.lsynRuns then (forAll (allFin 64) (fun j s => s.loopPassed j) s).modCe fun c => { c with snapDone := true } else s
  else (forAll (allFin 64) (fun j s => s.loopAt j) (s.ogSample levels)).modCe fun c => { c with snapDone := true }

/-! ## Output write (R304, R326, R329 to R331) -/

/-- An aux pin is latched. -/
def auxHeld (s : State) (a : Fin 48) : Bool := s.bit (K.AUX_STATUS a) 3

/-- `LOOP_DRIVEN` of AUX_STATUS, with the bits that are kept. -/
def auxStatus (s : State) (a : Fin 48) : Nat := withBit (s.rd (K.AUX_STATUS a)) 0 (driven s a.val none)

/-- A loop's output reaches its destination. A latched pin shows the output of SAFE once it is released (R324). -/
def loopWrite (s : State) (j : Fin 64) : State :=
  match (s.loop j).out with
  | none => s
  | some u =>
    let s1 := (s.wr (K.LOOP_OUT j) u).modLoop j fun l => { l with out := none }
    let d := s.rd (K.LOOP_OUTPUT j)
    if h : d < 48 then (if s.auxHeld ⟨d, h⟩ then (if s.rd (K.LOOP_MODE j) = 3 then s.wr (K.LOOP_OUT j) u else s1) else s1.wr (K.AUX_CODE ⟨d, h⟩) (dacCodeOf u))
    else if h : 64 ≤ d ∧ d < 128 then s1.wr (K.LOOP_SETPOINT ⟨d - 64, by omega⟩) u
    else s1

/-- A pin's own movement: a change of mode, or the host value under its slew. -/
def auxStep (s : State) (a : Fin 48) : State :=
  if s.auxHeld a then s
  else match (s.ce.auxs.get a).step with
    | 2 => (s.modAux a fun x => { x with mode := 0, step := 1 }).wr (K.AUX_CODE a) 0
    | 1 => (s.modAux a fun x => { x with mode := s.rd (K.AUX_MODE a), step := 0 }).wr (K.AUX_CODE a) 0
    | _ =>
      if driven s a.val none then s
      else
        let u := s.rd (K.AUX_CODE a)
        let v := s.rd (K.AUX_VALUE a)
        let d := s.rd (K.AUX_SLEW a)
        s.wr (K.AUX_CODE a) (if d = 0 then v else if u < v then min v (u + d) else max v (u - d))

/-- A flag of a pad after a frame: it sets after 4 consecutive frames with its condition and clears after 64 without (R535). The
run so far, the flag; the run, the flag. -/
def padFlag (run : Nat) (flag cond : Bool) : Nat × Bool :=
  if flag == cond then (0, flag) else if run + 1 = (if flag then 64 else 4) then (0, cond) else (run + 1, flag)

/-- COMPLIANCE and SHORT from the conditions that the pad shows in this frame; of a pin that is off or latched neither is
evaluated (R535). -/
def auxPads (s : State) (a : Fin 48) (compl short : Bool) : State :=
  let x := s.ce.auxs.get a
  if s.auxHeld a || x.mode = 0 then s
  else
    let c := padFlag x.complRun (s.bit (K.AUX_STATUS a) 1) compl
    let h := padFlag x.shortRun (s.bit (K.AUX_STATUS a) 2) short
    let set (s : State) (i : Nat) (b : Bool) (src : Nat) : State :=
      let s1 := s.wrBit (K.AUX_STATUS a) i b
      if b && !s.bit (K.AUX_STATUS a) i then s1.raiseIn (Src.CE src) K.DET_AUX a.val else s1
    set (set (s.modAux a fun x => { x with complRun := c.1, shortRun := h.1 }) 1 c.2 11) 2 h.2 12

/-- The loop is in SAFE, or in HOLD out of it. -/
def loopSafe (s : State) (j : Fin 64) : Bool := s.rd (K.LOOP_MODE j) == 3 || (s.rd (K.LOOP_MODE j) == 4 && (s.loop j).heldFrom == 3)

/-- The level that a GPIO drives (R330). -/
def ogWanted (s : State) (g : Fin 16) : Option Bool :=
  let cfg := s.rd (K.OG_CFG g)
  let low := cfg.testBit 2
  let safe := s.bit K.CE_STATUS 3 || (allFin 64).any fun j => s.loopSafe j && s.rd (K.LOOP_LASER_EN j) == g.val
  match field cfg 1 0 with
  | 1 => some (s.on (K.OG_OUT g) != low)
  | 2 => some ((s.on (K.OG_OUT g) && !safe) != low)
  | _ => none

def padsHeld (s : State) : Bool := s.bit K.CE_STATUS 2

def ogWrite (s : State) (g : Fin 16) : State :=
  if s.padsHeld then s else s.modCe fun c => { c with ogLevel := c.ogLevel.set g (s.ogWanted g) }

/-- The thermal trip's SAFE (R334), or the resumption of the loops it put there. -/
def tripStep (s : State) : State :=
  if s.ce.trip then
    (forAll (allFin 64) (fun j s =>
      if s.rd (K.LOOP_MODE j) = 0 || s.rd (K.LOOP_MODE j) = 3 then s
      else (s.toSafe j false).modLoop j fun l => { l with tripped := true }) (s.wrBit K.CE_STATUS 3 true)).modCe fun c => { c with trip := false }
  else s

/-- The pads are released (R331). -/
def padRelease (s : State) : State :=
  if s.ce.release then
    let s1 := forAll (allFin 48) (fun a s => s.wrBit (K.AUX_STATUS a) 3 false) ((s.wrBit K.CE_STATUS 2 false).modCe fun c => { c with release := false })
    let s2 := forAll (allFin 64) (fun j s => if s.rd (K.LOOP_MODE j) = 4 then s.setMode j (s.loop j).heldFrom else s) s1
    if s.padsHeld then s2.raise (Src.CE 14) else s2
  else s

/-- Loops that a trip put in SAFE return to MANUAL from LOOP_SAFE_VALUE (THERM_AUTO_RESUME), to AUTO where they were in it; u then moves as
the mode has it (R493). -/
def tripResume (s : State) : State :=
  if s.ce.resume then
    (forAll (allFin 64) (fun j s =>
      if (s.loop j).tripped && s.rd (K.LOOP_MODE j) = 3 then
        let f := (s.loop j).former
        let s1 := (s.wr (K.LOOP_OUT j) (s.rd (K.LOOP_SAFE_VALUE j))).modLoop j fun l => { l with tripped := false, preset := f = 2 && s.on (K.LOOP_PRESET j) }
        s1.setMode j (if f = 2 then 2 else 1)
      else s) s).modCe fun c => { c with resume := false }
  else s

/-- Cycle 960: once in a frame, after its snapshot (Table 11-1). -/
def outputWrite (s0 : State) (compl short : Nat) : State :=
  if !s0.ceRuns || !s0.ce.snapDone || s0.ce.outDone then s0
  else
    let s := s0.modCe fun c => { c with outDone := true }
    if s.ce.hold && !s.ce.trip then s
    else
    let s1 := s.tripStep.tripResume.padRelease
    let s2 := forAll (allFin 64) (fun j s => s.loopWrite j) s1
    let s3 := forAll (allFin 48) (fun a s => (s.auxStep a).auxPads a (compl.testBit a.val) (short.testBit a.val)) s2
    forAll (allFin 16) (fun g s => s.ogWrite g) s3

/-! ## Modes (R323, R331) -/

/-- The present value of a loop's destination. -/
def destValue (s : State) (j : Fin 64) : Option Nat :=
  let d := s.rd (K.LOOP_OUTPUT j)
  if h : d < 48 then some (16 * s.rd (K.AUX_CODE ⟨d, h⟩))
  else if h : 64 ≤ d ∧ d < 128 then some (s.rd (K.LOOP_SETPOINT ⟨d - 64, by omega⟩))
  else none

/-- The loop leaves its aux pin: the pin holds. -/
def leavePin (s : State) (j : Fin 64) : State :=
  let d := s.rd (K.LOOP_OUTPUT j)
  if h : d < 48 then (s.wr (K.AUX_VALUE ⟨d, h⟩) (s.rd (K.AUX_CODE ⟨d, h⟩))).noteUnsaved (K.AUX_VALUE ⟨d, h⟩) else s

/-- A written mode takes effect; `manSet`, `intSet`: the same commit group writes LOOP_MAN_VALUE, LOOP_INTEGRATOR. The runs of stale, faulty
and limited executions and their bits stand until an execution moves them (R318, R324, R325). DESIGN CHOICE (log entry 110): through OFF too. -/
def modeTo (s : State) (j : Fin 64) (v : Nat) (manSet intSet : Bool) : State :=
  let old := s.rd (K.LOOP_MODE j)
  if old = v then s
  else if old = 4 then s.modLoop j fun l => { l with heldFrom := v }
  else
    let s1 := match old, v with
      | 0, _ => (match s.destValue j with | some u => s.wr (K.LOOP_OUT j) u | none => s)
      | 3, 1 => s.wr (K.LOOP_OUT j) (s.rd (K.LOOP_SAFE_VALUE j))
      | 2, 1 => if manSet then s else s.wr (K.LOOP_MAN_VALUE j) (s.rd (K.LOOP_OUT j))
      | 1, 0 | 2, 0 => s.leavePin j
      | _, _ => s
    (s1.modLoop j fun l =>
      { l with preset := v = 2 && s.on (K.LOOP_PRESET j) && !intSet, tripped := false, out := none }).setMode j v

/-- The pads latch (R331, R484): each pin keeps what the last cycle 960 wrote; HELD. -/
def padLatch (s : State) : State :=
  forAll (allFin 48) (fun a s => s.wrBit (K.AUX_STATUS a) 3 true) (s.wrBit K.CE_STATUS 2 true)

/-- Engine, sequencer and ADC stop; the pads latch (R331, R476). -/
def ceStop (s : State) : State := (s.padLatch.wrBit K.CE_STATUS 0 false).monStop

/-- The engine runs again with latched pads: every loop that drives a latched destination enters HOLD (R331). -/
def ceHold (s : State) : State :=
  forAll (allFin 64) (fun j s =>
    let m := s.rd (K.LOOP_MODE j)
    match (if m = 1 || m = 2 || m = 3 then s.destValue j else none) with
    | none => if m = 0 then s else s.setMode j m
    | some u =>
      let s1 := if m = 1 then s.wr (K.LOOP_MAN_VALUE j) u else s
      (((s1.wr (K.LOOP_OUT j) u).modLoop j fun l => { l with heldFrom := m, out := none, preset := false }).setMode j 4).raise (Src.CE 13)) s

/-! ## Frame boundary (R304, R306) -/

/-- A write of this chapter takes effect; `grp` the entries that its commit group writes. -/
def ceApply (s : State) (grp : List Key) (k : Key) (v : Nat) : State :=
  let s1 := match k.blk, k.off, k.sub with
    | .loop j, 0x01, 0x01 => s.modeTo j v (grp.contains (K.LOOP_MAN_VALUE j)) (grp.contains (K.LOOP_INTEGRATOR j))
    | .loop j, 0x04, 0x01 => if v = s.rd k then s else
      ((((s.wr k v).rcZero j).wr (K.RC_ERR_RMS j) 0).modLoop j fun l => { l with e1s := [] }).wrBit (K.LOOP_STATE j) 6
        (s.rd (K.LOOP_MODE j) = 2 && v != 0)
    | .loop j, 0x04, 0x07 => if v = 1 then s.rcZero j else s
    | .loop j, 0x05, 0x04 => (s.wr k v).modLoop j fun l => { l with preset := false }
    | .chain e, 0x01, 0x01 | .chain e, 0x01, 0x02 =>
      if v = s.rd k then s else ((s.wr k v).modChain e fun c => { c with restart := true, fade := none }).wrBit (K.FILT_STATE e) 0 false
    | .chain e, 0x01, 0x06 =>
      if v = 0 then s
      else if s.rd (K.FILT_MODE e) = 1 then (s.wr (K.FILT_ACTIVE e) (1 - s.rd (K.FILT_ACTIVE e))).fadeDone e
      else s.modChain e fun c => { c with swap := true }
    | .chain e, 0x01, 0x07 =>
      forAll (List.range 16) (fun i s =>
        s.wrI (if s.filtActive e then K.FILT_BANK_A e i else K.FILT_BANK_B e i) (getI (filtPreset v) i)) s
    | .aux a, _, 0x01 => if v = s.rd k then s else (s.wr k v).modAux a fun x => { x with step := 2 }
    | .dev, 0x6000, 0x03 => if v = 1 then s.modCe fun c => { c with release := true } else s
    | .dev, 0x7003, 0x01 => s.urgentReq v s.urgentFits
    | .dev, 0x70E0, 0x01 => if v = 1 then s.monCalTrigger else s
    | .dev, 0x7004, 0x08 => if v = 1 then s.clrAll ((List.range 7).map fun i => ⟨.dev, 0x7004, i + 1⟩) else s
    | _, _, _ => s.wr k v
  s1.noteUnsaved k

/-- The writes of one set in the order of their effects: loops that go to OFF, entries, modes, integrators. -/
def ceOrder (l : List (Key × Nat)) : List (Key × Nat) :=
  let isMode (p : Key × Nat) : Bool := match p.1.blk with | .loop _ => p.1.off == 0x01 && p.1.sub == 0x01 | _ => false
  let isInt (p : Key × Nat) : Bool := match p.1.blk with | .loop _ => p.1.off == 0x05 | _ => false
  (l.filter fun p => isMode p && p.2 == 0) ++ (l.filter fun p => !isMode p && !isInt p) ++ (l.filter fun p => isMode p && p.2 != 0) ++
    l.filter isInt

def ceApplySet (s : State) (l : List (Key × Nat)) : State := forAll (ceOrder l) (fun p s => s.ceApply (l.map (·.1)) p.1 p.2) s

/-- Accepted writes whose boundary is the control frame's take effect; each commit group raises CE_COMMIT_DONE. -/
def frameWrites (s : State) : State :=
  let s1 := s.modOd fun o => { o with waiting := o.waiting.filter fun g => g.bound != .frame }
  forAll (s.od.waiting.filter fun g => g.bound == .frame)
    (fun g s => when_ g.grp (fun s => s.raise (Src.CE 15)) (s.ceApplySet (g.writes.map fun w => (w.1, beNat w.2)))) s1

/-- Cycle 0 of the next frame. While the engine stands, the clock unit counts the frames and the writes take effect at their boundaries
all the same (R306, R484). A calibration that is triggered starts before the next pass (R271, R272). -/
def frameBoundary (s : State) : State :=
  let s1 := ((s.incWrap K.CE_FRAME).modCe fun c => { c with snapDone := false, outDone := false }).frameWrites
  if !s.ceRuns then (if s.clk.lsynRuns then s1 else s)
  else
    let s2 := if s1.ce.hold && !s1.ce.calRun then (if s1.ce.urgent.isSome then s1.setMonHold false else (s1.setMonHold false).sampleNow) else s1
    if s2.ce.pass.isNone && !s2.ce.calRun && !s2.ce.calPend && s2.ce.urgent.isNone then s2.passStart else s2

/-! ## Memory errors (R328) -/

def ceMemError (s : State) (j : Fin 64) (w : CeMem) : State :=
  match w with
  | .corrected => (s.incSat K.CE_MEM_CORRECTED).pcSecded none
  | .config => (s.toSafe j false).raise (Src.CE 8)
  | .rc i => (s.rcSet j i.val 0).raise (Src.CE 7)

/-- `LOOP_ALL`. -/
def loopAll (s : State) (j : Fin 64) : List Byte :=
  let f (sub n : Nat) := be n (s.rd ⟨.loop j, 0x05, sub⟩)
  f 1 2 ++ f 2 2 ++ f 3 4 ++ f 4 8 ++ f 5 1 ++ f 6 2 ++ f 7 4 ++ f 8 4

/-- A write of this chapter is accepted: it waits for the frame boundary (R306). -/
def ceWrite (s : State) (r : Fin 18) (k : Key) (data : List Byte) : State := s.write r k data fun s => s.defer .frame r k data

end State

/-! ## Effects of writes -/

def effMonCalCmd (v : Nat) (s : State) : State := if v = 1 then s.monCalTrigger else s

/-! ## Meanings -/

def execMonCalCmd (r : Fin 18) (v : BitVec 8) (s : State) : Host.Outcome State Fault Refusal :=
  .next (s.write r K.MON_CAL_CMD (be 1 v.toNat) (effMonCalCmd v.toNat))

def execMonCalStart (s : State) : Host.Outcome State Fault Refusal := .next s.monCalStart
def execMonCalEnd (outOfRange : Bool) (s : State) : Host.Outcome State Fault Refusal := .next (s.monCalEnd outOfRange)
def execControlFrameBoundary (s : State) : Host.Outcome State Fault Refusal := .next s.frameBoundary
def execLoopSnapshot (levels : BitVec 16) (s : State) : Host.Outcome State Fault Refusal := .next (s.loopSnapshot levels.toNat)

/-- `compl`, `short`: the aux pins outside their compliance or shorted. -/
def execOutputWrite (compl short : BitVec 48) (s : State) : Host.Outcome State Fault Refusal :=
  .next (s.outputWrite compl.toNat short.toNat)

def execMonConversionEnd (code : BitVec 12) (s : State) : Host.Outcome State Fault Refusal := .next (s.conversionEnd code.toNat)

/-- A read of MON_DATA or MON_DATA_ALL, from the fast path (R309). -/
def execMonDataRead (r : Fin 18) (all_ : Bool) (s : State) : Host.Outcome State Fault Refusal :=
  .next ((s.taken.reply r (if all_ then s.monAll else be 4 (s.rd K.MON_DATA))).monTaken)

/-- `fits`: the conversion ends before the next pass start. -/
def execMonUrgentReq (r : Fin 18) (v : BitVec 16) (fits : Bool) (s : State) : Host.Outcome State Fault Refusal :=
  .next (s.write r K.MON_URGENT_REQ (be 2 v.toNat) fun s => s.urgentReq v.toNat fits)

def execMonUrgentEnd (code : BitVec 12) (s : State) : Host.Outcome State Fault Refusal := .next (s.urgentEnd code.toNat)

def execMonCntClear (r : Fin 18) (v : BitVec 8) (s : State) : Host.Outcome State Fault Refusal :=
  .next (s.ceWrite r K.MON_CNT_CLEAR (be 1 v.toNat))

def execFiltPreset (r : Fin 18) (e : Fin 64) (v : BitVec 8) (s : State) : Host.Outcome State Fault Refusal :=
  .next (s.ceWrite r (K.FILT_PRESET e) (be 1 v.toNat))

def execFiltSwap (r : Fin 18) (e : Fin 64) (v : BitVec 8) (s : State) : Host.Outcome State Fault Refusal :=
  .next (s.ceWrite r (K.FILT_SWAP e) (be 1 v.toNat))

def execLoopModeWrite (r : Fin 18) (j : Fin 64) (v : BitVec 8) (s : State) : Host.Outcome State Fault Refusal :=
  .next (s.ceWrite r (K.LOOP_MODE j) (be 1 v.toNat))

def execLoopIntegratorWrite (r : Fin 18) (j : Fin 64) (v : BitVec 64) (s : State) : Host.Outcome State Fault Refusal :=
  .next (s.ceWrite r (K.LOOP_INTEGRATOR j) (be 8 v.toNat))

def execRcClear (r : Fin 18) (j : Fin 64) (v : BitVec 8) (s : State) : Host.Outcome State Fault Refusal :=
  .next (s.ceWrite r (K.RC_CLEAR j) (be 1 v.toNat))

def execCeMemError (j : Fin 64) (w : CeMem) (s : State) : Host.Outcome State Fault Refusal := .next (s.ceMemError j w)

def execAuxModeWrite (r : Fin 18) (a : Fin 48) (v : BitVec 8) (s : State) : Host.Outcome State Fault Refusal :=
  .next (s.ceWrite r (K.AUX_MODE a) (be 1 v.toNat))

def execCePadRelease (r : Fin 18) (v : BitVec 8) (s : State) : Host.Outcome State Fault Refusal :=
  .next (s.ceWrite r K.CE_PAD_RELEASE (be 1 v.toNat))

end Sys2Proof.Machine
end

