-- ==== Sys2Proof/Machine/Boot.lean ====
section
/-!
DEFINITION. Fuses, skeins and slots, identity keys (15_security.md, R436 to R450), the boot of the core and the load of the
saved configuration (R373, R442, R443), core resets (R404, R487) and the ends of grants (R458, R460).
-/

namespace Sys2Proof.Machine

/-! ## Fuses (R436, R437) -/

/-- The majority of three bit vectors, bit by bit. -/
def vote3 (a b c : Nat) : Nat := (a &&& b) ||| (a &&& c) ||| (b &&& c)

/-- The life-cycle state of a thermometer code (Table 15-1). -/
def lcOf : Nat → Option LifeCycle
  | 0 => some .manuf
  | 1 => some .provisioned
  | 3 => some .deployed
  | 7 => some .returned
  | 15 => some .scrapped
  | _ => none

/-- The thermometer code of a state. -/
def lcCode : LifeCycle → Nat
  | .manuf => 0 | .provisioned => 1 | .deployed => 3 | .returned => 7 | .scrapped => 15

/-- `SEC_LC_STATE`. -/
def lcNum : LifeCycle → Nat
  | .manuf => 0 | .provisioned => 1 | .deployed => 2 | .returned => 3 | .scrapped => 4

/-- Set bits of a 128-bit field. -/
def pop128 (v : Nat) : Nat := popCount 128 v

/-- A byte string cut or filled with zeros to `n` bytes. -/
def fitBytes (n : Nat) (l : List Byte) : List Byte := (l ++ List.replicate n 0).take n

/-! ## Key derivation (R450): HKDF-SHA-384 of RFC 5869 -/

/-- HMAC-SHA-384: blocks of 128 bytes. -/
def hmac384 (key msg : List Byte) : List Byte :=
  let k := fitBytes 128 (if 128 < key.length then Config.sha384 key else key)
  Config.sha384 (k.map (· ^^^ 0x5C) ++ Config.sha384 (k.map (· ^^^ 0x36) ++ msg))

/-- 32 bytes of HKDF: extract, and the first block of expand. -/
def hkdf384 (salt ikm info : List Byte) : List Byte := (hmac384 (hmac384 salt ikm) (info ++ [1])).take 32

/-- The bytes of a label in ASCII. -/
def asciiBytes (t : String) : List Byte := t.toList.map fun c => BitVec.ofNat 8 c.toNat

/-! ## Regions of the external flash (R440, Table 15-4) -/

/-- What a region holds. -/
inductive FlashRegion where
  | slot (x : Fin 2) | config | records | cert | reserved
deriving DecidableEq, Repr

/-- Each region with its first address and its size. -/
def flashMap : List (FlashRegion × Nat × Nat) :=
  [(.slot 0, 0x000000, 0x380000), (.slot 1, 0x380000, 0x380000), (.config, 0x700000, 0x80000), (.records, 0x780000, 0x8000),
   (.cert, 0x788000, 0x2000), (.reserved, 0x78A000, 0x76000)]

/-- The region of an address. -/
def flashRegion (a : Nat) : Option FlashRegion := (flashMap.find? fun m => m.2.1 ≤ a && a < m.2.1 + m.2.2).map (·.1)

/-- The first addresses of the slots and of the certificate. -/
def slotAddr (x : Fin 2) : Nat := 0x380000 * x.val
def certAddr : Nat := 0x788000

namespace State

def modSec (s : State) (f : SecS → SecS) : State := { s with sec := f s.sec }

/-- The OTP is read (R437): LC and ID_KILL by majority, a code that is no thermometer code as DEPLOYED; a bit of weak margin
counts as set. -/
def readOtp (s : State) : State :=
  let o := s.sec.otp
  let v := vote3 (o.lc.get 0) (o.lc.get 1) (o.lc.get 2)
  let lcBad := (lcOf v).isNone || (o.lc.toList.any fun c => c != v)
  let killed := 2 ≤ popCount 3 o.kill
  let killBad := popCount 3 o.kill = 1 || popCount 3 o.kill = 2
  let s1 := s.modSec fun x =>
    { x with lc := (lcOf v).getD .deployed, kill := killed, minSvn := pop128 (o.minSvn ||| o.minSvnWeak), revoked := o.revoke ||| o.revokeWeak }
  let s2 := if lcBad then (s1.record 0x66 0xFF (be 1 1)).raise Src.OTP_FAULT else s1
  if killBad then (s2.record 0x66 0xFF (be 1 2)).raise Src.OTP_FAULT else s2

/-! ## Keys (R450, R457) -/

def keysPresent (s : State) : Bool := s.bit K.SEC_DEBUG_STATE 5
def zeroized (s : State) : Bool := s.bit K.SEC_DEBUG_STATE 4
def taint (s : State) : Bool := s.bit K.SEC_DEBUG_STATE 3
def lockout (s : State) : Bool := s.bit K.SEC_DEBUG_STATE 2
def debugLevel (s : State) : Nat := field (s.rd K.SEC_DEBUG_STATE) 1 0

/-- The key of a label: ID_SEED is the input key, UNIQUE_ID the salt. -/
def derivedKey (s : State) (label : String) : List Byte := hkdf384 (be 8 Config.uniqueId.toNat) (be 32 s.sec.otp.seed) (asciiBytes label)

/-- The identity's keys: the private ones are held wrapped. -/
def identity (s : State) : KeyStore :=
  let kwk := s.derivedKey "LYD6416 KWK"
  let ed := s.derivedKey "LYD6416 ID ED25519"
  let ml := s.derivedKey "LYD6416 ID MLDSA65"
  { kwk := kwk, ed := Config.wrap kwk ed, ml := Config.wrap kwk ml, pubEd := Config.publicEd ed, pubMl := Config.publicMl ml }

/-- The identity is derived, or not (R450). -/
def deriveKeys (s : State) : State :=
  if !s.sec.kill && s.sec.otp.seed != 0 && !s.zeroized then (s.modSec fun x => { x with keys := s.identity }).wrBit K.SEC_DEBUG_STATE 5 true
  else s.eraseKeys

/-- `ID_PUB_ED25519`, `ID_PUB_MLDSA`: of the derived identity while the keys are present, else zeros. -/
def pubEd (s : State) : List Byte := fitBytes 32 (if s.keysPresent then s.sec.keys.pubEd else [])
def pubMl (s : State) : List Byte := fitBytes 1952 (if s.keysPresent then s.sec.keys.pubMl else [])

/-! ## Grants and sessions (R458, R460) -/

/-- Every Vendor grant ends. -/
def vendorEndAll (s : State) : State := s.wr K.SEC_VENDOR_HOLDERS 0

/-- The debug session ends (R458): a halted core resumes, the end is recorded with its cause (Table 15-15). -/
def debugEnd (s : State) (cause : Nat) : State :=
  if s.debugLevel = 0 then s
  else ((s.record 0x60 0xFF (be 1 s.debugLevel ++ be 1 1 ++ be 1 cause)).wrField K.SEC_DEBUG_STATE 1 0 0).modSec fun x =>
    { x with halted := false }

/-- `SEC_DEBUG_REMAIN`. -/
def debugRemain (s : State) : Nat :=
  if s.debugLevel = 0 then 0
  else if s.sec.dbgDur = 0 then 0xFFFFFFFF else s.sec.dbgDur - (s.now - s.sec.dbgAt) / ccPerSecond

end State

/-! ## Skeins (R438, R439) -/

namespace Skein

/-- A field of `n` bytes from byte `i`. -/
def fld (img : List Byte) (i n : Nat) : Nat := beNat (slice img i n)
def codeLen (img : List Byte) : Nat := fld img 32 4
def privLen (img : List Byte) : Nat := fld img 36 4
def codeLoad (img : List Byte) : Nat := fld img 40 4
def entry (img : List Byte) : Nat := fld img 44 4
def dataLen (img : List Byte) : Nat := fld img 48 4
def svn (img : List Byte) : Nat := fld img 12 4
def version (img : List Byte) : Nat := fld img 16 4
def debugBuild (img : List Byte) : Bool := (fld img 22 1).testBit 0
def header (img : List Byte) : List Byte := img.take 512
def codeBytes (img : List Byte) : List Byte := slice img 512 (codeLen img)
def dataBytes (img : List Byte) : List Byte := slice img (512 + codeLen img) (dataLen img)
def sigEd (img : List Byte) : List Byte := slice img (512 + codeLen img + dataLen img) 64
def sigMl (img : List Byte) : List Byte := slice img (512 + codeLen img + dataLen img + 64) 3309

/-- Table 15-2 is kept. -/
def layoutOk (img : List Byte) : Bool :=
  let code := codeLen img
  let priv := privLen img
  let load := codeLoad img
  let total := fld img 8 4
  512 ≤ img.length && fld img 0 4 == 0x534B4E31 && fld img 4 2 == 1 && fld img 6 2 == 512 &&
  total == 512 + code + dataLen img + 3373 && total ≤ 3670016 && total == img.length && svn img ≤ 128 &&
  fld img 22 1 / 2 == 0 && fld img 23 1 == 0 &&
  4096 ≤ code && code ≤ 786432 && code % 8 == 0 &&
  priv % 4096 == 0 && 4096 ≤ priv && priv ≤ code &&
  load % 4096 == 0 && load + code ≤ 1048576 && load ≤ entry img && entry img < load + priv &&
  (slice img 148 364).all fun b => b == 0

/-- The ROM public keys of an index: Ed25519 and ML-DSA-65 (values of the mask, log entry 4). -/
def romEd (i : Nat) : List Byte := be 32 (Config.fused (10 + i))
def romMl (i : Nat) : List Byte := be 1952 (Config.fused (12 + i))

end Skein

namespace State

/-- May a DEBUG_BUILD skein run (Table 15-7)? -/
def buildOk (s : State) (img : List Byte) : Bool :=
  match s.sec.lc with
  | .manuf | .returned => true
  | .provisioned => !Skein.debugBuild img || Skein.fld img 24 8 == Config.uniqueId.toNat
  | .deployed => !Skein.debugBuild img
  | .scrapped => false

/-- The first check of Table 15-3 that fails: its code; none when the skein passes. -/
def skeinCheck (s : State) (img : List Byte) : Option Nat :=
  let key := Skein.fld img 20 1
  let target := Skein.fld img 24 8
  if !Skein.layoutOk img then some 1
  else if Skein.fld img 21 1 != 0xB0 || (target != 0 && target != Config.uniqueId.toNat) then some 2
  else if 1 < key || s.sec.revoked.testBit key then some 3
  else if !s.buildOk img then some 4
  else if !Config.ed25519Verify (Skein.romEd key) (Skein.header img) (Skein.sigEd img) then some 5
  else if !Config.mldsaVerify (Skein.romMl key) (Skein.header img) (Skein.sigMl img) then some 6
  else if Config.sha384 (Skein.codeBytes img) != slice img 52 48 || Config.sha384 (Skein.dataBytes img) != slice img 100 48 then some 7
  else if Skein.svn img < s.sec.minSvn then some 8
  else none

/-! ## Slots (R440 to R444) -/

def slot (s : State) (x : Fin 2) : Slot := s.sec.slots.get x

/-- `FW_SLOT_STATUS`. -/
def slotNum : SlotSt → Nat
  | .empty => 0 | .writing => 1 | .valid => 2 | .invalid => 3 | .rollback => 4 | .active => 5 | .trial => 6 | .failedTrial => 7

/-- May the flash controller write the region (R440)? -/
def flashAllows (s : State) (g : FlashRegion) : Bool :=
  match g with
  | .slot x => (s.slot x).st == .writing
  | .config | .records => true
  | .cert => s.sec.lc == .manuf
  | .reserved => false

/-- A write at an address of the flash: refused, it has no effect. The copies of the configuration and of the slot-state record, whose regions
are always open, are written as a whole. -/
def flashWrite (s : State) (a : Nat) (f : State → State) : State := if (flashRegion a).any s.flashAllows then f s else s

/-- What the flash holds at an address; the places of values within the copies of the configuration and of the record are not the spec's. -/
def flashByte (s : State) (a : Nat) : Option Byte :=
  match flashRegion a with
  | some (.slot x) => some ((s.slot x).image.getD (a - slotAddr x) Config.erasedByte)
  | some .cert => some (s.sec.cert.getD (a - certAddr) Config.erasedByte)
  | some .reserved => some Config.erasedByte
  | _ => none

/-- The content of a copy of the slot-state record, in the model's own order (DESIGN CHOICE, log entry 114), and its CRC-32 (R238). -/
def recBytes (q : SlotRec) : List Byte :=
  be 4 q.seq ++ be 1 (slotNum (q.st.get 0)) ++ be 1 (slotNum (q.st.get 1)) ++ be 1 (q.st.toList.contains SlotSt.trial).toNat ++
    be 1 q.preferred.val ++ be 4 q.served
def recCrc (q : SlotRec) : Nat := crc32 (recBytes q)
def recValid (q : SlotRec) : Bool := q.crc == some (recCrc q)

/-- The copy of the slot-state record that holds: the valid one with the higher sequence number (R441). -/
def slotRec (s : State) : Option (Fin 2) :=
  let a := s.sec.recs.get 0
  let b := s.sec.recs.get 1
  if recValid a && (!recValid b || b.seq ≤ a.seq) then some 0 else if recValid b then some 1 else none

/-- A write of the slot-state record begins, to the copy that does not hold it (R441): that copy is not valid until it is complete. -/
def recWrite (s : State) : State :=
  let j : Fin 2 := match s.slotRec with
    | some 0 => 1
    | _ => 0
  let seq := (match s.slotRec with
    | some i => (s.sec.recs.get i).seq + 1
    | none => 0) % 2 ^ 32
  s.modSec fun c =>
    { c with
      recs := c.recs.set j { seq := seq, st := c.slots.map (·.st), preferred := c.preferred, served := c.served }
      recDue := some j }

/-- The write is complete, a cc after it began (DESIGN CHOICE, log entry 114). -/
def recEnd (s : State) : State :=
  match s.sec.recDue with
  | none => s
  | some j => s.modSec fun c =>
      { c with recs := c.recs.set j { c.recs.get j with crc := some (recCrc (c.recs.get j)) }, recDue := none }

/-- A change of a slot; the record takes a change of its status. -/
def modSlot (s : State) (x : Fin 2) (f : Slot → Slot) : State :=
  let s1 := s.modSec fun c => { c with slots := c.slots.set x (f (c.slots.get x)) }
  if (f (s.slot x)).st == (s.slot x).st then s1 else s1.recWrite

/-- After a POR the slots stand as the record holds them; with no valid copy they stay (R441). -/
def recRead (s : State) : State :=
  match s.slotRec with
  | none => s
  | some i =>
    let q := s.sec.recs.get i
    s.modSec fun c =>
      { c with slots := c.slots.mapIdx (fun j x => { x with st := if j = 0 then q.st.get 0 else q.st.get 1 }), preferred := q.preferred, served := q.served }
def otherSlot (x : Fin 2) : Fin 2 := if x = 0 then 1 else 0

/-- SVN and VERSION show in these states (Table 15-13). -/
def slotShown (st : SlotSt) : Bool := st == .valid || st == .active || st == .trial || st == .rollback

def slotSvn (s : State) (x : Fin 2) : Nat := if slotShown (s.slot x).st then Skein.svn (s.slot x).image else 0
def slotVersion (s : State) (x : Fin 2) : Nat := if slotShown (s.slot x).st then Skein.version (s.slot x).image else 0
def slotHash (s : State) (x : Fin 2) : List Byte :=
  if (s.slot x).st == .empty then be 48 0 else (Config.sha384 (Skein.header (s.slot x).image) ++ List.replicate 48 0).take 48

/-- The slot on trial. -/
def trialSlot (s : State) : Option (Fin 2) := (allFin 2).find? fun x => (s.slot x).st == .trial
def activeSlot (s : State) : Option (Fin 2) := (allFin 2).find? fun x => (s.slot x).st == .active
def anyWriting (s : State) : Bool := (allFin 2).any fun x => (s.slot x).st == .writing
def activating (s : State) : Bool := s.rd K.OD_CORE_STATE == 3

/-- `FW_ACTIVE_SLOT`. -/
def fwActiveSlot (s : State) : Nat :=
  match s.sec.running with
  | some x => x.val + (if (s.slot x).st == .trial then 128 else 0)
  | none => 0xFF

/-- `FW_LAST_FAIL`. -/
def fwFail (s : State) (x : Fin 2) (code : Nat) : State := s.wr K.FW_LAST_FAIL (x.val * 256 + code)

/-- The status and the source of a failed check. -/
def slotRefused (s : State) (x : Fin 2) (code : Nat) : State :=
  (((s.modSlot x fun c => { c with st := if code = 8 then .rollback else .invalid }).fwFail x code).raise
    (if code = 8 then Src.ROLLBACK_REFUSED else Src.SKEIN_AUTH_FAIL))

/-- Activation, confirmation or fallback: the slot-state record, and record 0x64 (Table 15-15: 1 activated, 2 confirmed, 3 fell
back). -/
def slotRecord (s : State) (x : Fin 2) (what : Nat) : State := s.recWrite.record 0x64 x.val (be 1 what ++ be 2 (s.rd K.FW_LAST_FAIL))

/-- The trial is confirmed (Table 15-5). -/
def fwConfirm (s : State) : State :=
  match s.trialSlot with
  | none => s
  | some x => ((s.modSlot x fun c => { c with st := .active }).modSec fun c =>
      { c with preferred := x, fallback := none, served := 0 }).slotRecord x 2

/-- A trial failure (R447, Table 15-5): the fallback becomes ACTIVE, to be booted. -/
def trialFail (s : State) : State :=
  match s.trialSlot with
  | none => s
  | some x =>
    let s0 := s.modSlot x fun c => { c with st := .failedTrial }
    let s1 := (match s.sec.fallback with
      | some f => (s0.modSlot f fun c => { c with st := .active }).modSec fun c => { c with preferred := f }
      | none => s0).modSec fun c => { c with fallback := none, served := 0, fwNew := false }
    ((s1.fwFail x 10).raise Src.FW_UPDATE_FAIL).slotRecord x 3

/-- Seconds of trial served so far. -/
def trialSeconds (s : State) : Nat := s.sec.served + (if s.coreUp then (s.now - s.sec.servedAt) / ccPerSecond else 0)

/-! ## Load of the saved configuration (R373, R442, Table 16-2) -/

/-- An entry's class (R372). -/
def persOf (k : Key) : Pers := match entryOf k with | some e => e.pers | none => .const

/-- The saved values of a set of entries are put in place (R373: a copy holds saved-to-flash entries); a summary bit that rises with a
loaded enable is mirrored as any other (R433). -/
def loadKeys (s : State) (p : Key → Bool) : State :=
  let t := (s.savedStore.filter fun e => p e.1 && persOf e.1 == .flash).foldl (fun s e => s.wr e.1 e.2) s
  forAll (allFin 32) (fun g x => if !s.groupOn g && t.groupOn g then x.summaryRise g else x) t

/-- The event recorder's own entries: only POR clears them (R430). -/
def recKeeps (k : Key) : Bool := k.blk == .dev && 0x9200 ≤ k.off && k.off ≤ 0x9307

/-- No copy is valid: the defaults, with their record (R373). -/
def noteDefaults (s : State) : State :=
  if s.bestCopy.isSome then s else s.record 0x06 0xFF (be 1 (if s.od.erased then 2 else 1))

/-- What a line lane and its host pair hold beside their entries follows the loaded values. `cold`: coefficients and transmit taps are
at their reset, by main tap; a wake with good banks keeps both (R82, R485). -/
def loadedLane (s : State) (cold : Bool) (n : Fin 16) : State :=
  let s1 := s.modLane n fun l =>
    { l with ctleNow := s.rd (K.LINE_CTLE_PEAK n), swingNow := s.rd (K.LINE_TX_SWING n), ifsNow := s.rd (K.LINE_TX_IFS n) }
  let s2 := if !cold then s1
    else if s1.rd (K.LINE_FFE_MAIN n) = 8 then s1.setCoef n (s1.coldCoef n) else (s1.setCoef n (s1.coldCoef n)).snapshot n
  let s3 := if !cold || s2.rd (K.LINE_TX_FFE_MAIN n) = 2 then s2 else s2.setTxTaps n (txTapsCold (s2.rd (K.LINE_TX_FFE_MAIN n)))
  let s4 := if s3.rd (K.LINE_LOS_THR n) = 0 then effLosThr n 0 s3 else s3
  forAll [hostA n, hostB n] (fun m s =>
    let s1 := (s.modHost m fun h => { h with ampNow := s.rd (K.HOST_TX_AMP m) }).hostTapsSet m
    if s1.rd (K.HOST_LOS_THR m) = 0 then effHostLosThr m 0 s1 else s1) s4

/-- The optics unit takes its loaded modes: aux pins start from off, loops from OFF, taking over their destinations (R323). -/
def loadedOptics (s : State) : State :=
  let s1 := forAll (allFin 48) (fun a s => if s.rd (K.AUX_MODE a) = (s.ce.auxs.get a).mode then s else s.modAux a fun x => { x with step := 2 }) s
  forAll (allFin 64) (fun j s =>
    if s.rd (K.LOOP_MODE j) = 0 then s
    else
      let s2 := match s.destValue j with | some u => s.wr (K.LOOP_OUT j) u | none => s
      (s2.modLoop j fun l => { l with preset := s.rd (K.LOOP_MODE j) = 2 && s.on (K.LOOP_PRESET j) }).setMode j (s.rd (K.LOOP_MODE j))) s1

/-- The root named by a loaded `CLK_REF_SRC` is taken first; the value of a valid copy prevails over the strap's (R14). -/
def loadedRoot (s0 : State) (rootOk : Bool) : State :=
  let s := if s0.bestCopy.isSome then s0.wr K.CLK_REF_SRC (s0.savedStore.get K.CLK_REF_SRC) else s0
  if (s.rd K.CLK_REF_SRC == 1) == s.bit K.CLK_STATUS 5 then s else s.rootSelect (s.rd K.CLK_REF_SRC) rootOk

/-- After POR and RESET_N the output stages of lanes in Run follow `LINE_TX_OUT_EN` (R91). -/
def outsReleased (s : State) : State := forAll (allFin 16) (fun n s => if s.inRun n then s.outRelease n else s) s

/-- In SCRAPPED every line lane is held administratively down (R452). -/
def lanesHeld (s : State) : State :=
  if s.sec.lc == .scrapped then forAll (allFin 16) (fun n s => s.wr (K.LINE_ADMIN n) 0) s else s

/-- The administrative states come last (R14): output stages, lanes that are administratively up, with their Picot receivers (R250). An
outage whose lanes are all down ends (R30). -/
def loadedAdmin (s : State) : State :=
  (forAll (allFin 16) (fun n s =>
    let s1 := s.picotFollow n
    if s.on (K.LINE_ADMIN n) then (s1.laneCameUp n).castStart n else s1) s.lanesHeld.outsReleased).outageCheck

/-- A power cycle whose load brings no lane up is no outage; a trip since then has one of its own, in which no lane counts (R30). -/
def outageUncounted (s : State) : State :=
  if s.pwr.fromPor then s.modClk fun c => { c with outage := c.outage.map fun o => (o.1, s.now) } else s

/-- Load after POR or RESET_N. A trip since the POR joins the power cycle's outage (R30). -/
def loadConfig (s : State) (rootOk : Bool) : State :=
  let s1 := ((s.noteDefaults).loadKeys fun k => s.pwr.fromPor || !recKeeps k).loadedRoot rootOk
  let s2 := forAll (allFin 16) (fun n s => s.loadedLane true n) s1
  let s3 := s2.modTime fun t => { t with srcChange := true }
  let s4 := forAll (allFin 2) (fun p s => if s.on (K.PORT_ADMIN p) then s else effPortAdmin p 0 s) s3.loadedOptics
  let up := (allFin 16).any fun n => s4.on (K.LINE_ADMIN n)
  let s5 := if s4.pwr.fromPor && up then s4.modClk fun c => { c with outage := some (.power, s4.pwr.porCc) } else s4.outageUncounted
  (s5.modPwr fun p => { p with fromPor := false, loadDue := false }).loadedAdmin

/-! ## Boot (R442, R443) -/

/-- A boot starts (R442, R503): a ROM test under way is cut. During a test of the core's SRAM it waits for the end (R501). -/
def bootStart (s : State) : State :=
  if s.bist.running == some .sram then s.wr K.OD_CORE_STATE 1
  else
  let s1 := if s.bist.running == some .rom then s.bistAbort 4 else s
  (if s1.activating then s1 else s1.wr K.OD_CORE_STATE 2).modSec fun x => { x with running := none, recovery := false }

/-- The ROM serves: no slot passed, the flash does not answer, or the device is SCRAPPED. Lanes stay administratively down after
a POR. -/
def recover (s : State) : State :=
  let s1 := s.modPwr fun p => { p with loadDue := false, fromPor := false, supply := .up }
  let s2 := if s.pwr.loadDue then
    (forAll (allFin 16) (fun n s => s.picotFollow n) { s1 with clk := s.outageUncounted.clk }.outsReleased).outageCheck else s1
  (s2.wr K.OD_CORE_STATE 2).modSec fun x => { x with running := none, recovery := true }

/-- The ROM loads CODE at CODE_LOAD, sets the memory protection from PRIV_LEN and starts the core at ENTRY (R442, R449). -/
def loadSkein (s : State) (img : List Byte) : State :=
  s.modSec fun c =>
    { c with
      sram := Memory.block (Skein.codeLoad img) (Skein.codeBytes img)
      privLoad := Skein.codeLoad img
      privLen := Skein.privLen img
      entry := Skein.entry img }

/-- The core runs: what its program stores is not the spec's, so of the SRAM only the CODE stays known (DESIGN CHOICE, log entry 115). -/
def coreRan (s : State) : State :=
  match s.sec.running with
  | none => s
  | some x => s.modSec fun c =>
      { c with sram := c.sram.filter fun b =>
          Skein.codeLoad (s.slot x).image ≤ b.1 && b.1 < Skein.codeLoad (s.slot x).image + Skein.codeLen (s.slot x).image }

/-- Is the instruction at SRAM address `pc` privileged code (R449)? -/
def codePriv (s : State) (pc : Nat) : Bool := s.sec.privLoad ≤ pc && pc < s.sec.privLoad + s.sec.privLen

/-- What code at `pc` reads from the signature engine, the key store, the OTP controller, the flash controller or the memory-protection
registers, where `v` is what the unit holds: an unprivileged read returns 0 (R449). -/
def guardedRead (s : State) (pc : Nat) (v : List Byte) : List Byte := if s.codePriv pc then v else v.map fun _ => 0

/-- A write of code at `pc` to one of those units, `f` its effect: an unprivileged one has none (R449). -/
def guardedWrite (s : State) (pc : Nat) (f : State → State) : State := if s.codePriv pc then f s else s

/-- The core's dictionary service starts (R404, R446, R447). -/
def coreReady (s : State) (x : Fin 2) (rootOk : Bool) : State :=
  let s1 := if s.pwr.loadDue then s.loadConfig rootOk else s
  let s2 := (((s1.wr K.OD_CORE_STATE 0).loadSkein (s1.slot x).image).modSec fun c => { c with running := some x, servedAt := s.now }).modPwr fun p => { p with supply := .up }
  let s3 := (s2.incSat K.FW_BOOT_COUNT).raise Src.CORE_READY
  let owed := s3.mgmt.owedDone
  let s4 := when_ (owed.testBit 1) (fun s => s.raise Src.WATCHDOG_RESET) (when_ (owed.testBit 0) (fun s => s.raise Src.MRST_DONE) s3)
  let s5 := if s4.sec.fwNew then (s4.raise Src.FW_ACTIVATED).modSec fun c => { c with fwNew := false } else s4
  let s6 := if Skein.debugBuild (s5.slot x).image then s5.wrBit K.SEC_DEBUG_STATE 3 true else s5
  let s7 := (s6.modMgmt fun m => { m with owedDone := 0 }).plFollow
  if (s7.slot x).st == .trial && s7.rd K.FW_TRIAL_S = 0 then s7.fwConfirm else s7

/-- A slot that the ROM tries fails a check (Table 15-5); a trial ends with it. -/
def bootRefused (s : State) (x : Fin 2) (code : Nat) : State :=
  (s.slotRefused x code).modSec fun c => { c with fallback := none, served := 0, fwNew := false }

/-- The other slot boots in place of the one tried first: it is preferred from now on (R442). -/
def bootOther (s : State) (x y : Fin 2) (rootOk : Bool) : State :=
  (((s.modSlot y fun c => { c with st := .active }).modSec fun c => { c with preferred := y }).raise Src.FW_UPDATE_FAIL
    |>.slotRecord x 3).coreReady y rootOk

/-- The boot (R442): the TRIAL slot if there is one, else the preferred slot; then the other if VALID; else recovery. -/
def boot (s : State) (flash rootOk : Bool) : State :=
  let x := s.trialSlot.getD s.sec.preferred
  let y := otherSlot x
  if s.sec.lc == .scrapped then s.recover
  else if !flash then ((s.raise Src.FLASH_FAULT).fwFail x 9).recover
  else
    let tryOther (s : State) : State :=
      if (s.slot y).st == .valid then
        match s.skeinCheck (s.slot y).image with
        | none => s.bootOther x y rootOk
        | some c => (s.bootRefused y c).recover
      else s.recover
    if (s.slot x).st == .trial || (s.slot x).st == .active || (s.slot x).st == .valid then
      match s.skeinCheck (s.slot x).image with
      | none => (if (s.slot x).st == .valid then s.modSlot x fun c => { c with st := .active } else s).coreReady x rootOk
      | some c => tryOther (s.bootRefused x c)
    else tryOther s

/-! ## Core resets (R382, R392, R404, R407, R424, R487) -/

/-- Why the core is reset. -/
inductive CoreWhy where
  | command | watchdog | sram | activation | test
deriving DecidableEq, Repr

/-- Bit of `RST_CAUSE`, with the record of a reset other than POR (Tables 16-11, 16-16). -/
def resetNoted (s : State) (bit lanes : Nat) : State := (s.wrBit K.RST_CAUSE bit true).record 0x47 0xFF (be 1 bit ++ be 2 lanes)

/-- The management core and its fabric port are reset: the write being served is cut, open groups are lost, the core's
generation steps, the performance counters clear, the level is PL2. -/
def coreReset (s : State) (why : CoreWhy) : State :=
  let wd := why == .watchdog
  let s1 := forAll (allFin 18) (fun r s => s.groupLost r 2) s.odCut
  let s2 := (s1.restartMaster 18).pcReset
  let s3 := (s2.incSat (if wd then K.MGMT_WDT_RESETS else K.MGMT_MRST_COUNT)).resetNoted (if wd then 2 else 1) 0
  let s4 := match why with
    | .command => s3.record 0x08 0xFF (be 1 1 ++ be 4 0)
    | .watchdog => s3.record 0x08 0xFF (be 1 2 ++ be 4 0)
    | .sram => s3.record 0x08 0xFF (be 1 3 ++ be 4 s.mgmt.eccAddr)
    | _ => s3
  let s5 := (s4.modMgmt fun m =>
    { m with plChange := none, plWanted := none, mrstPend := false, mrstEcc := false, watchdogPend := false, owedDone := m.owedDone ||| (if wd then 2 else 1) }).wr
      K.MGMT_PL 2
  ((s5.wr K.OD_CORE_LOAD 0).wr K.OD_CORE_STATE (if why == .activation then 3 else 1)).modSec fun x =>
    { x with halted := false, running := none, served := if s.trialSlot.isSome then x.served else 0 }

end State

end Sys2Proof.Machine
end

