-- ==== Sys2Proof/Machine/Reset.lean ====
section
/-!
DEFINITION. The resets of Table 16-10 and what each leaves (Tables 16-2, 16-12, R466 to R471, R487 to R490, R361, R404), and
the lock of the synthesizers (R24, R146, R277, R304).
-/

namespace Sys2Proof.Machine

namespace State

/-! ## Lane reset (R71, R82, R97, R130, R161, R270, R286, R488) -/

/-- Volatile entries of Ln and its host pair that a lane reset leaves: those its chapters keep (counters of R161, `LINE_ROW_TX`
of R130, the slot map of R275, the cause 9 that says why the lane fell), and those that show a pin or the gearbox. -/
def laneKeeps (k : Key) : Bool :=
  match k.blk with
  | .line _ =>
    k.off == 0x04 || k == ⟨k.blk, 0x2C, 4⟩ || k == ⟨k.blk, 0x2C, 0x0A⟩ ||
      k == ⟨k.blk, 0x35, 1⟩ || k.off == 0x38 || k.off == 0x39 || k.off == 0x3A || k.off == 0x3B
  | .host _ => k.off == 0x01 || k.off == 0x10 || k.off == 0x11
  | _ => true

/-- The volatile entries of Ln return to their reset values (Table 16-12). -/
def laneVolatile (s : State) (n : Fin 16) : State :=
  s.resetEntries fun k =>
    (k.blk == .line n || k.blk == .host (hostA n) || k.blk == .host (hostB n)) && persOf k == .vol && !laneKeeps k

/-- A lane reset of Ln, without its record. It lasts 4,096 cc (Table 16-10). -/
def laneResetAt (s : State) (n : Fin 16) : State :=
  let s0 := s.modLane n fun l => { l with laneReset := true, resetEnd := s.now + 4096 }
  let s1 := (((if s.phase n = 0 then s0.wr (K.LINE_CO_LAST_FAIL n) 0 else s0.setFail n 9).coDrop n).calAbort n).modCo n fun c =>
    { c with phaseAt := s.now, farKnown := false }
  let s2 := ((((s1.rxLaneReset n).txLaneReset n).formatLaneReset n).timeLaneReset n).picotLaneReset n
  let s3 := ((s2.prbsOff (.line n)).prbsOff (.host (hostA n))).prbsOff (.host (hostB n))
  ((((((s3.hostLaneReset n).ssFollow n).laneVolatile n).fillShow n).wr (K.LINE_SWATCH_STATUS n) (if s.swatchBusy n then 4 else 0)).outFollow n)

/-- The lane resets whose time has passed end: the stage follows its demands, the receiver listens, cast-on starts (R196). -/
def laneResetTick (s : State) : State :=
  forAll (allFin 16) (fun n s =>
    if (s.lane n).laneReset && (s.lane n).resetEnd ≤ s.now then
      (((s.modLane n fun l => { l with laneReset := false }).outFollow n).picotFollow n).castStart n
    else s) s

/-- The lane of a reset, or its port group, is under test: the test is cut (R503). -/
def testCut (s : State) (n : Fin 16) (cause : Nat) : State := if s.laneTested n then s.bistAbort cause else s

/-- `RST_LANE` (R488): every named lane in the same cc, one record. -/
def lanesReset (s : State) (mask : Nat) : State :=
  if mask = 0 then s
  else
    let s1 := forAll (allFin 16) (fun n s => if mask.testBit n.val then (s.testCut n 2).laneResetAt n else s) s
    s1.resetNoted 0 mask

/-! ## The state a whole reset leaves (Table 16-12) -/

/-- A reset that keeps the event recorder takes every lane from C1 to C7 to C0: the change of phase is recorded (R226). -/
def phasesLost (s : State) : State :=
  forAll (allFin 16) (fun n s => if s.phase n = 0 then s else s.phaseRecord n 0) s

/-- Up lanes with frame lock: what a reset takes down is a line fault (R30). -/
def upLocked (s : State) : Bool := (allFin 16).any fun n => !s.laneDown n && s.frameLock n

/-- Lanes, groups and units in trip hold, while the trip lasts (R493). -/
def holdTrip (s : State) : State :=
  if s.bit K.THERM_STATUS 0 then
    forAll (allFin 22) (fun u s => if u.val < 20 then s.wr (K.PWR_STATE u) 4 else s) s
  else s

/-- What the sensors and the trip logic of the always-on domain hold (R491). -/
def thermKeeps (k : Key) : Bool := k.blk == .dev && (k.off == 0x8100 || (k.off == 0x8200 && (k.sub ≤ 2 || k.sub == 0x0B)))

/-- The reset state, with the entries that a test names as they stand. That a lane has reached C7 and the coefficients it held then are
forgotten with the rest, also by a reset that is no POR, so that the next acquisition is cold (DESIGN CHOICE, log entry 95). -/
def fresh_ (s : State) (keep : Key → Bool) : State :=
  { State.reset with
    pending := s.pending, now := s.now, free := s.free
    store := s.store.filter fun e => keep e.1
    lanes := State.reset.lanes.map fun l => { l with co := { l.co with phaseAt := s.now } }
    od := { State.reset.od with copies := s.od.copies, erased := s.od.erased }
    sec :=
      { State.reset.sec with
        otp := s.sec.otp, slots := s.sec.slots, preferred := s.sec.preferred, recs := s.sec.recs, fallback := s.sec.fallback, served := s.sec.served
        cert := s.sec.cert, fwNew := s.sec.fwNew }
    pwr :=
      { State.reset.pwr with
        resetLow := s.pwr.resetLow, strapRef := s.pwr.strapRef, strapTwi := s.pwr.strapTwi, faultPors := s.pwr.faultPors }
    bist := { State.reset.bist with maps := s.bist.maps.filter (·.fused) }
    clk := { State.reset.clk with rootValid := s.clk.rootValid }
    ce := { State.reset.ce with calPend := true } }

/-- A download that a reset cuts leaves its slot INVALID. -/
def slotsCut (s : State) : State :=
  forAll (allFin 2) (fun x s => if (s.slot x).st == .writing then s.modSlot x fun c => { c with st := .invalid, writer := none } else s) s

/-- The root's entries after a POR or RESET_N: the strap's root, present or not. -/
def rootShown (s : State) : State := (s.wrBit K.CLK_STATUS 5 s.pwr.strapRef).wrBit K.CLK_STATUS 2 s.clk.rootValid

/-! ## POR (R467 to R470, Table 16-2) -/

/-- Bits of `RST_CAUSE`. -/
inductive PorWhy where
  | vin | fault | offWake
deriving DecidableEq, Repr

/-- POR is asserted: the regulators go off, every register takes its reset value, save in the always-on domain (R489). -/
def porAssert (s : State) (why : PorWhy) : State :=
  let s1 := (s.fresh_ fun k => persOf k == .aon && !(why == .vin && k == K.PWR_LAST_FAULT)).wr K.OD_CORE_STATE 1
  let s2 := match why with
    | .vin => s1.wr K.RST_CAUSE 0x40
    | .fault => s1.wrBit K.RST_CAUSE 7 true
    | .offWake => s1.wrBit K.RST_CAUSE 8 true
  s2.modPwr fun p => { p with supply := .off }

/-- The straps are latched (R515): REFSEL in bit 2 of `straps`, TWIA1 and TWIA0 below it. -/
def latchStraps (s : State) (straps : BitVec 3) : State :=
  s.modPwr fun p => { p with strapRef := straps.getLsbD 2, strapTwi := straps.toNat % 4 }

/-- POR ends and steps 3 to 7 of Table 16-2 run: the OTP and the slot-state record are read, the straps are latched; the sequence waits for
LSYN. A download that the power loss cut leaves its slot INVALID (Table 15-5). A new challenge is drawn (R456). -/
def porRelease (s0 : State) (straps : BitVec 3) : State :=
  let s := s0.latchStraps straps
  let s1 := ((s.rootShown).wr K.CLK_REF_SRC (if s.pwr.strapRef then 1 else 0)).modPwr fun p =>
    { p with supply := .starting, porCc := s.now, fromPor := true, loadDue := true }
  ({ s1 with free := s1.free + 1 }.modSec fun x => { x with challenge := s1.free }).readOtp.recRead.slotsCut

/-! ## RESET_N (R471) -/

/-- RESET_N goes low: the whole device but the always-on domain, the regulators and the event recorder. A power cycle whose load has not
come yet goes on as one (R30). -/
def resetNAssert (s : State) : State :=
  let s0 := (((if s.upLocked then s.outageStart .line else s).debugEnd 0).resetNoted 5 0).phasesLost
  let s1 := (s0.fresh_ fun k => persOf k == .aon || recKeeps k || thermKeeps k || k == K.SEC_DEBUG_STATE).wr K.OD_CORE_STATE 1
  let s2 :=
    { s1 with
      clk := { s1.clk with outage := s0.clk.outage }
      mgmt := { s1.mgmt with recQ := s0.mgmt.recQ, firstLap := s0.mgmt.firstLap, wmArmed := s0.mgmt.wmArmed }
      bist := { s1.bist with maps := s0.bist.maps }
      sec :=
        { s1.sec with
          lc := s0.sec.lc, kill := s0.sec.kill, minSvn := s0.sec.minSvn, revoked := s0.sec.revoked, challenge := s0.sec.challenge
          refusals := s0.sec.refusals, lastRefusal := s0.sec.lastRefusal, tap := s0.sec.tap, keys := s0.sec.keys
          recDue := s0.sec.recDue }
      pwr :=
        { s1.pwr with
          resetLow := true, fromPor := s0.pwr.fromPor && s0.pwr.loadDue, lockedOnce := s0.pwr.lockedOnce, railFault := s0.pwr.railFault
          tripCc := s0.pwr.tripCc, coolAt := s0.pwr.coolAt, brokenRun := s0.pwr.brokenRun, tripSensor := s0.pwr.tripSensor
          porCc := s0.pwr.porCc } }
  ((s2.wrField K.SEC_DEBUG_STATE 1 0 0).slotsCut.holdTrip).rootShown.wr K.CLK_REF_SRC (if s2.pwr.strapRef then 1 else 0)

/-! ## Ring device reset (R361) -/

/-- Entries of units that the ring device reset leaves: clocks, time, ring, recorder, always-on domain, sensors; the pads'
codes, which latch. -/
def ringKeeps (k : Key) : Bool :=
  persOf k == .aon || recKeeps k || thermKeeps k || k == K.SEC_DEBUG_STATE || k == K.CLK_REF_SRC || k == K.CE_STATUS || k == K.CE_FRAME ||
  (match k.blk with
   | .port _ => true
   | .aux _ => k.sub == 4 || k.sub == 5
   | .dev => (0x2000 ≤ k.off && k.off < 0x2100) || (0x5000 ≤ k.off && k.off < 0x5110 && persOf k != .flash)
   | _ => false)

/-- Does the loaded source, or its lane, differ from the one in force (R293)? -/
def srcDiffers (s : State) : Bool :=
  s.rd K.TIME_DISC_SRC != s.timeSrc || (s.timeSrc == 3 && s.rd K.TIME_LINE_LANE != s.time.lane)

/-- The values that were saved take the place of the defaults; the time unit, which is not reset, changes its source only where they name
another (R303). -/
def loadUnits (s : State) : State :=
  let s1 := (s.noteDefaults).loadKeys fun k => !ringKeeps k
  let s2 := forAll (allFin 16) (fun n s => s.loadedLane true n) s1
  ((s2.modTime fun t => { t with srcChange := s2.srcDiffers }).loadedOptics).loadedAdmin

/-- The ring device reset: every unit but the clock unit, the time unit, the ring agent, the ports, the event recorder and the
always-on domain. The pads latch, the saved configuration is loaded, the core boots. -/
def ringDeviceReset (s : State) : State :=
  let sq := forAll (allFin 16) (fun n s => if s.frameLock n then s.rclkoLaneLost n else s) s
  let s0 := (((if s.upLocked then sq.outageStart .line else sq).debugEnd 0).resetNoted 4 0).phasesLost
  let s1 := (s0.padLatch.fresh_ ringKeeps).wr K.OD_CORE_STATE 1
  let s2 :=
    { s1 with
      clk := s0.clk, time := s0.time, ring := { s0.ring with resetPend := false, resetGo := false }
      mgmt := { s1.mgmt with recQ := s0.mgmt.recQ, firstLap := s0.mgmt.firstLap, wmArmed := s0.mgmt.wmArmed }
      bist := { s1.bist with maps := s0.bist.maps }
      ce := { s1.ce with auxs := s0.ce.auxs, ogLevel := s0.ce.ogLevel, calPend := false, trip := s0.bit K.THERM_STATUS 0 }
      sec :=
        { s1.sec with
          lc := s0.sec.lc, kill := s0.sec.kill, minSvn := s0.sec.minSvn, revoked := s0.sec.revoked, challenge := s0.sec.challenge
          refusals := s0.sec.refusals, lastRefusal := s0.sec.lastRefusal, tap := s0.sec.tap, keys := s0.sec.keys
          recDue := s0.sec.recDue }
      pwr :=
        { s1.pwr with
          supply := .booting, fromPor := false, loadDue := false, lockedOnce := s0.pwr.lockedOnce, railFault := s0.pwr.railFault
          tripCc := s0.pwr.tripCc, coolAt := s0.pwr.coolAt, brokenRun := s0.pwr.brokenRun, tripSensor := s0.pwr.tripSensor
          porCc := s0.pwr.porCc } }
  let s3 := ((((s2.wrField K.SEC_DEBUG_STATE 1 0 0).wrBit K.CE_STATUS 1 false).wrBit K.CE_STATUS 0 s0.clk.lsynRuns).slotsCut.holdTrip).loadUnits
  s3.ceHold.bootStart

/-! ## Clocks (R24, R146, R303, R304, R347) -/

/-- Both synthesizers lock. The first lock after POR or RESET_N is step 9 of Table 16-2: time counter, control frames, ring
ports, boot. When LSYN had lost lock, the DAC sample queues are checked; `dist`: the distances found, in cc (R88). -/
def synthLock (s : State) (dist : List (Fin 16 × Nat)) : State :=
  if !s.clk.rootValid || s.pwr.resetLow || !s.powered then s
  else
    let s0 := if s.clk.lsynRuns && !s.bit K.CLK_STATUS 0 then forAll dist (fun d s => s.queueFound d.1 d.2) s else s
    let s1 := (s0.wrBit K.CLK_STATUS 0 true).wrBit K.CLK_STATUS 1 true
    let s2 := if s.clk.lsynRuns then s1
      else
        ((((((s1.modClk fun c => { c with lsynRuns := true }).timeStart).wrBit K.CE_STATUS 0 true).ringStart).modPwr fun p =>
          { p with supply := .booting, lockedOnce := true }).deriveKeys).bootStart
    forAll (allFin 4) (fun k s => s.gbUp k) s2

/-- A synthesizer loses lock outside held-frequency mode (Table 5-2): `hsyn`, or LSYN. -/
def synthLost (s : State) (hsyn : Bool) : State :=
  if s.bit K.CLK_STATUS 3 || !s.clk.lsynRuns then s
  else forAll (allFin 4) (fun k s => s.gbLose k) (s.wrBit K.CLK_STATUS (if hsyn then 1 else 0) false)

/-! ## Supply (R467, R468) -/

/-- A rail fault is declared. While RESET_N is low the interrupt tree is held in reset and takes no cause (DESIGN CHOICE, log entry
109). -/
def railFaultAt (s : State) (rail kind : Nat) : State :=
  let s1 := (((s.modPwr fun p => { p with railFault := some (rail, kind) }).wr K.PWR_LAST_FAULT (rail * 256 + kind)).incSat K.PWR_REG_FAULTS).record
    0x46 rail (be 1 kind)
  if s.pwr.resetLow then s1 else s1.raise Src.REG_FAULT

/-- The fault has lasted 200 µs: POR, the regulators off for 100 ms; the PORs of the last 10 s are kept. -/
def railFaultPor (s : State) : State :=
  match s.pwr.railFault with
  | none => s
  | some _ => (s.porAssert .fault).modPwr fun p =>
    { p with supply := .faultOff, faultPors := s.now :: p.faultPors.filter fun c => s.now ≤ c + 10 * ccPerSecond }

/-- Was the latest rail-fault POR the third within 10 s? -/
def thirdFault (s : State) : Bool := 3 ≤ s.pwr.faultPors.length

/-- The 100 ms end: the sequence runs again, unless it was the third such POR within 10 s. -/
def faultRestart (s : State) (straps : BitVec 3) : State :=
  if s.pwr.supply != .faultOff then s
  else if s.thirdFault then s.modPwr fun p => { p with supply := .stuckOff }
  else s.porRelease straps

/-- VIN falls below 2.90 V, `deep`: below 2.50 V; POR, with cause VIN when it returns. After a third rail-fault POR the regulators stay off
until WAKE or a fall below 2.50 V (R468). -/
def vinLoss (s : State) (deep : Bool) : State :=
  if !deep && (s.pwr.supply == .stuckOff || (s.pwr.supply == .faultOff && s.thirdFault)) then s
  else (s.porAssert .vin).modPwr fun p => { p with faultPors := if deep then [] else p.faultPors }

/-! ## Management resets (R403, R404, R487) -/

/-- A SECDED error in the core's SRAM: `corrected`, or not, at `addr`. -/
def sramError (s : State) (corrected : Bool) (addr : Nat) : State :=
  if corrected then ((s.incSat K.MGMT_SRAM_CORRECTED).raise Src.SRAM_CORRECTED).pcSecded (some addr)
  else
    ((s.incSat K.MGMT_SRAM_UNCORR).raise Src.SRAM_UNCORRECTABLE).modMgmt fun m => { m with mrstPend := true, mrstEcc := true, eccAddr := addr }

/-- A watchdog reset: a failure of a trial (R447); the core boots. -/
def watchdogReset (s : State) : State := (s.trialFail.coreReset .watchdog).bootStart

/-- A requested MRST takes place. -/
def mrst (s : State) : State :=
  if s.mgmt.mrstPend then
    ((if s.mgmt.mrstEcc then s.trialFail.coreReset .sram else s.coreReset .command)).bootStart
  else s

end State

/-! ## Meanings -/

/-- `dist`: the distance of each DAC sample queue that is found (R88). -/
def execSynthLock (dist : List (Fin 16 × Fin 256)) (s : State) : Host.Outcome State Fault Refusal :=
  .next (s.synthLock (dist.map fun d => (d.1, d.2.val)))
def execSynthLockLoss (hsyn : Bool) (s : State) : Host.Outcome State Fault Refusal := .next (s.synthLost hsyn)

/-- POR is released 2 ms after VIN rose above 3.00 V. `straps`: REFSEL, TWIA1, TWIA0. -/
def execVinPorRelease (straps : BitVec 3) (s : State) : Host.Outcome State Fault Refusal :=
  .next (if s.pwr.supply == .off then s.porRelease straps else s)

def execVinUnder (s : State) : Host.Outcome State Fault Refusal := .next (if s.powered then s.raise Src.VIN_UNDER else s)
def execVinOver (s : State) : Host.Outcome State Fault Refusal := .next (if s.powered then s.raise Src.VIN_OVER else s)

/-- VIN falls below 2.90 V; `deep`: below 2.50 V. -/
def execVinLoss (deep : Bool) (s : State) : Host.Outcome State Fault Refusal := .next (s.vinLoss deep)

/-- A rail fault is declared (R468), with RESET_N low too, which leaves the regulators running: `rail` 1 to 6 in the order of Table
16-1. -/
def execRailFault (rail : BitVec 8) (current : Bool) (s : State) : Host.Outcome State Fault Refusal :=
  .next (if s.supplied && 1 ≤ rail.toNat && rail.toNat ≤ 6 then s.railFaultAt rail.toNat (if current then 2 else 1) else s)

def execRailFaultPor (s : State) : Host.Outcome State Fault Refusal := .next (if s.supplied then s.railFaultPor else s)
def execRegFaultRestart (straps : BitVec 3) (s : State) : Host.Outcome State Fault Refusal := .next (s.faultRestart straps)

/-- RESET_N is low for 1 µs or longer. In Off only the level is known. -/
def execResetNAssert (s : State) : Host.Outcome State Fault Refusal :=
  .next (if s.powered then s.resetNAssert else s.modPwr fun p => { p with resetLow := true })

/-- RESET_N rises: the synthesizers relock. -/
def execResetNRelease (s : State) : Host.Outcome State Fault Refusal := .next (s.modPwr fun p => { p with resetLow := false })

/-- A write of `RST_LANE` (R488). -/
def effRstLane (v : Nat) (s : State) : State := s.lanesReset v

def execRstLane (r : Fin 18) (v : BitVec 16) (s : State) : Host.Outcome State Fault Refusal :=
  .next (s.write r K.RST_LANE (be 2 v.toNat) (effRstLane v.toNat))

/-- The ring device reset, once its RESET_REPLY has left (R361). -/
def execRingDeviceReset (s : State) : Host.Outcome State Fault Refusal := .next (if s.resetReplied && !s.scanOn then s.ringDeviceReset else s)

def execSramEccError (corrected : Bool) (addr : BitVec 32) (s : State) : Host.Outcome State Fault Refusal :=
  .next (s.sramError corrected addr.toNat)

/-- The firmware has not served the watchdog for 500 ms; a core in reset has none to serve, a halted one pauses it (R458). -/
def execWatchdogExpiry (s : State) : Host.Outcome State Fault Refusal :=
  .next (if s.rd K.OD_CORE_STATE = 1 || s.sec.halted then s else s.watchdogReset)

def execMrst (s : State) : Host.Outcome State Fault Refusal := .next s.mrst

end Sys2Proof.Machine
end

