-- ==== Sys2Proof/Machine/Thermal.lean ====
section
/-!
DEFINITION. Temperature sensors (R332), the thermal trip and restart (R491 to R495), the trip test (R496), and what takes a
unit into and out of trip hold. Requests of the power units stand in Power.lean.
-/

namespace Sys2Proof.Machine

namespace State

/-! ## Readings (R332, R491, R494, R495) -/

def tempOf (s : State) (i : Nat) : Int := s.rdI (K.TEMP_T i)

/-- The largest reading of the sensors of a list, and the lowest sensor that has it. -/
def hottest (s : State) (l : List Nat) : Option (Nat × Int) :=
  l.foldl (fun (m : Option (Nat × Int)) i =>
    match m with
    | none => some (i, s.tempOf i)
    | some (j, t) => if t < s.tempOf i then some (i, s.tempOf i) else some (j, t)) none

def sensors : List Nat := List.range 24

/-- The sensors that the trip looks at. -/
def tripSensors (s : State) : List Nat := sensors.filter fun i => !s.bit K.THERM_TRIP_EXCLUDE i

/-- The smallest valid reading. -/
def coldest (s : State) : Option Int :=
  (sensors.filter fun i => !s.bit K.TEMP_BROKEN i).foldl (fun m i =>
    match m with
    | none => some (s.tempOf i)
    | some t => some (if s.tempOf i < t then s.tempOf i else t)) none

def tripped (s : State) : Bool := s.bit K.THERM_STATUS 0

def setBroken (s : State) (i : Fin 24) (n : Nat) : State := s.modPwr fun p => { p with brokenRun := p.brokenRun.set i n }

/-- The reading of one conversion: 0.01 °C, or 0x7FFF for a sensor that does not answer or reads outside −60 °C to 175 °C. -/
def tempReading (s : State) (i : Fin 24) (v : Nat) (answers : Bool) : State :=
  let valid := answers && -6000 ≤ sx 16 v && sx 16 v ≤ 17500
  let run := s.pwr.brokenRun.get i
  let s1 := (s.wr (K.TEMP_T i.val) (if valid then v else 0x7FFF)).wrBit K.TEMP_BROKEN i.val !valid
  if !valid then
    let s2 := s1.setBroken i 1
    if s.bit K.TEMP_BROKEN i.val then s2 else s2.raise Src.TEMP_SENSOR_BROKEN
  else if run = 0 then s1
  else if run = 16 then (s1.setBroken i 0).raise Src.TEMP_SENSOR_RESTORED
  else s1.setBroken i (run + 1)

/-- The maxima and the bits that follow them. -/
def tempFollow (s : State) : State :=
  let (sensor, max_) := (s.hottest sensors).getD (0, 0)
  let (tripAt, trip) := (s.hottest s.tripSensors).getD (0, 0)
  let s1 := (((s.wrI K.TEMP_MAX max_).wr K.TEMP_MAX_SENSOR sensor).wrI K.THERM_TRIP_MAX trip).modPwr fun p => { p with tripSensor := tripAt }
  let s2 := s1.wrBit K.THERM_STATUS 1 (s.tripSensors.any fun i => s.bit K.TEMP_BROKEN i)
  let hi := s.rdI K.THERM_WARN_HIGH
  let lo := s.rdI K.THERM_WARN_LOW
  let isHi := hi ≤ max_
  let isLo : Bool := match s.coldest with | some t => t < lo | none => false
  let farLo : Bool := match s.coldest with | some t => lo + 200 ≤ t | none => true
  let s3 := (s2.wrBit K.THERM_STATUS 4 isHi).wrBit K.THERM_STATUS 5 isLo
  let s4 := if isHi && s.pwr.warnHighArmed then (s3.modPwr fun p => { p with warnHighArmed := false }).raise Src.TEMP_WARN_HIGH
    else if max_ ≤ hi - 200 then s3.modPwr fun p => { p with warnHighArmed := true } else s3
  let s5 := if isLo && s.pwr.warnLowArmed then (s4.modPwr fun p => { p with warnLowArmed := false }).raise Src.TEMP_WARN_LOW
    else if farLo then s4.modPwr fun p => { p with warnLowArmed := true } else s4
  let fast := 11500 ≤ max_
  let s6 := s5.wrBit K.THERM_STATUS 3 fast
  let s7 := if fast && !s.bit K.THERM_STATUS 3 then s6.raise Src.TEMP_FAST_SAMPLE else s6
  if s.tripped then
    (s7.wrBit K.THERM_STATUS 2 (trip < 10500)).modPwr fun p => { p with coolAt := if trip < 10500 then p.coolAt.or (some s.now) else none }
  else s7

/-- A sensor converts. -/
def tempConverted (s : State) (i : Fin 24) (v : Nat) (answers : Bool) : State :=
  let s1 := (s.tempReading i v answers).tempFollow.modCe fun c => { c with tempNew := c.tempNew.set i (some s.newFrame) }
  if i.val = 20 then s1.monCalDrift else s1

/-- `THERM_COOL_MS` (R493). -/
def coolMs (s : State) : Nat :=
  match s.tripped, s.pwr.coolAt with
  | true, some c => min 2000 (ccToUs (s.now - c) / 1000)
  | _, _ => 0

/-! ## Refusals and aborts of the power units (R475, R477) -/

/-- A request of a unit is refused. -/
def pwrRefuse (s : State) (u : Fin 22) (v code : Nat) : State :=
  (((s.wrField (K.PWR_LAST_REFUSER u) 7 0 code).incSat ⟨.dev, 0x8002, code⟩).record 0x41 u.val (be 1 v ++ be 1 code)).raiseIn
    Src.PWR_ENTRY_REFUSED K.DET_PWR_ENTRY_REFUSED u.val

/-- An entry is aborted: target, abort point, cause. -/
def pwrAborted (s : State) (u : Fin 22) (target ap cause : Nat) : State :=
  (((s.wrField (K.PWR_LAST_REFUSER u) 15 8 cause).incSat ⟨.dev, 0x8002, 7 + cause⟩).record 0x42 u.val
    (be 1 target ++ be 1 ap ++ be 1 cause)).raiseIn Src.PWR_ENTRY_ABORTED K.DET_PWR_ENTRY_ABORTED u.val

/-- The unit stands in a state, with no transition. -/
def unitStill (s : State) (u : Fin 22) (st : Nat) : State :=
  ((s.wr (K.PWR_STATE u) st).wr (K.PWR_TRANSITION u) 0).modUnit u fun p => { p with trans := .still, waitPg := false, save := 0 }

/-! ## Trip hold (R492, R493) -/

/-- A unit's pending request is discarded as refused. -/
def tripDiscard (s : State) (u : Fin 22) : State :=
  if s.rd (K.PWR_PENDING u) = 0xFF then s
  else (s.wr (K.PWR_PENDING u) 0xFF).pwrRefuse u (s.rd (K.PWR_PENDING u)) 5

/-- Does the trip put the unit in hold: Run, Idle, or a transition other than step E6? -/
def tripTakes (s : State) (u : Fin 22) : Bool :=
  match (s.unit u).trans with
  | .still => s.rd (K.PWR_STATE u) ≤ 1
  | .entering st _ => st != 6
  | .waking _ => true

/-- The members of a unit in trip hold: a lane is reset without bind-off and its output falls to idle, then disabled; a port
group's gearbox is OFF. -/
def tripMembers (s : State) (u : Fin 22) : State :=
  if h : u.val < 16 then
    let n : Fin 16 := ⟨u.val, h⟩
    let s1 := s.laneResetAt n
    (s1.modLane n fun l => { l with outOff := true }).outFollow n
  else if h : u.val < 20 then
    let k : Fin 4 := ⟨u.val - 16, by omega⟩
    (s.gbStop k).resetEntries fun e => e.blk == .pg k && persOf e == .vol
  else s

/-- The trip takes a unit: an entry in progress is aborted with cause TRIP. -/
def tripUnit (s : State) (u : Fin 22) : State :=
  let s1 := s.tripDiscard u
  if !s.tripTakes u then s1
  else
    let s2 := match (s.unit u).trans with
      | .entering st t => s1.pwrAborted u t st 5
      | _ => s1
    (s2.unitStill u 4).modUnit u (fun p => { p with pendWake := none, byRequest := false }) |>.tripMembers u

/-- The thermal trip (Table 16-13; it cuts a lane or port-group test, R503), by the sensor and the maximum of the conversion that caused it (R491, R494). -/
def thermalTrip (s : State) : State :=
  let sensor := s.pwr.tripSensor
  let max_ := s.rdI K.THERM_TRIP_MAX
  let s1 := ((s.outageStart .trip).wrBit K.THERM_STATUS 0 true).modPwr fun p => { p with tripCc := s.now, coolAt := none }
  let s2 := ((s1.incSat K.THERM_TRIP_COUNT).wr K.THERM_LAST_TRIP s.timeNow).wr K.THERM_LAST_SENSOR sensor
  let s3 := ((s2.record 0x44 sensor (be 2 (zx 16 max_))).raise Src.THERMAL_TRIP).resetNoted 3 0
  let cut : Bool := match s3.bist.running with
    | some (.lane _) | some (.pg _) => true
    | _ => false
  let s4 := forAll ((allFin 22).filter fun u => u.val < 20) (fun u s => s.tripUnit u) (when_ cut (fun s => s.bistAbort 3) s3)
  let s5 := ((s4.monCalFinish 3).modCe fun c => { c with trip := true, resume := false }).modMgmt fun m => { m with forcedPl0 := true }
  (s5.plFollow).outageCheck

/-- A lane unit is in Run again: stage, receivers, gearbox, rotation, cast-on (R479, R493). -/
def laneRuns (s : State) (n : Fin 16) : State :=
  (((((s.outRelease n).hostLaneReset n).gbUp (pgOf n)).ssFollow n).picotFollow n).castStart n

/-- The restart (R493): units in trip hold return to Run. -/
def thermalRestart (s : State) : State :=
  let held (u : Fin 22) : Bool := s.rd (K.PWR_STATE u) == 4
  let s1 := (((s.wrBit K.THERM_STATUS 0 false).wrBit K.THERM_STATUS 2 false).wrBit K.CE_STATUS 3 false).modPwr fun p => { p with coolAt := none }
  let s2 := (s1.record 0x45 0xFF (be 4 (min (2 ^ 32 - 1) (ccToUs (s.now - s.pwr.tripCc) / 1000)))).raise Src.THERMAL_RESTART
  let s3 := forAll ((allFin 22).filter held) (fun u s => s.unitStill u 0) s2
  let s4 := forAll ((allFin 16).filter fun n => held (laneUnit n)) (fun n s => s.laneRuns n) s3
  ((s4.modCe fun c => { c with trip := false, resume := s.on K.THERM_AUTO_RESUME }).modMgmt fun m => { m with forcedPl0 := false }).plFollow

end State

/-! ## Meanings -/

/-- Sensor Ti converts: `v` its reading in 0.01 °C. -/
def execTempConversion (i : Fin 24) (v : BitVec 16) (answers : Bool) (s : State) : Host.Outcome State Fault Refusal :=
  .next (s.tempConverted i v.toNat answers)

/-- The trip acts on the trip maximum as the conversions left it (R491). -/
def execThermalTrip (s : State) : Host.Outcome State Fault Refusal :=
  .next (if !s.tripped && 12500 ≤ s.rdI K.THERM_TRIP_MAX then s.thermalTrip else s)

/-- The trip maximum has stayed below 105.00 °C for 2 s. -/
def execThermalRestart (s : State) : Host.Outcome State Fault Refusal :=
  .next (if s.tripped && s.pwr.coolAt.isSome then s.thermalRestart else s)

/-- `THERM_TRIP_TEST`. -/
def effTripTest (v : Nat) (s : State) : State := if v = 1 then s.wrBit K.THERM_STATUS 6 true else s

def execThermTripTest (r : Fin 18) (v : BitVec 8) (s : State) : Host.Outcome State Fault Refusal :=
  .next (s.write r K.THERM_TRIP_TEST (be 1 v.toNat) (effTripTest v.toNat))

/-- The test ends: `fired` names the comparators that fired. -/
def execTripTestDone (fired : BitVec 24) (s : State) : Host.Outcome State Fault Refusal :=
  .next (if s.bit K.THERM_STATUS 6 then
    ((s.wrBit K.THERM_STATUS 6 false).wrBit K.THERM_STATUS 7 (fired.toNat = 2 ^ 24 - 1)).raise Src.TRIP_TEST_DONE else s)

end Sys2Proof.Machine
end

