-- ==== Sys2Proof/Machine/Power.lean ====
section
/-!
DEFINITION. Power units (16_power_reset_thermal.md, R472 to R481, R483 to R486): requests, refusers, entries with their
abort points, wakes, retention banks; the Off state (R482).
-/

namespace Sys2Proof.Machine

namespace State

/-! ## Refusers (Table 16-7) -/

/-- Firmware that forbids Sleep, Deep sleep and Off. -/
def fwBusy (s : State) : Bool := s.anyWriting || s.trialSlot.isSome || s.activating

/-- The first refuser that applies to a request for state `v`, in the order of the table. -/
def refuser (s : State) (u : Fin 22) (v : Nat) : Option Nat :=
  let pgLanesOn : Bool := match h : decide (16 ≤ u.val ∧ u.val < 20) with
    | true => (lanesOf ⟨u.val - 16, by have := of_decide_eq_true h; omega⟩).any fun n => s.rd (K.PWR_STATE (laneUnit n)) ≤ 1
    | false => false
  if u.val = 21 && 2 ≤ v && s.debugLevel != 0 then some 1
  else if (1 ≤ v && s.unitTested u) || (v = 3 && (unitBanks u).any fun b => s.pwr.bankBad.contains b) then some 2
  else if 2 ≤ v && pgLanesOn then some 3
  else if u.val < 20 && s.tripped then some 5
  else if v = 1 && 16 ≤ u.val && u.val ≤ 20 then some 6
  else if u.val = 21 && 2 ≤ v && s.fwBusy then some 7
  else none

/-! ## Wakes (R477 to R480) -/

/-- The lane of a lane unit. -/
def laneOf (u : Fin 22) : Option (Fin 16) := if h : u.val < 16 then some ⟨u.val, h⟩ else none

/-- A unit's wake event of cause `c` that a transition under way must end before it acts. -/
def wakeWaits (s : State) (u : Fin 22) (c : Nat) : State :=
  (s.slotReplaced u).modUnit u fun p => { p with pendWake := p.pendWake.or (some c) }

/-- A wake to level `t` starts; a lane's to Run waits for its port-group unit, which wakes first, whose entry is reversed at its next abort
point, or whose wake to a lower level goes on to Run (R480). -/
def wakeStart (s : State) (u : Fin 22) (t : Nat) : State :=
  let s1 := s.wakingTo u t
  match laneOf u with
  | none => s1.bankCheck u
  | some n =>
    let g := pgUnit (pgOf n)
    if t != 0 || (s.rd (K.PWR_STATE g) = 0 && (s.unit g).trans == .still) then s1.bankCheck u
    else
      let s2 := s1.modUnit u fun p => { p with waitPg := true }
      match (s.unit g).trans with
      | .still => (s2.wakingTo g 0).bankCheck g
      | .entering _ _ => s2.wakeWaits g 2
      | .waking t => if t = 0 then s2 else s2.wakeWaits g 2

/-- A port-group unit is in Run: the lanes that waited for it start their wakes (R480). -/
def pgRuns (s : State) (k : Fin 4) : State :=
  forAll (lanesOf k) (fun n s =>
    if (s.unit (laneUnit n)).waitPg then (s.modUnit (laneUnit n) fun p => { p with waitPg := false }).bankCheck (laneUnit n) else s) s

/-- A wake event of a unit, by its cause (R477). -/
def wakeEvent (s : State) (u : Fin 22) (cause : Nat) : State :=
  if u.val < 20 && s.tripped then s
  else match (s.unit u).trans with
    | .entering _ _ => s.wakeWaits u cause
    | .waking t => if t = 0 then s.slotReplaced u else s.wakeWaits u cause
    | .still => if 1 ≤ s.rd (K.PWR_STATE u) && s.rd (K.PWR_STATE u) ≤ 3 then s.wakeStart u 0 else s

/-! ## Entries (R476, Table 16-8) -/

/-- A step begins; what it does from its start. -/
def stepBegin (s : State) (u : Fin 22) (st t : Nat) : State :=
  let s1 := (s.wr (K.PWR_TRANSITION u) (16 * t + st)).modUnit u fun p => { p with trans := .entering st t }
  match st, laneOf u with
  | 1, some n =>
    let s2 := ((((s1.modUnit u fun p => { p with byRequest := true }).outageCheck).calAbort n).outFollow n).swatchAbort n
    match s2.phase n with
    | 0 => s2.modCo n fun c => { c with calCo := false }
    | 1 => s2.toC0 n (s2.co n).hold
    | _ => (s2.bindOff n 2).coSettle n
  | 2, some n => (s1.modLane n fun l => { l with outOff := true }).outFollow n
  | 4, _ =>
    if s1.od.unsaved then (s1.startSave).modUnit u fun p => { p with save := 1 } else s1.modUnit u fun p => { p with save := 2 }
  | _, _ => s1

/-- An entry starts at the step at which the present level ends. -/
def entryStart (s : State) (u : Fin 22) (t : Nat) : State :=
  let cur := s.rd (K.PWR_STATE u)
  (s.modUnit u fun p => { p with former := cur, save := 0, pendWake := none }).stepBegin u (match cur with | 0 => 1 | 1 => 3 | _ => 4) t

/-- A request that no transition holds up (R474, R475, R478). -/
def pwrNew (s : State) (u : Fin 22) (v : Nat) : State :=
  let cur := s.rd (K.PWR_STATE u)
  if v = cur then s else if cur < v then s.entryStart u v else s.wakeStart u v

/-- A request that meets the refusers. -/
def pwrAsk (s : State) (u : Fin 22) (v : Nat) (f : State → State) : State :=
  match s.refuser u v with
  | some c => s.pwrRefuse u v c
  | none => f s

/-- A write of `PWR_REQ`. For the state the unit is in, with no transition running, it is accepted without effect (R475); a trip refuses
any request. -/
def pwrRequest (s : State) (u : Fin 22) (v : Nat) : State :=
  if v = s.rd (K.PWR_STATE u) && (s.unit u).trans == .still && !(u.val < 20 && s.tripped) then s.wr (K.PWR_REQ u) v
  else s.pwrAsk u v fun s =>
    let s1 := s.wr (K.PWR_REQ u) v
    match (s.unit u).trans with
    | .still => s1.pwrNew u v
    | _ => (s1.slotReplaced u).wr (K.PWR_PENDING u) v

/-- What waited for the end of a transition: a wake event, else the pending request as a new one. -/
def afterMove (s : State) (u : Fin 22) : State :=
  match (s.unit u).pendWake with
  | some c => (s.modUnit u fun p => { p with pendWake := none }).wakeEvent u c
  | none =>
    let v := s.rd (K.PWR_PENDING u)
    if v = 0xFF then s else (s.wr (K.PWR_PENDING u) 0xFF).pwrAsk u v fun s => s.pwrNew u v

/-- A transition completes at level `st`: record, source (R479). -/
def moveDone (s : State) (u : Fin 22) (st : Nat) : State :=
  (((s.unitStill u st).record 0x40 u.val (be 1 (s.unit u).former ++ be 1 st)).raiseIn Src.PWR_TRANSITION_DONE K.DET_PWR_TRANSITION_DONE
    u.val).afterMove u

/-- An entry that ends in Run at its first abort points: the lane's cast-on goes on, lanes that waited for their group wake; a request that
came after the wake event is a new one (R478). -/
def backInRun (s : State) (u : Fin 22) : State :=
  let s1 := (s.unitStill u 0).modUnit u fun p => { p with pendWake := none }
  let s2 := match laneOf u with
    | some n => s1.castStart n
    | none => if h : 16 ≤ u.val ∧ u.val < 20 then s1.pgRuns ⟨u.val - 16, by omega⟩ else s1
  s2.afterMove u

/-- The abort point `ap` after a step, at level `lvl`, of an entry to `t` (R477, R478). -/
def abortPoint (s : State) (u : Fin 22) (ap lvl t : Nat) : State :=
  match (s.unit u).pendWake with
  | some c =>
    let s1 := s.pwrAborted u t ap c
    if lvl = 0 then s1.backInRun u else (s1.modUnit u fun p => { p with pendWake := none }).wakeStart u 0
  | none =>
    let v := s.rd (K.PWR_PENDING u)
    let s1 := s.wr (K.PWR_PENDING u) 0xFF
    let next := if v = 0xFF then t else v
    if lvl < next then s1.stepBegin u ap next
    else if next = lvl then
      if lvl = 0 then (s1.pwrAborted u t ap 2).backInRun u else s1.moveDone u lvl
    else if next = 0 then (s1.pwrAborted u t ap 2).wakeStart u 0
    else s1.wakeStart u next

/-- Has a step done its work? The firmware is at its idle point when no request waits for it. -/
def stepMayEnd (s : State) (u : Fin 22) (st : Nat) : Bool :=
  match st with
  | 1 => (match laneOf u with
    | some n => s.phase n == 0 && !s.binding n
    | none => !(u.val == 20 && s.ce.calRun) && !(u.val == 21 && s.od.coreQ.any (·.core)))
  | 4 => (s.unit u).save != 1
  | _ => true

/-- The entries of a unit that Deep sleep holds no longer. A control unit's pads keep theirs (R484). -/
def unitKey (u : Fin 22) (k : Key) : Bool :=
  match k.blk with
  | .line n => u == laneUnit n
  | .host m => u == laneUnit (lineOfHost m)
  | .pg g => u == pgUnit g
  | .loop _ | .chain _ => u.val == 20
  | .aux _ | .og _ => u.val == 20
  | .dev =>
    (u.val == 20 && ((0x6001 ≤ k.off && k.off < 0x6100) || (0x7000 ≤ k.off && k.off < 0x7100))) ||
      (u.val == 21 && (k.off == 0x9000 || k == K.OD_CORE_LOAD))
  | _ => false

/-- What stays readable of a unit's volatile entries: the latched pads, and the row counter, which is its group's (R110). -/
def padKey (k : Key) : Bool :=
  match k.blk with
  | .aux _ => k.sub == 4 || k.sub == 5
  | .line n => k == K.LINE_ROW_TX n
  | _ => false

/-- The volatile entries of a lane that read a state beside the store start anew: PHASE_TIME, FAR_TAPS (R227), FILL_A and FILL_B
(R114). -/
def laneAnew (s : State) (n : Fin 16) : State :=
  ((s.modCo n fun c => { c with phaseAt := s.now, farKnown := false }).setFill (hostA n) false).setFill (hostB n) false

/-- The unit's power switch opens (step E6): volatile entries go; the key store with the management unit (R450, R460). -/
def powerOff (s : State) (u : Fin 22) : State :=
  let s0 := match laneOf u with
    | some n => (((s.prbsOff (.line n)).prbsOff (.host (hostA n))).prbsOff (.host (hostB n))).laneAnew n
    | none => s
  let s1 := s0.resetEntries fun k => unitKey u k && persOf k == .vol && !padKey k
  if u.val = 20 then forAll (allFin 64) (fun j s => s.wr (K.RC_MEM j) 0) s1
  else if u.val = 21 then
    (((s1.vendorEndAll).eraseKeys.wr K.OD_CORE_STATE 1).modSec fun x => { x with running := none }).modMgmt fun m =>
      { m with plChange := none, plWanted := none }
  else s1

/-- What a completed step leaves, and its level. -/
def stepDone (s : State) (u : Fin 22) (st : Nat) : State :=
  match st, laneOf u with
  | 2, some n => (((s.outForceOff n).wr (K.PWR_STATE u) 1).picotFollow n).ssFollow n
  | 2, none => s.wr (K.PWR_STATE u) 1
  | 3, _ =>
    let s1 := if h : 16 ≤ u.val ∧ u.val < 20 then s.gbStop ⟨u.val - 16, by omega⟩
      else if u.val = 20 then s.ceStop else s
    s1.wr (K.PWR_STATE u) 2
  | _, _ => s

/-- A step of a unit's entry ends. -/
def stepEnd (s : State) (u : Fin 22) : State :=
  match (s.unit u).trans with
  | .entering st t =>
    if !s.stepMayEnd u st then s
    else if st = 4 && (s.unit u).save = 3 then ((s.pwrRefuse u t 4).unitStill u 2).afterMove u
    else if st = 6 then (s.powerOff u).moveDone u 3
    else
      let s1 := s.stepDone u st
      s1.abortPoint u (st + 1) (s1.rd (K.PWR_STATE u)) t
  | _ => s

/-! ## Retention banks (R485, R486) -/

/-- Cold initialisation: retained entries at reset; a lane's slices as fused at production, its next acquisition cold. -/
def coldInit (s : State) (u : Fin 22) : State :=
  let s1 := (s.resetEntries fun k => unitKey u k && persOf k == .mrst).modUnit u fun p => { p with cold := false }
  match laneOf u with
  | some n => s1.modLane n fun l => { l with ss := fusedSs n, coldNext := true, calPend := none }
  | none => s1

/-- A unit's saved entries come from the flash copy; `cold`: the unit had a cold initialisation. -/
def loadUnit (s : State) (u : Fin 22) (cold : Bool) : State :=
  let s1 := (s.resetEntries fun k => unitKey u k && persOf k == .flash).loadKeys (unitKey u)
  match laneOf u with
  | some n => s1.loadedLane cold n
  | none => s1

/-- Cold initialisation in place: retained entries at reset, saved ones from the flash copy or at their defaults (R486, R507). -/
def coldStart (s : State) (u : Fin 22) : State := (s.coldInit u).loadUnit u true

/-- What a wake from Deep sleep brings back. -/
def restore (s : State) (u : Fin 22) : State :=
  let s1 := if (s.unit u).cold then s.coldStart u else s.loadUnit u false
  match laneOf u with
  | some n => s1.laneAnew n
  | none => s1

/-- The unit is in Run. -/
def unitRuns (s : State) (u : Fin 22) (deep : Bool) : State :=
  match laneOf u with
  | some n => s.laneRuns n
  | none =>
    if h : 16 ≤ u.val ∧ u.val < 20 then s.pgRuns ⟨u.val - 16, by omega⟩
    else if u.val = 20 then (s.wrBit K.CE_STATUS 0 true).ceHold
    else if deep then s.deriveKeys.bootStart
    else s

/-- A wake completes; from Deep sleep, as the check of the unit's banks at its start left it. -/
def wakeDone (s : State) (u : Fin 22) : State :=
  match (s.unit u).trans with
  | .waking t =>
    if (s.unit u).waitPg then s
    else
      let deep := s.rd (K.PWR_STATE u) == 3
      let s1 := if deep then s.restore u else s
      let s2 := s1.wr (K.PWR_STATE u) t
      let s3 := if t = 0 then (s2.modUnit u fun p => { p with trans := .still }).unitRuns u deep
        else if deep && u.val = 21 then s2.deriveKeys.bootStart else s2
      s3.moveDone u t
  | _ => s

/-! ## Off (R482) -/

/-- The Off request is refused: as a request of the device. -/
def offRefuse (s : State) (code : Nat) : State :=
  (((s.wrField K.PWR_OFF_LAST_REFUSER 7 0 code).incSat ⟨.dev, 0x8002, code⟩).record 0x41 0xFF (be 1 5 ++ be 1 code)).raiseIn
    Src.PWR_ENTRY_REFUSED K.DET_PWR_ENTRY_REFUSED 22

/-- The Off entry ends without Off: units as before; lanes cast on again. -/
def offEnd (s : State) : State :=
  let s1 := s.modPwr fun p => { p with offStep := 0, offWake := none, offSave := 0 }
  forAll (allFin 16) (fun n s => s.castStart n) s1

/-- A wake event at an abort point of the Off entry. -/
def offAbort (s : State) (ap cause : Nat) : State :=
  ((((s.wrField K.PWR_OFF_LAST_REFUSER 15 8 cause).incSat ⟨.dev, 0x8002, 7 + cause⟩).record 0x42 0xFF (be 1 5 ++ be 1 ap ++ be 1 cause)).raiseIn
    Src.PWR_ENTRY_ABORTED K.DET_PWR_ENTRY_ABORTED 22).offEnd

/-- A lane unit in Run or Idle binds off. -/
def offBind (s : State) (n : Fin 16) : State :=
  if s.rd (K.PWR_STATE (laneUnit n)) ≤ 1 then
    let s1 := (s.modUnit (laneUnit n) fun p => { p with byRequest := true }).outageCheck
    match s1.phase n with
    | 0 => (s1.modCo n fun c => { c with calCo := false }).calAbort n
    | 1 => s1.toC0 n (s1.co n).hold
    | _ => (s1.bindOff n 2).coSettle n
  else s

/-- `PWR_DEVICE_OFF` = 1. -/
def deviceOff (s : State) : State :=
  if s.pwr.offStep != 0 then s
  else if s.debugLevel != 0 then s.offRefuse 1
  else if s.fwBusy then s.offRefuse 7
  else forAll (allFin 16) (fun n s => s.offBind n) (s.modPwr fun p => { p with offStep := 1, offWake := none, offSave := 0 })

/-- A step of the Off entry ends; after the last the regulators go off, as a POR whose cause is the wake to come. -/
def offStepEnd (s : State) : State :=
  match s.pwr.offStep with
  | 1 =>
    if (allFin 16).any fun n => s.rd (K.PWR_STATE (laneUnit n)) ≤ 1 && (s.phase n != 0 || s.binding n) then s
    else match s.pwr.offWake with
      | some c => s.offAbort 1 c
      | none =>
        if s.od.unsaved then (s.startSave).modPwr fun p => { p with offStep := 2, offSave := 1 }
        else s.modPwr fun p => { p with offStep := 2, offSave := 2 }
  | 2 =>
    if s.pwr.offSave = 1 then s
    else if s.pwr.offSave = 3 then (s.offRefuse 4).offEnd
    else match s.pwr.offWake with
      | some c => s.offAbort 2 c
      | none => s.modPwr fun p => { p with offStep := 3 }
  | 3 => (s.porAssert .offWake).modPwr fun p => { p with supply := .deviceOff }
  | _ => s

/-- A save ends that step E4 of a unit or Off waited for. -/
def pwrSaveEnd (s : State) (ok : Bool) : State :=
  let r := if ok then 2 else 3
  let s1 := forAll (allFin 22) (fun u s => if (s.unit u).save = 1 then s.modUnit u fun p => { p with save := r } else s) s
  if s.pwr.offSave = 1 then s1.modPwr fun p => { p with offSave := r } else s1

/-- A WAKE edge: in Off a POR; else the masked units wake, an Off entry is abandoned at its next abort point (R477, R482). -/
def wakeEdge (s : State) (straps : BitVec 3) : State :=
  match s.pwr.supply with
  | .deviceOff => s.porRelease straps
  | .stuckOff => ((s.wrBit K.RST_CAUSE 8 true).modPwr fun p => { p with faultPors := [] }).porRelease straps
  | _ =>
    if !s.powered then s
    else
      let s1 := if s.pwr.offStep = 0 then s else s.modPwr fun p => { p with offWake := p.offWake.or (some 1) }
      forAll ((allFin 22).filter fun u => s.bit K.PWR_WAKE_MASK u.val) (fun u s => s.wakeEvent u 1) s1

/-- A debug or scan grant, or a token on the TAP, wakes the management unit and ends an Off entry (R462, R477, R482). -/
def debugWake (s : State) : State :=
  (if s.pwr.offStep = 0 then s else s.modPwr fun p => { p with offWake := p.offWake.or (some 3) }).wakeEvent 21 3

end State

/-! ## Meanings -/

def effPwrReq (u : Fin 22) (v : Nat) (s : State) : State := s.pwrRequest u v
def effDeviceOff (v : Nat) (s : State) : State := if v = 1 then s.deviceOff else s
def effPwrCntClear (v : Nat) (s : State) : State :=
  if v = 1 then s.clrAll ((List.range 13).map fun i => ⟨.dev, 0x8002, i + 1⟩) else s

def execPwrReqWrite (r : Fin 18) (u : Fin 22) (v : BitVec 8) (s : State) : Host.Outcome State Fault Refusal :=
  .next (s.write r (K.PWR_REQ u) (be 1 v.toNat) (effPwrReq u v.toNat))

/-- A step of the entry of unit `u` ends; 22 stands for the Off entry, as in the detail registers (R482). -/
def execPwrEntryStepEnd (u : Fin 23) (s : State) : Host.Outcome State Fault Refusal :=
  .next (if h : u.val < 22 then s.stepEnd ⟨u.val, h⟩ else s.offStepEnd)

def execPwrWakeDone (u : Fin 22) (s : State) : Host.Outcome State Fault Refusal := .next (s.wakeDone u)

def execPwrDeviceOff (r : Fin 18) (v : BitVec 8) (s : State) : Host.Outcome State Fault Refusal :=
  .next (s.write r K.PWR_DEVICE_OFF (be 1 v.toNat) (effDeviceOff v.toNat))

def execPwrCntClear (r : Fin 18) (v : BitVec 8) (s : State) : Host.Outcome State Fault Refusal :=
  .next (s.write r K.PWR_CNT_CLEAR (be 1 v.toNat) (effPwrCntClear v.toNat))

/-- `straps`: REFSEL, TWIA1, TWIA0, latched where the edge ends Off. -/
def execWakeEdge (straps : BitVec 3) (s : State) : Host.Outcome State Fault Refusal := .next (s.wakeEdge straps)

end Sys2Proof.Machine
end

