-- ==== Sys2Proof/Machine/Bist.lean ====
section
/-!
DEFINITION. The commands of self-test and repair (17_self_test.md, R499 to R510).
-/

namespace Sys2Proof.Machine

namespace Bist

/-- The expected signature where it is a constant: fused for the ROM, of the fixed patterns of the other tests that are not
transparent (log entry 4). A transparent test predicts it from the content: none. -/
def fixedSig : BistTarget → Option Nat
  | .lane _ | .pg _ | .engine => none
  | t => some (Config.fused (100 + code t))

/-- A row put into a list of rows in order of address, once. -/
def insertRow (w : Nat) : List Nat → List Nat
  | [] => [w]
  | x :: xs => if w < x then w :: x :: xs else if w = x then x :: xs else x :: insertRow w xs

/-- The rows of the failing words, each once, in order of address (R507). -/
def rowsOf (fails : List Nat) : List Nat := fails.foldr (fun w acc => insertRow (w / 64) acc) []

end Bist

namespace State

/-! ## Start and abort (R499 to R503) -/

/-- What a start does to the unit under test before its first operation: captures are aborted (R69, R505), the key store is
erased (R500), the core is held in reset (R501). -/
def bistPrepare (s : State) : BistTarget → State
  | .lane n => s.swatchAbort n
  | .pg k => forAll (lanesOf k) (fun n s => s.swatchAbort n) s
  | .keyStore => s.zeroize false
  | .sram => s.coreReset .test
  | _ => s

/-- A test starts. What the signature register holds while it runs is not stated: a free value; so is the predicted signature
of a transparent test, which depends on the content (log entry 2). -/
def bistStart (s : State) (t : BistTarget) : State :=
  let (sig, s1) := ((s.bistPrepare t).modBist fun b => { b with running := some t, startCc := s.now, failing := none }).fresh
  let (pred, s2) := s1.fresh
  let s3 := ((s2.wr K.BIST_STATUS (Bist.code t * 2 ^ 24 + 2 ^ 16)).wr K.BIST_CYCLES 0).wr K.BIST_EXPECTED (Bist.expected t)
  ((((s3.wr K.BIST_SIGNATURE sig).wr K.BIST_SIG_EXPECTED ((Bist.fixedSig t).getD pred)).wr K.BIST_FAIL_WORDS 0).wr K.BIST_FIRST_FAIL
    0xFFFFFFFF).wr K.BIST_START_TIME s.timeNow

/-! ## End, judgement and repair (R502, R507, R508, R510) -/

/-- Rows of a memory that are mapped. -/
def mappedRows (s : State) (m : Nat) : List Nat := (s.bist.maps.filter fun x => x.mem == m).map (·.row)

/-- The result when every operation ran and no failing word is left: the signature decides (R502). -/
def bistVerdict (s : State) (good : Nat) : Nat := if s.rd K.BIST_SIGNATURE = s.rd K.BIST_SIG_EXPECTED then good else 4

/-- The latest test of a retention bank decides over its Deep-sleep requests (R508). -/
def bankJudged (s : State) (t : BistTarget) (result : Nat) : State :=
  match t with
  | .bank b => s.modPwr fun p => { p with bankBad := if result = 4 then b.val :: p.bankBad.filter (· != b.val) else p.bankBad.filter (· != b.val) }
  | _ => s

/-- The test is over, judged; after a test of the core's SRAM the core boots (R501). -/
def bistFinish (s : State) (t : BistTarget) (result : Nat) : State :=
  let s1 := (s.bankJudged t result).bistEnd t result 0
  if t == .sram then s1.bootStart else s1

/-- The last cycle of the test: the counts stand; failing words `fails`, signature `sig`. Failing rows of a memory with spares
wait for repair, which the result needs (R502, R507); every other test is judged at once. -/
def bistDone (s : State) (fails : List Nat) (sig : Nat) : State :=
  match s.bist.running, s.bist.failing with
  | some t, none =>
    let bad := if t == .rom then [] else fails.filter fun w => w < Bist.words t
    let s1 := ((s.wr K.BIST_CYCLES (Bist.expected t)).wr K.BIST_SIGNATURE sig).wr K.BIST_FAIL_WORDS bad.length
    let s2 := (match bad.min? with
      | some w => s1.wr K.BIST_FIRST_FAIL w
      | none => s1).bistDiscard t
    if bad.isEmpty then s2.bistFinish t (s2.bistVerdict 2)
    else match Bist.mem t with
      | some _ => (s2.wrBit K.BIST_STATUS 1 true).modBist fun b => { b with failing := some (t, Bist.rowsOf bad) }
      | none => s2.bistFinish t 4
  | _, _ => s

/-- Failing rows take spares in order of address (R507); `lost`: a word of a mapped row was uncorrectable. -/
def repairApply (s : State) (lost : Bool) : State :=
  match s.bist.failing with
  | none => s
  | some (t, rows) =>
    match Bist.mem t with
    | none => s
    | some m =>
      let have_ := s.mappedRows m
      let need := rows.filter fun x => !have_.contains x
      let got := need.take (Bist.spares m - have_.length)
      let left := need.length - got.length
      let s1 := s.modBist fun b => { b with maps := b.maps ++ got.map (fun x => { mem := m, row := x, fused := false }), failing := none }
      let s2 := match got.head? with
        | some x => s1.record 0x71 (Bist.code t) (be 2 got.length ++ be 4 x)
        | none => s1
      let s3 := if lost && t != .sram && !got.isEmpty then forAll (Bist.holders t) (fun u s => s.coldStart u) s2 else s2
      if left = 0 then (s3.raise Src.REPAIR_APPLIED).bistFinish t (s3.bistVerdict 3)
      else ((s3.record 0x72 (Bist.code t) (be 2 left)).raise Src.REPAIR_EXHAUSTED).bistFinish t 4

/-- Soft mappings are fused (R509); `failed` names the ones, in order, whose record failed its read-back. -/
def repairFuse (s : State) (failed : Nat) : State :=
  let step (acc : List RepairMap × Nat × Nat) (m : RepairMap) : List RepairMap × Nat × Nat :=
    if m.fused then (acc.1 ++ [m], acc.2.1, acc.2.2)
    else if failed.testBit acc.2.1 then (acc.1 ++ [m], acc.2.1 + 1, acc.2.2)
    else (acc.1 ++ [{ m with fused := true }], acc.2.1 + 1, acc.2.2 + 1)
  let r := s.bist.maps.foldl step ([], 0, 0)
  let s1 := s.modBist fun b => { b with maps := r.1 }
  let s2 := if r.2.2 < r.2.1 then s1.raise Src.OTP_FAULT else s1
  if r.2.2 = 0 then s2 else s2.record 0x73 0xFF (be 1 r.2.2 ++ be 1 s2.fuseFree)

/-! ## Computed reads (Tables 17-3, 17-5, 17-6) -/

/-- `REPAIR_STATE` of memory `m`. -/
def repairState (s : State) (m : Nat) : Nat :=
  let used := s.bist.maps.filter fun x => x.mem == m
  Bist.spares m * 2 ^ 24 + used.length * 2 ^ 16 + (used.filter (·.fused)).length * 2 ^ 8

/-- `BIST_CYCLES` as it reads. -/
def bistCyclesNow (s : State) : Nat :=
  match s.bist.running with
  | some t => if s.bist.failing.isSome then s.rd K.BIST_CYCLES else s.bistCycles t
  | none => s.rd K.BIST_CYCLES

/-- `BIST_ALL`: 0x01 to 0x0A in order. -/
def bistAll (s : State) : List Byte :=
  be 4 (s.rd K.BIST_STATUS) ++ be 4 s.bistCyclesNow ++ be 4 (s.rd K.BIST_EXPECTED) ++ be 4 (s.rd K.BIST_SIGNATURE) ++
  be 4 (s.rd K.BIST_SIG_EXPECTED) ++ be 4 (s.rd K.BIST_FAIL_WORDS) ++ be 4 (s.rd K.BIST_FIRST_FAIL) ++ be 4 s.bistRemain ++
  be 12 (s.rd K.BIST_START_TIME) ++ be 8 s.bistDiscarded

end State

/-! ## Meanings -/

def effBistStart (v : Nat) (s : State) : State :=
  match Bist.ofCode v with
  | some t => s.bistStart t
  | none => s

/-- A write of `BIST_START` (R499, R500); a write of 0 has no effect. -/
def execBistStart (r : Fin 18) (v : BitVec 8) (s : State) : Host.Outcome State Fault Refusal :=
  .next (s.write r K.BIST_START (be 1 v.toNat) (effBistStart v.toNat))

def effBistStop (v : Nat) (s : State) : State := if v = 1 then s.bistAbort 1 else s

def execBistStop (r : Fin 18) (v : BitVec 8) (s : State) : Host.Outcome State Fault Refusal :=
  .next (s.write r K.BIST_STOP (be 1 v.toNat) (effBistStop v.toNat))

/-- The running test reaches its last cycle: the failing words and the signature it found. -/
def execBistDone (fails : List (BitVec 17)) (sig : BitVec 32) (s : State) : Host.Outcome State Fault Refusal :=
  .next (s.bistDone (fails.map (·.toNat)) sig.toNat)

def execRepairApply (lost : Bool) (s : State) : Host.Outcome State Fault Refusal := .next (s.repairApply lost)

def effRepairFuse (v failed : Nat) (s : State) : State := if v = 1 then s.repairFuse failed else s

def execRepairFuseCmd (r : Fin 18) (v : BitVec 8) (failed : BitVec 64) (s : State) : Host.Outcome State Fault Refusal :=
  .next (s.write r K.REPAIR_FUSE_CMD (be 1 v.toNat) (effRepairFuse v.toNat failed.toNat))

def effBistCntClear (v : Nat) (s : State) : State :=
  if v = 1 then s.clrAll [K.BIST_RUNS, K.BIST_PASSES, K.BIST_FAILS, K.BIST_ABORTS] else s

def execBistCntClear (r : Fin 18) (v : BitVec 8) (s : State) : Host.Outcome State Fault Refusal :=
  .next (s.write r K.BIST_CNT_CLEAR (be 1 v.toNat) (effBistCntClear v.toNat))

end Sys2Proof.Machine
end

