-- ==== Sys2Proof/Machine/Security.lean ====
section
/-!
DEFINITION. Firmware slots and trials (15_security.md, R440 to R448), attestation (R451), the life cycle (R452, R453),
tokens, debug and scan (R454 to R460).
-/

namespace Sys2Proof.Machine

/-- The bits of a number, least significant first. -/
def bitsLsb (n v : Nat) : List Bool := (List.range n).map fun i => v.testBit i

namespace State

/-! ## Download of a skein (R445, Table 15-5) -/

def slotInit (s : State) (x : Fin 2) (r : Fin 18) : State := s.modSlot x fun _ => { st := .writing, image := [], writer := some r }
/-- A download of 64 KiB or less: the slot is in WRITING, its bytes stand until the staged ones take their place (R385). -/
def slotOpen (s : State) (x : Fin 2) (r : Fin 18) : State := s.modSlot x fun c => { c with st := .writing, writer := some r }
/-- Bytes are programmed behind those stored. `bad`: the read-back of the program or of the erase before it fails (R465); what stands in
their place is then free. -/
def slotData (s : State) (x : Fin 2) (d : List Byte) (bad : Bool) : State :=
  s.flashWrite (slotAddr x + (s.slot x).image.length) fun s =>
    if bad then (s.fresh.2.modSlot x fun c => { c with image := c.image ++ be d.length s.fresh.1 }).raise Src.FLASH_FAULT
    else s.modSlot x fun c => { c with image := c.image ++ d }

/-- `ID_CERT` is written. -/
def certWrite (s : State) (data : List Byte) (bad : Bool) : State :=
  s.flashWrite certAddr fun s =>
    if bad then (s.fresh.2.modSec fun c => { c with cert := be data.length s.fresh.1 }).raise Src.FLASH_FAULT
    else s.modSec fun c => { c with cert := data }

/-- The transfer ends without LAST. -/
def slotAbort (s : State) (x : Fin 2) : State :=
  if (s.slot x).st == .writing then s.modSlot x fun c => { c with st := .invalid, writer := none } else s

/-- The segment with LAST: the checks of Table 15-3 give the slot its status. -/
def slotFinish (s : State) (x : Fin 2) : State :=
  let c := s.skeinCheck (s.slot x).image
  let s1 := (s.modSlot x fun d => { d with st := .valid, writer := none }).raise Src.FW_SLOT_WRITTEN
  let s2 := match c with
    | none => s1
    | some e => s1.slotRefused x e
  s2.record 0x63 x.val (be 1 (slotNum (s2.slot x).st) ++ be 4 (s2.slotSvn x) ++ be 4 (s2.slotVersion x))

/-! ## Activation (R446, R448) -/

/-- The slot that `FW_ACTIVATE` boots: the other one than ACTIVE; in recovery A if VALID, else B. -/
def activateSlot (s : State) : Fin 2 := if (s.slot 0).st == .valid then 0 else 1

/-- `FW_ACTIVATE`: the slot is in TRIAL, the ACTIVE one VALID as its fallback; the core is reset and boots. -/
def fwActivate (s : State) : State :=
  let x := s.activateSlot
  let s1 := match s.activeSlot with
    | some a => (s.modSlot a fun c => { c with st := .valid }).modSec fun c => { c with fallback := some a }
    | none => s.modSec fun c => { c with fallback := none }
  let s2 := ((s1.modSlot x fun c => { c with st := .trial }).modSec fun c => { c with served := 0, fwNew := true }).slotRecord x 1
  (s2.coreReset .activation).bootStart

/-- The fuses that a commit up to `svn` programs: clear bits, lowest first. -/
def svnBits (s : State) (svn : Nat) : List Nat :=
  ((List.range 128).filter fun i => !(s.sec.otp.minSvn ||| s.sec.otp.minSvnWeak).testBit i).take (svn - s.sec.minSvn)

/-- `FW_SVN_COMMIT`; `failed` names bits that fail their read-back. -/
def svnCommit (s : State) (failed : Nat) : State :=
  match s.activeSlot with
  | none => s
  | some a =>
    let svn := Skein.svn (s.slot a).image
    if svn ≤ s.sec.minSvn then s
    else
      let bits := s.svnBits svn
      let good := (bits.filter fun i => !failed.testBit i).foldl (fun m i => m ||| 2 ^ i) s.sec.otp.minSvn
      let new := pop128 (good ||| s.sec.otp.minSvnWeak)
      let s1 := s.modSec fun x => { x with otp := { x.otp with minSvn := good }, minSvn := new }
      let s2 := s1.record 0x65 0xFF (be 1 s.sec.minSvn ++ be 1 new)
      let s3 := if bits.any fun i => failed.testBit i then ((s2.record 0x66 0xFF (be 1 3)).raise Src.OTP_FAULT).fwFail a 11 else s2
      forAll (allFin 2) (fun x s =>
        if (s.slot x).st == .valid && Skein.svn (s.slot x).image < new then s.modSlot x fun c => { c with st := .rollback } else s) s3

/-! ## Attestation (R451, Table 15-6) -/

/-- Bytes 16 to 171: of the running skein. In recovery there is none; the spec states no value there: a free one. -/
def attestSkein (s : State) : List Byte × State :=
  match s.sec.running with
  | some x =>
    let img := (s.slot x).image
    (be 4 (Skein.svn img) ++ be 4 s.sec.minSvn ++ be 4 (Skein.version img) ++ slice img 52 48 ++ slice img 100 48 ++
      fitBytes 48 (Config.sha384 (Skein.header img)), s)
  | none =>
    let (a, s1) := s.fresh
    let (b, s2) := s1.fresh
    (be 4 a ++ be 4 s.sec.minSvn ++ be 148 b, s2)

/-- Both signatures of a report, the private keys unwrapped for them (R450, R451). -/
def signatures (s : State) (head : List Byte) : List Byte :=
  let k := s.sec.keys
  fitBytes 64 (Config.sign 1 (Config.unwrap k.kwk k.ed) head) ++ fitBytes 3309 (Config.sign 2 (Config.unwrap k.kwk k.ml) head)

/-- The report is complete. -/
def attestDone (s : State) : State :=
  match s.sec.nonce with
  | none => s
  | some nonce =>
    let (skein, s1) := s.attestSkein
    let flags := (if s.zeroized then 8 else 0) + (if s.keysPresent then 4 else 0) + (if s.debugLevel != 0 then 2 else 0) + (if s.taint then 1 else 0)
    let head := be 4 0x41545431 ++ be 8 uid ++ be 1 (lcNum s.sec.lc) ++ be 1 flags ++ be 1 s.fwActiveSlot ++ be 1 1 ++ skein ++
      fitBytes 32 nonce ++ be 12 s.timeNow ++ be 4 (s.rd K.FW_BOOT_COUNT) ++ be 4 0
    let sigs := if s.keysPresent then s.signatures head else List.replicate 3373 0
    (((s1.wr K.SEC_ATTEST_REPORT (beNat (head ++ sigs))).incWrap K.SEC_ATTEST_SEQ).modSec fun x => { x with nonce := none }).raise Src.ATTEST_DONE

/-! ## Life cycle (R453) -/

/-- The advance to a state of Table 15-8: fuses, source, record, ends of grants. -/
def lcAdvance (s : State) (r : Fin 18) (target : Nat) : State :=
  let lc := match target with | 1 => LifeCycle.provisioned | 2 => .deployed | 3 => .returned | _ => .scrapped
  let kill := 3 ≤ target
  let s1 := s.modSec fun x =>
    { x with lc := lc, kill := x.kill || kill, otp := { x.otp with lc := x.otp.lc.map fun c => c ||| lcCode lc, kill := if kill then 7 else x.otp.kill } }
  let s2 := (s1.record 0x62 0xFF (be 1 (lcNum s.sec.lc) ++ be 1 target ++ be 1 r.val)).raise Src.LIFE_CYCLE_CHG
  let s3 := (s2.vendorEndAll).debugEnd 3
  let s4 := if kill then s3.zeroize false else s3
  if target = 4 then forAll (allFin 16) (fun n s => s.outForceOff n) s4.recover else s4

/-! ## Tokens (R455, R456, Table 15-11) -/

/-- The value that `SEC_CHALLENGE` holds. -/
def challengeBytes (s : State) : List Byte := be 32 (Config.freeNat s.sec.challenge)

/-- A new challenge is drawn. -/
def newChallenge (s : State) : State := { s with free := s.free + 1, sec := { s.sec with challenge := s.free } }

/-- LEVEL bits that the life-cycle state permits (Table 15-7). -/
def levelsAllowed (lc : LifeCycle) : Nat :=
  match lc with
  | .manuf | .returned => 7
  | .provisioned | .deployed => 3
  | .scrapped => 0

/-- Every token is refused with result 10: LOCKOUT, or within 1 s of a refusal. -/
def tokensLocked (s : State) : Bool :=
  s.lockout || (match s.sec.lastRefusal with | some c => s.now < c + ccPerSecond | none => false)

/-- The result of a token's checks. -/
def tokenResult (s : State) (tap : Bool) (t : List Byte) : Nat :=
  let f (i n : Nat) := beNat (slice t i n)
  let level := f 6 1
  let key := f 5 1
  let target := f 8 8
  if s.tokensLocked then 10
  else if f 0 4 != 0x44544B31 || f 4 1 != 1 || 8 ≤ level || 32 ≤ f 7 1 || f 52 12 != 0 then 2
  else if 1 < key || s.sec.revoked.testBit key then 3
  else if !(f 7 1).testBit (lcNum s.sec.lc) || level &&& levelsAllowed s.sec.lc != level || (tap && level = 1) then 4
  else if target != uid && !(target = 0 && s.sec.lc == .manuf) then 5
  else if level.testBit 2 && !s.allDown then 7
  else if slice t 16 32 != s.challengeBytes then 6
  else if !Config.ed25519Verify (Skein.romEd key) (t.take 64) (slice t 64 64) then 8
  else if !Config.mldsaVerify (Skein.romMl key) (t.take 64) (slice t 128 3309) then 9
  else 1

/-- The abort of a refused token. Of result 11 the spec names none: OUT_OF_RANGE (DESIGN CHOICE, log entry 116). -/
def tokenAbort (res : Nat) : Abort :=
  match res with
  | 10 | 4 => .lifeCycle
  | 7 => .inUse
  | _ => .outOfRange

/-- A token is refused: result, count, record, source, lockout after 16 refusals with results 2 to 9. -/
def tokenRefused (s : State) (r : Fin 18) (res level : Nat) : State :=
  let s1 := (((s.wr K.SEC_TOKEN_RESULT res).incSat K.SEC_TOKEN_FAILS).record 0x61 r.val (be 1 res ++ be 1 level)).raise
    (if level &&& 6 != 0 then Src.DEBUG_UNLOCK_FAIL else Src.VENDOR_TOKEN_FAIL)
  if res = 10 || res = 11 then s1
  else
    let s2 := s1.modSec fun x => { x with refusals := x.refusals + 1, lastRefusal := some s.now }
    if 16 ≤ s2.sec.refusals then s2.wrBit K.SEC_DEBUG_STATE 2 true else s2

/-- Scan opens (R459): pads latched, the engine stopped, both ring ports DISABLED. -/
def scanEnter (s : State) : State :=
  forAll (allFin 2) (fun p s => s.portTo p 0 0) s.ceStop

/-- A DEBUG or SCAN grant, the key store being erased: the port opens to requester 17. Scan, once open, stays (R459). -/
def debugOpen (s : State) (level dur : Nat) : State :=
  if s.scanOn then s
  else
    let s1 := ((s.debugWake).wrField K.SEC_DEBUG_STATE 1 0 level).modSec fun x => { x with dbgDur := dur, dbgAt := s.now }
    let s2 := (s1.record 0x60 0xFF (be 1 level ++ be 1 0 ++ be 1 0)).raise Src.DEBUG_OPENED
    if level = 2 then s2.scanEnter else s2

/-- A token's grant. Before the port opens the key store is erased, ZEROIZED and TAINT are set (R457). -/
def tokenGranted (s : State) (r : Fin 18) (level dur : Nat) : State :=
  let s1 := s.wr K.SEC_TOKEN_RESULT 1
  let s2 := if level.testBit 0 then
      (s1.wrBit K.SEC_VENDOR_HOLDERS r.val true).modSec fun x => { x with grants := x.grants.set r dur, grantAt := x.grantAt.set r s.now }
    else s1
  if level &&& 6 = 0 then s2 else (s2.zeroize true).debugOpen (if level.testBit 2 then 2 else 1) dur

/-- A token is checked: its result, and what follows. `eraseOk`: the key store, erased, reads back as zero; where it does not, the grant of
DEBUG or SCAN is refused with result 11 and the port stays closed (R457). -/
def tokenCheck (s : State) (r : Fin 18) (tap : Bool) (t : List Byte) (eraseOk : Bool) : Nat × State :=
  let checked := s.tokenResult tap t
  let level := beNat (slice t 6 1)
  let res := if checked = 1 && level &&& 6 != 0 && !eraseOk then 11 else checked
  let s1 := if res = 1 then s.tokenGranted r level (beNat (slice t 48 4))
    else (when_ (res = 11) eraseKeys s).tokenRefused r res level
  (res, if checked = 1 || res = 6 || res = 8 || res = 9 then s1.newChallenge else s1)

/-- A token through the dictionary: its verdict and the state. -/
def tokenSubmit (s : State) (r : Fin 18) (t : List Byte) (eraseOk : Bool) : Verdict × State :=
  let (res, s1) := s.tokenCheck r false t eraseOk
  (if res = 1 then .ok else .abort (tokenAbort res), s1)

/-- A token written in one piece: the checks of a write, then those of Table 15-11. -/
def tokenWrite (s : State) (r : Fin 18) (t : List Byte) (eraseOk : Bool) : State :=
  if !s.served r then s
  else if s.mustWake K.SEC_TOKEN then s.coreWake
  else match checkWrite s r K.SEC_TOKEN t with
    | .ok =>
      let d := (s.counted K.SEC_TOKEN .ok).tokenSubmit r t eraseOk
      (if d.1 == .ok then d.2.countOwnerWrite r else d.2).answered r d.1
    | v => (s.counted K.SEC_TOKEN v).answered r v

/-! ## Test access port (R454, Table 15-9) -/

def modTap (s : State) (f : TapS → TapS) : State := s.modSec fun x => { x with tap := f x.tap }

/-- The instruction that acts for a code at a debug level (Table 15-9). -/
def tapActs (code : BitVec 5) (level : Nat) : TapIr :=
  match code.toNat with
  | 0x00 => if level = 2 then .extest else .bypass
  | 0x01 => .idcode
  | 0x02 => .sample
  | 0x04 => if level = 2 then .clamp else .bypass
  | 0x05 => if level = 2 then .highz else .bypass
  | 0x10 => .token
  | 0x11 => if 1 ≤ level then .access else .bypass
  | 0x12 => if level = 2 then .scan else .bypass
  | _ => .bypass

/-- The instruction that acts now. -/
def tapActing (s : State) : TapIr := tapActs s.sec.tap.ir s.debugLevel

/-- `d` is shifted through a data register that has captured `reg`. -/
def tapShift (s : State) (reg d : List Bool) : State := s.modTap fun t => { t with out := (reg ++ d).take d.length }

/-- `d` is shifted through the boundary register, which has captured the pins: it is updated. -/
def tapBoundary (s : State) (pins : BitVec 16) (d : List Bool) : State :=
  let reg := bitsLsb 16 pins.toNat
  (s.tapShift reg d).modTap fun t => { t with boundary := (reg ++ d).drop d.length }

/-- A code is loaded and `d` shifted: through the bypass bit where BYPASS acts, else as the instruction does. -/
def tapRun (s : State) (code : BitVec 5) (d : List Bool) (f : State → State) : State :=
  let s1 := s.modTap fun t => { t with ir := code }
  if s1.tapActing == .bypass then s1.tapShift [false] d else f s1

/-- What the test logic drives a ball of the boundary register to; none: the pin is the unit's, or floats under HIGHZ. -/
def scanDrives (s : State) (b : ScanBall) : Option Bool :=
  match s.tapActing with
  | .extest | .clamp => s.sec.tap.boundary[scanBalls.idxOf b]?
  | _ => none

/-- `n` bits come out that the spec gives no value. -/
def tapFree (s : State) (n : Nat) : State := s.fresh.2.modTap fun t => { t with out := bitsLsb n s.fresh.1 }

/-- A debug access (R458): the core halts, goes on or takes a step; a byte of SRAM is read, as far as it is known, or written; the fabric is
read or written, whose address map is not the spec's: what comes is free, and a write reaches no state of the model (log entry 115). -/
def debugAct (s : State) (d : List Bool) (op : DebugOp) : State :=
  match op with
  | .halt => (if s.coreUp then s.modSec fun x => { x with halted := true } else s).tapFree d.length
  | .resume => (if s.sec.halted then s.coreRan.modSec fun x => { x with halted := false } else s).tapFree d.length
  | .step => (if s.sec.halted then s.coreRan else s).tapFree d.length
  | .sramRead a => match Memory.read s.sec.sram a.toNat with
    | some b => s.modTap fun t => { t with out := bitsLsb 8 b.toNat }
    | none => s.tapFree 8
  | .sramWrite a b => (s.modSec fun x => { x with sram := Memory.write x.sram a.toNat b }).tapFree d.length
  | .fabricRead _ => s.tapFree 32
  | .fabricWrite _ _ => s.tapFree d.length

/-- A token of the TAP comes to the engine (R455, R456, R462): a wake event. It waits behind the tokens and advances accepted before it, and
for the management unit to wake; in scan nothing waits any more. -/
def tapToken (s : State) (token : List Byte) (eraseOk : Bool) : State :=
  let t := fitBytes 3437 token
  if s.scanOn then (s.tokenCheck 17 true t eraseOk).2
  else s.debugWake.modOd fun o => { o with coreQ := o.coreQ ++ [⟨17, 0xF0 :: t, (s.req 17).epoch, false, (!eraseOk).toNat⟩] }

end State

/-! ## Meanings: firmware -/

/-- The boot ends: did the flash answer, and is the root that a loaded `CLK_REF_SRC` selects valid? -/
def execBootComplete (flash rootOk : Bool) (s : State) : Host.Outcome State Fault Refusal :=
  .next (if !s.scanOn && ((s.rd K.OD_CORE_STATE = 2 && !s.sec.recovery) || s.activating) then s.boot flash rootOk else s)

def effFwActivate (v : Nat) (s : State) : State := if v = 1 then s.fwActivate else s
def effFwConfirm (v : Nat) (s : State) : State := if v = 1 then s.fwConfirm else s
def effSvnCommit (v failed : Nat) (s : State) : State := if v = 1 then s.svnCommit failed else s

def execFwActivate (r : Fin 18) (v : BitVec 8) (s : State) : Host.Outcome State Fault Refusal :=
  .next (s.write r K.FW_ACTIVATE (be 1 v.toNat) (effFwActivate v.toNat))

def execFwConfirm (r : Fin 18) (v : BitVec 8) (s : State) : Host.Outcome State Fault Refusal :=
  .next (s.write r K.FW_CONFIRM (be 1 v.toNat) (effFwConfirm v.toNat))

def execTrialTimeServed (s : State) : Host.Outcome State Fault Refusal := .next (if s.coreUp then s.fwConfirm else s)

/-- The slot-state record takes the time served so far (R441). -/
def execTrialRecordTimer (s : State) : Host.Outcome State Fault Refusal :=
  .next (if s.onTrial then (s.modSec fun x => { x with served := s.trialSeconds, servedAt := s.now }).recWrite else s)

/-- No CORE_READY within 5 s of the trial skein's start: the fallback boots. -/
def execTrialBootTimeout (s : State) : Host.Outcome State Fault Refusal :=
  .next (if s.onTrial && !s.coreUp then ((s.trialFail).wr K.OD_CORE_STATE 1).bootStart else s)

def execFwSvnCommit (r : Fin 18) (v : BitVec 8) (failed : BitVec 128) (s : State) : Host.Outcome State Fault Refusal :=
  .next (s.write r K.FW_SVN_COMMIT (be 1 v.toNat) (effSvnCommit v.toNat failed.toNat))

/-! ## Meanings: attestation, life cycle -/

def effAttestNonce (data : List Byte) (s : State) : State := s.modSec fun x => { x with nonce := some data }

def execSecAttestNonce (r : Fin 18) (data : List Byte) (s : State) : Host.Outcome State Fault Refusal :=
  .next (s.write r K.SEC_ATTEST_NONCE data (effAttestNonce data))

def execAttestDone (s : State) : Host.Outcome State Fault Refusal := .next s.attestDone

def effLcAdvance (r : Fin 18) (v : Nat) (s : State) : State := s.lcAdvance r v

def execSecLcAdvance (r : Fin 18) (v : BitVec 8) (s : State) : Host.Outcome State Fault Refusal :=
  .next (s.write r K.SEC_LC_ADVANCE (be 1 v.toNat) (effLcAdvance r v.toNat))

/-! ## Meanings: tokens and sessions -/

/-- A token written through the dictionary. -/
def execSecToken (r : Fin 18) (token : List Byte) (eraseOk : Bool) (s : State) : Host.Outcome State Fault Refusal :=
  .next (s.tokenWrite r token eraseOk)

def effDebugClose (v : Nat) (s : State) : State := if v = 1 && s.debugLevel = 1 then s.debugEnd 2 else s

def execSecDebugClose (r : Fin 18) (v : BitVec 8) (s : State) : Host.Outcome State Fault Refusal :=
  .next (s.write r K.SEC_DEBUG_CLOSE (be 1 v.toNat) (effDebugClose v.toNat))

/-- The DURATION of the debug grant has passed; scan ends only with POR or RESET_N (R459). -/
def execDebugDurationExpiry (s : State) : Host.Outcome State Fault Refusal :=
  .next (if s.debugLevel = 1 && s.sec.dbgDur != 0 then s.debugEnd 1 else s)

def effVendorDrop (r : Fin 18) (v : Nat) (s : State) : State := if v = 1 then s.wrBit K.SEC_VENDOR_HOLDERS r.val false else s

def execSecVendorDrop (r : Fin 18) (v : BitVec 8) (s : State) : Host.Outcome State Fault Refusal :=
  .next (s.write r K.SEC_VENDOR_DROP (be 1 v.toNat) (effVendorDrop r v.toNat))

def execVendorDurationExpiry (r : Fin 18) (s : State) : Host.Outcome State Fault Refusal :=
  .next (if s.sec.grants.get r = 0 then s else s.wrBit K.SEC_VENDOR_HOLDERS r.val false)

/-! ## Meanings: TAP instructions. `d` is what TDI shifts in; `pins` what the boundary cells sample. -/

def execExtest (pins : BitVec 16) (d : List Bool) (s : State) : Host.Outcome State Fault Refusal :=
  .next (s.tapRun 0x00 d fun s => s.tapBoundary pins d)

def execIdcode (s : State) : Host.Outcome State Fault Refusal :=
  .next (s.tapRun 0x01 [] fun s => s.modTap fun t => { t with out := bitsLsb 32 0x164165EB })

def execSamplePreload (pins : BitVec 16) (d : List Bool) (s : State) : Host.Outcome State Fault Refusal :=
  .next (s.tapRun 0x02 d fun s => s.tapBoundary pins d)

def execClamp (d : List Bool) (s : State) : Host.Outcome State Fault Refusal := .next (s.tapRun 0x04 d fun s => s.tapShift [false] d)
def execHighz (d : List Bool) (s : State) : Host.Outcome State Fault Refusal := .next (s.tapRun 0x05 d fun s => s.tapShift [false] d)

/-- A debug access; at the scan level the core is a chain, and what is shifted out is free. -/
def execDbgAccess (d : List Bool) (op : DebugOp) (s : State) : Host.Outcome State Fault Refusal :=
  .next (s.tapRun 0x11 d fun s => if s.scanOn then s.tapFree d.length else s.debugAct d op)

/-- The scan chains: their order and content are not the spec's. -/
def execScanAccess (d : List Bool) (s : State) : Host.Outcome State Fault Refusal := .next (s.tapRun 0x12 d fun s => s.tapFree d.length)

/-- BYPASS, or a reserved code, which acts as BYPASS; any other code has its own row. -/
def execBypass (code : BitVec 5) (d : List Bool) (s : State) : Host.Outcome State Fault Refusal :=
  .next (s.tapRun (if State.tapActs code 2 == .bypass then code else 0x1F) d id)

/-- TRST_N low (R533). -/
def execTapReset (s : State) : Host.Outcome State Fault Refusal := .next (s.modTap fun _ => {})

end Sys2Proof.Machine
end

