-- ==== Sys2Proof/Machine/OdRead.lean ====
section
/-!
DEFINITION. Reads of the object dictionary (13_object_dictionary.md): what a READ is refused with (Table 13-9), the
value an entry reads as, and what a read changes (entries that are cleared on read, latches, locks).
-/

namespace Sys2Proof.Machine

namespace State

/-! ## Checks of a read (Table 13-9) -/

/-- The entry refuses reads in the present state: a capture that is not complete (R67), a mailbox that the reader does not
receive from or that is empty (R415), a slot being written (R445). -/
def notReadable (s : State) (r : Fin 18) (k : Key) : Bool :=
  match k.blk, k.off, k.sub with
  | .line n, 0x1F, 0x0A => s.rd (K.LINE_SWATCH_STATUS n) != 3
  | .mb c, _, 3 => !mbFull s c || !isMaster s (s.mbCfgReceiver c) r.val
  | .slot x, _, 1 => (s.slot x).st == .writing
  | _, _, _ => false

/-- Steps 4 to 10 for a read; subindex 0 is read as the entries of its index are. -/
def readAccess (s : State) (r : Fin 18) (k : Key) : Verdict :=
  match entryOf k, highestSub k.blk k.off with
  | none, none => .abort .noEntry
  | e, _ =>
    if e.isNone && k.sub != 0 then .abort .noSubindex
    else if e.any fun e => e.acc == .wo then .abort .access
    else if vendorIndex k && !(s.roleOf r).covers .vendor then .abort .role
    else if s.lifeCycleRefuses k false (readNeedsCore k) then .abort .lifeCycle
    else if s.busyTest k none (readNeedsCore k) then .busyTest
    else if readNeedsCore k && !s.coreServes k then .busy
    else .ok

/-- Steps 4 to 14 for a read. -/
def readCheck (s : State) (r : Fin 18) (k : Key) : Verdict :=
  match s.readAccess r k with
  | .ok => if (entryOf k).isSome && s.notReadable r k then .abort .notReadable else .ok
  | v => v

/-! ## Values -/

/-- A run of entries of one index, each of `n` bytes, from subindex `a`. -/
def run (s : State) (b : Blk) (off a cnt n : Nat) : List Byte := (List.range cnt).flatMap fun i => be n (s.rd ⟨b, off, a + i⟩)

/-- `OD_QUEUE_DEPTH`: the requests queued for each requester (Table 13-14). -/
def queueDepths (s : State) : List Byte := (allFin 18).flatMap fun r => be 1 (s.req r).queue.length

/-- The entries that the device computes when they are read, of the blocks that stand once. -/
def computedDev (s : State) (r : Fin 18) (k : Key) : Option (List Byte) :=
  match k.off, k.sub with
  | 0x1000, 1 => some ("LYD6416".toList.map fun c => BitVec.ofNat 8 c.toNat)
  | 0x1000, 3 => some (be 8 uid)
  | 0x1010, 2 => some (be 1 (0x4C + s.pwr.strapTwi))
  | 0x1020, 2 => some (be 1 (if s.sec.halted then 0 else s.rd K.OD_CORE_STATE))
  | 0x1020, 3 => some s.queueDepths
  | 0x2030, 0x12 => some s.ringCntAll
  | 0x5000, 1 => some (be 12 s.timeNow)
  | 0x7002, 3 => some s.monAll
  | 0x8000, 2 => some (be 2 (Config.freeNat s.free % 65536))
  | 0x8000, 3 => some (be 2 (600 + Config.freeNat s.free % 101))
  | 0x8200, 0x0B => some (be 4 s.coolMs)
  | 0x9000, 0x0B => some ((List.range 19).flatMap fun m => be 1 (s.gen m))
  | 0x9010, 1 => some (be 4 s.summary)
  | 0x9010, 4 => some (be 1 s.irqLow.toNat)
  | 0x9410, i => if h : i - 1 < 32 then some (be 2 (s.takeValue ⟨i - 1, h⟩ r.val)) else none
  | 0x9413, 1 => some ((allFin 32).flatMap fun i => be 1 (s.lockOwner i))
  | 0xA000, 1 => some (be 1 (lcNum s.sec.lc))
  | 0xA000, 5 => some s.challengeBytes
  | 0xA000, 0x0A => some (be 4 s.debugRemain)
  | 0xA010, 1 => some (be 1 s.fwActiveSlot)
  | 0xA010, 6 => some (be 1 s.sec.minSvn)
  | 0xA020, 1 => some s.pubEd
  | 0xA020, 2 => some s.pubMl
  | 0xA020, 3 => some s.sec.cert
  | 0xB001, 2 => some (be 4 s.bistCyclesNow)
  | 0xB001, 8 => some (be 4 s.bistRemain)
  | 0xB001, 0x0A => some (be 8 s.bistDiscarded)
  | 0xB001, 0x0B => some s.bistAll
  | 0xB020, i => some (be 4 (s.repairState (i - 1)))
  | 0xB030, 2 => some (be 1 (fuseFree s))
  | 0xC010, 2 => some s.pcAll
  | _, _ => none

/-- The computed entries of a line lane. The coefficients that the lane adapts read from the snapshot (R63). -/
def computedLine (s : State) (n : Fin 16) (k : Key) : Option (List Byte) :=
  match k.off, k.sub with
  | 0x04, 0x11 => some (be 1 (s.slotSpare n))
  | 0x04, 0x13 => some (s.slotMapAll n)
  | 0x04, i => if 1 ≤ i && i ≤ 0x10 then some (be 1 (s.slotMap n (i - 1))) else none
  | 0x07, 1 => some (be 1 (s.picotRxState n))
  | 0x07, 2 => some (be 1 (s.picotTxState n))
  | 0x08, 0x0F => some (s.run k.blk 0x08 1 14 4)
  | 0x09, 5 => some (be 1 (s.ssNextSlot n))
  | 0x09, 6 => some (be 1 (s.ssStatus n))
  | 0x0A, 0x12 => some (s.ssCorrAll n)
  | 0x0A, i => if h : i - 1 < 17 then some (be 4 (s.ssSlice n ⟨i - 1, h⟩)) else none
  | 0x12, _ => some (be 2 (s.rd k))
  | 0x14, _ => some (be 1 (s.rd k))
  | 0x15, 2 => some (be 2 (s.rd k))
  | 0x15, 3 => some (be 2 (s.rd k))
  | 0x18, 1 => some (be 2 (s.adaptStatus n))
  | 0x23, 2 => some (be 2 (s.txFfeSum n))
  | 0x29, 1 => some (be 1 (s.txSrc n))
  | 0x2C, 0x0B => some (be 4 (min (ccToUs (s.now - (s.co n).phaseAt)) (2 ^ 32 - 1)))
  | 0x2E, 0x1B => some (s.run k.blk 0x2E 1 26 4)
  | 0x32, 0x12 => some (s.run k.blk 0x32 1 11 8 ++ s.run k.blk 0x32 0x0C 6 4)
  | 0x34, 2 => some (be 8 ((s.injFollow n).rd k))
  | 0x38, 3 => some (be 8 ((s.prbsInjFollow (.line n)).rd k))
  | 0x39, 7 => some (s.run k.blk 0x39 3 3 8 ++ s.run k.blk 0x39 6 1 4)
  | 0x3A, _ => some (be ((entryOf k).elim 0 (·.ty.size)) (s.latRead n k))
  | 0x3B, _ => some (be ((entryOf k).elim 0 (·.ty.size)) (s.latRead n k))
  | 0x3C, 8 => some (s.latAll n)
  | 0x3C, _ => some (be ((entryOf k).elim 0 (·.ty.size)) (s.latRead n k))
  | 0x3E, 8 => some (s.timeAll n)
  | _, _ => none

/-- A read of the host FEC counters: those of a port that does not exist in the current mode read 0 (R155). -/
def fecRead (s : State) (g : Fin 4) (k : Key) : List Byte :=
  let on (p : Nat) : Bool := !(s.portLanes g p).isEmpty
  let cnt (sub n : Nat) : List Byte := be n (if on ((sub - (if sub < 0x12 then 1 else 2)) % 4) then s.rd ⟨.pg g, k.off, sub⟩ else 0)
  match k.sub with
  | 0x11 => (List.range 64).flatMap fun i =>
      be 8 (if on (i / 16) then field (s.rd k) (64 * (63 - i) + 63) (64 * (63 - i)) else 0)
  | 0x16 => ((List.range 16).flatMap fun i => cnt (i + 1) 8) ++ (List.range 4).flatMap fun i => cnt (0x12 + i) 4
  | sub => cnt sub (if sub < 0x12 then 8 else 4)

/-- The performance counters that a read looks at. -/
def pcLook (s : State) (k : Key) : State :=
  match k.blk, k.off, k.sub with
  | .pc c, _, 4 | .pc c, _, 5 => s.pcSeen c
  | .dev, 0xC010, 2 => forAll (allFin 8) (fun c s => s.pcSeen c) s
  | _, _, _ => s

/-- The value an entry reads as (R386): what it computes, or the value of the latest accepted write. -/
def readValue (s0 : State) (r : Fin 18) (k : Key) : List Byte :=
  let s := s0.pcLook k
  let c := match k.blk with
    | .dev => s.computedDev r k
    | .line n => s.computedLine n k
    | .host m =>
      if k.off = 0x02 && k.sub = 4 then some (be 2 (if s.hostBit m 2 then Config.freeNat s.free % 65536 else 0x8000))
      else if k.off = 0x02 && k.sub = 5 && s.hostTapsMove m then some (be 32 (Config.freeNat s.free))
      else if k.off = 0x10 && k.sub = 3 then some (be 8 ((s.prbsInjFollow (.host m)).rd k))
      else if k.off = 0x11 && k.sub = 7 then some (s.run k.blk 0x11 3 3 8 ++ s.run k.blk 0x11 6 1 4) else none
    | .port p =>
      if k.off = 0xF0 && k.sub = 3 then some (be 8 ((s.prbsInjFollow (.port p)).rd k))
      else if k.off = 0xF1 && k.sub = 7 then some (s.run k.blk 0xF1 3 3 8 ++ s.run k.blk 0xF1 6 1 4) else none
    | .pg g =>
      if k.off = 5 || k.off = 6 then some (s.fecRead g k)
      else if k.off = 9 && k.sub = 3 then some (be 4 (s.hckoSpread g)) else none
    | .loop j => if k.off = 5 && k.sub = 9 then some (s.loopAll j) else none
    | .aux a => if k.sub = 5 then some (be 1 (s.auxStatus a)) else none
    | .mb c => if k.sub = 3 then some (s.mgmt.boxes.get c).data else none
    | .pc c =>
      match k.sub with
      | 4 => some (be 4 ((s.pc c).count % 2 ^ 32))
      | 5 => some (be 2 (((s.pcTakeLatch c (masterOf r)).1).getD ((s.pc c).count / 2 ^ 32)))
      | _ => none
    | .slot x =>
      match k.sub with
      | 1 => some (s.slot x).image
      | 2 => some (be 1 (slotNum (s.slot x).st))
      | 3 => some (be 4 (s.slotSvn x))
      | 4 => some (be 4 (s.slotVersion x))
      | 5 => some (s.slotHash x)
      | _ => none
    | _ => none
  match c, entryOf k with
  | some v, some _ => v
  | _, some e => be e.ty.size ((overlay s).rd k)
  | _, none => be 1 ((highestSub k.blk k.off).getD 0)

/-! ## What a read changes -/

/-- Entries that a read clears, whole. -/
def clearedOnRead (k : Key) : Bool :=
  match k.blk, k.off, k.sub with
  | .dev, 0x5006, _ | .dev, 0x6001, _ | .dev, 0x7005, _ | .dev, 0x8031, _ | .dev, 0x9400, _ | .dev, 0xB010, _ => true
  | .dev, 0x8030, 1 | .dev, 0xC010, 3 => true
  | .pg _, 0x08, _ => true
  | _, _, _ => false

/-- The bits of an entry that a read clears. -/
def clearBits (k : Key) : List Nat :=
  match k.blk, k.off, k.sub with
  | .line _, 0x2A, 2 => [0]
  | .host _, 0x01, 1 => [6]
  | .pg _, 0x04, 1 => [1, 2, 4]
  | .line _, 0x39, 2 | .host _, 0x11, 2 | .port _, 0xF1, 2 => [1]
  | .pc _, _, 6 => [1]
  | _, _, _ => []

/-- A read has returned the entry's value: bits and registers cleared on read (R431), latches (R421), a lock taken (R409),
the monitor's data taken (R309), an injection's count brought up to date, a free value drawn. -/
def readAfter (s : State) (r : Fin 18) (k : Key) : State :=
  if k.sub = 0 then s
  else if clearedOnRead k then s.wr k 0
  else if !(clearBits k).isEmpty then forAll (clearBits k) (fun i s => s.wrBit k i false) s
  else match k.blk, k.off, k.sub with
    | .dev, 0x7002, 1 | .dev, 0x7002, 3 => s.monTaken
    | .dev, 0x8000, 2 | .dev, 0x8000, 3 => s.fresh.2
    | .dev, 0x9410, i => if h : i - 1 < 32 then s.takeLock ⟨i - 1, h⟩ r.val else s
    | .line n, 0x34, 2 => s.injFollow n
    | .line n, 0x38, 3 => s.prbsInjFollow (.line n)
    | .host m, 0x02, 4 => if s.hostBit m 2 then s.fresh.2 else s
    | .host m, 0x02, 5 => if s.hostTapsMove m then s.fresh.2 else s
    | .host m, 0x10, 3 => s.prbsInjFollow (.host m)
    | .port p, 0xF0, 3 => s.prbsInjFollow (.port p)
    | .dev, 0xC010, 2 => s.pcLook k
    | .pc c, _, 4 => (s.pcLook k).pcLatch c (masterOf r)
    | .pc c, _, 5 => ((s.pcLook k).pcTakeLatch c (masterOf r)).2
    | _, _, _ => s

/-! ## DESCRIBE (Table 13-8) -/

def Acc.code : Acc → Nat
  | .ro => 0 | .rw => 1 | .wo => 2 | .rwd => 3 | .const => 4

def Pers.code : Pers → Nat
  | .vol | .const => 0
  | .mrst | .aon => 1
  | .flash => 2

/-- The description of an entry; subindex 0 is a U8 constant (R366). -/
def describeBody (k : Key) : List Byte :=
  let fast := (!readNeedsCore k).toNat
  match entryOf k with
  | none => be 1 2 ++ be 1 4 ++ be 1 0x0F ++ be 1 0 ++ be 4 1 ++ be 1 fast
  | some e =>
    let rr := if e.acc == .wo then 15 else if vendorIndex k then 3 else 0
    let wrole := if e.acc == .ro || e.acc == .const then 15 else if vendorIndex k then 3 else e.wrole.rank
    be 1 e.ty.code ++ be 1 (Acc.code e.acc) ++ be 1 (16 * rr + wrole) ++ be 1 (Pers.code e.pers) ++ be 4 e.ty.size ++ be 1 fast

end State

/-! ## Meanings -/

/-- A read of a register that is cleared on read (R431): its bits are returned, then cleared. Another entry is refused or read
as a READ does. -/
def execClearOnReadRead (r : Fin 18) (idx : BitVec 16) (sub : BitVec 8) (s : State) : Host.Outcome State Fault Refusal :=
  let k := Key.ofIndex idx.toNat sub.toNat
  .next (if !s.served r then s
    else match s.readCheck r k with
      | .ok => (s.taken.reply r (s.readValue r k)).readAfter r k
      | v => s.taken.answered r v)

end Sys2Proof.Machine
end

