-- ==== Sys2Proof/Machine/TxChain.lean ====
section
/-!
DEFINITION. The transmit chain of a line lane, its stages in the order of Table 3-1 (R73): encoder and interleave, source, Gray code and
precoder, level map, FFE, predistortion, Picot tone and DAC code, down to the codes in the DAC sample queue.
-/

namespace Sys2Proof.Machine

/-! ## Stage 1: encoder and interleave (R104 to R106, R109, R127) -/

/-- The bits of a block in the order of its symbols: four codewords of 68 data bytes each, the first tagged at an epoch boundary, each with
the bytes that error injection names for it. -/
def blockBits (tagged : Bool) (data : List (List Byte)) (errors : List Nat) : List Bool :=
  let cws := data.mapIdx fun w d =>
    let c := rsEncode d
    inject ((errors[w]?).getD 0) (if tagged && w == 0 then tag c else c)
  (List.range 1152).flatMap fun k =>
    let p := symbolPlace k
    let b := (((cws[p.1]?).getD [])[p.2.1]?).getD 0
    [b.getLsbD (7 - 2 * p.2.2), b.getLsbD (6 - 2 * p.2.2)]

/-! ## The tone (R84): ramps in 2^-40, the unit waveform in 2^-20, codes in 2^-18 -/

/-- The terms of a sine from `term` on, `x2` the angle's square, both in 2^-60: `fuel` of them, the next divided by (2k)(2k + 1). -/
def sineTerms : Nat → Nat → Int → Int → Int
  | 0, _, _, _ => 0
  | fuel + 1, k, x2, term => term + sineTerms fuel (k + 1) x2 (-(term * x2 / 2 ^ 60) / ((2 * k) * (2 * k + 1) : Nat))

/-- The raised cosine (1 - cos(π i / t)) / 2, in 2^-40: the square of the sine of half the angle, to the precision carried (log
entry 103). -/
def raisedCos (i t : Nat) : Int :=
  let x : Int := (1811004864519280710 * i / t : Nat)
  let sine := sineTerms 16 1 (x * x / 2 ^ 60) x
  clampI 0 (2 ^ 40) (sine * sine / 2 ^ 80)

/-- Samples of a Picot symbol at 225 GS/s (Table 8-1). -/
def picotSamples (mode : Nat) : Nat := if mode = 0 then 900000 else 3600000

/-- The ramp at sample `i` of a burst of `symbols` (R84): 0 outside it. -/
def rampAt (mode symbols i : Nat) : Int :=
  let t := 8 * picotSamples mode
  let all := symbols * picotSamples mode
  if all ≤ i then 0 else if i < t then raisedCos i t else if all < i + t then raisedCos (all - i) t else 2 ^ 40

/-- The tone added to a sample: 128 (D / 1,000) r p codes (R84). -/
def picotTone (depth : Nat) (r p : Int) : Int := roundOpen (128 * depth * r * p) (1000 * 2 ^ 42)

/-! ## Stages 3 to 7 -/

/-- What of the lane's settings the chain uses: FFE taps, main tap, table entries by index (none with the switch at 0), samples a symbol. -/
structure TxCfg where
  taps : List Int
  main : Nat
  pd : List Int
  perSym : Nat
deriving DecidableEq, Repr

/-- A symbol enters: level index and LEVEL value (R78), 0 of QUIET (R95). -/
def txPush (t : TxS) (x : Fin 4 × Int) : TxS := { t with idx := (x.1 :: t.idx).take 16, amp := (x.2 :: t.amp).take 16 }

/-- The level index sent `i` symbols before the newest. -/
def txIdx (t : TxS) (i : Nat) : Fin 4 := (t.idx[i]?).getD 0

/-- FFE output and predistortion of the symbol that stands at the main tap (R73, R83). -/
def txValue (g : TxCfg) (t : TxS) : Int × Int :=
  (txFfe g.taps t.amp, getI g.pd (pdIdx (txIdx t (g.main + 1)) (txIdx t g.main) (txIdx t (g.main - 1))))

/-- Symbols through the chain, `tone` the tone's samples: the history after them and the codes before clamping, in Courn-225 two of each
symbol (R98). -/
def txRun (g : TxCfg) : TxS → List (Fin 4 × Int) → List Int → TxS × List Int
  | t, [], _ => (t, [])
  | t, x :: xs, tone =>
    let t1 := txPush t x
    let v := txValue g t1
    let r := txRun g t1 xs (tone.drop g.perSym)
    (r.1, ((List.range g.perSym).map fun i => dacSum v.1 v.2 (getI tone i)) ++ r.2)

namespace State

/-- The settings that the chain uses now. -/
def txCfg (s : State) (n : Fin 16) : TxCfg :=
  { taps := txTaps s n, main := s.rd (K.LINE_TX_FFE_MAIN n)
    pd := if s.on (K.LINE_TX_PD_EN n) then (List.range 64).map fun i => s.rdI (K.LINE_TX_PD_LUT n i) else []
    perSym := if s.is225 n then 2 else 1 }

/-- Level l is sent at LEVEL[l] / 256 (R78). -/
def txAmp (s : State) (n : Fin 16) (a : Fin 4) : Int := s.rdI (K.LINE_TX_LEVEL n a.val)

/-- Stages 2 to 4 (R75 to R78, R95): `bits` those of the encoder since the last codeword boundary, as many as the lane sent. TRAIN is
PRBS13Q from its seed on, never precoded (R206). QUIET sends no level: amplitude 0, the precoder's state and the predistortion index
stand (DESIGN CHOICE, log entry 104). -/
def txSymbols (s : State) (n : Fin 16) (bits : List Bool) : List (Fin 4 × Int) :=
  let t := (s.lane n).tx
  let sent (l : List (Fin 4)) : List (Fin 4 × Int) := l.map fun a => (a, s.txAmp n a)
  let coded (l : List (Fin 4)) : List (Fin 4 × Int) := sent (precode (s.on (K.LINE_TX_PRECODE n)) (txIdx t 0) l)
  match (s.lane n).srcNow with
  | 2 => sent (pam4 (prbsRun 6 t.train (2 * (bits.length / 2))).1)
  | 3 => coded (pam4 bits)
  | 4 => coded (pam4 (s.prbsBits (.line n) t.at_ (2 * (bits.length / 2))))
  | _ => List.replicate (bits.length / 2) (txIdx t 0, 0)

/-- Samples of the present codeword period that lie before the start of the burst in progress. -/
def toneLead (s : State) (n : Fin 16) : Nat := 128 * ((s.picot n).startAt - (s.lane n).tx.at_)

/-- The tone's samples over a codeword period, of the burst in progress at its end (R84, R85; log entry 103): `wave` the modem's unit
waveform in 2^-20. -/
def toneSamples (s : State) (n : Fin 16) (wave : List Int) : List Int :=
  let m := s.picot n
  let lead := s.toneLead n
  if m.burst.isNone then []
  else wave.mapIdx fun i p =>
    if i < lead then 0
    else picotTone m.depth (rampAt m.burstMode m.tone.length (m.sent + i - lead)) (clampI (-1048576) 1048576 p)

/-- The lane sends what its source and modem gave since the last codeword boundary, unless the stage is disabled: the codes go to the DAC
sample queue, which holds 2 cc of them, clamped samples count (R86, R87). While the gearbox relocks code 0 is sent (Table 5-2). -/
def txSend (s : State) (n : Fin 16) (bits : List Bool) (wave : List Int) : State :=
  let l := s.lane n
  let g := s.txCfg n
  let k := bits.length / 2
  let r := if (s.pg (pgOf n)).code0 then (l.tx, List.replicate (g.perSym * k) 0) else txRun g l.tx (s.txSymbols n bits) (s.toneSamples n wave)
  let codes := r.2.map (clampI (-128) 127)
  let train := if l.srcNow = 2 then l.tx.train + 2 * k else l.tx.train
  if l.out = .disabled then s.modLane n fun l => { l with tx := { l.tx with at_ := s.now } }
  else (s.addSat (K.LINE_TX_DAC_CLIP n) (r.2.filter fun c => clampI (-128) 127 c != c).length).modLane n fun l =>
    { l with
      tx := { r.1 with codes := (codes.reverse ++ l.tx.codes).take 256, train := train, at_ := s.now }
      picot := if l.picot.burst.isSome then { l.picot with sent := l.picot.sent + codes.length - s.toneLead n } else l.picot }

end State

end Sys2Proof.Machine
end

