-- ==== Sys2Proof/Machine/OdApply.lean ====
section
/-!
DEFINITION. How an accepted write takes effect: the boundary it waits for (R62, R149, R306, R388, R391), the effect of each
entry in the place that its chapter names, and the boundaries at which waiting writes take effect.
-/

namespace Sys2Proof.Machine

/-! ## Boundaries -/

/-- The boundary that an entry's rule names for a single write; none: the commit point. R83 names one for the predistortion table and
none for its switch `LINE_TX_PD_EN`, which acts at the commit point (DESIGN CHOICE, log entry 86). -/
def boundOf (k : Key) : Option Bound :=
  match k.blk, k.off, k.sub with
  | .line n, 0x12, _ | .line n, 0x14, _ | .line n, 0x15, 2 | .line n, 0x15, 3 => some (.rxCw n)
  | .line n, 0x22, _ | .line n, 0x24, _ | .line n, 0x25, _ | .line n, 0x29, 2 => some (.txCw n)
  | .host m, 0x08, 1 | .host m, 0x10, 1 => some (.period (pgOfHost m))
  | .pg g, 0x00, 4 | .pg g, 0x09, 2 => some (.period g)
  | .loop _, _, _ | .aux _, _, _ | .og _, _, _ | .chain _, _, _ => some .frame
  | .dev, 0x7003, 1 | .dev, 0x70E0, _ => none
  | .dev, off, _ => if 0x6000 ≤ off && off < 0x8000 then some .frame else none
  | _, _, _ => none

/-- The boundary of an entry of a commit group (Table 13-11). -/
def groupBound (k : Key) : Option Bound :=
  match k.blk with
  | .line n =>
    if (0x01 ≤ k.off && k.off ≤ 0x05) || (0x10 ≤ k.off && k.off ≤ 0x1F) then some (.rxCw n)
    else if 0x20 ≤ k.off && k.off ≤ 0x2A then some (.txCw n) else some (.anyCw n)
  | .pg g => some (.period g)
  | .host m => some (.period (pgOfHost m))
  | .loop _ | .aux _ | .og _ | .chain _ => some .frame
  | .dev =>
    if 0x6000 ≤ k.off && k.off < 0x8000 then some .frame
    else if 0x5000 ≤ k.off && k.off ≤ 0x5006 then some .tick else none
  | _ => none

/-- Commit domains (Table 13-11), by number: 1 to 16 the line lanes, 17 to 20 the port groups, 21 control, 22 time, 23 the
device. -/
def domainOf (k : Key) : Nat :=
  match groupBound k with
  | some (.rxCw n) | some (.txCw n) | some (.anyCw n) => 1 + n.val
  | some (.period g) => 17 + g.val
  | some .frame => 21
  | some .tick => 22
  | none => 23

/-! ## Effects of the dictionary's own commands (R396) -/

/-- `OD_CFG_ERASE`. `bad`: an erase fails its read-back (R465); whether a copy still holds is then free. -/
def effCfgErase (v : Nat) (bad : Bool) (s : State) : State :=
  if v != 1 then s
  else if bad then
    (s.fresh.2.modOd fun o =>
      { o with copies := o.copies.mapIdx fun i c => { c with valid := c.valid && s.fresh.1.testBit i } }).raise Src.FLASH_FAULT
  else s.modOd fun o => { o with copies := Vector.replicate 2 {}, erased := true }

/-- `OD_STATS_CLEAR`: 0x04 to 0x0A and 0x0C. -/
def effStatsClear (v : Nat) (s : State) : State :=
  if v = 1 then s.clrAll ((List.range 7).map (fun i => (⟨.dev, 0x1020, 4 + i⟩ : Key)) ++ [K.OD_MALFORMED]) else s

/-! ## Effects by entry -/

/-- A write with no effect of its own: the entry takes the value; a command entry holds nothing. -/
def stored (k : Key) (v : Nat) (s : State) : State :=
  match entryOf k with
  | some e => if e.acc == .wo then s else s.wr k v
  | none => s

/-- Effects in a line lane's block. -/
def applyLine (n : Fin 16) (k : Key) (v : Nat) (s : State) : State :=
  match k.off, k.sub with
  | 0x01, 1 => effCtlePeak n v s
  | 0x03, 1 => effLosThr n v s
  | 0x08, 0x10 => effPicotClear n v s
  | 0x09, 1 => effSsInterval n v s
  | 0x09, 4 => effSsRetest n v s
  | 0x0B, 9 => effSsClear n v s
  | 0x0C, 1 => effCalCmd n v s
  | 0x10, 1 => effFfeLen n v s
  | 0x11, 1 => effFfeSnap n v s
  | 0x12, i => s.coefWritten n 0x12 i v
  | 0x14, i => s.coefWritten n 0x14 i v
  | 0x15, 2 => s.coefWritten n 0x15 2 v
  | 0x15, 3 => s.coefWritten n 0x15 3 v
  | 0x17, 1 => effAdaptCtrl n v s
  | 0x1B, 2 => effLqmClear n v s
  | 0x1F, 5 => effSwatchArm n v s
  | 0x20, 1 => effTxOutMode n v s
  | 0x20, 2 => effOutEn n v s
  | 0x21, 1 => effCoCfg n k v s
  | 0x23, 1 => effTxFfeMain n v s
  | 0x28, 1 => effTxSkew n v s
  | 0x2B, 1 => effLineAdmin n v s
  | 0x2B, 2 => effCoCmd n v s
  | 0x2B, 3 => effCoCfg n k v s
  | 0x2B, 4 => effCoCfg n k v s
  | 0x2E, 0x1C => effCoClear n v s
  | 0x2F, 0x0B => effTxeqGo n v s
  | 0x33, 1 => effFecClear n v s
  | 0x34, 1 => effFecInject n v s
  | 0x38, 1 => effPrbsGen (.line n) 0 v s
  | 0x38, 2 => effPrbsInject (.line n) v s
  | 0x39, 1 => effPrbsChk (.line n) v s
  | 0x39, 8 => effPrbsClear (.line n) v s
  | 0x3F, 0x0B => effTimeClear n v s
  | _, _ => stored k v s

/-- Effects in a host lane's block. -/
def applyHost (m : Fin 32) (k : Key) (v : Nat) (s : State) : State :=
  match k.off, k.sub with
  | 0x01, 2 => effHostLosThr m v s
  | 0x02, 2 => effHostAdapt m k v s
  | 0x02, 3 => effHostAdapt m k v s
  | 0x08, 1 => effHostTaps m k v s
  | 0x09, _ => effHostTaps m k v s
  | 0x10, 1 => ((s.prbsInjFollow (.host m)).wr k v).prbsReseed (.host m)
  | 0x10, 2 => effPrbsInject (.host m) v s
  | 0x11, 1 => effPrbsChk (.host m) v s
  | 0x11, 8 => effPrbsClear (.host m) v s
  | _, _ => stored k v s

/-- Effects in a port group's block. -/
def applyPg (g : Fin 4) (k : Key) (v : Nat) (s : State) : State :=
  match k.off, k.sub with
  | 0x00, 1 => effPgCfg g k v s
  | 0x00, 2 => effPgCfg g k v s
  | 0x00, 3 => effPgClkMode g v s
  | 0x00, 4 => effPgFecMode g v s
  | 0x07, 1 => effPgFecClear g v s
  | 0x09, 2 => effHckoSrc g v s
  | _, _ => stored k v s

/-- Effects in the management blocks that stand once. -/
def applyMgmt (r : Fin 18) (k : Key) (v : Nat) (s : State) : State :=
  match k.off, k.sub with
  | 0x9000, 2 => (s.wr k v).plFollow
  | 0x9000, 3 => (s.wr k v).plFollow
  | 0x9000, 9 => effMgmtMrst v s
  | 0x9000, 0x0A => effMasterRestart r.val v s
  | 0x9010, 5 => effIrqSwSet v s
  | 0x9100, 5 => effAvailClear v s
  | 0x9200, 3 => effEvrAck v s
  | 0x9411, i => if h : i - 1 < 32 then effLkRelease ⟨i - 1, h⟩ v s else s
  | 0x9412, i => if h : i - 1 < 32 then effLkForce ⟨i - 1, h⟩ v r.val s else s
  | 0xC010, 1 => effPcEnable v s
  | _, _ => stored k v s

/-- Effects in the security, self-test and power blocks. `x`: what programming the fuses brought (R448, R509); else odd where what was erased
or programmed fails its read-back (R457, R465). -/
def applySec (r : Fin 18) (k : Key) (data : List Byte) (x : Nat) (s : State) : State :=
  let v := beNat data
  match k.off, k.sub with
  | 0x8000, 1 => s.wr k (s.rd k - (s.rd k &&& v))
  | 0x8000, 6 => effDeviceOff v s
  | 0x8000, 8 => effRstLane v s
  | 0x8002, 0x0E => effPwrCntClear v s
  | 0x8200, 7 => effTripTest v s
  | 0xA000, 2 => effLcAdvance r v s
  | 0xA000, 4 => effDebugClose v s
  | 0xA000, 6 => (s.tokenSubmit r data (!x.testBit 0)).2
  | 0xA000, 8 => effVendorDrop r v s
  | 0xA010, 2 => effFwActivate v s
  | 0xA010, 3 => effFwConfirm v s
  | 0xA010, 5 => effSvnCommit v x s
  | 0xA020, 3 => s.certWrite data (x.testBit 0)
  | 0xA020, 4 => effAttestNonce data s
  | 0xB000, 1 => effBistStart v s
  | 0xB000, 2 => effBistStop v s
  | 0xB002, 5 => effBistCntClear v s
  | 0xB030, 1 => effRepairFuse v x s
  | _, _ => stored k v s

/-- Effects in the other blocks that stand once. `x`: is the newly selected root valid (R14); does an erase fail (R465)? -/
def applyDev (r : Fin 18) (k : Key) (data : List Byte) (x : Nat) (s : State) : State :=
  let v := beNat data
  match k.off, k.sub with
  | 0x1010, 6 => effCfgErase v (x.testBit 0) s
  | 0x1020, 0x0D => effStatsClear v s
  | 0x2030, 0x13 => effRingClear v s
  | 0x5001, 1 => effTimeSet v s
  | 0x5001, 2 => effTimeStep v s
  | 0x5001, 3 => effTimeRateAdj v s
  | 0x5002, 1 => effDiscSrc v s
  | 0x5002, 2 => effLineLane v s
  | 0x5003, 3 => effSyncInEn v s
  | 0x5100, 1 => effClkRefSrc v (x != 0) s
  | 0x5110, 1 => effRclko 0 v s
  | 0x5110, 2 => effRclko 1 v s
  | 0x7003, 1 => s.urgentReq v s.urgentFits
  | 0x70E0, 1 => effMonCalCmd v s
  | off, _ =>
    if 0x6000 ≤ off && off < 0x8000 then s.ceApplySet [(k, v)]
    else if 0x9000 ≤ off && off < 0xA000 || 0xC000 ≤ off then applyMgmt r k v s
    else if 0x8000 ≤ off then applySec r k data x s else stored k v s

/-- A skein slot written in one piece (R385, R445). -/
def applySlot (y : Fin 2) (r : Fin 18) (data : List Byte) (x : Nat) (s : State) : State :=
  ((s.slotInit y r).slotData y data (x.testBit 0)).slotFinish y

/-- An accepted write takes effect: the entry's own, in its place. `x`: what was measured with it. -/
def State.applyNow (s : State) (r : Fin 18) (k : Key) (data : List Byte) (x : Nat) : State :=
  let v := beNat data
  let s1 := match k.blk with
    | .line n => applyLine n k v s
    | .host m => applyHost m k v s
    | .pg g => applyPg g k v s
    | .port p =>
      match k.off, k.sub with
      | 0x01, 1 => effPortAdmin p v s
      | 0xF0, 1 => effPrbsGen (.port p) 0 v s
      | 0xF0, 2 => effPrbsInject (.port p) v s
      | 0xF1, 1 => effPrbsChk (.port p) v s
      | 0xF1, 8 => effPrbsClear (.port p) v s
      | _, _ => stored k v s
    | .loop _ | .aux _ | .og _ | .chain _ => s.ceApplySet [(k, v)]
    | .pwr u => if k.sub = 1 then effPwrReq u v s else stored k v s
    | .irq g => match k.sub with
      | 1 => effIrqCause g v s
      | 2 => effIrqEnable g v s
      | _ => stored k v s
    | .mb c => match k.sub with
      | 1 => effMbCfg c v s
      | 3 => s.mbSend c r.val data
      | 4 => effMbAck c v s
      | _ => stored k v s
    | .pc c => if k.sub = 1 || k.sub = 2 || k.sub = 3 || k.sub = 7 then effPcReprogram c k.sub v s else stored k v s
    | .slot y => if k.sub = 1 then applySlot y r data x s else s
    | .dev => applyDev r k data x s
  s1.noteUnsaved k

namespace State

/-- The boundary for which a write of this value waits: a FEC mode to or from terminate waits for none (R153, R173). -/
def boundNow (s : State) (k : Key) (v : Nat) : Option Bound :=
  match k.blk, k.off, k.sub with
  | .pg g, 0x00, 4 => if fecModeWaits g v s then boundOf k else none
  | _, _, _ => boundOf k

/-- A write at its commit point: it takes effect, or waits for its boundary. `e`: the fences its requester had sent. -/
def commitWrite (s : State) (r : Fin 18) (e : Nat) (k : Key) (data : List Byte) (x : Nat) : State :=
  match s.boundNow k (beNat data) with
  | some b => s.modOd fun o => { o with waiting := o.waiting ++ [{ req := r, epoch := e, bound := b, grp := false, writes := [(k, data)] }] }
  | none => (s.dropWaiting fun q => boundOf k != none && q == k).applyNow r k data x

/-! ## The boundaries pass -/

/-- The waiting writes that a test picks take effect, oldest first (R387). In scan the units run no clock of their own: none does (R34,
R459). -/
def boundaryPass (s : State) (p : Bound → Bool) : State :=
  if s.scanOn then s
  else forAll (s.od.waiting.filter fun g => p g.bound) (fun g s => forAll g.writes (fun w s => s.applyNow g.req w.1 w.2 0) s)
    (s.modOd fun o => { o with waiting := o.waiting.filter fun g => !p g.bound })

/-- Does a group write one of the coefficients that the receive chain adapts (R62)? -/
def writesCoef (n : Fin 16) (g : Waiting) : Bool :=
  g.writes.any fun w => w.1.blk == .line n && boundOf w.1 == some (.rxCw n)

/-- The writes that wait for a receive codeword boundary of Ln; written coefficients are followed by one snapshot (R62, R63). -/
def rxWrites (s : State) (n : Fin 16) : State :=
  let p (b : Bound) : Bool := b == .rxCw n || b == .anyCw n
  when_ ((s.od.waiting.filter fun g => p g.bound).any (writesCoef n)) (fun s => s.snapshot n) (s.boundaryPass p)

/-- The writes that wait for a transmit codeword boundary of Ln. -/
def txWrites (s : State) (n : Fin 16) : State := s.boundaryPass fun b => b == .txCw n || b == .anyCw n

/-- An inner codeword boundary of the receive chain: writes, the coefficients of a reset, RESTART, the precoder inverse
(R55, R58, R62). -/
def rxCodeword (s : State) (n : Fin 16) : State :=
  let s1 := (s.rxWrites n).rxBoundary n
  s1.wr (K.LINE_RX_PRECODE n) (5 ≤ s1.phase n && (s1.co n).precFar).toNat

/-- An inner codeword boundary of the transmit chain: writes, source, taps, precoder; then the answer to an applied TXEQ_REQ
(R76, R81, R96, R209). -/
def txCodeword (s : State) (n : Fin 16) : State :=
  let s0 := (((s.injFollow n).prbsInjFollow (.line n)).txWrites n).txBoundary n
  let s1 := if (s.lane n).srcNow != 4 && (s0.lane n).srcNow = 4 then s0.prbsReseed (.line n) else s0
  ((s1.wr (K.LINE_TX_PRECODE n) (5 ≤ s1.phase n && (s1.co n).precOwn).toNat).txeqAckDue n).coSettle n

/-- A 17-hc period boundary of PGk: writes, then the capture buffers' fills (R140, R149). -/
def periodBoundary (s : State) (g : Fin 4) (fills : List (Fin 8 × Nat)) : State :=
  (s.boundaryPass fun b => b == .period g).hostFills g fills

/-- A gauge tick: a time group, then the adjustments (R279, Table 13-11). -/
def gaugeBoundary (s : State) : State := (s.boundaryPass fun b => b == .tick).gaugeTick

/-- The boundary of a closed group comes (R391): what waits for it takes effect. -/
def groupApply (s : State) (b : BoundAt) : State :=
  match b with
  | .rx n => s.rxWrites n
  | .tx n => s.txWrites n
  | .period g => s.boundaryPass fun b => b == .period g
  | .frame => s.frameWrites
  | .tick => s.boundaryPass fun b => b == .tick

end State

/-! ## Meanings -/

/-- `rx`: the receive grid's boundary, else the transmit grid's. `bits`: what the encoder gave the lane since the last transmit boundary, as
many as it sent; `tone`: the Picot modem's unit waveform at the samples since then, in 2^-20 (R233). -/
def execCodewordBoundaryApply (n : Fin 16) (rx : Bool) (bits : List Bool) (tone : List Int) (s : State) : Host.Outcome State Fault Refusal :=
  .next (if rx then s.rxCodeword n else (s.txSend n bits tone).txCodeword n)

/-- `fills`: symbols in the capture buffers of the group's lanes, by index j. -/
def execHostPeriodBoundary (g : Fin 4) (fills : List (Fin 8 × Fin 129)) (s : State) : Host.Outcome State Fault Refusal :=
  .next (s.periodBoundary g (fills.map fun f => (f.1, f.2.val)))

def execTimeAdjApply (s : State) : Host.Outcome State Fault Refusal := .next (if s.running then s.gaugeBoundary else s)

def execGroupApply (b : BoundAt) (s : State) : Host.Outcome State Fault Refusal := .next (s.groupApply b)

/-- `ok`: the erased flash reads back as erased. -/
def execOdCfgErase (r : Fin 18) (v : BitVec 8) (ok : Bool) (s : State) : Host.Outcome State Fault Refusal :=
  .next (s.write r K.OD_CFG_ERASE (be 1 v.toNat) (effCfgErase v.toNat (!ok)))

def execOdStatsClear (r : Fin 18) (v : BitVec 8) (s : State) : Host.Outcome State Fault Refusal :=
  .next (s.write r K.OD_STATS_CLEAR (be 1 v.toNat) (effStatsClear v.toNat))

/-- A write of an entry that has no row of its own. `x`: what was measured with it. -/
def execRegisterWrite (r : Fin 18) (idx : BitVec 16) (sub : BitVec 8) (data : List Byte) (x : BitVec 128) (s : State) :
    Host.Outcome State Fault Refusal :=
  let k := Key.ofIndex idx.toNat sub.toNat
  .next (if k == K.SEC_TOKEN then s.tokenWrite r data (!x.getLsbD 0)
  else s.write r k data fun s => s.commitWrite r (s.req r).epoch k data x.toNat)

end Sys2Proof.Machine
end

