-- ==== Sys2Proof/Machine/Od.lean ====
section
/-!
DEFINITION. Requests of the object dictionary (13_object_dictionary.md, R374 to R394): acceptance, reads and writes,
segmented transfers, fences, commit groups, the core's commit points, saves, and the TWI target's transactions.
-/

namespace Sys2Proof.Machine

/-! ## Requests (Tables 13-5, 13-6) -/

/-- The length fits the command; reserved commands fit no length. -/
def reqFits (b : List Byte) : Bool :=
  let n := b.length
  match reqCmd b with
  | 0x01 | 0x0B => n == 5
  | 0x02 => 5 ≤ n && n ≤ 253
  | 0x03 => n == 9
  | 0x04 => 5 ≤ n && n ≤ 256
  | 0x05 | 0x07 => n == 3
  | 0x06 => n == 6
  | 0x08 | 0x09 | 0x0A => n == 2
  | _ => false

/-- The bytes of a request: command, tag, body. -/
def reqOf (cmd : Nat) (tag : BitVec 8) (body : List Byte) : List Byte := be 1 cmd ++ [tag] ++ body

/-- A request that names an entry. -/
def reqAt (cmd : Nat) (tag : BitVec 8) (idx : BitVec 16) (sub : BitVec 8) (rest : List Byte) : List Byte :=
  reqOf cmd tag (be 2 idx.toNat ++ be 1 sub.toNat ++ rest)

namespace State

/-! ## Acceptance (R377, R378, R394, Table 13-9 steps 1 to 3) -/

/-- A TWI request takes a slot. -/
def takeSlot (s : State) (r : Fin 18) : State := if r.val = 16 then s.modOd fun o => { o with twiSlots := o.twiSlots + 1 } else s

/-- A TWI request finds all slots taken. -/
def twiLost (s : State) : State := (s.modOd fun o => { o with twiOverflow := true }).incSat K.OD_TWI_OVERFLOW

/-- BUSY to a request that finds 8 in the queue (R378). -/
def queueFull (s : State) (r : Fin 18) (req : List Byte) : State :=
  (s.answered r .busy).deliver r (reqTag req) (respBytes req 2 (respFlags req) (be 2 (s.queueHint r) ++ be 1 (s.rd K.OD_CORE_LOAD)))

/-- A TAG used again with other content drops the cached answer that has it (R377). -/
def dropCached (s : State) (r : Fin 18) (req : List Byte) : State :=
  s.modReq r fun q => { q with cache := q.cache.filter fun c => reqTag c.req != reqTag req }

/-- A request arrives whole: dropped, answered BUSY, refused for its length or command, answered from the cache, a repeat of one that
waits; else accepted, and served by `f`. -/
def accept (s : State) (r : Fin 18) (req : List Byte) (f : State → State) : State :=
  if !s.served r then s
  else if r.val = 16 && 8 ≤ s.od.twiSlots then s.twiLost
  else if 8 ≤ (s.req r).queue.length then s.queueFull r req
  else if !reqFits req then (s.taken.takeSlot r).answer r req (.abort .badCmd)
  else match (s.req r).cache.find? fun c => c.req == req with
    | some c => (s.takeSlot r).deliver r (reqTag req) c.resp
    | none =>
      if (s.req r).queue.any fun q => q.bytes == req then s
      else f ((s.dropCached r req).taken.takeSlot r)

/-- A request waits in its requester's queue. -/
def enqueue (s : State) (r : Fin 18) (req : List Byte) (core : Bool) : State :=
  s.modReq r fun q => { q with queue := q.queue ++ [⟨req, s.now, core⟩] }

/-- A request waits for the core, or for requests before it (R378, R386, R388). `x`: what is measured with the write it completes. -/
def hold (s : State) (r : Fin 18) (req : List Byte) (core : Bool) (x : Nat := 0) : State :=
  (s.enqueue r req core).modOd fun o => { o with coreQ := o.coreQ ++ [⟨r, req, (s.req r).epoch, core, x⟩] }

/-! ## Order (R378, R386, R388) -/

/-- Writes of the requester before its fence number `e` that have not taken effect. -/
def fencePending (s : State) (r : Fin 18) (e : Nat) : Bool :=
  (s.od.waiting.any fun w => w.req == r && w.epoch < e) || s.od.coreQ.any fun q => q.req == r && q.epoch < e && isWrite q

/-- A request must wait behind the queued requests `before`: a write for those of its requester before a fence, and for their effects;
any for the writes of its entries (R386, R388). -/
def mustWait (s : State) (before : List CoreReq) (q : CoreReq) : Bool :=
  (isWrite q && ((s.od.waiting.any fun w => w.req == q.req && w.epoch < q.epoch) ||
    before.any fun p => p.req == q.req && p.epoch < q.epoch && isWrite p)) ||
  before.any fun p => isWrite p && (s.keysOf p).any fun k => (s.keysOf q).contains k

/-- A request of the requester waits for the core. -/
def coreQueued (s : State) (r : Fin 18) : Bool := s.od.coreQ.any fun q => q.req == r && q.core

/-- The requester's group stands open once what it has queued is served. -/
def groupAhead (s : State) (r : Fin 18) : Bool :=
  (s.od.coreQ.filter (·.req == r)).foldl (fun g q => match reqCmd q.bytes with
    | 0x08 => true
    | 0x09 | 0x0A => false
    | _ => g) (s.req r).group.isSome

/-! ## Transfers (R383 to R385) -/

def setTransfer (s : State) (r : Fin 18) (t : Transfer) : State := s.modReq r fun q => { q with transfer := t }

/-- The transfer in progress ends; a skein slot that it was filling is INVALID (R445). -/
def endTransfer (s : State) (r : Fin 18) : State :=
  let s1 := match (s.req r).transfer with
    | .writing k _ _ _ _ => match k.blk with
      | .slot x => s.slotAbort x
      | _ => s
    | _ => s
  s1.setTransfer r .idle

/-! ## READ (R383, R386) -/

/-- A READ is served: the value, or OK_SEGMENTED and a snapshot of it. -/
def serveRead (s : State) (r : Fin 18) (req : List Byte) : State :=
  let k := reqKey req
  match s.readCheck r k with
  | .ok =>
    let v := s.readValue r k
    let s1 := s.readAfter r k
    if v.length ≤ 248 then s1.answerOk r req 0 v
    else (((s1.endTransfer r).setTransfer r (.reading v 0 false [])).answered r .ok).respond r req 4 0 (be 4 v.length)
  | .busy => s.answerNoCore r req
  | v => s.answer r req v

/-! ## WRITE (R375, R382) -/

/-- A write at its commit point: checked again (R371), committed, answered. -/
def serveWrite (s : State) (r : Fin 18) (req : List Byte) (e : Nat) (k : Key) (data : List Byte) (flags x : Nat) : State :=
  match checkWrite s r k data with
  | .ok =>
    if k == K.SEC_TOKEN then
      let t := s.tokenSubmit r data (!x.testBit 0)
      match t.1 with
      | .ok => (t.2.countOwnerWrite r).answerOk r req flags []
      | v => t.2.answer r req v
    else (((s.countOwnerWrite r).markDirty r k data).commitWrite r e k data x).answerOk r req flags []
  | .busy => s.answerNoCore r req
  | v => s.answer r req v

/-! ### Staging (R389) -/

/-- Conditions that involve other entries are checked at the close; the others at once. -/
def needsSet (k : Key) : Bool :=
  match k.blk, k.off, k.sub with
  | .line _, 0x05, _ | .line _, 0x12, _ | .line _, 0x22, _ | .line _, 0x24, _ => true
  | .line _, 0x10, i => i ≤ 2
  | .host _, 0x09, _ => true
  | .pg _, 0x00, i => i ≤ 2
  | .pg _, 0x01, _ | .pg _, 0x02, _ => true
  | .loop _, 0x01, i => i == 1 || i == 7 || i == 8
  | .loop _, 0x03, i => i == 2 || (4 ≤ i && i ≤ 0x0A)
  | .loop _, 0x04, i => i ≤ 2
  | .dev, 0x5002, i => i == 4 || i == 5
  | .pc _, _, i => i ≤ 3
  | _, _, _ => false

/-- The range of a value of such an entry, whatever the set: a lane of a map (R145), the fields of a counter's configuration (R419). -/
def ownRange (k : Key) (v : Nat) : Bool :=
  match k.blk, k.off, k.sub with
  | .pg _, 0x01, _ | .pg _, 0x02, _ => v ≤ 7
  | .pc _, _, 1 => pcFieldsOk v
  | _, _, _ => true

/-- The range checks made when a write is staged. -/
def stagedBad (s : State) (k : Key) (data : List Byte) : Bool :=
  match entryOf k with
  | none => true
  | some e =>
    !(typeOk k e.ty data && rngOk e.rng (valueOf e.ty data) &&
      (if needsSet k then ownRange k (beNat data) else condOk k (beNat data) (withValue s k data)))

/-- A write is staged in its requester's open group. -/
def stage (s : State) (r : Fin 18) (req : List Byte) (ws : List (Key × List Byte)) (k : Key) (data : List Byte) (flags : Nat) :
    State :=
  match checkAccess s r k data with
  | .ok =>
    if s.stagedBad k data then s.answer r req (.abort .outOfRange)
    else if 64 ≤ ws.length || 16384 < (ws.foldl (fun n w => n + w.2.length) 0) + data.length then
      (s.groupLost r 4).answer r req (.abort .groupFull)
    else (s.modReq r fun q => { q with group := some (ws ++ [(k, data)]) }).answerOk r req flags []
  | .busy => s.answerNoCore r req
  | v => s.answer r req v

/-- A WRITE is served: refused in the lost-group state, staged in an open group, else at its commit point. -/
def writeRequest (s : State) (r : Fin 18) (req : List Byte) (e x : Nat) : State :=
  if (s.req r).lost then s.answer r req (.abort .groupLost)
  else match (s.req r).group with
    | some ws => s.stage r req ws (reqKey req) (reqData req) 0
    | none => s.serveWrite r req e (reqKey req) (reqData req) 0 x

/-! ## Downloads (R384, R385) -/

/-- A download that is staged; one of more than 64 KiB goes into the storage of its entry, a skein slot, as the segments arrive (R385). -/
def staged (size : Nat) : Bool := size ≤ 65536

/-- WRITE_INIT. A slot is in WRITING from here on (Table 15-5); its bytes stay until the first that is stored. -/
def initRequest (s : State) (r : Fin 18) (req : List Byte) : State :=
  let k := reqKey req
  let size := beNat (slice req 5 4)
  match checkEntry s r k [], entryOf k with
  | .ok, some en =>
    let fixed : Bool := match en.ty with
      | .str | .domMax _ => false
      | _ => true
    if (s.req r).lost then s.answer r req (.abort .groupLost)
    else if size = 0 then s.answer r req (.abort .length)
    else if 16777216 < size || en.ty.size < size then s.answer r req (.abort .size)
    else if fixed && size != en.ty.size then s.answer r req (.abort .length)
    else
      let s2 := (s.endTransfer r).setTransfer r (.writing k size 0 [] false)
      match k.blk with
      | .slot x =>
        if s.slotBusy x r then s.answer r req (.abort .inUse)
        else (if staged size then s2.slotOpen x r else s2.slotInit x r).answerOk r req 0 []
      | _ => s2.answerOk r req 0 []
  | .busy, _ => s.answerNoCore r req
  | v, _ => s.answer r req v

/-- A download is complete: one write, staged in an open group, or the checks of its slot. Meant for a lost group it takes no effect
alone (R392). -/
def downloadEnd (s : State) (r : Fin 18) (req : List Byte) (k : Key) (size : Nat) (data : List Byte) (flags e x : Nat) : State :=
  let s1 := s.setTransfer r .idle
  if (s.req r).lost then (s.endTransfer r).answer r req (.abort .groupLost)
  else match k.blk, staged size with
    | .slot y, false => (s1.slotFinish y).answerOk r req flags []
    | _, _ =>
      match (s.req r).group with
      | some ws => s1.stage r req ws k data flags
      | none => s1.serveWrite r req e k data flags x

/-- Steps 6 to 10 for a segment: those of its entry; with no download, those of a request that needs the core. `data`: what has arrived
of the value with it. -/
def segCheck (s : State) (r : Fin 18) (d : List Byte) : Verdict :=
  match (s.req r).transfer with
  | .writing k _ _ data _ =>
    if s.notOwnerRefuses r k then .abort .notOwner
    else if (entryOf k).any fun e => roleRefuses s r k e then .abort .role
    else if s.lifeCycleRefuses k true (!fastWrite k) then .abort .lifeCycle
    else if s.busyTest k (some (beNat (data ++ d))) (!fastWrite k) then .busyTest
    else if !fastWrite k && !s.coreServes k then .busy
    else .ok
  | _ => s.coreCheck

/-- WRITE_SEG. The toggle kept is that of the next segment. -/
def segRequest (s : State) (r : Fin 18) (req : List Byte) (e x : Nat) : State :=
  let fl := ((req[2]?).getD 0).toNat
  let d := req.drop 4
  let t := fl.testBit 7
  let last := fl.testBit 6
  let echo := fl / 64 * 64
  match s.segCheck r d, (s.req r).transfer with
  | .ok, .timedOut => (s.setTransfer r .idle).answer r req (.abort .segTimeout)
  | .ok, .writing k size got data tog =>
    if field fl 5 0 != 0 || beNat (slice req 3 1) != 0 then s.answer r req (.abort .outOfRange)
    else if t != tog then
      (if got = 0 then (s.endTransfer r).answer r req (.abort .toggle) else s.answerOk r req echo [])
    else
      let n := got + d.length
      if (if last then n != size else size ≤ n) then (s.endTransfer r).answer r req (.abort .length)
      else match k.blk, staged size with
        | .slot y, false =>
          let s2 := (s.slotData y d (x.testBit 0)).setTransfer r (.writing k size n [] (!tog))
          if last then s2.downloadEnd r req k size [] echo e x else s2.answerOk r req echo []
        | _, _ =>
          if last then s.downloadEnd r req k size (data ++ d) echo e x
          else (s.setTransfer r (.writing k size n (data ++ d) (!tog))).answerOk r req echo []
  | .ok, _ => s.answer r req (.abort .noTransfer)
  | .busy, _ => s.answerNoCore r req
  | v, _ => s.answer r req v

/-- READ_SEG (R383). -/
def readSegRequest (s : State) (r : Fin 18) (req : List Byte) : State :=
  let fl := ((req[2]?).getD 0).toNat
  let t := fl.testBit 7
  match (s.req r).transfer with
  | .timedOut => (s.setTransfer r .idle).answer r req (.abort .segTimeout)
  | .reading snap pos tog lastSeg =>
    if field fl 6 0 != 0 then s.answer r req (.abort .outOfRange)
    else if t != tog then
      (if pos = 0 then (s.endTransfer r).answer r req (.abort .toggle) else s.answerOk r req (128 * t.toNat) lastSeg)
    else
      let d := slice snap pos 252
      if snap.length ≤ pos + 252 then (s.setTransfer r .idle).answerOk r req (128 * t.toNat + 64) d
      else (s.setTransfer r (.reading snap (pos + 252) (!tog) d)).answerOk r req (128 * t.toNat) d
  | _ => s.answer r req (.abort .noTransfer)

/-- ABORT. -/
def abortRequest (s : State) (r : Fin 18) (req : List Byte) : State :=
  match (s.req r).transfer with
  | .idle => s.answer r req (.abort .noTransfer)
  | .timedOut => (s.setTransfer r .idle).answer r req (.abort .segTimeout)
  | _ => (s.endTransfer r).answerOk r req 0 []

/-! ## Commit groups (R389 to R392) -/

/-- GROUP_OPEN. -/
def openRequest (s : State) (r : Fin 18) (req : List Byte) : State :=
  if (s.req r).group.isSome then s.answer r req (.abort .inUse)
  else (s.modReq r fun q => { q with group := some [], lost := false }).answerOk r req 0 []

/-- The group is dropped with what it staged; a skein slot that waits for it is INVALID. -/
def groupDrop (s : State) (r : Fin 18) : State :=
  (forAll ((s.req r).group.getD []) (fun w s => match w.1.blk with
    | .slot x => s.slotAbort x
    | _ => s) s).modReq r fun q => { q with group := none }

/-- GROUP_CANCEL. -/
def cancelRequest (s : State) (r : Fin 18) (req : List Byte) : State :=
  if (s.req r).lost then (s.modReq r fun q => { q with lost := false }).answer r req (.abort .groupLost)
  else if (s.req r).group.isNone then s.answer r req (.abort .noGroup)
  else (s.groupDrop r).answerOk r req 0 []

/-- The first check that the set fails, in the order of the writes. -/
def groupVerdict (s s' : State) (r : Fin 18) : List (Key × List Byte) → Verdict
  | [] => .ok
  | w :: ws =>
    match checkAccess s r w.1 w.2 with
    | .ok =>
      if rangeBad s' w.1 w.2 then .abort .outOfRange
      else match checkState s s' r w.1 w.2 with
        | .ok => groupVerdict s s' r ws
        | v => v
    | v => v

/-- A checked group's writes wait for their boundaries, those of one boundary together; a device group takes effect now. -/
def groupCommit (s : State) (r : Fin 18) (ws : List (Key × List Byte)) (x : Nat) : State :=
  let bounds := (ws.filterMap fun w => groupBound w.1).eraseDups
  let parts := bounds.map fun b =>
    ({ req := r, epoch := (s.req r).epoch, bound := b, grp := true, writes := ws.filter fun w => groupBound w.1 == some b } : Waiting)
  forAll (ws.filter fun w => (groupBound w.1).isNone) (fun w s => s.applyNow r w.1 w.2 x)
    (s.modOd fun o => { o with waiting := o.waiting ++ parts })

/-- The first token of the set that fails its checks: its code, and what its refusal leaves (R390, R456). -/
def tokenRefuses (s : State) (r : Fin 18) (ws : List (Key × List Byte)) (x : Nat) : Option (Verdict × State) :=
  ws.findSome? fun w =>
    let t := s.tokenSubmit r w.2 (!x.testBit 0)
    if w.1 == K.SEC_TOKEN && t.1 != .ok then some t else none

/-- GROUP_CLOSE. BUSY and BUSY_TEST leave the group open (R375). -/
def closeRequest (s : State) (r : Fin 18) (req : List Byte) (x : Nat) : State :=
  if (s.req r).lost then (s.modReq r fun q => { q with lost := false }).answer r req (.abort .groupLost)
  else match (s.req r).group with
    | none => s.answer r req (.abort .noGroup)
    | some ws =>
      if ws.any fun w => (ws.head?.map fun h => domainOf h.1) != some (domainOf w.1) then (s.groupDrop r).answer r req (.abort .groupSpan)
      else
        let s' := ws.foldl placed (overlay s)
        match groupVerdict s s' r ws with
        | .ok =>
          match s.tokenRefuses r ws x with
          | some (v, t) => (t.groupDrop r).answer r req v
          | none =>
            let s0 := s.modReq r fun q => { q with group := none }
            let s1 := forAll ws (fun w s => (s.countOwnerWrite r).markDirty r w.1 w.2) s0
            (s1.groupCommit r ws x).answerOk r req 0 []
        | .busy => s.answerNoCore r req
        | .busyTest => s.answer r req .busyTest
        | v => (s.groupDrop r).answer r req v

/-! ## Fences (R388) -/

/-- The fence orders: writes after it are of the next number. -/
def fenceMark (s : State) (r : Fin 18) : State := s.modReq r fun q => { q with epoch := q.epoch + 1 }

/-- FENCE_APPLY and FENCE_PERSIST: answered now, or once what was before them is done. FENCE_PERSIST saves whatever differs from the flash
copy (R373), though only the requester's own writes hold its answer. -/
def fenceRequest (s : State) (r : Fin 18) (req : List Byte) (kind e : Nat) : State :=
  let waits := s.fencePending r e || (kind = 3 && (s.req r).dirty)
  let s1 := when_ (kind = 3 && (waits || s.od.unsaved)) startSave s
  if waits then s1.modReq r fun q => { q with fences := q.fences ++ [{ kind := kind, req := req, epoch := e }] } else s1.answerOk r req 0 []

/-- The fences of one requester that are done: FENCE_APPLY when its writes have taken effect, FENCE_PERSIST when its save has
ended. -/
def fencesDone (s : State) (r : Fin 18) (kind : Nat) : State :=
  let done (f : Fence) : Bool := f.kind == kind && !s.fencePending r f.epoch && (kind == 2 || f.saved.isSome)
  forAll ((s.req r).fences.filter done)
    (fun f s => if f.saved == some false then s.answer r f.req (.abort .flash) else s.answerOk r f.req 0 [])
    (s.modReq r fun q => { q with fences := q.fences.filter fun f => !done f })

/-! ## DESCRIBE -/

def describeRequest (s : State) (r : Fin 18) (req : List Byte) (k : Key) : State :=
  match entryOf k, highestSub k.blk k.off with
  | none, none => s.answer r req (.abort .noEntry)
  | e, _ =>
    if e.isNone && k.sub != 0 then s.answer r req (.abort .noSubindex)
    else if vendorIndex k && !(s.roleOf r).covers .vendor then s.answer r req (.abort .role)
    else s.answerOk r req 0 (describeBody k)

/-! ## The core (R378, R379, R382) -/

/-- A request that waited is served; `x`: what was measured with the write that it completes. -/
def serveHeld (s0 : State) (q : CoreReq) (x : Nat) : State :=
  let s := when_ q.core (fun s => s.pcEvent 0x09 1) s0
  match reqCmd q.bytes with
  | 0x01 => s.serveRead q.req q.bytes
  | 0x02 => s.writeRequest q.req q.bytes q.epoch x
  | 0x03 => s.initRequest q.req q.bytes
  | 0x04 => s.segRequest q.req q.bytes q.epoch x
  | 0x05 => s.readSegRequest q.req q.bytes
  | 0x06 => s.abortRequest q.req q.bytes
  | 0x07 => s.fenceRequest q.req q.bytes 3 q.epoch
  | 0x08 => s.openRequest q.req q.bytes
  | 0x09 => s.closeRequest q.req q.bytes x
  | 0x0A => s.cancelRequest q.req q.bytes
  | 0xF0 => (s.tokenCheck 17 true (q.bytes.drop 1) (!x.testBit 0)).2
  | _ => s.describeRequest q.req q.bytes (reqKey q.bytes)

/-- The request in place `i` of the queue leaves it and is served. -/
def serveAt (s : State) (q : CoreReq) (i x : Nat) : State := (s.modOd fun o => { o with coreQ := o.coreQ.eraseIdx i }).serveHeld q x

/-- A WRITE that the core, having taken it up, finds good is served at its commit point; anything else is answered as it is taken up. -/
def needsCommit (s : State) (q : CoreReq) : Bool :=
  reqCmd q.bytes == 0x02 && !(s.req q.req).lost && (s.req q.req).group.isNone && checkWrite s q.req (reqKey q.bytes) (reqData q.bytes) == .ok

/-- The request that the core takes up next: the oldest of a requester, the requesters in turn (R378). DESIGN CHOICE (log entry 112): in the order
of their numbers; one whose oldest request must wait for other writes is passed over. -/
def coreNext (s : State) : Option (CoreReq × Nat) :=
  ((List.range 18).map fun i => (⟨(s.od.coreTurn.val + 1 + i) % 18, by omega⟩ : Fin 18)).findSome? fun r =>
    match s.coreHead r with
    | some (q, j) => if s.mustWait (s.od.coreQ.take j) q then none else some (q, j)
    | none => none

/-- A token of the TAP is checked with the management unit awake (R462). -/
def tokenReady (s : State) (q : CoreReq) : Bool :=
  reqCmd q.bytes != 0xF0 || (s.powered && s.rd (K.PWR_STATE 21) ≤ 1 && !(match (s.unit 21).trans with | .waking _ => true | _ => false))

/-- One request that may be served now: of the fast path the first that waits no longer; of the core, where it is free and at work, the next,
a good WRITE being taken up until its commit point. -/
def pumpOne (s : State) : State :=
  match s.od.coreQ.zipIdx.find? fun p => !p.1.core && s.tokenReady p.1 && !s.mustWait (s.od.coreQ.take p.2) p.1 with
  | some (q, i) => s.serveAt q i q.x
  | none =>
    match (if s.coreAwake && s.od.coreAt.isNone then s.coreNext else none) with
    | none => s
    | some (q, j) =>
      let s1 := s.modOd fun o => { o with coreTurn := q.req }
      if s.needsCommit q then s1.modOd fun o => { o with coreAt := some q.req } else s1.serveAt q j q.x

/-- Serve the queued requests that may be served, at most `n`. -/
def pump : Nat → State → State
  | 0, s => s
  | n + 1, s => pump n s.pumpOne

/-- All that may be served now. In scan nothing is (R34, R459). -/
def pumpAll (s : State) : State := if s.scanOn then s else pump (s.od.coreQ.length + 1) s

/-- A request that needs the core, after steps 4 to 10: it wakes the core and waits for it. -/
def coreArrive (s : State) (r : Fin 18) (req : List Byte) (v : Verdict) (x : Nat := 0) : State :=
  match v with
  | .ok => (s.coreWake.hold r req true x).pumpAll
  | .busy => s.coreWake.answerNoCore r req
  | v => s.answer r req v

/-- A request that the fast path serves: at once, unless it must wait for writes, or one of its requester before it does (R378, R386). -/
def fastArrive (s : State) (r : Fin 18) (req : List Byte) (x : Nat := 0) : State :=
  let q : CoreReq := ⟨r, req, (s.req r).epoch, false, x⟩
  if (s.od.coreQ.any fun p => p.req == r && !p.core) || s.mustWait s.od.coreQ q then s.hold r req false x else s.serveHeld q x

/-- The core reaches the commit point of the write that it is serving (R382). -/
def coreCommit (s : State) (x : Nat) : State :=
  match (if s.coreAwake then s.od.coreAt.bind fun r => s.coreHead r else none) with
  | none => s
  | some (q, j) => ((s.modOd fun o => { o with coreAt := none }).serveAt q j x).pumpAll

/-! ## Saves (R373) -/

/-- What a save holds: the saved-to-flash entries as they stand, apart from those with a place of their own in the flash. -/
def saveImage (s : State) : Store :=
  s.store.filter fun e => (match entryOf e.1 with
    | some en => en.pers == .flash
    | none => false) && (match e.1.blk with
      | .slot _ => false
      | _ => e.1 != K.ID_CERT)

/-- The copy that the next save writes: the one that does not hold the newest configuration. -/
def nextCopy (s : State) : Fin 2 :=
  let a := s.od.copies.get 0
  let b := s.od.copies.get 1
  if a.valid && (!b.valid || b.seq ≤ a.seq) then 1 else 0

/-- A save ends with its read-back. -/
def saveEnd (s : State) (ok : Bool) : State :=
  if !s.od.saving then s
  else
    let sat (r : Fin 18) (f : Fence) : Bool := f.kind == 3 && !s.fencePending r f.epoch
    let told (s : State) : State := forAll (allFin 18) (fun r s => s.modReq r fun q =>
      { q with fences := q.fences.map fun f => if sat r f && f.saved.isNone then { f with saved := some ok } else f }) s
    let more : Bool := (allFin 18).any fun r => (s.req r).fences.any fun f => f.kind == 3 && f.saved.isNone && !sat r f
    let s1 := s.modOd fun o => { o with saving := false }
    let s2 := if ok then
        let s3 := s1.incSat K.OD_FLASH_SAVES
        let c : FlashCopy := { valid := true, seq := (s.bestCopy.elim 0 fun b => b.seq + 1) % 2 ^ 32, vals := s3.saveImage }
        forAll (allFin 18) (fun r s => s.modReq r fun q => { q with dirty := false })
          (s3.modOd fun o => { o with copies := o.copies.set s.nextCopy c, unsaved := false, saveTimer := false, erased := false })
      else ((s1.raise Src.CFG_SAVE_FAIL).raise Src.FLASH_FAULT).modOd fun o => { o with unsaved := true, saveTimer := true }
    when_ more startSave ((told s2).pwrSaveEnd ok)

/-! ## Arrival by command: steps 4 to 10 of Table 13-9, and who serves it (R379) -/

def readArrive (s : State) (r : Fin 18) (req : List Byte) : State :=
  s.accept r req fun s => if readNeedsCore (reqKey req) then s.coreArrive r req (s.readAccess r (reqKey req)) else s.fastArrive r req

/-- A write of a fast entry goes through the core's queue behind what the requester has queued there, which may open a group. -/
def writeArrive (s : State) (r : Fin 18) (req : List Byte) : State :=
  s.accept r req fun s =>
    let v := checkEntry s r (reqKey req) (reqData req)
    if v == .ok && fastWrite (reqKey req) && !s.coreQueued r then s.fastArrive r req else s.coreArrive r req v

def initArrive (s : State) (r : Fin 18) (req : List Byte) : State :=
  s.accept r req fun s =>
    let v := checkEntry s r (reqKey req) []
    if v == .ok && fastWrite (reqKey req) && !s.coreQueued r then s.fastArrive r req else s.coreArrive r req v

def segArrive (s : State) (r : Fin 18) (req : List Byte) (x : Nat) : State :=
  s.accept r req fun s =>
    let fast : Bool := match (s.req r).transfer with
      | .writing k _ _ _ _ => fastWrite k
      | _ => false
    if s.coreQueued r then s.coreArrive r req s.coreCheck x
    else
      let v := s.segCheck r (req.drop 4)
      if v == .ok && fast then s.fastArrive r req x else s.coreArrive r req v x

def fenceLocalArrive (s : State) (r : Fin 18) (req : List Byte) : State :=
  s.accept r req fun s => if s.groupAhead r then s.answer r req (.abort .inUse) else (s.fenceMark r).answerOk r req 0 []

def fenceApplyArrive (s : State) (r : Fin 18) (req : List Byte) : State :=
  s.accept r req fun s =>
    if s.groupAhead r then s.answer r req (.abort .inUse)
    else
      let s1 := s.fenceMark r
      if s1.fencePending r (s1.req r).epoch then (s1.enqueue r req false).fenceRequest r req 2 (s1.req r).epoch
      else s1.fenceRequest r req 2 (s1.req r).epoch

def fencePersistArrive (s : State) (r : Fin 18) (req : List Byte) : State :=
  s.accept r req fun s =>
    if s.coreCheck == .ok && s.groupAhead r then s.answer r req (.abort .inUse)
    else if s.coreCheck == .ok then (s.fenceMark r).coreArrive r req .ok
    else s.coreArrive r req s.coreCheck

/-- ABORT and the group commands. -/
def coreOnlyArrive (s : State) (r : Fin 18) (req : List Byte) (x : Nat := 0) : State :=
  s.accept r req fun s => s.coreArrive r req s.coreCheck x

/-- A request of any kind arrives as bytes (Table 13-6): fewer than 2, a wrong length or a reserved command, a FENCE of another
KIND, or one of the commands. `x`: what was measured with the write it completes. -/
def odArrive (s : State) (r : Fin 18) (req : List Byte) (x : Nat) : State :=
  if req.length < 2 then (if s.served r then s.incSat K.OD_MALFORMED else s)
  else match reqCmd req with
    | 0x01 => s.readArrive r req
    | 0x02 => s.writeArrive r req
    | 0x03 => s.initArrive r req
    | 0x04 => s.segArrive r req x
    | 0x05 => s.accept r req fun s => s.fastArrive r req
    | 0x07 =>
      match byteAt req 2 with
      | 1 => s.fenceLocalArrive r req
      | 2 => s.fenceApplyArrive r req
      | 3 => s.fencePersistArrive r req
      | _ => s.accept r req fun s => s.answer r req (.abort .outOfRange)
    | 0x0B => s.accept r req fun s => s.fastArrive r req
    | _ => s.coreOnlyArrive r req x

/-! ## Whole frames of the ring (R353, Table 12-7) -/

/-- A whole frame arrives. What fails a test is counted; a good one has the effect of its TYPE, the same as the row of that TYPE. The
stamp of a BEACON and what is measured with a write are free here (log entry 11). -/
def ringDeliver (s : State) (p : Fin 2) (bytes : List Byte) (void : Bool) : State :=
  let b (i : Nat) : Byte := BitVec.ofNat 8 (byteAt bytes i)
  let d := (bytes.drop 6).take (bytes.length - 10)
  let h : RingHead := ⟨b 0, b 1, b 2⟩
  if void || (s.port p).cut || (ringBad bytes).isSome then s.ringArrival p bytes void
  else match byteAt bytes 3 with
    | 0x01 => s.enumAt p h (byteAt d 0) (byteAt d 1) (beNat (slice d 2 4))
    | 0x03 => s.ringFrame p h true .through fun s => s.claimJudge h (beNat (slice d 0 4)) (byteAt d 4) (byteAt d 5)
    | 0x05 => s.ringFrame p h true .through fun s => s.rateSetAt h (byteAt d 0) (byteAt d 1)
    | 0x07 => s.ringFrame p h true .through fun s => s.resetAt h (beNat (slice d 0 8)) (byteAt d 8) (byteAt d 9)
    | 0x21 => s.ringFrame p h true .through fun s => s.eventAck (beNat (slice d 0 4))
    | 0x30 =>
      let j := s.fresh
      let m := j.2.fresh
      m.2.beaconAt p h (beNat (slice d 0 8)) (beNat (slice d 8 12)) (beNat (slice d 20 8).reverse) (j.1 % 16) (m.1 % 2 ^ 32)
    | 0x10 =>
      let host : Fin 18 := ⟨(byteAt bytes 1) % 16, by omega⟩
      let s1 := s.ringArrival p bytes void
      match s.ringFate (byteAt bytes 0) (byteAt bytes 1) with
      | .absorb | .both => if s.portUp p then s1.fresh.2.odArrive host d s1.fresh.1 else s1
      | _ => s1
    | _ => s.ringArrival p bytes void

end State

/-! ## Meanings: requests -/

/-- READ. -/
def execRead (r : Fin 18) (tag : BitVec 8) (idx : BitVec 16) (sub : BitVec 8) (s : State) : Host.Outcome State Fault Refusal :=
  .next (s.readArrive r (reqAt 1 tag idx sub []))

/-- WRITE; more than 248 bytes do not fit the command. -/
def execWrite (r : Fin 18) (tag : BitVec 8) (idx : BitVec 16) (sub : BitVec 8) (data : List Byte) (s : State) :
    Host.Outcome State Fault Refusal :=
  .next (s.writeArrive r (reqAt 2 tag idx sub data))

/-- WRITE_INIT. -/
def execWriteInit (r : Fin 18) (tag : BitVec 8) (idx : BitVec 16) (sub : BitVec 8) (size : BitVec 32) (s : State) :
    Host.Outcome State Fault Refusal :=
  .next (s.initArrive r (reqAt 3 tag idx sub (be 4 size.toNat)))

/-- WRITE_SEG of 1 to 252 bytes. `x`: what was measured with the write that the segment completes. -/
def execWriteSeg (r : Fin 18) (tag flags rsv : BitVec 8) (data : List Byte) (x : BitVec 128) (s : State) :
    Host.Outcome State Fault Refusal :=
  .next (s.segArrive r (reqOf 4 tag ([flags, rsv] ++ data)) x.toNat)

/-- READ_SEG. -/
def execReadSeg (r : Fin 18) (tag flags : BitVec 8) (s : State) : Host.Outcome State Fault Refusal :=
  .next (s.accept r (reqOf 5 tag [flags]) fun s => s.fastArrive r (reqOf 5 tag [flags]))

/-- ABORT. -/
def execAbort (r : Fin 18) (tag : BitVec 8) (code : BitVec 32) (s : State) : Host.Outcome State Fault Refusal :=
  .next (s.coreOnlyArrive r (reqOf 6 tag (be 4 code.toNat)))

/-- FENCE_LOCAL. -/
def execFenceLocal (r : Fin 18) (tag : BitVec 8) (s : State) : Host.Outcome State Fault Refusal :=
  .next (s.fenceLocalArrive r (reqOf 7 tag (be 1 1)))

/-- FENCE_APPLY. -/
def execFenceApply (r : Fin 18) (tag : BitVec 8) (s : State) : Host.Outcome State Fault Refusal :=
  .next (s.fenceApplyArrive r (reqOf 7 tag (be 1 2)))

/-- FENCE_PERSIST. -/
def execFencePersist (r : Fin 18) (tag : BitVec 8) (s : State) : Host.Outcome State Fault Refusal :=
  .next (s.fencePersistArrive r (reqOf 7 tag (be 1 3)))

/-- Every earlier write of a FENCE_APPLY has taken effect. -/
def execFenceApplyDone (r : Fin 18) (s : State) : Host.Outcome State Fault Refusal := .next (s.fencesDone r 2)

/-- The save of a FENCE_PERSIST has ended. -/
def execFencePersistDone (r : Fin 18) (s : State) : Host.Outcome State Fault Refusal := .next (s.fencesDone r 3)

/-- GROUP_OPEN. -/
def execGroupOpen (r : Fin 18) (tag : BitVec 8) (s : State) : Host.Outcome State Fault Refusal :=
  .next (s.coreOnlyArrive r (reqOf 8 tag []))

/-- GROUP_CLOSE. `x`: what was measured with the group's commit point. -/
def execGroupClose (r : Fin 18) (tag : BitVec 8) (x : BitVec 128) (s : State) : Host.Outcome State Fault Refusal :=
  .next (s.coreOnlyArrive r (reqOf 9 tag []) x.toNat)

/-- GROUP_CANCEL. -/
def execGroupCancel (r : Fin 18) (tag : BitVec 8) (s : State) : Host.Outcome State Fault Refusal :=
  .next (s.coreOnlyArrive r (reqOf 10 tag []))

/-- DESCRIBE (Table 13-8). -/
def execDescribe (r : Fin 18) (tag : BitVec 8) (idx : BitVec 16) (sub : BitVec 8) (s : State) : Host.Outcome State Fault Refusal :=
  .next (s.accept r (reqAt 11 tag idx sub []) fun s => s.fastArrive r (reqAt 11 tag idx sub []))

/-- What arrives is no request that a command of Table 13-6 takes: `bad` a TWI write with a wrong CRC or LEN; fewer than 2
bytes; a wrong length or reserved command; a FENCE of another KIND. A well-formed request has its own row. -/
def execMalformedRequest (r : Fin 18) (bytes : List Byte) (bad : Bool) (s : State) : Host.Outcome State Fault Refusal :=
  .next (if !s.served r then s
    else if bad then (if r.val = 16 then s.incSat K.OD_TWI_ERR else s)
    else if bytes.length < 2 then s.incSat K.OD_MALFORMED
    else if !reqFits bytes then s.accept r bytes id
    else if reqCmd bytes = 7 && (bytes[2]? != some 1 && bytes[2]? != some 2 && bytes[2]? != some 3) then
      s.accept r bytes fun s => s.answer r bytes (.abort .outOfRange)
    else s)

/-- DBG_TOKEN: a token on the TAP (R455), checked at Update-DR once its turn has come. -/
def execDbgToken (token : List Byte) (eraseOk : Bool) (s : State) : Host.Outcome State Fault Refusal :=
  .next (s.tapRun 0x10 [] fun s => if s.powered then (s.tapToken token eraseOk).pumpAll else s)

/-! ## Meanings: commit points, time limits, saves -/

/-- The write that the core is serving. `x`: what was measured with it. -/
def execCoreWriteCommit (x : BitVec 128) (s : State) : Host.Outcome State Fault Refusal := .next (s.coreCommit x.toNat)

/-- `OD_GROUP_TIMEOUT` without a request (R392). -/
def execGroupTimeout (r : Fin 18) (s : State) : Host.Outcome State Fault Refusal := .next (s.groupLost r 1)

/-- `OD_SEG_TIMEOUT` without a segment (R384). -/
def execSegTimeout (r : Fin 18) (s : State) : Host.Outcome State Fault Refusal :=
  .next (match (s.req r).transfer with
    | .idle | .timedOut => s
    | _ => (s.endTransfer r).setTransfer r .timedOut)

/-- A TWI read (R393, R394); `full`: through the last CRC byte. -/
def execTwiReadTransaction (full : Bool) (s : State) : Host.Outcome State Fault Refusal :=
  let resp := (s.od.twiReady.head?).getD []
  let body := be 1 (128 * s.od.twiOverflow.toNat + s.od.twiSlots) ++ be 2 resp.length ++ resp
  let s1 := (s.modOd fun o => { o with twiOverflow := false }).modReq 16 fun q => { q with lastAnswer := body ++ be 2 (crc16 body) }
  .next (if !s.served 16 then s
    else if full && !s.od.twiReady.isEmpty then s1.modOd fun o => { o with twiReady := o.twiReady.drop 1, twiSlots := o.twiSlots - 1 }
    else s1)

/-- `OD_SAVE_DELAY` has passed; 0 saves nothing by itself. -/
def execSaveDelayTimer (s : State) : Host.Outcome State Fault Refusal :=
  .next (if s.od.saveTimer && s.rd K.OD_SAVE_DELAY != 0 && !s.od.saving then s.startSave else s)

def execConfigSaveComplete (ok : Bool) (s : State) : Host.Outcome State Fault Refusal := .next (s.saveEnd ok)

/-! ## Meanings: whole frames of the ring -/

/-- RING_FRAME_ARRIVAL; `void`: a code violation or ABORT cut the frame. -/
def execRingFrameArrival (p : Fin 2) (bytes : List Byte) (void : Bool) (s : State) : Host.Outcome State Fault Refusal :=
  .next (s.ringDeliver p bytes void)

end Sys2Proof.Machine
end

