-- ==== Sys2Proof/Machine/Dispatch.lean ====
section
/-!
DEFINITION. `exec`: one arm per command of the operation table, each a direct call of its meaning.
-/

namespace Sys2Proof.Machine

def exec (i : Instr) (s : State) : Host.Outcome State Fault Refusal :=
  match i with
  | .registerWrite r idx sub data x => Sys2Proof.Machine.execRegisterWrite r idx sub data x s
  | .clearOnReadRead r idx sub => Sys2Proof.Machine.execClearOnReadRead r idx sub s
  | .read r tag idx sub => Sys2Proof.Machine.execRead r tag idx sub s
  | .write r tag idx sub data => Sys2Proof.Machine.execWrite r tag idx sub data s
  | .writeInit r tag idx sub size => Sys2Proof.Machine.execWriteInit r tag idx sub size s
  | .writeSeg r tag flags rsv data x => Sys2Proof.Machine.execWriteSeg r tag flags rsv data x s
  | .readSeg r tag flags => Sys2Proof.Machine.execReadSeg r tag flags s
  | .abort r tag code => Sys2Proof.Machine.execAbort r tag code s
  | .fenceLocal r tag => Sys2Proof.Machine.execFenceLocal r tag s
  | .fenceApply r tag => Sys2Proof.Machine.execFenceApply r tag s
  | .fencePersist r tag => Sys2Proof.Machine.execFencePersist r tag s
  | .fenceApplyDone r => Sys2Proof.Machine.execFenceApplyDone r s
  | .fencePersistDone r => Sys2Proof.Machine.execFencePersistDone r s
  | .groupOpen r tag => Sys2Proof.Machine.execGroupOpen r tag s
  | .groupClose r tag x => Sys2Proof.Machine.execGroupClose r tag x s
  | .groupCancel r tag => Sys2Proof.Machine.execGroupCancel r tag s
  | .describe r tag idx sub => Sys2Proof.Machine.execDescribe r tag idx sub s
  | .groupApply b => Sys2Proof.Machine.execGroupApply b s
  | .groupTimeout r => Sys2Proof.Machine.execGroupTimeout r s
  | .segTimeout r => Sys2Proof.Machine.execSegTimeout r s
  | .coreWriteCommit x => Sys2Proof.Machine.execCoreWriteCommit x s
  | .twiReadTransaction full => Sys2Proof.Machine.execTwiReadTransaction full s
  | .saveDelayTimer => Sys2Proof.Machine.execSaveDelayTimer s
  | .configSaveComplete ok => Sys2Proof.Machine.execConfigSaveComplete ok s
  | .odCfgErase r v ok => Sys2Proof.Machine.execOdCfgErase r v ok s
  | .odStatsClear r v => Sys2Proof.Machine.execOdStatsClear r v s
  | .clkRefSrcWrite r v valid => Sys2Proof.Machine.execClkRefSrcWrite r v valid s
  | .rootLost => Sys2Proof.Machine.execRootLost s
  | .rootRestored => Sys2Proof.Machine.execRootRestored s
  | .synthLock dist => Sys2Proof.Machine.execSynthLock dist s
  | .synthLockLoss hsyn => Sys2Proof.Machine.execSynthLockLoss hsyn s
  | .rclkoCfgWrite r q v => Sys2Proof.Machine.execRclkoCfgWrite r q v s
  | .rclkoRelease q => Sys2Proof.Machine.execRclkoRelease q s
  | .availClear r v => Sys2Proof.Machine.execAvailClear r v s
  | .ctleRampStep n w => Sys2Proof.Machine.execCtleRampStep n w s
  | .ctleSearchStep n => Sys2Proof.Machine.execCtleSearchStep n s
  | .agcGainStep n => Sys2Proof.Machine.execAgcGainStep n s
  | .lineLosSet n => Sys2Proof.Machine.execLineLosSet n s
  | .lineLosClear n => Sys2Proof.Machine.execLineLosClear n s
  | .adaptUpdate n cc => Sys2Proof.Machine.execAdaptUpdate n cc s
  | .adaptRestart r n v => Sys2Proof.Machine.execAdaptRestart r n v s
  | .acquisitionEnd n => Sys2Proof.Machine.execAcquisitionEnd n s
  | .guardTrip n => Sys2Proof.Machine.execGuardTrip n s
  | .codewordBoundaryApply n rx bits tone => Sys2Proof.Machine.execCodewordBoundaryApply n rx bits tone s
  | .lineFfeSnap r n v => Sys2Proof.Machine.execLineFfeSnap r n v s
  | .lineLqmClear r n v => Sys2Proof.Machine.execLineLqmClear r n v s
  | .lineSwatchArm r n v => Sys2Proof.Machine.execLineSwatchArm r n v s
  | .swatchTrigger n src => Sys2Proof.Machine.execSwatchTrigger n src s
  | .swatchComplete n => Sys2Proof.Machine.execSwatchComplete n s
  | .outputStageStep n => Sys2Proof.Machine.execOutputStageStep n s
  | .complianceSet n => Sys2Proof.Machine.execComplianceSet n s
  | .complianceClear n => Sys2Proof.Machine.execComplianceClear n s
  | .txEpochBoundary k freqs => Sys2Proof.Machine.execTxEpochBoundary k freqs s
  | .codewordDecoded n => Sys2Proof.Machine.execCodewordDecoded n s
  | .blockDecoded n => Sys2Proof.Machine.execBlockDecoded n s
  | .markerPosition n b differ p moved => Sys2Proof.Machine.execMarkerPosition n b differ p moved s
  | .epochTagBlock n j => Sys2Proof.Machine.execEpochTagBlock n j s
  | .fillStart m => Sys2Proof.Machine.execFillStart m s
  | .fillEnd m p moved => Sys2Proof.Machine.execFillEnd m p moved s
  | .lineFecClear r n v => Sys2Proof.Machine.execLineFecClear r n v s
  | .hostSignalClear m => Sys2Proof.Machine.execHostSignalClear m s
  | .hostSignalSet m => Sys2Proof.Machine.execHostSignalSet m s
  | .hostMarkerPosition m differ pos p moved => Sys2Proof.Machine.execHostMarkerPosition m differ pos p moved s
  | .hckiTrainingDone m phase => Sys2Proof.Machine.execHckiTrainingDone m phase s
  | .hostCdrLock m phase => Sys2Proof.Machine.execHostCdrLock m phase s
  | .hostRxAcquisitionEnd m ctle => Sys2Proof.Machine.execHostRxAcquisitionEnd m ctle s
  | .hckiLost k => Sys2Proof.Machine.execHckiLost k s
  | .hostPeriodBoundary g fills => Sys2Proof.Machine.execHostPeriodBoundary g fills s
  | .gearboxLock k blocks => Sys2Proof.Machine.execGearboxLock k blocks s
  | .pgFecModeWrite r k v => Sys2Proof.Machine.execPgFecModeWrite r k v s
  | .pgFecClear r k v => Sys2Proof.Machine.execPgFecClear r k v s
  | .prbsGenCfgWrite r a v => Sys2Proof.Machine.execPrbsGenCfgWrite r a v s
  | .prbsChkCfgWrite r a v => Sys2Proof.Machine.execPrbsChkCfgWrite r a v s
  | .prbsInjectOnce r a v => Sys2Proof.Machine.execPrbsInjectOnce r a v s
  | .prbsChkClear r a v => Sys2Proof.Machine.execPrbsChkClear r a v s
  | .prbsWindowEnd a bits => Sys2Proof.Machine.execPrbsWindowEnd a bits s
  | .lineAdminWrite r n v => Sys2Proof.Machine.execLineAdminWrite r n v s
  | .coRestart r n => Sys2Proof.Machine.execCoRestart r n s
  | .coBindOff r n => Sys2Proof.Machine.execCoBindOff r n s
  | .cap n h b => Sys2Proof.Machine.execCap n h b s
  | .propose n h num format precode time => Sys2Proof.Machine.execPropose n h num format precode time s
  | .accept n h num format precode time => Sys2Proof.Machine.execAccept n h num format precode time s
  | .reject n h num reason detail => Sys2Proof.Machine.execReject n h num reason detail s
  | .txeqReq n h id main taps => Sys2Proof.Machine.execTxeqReq n h id main taps s
  | .txeqAck n h id result taps => Sys2Proof.Machine.execTxeqAck n h id result taps s
  | .status n h agr lock fill verify => Sys2Proof.Machine.execStatus n h agr lock fill verify s
  | .ready n h agr done => Sys2Proof.Machine.execReady n h agr done s
  | .bind n h => Sys2Proof.Machine.execBind n h s
  | .time n h m back => Sys2Proof.Machine.execTime n h m back s
  | .keepalive n h agr => Sys2Proof.Machine.execKeepalive n h agr s
  | .responseTimer n => Sys2Proof.Machine.execResponseTimer n s
  | .partnerSilence n => Sys2Proof.Machine.execPartnerSilence n s
  | .beaconTimer n => Sys2Proof.Machine.execBeaconTimer n s
  | .keepaliveTimer n => Sys2Proof.Machine.execKeepaliveTimer n s
  | .phaseTimeout n => Sys2Proof.Machine.execPhaseTimeout n s
  | .castOnLimit n => Sys2Proof.Machine.execCastOnLimit n s
  | .statusTimer n => Sys2Proof.Machine.execStatusTimer n s
  | .bindTimeout n => Sys2Proof.Machine.execBindTimeout n s
  | .restartBackoffEnd n => Sys2Proof.Machine.execRestartBackoffEnd n s
  | .proposeTimer n => Sys2Proof.Machine.execProposeTimer n s
  | .verifyWindowEnd n => Sys2Proof.Machine.execVerifyWindowEnd n s
  | .lineCoTxeqGo r n v => Sys2Proof.Machine.execLineCoTxeqGo r n v s
  | .txeqSearchMeasure n => Sys2Proof.Machine.execTxeqSearchMeasure n s
  | .lineCoClear r n v => Sys2Proof.Machine.execLineCoClear r n v s
  | .picotBurstStart n => Sys2Proof.Machine.execPicotBurstStart n s
  | .picotBurstEnd n => Sys2Proof.Machine.execPicotBurstEnd n s
  | .picotCandidateEnd n ds => Sys2Proof.Machine.execPicotCandidateEnd n ds s
  | .picotModeMismatch n => Sys2Proof.Machine.execPicotModeMismatch n s
  | .picotSyncFound n sym => Sys2Proof.Machine.execPicotSyncFound n sym s
  | .picotSyncTimeout n sym => Sys2Proof.Machine.execPicotSyncTimeout n sym s
  | .picotHeaderEnd n sym snr foff => Sys2Proof.Machine.execPicotHeaderEnd n sym snr foff s
  | .picotPilotPair n a b got => Sys2Proof.Machine.execPicotPilotPair n a b got s
  | .picotPayloadEnd n payload crc snr foff back => Sys2Proof.Machine.execPicotPayloadEnd n payload crc snr foff back s
  | .picotClear r n v => Sys2Proof.Machine.execPicotClear r n v s
  | .ssStepEnd n v => Sys2Proof.Machine.execSsStepEnd n v s
  | .ssIntervalEnd n => Sys2Proof.Machine.execSsIntervalEnd n s
  | .ssSubstitution n => Sys2Proof.Machine.execSsSubstitution n s
  | .lineSsRetest r n v => Sys2Proof.Machine.execLineSsRetest r n v s
  | .lineSsClear r n v => Sys2Proof.Machine.execLineSsClear r n v s
  | .laneCalComplete n corr => Sys2Proof.Machine.execLaneCalComplete n corr s
  | .laneCalRetry n => Sys2Proof.Machine.execLaneCalRetry n s
  | .dacCalComplete n outOfRange => Sys2Proof.Machine.execDacCalComplete n outOfRange s
  | .lineCalLane r n => Sys2Proof.Machine.execLineCalLane r n s
  | .lineCalDac r n => Sys2Proof.Machine.execLineCalDac r n s
  | .lineCalBoth r n => Sys2Proof.Machine.execLineCalBoth r n s
  | .monCalCmd r v => Sys2Proof.Machine.execMonCalCmd r v s
  | .monCalStart => Sys2Proof.Machine.execMonCalStart s
  | .monCalEnd outOfRange => Sys2Proof.Machine.execMonCalEnd outOfRange s
  | .timeSet r v => Sys2Proof.Machine.execTimeSet r v s
  | .timeStep r v => Sys2Proof.Machine.execTimeStep r v s
  | .timeRateAdj r v => Sys2Proof.Machine.execTimeRateAdj r v s
  | .timeAdjApply => Sys2Proof.Machine.execTimeAdjApply s
  | .syncInEdge j tick => Sys2Proof.Machine.execSyncInEdge j tick s
  | .syncInSilence => Sys2Proof.Machine.execSyncInSilence s
  | .syncOutPulse => Sys2Proof.Machine.execSyncOutPulse s
  | .syncOutPulseEnd => Sys2Proof.Machine.execSyncOutPulseEnd s
  | .timeMessageDue n => Sys2Proof.Machine.execTimeMessageDue n s
  | .timeWithdrawn n => Sys2Proof.Machine.execTimeWithdrawn n s
  | .timeMeasurementMiss w => Sys2Proof.Machine.execTimeMeasurementMiss w s
  | .timeDiscSrcWrite r isLane v => Sys2Proof.Machine.execTimeDiscSrcWrite r isLane v s
  | .timeClear r n v => Sys2Proof.Machine.execTimeClear r n v s
  | .beaconSourceTimer => Sys2Proof.Machine.execBeaconSourceTimer s
  | .beacon p h src dep corr j meas => Sys2Proof.Machine.execBeacon p h src dep corr j meas s
  | .controlFrameBoundary => Sys2Proof.Machine.execControlFrameBoundary s
  | .loopSnapshot levels => Sys2Proof.Machine.execLoopSnapshot levels s
  | .outputWrite compl short => Sys2Proof.Machine.execOutputWrite compl short s
  | .monConversionEnd code => Sys2Proof.Machine.execMonConversionEnd code s
  | .monDataRead r all_ => Sys2Proof.Machine.execMonDataRead r all_ s
  | .monUrgentReq r v fits => Sys2Proof.Machine.execMonUrgentReq r v fits s
  | .monUrgentEnd code => Sys2Proof.Machine.execMonUrgentEnd code s
  | .monCntClear r v => Sys2Proof.Machine.execMonCntClear r v s
  | .filtPreset r e v => Sys2Proof.Machine.execFiltPreset r e v s
  | .filtSwap r e v => Sys2Proof.Machine.execFiltSwap r e v s
  | .loopModeWrite r j v => Sys2Proof.Machine.execLoopModeWrite r j v s
  | .loopIntegratorWrite r j v => Sys2Proof.Machine.execLoopIntegratorWrite r j v s
  | .rcClear r j v => Sys2Proof.Machine.execRcClear r j v s
  | .ceMemError j w => Sys2Proof.Machine.execCeMemError j w s
  | .auxModeWrite r a v => Sys2Proof.Machine.execAuxModeWrite r a v s
  | .cePadRelease r v => Sys2Proof.Machine.execCePadRelease r v s
  | .tempConversion q v answers => Sys2Proof.Machine.execTempConversion q v answers s
  | .portAdminWrite r p v => Sys2Proof.Machine.execPortAdminWrite r p v s
  | .ringLinkDetect p => Sys2Proof.Machine.execRingLinkDetect p s
  | .link p d => Sys2Proof.Machine.execLink p d s
  | .ringTrainTimeout p => Sys2Proof.Machine.execRingTrainTimeout p s
  | .ringVerifyPass p => Sys2Proof.Machine.execRingVerifyPass p s
  | .ringCodeViolation p inFrame => Sys2Proof.Machine.execRingCodeViolation p inFrame s
  | .ringRxcLoss p => Sys2Proof.Machine.execRingRxcLoss p s
  | .token p => Sys2Proof.Machine.execToken p s
  | .sof p => Sys2Proof.Machine.execSof p s
  | .ringTokenLoss p => Sys2Proof.Machine.execRingTokenLoss p s
  | .rateGo p x => Sys2Proof.Machine.execRateGo p x s
  | .topo p wrapped => Sys2Proof.Machine.execTopo p wrapped s
  | .enum p h hops rsv epoch => Sys2Proof.Machine.execEnum p h hops rsv epoch s
  | .claim p h epoch flags rsv => Sys2Proof.Machine.execClaim p h epoch flags rsv s
  | .rateSet p h target rsv => Sys2Proof.Machine.execRateSet p h target rsv s
  | .reset p h target kind rsv => Sys2Proof.Machine.execReset p h target kind rsv s
  | .ringDeviceReset => Sys2Proof.Machine.execRingDeviceReset s
  | .eventAck p h seq => Sys2Proof.Machine.execEventAck p h seq s
  | .eventRetryTimer => Sys2Proof.Machine.execEventRetryTimer s
  | .ringCrcAlarm => Sys2Proof.Machine.execRingCrcAlarm s
  | .ringClear r v => Sys2Proof.Machine.execRingClear r v s
  | .plChangeDone => Sys2Proof.Machine.execPlChangeDone s
  | .plAutoRaise load => Sys2Proof.Machine.execPlAutoRaise load s
  | .plAutoLower load => Sys2Proof.Machine.execPlAutoLower load s
  | .sramEccError corrected addr => Sys2Proof.Machine.execSramEccError corrected addr s
  | .watchdogExpiry => Sys2Proof.Machine.execWatchdogExpiry s
  | .mgmtMrst r v => Sys2Proof.Machine.execMgmtMrst r v s
  | .mrst => Sys2Proof.Machine.execMrst s
  | .mgmtMasterRestart r v => Sys2Proof.Machine.execMgmtMasterRestart r v s
  | .lkTake m k => Sys2Proof.Machine.execLkTake m k s
  | .lkRelease m k v => Sys2Proof.Machine.execLkRelease m k v s
  | .lkForce r k v => Sys2Proof.Machine.execLkForce r k v s
  | .mbCfgWrite r c v => Sys2Proof.Machine.execMbCfgWrite r c v s
  | .mbDataWrite m c data => Sys2Proof.Machine.execMbDataWrite m c data s
  | .mbAck m c v => Sys2Proof.Machine.execMbAck m c v s
  | .pcEnableWrite r v => Sys2Proof.Machine.execPcEnableWrite r v s
  | .pcReprogram r k w v => Sys2Proof.Machine.execPcReprogram r k w v s
  | .pcLoRead m k => Sys2Proof.Machine.execPcLoRead m k s
  | .pcHiRead m k => Sys2Proof.Machine.execPcHiRead m k s
  | .pcStatusRead m k => Sys2Proof.Machine.execPcStatusRead m k s
  | .pcOverflow k addr => Sys2Proof.Machine.execPcOverflow k addr s
  | .evrRecordWrite => Sys2Proof.Machine.execEvrRecordWrite s
  | .evrAckWrite r v => Sys2Proof.Machine.execEvrAckWrite r v s
  | .irqCauseWrite r g v => Sys2Proof.Machine.execIrqCauseWrite r g v s
  | .irqSwSet r v => Sys2Proof.Machine.execIrqSwSet r v s
  | .bootComplete flash rootOk => Sys2Proof.Machine.execBootComplete flash rootOk s
  | .fwActivate r v => Sys2Proof.Machine.execFwActivate r v s
  | .fwConfirm r v => Sys2Proof.Machine.execFwConfirm r v s
  | .trialTimeServed => Sys2Proof.Machine.execTrialTimeServed s
  | .trialRecordTimer => Sys2Proof.Machine.execTrialRecordTimer s
  | .trialBootTimeout => Sys2Proof.Machine.execTrialBootTimeout s
  | .fwSvnCommit r v failed => Sys2Proof.Machine.execFwSvnCommit r v failed s
  | .secAttestNonce r data => Sys2Proof.Machine.execSecAttestNonce r data s
  | .attestDone => Sys2Proof.Machine.execAttestDone s
  | .secLcAdvance r v => Sys2Proof.Machine.execSecLcAdvance r v s
  | .secToken r token eraseOk => Sys2Proof.Machine.execSecToken r token eraseOk s
  | .dbgToken token eraseOk => Sys2Proof.Machine.execDbgToken token eraseOk s
  | .extest pins d => Sys2Proof.Machine.execExtest pins d s
  | .idcode => Sys2Proof.Machine.execIdcode s
  | .samplePreload pins d => Sys2Proof.Machine.execSamplePreload pins d s
  | .clamp d => Sys2Proof.Machine.execClamp d s
  | .highz d => Sys2Proof.Machine.execHighz d s
  | .dbgAccess d op => Sys2Proof.Machine.execDbgAccess d op s
  | .scanAccess d => Sys2Proof.Machine.execScanAccess d s
  | .bypass code d => Sys2Proof.Machine.execBypass code d s
  | .secDebugClose r v => Sys2Proof.Machine.execSecDebugClose r v s
  | .debugDurationExpiry => Sys2Proof.Machine.execDebugDurationExpiry s
  | .secVendorDrop r v => Sys2Proof.Machine.execSecVendorDrop r v s
  | .vendorDurationExpiry r => Sys2Proof.Machine.execVendorDurationExpiry r s
  | .vinPorRelease straps => Sys2Proof.Machine.execVinPorRelease straps s
  | .vinUnder => Sys2Proof.Machine.execVinUnder s
  | .vinOver => Sys2Proof.Machine.execVinOver s
  | .vinLoss deep => Sys2Proof.Machine.execVinLoss deep s
  | .railFault rail current => Sys2Proof.Machine.execRailFault rail current s
  | .railFaultPor => Sys2Proof.Machine.execRailFaultPor s
  | .regFaultRestart straps => Sys2Proof.Machine.execRegFaultRestart straps s
  | .resetNAssert => Sys2Proof.Machine.execResetNAssert s
  | .resetNRelease => Sys2Proof.Machine.execResetNRelease s
  | .wakeEdge straps => Sys2Proof.Machine.execWakeEdge straps s
  | .pwrReqWrite r u v => Sys2Proof.Machine.execPwrReqWrite r u v s
  | .pwrEntryStepEnd u => Sys2Proof.Machine.execPwrEntryStepEnd u s
  | .pwrWakeDone u => Sys2Proof.Machine.execPwrWakeDone u s
  | .pwrDeviceOff r v => Sys2Proof.Machine.execPwrDeviceOff r v s
  | .pwrCntClear r v => Sys2Proof.Machine.execPwrCntClear r v s
  | .rstLane r v => Sys2Proof.Machine.execRstLane r v s
  | .thermalTrip => Sys2Proof.Machine.execThermalTrip s
  | .thermalRestart => Sys2Proof.Machine.execThermalRestart s
  | .thermTripTest r v => Sys2Proof.Machine.execThermTripTest r v s
  | .tripTestDone fired => Sys2Proof.Machine.execTripTestDone fired s
  | .bistStart r v => Sys2Proof.Machine.execBistStart r v s
  | .bistStop r v => Sys2Proof.Machine.execBistStop r v s
  | .bistDone fails sig => Sys2Proof.Machine.execBistDone fails sig s
  | .repairApply lost => Sys2Proof.Machine.execRepairApply lost s
  | .repairFuseCmd r v failed => Sys2Proof.Machine.execRepairFuseCmd r v failed s
  | .bistCntClear r v => Sys2Proof.Machine.execBistCntClear r v s
  | .hckiReturn k => Sys2Proof.Machine.execHckiReturn k s
  | .hostFecCodeword k rx p skew syms => Sys2Proof.Machine.execHostFecCodeword k rx p skew syms s
  | .ringFrameArrival p bytes void => Sys2Proof.Machine.execRingFrameArrival p bytes void s
  | .malformedRequest r bytes bad => Sys2Proof.Machine.execMalformedRequest r bytes bad s
  | .tapReset => Sys2Proof.Machine.execTapReset s

end Sys2Proof.Machine
end

