-- ==== Sys2Proof/Machine/Tick.lean ====
section
/-!
DEFINITION. One cc passes with no command (log entry 7): the cycle count, the time unit's counter, the performance counters of cycles, what ends by elapsed time
alone, a write of the slot-state record, and queued requests whose turn has come.
-/

namespace Sys2Proof.Machine

/-- One cc. -/
def State.tick (s : State) : State :=
  let s1 : State := { s with now := s.now + 1, time := if s.running then s.time.tick else s.time }
  s1.pcTick.ringTick.laneResetTick.recEnd.pumpAll

end Sys2Proof.Machine
end

