-- ==== Sys2Proof/Safety.lean ====
section
/-!
DEFINITION. The terms in which the statements speak: what makes a write accepted, what a command leaves alone, the
register store's form.
-/

namespace Sys2Proof.Machine

namespace State

/-- The register store has its canonical form: every register is listed once, in order, and only away from its reset
value. -/
def storeOk (s : State) : Bool := s.store.wf

/-- A write of an entry is accepted: the requester is served, the write need not wait for the core or for an earlier one, and every check of
Table 13-9 passes. -/
def accepts (s : State) (r : Fin 18) (k : Key) (data : List Byte) : Bool :=
  s.served r && !s.mustWake k && checkWrite s r k data == .ok

/-- A write of an entry is refused with an abort code. -/
def refuses (s : State) (r : Fin 18) (k : Key) (data : List Byte) (a : Abort) : Bool :=
  s.served r && !s.mustWake k && checkWrite s r k data == .abort a

/-- The state on which an accepted write has its effect: the core is awake (R477), the request and the owner's write are counted (R360,
R419). -/
def admitted (s : State) (r : Fin 18) (k : Key) (data : List Byte) : State :=
  (((s.counted k .ok).countOwnerWrite r).markDirty r k data)

end State

/-- The registers that a request may change whatever it asks: those of the owner's count, of the performance counters that count it, and of
the management unit that it wakes. -/
def requestKeys (k : Key) : Bool :=
  [K.RING_OWNER_WRITES, K.PWR_TRANSITION 21, K.PWR_PENDING 21, K.PWR_CNT_REPLACED, K.DET_PWR_REQ_REPLACED, K.PC_OVF_CAUSE,
    K.IRQ_CAUSE 25, K.IRQ_FIRST 25, K.IRQ_CAUSE 27, K.IRQ_FIRST 27].contains k ||
  (match k.blk with
   | .pc _ => k.sub == 6 || k.sub == 8
   | _ => false)

/-- What a command writes that is the write of an entry: its requester, the entry, the bytes. Commands that are no such
write, and the tokens (whose verdict is their own), give none. -/
def writeOf : Instr → Option (Fin 18 × Key × List Byte)
  | .bistStart r v => some (r, K.BIST_START, be 1 v.toNat)
  | .bistStop r v => some (r, K.BIST_STOP, be 1 v.toNat)
  | .repairFuseCmd r v _ => some (r, K.REPAIR_FUSE_CMD, be 1 v.toNat)
  | .bistCntClear r v => some (r, K.BIST_CNT_CLEAR, be 1 v.toNat)
  | .lineAdminWrite r n v => some (r, K.LINE_ADMIN n, be 1 v.toNat)
  | .coRestart r n => some (r, K.LINE_CO_CMD n, be 1 1)
  | .coBindOff r n => some (r, K.LINE_CO_CMD n, be 1 2)
  | .lineCoTxeqGo r n v => some (r, K.LINE_CO_TXEQ_GO n, be 1 v.toNat)
  | .lineCoClear r n v => some (r, K.LINE_CO_CLEAR n, be 1 v.toNat)
  | .clkRefSrcWrite r v _ => some (r, K.CLK_REF_SRC, be 1 v.toNat)
  | .rclkoCfgWrite r i v => some (r, State.rclkoKey i, be 2 v.toNat)
  | .availClear r v => some (r, K.AVAIL_CLEAR, be 1 v.toNat)
  | .pgFecModeWrite r k v => some (r, K.PG_FEC_MODE k, be 1 v.toNat)
  | .pgFecClear r k v => some (r, K.PG_FEC_CLEAR k, be 1 v.toNat)
  | .lineFecClear r n v => some (r, K.LINE_FEC_CLEAR n, be 1 v.toNat)
  | .adaptRestart r n v => some (r, K.LINE_ADAPT_CTRL n, be 2 v.toNat)
  | .lineFfeSnap r n v => some (r, K.LINE_FFE_SNAP n, be 1 v.toNat)
  | .lineLqmClear r n v => some (r, K.LINE_LQM_CLEAR n, be 1 v.toNat)
  | .lineSwatchArm r n v => some (r, K.LINE_SWATCH_ARM n, be 1 v.toNat)
  | .timeClear r n v => some (r, K.TIME_CLEAR n, be 1 v.toNat)
  | .mgmtMrst r v => some (r, K.MGMT_MRST, be 1 v.toNat)
  | .mgmtMasterRestart r v => some (r, K.MGMT_MASTER_RESTART, be 1 v.toNat)
  | .lkForce r k v => some (r, K.LK_FORCE k.val, be 1 v.toNat)
  | .mbCfgWrite r c v => some (r, K.MB_CFG c, be 2 v.toNat)
  | .pcEnableWrite r v => some (r, K.PC_ENABLE, be 1 v.toNat)
  | .pcReprogram r k w v => some (r, ⟨.pc k, 0, pcSub w⟩, be (if w.val = 3 then 8 else 4) v.toNat)
  | .evrAckWrite r v => some (r, K.EVR_ACK, be 4 v.toNat)
  | .irqCauseWrite r g v => some (r, K.IRQ_CAUSE g, be 2 v.toNat)
  | .irqSwSet r v => some (r, K.IRQ_SW_SET, be 1 v.toNat)
  | .odCfgErase r v _ => some (r, K.OD_CFG_ERASE, be 1 v.toNat)
  | .odStatsClear r v => some (r, K.OD_STATS_CLEAR, be 1 v.toNat)
  | .monCalCmd r v => some (r, K.MON_CAL_CMD, be 1 v.toNat)
  | .monUrgentReq r v _ => some (r, K.MON_URGENT_REQ, be 2 v.toNat)
  | .monCntClear r v => some (r, K.MON_CNT_CLEAR, be 1 v.toNat)
  | .filtPreset r e v => some (r, K.FILT_PRESET e, be 1 v.toNat)
  | .filtSwap r e v => some (r, K.FILT_SWAP e, be 1 v.toNat)
  | .loopModeWrite r j v => some (r, K.LOOP_MODE j, be 1 v.toNat)
  | .loopIntegratorWrite r j v => some (r, K.LOOP_INTEGRATOR j, be 8 v.toNat)
  | .rcClear r j v => some (r, K.RC_CLEAR j, be 1 v.toNat)
  | .auxModeWrite r a v => some (r, K.AUX_MODE a, be 1 v.toNat)
  | .cePadRelease r v => some (r, K.CE_PAD_RELEASE, be 1 v.toNat)
  | .picotClear r n v => some (r, K.PICOT_CLEAR n, be 1 v.toNat)
  | .pwrReqWrite r u v => some (r, K.PWR_REQ u, be 1 v.toNat)
  | .pwrDeviceOff r v => some (r, K.PWR_DEVICE_OFF, be 1 v.toNat)
  | .pwrCntClear r v => some (r, K.PWR_CNT_CLEAR, be 1 v.toNat)
  | .prbsGenCfgWrite r a v => some (r, prbsGen a 1, be 2 v.toNat)
  | .prbsChkCfgWrite r a v => some (r, prbsChk a 1, be 2 v.toNat)
  | .prbsInjectOnce r a v => some (r, prbsGen a 2, be 4 v.toNat)
  | .prbsChkClear r a v => some (r, prbsChk a 8, be 1 v.toNat)
  | .rstLane r v => some (r, K.RST_LANE, be 2 v.toNat)
  | .portAdminWrite r p v => some (r, K.PORT_ADMIN p, be 1 v.toNat)
  | .ringClear r v => some (r, K.RING_CLEAR, be 1 v.toNat)
  | .fwActivate r v => some (r, K.FW_ACTIVATE, be 1 v.toNat)
  | .fwConfirm r v => some (r, K.FW_CONFIRM, be 1 v.toNat)
  | .fwSvnCommit r v _ => some (r, K.FW_SVN_COMMIT, be 1 v.toNat)
  | .secAttestNonce r data => some (r, K.SEC_ATTEST_NONCE, data)
  | .secLcAdvance r v => some (r, K.SEC_LC_ADVANCE, be 1 v.toNat)
  | .secDebugClose r v => some (r, K.SEC_DEBUG_CLOSE, be 1 v.toNat)
  | .secVendorDrop r v => some (r, K.SEC_VENDOR_DROP, be 1 v.toNat)
  | .lineSsRetest r n v => some (r, K.LINE_SS_RETEST n, be 1 v.toNat)
  | .lineSsClear r n v => some (r, K.LINE_SS_CLEAR n, be 1 v.toNat)
  | .lineCalLane r n => some (r, K.LINE_CAL_CMD n, be 1 1)
  | .lineCalDac r n => some (r, K.LINE_CAL_CMD n, be 1 2)
  | .lineCalBoth r n => some (r, K.LINE_CAL_CMD n, be 1 3)
  | .thermTripTest r v => some (r, K.THERM_TRIP_TEST, be 1 v.toNat)
  | .timeSet r v => some (r, K.TIME_SET, be 12 v.toNat)
  | .timeStep r v => some (r, K.TIME_STEP, be 8 v.toNat)
  | .timeRateAdj r v => some (r, K.TIME_RATE_ADJ, be 4 v.toNat)
  | .lkRelease m k v => if h : m.val < 18 then some (⟨m.val, h⟩, K.LK_RELEASE k.val, be 1 v.toNat) else none
  | .mbDataWrite m c data => if h : m.val < 18 then some (⟨m.val, h⟩, K.MB_DATA c, data) else none
  | .mbAck m c v => if h : m.val < 18 then some (⟨m.val, h⟩, K.MB_ACK c, be 1 v.toNat) else none
  | .timeDiscSrcWrite r isLane v => some (r, if isLane then K.TIME_LINE_LANE else K.TIME_DISC_SRC, be 1 v.toNat)
  | .registerWrite r idx sub data _ =>
    let k := Key.ofIndex idx.toNat sub.toNat
    if k == K.SEC_TOKEN then none else some (r, k, data)
  | _ => none

/-- Every entry that a test does not name reads in `t` as it reads in `s`. -/
def SameBut (p : Key → Bool) (s t : State) : Prop := ∀ k, p k = false → t.rd k = s.rd k

/-- The parts of the block (01_architecture.md): each part's registers are an area of the dictionary. -/
inductive Area where
  | od | ring | time | clk | ce | pwr | mgmt | sec | bist | lanes
deriving DecidableEq, Repr

/-- The area of an entry of a block that stands once. None: `OD_BUSY_COUNT` to `OD_ABORT_COUNT`, `RING_OWNER_WRITES`,
`PWR_CNT_REPLACED`, `PWR_RET_FAIL_BANKS`, `PWR_RET_FAIL_COUNT`, `DET_PWR_REQ_REPLACED`, `EVR_DROPPED`, `SEC_DEBUG_STATE`, `PC_OVF_CAUSE`, which
report what any request or event did. -/
def devArea (off sub : Nat) : Option Area :=
  if (off == 0x1020 && (sub == 4 || sub == 5 || sub == 6)) || (off == 0x2010 && sub == 3) || (off == 0x8002 && sub == 0x0D) ||
      (off == 0x8030 && (sub == 1 || sub == 2)) || (off == 0xC010 && sub == 3) || (off == 0x8031 && sub == 4) || (off == 0x9200 && sub == 6) || (off == 0xA000 && sub == 3) then none
  else if off < 0x2000 then some .od
  else if off < 0x5000 then some .ring
  else if off < 0x5100 then some .time
  else if off < 0x6000 || off == 0x9100 then some .clk
  else if off < 0x8000 then some .ce
  else if off < 0x9000 then some .pwr
  else if off < 0xA000 then some .mgmt
  else if off < 0xB000 then some .sec
  else if off < 0xC000 then some .bist
  else some .mgmt

/-- The area of an entry; none: an entry that reports what any request or event did, among them the interrupt causes, the overflow of a
performance counter and the management unit's wake. -/
def Key.area (k : Key) : Option Area :=
  match k.blk with
  | .dev => devArea k.off k.sub
  | .line _ | .host _ | .pg _ => some .lanes
  | .port _ => some .ring
  | .loop _ | .aux _ | .og _ | .chain _ => some .ce
  | .pwr u => if u.val = 21 ∧ (k.sub = 3 ∨ k.sub = 4) then none else some .pwr
  | .irq _ => if k.sub = 2 then some .mgmt else none
  | .mb _ => some .mgmt
  | .pc _ => if k.sub = 6 ∨ k.sub = 8 then none else some .mgmt
  | .slot _ => some .sec

/-- An entry of one of the areas `A`, or of none. -/
def Key.within (A : Area → Bool) (k : Key) : Bool :=
  match k.area with
  | some a => A a
  | none => true

/-- A command answers a next state, of which `P` holds. -/
def Runs (c : Instr) (s : State) (P : State → Prop) : Prop := ∃ t, exec c s = .next t ∧ P t

/-- A saturating counter went up by `n` (Table 13-1). -/
def CountsUp (s t : State) (k : Key) (n : Nat) : Prop := t.rd k = min (s.rd k + n) (2 ^ bitsOf k - 1)

/-- The request that a command brings: its requester and its bytes (Tables 13-5, 13-6). -/
def requestOf : Instr → Option (Fin 18 × List Byte)
  | .read r tag idx sub => some (r, reqAt 1 tag idx sub [])
  | .write r tag idx sub data => some (r, reqAt 2 tag idx sub data)
  | .writeInit r tag idx sub size => some (r, reqAt 3 tag idx sub (be 4 size.toNat))
  | .writeSeg r tag flags rsv data _ => some (r, reqOf 4 tag ([flags, rsv] ++ data))
  | .readSeg r tag flags => some (r, reqOf 5 tag [flags])
  | .abort r tag code => some (r, reqOf 6 tag (be 4 code.toNat))
  | .fenceLocal r tag => some (r, reqOf 7 tag (be 1 1))
  | .fenceApply r tag => some (r, reqOf 7 tag (be 1 2))
  | .fencePersist r tag => some (r, reqOf 7 tag (be 1 3))
  | .groupOpen r tag => some (r, reqOf 8 tag [])
  | .groupClose r tag _ => some (r, reqOf 9 tag [])
  | .groupCancel r tag => some (r, reqOf 10 tag [])
  | .describe r tag idx sub => some (r, reqAt 11 tag idx sub [])
  | _ => none

/-- A source's cause bit is set (R431). -/
def Raised (t : State) (x : Src) : Prop := t.bit (K.IRQ_CAUSE x.g) x.b = true

/-- A latency event of Ln is reported with the cause bits `c` (R174): the record of an earlier event of the same cc takes them too. -/
def LatencyReported (n : Fin 16) (c : Nat) (s t : State) : Prop :=
  Raised t (Src.LATENCY_CHG n) ∧
  t.rd (K.LAT_CAUSE n) = (if (s.lane n).latAt = some s.now then s.rd (K.LAT_CAUSE n) ||| c else c) % 2 ^ bitsOf (K.LAT_CAUSE n)

/-- The line lanes are as they were but for the cc of their latest latency event. -/
def SameLanes (s t : State) : Prop := ∀ n, { t.lane n with latAt := (s.lane n).latAt } = s.lane n

/-- A request is accepted as a new one (R377, R378, R394): its requester is served, has a free place, and neither waits for it nor
holds its answer. -/
def State.arrives (s : State) (r : Fin 18) (req : List Byte) : Bool :=
  s.served r && !(r.val == 16 && 8 ≤ s.od.twiSlots) && (s.req r).queue.length < 8 &&
  ((s.req r).cache.find? fun c => c.req == req).isNone && !((s.req r).queue.any fun q => q.bytes == req)

/-- The state on which a new request is served: an older answer of its tag is dropped, it is counted, its TWI slot taken. -/
def State.arrived (s : State) (r : Fin 18) (req : List Byte) : State := (s.dropCached r req).taken.takeSlot r

/-- The core takes up a request now: it is at work and free, and nothing waits for it. -/
def State.coreFree (s : State) : Prop :=
  s.coreAwake = true ∧ (s.unit 21).trans = .still ∧ s.od.coreQ = [] ∧ s.od.coreAt = none

/-- No write before a fence of the requester's has yet to take effect. -/
def State.fencesMet (s : State) (r : Fin 18) : Prop := ∀ w ∈ s.od.waiting, w.req = r → (s.req r).epoch ≤ w.epoch

/-- That state for a request that needs the core: the core is awake, the request counted. -/
def State.asked (s : State) : State := s.coreWake.pcEvent 0x09 1

/-- The latest response sent to a requester (Table 13-7). -/
def Answers (t : State) (r : Fin 18) (req : List Byte) (status flags : Nat) (body : List Byte) : Prop :=
  (t.req r).lastAnswer = State.respBytes req status flags body

/-- The response is an abort, counted (R375). -/
def Aborts (s t : State) (r : Fin 18) (req : List Byte) (a : Abort) : Prop :=
  Answers t r req 1 (State.respFlags req) (be 4 a.code) ∧ CountsUp s t K.OD_ABORT_COUNT 1 ∧ t.od.waiting = s.od.waiting ∧ t.od.coreQ = s.od.coreQ

/-- The registers that change are among `ks` and the entries of no area, which report requests and events. -/
def Changes (ks : List Key) (s t : State) : Prop := SameBut (fun k => k.area.isNone || ks.contains k) s t

/-- The management record is as it was but for its performance counters, which count the request (R419). -/
def SameMgmt (s t : State) : Prop := { t.mgmt with pcs := s.mgmt.pcs } = s.mgmt

/-- The registers that change are of no area, or of the management block, which counts requests, or `OD_MAX_RESP_US`. -/
def Quiet (s t : State) : Prop :=
  SameBut (fun k => k.area.isNone || k.area == some .mgmt || k == K.OD_MAX_RESP_US) s t

/-- The state in which a packet's type is judged (R192): its SESSION, ACK and PHASE are taken and the moves that they allow are
made. -/
def State.judged (s : State) (n : Fin 16) (h : MsgHead) : State := (s.recvHead n h).1

/-- A packet of the conversation under way whose type counts (R192): its SESSION is the partner's, the phase that its ACK and PHASE
lead to accepts its type, a sequenced packet is the next in order. -/
def State.heard (s : State) (n : Fin 16) (typ : Nat) (h : MsgHead) : Bool :=
  2 ≤ s.phase n && h.session.toNat != 0 && h.session.toNat == s.rd (K.LINE_CO_PEER_SESSION n) && (s.recvHead n h).2.2 &&
  judge typ ((s.judged n h).phase n) == .valid && (!sequenced typ || h.seq.toNat == ((s.judged n h).co n).e)

/-- The conversation has restarted (R186, R195): C1 with a new SESSION, the cause recorded with the phase it came in, counted. -/
def Restarted (n : Fin 16) (cause : Nat) (s u : State) : Prop :=
  u.phase n = 1 ∧ u.rd (K.LINE_CO_LAST_FAIL n) = s.phase n * 256 + cause ∧ CountsUp s u (K.LINE_CO_RESTARTS n) 1 ∧
  u.rd (K.LINE_CO_SESSION n) ≠ 0 ∧ u.rd (K.LINE_CO_SESSION n) ≠ s.rd (K.LINE_CO_SESSION n) ∧ (u.co n).backoff = true ∧
  (u.co n).out = [] ∧ (u.co n).wait = []

/-- A restart of a lane that binds off: recorded and counted as any other, its BIND is discarded with the rest and it goes on to C0, held
there after BIND_OFF (R181, R195, Table 7-6; log entry 27). -/
def RestartedOff (n : Fin 16) (cause reason : Nat) (s u : State) : Prop :=
  u.phase n = 0 ∧ u.rd (K.LINE_CO_LAST_FAIL n) = s.phase n * 256 + cause ∧ CountsUp s u (K.LINE_CO_RESTARTS n) 1 ∧
  u.rd (K.LINE_CO_FLAGS n) = 0 ∧ (u.co n).bind = none ∧ (u.co n).hold = (reason == 1) ∧ (u.co n).out = [] ∧ (u.co n).wait = []

/-- The conversation has restarted, of a lane that binds off as of any other. -/
def Restarts (n : Fin 16) (cause : Nat) (s u : State) : Prop :=
  ((s.co n).bind = none → Restarted n cause s u) ∧ ∀ reason, (s.co n).bind = some reason → RestartedOff n cause reason s u

/-- A change touches the areas `A` only. It leaves the queue of commands and the time alone, keeps the register store's form,
and leaves every register and every record of another area as it was (of the ring's record all but the summary rises that wait
for a TOKEN, R433). -/
structure Touches (A : Area → Bool) (s t : State) : Prop where
  queue : t.pending = s.pending
  now : t.now = s.now
  form : s.storeOk = true → t.storeOk = true
  regs : ∀ k, k.within A = false → t.rd k = s.rd k
  clk : A .clk = false → t.clk = s.clk
  time : A .time = false → t.time = s.time
  lanes : A .lanes = false → t.lanes = s.lanes ∧ t.hosts = s.hosts ∧ t.pgs = s.pgs
  ce : A .ce = false → t.ce = s.ce
  ring : A .ring = false → { t.ring with rose := s.ring.rose, roseTime := s.ring.roseTime } = s.ring
  bist : A .bist = false → t.bist = s.bist

/-- The areas that a command may touch (beside the entries of no area): those of its own unit and of the units that the
chapters make it act on. A command that may carry any entry's write, and a reset of the device, touch all of them. -/
def areasOf : Instr → List Area
  | .segTimeout .. | .twiReadTransaction .. | .saveDelayTimer .. | .odCfgErase .. | .monCntClear .. | .filtPreset .. |
      .filtSwap .. | .loopModeWrite .. | .loopIntegratorWrite .. | .rcClear .. | .auxModeWrite .. | .cePadRelease .. |
      .ringCrcAlarm .. | .mgmtMrst .. | .lkTake .. | .lkRelease .. | .pcLoRead .. | .pcHiRead .. | .pcStatusRead .. |
      .pcOverflow .. | .irqCauseWrite .. | .irqSwSet .. | .fwConfirm .. | .trialTimeServed .. | .trialRecordTimer .. |
      .secAttestNonce .. | .extest .. | .idcode .. | .samplePreload .. | .clamp .. | .highz .. | .dbgAccess .. |
      .scanAccess .. | .bypass .. | .secDebugClose .. | .debugDurationExpiry .. | .vinUnder .. | .vinOver .. |
      .resetNRelease .. | .tapReset .. =>
    []
  | .repairFuseCmd .. | .bistCntClear .. =>
    [.bist]
  | .monCalCmd .. | .monCalStart .. | .loopSnapshot .. | .outputWrite .. | .monConversionEnd .. | .monDataRead .. |
      .monUrgentReq .. | .monUrgentEnd .. | .ceMemError .. =>
    [.ce]
  | .rclkoCfgWrite .. | .rclkoRelease .. | .availClear .. =>
    [.clk]
  | .ctleRampStep .. | .agcGainStep .. | .adaptUpdate .. | .adaptRestart .. | .guardTrip .. | .lineFfeSnap .. |
      .lineLqmClear .. | .lineSwatchArm .. | .swatchTrigger .. | .swatchComplete .. | .outputStageStep .. |
      .complianceSet .. | .complianceClear .. | .lineFecClear .. | .hostSignalClear .. | .hostSignalSet .. |
      .hostMarkerPosition .. | .hckiTrainingDone .. | .hostCdrLock .. | .hostRxAcquisitionEnd .. | .hckiLost .. |
      .gearboxLock .. | .pgFecModeWrite .. | .pgFecClear .. | .beaconTimer .. | .keepaliveTimer .. | .statusTimer .. |
      .restartBackoffEnd .. | .proposeTimer .. | .lineCoClear .. | .picotBurstStart .. | .picotCandidateEnd .. |
      .picotModeMismatch .. | .picotSyncFound .. | .picotSyncTimeout .. | .picotPilotPair .. | .picotClear .. |
      .ssIntervalEnd .. | .ssSubstitution .. | .lineSsRetest .. | .lineSsClear .. | .laneCalRetry .. | .lineCalLane .. |
      .lineCalDac .. | .lineCalBoth .. | .timeMessageDue .. | .timeWithdrawn .. | .timeClear .. | .hckiReturn .. |
      .hostFecCodeword .. =>
    [.lanes]
  | .plChangeDone .. | .sramEccError .. | .mgmtMasterRestart .. | .lkForce .. | .mbCfgWrite .. | .mbDataWrite .. |
      .mbAck .. | .pcEnableWrite .. | .pcReprogram .. | .evrRecordWrite .. | .evrAckWrite .. =>
    [.mgmt]
  | .groupTimeout .. | .configSaveComplete .. | .odStatsClear .. | .plAutoRaise .. | .plAutoLower .. =>
    [.od]
  | .railFault .. | .pwrCntClear .. | .thermTripTest .. | .tripTestDone .. =>
    [.pwr]
  | .beaconSourceTimer .. | .token .. | .sof .. | .ringTokenLoss .. | .rateGo .. | .topo .. | .enum .. | .rateSet .. |
      .reset .. | .eventAck .. | .eventRetryTimer .. | .ringClear .. =>
    [.ring]
  | .fwSvnCommit .. | .attestDone .. | .secVendorDrop .. | .vendorDurationExpiry .. =>
    [.sec]
  | .timeSet .. | .timeStep .. | .timeRateAdj .. | .syncInEdge .. | .syncInSilence .. | .syncOutPulse .. |
      .syncOutPulseEnd .. | .timeDiscSrcWrite .. =>
    [.time]
  | .txEpochBoundary .. | .ssStepEnd .. | .bistStop .. =>
    [.bist, .lanes]
  | .monCalEnd .. =>
    [.ce, .bist]
  | .tempConversion .. =>
    [.ce, .pwr]
  | .synthLockLoss .. | .ctleSearchStep .. | .lineLosSet .. | .lineLosClear .. | .acquisitionEnd .. | .codewordDecoded .. |
      .blockDecoded .. | .markerPosition .. | .epochTagBlock .. | .fillStart .. | .fillEnd .. | .lineAdminWrite .. |
      .coRestart .. | .coBindOff .. | .cap .. | .propose .. | .accept .. | .reject .. | .txeqReq .. | .txeqAck .. |
      .status .. | .ready .. | .bind .. | .keepalive .. | .responseTimer .. | .partnerSilence .. | .phaseTimeout .. |
      .castOnLimit .. | .bindTimeout .. | .verifyWindowEnd .. | .lineCoTxeqGo .. | .txeqSearchMeasure .. |
      .picotBurstEnd .. =>
    [.clk, .lanes]
  | .fenceLocal .. | .fenceApply .. | .fenceApplyDone .. | .fencePersistDone .. | .claim .. | .malformedRequest .. =>
    [.od, .ring]
  | .prbsGenCfgWrite .. | .prbsChkCfgWrite .. | .prbsInjectOnce .. | .prbsChkClear .. | .prbsWindowEnd .. =>
    [.ring, .lanes]
  | .beacon .. =>
    [.ring, .time]
  | .rootLost .. | .rootRestored .. =>
    [.time, .clk]
  | .timeMeasurementMiss .. =>
    [.time, .lanes]
  | .thermalRestart .. =>
    [.ce, .pwr, .lanes]
  | .laneCalComplete .. | .dacCalComplete .. =>
    [.clk, .bist, .lanes]
  | .pwrReqWrite .. | .pwrDeviceOff .. =>
    [.clk, .pwr, .lanes]
  | .bistDone .. =>
    [.od, .bist, .lanes]
  | .portAdminWrite .. | .ringLinkDetect .. | .link .. | .ringTrainTimeout .. | .ringVerifyPass .. | .ringCodeViolation .. |
      .ringRxcLoss .. =>
    [.ring, .clk, .lanes]
  | .clkRefSrcWrite .. | .time .. | .picotHeaderEnd .. | .picotPayloadEnd .. =>
    [.time, .clk, .lanes]
  | .secLcAdvance .. =>
    [.od, .clk, .sec, .lanes]
  | .trialBootTimeout .. =>
    [.od, .sec, .bist, .lanes]
  | .rstLane .. =>
    [.ring, .clk, .pwr, .bist, .lanes]
  | .fwActivate .. | .bistStart .. =>
    [.od, .ring, .pwr, .mgmt, .bist, .lanes]
  | .thermalTrip .. =>
    [.ring, .clk, .ce, .pwr, .bist, .lanes]
  | .secToken .. =>
    [.ring, .clk, .ce, .pwr, .sec, .lanes]
  | .watchdogExpiry .. | .mrst .. =>
    [.od, .ring, .pwr, .mgmt, .sec, .bist, .lanes]
  | .synthLock .. =>
    [.od, .ring, .time, .clk, .ce, .bist, .lanes]
  | .registerWrite .. | .clearOnReadRead .. | .read .. | .write .. | .writeInit .. | .writeSeg .. | .readSeg .. | .abort .. |
      .fencePersist .. | .groupOpen .. | .groupClose .. | .groupCancel .. | .describe .. | .groupApply .. |
      .coreWriteCommit .. | .codewordBoundaryApply .. | .hostPeriodBoundary .. | .timeAdjApply .. |
      .controlFrameBoundary .. | .ringDeviceReset .. | .bootComplete .. | .dbgToken .. | .vinPorRelease .. | .vinLoss .. |
      .railFaultPor .. | .regFaultRestart .. | .resetNAssert .. | .wakeEdge .. | .pwrEntryStepEnd .. | .pwrWakeDone .. |
      .repairApply .. | .ringFrameArrival .. =>
    [.od, .ring, .time, .clk, .ce, .pwr, .mgmt, .sec, .bist, .lanes]

/-- The areas of a command, as a test. -/
def touchSet (c : Instr) (a : Area) : Bool := (areasOf c).contains a

end Sys2Proof.Machine
end

