-- ==== Sys2Proof/Certificates/Slice0/Obligations.lean ====
section
/-!
DEFINITION. The statements for the provers. Each names the rules of spec/ that it follows; the log entries it names are those of
notes/assumptions. A clause that says a command changes nothing where its event cannot have happened is the model's choice of log
entry 8.
-/

open Sys2Proof Sys2Proof.Machine

/-- A step of a state with the command `c` at the front of its queue is `exec` of `c` on that state with the queue's rest: the queue is
served first in, first out (log entry 7). -/
def Obligations.StepRunsFrontCommand : Prop :=
  ∀ (c : Instr) (rest : List Instr) (s : State), step { s with pending := c :: rest } = exec c { s with pending := rest }

/-- The model's choice of log entry 7: a step on an empty queue lets one cc pass. It brings no command, and the time counter counts
while it runs (R277) and stands while it does not. -/
def Obligations.IdleStep : Prop :=
  ∀ s : State, s.pending = [] → s.od.coreQ = [] → ∃ t, step s = .next t ∧ t.now = s.now + 1 ∧ t.pending = [] ∧
    t.time = (if s.running then s.time.tick else s.time) ∧ ∀ k : Key, k.area ≠ none → k.area ≠ some .lanes → k.area ≠ some .ring →
      k.area ≠ some .clk → t.rd k = s.rd k

/-- R372, R490, Tables 14-4, 14-7, 16-5, 16-11, 17-3: after reset every entry but the core's state reads as its table gives it; the
units are in Run with an empty slot, the lanes in C0, no cause is set, `RST_CAUSE` holds VIN, the locks are free, the mailboxes empty,
the time counter stands at 0, and no command waits. Values that the tables do not state are the model's (log entry 9). What rests on a
choice or reading of the model: log entries 1, 88. -/
def Obligations.ResetValues : Prop :=
  (∀ k, k ≠ K.OD_CORE_STATE → State.reset.rd k = resetOf k) ∧ State.reset.rd K.OD_CORE_STATE = 1 ∧ State.reset.pending = [] ∧
  (∀ u, State.reset.rd (K.PWR_STATE u) = 0 ∧ State.reset.rd (K.PWR_PENDING u) = 0xFF ∧ State.reset.rd (K.PWR_LAST_REFUSER u) = 0) ∧
  (∀ n, State.reset.phase n = 0 ∧ State.reset.rd (K.LINE_ADMIN n) = 0) ∧ (∀ g, State.reset.rd (K.IRQ_CAUSE g) = 0) ∧
  State.reset.rd K.RST_CAUSE = 0x40 ∧ State.reset.rd K.PWR_WAKE_MASK = 0x003FFFFF ∧ State.reset.rd K.BIST_FIRST_FAIL = 0xFFFFFFFF ∧
  State.reset.rd (K.MB_CFG 0) = 20 * 256 + 18 ∧ State.reset.rdI K.THERM_WARN_HIGH = 11000 ∧ State.reset.rdI K.THERM_WARN_LOW = -300 ∧
  State.reset.rd K.FW_TRIAL_S = 600 ∧ (∀ k, State.reset.lockOwner k = 0xFF) ∧ (∀ c, mbFull State.reset c = false) ∧
  State.reset.time.counter = 0 ∧ State.reset.running = false ∧ State.reset.clk.outage = none ∧ State.reset.bist.running = none

/-- After reset the register store has its canonical form. -/
def Obligations.ResetStoreForm : Prop := State.reset.storeOk = true

/-- Every step keeps the canonical form of the register store: each entry listed once, in order, and only away from its reset value, so
that states that read alike are alike. -/
def Obligations.StoreFormKept : Prop := ∀ s t : State, s.storeOk = true → step s = .next t → t.storeOk = true

/-- Every command answers a next state, in every state, and acts only within its own areas (Safety.lean): it leaves the queue and the
time as they are, and every register and record of every other part of the block, but for the entries that report requests and events.
What rests on a choice or reading of the model: log entry 8. -/
def Obligations.EveryCommandCompletes : Prop := ∀ (c : Instr) (s : State), ∃ t, exec c s = .next t ∧ Touches (touchSet c) s t

/-- R375, R397: a command that is the write of an entry, accepted, is answered OK. -/
def Obligations.AcceptedWrites : Prop :=
  ∀ (c : Instr) (r : Fin 18) (k : Key) (data : List Byte) (s : State), writeOf c = some (r, k, data) → s.accepts r k data = true →
    Runs c s fun t => (t.req r).outcome = 0

/-- R9, R375: a command that is the write of an entry, refused with an abort code, changes no entry but those that count requests and
sessions, is counted in `OD_ABORT_COUNT`, and its requester is told the code; the datapath, the control engine, the ring (but for the
summary rises that wait for a TOKEN, R433), the time and the clock units and the self-test stay as they are. -/
def Obligations.RefusedWrites : Prop :=
  ∀ (c : Instr) (r : Fin 18) (k : Key) (data : List Byte) (a : Abort) (s : State), writeOf c = some (r, k, data) →
    s.refuses r k data a = true → Runs c s fun t =>
      SameBut (fun x => requestKeys x || x == K.OD_ABORT_COUNT) s t ∧ CountsUp s t K.OD_ABORT_COUNT 1 ∧ (t.req r).outcome = a.code ∧
      t.lanes = s.lanes ∧ t.hosts = s.hosts ∧ t.pgs = s.pgs ∧ t.ce = s.ce ∧
      { t.ring with rose := s.ring.rose, roseTime := s.ring.roseTime } = s.ring ∧ t.time = s.time ∧ t.clk = s.clk ∧
      t.bist = s.bist ∧ t.od.waiting = s.od.waiting

/-- R397: a write of 0 to a command entry is accepted with no effect: it changes no entry but those that count requests and sessions,
and leaves the datapath, the control engine, the ring (but for the summary rises that wait for a TOKEN, R433), the time and the clock
units and the self-test as they are. -/
def Obligations.ZeroWrites : Prop :=
  ∀ (s : State) (r : Fin 18) (n : Fin 16) (g : Fin 4) (j : Fin 64) (k : Fin 32) (a : PrbsAt) (x : BitVec 128) (y : BitVec 64) (b : Bool) (c : Instr)
    (key : Key),
    c ∈ [Instr.lineCoClear r n 0, .availClear r 0, .pgFecClear r g 0, .lineFecClear r n 0, .lineFfeSnap r n 0, .lineLqmClear r n 0,
      .lineSwatchArm r n 0, .timeClear r n 0, .mgmtMrst r 0, .mgmtMasterRestart r 0, .lkForce r k 0, .monCalCmd r 0, .monCntClear r 0,
      .rcClear r j 0, .picotClear r n 0, .pwrDeviceOff r 0, .pwrCntClear r 0, .prbsChkClear r a 0, .ringClear r 0, .fwActivate r 0,
      .fwConfirm r 0, .fwSvnCommit r 0 x, .secDebugClose r 0, .secVendorDrop r 0, .lineSsRetest r n 0, .lineSsClear r n 0,
      .thermTripTest r 0, .bistStart r 0, .bistStop r 0, .repairFuseCmd r 0 y, .bistCntClear r 0, .odCfgErase r 0 b, .odStatsClear r 0] →
    writeOf c = some (r, key, be 1 0) → s.accepts r key (be 1 0) = true → Runs c s fun t =>
      SameBut requestKeys s t ∧ t.lanes = s.lanes ∧ t.hosts = s.hosts ∧ t.pgs = s.pgs ∧ t.ce = s.ce ∧
      { t.ring with rose := s.ring.rose, roseTime := s.ring.roseTime } = s.ring ∧ t.time = s.time ∧
      t.clk = s.clk ∧ t.bist = s.bist ∧ t.sec.otp = s.sec.otp ∧ t.sec.slots = s.sec.slots

/-- R489: `RST_CAUSE` after a POR caused by VIN is VIN alone; every other reset sets its own bit and leaves the other bits as they were:
a lane reset bit 0, MRST 1, the watchdog 2, a thermal trip 3, a ring device reset 4 (its core's boot is no reset of its own), RESET_N 5,
a rail fault's POR 7, the POR at a WAKE out of the hold after rail faults 8. A write of 1 to a bit clears it and leaves the others. What
rests on a choice or reading of the model: log entry 8. -/
def Obligations.ResetCauseRegister : Prop :=
  (∀ (s : State) (deep : Bool),
    deep = true ∨ (s.pwr.supply ≠ .stuckOff ∧ (s.pwr.supply ≠ .faultOff ∨ s.pwr.faultPors.length < 3)) →
    Runs (.vinLoss deep) s fun t => t.rd K.RST_CAUSE = 2 ^ 6) ∧
  (∀ (s : State) (c : Instr) (b : Nat),
    (∃ (r : Fin 18) (v : BitVec 16), c = .rstLane r v ∧ b = 0 ∧ v ≠ 0 ∧ s.accepts r K.RST_LANE (be 2 v.toNat) = true) ∨
    (c = .mrst ∧ b = 1 ∧ s.mgmt.mrstPend = true) ∨
    (c = .watchdogExpiry ∧ b = 2 ∧ s.rd K.OD_CORE_STATE ≠ 1 ∧ s.sec.halted = false) ∨
    (c = .thermalTrip ∧ b = 3 ∧ s.tripped = false ∧ 12500 ≤ s.rdI K.THERM_TRIP_MAX) ∨
    (c = .ringDeviceReset ∧ b = 4 ∧ s.resetReplied = true ∧ s.scanOn = false) ∨
    (c = .resetNAssert ∧ b = 5 ∧ s.powered = true) ∨
    (c = .railFaultPor ∧ b = 7 ∧ s.supplied = true ∧ s.pwr.railFault ≠ none) ∨
    ((∃ straps, c = .wakeEdge straps) ∧ b = 8 ∧ s.pwr.supply = .stuckOff) →
    Runs c s fun t => ∀ j < 16, t.bit K.RST_CAUSE j = (s.bit K.RST_CAUSE j || j == b)) ∧
  (∀ (s : State) (r : Fin 18) (v : BitVec 16) (x : BitVec 128), s.accepts r K.RST_CAUSE (be 2 v.toNat) = true →
    Runs (.registerWrite r 0x8000 1 (be 2 v.toNat) x) s fun t =>
      ∀ j < 16, t.bit K.RST_CAUSE j = (s.bit K.RST_CAUSE j && !v.toNat.testBit j))

/-- R409, R410: a read of `LK_TAKE` takes a free lock for the reader and changes nothing of a held one, and returns the state after it;
a write of 1 to `LK_RELEASE` frees the lock, and only its holder's is accepted (an Owner's also for the control engine's locks, R412;
the core frees its own through its port); a write of 1 to `LK_FORCE` frees a held lock whatever its holder and counts it, a free one
stays as it is; a 0 has no effect. The other locks keep their holders. -/
def Obligations.LockRegisters : Prop :=
  (∀ (s : State) (m : Fin 19) (k : Fin 32), s.lockOwner k = 0xFF →
    Runs (.lkTake m k) s fun t =>
      t.lockOwner k = m.val ∧ (∀ j, j ≠ k → t.lockOwner j = s.lockOwner j) ∧ Changes [] s t ∧
      (∀ h : m.val < 18, (t.req ⟨m.val, h⟩).lastAnswer = be 2 (0xC000 + m.val)) ∧
      (m.val = 18 → t.mgmt.coreRead = be 2 (0xC000 + 18))) ∧
  (∀ (s : State) (m : Fin 19) (k : Fin 32), s.lockOwner k ≠ 0xFF →
    Runs (.lkTake m k) s fun t =>
      (∀ j, t.lockOwner j = s.lockOwner j) ∧ Changes [] s t ∧
      (∀ h : m.val < 18, (t.req ⟨m.val, h⟩).lastAnswer = be 2 (0x4000 + s.lockOwner k) ∧ SameMgmt s t) ∧
      (m.val = 18 → t.mgmt.coreRead = be 2 (0x4000 + s.lockOwner k))) ∧
  (∀ (s : State) (r : Fin 18) (k : Fin 32), s.accepts r (K.LK_RELEASE k.val) (be 1 1) = true →
    Runs (.lkRelease ⟨r.val, by omega⟩ k 1) s fun t =>
      t.lockOwner k = 0xFF ∧ (∀ j, j ≠ k → t.lockOwner j = s.lockOwner j) ∧ Changes [] s t ∧
      (s.bit K.LK_NOTIFY k.val = true → Raised t Src.LK_RELEASED)) ∧
  (∀ (s : State) (k : Fin 32), s.lockOwner k = 18 → Runs (.lkRelease 18 k 1) s fun t =>
      t.lockOwner k = 0xFF ∧ (∀ j, j ≠ k → t.lockOwner j = s.lockOwner j) ∧ Changes [] s t ∧
      (s.bit K.LK_NOTIFY k.val = true → Raised t Src.LK_RELEASED)) ∧
  (∀ (s : State) (k : Fin 32) (v : BitVec 8), s.lockOwner k ≠ 18 → Runs (.lkRelease 18 k v) s fun t => t = s) ∧
  (∀ (s : State) (r : Fin 18) (k : Fin 32), s.accepts r (K.LK_RELEASE k.val) (be 1 0) = true →
    Runs (.lkRelease ⟨r.val, by omega⟩ k 0) s fun t => SameMgmt s t ∧ Changes [] s t) ∧
  (∀ (s : State) (r : Fin 18) (k : Fin 32), s.accepts r (K.LK_RELEASE k.val) (be 1 1) = true →
    s.lockOwner k = r.val ∨ (s.lockOwner k = 19 ∧ (s.roleOf r).covers .owner = true)) ∧
  (∀ (s : State) (r : Fin 18) (k : Fin 32), s.accepts r (K.LK_FORCE k.val) (be 1 1) = true → s.lockOwner k ≠ 0xFF →
    Runs (.lkForce r k 1) s fun t =>
      t.lockOwner k = 0xFF ∧ (∀ j, j ≠ k → t.lockOwner j = s.lockOwner j) ∧ CountsUp s t K.LK_FORCED_COUNT 1 ∧
      Raised t Src.LK_FORCED ∧ Changes [K.LK_FORCED_COUNT] s t ∧ (s.bit K.LK_NOTIFY k.val = true → Raised t Src.LK_RELEASED)) ∧
  (∀ (s : State) (r : Fin 18) (k : Fin 32), s.accepts r (K.LK_FORCE k.val) (be 1 1) = true → s.lockOwner k = 0xFF →
    Runs (.lkForce r k 1) s fun t => SameMgmt s t ∧ Changes [] s t) ∧
  (∀ (s : State) (r : Fin 18) (k : Fin 32), s.accepts r (K.LK_FORCE k.val) (be 1 0) = true →
    Runs (.lkForce r k 0) s fun t => SameMgmt s t ∧ Changes [] s t)

/-- R413 to R415: an accepted write of `MB_CFG` finds the channel empty and sets its two sides; an accepted `MB_DATA` finds it empty,
fills it with the message and notes length, sender and generation; an accepted `MB_ACK` of 1 finds it full and empties it, `EMPTY_GEN`
taking `MSG_GEN` and the other fields of `MB_STATUS` clearing; the core sends and acknowledges through its own port, where it is the
channel's side and the channel is empty, or full, and elsewhere with no effect. A receiver, then a sender, that the tree tells gets
MB_MSG, then MB_EMPTY. -/
def Obligations.Mailboxes : Prop :=
  (∀ (s : State) (r : Fin 18) (c : Fin 12) (v : BitVec 16), s.accepts r (K.MB_CFG c) (be 2 v.toNat) = true →
    mbFull s c = false ∧
    Runs (.mbCfgWrite r c v) s fun t => t.rd (K.MB_CFG c) = v.toNat ∧ SameMgmt s t ∧ Changes [K.MB_CFG c] s t) ∧
  (∀ (s : State) (r : Fin 18) (c : Fin 12) (data : List Byte), s.accepts r (K.MB_DATA c) data = true →
    mbFull s c = false ∧ isMaster s (s.mbCfgSender c) r.val = true ∧
    Runs (.mbDataWrite ⟨r.val, by omega⟩ c data) s fun t =>
      t.mgmt.boxes.get c = ⟨data⟩ ∧
      t.rd (K.MB_STATUS c) = (s.gen r.val * 2 ^ 24 + field (s.rd (K.MB_STATUS c)) 23 16 * 2 ^ 16 + data.length * 2 ^ 8 + r.val * 8 + 1)
        % 2 ^ 32 ∧
      (State.sideTold (s.mbCfgReceiver c) = true → Raised t Src.MB_MSG ∧ t.bit K.DET_MB_MSG c.val = true) ∧
      Changes [K.MB_STATUS c, K.DET_MB_MSG] s t) ∧
  (∀ (s : State) (c : Fin 12) (data : List Byte), s.mbCfgSender c = 18 → mbFull s c = false → data.length ≤ 64 →
    Runs (.mbDataWrite 18 c data) s fun t =>
      t.mgmt.boxes.get c = ⟨data⟩ ∧
      t.rd (K.MB_STATUS c) = (s.gen 18 * 2 ^ 24 + field (s.rd (K.MB_STATUS c)) 23 16 * 2 ^ 16 + data.length * 2 ^ 8 + 18 * 8 + 1)
        % 2 ^ 32 ∧
      (State.sideTold (s.mbCfgReceiver c) = true → Raised t Src.MB_MSG ∧ t.bit K.DET_MB_MSG c.val = true) ∧
      Changes [K.MB_STATUS c, K.DET_MB_MSG] s t) ∧
  (∀ (s : State) (c : Fin 12), s.mbCfgReceiver c = 18 → mbFull s c = true → Runs (.mbAck 18 c 1) s fun t =>
      t.mgmt.boxes.get c = ⟨[]⟩ ∧ t.rd (K.MB_STATUS c) = field (s.rd (K.MB_STATUS c)) 31 24 * 2 ^ 16 ∧
      (State.sideTold (s.mbCfgSender c) = true → Raised t Src.MB_EMPTY ∧ t.bit K.DET_MB_EMPTY c.val = true) ∧
      Changes [K.MB_STATUS c, K.DET_MB_EMPTY] s t) ∧
  (∀ (s : State) (c : Fin 12) (data : List Byte), s.mbCfgSender c ≠ 18 ∨ mbFull s c = true ∨ 64 < data.length →
    Runs (.mbDataWrite 18 c data) s fun t => t = s) ∧
  (∀ (s : State) (c : Fin 12) (v : BitVec 8), s.mbCfgReceiver c ≠ 18 ∨ mbFull s c = false ∨ v ≠ 1 →
    Runs (.mbAck 18 c v) s fun t => t = s) ∧
  (∀ (s : State) (r : Fin 18) (c : Fin 12), s.accepts r (K.MB_ACK c) (be 1 1) = true →
    mbFull s c = true ∧ isMaster s (s.mbCfgReceiver c) r.val = true ∧
    Runs (.mbAck ⟨r.val, by omega⟩ c 1) s fun t =>
      t.mgmt.boxes.get c = ⟨[]⟩ ∧ t.rd (K.MB_STATUS c) = field (s.rd (K.MB_STATUS c)) 31 24 * 2 ^ 16 ∧
      (State.sideTold (s.mbCfgSender c) = true → Raised t Src.MB_EMPTY ∧ t.bit K.DET_MB_EMPTY c.val = true) ∧
      Changes [K.MB_STATUS c, K.DET_MB_EMPTY] s t) ∧
  (∀ (s : State) (r : Fin 18) (c : Fin 12), s.accepts r (K.MB_ACK c) (be 1 0) = true →
    Runs (.mbAck ⟨r.val, by omega⟩ c 0) s fun t => SameMgmt s t ∧ Changes [] s t)

/-- R419 to R424: an accepted write of `PC_ENABLE` sets it; one of `PC_CFG`, `PC_ADDR_LO`, `PC_ADDR_HI` or `PC_PRESET` sets that
register, or the count, and clears the counter's overflow, its latches and its cause bit; a read of `PC_LO` returns the low 32 bits and
latches the upper 16 for its reader, whose next read of `PC_HI` returns and drops the latch (the live bits without one), for the
requesters and for the core through its own port; only a counter of a class that hardware outside the model counts, or one that counts
the request itself, may have grown by the read (log entry 19); a read of `PC_STATUS` clears WRAP; a running counter of such a class that
overflows stands at 0 and reports as its `PC_CFG` asks. A counter that is not enabled keeps its count. What rests on a choice or reading
of the model: log entry 8. -/
def Obligations.PerformanceCounters : Prop :=
  (∀ (s : State) (r : Fin 18) (v : BitVec 8), s.accepts r K.PC_ENABLE (be 1 v.toNat) = true →
    Runs (.pcEnableWrite r v) s fun t =>
      t.rd K.PC_ENABLE = v.toNat ∧ SameMgmt s t ∧ (∀ k : Fin 8, s.bit K.PC_ENABLE k.val = false → t.pc k = s.pc k) ∧
      Changes [K.PC_ENABLE] s t) ∧
  (∀ (s : State) (r : Fin 18) (k : Fin 8) (w : Fin 4) (v : BitVec 64), w.val ≠ 3 →
    s.accepts r ⟨.pc k, 0, w.val + 1⟩ (be 4 v.toNat) = true →
    Runs (.pcReprogram r k w v) s fun t =>
      t.rd ⟨.pc k, 0, w.val + 1⟩ = v.toNat % 2 ^ 32 ∧ (s.bit K.PC_ENABLE k.val = false → (t.pc k).count = (s.pc k).count) ∧
      (t.pc k).latch = [] ∧ t.rd (K.PC_STATUS k) = 0 ∧ t.bit K.PC_OVF_CAUSE k.val = false ∧
      (∀ j : Fin 8, j ≠ k → s.bit K.PC_ENABLE j.val = false → t.pc j = s.pc j) ∧ Changes [⟨.pc k, 0, w.val + 1⟩] s t) ∧
  (∀ (s : State) (r : Fin 18) (k : Fin 8) (v : BitVec 64), s.accepts r (K.PC_PRESET k) (be 8 v.toNat) = true →
    Runs (.pcReprogram r k 3 v) s fun t =>
      (t.pc k).count = v.toNat % 2 ^ 48 ∧ (t.pc k).latch = [] ∧ t.rd (K.PC_STATUS k) = 0 ∧ t.bit K.PC_OVF_CAUSE k.val = false ∧
      (∀ j : Fin 8, j ≠ k → s.bit K.PC_ENABLE j.val = false → t.pc j = s.pc j) ∧ Changes [] s t) ∧
  (∀ (s : State) (m : Fin 19) (k : Fin 8),
    Runs (.pcLoRead m k) s fun t =>
      (∀ h : m.val < 18, (t.req ⟨m.val, h⟩).lastAnswer = be 4 ((t.pc k).count % 2 ^ 32)) ∧
      (m.val = 18 → t.mgmt.coreRead = be 4 ((t.pc k).count % 2 ^ 32)) ∧
      (t.pcTakeLatch k m).1 = some ((t.pc k).count / 2 ^ 32) ∧
      (m.val = 18 ∨ s.rd (K.PC_CFG k) % 256 ≠ 8 →
        (s.pc k).count ≤ (t.pc k).count ∧ (s.pcHidden k = false → (t.pc k).count = (s.pc k).count)) ∧
      (∀ j : Fin 8, j ≠ k → s.bit K.PC_ENABLE j.val = false → t.pc j = s.pc j) ∧ Changes [] s t) ∧
  (∀ (s : State) (m : Fin 19) (k : Fin 8),
    Runs (.pcHiRead m k) s fun t =>
      (∀ h : m.val < 18, (t.req ⟨m.val, h⟩).lastAnswer = be 2 (((s.pcTakeLatch k m).1).getD ((t.pc k).count / 2 ^ 32))) ∧
      (m.val = 18 → t.mgmt.coreRead = be 2 (((s.pcTakeLatch k m).1).getD ((t.pc k).count / 2 ^ 32))) ∧
      (t.pcTakeLatch k m).1 = none ∧
      (m.val = 18 ∨ s.rd (K.PC_CFG k) % 256 ≠ 8 →
        (s.pc k).count ≤ (t.pc k).count ∧ (s.pcHidden k = false → (t.pc k).count = (s.pc k).count)) ∧
      (∀ j : Fin 8, j ≠ k → s.bit K.PC_ENABLE j.val = false → t.pc j = s.pc j) ∧ Changes [] s t) ∧
  (∀ (s : State) (m : Fin 19) (k : Fin 8),
    Runs (.pcStatusRead m k) s fun t =>
      (∀ h : m.val < 18, (t.req ⟨m.val, h⟩).lastAnswer = be 1 (s.rd (K.PC_STATUS k))) ∧
      (m.val = 18 → t.mgmt.coreRead = be 1 (s.rd (K.PC_STATUS k))) ∧ t.bit (K.PC_STATUS k) 1 = false ∧
      (m.val = 18 ∨ s.bit K.PC_ENABLE k.val = false → ∀ j, j < 8 → j ≠ 1 → t.bit (K.PC_STATUS k) j = s.bit (K.PC_STATUS k) j) ∧
      (∀ j : Fin 8, s.bit K.PC_ENABLE j.val = false → t.pc j = s.pc j) ∧ Changes [] s t) ∧
  (∀ (s : State) (k : Fin 8) (addr : BitVec 32), s.pcHidden k = true →
    Runs (.pcOverflow k addr) s fun t =>
      (t.pc k).count = 0 ∧ t.bit (K.PC_STATUS k) 0 = true ∧ t.bit K.PC_OVF_CAUSE k.val = true ∧
      ((s.pc k).latch ≠ [] → t.bit (K.PC_STATUS k) 1 = true) ∧
      (s.bit (K.PC_CFG k) 31 = true → t.rd (K.PC_SAMPLE_ADDR k) = addr.toNat) ∧
      (s.bit (K.PC_CFG k) 30 = true → Raised t Src.PC_OVERFLOW) ∧ (∀ j, j ≠ k → t.pc j = s.pc j) ∧ Changes [] s t) ∧
  (∀ (s : State) (k : Fin 8) (addr : BitVec 32), s.pcHidden k = false → Runs (.pcOverflow k addr) s fun t => t = s)

/-- R425: record numbers start at 0 after POR and wrap at 2^32; records 0 to 255 of the first lap go to slots 0 to 255, every later
record s to slot 256 + ((s - 256) mod 2^32) mod 768, so that the fixed area is never overwritten. R426 to R429: the recorder writes the
oldest queued record, whole, into its slot, moves `EVR_HEAD` on and raises EVR_NEW, and EVR_FIXED_FULL with the 256th record of the
first lap; no other slot changes; with an empty queue nothing happens. An accepted `EVR_ACK` is kept, and re-arms the watermark when it
brings the number of records after it below `EVR_WATERMARK`. What rests on a choice or reading of the model: log entry 8. -/
def Obligations.EventRecorder : Prop :=
  (State.reset.rd K.EVR_HEAD = 0 ∧ State.reset.mgmt.firstLap = true) ∧
  (∀ (s : State) (e : Rec) (rest : List Rec) (slot : Nat), s.mgmt.recQ = e :: rest → s.rd K.EVR_HEAD < 2 ^ 32 →
    slot = (if s.mgmt.firstLap = true ∧ s.rd K.EVR_HEAD < 256 then s.rd K.EVR_HEAD
      else 256 + (s.rd K.EVR_HEAD + 2 ^ 32 - 256) % 2 ^ 32 % 768) →
    Runs .evrRecordWrite s fun t =>
      t.rd ⟨.dev, 0x9300 + slot / 128, slot % 128 + 1⟩ = State.recValue (s.rd K.EVR_HEAD) e ∧
      t.rd K.EVR_HEAD = (s.rd K.EVR_HEAD + 1) % 2 ^ 32 ∧
      t.mgmt.firstLap = (s.mgmt.firstLap && s.rd K.EVR_HEAD + 1 != 2 ^ 32) ∧ t.mgmt.recQ = rest ∧ Raised t Src.EVR_NEW ∧
      (s.mgmt.firstLap = true → s.rd K.EVR_HEAD = 255 → Raised t Src.EVR_FIXED_FULL) ∧
      Changes [⟨.dev, 0x9300 + slot / 128, slot % 128 + 1⟩, K.EVR_HEAD, K.EVR_HEAD_SLOT, K.EVR_LOST] s t) ∧
  (∀ s : State, s.mgmt.recQ = [] → Runs .evrRecordWrite s fun t => t = s) ∧
  (∀ (s : State) (r : Fin 18) (v : BitVec 32), s.accepts r K.EVR_ACK (be 4 v.toNat) = true →
    Runs (.evrAckWrite r v) s fun t =>
      t.rd K.EVR_ACK = v.toNat ∧ (t.evrAfterAck < t.rd K.EVR_WATERMARK → t.mgmt.wmArmed = true) ∧ Changes [K.EVR_ACK] s t)

/-- R431, R433: an accepted write of `IRQ_CAUSE` clears the cause bits that it holds a 1 for and no other; an accepted write of
`IRQ_SW_SET` raises the sources whose bits it sets and changes no other entry. PC_OVERFLOW may rise with the request, which the
performance counters count (R419). -/
def Obligations.InterruptTree : Prop :=
  (∀ (s : State) (r : Fin 18) (g : Fin 32) (v : BitVec 16), s.accepts r (K.IRQ_CAUSE g) (be 2 v.toNat) = true →
    Runs (.irqCauseWrite r g v) s fun t =>
      (∀ j, (⟨g, j⟩ : Src) ≠ Src.PC_OVERFLOW ∨ s.rd K.PC_ENABLE = 0 →
        (t.bit (K.IRQ_CAUSE g) j = true ↔ j < 16 ∧ s.bit (K.IRQ_CAUSE g) j = true ∧ v.toNat.testBit j = false)) ∧
      (∀ g', g' ≠ g → g' ≠ Src.PC_OVERFLOW.g ∨ s.rd K.PC_ENABLE = 0 → t.rd (K.IRQ_CAUSE g') = s.rd (K.IRQ_CAUSE g')) ∧ Changes [] s t) ∧
  (∀ (s : State) (r : Fin 18) (v : BitVec 8), s.accepts r K.IRQ_SW_SET (be 1 v.toNat) = true →
    Runs (.irqSwSet r v) s fun t =>
      (∀ i, i < 6 → v.toNat.testBit i = true → Raised t (Src.SW_IRQ i)) ∧
      (∀ g, g ≠ (Src.SW_IRQ 0).g → g ≠ Src.PC_OVERFLOW.g ∨ s.rd K.PC_ENABLE = 0 → t.rd (K.IRQ_CAUSE g) = s.rd (K.IRQ_CAUSE g)) ∧ Changes [] s t)

/-- R400, R401: PL_CHANGE_DONE: a change of level that ends takes effect, is counted and raises PL_CHG, and the level decided meanwhile
follows; PL_AUTO_RAISE: in auto mode a load above 50 % or a request that waits for more than 200 µs (351562 cc) decides PL2, at once or
after the change in progress; PL_AUTO_LOWER: a load below 15 % decides one step less, with no change in progress; elsewhere only the
load is noted. R404, R407, R487: `MGMT_MRST` of 1 requests the reset, and a pending one takes the core to PL2 and into its boot and
leaves every lane alone; so does the watchdog, with its own cause bit. R407: a master's restart steps its generation and frees its locks
and no other. R403: an SRAM error is counted, and one that is not corrected requests the reset; R419: a corrected one counts in the
enabled performance counters of its class. What rests on a choice or reading of the model: log entries 6, 8, 14, 42, 67. -/
def Obligations.CoreLevelsAndResets : Prop :=
  (∀ (s : State) (a b : Nat), s.mgmt.plChange = some (a, b) → b < 3 →
    Runs .plChangeDone s fun t =>
      t.rd K.MGMT_PL = b ∧ CountsUp s t K.MGMT_PL_CHANGES 1 ∧ Raised t Src.PL_CHG ∧
      t.mgmt.plChange = (s.mgmt.plWanted.bind fun w => if w = b then none else some (b, w)) ∧
      Changes [K.MGMT_PL, K.MGMT_PL_CHANGES] s t) ∧
  (∀ s : State, s.mgmt.plChange = none → Runs .plChangeDone s fun t => t = s) ∧
  (∀ (s : State) (load : BitVec 8), s.plAuto = true → 50 < load.toNat ∨ (∃ r, ∃ q ∈ (s.req r).queue, q.at_ + 351562 < s.now) → s.mgmt.plChange = none →
    s.rd K.MGMT_PL ≠ 2 → Runs (.plAutoRaise load) s fun t =>
      t.mgmt.plChange = some (s.rd K.MGMT_PL, 2) ∧ t.rd K.OD_CORE_LOAD = load.toNat ∧ Changes [K.OD_CORE_LOAD] s t) ∧
  (∀ (s : State) (load : BitVec 8), s.plAuto = true → 50 < load.toNat ∨ (∃ r, ∃ q ∈ (s.req r).queue, q.at_ + 351562 < s.now) → s.mgmt.plChange ≠ none →
    Runs (.plAutoRaise load) s fun t =>
      t.mgmt.plWanted = some 2 ∧ t.mgmt.plChange = s.mgmt.plChange ∧ t.rd K.OD_CORE_LOAD = load.toNat ∧
      Changes [K.OD_CORE_LOAD] s t) ∧
  (∀ (s : State) (load : BitVec 8),
    s.plAuto = false ∨ (load.toNat ≤ 50 ∧ ∀ r, ∀ q ∈ (s.req r).queue, s.now ≤ q.at_ + 351562) ∨ (s.mgmt.plChange = none ∧ s.rd K.MGMT_PL = 2) →
    Runs (.plAutoRaise load) s fun t => t.mgmt = s.mgmt ∧ t.rd K.OD_CORE_LOAD = load.toNat ∧ Changes [K.OD_CORE_LOAD] s t) ∧
  (∀ (s : State) (load : BitVec 8), s.plAuto = true → load.toNat < 15 → s.mgmt.plChange = none → s.rd K.MGMT_PL ≠ 0 →
    Runs (.plAutoLower load) s fun t =>
      t.mgmt.plChange = some (s.rd K.MGMT_PL, s.rd K.MGMT_PL - 1) ∧ t.rd K.OD_CORE_LOAD = load.toNat ∧
      Changes [K.OD_CORE_LOAD] s t) ∧
  (∀ (s : State) (load : BitVec 8), s.plAuto = false ∨ 15 ≤ load.toNat ∨ s.mgmt.plChange ≠ none ∨ s.rd K.MGMT_PL = 0 →
    Runs (.plAutoLower load) s fun t => t.mgmt = s.mgmt ∧ t.rd K.OD_CORE_LOAD = load.toNat ∧ Changes [K.OD_CORE_LOAD] s t) ∧
  (∀ (s : State) (r : Fin 18) (v : BitVec 8), s.accepts r K.MGMT_MRST (be 1 v.toNat) = true →
    Runs (.mgmtMrst r v) s fun t => (v = 1 → t.mgmt.mrstPend = true) ∧ (v ≠ 1 → SameMgmt s t) ∧ Changes [] s t) ∧
  (∀ (s : State) (r : Fin 18), s.accepts r K.MGMT_MASTER_RESTART (be 1 1) = true →
    Runs (.mgmtMasterRestart r 1) s fun t =>
      t.gen r.val = (s.gen r.val + 1) % 256 ∧ (∀ m : Fin 19, m.val ≠ r.val → t.gen m.val = s.gen m.val) ∧
      ∀ k : Fin 32, t.lockOwner k = if s.lockOwner k = r.val then 0xFF else s.lockOwner k) ∧
  (∀ s : State, s.mgmt.mrstPend = true → Runs .mrst s fun t =>
      t.rd K.MGMT_PL = 2 ∧ t.bit K.RST_CAUSE 1 = true ∧
      (s.bist.running = none → t.rd K.OD_CORE_STATE = 2 ∧ t.lanes = s.lanes ∧ t.hosts = s.hosts ∧ t.pgs = s.pgs ∧
        ∀ k : Key, k.area = some .lanes → t.rd k = s.rd k)) ∧
  (∀ s : State, s.mgmt.mrstPend = false → Runs .mrst s fun t => t = s) ∧
  (∀ s : State, s.rd K.OD_CORE_STATE ≠ 1 → s.sec.halted = false → Runs .watchdogExpiry s fun t =>
      t.rd K.MGMT_PL = 2 ∧ t.bit K.RST_CAUSE 2 = true ∧
      (s.bist.running = none → t.rd K.OD_CORE_STATE = 2 ∧ t.lanes = s.lanes ∧ t.hosts = s.hosts ∧ t.pgs = s.pgs ∧
        ∀ k : Key, k.area = some .lanes → t.rd k = s.rd k)) ∧
  (∀ (s : State) (addr : BitVec 32), Runs (.sramEccError true addr) s fun t =>
      CountsUp s t K.MGMT_SRAM_CORRECTED 1 ∧ Raised t Src.SRAM_CORRECTED ∧ t.mgmt.mrstPend = s.mgmt.mrstPend ∧
      t.rd K.MGMT_SRAM_UNCORR = s.rd K.MGMT_SRAM_UNCORR ∧
      ((∀ k : Fin 8, s.bit K.PC_ENABLE k.val = true → s.rd (K.PC_CFG k) % 256 ≠ 6) →
        t.mgmt = s.mgmt ∧ Changes [K.MGMT_SRAM_CORRECTED] s t) ∧
      ∀ k : Fin 8, s.bit K.PC_ENABLE k.val = true → s.rd (K.PC_CFG k) % 2 ^ 28 = 6 → (s.pc k).count + 1 < 2 ^ 48 →
        (t.pc k).count = (s.pc k).count + 1) ∧
  (∀ (s : State) (addr : BitVec 32), Runs (.sramEccError false addr) s fun t =>
      CountsUp s t K.MGMT_SRAM_UNCORR 1 ∧ Raised t Src.SRAM_UNCORRECTABLE ∧ t.mgmt.mrstPend = true ∧ t.mgmt.mrstEcc = true ∧
      t.mgmt.eccAddr = addr.toNat ∧ Changes [K.MGMT_SRAM_UNCORR] s t)

/-- R14, R20, R22, R24: a write of `CLK_REF_SRC` that changes it moves the root and marks every lane's latency for recalculation; a lost
root leaves LSYN held and HSYN on LSYN/180, counts and raises CLK_REF_LOSS and puts the time unit into holdover; its return ends that.
R25, R26: a write of an `RCLKO` entry squelches that output, which is released once its source lane has held frame lock for a whole
epoch. R31: `AVAIL_CLEAR` of 1 clears the four entries and starts a save; the outage in progress goes on. What rests on a choice or
reading of the model: log entries 8, 15, 16, 94. -/
def Obligations.ClockAndOutage : Prop :=
  (∀ (s : State) (r : Fin 18) (v : BitVec 8) (valid : Bool), s.accepts r K.CLK_REF_SRC (be 1 v.toNat) = true →
    Runs (.clkRefSrcWrite r v valid) s fun t =>
      t.rd K.CLK_REF_SRC = v.toNat ∧
      (v.toNat = s.rd K.CLK_REF_SRC → t.clk = s.clk ∧ t.lanes = s.lanes ∧ Changes [K.CLK_REF_SRC] s t) ∧
      (v.toNat ≠ s.rd K.CLK_REF_SRC →
        t.bit K.CLK_STATUS 5 = (v == 1) ∧ t.clk.rootValid = valid ∧ ∀ n, (t.lane n).cfgPend = true)) ∧
  (∀ s : State, s.clk.rootValid = true → s.clk.lsynRuns = true → Runs .rootLost s fun t =>
      t.clk.rootValid = false ∧ t.bit K.CLK_STATUS 0 = false ∧ t.bit K.CLK_STATUS 1 = true ∧ t.bit K.CLK_STATUS 2 = false ∧
      t.bit K.CLK_STATUS 3 = true ∧ t.bit K.CLK_STATUS 4 = true ∧ CountsUp s t K.CLK_REF_LOSS_COUNT 1 ∧
      Raised t Src.CLK_REF_LOSS ∧ t.bit K.TIME_STATUS 3 = true ∧ t.bit K.TIME_STATUS 4 = true ∧ t.time.slew = 0 ∧
      Changes [K.CLK_STATUS, K.CLK_REF_LOSS_COUNT, K.TIME_STATUS] s t) ∧
  (∀ s : State, s.clk.rootValid = true → s.clk.lsynRuns = false → Runs .rootLost s fun t =>
      t.clk.rootValid = false ∧ t.bit K.CLK_STATUS 2 = false ∧ Changes [K.CLK_STATUS] s t) ∧
  (∀ s : State, s.clk.rootValid = false → Runs .rootLost s fun t => t = s) ∧
  (∀ s : State, s.clk.rootValid = false → Runs .rootRestored s fun t =>
      t.clk.rootValid = true ∧ t.bit K.CLK_STATUS 2 = true ∧ Changes [K.CLK_STATUS, K.TIME_STATUS] s t ∧
      (s.bit K.CLK_STATUS 3 = true → t.bit K.CLK_STATUS 3 = false ∧ t.bit K.CLK_STATUS 4 = false ∧ t.bit K.CLK_STATUS 0 = true ∧
        Raised t Src.CLK_REF_RESTORED ∧ t.bit K.TIME_STATUS 4 = false ∧
        (s.rd K.TIME_DISC_SRC = 0 → t.bit K.TIME_STATUS 3 = false))) ∧
  (∀ s : State, s.clk.rootValid = true → Runs .rootRestored s fun t => t = s) ∧
  (∀ (s : State) (r : Fin 18) (q : Fin 2) (v : BitVec 16), s.accepts r (State.rclkoKey q) (be 2 v.toNat) = true →
    Runs (.rclkoCfgWrite r q v) s fun t =>
      t.rd (State.rclkoKey q) = v.toNat ∧ t.clk.squelched.get q = true ∧
      (∀ p, p ≠ q → t.clk.squelched.get p = s.clk.squelched.get p) ∧ Changes [State.rclkoKey q] s t) ∧
  (∀ (s : State) (q : Fin 2) (n : Fin 16), s.rclkoLane q = n.val → (s.lane n).heldEpoch = true →
    Runs (.rclkoRelease q) s fun t =>
      t.clk.squelched.get q = false ∧ (∀ p, p ≠ q → t.clk.squelched.get p = s.clk.squelched.get p) ∧ ∀ x, t.rd x = s.rd x) ∧
  (∀ (s : State) (q : Fin 2) (n : Fin 16), s.rclkoLane q = n.val → (s.lane n).heldEpoch = false →
    Runs (.rclkoRelease q) s fun t => t = s) ∧
  (∀ (s : State) (r : Fin 18), s.accepts r K.AVAIL_CLEAR (be 1 1) = true →
    Runs (.availClear r 1) s fun t =>
      (∀ k ∈ [K.AVAIL_OUTAGE_US, K.AVAIL_CNT_LINE, K.AVAIL_CNT_POWER, K.AVAIL_CNT_TRIP], t.rd k = 0) ∧ t.od.saving = true ∧
      t.clk = s.clk ∧ Changes [K.AVAIL_OUTAGE_US, K.AVAIL_CNT_LINE, K.AVAIL_CNT_POWER, K.AVAIL_CNT_TRIP] s t) ∧
  (∀ (s : State) (r : Fin 18), s.accepts r K.AVAIL_CLEAR (be 1 0) = true →
    Runs (.availClear r 0) s fun t => t.clk = s.clk ∧ t.od.saving = s.od.saving ∧ Changes [] s t)

/-- R279: `TIME_SET` arms, replaces or cancels the pending set, `TIME_STEP` adds to the pending step, `TIME_RATE_ADJ` is kept; none
moves the counter. R280, R281, R293: a gauge tick applies the sum of the pending steps, takes a change of source and the new rate. R283:
an edge of SYNC_IN is stamped, or takes the pending set; 1.5 s without one raises SYNC_IN_FAULT once. R282: SYNC_OUT rises where the
counter reaches the whole second plus its offset, unless its width is 0, the counter stands, the second was stepped across or two pulses
would come too close, and falls when its width has passed. R293: a new source waits for the tick. What rests on a choice or reading of
the model: log entries 8, 17. -/
def Obligations.TimeUnit : Prop :=
  (∀ (s : State) (r : Fin 18) (v : BitVec 96), s.accepts r K.TIME_SET (be 12 v.toNat) = true →
    Runs (.timeSet r v) s fun t =>
      t.time.pendSet = (if field v.toNat 47 16 = 0xFFFFFFFF then none else some v.toNat) ∧
      t.bit K.TIME_STATUS 9 = (field v.toNat 47 16 != 0xFFFFFFFF) ∧ t.time.counter = s.time.counter ∧ Changes [K.TIME_STATUS] s t) ∧
  (∀ (s : State) (r : Fin 18) (v : BitVec 64), s.accepts r K.TIME_STEP (be 8 v.toNat) = true →
    Runs (.timeStep r v) s fun t =>
      t.time.pendHost = s.time.pendHost + v.toInt ∧ t.time.counter = s.time.counter ∧
      t.bit K.TIME_STATUS 8 = (t.time.pendHost != 0 || s.time.pendServo != 0) ∧ Changes [K.TIME_STATUS] s t) ∧
  (∀ (s : State) (r : Fin 18) (v : BitVec 32), s.accepts r K.TIME_RATE_ADJ (be 4 v.toNat) = true →
    Runs (.timeRateAdj r v) s fun t => t.rd K.TIME_RATE_ADJ = v.toNat ∧ t.time = s.time ∧ Changes [K.TIME_RATE_ADJ] s t) ∧
  (∀ s : State, s.running = true → (∀ g ∈ s.od.waiting, g.bound ≠ .tick) → Runs .timeAdjApply s fun t =>
      t.time.pendHost = 0 ∧ t.time.pendServo = 0 ∧ t.bit K.TIME_STATUS 8 = false ∧ t.time.srcChange = false ∧
      t.time.rate = t.timeRate ∧
      (s.time.pendHost + s.time.pendServo = 0 → t.time.counter = s.time.counter ∧ t.rd K.TIME_GEN = s.rd K.TIME_GEN) ∧
      (s.time.pendHost + s.time.pendServo ≠ 0 →
        t.time.counter = counterAdd s.time.counter ((s.time.pendHost + s.time.pendServo) * 2 ^ 24) ∧
        t.rd K.TIME_GEN = (s.rd K.TIME_GEN + 1) % 2 ^ 32 ∧ Raised t Src.TIME_STEP_DONE)) ∧
  (∀ s : State, s.running = false → Runs .timeAdjApply s fun t => t = s) ∧
  (∀ (s : State) (j : Fin 16) (tick : Bool), s.on K.SYNC_IN_EN = true → s.running = true → s.time.pendSet = none →
    let stamp := counterAdd s.time.counter (State.subCc j.val)
    Runs (.syncInEdge j tick) s fun t =>
      t.rd K.SYNC_IN_STAMP = time96 stamp ∧ t.rd K.SYNC_IN_SEQ = (s.rd K.SYNC_IN_SEQ + 1) % 2 ^ 32 ∧
      t.rd K.SYNC_IN_VALID = (s.edgeValid stamp).toNat ∧ Raised t Src.SYNC_IN_EDGE ∧ t.time.counter = s.time.counter ∧
      (s.edgeValid stamp = false → CountsUp s t K.SYNC_IN_FAULTS 1 ∧ Raised t Src.SYNC_IN_FAULT)) ∧
  (∀ (s : State) (j : Fin 16) (tick : Bool) (v : Nat), s.on K.SYNC_IN_EN = true → s.running = true → s.time.pendSet = some v →
    Runs (.syncInEdge j tick) s fun t =>
      t.time.pendSet = none ∧ t.bit K.TIME_STATUS 9 = false ∧ t.bit K.TIME_STATUS 1 = true ∧
      t.rd K.TIME_GEN = (s.rd K.TIME_GEN + 1) % 2 ^ 32 ∧ Raised t Src.TIME_SET_DONE ∧
      (tick = true → s.time.pendHost ≠ 0 → t.time.pendHost = 0 ∧ CountsUp s t K.TIME_ADJ_DISCARDED 1)) ∧
  (∀ (s : State) (j : Fin 16) (tick : Bool), s.on K.SYNC_IN_EN = false ∨ s.running = false →
    Runs (.syncInEdge j tick) s fun t => t = s) ∧
  (∀ s : State, s.on K.SYNC_IN_EN = true → s.running = true → s.time.silenceTold = false → Runs .syncInSilence s fun t =>
      t.time.silenceTold = true ∧ Raised t Src.SYNC_IN_FAULT ∧ Changes [] s t) ∧
  (∀ s : State, s.time.silenceTold = true → Runs .syncInSilence s fun t => t = s) ∧
  (∀ s : State, s.running = true → s.rd K.SYNC_OUT_WIDTH ≠ 0 → s.reachesSecond = true → s.pulseNear = false →
    s.time.outSkip ≠ some s.pulseSecond → Runs .syncOutPulse s fun t =>
      t.time.outHigh = true ∧ t.time.lastPulse = some s.now ∧ t.time.outWidth = s.rd K.SYNC_OUT_WIDTH ∧
      t.time.outSub = s.toSecond / State.subCc 1 ∧ ∀ x, t.rd x = s.rd x) ∧
  (∀ s : State, s.running = false ∨ s.rd K.SYNC_OUT_WIDTH = 0 ∨ s.reachesSecond = false ∨ s.pulseNear = true ∨
    s.time.outSkip = some s.pulseSecond → Runs .syncOutPulse s fun t => t = s) ∧
  (∀ (s : State) (c : Nat), s.time.lastPulse = some c → 225 * s.time.outWidth ≤ 128 * (s.now - c) → Runs .syncOutPulseEnd s fun t =>
      t.time.outHigh = false ∧ t.time = { s.time with outHigh := false } ∧ ∀ x, t.rd x = s.rd x) ∧
  (∀ s : State, s.time.lastPulse = none ∨ (∃ c, s.time.lastPulse = some c ∧ 128 * (s.now - c) < 225 * s.time.outWidth) →
    Runs .syncOutPulseEnd s fun t => t = s) ∧
  (∀ (s : State) (r : Fin 18) (v : BitVec 8), s.accepts r K.TIME_DISC_SRC (be 1 v.toNat) = true →
    Runs (.timeDiscSrcWrite r false v) s fun t =>
      t.rd K.TIME_DISC_SRC = v.toNat ∧ t.time.srcChange = (s.time.srcChange || v.toNat != s.rd K.TIME_DISC_SRC) ∧
      Changes [K.TIME_DISC_SRC] s t) ∧
  (∀ (s : State) (r : Fin 18) (v : BitVec 8), s.accepts r K.TIME_LINE_LANE (be 1 v.toNat) = true →
    Runs (.timeDiscSrcWrite r true v) s fun t =>
      t.rd K.TIME_LINE_LANE = v.toNat ∧
      t.time.srcChange = (s.time.srcChange || (v.toNat != s.rd K.TIME_LINE_LANE && s.rd K.TIME_DISC_SRC == 3)) ∧
      Changes [K.TIME_LINE_LANE] s t)

/-- R39: AGC_GAIN_STEP: in tracking the gain moves by one toward `LINE_AGC_TARGET`, at most once in 65,536 cc and not past 0 and 60, and
every tap is scaled by the inverse of the gain change. R43 to R46, R57: ADAPT_UPDATE counts the clipped codes, shows the readings of
timing recovery, whose integrator stands under loss of signal, under CDR_FRZ and before acquisition; a lane whose adaptation has not
started keeps its coefficients, and the gain moves in acquisition alone. R58, R59: a write of `LINE_ADAPT_CTRL` keeps its low byte, and
RESTART in C4 to C7 waits for the codeword boundary. R61: a guard trip restores the fallback, or cold-start coefficients, freezes the
stage, counts and raises RX_ADAPT_ALARM. R63: `LINE_FFE_SNAP` of 1 has the next codeword boundary take a snapshot. What rests on a
choice or reading of the model: log entries 8, 12, 74, 75, 76, 77, 97. -/
def Obligations.LineAdaptation : Prop :=
  (∀ (s : State) (n : Fin 16), s.on (K.LINE_AGC_EN n) = true → (s.lane n).adapt = 2 → s.frzAgc n = false →
    (∀ c, (s.lane n).agcAt = some c → c + 65536 ≤ s.now) →
    (s.lane n).power.2 < (s.lane n).power.1 * (s.rd (K.LINE_AGC_TARGET n) * 2 ^ 23) ^ 2 →
    s.rd (K.LINE_VGA_GAIN n) < 60 → Runs (.agcGainStep n) s fun t =>
      t.rd (K.LINE_VGA_GAIN n) = s.rd (K.LINE_VGA_GAIN n) + 1 ∧ (t.lane n).agcAt = some s.now ∧
      (t.lane n).coef.acc = ((s.lane n).coef.acc.map fun v => clampI (-8388608) 8388607 (divOpen (v * 9716) 10000)) ∧
      (∀ m, m ≠ n → t.lane m = s.lane m) ∧ Changes [K.LINE_VGA_GAIN n] s t) ∧
  (∀ (s : State) (n : Fin 16), s.on (K.LINE_AGC_EN n) = true → (s.lane n).adapt = 2 → s.frzAgc n = false →
    (∀ c, (s.lane n).agcAt = some c → c + 65536 ≤ s.now) → (s.lane n).power.1 ≠ 0 →
    (s.lane n).power.1 * (s.rd (K.LINE_AGC_TARGET n) * 2 ^ 23) ^ 2 < (s.lane n).power.2 →
    0 < s.rd (K.LINE_VGA_GAIN n) → s.rd (K.LINE_VGA_GAIN n) ≤ 60 → Runs (.agcGainStep n) s fun t =>
      t.rd (K.LINE_VGA_GAIN n) = s.rd (K.LINE_VGA_GAIN n) - 1 ∧ (t.lane n).agcAt = some s.now ∧
      (t.lane n).coef.acc = ((s.lane n).coef.acc.map fun v => clampI (-8388608) 8388607 (divOpen (v * 10000) 9716)) ∧
      (∀ m, m ≠ n → t.lane m = s.lane m) ∧ Changes [K.LINE_VGA_GAIN n] s t) ∧
  (∀ (s : State) (n : Fin 16),
    s.on (K.LINE_AGC_EN n) = false ∨ (s.lane n).adapt ≠ 2 ∨ s.frzAgc n = true ∨ (s.lane n).power.1 = 0 ∨
      (∃ c, (s.lane n).agcAt = some c ∧ s.now < c + 65536) ∨
      (s.lane n).power.2 = (s.lane n).power.1 * (s.rd (K.LINE_AGC_TARGET n) * 2 ^ 23) ^ 2 ∨
      (s.rd (K.LINE_VGA_GAIN n) = 60 ∧ (s.lane n).power.2 < (s.lane n).power.1 * (s.rd (K.LINE_AGC_TARGET n) * 2 ^ 23) ^ 2) ∨
      (s.rd (K.LINE_VGA_GAIN n) = 0 ∧ (s.lane n).power.1 * (s.rd (K.LINE_AGC_TARGET n) * 2 ^ 23) ^ 2 < (s.lane n).power.2) →
    Runs (.agcGainStep n) s fun t => t = s) ∧
  (∀ (s : State) (n : Fin 16) (cc : List (List (BitVec 8))), Runs (.adaptUpdate n cc) s fun t =>
      CountsUp s t (K.LINE_ADC_CLIP n) (cc.flatten.filter clipped).length ∧
      t.rdI (K.LINE_CDR_FREQ n) = cdrFreq (t.lane n).rx ∧ t.rd (K.LINE_CDR_PHASE n) = cdrPhase (t.lane n).rx ∧
      (s.losOn n = true ∨ s.adaptCtrl n 0 = true ∨ (s.lane n).adapt = 0 → (t.lane n).rx.integ = (s.lane n).rx.integ) ∧
      ((s.lane n).adapt = 0 → (t.lane n).rx.phase = (s.lane n).rx.phase ∧ (t.lane n).coef.lut = (s.lane n).coef.lut ∧
        (t.lane n).coef.h1 = (s.lane n).coef.h1 ∧ (t.lane n).coef.h2 = (s.lane n).coef.h2 ∧
        (t.lane n).coef.b = (s.lane n).coef.b) ∧
      (s.on (K.LINE_AGC_EN n) = false ∨ (s.lane n).adapt ≠ 1 → t.rd (K.LINE_VGA_GAIN n) = s.rd (K.LINE_VGA_GAIN n)) ∧
      (∀ m, m ≠ n → t.lane m = s.lane m) ∧
      Changes [K.LINE_ADC_CLIP n, K.LINE_SLICER_DIFF n, K.LINE_CDR_PHASE n, K.LINE_CDR_FREQ n, K.LINE_VGA_GAIN n] s t) ∧
  (∀ (s : State) (r : Fin 18) (n : Fin 16) (v : BitVec 16), s.accepts r (K.LINE_ADAPT_CTRL n) (be 2 v.toNat) = true →
    Runs (.adaptRestart r n v) s fun t =>
      t.rd (K.LINE_ADAPT_CTRL n) = v.toNat % 256 ∧
      (v.toNat.testBit 8 = true → 4 ≤ s.phase n → (t.lane n).restartPend = true) ∧
      (v.toNat.testBit 8 = false → (t.lane n).restartPend = (s.lane n).restartPend) ∧
      (t.lane n).coef = (s.lane n).coef ∧ (∀ m, m ≠ n → t.lane m = s.lane m) ∧ Changes [K.LINE_ADAPT_CTRL n] s t) ∧
  (∀ (s : State) (n : Fin 16), s.adaptCtrl n 6 = true → 64 ≤ (s.lane n).satFfe ∨ 64 ≤ (s.lane n).satMlse →
    Runs (.guardTrip n) s fun t =>
      (t.lane n).coef = s.holdTaps n { (s.lane n).fallback.getD (s.coldCoef n) with b := (s.lane n).coef.b } ∧
      (t.lane n).guardTripped = true ∧
      (64 ≤ (s.lane n).satFfe → (t.lane n).tripFfe = true) ∧ (64 ≤ (s.lane n).satMlse → (t.lane n).tripMlse = true) ∧
      CountsUp s t (K.LINE_GUARD_TRIPS n) 1 ∧ Raised t (Src.RX_ADAPT_ALARM n) ∧
      t.rd (K.LINE_FFE_SNAP_SEQ n) = (s.rd (K.LINE_FFE_SNAP_SEQ n) + 1) % 2 ^ 32 ∧ ∀ m, m ≠ n → t.lane m = s.lane m) ∧
  (∀ (s : State) (n : Fin 16), s.adaptCtrl n 6 = false ∨ (s.lane n).satFfe < 64 ∧ (s.lane n).satMlse < 64 →
    Runs (.guardTrip n) s fun t => t = s) ∧
  (∀ (s : State) (r : Fin 18) (n : Fin 16), s.accepts r (K.LINE_FFE_SNAP n) (be 1 1) = true →
    Runs (.lineFfeSnap r n 1) s fun t =>
      (t.lane n).snapPend = true ∧ (t.lane n).coef = (s.lane n).coef ∧ (∀ m, m ≠ n → t.lane m = s.lane m) ∧ Changes [] s t) ∧
  (∀ (s : State) (r : Fin 18) (n : Fin 16), s.accepts r (K.LINE_FFE_SNAP n) (be 1 0) = true →
    Runs (.lineFfeSnap r n 0) s fun t => t.lanes = s.lanes ∧ Changes [] s t)

/-- R65: `LINE_LQM_CLEAR` of 1 zeroes the running totals and leaves the results. R67 to R69: `LINE_SWATCH_ARM` of 1 discards the capture
and arms; an event of the selected source, once the part before the trigger is stored, moves an armed capture to triggered and notes the
time (source 0 at arming); the samples after the trigger complete it, oldest sample first, and raise SWATCH_DONE. R40, R46: loss of
signal sets the status and holds the clock recovery, takes codeword and frame lock with it and raises LINE_LOS, unless the threshold is
0 or the lane has no power (R483); its end clears both. R38, R58: the acquisition's end leads to tracking or the CTLE search, whose
reads move the peaking by one until one in the window or at the range's end ends it, or `LINE_CTLE_ADAPT` of 0 does. After these the
conversation follows the lane (R212, R216). What rests on a choice or reading of the model: log entries 8, 79, 80, 95, 96, 98. -/
def Obligations.LineReceiveMonitors : Prop :=
  (∀ (s : State) (r : Fin 18) (n : Fin 16), s.accepts r (K.LINE_LQM_CLEAR n) (be 1 1) = true →
    Runs (.lineLqmClear r n 1) s fun t =>
      (t.lane n).levels = Vector.replicate 4 {} ∧ (t.lane n).hist = 0 ∧ (t.lane n).lqmEpochs = 0 ∧
      (∀ m, m ≠ n → t.lane m = s.lane m) ∧ Changes [] s t) ∧
  (∀ (s : State) (r : Fin 18) (n : Fin 16), s.accepts r (K.LINE_SWATCH_ARM n) (be 1 1) = true →
    Runs (.lineSwatchArm r n 1) s fun t =>
      t.rd (K.LINE_SWATCH_DATA n) = 0 ∧ t.rd (K.LINE_SWATCH_SUBST_COUNT n) = 0 ∧
      t.rd (K.LINE_SWATCH_STATUS n) = (if s.rd (K.LINE_SWATCH_TRIGGER n) = 0 then 2 else 1) ∧
      t.rd (K.LINE_SWATCH_TRIG_TIME n) = (if s.rd (K.LINE_SWATCH_TRIGGER n) = 0 then s.timeNow else 0) ∧
      (t.lane n).swatch.ring = [] ∧ (t.lane n).swatch.stored = 0 ∧ (t.lane n).swatch.post = 0 ∧ (∀ m, m ≠ n → t.lane m = s.lane m) ∧
      Changes [K.LINE_SWATCH_DATA n, K.LINE_SWATCH_SUBST_COUNT n, K.LINE_SWATCH_STATUS n, K.LINE_SWATCH_TRIG_TIME n,
        K.LINE_SWATCH_SUBST_INDEX n] s t) ∧
  (∀ (s : State) (n : Fin 16) (src : Fin 6), s.rd (K.LINE_SWATCH_STATUS n) = 1 → s.rd (K.LINE_SWATCH_TRIGGER n) = src.val →
    src.val = 0 ∨ s.rd (K.LINE_SWATCH_PRE n) * 4096 ≤ (s.lane n).swatch.stored → Runs (.swatchTrigger n src) s fun t =>
      t.rd (K.LINE_SWATCH_STATUS n) = 2 ∧ t.rd (K.LINE_SWATCH_TRIG_TIME n) = s.timeNow ∧ t.lanes = s.lanes ∧
      Changes [K.LINE_SWATCH_STATUS n, K.LINE_SWATCH_TRIG_TIME n] s t) ∧
  (∀ (s : State) (n : Fin 16) (src : Fin 6),
    s.rd (K.LINE_SWATCH_STATUS n) ≠ 1 ∨ s.rd (K.LINE_SWATCH_TRIGGER n) ≠ src.val ∨
      (src.val ≠ 0 ∧ (s.lane n).swatch.stored < s.rd (K.LINE_SWATCH_PRE n) * 4096) →
    Runs (.swatchTrigger n src) s fun t => t = s) ∧
  (∀ (s : State) (n : Fin 16), s.rd (K.LINE_SWATCH_STATUS n) = 2 →
    (16 - (if s.rd (K.LINE_SWATCH_TRIGGER n) = 0 then 0 else s.rd (K.LINE_SWATCH_PRE n))) * 4096 ≤ (s.lane n).swatch.post →
    Runs (.swatchComplete n) s fun t =>
      t.rd (K.LINE_SWATCH_STATUS n) = 3 ∧ t.rd (K.LINE_SWATCH_DATA n) = beNat (s.lane n).swatch.ring.reverse % 2 ^ bitsOf (K.LINE_SWATCH_DATA n) ∧
      ((s.lane n).swatch.substs = [] → t.rd (K.LINE_SWATCH_SUBST_INDEX n) = 0xFFFFFFFF) ∧ Raised t (Src.SWATCH_DONE n) ∧
      t.lanes = s.lanes ∧ Changes [K.LINE_SWATCH_STATUS n, K.LINE_SWATCH_SUBST_INDEX n, K.LINE_SWATCH_DATA n] s t) ∧
  (∀ (s : State) (n : Fin 16),
    s.rd (K.LINE_SWATCH_STATUS n) ≠ 2 ∨
      (s.lane n).swatch.post < (16 - (if s.rd (K.LINE_SWATCH_TRIGGER n) = 0 then 0 else s.rd (K.LINE_SWATCH_PRE n))) * 4096 →
    Runs (.swatchComplete n) s fun t => t = s) ∧
  (∀ (s : State) (n : Fin 16), s.rd (K.LINE_LOS_THR n) ≠ 0 → s.losOn n = false → s.clamped (laneUnit n) = false → Runs (.lineLosSet n) s fun t =>
      ∃ u, t = s.coFollow n (fun _ => u) ∧ u.rd (K.LINE_LOS_STATUS n) = 1 ∧ u.rd (K.LINE_CDR_HOLD n) = 1 ∧
        Raised u (Src.LINE_LOS n) ∧ (s.cwState n = 3 → u.cwState n = 1 ∧ u.frameLock n = false ∧ u.epochLock n = false)) ∧
  (∀ (s : State) (n : Fin 16), s.rd (K.LINE_LOS_THR n) = 0 ∨ s.losOn n = true ∨ s.clamped (laneUnit n) = true → Runs (.lineLosSet n) s fun t =>
      t = s.coFollow n fun _ => s) ∧
  (∀ (s : State) (n : Fin 16), Runs (.lineLosClear n) s fun t =>
      ∃ u, t = s.coFollow n (fun _ => u) ∧ u.rd (K.LINE_LOS_STATUS n) = 0 ∧ u.rd (K.LINE_CDR_HOLD n) = 0 ∧ u.now = s.now) ∧
  (∀ (s : State) (n : Fin 16), (s.lane n).adapt = 1 → (s.lane n).ctleSearch = none →
    s.on (K.LINE_CTLE_ADAPT n) = false → Runs (.acquisitionEnd n) s fun t =>
      ∃ u, t = State.coSettle u n ∧ (u.lane n).adapt = 2 ∧ (u.lane n).ctleSearch = none ∧ Changes [] s u) ∧
  (∀ (s : State) (n : Fin 16), (s.lane n).adapt = 1 → (s.lane n).ctleSearch = none →
    s.on (K.LINE_CTLE_ADAPT n) = true → 7 * 1024 < 20 * (s.firstPost n).natAbs → (s.lane n).ctleNow < 28 →
    Runs (.acquisitionEnd n) s fun t =>
      ∃ u, t = State.coSettle u n ∧ (u.lane n).adapt = 1 ∧ (u.lane n).ctleSearch = some 1 ∧
        (u.lane n).ctleNow = (s.lane n).ctleNow + 1 ∧ Changes [] s u) ∧
  (∀ (s : State) (n : Fin 16), (s.lane n).adapt = 1 → (s.lane n).ctleSearch = none →
    s.on (K.LINE_CTLE_ADAPT n) = true → 20 * (s.firstPost n).natAbs < 3 * 1024 → 0 < (s.lane n).ctleNow → Runs (.acquisitionEnd n) s fun t =>
      ∃ u, t = State.coSettle u n ∧ (u.lane n).adapt = 1 ∧ (u.lane n).ctleSearch = some 1 ∧
        (u.lane n).ctleNow = (s.lane n).ctleNow - 1 ∧ Changes [] s u) ∧
  (∀ (s : State) (n : Fin 16) (c : Instr),
    c = .acquisitionEnd n ∧ (s.lane n).adapt = 1 ∧ (s.lane n).ctleSearch = none ∨ c = .ctleSearchStep n ∧ (s.lane n).ctleSearch ≠ none →
    s.on (K.LINE_CTLE_ADAPT n) = true →
    (3 * 1024 ≤ 20 * (s.firstPost n).natAbs ∧ 20 * (s.firstPost n).natAbs ≤ 7 * 1024) ∨
      (7 * 1024 < 20 * (s.firstPost n).natAbs ∧ 28 ≤ (s.lane n).ctleNow) ∨ (20 * (s.firstPost n).natAbs < 3 * 1024 ∧ (s.lane n).ctleNow = 0) →
    Runs c s fun t =>
      ∃ u, t = State.coSettle u n ∧ u.rd (K.LINE_CTLE_PEAK n) = (s.lane n).ctleNow % 2 ^ bitsOf (K.LINE_CTLE_PEAK n) ∧
        (u.lane n).ctleSearch = none ∧ (u.lane n).adapt = 2 ∧ Changes [K.LINE_CTLE_PEAK n] s u) ∧
  (∀ (s : State) (n : Fin 16), (s.lane n).adapt ≠ 1 ∨ (s.lane n).ctleSearch ≠ none →
    Runs (.acquisitionEnd n) s fun t => t = s.coSettle n) ∧
  (∀ (s : State) (n : Fin 16) (k : Nat), (s.lane n).ctleSearch = some k → s.on (K.LINE_CTLE_ADAPT n) = true → k < 28 → 7 * 1024 < 20 * (s.firstPost n).natAbs →
    (s.lane n).ctleNow < 28 → Runs (.ctleSearchStep n) s fun t =>
      ∃ u, t = State.coSettle u n ∧ (u.lane n).ctleNow = (s.lane n).ctleNow + 1 ∧ (u.lane n).ctleSearch = some (k + 1) ∧
        Changes [] s u) ∧
  (∀ (s : State) (n : Fin 16) (k : Nat), (s.lane n).ctleSearch = some k → s.on (K.LINE_CTLE_ADAPT n) = true → k < 28 → 20 * (s.firstPost n).natAbs < 3 * 1024 →
    0 < (s.lane n).ctleNow → Runs (.ctleSearchStep n) s fun t =>
      ∃ u, t = State.coSettle u n ∧ (u.lane n).ctleNow = (s.lane n).ctleNow - 1 ∧ (u.lane n).ctleSearch = some (k + 1) ∧
        Changes [] s u) ∧
  (∀ (s : State) (n : Fin 16) (k : Nat), (s.lane n).ctleSearch = some k → s.on (K.LINE_CTLE_ADAPT n) = false ∨ 28 ≤ k →
    Runs (.ctleSearchStep n) s fun t =>
      ∃ u, t = State.coSettle u n ∧ u.rd (K.LINE_CTLE_PEAK n) = (s.lane n).ctleNow % 2 ^ bitsOf (K.LINE_CTLE_PEAK n) ∧
        (u.lane n).ctleSearch = none ∧ (u.lane n).adapt = 2 ∧ Changes [K.LINE_CTLE_PEAK n] s u) ∧
  (∀ (s : State) (n : Fin 16), (s.lane n).ctleSearch = none → Runs (.ctleSearchStep n) s fun t => t = s.coSettle n)

/-- R37, R92, R151: a drive, a host amplitude or the peaking moves by one step toward the value written. R91, R92: the output stage
modulates 1,024 cc after it was enabled in idle and nothing holds it, is disabled when that is what the entries ask, and comes out of
disabled into idle in the mode written; in any other case the end of those 1,024 cc changes nothing. In SCRAPPED it is disabled (R452).
A change of the stage brings the count of injected bytes up to it (R127). R93: a leg outside its compliance window sets COMPLIANCE and
raises TX_FAULT; its return clears the bit; of a lane without power neither is seen (R483). What rests on a choice or reading of the
model: log entries 8, 86. -/
def Obligations.LineTransmitStage : Prop :=
  (∀ (s : State) (n : Fin 16), (s.lane n).ctleSearch = none → Runs (.ctleRampStep n .ctle) s fun t =>
      (t.lane n).ctleNow = (if (s.lane n).ctleNow < s.rd (K.LINE_CTLE_PEAK n) then (s.lane n).ctleNow + 1
        else if s.rd (K.LINE_CTLE_PEAK n) < (s.lane n).ctleNow then (s.lane n).ctleNow - 1 else (s.lane n).ctleNow) ∧
      (∀ m, m ≠ n → t.lane m = s.lane m) ∧ ∀ x, t.rd x = s.rd x) ∧
  (∀ (s : State) (n : Fin 16), (s.lane n).ctleSearch ≠ none → Runs (.ctleRampStep n .ctle) s fun t =>
      t.lanes = s.lanes ∧ ∀ x, t.rd x = s.rd x) ∧
  (∀ (s : State) (n : Fin 16), Runs (.ctleRampStep n .swing) s fun t =>
      (t.lane n).swingNow = (if (s.lane n).swingNow < s.rd (K.LINE_TX_SWING n) then (s.lane n).swingNow + 1
        else if s.rd (K.LINE_TX_SWING n) < (s.lane n).swingNow then (s.lane n).swingNow - 1 else (s.lane n).swingNow) ∧
      (∀ m, m ≠ n → t.lane m = s.lane m) ∧ ∀ x, t.rd x = s.rd x) ∧
  (∀ (s : State) (n : Fin 16), Runs (.ctleRampStep n .ifs) s fun t =>
      (t.lane n).ifsNow = (if (s.lane n).ifsNow < s.rd (K.LINE_TX_IFS n) then (s.lane n).ifsNow + 1
        else if s.rd (K.LINE_TX_IFS n) < (s.lane n).ifsNow then (s.lane n).ifsNow - 1 else (s.lane n).ifsNow) ∧
      (∀ m, m ≠ n → t.lane m = s.lane m) ∧ ∀ x, t.rd x = s.rd x) ∧
  (∀ (s : State) (n : Fin 16) (w : Ramp) (m : Fin 32), w = .ampA ∧ m = hostA n ∨ w = .ampB ∧ m = hostB n →
    Runs (.ctleRampStep n w) s fun t =>
      (t.host m).ampNow = (if (s.host m).ampNow < s.rd (K.HOST_TX_AMP m) then (s.host m).ampNow + 1
        else if s.rd (K.HOST_TX_AMP m) < (s.host m).ampNow then (s.host m).ampNow - 1 else (s.host m).ampNow) ∧
      (∀ p, p ≠ m → t.host p = s.host p) ∧ t.lanes = s.lanes ∧ ∀ x, t.rd x = s.rd x) ∧
  (∀ (s : State) (n : Fin 16), (s.lane n).out = .idle → (s.lane n).outOff = false → s.on (K.LINE_TX_OUT_EN n) = true →
    (s.lane n).outMode = s.rd (K.LINE_TX_OUT_MODE n) → s.bit (K.LINE_TX_FAULT n) 2 = false → (s.lane n).laneReset = false →
    s.sec.lc ≠ .scrapped → Runs (.outputStageStep n) s fun t =>
      (t.lane n).out = .modulating ∧ (∀ m, m ≠ n → t.lane m = s.lane m) ∧ Changes [K.LINE_FEC_INJ_COUNT n] s t) ∧
  (∀ (s : State) (n : Fin 16), (s.lane n).out = .idle → (s.lane n).outOff = false → s.on (K.LINE_TX_OUT_EN n) = true →
    (s.lane n).outMode = s.rd (K.LINE_TX_OUT_MODE n) → s.bit (K.LINE_TX_FAULT n) 2 = true ∨ (s.lane n).laneReset = true →
    s.sec.lc ≠ .scrapped → Runs (.outputStageStep n) s fun t => t = s) ∧
  (∀ (s : State) (n : Fin 16), (s.lane n).out = .idle →
    (s.lane n).outOff = true ∨ s.on (K.LINE_TX_OUT_EN n) = false ∨ (s.lane n).outMode ≠ s.rd (K.LINE_TX_OUT_MODE n) ∨
      s.sec.lc = .scrapped → Runs (.outputStageStep n) s fun t =>
      (t.lane n).out = .disabled ∧ (∀ m, m ≠ n → t.lane m = s.lane m) ∧ Changes [K.LINE_FEC_INJ_COUNT n] s t) ∧
  (∀ (s : State) (n : Fin 16), (s.lane n).out = .disabled → (s.lane n).outOff = false → s.on (K.LINE_TX_OUT_EN n) = true →
    s.sec.lc ≠ .scrapped → Runs (.outputStageStep n) s fun t =>
      (t.lane n).out = .idle ∧ (t.lane n).outMode = s.rd (K.LINE_TX_OUT_MODE n) ∧ (∀ m, m ≠ n → t.lane m = s.lane m) ∧
      Changes [K.LINE_FEC_INJ_COUNT n] s t) ∧
  (∀ (s : State) (n : Fin 16), (s.lane n).out = .modulating ∨
      (s.lane n).out = .disabled ∧ ((s.lane n).outOff = true ∨ s.on (K.LINE_TX_OUT_EN n) = false ∨ s.sec.lc = .scrapped) →
    Runs (.outputStageStep n) s fun t => t = s) ∧
  (∀ (s : State) (n : Fin 16), s.clamped (laneUnit n) = false → Runs (.complianceSet n) s fun t =>
      t.bit (K.LINE_TX_FAULT n) 1 = true ∧ (∀ b, b < 8 → b ≠ 1 → t.bit (K.LINE_TX_FAULT n) b = s.bit (K.LINE_TX_FAULT n) b) ∧
      Raised t (Src.TX_FAULT n) ∧ t.lanes = s.lanes ∧ Changes [K.LINE_TX_FAULT n] s t) ∧
  (∀ (s : State) (n : Fin 16), s.clamped (laneUnit n) = true →
    Runs (.complianceSet n) s (fun t => t = s) ∧ Runs (.complianceClear n) s fun t => t = s) ∧
  (∀ (s : State) (n : Fin 16), s.clamped (laneUnit n) = false → Runs (.complianceClear n) s fun t =>
      t.bit (K.LINE_TX_FAULT n) 1 = false ∧ (∀ b, b < 8 → b ≠ 1 → t.bit (K.LINE_TX_FAULT n) b = s.bit (K.LINE_TX_FAULT n) b) ∧
      t.lanes = s.lanes ∧ Changes [K.LINE_TX_FAULT n] s t)

/-- R115 to R117, R103, R124: `codewordDecoded` takes the next codeword of the received block, of a lane that no self-test holds (R505);
the symbols that its corrections change count in whatever state it decodes (`LINE_SYM_ERR`, Table 2-7); in codeword lock it is counted
with its outcome and its erasure marks and its data are delivered to the two host lanes, an uncorrectable one as received; the 12th
uncorrectable one in a row loses codeword lock and with it frame lock and epoch lock (R120). R119, Table 4-4: `blockDecoded` of four
decoded codewords moves the codeword machine from HUNT to CONFIRM, on to the next offset, to LOCK after eight, or back; entry to LOCK
steps `LINE_SLOT_GEN` (R121) and is reported (R174). R120: `markerPosition` judges a pattern, good at up to 8 differing bits; from
CONFIRM on only the expected position counts. R116: `epochTagBlock` judges the tag test's outcome: a tag moves the epoch machine and
counts the row, the expected one missing counts LINE_TAG_MISS, a second miss in a row ends epoch lock. R124: `LINE_FEC_CLEAR` of 1
zeroes the counters of Table 4-6. The conversation follows what these do to the locks. What rests on a choice or reading of the model:
log entries 8, 81, 99. -/
def Obligations.LineLockMachines : Prop :=
  (∀ (s : State) (n : Fin 16) (blk : List (Fin 4 × Nat)), s.laneTested n = false → s.cwState n = 3 → s.rxBlock n = some blk →
    (s.lane n).blkW < 4 → ∀ w, w = (s.lane n).blkW → ∀ bytes, bytes = wordBytes (wordSyms blk w) →
    Runs (.codewordDecoded n) s fun t =>
      ∃ u, t = s.coFollow n (fun _ => u) ∧
        ∀ marks, marks = erasureMarks ((wordSyms blk w).map (·.2)) (s.rd (K.LINE_ERASE_THR n)) (s.rd (K.LINE_ERASE_MAX n)) →
        ∀ d, d = s.decodeAt n w bytes marks →
          (u.lane n).blkW = w + 1 ∧
          CountsUp s u (K.LINE_CW_TOTAL n) 1 ∧ CountsUp s u (K.LINE_ERASE_COUNT n) marks.length ∧
          (d.1 = .clean → CountsUp s u (K.LINE_CW_CLEAN n) 1 ∧ (u.lane n).delivered = d.2.1.take 68) ∧
          (∀ fix, d.1 = .corrected fix → CountsUp s u (K.LINE_SYM_CORR n) (changes fix).length ∧
            CountsUp s u (K.LINE_SYM_ERR n) ((changes fix).foldl (fun a p => a + pairs8 p.2) 0) ∧ (u.lane n).delivered = (applyFix d.2.1 fix).take 68) ∧
          (d.1 = .uncorrectable → CountsUp s u (K.LINE_CW_UNCORR n) 1 ∧ (u.lane n).delivered = bytes.take 68) ∧
          ((u.lane n).toA, (u.lane n).toB) = hostBits (s.is225 n) (u.lane n).delivered ∧
          (d.1 ≠ .uncorrectable ∨ (s.lane n).uncorrRun < 11 → u.cwState n = 3) ∧
          (d.1 = .uncorrectable → 11 ≤ (s.lane n).uncorrRun →
            u.cwState n = 1 ∧ u.frameLock n = false ∧ u.epochLock n = false ∧ CountsUp s u (K.LINE_CWLOCK_LOSS n) 1)) ∧
  (∀ (s : State) (n : Fin 16) (blk : List (Fin 4 × Nat)), s.laneTested n = false → s.cwState n = 1 ∨ s.cwState n = 2 →
    s.rxBlock n = some blk → (s.lane n).blkW < 4 → ∀ w, w = (s.lane n).blkW →
    Runs (.codewordDecoded n) s fun t => ∃ u, t = s.coFollow n (fun _ => u) ∧ (u.lane n).blkW = w + 1 ∧
      CountsUp s u (K.LINE_ERASE_COUNT n)
        (erasureMarks ((wordSyms blk w).map (·.2)) (s.rd (K.LINE_ERASE_THR n)) (s.rd (K.LINE_ERASE_MAX n))).length ∧
      (∀ fix, (s.decodeAt n w (wordBytes (wordSyms blk w)) (erasureMarks ((wordSyms blk w).map (·.2)) (s.rd (K.LINE_ERASE_THR n))
          (s.rd (K.LINE_ERASE_MAX n)))).1 = .corrected fix →
        CountsUp s u (K.LINE_SYM_ERR n) ((changes fix).foldl (fun a p => a + pairs8 p.2) 0)) ∧
      Changes [K.LINE_ERASE_COUNT n, K.LINE_SYM_ERR n] s u) ∧
  (∀ (s : State) (n : Fin 16), s.laneTested n = true ∨ s.cwState n = 0 ∨ s.rxBlock n = none ∨ 4 ≤ (s.lane n).blkW →
    Runs (.codewordDecoded n) s fun t => t = s.coFollow n fun _ => s) ∧
  (∀ (s : State) (n : Fin 16), (s.lane n).blkW = 4 → Runs (.blockDecoded n) s fun t =>
      ∃ u, t = s.coFollow n (fun _ => u) ∧ (u.lane n).blkW = 0 ∧ (u.lane n).blkClean = 0 ∧ (u.lane n).blkBad = 0 ∧
        (s.cwState n = 1 → 3 ≤ (s.lane n).blkClean → u.cwState n = 2 ∧ (u.lane n).cwGood = 1) ∧
        (s.cwState n = 1 → (s.lane n).blkClean < 3 →
          u.cwState n = 1 ∧ (u.lane n).offset = ((s.lane n).offset + 1) % 1152 ∧
          (u.lane n).rx.syms = (s.lane n).rx.syms.drop 1153) ∧
        (s.cwState n = 2 → (s.lane n).blkBad ≤ 1 → (s.lane n).cwGood < 7 →
          u.cwState n = 2 ∧ (u.lane n).cwGood = (s.lane n).cwGood + 1 ∧ (u.lane n).rx.syms = (s.lane n).rx.syms.drop 1152) ∧
        (s.cwState n = 2 → (s.lane n).blkBad ≤ 1 → 7 ≤ (s.lane n).cwGood →
          u.cwState n = 3 ∧ u.cwLock n = true ∧ u.rd (K.LINE_SLOT_GEN n) = (s.rd (K.LINE_SLOT_GEN n) + 1) % 2 ^ 32 ∧
          (s.clamped (laneUnit n) = false → LatencyReported n 0x20 s u)) ∧
        (s.cwState n = 2 → 1 < (s.lane n).blkBad → u.cwState n = 1 ∧ (u.lane n).offset = ((s.lane n).offset + 1) % 1152) ∧
        (s.cwState n = 3 → (u.lane n).blkNo = (s.lane n).blkNo + 1 ∧ (u.lane n).rx.syms = (s.lane n).rx.syms.drop 1152) ∧
        (s.cwState n = 0 ∨ s.cwState n = 3 → ∀ x, u.rd x = s.rd x)) ∧
  (∀ (s : State) (n : Fin 16), (s.lane n).blkW ≠ 4 → Runs (.blockDecoded n) s fun t => t = s.coFollow n fun _ => s) ∧
  (∀ (s : State) (n : Fin 16) (b : Bool) (differ : BitVec 8) (p : BitVec 12) (moved : Bool),
    s.cwLock n = true → (b && s.is225 n) = false → ∀ m, m = (if b then (s.lane n).mkB else (s.lane n).mkA) →
    ∀ at_, at_ = 2176 * (s.lane n).blkNo + p.toNat → ∀ next, next = at_ + s.markerStep n →
    ∀ good, good = decide (differ.toNat ≤ 8) →
    Runs (.markerPosition n b differ p moved) s fun t =>
      ∃ u, t = s.coFollow n (fun _ => u) ∧ ∀ m', m' = (if b then (u.lane n).mkB else (u.lane n).mkA) →
          (m.st = .hunt → m'.st = (if good then .confirm else .hunt) ∧ (good = true → m'.expected = next)) ∧
          (m.st ≠ .hunt → at_ ≠ m.expected → m' = m) ∧
          (m.st = .confirm → at_ = m.expected →
            m'.st = (if good then (if 3 ≤ m.good then .lock else .confirm) else .hunt) ∧ (good = true → m'.expected = next)) ∧
          (m.st = .lock → at_ = m.expected → m'.st = (if !good && decide (2 ≤ m.bad) then .hunt else .lock) ∧
            (good = true ∨ m.bad < 2 → m'.expected = next)) ∧
          (m.st = .lock → at_ = m.expected → good = false → CountsUp s u (K.LINE_MARKER_BAD n) 1) ∧
          (good = true → m.st = .hunt ∨ at_ = m.expected →
            u.rd (if b then K.LAT_RX_MARKER_B n else K.LAT_RX_MARKER_A n) % 4096 = p.toNat) ∧
          (good = true → moved = true → m.st = .confirm → at_ = m.expected → 3 ≤ m.good → s.clamped (laneUnit n) = false →
            Raised u (Src.LATENCY_CHG n))) ∧
  (∀ (s : State) (n : Fin 16) (b : Bool) (differ : BitVec 8) (p : BitVec 12) (moved : Bool),
    s.cwLock n = false ∨ (b && s.is225 n) = true →
    Runs (.markerPosition n b differ p moved) s fun t => t = s.coFollow n fun _ => s) ∧
  (∀ (s : State) (n : Fin 16) (j : Fin 128) (blk : List (Fin 4 × Nat)) (present expected : Bool), s.cwLock n = true →
    s.rxBlock n = some blk → 1 ≤ (s.lane n).blkW → (s.lane n).blkTag = false →
    present = (tagTest (wordBytes (wordSyms blk 0))).isSome → expected = ((s.lane n).blkNo == (s.lane n).tagNext) →
    Runs (.epochTagBlock n j) s fun t =>
      ∃ u, t = s.coFollow n (fun _ => u) ∧
        (s.epState n = 0 → u.epState n = (if present then 1 else 0) ∧
          (present = true → (u.lane n).tagNext = (s.lane n).blkNo + 2 ^ 18)) ∧
        (s.epState n = 1 → expected = true → present = true → u.epState n = 2 ∧ u.epochLock n = true ∧
          u.rd (K.LINE_ROW_RX n) = (s.rd (K.LINE_ROW_RX n) + 1) % 2 ^ 32) ∧
        (s.epState n = 1 → expected = true → present = false → u.epState n = 0) ∧
        (s.epState n = 1 → expected = false → present = true → u.epState n = 1 ∧
          (u.lane n).tagNext = (s.lane n).blkNo + 2 ^ 18) ∧
        (s.epState n = 2 → expected = true → present = true → u.epState n = 2 ∧ (u.lane n).epMiss = 0 ∧
          u.rd (K.LINE_ROW_RX n) = (s.rd (K.LINE_ROW_RX n) + 1) % 2 ^ 32 ∧
          u.rd (K.LINE_UNCORR_EPOCH n) = ((s.lane n).epUncorr - (s.lane n).blkBad) % 2 ^ 32) ∧
        (s.epState n = 2 → expected = true → present = false → (s.lane n).epMiss = 0 →
          u.epState n = 2 ∧ (u.lane n).epMiss = 1 ∧ CountsUp s u (K.LINE_TAG_MISS n) 1 ∧
          u.rd (K.LINE_ROW_RX n) = (s.rd (K.LINE_ROW_RX n) + 1) % 2 ^ 32) ∧
        (s.epState n = 2 → expected = true → present = false → 1 ≤ (s.lane n).epMiss →
          u.epState n = 0 ∧ u.epochLock n = false ∧ CountsUp s u (K.LINE_TAG_MISS n) 1) ∧
        (1 ≤ s.epState n → expected = false → ∀ x, u.rd x = s.rd x)) ∧
  (∀ (s : State) (n : Fin 16) (j : Fin 128),
    s.cwLock n = false ∨ s.rxBlock n = none ∨ (s.lane n).blkW = 0 ∨ (s.lane n).blkTag = true →
    Runs (.epochTagBlock n j) s fun t => t = s.coFollow n fun _ => s) ∧
  (∀ (s : State) (r : Fin 18) (n : Fin 16), s.accepts r (K.LINE_FEC_CLEAR n) (be 1 1) = true →
    Runs (.lineFecClear r n 1) s fun t =>
      (∀ i, 1 ≤ i → i ≤ 17 → t.rd ⟨.line n, 0x32, i⟩ = resetOf ⟨.line n, 0x32, i⟩) ∧ t.lanes = s.lanes ∧
      Changes ((List.range 17).map fun i => ⟨.line n, 0x32, i + 1⟩) s t)

/-- R110, R141, R156: `txEpochBoundary` of a port group in LOCKED: every lane's row goes up by one, the group's FEC totals are copied
and start again, with HOST_FEC_ALARM at the threshold; a group out of LOCKED has no epoch and nothing happens. R113, R114: `fillStart`
of a lost host lane starts where its markers stood and shows in FILL, and `fillEnd` ends it with the lane's own markers, reported when
they moved. R146 to R148, R174: `gearboxLock` takes the lock from WAIT with the clocks locked, at XPHASE 2, with every lane's row at 0
and a latency report that names what the lock ended; R204: so it does from LOCKED when a grid of another format is to be placed. What
rests on a choice or reading of the model: log entries 8, 22, 24, 83, 105. -/
def Obligations.LinkAndGearbox : Prop :=
  (∀ (s : State) (k : Fin 4) (freqs : List (BitVec 32)), s.gbLock k = true → Runs (.txEpochBoundary k freqs) s fun t =>
      (∀ n, pgOf n = k → t.rd (K.LINE_ROW_TX n) = (s.rd (K.LINE_ROW_TX n) + 1) % 2 ^ 32 ∧ (t.lane n).lockTx = t.frameLock n) ∧
      (∀ n, pgOf n ≠ k → t.lane n = s.lane n ∧ t.rd (K.LINE_ROW_TX n) = s.rd (K.LINE_ROW_TX n)) ∧
      (∀ p : Fin 4, t.rd (K.FEC_UNCORR_EPOCH k p.val) = (s.pg k).epTx.get p % 2 ^ 32 ∧
        t.rd (K.FEC_UNCORR_EPOCH_RX k p.val) = (s.pg k).epRx.get p % 2 ^ 32 ∧ (t.pg k).epTx.get p = 0 ∧ (t.pg k).epRx.get p = 0 ∧
        (s.rd (K.PG_FEC_UNCORR_THR k) ≠ 0 →
          s.rd (K.PG_FEC_UNCORR_THR k) ≤ (s.pg k).epTx.get p ∨ s.rd (K.PG_FEC_UNCORR_THR k) ≤ (s.pg k).epRx.get p →
          Raised t (Src.HOST_FEC_ALARM k)))) ∧
  (∀ (s : State) (k : Fin 4) (freqs : List (BitVec 32)), s.gbLock k = false → Runs (.txEpochBoundary k freqs) s fun t => t = s) ∧
  (∀ (s : State) (m : Fin 32) (key : Key),
    key = (if isB m then K.LAT_TX_MARKER_B (lineOfHost m) else K.LAT_TX_MARKER_A (lineOfHost m)) →
    s.hostLost m = true → (s.host m).filled = false → s.gbLock (pgOfHost m) = true →
    (isB m && s.is225 (lineOfHost m)) = false → Runs (.fillStart m) s fun t =>
      ∃ u, t = s.coFollow (lineOfHost m) (fun _ => u) ∧ (u.host m).filled = true ∧ (∀ p, p ≠ m → u.host p = s.host p) ∧
        u.bit (K.LINE_LOCK_STATUS (lineOfHost m)) (if isB m then 7 else 6) = true ∧ u.bit key 15 = true ∧
        (s.bit key 15 = true → u.rd key = s.rd key) ∧ Changes [K.LINE_LOCK_STATUS (lineOfHost m), key] s u) ∧
  (∀ (s : State) (m : Fin 32), s.hostLost m = false ∨ (s.host m).filled = true ∨ s.gbLock (pgOfHost m) = false ∨
      (isB m && s.is225 (lineOfHost m)) = true →
    Runs (.fillStart m) s fun t => t = s.coFollow (lineOfHost m) fun _ => s) ∧
  (∀ (s : State) (m : Fin 32) (p : BitVec 12) (moved : Bool), s.hostLost m = false → (s.host m).filled = true →
    Runs (.fillEnd m p moved) s fun t =>
      ∃ u, t = s.coFollow (lineOfHost m) (fun _ => u) ∧ (u.host m).filled = false ∧ (∀ q, q ≠ m → u.host q = s.host q) ∧
        u.bit (K.LINE_LOCK_STATUS (lineOfHost m)) (if isB m then 7 else 6) = false ∧
        u.rd (if isB m then K.LAT_TX_MARKER_B (lineOfHost m) else K.LAT_TX_MARKER_A (lineOfHost m)) = 0x8000 + p.toNat ∧
        (moved = true → s.clamped (laneUnit (lineOfHost m)) = false →
          LatencyReported (lineOfHost m) (if isB m then 0x200 else 0x100) s u)) ∧
  (∀ (s : State) (m : Fin 32) (p : BitVec 12) (moved : Bool), s.hostLost m = true ∨ (s.host m).filled = false →
    Runs (.fillEnd m p moved) s fun t => t = s.coFollow (lineOfHost m) fun _ => s) ∧
  (∀ (s : State) (k : Fin 4) (blocks : BitVec 18), s.clocksOk = true →
    (s.pg k).gb = .wait ∨ (s.pg k).gb = .locked ∧ (s.pg k).relockFmt = true →
    Runs (.gearboxLock k blocks) s fun t =>
      (t.pg k).gb = .locked ∧ (t.pg k).lostLock = false ∧ (t.pg k).relockFmt = false ∧ (∀ g, g ≠ k → t.pg g = s.pg g) ∧
      t.gbLock k = true ∧ (t.pg k).code0 = false ∧ (t.pg k).lockedAt = s.now ∧
      t.rd (K.PG_XPHASE k) = 2 ∧ CountsUp s t (K.PG_GB_LOCKS k) 1 ∧ Raised t (Src.GEARBOX_EVENT k) ∧
      (∀ n, pgOf n = k → t.rd (K.LINE_ROW_TX n) = 0 ∧
        t.rd (K.LAT_EPOCH_SHORT n) = (if (s.pg k).lostLock || (s.pg k).relockFmt then blocks.toNat else 0) ∧
        (s.clamped (laneUnit n) = false → LatencyReported n (if (s.pg k).relockFmt then (if (s.pg k).lostLock then 0x81 else 0x80)
          else if (s.lane n).cfgPend then 0x81 else 1) s t) ∧ (t.lane n).cfgPend = false) ∧
      ∀ n, pgOf n ≠ k → t.lane n = s.lane n) ∧
  (∀ (s : State) (k : Fin 4) (blocks : BitVec 18), s.clocksOk = false ∨ (s.pg k).gb = .off ∨
      (s.pg k).gb = .locked ∧ (s.pg k).relockFmt = false →
    Runs (.gearboxLock k blocks) s fun t => t = s)

/-- R134, R135: `hostSignalClear` takes a host lane's SIGNAL, its clock and its alignment, reported as HOST_LOS; `hostSignalSet` starts
its training (R137, R138); a receiver or group without power sees neither (R483). R137 to R139: `hckiTrainingDone`, the end of training
on the forwarded clock, or `hostCdrLock` in the other clock mode, sets CLK_OK, fixes the capture, restarts the slips and reports the
change of latency; the other clock mode's event does nothing. R133: `hostRxAcquisitionEnd` ends the equalizer's acquisition, with
adaptation on in its peaking. R113, R135: `hostMarkerPosition` judges a pattern, good at up to 8 differing bits, and moves the alignment
monitor. R137: `hckiLost` takes the clock of the lanes that use it, `hckiReturn` starts their training. What rests on a choice or
reading of the model: log entries 8, 23, 78, 84. -/
def Obligations.HostReceivers : Prop :=
  (∀ (s : State) (m : Fin 32), s.clamped (laneUnit (lineOfHost m)) = false →
    s.rd (K.HOST_LOS_THR m) ≠ 0 → s.hostBit m 1 = true → Runs (.hostSignalClear m) s fun t =>
      t.hostBit m 1 = false ∧ t.hostBit m 2 = false ∧ t.hostBit m 3 = false ∧ t.hostBit m 4 = false ∧
      (t.host m).acq = 0 ∧ (t.host m).training = false ∧ Raised t (Src.HOST_LOS (pgOfHost m)) ∧
      t.bit (K.HOST_LOS_LANES (pgOfHost m)) (hostJ m) = true ∧ (∀ p, p ≠ m → t.host p = s.host p) ∧
      Changes [K.HOST_RX_STATUS m, K.HOST_RX_FFE m, K.HOST_LOS_LANES (pgOfHost m), K.HOST_ALIGN_CHG_LANES (pgOfHost m)] s t) ∧
  (∀ (s : State) (m : Fin 32), s.clamped (laneUnit (lineOfHost m)) = true ∨ s.rd (K.HOST_LOS_THR m) = 0 ∨ s.hostBit m 1 = false →
    Runs (.hostSignalClear m) s fun t => t = s) ∧
  (∀ (s : State) (m : Fin 32), s.clamped (laneUnit (lineOfHost m)) = false → s.hostBit m 1 = false →
    Runs (.hostSignalSet m) s fun t =>
      t.hostBit m 1 = true ∧ Raised t (Src.HOST_LOS (pgOfHost m)) ∧ t.bit (K.HOST_LOS_LANES (pgOfHost m)) (hostJ m) = true ∧
      (s.fwdClock (pgOfHost m) = false ∨ s.hckiPresent (pgOfHost m) = true →
        (isB m && s.is225 (lineOfHost m)) = false → (t.host m).training = true) ∧
      (∀ p, p ≠ m → t.host p = s.host p) ∧ Changes [K.HOST_RX_STATUS m, K.HOST_LOS_LANES (pgOfHost m)] s t) ∧
  (∀ (s : State) (m : Fin 32), s.clamped (laneUnit (lineOfHost m)) = true ∨ s.hostBit m 1 = true →
    Runs (.hostSignalSet m) s fun t => t = s) ∧
  (∀ (s : State) (m : Fin 32) (phase : Fin 602353) (c : Instr),
    c = .hckiTrainingDone m phase ∧ s.fwdClock (pgOfHost m) = true ∨ c = .hostCdrLock m phase ∧ s.fwdClock (pgOfHost m) = false →
    (s.host m).training = true → Runs c s fun t =>
      t.hostBit m 2 = true ∧ t.hostBit m 3 = true ∧ (t.host m).acq = 1 ∧ (t.host m).training = false ∧
      (s.fwdClock (pgOfHost m) = false ∨ s.rd K.CLK_REF_SRC ≠ 1 ∨ (s.host m).fracFixed = none →
        t.rdI (K.HOST_RX_CAPTURE_FRAC m) = (captureOf phase.val).2) ∧
      (t.host m).delay = (captureOf phase.val).1 ∧ (t.host m).delay < 64 ∧ (t.host m).fill = 64 ∧
      (∀ f, s.fwdClock (pgOfHost m) = true → s.rd K.CLK_REF_SRC = 1 → (s.host m).fracFixed = some f → -4706 ≤ f → f ≤ 4706 →
        t.rdI (K.HOST_RX_CAPTURE_FRAC m) = f) ∧
      t.rd (if isB m then K.LAT_TX_SLIP_B (lineOfHost m) else K.LAT_TX_SLIP_A (lineOfHost m)) = 0 ∧
      (s.clamped (laneUnit (lineOfHost m)) = false → LatencyReported (lineOfHost m) (if isB m then 0x10 else 8) s t) ∧
      SameLanes s t ∧ ∀ p, p ≠ m → t.host p = s.host p) ∧
  (∀ (s : State) (m : Fin 32) (phase : Fin 602353), s.fwdClock (pgOfHost m) = false ∨ (s.host m).training = false →
    Runs (.hckiTrainingDone m phase) s fun t => t = s) ∧
  (∀ (s : State) (m : Fin 32) (phase : Fin 602353), s.fwdClock (pgOfHost m) = true ∨ (s.host m).training = false →
    Runs (.hostCdrLock m phase) s fun t => t = s) ∧
  (∀ (s : State) (m : Fin 32) (ctle : BitVec 8), (s.host m).acq = 1 → Runs (.hostRxAcquisitionEnd m ctle) s fun t =>
      (t.host m).acq = 2 ∧
      t.rd (K.HOST_RX_CTLE m) = (if s.on (K.HOST_RX_ADAPT m) then min ctle.toNat 24 else s.rd (K.HOST_RX_CTLE m)) ∧
      (∀ p, p ≠ m → t.host p = s.host p) ∧ Changes [K.HOST_RX_CTLE m] s t) ∧
  (∀ (s : State) (m : Fin 32) (ctle : BitVec 8), (s.host m).acq ≠ 1 → Runs (.hostRxAcquisitionEnd m ctle) s fun t => t = s) ∧
  (∀ (s : State) (m : Fin 32) (differ : BitVec 8) (pos : BitVec 64) (p : BitVec 12) (moved : Bool), s.hostBit m 2 = true →
    ∀ good, good = decide (differ.toNat ≤ 8) → ∀ a, a = (s.host m).align →
    Runs (.hostMarkerPosition m differ pos p moved) s fun t =>
      (a.st = .hunt → (t.host m).align.st = if good then .confirm else .hunt) ∧
      (a.st ≠ .hunt → pos.toNat ≠ a.expected → (t.host m).align = a) ∧
      (a.st = .confirm → pos.toNat = a.expected →
        (t.host m).align.st = if good then (if 3 ≤ a.good then .lock else .confirm) else .hunt) ∧
      (a.st = .lock → pos.toNat = a.expected →
        (t.host m).align.st = if !good && decide (2 ≤ a.bad) then .hunt else .lock) ∧
      ((t.host m).align.st = .hunt ∨ (t.host m).align = a ∨
        (t.host m).align.expected = pos.toNat + Config.markerPeriod (s.rd (K.PG_MODE (pgOfHost m)))) ∧
      t.hostBit m 4 = ((t.host m).align.st == .lock) ∧
      (s.hostBit m 4 ≠ t.hostBit m 4 → Raised t (Src.HOST_ALIGN_CHG (pgOfHost m))) ∧
      (t.hostBit m 4 = true → good = true → (s.host m).filled = false →
        t.rd (if isB m then K.LAT_TX_MARKER_B (lineOfHost m) else K.LAT_TX_MARKER_A (lineOfHost m)) = 0x8000 + p.toNat) ∧
      SameLanes s t ∧ ∀ q, q ≠ m → t.host q = s.host q) ∧
  (∀ (s : State) (m : Fin 32) (differ : BitVec 8) (pos : BitVec 64) (p : BitVec 12) (moved : Bool), s.hostBit m 2 = false →
    Runs (.hostMarkerPosition m differ pos p moved) s fun t => t = s) ∧
  (∀ (s : State) (k : Fin 4), s.clamped (pgUnit k) = false → s.hckiPresent k = true → Runs (.hckiLost k) s fun t =>
      t.hckiPresent k = false ∧ t.bit (K.PG_GB_STATUS k) 4 = true ∧
      (s.fwdClock k = true → Raised t (Src.GEARBOX_EVENT k) ∧
        ∀ m, pgOfHost m = k → t.hostBit m 2 = false ∧ (t.host m).training = false) ∧
      (s.fwdClock k = false → t.hosts = s.hosts ∧ Changes [K.PG_GB_STATUS k] s t) ∧
      ∀ m, pgOfHost m ≠ k → t.host m = s.host m) ∧
  (∀ (s : State) (k : Fin 4), s.clamped (pgUnit k) = true ∨ s.hckiPresent k = false → Runs (.hckiLost k) s fun t => t = s) ∧
  (∀ (s : State) (k : Fin 4), s.clamped (pgUnit k) = false → s.hckiPresent k = false → Runs (.hckiReturn k) s fun t =>
      t.hckiPresent k = true ∧ Changes [K.PG_GB_STATUS k] s t ∧
      (s.fwdClock k = true → ∀ m, pgOfHost m = k → s.hostBit m 1 = true → (isB m && s.is225 (lineOfHost m)) = false →
        (t.host m).training = true) ∧
      (s.fwdClock k = false → t.hosts = s.hosts)) ∧
  (∀ (s : State) (k : Fin 4), s.clamped (pgUnit k) = true ∨ s.hckiPresent k = true → Runs (.hckiReturn k) s fun t => t = s)

/-- R153, R388: an accepted write of `PG_FEC_MODE` between pass and monitor waits for the next 17-hc period boundary, at which it takes
effect, and reads as before until then; one to or from terminate, whose lanes are down, is in place at once (R173). R140: at
`hostPeriodBoundary`, whatever fills come, each lane's capture buffer at 4 symbols or at 124 slips: the read point moves by 64, the
lane's slip by one, counted for lane and group, with GEARBOX_EVENT and the latency event; in between nothing moves; in the period of a
relock the capture is fixed again (R148), and without gearbox lock no slip counts. R154, R155: `hostFecCodeword` is counted with its
outcome where the port's lanes lie within 32 hc and the port is decoded; a group under self-test counts none (R505). R156:
`PG_FEC_CLEAR` of 1 zeroes both directions' counters, of 0 none. What rests on a choice or reading of the model: log entries 8, 40, 78,
82, 84. -/
def Obligations.HostFecAndPeriod : Prop :=
  (∀ (s : State) (r : Fin 18) (k : Fin 4) (v : BitVec 8), s.accepts r (K.PG_FEC_MODE k) (be 1 v.toNat) = true →
    (s.rd (K.PG_FEC_MODE k) = 2 ↔ v = 2) →
    Runs (.pgFecModeWrite r k v) s fun t =>
      t.od.waiting = s.od.waiting ++ [{ req := r, epoch := (s.req r).epoch, bound := .period k, grp := false
                                        writes := [(K.PG_FEC_MODE k, be 1 v.toNat)] }] ∧
      t.lanes = s.lanes ∧ Changes [] s t) ∧
  (∀ (s : State) (r : Fin 18) (k : Fin 4) (v : BitVec 8), s.accepts r (K.PG_FEC_MODE k) (be 1 v.toNat) = true →
    ¬(s.rd (K.PG_FEC_MODE k) = 2 ↔ v = 2) →
    Runs (.pgFecModeWrite r k v) s fun t =>
      t.rd (K.PG_FEC_MODE k) = v.toNat ∧ (∀ g ∈ t.od.waiting, ∀ w ∈ g.writes, w.1 ≠ K.PG_FEC_MODE k) ∧
      ∀ n, pgOf n ≠ k → t.lane n = s.lane n) ∧
  (∀ (s : State) (k : Fin 4) (v : BitVec 8) (r : Fin 18) (e : Nat) (grp : Bool) (fills : List (Fin 8 × Fin 129)), s.scanOn = false →
    s.od.waiting = [{ req := r, epoch := e, bound := .period k, grp := grp, writes := [(K.PG_FEC_MODE k, be 1 v.toNat)] }] →
    Runs (.hostPeriodBoundary k fills) s fun t => t.rd (K.PG_FEC_MODE k) = v.toNat ∧ t.od.waiting = []) ∧
  (∀ (s : State) (k : Fin 4) (fills : List (Fin 8 × Fin 129)), (∀ g ∈ s.od.waiting, g.bound ≠ .period k) →
    (fills.map (·.1)).Nodup → Runs (.hostPeriodBoundary k fills) s fun t =>
      t.od = s.od ∧ SameLanes s t ∧ (∀ m : Fin 32, (∀ f ∈ fills, m.val ≠ 8 * k.val + f.1.val) → t.host m = s.host m) ∧
      (∀ f ∈ fills, ∀ m : Fin 32, m.val = 8 * k.val + f.1.val →
        ∀ key, key = (if isB m then K.LAT_TX_SLIP_B (lineOfHost m) else K.LAT_TX_SLIP_A (lineOfHost m)) →
        (s.hostBit m 3 = false ∨ (4 < f.2.val ∧ f.2.val < 124) →
          (t.host m).fill = f.2.val ∧ t.rdI key = s.rdI key ∧ t.rd (K.HOST_RX_SLIPS m) = s.rd (K.HOST_RX_SLIPS m)) ∧
        (s.hostBit m 3 = true → f.2.val ≤ 4 ∨ 124 ≤ f.2.val → (s.pg k).gb ≠ .locked →
          (t.host m).fill = f.2.val ∧ (t.host m).slipDue = ((s.pg k).gb == .wait) ∧ t.rdI key = s.rdI key ∧
          t.rd (K.HOST_RX_SLIPS m) = s.rd (K.HOST_RX_SLIPS m)) ∧
        (s.hostBit m 3 = true → f.2.val ≤ 4 ∨ 124 ≤ f.2.val → (s.pg k).gb = .locked → s.now < (s.pg k).lockedAt + 18 →
          (t.host m).fill = 64 ∧ t.rdI key = 0 ∧ t.rd (K.HOST_RX_SLIPS m) = s.rd (K.HOST_RX_SLIPS m)) ∧
        (s.hostBit m 3 = true → f.2.val ≤ 4 ∨ 124 ≤ f.2.val → (s.pg k).gb = .locked → (s.pg k).lockedAt + 18 ≤ s.now →
          (t.host m).fill = (if 124 ≤ f.2.val then f.2.val - 64 else f.2.val + 64) ∧
          t.rdI key = clampI (-32767) 32767 (s.rdI key + if 124 ≤ f.2.val then -1 else 1) ∧ CountsUp s t (K.HOST_RX_SLIPS m) 1 ∧
          t.hostBit m 6 = true ∧ t.bit (K.PG_GB_STATUS k) 1 = true ∧ Raised t (Src.GEARBOX_EVENT k) ∧
          (s.clamped (laneUnit (lineOfHost m)) = false →
            Raised t (Src.LATENCY_CHG (lineOfHost m)) ∧ t.bit (K.LAT_CAUSE (lineOfHost m)) (if isB m then 2 else 1) = true)))) ∧
  (∀ (s : State) (k : Fin 4) (rx : Bool) (p : Fin 4) (skew : BitVec 16) (syms : Option (Fin 16)), skew.toNat ≤ 32 →
    s.bist.running ≠ some (.pg k) → s.fecDecodes k rx p.val = true → Runs (.hostFecCodeword k rx p skew syms) s fun t =>
      CountsUp s t (if rx then K.FEC_CW_TOTAL_RX k p.val else K.FEC_CW_TOTAL k p.val) 1 ∧
      (syms = none → CountsUp s t (if rx then K.FEC_CW_UNCORR_RX k p.val else K.FEC_CW_UNCORR k p.val) 1 ∧
        (if rx then (t.pg k).epRx.get p else (t.pg k).epTx.get p) =
          (if rx then (s.pg k).epRx.get p else (s.pg k).epTx.get p) + 1) ∧
      (∀ e, syms = some e →
        (e.val ≠ 0 → CountsUp s t (if rx then K.FEC_CW_CORR_RX k p.val else K.FEC_CW_CORR k p.val) 1) ∧
        CountsUp s t (if rx then K.FEC_SYM_CORR_RX k p.val else K.FEC_SYM_CORR k p.val) e.val ∧ t.pgs = s.pgs) ∧
      t.lanes = s.lanes ∧ t.hosts = s.hosts) ∧
  (∀ (s : State) (k : Fin 4) (rx : Bool) (p : Fin 4) (skew : BitVec 16) (syms : Option (Fin 16)),
    s.bist.running = some (.pg k) ∨ 32 < skew.toNat ∨ s.fecDecodes k rx p.val = false → Runs (.hostFecCodeword k rx p skew syms) s fun t => t = s) ∧
  (∀ (s : State) (r : Fin 18) (k : Fin 4), s.accepts r (K.PG_FEC_CLEAR k) (be 1 1) = true →
    Runs (.pgFecClear r k 1) s fun t =>
      (∀ i, 1 ≤ i → i ≤ 21 → t.rd ⟨.pg k, 0x05, i⟩ = resetOf ⟨.pg k, 0x05, i⟩ ∧ t.rd ⟨.pg k, 0x06, i⟩ = resetOf ⟨.pg k, 0x06, i⟩) ∧
      t.pgs = s.pgs ∧ t.lanes = s.lanes ∧ t.hosts = s.hosts ∧
      Changes ((List.range 21).flatMap fun i => [⟨.pg k, 0x05, i + 1⟩, ⟨.pg k, 0x06, i + 1⟩]) s t) ∧
  (∀ (s : State) (r : Fin 18) (k : Fin 4), s.accepts r (K.PG_FEC_CLEAR k) (be 1 0) = true →
    Runs (.pgFecClear r k 0) s fun t => t.pgs = s.pgs ∧ t.lanes = s.lanes ∧ t.hosts = s.hosts ∧ Changes [] s t)

/-- R157 to R160: an accepted `PRBS_GEN_CFG` sets the generator at once, on a host lane from the next 17-hc period boundary on, and
takes a ring port that is out of service into TEST; `PRBS_CHK_CFG` starts the checker seeding or stops it; `PRBS_INJECT` keeps its
period, starts counting from the write, and ONCE injects one error into a pattern being sent; the clear zeroes the checker's counters
and LOST. R159: `prbsWindowEnd` compares the bits seen with the pattern's: a seeding checker takes its register from the first of them
and locks when the next 1,024 hold fewer than 8 errors; a locked one counts 1,024 bits, their errors and the symbols in error, and with
256 errors loses its lock; a place under self-test discards what it receives (R505). What rests on a choice or reading of the model: log
entries 8, 25, 85. -/
def Obligations.PatternTests : Prop :=
  (∀ (s : State) (r : Fin 18) (m : Fin 32) (v : BitVec 16), s.accepts r (prbsGen (.host m) 1) (be 2 v.toNat) = true →
    Runs (.prbsGenCfgWrite r (.host m) v) s fun t =>
      t.od.waiting = s.od.waiting ++ [{ req := r, epoch := (s.req r).epoch, bound := .period (pgOfHost m), grp := false
                                        writes := [(prbsGen (.host m) 1, be 2 v.toNat)] }] ∧
      t.hosts = s.hosts ∧ Changes [] s t) ∧
  (∀ (s : State) (r : Fin 18) (n : Fin 16) (v : BitVec 16), s.accepts r (prbsGen (.line n) 1) (be 2 v.toNat) = true →
    Runs (.prbsGenCfgWrite r (.line n) v) s fun t =>
      t.rd (prbsGen (.line n) 1) = v.toNat ∧ (∀ m, m ≠ n → t.lane m = s.lane m) ∧
      Changes [prbsGen (.line n) 1, prbsGen (.line n) 3] s t) ∧
  (∀ (s : State) (r : Fin 18) (p : Fin 2) (v : BitVec 16), s.accepts r (prbsGen (.port p) 1) (be 2 v.toNat) = true →
    Runs (.prbsGenCfgWrite r (.port p) v) s fun t =>
      t.rd (prbsGen (.port p) 1) = v.toNat ∧
      (s.rd (K.PORT_STATE p) = 0 → s.on (K.PORT_ADMIN p) = false → v.toNat.testBit 0 = true → t.rd (K.PORT_STATE p) = 5) ∧
      (s.rd (K.PORT_STATE p) = 5 → s.on (K.PORT_ADMIN p) = false → v.toNat.testBit 0 = false →
        s.bit (prbsChk (.port p) 1) 0 = false → t.rd (K.PORT_STATE p) = 0) ∧
      Changes [prbsGen (.port p) 1, prbsGen (.port p) 3, K.PORT_STATE p] s t) ∧
  (∀ (s : State) (r : Fin 18) (a : PrbsAt) (v : BitVec 16), s.accepts r (prbsChk a 1) (be 2 v.toNat) = true →
    Runs (.prbsChkCfgWrite r a v) s fun t =>
      t.rd (prbsChk a 1) = v.toNat ∧ t.prbsState a = (if v.toNat.testBit 0 then .seeding else .off) ∧
      t.bit (prbsChk a 2) 0 = false ∧ (∀ m, a = .host m → t.hostBit m 7 = v.toNat.testBit 0) ∧
      ∀ b, b ≠ a → t.prbsState b = s.prbsState b) ∧
  (∀ (s : State) (r : Fin 18) (a : PrbsAt) (v : BitVec 32), s.accepts r (prbsGen a 2) (be 4 v.toNat) = true →
    Runs (.prbsInjectOnce r a v) s fun t =>
      t.rd (prbsGen a 2) = v.toNat % 2 ^ 24 ∧ t.prbsInj a = { start := s.now } ∧
      (s.rd (prbsGen a 2) % 2 ^ 24 = 0 →
        CountsUp s t (prbsGen a 3) (if v.toNat.testBit 31 && s.prbsSends a then 1 else 0)) ∧
      Changes [prbsGen a 2, prbsGen a 3] s t) ∧
  (∀ (s : State) (r : Fin 18) (a : PrbsAt), s.accepts r (prbsChk a 8) (be 1 1) = true →
    Runs (.prbsChkClear r a 1) s fun t =>
      (∀ i, 3 ≤ i → i ≤ 6 → t.rd (prbsChk a i) = resetOf (prbsChk a i)) ∧ t.bit (prbsChk a 2) 1 = false ∧
      (∀ b, t.prbsState b = s.prbsState b) ∧
      Changes [prbsChk a 2, prbsChk a 3, prbsChk a 4, prbsChk a 5, prbsChk a 6] s t) ∧
  (∀ (s : State) (a : PrbsAt) (bits : List Bool), s.prbsState a = .off ∨ s.prbsTested a = true →
    Runs (.prbsWindowEnd a bits) s fun t => t = s) ∧
  (∀ (s : State) (a : PrbsAt) (bits : List Bool), s.prbsTested a = false → s.prbsState a = .seeding →
    ∀ pat, pat = s.prbsPattern (prbsChk a 1) → ∀ d, d = prbsDegree pat → ∀ rx, rx = s.prbsSeen a bits → d + 1024 ≤ rx.length →
    ∀ want, want = (prbsRun pat (prbsSeedFrom pat (rx.take d)) 1024).1 →
    ∀ errs, errs = ((State.prbsErrors ((rx.drop d).take 1024) want).filter id).length →
    Runs (.prbsWindowEnd a bits) s fun t =>
      (errs < 8 → t.prbsState a = .locked ∧ t.bit (prbsChk a 2) 0 = true ∧ Changes [prbsChk a 2] s t) ∧
      (8 ≤ errs → t.prbsState a = .seeding ∧ Changes [] s t)) ∧
  (∀ (s : State) (a : PrbsAt) (bits : List Bool), s.prbsTested a = false → s.prbsState a = .locked →
    ∀ pat, pat = s.prbsPattern (prbsChk a 1) → ∀ rx, rx = s.prbsSeen a bits → 1024 ≤ rx.length →
    ∀ e, e = State.prbsErrors (rx.take 1024) (prbsRun pat (s.prbsReg a).chk 1024).1 → ∀ errs, errs = (e.filter id).length →
    Runs (.prbsWindowEnd a bits) s fun t =>
      CountsUp s t (prbsChk a 3) 1024 ∧ CountsUp s t (prbsChk a 4) errs ∧
      CountsUp s t (prbsChk a 5) (State.symErrs (match a with | .port _ => 10 | _ => 2) (s.prbsReg a).part (s.prbsReg a).partErr e) ∧
      (errs < 256 → t.prbsState a = .locked ∧ Changes [prbsChk a 3, prbsChk a 4, prbsChk a 5] s t) ∧
      (256 ≤ errs → t.prbsState a = .seeding ∧ t.bit (prbsChk a 2) 0 = false ∧ t.bit (prbsChk a 2) 1 = true ∧
        CountsUp s t (prbsChk a 6) 1)) ∧
  (∀ (s : State) (a : PrbsAt) (bits : List Bool), s.prbsState a = .seeding ∧
      (s.prbsSeen a bits).length < prbsDegree (s.prbsPattern (prbsChk a 1)) + 1024 ∨
      s.prbsState a = .locked ∧ (s.prbsSeen a bits).length < 1024 →
    Runs (.prbsWindowEnd a bits) s fun t => t = s)

/-- R192, R197 to R210, R214 to R222: what a message of each type does when the phase that its ACK and PHASE lead to (`judged`) accepts
it and it is the next in order: its PHASE and the end of silence are recorded, and its body acts. `cap` is kept, and the device's own
identity holds the lane in LOOPBACK; `propose` is accepted, refused with the first reason that applies, or leads back to C3; `accept` of
the lane's own proposal makes the agreement; `reject` is counted; `txeqReq` is applied at a boundary or refused; `txeqAck` keeps the far
taps; `status` and `ready` are kept, in C4 and above another AGR than the lane's is a contradiction; `bind` leads to C1; a lane in its
own bind-off answers and counts, but keeps its phase (R221, log entry 27). The lane's own progress follows. In C1 a packet leads to C2
and the lane's own CAP is sent (R184, R197); a malformed one is only counted (R188); in C0 none is heard. What rests on a choice or
reading of the model: log entries 11, 44, 45, 89, 90, 107. -/
def Obligations.CastOnMessages : Prop :=
  (∀ (s : State) (n : Fin 16) (h : MsgHead) (b : CapMsg), s.heard n 0x01 h = true → Runs (.cap n h b) s fun t =>
      ∃ u, t = State.coSettle u n ∧ ∀ v, v = s.judged n h →
        u.rd (K.LINE_CO_PEER_PHASE n) = h.phase.toNat ∧ u.rd (K.LINE_CO_PEER_ID n) = b.uid.toNat ∧
        (u.co n).cap = some ⟨b.uid.toNat, b.pgMode.toNat, b.formats.toNat % 4, b.flags.toNat.testBit 3, b.flags.toNat.testBit 2,
          b.flags.toNat % 4, b.main.toNat, b.policy.toNat⟩ ∧
        u.coFlag n 7 = false ∧ u.coFlag n 8 = (b.uid.toNat == State.uid) ∧
        (b.uid.toNat = State.uid → v.coFlag n 8 = false → CountsUp v u (K.LINE_CO_LOOPBACK n) 1) ∧ u.phase n = v.phase n) ∧
  (∀ (s : State) (n : Fin 16) (h : MsgHead) (num format precode time : BitVec 8), s.heard n 0x02 h = true →
    Runs (.propose n h num format precode time) s fun t =>
      ∃ u, t = State.coSettle u n ∧ ∀ v, v = s.judged n h →
        (v.binding n = false → u.phase n = 3) ∧ (v.binding n = true → u.phase n = v.phase n) ∧ (u.co n).heardPropose = true ∧
        ∀ p, p = Proposal.mk num.toNat format.toNat precode.toNat time.toNat → v.phase n = 3 ∨ v.binding n = true →
          ((v.co n).prop = none → v.rejectReason n p = none → (u.co n).accepted = some p) ∧
          ((v.co n).prop = none → v.rejectReason n p ≠ none → CountsUp v u (K.LINE_CO_REJECT_TX n) 1) ∧
          ((v.co n).prop ≠ none → v.idHigher n = true → ((u.co n).prop = (v.co n).prop ∧ ∀ x, u.rd x = v.rd x)) ∧
          ((v.co n).prop ≠ none → v.idHigher n = false → ((u.co n).prop = none ∧ CountsUp v u (K.LINE_CO_TIE_YIELD n) 1))) ∧
  (∀ (s : State) (n : Fin 16) (h : MsgHead) (num format precode time : BitVec 8), s.heard n 0x03 h = true →
    Runs (.accept n h num format precode time) s fun t =>
      ∃ u, t = State.coSettle u n ∧ ∀ v, v = s.judged n h →
        ∀ p, p = Proposal.mk num.toNat format.toNat precode.toNat time.toNat →
        ((v.co n).prop = some p → v.binding n = false → (v.pg (pgOf n)).fixed = 0 ∨ (v.pg (pgOf n)).fixed = p.format →
          u.phase n = 4 ∧ u.rd (K.LINE_CO_AGR n) = num.toNat ∧ u.rd (K.LINE_FORMAT n) = format.toNat ∧
          u.coFlag n 2 = true ∧ u.coFlag n 3 = time.toNat.testBit 0 ∧ (u.co n).precOwn = precode.toNat.testBit 0 ∧
          (u.co n).precFar = precode.toNat.testBit 1) ∧
        ((v.co n).prop = some p → v.binding n = true → u.phase n = v.phase n ∧ ∀ x, u.rd x = v.rd x) ∧
        ((v.co n).prop ≠ some p → CountsUp v u (K.LINE_CO_CONTRADICT n) 1 ∧ u.phase n = 3)) ∧
  (∀ (s : State) (n : Fin 16) (h : MsgHead) (num reason detail : BitVec 8), s.heard n 0x04 h = true →
    Runs (.reject n h num reason detail) s fun t =>
      ∃ u, t = State.coSettle u n ∧ ∀ v, v = s.judged n h →
        CountsUp v u (K.LINE_CO_REJECT_RX n) 1 ∧
        (1 ≤ reason.toNat ∧ reason.toNat ≤ 5 ∨ v.binding n = true → u.phase n = v.phase n) ∧
        (reason.toNat = 0 ∨ 5 < reason.toNat → v.binding n = false → u.phase n = 3)) ∧
  (∀ (s : State) (n : Fin 16) (h : MsgHead) (id main : BitVec 8) (taps : List (BitVec 16)), s.heard n 0x05 h = true →
    Runs (.txeqReq n h id main taps) s fun t =>
      ∃ u, t = State.coSettle u n ∧ ∀ v, v = s.judged n h →
        ∀ l, l = (List.range 9).map (getI (taps.map BitVec.toInt)) →
        (main.toNat = v.rd (K.LINE_TX_FFE_MAIN n) → txTapsOk main.toNat l = true →
          (u.lane n).txTapsPend = some l ∧ (u.co n).ackOwed = some id.toNat) ∧
        (main.toNat ≠ v.rd (K.LINE_TX_FFE_MAIN n) ∨ txTapsOk main.toNat l = false →
          CountsUp v u (K.LINE_CO_TXEQ_REFUSED n) 1 ∧ (u.lane n).txTapsPend = (v.lane n).txTapsPend)) ∧
  (∀ (s : State) (n : Fin 16) (h : MsgHead) (id result : BitVec 8) (taps : List (BitVec 16)), s.heard n 0x06 h = true →
    Runs (.txeqAck n h id result taps) s fun t =>
      ∃ u, t = State.coSettle u n ∧ ∀ v, v = s.judged n h →
        u.rd (K.LINE_CO_FAR_TAPS n) = beNat (tapBytes (taps.map BitVec.toInt)) % 2 ^ 144 ∧
        (u.co n).farKnown = true ∧ (result ≠ 0 → CountsUp v u (K.LINE_CO_TXEQ_DENIED n) 1)) ∧
  (∀ (s : State) (n : Fin 16) (h : MsgHead) (agr lock fill verify : BitVec 8), s.heard n 0x07 h = true →
    Runs (.status n h agr lock fill verify) s fun t =>
      ∃ u, t = State.coSettle u n ∧ ∀ v, v = s.judged n h →
        (v.agrDiffers n agr.toNat = false → verify.toNat ≠ 2 ∨ v.binding n = true →
          u.coFlag n 4 = lock.toNat.testBit 0 ∧ u.coFlag n 5 = fill.toNat.testBit 0 ∧ u.coFlag n 6 = fill.toNat.testBit 1 ∧
          u.phase n = v.phase n ∧ Changes [K.LINE_CO_FLAGS n] v u) ∧
        (v.agrDiffers n agr.toNat = false → verify.toNat = 2 → v.binding n = false → u.phase n = 4)) ∧
  (∀ (s : State) (n : Fin 16) (h : MsgHead) (agr done : BitVec 8), s.heard n 0x08 h = true →
    (s.judged n h).agrDiffers n agr.toNat = false → Runs (.ready n h agr done) s fun t =>
      ∃ u, t = State.coSettle u n ∧ ∀ v, v = s.judged n h →
        (v.phase n ≤ done.toNat → (u.co n).peerReady.contains done.toNat = true) ∧
        (done.toNat < v.phase n → (u.co n).peerReady = (v.co n).peerReady) ∧ ∀ x, u.rd x = v.rd x) ∧
  (∀ (s : State) (n : Fin 16) (h : MsgHead), s.heard n 0x09 h = true → Runs (.bind n h) s fun t =>
      ∃ u, t = State.coSettle u n ∧ ∀ v, v = s.judged n h →
        CountsUp v u (K.LINE_CO_BIND_RX n) 1 ∧ u.rd (K.LINE_CO_LAST_FAIL n) = v.phase n * 256 + 8 ∧
        (v.binding n = false → u.phase n = 1 ∧ u.rd (K.LINE_CO_SESSION n) = v.rd (K.LINE_CO_SESSION n) ∧ (u.co n).out = [] ∧
          (u.co n).e = 0) ∧
        (v.binding n = true → u.phase n = v.phase n ∧ (u.co n).bind = (v.co n).bind ∧ u.binding n = true)) ∧
  (∀ (s : State) (n : Fin 16) (h : MsgHead) (agr : BitVec 8), s.heard n 0x42 h = true →
    (s.judged n h).agrDiffers n agr.toNat = false → Runs (.keepalive n h agr) s fun t =>
      ∃ u, t = State.coSettle u n ∧ u = s.judged n h ∧ u.rd (K.LINE_CO_PEER_PHASE n) = h.phase.toNat ∧ u.coFlag n 7 = false) ∧
  (∀ (s : State) (n : Fin 16) (h : MsgHead) (agr lock fill verify done : BitVec 8) (c : Instr),
    c = .status n h agr lock fill verify ∧ s.heard n 0x07 h = true ∨ c = .ready n h agr done ∧ s.heard n 0x08 h = true ∨
      c = .keepalive n h agr ∧ s.heard n 0x42 h = true →
    4 ≤ (s.judged n h).phase n → 4 ≤ (s.judged n h).rd (K.LINE_CO_PEER_PHASE n) → agr.toNat ≠ (s.judged n h).rd (K.LINE_CO_AGR n) →
    Runs c s fun t =>
      ∃ u, t = State.coSettle u n ∧ ∀ v, v = s.judged n h →
        CountsUp v u (K.LINE_CO_CONTRADICT n) 1 ∧ (v.binding n = true → u.phase n = v.phase n) ∧
        (v.binding n = false → u.phase n = 3 ∧ u.rd (K.LINE_CO_AGR n) = 0)) ∧
  (∀ (s : State) (n : Fin 16) (h : MsgHead) (b : CapMsg) (a1 a2 a3 a4 : BitVec 8) (taps : List (BitVec 16)) (c : Instr),
    c = .cap n h b ∨ c = .propose n h a1 a2 a3 a4 ∨ c = .accept n h a1 a2 a3 a4 ∨ c = .reject n h a1 a2 a3 ∨
      c = .txeqReq n h a1 a2 taps ∨ c = .txeqAck n h a1 a2 taps ∨ c = .status n h a1 a2 a3 a4 ∨ c = .ready n h a1 a2 ∨
      c = .keepalive n h a1 →
    (s.phase n = 1 → h.session.toNat ≠ 0 → h.phase.toNat ≤ 7 → s.on (K.LINE_TX_OUT_EN n) = true →
      s.rd (K.LINE_PICOT_DEPTH n) ≠ 0 → Runs c s fun t =>
        t.phase n = 2 ∧ t.rd (K.LINE_CO_PEER_SESSION n) = h.session.toNat ∧ t.rd (K.LINE_CO_PEER_PHASE n) = h.phase.toNat ∧
        (∃ m, m ∈ (t.co n).out ∧ m.typ = 0x01)) ∧
    (s.phase n ≠ 0 → h.session.toNat = 0 ∨ 7 < h.phase.toNat → Runs c s fun t =>
      t = State.incSat s (K.LINE_CO_MALFORMED n)) ∧
    (s.phase n = 0 → Runs c s fun t => t = s))

/-- R190, R191, R193, R195, R214, R217, R218, R221: the timers of the conversation. The response timer sends what is outstanding again,
and with its retries used up the partner counts as silent: in C7 the lane stays, shows it and lets what waits take the place of what is
outstanding; below, it restarts. The beacon, keepalive, status and back-off timers send their message; the phase timer and the cast-on
limit restart the conversation unless a hold stops them, of a lane that binds off too (log entry 27); the wait for BIND ends in C0, but
none passes while BIND has not been sent; the propose timer proposes; the verify window ends in the gate's result. What rests on a
choice or reading of the model: log entries 8, 46, 48. -/
def Obligations.CastOnTimers : Prop :=
  (∀ (s : State) (n : Fin 16), ((s.co n).out.filter (·.sent)).isEmpty = true →
    Runs (.responseTimer n) s fun t => t = s.coSettle n) ∧
  (∀ (s : State) (n : Fin 16) (c : Nat), c = ((s.co n).out.filter (·.sent)).length → 0 < c → (s.co n).retries < s.coTimer n 2 →
    Runs (.responseTimer n) s fun t =>
      ∃ u, t = State.coSettle u n ∧ CountsUp s u (K.LINE_CO_RETRANSMIT n) c ∧ (u.co n).retries = (s.co n).retries + 1 ∧
        (u.co n).out = (s.co n).out ∧ u.phase n = s.phase n) ∧
  (∀ (s : State) (n : Fin 16) (c : Instr), c = .partnerSilence n ∨ (c = .responseTimer n ∧
      ((s.co n).out.filter (·.sent)).isEmpty = false ∧ s.coTimer n 2 ≤ (s.co n).retries) →
    Runs c s fun t =>
      ∃ u, t = State.coSettle u n ∧
        (s.phase n = 7 → u.phase n = 7 ∧ u.coFlag n 7 = true ∧ (u.co n).retries = 0 ∧
          (u.co n).out.map (fun m => (m.typ, m.body)) = ((s.co n).wait.take 4).map (fun m => (m.typ, m.body)) ∧
          (s.coFlag n 7 = false → CountsUp s u (K.LINE_CO_SILENCE n) 1)) ∧
        (2 ≤ s.phase n → s.phase n < 7 → CountsUp s u (K.LINE_CO_SILENCE n) 1 ∧ Restarts n 3 s u) ∧
        (s.phase n < 2 → u = s)) ∧
  (∀ (s : State) (n : Fin 16) (c : Instr),
    c = .beaconTimer n ∧ s.phase n = 1 ∧ (s.co n).backoff = false ∨ c = .keepaliveTimer n ∧ 2 ≤ s.phase n →
    (s.picot n).queue.length < 8 → Runs c s fun t =>
      (∃ p, (t.picot n).queue = (s.picot n).queue ++ [p] ∧ p.typ = 0x42) ∧ (∀ m, m ≠ n → t.lane m = s.lane m) ∧ ∀ x, t.rd x = s.rd x) ∧
  (∀ (s : State) (n : Fin 16), s.phase n ≠ 1 ∨ (s.co n).backoff = true → Runs (.beaconTimer n) s fun t => t = s) ∧
  (∀ (s : State) (n : Fin 16), s.phase n < 2 → Runs (.keepaliveTimer n) s fun t => t = s) ∧
  (∀ (s : State) (n : Fin 16), 2 ≤ s.phase n → s.phase n < 7 → s.coHeld n = false →
    s.coTimer n (s.phase n + 4) ≠ 0 → Runs (.phaseTimeout n) s fun t =>
      (s.phase n ≠ 5 ∨ s.realign n = false → CountsUp s t (K.LINE_CO_PHASE_TIMEOUT n) 1 ∧ Restarts n 1 s t) ∧
      (s.phase n = 5 → s.realign n = true → (s.co n).realignOuts ≠ 0 →
        CountsUp s t (K.LINE_CO_PHASE_TIMEOUT n) 1 ∧ Restarts n 7 s t) ∧
      (s.phase n = 5 → s.realign n = true → (s.co n).realignOuts = 0 →
        (t.co n).realignOuts = 1 ∧ (t.lane n).warm = false ∧ ∀ x, t.rd x = s.rd x)) ∧
  (∀ (s : State) (n : Fin 16), s.phase n < 2 ∨ s.phase n = 7 ∨ s.coHeld n = true ∨
    s.coTimer n (s.phase n + 4) = 0 → Runs (.phaseTimeout n) s fun t => t = s) ∧
  (∀ (s : State) (n : Fin 16), 2 ≤ s.phase n → s.phase n < 7 → s.coHeld n = false →
    Runs (.castOnLimit n) s fun t => CountsUp s t (K.LINE_CO_LIMIT n) 1 ∧ Restarts n 2 s t) ∧
  (∀ (s : State) (n : Fin 16), s.phase n < 2 ∨ s.phase n = 7 ∨ s.coHeld n = true →
    Runs (.castOnLimit n) s fun t => t = s) ∧
  (∀ (s : State) (n : Fin 16), s.phase n = 7 → s.coTimer n 12 ≠ 0 → Runs (.statusTimer n) s fun t =>
      (t.co n).lastStatus = s.lockFill n ∧ (t.co n).out.length + (t.co n).wait.length = (s.co n).out.length + (s.co n).wait.length + 1 ∧
      t.phase n = 7) ∧
  (∀ (s : State) (n : Fin 16), s.phase n ≠ 7 ∨ s.coTimer n 12 = 0 → Runs (.statusTimer n) s fun t => t = s) ∧
  (∀ (s : State) (n : Fin 16) (reason : Nat), s.binding n = true → s.coTimer n 13 ≠ 0 → (s.co n).bind = some reason →
    (∀ m ∈ (s.co n).out ++ (s.co n).wait, m.typ = 0x09 → m.sent = true) → Runs (.bindTimeout n) s fun t =>
      t.phase n = 0 ∧ (t.co n).hold = (reason == 1) ∧ (t.co n).bind = none ∧ t.rd (K.LINE_CO_FLAGS n) = 0 ∧
      t.rd (K.LINE_CO_PEER_PHASE n) = 0xFF) ∧
  (∀ (s : State) (n : Fin 16), s.binding n = false ∨ s.coTimer n 13 = 0 ∨ (s.co n).bind = none ∨
    (∃ m, m ∈ (s.co n).out ++ (s.co n).wait ∧ m.typ = 0x09 ∧ m.sent = false) →
    Runs (.bindTimeout n) s fun t => t = s) ∧
  (∀ (s : State) (n : Fin 16), s.phase n = 1 → (s.co n).backoff = true → (s.picot n).queue.length < 8 →
    Runs (.restartBackoffEnd n) s fun t =>
      (t.co n).backoff = false ∧ (∃ p, (t.picot n).queue = (s.picot n).queue ++ [p] ∧ p.typ = 0x42) ∧ ∀ x, t.rd x = s.rd x) ∧
  (∀ (s : State) (n : Fin 16), s.phase n ≠ 1 ∨ (s.co n).backoff = false → Runs (.restartBackoffEnd n) s fun t => t = s) ∧
  (∀ (s : State) (n : Fin 16) (a : Agreed), s.phase n = 3 → s.rd (K.LINE_CO_ROLE n) = 0 → s.idHigher n = false →
    (s.co n).prop = none → (s.co n).accepted = none → (s.co n).rejected = none → (s.co n).heardPropose = false →
    (s.co n).noPropose = false → s.coHeld n = false → s.agreement n = some a → Runs (.proposeTimer n) s fun t =>
      (t.co n).prop = some ⟨(s.co n).propNum, a.format, a.precode, a.time.toNat⟩ ∧
      (t.co n).propNum = (if (s.co n).propNum = 255 then 1 else (s.co n).propNum + 1) ∧ t.phase n = 3) ∧
  (∀ (s : State) (n : Fin 16), s.phase n ≠ 3 ∨ s.rd (K.LINE_CO_ROLE n) ≠ 0 ∨ s.idHigher n = true ∨ (s.co n).heardPropose = true ∨
    s.coHeld n = true → Runs (.proposeTimer n) s fun t => t = s) ∧
  (∀ (s : State) (n : Fin 16), s.phase n = 6 → (s.co n).gate = 0 → s.binding n = false → Runs (.verifyWindowEnd n) s fun t =>
      ∃ u, t = forAll (s.portLines n) (fun m x => State.coSettle x m) u ∧
        (s.gatePasses n (s.co n).win = true → (u.co n).gate = 1 ∧ u.phase n = 6 ∧ ∀ x, u.rd x = s.rd x) ∧
        (s.gatePasses n (s.co n).win = false → (s.co n).retrains < s.rd (K.LINE_CO_RETRAIN_MAX n) →
          u.phase n = 4 ∧ CountsUp s u (K.LINE_CO_RETRAIN n) 1) ∧
        (s.gatePasses n (s.co n).win = false → s.rd (K.LINE_CO_RETRAIN_MAX n) ≤ (s.co n).retrains →
          Restarts n 5 s u)) ∧
  (∀ (s : State) (n : Fin 16), s.phase n ≠ 6 ∨ (s.co n).gate ≠ 0 ∨ s.binding n = true →
    Runs (.verifyWindowEnd n) s fun t => t = s)

/-- R180, R181, R221: `LINE_ADMIN` of 1 ends a hold and starts the calibrations of cast-on, of 0 leads out of C1 to C0 and starts
bind-off above it, once; the RESTART command restarts the conversation, of a lane that binds off too (log entry 27), and BIND_OFF holds
the lane down; in C0 both do nothing. R210, R211: in C4 under policy 2 `LINE_CO_TXEQ_GO` sends the taps of the entries or ends the
policy, and a measurement of the TXEQ search is the SNR of the errors gathered. R225: `LINE_CO_CLEAR` of 1 zeroes the counters. What
rests on a choice or reading of the model: log entries 8, 49, 89. -/
def Obligations.CastOnCommands : Prop :=
  (∀ (s : State) (r : Fin 18) (n : Fin 16), s.accepts r (K.LINE_ADMIN n) (be 1 1) = true → Runs (.lineAdminWrite r n 1) s fun t =>
      t.rd (K.LINE_ADMIN n) = 1 ∧ (t.co n).hold = false ∧ t.phase n = s.phase n ∧ (t.co n).bind = (s.co n).bind ∧
      (s.phase n = 0 → s.inRun n = true → (s.unit (laneUnit n)).trans = .still → s.pwr.offStep = 0 → (s.lane n).laneReset = false →
        s.laneTested n = false → s.calIdle n = true → (s.co n).calCo = false →
        (t.co n).calCo = true ∧ (t.lane n).calLane = true)) ∧
  (∀ (s : State) (r : Fin 18) (n : Fin 16), s.accepts r (K.LINE_ADMIN n) (be 1 0) = true → Runs (.lineAdminWrite r n 0) s fun t =>
      t.rd (K.LINE_ADMIN n) = 0 ∧ (s.phase n ≤ 1 → t.phase n = 0 ∧ (t.co n).hold = false) ∧
      (2 ≤ s.phase n → (s.co n).bind = none → CountsUp s t (K.LINE_CO_BIND_TX n) 1 ∧ (t.co n).bind = some 0 ∧ t.binding n = true ∧
        t.phase n = s.phase n ∧ (t.co n).hold = false) ∧
      (∀ reason, 2 ≤ s.phase n → s.binding n = true → (s.co n).bind = some reason →
        t.rd (K.LINE_CO_BIND_TX n) = s.rd (K.LINE_CO_BIND_TX n) ∧ (t.co n).bind = some reason ∧ t.phase n = s.phase n)) ∧
  (∀ (s : State) (r : Fin 18) (n : Fin 16), s.accepts r (K.LINE_CO_CMD n) (be 1 1) = true → Runs (.coRestart r n) s fun t =>
      (1 ≤ s.phase n → s.phase n ≤ 7 → Restarts n 10 s t) ∧
      (s.phase n = 0 → t.lanes = s.lanes ∧ Changes [] s t)) ∧
  (∀ (s : State) (r : Fin 18) (n : Fin 16), s.accepts r (K.LINE_CO_CMD n) (be 1 2) = true → Runs (.coBindOff r n) s fun t =>
      (s.phase n = 0 → t.lanes = s.lanes ∧ Changes [] s t) ∧ (s.phase n = 1 → t.phase n = 0 ∧ (t.co n).hold = true) ∧
      (2 ≤ s.phase n → (s.co n).bind = none → CountsUp s t (K.LINE_CO_BIND_TX n) 1 ∧ (t.co n).bind = some 1 ∧ t.binding n = true ∧
        t.phase n = s.phase n) ∧
      (∀ reason, 2 ≤ s.phase n → s.binding n = true → (s.co n).bind = some reason →
        t.rd (K.LINE_CO_BIND_TX n) = s.rd (K.LINE_CO_BIND_TX n) ∧ (t.co n).bind = some reason ∧ t.phase n = s.phase n)) ∧
  (∀ (s : State) (r : Fin 18) (n : Fin 16), s.accepts r (K.LINE_CO_TXEQ_GO n) (be 1 1) = true → s.phase n = 4 →
    s.rd (K.LINE_CO_TXEQ_POLICY n) = 2 → Runs (.lineCoTxeqGo r n 1) s fun t =>
      (t.co n).reqId = ((s.co n).reqId + 1) % 256 ∧ ∃ m, m ∈ (t.co n).out ++ (t.co n).wait ∧ m.typ = 0x05) ∧
  (∀ (s : State) (r : Fin 18) (n : Fin 16), s.accepts r (K.LINE_CO_TXEQ_GO n) (be 1 2) = true → s.phase n = 4 →
    s.rd (K.LINE_CO_TXEQ_POLICY n) = 2 → Runs (.lineCoTxeqGo r n 2) s fun t =>
      (t.phase n = 4 → (t.co n).txeq = .done) ∧ (t.phase n = 4 ∨ t.phase n = 5 ∧ (s.lane n).adapt = 2)) ∧
  (∀ (s : State) (r : Fin 18) (n : Fin 16) (v : BitVec 8), s.accepts r (K.LINE_CO_TXEQ_GO n) (be 1 v.toNat) = true →
    s.phase n ≠ 4 ∨ s.rd (K.LINE_CO_TXEQ_POLICY n) ≠ 2 ∨ v = 0 → Runs (.lineCoTxeqGo r n v) s fun t =>
      t.lanes = s.lanes ∧ Changes [] s t) ∧
  (∀ (s : State) (n : Fin 16) (snr : Int), s.phase n = 4 →
    snr = (s.snrValue (5 * (s.lane n).snrT.n * 2 ^ 52) (s.lane n).snrT.sq).1 → Runs (.txeqSearchMeasure n) s fun t =>
      ∃ u, t = State.coSettle u n ∧
        ((s.co n).txeq = .baseline ∨ (s.co n).txeq = .settle → u.rd (K.LINE_CO_TRAIN_SNR n) = (snr % 2 ^ 16).toNat) ∧
        ((s.co n).txeq ≠ .baseline → (s.co n).txeq ≠ .settle → u = s) ∧
        ((s.co n).txeq = .baseline → (u.co n).best = snr ∧ u.rd (K.LINE_CO_TXEQ_STEPS n) = 0) ∧
        ((s.co n).txeq = .settle → snr < (s.co n).best + 5 → (u.co n).txeq = .backAck) ∧
        ((s.co n).txeq = .settle → (s.co n).best + 5 ≤ snr →
          (u.co n).best = snr ∧ CountsUp s u (K.LINE_CO_TXEQ_STEPS n) 1)) ∧
  (∀ (s : State) (n : Fin 16), s.phase n ≠ 4 → Runs (.txeqSearchMeasure n) s fun t => t = s) ∧
  (∀ (s : State) (r : Fin 18) (n : Fin 16), s.accepts r (K.LINE_CO_CLEAR n) (be 1 1) = true → Runs (.lineCoClear r n 1) s fun t =>
      (∀ i, 1 ≤ i → i ≤ 26 → t.rd ⟨.line n, 0x2E, i⟩ = resetOf ⟨.line n, 0x2E, i⟩) ∧ t.lanes = s.lanes ∧
      Changes ((List.range 26).map fun i => ⟨.line n, 0x2E, i + 1⟩) s t)

/-- R236, R240, R241: `picotBurstStart` sends the queue's first packet where the lane may send, as the symbols of Table 8-2, with the
depth and channel last written, counted, and a packet that waited takes the free place; `picotBurstEnd` opens the gap of four symbols
and starts a calibration that waited (R94). R249: the discriminator outputs of the symbols that come in enter the store of the last 96.
Table 8-6: `picotCandidateEnd` with a detection (R246) starts SYNC, is ignored, kept or supersedes; `picotModeMismatch` is counted
(R247); `picotSyncFound`: a sync word among the symbols stored, at most two of sixteen decisions wrong, at most 40 symbols after the
candidate, leads to the header (R248), `picotSyncTimeout` without one to RESUME; `picotPilotPair`: two missed pairs in a row end a
payload (R251). R238, R248, R252: `picotHeaderEnd` decodes the header from the store and checks CRC and channel, `picotPayloadEnd` the
CRC; a packet that passes is counted with its SNR and offset. A lane under self-test hears nothing (R505). How a decision is taken from
the discriminator is the model's (log entry 102). R253: `PICOT_CLEAR` of 1 zeroes the counters. What rests on a choice or reading of the
model: log entries 8, 28, 90. -/
def Obligations.PicotChannel : Prop :=
  (∀ (s : State) (n : Fin 16) (p : Packet) (rest : List Packet), s.picotMay n = true → (s.picot n).queue = p :: rest →
    Runs (.picotBurstStart n) s fun t =>
      (t.picot n).burst = some p ∧ (t.picot n).queue = rest ++ (s.picot n).waiting.take 1 ∧
      (t.picot n).depth = s.rd (K.LINE_PICOT_DEPTH n) ∧ (t.picot n).chan = s.rd (K.PICOT_TX_CHAN n) ∧
      (t.picot n).tone = picotBurst (s.picot n).mode (s.rd (K.PICOT_TX_CHAN n)) p ∧
      CountsUp s t (K.PICOT_TX_PACKETS n) 1 ∧ (p.typ = 0x41 → CountsUp s t (K.TIME_TX_SENT n) 1) ∧
      (sequenced p.typ = true → ∀ m ∈ (t.co n).out, m.typ = p.typ → m.seq = p.seq → m.sent = true) ∧
      (∀ m, m ≠ n → t.lane m = s.lane m) ∧ Changes [K.PICOT_TX_PACKETS n, K.TIME_TX_SENT n] s t) ∧
  (∀ (s : State) (n : Fin 16), s.picotMay n = false ∨ (s.picot n).queue = [] → Runs (.picotBurstStart n) s fun t => t = s) ∧
  (∀ (s : State) (n : Fin 16) (p : Packet), (s.picot n).burst = some p → p.typ ≠ 0x09 ∨ s.coTimer n 13 ≠ 0 →
    Runs (.picotBurstEnd n) s fun t =>
      (t.picot n).burst = none ∧ (t.picot n).tone = [] ∧
      (t.picot n).gapUntil = s.now + (if (s.picot n).burstMode = 0 then 28125 else 112500) ∧
      ((s.lane n).calDacDue = true → (t.lane n).calDac = true ∧ (t.lane n).calDacDue = false ∧ t.bit (K.LINE_TX_FAULT n) 2 = true) ∧
      ((s.lane n).calDacDue = false → ∀ x, t.rd x = s.rd x)) ∧
  (∀ (s : State) (n : Fin 16) (p : Packet), (s.picot n).burst = some p → p.typ = 0x09 → s.coTimer n 13 = 0 →
    (s.co n).bind ≠ none → Runs (.picotBurstEnd n) s fun t => t.phase n = 0 ∧ (t.co n).bind = none) ∧
  (∀ (s : State) (n : Fin 16), (s.picot n).burst = none → Runs (.picotBurstEnd n) s fun t => t = s) ∧
  (∀ (s : State) (n : Fin 16) (ds : List (BitVec 9 × BitVec 16 × BitVec 16)), (s.picot n).rx ≠ .off → s.laneTested n = false →
    ∀ p e, candidateOf (s.rd (K.PICOT_DET_THR n)) (s.rdI (K.PICOT_SQUELCH n)) (ds.map fun d => (d.1.toNat, d.2.1.toInt)) = some (p, e) →
    Runs (.picotCandidateEnd n ds) s fun t =>
      CountsUp s t (K.PICOT_RX_DETECT n) 1 ∧ (∀ m, m ≠ n → t.lane m = s.lane m) ∧
      (t.picot n).disc = ((ds.map fun d => d.2.2.toInt).reverse ++ (s.picot n).disc).take 96 ∧
      (t.picot n).symNo = (s.picot n).symNo + ds.length ∧
      ((s.picot n).rx = .search → (t.picot n).rx = .sync ∧ (t.picot n).strength = p ∧ (t.picot n).candAt = (s.picot n).symNo + e ∧
        Changes [K.PICOT_RX_DETECT n] s t) ∧
      ((s.picot n).rx = .payload → (t.picot n).rx = .payload ∧ (t.picot n).pend = (s.picot n).pend ∧
        CountsUp s t (K.PICOT_RX_IGNORED n) 1) ∧
      ((s.picot n).rx = .sync ∨ (s.picot n).rx = .header →
        ((s.picot n).strength + 600 ≤ p → (t.picot n).rx = .sync ∧ (t.picot n).strength = p ∧
          (t.picot n).candAt = (s.picot n).symNo + e ∧ (t.picot n).pend = none ∧ CountsUp s t (K.PICOT_RX_SUPERSEDED n) 1 ∧
          CountsUp s t (K.PICOT_RX_IGNORED n) (if (s.picot n).pend = none then 0 else 1)) ∧
        (p < (s.picot n).strength + 600 → (t.picot n).rx = (s.picot n).rx ∧ (t.picot n).candAt = (s.picot n).candAt ∧
          ((s.picot n).pend = none → (t.picot n).pend = some (p, (s.picot n).symNo + e)) ∧
          (∀ q, (s.picot n).pend = some q → CountsUp s t (K.PICOT_RX_IGNORED n) 1 ∧
            (t.picot n).pend = some (if q.1 < p then (p, (s.picot n).symNo + e) else q))))) ∧
  (∀ (s : State) (n : Fin 16) (ds : List (BitVec 9 × BitVec 16 × BitVec 16)), (s.picot n).rx ≠ .off → s.laneTested n = false →
      (∀ d ∈ ds, d.1.toNat < s.rd (K.PICOT_DET_THR n) ∨ d.2.1.toInt < s.rdI (K.PICOT_SQUELCH n)) →
    Runs (.picotCandidateEnd n ds) s fun t =>
      (t.picot n).disc = ((ds.map fun d => d.2.2.toInt).reverse ++ (s.picot n).disc).take 96 ∧
      (t.picot n).symNo = (s.picot n).symNo + ds.length ∧ (t.picot n).rx = (s.picot n).rx ∧ (t.picot n).pend = (s.picot n).pend ∧
      (∀ m, m ≠ n → t.lane m = s.lane m) ∧ ∀ x, t.rd x = s.rd x) ∧
  (∀ (s : State) (n : Fin 16) (ds : List (BitVec 9 × BitVec 16 × BitVec 16)), (s.picot n).rx = .off ∨ s.laneTested n = true →
    Runs (.picotCandidateEnd n ds) s fun t => t = s) ∧
  (∀ (s : State) (n : Fin 16), (s.picot n).rx ≠ .off → s.laneTested n = false → Runs (.picotModeMismatch n) s fun t =>
      CountsUp s t (K.PICOT_RX_MODE_MISMATCH n) 1 ∧ t.lanes = s.lanes ∧ Changes [K.PICOT_RX_MODE_MISMATCH n] s t) ∧
  (∀ (s : State) (n : Fin 16), (s.picot n).rx = .off ∨ s.laneTested n = true → Runs (.picotModeMismatch n) s fun t => t = s) ∧
  (∀ (s : State) (n : Fin 16) (sym : List (BitVec 16)), (s.picot n).rx = .sync → s.laneTested n = false →
    ∀ m, m = { s.picot n with disc := ((sym.map BitVec.toInt).reverse ++ (s.picot n).disc).take 96,
                              symNo := (s.picot n).symNo + sym.length } →
    ∀ e, m.candAt < e → e ≤ m.candAt + 40 →
    (∃ d, decisions m (e - 16) 16 = some d ∧ ((d.zip (syncWord (picotAmp m.mode))).filter fun p => p.1 != p.2).length ≤ 2) →
    Runs (.picotSyncFound n sym) s fun t =>
      (t.picot n).rx = .header ∧ m.candAt < (t.picot n).syncAt ∧ (t.picot n).syncAt ≤ e ∧ (t.picot n).disc = m.disc ∧
      (∀ k, k ≠ n → t.lane k = s.lane k) ∧ ∀ x, t.rd x = s.rd x) ∧
  (∀ (s : State) (n : Fin 16) (sym : List (BitVec 16)), (s.picot n).rx = .sync → s.laneTested n = false →
    ∀ m, m = { s.picot n with disc := ((sym.map BitVec.toInt).reverse ++ (s.picot n).disc).take 96,
                              symNo := (s.picot n).symNo + sym.length } →
    syncIn m = none → Runs (.picotSyncFound n sym) s fun t => t.picot n = m ∧ ∀ x, t.rd x = s.rd x) ∧
  (∀ (s : State) (n : Fin 16) (sym : List (BitVec 16)), (s.picot n).rx = .sync → s.laneTested n = false →
    ∀ m, m = { s.picot n with disc := ((sym.map BitVec.toInt).reverse ++ (s.picot n).disc).take 96,
                              symNo := (s.picot n).symNo + sym.length } →
    Runs (.picotSyncTimeout n sym) s fun t =>
      (syncIn m = none → CountsUp s t (K.PICOT_RX_SYNC_FAIL n) 1 ∧ (t.picot n).pend = none ∧ (t.picot n).disc = m.disc ∧
        ((s.picot n).pend = none → (t.picot n).rx = .search ∧ (t.picot n).rxChan = s.rd (K.PICOT_RX_CHAN n)) ∧
        (∀ q, (s.picot n).pend = some q → (t.picot n).rx = .sync ∧ (t.picot n).strength = q.1 ∧ (t.picot n).candAt = q.2 ∧
          CountsUp s t (K.PICOT_RX_RESUMED n) 1)) ∧
      (syncIn m ≠ none → t.picot n = m ∧ ∀ x, t.rd x = s.rd x)) ∧
  (∀ (s : State) (n : Fin 16) (sym : List (BitVec 16)) (c : Instr),
    c = .picotSyncFound n sym ∨ c = .picotSyncTimeout n sym → (s.picot n).rx ≠ .sync ∨ s.laneTested n = true →
    Runs c s fun t =>
      ((s.picot n).rx = .off ∨ s.laneTested n = true → t = s) ∧
      (t.picot n).rx = (s.picot n).rx ∧ (t.picot n).pend = (s.picot n).pend ∧ ∀ x, t.rd x = s.rd x) ∧
  (∀ (s : State) (n : Fin 16) (a b : BitVec 4) (got : List Byte), (s.picot n).rx = .payload → s.laneTested n = false →
    ∀ ok, ok = pilotOk (s.picot n).mode a.toInt b.toInt → Runs (.picotPilotPair n a b got) s fun t =>
      (ok = true → (t.picot n).rx = .payload ∧ (t.picot n).missed = 0 ∧ ∀ x, t.rd x = s.rd x) ∧
      (ok = false → (s.picot n).missed = 0 → (t.picot n).rx = .payload ∧ (t.picot n).missed = 1 ∧ ∀ x, t.rd x = s.rd x) ∧
      (ok = false → (s.picot n).missed ≠ 0 → (t.picot n).rx = .search ∧ CountsUp s t (K.PICOT_RX_PILOT_LOSS n) 1)) ∧
  (∀ (s : State) (n : Fin 16) (a b : BitVec 4) (got : List Byte), (s.picot n).rx ≠ .payload ∨ s.laneTested n = true →
    Runs (.picotPilotPair n a b got) s fun t => t = s) ∧
  (∀ (s : State) (n : Fin 16) (sym : List (BitVec 16)) (snr foff : BitVec 16), (s.picot n).rx = .header →
    s.laneTested n = false →
    ∀ m, m = { s.picot n with disc := ((sym.map BitVec.toInt).reverse ++ (s.picot n).disc).take 96,
                              symNo := (s.picot n).symNo + sym.length } →
    Runs (.picotHeaderEnd n sym snr foff) s fun t =>
      (headerIn m = none → t.picot n = m ∧ ∀ x, t.rd x = s.rd x) ∧
      ∀ b, headerIn m = some b →
        (crc16 (b.take 4) ≠ beNat (b.drop 4) → CountsUp s t (K.PICOT_RX_HDR_FAIL n) 1 ∧
          ((s.picot n).pend = none → (t.picot n).rx = .search) ∧ (∀ q, (s.picot n).pend = some q → (t.picot n).rx = .sync)) ∧
        (crc16 (b.take 4) = beNat (b.drop 4) → State.byteAt b 2 / 16 ≠ (s.picot n).rxChan →
          CountsUp s t (K.PICOT_RX_CHAN_MISMATCH n) 1 ∧
          ((s.picot n).pend = none → (t.picot n).rx = .search) ∧ (∀ q, (s.picot n).pend = some q → (t.picot n).rx = .sync)) ∧
        (crc16 (b.take 4) = beNat (b.drop 4) → State.byteAt b 2 / 16 = (s.picot n).rxChan →
          (State.byteAt b 3 ≠ 0 → (t.picot n).rx = .payload ∧ (t.picot n).hdr = b.take 4 ∧ (t.picot n).missed = 0 ∧
            (t.picot n).pend = none) ∧
          (State.byteAt b 3 = 0 → CountsUp s t (K.PICOT_RX_PACKETS n) 1))) ∧
  (∀ (s : State) (n : Fin 16) (sym : List (BitVec 16)) (snr foff : BitVec 16), (s.picot n).rx ≠ .header ∨ s.laneTested n = true →
    Runs (.picotHeaderEnd n sym snr foff) s fun t =>
      ((s.picot n).rx = .off ∨ s.laneTested n = true → t = s) ∧
      (t.picot n).rx = (s.picot n).rx ∧ (t.picot n).pend = (s.picot n).pend ∧ ∀ x, t.rd x = s.rd x) ∧
  (∀ (s : State) (n : Fin 16) (payload : List Byte) (crc : BitVec 32) (snr foff : BitVec 16) (back : BitVec 8),
    (s.picot n).rx = .payload → s.laneTested n = false →
    ∀ ok, ok = State.payloadCrcOk (s.picot n).hdr (payload.take (State.byteAt (s.picot n).hdr 3)) (be 4 crc.toNat) →
    Runs (.picotPayloadEnd n payload crc snr foff back) s fun t =>
      (ok = true → CountsUp s t (K.PICOT_RX_PACKETS n) 1 ∧ t.rd (K.PICOT_LAST_SNR n) = snr.toNat ∧
        t.rd (K.PICOT_LAST_FOFF n) = foff.toNat) ∧
      (ok = false → CountsUp s t (K.PICOT_RX_PAYLOAD_FAIL n) 1 ∧ (t.picot n).rx = .search)) ∧
  (∀ (s : State) (n : Fin 16) (payload : List Byte) (crc : BitVec 32) (snr foff : BitVec 16) (back : BitVec 8),
    (s.picot n).rx ≠ .payload ∨ s.laneTested n = true → Runs (.picotPayloadEnd n payload crc snr foff back) s fun t => t = s) ∧
  (∀ (s : State) (r : Fin 18) (n : Fin 16), s.accepts r (K.PICOT_CLEAR n) (be 1 1) = true → Runs (.picotClear r n 1) s fun t =>
      (∀ i, 1 ≤ i → i ≤ 14 → t.rd ⟨.line n, 0x08, i⟩ = resetOf ⟨.line n, 0x08, i⟩) ∧ t.lanes = s.lanes ∧
      Changes ((List.range 14).map fun i => ⟨.line n, 0x08, i + 1⟩) s t)

/-- R287 to R292, R295: `timeMessageDue`: a TIME message is due 128 µs after a row whose number is a multiple of the period; it is
queued, skipped while another is being sent, and `timeWithdrawn` when its burst has not started in time. A received `time` is counted
and gives, by the first that applies, a fault with its own count, or a valid result: offset and delay of the four stamps, its sequence,
LINE_TIME_RESULT. A period of a lane without a result ages it; the selected source's and the beacons' periods count in the time unit
(R298). `TIME_CLEAR` of 1 zeroes the counters. What rests on a choice or reading of the model: log entries 8, 53. -/
def Obligations.TimeTransfer : Prop :=
  (∀ (s : State) (n : Fin 16) (h : MsgHead) (m : TimeMsg) (back : BitVec 8), s.heard n 0x41 h = true →
    (s.judged n h).xferRuns n = true → ∀ row, row = ((s.judged n h).rd (K.LINE_ROW_RX n) + 2 ^ 32 - back.toNat) % 2 ^ 32 →
    Runs (.time n h m back) s fun t =>
      ∃ u, t = State.coSettle u n ∧ ∀ v, v = s.judged n h →
        CountsUp v u (K.TIME_RX n) 1 ∧
        (m.flags.toNat.testBit 2 = false ∨ m.flags.toNat.testBit 0 = false →
          CountsUp v u (K.TIME_INVALID_FLAG n) 1 ∧ Raised u Src.LINE_TIME_FAULT) ∧
        (m.flags.toNat.testBit 2 = true → m.flags.toNat.testBit 0 = true →
          ((v.xfer n).dep.find? fun d => d.row == m.echoRow.toNat) = none →
          CountsUp v u (K.TIME_NO_DEPARTURE n) 1 ∧ Raised u Src.LINE_TIME_FAULT) ∧
        (m.flags.toNat.testBit 2 = true → m.flags.toNat.testBit 0 = true →
          ∀ d, ((v.xfer n).dep.find? fun d => d.row == m.echoRow.toNat) = some d →
          (((v.xfer n).arr.find? fun a => a.row == row) = none →
            CountsUp v u (K.TIME_NO_ARRIVAL n) 1 ∧ Raised u Src.LINE_TIME_FAULT) ∧
          (∀ a, ((v.xfer n).arr.find? fun a => a.row == row) = some a → d.gen ≠ a.gen →
            CountsUp v u (K.TIME_GEN_MISMATCH n) 1 ∧ Raised u Src.LINE_TIME_FAULT) ∧
          (∀ a, ((v.xfer n).arr.find? fun a => a.row == row) = some a → d.gen = a.gen →
            ∀ o, o = v.xferCompute n d.stamp (State.arrivalOf (ofTime96 m.echoStamp.toNat) m.echoFrac.toNat) (ofTime96 m.txStamp.toNat)
              (State.arrivalOf a.coarse a.frac) a.rate →
            (o.mean < 0 ∨ 1000000000000 < o.mean → CountsUp v u (K.TIME_IMPLAUSIBLE n) 1 ∧ Raised u Src.LINE_TIME_FAULT) ∧
            (0 ≤ o.mean → o.mean ≤ 1000000000000 →
              u.rd (K.TIME_LINE_OFFSET_FS n) = zx 64 o.theta ∧ (u.rd (K.TIME_LINE_DELAY_FS n) : Int) = o.mean ∧
              u.bit (K.TIME_LINE_FLAGS n) 0 = true ∧ CountsUp v u (K.TIME_RESULTS n) 1 ∧
              u.rd (K.TIME_LINE_SEQ n) = (v.rd (K.TIME_LINE_SEQ n) + 1) % 2 ^ 32 ∧ Raised u Src.LINE_TIME_RESULT)))) ∧
  (∀ (s : State) (n : Fin 16) (h : MsgHead) (m : TimeMsg) (back : BitVec 8), s.heard n 0x41 h = true →
    (s.judged n h).xferRuns n = false → Runs (.time n h m back) s fun t =>
      ∃ u, t = State.coSettle u n ∧ ∀ v, v = s.judged n h →
        CountsUp v u (K.TIME_RX n) 1 ∧ u.xfer n = v.xfer n ∧ Changes [K.TIME_RX n] v u) ∧
  (∀ (s : State) (n : Fin 16) (d : DepStamp), (s.xfer n).last = some d → s.xferRuns n = true →
    d.row % (s.xfer n).per = 0 → 16 ≤ (s.xfer n).rows → Runs (.timeMessageDue n) s fun t =>
      (((s.picot n).burst.map (·.typ)) = some 0x41 → CountsUp s t (K.TIME_SKIPPED n) 1 ∧ t.lanes = s.lanes) ∧
      (((s.picot n).burst.map (·.typ)) ≠ some 0x41 → (s.picot n).queue.length < 8 →
        (t.xfer n).due = some d ∧ (t.xfer n).dep = (s.xfer n).dep ∧
        (∃ p, (t.picot n).queue = (s.picot n).queue ++ [p] ∧ p.typ = 0x41) ∧ ∀ x, t.rd x = s.rd x) ∧
      (((s.picot n).burst.map (·.typ)) ≠ some 0x41 → 8 ≤ (s.picot n).queue.length → CountsUp s t (K.TIME_SKIPPED n) 1)) ∧
  (∀ (s : State) (n : Fin 16), (s.xfer n).last = none ∨ s.xferRuns n = false ∨ (s.xfer n).rows < 16 →
    Runs (.timeMessageDue n) s fun t => t = s) ∧
  (∀ (s : State) (n : Fin 16), (s.xfer n).due ≠ none → Runs (.timeWithdrawn n) s fun t =>
      (t.xfer n).due = none ∧ (t.xfer n).dep = (s.xfer n).dep ∧ CountsUp s t (K.TIME_WITHDRAWN n) 1 ∧
      (t.picot n).queue.take ((s.picot n).queue.filter fun p => p.typ != 0x41).length =
        ((s.picot n).queue.filter fun p => p.typ != 0x41) ∧
      (∀ m, m ≠ n → t.lane m = s.lane m) ∧ Changes [K.TIME_WITHDRAWN n] s t) ∧
  (∀ (s : State) (n : Fin 16), (s.xfer n).due = none → Runs (.timeWithdrawn n) s fun t => t = s) ∧
  (∀ (s : State) (n : Fin 16), Runs (.timeMeasurementMiss (.lane n)) s fun t =>
      (t.xfer n).got = false ∧ (t.xfer n).miss = (if (s.xfer n).got then 0 else (s.xfer n).miss + 1) ∧
      ((s.xfer n).got = false → s.rd K.TIME_HOLDOVER_MISS ≤ (s.xfer n).miss + 1 → t.bit (K.TIME_LINE_FLAGS n) 1 = true) ∧
      ((s.xfer n).got = true → ∀ x, t.rd x = s.rd x) ∧ (∀ m, m ≠ n → t.lane m = s.lane m) ∧ Changes [K.TIME_LINE_FLAGS n] s t) ∧
  (∀ s : State, s.timeSrc ≠ 2 → s.time.followed = true → Runs (.timeMeasurementMiss .source) s fun t =>
      t.time.followed = false ∧ t.time.missed = s.time.missed ∧ ∀ x, t.rd x = s.rd x) ∧
  (∀ s : State, s.timeSrc = 1 ∨ s.timeSrc = 3 → s.time.followed = false → s.rd K.TIME_HOLDOVER_MISS ≤ s.time.missed + 1 →
    Runs (.timeMeasurementMiss .source) s fun t => t.bit K.TIME_STATUS 3 = true) ∧
  (∀ s : State, s.on K.TIME_RING_BEACON_EN = false → s.timeSrc ≠ 2 → s.time.beaconSeen = true →
    Runs (.timeMeasurementMiss .beacon) s fun t => t.time.beaconSeen = false ∧ ∀ x, t.rd x = s.rd x) ∧
  (∀ (s : State) (r : Fin 18) (n : Fin 16), s.accepts r (K.TIME_CLEAR n) (be 1 1) = true → Runs (.timeClear r n 1) s fun t =>
      (∀ i, 1 ≤ i → i ≤ 10 → t.rd ⟨.line n, 0x3F, i⟩ = resetOf ⟨.line n, 0x3F, i⟩) ∧ t.lanes = s.lanes ∧
      Changes ((List.range 10).map fun i => ⟨.line n, 0x3F, i + 1⟩) s t)

/-- R257 to R263, Table 9-2: a step of an attempt that ends within its limits stores its correction and leads to the next, C waits for
loss of signal to clear, D ends READY; outside them the attempt fails, is counted and starts again, and at the limit of attempts the
slice is FAILED and reported. R258, R260, R262: the end of the interval postpones a substitution whose spare is not READY; a READY spare
takes its target slot, and the relieved slice is the next spare. R265, R266: `LINE_SS_RETEST` of 1 starts a retest of the failed slice,
`LINE_SS_CLEAR` of 1 zeroes the counters. What rests on a choice or reading of the model: log entries 8, 13, 51, 87. -/
def Obligations.SlipStitch : Prop :=
  (∀ (s : State) (n : Fin 16) (i : Fin 17) (v : BitVec 16), s.ssUnder n = some i → Runs (.ssStepEnd n v) s fun t =>
      (∀ m, m ≠ n → t.lane m = s.lane m) ∧
      ((s.ss n).step = 1 → (sx 16 v.toNat).natAbs ≤ 4096 → (t.sliceOf n i).off = sx 16 v.toNat ∧ (t.ss n).step = 2) ∧
      ((s.ss n).step = 2 → 28672 ≤ v.toNat → v.toNat ≤ 36864 → (t.sliceOf n i).gain = v.toNat ∧ (t.ss n).step = 3) ∧
      ((s.ss n).step = 3 → s.losOn n = false → (sx 16 v.toNat).natAbs ≤ 32 → (t.sliceOf n i).skew = sx 16 v.toNat ∧
        (t.ss n).step = if (s.ss n).ended || (s.ss n).retest then 5 else 4) ∧
      ((s.ss n).step = 3 ∨ (s.ss n).step = 5 → s.losOn n = true → t = s) ∧
      ((s.ss n).step = 4 → (t.ss n).step = if s.losOn n then 3 else 5) ∧
      ((s.ss n).step = 5 → s.losOn n = false → v.toNat ≤ s.rd (K.LINE_SS_VERIFY_THR n) →
        (t.ss n).step = 6 ∧ (t.sliceOf n i).st = 2 ∧ (t.sliceOf n i).fails = 0 ∧ (t.ss n).retest = false)) ∧
  (∀ (s : State) (n : Fin 16) (i : Fin 17) (v : BitVec 16) (cause : Nat), s.ssUnder n = some i → (s.ss n).retest = false →
    (s.ss n).step = 1 ∧ 4096 < (sx 16 v.toNat).natAbs ∧ cause = 1 ∨ (s.ss n).step = 2 ∧ v.toNat < 28672 ∧ cause = 2 ∨
      (s.ss n).step = 2 ∧ 36864 < v.toNat ∧ cause = 2 ∨ (s.ss n).step = 3 ∧ s.losOn n = false ∧ 32 < (sx 16 v.toNat).natAbs ∧ cause = 3 ∨
      (s.ss n).step = 5 ∧ s.losOn n = false ∧ s.rd (K.LINE_SS_VERIFY_THR n) < v.toNat ∧ cause = 4 →
    Runs (.ssStepEnd n v) s fun t =>
      CountsUp s t (K.LINE_SS_ATTEMPT_FAIL n) 1 ∧ t.rd (K.LINE_SS_LAST_FAIL n) = i.val * 256 + cause ∧
      (min 7 ((s.sliceOf n i).fails + 1) < s.rd (K.LINE_SS_ATTEMPTS n) → (t.ss n).step = 1 ∧
        (t.sliceOf n i).fails = min 7 ((s.sliceOf n i).fails + 1) ∧ (t.sliceOf n i).st = (s.sliceOf n i).st) ∧
      (s.rd (K.LINE_SS_ATTEMPTS n) ≤ min 7 ((s.sliceOf n i).fails + 1) → (t.ss n).step = 0 ∧ (t.sliceOf n i).st = 3 ∧
        CountsUp s t (K.LINE_SS_SLICE_FAILED n) 1 ∧ Raised t Src.SLICE_FAIL)) ∧
  (∀ (s : State) (n : Fin 16) (v : BitVec 16), s.ssUnder n = none ∨ (s.ss n).step = 0 ∨ (s.ss n).step = 6 →
    Runs (.ssStepEnd n v) s fun t => t = s) ∧
  (∀ (s : State) (n : Fin 16), 1 ≤ (s.ss n).step → (s.ss n).step ≤ 5 → (s.ss n).retest = false → (s.ss n).ended = false →
    Runs (.ssIntervalEnd n) s fun t =>
      (t.ss n).ended = true ∧ (t.ss n).postponed = true ∧ (t.ss n).step = (s.ss n).step ∧
      CountsUp s t (K.LINE_SS_POSTPONED n) 1 ∧ (∀ m, m ≠ n → t.lane m = s.lane m) ∧ Changes [K.LINE_SS_POSTPONED n] s t) ∧
  (∀ (s : State) (n : Fin 16), (s.ss n).step = 0 ∨ (s.ss n).retest = true ∨ (s.ss n).ended = true →
    Runs (.ssIntervalEnd n) s fun t => t = s) ∧
  (∀ (s : State) (n : Fin 16) (c : Instr) (i j : Fin 17), s.sliceSpare n = some i → s.sliceAt n (s.ss n).target = some j →
    (s.ss n).step = 6 → s.losOn n = false → c = .ssIntervalEnd n ∧ (s.ss n).retest = false ∧ (s.ss n).ended = false ∨
      c = .ssSubstitution n ∧ ((s.ss n).ended || (s.ss n).outOfTurn || (s.ss n).subNow) = true →
    Runs c s fun t =>
      (t.sliceOf n i).st = 0 ∧ (t.sliceOf n i).slot = (s.ss n).target ∧ (t.sliceOf n j).st = 1 ∧
      CountsUp s t (K.LINE_SS_SUBST n) 1 ∧ t.rd (K.LINE_SLOT_GEN n) = (s.rd (K.LINE_SLOT_GEN n) + 1) % 2 ^ 32 ∧
      t.rd (K.LINE_SS_LAST_SUBST n) = s.timeNow ∧ (∀ m, m ≠ n → t.lane m = s.lane m)) ∧
  (∀ (s : State) (n : Fin 16), s.ssReady n = false → Runs (.ssSubstitution n) s fun t => t = s) ∧
  (∀ (s : State) (r : Fin 18) (n : Fin 16) (i : Fin 17), s.accepts r (K.LINE_SS_RETEST n) (be 1 1) = true → s.sliceOut n = some i →
    (s.sliceOf n i).st = 3 → Runs (.lineSsRetest r n 1) s fun t =>
      (t.ss n).retest = true ∧ (t.ss n).step = 1 ∧ (t.ss n).tries = 0 ∧ (t.ss n).target = s.retestSlot n ∧
      (∀ m, m ≠ n → t.lane m = s.lane m) ∧ Changes [] s t) ∧
  (∀ (s : State) (r : Fin 18) (n : Fin 16), s.accepts r (K.LINE_SS_RETEST n) (be 1 0) = true →
    Runs (.lineSsRetest r n 0) s fun t => t.lanes = s.lanes ∧ Changes [] s t) ∧
  (∀ (s : State) (r : Fin 18) (n : Fin 16), s.accepts r (K.LINE_SS_CLEAR n) (be 1 1) = true → Runs (.lineSsClear r n 1) s fun t =>
      (∀ i, 1 ≤ i → i ≤ 6 → t.rd ⟨.line n, 0x0B, i⟩ = resetOf ⟨.line n, 0x0B, i⟩) ∧ t.lanes = s.lanes ∧
      Changes ((List.range 6).map fun i => ⟨.line n, 0x0B, i + 1⟩) s t)

/-- R94, R267 to R270: `LINE_CAL_CMD` starts the lane's calibration, the DAC's, or both, with their times; the DAC's waits for a burst
in progress. `laneCalComplete` applies the limits of steps A to C to what was measured: it ends with its mask and result, counted, and
with two or more failed slices it is reported, the lane stays in C0 and `laneCalRetry` tries again each second. `dacCalComplete` ends
with its result, and out of range it is reported. R183: the calibrations of cast-on that end well lead to C1 in a new SESSION. What
rests on a choice or reading of the model: log entry 8. -/
def Obligations.LaneCalibration : Prop :=
  (∀ (s : State) (r : Fin 18) (n : Fin 16) (c : Instr) (v : Nat),
    c = .lineCalLane r n ∧ v = 1 ∨ c = .lineCalDac r n ∧ v = 2 ∨ c = .lineCalBoth r n ∧ v = 3 →
    s.accepts r (K.LINE_CAL_CMD n) (be 1 v) = true → Runs c s fun t =>
      (v ≠ 2 → (t.lane n).calLane = true ∧ (t.lane n).calBad = false ∧ t.rd (K.LINE_CAL_LANE_LAST n) = s.timeNow ∧
        (t.picot n).rx = .off) ∧
      (v = 2 → (t.lane n).calLane = (s.lane n).calLane ∧ t.rd (K.LINE_CAL_LANE_LAST n) = s.rd (K.LINE_CAL_LANE_LAST n)) ∧
      (v ≠ 1 → (s.picot n).burst = none → (t.lane n).calDac = true ∧ t.rd (K.LINE_CAL_DAC_LAST n) = s.timeNow ∧
        t.bit (K.LINE_TX_FAULT n) 2 = true) ∧
      (v ≠ 1 → (s.picot n).burst ≠ none → (t.lane n).calDacDue = true ∧ (t.lane n).calDac = (s.lane n).calDac) ∧
      ∀ m, m ≠ n → t.lane m = s.lane m) ∧
  (∀ (s : State) (n : Fin 16) (corr : List SliceCorr), (s.lane n).calLane = true →
    ∀ mask, mask = State.corrMask (corr.map fun c => (c.off.toInt, c.gain.toNat, c.skew.toInt)) →
    ∀ failed, failed = (State.maskSlices mask).length →
    Runs (.laneCalComplete n corr) s fun t =>
      CountsUp s t (K.LINE_CAL_LANE_COUNT n) 1 ∧ t.rd (K.LINE_CAL_FAIL_MASK n) = mask ∧
      t.rd (K.LINE_CAL_LANE_RESULT n) = min 3 (failed + 1) ∧ (2 ≤ failed → Raised t Src.FG_CAL_FAIL) ∧
      (s.phase n ≠ 0 → (t.lane n).calLane = false ∧ t.phase n = s.phase n) ∧
      (s.phase n = 0 → (s.co n).calCo = true → s.on (K.LINE_ADMIN n) = true → (s.co n).hold = false → (s.lane n).calDac = false →
        (s.lane n).calDacDue = false →
        (failed < 2 → t.phase n = 1 ∧ t.rd (K.LINE_CO_SESSION n) ≠ 0 ∧ (t.co n).calCo = false) ∧
        (2 ≤ failed → t.phase n = 0 ∧ (t.lane n).calBad = true))) ∧
  (∀ (s : State) (n : Fin 16) (corr : List SliceCorr), (s.lane n).calLane = false →
    Runs (.laneCalComplete n corr) s fun t => t = s) ∧
  (∀ (corr : List (Int × Nat × Int)) (i : Nat), i < 17 →
    ((State.corrMask corr).testBit i = true ↔ State.corrFails (State.corrOf corr i) = true)) ∧
  (∀ (s : State) (n : Fin 16) (bad : Bool), (s.lane n).calDac = true → Runs (.dacCalComplete n bad) s fun t =>
      CountsUp s t (K.LINE_CAL_DAC_COUNT n) 1 ∧ t.rd (K.LINE_CAL_DAC_RESULT n) = (if bad then 2 else 1) ∧
      (bad = true → Raised t Src.FG_CAL_FAIL) ∧
      (s.phase n ≠ 0 → (t.lane n).calDac = false ∧ t.bit (K.LINE_TX_FAULT n) 2 = false) ∧
      (s.phase n = 0 → (s.co n).calCo = true → s.on (K.LINE_ADMIN n) = true → (s.co n).hold = false → (s.lane n).calLane = false →
        (s.lane n).calDacDue = false → (s.lane n).calBad = false → t.phase n = 1 ∧ t.rd (K.LINE_CO_SESSION n) ≠ 0)) ∧
  (∀ (s : State) (n : Fin 16) (bad : Bool), (s.lane n).calDac = false → Runs (.dacCalComplete n bad) s fun t => t = s) ∧
  (∀ (s : State) (n : Fin 16), (s.lane n).calBad = true → s.on (K.LINE_ADMIN n) = true → s.phase n = 0 → s.inRun n = true →
    s.calIdle n = true → Runs (.laneCalRetry n) s fun t =>
      (t.lane n).calLane = true ∧ (t.lane n).calBad = false ∧ t.rd (K.LINE_CAL_LANE_LAST n) = s.timeNow ∧
      Changes [K.LINE_CAL_LANE_LAST n] s t) ∧
  (∀ (s : State) (n : Fin 16), (s.lane n).calBad = false ∨ s.on (K.LINE_ADMIN n) = false ∨ s.phase n ≠ 0 →
    Runs (.laneCalRetry n) s fun t => t = s)

/-- R337, R341 to R346, Table 12-4: a port taken out of service is DISABLED, one put into service is DOWN; clean ordered sets lead to
TRAIN and, at the target, to VERIFY, whose clean code groups lead to UP, reported; too long a TRAIN, a violation in VERIFY, the eighth
violation in UP or a lost RXC lead back to DOWN, counted; a frame that a violation falls in counts as cut, once (R340). R346: a change
of the UP ports sends TOPO on each, after an own frame that is on its way there. R342: a LINK is kept; in TRAIN it holds a hop that
cannot take the target, which AGREE 0 tells its partner, and with 64 of the same LINK and AGREE sent and received the rate switches.
R345: RATE_GO after the RATE_SET of its code leaves and takes every UP port to TRAIN at the new rate, the input of the other port once
its own RATE_GO has come by it and passed; otherwise it passes, as TOPO does. What rests on a choice or reading of the model: log
entries 8, 54, 93. -/
def Obligations.RingPorts : Prop :=
  (∀ (s : State) (r : Fin 18) (p : Fin 2), s.accepts r (K.PORT_ADMIN p) (be 1 0) = true → Runs (.portAdminWrite r p 0) s fun t =>
      t.rd (K.PORT_ADMIN p) = 0 ∧ t.portState p = 0 ∧ t.rd (K.PORT_RATE p) = 0 ∧ t.lanes = s.lanes) ∧
  (∀ (s : State) (r : Fin 18) (p : Fin 2), s.accepts r (K.PORT_ADMIN p) (be 1 1) = true → Runs (.portAdminWrite r p 1) s fun t =>
      t.rd (K.PORT_ADMIN p) = 1 ∧ t.portState p = (if s.portState p = 0 then 1 else s.portState p)) ∧
  (∀ (s : State) (p : Fin 2), s.portState p = 1 → Runs (.ringLinkDetect p) s fun t =>
      t.portState p = 2 ∧ t.rd (K.PORT_RATE p) = 0 ∧ (t.port p).atTarget = false ∧ (t.port p).maxRate = s.rd K.RING_RATE_MAX) ∧
  (∀ (s : State) (p : Fin 2), s.portState p = 2 → (s.port p).atTarget = true → Runs (.ringLinkDetect p) s fun t =>
      t.portState p = 3 ∧ (s.rd (K.PORT_RATE p) < 256 → t.rd (K.PORT_RATE p) = s.rd (K.PORT_RATE p))) ∧
  (∀ (s : State) (p : Fin 2), s.portState p ≠ 1 → s.portState p ≠ 2 ∨ (s.port p).atTarget = false →
    Runs (.ringLinkDetect p) s fun t => t = s) ∧
  (∀ (s : State) (p : Fin 2) (d : BitVec 8) (t' : Nat), s.portState p = 2 → (s.port p).atTarget = false → (s.port p).byGo = false →
    s.ownTarget p d.toNat = some t' → t' ≤ (s.port p).maxRate → t' ≤ field d.toNat 7 6 → Runs (.link p d) s fun t =>
      t.rd (K.PORT_PARTNER p) = d.toNat ∧ (t.port p).held = false ∧
      (t.port p).same = (if field d.toNat 2 1 = t' then (s.port p).same + 1 else 0) ∧
      t.agreeSent p = decide (64 ≤ (t.port p).same) ∧
      (64 ≤ (t.port p).same → d.toNat.testBit 0 = true → s.agreeSent p = true → (t.port p).atTarget = true ∧ t.rd (K.PORT_RATE p) = t') ∧
      ((t.port p).same < 64 ∨ d.toNat.testBit 0 = false ∨ s.agreeSent p = false → (t.port p).atTarget = false ∧ t.rd (K.PORT_RATE p) = s.rd (K.PORT_RATE p))) ∧
  (∀ (s : State) (p : Fin 2) (d : BitVec 8), s.portState p = 2 → (s.port p).atTarget = false → (s.port p).byGo = false →
    s.ownTarget p d.toNat = none ∨ (∃ t', s.ownTarget p d.toNat = some t' ∧ ((s.port p).maxRate < t' ∨ field d.toNat 7 6 < t')) →
    Runs (.link p d) s fun t =>
      t.rd (K.PORT_PARTNER p) = d.toNat ∧ (t.port p).held = true ∧ (t.port p).same = 0 ∧ t.bit K.RING_STATUS 4 = true ∧ t.agreeSent p = false ∧
      ((s.port p).held = false → Raised t Src.RING_RATE_FAIL) ∧ t.portState p = 2) ∧
  (∀ (s : State) (p : Fin 2) (d : BitVec 8), s.portState p ≠ 0 → s.portState p ≠ 5 →
    s.portState p ≠ 2 ∨ (s.port p).atTarget = true ∨ (s.port p).byGo = true → Runs (.link p d) s fun t =>
      t.rd (K.PORT_PARTNER p) = d.toNat ∧ t.ring = s.ring ∧ Changes [K.PORT_PARTNER p] s t) ∧
  (∀ (s : State) (p : Fin 2) (d : BitVec 8), s.portState p = 0 ∨ s.portState p = 5 → Runs (.link p d) s fun t => t = s) ∧
  (∀ (s : State) (p : Fin 2), s.portState p = 2 → (s.port p).held = false → Runs (.ringTrainTimeout p) s fun t =>
      t.portState p = 1 ∧ t.rd (K.PORT_RATE p) = 0) ∧
  (∀ (s : State) (p : Fin 2), s.portState p ≠ 2 ∨ (s.port p).held = true → Runs (.ringTrainTimeout p) s fun t => t = s) ∧
  (∀ (s : State) (p : Fin 2), s.portState p = 3 → Runs (.ringVerifyPass p) s fun t =>
      t.portState p = 4 ∧ t.portUp p = true ∧ Raised t Src.RING_PORT_CHG ∧ t.bit K.RING_STATUS p.val = true ∧
      (s.portUp (State.other p) = true → t.bit K.RING_STATUS 2 = false ∧ t.bit K.RING_STATUS 3 = false) ∧
      ∀ q w, t.portUp q = true → w = !s.portUp (State.other p) →
        ((∀ i, (s.port i).flight = none) → (t.port q).tx = .topo w ∨ (t.port q).tx = .cutTopo w) ∧
        (∀ g e, q ≠ p → (s.port q).flight = some (g, e) → s.now < e →
          (t.port q).flight = some (g, e) ∧ (t.port q).tx = (s.port q).tx ∧ (t.port q).topoDue = some w)) ∧
  (∀ (s : State) (p : Fin 2), s.portState p ≠ 3 → Runs (.ringVerifyPass p) s fun t => t = s) ∧
  (∀ (s : State) (p : Fin 2) (inFrame : Bool), s.portState p ≠ 0 → s.portState p ≠ 5 → Runs (.ringCodeViolation p inFrame) s fun t =>
      CountsUp s t ⟨.dev, 0x2030, 1 + p.val⟩ 1 ∧
      (s.portState p = 1 ∨ s.portState p = 2 → t.portState p = s.portState p ∧ t.ring = s.ring) ∧
      (s.portState p = 3 → t.portState p = 1 ∧ CountsUp s t ⟨.dev, 0x2030, 5 + p.val⟩ 1 ∧
        ((s.port p).byGo = true → Raised t Src.RING_RATE_FAIL)) ∧
      (s.portState p = 4 → (inFrame = true → (s.port p).cut = false → CountsUp s t K.RING_ABORTED 1) ∧
        (inFrame = false ∨ (s.port p).cut = true → t.rd K.RING_ABORTED = s.rd K.RING_ABORTED) ∧
        (inFrame = true → t.portState p = 4 → (t.port p).cut = true) ∧
        ((s.port p).viols = [] → t.portState p = 4 ∧ (t.port p).viols = [s.now]) ∧
        (7 ≤ (s.port p).viols.length → (∀ x ∈ (s.port p).viols, s.now < x + symbolsCc (10 * 2 ^ 16) (s.rd (K.PORT_RATE p))) →
          t.portState p = 1 ∧ CountsUp s t ⟨.dev, 0x2030, 3 + p.val⟩ 1 ∧ Raised t Src.RING_PORT_CHG))) ∧
  (∀ (s : State) (p : Fin 2) (inFrame : Bool), s.portState p = 0 ∨ s.portState p = 5 →
    Runs (.ringCodeViolation p inFrame) s fun t => t = s) ∧
  (∀ (s : State) (p : Fin 2), s.portUp p = true → Runs (.ringRxcLoss p) s fun t =>
      t.portState p = 1 ∧ t.bit K.RING_STATUS p.val = false ∧ CountsUp s t ⟨.dev, 0x2030, 3 + p.val⟩ 1 ∧ Raised t Src.RING_PORT_CHG ∧
      (s.portUp (State.other p) = true → t.bit K.RING_STATUS (2 + p.val) = true ∧ Raised t Src.RING_WRAP_CHG)) ∧
  (∀ (s : State) (p : Fin 2), s.portUp p = false → Runs (.ringRxcLoss p) s fun t => t = s) ∧
  (∀ (s : State) (p : Fin 2) (x : Fin 4) (at_ : Nat), s.portUp p = true → s.ring.rateSet = some (x.val, at_) →
    s.now ≤ at_ + 175781250 → Runs (.rateGo p x) s fun t =>
      (∀ q, s.portUp q = true → t.portState q = 2 ∧ t.rd (K.PORT_RATE q) = x.val ∧ (t.port q).byGo = true ∧
        (t.port q).atTarget = decide (q = p) ∧ (t.port q).goIn = decide (q ≠ p)) ∧
      (t.port (s.outOf p)).tx = .rateGo x.val ∧
      field (t.rd K.RING_LOOP_RATE) 1 0 = x.val ∧ t.ring.rateSet = none ∧ Raised t Src.RING_RATE_CHG) ∧
  (∀ (s : State) (p : Fin 2) (x : Fin 4), s.portUp p = true →
    s.ring.rateSet = none ∨ (∃ r, s.ring.rateSet = some r ∧ (r.1 ≠ x.val ∨ r.2 + 175781250 < s.now)) → Runs (.rateGo p x) s fun t =>
      (t.port (s.outOf p)).tx = .rateGo x.val ∧ t.ring.rateSet = s.ring.rateSet ∧ ∀ k, t.rd k = s.rd k) ∧
  (∀ (s : State) (p : Fin 2) (x : Fin 4), s.portState p = 2 → (s.port p).goIn = true → Runs (.rateGo p x) s fun t =>
      (t.port (State.other p)).tx = .rateGo x.val ∧ (t.port p).goIn = decide (s.rd (K.PORT_RATE p) ≠ x.val) ∧
      (s.rd (K.PORT_RATE p) = x.val → (t.port p).atTarget = true) ∧ ∀ k, t.rd k = s.rd k) ∧
  (∀ (s : State) (p : Fin 2) (w : Bool), s.portUp p = true → Runs (.topo p w) s fun t =>
      (t.port (s.outOf p)).tx = .topo w ∧ ∀ k, t.rd k = s.rd k) ∧
  (∀ (s : State) (p : Fin 2) (x : Fin 4) (w : Bool) (c : Instr), c = .rateGo p x ∧ (s.portState p ≠ 2 ∨ (s.port p).goIn = false) ∨ c = .topo p w →
    s.portUp p = false → Runs c s fun t => t = s)

/-- R346, R348, R349, R362: a TOKEN on an UP port is passed by a device without an address or with nothing to send, else the EVENT that
is due or the oldest own frame leaves in its place. SOF that meets an own frame ends it, counted as a collision and sent again later. A
lost TOKEN is counted and reported. R362: an EVENT_ACK of the outstanding EVENT ends it; without one it is sent again three times and
then given up, its ROSE kept for the next. R363: as many CRC errors within a second as the threshold are reported, and `RING_CLEAR` of 1
zeroes the counters. R296, R354: a beacon that falls due waits on every UP port. What rests on a choice or reading of the model: log
entries 8, 54, 56. -/
def Obligations.RingAccess : Prop :=
  (∀ (s : State) (p : Fin 2), (∀ q, (s.port q).flight = none) → s.portUp p = true →
    s.ringAddr = 0 ∨ (s.eventDue = none ∧ s.ring.queue.find? (s.mayLeave (s.outOf p)) = none) → Runs (.token p) s fun t =>
      (t.port (s.outOf p)).tx = (((s.port (s.outOf p)).topoDue.map RingTx.tokenTopo).getD .token) ∧
      (t.port (s.outOf p)).topoDue = none ∧ t.ring.queue = s.ring.queue ∧ ∀ k, t.rd k = s.rd k) ∧
  (∀ (s : State) (p : Fin 2) (f : RingFrame), (∀ q, (s.port q).flight = none) → s.portUp p = true → s.ringAddr ≠ 0 → s.eventDue = none →
    s.ring.queue.find? (s.mayLeave (s.outOf p)) = some f → f.typ ≠ 0x30 → f.seq = none → Runs (.token p) s fun t =>
      (t.port (s.outOf p)).tx = .frame (ringBytes f.dest s.ringAddr s.ring.seq f.typ f.data) ∧
      (∃ e, (t.port (s.outOf p)).flight = some (f, e) ∧ s.now < e) ∧ t.ring.queue = s.ring.queue.erase f ∧
      t.ring.seq = (s.ring.seq + 1) % 256 ∧ ∀ k, t.rd k = s.rd k) ∧
  (∀ (s : State) (p : Fin 2) (d : Nat), (∀ q, (s.port q).flight = none) → s.portUp p = true → s.ringAddr ≠ 0 →
    s.ring.event = none → s.eventDest = some d → s.ring.rose ≠ 0 → s.outOf p = 0 ∨ s.saUp = false → Runs (.token p) s fun t =>
      t.rd K.RING_EVENT_SEQ = (s.rd K.RING_EVENT_SEQ + 1) % 2 ^ 32 ∧ t.ring.rose = 0 ∧ t.ring.queue = s.ring.queue ∧
      (∃ f e, (t.port (s.outOf p)).flight = some (f, e) ∧ f.typ = 0x20 ∧ f.dest = d) ∧
      (d = 0xFF → t.ring.event = none) ∧ (d ≠ 0xFF → ∃ e, t.ring.event = some e ∧ e.dest = d ∧ e.rose = s.ring.rose ∧ e.retries = 0)) ∧
  (∀ (s : State) (p : Fin 2), (∀ q, (s.port q).flight = none) → s.portUp p = true → Runs (.sof p) s fun t =>
      (t.port (s.outOf p)).tx = .through ∧ t.ring.queue = s.ring.queue ∧ ∀ k, t.rd k = s.rd k) ∧
  (∀ (s : State) (p : Fin 2) (f : RingFrame) (e : Nat), (s.port (s.outOf p)).flight = some (f, e) → s.now < e → s.portUp p = true →
    Runs (.sof p) s fun t =>
      (t.port (s.outOf p)).tx = .abort ∧ (t.port (s.outOf p)).flight = none ∧ t.ring.queue = f :: s.ring.queue ∧
      CountsUp s t K.RING_COLLISION 1 ∧ Raised t Src.RING_COLLISION) ∧
  (∀ (s : State) (p : Fin 2) (c : Instr), c = .token p ∨ c = .sof p → (∀ q, (s.port q).flight = none) → s.portUp p = false →
    Runs c s fun t => t.ring.queue = s.ring.queue ∧ (∀ q, (t.port q).tx = (s.port q).tx) ∧ ∀ k, t.rd k = s.rd k) ∧
  (∀ (s : State) (p : Fin 2), s.portUp p = true → Runs (.ringTokenLoss p) s fun t =>
      CountsUp s t K.RING_TOKEN_LOSS 1 ∧ Raised t Src.RING_TOKEN_LOSS ∧ Changes [K.RING_TOKEN_LOSS] s t) ∧
  (∀ (s : State) (p : Fin 2), s.portUp p = false → Runs (.ringTokenLoss p) s fun t => t = s) ∧
  (∀ (s : State) (e : RingEvent), (∀ q, (s.port q).flight = none) → s.ring.event = some e → s.ringAddr ≠ 0 → e.again = false →
    Runs .eventRetryTimer s fun t =>
      (e.retries < 3 → t.ring.event = some { e with retries := e.retries + 1, again := true } ∧ ∀ k, t.rd k = s.rd k) ∧
      (3 ≤ e.retries → t.ring.event = none ∧ (∀ b, e.rose.testBit b = true → t.ring.rose.testBit b = true) ∧
        CountsUp s t K.RING_EVENT_LOST 1 ∧ Raised t Src.RING_EVENT_UNACKED)) ∧
  (∀ s : State, (∀ q, (s.port q).flight = none) → s.ring.event = none → Runs .eventRetryTimer s fun t => t = s) ∧
  (∀ s : State, s.rd K.RING_CRC_THR ≠ 0 → s.rd K.RING_CRC_THR ≤ (s.ring.crcAt.filter fun x => s.now < x + ccPerSecond).length →
    Runs .ringCrcAlarm s fun t => Raised t Src.RING_CRC_ALARM ∧ Changes [] s t) ∧
  (∀ s : State, s.rd K.RING_CRC_THR = 0 ∨ (s.ring.crcAt.filter fun x => s.now < x + ccPerSecond).length < s.rd K.RING_CRC_THR →
    Runs .ringCrcAlarm s fun t => t = s) ∧
  (∀ (s : State) (r : Fin 18), s.accepts r K.RING_CLEAR (be 1 1) = true → Runs (.ringClear r 1) s fun t =>
      (∀ i, 1 ≤ i → i ≤ 17 → t.rd ⟨.dev, 0x2030, i⟩ = resetOf ⟨.dev, 0x2030, i⟩) ∧ t.lanes = s.lanes ∧
      Changes ((List.range 17).map fun i => ⟨.dev, 0x2030, i + 1⟩) s t) ∧
  (∀ s : State, s.on K.TIME_RING_BEACON_EN = true → s.rd K.TIME_RING_PERIOD ≠ 0 → s.running = true → s.ringAddr ≠ 0 →
    Runs .beaconSourceTimer s fun t =>
      (∀ p, s.portUp p = true → ∃ f ∈ t.ring.queue, f.out = some p) ∧ (∀ f ∈ s.ring.queue, f ∈ t.ring.queue) ∧ ∀ k, t.rd k = s.rd k) ∧
  (∀ s : State, s.on K.TIME_RING_BEACON_EN = false ∨ s.rd K.TIME_RING_PERIOD = 0 ∨ s.running = false →
    Runs .beaconSourceTimer s fun t => t = s)

/-- R353: an arriving frame that is the device's own is stripped, one for it or for all is judged (code violation or ABORT, length, CRC,
TYPE) and counted, another passes; an ABORT counts wherever the frame goes (R363), a frame that a code violation cut is void (R340).
R357: ENUM from the owner, or without one, on the port that numbers gives the next address, and an overflow at 64. Table 12-8: a CLAIM
above the owner or from it is taken, a lower one is refused, and a report of another's claim takes or rivals it, OWNERSHIP_CONFLICT
raised. R345, R361, R362: RATE_SET, RESET and EVENT_ACK act only where they are due. R297, R299: a beacon gives a follower its error,
and its source the loop error. What rests on a choice or reading of the model: log entries 11, 55, 56, 57, 93. -/
def Obligations.RingFrames : Prop :=
  (∀ (s : State) (p : Fin 2) (bytes : List Byte) (void : Bool), s.portUp p = true → 2 ≤ bytes.length →
    s.ringFate (State.byteAt bytes 0) (State.byteAt bytes 1) = .absorb → Runs (.ringFrameArrival p bytes void) s fun t =>
      (t.port (s.outOf p)).tx = ((s.port (s.outOf p)).topoDue.map RingTx.topo).getD .idle ∧
      (void = true → (s.port p).cut = false → CountsUp s t K.RING_ABORTED 1) ∧
      ((s.port p).cut = true → ∀ k, t.rd k = s.rd k) ∧
      (void = false → (s.port p).cut = false → bytes.length < 10 → CountsUp s t K.RING_LEN_ERR 1) ∧
      (void = false → (s.port p).cut = false → 10 ≤ bytes.length →
        (crc32 (bytes.take (bytes.length - 4)) ≠ beNat (bytes.drop (bytes.length - 4)) →
          CountsUp s t K.RING_CRC_ERR 1 ∧ t.ring.crcAt.head? = some s.now) ∧
        (crc32 (bytes.take (bytes.length - 4)) = beNat (bytes.drop (bytes.length - 4)) →
          256 * State.byteAt bytes 4 + State.byteAt bytes 5 + 10 = bytes.length → bytes.length ≤ 266 →
          State.byteAt bytes 3 = 0x11 → CountsUp s t K.RING_RX_FRAMES 1))) ∧
  (∀ (s : State) (p : Fin 2) (bytes : List Byte) (void : Bool), s.portUp p = true → 2 ≤ bytes.length →
    s.ringFate (State.byteAt bytes 0) (State.byteAt bytes 1) = .forward → Runs (.ringFrameArrival p bytes void) s fun t =>
      (t.port (s.outOf p)).tx = ((s.port (s.outOf p)).topoDue.map RingTx.topo).getD .through ∧
      (void = true → (s.port p).cut = false → CountsUp s t K.RING_ABORTED 1 ∧ Changes [K.RING_ABORTED] s t) ∧
      (void = false ∨ (s.port p).cut = true → ∀ k, t.rd k = s.rd k)) ∧
  (∀ (s : State) (p : Fin 2) (bytes : List Byte) (void : Bool), s.portUp p = true → 2 ≤ bytes.length →
    s.ringFate (State.byteAt bytes 0) (State.byteAt bytes 1) = .strip → State.byteAt bytes 0 ≠ 0xFF →
    Runs (.ringFrameArrival p bytes void) s fun t =>
      (t.port (s.outOf p)).tx = ((s.port (s.outOf p)).topoDue.map RingTx.topo).getD .idle ∧ CountsUp s t K.RING_UNDELIVERED 1) ∧
  (∀ (s : State) (p : Fin 2) (bytes : List Byte) (void : Bool), s.portUp p = false →
    Runs (.ringFrameArrival p bytes void) s fun t =>
      t.ring.queue = s.ring.queue ∧ (∀ q, (t.port q).tx = (s.port q).tx) ∧ ∀ k, t.rd k = s.rd k) ∧
  (∀ (s : State) (p : Fin 2) (h : RingHead) (hops : BitVec 8) (epoch : BitVec 32), s.portUp p = true →
    s.ringFate h.dest.toNat h.src.toNat = .both ∨ s.ringFate h.dest.toNat h.src.toNat = .absorb → isHostAddr h.src.toNat = true → (s.port p).cut = false →
    p = 1 ∨ s.sbUp = false → s.ringOwnerIs h.src.toNat = true ∨ s.rd K.RING_OWNER_EPOCH = 0 → Runs (.enum p h hops 0 epoch) s fun t =>
      t.rd K.RING_ADDR = (if hops.toNat < 64 then hops.toNat + 1 else 0) ∧ CountsUp s t K.RING_RX_FRAMES 1 ∧
      t.bit K.RING_STATUS 8 = decide (64 ≤ hops.toNat) ∧ (64 ≤ hops.toNat → Raised t Src.RING_ENUM_OVERFLOW) ∧
      (t.rd K.RING_ADDR ≠ s.ringAddr → Raised t Src.RING_ENUM) ∧
      (hops.toNat < 64 → ∃ f, t.ring.queue = s.ring.queue ++ [f] ∧ f.typ = 0x02 ∧ f.dest = h.src.toNat)) ∧
  (∀ (s : State) (p : Fin 2) (h : RingHead) (epoch : BitVec 32) (flags : BitVec 8), s.portUp p = true →
    s.ringFate h.dest.toNat h.src.toNat = .both ∨ s.ringFate h.dest.toNat h.src.toNat = .absorb → isHostAddr h.src.toNat = true → (s.port p).cut = false →
    ∀ host : Nat, host = h.src.toNat - 0xC0 → epoch.toNat ≠ 0 → flags.toNat ≤ 1 → Runs (.claim p h epoch flags 0) s fun t =>
      (flags.toNat = 0 → s.claimAbove epoch.toNat host = true ∨ (s.rd K.RING_OWNER_EPOCH = epoch.toNat ∧ s.rd K.RING_OWNER_HOST = host) →
        t.rd K.RING_OWNER_EPOCH = epoch.toNat ∧ t.rd K.RING_OWNER_HOST = host ∧ t.bit K.RING_STATUS 6 = false ∧
        t.bit K.RING_STATUS 7 = false ∧ (host ≠ s.rd K.RING_OWNER_HOST → t.rd K.RING_OWNER_WRITES = 0 ∧ Raised t Src.RING_CLAIM)) ∧
      (flags.toNat = 0 → s.claimAbove epoch.toNat host = false →
        (s.rd K.RING_OWNER_EPOCH ≠ epoch.toNat ∨ s.rd K.RING_OWNER_HOST ≠ host) →
        CountsUp s t K.RING_CLAIM_REFUSED 1 ∧ t.rd K.RING_OWNER_EPOCH = s.rd K.RING_OWNER_EPOCH ∧
        t.rd K.RING_OWNER_HOST = s.rd K.RING_OWNER_HOST) ∧
      (flags.toNat = 1 → s.claimAbove epoch.toNat host = true → host ≠ s.rd K.RING_OWNER_HOST →
        t.rd K.RING_OWNER_EPOCH = epoch.toNat ∧ t.rd K.RING_OWNER_HOST = host ∧ t.rd K.RING_OWNER_WRITES = 0 ∧
        t.bit K.RING_STATUS 6 = true ∧ (s.rd K.RING_OWNER_WRITES ≠ 0 → t.bit K.RING_STATUS 7 = true) ∧
        Raised t Src.OWNERSHIP_CONFLICT ∧ Raised t Src.RING_CLAIM) ∧
      (flags.toNat = 1 → s.claimAbove epoch.toNat host = false →
        (s.rd K.RING_OWNER_EPOCH ≠ epoch.toNat ∨ s.rd K.RING_OWNER_HOST ≠ host) →
        t.rd K.RING_RIVAL_EPOCH = epoch.toNat ∧ t.rd K.RING_RIVAL_HOST = host ∧ t.bit K.RING_STATUS 6 = true ∧
        Raised t Src.OWNERSHIP_CONFLICT ∧ t.rd K.RING_OWNER_EPOCH = s.rd K.RING_OWNER_EPOCH)) ∧
  (∀ (s : State) (p : Fin 2) (h : RingHead) (target rsv : BitVec 8), s.portUp p = true →
    s.ringFate h.dest.toNat h.src.toNat = .both ∨ s.ringFate h.dest.toNat h.src.toNat = .absorb → isHostAddr h.src.toNat = true → (s.port p).cut = false →
    Runs (.rateSet p h target rsv) s fun t =>
      (s.ringOwnerIs h.src.toNat = true → target.toNat ≤ s.rd K.RING_RATE_MAX → target.toNat ≤ 3 → rsv.toNat = 0 →
        t.ring.rateSet = some (target.toNat, s.now)) ∧
      (s.ringOwnerIs h.src.toNat = false ∨ s.rd K.RING_RATE_MAX < target.toNat ∨ 3 < target.toNat ∨ rsv.toNat ≠ 0 →
        t.ring.rateSet = s.ring.rateSet) ∧
      CountsUp s t K.RING_RX_FRAMES 1 ∧ Changes [K.RING_RX_FRAMES] s t) ∧
  (∀ (s : State) (p : Fin 2) (h : RingHead) (target : BitVec 64) (kind rsv : BitVec 8), s.portUp p = true →
    s.ringFate h.dest.toNat h.src.toNat = .both ∨ s.ringFate h.dest.toNat h.src.toNat = .absorb → isHostAddr h.src.toNat = true → (s.port p).cut = false →
    Runs (.reset p h target kind rsv) s fun t =>
      (target.toNat = State.uid → s.ringOwnerIs h.src.toNat = true → kind.toNat = 0 → rsv.toNat = 0 → s.ringAddr ≠ 0 →
        t.ring.resetPend = true) ∧
      (target.toNat ≠ State.uid ∨ s.ringOwnerIs h.src.toNat = false ∨ kind.toNat ≠ 0 ∨ rsv.toNat ≠ 0 →
        t.ring.resetPend = s.ring.resetPend) ∧ CountsUp s t K.RING_RX_FRAMES 1 ∧ Changes [K.RING_RX_FRAMES] s t) ∧
  (∀ (s : State) (p : Fin 2) (h : RingHead) (seq : BitVec 32), s.portUp p = true →
    s.ringFate h.dest.toNat h.src.toNat = .both ∨ s.ringFate h.dest.toNat h.src.toNat = .absorb → isHostAddr h.src.toNat = true → (s.port p).cut = false →
    Runs (.eventAck p h seq) s fun t =>
      (∀ e, s.ring.event = some e → t.ring.event = if e.seq = seq.toNat then none else some e) ∧
      CountsUp s t K.RING_RX_FRAMES 1 ∧ Changes [K.RING_RX_FRAMES] s t) ∧
  (∀ (s : State) (p : Fin 2) (h : RingHead) (src : BitVec 64) (dep : BitVec 96) (corr : BitVec 64) (j : Fin 16) (meas : BitVec 32),
    s.portUp p = true → s.ringFate h.dest.toNat h.src.toNat = .both ∨ s.ringFate h.dest.toNat h.src.toNat = .absorb →
    (s.port p).cut = false → s.on K.TIME_RING_BEACON_EN = false → s.rd K.TIME_RING_SRC_ID = 0 ∨ s.rd K.TIME_RING_SRC_ID = src.toNat → s.time.port = p →
    ∀ e : Int, e = s.beaconErr p dep.toNat corr.toNat (counterAdd s.time.counter (State.subCc j.val)) → Runs (.beacon p h src dep corr j meas) s fun t =>
      t.rd K.TIME_RING_LAST_ERR = zx (bitsOf K.TIME_RING_LAST_ERR) e ∧ CountsUp s t K.TIME_RING_BEACONS 1 ∧
      t.time.beaconSeen = true ∧ (s.timeSrc ≠ 2 → Changes [K.TIME_RING_LAST_ERR, K.TIME_RING_BEACONS, K.RING_RX_FRAMES] s t)) ∧
  (∀ (s : State) (p : Fin 2) (h : RingHead) (src : BitVec 64) (dep : BitVec 96) (corr : BitVec 64) (j : Fin 16) (meas : BitVec 32),
    s.portUp p = true → s.ringFate h.dest.toNat h.src.toNat = .strip → (s.port p).cut = false → s.on K.TIME_RING_BEACON_EN = true → src.toNat = State.uid →
    ∀ e : Int, e = -(s.beaconErr p dep.toNat corr.toNat (counterAdd s.time.counter (State.subCc j.val))) → Runs (.beacon p h src dep corr j meas) s fun t =>
      t.rd K.TIME_RING_LOOP_ERR = zx (bitsOf K.TIME_RING_LOOP_ERR) e ∧ (500000 < e.natAbs → Raised t Src.RING_BEACON_FAULT) ∧
      t.time = s.time) ∧
  (∀ (s : State) (p : Fin 2) (h : RingHead) (n k : BitVec 8) (epoch seq : BitVec 32) (target src corr : BitVec 64) (dep : BitVec 96)
    (j : Fin 16) (c : Instr),
    c = .enum p h n k epoch ∨ c = .claim p h epoch n k ∨ c = .rateSet p h n k ∨ c = .reset p h target n k ∨ c = .eventAck p h seq ∨
      c = .beacon p h src dep corr j seq →
    s.portUp p = false ∨ (s.port p).cut = true → Runs c s fun t =>
      t.ring.rateSet = s.ring.rateSet ∧ t.ring.resetPend = s.ring.resetPend ∧ t.ring.event = s.ring.event ∧
      t.ring.queue = s.ring.queue ∧ t.time = s.time ∧ Changes [K.RING_UNDELIVERED] s t ∧
      (s.portUp p = false ∨ s.ringFate h.dest.toNat h.src.toNat ≠ .strip → t.rd K.RING_UNDELIVERED = s.rd K.RING_UNDELIVERED))

/-- R307 to R309: a conversion of the pass is counted, enters its filter chain, goes to `MON_DATA` where its entry says so, and leads to
the next entry or ends the pass; a result at either end of the scale is counted as clipped. R309: a read of `MON_DATA` answers its value
and clears VALID and OVERRUN. R272, R310, R311: an urgent request is served, held, dropped or refused by its mode and by what runs, and
its end is counted, loads `MON_DATA` and serves the one held; `MON_DATA_TIME` is the sampling instant. R476: while the engine stands no
conversion ends, and a request is dropped (log entry 111). R271 to R273: the ADC's calibration is triggered, starts with the loops held,
and ends with its result. What rests on a choice or reading of the model: log entries 8, 34, 91. -/
def Obligations.MonitorSequencer : Prop :=
  (∀ (s : State) (e : Nat) (h : e < 64) (code : BitVec 12), s.ce.pass = some e → s.ceRuns = true → s.slotRuns = true →
    Runs (.monConversionEnd code) s fun t =>
      CountsUp s t K.MON_CONVERSIONS 1 ∧ t.rd (K.FILT_RAW ⟨e, h⟩) = code.toNat ∧
      (code.toNat = 0 ∨ code.toNat = 4095 → CountsUp s t K.MON_CLIPS 1 ∧ Raised t (Src.MON 5)) ∧
      (((s.ce.seq[e]?).getD 0).testBit 15 = true → t.bit K.MON_DATA 31 = true ∧ t.rd K.MON_DATA % 4096 = code.toNat ∧
        t.rd K.MON_DATA_TIME = time96 s.ce.sampled % 2 ^ 96 ∧
        (s.bit K.MON_DATA 31 = true → CountsUp s t K.MON_OVERRUNS 1 ∧ t.bit K.MON_DATA 30 = true)) ∧
      (e + 1 < s.ce.seq.length → t.ce.pass = some (e + 1)) ∧
      (s.ce.seq.length ≤ e + 1 → t.ce.pass = none ∧ t.bit K.MON_STATUS 0 = false ∧ CountsUp s t K.MON_PASSES 1)) ∧
  (∀ (s : State) (code : BitVec 12), s.slotRuns = false ∨ s.ceRuns = false → Runs (.monConversionEnd code) s fun t => t = s) ∧
  (∀ (s : State) (r : Fin 18) (all_ : Bool), Runs (.monDataRead r all_) s fun t =>
      t.bit K.MON_DATA 31 = false ∧ t.bit K.MON_DATA 30 = false ∧
      (t.req r).lastAnswer = (if all_ then s.monAll else be 4 (s.rd K.MON_DATA)) ∧ (t.req r).outcome = 0 ∧ t.ce = s.ce ∧
      Changes [K.MON_DATA] s t) ∧
  (∀ (s : State) (r : Fin 18) (v : BitVec 16) (fits : Bool), s.accepts r K.MON_URGENT_REQ (be 2 v.toNat) = true →
    Runs (.monUrgentReq r v fits) s fun t =>
      (s.ce.calRun = true → CountsUp s t K.MON_CAL_URGENT_REFUSED 1 ∧ t.ce = s.ce) ∧
      (s.ce.calRun = false → s.ceRuns = false → t.ce = s.ce ∧ CountsUp s t K.MON_URGENT_DROPPED 1 ∧ Raised t (Src.MON 3)) ∧
      (s.ce.calRun = false → s.ceRuns = true → s.ce.urgMode = 0 →
        (s.ce.urgent = none → s.slotRuns = false → fits = true ∨ (s.ce.pass = none ∧ s.rd K.MON_PASS_FRAMES = 0) →
          t.ce.urgent = some v.toNat ∧ t.ce.sampled = s.time.counter) ∧
        (s.ce.urgent ≠ none ∨ s.slotRuns = true ∨ (fits = false ∧ (s.ce.pass ≠ none ∨ s.rd K.MON_PASS_FRAMES ≠ 0)) → t.ce = s.ce ∧ CountsUp s t K.MON_URGENT_DROPPED 1 ∧ Raised t (Src.MON 3))) ∧
      (s.ce.calRun = false → s.ceRuns = true → s.ce.urgMode ≠ 0 →
        (s.ce.urgent = none → t.ce.urgent = some v.toNat ∧
          (s.slotRuns = true → CountsUp s t K.MON_ENTRY_RESTARTED 1 ∧ Raised t (Src.MON 4))) ∧
        (s.ce.urgent ≠ none → s.ce.urgHeld = none → t.ce.urgent = s.ce.urgent ∧ t.ce.urgHeld = some v.toNat ∧ t.bit K.MON_STATUS 1 = true) ∧
        (s.ce.urgent ≠ none → s.ce.urgHeld ≠ none → t.ce = s.ce ∧ CountsUp s t K.MON_URGENT_DROPPED 1 ∧ Raised t (Src.MON 3)))) ∧
  (∀ (s : State) (v : Nat) (code : BitVec 12), s.ce.urgent = some v → s.ceRuns = true → Runs (.monUrgentEnd code) s fun t =>
      t.ce.urgent = s.ce.urgHeld ∧ t.ce.urgHeld = none ∧ t.bit K.MON_STATUS 1 = false ∧ CountsUp s t K.MON_CONVERSIONS 1 ∧
      CountsUp s t K.MON_URGENT_SERVED 1 ∧ Raised t (Src.MON 2) ∧ t.bit K.MON_DATA 31 = true ∧ t.bit K.MON_DATA 29 = true ∧
      t.rd K.MON_DATA % 4096 = code.toNat ∧ t.rd K.MON_DATA_TIME = time96 s.ce.sampled % 2 ^ 96) ∧
  (∀ (s : State) (code : BitVec 12), s.ce.urgent = none ∨ s.ceRuns = false → Runs (.monUrgentEnd code) s fun t => t = s) ∧
  (∀ (s : State) (r : Fin 18), s.accepts r K.MON_CAL_CMD (be 1 1) = true → Runs (.monCalCmd r 1) s fun t =>
      (s.ce.calRun = false → t.ce = { s.ce with calPend := true }) ∧ (s.ce.calRun = true → t.ce = s.ce) ∧ Changes [] s t) ∧
  (∀ s : State, s.ce.calPend = true → s.ceRuns = true → s.ce.urgent = none → Runs .monCalStart s fun t =>
      t.ce.calRun = true ∧ t.ce.calPend = false ∧ t.ce.hold = true ∧ t.bit K.CE_STATUS 1 = true ∧ t.bit K.MON_STATUS 2 = true ∧
      t.rd K.MON_CAL_LAST = s.timeNow ∧ Changes [K.CE_STATUS, K.MON_STATUS, K.MON_CAL_LAST, K.MON_CAL_TEMP] s t) ∧
  (∀ s : State, s.ce.calPend = false ∨ s.ceRuns = false ∨ s.ce.urgent ≠ none → Runs .monCalStart s fun t => t = s) ∧
  (∀ (s : State) (bad : Bool), s.ce.calRun = true → Runs (.monCalEnd bad) s fun t =>
      t.ce.calRun = false ∧ t.ce.hold = s.ce.hold ∧ t.bit K.MON_STATUS 2 = false ∧ CountsUp s t K.MON_CAL_COUNT 1 ∧
      t.rd K.MON_CAL_RESULT = (if bad then 2 else 1) ∧ Raised t (Src.MON 6) ∧ (bad = true → Raised t Src.FG_CAL_FAIL)) ∧
  (∀ (s : State) (bad : Bool), s.ce.calRun = false → Runs (.monCalEnd bad) s fun t => t = s)

/-- R306, R388: an accepted write of a control entry with a row of its own waits for the frame boundary and changes nothing until then.
R304, R306: at the boundary the frame's number goes up, the writes that waited take effect, and a pass starts where none runs. What each
of those writes then does: a mode takes effect, an integrator is preset, the RC memory and the monitor's counters are zeroed, a filter
bank is swapped or preset, a pin's mode changes in steps, the pads' release is noted. With the engine stopped the frames are counted and
the writes act all the same, and no pass starts (R484); with the clock stopped too, nothing happens. What rests on a choice or reading
of the model: log entries 8, 58. -/
def Obligations.ControlFrameWrites : Prop :=
  (∀ (s : State) (r : Fin 18) (v : BitVec 8) (w : BitVec 64) (e j : Fin 64) (a : Fin 48) (c : Instr) (k : Key) (data : List Byte),
    c = .monCntClear r v ∧ k = K.MON_CNT_CLEAR ∧ data = be 1 v.toNat ∨ c = .filtPreset r e v ∧ k = K.FILT_PRESET e ∧ data = be 1 v.toNat ∨
      c = .filtSwap r e v ∧ k = K.FILT_SWAP e ∧ data = be 1 v.toNat ∨ c = .loopModeWrite r j v ∧ k = K.LOOP_MODE j ∧ data = be 1 v.toNat ∨
      c = .loopIntegratorWrite r j w ∧ k = K.LOOP_INTEGRATOR j ∧ data = be 8 w.toNat ∨
      c = .rcClear r j v ∧ k = K.RC_CLEAR j ∧ data = be 1 v.toNat ∨ c = .auxModeWrite r a v ∧ k = K.AUX_MODE a ∧ data = be 1 v.toNat ∨
      c = .cePadRelease r v ∧ k = K.CE_PAD_RELEASE ∧ data = be 1 v.toNat →
    s.accepts r k data = true → Runs c s fun t =>
      t.od.waiting = s.od.waiting ++ [{ req := r, epoch := (s.req r).epoch, bound := .frame, grp := false, writes := [(k, data)] }] ∧
      t.ce = s.ce ∧ Changes [] s t) ∧
  (∀ s : State, s.ceRuns = true → (∀ g ∈ s.od.waiting, g.bound ≠ .frame) → Runs .controlFrameBoundary s fun t =>
      t.rd K.CE_FRAME = (s.rd K.CE_FRAME + 1) % 2 ^ 64 ∧ t.ce.snapDone = false ∧ t.ce.hold = (s.ce.hold && s.ce.calRun) ∧
      t.od.waiting = s.od.waiting ∧
      (s.ce.pass = none → s.ce.calRun = false → s.ce.calPend = false → s.ce.urgent = none →
        t.ce.pass = (if s.rd K.MON_SEQ_LEN = 0 then none else some 0) ∧ t.bit K.MON_STATUS 0 = decide (s.rd K.MON_SEQ_LEN ≠ 0) ∧
        t.ce.urgMode = s.rd K.MON_URGENT_MODE ∧ t.ce.passStart = s.now) ∧
      (s.ce.pass ≠ none ∨ s.ce.calRun = true ∨ s.ce.calPend = true ∨ s.ce.urgent ≠ none → t.ce.pass = s.ce.pass ∧ t.ce.seq = s.ce.seq)) ∧
  (∀ s : State, s.ceRuns = false → s.clk.lsynRuns = true → (∀ g ∈ s.od.waiting, g.bound ≠ .frame) → Runs .controlFrameBoundary s fun t =>
      t.rd K.CE_FRAME = (s.rd K.CE_FRAME + 1) % 2 ^ 64 ∧ t.ce = { s.ce with snapDone := false, outDone := false } ∧
      Changes [K.CE_FRAME] s t) ∧
  (∀ s : State, s.ceRuns = false → s.clk.lsynRuns = false → Runs .controlFrameBoundary s fun t => t = s) ∧
  (∀ (s : State) (r : Fin 18) (e : Nat) (k : Key) (data : List Byte), (s.ceRuns = true ∨ s.clk.lsynRuns = true) →
    s.od.waiting = [{ req := r, epoch := e, bound := .frame, grp := false, writes := [(k, data)] }] → Runs .controlFrameBoundary s fun t =>
      t.od.waiting = [] ∧
      (∀ (j : Fin 64) (v : BitVec 8), k = K.LOOP_MODE j → data = be 1 v.toNat → v.toNat ≤ 2 → s.rd (K.LOOP_MODE j) ≠ 4 →
        t.rd (K.LOOP_MODE j) = v.toNat ∧ (s.rd (K.LOOP_MODE j) = 0 → v.toNat ≠ 0 → ∀ u, s.destValue j = some u →
          t.rd (K.LOOP_OUT j) = u % 2 ^ 16)) ∧
      (∀ (j : Fin 64) (v : BitVec 64), k = K.LOOP_INTEGRATOR j → data = be 8 v.toNat →
        t.rd (K.LOOP_INTEGRATOR j) = v.toNat ∧ (t.loop j).preset = false) ∧
      (∀ j : Fin 64, k = K.RC_CLEAR j → data = be 1 1 → t.rd (K.RC_MEM j) = 0 ∧ t.rd (K.LOOP_RC_INDEX j) = 0) ∧
      (k = K.MON_CNT_CLEAR → data = be 1 1 → ∀ i, 1 ≤ i → i ≤ 7 → t.rd ⟨.dev, 0x7004, i⟩ = resetOf ⟨.dev, 0x7004, i⟩) ∧
      (∀ f : Fin 64, k = K.FILT_SWAP f → data = be 1 1 →
        (s.rd (K.FILT_MODE f) = 1 → t.rd (K.FILT_ACTIVE f) = 1 - s.rd (K.FILT_ACTIVE f) ∧ Raised t (Src.MON 8)) ∧
        (s.rd (K.FILT_MODE f) ≠ 1 → (t.chain f).swap = true)) ∧
      (∀ (f : Fin 64) (v : BitVec 8) (i : Nat), k = K.FILT_PRESET f → data = be 1 v.toNat → v.toNat ≤ 3 → i < 16 →
        t.rdI (if s.rd (K.FILT_ACTIVE f) = 1 then K.FILT_BANK_A f i else K.FILT_BANK_B f i) = getI (filtPreset v.toNat) i) ∧
      (∀ (a : Fin 48) (v : BitVec 8), k = K.AUX_MODE a → data = be 1 v.toNat → v.toNat ≠ s.rd (K.AUX_MODE a) →
        t.rd (K.AUX_MODE a) = v.toNat ∧ (t.ce.auxs.get a).step = 2) ∧
      (k = K.CE_PAD_RELEASE → data = be 1 1 → t.ce.release = true))

/-- R304, R305, R319: `loopSnapshot`, cycle 923, runs once in a frame: a due loop in AUTO with a new input computes its shaped error,
its integral with the anti-windup of its limits, and its output, and a loop in MANUAL between its executions moves toward its written
value; while the engine stands a due frame is only noted (R318). R326, R329: `outputWrite`, cycle 960, runs once in a frame after its
snapshot: the output reaches the loop's register and its pin, and a change of a pin's mode passes through 0; a held engine writes
nothing, and a latched pin keeps its code, while the output of SAFE stands until it is released (R324). R535: there the COMPLIANCE and
SHORT flags set in the 4th consecutive frame with their condition and clear in the 64th without it. R328: `ceMemError` of a corrected
error is counted, of a configuration takes its loop to SAFE, of the RC memory zeroes the entry. What rests on a choice or reading of the
model: log entries 8, 59, 110. -/
def Obligations.ControlLoops : Prop :=
  (∀ (s : State) (levels : BitVec 16), s.ce.snapDone = true ∨ (s.ceRuns = false ∧ s.clk.lsynRuns = false) →
    Runs (.loopSnapshot levels) s fun t => t = s) ∧
  (∀ (s : State) (levels : BitVec 16), s.ceRuns = false → s.clk.lsynRuns = true → s.ce.snapDone = false →
    Runs (.loopSnapshot levels) s fun t =>
      t.ce.snapDone = true ∧ (∀ j, (t.loop j).out = (s.loop j).out ∧ (t.loop j).prevDue =
        (if s.rd K.CE_FRAME % s.rd (K.LOOP_PERIOD j) = 0 then some (s.rd K.CE_FRAME) else (s.loop j).prevDue)) ∧ ∀ x, t.rd x = s.rd x) ∧
  (∀ (s : State) (levels : BitVec 16), s.ceRuns = true → s.ce.snapDone = false → Runs (.loopSnapshot levels) s fun t =>
      t.ce.snapDone = true ∧ t.rd K.CE_FRAME = s.rd K.CE_FRAME ∧ ∀ g : Fin 16, t.on (K.OG_IN g) = levels.toNat.testBit g.val) ∧
  (∀ (s : State) (levels : BitVec 16) (j : Fin 64), s.ceRuns = true → s.ce.snapDone = false → s.ce.hold = false →
    s.rd (K.LOOP_MODE j) = 1 → s.rd K.CE_FRAME % s.rd (K.LOOP_PERIOD j) ≠ 0 → Runs (.loopSnapshot levels) s fun t =>
      (t.loop j).out = some (if s.rd (K.LOOP_MAN_SLEW j) = 0 then s.rd (K.LOOP_MAN_VALUE j)
        else if s.rd (K.LOOP_OUT j) < s.rd (K.LOOP_MAN_VALUE j) then
          min (s.rd (K.LOOP_MAN_VALUE j)) (s.rd (K.LOOP_OUT j) + s.rd (K.LOOP_MAN_SLEW j))
        else max (s.rd (K.LOOP_MAN_VALUE j)) (s.rd (K.LOOP_OUT j) - s.rd (K.LOOP_MAN_SLEW j))) ∧
      t.rd (K.LOOP_EXEC j) = s.rd (K.LOOP_EXEC j)) ∧
  (∀ (s : State) (levels : BitVec 16) (j : Fin 64), s.ceRuns = true → s.ce.snapDone = false →
    s.ce.hold = false → s.rd (K.LOOP_MODE j) = 2 → s.rd K.CE_FRAME % s.rd (K.LOOP_PERIOD j) = 0 →
    s.srcNew (s.rd (K.LOOP_INPUT j)) (s.rd K.CE_FRAME) (s.loop j).prevDue = true → s.rd (K.LOOP_FAULT_COUNT j) = 0 →
    s.rd (K.SCHED_VAR j) = 255 → s.rd (K.LOOP_REGION j) = 0 → s.rd (K.RC_LEN j) = 0 → (s.loop j).preset = false →
    s.rd (K.LOOP_UMAX j) < 2 ^ 16 → s.rd (K.LOOP_UMIN j) < 2 ^ 16 →
    ∀ y, y = s.srcValue (s.rd (K.LOOP_INPUT j)) →
    ∀ e : Int, e = (if s.on (K.LOOP_POLARITY j) then (y : Int) - s.rd (K.LOOP_SETPOINT j) else (s.rd (K.LOOP_SETPOINT j) : Int) - y) →
    ∀ e1, e1 = clampI (-2147483648) 2147483647
      (roundAway (e * (loopGain (fun k => s.rd (K.LOOP_GAIN_LUT j k)) (s.rd (K.LOOP_GAIN_SHIFT j)) e : Int)) 16384) →
    ∀ p, p = s.rdI (K.SCHED_KP j 0) * e1 → ∀ d, d = s.rdI (K.SCHED_KI j 0) * e1 → ∀ ff, ff = s.rdI (K.LOOP_FF j) * 65536 →
    ∀ umin : Int, umin = (s.rd (K.LOOP_UMIN j) * 65536 : Nat) → ∀ umax : Int, umax = (s.rd (K.LOOP_UMAX j) * 65536 : Nat) →
    ∀ sum, sum = p + s.rdI (K.LOOP_INTEGRATOR j) + ff →
    ∀ i1, i1 = (if !(decide (umax < sum) && decide (0 < d)) && !(decide (sum < umin) && decide (d < 0)) then
      clampI umin umax (s.rdI (K.LOOP_INTEGRATOR j) + d) else s.rdI (K.LOOP_INTEGRATOR j)) → Runs (.loopSnapshot levels) s fun t =>
      t.rdI (K.LOOP_ERR j) = e1 ∧ t.rdI (K.LOOP_INTEGRATOR j) = i1 ∧
      (t.loop j).out = some (roundAway (clampI umin umax (p + i1 + ff)) 65536).toNat ∧
      t.rd (K.LOOP_EXEC j) = (s.rd (K.LOOP_EXEC j) + 1) % 2 ^ 32) ∧
  (∀ (s : State) (compl short : BitVec 48), s.ceRuns = false ∨ s.ce.snapDone = false ∨ s.ce.outDone = true →
    Runs (.outputWrite compl short) s fun t => t = s) ∧
  (∀ (s : State) (compl short : BitVec 48), s.ceRuns = true → s.ce.snapDone = true → s.ce.outDone = false → s.ce.hold = true →
    s.ce.trip = false → Runs (.outputWrite compl short) s fun t =>
      t.ce = { s.ce with outDone := true } ∧ ∀ x, t.rd x = s.rd x) ∧
  (∀ (s : State) (compl short : BitVec 48) (j : Fin 64) (u : Nat), s.ceRuns = true → s.ce.snapDone = true → s.ce.outDone = false →
    s.ce.hold = false → s.ce.trip = false → s.ce.resume = false → s.ce.release = false → (s.loop j).out = some u → u < 2 ^ 16 →
    (∀ a : Fin 48, s.rd (K.LOOP_OUTPUT j) = a.val → s.auxHeld a = false) → Runs (.outputWrite compl short) s fun t =>
      t.ce.outDone = true ∧ t.rd (K.LOOP_OUT j) = u ∧ (t.loop j).out = none ∧
      (∀ a : Fin 48, s.rd (K.LOOP_OUTPUT j) = a.val → (∀ i, i ≠ j → s.rd (K.LOOP_OUTPUT i) ≠ a.val) → s.rd (K.LOOP_MODE j) ≠ 0 →
        (s.ce.auxs.get a).step = 0 → t.rd (K.AUX_CODE a) = dacCodeOf u)) ∧
  (∀ (s : State) (compl short : BitVec 48) (j : Fin 64) (u : Nat) (a : Fin 48), s.ceRuns = true → s.ce.snapDone = true →
    s.ce.outDone = false → s.ce.hold = false → s.ce.trip = false → s.ce.resume = false → s.ce.release = false →
    (s.loop j).out = some u → u < 2 ^ 16 → s.rd (K.LOOP_OUTPUT j) = a.val → s.auxHeld a = true → Runs (.outputWrite compl short) s fun t =>
      t.ce.outDone = true ∧ t.rd (K.AUX_CODE a) = s.rd (K.AUX_CODE a) ∧ t.rd (K.LOOP_OUT j) = u ∧
      (t.loop j).out = (if s.rd (K.LOOP_MODE j) = 3 then some u else none)) ∧
  (∀ (s : State) (compl short : BitVec 48) (a : Fin 48), s.ceRuns = true → s.ce.snapDone = true → s.ce.outDone = false →
    s.ce.hold = false → s.ce.trip = false → s.ce.resume = false → s.ce.release = false → s.auxHeld a = false →
    Runs (.outputWrite compl short) s fun t =>
      ((s.ce.auxs.get a).step = 2 → t.rd (K.AUX_CODE a) = 0 ∧ (t.ce.auxs.get a).mode = 0 ∧ (t.ce.auxs.get a).step = 1) ∧
      ((s.ce.auxs.get a).step = 1 → t.rd (K.AUX_CODE a) = 0 ∧ (t.ce.auxs.get a).mode = s.rd (K.AUX_MODE a) ∧
        (t.ce.auxs.get a).step = 0)) ∧
  (∀ (s : State) (compl short : BitVec 48) (a : Fin 48) (isShort : Bool), s.ceRuns = true → s.ce.snapDone = true →
    s.ce.outDone = false → s.ce.hold = false → s.ce.trip = false → s.ce.resume = false → s.ce.release = false → s.auxHeld a = false →
    (s.ce.auxs.get a).step = 0 → (s.ce.auxs.get a).mode ≠ 0 →
    ∀ flag, flag = s.bit (K.AUX_STATUS a) (if isShort then 2 else 1) →
    ∀ cond, cond = (if isShort then short else compl).toNat.testBit a.val →
    ∀ run, run = (if isShort then (s.ce.auxs.get a).shortRun else (s.ce.auxs.get a).complRun) →
    Runs (.outputWrite compl short) s fun t => ∀ flag', flag' = t.bit (K.AUX_STATUS a) (if isShort then 2 else 1) →
      ∀ run', run' = (if isShort then (t.ce.auxs.get a).shortRun else (t.ce.auxs.get a).complRun) →
      (flag = cond → flag' = flag ∧ run' = 0) ∧
      (flag = false → cond = true → run < 3 → flag' = false ∧ run' = run + 1) ∧
      (flag = false → cond = true → run = 3 → flag' = true ∧ Raised t (Src.CE (if isShort then 12 else 11))) ∧
      (flag = true → cond = false → run < 63 → flag' = true ∧ run' = run + 1) ∧
      (flag = true → cond = false → run = 63 → flag' = false)) ∧
  (∀ (s : State) (j : Fin 64), Runs (.ceMemError j .corrected) s fun t =>
      CountsUp s t K.CE_MEM_CORRECTED 1 ∧ t.ce = s.ce ∧
      SameBut (fun k => k == K.CE_MEM_CORRECTED || (match k.blk with | .pc _ => true | _ => k.area.isNone)) s t) ∧
  (∀ (s : State) (j : Fin 64), Runs (.ceMemError j .config) s fun t =>
      t.rd (K.LOOP_MODE j) = 3 ∧ (t.loop j).out = some (s.rd (K.LOOP_SAFE_VALUE j)) ∧ Raised t (Src.CE 8) ∧ Raised t (Src.CE 1) ∧
      (∀ i, i ≠ j → t.loop i = s.loop i)) ∧
  (∀ (s : State) (j : Fin 64) (i : Fin 1024), Runs (.ceMemError j (.rc i)) s fun t =>
      t.rcAt j i.val = 0 ∧ Raised t (Src.CE 7) ∧ t.ce = s.ce ∧ Changes [K.RC_MEM j] s t)

/-- R474, R475, R478: a write of `PWR_REQ` is accepted and its outcome reported. The first refuser that applies leaves the unit as it
is, with its code, its counter and PWR_ENTRY_REFUSED; a request for the present state does nothing, whatever would refuse it but a
thermal trip (the model's reading of Table 16-7, log entry 62); for a deeper one the entry begins at the step at which the present level
ends, for a shallower one the wake begins (R479), a lane's after its port group's (R480). R486: a wake from Deep sleep checks the unit's
banks at its start; one that has decayed, a free value (log entry 108), is shown, counted and raised, and marks its sleeping units.
During a transition the request takes the pending slot; one already there is counted as replaced. R481: `PWR_CNT_CLEAR` of 1 zeroes the
counters, of 0 nothing. What rests on a choice or reading of the model: log entries 60, 61. -/
def Obligations.PowerRequests : Prop :=
  (∀ (s : State) (r : Fin 18) (u : Fin 22) (v : BitVec 8) (c : Nat), s.accepts r (K.PWR_REQ u) (be 1 v.toNat) = true →
    ∀ a, a = s.admitted r (K.PWR_REQ u) (be 1 v.toNat) → a.refuser u v.toNat = some c →
    v.toNat ≠ a.rd (K.PWR_STATE u) ∨ (a.unit u).trans ≠ .still ∨ (u.val < 20 ∧ a.tripped = true) → Runs (.pwrReqWrite r u v) s fun t =>
      t.rd (K.PWR_LAST_REFUSER u) % 256 = c ∧ CountsUp a t ⟨.dev, 0x8002, c⟩ 1 ∧ Raised t Src.PWR_ENTRY_REFUSED ∧
      t.bit K.DET_PWR_ENTRY_REFUSED u.val = true ∧ t.pwr = a.pwr ∧ Changes [K.PWR_LAST_REFUSER u, ⟨.dev, 0x8002, c⟩, K.DET_PWR_ENTRY_REFUSED] s t) ∧
  (∀ (s : State) (r : Fin 18) (u : Fin 22) (v : BitVec 8), s.accepts r (K.PWR_REQ u) (be 1 v.toNat) = true → v.toNat ≤ 3 →
    ∀ a, a = s.admitted r (K.PWR_REQ u) (be 1 v.toNat) →
    a.refuser u v.toNat = none ∨ (v.toNat = a.rd (K.PWR_STATE u) ∧ (20 ≤ u.val ∨ a.tripped = false)) → (a.unit u).trans = .still →
    Runs (.pwrReqWrite r u v) s fun t =>
      t.rd (K.PWR_REQ u) = v.toNat ∧ t.rd (K.PWR_STATE u) = a.rd (K.PWR_STATE u) ∧
      (v.toNat = a.rd (K.PWR_STATE u) → t.pwr = a.pwr ∧ Changes [K.PWR_REQ u] s t) ∧
      (a.rd (K.PWR_STATE u) < v.toNat → t.rd (K.PWR_TRANSITION u) =
          16 * v.toNat + (if a.rd (K.PWR_STATE u) = 0 then 1 else if a.rd (K.PWR_STATE u) = 1 then 3 else 4)) ∧
      (v.toNat < a.rd (K.PWR_STATE u) → t.rd (K.PWR_TRANSITION u) = 16 * v.toNat + 7 ∧ (t.unit u).trans = .waking v.toNat ∧
        ∀ n : Fin 16, u = laneUnit n →
          (a.rd (K.PWR_STATE (pgUnit (pgOf n))) ≠ 0 ∨ (a.unit (pgUnit (pgOf n))).trans ≠ .still → (t.unit u).waitPg = true) ∧
          (a.rd (K.PWR_STATE (pgUnit (pgOf n))) ≠ 0 → (a.unit (pgUnit (pgOf n))).trans = .still →
            (t.unit (pgUnit (pgOf n))).trans = .waking 0)) ∧
      (∀ b : Fin 8, v.toNat < a.rd (K.PWR_STATE u) → a.rd (K.PWR_STATE u) = 3 → u ∈ State.unitsOfBank b.val →
        (∀ n : Fin 16, u ≠ laneUnit n) → a.fresh.1.testBit b.val = true →
        t.bit K.PWR_RET_FAIL_BANKS b.val = true ∧ Raised t Src.RETENTION_FAIL ∧ a.rd K.PWR_RET_FAIL_COUNT ≤ t.rd K.PWR_RET_FAIL_COUNT ∧
        ∀ w ∈ State.unitsOfBank b.val, a.rd (K.PWR_STATE w) = 3 → (t.unit w).cold = true)) ∧
  (∀ (s : State) (r : Fin 18) (u : Fin 22) (v : BitVec 8), s.accepts r (K.PWR_REQ u) (be 1 v.toNat) = true →
    ∀ a, a = s.admitted r (K.PWR_REQ u) (be 1 v.toNat) → a.refuser u v.toNat = none → (a.unit u).trans ≠ .still →
    Runs (.pwrReqWrite r u v) s fun t =>
      t.rd (K.PWR_REQ u) = v.toNat ∧ t.rd (K.PWR_PENDING u) = v.toNat ∧ t.pwr = a.pwr ∧
      t.rd (K.PWR_STATE u) = a.rd (K.PWR_STATE u) ∧ t.rd (K.PWR_TRANSITION u) = a.rd (K.PWR_TRANSITION u) ∧
      (a.rd (K.PWR_PENDING u) ≠ 0xFF → CountsUp a t K.PWR_CNT_REPLACED 1 ∧ Raised t Src.PWR_REQ_REPLACED ∧
        t.bit K.DET_PWR_REQ_REPLACED u.val = true) ∧ Changes [K.PWR_REQ u, K.PWR_PENDING u] s t) ∧
  (∀ (s : State) (r : Fin 18), s.accepts r K.PWR_CNT_CLEAR (be 1 1) = true → Runs (.pwrCntClear r 1) s fun t =>
      (∀ i, 1 ≤ i → i ≤ 13 → t.rd ⟨.dev, 0x8002, i⟩ = resetOf ⟨.dev, 0x8002, i⟩) ∧
      Changes ((List.range 13).map fun i => ⟨.dev, 0x8002, i + 1⟩) s t) ∧
  (∀ (s : State) (r : Fin 18), s.accepts r K.PWR_CNT_CLEAR (be 1 0) = true → Runs (.pwrCntClear r 0) s fun t => Changes [] s t)

/-- R476, R477, R478: a step of an entry ends when it has done its work, the level that it reaches shows, and at the abort point after
it a waiting wake event abandons the entry (counted by its cause) and the unit returns to Run; the pending slot's request carries the
entry on, ends it, or wakes the unit; with neither the entry goes on, or ends with PWR_TRANSITION_DONE. Step E6 powers the unit off: its
volatile entries are gone. R475: a failed save of step E4 leaves the unit in Sleep, refused FLASH. R479: a wake ends at its level, with
PWR_TRANSITION_DONE; R480: with a port group's, the lanes that waited for it wake. What rests on a choice or reading of the model: log
entries 8, 61, 108. -/
def Obligations.PowerTransitions : Prop :=
  (∀ (s : State) (u : Fin 22), (∀ st v, (s.unit u).trans ≠ .entering st v) → Runs (.pwrEntryStepEnd u.castSucc) s fun t => t = s) ∧
  (∀ (s : State) (u : Fin 22) (st v : Nat), (s.unit u).trans = .entering st v →
    (st = 1 ∧ (∃ n : Fin 16, u = laneUnit n ∧ (s.phase n ≠ 0 ∨ s.binding n = true)) ∨ st = 1 ∧ u = 20 ∧ s.ce.calRun = true ∨
      st = 4 ∧ (s.unit u).save = 1) → Runs (.pwrEntryStepEnd u.castSucc) s fun t => t = s) ∧
  (∀ (s : State) (u : Fin 22) (v : Nat), (s.unit u).trans = .entering 6 v → (s.unit u).pendWake = none →
    s.rd (K.PWR_PENDING u) = 0xFF → Runs (.pwrEntryStepEnd u.castSucc) s fun t =>
      t.rd (K.PWR_STATE u) = 3 ∧ t.rd (K.PWR_TRANSITION u) = 0 ∧ (t.unit u).trans = .still ∧ Raised t Src.PWR_TRANSITION_DONE ∧
      t.bit K.DET_PWR_TRANSITION_DONE u.val = true ∧
      ∀ k, State.unitKey u k = true → State.persOf k = .vol → State.padKey k = false → t.rd k = resetOf k) ∧
  (∀ (s : State) (u : Fin 22) (v : Nat), (s.unit u).trans = .entering 4 v → (s.unit u).save = 3 → (s.unit u).pendWake = none →
    s.rd (K.PWR_PENDING u) = 0xFF → Runs (.pwrEntryStepEnd u.castSucc) s fun t =>
      t.rd (K.PWR_STATE u) = 2 ∧ t.rd (K.PWR_TRANSITION u) = 0 ∧ (t.unit u).trans = .still ∧ t.rd (K.PWR_LAST_REFUSER u) % 256 = 4 ∧
      CountsUp s t ⟨.dev, 0x8002, 4⟩ 1 ∧ Raised t Src.PWR_ENTRY_REFUSED) ∧
  (∀ (s : State) (u : Fin 22) (st v lvl : Nat), (s.unit u).trans = .entering st v → 1 ≤ st → st ≤ 5 → v ≤ 3 → s.stepMayEnd u st = true →
    ¬ (st = 4 ∧ (s.unit u).save = 3) →
    lvl = (if st = 2 then 1 else if st = 3 then 2 else s.rd (K.PWR_STATE u)) → lvl ≤ 3 →
    Runs (.pwrEntryStepEnd u.castSucc) s fun t =>
      t.rd (K.PWR_PENDING u) = (if (s.unit u).pendWake = none ∨ lvl = 0 then 0xFF else s.rd (K.PWR_PENDING u)) ∧
      t.rd (K.PWR_STATE u) = lvl ∧
      (∀ c, (s.unit u).pendWake = some c → 1 ≤ c → c ≤ 5 →
        CountsUp s t ⟨.dev, 0x8002, 7 + c⟩ 1 ∧ field (t.rd (K.PWR_LAST_REFUSER u)) 15 8 = c ∧ Raised t Src.PWR_ENTRY_ABORTED ∧
        t.bit K.DET_PWR_ENTRY_ABORTED u.val = true ∧
        (lvl = 0 → s.rd (K.PWR_PENDING u) = 0xFF → t.rd (K.PWR_TRANSITION u) = 0) ∧ (lvl ≠ 0 → t.rd (K.PWR_TRANSITION u) = 7)) ∧
      (∀ w, (s.unit u).pendWake = none → w = (if s.rd (K.PWR_PENDING u) = 0xFF then v else s.rd (K.PWR_PENDING u)) → w ≤ 3 →
        (lvl < w → t.rd (K.PWR_TRANSITION u) = 16 * w + (st + 1)) ∧
        (w = lvl → 0 < lvl → t.rd (K.PWR_TRANSITION u) = 0 ∧ (t.unit u).trans = .still ∧ Raised t Src.PWR_TRANSITION_DONE ∧
          t.bit K.DET_PWR_TRANSITION_DONE u.val = true) ∧
        (w ≤ lvl → w = 0 → CountsUp s t ⟨.dev, 0x8002, 9⟩ 1 ∧ field (t.rd (K.PWR_LAST_REFUSER u)) 15 8 = 2 ∧
          Raised t Src.PWR_ENTRY_ABORTED ∧ t.rd (K.PWR_TRANSITION u) = if lvl = 0 then 0 else 7) ∧
        (w < lvl → 0 < w → t.rd (K.PWR_TRANSITION u) = 16 * w + 7))) ∧
  (∀ (s : State) (u : Fin 22), (s.unit u).waitPg = true ∨ (∀ v, (s.unit u).trans ≠ .waking v) →
    Runs (.pwrWakeDone u) s fun t => t = s) ∧
  (∀ (s : State) (u : Fin 22) (v : Nat), (s.unit u).trans = .waking v → (s.unit u).waitPg = false → v ≤ 3 →
    (s.unit u).pendWake = none → s.rd (K.PWR_PENDING u) = 0xFF → Runs (.pwrWakeDone u) s fun t =>
      t.rd (K.PWR_STATE u) = v ∧ t.rd (K.PWR_TRANSITION u) = 0 ∧ (t.unit u).trans = .still ∧ Raised t Src.PWR_TRANSITION_DONE ∧
      t.bit K.DET_PWR_TRANSITION_DONE u.val = true ∧ (s.rd (K.PWR_STATE u) = 3 → (t.unit u).cold = false) ∧
      (v = 0 → ∀ n : Fin 16, u = pgUnit (pgOf n) → (t.unit (laneUnit n)).waitPg = false))

/-- R482: `PWR_DEVICE_OFF` of 1 is refused by SECURITY, then by FIRMWARE, as a request of the device; otherwise the Off entry starts.
Its first step ends when the lanes have bound off, the second when the save has ended; a failed save refuses the entry with FLASH; at
the abort point after each a wake event abandons it, counted by its cause; the third step switches Off. R477, R482: a WAKE edge leaves
Off and a hold after rail faults by a POR with its bit in `RST_CAUSE`, wakes the units of the mask, and waits for the abort point of an
Off entry; without power it does nothing else. What rests on a choice or reading of the model: log entries 8, 61. -/
def Obligations.DeviceOff : Prop :=
  (∀ (s : State) (r : Fin 18), s.accepts r K.PWR_DEVICE_OFF (be 1 1) = true → ∀ a, a = s.admitted r K.PWR_DEVICE_OFF (be 1 1) →
    Runs (.pwrDeviceOff r 1) s fun t =>
      (a.pwr.offStep ≠ 0 → t.pwr = a.pwr ∧ Changes [] s t) ∧
      (∀ c, a.pwr.offStep = 0 → (a.debugLevel ≠ 0 ∧ c = 1 ∨ a.debugLevel = 0 ∧ a.fwBusy = true ∧ c = 7) →
        t.rd K.PWR_OFF_LAST_REFUSER % 256 = c ∧ CountsUp a t ⟨.dev, 0x8002, c⟩ 1 ∧ Raised t Src.PWR_ENTRY_REFUSED ∧
        t.bit K.DET_PWR_ENTRY_REFUSED 22 = true ∧ t.pwr = a.pwr ∧ Changes [K.PWR_OFF_LAST_REFUSER, ⟨.dev, 0x8002, c⟩, K.DET_PWR_ENTRY_REFUSED] s t) ∧
      (a.pwr.offStep = 0 → a.debugLevel = 0 → a.fwBusy = false → t.pwr.offStep = 1 ∧ ∀ u, t.rd (K.PWR_STATE u) = s.rd (K.PWR_STATE u))) ∧
  (∀ (s : State) (r : Fin 18), s.accepts r K.PWR_DEVICE_OFF (be 1 0) = true → Runs (.pwrDeviceOff r 0) s fun t => Changes [] s t) ∧
  (∀ s : State, (s.pwr.offStep = 0 ∨ (s.pwr.offStep = 2 ∧ s.pwr.offSave = 1) ∨
      (s.pwr.offStep = 1 ∧ ∃ n : Fin 16, s.rd (K.PWR_STATE (laneUnit n)) ≤ 1 ∧ (s.phase n ≠ 0 ∨ s.binding n = true))) →
    Runs (.pwrEntryStepEnd 22) s fun t => t = s) ∧
  (∀ (s : State) (ap : Nat), (s.pwr.offStep = 1 ∧ (∀ n : Fin 16, s.phase n = 0 ∧ s.binding n = false) ∧ ap = 1 ∨
      s.pwr.offStep = 2 ∧ s.pwr.offSave = 2 ∧ ap = 2) → Runs (.pwrEntryStepEnd 22) s fun t =>
      (∀ c, s.pwr.offWake = some c → 1 ≤ c → c ≤ 5 → t.pwr.offStep = 0 ∧ field (t.rd K.PWR_OFF_LAST_REFUSER) 15 8 = c ∧
        CountsUp s t ⟨.dev, 0x8002, 7 + c⟩ 1 ∧ Raised t Src.PWR_ENTRY_ABORTED ∧ t.bit K.DET_PWR_ENTRY_ABORTED 22 = true) ∧
      (s.pwr.offWake = none → t.pwr.offStep = ap + 1 ∧ (∀ k, t.rd k = s.rd k) ∧
        (ap = 1 → (t.od.saving = true ↔ s.od.saving = true ∨ s.od.unsaved = true)))) ∧
  (∀ s : State, s.pwr.offStep = 2 → s.pwr.offSave = 3 → Runs (.pwrEntryStepEnd 22) s fun t =>
      t.pwr.offStep = 0 ∧ t.rd K.PWR_OFF_LAST_REFUSER % 256 = 4 ∧ CountsUp s t ⟨.dev, 0x8002, 4⟩ 1 ∧ Raised t Src.PWR_ENTRY_REFUSED ∧
      t.bit K.DET_PWR_ENTRY_REFUSED 22 = true) ∧
  (∀ s : State, s.pwr.offStep = 3 → Runs (.pwrEntryStepEnd 22) s fun t =>
      t.pwr.supply = .deviceOff ∧ t.powered = false ∧ t.bit K.RST_CAUSE 8 = true ∧
      ∀ k, State.persOf k ≠ .aon → k ≠ K.OD_CORE_STATE → t.rd k = resetOf k) ∧
  (∀ (s : State) (straps : BitVec 3), s.pwr.supply = .deviceOff ∨ s.pwr.supply = .stuckOff → Runs (.wakeEdge straps) s fun t =>
      t.pwr.supply = .starting ∧ t.pwr.strapRef = straps.getLsbD 2 ∧ t.rd K.CLK_REF_SRC = (if straps.getLsbD 2 then 1 else 0) ∧
      (s.pwr.supply = .stuckOff → t.bit K.RST_CAUSE 8 = true)) ∧
  (∀ (s : State) (straps : BitVec 3), s.powered = false → s.pwr.supply ≠ .deviceOff → s.pwr.supply ≠ .stuckOff → Runs (.wakeEdge straps) s fun t => t = s) ∧
  (∀ (s : State) (straps : BitVec 3), s.powered = true → Runs (.wakeEdge straps) s fun t =>
      (s.pwr.offStep ≠ 0 → t.pwr.offWake = s.pwr.offWake.or (some 1)) ∧
      ∀ u : Fin 22, s.bit K.PWR_WAKE_MASK u.val = true → u.val < 20 → s.tripped = false →
        ((s.unit u).trans = .still → 1 ≤ s.rd (K.PWR_STATE u) → s.rd (K.PWR_STATE u) ≤ 3 → t.rd (K.PWR_TRANSITION u) = 7) ∧
        (∀ st v, (s.unit u).trans = .entering st v → (t.unit u).pendWake ≠ none ∧ t.rd (K.PWR_PENDING u) = 0xFF)) ∧
  (∀ (s : State) (straps : BitVec 3), s.powered = true → Runs (.wakeEdge straps) s fun t => ∀ u : Fin 22, 20 ≤ u.val → s.bit K.PWR_WAKE_MASK u.val = true →
      ((s.unit u).trans = .still → 1 ≤ s.rd (K.PWR_STATE u) → s.rd (K.PWR_STATE u) ≤ 3 → t.rd (K.PWR_TRANSITION u) = 7) ∧
      (∀ st v, (s.unit u).trans = .entering st v → (t.unit u).pendWake = (s.unit u).pendWake.or (some 1))) ∧
  (∀ (s : State) (straps : BitVec 3) (u : Fin 22), s.powered = true → s.tripped = true → u.val < 20 → Runs (.wakeEdge straps) s fun t => t.unit u = s.unit u)

/-- R332, R491: a conversion writes its sensor's reading, 0x7FFF with the sensor's broken bit when it does not answer or reads outside
−60 °C to 175 °C, and the maxima follow: of every sensor, and of those not excluded from the trip. R494: the 16th valid reading raises
TEMP_SENSOR_RESTORED. R495: the warnings and the fast rate follow the maximum. R493: while tripped, the time below 105.00 °C starts
again at every conversion that leaves the trip maximum at or above it. R496: `THERM_TRIP_TEST` of 1 starts the test of the comparators,
whose end shows PASS when all 24 fired. What rests on a choice or reading of the model: log entry 8. -/
def Obligations.Temperature : Prop :=
  (∀ (s : State) (i : Fin 24) (v : BitVec 16) (answers : Bool), Runs (.tempConversion i v answers) s fun t =>
      (answers = true ∧ -6000 ≤ sx 16 v.toNat ∧ sx 16 v.toNat ≤ 17500 → t.tempOf i.val = sx 16 v.toNat ∧ t.bit K.TEMP_BROKEN i.val = false ∧
        (s.pwr.brokenRun.get i = 16 → t.pwr.brokenRun.get i = 0 ∧ Raised t Src.TEMP_SENSOR_RESTORED) ∧
        (1 ≤ s.pwr.brokenRun.get i → s.pwr.brokenRun.get i < 16 → t.pwr.brokenRun.get i = s.pwr.brokenRun.get i + 1)) ∧
      (¬ (answers = true ∧ -6000 ≤ sx 16 v.toNat ∧ sx 16 v.toNat ≤ 17500) → t.tempOf i.val = 0x7FFF ∧ t.bit K.TEMP_BROKEN i.val = true ∧
        t.pwr.brokenRun.get i = 1 ∧ (s.bit K.TEMP_BROKEN i.val = false → Raised t Src.TEMP_SENSOR_BROKEN)) ∧
      (∀ j, j < 24 → j ≠ i.val → t.tempOf j = s.tempOf j) ∧
      (∀ j, j < 24 → t.tempOf j ≤ t.rdI K.TEMP_MAX) ∧ t.rd K.TEMP_MAX_SENSOR < 24 ∧ t.tempOf (t.rd K.TEMP_MAX_SENSOR) = t.rdI K.TEMP_MAX ∧
      (∀ j, j < 24 → s.bit K.THERM_TRIP_EXCLUDE j = false → t.tempOf j ≤ t.rdI K.THERM_TRIP_MAX ∧
        s.bit K.THERM_TRIP_EXCLUDE t.pwr.tripSensor = false ∧ t.tempOf t.pwr.tripSensor = t.rdI K.THERM_TRIP_MAX) ∧
      (t.bit K.THERM_STATUS 4 = true ↔ s.rdI K.THERM_WARN_HIGH ≤ t.rdI K.TEMP_MAX) ∧
      (s.pwr.warnHighArmed = true → s.rdI K.THERM_WARN_HIGH ≤ t.rdI K.TEMP_MAX →
        Raised t Src.TEMP_WARN_HIGH ∧ t.pwr.warnHighArmed = false) ∧
      (t.rdI K.TEMP_MAX ≤ s.rdI K.THERM_WARN_HIGH - 200 → t.pwr.warnHighArmed = true) ∧
      (t.bit K.THERM_STATUS 3 = true ↔ 11500 ≤ t.rdI K.TEMP_MAX) ∧
      (s.bit K.THERM_STATUS 3 = false → 11500 ≤ t.rdI K.TEMP_MAX → Raised t Src.TEMP_FAST_SAMPLE) ∧
      (s.tripped = true → (t.bit K.THERM_STATUS 2 = true ↔ t.rdI K.THERM_TRIP_MAX < 10500) ∧
        t.pwr.coolAt = if t.rdI K.THERM_TRIP_MAX < 10500 then s.pwr.coolAt.or (some s.now) else none) ∧
      t.tripped = s.tripped ∧
      Changes [K.TEMP_T i.val, K.TEMP_BROKEN, K.TEMP_MAX, K.TEMP_MAX_SENSOR, K.THERM_TRIP_MAX, K.THERM_STATUS] s t) ∧
  (∀ (s : State) (r : Fin 18), s.accepts r K.THERM_TRIP_TEST (be 1 1) = true → Runs (.thermTripTest r 1) s fun t =>
      t.bit K.THERM_STATUS 6 = true ∧ Changes [K.THERM_STATUS] s t) ∧
  (∀ (s : State) (r : Fin 18), s.accepts r K.THERM_TRIP_TEST (be 1 0) = true → Runs (.thermTripTest r 0) s fun t => Changes [] s t) ∧
  (∀ (s : State) (fired : BitVec 24), s.bit K.THERM_STATUS 6 = true → Runs (.tripTestDone fired) s fun t =>
      t.bit K.THERM_STATUS 6 = false ∧ t.bit K.THERM_STATUS 7 = (fired == 0xFFFFFF) ∧ Raised t Src.TRIP_TEST_DONE ∧
      Changes [K.THERM_STATUS] s t) ∧
  (∀ (s : State) (fired : BitVec 24), s.bit K.THERM_STATUS 6 = false → Runs (.tripTestDone fired) s fun t => t = s)

/-- R491, R492: at a trip maximum of 125.00 °C or more the device trips: the status, the count, the time of the trip and the sensor of
the conversion that led to it, THERMAL_TRIP, bit TRIP of `RST_CAUSE`; every lane and port-group unit in Run, in Idle or in a transition
short of E6 enters trip hold, the others stay; a pending request of such a unit is discarded as refused TRIP, an entry is aborted with
cause TRIP; the core is forced to PL0 and the loops' SAFE is due; a lane or port-group test ends (R503). R493: the restart returns the
units in trip hold to Run and the core to its mode. What rests on a choice or reading of the model: log entries 8, 62. -/
def Obligations.ThermalTrip : Prop :=
  (∀ s : State, s.tripped = true ∨ s.rdI K.THERM_TRIP_MAX < 12500 → Runs .thermalTrip s fun t => t = s) ∧
  (∀ s : State, s.tripped = false → 12500 ≤ s.rdI K.THERM_TRIP_MAX → Runs .thermalTrip s fun t =>
      t.tripped = true ∧ CountsUp s t K.THERM_TRIP_COUNT 1 ∧ t.rd K.THERM_LAST_TRIP = s.timeNow ∧ Raised t Src.THERMAL_TRIP ∧
      t.rd K.THERM_LAST_SENSOR = s.pwr.tripSensor % 256 ∧ t.bit K.RST_CAUSE 3 = true ∧
      t.mgmt.forcedPl0 = true ∧ t.ce.trip = true ∧
      (∀ n, s.bist.running = some (.lane n) → t.bist.running = none) ∧ (∀ k, s.bist.running = some (.pg k) → t.bist.running = none) ∧
      ∀ u : Fin 22,
        (20 ≤ u.val → t.rd (K.PWR_STATE u) = s.rd (K.PWR_STATE u)) ∧
        (u.val < 20 → t.rd (K.PWR_PENDING u) = 0xFF ∧
          (s.rd (K.PWR_PENDING u) ≠ 0xFF → t.rd (K.PWR_LAST_REFUSER u) % 256 = 5 ∧ Raised t Src.PWR_ENTRY_REFUSED) ∧
          ((s.unit u).trans = .still → s.rd (K.PWR_STATE u) ≤ 1 → t.rd (K.PWR_STATE u) = 4) ∧
          ((s.unit u).trans = .still → 1 < s.rd (K.PWR_STATE u) → t.rd (K.PWR_STATE u) = s.rd (K.PWR_STATE u)) ∧
          (∀ v, (s.unit u).trans = .waking v → t.rd (K.PWR_STATE u) = 4 ∧ t.rd (K.PWR_TRANSITION u) = 0) ∧
          (∀ st v, (s.unit u).trans = .entering st v → st ≠ 6 → t.rd (K.PWR_STATE u) = 4 ∧ t.rd (K.PWR_TRANSITION u) = 0 ∧
            field (t.rd (K.PWR_LAST_REFUSER u)) 15 8 = 5 ∧ Raised t Src.PWR_ENTRY_ABORTED) ∧
          (∀ v, (s.unit u).trans = .entering 6 v → t.rd (K.PWR_STATE u) = s.rd (K.PWR_STATE u)))) ∧
  (∀ s : State, s.tripped = false ∨ s.pwr.coolAt = none → Runs .thermalRestart s fun t => t = s) ∧
  (∀ s : State, s.tripped = true → s.pwr.coolAt ≠ none → Runs .thermalRestart s fun t =>
      t.tripped = false ∧ t.bit K.THERM_STATUS 2 = false ∧ t.bit K.CE_STATUS 3 = false ∧ Raised t Src.THERMAL_RESTART ∧
      t.mgmt.forcedPl0 = false ∧ t.ce.trip = false ∧ t.ce.resume = s.on K.THERM_AUTO_RESUME ∧
      ∀ u : Fin 22, t.rd (K.PWR_STATE u) = (if s.rd (K.PWR_STATE u) = 4 then 0 else s.rd (K.PWR_STATE u)) ∧
        (s.rd (K.PWR_STATE u) = 4 → t.rd (K.PWR_TRANSITION u) = 0))

/-- R467, R468, R489: VIN_UNDER and VIN_OVER are raised while the device has power; a loss of VIN is a POR that leaves VIN alone in
`RST_CAUSE`, but in the hold after a third rail-fault POR only a deep one; its release reads the fuses and draws a challenge. A rail
fault is reported, recorded and counted, in a held reset without its interrupt (log entry 109); one that lasts is a POR with its own
cause bit; after 100 ms the sequence runs again, the third POR within 10 s excepted. R24, R469: the first lock of the synthesizers, with
a root and RESET_N high, starts the time counter, the control frames and the boot; a later `synthLock` clears the loss, and where LSYN
had lost lock a changed DAC queue distance is re-centred, counted and reported (R88); a loss of lock outside held-frequency mode clears
its bit. What rests on a choice or reading of the model: log entries 2, 8, 9, 88. -/
def Obligations.SupplyAndClocks : Prop :=
  (∀ (s : State) (c : Instr) (x : Src), (c = .vinUnder ∧ x = Src.VIN_UNDER) ∨ (c = .vinOver ∧ x = Src.VIN_OVER) → Runs c s fun t =>
      (s.powered = true → Raised t x ∧ Changes [] s t) ∧ (s.powered = false → t = s)) ∧
  (∀ (s : State) (deep : Bool), deep = false →
    s.pwr.supply = .stuckOff ∨ (s.pwr.supply = .faultOff ∧ 3 ≤ s.pwr.faultPors.length) → Runs (.vinLoss deep) s fun t => t = s) ∧
  (∀ (s : State) (deep : Bool),
    deep = true ∨ (s.pwr.supply ≠ .stuckOff ∧ (s.pwr.supply ≠ .faultOff ∨ s.pwr.faultPors.length < 3)) → Runs (.vinLoss deep) s fun t =>
      t.pwr.supply = .off ∧ t.pwr.faultPors = (if deep then [] else s.pwr.faultPors) ∧ t.powered = false ∧ t.rd K.RST_CAUSE = 0x40 ∧ t.rd K.PWR_LAST_FAULT = resetOf K.PWR_LAST_FAULT ∧
      t.rd K.PWR_REG_FAULTS = s.rd K.PWR_REG_FAULTS ∧ (∀ k, State.persOf k ≠ .aon → k ≠ K.OD_CORE_STATE → t.rd k = resetOf k)) ∧
  (∀ (s : State) (straps : BitVec 3), s.pwr.supply ≠ .off → Runs (.vinPorRelease straps) s fun t => t = s) ∧
  (∀ (s : State) (straps : BitVec 3), s.pwr.supply = .off → Runs (.vinPorRelease straps) s fun t =>
      t.pwr.supply = .starting ∧ t.pwr.strapRef = straps.getLsbD 2 ∧ t.pwr.strapTwi = straps.toNat % 4 ∧
      t.rd K.CLK_REF_SRC = (if straps.getLsbD 2 then 1 else 0) ∧ t.bit K.CLK_STATUS 5 = straps.getLsbD 2 ∧
      t.bit K.CLK_STATUS 2 = s.clk.rootValid ∧ t.sec.challenge = s.free ∧ t.free = s.free + 1 ∧
      t.sec.lc = (lcOf (vote3 (s.sec.otp.lc.get 0) (s.sec.otp.lc.get 1) (s.sec.otp.lc.get 2))).getD .deployed ∧
      (t.sec.kill = true ↔ 2 ≤ popCount 3 s.sec.otp.kill) ∧ t.sec.minSvn = pop128 (s.sec.otp.minSvn ||| s.sec.otp.minSvnWeak) ∧
      t.sec.revoked = s.sec.otp.revoke ||| s.sec.otp.revokeWeak ∧
      (lcOf (vote3 (s.sec.otp.lc.get 0) (s.sec.otp.lc.get 1) (s.sec.otp.lc.get 2)) = none → Raised t Src.OTP_FAULT)) ∧
  (∀ (s : State) (rail : BitVec 8) (cur : Bool), s.supplied = true → 1 ≤ rail.toNat → rail.toNat ≤ 6 →
    Runs (.railFault rail cur) s fun t =>
      t.rd K.PWR_LAST_FAULT = rail.toNat * 256 + (if cur then 2 else 1) ∧ CountsUp s t K.PWR_REG_FAULTS 1 ∧
      (s.pwr.resetLow = false → Raised t Src.REG_FAULT) ∧
      t.pwr = { s.pwr with railFault := some (rail.toNat, if cur then 2 else 1) } ∧
      Changes [K.PWR_LAST_FAULT, K.PWR_REG_FAULTS] s t) ∧
  (∀ (s : State) (rail : BitVec 8) (cur : Bool), s.supplied = false ∨ rail.toNat = 0 ∨ 6 < rail.toNat →
    Runs (.railFault rail cur) s fun t => t = s) ∧
  (∀ s : State, s.supplied = false ∨ s.pwr.railFault = none → Runs .railFaultPor s fun t => t = s) ∧
  (∀ s : State, s.supplied = true → s.pwr.railFault ≠ none → Runs .railFaultPor s fun t =>
      t.pwr.supply = .faultOff ∧ t.powered = false ∧ t.bit K.RST_CAUSE 7 = true ∧ t.rd K.PWR_LAST_FAULT = s.rd K.PWR_LAST_FAULT ∧
      t.pwr.faultPors = s.now :: (s.pwr.faultPors.filter fun c => decide (s.now ≤ c + 10 * ccPerSecond)) ∧ ∀ k, State.persOf k ≠ .aon → k ≠ K.OD_CORE_STATE → t.rd k = resetOf k) ∧
  (∀ (s : State) (straps : BitVec 3), s.pwr.supply ≠ .faultOff → Runs (.regFaultRestart straps) s fun t => t = s) ∧
  (∀ (s : State) (straps : BitVec 3), s.pwr.supply = .faultOff → Runs (.regFaultRestart straps) s fun t =>
      (3 ≤ s.pwr.faultPors.length → t.pwr.supply = .stuckOff ∧ ∀ k, t.rd k = s.rd k) ∧
      (s.pwr.faultPors.length < 3 → t.pwr.supply = .starting ∧ t.pwr.strapRef = straps.getLsbD 2)) ∧
  (∀ (s : State) (dist : List (Fin 16 × Fin 256)), s.clk.rootValid = false ∨ s.pwr.resetLow = true ∨ s.powered = false → Runs (.synthLock dist) s fun t => t = s) ∧
  (∀ (s : State) (dist : List (Fin 16 × Fin 256)), s.clk.rootValid = true → s.pwr.resetLow = false → s.powered = true → s.clk.lsynRuns = false →
    Runs (.synthLock dist) s fun t =>
      t.bit K.CLK_STATUS 0 = true ∧ t.bit K.CLK_STATUS 1 = true ∧ t.clk.lsynRuns = true ∧ t.time.counter = 0 ∧ t.running = true ∧
      t.bit K.CE_STATUS 0 = true ∧ t.pwr.supply = .booting ∧ t.ring.selvage = false ∧
      (s.bist.running = none → s.rd K.OD_CORE_STATE ≠ 3 → t.rd K.OD_CORE_STATE = 2)) ∧
  (∀ (s : State) (dist : List (Fin 16 × Fin 256)), s.clk.rootValid = true → s.pwr.resetLow = false → s.powered = true →
    s.clk.lsynRuns = true → s.bit K.CLK_STATUS 0 = true → Runs (.synthLock dist) s fun t =>
      t.bit K.CLK_STATUS 0 = true ∧ t.bit K.CLK_STATUS 1 = true ∧ t.pwr = s.pwr ∧ t.time = s.time ∧ Changes [K.CLK_STATUS] s t) ∧
  (∀ (s : State) (n : Fin 16) (d : Fin 256), s.clk.rootValid = true → s.pwr.resetLow = false → s.powered = true →
    s.clk.lsynRuns = true → s.bit K.CLK_STATUS 0 = false → (s.lane n).out ≠ .disabled → d.val ≠ (s.lane n).queue →
    Runs (.synthLock [(n, d)]) s fun t =>
      (t.lane n).queue = 2 ∧ t.bit (K.LINE_TX_FAULT n) 0 = true ∧ CountsUp s t (K.LINE_TX_QUEUE_SLIPS n) 1 ∧
      Raised t (Src.TX_FAULT n) ∧ (s.clamped (laneUnit n) = false → LatencyReported n 0x40 s t) ∧ ∀ m, m ≠ n → t.lane m = s.lane m) ∧
  (∀ (s : State) (hsyn : Bool), s.bit K.CLK_STATUS 3 = true ∨ s.clk.lsynRuns = false → Runs (.synthLockLoss hsyn) s fun t => t = s) ∧
  (∀ (s : State) (hsyn : Bool), s.bit K.CLK_STATUS 3 = false → s.clk.lsynRuns = true → Runs (.synthLockLoss hsyn) s fun t =>
      t.bit K.CLK_STATUS (if hsyn then 1 else 0) = false ∧
      t.bit K.CLK_STATUS (if hsyn then 0 else 1) = s.bit K.CLK_STATUS (if hsyn then 0 else 1) ∧ t.clk = s.clk ∧
      ∀ k : Fin 4, (s.pg k).gb = .locked → (t.pg k).gb ≠ .locked ∧ t.bit (K.PG_GB_STATUS k) 0 = false ∧ t.bit (K.PG_GB_STATUS k) 2 = true)

/-- R471, R487, R489, R490: RESET_N low takes every register but those of the always-on domain and of the event recorder to its reset
value (a lane's phase in C0 begins then), keeps ZEROIZED and TAINT, ends debug, and holds the device until it rises; without power only
the level is known. R488: `RST_LANE` resets every named lane in the same cc and no other. R361, R490: the ring device reset, once its
reply has left, leaves the clock unit, the time counter and the ring, ends debug, and boots the core. What rests on a choice or reading
of the model: log entries 8, 62. -/
def Obligations.Resets : Prop :=
  (∀ s : State, s.powered = true → Runs .resetNAssert s fun t =>
      t.bit K.RST_CAUSE 5 = true ∧ t.pwr.resetLow = true ∧ t.powered = false ∧ t.rd K.OD_CORE_STATE = 1 ∧ t.time = State.reset.time ∧
      t.ring = State.reset.ring ∧
      (∀ n, t.lane n = { State.reset.lane n with co := { (State.reset.lane n).co with phaseAt := s.now } }) ∧ t.zeroized = s.zeroized ∧ t.taint = s.taint ∧ t.debugLevel = 0 ∧
      (∀ x : Fin 2, (t.slot x).image = (s.slot x).image) ∧
      ∀ k, State.persOf k ≠ .aon → State.recKeeps k = false → State.thermKeeps k = false →
        [K.SEC_DEBUG_STATE, K.OD_CORE_STATE, K.CLK_STATUS, K.CLK_REF_SRC].contains k = false → (∀ u, k ≠ K.PWR_STATE u) →
        t.rd k = resetOf k) ∧
  (∀ s : State, s.powered = false → Runs .resetNAssert s fun t => t = { s with pwr := { s.pwr with resetLow := true } }) ∧
  (∀ s : State, Runs .resetNRelease s fun t => t = { s with pwr := { s.pwr with resetLow := false } }) ∧
  (∀ (s : State) (r : Fin 18) (v : BitVec 16), s.accepts r K.RST_LANE (be 2 v.toNat) = true → Runs (.rstLane r v) s fun t =>
      (v = 0 → t.lanes = s.lanes ∧ Changes [] s t) ∧
      (v ≠ 0 → t.bit K.RST_CAUSE 0 = true) ∧
      (∀ n : Fin 16, v.toNat.testBit n.val = true → (t.lane n).laneReset = true ∧ (t.lane n).resetEnd = s.now + 4096 ∧ t.phase n = 0) ∧
      (∀ n : Fin 16, v.toNat.testBit n.val = false → s.bist.running = none →
        { (t.lane n) with inj := (s.lane n).inj } = s.lane n ∧
        ∀ k : Key, k.blk = .line n → k ≠ K.LINE_FEC_INJ_COUNT n → t.rd k = s.rd k)) ∧
  (∀ s : State, s.resetReplied = false ∨ s.scanOn = true → Runs .ringDeviceReset s fun t => t = s) ∧
  (∀ s : State, s.resetReplied = true → s.scanOn = false → Runs .ringDeviceReset s fun t =>
      t.bit K.RST_CAUSE 4 = true ∧ t.rd K.OD_CORE_STATE = 2 ∧ t.time = { s.time with srcChange := t.srcDiffers } ∧ t.now = s.now ∧
      { t.ring with rose := s.ring.rose, roseTime := s.ring.roseTime } = { s.ring with resetPend := false, resetGo := false } ∧
      (∀ p i, t.rd ⟨.port p, i, 1⟩ = s.rd ⟨.port p, i, 1⟩) ∧ t.zeroized = s.zeroized ∧ t.taint = s.taint ∧ t.debugLevel = 0 ∧
      t.pwr.supply = .booting ∧ t.sec.running = none)

/-- R442, R443, Table 15-5: a boot tries the TRIAL slot if there is one, else the preferred one, then the other if it is VALID, each by
the checks of Table 15-3. A skein that passes runs: CORE_READY, the boots counted, the core up; after a core reset no traffic setting
changes. One that fails leaves its slot INVALID or ROLLBACK with the code of the first failed check; a boot of the other slot raises
FW_UPDATE_FAIL and makes it the preferred one. With no slot, an unanswering flash, or in SCRAPPED the ROM serves. R447: a confirmed
trial is ACTIVE, a trial without CORE_READY in time has failed and its fallback is ACTIVE. The skein's CODE lies in the SRAM from
CODE_LOAD, its first PRIV_LEN bytes privileged, and ENTRY is the start (R442, R449); FW_ACTIVATED comes only at the first CORE_READY of
an activation (R446). R441: the record takes the time served, in the copy that does not hold it, with the next number; until its write
is complete the copy before it holds. In SCAN no boot ends (R459). What rests on a choice or reading of the model: log entries 8, 63,
114, 115, 117. -/
def Obligations.Boot : Prop :=
  (∀ (s : State) (flash rootOk : Bool), s.rd K.OD_CORE_STATE ≠ 3 → (s.rd K.OD_CORE_STATE ≠ 2 ∨ s.sec.recovery = true) →
    Runs (.bootComplete flash rootOk) s fun t => t = s) ∧
  (∀ (s : State) (flash rootOk : Bool), s.scanOn = true → Runs (.bootComplete flash rootOk) s fun t => t = s) ∧
  (∀ (s : State) (flash rootOk : Bool) (x y : Fin 2), (s.rd K.OD_CORE_STATE = 3 ∨ (s.rd K.OD_CORE_STATE = 2 ∧ s.sec.recovery = false)) →
    s.scanOn = false → x = s.trialSlot.getD s.sec.preferred → y = State.otherSlot x → Runs (.bootComplete flash rootOk) s fun t =>
      (s.sec.lc = .scrapped → t.sec.recovery = true ∧ t.sec.running = none ∧ t.rd K.OD_CORE_STATE = 2) ∧
      (s.sec.lc ≠ .scrapped → flash = false → t.sec.recovery = true ∧ t.sec.running = none ∧ t.rd K.OD_CORE_STATE = 2 ∧
        t.rd K.FW_LAST_FAIL = x.val * 256 + 9 ∧ Raised t Src.FLASH_FAULT) ∧
      (s.sec.lc ≠ .scrapped → flash = true → ((s.slot x).st = .trial ∨ (s.slot x).st = .active ∨ (s.slot x).st = .valid) →
        s.skeinCheck (s.slot x).image = none → t.sec.running = some x ∧ t.rd K.OD_CORE_STATE = 0 ∧ t.pwr.supply = .up ∧
        CountsUp s t K.FW_BOOT_COUNT 1 ∧ Raised t Src.CORE_READY ∧ (s.sec.fwNew = true → Raised t Src.FW_ACTIVATED) ∧
        (s.sec.fwNew = false → (Raised t Src.FW_ACTIVATED → Raised s Src.FW_ACTIVATED)) ∧ t.sec.fwNew = false ∧
        (s.mgmt.owedDone.testBit 0 = true → Raised t Src.MRST_DONE) ∧ (s.mgmt.owedDone.testBit 1 = true → Raised t Src.WATCHDOG_RESET) ∧
        ((s.slot x).st = .valid → (t.slot x).st = .active) ∧
        t.sec.sram = Memory.block (Skein.codeLoad (s.slot x).image) (Skein.codeBytes (s.slot x).image) ∧
        t.sec.entry = Skein.entry (s.slot x).image ∧ t.sec.privLoad = Skein.codeLoad (s.slot x).image ∧
        t.sec.privLen = Skein.privLen (s.slot x).image ∧
        (s.pwr.loadDue = false → t.lanes = s.lanes ∧ t.hosts = s.hosts ∧ t.pgs = s.pgs ∧ ∀ k : Key, k.area = some .lanes → t.rd k = s.rd k)) ∧
      (∀ c, s.sec.lc ≠ .scrapped → flash = true → ((s.slot x).st = .trial ∨ (s.slot x).st = .active ∨ (s.slot x).st = .valid) →
        s.skeinCheck (s.slot x).image = some c →
        (t.slot x).st = (if c = 8 then .rollback else .invalid) ∧ Raised t (if c = 8 then Src.ROLLBACK_REFUSED else Src.SKEIN_AUTH_FAIL) ∧
        ((s.slot y).st = .valid → s.skeinCheck (s.slot y).image = none → t.sec.running = some y ∧ t.sec.preferred = y ∧
          (t.slot y).st = .active ∧ t.rd K.OD_CORE_STATE = 0 ∧ t.rd K.FW_LAST_FAIL = x.val * 256 + c ∧ Raised t Src.FW_UPDATE_FAIL ∧
          Raised t Src.CORE_READY ∧ (Raised t Src.FW_ACTIVATED → Raised s Src.FW_ACTIVATED)) ∧
        ((s.slot y).st ≠ .valid → t.sec.recovery = true ∧ t.sec.running = none ∧ t.rd K.OD_CORE_STATE = 2 ∧
          t.rd K.FW_LAST_FAIL = x.val * 256 + c))) ∧
  (∀ s : State, s.coreUp = false ∨ s.trialSlot = none → Runs .trialTimeServed s fun t => t = s) ∧
  (∀ (s : State) (x : Fin 2), s.coreUp = true → s.trialSlot = some x → Runs .trialTimeServed s fun t =>
      (t.slot x).st = .active ∧ t.slot (State.otherSlot x) = s.slot (State.otherSlot x) ∧ t.sec.preferred = x ∧ t.sec.fallback = none ∧
      Changes [] s t) ∧
  (∀ s : State, s.onTrial = true → Runs .trialRecordTimer s fun t =>
      t.sec.served = s.trialSeconds ∧ t.sec.servedAt = s.now ∧ t.sec.slots = s.sec.slots ∧ t.store = s.store ∧
      ∀ j : Fin 2, j = (if s.slotRec = some 0 then 1 else 0) → t.sec.recDue = some j ∧ (t.sec.recs.get j).crc = none ∧
        t.slotRec = s.slotRec ∧ (t.sec.recs.get j).served = s.trialSeconds ∧ (t.sec.recs.get j).preferred = s.sec.preferred ∧
        (∀ x : Fin 2, (t.sec.recs.get j).st.get x = (s.slot x).st) ∧
        (t.sec.recs.get j).seq = (match s.slotRec with | some i => ((s.sec.recs.get i).seq + 1) % 2 ^ 32 | none => 0) ∧
        t.sec.recs.get (State.otherSlot j) = s.sec.recs.get (State.otherSlot j)) ∧
  (∀ (s : State) (j : Fin 2), s.sec.recDue = some j → s.recEnd.sec.recDue = none ∧ State.recValid (s.recEnd.sec.recs.get j) = true ∧
      { (s.recEnd.sec.recs.get j) with crc := none } = { (s.sec.recs.get j) with crc := none } ∧
      s.recEnd.sec.recs.get (State.otherSlot j) = s.sec.recs.get (State.otherSlot j) ∧ s.recEnd.store = s.store) ∧
  (∀ s : State, s.onTrial = false → Runs .trialRecordTimer s fun t => t = s) ∧
  (∀ s : State, s.onTrial = false ∨ s.coreUp = true → Runs .trialBootTimeout s fun t => t = s) ∧
  (∀ (s : State) (x : Fin 2), s.trialSlot = some x → s.coreUp = false → s.bist.running = none → Runs .trialBootTimeout s fun t =>
      t.rd K.OD_CORE_STATE = 2 ∧ t.sec.running = none ∧ t.sec.fallback = none ∧ t.rd K.FW_LAST_FAIL = x.val * 256 + 10 ∧
      Raised t Src.FW_UPDATE_FAIL ∧ (s.sec.fallback = none → (t.slot x).st = .failedTrial) ∧
      (∀ f, s.sec.fallback = some f → f ≠ x → (t.slot x).st = .failedTrial ∧ (t.slot f).st = .active ∧ t.sec.preferred = f))

/-- R446: `FW_ACTIVATE` of 1 puts the VALID slot on TRIAL, makes the ACTIVE one VALID as its fallback, resets the core as an MRST with
the state ACTIVATING, and leaves every lane alone. R447, R463: `FW_CONFIRM` of 1 confirms the trial, if one runs. R448: `FW_SVN_COMMIT`
of 1 programs the lowest clear fuses up to the SVN of the ACTIVE skein, of which only those that verify count, and a VALID slot below
the new floor becomes ROLLBACK; a commit that the floor already reaches, and a write of 0 to any of the three, have no effect. What
rests on a choice or reading of the model: log entries 63, 65, 118. -/
def Obligations.Firmware : Prop :=
  (∀ (s : State) (r : Fin 18), s.accepts r K.FW_ACTIVATE (be 1 1) = true → ∀ a, a = s.admitted r K.FW_ACTIVATE (be 1 1) →
    ∀ x, x = a.activateSlot → (a.slot x).st = .valid → s.bist.running = none → Runs (.fwActivate r 1) s fun t =>
      (t.slot x).st = .trial ∧ (∀ w, a.activeSlot = some w → (t.slot w).st = .valid ∧ t.sec.fallback = some w) ∧ t.sec.fwNew = true ∧
      t.sec.running = none ∧ t.rd K.OD_CORE_STATE = 3 ∧ t.rd K.MGMT_PL = 2 ∧ CountsUp s t K.MGMT_MRST_COUNT 1 ∧
      t.bit K.RST_CAUSE 1 = true ∧ t.lanes = s.lanes ∧ ∀ k : Key, k.area = some .lanes → t.rd k = s.rd k) ∧
  (∀ (s : State) (r : Fin 18) (x : Fin 2), s.accepts r K.FW_CONFIRM (be 1 1) = true → s.trialSlot = some x →
    Runs (.fwConfirm r 1) s fun t =>
      (t.slot x).st = .active ∧ t.slot (State.otherSlot x) = s.slot (State.otherSlot x) ∧ t.sec.preferred = x ∧ t.sec.fallback = none ∧
      Changes [] s t) ∧
  (∀ (s : State) (r : Fin 18), s.accepts r K.FW_CONFIRM (be 1 1) = true → s.trialSlot = none → Runs (.fwConfirm r 1) s fun t =>
      t.sec.slots = s.sec.slots ∧ Changes [] s t) ∧
  (∀ (s : State) (r : Fin 18) (failed : BitVec 128), s.accepts r K.FW_SVN_COMMIT (be 1 1) = true → s.activeSlot = none →
    Runs (.fwSvnCommit r 1 failed) s fun t => t.sec.otp = s.sec.otp ∧ t.sec.minSvn = s.sec.minSvn ∧ Changes [] s t) ∧
  (∀ (s : State) (r : Fin 18) (failed : BitVec 128) (w : Fin 2) (svn : Nat), s.accepts r K.FW_SVN_COMMIT (be 1 1) = true →
    s.activeSlot = some w → svn = Skein.svn (s.slot w).image → Runs (.fwSvnCommit r 1 failed) s fun t =>
      (svn ≤ s.sec.minSvn → t.sec.otp = s.sec.otp ∧ t.sec.minSvn = s.sec.minSvn ∧ Changes [] s t) ∧
      (s.sec.minSvn < svn →
        (∀ i, t.sec.otp.minSvn.testBit i = (s.sec.otp.minSvn.testBit i || ((s.svnBits svn).contains i && !failed.toNat.testBit i))) ∧
        t.sec.minSvn = pop128 (t.sec.otp.minSvn ||| s.sec.otp.minSvnWeak) ∧ t.sec.otp.lc = s.sec.otp.lc ∧ t.sec.otp.kill = s.sec.otp.kill ∧
        ((s.svnBits svn).any (fun i => failed.toNat.testBit i) = true → t.rd K.FW_LAST_FAIL = w.val * 256 + 11 ∧ Raised t Src.OTP_FAULT) ∧
        ((s.svnBits svn).any (fun i => failed.toNat.testBit i) = false → t.rd K.FW_LAST_FAIL = s.rd K.FW_LAST_FAIL) ∧
        (∀ x, t.slot x = if (s.slot x).st = .valid ∧ Skein.svn (s.slot x).image < t.sec.minSvn then { s.slot x with st := .rollback }
          else s.slot x) ∧ Changes [K.FW_LAST_FAIL] s t)) ∧
  (∀ (s : State) (r : Fin 18) (failed : BitVec 128) (c : Instr), (c = .fwActivate r 0 ∧ s.accepts r K.FW_ACTIVATE (be 1 0) = true) ∨
      (c = .fwConfirm r 0 ∧ s.accepts r K.FW_CONFIRM (be 1 0) = true) ∨
      (c = .fwSvnCommit r 0 failed ∧ s.accepts r K.FW_SVN_COMMIT (be 1 0) = true) →
    Runs c s fun t => t.sec.slots = s.sec.slots ∧ t.sec.otp = s.sec.otp ∧ t.sec.minSvn = s.sec.minSvn ∧ Changes [] s t)

/-- R451, Table 15-6: an accepted nonce starts a report; when it is built it holds the magic, the identity, the state, the running
skein, the nonce and the time, `SEC_ATTEST_SEQ` goes up and ATTEST_DONE is raised; without KEYS_PRESENT the signatures are zeros. R453:
an accepted life-cycle advance programs the three copies of LC, with ID_KILL from RETURNED on, ends every Vendor grant and the debug
session, raises LIFE_CYCLE_CHG, from RETURNED on erases the keys, and in SCRAPPED disables every output and leaves the ROM serving. What
rests on a choice or reading of the model: log entries 64, 117. -/
def Obligations.AttestationAndLifeCycle : Prop :=
  (∀ (s : State) (r : Fin 18) (data : List Byte), s.accepts r K.SEC_ATTEST_NONCE data = true → Runs (.secAttestNonce r data) s fun t =>
      t.sec.nonce = some data ∧ Changes [] s t) ∧
  (∀ s : State, s.sec.nonce = none → Runs .attestDone s fun t => t = s) ∧
  (∀ (s : State) (nonce : List Byte), s.sec.nonce = some nonce → Runs .attestDone s fun t =>
      t.sec.nonce = none ∧ t.rd K.SEC_ATTEST_SEQ = (s.rd K.SEC_ATTEST_SEQ + 1) % 2 ^ 32 ∧ Raised t Src.ATTEST_DONE ∧
      (s.keysPresent = false → t.rd K.SEC_ATTEST_REPORT % 256 ^ 3373 = 0) ∧
      (∀ x rep, s.sec.running = some x → 512 ≤ (s.slot x).image.length → rep = be 3597 (t.rd K.SEC_ATTEST_REPORT) →
        slice rep 0 4 = be 4 0x41545431 ∧ slice rep 4 8 = be 8 State.uid ∧ slice rep 12 1 = be 1 (lcNum s.sec.lc) ∧
        slice rep 14 1 = be 1 s.fwActiveSlot ∧ slice rep 16 4 = be 4 (Skein.svn (s.slot x).image) ∧ slice rep 20 4 = be 4 s.sec.minSvn ∧
        slice rep 28 48 = slice (s.slot x).image 52 48 ∧ slice rep 172 32 = fitBytes 32 nonce ∧ slice rep 204 12 = be 12 s.timeNow ∧
        slice rep 216 4 = be 4 (s.rd K.FW_BOOT_COUNT)) ∧
      Changes [K.SEC_ATTEST_REPORT, K.SEC_ATTEST_SEQ] s t) ∧
  (∀ (s : State) (r : Fin 18) (v : BitVec 8), s.accepts r K.SEC_LC_ADVANCE (be 1 v.toNat) = true → 1 ≤ v.toNat → v.toNat ≤ 4 →
    Runs (.secLcAdvance r v) s fun t =>
      lcNum t.sec.lc = v.toNat ∧ (∀ i : Fin 3, t.sec.otp.lc.get i = lcCode t.sec.lc) ∧ Raised t Src.LIFE_CYCLE_CHG ∧
      t.rd K.SEC_VENDOR_HOLDERS = 0 ∧ t.debugLevel = 0 ∧ t.sec.otp.minSvn = s.sec.otp.minSvn ∧
      (v.toNat ≤ 2 → t.sec.kill = s.sec.kill ∧ t.sec.otp.kill = s.sec.otp.kill) ∧
      (3 ≤ v.toNat → t.sec.kill = true ∧ t.sec.otp.kill = 7 ∧ t.zeroized = true ∧ t.keysPresent = false) ∧
      (v.toNat ≤ 3 → t.lanes = s.lanes) ∧
      (v.toNat = 4 → t.sec.recovery = true ∧ t.sec.running = none ∧ t.rd K.OD_CORE_STATE = 2 ∧ ∀ n, (t.lane n).out = .disabled))

/-- R455, R456, R462, Table 15-11: a token is checked in order and its result shown. A grant of VENDOR goes to the requester, one of
DEBUG or SCAN opens the debug port; a refusal is counted and raised by its levels, and the 16th locks out; a token within 1 s of a
refusal, and any token in LOCKOUT, gets result 10 unchecked. The challenge is drawn again after a check that reached it. The same holds
on the TAP, where it goes to requester 17, and where the token waits while the management unit wakes. R457: before the port opens the
key store is erased, ZEROIZED and TAINT set; a bit read back as 1 leaves the port closed, with result 11. R459: scan, once open, is not
left by a token. R458: a close or the end of DURATION ends the session, and a halted core resumes. R460: a Vendor grant ends by its
holder's drop or its DURATION, and no other grant with it. The codes that a refused token is answered with are those of R456, of result
11 the model's (log entry 116). What rests on a choice or reading of the model: log entries 2, 64, 119. -/
def Obligations.TokensAndSessions : Prop :=
  (∀ (s : State) (r : Fin 18) (token : List Byte) (ok : Bool), s.served r = false → Runs (.secToken r token ok) s fun t => t = s) ∧
  (∀ (s : State) (r : Fin 18) (token : List Byte) (ok : Bool), s.served r = true → s.mustWake K.SEC_TOKEN = true →
    Runs (.secToken r token ok) s fun t => t = s.coreWake) ∧
  (∀ (s : State) (r : Fin 18) (token : List Byte) (ok : Bool) (a : Abort), s.refuses r K.SEC_TOKEN token a = true →
    Runs (.secToken r token ok) s fun t =>
      t.rd K.SEC_TOKEN_RESULT = s.rd K.SEC_TOKEN_RESULT ∧ t.sec = s.sec ∧ t.rd K.SEC_VENDOR_HOLDERS = s.rd K.SEC_VENDOR_HOLDERS ∧
      (t.req r).outcome = (Verdict.abort a).num ∧ CountsUp s t K.OD_ABORT_COUNT 1) ∧
  (∀ (s : State) (c : Instr) (r : Fin 18) (token : List Byte) (ok tap : Bool) (level res : Nat),
    (c = .secToken r token ok ∧ s.accepts r K.SEC_TOKEN token = true ∧ tap = false) ∨
      (c = .dbgToken token ok ∧ r = 17 ∧ token.length = 3437 ∧ s.powered = true ∧ tap = true ∧
        (s.scanOn = true ∨ (s.od.coreQ = [] ∧ s.rd (K.PWR_STATE 21) = 0 ∧ (s.unit 21).trans = .still))) →
    level = beNat (slice token 6 1) →
    res = (if s.tokenResult tap token = 1 ∧ level &&& 6 ≠ 0 ∧ ok = false then 11 else s.tokenResult tap token) → Runs c s fun t =>
      t.rd K.SEC_TOKEN_RESULT = res ∧
      (tap = false → (t.req r).outcome = (if res = 1 then Verdict.ok else .abort (State.tokenAbort res)).num) ∧
      t.sec.challenge = (if res = 1 ∨ res = 6 ∨ res = 8 ∨ res = 9 ∨ res = 11 then s.free else s.sec.challenge) ∧
      (s.lockout = true ∨ (∃ w, s.sec.lastRefusal = some w ∧ s.now < w + ccPerSecond) → res = 10) ∧
      (res = 1 → level &&& 6 = 0 → t.debugLevel = s.debugLevel ∧ t.zeroized = s.zeroized ∧ t.sec.keys = s.sec.keys) ∧
      (res = 1 → level &&& 6 ≠ 0 → t.zeroized = true ∧ t.taint = true ∧ t.keysPresent = false ∧ t.sec.keys = {} ∧
        (s.scanOn = true → t.debugLevel = s.debugLevel) ∧
        (s.scanOn = false → t.debugLevel = (if level.testBit 2 then 2 else 1) ∧ Raised t Src.DEBUG_OPENED ∧
          t.sec.dbgDur = beNat (slice token 48 4) ∧ t.sec.dbgAt = s.now)) ∧
      (res = 1 → level.testBit 0 = true → t.bit K.SEC_VENDOR_HOLDERS r.val = true ∧ t.sec.grants.get r = beNat (slice token 48 4)) ∧
      (res ≠ 1 → t.debugLevel = s.debugLevel ∧ t.rd K.SEC_VENDOR_HOLDERS = s.rd K.SEC_VENDOR_HOLDERS ∧ CountsUp s t K.SEC_TOKEN_FAILS 1 ∧
        Raised t (if level &&& 6 ≠ 0 then Src.DEBUG_UNLOCK_FAIL else Src.VENDOR_TOKEN_FAIL)) ∧
      (res = 11 → t.keysPresent = false ∧ t.sec.keys = {}) ∧
      (res ≠ 1 → res ≠ 10 → res ≠ 11 → t.sec.lastRefusal = some s.now ∧ t.sec.refusals = s.sec.refusals + 1 ∧
        (16 ≤ s.sec.refusals + 1 → t.lockout = true)) ∧
      (res = 10 ∨ res = 11 → t.sec.refusals = s.sec.refusals ∧ t.sec.lastRefusal = s.sec.lastRefusal)) ∧
  (∀ (s : State) (token : List Byte) (ok : Bool), token.length = 3437 → s.powered = true → s.scanOn = false →
    (∃ i, (s.unit 21).trans = .waking i) ∨ (2 ≤ s.rd (K.PWR_STATE 21) ∧ (s.unit 21).trans = .still) →
    Runs (.dbgToken token ok) s fun t =>
      t.rd K.SEC_TOKEN_RESULT = s.rd K.SEC_TOKEN_RESULT ∧ t.sec.challenge = s.sec.challenge ∧ t.debugLevel = s.debugLevel ∧
      t.od.coreQ.getLast? = some ⟨17, 0xF0 :: token, (s.req 17).epoch, false, (!ok).toNat⟩) ∧
  (∀ (s : State) (token : List Byte) (ok : Bool), s.powered = false → Runs (.dbgToken token ok) s fun t =>
      t = s.modTap fun p => { p with ir := 0x10 }) ∧
  (∀ (s : State) (r : Fin 18), s.accepts r K.SEC_DEBUG_CLOSE (be 1 1) = true →
    Runs (.secDebugClose r 1) s fun t =>
      (s.debugLevel = 1 → t.debugLevel = 0 ∧ t.sec.halted = false) ∧ (s.debugLevel ≠ 1 → t.debugLevel = s.debugLevel) ∧ Changes [] s t) ∧
  (∀ (s : State) (r : Fin 18), s.accepts r K.SEC_DEBUG_CLOSE (be 1 0) = true → Runs (.secDebugClose r 0) s fun t =>
      t.debugLevel = s.debugLevel ∧ Changes [] s t) ∧
  (∀ s : State, s.debugLevel = 1 → s.sec.dbgDur ≠ 0 → Runs .debugDurationExpiry s fun t =>
      t.debugLevel = 0 ∧ t.sec.halted = false ∧ t.zeroized = s.zeroized ∧ Changes [] s t) ∧
  (∀ s : State, s.debugLevel ≠ 1 ∨ s.sec.dbgDur = 0 → Runs .debugDurationExpiry s fun t => t = s) ∧
  (∀ (s : State) (r : Fin 18), s.accepts r K.SEC_VENDOR_DROP (be 1 1) = true → Runs (.secVendorDrop r 1) s fun t =>
      t.bit K.SEC_VENDOR_HOLDERS r.val = false ∧
      (∀ q : Fin 18, q ≠ r → t.bit K.SEC_VENDOR_HOLDERS q.val = s.bit K.SEC_VENDOR_HOLDERS q.val) ∧ Changes [K.SEC_VENDOR_HOLDERS] s t) ∧
  (∀ (s : State) (r : Fin 18), s.accepts r K.SEC_VENDOR_DROP (be 1 0) = true → Runs (.secVendorDrop r 0) s fun t => Changes [] s t) ∧
  (∀ (s : State) (r : Fin 18), s.sec.grants.get r ≠ 0 → Runs (.vendorDurationExpiry r) s fun t =>
      t.bit K.SEC_VENDOR_HOLDERS r.val = false ∧
      (∀ q : Fin 18, q ≠ r → t.bit K.SEC_VENDOR_HOLDERS q.val = s.bit K.SEC_VENDOR_HOLDERS q.val) ∧ Changes [K.SEC_VENDOR_HOLDERS] s t) ∧
  (∀ (s : State) (r : Fin 18), s.sec.grants.get r = 0 → Runs (.vendorDurationExpiry r) s fun t => t = s)

/-- R454, Table 15-9: an instruction that the debug level does not permit, and a reserved code, act as BYPASS, which shifts its input
out one bit later; EXTEST and SAMPLE/PRELOAD capture the pins in the boundary register, shift it and update it, CLAMP and HIGHZ leave
the bypass register in the path, and what EXTEST and CLAMP drive is the boundary register's; IDCODE shifts out 0x164165EB. R458: a debug
access halts the core, lets it go on, and reads or writes a byte of SRAM, where what cannot be known of the read is free. At the scan
level both accesses reach the chains, whose content is free. R533: TRST_N low resets the port. The order of the boundary cells is the
model's (log entry 113). What rests on a choice or reading of the model: log entries 66, 71, 115. -/
def Obligations.TestAccessPort : Prop :=
  (∀ (s : State) (c : Instr) (code : BitVec 5) (pins : BitVec 16) (d : List Bool) (op : DebugOp),
    (c = .extest pins d ∧ code = 0x00 ∧ s.debugLevel ≠ 2) ∨ (c = .clamp d ∧ code = 0x04 ∧ s.debugLevel ≠ 2) ∨
      (c = .highz d ∧ code = 0x05 ∧ s.debugLevel ≠ 2) ∨ (c = .dbgAccess d op ∧ code = 0x11 ∧ s.debugLevel = 0) ∨
      (c = .scanAccess d ∧ code = 0x12 ∧ s.debugLevel ≠ 2) ∨
      (c = .bypass code d ∧ code.toNat ∉ [0x00, 0x01, 0x02, 0x04, 0x05, 0x10, 0x11, 0x12]) → Runs c s fun t =>
      t.sec.tap = { s.sec.tap with ir := code, out := (false :: d).take d.length } ∧ t.tapActing = .bypass ∧ (∀ k, t.rd k = s.rd k) ∧
      { t.sec with tap := s.sec.tap } = s.sec) ∧
  (∀ (s : State) (c : Instr) (d : List Bool) (pins : BitVec 16), (c = .extest pins d ∧ s.debugLevel = 2) ∨ c = .samplePreload pins d →
    Runs c s fun t =>
      t.tapActing = (if c = .extest pins d then .extest else .sample) ∧
      t.sec.tap.out = (bitsLsb 16 pins.toNat ++ d).take d.length ∧ t.sec.tap.boundary = (bitsLsb 16 pins.toNat ++ d).drop d.length ∧
      (∀ b : ScanBall, c = .extest pins d → 16 ≤ d.length → (t.scanDrives b) = d[d.length - 16 + scanBalls.idxOf b]?) ∧
      (∀ k, t.rd k = s.rd k) ∧ { t.sec with tap := s.sec.tap } = s.sec) ∧
  (∀ (s : State) (c : Instr) (d : List Bool) (i : TapIr), (c = .clamp d ∧ i = .clamp) ∨ (c = .highz d ∧ i = .highz) → s.debugLevel = 2 →
    Runs c s fun t => t.tapActing = i ∧ t.sec.tap.out = (false :: d).take d.length ∧ t.sec.tap.boundary = s.sec.tap.boundary ∧
      (∀ b : ScanBall, t.scanDrives b = if i = .clamp then s.sec.tap.boundary[scanBalls.idxOf b]? else none) ∧
      (∀ k, t.rd k = s.rd k) ∧ { t.sec with tap := s.sec.tap } = s.sec) ∧
  (∀ s : State, Runs .idcode s fun t =>
      t.tapActing = .idcode ∧ t.sec.tap.out.length = 32 ∧ t.sec.tap.boundary = s.sec.tap.boundary ∧
      (∀ i, i < 32 → t.sec.tap.out[i]? = some ((0x164165EB : Nat).testBit i)) ∧ ∀ k, t.rd k = s.rd k) ∧
  (∀ s : State, Runs .tapReset s fun t => t.sec.tap = State.reset.sec.tap ∧ (∀ k, t.rd k = s.rd k) ∧ { t.sec with tap := s.sec.tap } = s.sec) ∧
  (∀ (s : State) (d : List Bool) (op : DebugOp), s.debugLevel = 1 → Runs (.dbgAccess d op) s fun t =>
      t.tapActing = .access ∧ t.sec.tap.boundary = s.sec.tap.boundary ∧ (∀ k, t.rd k = s.rd k) ∧ t.sec.halted =
        (match op with | .halt => s.sec.halted || s.coreUp | .resume => false | _ => s.sec.halted) ∧
      (∀ a v, op = .sramRead a → Memory.read s.sec.sram a.toNat = some v → t.sec.tap.out = bitsLsb 8 v.toNat ∧ t.sec.sram = s.sec.sram) ∧
      (∀ a, op = .sramRead a → Memory.read s.sec.sram a.toNat = none → t.sec.tap.out.length = 8 ∧ t.sec.sram = s.sec.sram) ∧
      (∀ a v, op = .sramWrite a v → Memory.wf s.sec.sram → Memory.read t.sec.sram a.toNat = some v ∧
        ∀ b, b ≠ a.toNat → Memory.read t.sec.sram b = Memory.read s.sec.sram b) ∧
      (∀ a, op = .fabricRead a → t.sec.tap.out.length = 32) ∧
      t.sec.keys = s.sec.keys) ∧
  (∀ (s : State) (c : Instr) (d : List Bool) (op : DebugOp), s.debugLevel = 2 → (c = .dbgAccess d op ∨ c = .scanAccess d) → Runs c s fun t =>
      t.tapActing = (if c = .scanAccess d then .scan else .access) ∧ t.sec.tap.out.length = d.length ∧ t.sec.halted = s.sec.halted ∧
      t.sec.sram = s.sec.sram ∧ t.sec.tap.boundary = s.sec.tap.boundary ∧ ∀ k, t.rd k = s.rd k)

/-- R499, R500: an accepted write of a target's code to `BIST_START` starts its test: status RUNNING, expected cycles of Table 17-1, the
failure entries and the time of the start; a write of 0 does nothing. The key store's test erases it first, without TAINT; R501: the
SRAM's holds the core in reset. R502, R507, R508, R510: at its last cycle a test without failing words passes if its signature is the
expected one and else fails; failing rows of a memory with spares wait for repair, any other failing word fails the test, and a bank's
result decides over its Deep-sleep requests. R503: `BIST_STOP` of 1 cuts a running test: ABORTED, cause 1, DONE 0, its cycles as they
stand. What rests on a choice or reading of the model: log entries 8, 68, 120. -/
def Obligations.SelfTest : Prop :=
  (∀ (s : State) (r : Fin 18) (v : BitVec 8) (x : BistTarget), s.accepts r K.BIST_START (be 1 v.toNat) = true →
    Bist.ofCode v.toNat = some x → Runs (.bistStart r v) s fun t =>
      t.bist.running = some x ∧ t.bist.startCc = s.now ∧ t.bist.failing = none ∧ t.bist.maps = s.bist.maps ∧
      t.rd K.BIST_STATUS = v.toNat * 2 ^ 24 + 2 ^ 16 ∧ t.rd K.BIST_CYCLES = 0 ∧ t.rd K.BIST_EXPECTED = Bist.expected x ∧
      t.rd K.BIST_FAIL_WORDS = 0 ∧ t.rd K.BIST_FIRST_FAIL = 0xFFFFFFFF ∧ t.rd K.BIST_START_TIME = s.timeNow ∧
      (x = .keyStore → t.zeroized = true ∧ t.keysPresent = false ∧ t.taint = (s.admitted r K.BIST_START (be 1 v.toNat)).taint) ∧
      (x = .sram → t.rd K.OD_CORE_STATE = 1 ∧ CountsUp s t K.MGMT_MRST_COUNT 1 ∧ t.bit K.RST_CAUSE 1 = true) ∧
      (x ≠ .sram → t.mgmt = (s.admitted r K.BIST_START (be 1 v.toNat)).mgmt)) ∧
  (∀ (s : State) (r : Fin 18), s.accepts r K.BIST_START (be 1 0) = true → Runs (.bistStart r 0) s fun t =>
      t.bist = s.bist ∧ Changes [] s t) ∧
  (∀ (s : State) (r : Fin 18), s.accepts r K.BIST_STOP (be 1 0) = true → Runs (.bistStop r 0) s fun t =>
      t.bist = s.bist ∧ Changes [] s t) ∧
  (∀ (s : State) (r : Fin 18), s.accepts r K.BIST_STOP (be 1 1) = true → s.bist.running = none → Runs (.bistStop r 1) s fun t =>
      t.bist = s.bist ∧ Changes [] s t) ∧
  (∀ (s : State) (r : Fin 18) (x : BistTarget), s.accepts r K.BIST_STOP (be 1 1) = true → s.bist.running = some x →
    s.bist.failing = none → Runs (.bistStop r 1) s fun t =>
      t.bist.running = none ∧ t.rd K.BIST_CYCLES = s.bistCycles x ∧ t.rd K.BIST_EXPECTED = s.rd K.BIST_EXPECTED ∧
      t.rd K.BIST_STATUS = Bist.code x * 2 ^ 24 + 5 * 2 ^ 16 + 1 * 2 ^ 8 +
        (if t.rd K.BIST_SIGNATURE = t.rd K.BIST_SIG_EXPECTED then 1 else 0) ∧
      CountsUp s t K.BIST_RUNS 1 ∧ CountsUp s t K.BIST_ABORTS 1 ∧ t.rd K.BIST_PASSES = s.rd K.BIST_PASSES ∧ Raised t Src.BIST_DONE) ∧
  (∀ (s : State) (fails : List (BitVec 17)) (sig : BitVec 32), s.bist.running = none ∨ s.bist.failing ≠ none →
    Runs (.bistDone fails sig) s fun t => t = s) ∧
  (∀ (s : State) (fails : List (BitVec 17)) (sig : BitVec 32) (x : BistTarget) (bad : List Nat), s.bist.running = some x →
    s.bist.failing = none → bad = ((fails.map (·.toNat)).filter fun w => decide (w < Bist.words x)) → bad.length < 2 ^ 32 →
    Runs (.bistDone fails sig) s fun t =>
      t.rd K.BIST_CYCLES = Bist.expected x ∧ t.rd K.BIST_SIGNATURE = sig.toNat ∧ t.rd K.BIST_FAIL_WORDS = bad.length ∧
      (bad ≠ [] → bad.min? = some (t.rd K.BIST_FIRST_FAIL)) ∧ t.bist.maps = s.bist.maps ∧
      (bad = [] → sig.toNat = s.rd K.BIST_SIG_EXPECTED → t.rd K.BIST_STATUS = Bist.code x * 2 ^ 24 + 2 * 2 ^ 16 + 3 ∧
        CountsUp s t K.BIST_PASSES 1 ∧ t.rd K.BIST_FAILS = s.rd K.BIST_FAILS) ∧
      ((bad = [] ∧ sig.toNat ≠ s.rd K.BIST_SIG_EXPECTED) ∨ (bad ≠ [] ∧ Bist.mem x = none) →
        t.rd K.BIST_STATUS = Bist.code x * 2 ^ 24 + 4 * 2 ^ 16 + 2 + (if sig.toNat = s.rd K.BIST_SIG_EXPECTED then 1 else 0) ∧
        CountsUp s t K.BIST_FAILS 1 ∧ t.rd K.BIST_PASSES = s.rd K.BIST_PASSES ∧ Raised t Src.BIST_FAIL ∧
        (∀ b, x = .bank b → b.val ∈ t.pwr.bankBad)) ∧
      (bad = [] ∨ Bist.mem x = none → t.bist.running = none ∧ CountsUp s t K.BIST_RUNS 1 ∧ Raised t Src.BIST_DONE) ∧
      (bad = [] → sig.toNat = s.rd K.BIST_SIG_EXPECTED → ∀ b, x = .bank b → b.val ∉ t.pwr.bankBad) ∧
      (bad ≠ [] → Bist.mem x ≠ none → t.bist.running = some x ∧ t.bist.failing = some (x, Bist.rowsOf bad) ∧
        t.bit K.BIST_STATUS 1 = true ∧ t.rd K.BIST_RUNS = s.rd K.BIST_RUNS))

/-- R507, R510: failing rows that are not mapped take the spares that are free, in order of address; with a spare for each the result is
PASS_REPAIRED and REPAIR_APPLIED is raised, else FAIL, REPAIR_EXHAUSTED and BIST_FAIL. R509: `REPAIR_FUSE_CMD` of 1 fuses every mapping
that was not, but the ones whose record fails its read-back, which raise OTP_FAULT. A write of 0, here and to `BIST_CNT_CLEAR`, has no
effect; 1 to the latter clears the four counters. What rests on a choice or reading of the model: log entries 8, 68. -/
def Obligations.Repair : Prop :=
  (∀ (s : State) (lost : Bool), s.bist.failing = none → Runs (.repairApply lost) s fun t => t = s) ∧
  (∀ (s : State) (lost : Bool) (x : BistTarget) (rows need : List Nat) (m : Nat), s.bist.failing = some (x, rows) → Bist.mem x = some m →
    need = rows.filter (fun w => !(s.mappedRows m).contains w) → Runs (.repairApply lost) s fun t =>
      t.bist.running = none ∧ t.bist.failing = none ∧
      t.mappedRows m = s.mappedRows m ++ need.take (Bist.spares m - (s.mappedRows m).length) ∧
      (∀ i, i ≠ m → t.mappedRows i = s.mappedRows i) ∧ (∀ y ∈ s.bist.maps, y ∈ t.bist.maps) ∧ Raised t Src.BIST_DONE ∧
      CountsUp s t K.BIST_RUNS 1 ∧
      (need.length ≤ Bist.spares m - (s.mappedRows m).length → s.rd K.BIST_SIGNATURE = s.rd K.BIST_SIG_EXPECTED →
        t.rd K.BIST_STATUS = Bist.code x * 2 ^ 24 + 3 * 2 ^ 16 + 3 ∧ Raised t Src.REPAIR_APPLIED ∧ CountsUp s t K.BIST_PASSES 1) ∧
      (Bist.spares m - (s.mappedRows m).length < need.length →
        t.rd K.BIST_STATUS = Bist.code x * 2 ^ 24 + 4 * 2 ^ 16 + 2 +
          (if s.rd K.BIST_SIGNATURE = s.rd K.BIST_SIG_EXPECTED then 1 else 0) ∧
        Raised t Src.REPAIR_EXHAUSTED ∧ Raised t Src.BIST_FAIL ∧ CountsUp s t K.BIST_FAILS 1)) ∧
  (∀ (s : State) (r : Fin 18) (failed : BitVec 64), s.accepts r K.REPAIR_FUSE_CMD (be 1 1) = true →
    Runs (.repairFuseCmd r 1 failed) s fun t =>
      t.bist.maps.map (fun m => (m.mem, m.row)) = s.bist.maps.map (fun m => (m.mem, m.row)) ∧
      (failed = 0 → ∀ m ∈ t.bist.maps, m.fused = true) ∧ (∀ m ∈ s.bist.maps, m.fused = true → m ∈ t.bist.maps) ∧
      ((∃ m ∈ s.bist.maps, m.fused = false) → failed.toNat.testBit 0 = true → Raised t Src.OTP_FAULT) ∧
      t.bist.running = s.bist.running ∧ Changes [] s t) ∧
  (∀ (s : State) (r : Fin 18) (failed : BitVec 64), s.accepts r K.REPAIR_FUSE_CMD (be 1 0) = true →
    Runs (.repairFuseCmd r 0 failed) s fun t => t.bist = s.bist ∧ Changes [] s t) ∧
  (∀ (s : State) (r : Fin 18), s.accepts r K.BIST_CNT_CLEAR (be 1 1) = true → Runs (.bistCntClear r 1) s fun t =>
      (∀ i, 1 ≤ i → i ≤ 4 → t.rd ⟨.dev, 0xB002, i⟩ = resetOf ⟨.dev, 0xB002, i⟩) ∧ t.bist = s.bist ∧
      Changes ((List.range 4).map fun i => ⟨.dev, 0xB002, i + 1⟩) s t) ∧
  (∀ (s : State) (r : Fin 18), s.accepts r K.BIST_CNT_CLEAR (be 1 0) = true → Runs (.bistCntClear r 0) s fun t =>
      t.bist = s.bist ∧ Changes [] s t)

/-- R377, R378, R394, Table 13-9: a request of a requester that is not served goes unanswered; one that finds eight in its queue is
answered BUSY with the hint and the core's load, and counted; any TWI request that finds every slot taken is lost and counted; a request
that is held in the cache gets its answer again and is not executed again; one that already waits is not taken twice. What rests on a
choice or reading of the model: log entries 43, 69, 112, 119. -/
def Obligations.RequestAcceptance : Prop :=
  (∀ (s : State) (c : Instr) (r : Fin 18) (req : List Byte), requestOf c = some (r, req) → s.served r = false → Runs c s fun t => t = s) ∧
  (∀ (s : State) (c : Instr) (r : Fin 18) (req : List Byte), requestOf c = some (r, req) → s.served r = true →
    ¬ (r = 16 ∧ 8 ≤ s.od.twiSlots) → 8 ≤ (s.req r).queue.length → Runs c s fun t =>
      Answers t r req 2 (State.respFlags req) (be 2 (s.queueHint r) ++ be 1 (s.rd K.OD_CORE_LOAD)) ∧ CountsUp s t K.OD_BUSY_COUNT 1 ∧
      (t.req r).queue = (s.req r).queue ∧ (t.req r).outcome = 2 ∧ t.od.coreQ = s.od.coreQ ∧ t.od.waiting = s.od.waiting ∧ Quiet s t) ∧
  (∀ (s : State) (c : Instr) (req : List Byte), requestOf c = some (16, req) → s.served 16 = true → 8 ≤ s.od.twiSlots → Runs c s fun t =>
      CountsUp s t K.OD_TWI_OVERFLOW 1 ∧ t.od.twiOverflow = true ∧ t.od.reqs = s.od.reqs ∧ Changes [K.OD_TWI_OVERFLOW] s t) ∧
  (∀ (s : State) (c : Instr) (r : Fin 18) (req : List Byte) (a : Cached), requestOf c = some (r, req) → s.served r = true →
    ¬ (r = 16 ∧ 8 ≤ s.od.twiSlots) → (s.req r).queue.length < 8 → reqFits req = true →
    ((s.req r).cache.find? fun c => c.req == req) = some a →
    Runs c s fun t =>
      (t.req r).lastAnswer = a.resp ∧ (t.req r).queue = (s.req r).queue ∧ (t.req r).cache = (s.req r).cache ∧
      (t.req r).transfer = (s.req r).transfer ∧ (t.req r).group = (s.req r).group ∧ t.od.coreQ = s.od.coreQ ∧
      t.od.waiting = s.od.waiting ∧ Changes [] s t) ∧
  (∀ (s : State) (c : Instr) (r : Fin 18) (req : List Byte), requestOf c = some (r, req) → s.served r = true →
    ¬ (r = 16 ∧ 8 ≤ s.od.twiSlots) → (s.req r).queue.length < 8 → reqFits req = true →
    ((s.req r).cache.find? fun c => c.req == req) = none →
    ((s.req r).queue.any fun q => q.bytes == req) = true → Runs c s fun t => t = s) ∧
  (∀ (s : State) (c : Instr) (r : Fin 18) (req : List Byte), requestOf c = some (r, req) → s.served r = true →
    ¬ (r = 16 ∧ 8 ≤ s.od.twiSlots) → (s.req r).queue.length < 8 → reqFits req = false → Runs c s fun t => Aborts s t r req .badCmd ∧ Quiet s t)

/-- R383, R386, Table 13-9: a READ that passes its checks is answered with the entry's value, or OK_SEGMENTED with its length and a
snapshot of it; it waits behind a queued write of its entry, and one that needs the core until the core takes it up. One that fails a
check is answered with its abort and changes nothing. R431: a register that is cleared on read reads zero afterwards; a read of such a
register by CLEAR_ON_READ_READ returns its bits first. What rests on a choice or reading of the model: log entry 69. -/
def Obligations.Reads : Prop :=
  (∀ (s : State) (r : Fin 18) (tag : BitVec 8) (idx : BitVec 16) (sub : BitVec 8),
    ∀ k : Key, k = Key.ofIndex idx.toNat sub.toNat →
    ∀ req : List Byte, req = reqAt 1 tag idx sub [] → s.arrives r req = true → ∀ a : State, a = s.arrived r req →
    (State.readNeedsCore k = false ∧ (∀ q ∈ s.od.coreQ, q.req = r → q.core = true) ∧
        a.mustWait a.od.coreQ ⟨r, req, (s.req r).epoch, false, 0⟩ = false) ∨
      (State.readNeedsCore k = true ∧ a.readAccess r k = .ok ∧ a.coreAwake = true ∧ s.od.coreQ = [] ∧ s.od.coreAt = none) →
    ∀ b : State, b = (if State.readNeedsCore k then a.asked else a) → b.readCheck r k = .ok → Runs (.read r tag idx sub) s fun t =>
      ((b.readValue r k).length ≤ 248 → Answers t r req 0 0 (b.readValue r k)) ∧
      (248 < (b.readValue r k).length → Answers t r req 4 0 (be 4 (b.readValue r k).length) ∧
        (t.req r).transfer = .reading (b.readValue r k) 0 false []) ∧
      (t.req r).outcome = 0 ∧ t.od.coreQ = s.od.coreQ ∧ (∀ x, x ≠ K.OD_MAX_RESP_US → t.rd x = (b.readAfter r k).rd x) ∧
      (State.clearedOnRead k = true → k.sub ≠ 0 → t.rd k = 0)) ∧
  (∀ (s : State) (r : Fin 18) (tag : BitVec 8) (idx : BitVec 16) (sub : BitVec 8) (x : Abort),
    ∀ k : Key, k = Key.ofIndex idx.toNat sub.toNat →
    ∀ req : List Byte, req = reqAt 1 tag idx sub [] → s.arrives r req = true → ∀ a : State, a = s.arrived r req →
    (State.readNeedsCore k = false ∧ (∀ q ∈ s.od.coreQ, q.req = r → q.core = true) ∧
        a.mustWait a.od.coreQ ⟨r, req, (s.req r).epoch, false, 0⟩ = false ∧ a.readCheck r k = .abort x) ∨
      (State.readNeedsCore k = true ∧ a.readAccess r k = .abort x) →
    Runs (.read r tag idx sub) s fun t => Aborts s t r req x ∧ Quiet s t) ∧
  (∀ (s : State) (r : Fin 18) (tag : BitVec 8) (idx : BitVec 16) (sub : BitVec 8),
    ∀ k : Key, k = Key.ofIndex idx.toNat sub.toNat →
    ∀ req : List Byte, req = reqAt 1 tag idx sub [] → s.arrives r req = true → ∀ a : State, a = s.arrived r req →
    (State.readNeedsCore k = false ∧ ((∃ q ∈ s.od.coreQ, q.req = r ∧ q.core = false) ∨
        a.mustWait a.od.coreQ ⟨r, req, (s.req r).epoch, false, 0⟩ = true)) ∨
      (State.readNeedsCore k = true ∧ a.readAccess r k = .ok ∧ (∀ q ∈ s.od.coreQ, q.core = true) ∧
        (a.coreAwake = false ∨ s.od.coreAt ≠ none)) →
    Runs (.read r tag idx sub) s fun t =>
      (t.req r).queue = (s.req r).queue ++ [⟨req, s.now, State.readNeedsCore k⟩] ∧
      t.od.coreQ = s.od.coreQ ++ [⟨r, req, (s.req r).epoch, State.readNeedsCore k, 0⟩] ∧ t.od.waiting = s.od.waiting ∧
      ∀ x, t.rd x = (if State.readNeedsCore k then a.coreWake else a).rd x) ∧
  (∀ (s : State) (r : Fin 18) (idx : BitVec 16) (sub : BitVec 8), s.served r = false → Runs (.clearOnReadRead r idx sub) s fun t => t = s) ∧
  (∀ (s : State) (r : Fin 18) (idx : BitVec 16) (sub : BitVec 8), ∀ k : Key, k = Key.ofIndex idx.toNat sub.toNat → s.served r = true →
    Runs (.clearOnReadRead r idx sub) s fun t =>
      (s.readCheck r k = .ok → (t.req r).lastAnswer = s.readValue r k ∧ (t.req r).outcome = 0 ∧
        (State.clearedOnRead k = true → k.sub ≠ 0 → t.rd k = 0)) ∧
      (∀ x, s.readCheck r k = .abort x → (t.req r).outcome = x.code ∧ CountsUp s t K.OD_ABORT_COUNT 1 ∧ Changes [K.OD_ABORT_COUNT] s t))

/-- R371, R375, R382, R386, R388: an accepted write of a fast-path entry is answered OK and takes effect, or waits for the boundary that
its entry names, as does the write of any entry that has no row of its own; a write that needs the core waits for its commit point,
which applies and answers it. A write that fails a check is answered with its abort and changes nothing; more than 248 bytes fit no
WRITE. What rests on a choice or reading of the model: log entries 38, 41, 43, 69, 119. -/
def Obligations.Writes : Prop :=
  (∀ (s : State) (r : Fin 18) (idx : BitVec 16) (sub : BitVec 8) (data : List Byte) (x : BitVec 128),
    ∀ k : Key, k = Key.ofIndex idx.toNat sub.toNat → k ≠ K.SEC_TOKEN → s.accepts r k data = true → ∀ a : State, a = s.admitted r k data →
    Runs (.registerWrite r idx sub data x) s fun t =>
      (t.req r).outcome = 0 ∧ (boundOf k = none → ∀ y, t.rd y = (a.applyNow r k data x.toNat).rd y) ∧
      ∀ b, boundOf k = some b → Changes [] s t ∧
        t.od.waiting = s.od.waiting ++ [{ req := r, epoch := (s.req r).epoch, bound := b, grp := false, writes := [(k, data)] }]) ∧
  (∀ (s : State) (r : Fin 18) (tag : BitVec 8) (idx : BitVec 16) (sub : BitVec 8) (data : List Byte),
    ∀ k : Key, k = Key.ofIndex idx.toNat sub.toNat →
    ∀ req : List Byte, req = reqAt 2 tag idx sub data → data.length ≤ 248 → s.arrives r req = true → ∀ a : State, a = s.arrived r req →
    (s.req r).lost = false → (s.req r).group = none → k ≠ K.SEC_TOKEN → State.fastWrite k = true → checkWrite a r k data = .ok →
    (∀ q ∈ s.od.coreQ, q.req ≠ r) → a.mustWait a.od.coreQ ⟨r, req, (s.req r).epoch, false, 0⟩ = false → Runs (.write r tag idx sub data) s fun t =>
      Answers t r req 0 0 [] ∧ (t.req r).outcome = 0 ∧
      (boundOf k = none → ∀ y, y ≠ K.OD_MAX_RESP_US → t.rd y = (((a.countOwnerWrite r).markDirty r k data).applyNow r k data 0).rd y) ∧
      ∀ b, boundOf k = some b → Quiet s t ∧
        t.od.waiting = s.od.waiting ++ [{ req := r, epoch := (s.req r).epoch, bound := b, grp := false, writes := [(k, data)] }]) ∧
  (∀ (s : State) (r : Fin 18) (tag : BitVec 8) (idx : BitVec 16) (sub : BitVec 8) (data : List Byte),
    ∀ k : Key, k = Key.ofIndex idx.toNat sub.toNat →
    ∀ req : List Byte, req = reqAt 2 tag idx sub data → data.length ≤ 248 → s.arrives r req = true → ∀ a : State, a = s.arrived r req →
    (s.req r).lost = false → (s.req r).group = none → State.fastWrite k = false → checkEntry a r k data = .ok → (∀ q ∈ s.od.coreQ, q.core = true) →
    ∀ took : Bool, (took = false ∧ (a.coreAwake = false ∨ s.od.coreAt ≠ none ∨
        (s.od.coreQ = [] ∧ a.mustWait [] ⟨r, req, (s.req r).epoch, true, 0⟩ = true))) ∨
      (took = true ∧ a.coreAwake = true ∧ s.od.coreAt = none ∧ s.od.coreQ = [] ∧ checkWrite a r k data = .ok ∧
        a.mustWait [] ⟨r, req, (s.req r).epoch, true, 0⟩ = false) → Runs (.write r tag idx sub data) s fun t =>
      (t.req r).queue = (s.req r).queue ++ [⟨req, s.now, true⟩] ∧ t.od.coreQ = s.od.coreQ ++ [⟨r, req, (s.req r).epoch, true, 0⟩] ∧
      t.od.coreAt = (if took then some r else s.od.coreAt) ∧ t.od.waiting = s.od.waiting ∧ ∀ y, t.rd y = a.coreWake.rd y) ∧
  (∀ (s : State) (r : Fin 18) (tag : BitVec 8) (idx : BitVec 16) (sub : BitVec 8) (data : List Byte) (x : Abort),
    ∀ k : Key, k = Key.ofIndex idx.toNat sub.toNat →
    ∀ req : List Byte, req = reqAt 2 tag idx sub data → data.length ≤ 248 → s.arrives r req = true → ∀ a : State, a = s.arrived r req →
    (checkEntry a r k data = .abort x ∨ (checkEntry a r k data = .ok ∧ checkWrite a r k data = .abort x ∧ (s.req r).lost = false ∧
      (s.req r).group = none ∧ (if State.fastWrite k then
          (∀ q ∈ s.od.coreQ, q.req ≠ r) ∧ a.mustWait a.od.coreQ ⟨r, req, (s.req r).epoch, false, 0⟩ = false
        else s.od.coreQ = [] ∧ s.od.coreAt = none ∧ a.coreAwake = true ∧ (s.unit 21).trans = .still ∧
          a.mustWait [] ⟨r, req, (s.req r).epoch, true, 0⟩ = false))) →
    Runs (.write r tag idx sub data) s fun t => Aborts s t r req x ∧ Quiet s t) ∧
  (∀ (s : State) (r : Fin 18) (tag : BitVec 8) (idx : BitVec 16) (sub : BitVec 8) (data : List Byte),
    ∀ req : List Byte, req = reqAt 2 tag idx sub data → 248 < data.length → s.arrives r req = true → Runs (.write r tag idx sub data) s fun t =>
      Aborts s t r req .badCmd ∧ Quiet s t) ∧
  (∀ (s : State) (x : BitVec 128), s.coreAwake = false ∨ s.od.coreAt = none → Runs (.coreWriteCommit x) s fun t => t = s) ∧
  (∀ (s : State) (x : BitVec 128) (r : Fin 18) (q : CoreReq) (k : Key), s.coreAwake = true → s.od.coreAt = some r → s.od.coreQ = [q] →
    q.req = r → q.core = true → reqCmd q.bytes = 2 → k = reqKey q.bytes → (s.req r).lost = false → (s.req r).group = none → k ≠ K.SEC_TOKEN →
    ∀ w : State, w = (s.modOd fun o => { o with coreQ := [], coreAt := none }).pcEvent 0x09 1 → checkWrite w r k (reqData q.bytes) = .ok →
    Runs (.coreWriteCommit x) s fun t =>
      Answers t r q.bytes 0 0 [] ∧ (t.req r).outcome = 0 ∧
      (∀ b, boundOf k = some b → t.od.coreQ = [] ∧ t.od.coreAt = none ∧ Quiet s t ∧
        t.od.waiting = s.od.waiting ++ [{ req := r, epoch := q.epoch, bound := b, grp := false, writes := [(k, reqData q.bytes)] }]) ∧
      (boundOf k = none → ∀ y, y ≠ K.OD_MAX_RESP_US →
        t.rd y = (((w.countOwnerWrite r).markDirty r k (reqData q.bytes)).applyNow r k (reqData q.bytes) x.toNat).rd y)) ∧
  (∀ (s : State) (x : BitVec 128) (r : Fin 18) (q : CoreReq) (j : Nat), s.coreAwake = true → s.od.coreAt = some r →
    s.coreHead r = some (q, j) →
    ∀ w : State, w = (s.modOd fun o => { o with coreQ := s.od.coreQ.eraseIdx j, coreAt := none }).pcEvent 0x09 1 →
    Runs (.coreWriteCommit x) s fun t => ∀ u : State, u = (s.modOd fun o => { o with coreAt := none }).serveAt q j x.toNat → t = u.pumpAll ∧
      ∀ y, reqCmd q.bytes = 2 → (s.req r).lost = false → (s.req r).group = none →
        checkWrite w r (reqKey q.bytes) (reqData q.bytes) = .abort y → Answers u r q.bytes 1 0 (be 4 y.code) ∧ Quiet s u)

/-- R55, R62, R388, R391: at its boundary a waiting write takes effect and waits no longer, and a boundary for which nothing waits
changes no entry; a write of a receive coefficient reaches the chain and is followed by one snapshot (R63: so does a snapshot that was
asked for); a transmit boundary takes the pending taps and the source; the precoders follow the conversation. A group of the control
domain raises its source when it takes effect. R73, R78, R83, R86, R98: what a lane sent since its last codeword boundary has gone
through the chain of Table 3-1, each level at its LEVEL value, with the FFE, the predistortion where it is on and the tone, in Courn-225
two samples of each symbol; the codes stand in the DAC sample queue, clamped samples count, and a disabled stage sends none, a relocking
gearbox code 0. What rests on a choice or reading of the model: log entries 8, 58, 73, 86, 101, 103, 104. -/
def Obligations.Boundaries : Prop :=
  (∀ (s : State) (b : BoundAt) (bound : Bound), ((b = .tick ∧ bound = .tick) ∨ (b = .frame ∧ bound = .frame) ∨
      (∃ g, b = .period g ∧ bound = .period g)) → (∀ g ∈ s.od.waiting, g.bound ≠ bound) → Runs (.groupApply b) s fun t => t = s) ∧
  (∀ (s : State) (b : BoundAt) (n : Fin 16), (b = .rx n ∧ ∀ g ∈ s.od.waiting, g.bound ≠ .rxCw n ∧ g.bound ≠ .anyCw n) ∨
      (b = .tx n ∧ ∀ g ∈ s.od.waiting, g.bound ≠ .txCw n ∧ g.bound ≠ .anyCw n) → Runs (.groupApply b) s fun t => t = s) ∧
  (∀ (s : State) (b : BoundAt) (bound : Bound) (k : Key) (data : List Byte) (r : Fin 18) (e : Nat) (grp : Bool) (d : Entry),
    ((∃ n, b = .tx n ∧ bound = .txCw n ∧ k.blk = .line n ∧ (k.off = 0x22 ∨ k.off = 0x24 ∨ k.off = 0x25)) ∨
      (∃ g, b = .period g ∧ bound = .period g ∧ k = ⟨.pg g, 0x09, 2⟩) ∨ (∃ i, 3 ≤ i ∧ b = .tick ∧ bound = .tick ∧ k = ⟨.dev, 0x5002, i⟩)) →
    entryOf k = some d → d.acc ≠ .wo → s.scanOn = false → s.od.waiting = [{ req := r, epoch := e, bound := bound, grp := grp, writes := [(k, data)] }] →
    Runs (.groupApply b) s fun t => t.rd k = beNat data % 2 ^ bitsOf k ∧ t.od.waiting = [] ∧ Changes [k] s t) ∧
  (∀ (s : State) (g : Waiting), s.scanOn = false → s.od.waiting = [g] → g.bound = .frame → g.grp = true → Runs (.groupApply .frame) s fun t =>
      Raised t (Src.CE 15)) ∧
  (∀ (s : State) (n : Fin 16) (bits : List Bool) (tone : List Int), (∀ g ∈ s.od.waiting, g.bound ≠ .rxCw n ∧ g.bound ≠ .anyCw n) → (s.lane n).coldApply = false →
    (s.lane n).restartPend = false → (s.lane n).snapPend = false → Runs (.codewordBoundaryApply n true bits tone) s fun t =>
      t.rd (K.LINE_RX_PRECODE n) = (if 5 ≤ s.phase n ∧ (s.co n).precFar = true then 1 else 0) ∧ t.lanes = s.lanes ∧
      t.od.waiting = s.od.waiting ∧ Changes [K.LINE_RX_PRECODE n] s t) ∧
  (∀ (s : State) (n : Fin 16) (bits : List Bool) (tone : List Int) (i : Nat) (data : List Byte) (r : Fin 18) (e : Nat) (grp : Bool), 1 ≤ i → i ≤ 48 → s.scanOn = false →
    s.od.waiting = [{ req := r, epoch := e, bound := .rxCw n, grp := grp, writes := [(⟨.line n, 0x12, i⟩, data)] }] →
    (s.lane n).coldApply = false → (s.lane n).restartPend = false → (s.lane n).snapPend = false → Runs (.codewordBoundaryApply n true bits tone) s fun t =>
      (t.lane n).coef.acc = (s.lane n).coef.acc.set (i - 1) (sx 16 (beNat data) * 4096) ∧ (t.lane n).coef.lut = (s.lane n).coef.lut ∧
      t.rd (K.LINE_FFE_SNAP_SEQ n) = (s.rd (K.LINE_FFE_SNAP_SEQ n) + 1) % 2 ^ bitsOf (K.LINE_FFE_SNAP_SEQ n) ∧ t.od.waiting = [] ∧
      ∀ m, m ≠ n → t.lane m = s.lane m) ∧
  (∀ (s : State) (n : Fin 16) (bits : List Bool) (tone : List Int), (∀ g ∈ s.od.waiting, g.bound ≠ .rxCw n ∧ g.bound ≠ .anyCw n) → (s.lane n).coldApply = false →
    (s.lane n).restartPend = false → (s.lane n).snapPend = true → Runs (.codewordBoundaryApply n true bits tone) s fun t =>
      (∀ k, k < 48 → t.rdI (K.LINE_FFE_TAP n k) = tapOf (getI (s.lane n).coef.acc k)) ∧ (t.lane n).coef = (s.lane n).coef ∧ (t.lane n).snapPend = false ∧
      t.rd (K.LINE_FFE_SNAP_SEQ n) = (s.rd (K.LINE_FFE_SNAP_SEQ n) + 1) % 2 ^ bitsOf (K.LINE_FFE_SNAP_SEQ n) ∧
      ∀ m, m ≠ n → t.lane m = s.lane m) ∧
  (∀ (s : State) (n : Fin 16) (bits : List Bool) (tone : List Int), (∀ g ∈ s.od.waiting, g.bound ≠ .txCw n ∧ g.bound ≠ .anyCw n) →
    Runs (.codewordBoundaryApply n false bits tone) s fun t => ∃ u, t = State.coSettle u n ∧ (u.lane n).txTapsPend = none ∧
      (u.lane n).txTapsDefault = false ∧ (u.co n).ackOwed = none ∧
      u.rd (K.LINE_TX_PRECODE n) = (if 5 ≤ s.phase n ∧ (s.co n).precOwn = true then 1 else 0) ∧ u.od.waiting = s.od.waiting ∧
      (∀ taps, (s.lane n).txTapsPend = some taps → txTaps u n = txTaps (s.setTxTaps n taps) n)) ∧
  (∀ (s : State) (n : Fin 16) (bits : List Bool) (tone : List Int) (r : TxS × List Int), (s.lane n).out ≠ .disabled →
    (s.pg (pgOf n)).code0 = false → r = txRun (s.txCfg n) (s.lane n).tx (s.txSymbols n bits) (s.toneSamples n tone) →
    Runs (.codewordBoundaryApply n false bits tone) s fun t =>
      (t.lane n).tx.codes = ((r.2.map (clampI (-128) 127)).reverse ++ (s.lane n).tx.codes).take 256 ∧
      (t.lane n).tx.idx = r.1.idx ∧ (t.lane n).tx.amp = r.1.amp ∧ (t.lane n).tx.at_ = s.now ∧
      r.2.length = (if s.is225 n then 2 else 1) * (bits.length / 2) ∧
      CountsUp s t (K.LINE_TX_DAC_CLIP n) (r.2.filter fun c => c < -128 ∨ 127 < c).length) ∧
  (∀ (s : State) (n : Fin 16) (hi lo : Bool) (tone : List Int) (a : Fin 4) (old : TxS) (v d : Int), (s.lane n).out ≠ .disabled →
    (s.pg (pgOf n)).code0 = false → (s.lane n).srcNow = 3 → s.on (K.LINE_TX_PRECODE n) = false → (s.picot n).burst = none →
    a = gray hi lo → old = txPush (s.lane n).tx (a, s.rdI (K.LINE_TX_LEVEL n a.val)) → v = txFfe (txTaps s n) old.amp →
    d = (if s.on (K.LINE_TX_PD_EN n) then s.rdI (K.LINE_TX_PD_LUT n (pdIdx (txIdx old (s.rd (K.LINE_TX_FFE_MAIN n) + 1))
      (txIdx old (s.rd (K.LINE_TX_FFE_MAIN n))) (txIdx old (s.rd (K.LINE_TX_FFE_MAIN n) - 1)))) else 0) →
    Runs (.codewordBoundaryApply n false [hi, lo] tone) s fun t =>
      (t.lane n).tx.codes = (List.replicate (if s.is225 n then 2 else 1) (clampI (-128) 127 (dacSum v d 0)) ++ (s.lane n).tx.codes).take 256) ∧
  (∀ (s : State) (n : Fin 16) (bits : List Bool) (tone : List Int), (s.lane n).out = .disabled ∨ (s.pg (pgOf n)).code0 = true →
    Runs (.codewordBoundaryApply n false bits tone) s fun t =>
      t.rd (K.LINE_TX_DAC_CLIP n) = s.rd (K.LINE_TX_DAC_CLIP n) ∧ (t.lane n).tx.codes =
        if (s.lane n).out = .disabled then (s.lane n).tx.codes
        else (List.replicate ((if s.is225 n then 2 else 1) * (bits.length / 2)) 0 ++ (s.lane n).tx.codes).take 256)

/-- R383 to R385, R445: WRITE_INIT of an entry that fits opens a download, of a skein slot that is not in use with the slot in WRITING;
a size of 0, beyond the entry's, or of a slot in use is refused. A segment with the expected toggle is stored, of a skein of more than
64 KiB in the slot, and acknowledged; one with the other toggle is acknowledged again and not stored; the segment with LAST completes
the entry's write, or the slot's checks; a wrong length ends the transfer. READ_SEG returns the next 252 bytes of the snapshot, LAST
with the last of them, and a repeated toggle the same again. ABORT ends a transfer; one that lay idle for its time is shown once as
SEG_TIMEOUT. What rests on a choice or reading of the model: log entries 31, 32, 118. -/
def Obligations.Transfers : Prop :=
  (∀ (s : State) (r : Fin 18) (tag : BitVec 8) (idx : BitVec 16) (sub : BitVec 8) (size : BitVec 32),
    ∀ k : Key, k = Key.ofIndex idx.toNat sub.toNat →
    ∀ req : List Byte, req = reqAt 3 tag idx sub (be 4 size.toNat) → s.arrives r req = true → s.coreFree → ∀ a : State, a = s.arrived r req →
    checkEntry a r k [] = .ok → ∀ en, entryOf k = some en → (s.req r).lost = false →
    Runs (.writeInit r tag idx sub size) s fun t =>
      (size = 0 → Aborts s t r req .length) ∧
      (size ≠ 0 → 16777216 < size.toNat ∨ en.ty.size < size.toNat → Aborts s t r req .size) ∧
      (1 ≤ size.toNat → size.toNat ≤ 16777216 → (size.toNat = en.ty.size ∨ ((en.ty = .str ∨ ∃ m, en.ty = .domMax m) ∧ size.toNat ≤ en.ty.size)) →
        ((∀ x, k.blk ≠ .slot x) → Answers t r req 0 0 [] ∧ (t.req r).transfer = .writing k size.toNat 0 [] false ∧ t.od.waiting = s.od.waiting) ∧
        (∀ x, k.blk = .slot x → s.slotBusy x r = false → Answers t r req 0 0 [] ∧ (t.req r).transfer = .writing k size.toNat 0 [] false ∧
          (t.slot x).st = .writing ∧ (t.slot x).writer = some r ∧ (65536 < size.toNat → (t.slot x).image = []) ∧
          (size.toNat ≤ 65536 → (t.slot x).image = (s.slot x).image)) ∧
        (∀ x, k.blk = .slot x → s.slotBusy x r = true → Aborts s t r req .inUse))) ∧
  (∀ (s : State) (r : Fin 18) (tag flags rsv : BitVec 8) (data : List Byte) (x : BitVec 128),
    ∀ req : List Byte, req = reqOf 4 tag ([flags, rsv] ++ data) → s.arrives r req = true → s.coreFree → s.fencesMet r →
    ∀ a : State, a = s.arrived r req → 1 ≤ data.length → data.length ≤ 252 →
    ∀ (k : Key) (size got : Nat) (held : List Byte) (tog : Bool), (s.req r).transfer = .writing k size got held tog → a.segCheck r data = .ok →
    field flags.toNat 5 0 = 0 → rsv = 0 → ∀ n : Nat, n = got + data.length → ∀ big : Bool, big = decide (65536 < size) →
    ∀ ack : Nat, ack = flags.toNat / 64 * 64 → Runs (.writeSeg r tag flags rsv data x) s fun t =>
      (flags.toNat.testBit 7 = tog → flags.toNat.testBit 6 = false → n < size → Answers t r req 0 ack [] ∧
        ((∀ y, k.blk ≠ .slot y) ∨ big = false → (t.req r).transfer = .writing k size n (held ++ data) (!tog) ∧ t.sec.slots = s.sec.slots ∧ Quiet s t) ∧
        (∀ y, k.blk = .slot y → big = true → (t.req r).transfer = .writing k size n [] (!tog) ∧
          ((s.slot y).st = .writing → (s.slot y).image.length < 0x380000 →
            (x.getLsbD 0 = false → (t.slot y).image = (s.slot y).image ++ data) ∧ (x.getLsbD 0 = true → Raised t Src.FLASH_FAULT)))) ∧
      (flags.toNat.testBit 7 ≠ tog → 0 < got → Answers t r req 0 ack [] ∧ Quiet s t ∧
        (t.req r).transfer = .writing k size got held tog ∧ ∀ y, t.slot y = s.slot y) ∧
      (flags.toNat.testBit 7 ≠ tog → got = 0 → Aborts s t r req .toggle ∧ (t.req r).transfer = .idle) ∧
      (flags.toNat.testBit 7 = tog → (flags.toNat.testBit 6 = true ∧ n ≠ size) ∨ (flags.toNat.testBit 6 = false ∧ size ≤ n) →
        Aborts s t r req .length ∧ (t.req r).transfer = .idle) ∧
      (∀ y, flags.toNat.testBit 7 = tog → flags.toNat.testBit 6 = true → n = size → k.blk = .slot y → big = true → (s.slot y).st = .writing →
        (s.slot y).image.length < 0x380000 → x.getLsbD 0 = false → (s.req r).lost = false →
        Answers t r req 0 ack [] ∧ (t.req r).transfer = .idle ∧ Raised t Src.FW_SLOT_WRITTEN ∧
        (t.slot y).st = (match s.skeinCheck ((s.slot y).image ++ data) with | none => .valid | some c => if c = 8 then .rollback else .invalid)) ∧
      (∀ y, flags.toNat.testBit 7 = tog → flags.toNat.testBit 6 = true → n = size → k.blk = .slot y → big = false → x.getLsbD 0 = false →
        (s.req r).lost = false → (s.req r).group = none → checkWrite a r k (held ++ data) = .ok →
        Answers t r req 0 ack [] ∧ (t.req r).transfer = .idle ∧ Raised t Src.FW_SLOT_WRITTEN ∧ (t.slot y).image = held ++ data ∧
        (t.slot y).st = (match s.skeinCheck (held ++ data) with | none => .valid | some c => if c = 8 then .rollback else .invalid)) ∧
      (flags.toNat.testBit 7 = tog → flags.toNat.testBit 6 = true → n = size → (s.req r).lost = true → Aborts s t r req .groupLost ∧
        (t.req r).transfer = .idle) ∧
      (∀ b, flags.toNat.testBit 7 = tog → flags.toNat.testBit 6 = true → n = size → (∀ y, k.blk ≠ .slot y) → k ≠ K.SEC_TOKEN →
        (s.req r).lost = false → (s.req r).group = none → checkWrite a r k (held ++ data) = .ok → boundOf k = some b →
        a.boundNow k (beNat (held ++ data)) = some b →
        Answers t r req 0 ack [] ∧ (t.req r).transfer = .idle ∧ Quiet s t ∧ t.od.waiting = s.od.waiting ++
          [{ req := r, epoch := (s.req r).epoch, bound := b, grp := false, writes := [(k, held ++ data)] }])) ∧
  (∀ (s : State) (r : Fin 18) (tag flags rsv : BitVec 8) (data : List Byte) (x : BitVec 128), ∀ req : List Byte, req = reqOf 4 tag ([flags, rsv] ++ data) →
    s.arrives r req = true → s.coreFree → s.fencesMet r → 1 ≤ data.length → data.length ≤ 252 → s.coreCheck = .ok →
    Runs (.writeSeg r tag flags rsv data x) s fun t =>
      ((s.req r).transfer = .timedOut → Aborts s t r req .segTimeout ∧ (t.req r).transfer = .idle) ∧
      ((s.req r).transfer = .idle → Aborts s t r req .noTransfer)) ∧
  (∀ (s : State) (r : Fin 18) (tag flags : BitVec 8), ∀ req : List Byte, req = reqOf 5 tag [flags] → s.arrives r req = true →
    (∀ q ∈ s.od.coreQ, q.req = r → q.core = true) →
    s.mustWait s.od.coreQ ⟨r, req, (s.req r).epoch, false, 0⟩ = false → Runs (.readSeg r tag flags) s fun t =>
      ((s.req r).transfer = .timedOut → Aborts s t r req .segTimeout ∧ (t.req r).transfer = .idle) ∧
      ((s.req r).transfer = .idle → Aborts s t r req .noTransfer) ∧
      (∀ snap pos tog last, (s.req r).transfer = .reading snap pos tog last → field flags.toNat 6 0 ≠ 0 → Aborts s t r req .outOfRange) ∧
      (∀ snap pos tog last, (s.req r).transfer = .reading snap pos tog last → field flags.toNat 6 0 = 0 → flags.toNat.testBit 7 = tog →
        (snap.length ≤ pos + 252 → Answers t r req 0 (128 * tog.toNat + 64) (slice snap pos 252) ∧ (t.req r).transfer = .idle) ∧
        (pos + 252 < snap.length → Answers t r req 0 (128 * tog.toNat) (slice snap pos 252) ∧
          (t.req r).transfer = .reading snap (pos + 252) (!tog) (slice snap pos 252)) ∧ Quiet s t) ∧
      (∀ snap pos tog last, (s.req r).transfer = .reading snap pos tog last → field flags.toNat 6 0 = 0 → flags.toNat.testBit 7 ≠ tog →
        (0 < pos → Answers t r req 0 (128 * (!tog).toNat) last ∧ (t.req r).transfer = .reading snap pos tog last ∧ Quiet s t) ∧
        (pos = 0 → Aborts s t r req .toggle ∧ (t.req r).transfer = .idle))) ∧
  (∀ (s : State) (r : Fin 18) (tag : BitVec 8) (code : BitVec 32), ∀ req : List Byte, req = reqOf 6 tag (be 4 code.toNat) →
    s.arrives r req = true → s.coreFree → s.coreCheck = .ok → Runs (.abort r tag code) s fun t =>
      ((s.req r).transfer = .idle → Aborts s t r req .noTransfer) ∧ ((s.req r).transfer = .timedOut → Aborts s t r req .segTimeout) ∧
      ((s.req r).transfer ≠ .idle → (s.req r).transfer ≠ .timedOut → Answers t r req 0 0 []) ∧ (t.req r).transfer = .idle ∧
      ∀ k size got d tog y, (s.req r).transfer = .writing k size got d tog → k.blk = .slot y → (s.slot y).st = .writing → (t.slot y).st = .invalid) ∧
  (∀ (s : State) (r : Fin 18), (s.req r).transfer = .idle ∨ (s.req r).transfer = .timedOut → Runs (.segTimeout r) s fun t => t = s) ∧
  (∀ (s : State) (r : Fin 18), (s.req r).transfer ≠ .idle → (s.req r).transfer ≠ .timedOut → Runs (.segTimeout r) s fun t =>
      (t.req r).transfer = .timedOut ∧ (∀ q, q ≠ r → t.req q = s.req q) ∧ (∀ k, t.rd k = s.rd k) ∧
      ∀ k size got d tog y, (s.req r).transfer = .writing k size got d tog → k.blk = .slot y → (s.slot y).st = .writing → (t.slot y).st = .invalid)

/-- R389 to R392: GROUP_OPEN opens a group, in which writes are staged and take no effect; GROUP_CANCEL drops it; GROUP_CLOSE refuses a
group that spans commit domains, or whose set fails a check, and then applies none of it; one that passes waits for the boundaries of
its domain. A group without a request for its time is lost, which its owner's next command is told. R388: a fence is refused inside a
group; FENCE_LOCAL is answered at once and orders what follows, FENCE_APPLY when the writes before it have taken effect, FENCE_PERSIST
when a save has ended that holds them, with FLASH if it failed. What rests on a choice or reading of the model: log entries 36, 57, 112.
-/
def Obligations.GroupsAndFences : Prop :=
  (∀ (s : State) (r : Fin 18) (tag : BitVec 8), ∀ req : List Byte, req = reqOf 8 tag [] → s.arrives r req = true → s.coreFree →
    s.coreCheck = .ok → Runs (.groupOpen r tag) s fun t => Quiet s t ∧
      ((s.req r).group ≠ none → Aborts s t r req .inUse ∧ (t.req r).group = (s.req r).group) ∧
      ((s.req r).group = none → Answers t r req 0 0 [] ∧ (t.req r).group = some [] ∧ (t.req r).lost = false)) ∧
  (∀ (s : State) (r : Fin 18) (tag : BitVec 8), ∀ req : List Byte, req = reqOf 10 tag [] → s.arrives r req = true → s.coreFree →
    s.coreCheck = .ok → Runs (.groupCancel r tag) s fun t => Quiet s t ∧ t.od.waiting = s.od.waiting ∧
      ((s.req r).lost = true → Aborts s t r req .groupLost ∧ (t.req r).lost = false) ∧
      ((s.req r).lost = false → (s.req r).group = none → Aborts s t r req .noGroup) ∧
      ((s.req r).lost = false → (s.req r).group ≠ none → Answers t r req 0 0 [] ∧ (t.req r).group = none)) ∧
  (∀ (s : State) (r : Fin 18) (tag : BitVec 8) (idx : BitVec 16) (sub : BitVec 8) (data : List Byte),
    ∀ k : Key, k = Key.ofIndex idx.toNat sub.toNat →
    ∀ req : List Byte, req = reqAt 2 tag idx sub data → data.length ≤ 248 → s.arrives r req = true → s.coreFree → s.fencesMet r →
    ∀ a : State, a = s.arrived r req → checkEntry a r k data = .ok → Runs (.write r tag idx sub data) s fun t =>
      ((s.req r).lost = true → Aborts s t r req .groupLost ∧ Quiet s t) ∧
      ((s.req r).lost = false → ∀ ws, (s.req r).group = some ws → checkAccess a r k data = .ok → a.stagedBad k data = false →
        (ws.length < 64 → (ws.foldl (fun n w => n + w.2.length) 0) + data.length ≤ 16384 →
          Answers t r req 0 0 [] ∧ (t.req r).group = some (ws ++ [(k, data)]) ∧ t.od.waiting = s.od.waiting ∧ Quiet s t) ∧
        (64 ≤ ws.length → Aborts s t r req .groupFull ∧ (t.req r).group = none ∧ (t.req r).lost = true)) ∧
      ((s.req r).lost = false → ∀ ws, (s.req r).group = some ws → checkAccess a r k data = .ok → a.stagedBad k data = true →
        Aborts s t r req .outOfRange ∧ (t.req r).group = some ws ∧ Quiet s t)) ∧
  (∀ (s : State) (r : Fin 18) (tag : BitVec 8) (x : BitVec 128), ∀ req : List Byte, req = reqOf 9 tag [] → s.arrives r req = true →
    s.coreFree → s.fencesMet r → s.coreCheck = .ok → ∀ a : State, a = (s.arrived r req).asked → Runs (.groupClose r tag x) s fun t =>
      ((s.req r).lost = true → Aborts s t r req .groupLost ∧ (t.req r).lost = false) ∧
      ((s.req r).lost = false → (s.req r).group = none → Aborts s t r req .noGroup) ∧
      (∀ ws, (s.req r).group = some ws → (s.req r).lost = false →
        (ws.any fun w => (ws.head?.map fun h => domainOf h.1) != some (domainOf w.1)) = true →
        Aborts s t r req .groupSpan ∧ (t.req r).group = none ∧ Quiet s t) ∧
      (∀ ws, (s.req r).group = some ws → (s.req r).lost = false →
        (ws.any fun w => (ws.head?.map fun h => domainOf h.1) != some (domainOf w.1)) = false →
        ∀ u, u = ws.foldl placed (overlay a) → ∀ v, v = State.groupVerdict a u r ws →
        (∀ y, v = .abort y → Aborts s t r req y ∧ (t.req r).group = none ∧ Quiet s t) ∧
        (v = .busyTest → (t.req r).group = some ws ∧ (t.req r).outcome = 3 ∧ Quiet s t) ∧
        (v = .ok → (∀ w ∈ ws, groupBound w.1 ≠ none) → Answers t r req 0 0 [] ∧ (t.req r).group = none ∧ Quiet s t ∧
          t.od.waiting = s.od.waiting ++ ((ws.filterMap fun w => groupBound w.1).eraseDups.map fun b =>
            { req := r, epoch := (s.req r).epoch, bound := b, grp := true, writes := ws.filter fun w => groupBound w.1 == some b })))) ∧
  (∀ (s : State) (r : Fin 18), (s.req r).group = none → Runs (.groupTimeout r) s fun t => t = s) ∧
  (∀ (s : State) (r : Fin 18), (s.req r).group ≠ none → Runs (.groupTimeout r) s fun t =>
      (t.req r).group = none ∧ (t.req r).lost = true ∧ CountsUp s t K.OD_GROUPS_LOST 1 ∧ t.od.waiting = s.od.waiting ∧
      Changes [K.OD_GROUPS_LOST] s t) ∧
  (∀ (s : State) (c : Instr) (r : Fin 18) (tag : BitVec 8) (kind : Nat), ((c = .fenceLocal r tag ∧ kind = 1) ∨
      (c = .fenceApply r tag ∧ kind = 2) ∨ (c = .fencePersist r tag ∧ kind = 3 ∧ s.coreCheck = .ok)) → ∀ req : List Byte,
    req = reqOf 7 tag (be 1 kind) → s.arrives r req = true → (∀ q ∈ s.od.coreQ, q.req ≠ r) → (s.req r).group ≠ none → Runs c s fun t =>
      Aborts s t r req .inUse ∧ (t.req r).epoch = (s.req r).epoch ∧ Quiet s t) ∧
  (∀ (s : State) (c : Instr) (r : Fin 18) (tag : BitVec 8) (kind : Nat), ((c = .fenceLocal r tag ∧ kind = 1) ∨
      (c = .fenceApply r tag ∧ kind = 2) ∨ (c = .fencePersist r tag ∧ kind = 3 ∧ s.coreCheck = .ok ∧ s.coreFree)) → ∀ req : List Byte,
    req = reqOf 7 tag (be 1 kind) → s.arrives r req = true → (∀ q ∈ s.od.coreQ, q.req ≠ r) → (s.req r).group = none → Runs c s fun t =>
      (t.req r).epoch = (s.req r).epoch + 1 ∧ Quiet s t ∧ t.od.waiting = s.od.waiting ∧
      (kind = 1 ∨ (s.fencePending r ((s.req r).epoch + 1) = false ∧ (kind = 3 → (s.req r).dirty = false)) → Answers t r req 0 0 []) ∧
      (kind = 3 → s.od.unsaved = true → t.od.saving = true) ∧
      (kind ≠ 1 → s.fencePending r ((s.req r).epoch + 1) = true ∨ (kind = 3 ∧ (s.req r).dirty = true) →
        (t.req r).fences = (s.req r).fences ++ [{ kind := kind, req := req, epoch := (s.req r).epoch + 1 }] ∧
        (t.req r).queue = (s.req r).queue ++ [⟨req, s.now, kind == 3⟩] ∧ (kind = 3 → t.od.saving = true))) ∧
  (∀ (s : State) (c : Instr) (r : Fin 18) (kind : Nat) (f : Fence), (c = .fenceApplyDone r ∧ kind = 2) ∨ (c = .fencePersistDone r ∧ kind = 3) →
    ((s.req r).fences.filter fun f => f.kind == kind && !s.fencePending r f.epoch && (kind == 2 || f.saved.isSome)) = [f] → Runs c s fun t =>
      (f.saved ≠ some false → Answers t r f.req 0 0 []) ∧ (f.saved = some false → Aborts s t r f.req .flash) ∧
      (t.req r).fences = (s.req r).fences.filter (fun f => !(f.kind == kind && !s.fencePending r f.epoch && (kind == 2 || f.saved.isSome))) ∧
      Quiet s t) ∧
  (∀ (s : State) (c : Instr) (r : Fin 18) (kind : Nat), (c = .fenceApplyDone r ∧ kind = 2) ∨ (c = .fencePersistDone r ∧ kind = 3) →
    (∀ f ∈ (s.req r).fences, f.kind = kind → s.fencePending r f.epoch = true ∨ (kind = 3 ∧ f.saved = none)) → Runs c s fun t => t = s)

/-- R373, R396: the save delay starts a save, and a save that ends well is counted and stands in the other copy with its values; one
that fails is reported and tried again. `OD_CFG_ERASE` of 1 erases both copies, `OD_STATS_CLEAR` of 1 clears the counters; 0 does
nothing. R366, R375: DESCRIBE answers the description of an entry of the table, and the aborts of one that is not. R374, R377: what is
no request is counted, or answered BAD_CMD or OUT_OF_RANGE. R393, R394: a TWI read returns STATE, the length and the oldest response
with its CRC, and frees the slot of a response that was read in full. What rests on a choice or reading of the model: log entries 8, 33,
39, 118. -/
def Obligations.SavesAndTransport : Prop :=
  (∀ s : State, s.od.saveTimer = true → s.rd K.OD_SAVE_DELAY ≠ 0 → s.od.saving = false → Runs .saveDelayTimer s fun t =>
      t.od.saving = true ∧ t.od.saveTimer = false ∧ ∀ k, t.rd k = s.rd k) ∧
  (∀ s : State, s.od.saveTimer = false ∨ s.rd K.OD_SAVE_DELAY = 0 ∨ s.od.saving = true → Runs .saveDelayTimer s fun t => t = s) ∧
  (∀ (s : State) (ok : Bool), s.od.saving = false → Runs (.configSaveComplete ok) s fun t => t = s) ∧
  (∀ s : State, s.od.saving = true → Runs (.configSaveComplete true) s fun t =>
      CountsUp s t K.OD_FLASH_SAVES 1 ∧ Changes [K.OD_FLASH_SAVES] s t ∧ t.od.erased = false ∧
      (t.od.copies.get s.nextCopy).valid = true ∧ (∀ i, i ≠ s.nextCopy → t.od.copies.get i = s.od.copies.get i) ∧
      ∀ k, State.persOf k = .flash → (∀ x, k.blk ≠ .slot x) → k ≠ K.ID_CERT → Store.get (t.od.copies.get s.nextCopy).vals k = t.rd k) ∧
  (∀ s : State, s.od.saving = true → Runs (.configSaveComplete false) s fun t =>
      Raised t Src.CFG_SAVE_FAIL ∧ Raised t Src.FLASH_FAULT ∧ t.od.copies = s.od.copies ∧ t.od.unsaved = true ∧ Changes [] s t) ∧
  (∀ (s : State) (r : Fin 18), s.accepts r K.OD_CFG_ERASE (be 1 1) = true → Runs (.odCfgErase r 1 true) s fun t =>
      (∀ i, (t.od.copies.get i).valid = false) ∧ t.od.erased = true ∧ Changes [] s t) ∧
  (∀ (s : State) (r : Fin 18), s.accepts r K.OD_CFG_ERASE (be 1 1) = true → Runs (.odCfgErase r 1 false) s fun t =>
      Raised t Src.FLASH_FAULT ∧ Changes [] s t) ∧
  (∀ (s : State) (r : Fin 18), s.accepts r K.OD_STATS_CLEAR (be 1 1) = true → Runs (.odStatsClear r 1) s fun t =>
      (∀ i, 4 ≤ i → i ≤ 10 → t.rd ⟨.dev, 0x1020, i⟩ = resetOf ⟨.dev, 0x1020, i⟩) ∧ t.rd K.OD_MALFORMED = resetOf K.OD_MALFORMED ∧
      Changes ((List.range 7).map (fun i => (⟨.dev, 0x1020, 4 + i⟩ : Key)) ++ [K.OD_MALFORMED]) s t) ∧
  (∀ (s : State) (r : Fin 18) (ok : Bool) (c : Instr), (c = .odCfgErase r 0 ok ∧ s.accepts r K.OD_CFG_ERASE (be 1 0) = true) ∨
      (c = .odStatsClear r 0 ∧ s.accepts r K.OD_STATS_CLEAR (be 1 0) = true) → Runs c s fun t =>
      t.od.copies = s.od.copies ∧ Changes [] s t) ∧
  (∀ (s : State) (r : Fin 18) (tag : BitVec 8) (idx : BitVec 16) (sub : BitVec 8),
    ∀ k : Key, k = Key.ofIndex idx.toNat sub.toNat → ∀ req : List Byte, req = reqAt 11 tag idx sub [] → s.arrives r req = true →
    (∀ q ∈ s.od.coreQ, q.req = r → q.core = true) → s.mustWait s.od.coreQ ⟨r, req, (s.req r).epoch, false, 0⟩ = false →
    Runs (.describe r tag idx sub) s fun t =>
      Quiet s t ∧
      (∀ e, entryOf k = some e → State.vendorIndex k = false → Answers t r req 0 0 (be 1 e.ty.code ++ be 1 (State.Acc.code e.acc) ++
        be 1 (16 * (if e.acc == .wo then 15 else 0) + (if e.acc == .ro || e.acc == .const then 15 else e.wrole.rank)) ++
        be 1 (State.Pers.code e.pers) ++ be 4 e.ty.size ++ be 1 (!State.readNeedsCore k).toNat)) ∧
      (entryOf k = none → highestSub k.blk k.off = none → Aborts s t r req .noEntry) ∧
      (entryOf k = none → highestSub k.blk k.off ≠ none → k.sub ≠ 0 → Aborts s t r req .noSubindex)) ∧
  (∀ (s : State) (r : Fin 18) (bytes : List Byte) (bad : Bool), Runs (.malformedRequest r bytes bad) s fun t =>
      (s.served r = false → t = s) ∧
      (s.served r = true → bad = true → (r = 16 → CountsUp s t K.OD_TWI_ERR 1 ∧ Changes [K.OD_TWI_ERR] s t) ∧ (r ≠ 16 → t = s)) ∧
      (s.served r = true → bad = false → bytes.length < 2 → CountsUp s t K.OD_MALFORMED 1 ∧ Changes [K.OD_MALFORMED] s t) ∧
      (bad = false → 2 ≤ bytes.length → reqFits bytes = false → s.arrives r bytes = true → Aborts s t r bytes .badCmd ∧ Quiet s t) ∧
      (bad = false → reqFits bytes = true → reqCmd bytes = 7 → bytes[2]? ≠ some 1 → bytes[2]? ≠ some 2 → bytes[2]? ≠ some 3 →
        s.arrives r bytes = true → Aborts s t r bytes .outOfRange ∧ Quiet s t)) ∧
  (∀ (s : State) (full : Bool), s.served 16 = false → Runs (.twiReadTransaction full) s fun t => t = s) ∧
  (∀ (s : State) (full : Bool), s.served 16 = true → ∀ resp : List Byte, resp = (s.od.twiReady.head?).getD [] →
    ∀ body : List Byte, body = be 1 (128 * s.od.twiOverflow.toNat + s.od.twiSlots) ++ be 2 resp.length ++ resp → Runs (.twiReadTransaction full) s fun t =>
      (t.req 16).lastAnswer = body ++ be 2 (crc16 body) ∧ t.od.twiOverflow = false ∧ (∀ k, t.rd k = s.rd k) ∧
      (full = true → t.od.twiReady = s.od.twiReady.tail ∧ (s.od.twiReady ≠ [] → t.od.twiSlots = s.od.twiSlots - 1)) ∧
      (full = false → t.od.twiReady = s.od.twiReady ∧ t.od.twiSlots = s.od.twiSlots))
end

