-- ==== Sys2Proof/Laws/Exec.lean ====
section
/-!
SUPPORT. `exec` of a command is its meaning, one lemma per command.
-/

namespace Sys2Proof.Machine

variable (s : State)

theorem exec_registerWrite (r : Fin 18) (idx : BitVec 16) (sub : BitVec 8) (data : List Byte) (x : BitVec 128) : exec (.registerWrite r idx sub data x) s = execRegisterWrite r idx sub data x s := rfl
theorem exec_clearOnReadRead (r : Fin 18) (idx : BitVec 16) (sub : BitVec 8) : exec (.clearOnReadRead r idx sub) s = execClearOnReadRead r idx sub s := rfl
theorem exec_read (r : Fin 18) (tag : BitVec 8) (idx : BitVec 16) (sub : BitVec 8) : exec (.read r tag idx sub) s = execRead r tag idx sub s := rfl
theorem exec_write (r : Fin 18) (tag : BitVec 8) (idx : BitVec 16) (sub : BitVec 8) (data : List Byte) : exec (.write r tag idx sub data) s = execWrite r tag idx sub data s := rfl
theorem exec_writeInit (r : Fin 18) (tag : BitVec 8) (idx : BitVec 16) (sub : BitVec 8) (size : BitVec 32) : exec (.writeInit r tag idx sub size) s = execWriteInit r tag idx sub size s := rfl
theorem exec_writeSeg (r : Fin 18) (tag : BitVec 8) (flags : BitVec 8) (rsv : BitVec 8) (data : List Byte) (x : BitVec 128) : exec (.writeSeg r tag flags rsv data x) s = execWriteSeg r tag flags rsv data x s := rfl
theorem exec_readSeg (r : Fin 18) (tag : BitVec 8) (flags : BitVec 8) : exec (.readSeg r tag flags) s = execReadSeg r tag flags s := rfl
theorem exec_abort (r : Fin 18) (tag : BitVec 8) (code : BitVec 32) : exec (.abort r tag code) s = execAbort r tag code s := rfl
theorem exec_fenceLocal (r : Fin 18) (tag : BitVec 8) : exec (.fenceLocal r tag) s = execFenceLocal r tag s := rfl
theorem exec_fenceApply (r : Fin 18) (tag : BitVec 8) : exec (.fenceApply r tag) s = execFenceApply r tag s := rfl
theorem exec_fencePersist (r : Fin 18) (tag : BitVec 8) : exec (.fencePersist r tag) s = execFencePersist r tag s := rfl
theorem exec_fenceApplyDone (r : Fin 18) : exec (.fenceApplyDone r) s = execFenceApplyDone r s := rfl
theorem exec_fencePersistDone (r : Fin 18) : exec (.fencePersistDone r) s = execFencePersistDone r s := rfl
theorem exec_groupOpen (r : Fin 18) (tag : BitVec 8) : exec (.groupOpen r tag) s = execGroupOpen r tag s := rfl
theorem exec_groupClose (r : Fin 18) (tag : BitVec 8) (x : BitVec 128) : exec (.groupClose r tag x) s = execGroupClose r tag x s := rfl
theorem exec_groupCancel (r : Fin 18) (tag : BitVec 8) : exec (.groupCancel r tag) s = execGroupCancel r tag s := rfl
theorem exec_describe (r : Fin 18) (tag : BitVec 8) (idx : BitVec 16) (sub : BitVec 8) : exec (.describe r tag idx sub) s = execDescribe r tag idx sub s := rfl
theorem exec_groupApply (b : BoundAt) : exec (.groupApply b) s = execGroupApply b s := rfl
theorem exec_groupTimeout (r : Fin 18) : exec (.groupTimeout r) s = execGroupTimeout r s := rfl
theorem exec_segTimeout (r : Fin 18) : exec (.segTimeout r) s = execSegTimeout r s := rfl
theorem exec_coreWriteCommit (x : BitVec 128) : exec (.coreWriteCommit x) s = execCoreWriteCommit x s := rfl
theorem exec_twiReadTransaction (full : Bool) : exec (.twiReadTransaction full) s = execTwiReadTransaction full s := rfl
theorem exec_saveDelayTimer : exec (.saveDelayTimer) s = execSaveDelayTimer s := rfl
theorem exec_configSaveComplete (ok : Bool) : exec (.configSaveComplete ok) s = execConfigSaveComplete ok s := rfl
theorem exec_odCfgErase (r : Fin 18) (v : BitVec 8) (ok : Bool) : exec (.odCfgErase r v ok) s = execOdCfgErase r v ok s := rfl
theorem exec_odStatsClear (r : Fin 18) (v : BitVec 8) : exec (.odStatsClear r v) s = execOdStatsClear r v s := rfl
theorem exec_clkRefSrcWrite (r : Fin 18) (v : BitVec 8) (valid : Bool) : exec (.clkRefSrcWrite r v valid) s = execClkRefSrcWrite r v valid s := rfl
theorem exec_rootLost : exec (.rootLost) s = execRootLost s := rfl
theorem exec_rootRestored : exec (.rootRestored) s = execRootRestored s := rfl
theorem exec_synthLock (dist : List (Fin 16 × Fin 256)) : exec (.synthLock dist) s = execSynthLock dist s := rfl
theorem exec_synthLockLoss (hsyn : Bool) : exec (.synthLockLoss hsyn) s = execSynthLockLoss hsyn s := rfl
theorem exec_rclkoCfgWrite (r : Fin 18) (q : Fin 2) (v : BitVec 16) : exec (.rclkoCfgWrite r q v) s = execRclkoCfgWrite r q v s := rfl
theorem exec_rclkoRelease (q : Fin 2) : exec (.rclkoRelease q) s = execRclkoRelease q s := rfl
theorem exec_availClear (r : Fin 18) (v : BitVec 8) : exec (.availClear r v) s = execAvailClear r v s := rfl
theorem exec_ctleRampStep (n : Fin 16) (w : Ramp) : exec (.ctleRampStep n w) s = execCtleRampStep n w s := rfl
theorem exec_ctleSearchStep (n : Fin 16) : exec (.ctleSearchStep n) s = execCtleSearchStep n s := rfl
theorem exec_agcGainStep (n : Fin 16) : exec (.agcGainStep n) s = execAgcGainStep n s := rfl
theorem exec_lineLosSet (n : Fin 16) : exec (.lineLosSet n) s = execLineLosSet n s := rfl
theorem exec_lineLosClear (n : Fin 16) : exec (.lineLosClear n) s = execLineLosClear n s := rfl
theorem exec_adaptUpdate (n : Fin 16) (cc : List (List (BitVec 8))) : exec (.adaptUpdate n cc) s = execAdaptUpdate n cc s := rfl
theorem exec_adaptRestart (r : Fin 18) (n : Fin 16) (v : BitVec 16) : exec (.adaptRestart r n v) s = execAdaptRestart r n v s := rfl
theorem exec_acquisitionEnd (n : Fin 16) : exec (.acquisitionEnd n) s = execAcquisitionEnd n s := rfl
theorem exec_guardTrip (n : Fin 16) : exec (.guardTrip n) s = execGuardTrip n s := rfl
theorem exec_codewordBoundaryApply (n : Fin 16) (rx : Bool) (bits : List Bool) (tone : List Int) : exec (.codewordBoundaryApply n rx bits tone) s = execCodewordBoundaryApply n rx bits tone s := rfl
theorem exec_lineFfeSnap (r : Fin 18) (n : Fin 16) (v : BitVec 8) : exec (.lineFfeSnap r n v) s = execLineFfeSnap r n v s := rfl
theorem exec_lineLqmClear (r : Fin 18) (n : Fin 16) (v : BitVec 8) : exec (.lineLqmClear r n v) s = execLineLqmClear r n v s := rfl
theorem exec_lineSwatchArm (r : Fin 18) (n : Fin 16) (v : BitVec 8) : exec (.lineSwatchArm r n v) s = execLineSwatchArm r n v s := rfl
theorem exec_swatchTrigger (n : Fin 16) (src : Fin 6) : exec (.swatchTrigger n src) s = execSwatchTrigger n src s := rfl
theorem exec_swatchComplete (n : Fin 16) : exec (.swatchComplete n) s = execSwatchComplete n s := rfl
theorem exec_outputStageStep (n : Fin 16) : exec (.outputStageStep n) s = execOutputStageStep n s := rfl
theorem exec_complianceSet (n : Fin 16) : exec (.complianceSet n) s = execComplianceSet n s := rfl
theorem exec_complianceClear (n : Fin 16) : exec (.complianceClear n) s = execComplianceClear n s := rfl
theorem exec_txEpochBoundary (k : Fin 4) (freqs : List (BitVec 32)) : exec (.txEpochBoundary k freqs) s = execTxEpochBoundary k freqs s := rfl
theorem exec_codewordDecoded (n : Fin 16) : exec (.codewordDecoded n) s = execCodewordDecoded n s := rfl
theorem exec_blockDecoded (n : Fin 16) : exec (.blockDecoded n) s = execBlockDecoded n s := rfl
theorem exec_markerPosition (n : Fin 16) (b : Bool) (differ : BitVec 8) (p : BitVec 12) (moved : Bool) : exec (.markerPosition n b differ p moved) s = execMarkerPosition n b differ p moved s := rfl
theorem exec_epochTagBlock (n : Fin 16) (j : Fin 128) : exec (.epochTagBlock n j) s = execEpochTagBlock n j s := rfl
theorem exec_fillStart (m : Fin 32) : exec (.fillStart m) s = execFillStart m s := rfl
theorem exec_fillEnd (m : Fin 32) (p : BitVec 12) (moved : Bool) : exec (.fillEnd m p moved) s = execFillEnd m p moved s := rfl
theorem exec_lineFecClear (r : Fin 18) (n : Fin 16) (v : BitVec 8) : exec (.lineFecClear r n v) s = execLineFecClear r n v s := rfl
theorem exec_hostSignalClear (m : Fin 32) : exec (.hostSignalClear m) s = execHostSignalClear m s := rfl
theorem exec_hostSignalSet (m : Fin 32) : exec (.hostSignalSet m) s = execHostSignalSet m s := rfl
theorem exec_hostMarkerPosition (m : Fin 32) (differ : BitVec 8) (pos : BitVec 64) (p : BitVec 12) (moved : Bool) : exec (.hostMarkerPosition m differ pos p moved) s = execHostMarkerPosition m differ pos p moved s := rfl
theorem exec_hckiTrainingDone (m : Fin 32) (phase : Fin 602353) : exec (.hckiTrainingDone m phase) s = execHckiTrainingDone m phase s := rfl
theorem exec_hostCdrLock (m : Fin 32) (phase : Fin 602353) : exec (.hostCdrLock m phase) s = execHostCdrLock m phase s := rfl
theorem exec_hostRxAcquisitionEnd (m : Fin 32) (ctle : BitVec 8) : exec (.hostRxAcquisitionEnd m ctle) s = execHostRxAcquisitionEnd m ctle s := rfl
theorem exec_hckiLost (k : Fin 4) : exec (.hckiLost k) s = execHckiLost k s := rfl
theorem exec_hostPeriodBoundary (g : Fin 4) (fills : List (Fin 8 × Fin 129)) : exec (.hostPeriodBoundary g fills) s = execHostPeriodBoundary g fills s := rfl
theorem exec_gearboxLock (k : Fin 4) (blocks : BitVec 18) : exec (.gearboxLock k blocks) s = execGearboxLock k blocks s := rfl
theorem exec_pgFecModeWrite (r : Fin 18) (k : Fin 4) (v : BitVec 8) : exec (.pgFecModeWrite r k v) s = execPgFecModeWrite r k v s := rfl
theorem exec_pgFecClear (r : Fin 18) (k : Fin 4) (v : BitVec 8) : exec (.pgFecClear r k v) s = execPgFecClear r k v s := rfl
theorem exec_prbsGenCfgWrite (r : Fin 18) (a : PrbsAt) (v : BitVec 16) : exec (.prbsGenCfgWrite r a v) s = execPrbsGenCfgWrite r a v s := rfl
theorem exec_prbsChkCfgWrite (r : Fin 18) (a : PrbsAt) (v : BitVec 16) : exec (.prbsChkCfgWrite r a v) s = execPrbsChkCfgWrite r a v s := rfl
theorem exec_prbsInjectOnce (r : Fin 18) (a : PrbsAt) (v : BitVec 32) : exec (.prbsInjectOnce r a v) s = execPrbsInjectOnce r a v s := rfl
theorem exec_prbsChkClear (r : Fin 18) (a : PrbsAt) (v : BitVec 8) : exec (.prbsChkClear r a v) s = execPrbsChkClear r a v s := rfl
theorem exec_prbsWindowEnd (a : PrbsAt) (bits : List Bool) : exec (.prbsWindowEnd a bits) s = execPrbsWindowEnd a bits s := rfl
theorem exec_lineAdminWrite (r : Fin 18) (n : Fin 16) (v : BitVec 8) : exec (.lineAdminWrite r n v) s = execLineAdminWrite r n v s := rfl
theorem exec_coRestart (r : Fin 18) (n : Fin 16) : exec (.coRestart r n) s = execCoRestart r n s := rfl
theorem exec_coBindOff (r : Fin 18) (n : Fin 16) : exec (.coBindOff r n) s = execCoBindOff r n s := rfl
theorem exec_cap (n : Fin 16) (h : MsgHead) (b : CapMsg) : exec (.cap n h b) s = execCap n h b s := rfl
theorem exec_propose (n : Fin 16) (h : MsgHead) (num : BitVec 8) (format : BitVec 8) (precode : BitVec 8) (time : BitVec 8) : exec (.propose n h num format precode time) s = execPropose n h num format precode time s := rfl
theorem exec_accept (n : Fin 16) (h : MsgHead) (num : BitVec 8) (format : BitVec 8) (precode : BitVec 8) (time : BitVec 8) : exec (.accept n h num format precode time) s = execAccept n h num format precode time s := rfl
theorem exec_reject (n : Fin 16) (h : MsgHead) (num : BitVec 8) (reason : BitVec 8) (detail : BitVec 8) : exec (.reject n h num reason detail) s = execReject n h num reason detail s := rfl
theorem exec_txeqReq (n : Fin 16) (h : MsgHead) (id : BitVec 8) (main : BitVec 8) (taps : List (BitVec 16)) : exec (.txeqReq n h id main taps) s = execTxeqReq n h id main taps s := rfl
theorem exec_txeqAck (n : Fin 16) (h : MsgHead) (id : BitVec 8) (result : BitVec 8) (taps : List (BitVec 16)) : exec (.txeqAck n h id result taps) s = execTxeqAck n h id result taps s := rfl
theorem exec_status (n : Fin 16) (h : MsgHead) (agr : BitVec 8) (lock : BitVec 8) (fill : BitVec 8) (verify : BitVec 8) : exec (.status n h agr lock fill verify) s = execStatus n h agr lock fill verify s := rfl
theorem exec_ready (n : Fin 16) (h : MsgHead) (agr : BitVec 8) (done : BitVec 8) : exec (.ready n h agr done) s = execReady n h agr done s := rfl
theorem exec_bind (n : Fin 16) (h : MsgHead) : exec (.bind n h) s = execBind n h s := rfl
theorem exec_time (n : Fin 16) (h : MsgHead) (m : TimeMsg) (back : BitVec 8) : exec (.time n h m back) s = execTime n h m back s := rfl
theorem exec_keepalive (n : Fin 16) (h : MsgHead) (agr : BitVec 8) : exec (.keepalive n h agr) s = execKeepalive n h agr s := rfl
theorem exec_responseTimer (n : Fin 16) : exec (.responseTimer n) s = execResponseTimer n s := rfl
theorem exec_partnerSilence (n : Fin 16) : exec (.partnerSilence n) s = execPartnerSilence n s := rfl
theorem exec_beaconTimer (n : Fin 16) : exec (.beaconTimer n) s = execBeaconTimer n s := rfl
theorem exec_keepaliveTimer (n : Fin 16) : exec (.keepaliveTimer n) s = execKeepaliveTimer n s := rfl
theorem exec_phaseTimeout (n : Fin 16) : exec (.phaseTimeout n) s = execPhaseTimeout n s := rfl
theorem exec_castOnLimit (n : Fin 16) : exec (.castOnLimit n) s = execCastOnLimit n s := rfl
theorem exec_statusTimer (n : Fin 16) : exec (.statusTimer n) s = execStatusTimer n s := rfl
theorem exec_bindTimeout (n : Fin 16) : exec (.bindTimeout n) s = execBindTimeout n s := rfl
theorem exec_restartBackoffEnd (n : Fin 16) : exec (.restartBackoffEnd n) s = execRestartBackoffEnd n s := rfl
theorem exec_proposeTimer (n : Fin 16) : exec (.proposeTimer n) s = execProposeTimer n s := rfl
theorem exec_verifyWindowEnd (n : Fin 16) : exec (.verifyWindowEnd n) s = execVerifyWindowEnd n s := rfl
theorem exec_lineCoTxeqGo (r : Fin 18) (n : Fin 16) (v : BitVec 8) : exec (.lineCoTxeqGo r n v) s = execLineCoTxeqGo r n v s := rfl
theorem exec_txeqSearchMeasure (n : Fin 16) : exec (.txeqSearchMeasure n) s = execTxeqSearchMeasure n s := rfl
theorem exec_lineCoClear (r : Fin 18) (n : Fin 16) (v : BitVec 8) : exec (.lineCoClear r n v) s = execLineCoClear r n v s := rfl
theorem exec_picotBurstStart (n : Fin 16) : exec (.picotBurstStart n) s = execPicotBurstStart n s := rfl
theorem exec_picotBurstEnd (n : Fin 16) : exec (.picotBurstEnd n) s = execPicotBurstEnd n s := rfl
theorem exec_picotCandidateEnd (n : Fin 16) (ds : List (BitVec 9 × BitVec 16 × BitVec 16)) : exec (.picotCandidateEnd n ds) s = execPicotCandidateEnd n ds s := rfl
theorem exec_picotModeMismatch (n : Fin 16) : exec (.picotModeMismatch n) s = execPicotModeMismatch n s := rfl
theorem exec_picotSyncFound (n : Fin 16) (sym : List (BitVec 16)) : exec (.picotSyncFound n sym) s = execPicotSyncFound n sym s := rfl
theorem exec_picotSyncTimeout (n : Fin 16) (sym : List (BitVec 16)) : exec (.picotSyncTimeout n sym) s = execPicotSyncTimeout n sym s := rfl
theorem exec_picotHeaderEnd (n : Fin 16) (sym : List (BitVec 16)) (snr : BitVec 16) (foff : BitVec 16) : exec (.picotHeaderEnd n sym snr foff) s = execPicotHeaderEnd n sym snr foff s := rfl
theorem exec_picotPilotPair (n : Fin 16) (a : BitVec 4) (b : BitVec 4) (got : List Byte) : exec (.picotPilotPair n a b got) s = execPicotPilotPair n a b got s := rfl
theorem exec_picotPayloadEnd (n : Fin 16) (payload : List Byte) (crc : BitVec 32) (snr : BitVec 16) (foff : BitVec 16) (back : BitVec 8) : exec (.picotPayloadEnd n payload crc snr foff back) s = execPicotPayloadEnd n payload crc snr foff back s := rfl
theorem exec_picotClear (r : Fin 18) (n : Fin 16) (v : BitVec 8) : exec (.picotClear r n v) s = execPicotClear r n v s := rfl
theorem exec_ssStepEnd (n : Fin 16) (v : BitVec 16) : exec (.ssStepEnd n v) s = execSsStepEnd n v s := rfl
theorem exec_ssIntervalEnd (n : Fin 16) : exec (.ssIntervalEnd n) s = execSsIntervalEnd n s := rfl
theorem exec_ssSubstitution (n : Fin 16) : exec (.ssSubstitution n) s = execSsSubstitution n s := rfl
theorem exec_lineSsRetest (r : Fin 18) (n : Fin 16) (v : BitVec 8) : exec (.lineSsRetest r n v) s = execLineSsRetest r n v s := rfl
theorem exec_lineSsClear (r : Fin 18) (n : Fin 16) (v : BitVec 8) : exec (.lineSsClear r n v) s = execLineSsClear r n v s := rfl
theorem exec_laneCalComplete (n : Fin 16) (corr : List SliceCorr) : exec (.laneCalComplete n corr) s = execLaneCalComplete n corr s := rfl
theorem exec_laneCalRetry (n : Fin 16) : exec (.laneCalRetry n) s = execLaneCalRetry n s := rfl
theorem exec_dacCalComplete (n : Fin 16) (outOfRange : Bool) : exec (.dacCalComplete n outOfRange) s = execDacCalComplete n outOfRange s := rfl
theorem exec_lineCalLane (r : Fin 18) (n : Fin 16) : exec (.lineCalLane r n) s = execLineCalLane r n s := rfl
theorem exec_lineCalDac (r : Fin 18) (n : Fin 16) : exec (.lineCalDac r n) s = execLineCalDac r n s := rfl
theorem exec_lineCalBoth (r : Fin 18) (n : Fin 16) : exec (.lineCalBoth r n) s = execLineCalBoth r n s := rfl
theorem exec_monCalCmd (r : Fin 18) (v : BitVec 8) : exec (.monCalCmd r v) s = execMonCalCmd r v s := rfl
theorem exec_monCalStart : exec (.monCalStart) s = execMonCalStart s := rfl
theorem exec_monCalEnd (outOfRange : Bool) : exec (.monCalEnd outOfRange) s = execMonCalEnd outOfRange s := rfl
theorem exec_timeSet (r : Fin 18) (v : BitVec 96) : exec (.timeSet r v) s = execTimeSet r v s := rfl
theorem exec_timeStep (r : Fin 18) (v : BitVec 64) : exec (.timeStep r v) s = execTimeStep r v s := rfl
theorem exec_timeRateAdj (r : Fin 18) (v : BitVec 32) : exec (.timeRateAdj r v) s = execTimeRateAdj r v s := rfl
theorem exec_timeAdjApply : exec (.timeAdjApply) s = execTimeAdjApply s := rfl
theorem exec_syncInEdge (j : Fin 16) (tick : Bool) : exec (.syncInEdge j tick) s = execSyncInEdge j tick s := rfl
theorem exec_syncInSilence : exec (.syncInSilence) s = execSyncInSilence s := rfl
theorem exec_syncOutPulse : exec (.syncOutPulse) s = execSyncOutPulse s := rfl
theorem exec_syncOutPulseEnd : exec (.syncOutPulseEnd) s = execSyncOutPulseEnd s := rfl
theorem exec_timeMessageDue (n : Fin 16) : exec (.timeMessageDue n) s = execTimeMessageDue n s := rfl
theorem exec_timeWithdrawn (n : Fin 16) : exec (.timeWithdrawn n) s = execTimeWithdrawn n s := rfl
theorem exec_timeMeasurementMiss (w : MissOf) : exec (.timeMeasurementMiss w) s = execTimeMeasurementMiss w s := rfl
theorem exec_timeDiscSrcWrite (r : Fin 18) (isLane : Bool) (v : BitVec 8) : exec (.timeDiscSrcWrite r isLane v) s = execTimeDiscSrcWrite r isLane v s := rfl
theorem exec_timeClear (r : Fin 18) (n : Fin 16) (v : BitVec 8) : exec (.timeClear r n v) s = execTimeClear r n v s := rfl
theorem exec_beaconSourceTimer : exec (.beaconSourceTimer) s = execBeaconSourceTimer s := rfl
theorem exec_beacon (p : Fin 2) (h : RingHead) (src : BitVec 64) (dep : BitVec 96) (corr : BitVec 64) (j : Fin 16) (meas : BitVec 32) : exec (.beacon p h src dep corr j meas) s = execBeacon p h src dep corr j meas s := rfl
theorem exec_controlFrameBoundary : exec (.controlFrameBoundary) s = execControlFrameBoundary s := rfl
theorem exec_loopSnapshot (levels : BitVec 16) : exec (.loopSnapshot levels) s = execLoopSnapshot levels s := rfl
theorem exec_outputWrite (compl : BitVec 48) (short : BitVec 48) : exec (.outputWrite compl short) s = execOutputWrite compl short s := rfl
theorem exec_monConversionEnd (code : BitVec 12) : exec (.monConversionEnd code) s = execMonConversionEnd code s := rfl
theorem exec_monDataRead (r : Fin 18) (all_ : Bool) : exec (.monDataRead r all_) s = execMonDataRead r all_ s := rfl
theorem exec_monUrgentReq (r : Fin 18) (v : BitVec 16) (fits : Bool) : exec (.monUrgentReq r v fits) s = execMonUrgentReq r v fits s := rfl
theorem exec_monUrgentEnd (code : BitVec 12) : exec (.monUrgentEnd code) s = execMonUrgentEnd code s := rfl
theorem exec_monCntClear (r : Fin 18) (v : BitVec 8) : exec (.monCntClear r v) s = execMonCntClear r v s := rfl
theorem exec_filtPreset (r : Fin 18) (e : Fin 64) (v : BitVec 8) : exec (.filtPreset r e v) s = execFiltPreset r e v s := rfl
theorem exec_filtSwap (r : Fin 18) (e : Fin 64) (v : BitVec 8) : exec (.filtSwap r e v) s = execFiltSwap r e v s := rfl
theorem exec_loopModeWrite (r : Fin 18) (j : Fin 64) (v : BitVec 8) : exec (.loopModeWrite r j v) s = execLoopModeWrite r j v s := rfl
theorem exec_loopIntegratorWrite (r : Fin 18) (j : Fin 64) (v : BitVec 64) : exec (.loopIntegratorWrite r j v) s = execLoopIntegratorWrite r j v s := rfl
theorem exec_rcClear (r : Fin 18) (j : Fin 64) (v : BitVec 8) : exec (.rcClear r j v) s = execRcClear r j v s := rfl
theorem exec_ceMemError (j : Fin 64) (w : CeMem) : exec (.ceMemError j w) s = execCeMemError j w s := rfl
theorem exec_auxModeWrite (r : Fin 18) (a : Fin 48) (v : BitVec 8) : exec (.auxModeWrite r a v) s = execAuxModeWrite r a v s := rfl
theorem exec_cePadRelease (r : Fin 18) (v : BitVec 8) : exec (.cePadRelease r v) s = execCePadRelease r v s := rfl
theorem exec_tempConversion (q : Fin 24) (v : BitVec 16) (answers : Bool) : exec (.tempConversion q v answers) s = execTempConversion q v answers s := rfl
theorem exec_portAdminWrite (r : Fin 18) (p : Fin 2) (v : BitVec 8) : exec (.portAdminWrite r p v) s = execPortAdminWrite r p v s := rfl
theorem exec_ringLinkDetect (p : Fin 2) : exec (.ringLinkDetect p) s = execRingLinkDetect p s := rfl
theorem exec_link (p : Fin 2) (d : BitVec 8) : exec (.link p d) s = execLink p d s := rfl
theorem exec_ringTrainTimeout (p : Fin 2) : exec (.ringTrainTimeout p) s = execRingTrainTimeout p s := rfl
theorem exec_ringVerifyPass (p : Fin 2) : exec (.ringVerifyPass p) s = execRingVerifyPass p s := rfl
theorem exec_ringCodeViolation (p : Fin 2) (inFrame : Bool) : exec (.ringCodeViolation p inFrame) s = execRingCodeViolation p inFrame s := rfl
theorem exec_ringRxcLoss (p : Fin 2) : exec (.ringRxcLoss p) s = execRingRxcLoss p s := rfl
theorem exec_token (p : Fin 2) : exec (.token p) s = execToken p s := rfl
theorem exec_sof (p : Fin 2) : exec (.sof p) s = execSof p s := rfl
theorem exec_ringTokenLoss (p : Fin 2) : exec (.ringTokenLoss p) s = execRingTokenLoss p s := rfl
theorem exec_rateGo (p : Fin 2) (x : Fin 4) : exec (.rateGo p x) s = execRateGo p x s := rfl
theorem exec_topo (p : Fin 2) (wrapped : Bool) : exec (.topo p wrapped) s = execTopo p wrapped s := rfl
theorem exec_enum (p : Fin 2) (h : RingHead) (hops : BitVec 8) (rsv : BitVec 8) (epoch : BitVec 32) : exec (.enum p h hops rsv epoch) s = execEnum p h hops rsv epoch s := rfl
theorem exec_claim (p : Fin 2) (h : RingHead) (epoch : BitVec 32) (flags : BitVec 8) (rsv : BitVec 8) : exec (.claim p h epoch flags rsv) s = execClaim p h epoch flags rsv s := rfl
theorem exec_rateSet (p : Fin 2) (h : RingHead) (target : BitVec 8) (rsv : BitVec 8) : exec (.rateSet p h target rsv) s = execRateSet p h target rsv s := rfl
theorem exec_reset (p : Fin 2) (h : RingHead) (target : BitVec 64) (kind : BitVec 8) (rsv : BitVec 8) : exec (.reset p h target kind rsv) s = execReset p h target kind rsv s := rfl
theorem exec_ringDeviceReset : exec (.ringDeviceReset) s = execRingDeviceReset s := rfl
theorem exec_eventAck (p : Fin 2) (h : RingHead) (seq : BitVec 32) : exec (.eventAck p h seq) s = execEventAck p h seq s := rfl
theorem exec_eventRetryTimer : exec (.eventRetryTimer) s = execEventRetryTimer s := rfl
theorem exec_ringCrcAlarm : exec (.ringCrcAlarm) s = execRingCrcAlarm s := rfl
theorem exec_ringClear (r : Fin 18) (v : BitVec 8) : exec (.ringClear r v) s = execRingClear r v s := rfl
theorem exec_plChangeDone : exec (.plChangeDone) s = execPlChangeDone s := rfl
theorem exec_plAutoRaise (load : BitVec 8) : exec (.plAutoRaise load) s = execPlAutoRaise load s := rfl
theorem exec_plAutoLower (load : BitVec 8) : exec (.plAutoLower load) s = execPlAutoLower load s := rfl
theorem exec_sramEccError (corrected : Bool) (addr : BitVec 32) : exec (.sramEccError corrected addr) s = execSramEccError corrected addr s := rfl
theorem exec_watchdogExpiry : exec (.watchdogExpiry) s = execWatchdogExpiry s := rfl
theorem exec_mgmtMrst (r : Fin 18) (v : BitVec 8) : exec (.mgmtMrst r v) s = execMgmtMrst r v s := rfl
theorem exec_mrst : exec (.mrst) s = execMrst s := rfl
theorem exec_mgmtMasterRestart (r : Fin 18) (v : BitVec 8) : exec (.mgmtMasterRestart r v) s = execMgmtMasterRestart r v s := rfl
theorem exec_lkTake (m : Fin 19) (k : Fin 32) : exec (.lkTake m k) s = execLkTake m k s := rfl
theorem exec_lkRelease (m : Fin 19) (k : Fin 32) (v : BitVec 8) : exec (.lkRelease m k v) s = execLkRelease m k v s := rfl
theorem exec_lkForce (r : Fin 18) (k : Fin 32) (v : BitVec 8) : exec (.lkForce r k v) s = execLkForce r k v s := rfl
theorem exec_mbCfgWrite (r : Fin 18) (c : Fin 12) (v : BitVec 16) : exec (.mbCfgWrite r c v) s = execMbCfgWrite r c v s := rfl
theorem exec_mbDataWrite (m : Fin 19) (c : Fin 12) (data : List Byte) : exec (.mbDataWrite m c data) s = execMbDataWrite m c data s := rfl
theorem exec_mbAck (m : Fin 19) (c : Fin 12) (v : BitVec 8) : exec (.mbAck m c v) s = execMbAck m c v s := rfl
theorem exec_pcEnableWrite (r : Fin 18) (v : BitVec 8) : exec (.pcEnableWrite r v) s = execPcEnableWrite r v s := rfl
theorem exec_pcReprogram (r : Fin 18) (k : Fin 8) (w : Fin 4) (v : BitVec 64) : exec (.pcReprogram r k w v) s = execPcReprogram r k w v s := rfl
theorem exec_pcLoRead (m : Fin 19) (k : Fin 8) : exec (.pcLoRead m k) s = execPcLoRead m k s := rfl
theorem exec_pcHiRead (m : Fin 19) (k : Fin 8) : exec (.pcHiRead m k) s = execPcHiRead m k s := rfl
theorem exec_pcStatusRead (m : Fin 19) (k : Fin 8) : exec (.pcStatusRead m k) s = execPcStatusRead m k s := rfl
theorem exec_pcOverflow (k : Fin 8) (addr : BitVec 32) : exec (.pcOverflow k addr) s = execPcOverflow k addr s := rfl
theorem exec_evrRecordWrite : exec (.evrRecordWrite) s = execEvrRecordWrite s := rfl
theorem exec_evrAckWrite (r : Fin 18) (v : BitVec 32) : exec (.evrAckWrite r v) s = execEvrAckWrite r v s := rfl
theorem exec_irqCauseWrite (r : Fin 18) (g : Fin 32) (v : BitVec 16) : exec (.irqCauseWrite r g v) s = execIrqCauseWrite r g v s := rfl
theorem exec_irqSwSet (r : Fin 18) (v : BitVec 8) : exec (.irqSwSet r v) s = execIrqSwSet r v s := rfl
theorem exec_bootComplete (flash : Bool) (rootOk : Bool) : exec (.bootComplete flash rootOk) s = execBootComplete flash rootOk s := rfl
theorem exec_fwActivate (r : Fin 18) (v : BitVec 8) : exec (.fwActivate r v) s = execFwActivate r v s := rfl
theorem exec_fwConfirm (r : Fin 18) (v : BitVec 8) : exec (.fwConfirm r v) s = execFwConfirm r v s := rfl
theorem exec_trialTimeServed : exec (.trialTimeServed) s = execTrialTimeServed s := rfl
theorem exec_trialRecordTimer : exec (.trialRecordTimer) s = execTrialRecordTimer s := rfl
theorem exec_trialBootTimeout : exec (.trialBootTimeout) s = execTrialBootTimeout s := rfl
theorem exec_fwSvnCommit (r : Fin 18) (v : BitVec 8) (failed : BitVec 128) : exec (.fwSvnCommit r v failed) s = execFwSvnCommit r v failed s := rfl
theorem exec_secAttestNonce (r : Fin 18) (data : List Byte) : exec (.secAttestNonce r data) s = execSecAttestNonce r data s := rfl
theorem exec_attestDone : exec (.attestDone) s = execAttestDone s := rfl
theorem exec_secLcAdvance (r : Fin 18) (v : BitVec 8) : exec (.secLcAdvance r v) s = execSecLcAdvance r v s := rfl
theorem exec_secToken (r : Fin 18) (token : List Byte) (eraseOk : Bool) : exec (.secToken r token eraseOk) s = execSecToken r token eraseOk s := rfl
theorem exec_dbgToken (token : List Byte) (eraseOk : Bool) : exec (.dbgToken token eraseOk) s = execDbgToken token eraseOk s := rfl
theorem exec_extest (pins : BitVec 16) (d : List Bool) : exec (.extest pins d) s = execExtest pins d s := rfl
theorem exec_idcode : exec (.idcode) s = execIdcode s := rfl
theorem exec_samplePreload (pins : BitVec 16) (d : List Bool) : exec (.samplePreload pins d) s = execSamplePreload pins d s := rfl
theorem exec_clamp (d : List Bool) : exec (.clamp d) s = execClamp d s := rfl
theorem exec_highz (d : List Bool) : exec (.highz d) s = execHighz d s := rfl
theorem exec_dbgAccess (d : List Bool) (op : DebugOp) : exec (.dbgAccess d op) s = execDbgAccess d op s := rfl
theorem exec_scanAccess (d : List Bool) : exec (.scanAccess d) s = execScanAccess d s := rfl
theorem exec_bypass (code : BitVec 5) (d : List Bool) : exec (.bypass code d) s = execBypass code d s := rfl
theorem exec_secDebugClose (r : Fin 18) (v : BitVec 8) : exec (.secDebugClose r v) s = execSecDebugClose r v s := rfl
theorem exec_debugDurationExpiry : exec (.debugDurationExpiry) s = execDebugDurationExpiry s := rfl
theorem exec_secVendorDrop (r : Fin 18) (v : BitVec 8) : exec (.secVendorDrop r v) s = execSecVendorDrop r v s := rfl
theorem exec_vendorDurationExpiry (r : Fin 18) : exec (.vendorDurationExpiry r) s = execVendorDurationExpiry r s := rfl
theorem exec_vinPorRelease (straps : BitVec 3) : exec (.vinPorRelease straps) s = execVinPorRelease straps s := rfl
theorem exec_vinUnder : exec (.vinUnder) s = execVinUnder s := rfl
theorem exec_vinOver : exec (.vinOver) s = execVinOver s := rfl
theorem exec_vinLoss (deep : Bool) : exec (.vinLoss deep) s = execVinLoss deep s := rfl
theorem exec_railFault (rail : BitVec 8) (current : Bool) : exec (.railFault rail current) s = execRailFault rail current s := rfl
theorem exec_railFaultPor : exec (.railFaultPor) s = execRailFaultPor s := rfl
theorem exec_regFaultRestart (straps : BitVec 3) : exec (.regFaultRestart straps) s = execRegFaultRestart straps s := rfl
theorem exec_resetNAssert : exec (.resetNAssert) s = execResetNAssert s := rfl
theorem exec_resetNRelease : exec (.resetNRelease) s = execResetNRelease s := rfl
theorem exec_wakeEdge (straps : BitVec 3) : exec (.wakeEdge straps) s = execWakeEdge straps s := rfl
theorem exec_pwrReqWrite (r : Fin 18) (u : Fin 22) (v : BitVec 8) : exec (.pwrReqWrite r u v) s = execPwrReqWrite r u v s := rfl
theorem exec_pwrEntryStepEnd (u : Fin 23) : exec (.pwrEntryStepEnd u) s = execPwrEntryStepEnd u s := rfl
theorem exec_pwrWakeDone (u : Fin 22) : exec (.pwrWakeDone u) s = execPwrWakeDone u s := rfl
theorem exec_pwrDeviceOff (r : Fin 18) (v : BitVec 8) : exec (.pwrDeviceOff r v) s = execPwrDeviceOff r v s := rfl
theorem exec_pwrCntClear (r : Fin 18) (v : BitVec 8) : exec (.pwrCntClear r v) s = execPwrCntClear r v s := rfl
theorem exec_rstLane (r : Fin 18) (v : BitVec 16) : exec (.rstLane r v) s = execRstLane r v s := rfl
theorem exec_thermalTrip : exec (.thermalTrip) s = execThermalTrip s := rfl
theorem exec_thermalRestart : exec (.thermalRestart) s = execThermalRestart s := rfl
theorem exec_thermTripTest (r : Fin 18) (v : BitVec 8) : exec (.thermTripTest r v) s = execThermTripTest r v s := rfl
theorem exec_tripTestDone (fired : BitVec 24) : exec (.tripTestDone fired) s = execTripTestDone fired s := rfl
theorem exec_bistStart (r : Fin 18) (v : BitVec 8) : exec (.bistStart r v) s = execBistStart r v s := rfl
theorem exec_bistStop (r : Fin 18) (v : BitVec 8) : exec (.bistStop r v) s = execBistStop r v s := rfl
theorem exec_bistDone (fails : List (BitVec 17)) (sig : BitVec 32) : exec (.bistDone fails sig) s = execBistDone fails sig s := rfl
theorem exec_repairApply (lost : Bool) : exec (.repairApply lost) s = execRepairApply lost s := rfl
theorem exec_repairFuseCmd (r : Fin 18) (v : BitVec 8) (failed : BitVec 64) : exec (.repairFuseCmd r v failed) s = execRepairFuseCmd r v failed s := rfl
theorem exec_bistCntClear (r : Fin 18) (v : BitVec 8) : exec (.bistCntClear r v) s = execBistCntClear r v s := rfl
theorem exec_hckiReturn (k : Fin 4) : exec (.hckiReturn k) s = execHckiReturn k s := rfl
theorem exec_hostFecCodeword (k : Fin 4) (rx : Bool) (p : Fin 4) (skew : BitVec 16) (syms : Option (Fin 16)) : exec (.hostFecCodeword k rx p skew syms) s = execHostFecCodeword k rx p skew syms s := rfl
theorem exec_ringFrameArrival (p : Fin 2) (bytes : List Byte) (void : Bool) : exec (.ringFrameArrival p bytes void) s = execRingFrameArrival p bytes void s := rfl
theorem exec_malformedRequest (r : Fin 18) (bytes : List Byte) (bad : Bool) : exec (.malformedRequest r bytes bad) s = execMalformedRequest r bytes bad s := rfl
theorem exec_tapReset : exec (.tapReset) s = execTapReset s := rfl

end Sys2Proof.Machine
end

