-- ==== Sys2Proof/Laws/Memory.lean ====
section
/-!
SUPPORT. The core's SRAM: reading what was written, and the canonical form under every operation on it.
-/

namespace Sys2Proof.Machine

namespace Memory

/-- What is listed before an address stays before it when the address is written. -/
theorem mem_write {m : List Host.Cell} {a : Nat} {b : Byte} {c : Host.Cell} (h : c ∈ write m a b) : c = (a, b) ∨ c ∈ m := by
  induction m with
  | nil => simpa [write] using h
  | cons d m ih =>
    unfold write at h
    split at h
    · simpa using h
    · split at h
      · rcases List.mem_cons.mp h with h | h
        · exact .inl h
        · exact .inr (List.mem_cons_of_mem _ h)
      · rcases List.mem_cons.mp h with h | h
        · exact .inr (h ▸ List.mem_cons_self)
        · exact (ih h).imp id (List.mem_cons_of_mem _)

theorem wf_write (m : List Host.Cell) (a : Nat) (b : Byte) (h : wf m) : wf (write m a b) := by
  induction m with
  | nil => exact List.pairwise_singleton _ _
  | cons d m ih =>
    have hd := List.pairwise_cons.mp h
    unfold write
    split
    · rename_i h1
      refine List.pairwise_cons.mpr ⟨fun c hc => ?_, h⟩
      rcases List.mem_cons.mp hc with e | hc
      · exact e ▸ h1
      · exact Nat.lt_trans h1 (hd.1 c hc)
    · split
      · rename_i h1
        exact List.pairwise_cons.mpr ⟨fun c hc => h1 ▸ hd.1 c hc, hd.2⟩
      · rename_i h1 h2
        refine List.pairwise_cons.mpr ⟨fun c hc => ?_, ih hd.2⟩
        rcases mem_write hc with e | hc
        · rw [e]
          show d.1 < a
          omega
        · exact hd.1 c hc

theorem mem_block {a : Nat} {l : List Byte} {c : Host.Cell} (h : c ∈ block a l) : a ≤ c.1 := by
  induction l generalizing a with
  | nil => simp [block] at h
  | cons b l ih =>
    rcases List.mem_cons.mp h with e | h
    · exact e ▸ Nat.le_refl _
    · exact Nat.le_trans (Nat.le_succ a) (ih h)

theorem wf_block (a : Nat) (l : List Byte) : wf (block a l) := by
  induction l generalizing a with
  | nil => exact List.Pairwise.nil
  | cons b l ih => exact List.pairwise_cons.mpr ⟨fun c hc => mem_block hc, ih _⟩

theorem wf_filter (p : Host.Cell → Bool) {m : List Host.Cell} (h : wf m) : wf (m.filter p) := List.Pairwise.filter p h

/-- A byte reads as it was written; every other byte is left alone. -/
theorem read_write (m : List Host.Cell) (a : Nat) (b : Byte) (x : Nat) (h : wf m) :
    read (write m a b) x = if x = a then some b else read m x := by
  induction m with
  | nil =>
    by_cases e : x = a
    · simp [write, read, e]
    · simp [write, read, e, Ne.symm e]
  | cons d m ih =>
    have hd := List.pairwise_cons.mp h
    have ih := ih hd.2
    unfold read at ih
    unfold write
    split
    · rename_i h1
      by_cases e : x = a
      · simp [read, e]
      · simp [read, e, Ne.symm e]
    · split
      · rename_i h1 h2
        by_cases e : x = a
        · simp [read, e]
        · simp [read, e, Ne.symm e, ← h2]
      · rename_i h1 h2
        by_cases e : d.1 = x
        · have hx : x ≠ a := fun e' => h2 (by omega)
          simp [read, e, hx]
        · simpa [read, List.find?_cons, e] using ih

end Memory

/-- The SRAM has its form at reset. -/
theorem reset_sram : Memory.wf State.reset.sec.sram := List.Pairwise.nil

namespace State

/-- The SRAM keeps its form in every operation that writes it: the load of CODE, the run of the core, a debug access (R442, R458). -/
theorem sram_loadSkein (s : State) (img : List Byte) : Memory.wf (s.loadSkein img).sec.sram := Memory.wf_block _ _

theorem sram_coreRan (s : State) (h : Memory.wf s.sec.sram) : Memory.wf s.coreRan.sec.sram := by
  unfold coreRan
  split
  · exact h
  · exact Memory.wf_filter _ h

theorem sram_debugAct (s : State) (d : List Bool) (op : DebugOp) (h : Memory.wf s.sec.sram) : Memory.wf (s.debugAct d op).sec.sram := by
  cases op <;> simp only [debugAct]
  · split <;> exact h
  · split
    · exact sram_coreRan s h
    · exact h
  · split
    · exact sram_coreRan s h
    · exact h
  · split <;> exact h
  · exact Memory.wf_write _ _ _ h
  · exact h
  · exact h

end State

end Sys2Proof.Machine
end

