-- ==== Sys2Proof/Laws/Store.lean ====
section
/-!
SUPPORT. The register store: reading what was written, and the canonical form under every operation on it.
-/

namespace Sys2Proof.Machine

/-! ## The order of keys -/

theorem Blk.rank_inj {a b : Blk} (h : a.rank = b.rank) : a = b := by
  cases a <;> cases b <;> simp only [Blk.rank] at h <;>
    first
      | rfl
      | (exfalso; omega)
      | (congr 1; exact Fin.ext (by omega))

theorem Key.lt_irrefl (a : Key) : Key.lt a a = false := by simp [Key.lt]

theorem Key.lt_trans {a b c : Key} (h1 : Key.lt a b = true) (h2 : Key.lt b c = true) : Key.lt a c = true := by
  simp only [Key.lt, Bool.or_eq_true, Bool.and_eq_true, decide_eq_true_eq, beq_iff_eq] at *
  omega

theorem Key.lt_total {a b : Key} (h1 : Key.lt a b = false) (h2 : a ≠ b) : Key.lt b a = true := by
  simp only [Key.lt, Bool.or_eq_true, Bool.and_eq_true, decide_eq_true_eq, beq_iff_eq, Bool.or_eq_false_iff,
    Bool.and_eq_false_iff, decide_eq_false_iff_not, beq_eq_false_iff_ne] at *
  by_cases hr : a.blk.rank = b.blk.rank
  · by_cases ho : a.off = b.off
    · by_cases hs : a.sub = b.sub
      · have hb := Blk.rank_inj hr
        exact absurd (by cases a; cases b; simp_all) h2
      · omega
    · omega
  · omega

/-! ## Finding -/

namespace Store

theorem find_erase_self (k : Key) (m : Store) : find k (erase m k) = none := by
  induction m with
  | nil => rfl
  | cons p m ih =>
    by_cases h : p.1 = k
    · simpa [erase, List.filter_cons, h] using ih
    · simpa [erase, List.filter_cons, h, find] using ih

theorem find_erase_ne {k k' : Key} (h : k' ≠ k) (m : Store) : find k' (erase m k) = find k' m := by
  induction m with
  | nil => rfl
  | cons p m ih =>
    by_cases hp : p.1 = k
    · have : p.1 ≠ k' := fun e => h (by rw [← e, hp])
      simpa [erase, List.filter_cons, hp, find, this, Ne.symm h] using ih
    · simp only [erase, List.filter_cons, ne_eq, hp, not_false_eq_true, decide_true, ↓reduceIte, find]
      split
      · rfl
      · exact ih

theorem find_insert_self (k : Key) (v : Nat) (m : Store) (h : find k m = none) : find k (insert k v m) = some v := by
  induction m with
  | nil => simp [insert, find]
  | cons p m ih =>
    obtain ⟨k', v'⟩ := p
    by_cases hk : k' = k
    · simp [find, hk] at h
    · simp only [find, hk, ↓reduceIte] at h
      simp only [insert]
      split
      · simp [find]
      · simp only [find, hk, ↓reduceIte]; exact ih h

theorem find_insert_ne {k k' : Key} (h : k' ≠ k) (v : Nat) (m : Store) : find k' (insert k v m) = find k' m := by
  induction m with
  | nil => simp [insert, find, Ne.symm h]
  | cons p m ih =>
    obtain ⟨a, b⟩ := p
    simp only [insert]
    split
    · simp [find, Ne.symm h]
    · simp only [find]
      split
      · rfl
      · exact ih

/-- A read after a write to the same entry gives the value written; every other entry is left alone. -/
theorem get_set (m : Store) (k : Key) (v : Nat) (k' : Key) : (m.set k v).get k' = if k' = k then v else m.get k' := by
  unfold set get
  by_cases hv : v = resetOf k
  · by_cases hk : k' = k
    · subst hk; simp [hv, find_erase_self]
    · simp [hv, hk, find_erase_ne hk]
  · by_cases hk : k' = k
    · subst hk; simp [hv, find_insert_self _ _ _ (find_erase_self _ _)]
    · simp [hv, hk, find_insert_ne hk, find_erase_ne hk]

theorem get_erase (m : Store) (k k' : Key) : (m.erase k).get k' = if k' = k then resetOf k' else m.get k' := by
  unfold get
  by_cases hk : k' = k
  · subst hk; simp [find_erase_self]
  · simp [hk, find_erase_ne hk]

theorem find_filter (p : Key → Bool) (m : Store) (k : Key) :
    find k (m.filter fun e => p e.1) = if p k then find k m else none := by
  induction m with
  | nil => simp [find]
  | cons e m ih =>
    obtain ⟨a, b⟩ := e
    by_cases ha : a = k
    · subst ha
      by_cases hp : p a = true
      · simp [hp, find]
      · simp [hp, ih]
    · by_cases hp : p a = true
      · simp [hp, find, ha, ih]
      · simp [hp, find, ha, ih]

/-! ## The canonical form -/

theorem wf_cons (k : Key) (v : Nat) (m : Store) :
    wf ((k, v) :: m) = true ↔ v ≠ resetOf k ∧ (∀ e ∈ m, Key.lt k e.1 = true) ∧ wf m = true := by
  simp [wf, and_assoc]

theorem wf_filter (p : Key × Nat → Bool) {m : Store} (h : wf m = true) : wf (m.filter p) = true := by
  induction m with
  | nil => rfl
  | cons e m ih =>
    obtain ⟨k, v⟩ := e
    rw [wf_cons] at h
    by_cases hp : p (k, v) = true
    · rw [List.filter_cons_of_pos hp, wf_cons]
      exact ⟨h.1, fun x hx => h.2.1 x (List.mem_filter.mp hx).1, ih h.2.2⟩
    · rw [List.filter_cons_of_neg hp]; exact ih h.2.2

theorem wf_erase (k : Key) {m : Store} (h : wf m = true) : wf (erase m k) = true := wf_filter _ h

theorem mem_insert {k : Key} {v : Nat} {e : Key × Nat} {m : Store} (h : e ∈ insert k v m) : e = (k, v) ∨ e ∈ m := by
  induction m with
  | nil => simpa [insert] using h
  | cons p m ih =>
    obtain ⟨a, b⟩ := p
    simp only [insert] at h
    split at h
    · simpa using h
    · rcases List.mem_cons.mp h with h | h
      · exact .inr (by simp [h])
      · rcases ih h with h | h
        · exact .inl h
        · exact .inr (List.mem_cons_of_mem _ h)

theorem wf_insert (k : Key) (v : Nat) {m : Store} (h : wf m = true) (hk : ∀ e ∈ m, e.1 ≠ k) (hv : v ≠ resetOf k) :
    wf (insert k v m) = true := by
  induction m with
  | nil => simp [insert, wf, hv]
  | cons p m ih =>
    obtain ⟨a, b⟩ := p
    have h' := (wf_cons a b m).mp h
    simp only [insert]
    split
    · rename_i hlt
      rw [wf_cons]
      refine ⟨hv, ?_, h⟩
      intro e he
      rcases List.mem_cons.mp he with he | he
      · subst he; exact hlt
      · exact Key.lt_trans hlt (h'.2.1 e he)
    · rename_i hlt
      have hak : Key.lt a k = true := Key.lt_total (by simpa using hlt) (Ne.symm (hk (a, b) (by simp)))
      rw [wf_cons]
      refine ⟨h'.1, ?_, ih h'.2.2 fun e he => hk e (List.mem_cons_of_mem _ he)⟩
      intro e he
      rcases mem_insert he with he | he
      · subst he; exact hak
      · exact h'.2.1 e he

theorem wf_set (k : Key) (v : Nat) {m : Store} (h : wf m = true) : wf (set m k v) = true := by
  unfold set
  split
  · exact wf_erase k h
  · refine wf_insert k v (wf_erase k h) ?_ (by assumption)
    intro e he
    simpa [erase] using (List.mem_filter.mp he).2

end Store

end Sys2Proof.Machine
end

