-- ==== Sys2Proof/Laws/State.lean ====
section
/-!
SUPPORT. One lemma per field per update of the state, and what a register reads as after each update.
-/

namespace Sys2Proof.Machine

namespace State

/-! ## Registers -/

/-- A register reads the low bits of what was written to it; every other register is left alone. -/
theorem rd_wr (s : State) (k : Key) (v : Nat) (k' : Key) : (s.wr k v).rd k' = if k' = k then v % 2 ^ bitsOf k else s.rd k' :=
  Store.get_set _ _ _ _

@[simp] theorem rd_wr_self (s : State) (k : Key) (v : Nat) : (s.wr k v).rd k = v % 2 ^ bitsOf k := by simp [rd_wr]

theorem rd_wr_ne (s : State) {k k' : Key} (v : Nat) (h : k' ≠ k) : (s.wr k v).rd k' = s.rd k' := by simp [rd_wr, h]

theorem rd_clr (s : State) (k k' : Key) : (s.clr k).rd k' = if k' = k then resetOf k' else s.rd k' := Store.get_erase _ _ _

/-- Several registers returned to their reset values. -/
theorem rd_clrAll (s : State) (ks : List Key) (k' : Key) : (s.clrAll ks).rd k' = if k' ∈ ks then resetOf k' else s.rd k' := by
  induction ks generalizing s with
  | nil => simp [clrAll]
  | cons k ks ih =>
    have h : s.clrAll (k :: ks) = (s.clr k).clrAll ks := rfl
    rw [h, ih, rd_clr]
    by_cases h1 : k' = k <;> by_cases h2 : k' ∈ ks <;> simp_all

theorem rd_resetEntries (s : State) (p : Key → Bool) (k : Key) :
    (s.resetEntries p).rd k = if p k then resetOf k else s.rd k := by
  have h := Store.find_filter (fun x => !p x) s.store k
  unfold rd Store.get resetEntries
  simp only [h]
  by_cases hp : p k = true <;> simp [hp]

/-- A counter saturates. -/
theorem rd_addSat_self (s : State) (k : Key) (n : Nat) :
    (s.addSat k n).rd k = min (s.rd k + n) (2 ^ bitsOf k - 1) % 2 ^ bitsOf k := rd_wr_self _ _ _

/-! ## The canonical form of the register store -/

theorem storeOk_wr {s : State} (k : Key) (v : Nat) (h : s.storeOk = true) : (s.wr k v).storeOk = true := Store.wf_set _ _ h

theorem storeOk_clr {s : State} (k : Key) (h : s.storeOk = true) : (s.clr k).storeOk = true := Store.wf_erase _ h

theorem storeOk_clrAll {s : State} (ks : List Key) (h : s.storeOk = true) : (s.clrAll ks).storeOk = true := by
  induction ks generalizing s with
  | nil => exact h
  | cons k ks ih => exact ih (storeOk_clr k h)

theorem storeOk_resetEntries {s : State} (p : Key → Bool) (h : s.storeOk = true) : (s.resetEntries p).storeOk = true :=
  Store.wf_filter _ h

/-! ## Records of units -/

/-- One place of a table is replaced. -/
theorem get_setVec {α : Type} {n : Nat} (v : Vector α n) (i j : Fin n) (x : α) :
    (v.set i x i.isLt).get j = if j = i then x else v.get j := by
  show (v.set i x i.isLt)[j.val] = if j = i then x else v[j.val]
  rw [Vector.getElem_set]
  by_cases h : j = i
  · simp [h]
  · have hv : i.val ≠ j.val := fun e => h (Fin.ext e.symm)
    simp [h, hv]

@[simp] theorem lane_modLane (s : State) (n : Fin 16) (f : LaneS → LaneS) : (s.modLane n f).lane n = f (s.lane n) := by
  simp [lane, modLane, get_setVec]

theorem lane_modLane_ne (s : State) {n m : Fin 16} (f : LaneS → LaneS) (h : m ≠ n) : (s.modLane n f).lane m = s.lane m := by
  simp [lane, modLane, get_setVec, h]

@[simp] theorem host_modHost (s : State) (n : Fin 32) (f : HostS → HostS) : (s.modHost n f).host n = f (s.host n) := by
  simp [host, modHost, get_setVec]

@[simp] theorem pg_modPg (s : State) (n : Fin 4) (f : PgS → PgS) : (s.modPg n f).pg n = f (s.pg n) := by
  simp [pg, modPg, get_setVec]

@[simp] theorem req_modReq (s : State) (r : Fin 18) (f : Requester → Requester) : (s.modReq r f).req r = f (s.req r) := by
  simp [req, modReq, get_setVec]

theorem req_modReq_ne (s : State) {r q : Fin 18} (f : Requester → Requester) (h : q ≠ r) : (s.modReq r f).req q = s.req q := by
  simp [req, modReq, get_setVec, h]

@[simp] theorem unit_modUnit (s : State) (u : Fin 22) (f : PwrUnit → PwrUnit) : (s.modUnit u f).unit u = f (s.unit u) := by
  simp [unit, modUnit, get_setVec]

@[simp] theorem lane_wr (s : State) (k : Key) (v : Nat) (n : Fin 16) : (s.wr k v).lane n = s.lane n := rfl
@[simp] theorem host_wr (s : State) (k : Key) (v : Nat) (m : Fin 32) : (s.wr k v).host m = s.host m := rfl
@[simp] theorem req_wr (s : State) (k : Key) (v : Nat) (r : Fin 18) : (s.wr k v).req r = s.req r := rfl
@[simp] theorem unit_wr (s : State) (k : Key) (v : Nat) (u : Fin 22) : (s.wr k v).unit u = s.unit u := rfl

/-! ## Fields left alone -/

@[simp] theorem wr_pending (s : State) (k : Key) (v : Nat) : (s.wr k v).pending = s.pending := rfl
@[simp] theorem wr_now (s : State) (k : Key) (v : Nat) : (s.wr k v).now = s.now := rfl
@[simp] theorem wr_free (s : State) (k : Key) (v : Nat) : (s.wr k v).free = s.free := rfl
@[simp] theorem wr_od (s : State) (k : Key) (v : Nat) : (s.wr k v).od = s.od := rfl
@[simp] theorem wr_clk (s : State) (k : Key) (v : Nat) : (s.wr k v).clk = s.clk := rfl
@[simp] theorem wr_time (s : State) (k : Key) (v : Nat) : (s.wr k v).time = s.time := rfl
@[simp] theorem wr_mgmt (s : State) (k : Key) (v : Nat) : (s.wr k v).mgmt = s.mgmt := rfl
@[simp] theorem wr_pwr (s : State) (k : Key) (v : Nat) : (s.wr k v).pwr = s.pwr := rfl
@[simp] theorem wr_lanes (s : State) (k : Key) (v : Nat) : (s.wr k v).lanes = s.lanes := rfl
@[simp] theorem wr_hosts (s : State) (k : Key) (v : Nat) : (s.wr k v).hosts = s.hosts := rfl
@[simp] theorem wr_pgs (s : State) (k : Key) (v : Nat) : (s.wr k v).pgs = s.pgs := rfl
@[simp] theorem wr_ce (s : State) (k : Key) (v : Nat) : (s.wr k v).ce = s.ce := rfl
@[simp] theorem wr_ring (s : State) (k : Key) (v : Nat) : (s.wr k v).ring = s.ring := rfl
@[simp] theorem wr_sec (s : State) (k : Key) (v : Nat) : (s.wr k v).sec = s.sec := rfl
@[simp] theorem wr_bist (s : State) (k : Key) (v : Nat) : (s.wr k v).bist = s.bist := rfl
@[simp] theorem wrI_pending (s : State) (k : Key) (v : Int) : (s.wrI k v).pending = s.pending := rfl
@[simp] theorem wrI_now (s : State) (k : Key) (v : Int) : (s.wrI k v).now = s.now := rfl
@[simp] theorem wrI_free (s : State) (k : Key) (v : Int) : (s.wrI k v).free = s.free := rfl
@[simp] theorem wrI_od (s : State) (k : Key) (v : Int) : (s.wrI k v).od = s.od := rfl
@[simp] theorem wrI_clk (s : State) (k : Key) (v : Int) : (s.wrI k v).clk = s.clk := rfl
@[simp] theorem wrI_time (s : State) (k : Key) (v : Int) : (s.wrI k v).time = s.time := rfl
@[simp] theorem wrI_mgmt (s : State) (k : Key) (v : Int) : (s.wrI k v).mgmt = s.mgmt := rfl
@[simp] theorem wrI_pwr (s : State) (k : Key) (v : Int) : (s.wrI k v).pwr = s.pwr := rfl
@[simp] theorem wrI_lanes (s : State) (k : Key) (v : Int) : (s.wrI k v).lanes = s.lanes := rfl
@[simp] theorem wrI_hosts (s : State) (k : Key) (v : Int) : (s.wrI k v).hosts = s.hosts := rfl
@[simp] theorem wrI_pgs (s : State) (k : Key) (v : Int) : (s.wrI k v).pgs = s.pgs := rfl
@[simp] theorem wrI_ce (s : State) (k : Key) (v : Int) : (s.wrI k v).ce = s.ce := rfl
@[simp] theorem wrI_ring (s : State) (k : Key) (v : Int) : (s.wrI k v).ring = s.ring := rfl
@[simp] theorem wrI_sec (s : State) (k : Key) (v : Int) : (s.wrI k v).sec = s.sec := rfl
@[simp] theorem wrI_bist (s : State) (k : Key) (v : Int) : (s.wrI k v).bist = s.bist := rfl
@[simp] theorem wrBit_pending (s : State) (k : Key) (i : Nat) (b : Bool) : (s.wrBit k i b).pending = s.pending := rfl
@[simp] theorem wrBit_now (s : State) (k : Key) (i : Nat) (b : Bool) : (s.wrBit k i b).now = s.now := rfl
@[simp] theorem wrBit_free (s : State) (k : Key) (i : Nat) (b : Bool) : (s.wrBit k i b).free = s.free := rfl
@[simp] theorem wrBit_od (s : State) (k : Key) (i : Nat) (b : Bool) : (s.wrBit k i b).od = s.od := rfl
@[simp] theorem wrBit_clk (s : State) (k : Key) (i : Nat) (b : Bool) : (s.wrBit k i b).clk = s.clk := rfl
@[simp] theorem wrBit_time (s : State) (k : Key) (i : Nat) (b : Bool) : (s.wrBit k i b).time = s.time := rfl
@[simp] theorem wrBit_mgmt (s : State) (k : Key) (i : Nat) (b : Bool) : (s.wrBit k i b).mgmt = s.mgmt := rfl
@[simp] theorem wrBit_pwr (s : State) (k : Key) (i : Nat) (b : Bool) : (s.wrBit k i b).pwr = s.pwr := rfl
@[simp] theorem wrBit_lanes (s : State) (k : Key) (i : Nat) (b : Bool) : (s.wrBit k i b).lanes = s.lanes := rfl
@[simp] theorem wrBit_hosts (s : State) (k : Key) (i : Nat) (b : Bool) : (s.wrBit k i b).hosts = s.hosts := rfl
@[simp] theorem wrBit_pgs (s : State) (k : Key) (i : Nat) (b : Bool) : (s.wrBit k i b).pgs = s.pgs := rfl
@[simp] theorem wrBit_ce (s : State) (k : Key) (i : Nat) (b : Bool) : (s.wrBit k i b).ce = s.ce := rfl
@[simp] theorem wrBit_ring (s : State) (k : Key) (i : Nat) (b : Bool) : (s.wrBit k i b).ring = s.ring := rfl
@[simp] theorem wrBit_sec (s : State) (k : Key) (i : Nat) (b : Bool) : (s.wrBit k i b).sec = s.sec := rfl
@[simp] theorem wrBit_bist (s : State) (k : Key) (i : Nat) (b : Bool) : (s.wrBit k i b).bist = s.bist := rfl
@[simp] theorem wrField_pending (s : State) (k : Key) (hi lo v : Nat) : (s.wrField k hi lo v).pending = s.pending := rfl
@[simp] theorem wrField_now (s : State) (k : Key) (hi lo v : Nat) : (s.wrField k hi lo v).now = s.now := rfl
@[simp] theorem wrField_free (s : State) (k : Key) (hi lo v : Nat) : (s.wrField k hi lo v).free = s.free := rfl
@[simp] theorem wrField_od (s : State) (k : Key) (hi lo v : Nat) : (s.wrField k hi lo v).od = s.od := rfl
@[simp] theorem wrField_clk (s : State) (k : Key) (hi lo v : Nat) : (s.wrField k hi lo v).clk = s.clk := rfl
@[simp] theorem wrField_time (s : State) (k : Key) (hi lo v : Nat) : (s.wrField k hi lo v).time = s.time := rfl
@[simp] theorem wrField_mgmt (s : State) (k : Key) (hi lo v : Nat) : (s.wrField k hi lo v).mgmt = s.mgmt := rfl
@[simp] theorem wrField_pwr (s : State) (k : Key) (hi lo v : Nat) : (s.wrField k hi lo v).pwr = s.pwr := rfl
@[simp] theorem wrField_lanes (s : State) (k : Key) (hi lo v : Nat) : (s.wrField k hi lo v).lanes = s.lanes := rfl
@[simp] theorem wrField_hosts (s : State) (k : Key) (hi lo v : Nat) : (s.wrField k hi lo v).hosts = s.hosts := rfl
@[simp] theorem wrField_pgs (s : State) (k : Key) (hi lo v : Nat) : (s.wrField k hi lo v).pgs = s.pgs := rfl
@[simp] theorem wrField_ce (s : State) (k : Key) (hi lo v : Nat) : (s.wrField k hi lo v).ce = s.ce := rfl
@[simp] theorem wrField_ring (s : State) (k : Key) (hi lo v : Nat) : (s.wrField k hi lo v).ring = s.ring := rfl
@[simp] theorem wrField_sec (s : State) (k : Key) (hi lo v : Nat) : (s.wrField k hi lo v).sec = s.sec := rfl
@[simp] theorem wrField_bist (s : State) (k : Key) (hi lo v : Nat) : (s.wrField k hi lo v).bist = s.bist := rfl
@[simp] theorem addSat_pending (s : State) (k : Key) (n : Nat) : (s.addSat k n).pending = s.pending := rfl
@[simp] theorem addSat_now (s : State) (k : Key) (n : Nat) : (s.addSat k n).now = s.now := rfl
@[simp] theorem addSat_free (s : State) (k : Key) (n : Nat) : (s.addSat k n).free = s.free := rfl
@[simp] theorem addSat_od (s : State) (k : Key) (n : Nat) : (s.addSat k n).od = s.od := rfl
@[simp] theorem addSat_clk (s : State) (k : Key) (n : Nat) : (s.addSat k n).clk = s.clk := rfl
@[simp] theorem addSat_time (s : State) (k : Key) (n : Nat) : (s.addSat k n).time = s.time := rfl
@[simp] theorem addSat_mgmt (s : State) (k : Key) (n : Nat) : (s.addSat k n).mgmt = s.mgmt := rfl
@[simp] theorem addSat_pwr (s : State) (k : Key) (n : Nat) : (s.addSat k n).pwr = s.pwr := rfl
@[simp] theorem addSat_lanes (s : State) (k : Key) (n : Nat) : (s.addSat k n).lanes = s.lanes := rfl
@[simp] theorem addSat_hosts (s : State) (k : Key) (n : Nat) : (s.addSat k n).hosts = s.hosts := rfl
@[simp] theorem addSat_pgs (s : State) (k : Key) (n : Nat) : (s.addSat k n).pgs = s.pgs := rfl
@[simp] theorem addSat_ce (s : State) (k : Key) (n : Nat) : (s.addSat k n).ce = s.ce := rfl
@[simp] theorem addSat_ring (s : State) (k : Key) (n : Nat) : (s.addSat k n).ring = s.ring := rfl
@[simp] theorem addSat_sec (s : State) (k : Key) (n : Nat) : (s.addSat k n).sec = s.sec := rfl
@[simp] theorem addSat_bist (s : State) (k : Key) (n : Nat) : (s.addSat k n).bist = s.bist := rfl
@[simp] theorem incSat_pending (s : State) (k : Key) : (s.incSat k).pending = s.pending := rfl
@[simp] theorem incSat_now (s : State) (k : Key) : (s.incSat k).now = s.now := rfl
@[simp] theorem incSat_free (s : State) (k : Key) : (s.incSat k).free = s.free := rfl
@[simp] theorem incSat_od (s : State) (k : Key) : (s.incSat k).od = s.od := rfl
@[simp] theorem incSat_clk (s : State) (k : Key) : (s.incSat k).clk = s.clk := rfl
@[simp] theorem incSat_time (s : State) (k : Key) : (s.incSat k).time = s.time := rfl
@[simp] theorem incSat_mgmt (s : State) (k : Key) : (s.incSat k).mgmt = s.mgmt := rfl
@[simp] theorem incSat_pwr (s : State) (k : Key) : (s.incSat k).pwr = s.pwr := rfl
@[simp] theorem incSat_lanes (s : State) (k : Key) : (s.incSat k).lanes = s.lanes := rfl
@[simp] theorem incSat_hosts (s : State) (k : Key) : (s.incSat k).hosts = s.hosts := rfl
@[simp] theorem incSat_pgs (s : State) (k : Key) : (s.incSat k).pgs = s.pgs := rfl
@[simp] theorem incSat_ce (s : State) (k : Key) : (s.incSat k).ce = s.ce := rfl
@[simp] theorem incSat_ring (s : State) (k : Key) : (s.incSat k).ring = s.ring := rfl
@[simp] theorem incSat_sec (s : State) (k : Key) : (s.incSat k).sec = s.sec := rfl
@[simp] theorem incSat_bist (s : State) (k : Key) : (s.incSat k).bist = s.bist := rfl
@[simp] theorem incWrap_pending (s : State) (k : Key) : (s.incWrap k).pending = s.pending := rfl
@[simp] theorem incWrap_now (s : State) (k : Key) : (s.incWrap k).now = s.now := rfl
@[simp] theorem incWrap_free (s : State) (k : Key) : (s.incWrap k).free = s.free := rfl
@[simp] theorem incWrap_od (s : State) (k : Key) : (s.incWrap k).od = s.od := rfl
@[simp] theorem incWrap_clk (s : State) (k : Key) : (s.incWrap k).clk = s.clk := rfl
@[simp] theorem incWrap_time (s : State) (k : Key) : (s.incWrap k).time = s.time := rfl
@[simp] theorem incWrap_mgmt (s : State) (k : Key) : (s.incWrap k).mgmt = s.mgmt := rfl
@[simp] theorem incWrap_pwr (s : State) (k : Key) : (s.incWrap k).pwr = s.pwr := rfl
@[simp] theorem incWrap_lanes (s : State) (k : Key) : (s.incWrap k).lanes = s.lanes := rfl
@[simp] theorem incWrap_hosts (s : State) (k : Key) : (s.incWrap k).hosts = s.hosts := rfl
@[simp] theorem incWrap_pgs (s : State) (k : Key) : (s.incWrap k).pgs = s.pgs := rfl
@[simp] theorem incWrap_ce (s : State) (k : Key) : (s.incWrap k).ce = s.ce := rfl
@[simp] theorem incWrap_ring (s : State) (k : Key) : (s.incWrap k).ring = s.ring := rfl
@[simp] theorem incWrap_sec (s : State) (k : Key) : (s.incWrap k).sec = s.sec := rfl
@[simp] theorem incWrap_bist (s : State) (k : Key) : (s.incWrap k).bist = s.bist := rfl
@[simp] theorem clr_pending (s : State) (k : Key) : (s.clr k).pending = s.pending := rfl
@[simp] theorem clr_now (s : State) (k : Key) : (s.clr k).now = s.now := rfl
@[simp] theorem clr_free (s : State) (k : Key) : (s.clr k).free = s.free := rfl
@[simp] theorem clr_od (s : State) (k : Key) : (s.clr k).od = s.od := rfl
@[simp] theorem clr_clk (s : State) (k : Key) : (s.clr k).clk = s.clk := rfl
@[simp] theorem clr_time (s : State) (k : Key) : (s.clr k).time = s.time := rfl
@[simp] theorem clr_mgmt (s : State) (k : Key) : (s.clr k).mgmt = s.mgmt := rfl
@[simp] theorem clr_pwr (s : State) (k : Key) : (s.clr k).pwr = s.pwr := rfl
@[simp] theorem clr_lanes (s : State) (k : Key) : (s.clr k).lanes = s.lanes := rfl
@[simp] theorem clr_hosts (s : State) (k : Key) : (s.clr k).hosts = s.hosts := rfl
@[simp] theorem clr_pgs (s : State) (k : Key) : (s.clr k).pgs = s.pgs := rfl
@[simp] theorem clr_ce (s : State) (k : Key) : (s.clr k).ce = s.ce := rfl
@[simp] theorem clr_ring (s : State) (k : Key) : (s.clr k).ring = s.ring := rfl
@[simp] theorem clr_sec (s : State) (k : Key) : (s.clr k).sec = s.sec := rfl
@[simp] theorem clr_bist (s : State) (k : Key) : (s.clr k).bist = s.bist := rfl
@[simp] theorem resetEntries_pending (s : State) (p : Key → Bool) : (s.resetEntries p).pending = s.pending := rfl
@[simp] theorem resetEntries_now (s : State) (p : Key → Bool) : (s.resetEntries p).now = s.now := rfl
@[simp] theorem resetEntries_free (s : State) (p : Key → Bool) : (s.resetEntries p).free = s.free := rfl
@[simp] theorem resetEntries_od (s : State) (p : Key → Bool) : (s.resetEntries p).od = s.od := rfl
@[simp] theorem resetEntries_clk (s : State) (p : Key → Bool) : (s.resetEntries p).clk = s.clk := rfl
@[simp] theorem resetEntries_time (s : State) (p : Key → Bool) : (s.resetEntries p).time = s.time := rfl
@[simp] theorem resetEntries_mgmt (s : State) (p : Key → Bool) : (s.resetEntries p).mgmt = s.mgmt := rfl
@[simp] theorem resetEntries_pwr (s : State) (p : Key → Bool) : (s.resetEntries p).pwr = s.pwr := rfl
@[simp] theorem resetEntries_lanes (s : State) (p : Key → Bool) : (s.resetEntries p).lanes = s.lanes := rfl
@[simp] theorem resetEntries_hosts (s : State) (p : Key → Bool) : (s.resetEntries p).hosts = s.hosts := rfl
@[simp] theorem resetEntries_pgs (s : State) (p : Key → Bool) : (s.resetEntries p).pgs = s.pgs := rfl
@[simp] theorem resetEntries_ce (s : State) (p : Key → Bool) : (s.resetEntries p).ce = s.ce := rfl
@[simp] theorem resetEntries_ring (s : State) (p : Key → Bool) : (s.resetEntries p).ring = s.ring := rfl
@[simp] theorem resetEntries_sec (s : State) (p : Key → Bool) : (s.resetEntries p).sec = s.sec := rfl
@[simp] theorem resetEntries_bist (s : State) (p : Key → Bool) : (s.resetEntries p).bist = s.bist := rfl
@[simp] theorem modReq_pending (s : State) (r : Fin 18) (f : Requester → Requester) : (s.modReq r f).pending = s.pending := rfl
@[simp] theorem modReq_now (s : State) (r : Fin 18) (f : Requester → Requester) : (s.modReq r f).now = s.now := rfl
@[simp] theorem modReq_free (s : State) (r : Fin 18) (f : Requester → Requester) : (s.modReq r f).free = s.free := rfl
@[simp] theorem modReq_store (s : State) (r : Fin 18) (f : Requester → Requester) : (s.modReq r f).store = s.store := rfl
@[simp] theorem modReq_clk (s : State) (r : Fin 18) (f : Requester → Requester) : (s.modReq r f).clk = s.clk := rfl
@[simp] theorem modReq_time (s : State) (r : Fin 18) (f : Requester → Requester) : (s.modReq r f).time = s.time := rfl
@[simp] theorem modReq_mgmt (s : State) (r : Fin 18) (f : Requester → Requester) : (s.modReq r f).mgmt = s.mgmt := rfl
@[simp] theorem modReq_pwr (s : State) (r : Fin 18) (f : Requester → Requester) : (s.modReq r f).pwr = s.pwr := rfl
@[simp] theorem modReq_lanes (s : State) (r : Fin 18) (f : Requester → Requester) : (s.modReq r f).lanes = s.lanes := rfl
@[simp] theorem modReq_hosts (s : State) (r : Fin 18) (f : Requester → Requester) : (s.modReq r f).hosts = s.hosts := rfl
@[simp] theorem modReq_pgs (s : State) (r : Fin 18) (f : Requester → Requester) : (s.modReq r f).pgs = s.pgs := rfl
@[simp] theorem modReq_ce (s : State) (r : Fin 18) (f : Requester → Requester) : (s.modReq r f).ce = s.ce := rfl
@[simp] theorem modReq_ring (s : State) (r : Fin 18) (f : Requester → Requester) : (s.modReq r f).ring = s.ring := rfl
@[simp] theorem modReq_sec (s : State) (r : Fin 18) (f : Requester → Requester) : (s.modReq r f).sec = s.sec := rfl
@[simp] theorem modReq_bist (s : State) (r : Fin 18) (f : Requester → Requester) : (s.modReq r f).bist = s.bist := rfl
@[simp] theorem modReq_rd (s : State) (r : Fin 18) (f : Requester → Requester) (k' : Key) : (s.modReq r f).rd k' = s.rd k' := rfl
@[simp] theorem modReq_storeOk (s : State) (r : Fin 18) (f : Requester → Requester) : (s.modReq r f).storeOk = s.storeOk := rfl
@[simp] theorem modOd_pending (s : State) (f : OdS → OdS) : (s.modOd f).pending = s.pending := rfl
@[simp] theorem modOd_now (s : State) (f : OdS → OdS) : (s.modOd f).now = s.now := rfl
@[simp] theorem modOd_free (s : State) (f : OdS → OdS) : (s.modOd f).free = s.free := rfl
@[simp] theorem modOd_store (s : State) (f : OdS → OdS) : (s.modOd f).store = s.store := rfl
@[simp] theorem modOd_clk (s : State) (f : OdS → OdS) : (s.modOd f).clk = s.clk := rfl
@[simp] theorem modOd_time (s : State) (f : OdS → OdS) : (s.modOd f).time = s.time := rfl
@[simp] theorem modOd_mgmt (s : State) (f : OdS → OdS) : (s.modOd f).mgmt = s.mgmt := rfl
@[simp] theorem modOd_pwr (s : State) (f : OdS → OdS) : (s.modOd f).pwr = s.pwr := rfl
@[simp] theorem modOd_lanes (s : State) (f : OdS → OdS) : (s.modOd f).lanes = s.lanes := rfl
@[simp] theorem modOd_hosts (s : State) (f : OdS → OdS) : (s.modOd f).hosts = s.hosts := rfl
@[simp] theorem modOd_pgs (s : State) (f : OdS → OdS) : (s.modOd f).pgs = s.pgs := rfl
@[simp] theorem modOd_ce (s : State) (f : OdS → OdS) : (s.modOd f).ce = s.ce := rfl
@[simp] theorem modOd_ring (s : State) (f : OdS → OdS) : (s.modOd f).ring = s.ring := rfl
@[simp] theorem modOd_sec (s : State) (f : OdS → OdS) : (s.modOd f).sec = s.sec := rfl
@[simp] theorem modOd_bist (s : State) (f : OdS → OdS) : (s.modOd f).bist = s.bist := rfl
@[simp] theorem modOd_rd (s : State) (f : OdS → OdS) (k' : Key) : (s.modOd f).rd k' = s.rd k' := rfl
@[simp] theorem modOd_storeOk (s : State) (f : OdS → OdS) : (s.modOd f).storeOk = s.storeOk := rfl
@[simp] theorem modClk_pending (s : State) (f : ClkS → ClkS) : (s.modClk f).pending = s.pending := rfl
@[simp] theorem modClk_now (s : State) (f : ClkS → ClkS) : (s.modClk f).now = s.now := rfl
@[simp] theorem modClk_free (s : State) (f : ClkS → ClkS) : (s.modClk f).free = s.free := rfl
@[simp] theorem modClk_store (s : State) (f : ClkS → ClkS) : (s.modClk f).store = s.store := rfl
@[simp] theorem modClk_od (s : State) (f : ClkS → ClkS) : (s.modClk f).od = s.od := rfl
@[simp] theorem modClk_time (s : State) (f : ClkS → ClkS) : (s.modClk f).time = s.time := rfl
@[simp] theorem modClk_mgmt (s : State) (f : ClkS → ClkS) : (s.modClk f).mgmt = s.mgmt := rfl
@[simp] theorem modClk_pwr (s : State) (f : ClkS → ClkS) : (s.modClk f).pwr = s.pwr := rfl
@[simp] theorem modClk_lanes (s : State) (f : ClkS → ClkS) : (s.modClk f).lanes = s.lanes := rfl
@[simp] theorem modClk_hosts (s : State) (f : ClkS → ClkS) : (s.modClk f).hosts = s.hosts := rfl
@[simp] theorem modClk_pgs (s : State) (f : ClkS → ClkS) : (s.modClk f).pgs = s.pgs := rfl
@[simp] theorem modClk_ce (s : State) (f : ClkS → ClkS) : (s.modClk f).ce = s.ce := rfl
@[simp] theorem modClk_ring (s : State) (f : ClkS → ClkS) : (s.modClk f).ring = s.ring := rfl
@[simp] theorem modClk_sec (s : State) (f : ClkS → ClkS) : (s.modClk f).sec = s.sec := rfl
@[simp] theorem modClk_bist (s : State) (f : ClkS → ClkS) : (s.modClk f).bist = s.bist := rfl
@[simp] theorem modClk_rd (s : State) (f : ClkS → ClkS) (k' : Key) : (s.modClk f).rd k' = s.rd k' := rfl
@[simp] theorem modClk_storeOk (s : State) (f : ClkS → ClkS) : (s.modClk f).storeOk = s.storeOk := rfl
@[simp] theorem modTime_pending (s : State) (f : TimeS → TimeS) : (s.modTime f).pending = s.pending := rfl
@[simp] theorem modTime_now (s : State) (f : TimeS → TimeS) : (s.modTime f).now = s.now := rfl
@[simp] theorem modTime_free (s : State) (f : TimeS → TimeS) : (s.modTime f).free = s.free := rfl
@[simp] theorem modTime_store (s : State) (f : TimeS → TimeS) : (s.modTime f).store = s.store := rfl
@[simp] theorem modTime_od (s : State) (f : TimeS → TimeS) : (s.modTime f).od = s.od := rfl
@[simp] theorem modTime_clk (s : State) (f : TimeS → TimeS) : (s.modTime f).clk = s.clk := rfl
@[simp] theorem modTime_mgmt (s : State) (f : TimeS → TimeS) : (s.modTime f).mgmt = s.mgmt := rfl
@[simp] theorem modTime_pwr (s : State) (f : TimeS → TimeS) : (s.modTime f).pwr = s.pwr := rfl
@[simp] theorem modTime_lanes (s : State) (f : TimeS → TimeS) : (s.modTime f).lanes = s.lanes := rfl
@[simp] theorem modTime_hosts (s : State) (f : TimeS → TimeS) : (s.modTime f).hosts = s.hosts := rfl
@[simp] theorem modTime_pgs (s : State) (f : TimeS → TimeS) : (s.modTime f).pgs = s.pgs := rfl
@[simp] theorem modTime_ce (s : State) (f : TimeS → TimeS) : (s.modTime f).ce = s.ce := rfl
@[simp] theorem modTime_ring (s : State) (f : TimeS → TimeS) : (s.modTime f).ring = s.ring := rfl
@[simp] theorem modTime_sec (s : State) (f : TimeS → TimeS) : (s.modTime f).sec = s.sec := rfl
@[simp] theorem modTime_bist (s : State) (f : TimeS → TimeS) : (s.modTime f).bist = s.bist := rfl
@[simp] theorem modTime_rd (s : State) (f : TimeS → TimeS) (k' : Key) : (s.modTime f).rd k' = s.rd k' := rfl
@[simp] theorem modTime_storeOk (s : State) (f : TimeS → TimeS) : (s.modTime f).storeOk = s.storeOk := rfl
@[simp] theorem modMgmt_pending (s : State) (f : MgmtS → MgmtS) : (s.modMgmt f).pending = s.pending := rfl
@[simp] theorem modMgmt_now (s : State) (f : MgmtS → MgmtS) : (s.modMgmt f).now = s.now := rfl
@[simp] theorem modMgmt_free (s : State) (f : MgmtS → MgmtS) : (s.modMgmt f).free = s.free := rfl
@[simp] theorem modMgmt_store (s : State) (f : MgmtS → MgmtS) : (s.modMgmt f).store = s.store := rfl
@[simp] theorem modMgmt_od (s : State) (f : MgmtS → MgmtS) : (s.modMgmt f).od = s.od := rfl
@[simp] theorem modMgmt_clk (s : State) (f : MgmtS → MgmtS) : (s.modMgmt f).clk = s.clk := rfl
@[simp] theorem modMgmt_time (s : State) (f : MgmtS → MgmtS) : (s.modMgmt f).time = s.time := rfl
@[simp] theorem modMgmt_pwr (s : State) (f : MgmtS → MgmtS) : (s.modMgmt f).pwr = s.pwr := rfl
@[simp] theorem modMgmt_lanes (s : State) (f : MgmtS → MgmtS) : (s.modMgmt f).lanes = s.lanes := rfl
@[simp] theorem modMgmt_hosts (s : State) (f : MgmtS → MgmtS) : (s.modMgmt f).hosts = s.hosts := rfl
@[simp] theorem modMgmt_pgs (s : State) (f : MgmtS → MgmtS) : (s.modMgmt f).pgs = s.pgs := rfl
@[simp] theorem modMgmt_ce (s : State) (f : MgmtS → MgmtS) : (s.modMgmt f).ce = s.ce := rfl
@[simp] theorem modMgmt_ring (s : State) (f : MgmtS → MgmtS) : (s.modMgmt f).ring = s.ring := rfl
@[simp] theorem modMgmt_sec (s : State) (f : MgmtS → MgmtS) : (s.modMgmt f).sec = s.sec := rfl
@[simp] theorem modMgmt_bist (s : State) (f : MgmtS → MgmtS) : (s.modMgmt f).bist = s.bist := rfl
@[simp] theorem modMgmt_rd (s : State) (f : MgmtS → MgmtS) (k' : Key) : (s.modMgmt f).rd k' = s.rd k' := rfl
@[simp] theorem modMgmt_storeOk (s : State) (f : MgmtS → MgmtS) : (s.modMgmt f).storeOk = s.storeOk := rfl
@[simp] theorem modPwr_pending (s : State) (f : PwrS → PwrS) : (s.modPwr f).pending = s.pending := rfl
@[simp] theorem modPwr_now (s : State) (f : PwrS → PwrS) : (s.modPwr f).now = s.now := rfl
@[simp] theorem modPwr_free (s : State) (f : PwrS → PwrS) : (s.modPwr f).free = s.free := rfl
@[simp] theorem modPwr_store (s : State) (f : PwrS → PwrS) : (s.modPwr f).store = s.store := rfl
@[simp] theorem modPwr_od (s : State) (f : PwrS → PwrS) : (s.modPwr f).od = s.od := rfl
@[simp] theorem modPwr_clk (s : State) (f : PwrS → PwrS) : (s.modPwr f).clk = s.clk := rfl
@[simp] theorem modPwr_time (s : State) (f : PwrS → PwrS) : (s.modPwr f).time = s.time := rfl
@[simp] theorem modPwr_mgmt (s : State) (f : PwrS → PwrS) : (s.modPwr f).mgmt = s.mgmt := rfl
@[simp] theorem modPwr_lanes (s : State) (f : PwrS → PwrS) : (s.modPwr f).lanes = s.lanes := rfl
@[simp] theorem modPwr_hosts (s : State) (f : PwrS → PwrS) : (s.modPwr f).hosts = s.hosts := rfl
@[simp] theorem modPwr_pgs (s : State) (f : PwrS → PwrS) : (s.modPwr f).pgs = s.pgs := rfl
@[simp] theorem modPwr_ce (s : State) (f : PwrS → PwrS) : (s.modPwr f).ce = s.ce := rfl
@[simp] theorem modPwr_ring (s : State) (f : PwrS → PwrS) : (s.modPwr f).ring = s.ring := rfl
@[simp] theorem modPwr_sec (s : State) (f : PwrS → PwrS) : (s.modPwr f).sec = s.sec := rfl
@[simp] theorem modPwr_bist (s : State) (f : PwrS → PwrS) : (s.modPwr f).bist = s.bist := rfl
@[simp] theorem modPwr_rd (s : State) (f : PwrS → PwrS) (k' : Key) : (s.modPwr f).rd k' = s.rd k' := rfl
@[simp] theorem modPwr_storeOk (s : State) (f : PwrS → PwrS) : (s.modPwr f).storeOk = s.storeOk := rfl
@[simp] theorem modUnit_pending (s : State) (u : Fin 22) (f : PwrUnit → PwrUnit) : (s.modUnit u f).pending = s.pending := rfl
@[simp] theorem modUnit_now (s : State) (u : Fin 22) (f : PwrUnit → PwrUnit) : (s.modUnit u f).now = s.now := rfl
@[simp] theorem modUnit_free (s : State) (u : Fin 22) (f : PwrUnit → PwrUnit) : (s.modUnit u f).free = s.free := rfl
@[simp] theorem modUnit_store (s : State) (u : Fin 22) (f : PwrUnit → PwrUnit) : (s.modUnit u f).store = s.store := rfl
@[simp] theorem modUnit_od (s : State) (u : Fin 22) (f : PwrUnit → PwrUnit) : (s.modUnit u f).od = s.od := rfl
@[simp] theorem modUnit_clk (s : State) (u : Fin 22) (f : PwrUnit → PwrUnit) : (s.modUnit u f).clk = s.clk := rfl
@[simp] theorem modUnit_time (s : State) (u : Fin 22) (f : PwrUnit → PwrUnit) : (s.modUnit u f).time = s.time := rfl
@[simp] theorem modUnit_mgmt (s : State) (u : Fin 22) (f : PwrUnit → PwrUnit) : (s.modUnit u f).mgmt = s.mgmt := rfl
@[simp] theorem modUnit_lanes (s : State) (u : Fin 22) (f : PwrUnit → PwrUnit) : (s.modUnit u f).lanes = s.lanes := rfl
@[simp] theorem modUnit_hosts (s : State) (u : Fin 22) (f : PwrUnit → PwrUnit) : (s.modUnit u f).hosts = s.hosts := rfl
@[simp] theorem modUnit_pgs (s : State) (u : Fin 22) (f : PwrUnit → PwrUnit) : (s.modUnit u f).pgs = s.pgs := rfl
@[simp] theorem modUnit_ce (s : State) (u : Fin 22) (f : PwrUnit → PwrUnit) : (s.modUnit u f).ce = s.ce := rfl
@[simp] theorem modUnit_ring (s : State) (u : Fin 22) (f : PwrUnit → PwrUnit) : (s.modUnit u f).ring = s.ring := rfl
@[simp] theorem modUnit_sec (s : State) (u : Fin 22) (f : PwrUnit → PwrUnit) : (s.modUnit u f).sec = s.sec := rfl
@[simp] theorem modUnit_bist (s : State) (u : Fin 22) (f : PwrUnit → PwrUnit) : (s.modUnit u f).bist = s.bist := rfl
@[simp] theorem modUnit_rd (s : State) (u : Fin 22) (f : PwrUnit → PwrUnit) (k' : Key) : (s.modUnit u f).rd k' = s.rd k' := rfl
@[simp] theorem modUnit_storeOk (s : State) (u : Fin 22) (f : PwrUnit → PwrUnit) : (s.modUnit u f).storeOk = s.storeOk := rfl
@[simp] theorem modLane_pending (s : State) (n : Fin 16) (f : LaneS → LaneS) : (s.modLane n f).pending = s.pending := rfl
@[simp] theorem modLane_now (s : State) (n : Fin 16) (f : LaneS → LaneS) : (s.modLane n f).now = s.now := rfl
@[simp] theorem modLane_free (s : State) (n : Fin 16) (f : LaneS → LaneS) : (s.modLane n f).free = s.free := rfl
@[simp] theorem modLane_store (s : State) (n : Fin 16) (f : LaneS → LaneS) : (s.modLane n f).store = s.store := rfl
@[simp] theorem modLane_od (s : State) (n : Fin 16) (f : LaneS → LaneS) : (s.modLane n f).od = s.od := rfl
@[simp] theorem modLane_clk (s : State) (n : Fin 16) (f : LaneS → LaneS) : (s.modLane n f).clk = s.clk := rfl
@[simp] theorem modLane_time (s : State) (n : Fin 16) (f : LaneS → LaneS) : (s.modLane n f).time = s.time := rfl
@[simp] theorem modLane_mgmt (s : State) (n : Fin 16) (f : LaneS → LaneS) : (s.modLane n f).mgmt = s.mgmt := rfl
@[simp] theorem modLane_pwr (s : State) (n : Fin 16) (f : LaneS → LaneS) : (s.modLane n f).pwr = s.pwr := rfl
@[simp] theorem modLane_hosts (s : State) (n : Fin 16) (f : LaneS → LaneS) : (s.modLane n f).hosts = s.hosts := rfl
@[simp] theorem modLane_pgs (s : State) (n : Fin 16) (f : LaneS → LaneS) : (s.modLane n f).pgs = s.pgs := rfl
@[simp] theorem modLane_ce (s : State) (n : Fin 16) (f : LaneS → LaneS) : (s.modLane n f).ce = s.ce := rfl
@[simp] theorem modLane_ring (s : State) (n : Fin 16) (f : LaneS → LaneS) : (s.modLane n f).ring = s.ring := rfl
@[simp] theorem modLane_sec (s : State) (n : Fin 16) (f : LaneS → LaneS) : (s.modLane n f).sec = s.sec := rfl
@[simp] theorem modLane_bist (s : State) (n : Fin 16) (f : LaneS → LaneS) : (s.modLane n f).bist = s.bist := rfl
@[simp] theorem modLane_rd (s : State) (n : Fin 16) (f : LaneS → LaneS) (k' : Key) : (s.modLane n f).rd k' = s.rd k' := rfl
@[simp] theorem modLane_storeOk (s : State) (n : Fin 16) (f : LaneS → LaneS) : (s.modLane n f).storeOk = s.storeOk := rfl
@[simp] theorem modHost_pending (s : State) (m : Fin 32) (f : HostS → HostS) : (s.modHost m f).pending = s.pending := rfl
@[simp] theorem modHost_now (s : State) (m : Fin 32) (f : HostS → HostS) : (s.modHost m f).now = s.now := rfl
@[simp] theorem modHost_free (s : State) (m : Fin 32) (f : HostS → HostS) : (s.modHost m f).free = s.free := rfl
@[simp] theorem modHost_store (s : State) (m : Fin 32) (f : HostS → HostS) : (s.modHost m f).store = s.store := rfl
@[simp] theorem modHost_od (s : State) (m : Fin 32) (f : HostS → HostS) : (s.modHost m f).od = s.od := rfl
@[simp] theorem modHost_clk (s : State) (m : Fin 32) (f : HostS → HostS) : (s.modHost m f).clk = s.clk := rfl
@[simp] theorem modHost_time (s : State) (m : Fin 32) (f : HostS → HostS) : (s.modHost m f).time = s.time := rfl
@[simp] theorem modHost_mgmt (s : State) (m : Fin 32) (f : HostS → HostS) : (s.modHost m f).mgmt = s.mgmt := rfl
@[simp] theorem modHost_pwr (s : State) (m : Fin 32) (f : HostS → HostS) : (s.modHost m f).pwr = s.pwr := rfl
@[simp] theorem modHost_lanes (s : State) (m : Fin 32) (f : HostS → HostS) : (s.modHost m f).lanes = s.lanes := rfl
@[simp] theorem modHost_pgs (s : State) (m : Fin 32) (f : HostS → HostS) : (s.modHost m f).pgs = s.pgs := rfl
@[simp] theorem modHost_ce (s : State) (m : Fin 32) (f : HostS → HostS) : (s.modHost m f).ce = s.ce := rfl
@[simp] theorem modHost_ring (s : State) (m : Fin 32) (f : HostS → HostS) : (s.modHost m f).ring = s.ring := rfl
@[simp] theorem modHost_sec (s : State) (m : Fin 32) (f : HostS → HostS) : (s.modHost m f).sec = s.sec := rfl
@[simp] theorem modHost_bist (s : State) (m : Fin 32) (f : HostS → HostS) : (s.modHost m f).bist = s.bist := rfl
@[simp] theorem modHost_rd (s : State) (m : Fin 32) (f : HostS → HostS) (k' : Key) : (s.modHost m f).rd k' = s.rd k' := rfl
@[simp] theorem modHost_storeOk (s : State) (m : Fin 32) (f : HostS → HostS) : (s.modHost m f).storeOk = s.storeOk := rfl
@[simp] theorem modPg_pending (s : State) (g : Fin 4) (f : PgS → PgS) : (s.modPg g f).pending = s.pending := rfl
@[simp] theorem modPg_now (s : State) (g : Fin 4) (f : PgS → PgS) : (s.modPg g f).now = s.now := rfl
@[simp] theorem modPg_free (s : State) (g : Fin 4) (f : PgS → PgS) : (s.modPg g f).free = s.free := rfl
@[simp] theorem modPg_store (s : State) (g : Fin 4) (f : PgS → PgS) : (s.modPg g f).store = s.store := rfl
@[simp] theorem modPg_od (s : State) (g : Fin 4) (f : PgS → PgS) : (s.modPg g f).od = s.od := rfl
@[simp] theorem modPg_clk (s : State) (g : Fin 4) (f : PgS → PgS) : (s.modPg g f).clk = s.clk := rfl
@[simp] theorem modPg_time (s : State) (g : Fin 4) (f : PgS → PgS) : (s.modPg g f).time = s.time := rfl
@[simp] theorem modPg_mgmt (s : State) (g : Fin 4) (f : PgS → PgS) : (s.modPg g f).mgmt = s.mgmt := rfl
@[simp] theorem modPg_pwr (s : State) (g : Fin 4) (f : PgS → PgS) : (s.modPg g f).pwr = s.pwr := rfl
@[simp] theorem modPg_lanes (s : State) (g : Fin 4) (f : PgS → PgS) : (s.modPg g f).lanes = s.lanes := rfl
@[simp] theorem modPg_hosts (s : State) (g : Fin 4) (f : PgS → PgS) : (s.modPg g f).hosts = s.hosts := rfl
@[simp] theorem modPg_ce (s : State) (g : Fin 4) (f : PgS → PgS) : (s.modPg g f).ce = s.ce := rfl
@[simp] theorem modPg_ring (s : State) (g : Fin 4) (f : PgS → PgS) : (s.modPg g f).ring = s.ring := rfl
@[simp] theorem modPg_sec (s : State) (g : Fin 4) (f : PgS → PgS) : (s.modPg g f).sec = s.sec := rfl
@[simp] theorem modPg_bist (s : State) (g : Fin 4) (f : PgS → PgS) : (s.modPg g f).bist = s.bist := rfl
@[simp] theorem modPg_rd (s : State) (g : Fin 4) (f : PgS → PgS) (k' : Key) : (s.modPg g f).rd k' = s.rd k' := rfl
@[simp] theorem modPg_storeOk (s : State) (g : Fin 4) (f : PgS → PgS) : (s.modPg g f).storeOk = s.storeOk := rfl
@[simp] theorem modCe_pending (s : State) (f : CeS → CeS) : (s.modCe f).pending = s.pending := rfl
@[simp] theorem modCe_now (s : State) (f : CeS → CeS) : (s.modCe f).now = s.now := rfl
@[simp] theorem modCe_free (s : State) (f : CeS → CeS) : (s.modCe f).free = s.free := rfl
@[simp] theorem modCe_store (s : State) (f : CeS → CeS) : (s.modCe f).store = s.store := rfl
@[simp] theorem modCe_od (s : State) (f : CeS → CeS) : (s.modCe f).od = s.od := rfl
@[simp] theorem modCe_clk (s : State) (f : CeS → CeS) : (s.modCe f).clk = s.clk := rfl
@[simp] theorem modCe_time (s : State) (f : CeS → CeS) : (s.modCe f).time = s.time := rfl
@[simp] theorem modCe_mgmt (s : State) (f : CeS → CeS) : (s.modCe f).mgmt = s.mgmt := rfl
@[simp] theorem modCe_pwr (s : State) (f : CeS → CeS) : (s.modCe f).pwr = s.pwr := rfl
@[simp] theorem modCe_lanes (s : State) (f : CeS → CeS) : (s.modCe f).lanes = s.lanes := rfl
@[simp] theorem modCe_hosts (s : State) (f : CeS → CeS) : (s.modCe f).hosts = s.hosts := rfl
@[simp] theorem modCe_pgs (s : State) (f : CeS → CeS) : (s.modCe f).pgs = s.pgs := rfl
@[simp] theorem modCe_ring (s : State) (f : CeS → CeS) : (s.modCe f).ring = s.ring := rfl
@[simp] theorem modCe_sec (s : State) (f : CeS → CeS) : (s.modCe f).sec = s.sec := rfl
@[simp] theorem modCe_bist (s : State) (f : CeS → CeS) : (s.modCe f).bist = s.bist := rfl
@[simp] theorem modCe_rd (s : State) (f : CeS → CeS) (k' : Key) : (s.modCe f).rd k' = s.rd k' := rfl
@[simp] theorem modCe_storeOk (s : State) (f : CeS → CeS) : (s.modCe f).storeOk = s.storeOk := rfl
@[simp] theorem modRing_pending (s : State) (f : RingS → RingS) : (s.modRing f).pending = s.pending := rfl
@[simp] theorem modRing_now (s : State) (f : RingS → RingS) : (s.modRing f).now = s.now := rfl
@[simp] theorem modRing_free (s : State) (f : RingS → RingS) : (s.modRing f).free = s.free := rfl
@[simp] theorem modRing_store (s : State) (f : RingS → RingS) : (s.modRing f).store = s.store := rfl
@[simp] theorem modRing_od (s : State) (f : RingS → RingS) : (s.modRing f).od = s.od := rfl
@[simp] theorem modRing_clk (s : State) (f : RingS → RingS) : (s.modRing f).clk = s.clk := rfl
@[simp] theorem modRing_time (s : State) (f : RingS → RingS) : (s.modRing f).time = s.time := rfl
@[simp] theorem modRing_mgmt (s : State) (f : RingS → RingS) : (s.modRing f).mgmt = s.mgmt := rfl
@[simp] theorem modRing_pwr (s : State) (f : RingS → RingS) : (s.modRing f).pwr = s.pwr := rfl
@[simp] theorem modRing_lanes (s : State) (f : RingS → RingS) : (s.modRing f).lanes = s.lanes := rfl
@[simp] theorem modRing_hosts (s : State) (f : RingS → RingS) : (s.modRing f).hosts = s.hosts := rfl
@[simp] theorem modRing_pgs (s : State) (f : RingS → RingS) : (s.modRing f).pgs = s.pgs := rfl
@[simp] theorem modRing_ce (s : State) (f : RingS → RingS) : (s.modRing f).ce = s.ce := rfl
@[simp] theorem modRing_sec (s : State) (f : RingS → RingS) : (s.modRing f).sec = s.sec := rfl
@[simp] theorem modRing_bist (s : State) (f : RingS → RingS) : (s.modRing f).bist = s.bist := rfl
@[simp] theorem modRing_rd (s : State) (f : RingS → RingS) (k' : Key) : (s.modRing f).rd k' = s.rd k' := rfl
@[simp] theorem modRing_storeOk (s : State) (f : RingS → RingS) : (s.modRing f).storeOk = s.storeOk := rfl
@[simp] theorem modPort_pending (s : State) (p : Fin 2) (f : PortS → PortS) : (s.modPort p f).pending = s.pending := rfl
@[simp] theorem modPort_now (s : State) (p : Fin 2) (f : PortS → PortS) : (s.modPort p f).now = s.now := rfl
@[simp] theorem modPort_free (s : State) (p : Fin 2) (f : PortS → PortS) : (s.modPort p f).free = s.free := rfl
@[simp] theorem modPort_store (s : State) (p : Fin 2) (f : PortS → PortS) : (s.modPort p f).store = s.store := rfl
@[simp] theorem modPort_od (s : State) (p : Fin 2) (f : PortS → PortS) : (s.modPort p f).od = s.od := rfl
@[simp] theorem modPort_clk (s : State) (p : Fin 2) (f : PortS → PortS) : (s.modPort p f).clk = s.clk := rfl
@[simp] theorem modPort_time (s : State) (p : Fin 2) (f : PortS → PortS) : (s.modPort p f).time = s.time := rfl
@[simp] theorem modPort_mgmt (s : State) (p : Fin 2) (f : PortS → PortS) : (s.modPort p f).mgmt = s.mgmt := rfl
@[simp] theorem modPort_pwr (s : State) (p : Fin 2) (f : PortS → PortS) : (s.modPort p f).pwr = s.pwr := rfl
@[simp] theorem modPort_lanes (s : State) (p : Fin 2) (f : PortS → PortS) : (s.modPort p f).lanes = s.lanes := rfl
@[simp] theorem modPort_hosts (s : State) (p : Fin 2) (f : PortS → PortS) : (s.modPort p f).hosts = s.hosts := rfl
@[simp] theorem modPort_pgs (s : State) (p : Fin 2) (f : PortS → PortS) : (s.modPort p f).pgs = s.pgs := rfl
@[simp] theorem modPort_ce (s : State) (p : Fin 2) (f : PortS → PortS) : (s.modPort p f).ce = s.ce := rfl
@[simp] theorem modPort_sec (s : State) (p : Fin 2) (f : PortS → PortS) : (s.modPort p f).sec = s.sec := rfl
@[simp] theorem modPort_bist (s : State) (p : Fin 2) (f : PortS → PortS) : (s.modPort p f).bist = s.bist := rfl
@[simp] theorem modPort_rd (s : State) (p : Fin 2) (f : PortS → PortS) (k' : Key) : (s.modPort p f).rd k' = s.rd k' := rfl
@[simp] theorem modPort_storeOk (s : State) (p : Fin 2) (f : PortS → PortS) : (s.modPort p f).storeOk = s.storeOk := rfl
@[simp] theorem modSec_pending (s : State) (f : SecS → SecS) : (s.modSec f).pending = s.pending := rfl
@[simp] theorem modSec_now (s : State) (f : SecS → SecS) : (s.modSec f).now = s.now := rfl
@[simp] theorem modSec_free (s : State) (f : SecS → SecS) : (s.modSec f).free = s.free := rfl
@[simp] theorem modSec_store (s : State) (f : SecS → SecS) : (s.modSec f).store = s.store := rfl
@[simp] theorem modSec_od (s : State) (f : SecS → SecS) : (s.modSec f).od = s.od := rfl
@[simp] theorem modSec_clk (s : State) (f : SecS → SecS) : (s.modSec f).clk = s.clk := rfl
@[simp] theorem modSec_time (s : State) (f : SecS → SecS) : (s.modSec f).time = s.time := rfl
@[simp] theorem modSec_mgmt (s : State) (f : SecS → SecS) : (s.modSec f).mgmt = s.mgmt := rfl
@[simp] theorem modSec_pwr (s : State) (f : SecS → SecS) : (s.modSec f).pwr = s.pwr := rfl
@[simp] theorem modSec_lanes (s : State) (f : SecS → SecS) : (s.modSec f).lanes = s.lanes := rfl
@[simp] theorem modSec_hosts (s : State) (f : SecS → SecS) : (s.modSec f).hosts = s.hosts := rfl
@[simp] theorem modSec_pgs (s : State) (f : SecS → SecS) : (s.modSec f).pgs = s.pgs := rfl
@[simp] theorem modSec_ce (s : State) (f : SecS → SecS) : (s.modSec f).ce = s.ce := rfl
@[simp] theorem modSec_ring (s : State) (f : SecS → SecS) : (s.modSec f).ring = s.ring := rfl
@[simp] theorem modSec_bist (s : State) (f : SecS → SecS) : (s.modSec f).bist = s.bist := rfl
@[simp] theorem modSec_rd (s : State) (f : SecS → SecS) (k' : Key) : (s.modSec f).rd k' = s.rd k' := rfl
@[simp] theorem modSec_storeOk (s : State) (f : SecS → SecS) : (s.modSec f).storeOk = s.storeOk := rfl
@[simp] theorem modSlot_pending (s : State) (x : Fin 2) (f : Slot → Slot) : (s.modSlot x f).pending = s.pending := by unfold modSlot; dsimp only; split <;> rfl
@[simp] theorem modSlot_now (s : State) (x : Fin 2) (f : Slot → Slot) : (s.modSlot x f).now = s.now := by unfold modSlot; dsimp only; split <;> rfl
@[simp] theorem modSlot_free (s : State) (x : Fin 2) (f : Slot → Slot) : (s.modSlot x f).free = s.free := by unfold modSlot; dsimp only; split <;> rfl
@[simp] theorem modSlot_store (s : State) (x : Fin 2) (f : Slot → Slot) : (s.modSlot x f).store = s.store := by unfold modSlot; dsimp only; split <;> rfl
@[simp] theorem modSlot_od (s : State) (x : Fin 2) (f : Slot → Slot) : (s.modSlot x f).od = s.od := by unfold modSlot; dsimp only; split <;> rfl
@[simp] theorem modSlot_clk (s : State) (x : Fin 2) (f : Slot → Slot) : (s.modSlot x f).clk = s.clk := by unfold modSlot; dsimp only; split <;> rfl
@[simp] theorem modSlot_time (s : State) (x : Fin 2) (f : Slot → Slot) : (s.modSlot x f).time = s.time := by unfold modSlot; dsimp only; split <;> rfl
@[simp] theorem modSlot_mgmt (s : State) (x : Fin 2) (f : Slot → Slot) : (s.modSlot x f).mgmt = s.mgmt := by unfold modSlot; dsimp only; split <;> rfl
@[simp] theorem modSlot_pwr (s : State) (x : Fin 2) (f : Slot → Slot) : (s.modSlot x f).pwr = s.pwr := by unfold modSlot; dsimp only; split <;> rfl
@[simp] theorem modSlot_lanes (s : State) (x : Fin 2) (f : Slot → Slot) : (s.modSlot x f).lanes = s.lanes := by unfold modSlot; dsimp only; split <;> rfl
@[simp] theorem modSlot_hosts (s : State) (x : Fin 2) (f : Slot → Slot) : (s.modSlot x f).hosts = s.hosts := by unfold modSlot; dsimp only; split <;> rfl
@[simp] theorem modSlot_pgs (s : State) (x : Fin 2) (f : Slot → Slot) : (s.modSlot x f).pgs = s.pgs := by unfold modSlot; dsimp only; split <;> rfl
@[simp] theorem modSlot_ce (s : State) (x : Fin 2) (f : Slot → Slot) : (s.modSlot x f).ce = s.ce := by unfold modSlot; dsimp only; split <;> rfl
@[simp] theorem modSlot_ring (s : State) (x : Fin 2) (f : Slot → Slot) : (s.modSlot x f).ring = s.ring := by unfold modSlot; dsimp only; split <;> rfl
@[simp] theorem modSlot_bist (s : State) (x : Fin 2) (f : Slot → Slot) : (s.modSlot x f).bist = s.bist := by unfold modSlot; dsimp only; split <;> rfl
@[simp] theorem modSlot_rd (s : State) (x : Fin 2) (f : Slot → Slot) (k' : Key) : (s.modSlot x f).rd k' = s.rd k' := by unfold modSlot; dsimp only; split <;> rfl
@[simp] theorem modSlot_storeOk (s : State) (x : Fin 2) (f : Slot → Slot) : (s.modSlot x f).storeOk = s.storeOk := by unfold modSlot; dsimp only; split <;> rfl
@[simp] theorem modBist_pending (s : State) (f : BistS → BistS) : (s.modBist f).pending = s.pending := rfl
@[simp] theorem modBist_now (s : State) (f : BistS → BistS) : (s.modBist f).now = s.now := rfl
@[simp] theorem modBist_free (s : State) (f : BistS → BistS) : (s.modBist f).free = s.free := rfl
@[simp] theorem modBist_store (s : State) (f : BistS → BistS) : (s.modBist f).store = s.store := rfl
@[simp] theorem modBist_od (s : State) (f : BistS → BistS) : (s.modBist f).od = s.od := rfl
@[simp] theorem modBist_clk (s : State) (f : BistS → BistS) : (s.modBist f).clk = s.clk := rfl
@[simp] theorem modBist_time (s : State) (f : BistS → BistS) : (s.modBist f).time = s.time := rfl
@[simp] theorem modBist_mgmt (s : State) (f : BistS → BistS) : (s.modBist f).mgmt = s.mgmt := rfl
@[simp] theorem modBist_pwr (s : State) (f : BistS → BistS) : (s.modBist f).pwr = s.pwr := rfl
@[simp] theorem modBist_lanes (s : State) (f : BistS → BistS) : (s.modBist f).lanes = s.lanes := rfl
@[simp] theorem modBist_hosts (s : State) (f : BistS → BistS) : (s.modBist f).hosts = s.hosts := rfl
@[simp] theorem modBist_pgs (s : State) (f : BistS → BistS) : (s.modBist f).pgs = s.pgs := rfl
@[simp] theorem modBist_ce (s : State) (f : BistS → BistS) : (s.modBist f).ce = s.ce := rfl
@[simp] theorem modBist_ring (s : State) (f : BistS → BistS) : (s.modBist f).ring = s.ring := rfl
@[simp] theorem modBist_sec (s : State) (f : BistS → BistS) : (s.modBist f).sec = s.sec := rfl
@[simp] theorem modBist_rd (s : State) (f : BistS → BistS) (k' : Key) : (s.modBist f).rd k' = s.rd k' := rfl
@[simp] theorem modBist_storeOk (s : State) (f : BistS → BistS) : (s.modBist f).storeOk = s.storeOk := rfl
@[simp] theorem modCo_pending (s : State) (n : Fin 16) (f : CoS → CoS) : (s.modCo n f).pending = s.pending := rfl
@[simp] theorem modCo_now (s : State) (n : Fin 16) (f : CoS → CoS) : (s.modCo n f).now = s.now := rfl
@[simp] theorem modCo_free (s : State) (n : Fin 16) (f : CoS → CoS) : (s.modCo n f).free = s.free := rfl
@[simp] theorem modCo_store (s : State) (n : Fin 16) (f : CoS → CoS) : (s.modCo n f).store = s.store := rfl
@[simp] theorem modCo_od (s : State) (n : Fin 16) (f : CoS → CoS) : (s.modCo n f).od = s.od := rfl
@[simp] theorem modCo_clk (s : State) (n : Fin 16) (f : CoS → CoS) : (s.modCo n f).clk = s.clk := rfl
@[simp] theorem modCo_time (s : State) (n : Fin 16) (f : CoS → CoS) : (s.modCo n f).time = s.time := rfl
@[simp] theorem modCo_mgmt (s : State) (n : Fin 16) (f : CoS → CoS) : (s.modCo n f).mgmt = s.mgmt := rfl
@[simp] theorem modCo_pwr (s : State) (n : Fin 16) (f : CoS → CoS) : (s.modCo n f).pwr = s.pwr := rfl
@[simp] theorem modCo_hosts (s : State) (n : Fin 16) (f : CoS → CoS) : (s.modCo n f).hosts = s.hosts := rfl
@[simp] theorem modCo_pgs (s : State) (n : Fin 16) (f : CoS → CoS) : (s.modCo n f).pgs = s.pgs := rfl
@[simp] theorem modCo_ce (s : State) (n : Fin 16) (f : CoS → CoS) : (s.modCo n f).ce = s.ce := rfl
@[simp] theorem modCo_ring (s : State) (n : Fin 16) (f : CoS → CoS) : (s.modCo n f).ring = s.ring := rfl
@[simp] theorem modCo_sec (s : State) (n : Fin 16) (f : CoS → CoS) : (s.modCo n f).sec = s.sec := rfl
@[simp] theorem modCo_bist (s : State) (n : Fin 16) (f : CoS → CoS) : (s.modCo n f).bist = s.bist := rfl
@[simp] theorem modCo_rd (s : State) (n : Fin 16) (f : CoS → CoS) (k' : Key) : (s.modCo n f).rd k' = s.rd k' := rfl
@[simp] theorem modCo_storeOk (s : State) (n : Fin 16) (f : CoS → CoS) : (s.modCo n f).storeOk = s.storeOk := rfl
@[simp] theorem modXfer_pending (s : State) (n : Fin 16) (f : XferS → XferS) : (s.modXfer n f).pending = s.pending := rfl
@[simp] theorem modXfer_now (s : State) (n : Fin 16) (f : XferS → XferS) : (s.modXfer n f).now = s.now := rfl
@[simp] theorem modXfer_free (s : State) (n : Fin 16) (f : XferS → XferS) : (s.modXfer n f).free = s.free := rfl
@[simp] theorem modXfer_store (s : State) (n : Fin 16) (f : XferS → XferS) : (s.modXfer n f).store = s.store := rfl
@[simp] theorem modXfer_od (s : State) (n : Fin 16) (f : XferS → XferS) : (s.modXfer n f).od = s.od := rfl
@[simp] theorem modXfer_clk (s : State) (n : Fin 16) (f : XferS → XferS) : (s.modXfer n f).clk = s.clk := rfl
@[simp] theorem modXfer_time (s : State) (n : Fin 16) (f : XferS → XferS) : (s.modXfer n f).time = s.time := rfl
@[simp] theorem modXfer_mgmt (s : State) (n : Fin 16) (f : XferS → XferS) : (s.modXfer n f).mgmt = s.mgmt := rfl
@[simp] theorem modXfer_pwr (s : State) (n : Fin 16) (f : XferS → XferS) : (s.modXfer n f).pwr = s.pwr := rfl
@[simp] theorem modXfer_hosts (s : State) (n : Fin 16) (f : XferS → XferS) : (s.modXfer n f).hosts = s.hosts := rfl
@[simp] theorem modXfer_pgs (s : State) (n : Fin 16) (f : XferS → XferS) : (s.modXfer n f).pgs = s.pgs := rfl
@[simp] theorem modXfer_ce (s : State) (n : Fin 16) (f : XferS → XferS) : (s.modXfer n f).ce = s.ce := rfl
@[simp] theorem modXfer_ring (s : State) (n : Fin 16) (f : XferS → XferS) : (s.modXfer n f).ring = s.ring := rfl
@[simp] theorem modXfer_sec (s : State) (n : Fin 16) (f : XferS → XferS) : (s.modXfer n f).sec = s.sec := rfl
@[simp] theorem modXfer_bist (s : State) (n : Fin 16) (f : XferS → XferS) : (s.modXfer n f).bist = s.bist := rfl
@[simp] theorem modXfer_rd (s : State) (n : Fin 16) (f : XferS → XferS) (k' : Key) : (s.modXfer n f).rd k' = s.rd k' := rfl
@[simp] theorem modXfer_storeOk (s : State) (n : Fin 16) (f : XferS → XferS) : (s.modXfer n f).storeOk = s.storeOk := rfl
@[simp] theorem modPicot_pending (s : State) (n : Fin 16) (f : PicotS → PicotS) : (s.modPicot n f).pending = s.pending := rfl
@[simp] theorem modPicot_now (s : State) (n : Fin 16) (f : PicotS → PicotS) : (s.modPicot n f).now = s.now := rfl
@[simp] theorem modPicot_free (s : State) (n : Fin 16) (f : PicotS → PicotS) : (s.modPicot n f).free = s.free := rfl
@[simp] theorem modPicot_store (s : State) (n : Fin 16) (f : PicotS → PicotS) : (s.modPicot n f).store = s.store := rfl
@[simp] theorem modPicot_od (s : State) (n : Fin 16) (f : PicotS → PicotS) : (s.modPicot n f).od = s.od := rfl
@[simp] theorem modPicot_clk (s : State) (n : Fin 16) (f : PicotS → PicotS) : (s.modPicot n f).clk = s.clk := rfl
@[simp] theorem modPicot_time (s : State) (n : Fin 16) (f : PicotS → PicotS) : (s.modPicot n f).time = s.time := rfl
@[simp] theorem modPicot_mgmt (s : State) (n : Fin 16) (f : PicotS → PicotS) : (s.modPicot n f).mgmt = s.mgmt := rfl
@[simp] theorem modPicot_pwr (s : State) (n : Fin 16) (f : PicotS → PicotS) : (s.modPicot n f).pwr = s.pwr := rfl
@[simp] theorem modPicot_hosts (s : State) (n : Fin 16) (f : PicotS → PicotS) : (s.modPicot n f).hosts = s.hosts := rfl
@[simp] theorem modPicot_pgs (s : State) (n : Fin 16) (f : PicotS → PicotS) : (s.modPicot n f).pgs = s.pgs := rfl
@[simp] theorem modPicot_ce (s : State) (n : Fin 16) (f : PicotS → PicotS) : (s.modPicot n f).ce = s.ce := rfl
@[simp] theorem modPicot_ring (s : State) (n : Fin 16) (f : PicotS → PicotS) : (s.modPicot n f).ring = s.ring := rfl
@[simp] theorem modPicot_sec (s : State) (n : Fin 16) (f : PicotS → PicotS) : (s.modPicot n f).sec = s.sec := rfl
@[simp] theorem modPicot_bist (s : State) (n : Fin 16) (f : PicotS → PicotS) : (s.modPicot n f).bist = s.bist := rfl
@[simp] theorem modPicot_rd (s : State) (n : Fin 16) (f : PicotS → PicotS) (k' : Key) : (s.modPicot n f).rd k' = s.rd k' := rfl
@[simp] theorem modPicot_storeOk (s : State) (n : Fin 16) (f : PicotS → PicotS) : (s.modPicot n f).storeOk = s.storeOk := rfl
@[simp] theorem modSs_pending (s : State) (n : Fin 16) (f : SsS → SsS) : (s.modSs n f).pending = s.pending := rfl
@[simp] theorem modSs_now (s : State) (n : Fin 16) (f : SsS → SsS) : (s.modSs n f).now = s.now := rfl
@[simp] theorem modSs_free (s : State) (n : Fin 16) (f : SsS → SsS) : (s.modSs n f).free = s.free := rfl
@[simp] theorem modSs_store (s : State) (n : Fin 16) (f : SsS → SsS) : (s.modSs n f).store = s.store := rfl
@[simp] theorem modSs_od (s : State) (n : Fin 16) (f : SsS → SsS) : (s.modSs n f).od = s.od := rfl
@[simp] theorem modSs_clk (s : State) (n : Fin 16) (f : SsS → SsS) : (s.modSs n f).clk = s.clk := rfl
@[simp] theorem modSs_time (s : State) (n : Fin 16) (f : SsS → SsS) : (s.modSs n f).time = s.time := rfl
@[simp] theorem modSs_mgmt (s : State) (n : Fin 16) (f : SsS → SsS) : (s.modSs n f).mgmt = s.mgmt := rfl
@[simp] theorem modSs_pwr (s : State) (n : Fin 16) (f : SsS → SsS) : (s.modSs n f).pwr = s.pwr := rfl
@[simp] theorem modSs_hosts (s : State) (n : Fin 16) (f : SsS → SsS) : (s.modSs n f).hosts = s.hosts := rfl
@[simp] theorem modSs_pgs (s : State) (n : Fin 16) (f : SsS → SsS) : (s.modSs n f).pgs = s.pgs := rfl
@[simp] theorem modSs_ce (s : State) (n : Fin 16) (f : SsS → SsS) : (s.modSs n f).ce = s.ce := rfl
@[simp] theorem modSs_ring (s : State) (n : Fin 16) (f : SsS → SsS) : (s.modSs n f).ring = s.ring := rfl
@[simp] theorem modSs_sec (s : State) (n : Fin 16) (f : SsS → SsS) : (s.modSs n f).sec = s.sec := rfl
@[simp] theorem modSs_bist (s : State) (n : Fin 16) (f : SsS → SsS) : (s.modSs n f).bist = s.bist := rfl
@[simp] theorem modSs_rd (s : State) (n : Fin 16) (f : SsS → SsS) (k' : Key) : (s.modSs n f).rd k' = s.rd k' := rfl
@[simp] theorem modSs_storeOk (s : State) (n : Fin 16) (f : SsS → SsS) : (s.modSs n f).storeOk = s.storeOk := rfl
@[simp] theorem modPc_pending (s : State) (c : Fin 8) (f : PerfCnt → PerfCnt) : (s.modPc c f).pending = s.pending := rfl
@[simp] theorem modPc_now (s : State) (c : Fin 8) (f : PerfCnt → PerfCnt) : (s.modPc c f).now = s.now := rfl
@[simp] theorem modPc_free (s : State) (c : Fin 8) (f : PerfCnt → PerfCnt) : (s.modPc c f).free = s.free := rfl
@[simp] theorem modPc_store (s : State) (c : Fin 8) (f : PerfCnt → PerfCnt) : (s.modPc c f).store = s.store := rfl
@[simp] theorem modPc_od (s : State) (c : Fin 8) (f : PerfCnt → PerfCnt) : (s.modPc c f).od = s.od := rfl
@[simp] theorem modPc_clk (s : State) (c : Fin 8) (f : PerfCnt → PerfCnt) : (s.modPc c f).clk = s.clk := rfl
@[simp] theorem modPc_time (s : State) (c : Fin 8) (f : PerfCnt → PerfCnt) : (s.modPc c f).time = s.time := rfl
@[simp] theorem modPc_pwr (s : State) (c : Fin 8) (f : PerfCnt → PerfCnt) : (s.modPc c f).pwr = s.pwr := rfl
@[simp] theorem modPc_lanes (s : State) (c : Fin 8) (f : PerfCnt → PerfCnt) : (s.modPc c f).lanes = s.lanes := rfl
@[simp] theorem modPc_hosts (s : State) (c : Fin 8) (f : PerfCnt → PerfCnt) : (s.modPc c f).hosts = s.hosts := rfl
@[simp] theorem modPc_pgs (s : State) (c : Fin 8) (f : PerfCnt → PerfCnt) : (s.modPc c f).pgs = s.pgs := rfl
@[simp] theorem modPc_ce (s : State) (c : Fin 8) (f : PerfCnt → PerfCnt) : (s.modPc c f).ce = s.ce := rfl
@[simp] theorem modPc_ring (s : State) (c : Fin 8) (f : PerfCnt → PerfCnt) : (s.modPc c f).ring = s.ring := rfl
@[simp] theorem modPc_sec (s : State) (c : Fin 8) (f : PerfCnt → PerfCnt) : (s.modPc c f).sec = s.sec := rfl
@[simp] theorem modPc_bist (s : State) (c : Fin 8) (f : PerfCnt → PerfCnt) : (s.modPc c f).bist = s.bist := rfl
@[simp] theorem modPc_rd (s : State) (c : Fin 8) (f : PerfCnt → PerfCnt) (k' : Key) : (s.modPc c f).rd k' = s.rd k' := rfl
@[simp] theorem modPc_storeOk (s : State) (c : Fin 8) (f : PerfCnt → PerfCnt) : (s.modPc c f).storeOk = s.storeOk := rfl
@[simp] theorem modChain_pending (s : State) (e : Fin 64) (f : ChainS → ChainS) : (s.modChain e f).pending = s.pending := rfl
@[simp] theorem modChain_now (s : State) (e : Fin 64) (f : ChainS → ChainS) : (s.modChain e f).now = s.now := rfl
@[simp] theorem modChain_free (s : State) (e : Fin 64) (f : ChainS → ChainS) : (s.modChain e f).free = s.free := rfl
@[simp] theorem modChain_store (s : State) (e : Fin 64) (f : ChainS → ChainS) : (s.modChain e f).store = s.store := rfl
@[simp] theorem modChain_od (s : State) (e : Fin 64) (f : ChainS → ChainS) : (s.modChain e f).od = s.od := rfl
@[simp] theorem modChain_clk (s : State) (e : Fin 64) (f : ChainS → ChainS) : (s.modChain e f).clk = s.clk := rfl
@[simp] theorem modChain_time (s : State) (e : Fin 64) (f : ChainS → ChainS) : (s.modChain e f).time = s.time := rfl
@[simp] theorem modChain_mgmt (s : State) (e : Fin 64) (f : ChainS → ChainS) : (s.modChain e f).mgmt = s.mgmt := rfl
@[simp] theorem modChain_pwr (s : State) (e : Fin 64) (f : ChainS → ChainS) : (s.modChain e f).pwr = s.pwr := rfl
@[simp] theorem modChain_lanes (s : State) (e : Fin 64) (f : ChainS → ChainS) : (s.modChain e f).lanes = s.lanes := rfl
@[simp] theorem modChain_hosts (s : State) (e : Fin 64) (f : ChainS → ChainS) : (s.modChain e f).hosts = s.hosts := rfl
@[simp] theorem modChain_pgs (s : State) (e : Fin 64) (f : ChainS → ChainS) : (s.modChain e f).pgs = s.pgs := rfl
@[simp] theorem modChain_ring (s : State) (e : Fin 64) (f : ChainS → ChainS) : (s.modChain e f).ring = s.ring := rfl
@[simp] theorem modChain_sec (s : State) (e : Fin 64) (f : ChainS → ChainS) : (s.modChain e f).sec = s.sec := rfl
@[simp] theorem modChain_bist (s : State) (e : Fin 64) (f : ChainS → ChainS) : (s.modChain e f).bist = s.bist := rfl
@[simp] theorem modChain_rd (s : State) (e : Fin 64) (f : ChainS → ChainS) (k' : Key) : (s.modChain e f).rd k' = s.rd k' := rfl
@[simp] theorem modChain_storeOk (s : State) (e : Fin 64) (f : ChainS → ChainS) : (s.modChain e f).storeOk = s.storeOk := rfl
@[simp] theorem modLoop_pending (s : State) (j : Fin 64) (f : LoopS → LoopS) : (s.modLoop j f).pending = s.pending := rfl
@[simp] theorem modLoop_now (s : State) (j : Fin 64) (f : LoopS → LoopS) : (s.modLoop j f).now = s.now := rfl
@[simp] theorem modLoop_free (s : State) (j : Fin 64) (f : LoopS → LoopS) : (s.modLoop j f).free = s.free := rfl
@[simp] theorem modLoop_store (s : State) (j : Fin 64) (f : LoopS → LoopS) : (s.modLoop j f).store = s.store := rfl
@[simp] theorem modLoop_od (s : State) (j : Fin 64) (f : LoopS → LoopS) : (s.modLoop j f).od = s.od := rfl
@[simp] theorem modLoop_clk (s : State) (j : Fin 64) (f : LoopS → LoopS) : (s.modLoop j f).clk = s.clk := rfl
@[simp] theorem modLoop_time (s : State) (j : Fin 64) (f : LoopS → LoopS) : (s.modLoop j f).time = s.time := rfl
@[simp] theorem modLoop_mgmt (s : State) (j : Fin 64) (f : LoopS → LoopS) : (s.modLoop j f).mgmt = s.mgmt := rfl
@[simp] theorem modLoop_pwr (s : State) (j : Fin 64) (f : LoopS → LoopS) : (s.modLoop j f).pwr = s.pwr := rfl
@[simp] theorem modLoop_lanes (s : State) (j : Fin 64) (f : LoopS → LoopS) : (s.modLoop j f).lanes = s.lanes := rfl
@[simp] theorem modLoop_hosts (s : State) (j : Fin 64) (f : LoopS → LoopS) : (s.modLoop j f).hosts = s.hosts := rfl
@[simp] theorem modLoop_pgs (s : State) (j : Fin 64) (f : LoopS → LoopS) : (s.modLoop j f).pgs = s.pgs := rfl
@[simp] theorem modLoop_ring (s : State) (j : Fin 64) (f : LoopS → LoopS) : (s.modLoop j f).ring = s.ring := rfl
@[simp] theorem modLoop_sec (s : State) (j : Fin 64) (f : LoopS → LoopS) : (s.modLoop j f).sec = s.sec := rfl
@[simp] theorem modLoop_bist (s : State) (j : Fin 64) (f : LoopS → LoopS) : (s.modLoop j f).bist = s.bist := rfl
@[simp] theorem modLoop_rd (s : State) (j : Fin 64) (f : LoopS → LoopS) (k' : Key) : (s.modLoop j f).rd k' = s.rd k' := rfl
@[simp] theorem modLoop_storeOk (s : State) (j : Fin 64) (f : LoopS → LoopS) : (s.modLoop j f).storeOk = s.storeOk := rfl
@[simp] theorem modAux_pending (s : State) (a : Fin 48) (f : AuxS → AuxS) : (s.modAux a f).pending = s.pending := rfl
@[simp] theorem modAux_now (s : State) (a : Fin 48) (f : AuxS → AuxS) : (s.modAux a f).now = s.now := rfl
@[simp] theorem modAux_free (s : State) (a : Fin 48) (f : AuxS → AuxS) : (s.modAux a f).free = s.free := rfl
@[simp] theorem modAux_store (s : State) (a : Fin 48) (f : AuxS → AuxS) : (s.modAux a f).store = s.store := rfl
@[simp] theorem modAux_od (s : State) (a : Fin 48) (f : AuxS → AuxS) : (s.modAux a f).od = s.od := rfl
@[simp] theorem modAux_clk (s : State) (a : Fin 48) (f : AuxS → AuxS) : (s.modAux a f).clk = s.clk := rfl
@[simp] theorem modAux_time (s : State) (a : Fin 48) (f : AuxS → AuxS) : (s.modAux a f).time = s.time := rfl
@[simp] theorem modAux_mgmt (s : State) (a : Fin 48) (f : AuxS → AuxS) : (s.modAux a f).mgmt = s.mgmt := rfl
@[simp] theorem modAux_pwr (s : State) (a : Fin 48) (f : AuxS → AuxS) : (s.modAux a f).pwr = s.pwr := rfl
@[simp] theorem modAux_lanes (s : State) (a : Fin 48) (f : AuxS → AuxS) : (s.modAux a f).lanes = s.lanes := rfl
@[simp] theorem modAux_hosts (s : State) (a : Fin 48) (f : AuxS → AuxS) : (s.modAux a f).hosts = s.hosts := rfl
@[simp] theorem modAux_pgs (s : State) (a : Fin 48) (f : AuxS → AuxS) : (s.modAux a f).pgs = s.pgs := rfl
@[simp] theorem modAux_ring (s : State) (a : Fin 48) (f : AuxS → AuxS) : (s.modAux a f).ring = s.ring := rfl
@[simp] theorem modAux_sec (s : State) (a : Fin 48) (f : AuxS → AuxS) : (s.modAux a f).sec = s.sec := rfl
@[simp] theorem modAux_bist (s : State) (a : Fin 48) (f : AuxS → AuxS) : (s.modAux a f).bist = s.bist := rfl
@[simp] theorem modAux_rd (s : State) (a : Fin 48) (f : AuxS → AuxS) (k' : Key) : (s.modAux a f).rd k' = s.rd k' := rfl
@[simp] theorem modAux_storeOk (s : State) (a : Fin 48) (f : AuxS → AuxS) : (s.modAux a f).storeOk = s.storeOk := rfl
@[simp] theorem setLock_pending (s : State) (k : Fin 32) (o : Nat) : (s.setLock k o).pending = s.pending := rfl
@[simp] theorem setLock_now (s : State) (k : Fin 32) (o : Nat) : (s.setLock k o).now = s.now := rfl
@[simp] theorem setLock_free (s : State) (k : Fin 32) (o : Nat) : (s.setLock k o).free = s.free := rfl
@[simp] theorem setLock_store (s : State) (k : Fin 32) (o : Nat) : (s.setLock k o).store = s.store := rfl
@[simp] theorem setLock_od (s : State) (k : Fin 32) (o : Nat) : (s.setLock k o).od = s.od := rfl
@[simp] theorem setLock_clk (s : State) (k : Fin 32) (o : Nat) : (s.setLock k o).clk = s.clk := rfl
@[simp] theorem setLock_time (s : State) (k : Fin 32) (o : Nat) : (s.setLock k o).time = s.time := rfl
@[simp] theorem setLock_pwr (s : State) (k : Fin 32) (o : Nat) : (s.setLock k o).pwr = s.pwr := rfl
@[simp] theorem setLock_lanes (s : State) (k : Fin 32) (o : Nat) : (s.setLock k o).lanes = s.lanes := rfl
@[simp] theorem setLock_hosts (s : State) (k : Fin 32) (o : Nat) : (s.setLock k o).hosts = s.hosts := rfl
@[simp] theorem setLock_pgs (s : State) (k : Fin 32) (o : Nat) : (s.setLock k o).pgs = s.pgs := rfl
@[simp] theorem setLock_ce (s : State) (k : Fin 32) (o : Nat) : (s.setLock k o).ce = s.ce := rfl
@[simp] theorem setLock_ring (s : State) (k : Fin 32) (o : Nat) : (s.setLock k o).ring = s.ring := rfl
@[simp] theorem setLock_sec (s : State) (k : Fin 32) (o : Nat) : (s.setLock k o).sec = s.sec := rfl
@[simp] theorem setLock_bist (s : State) (k : Fin 32) (o : Nat) : (s.setLock k o).bist = s.bist := rfl
@[simp] theorem setLock_rd (s : State) (k : Fin 32) (o : Nat) (k' : Key) : (s.setLock k o).rd k' = s.rd k' := rfl
@[simp] theorem setLock_storeOk (s : State) (k : Fin 32) (o : Nat) : (s.setLock k o).storeOk = s.storeOk := rfl
@[simp] theorem defer_pending (s : State) (b : Bound) (r : Fin 18) (k : Key) (d : List Byte) : (s.defer b r k d).pending = s.pending := rfl
@[simp] theorem defer_now (s : State) (b : Bound) (r : Fin 18) (k : Key) (d : List Byte) : (s.defer b r k d).now = s.now := rfl
@[simp] theorem defer_free (s : State) (b : Bound) (r : Fin 18) (k : Key) (d : List Byte) : (s.defer b r k d).free = s.free := rfl
@[simp] theorem defer_store (s : State) (b : Bound) (r : Fin 18) (k : Key) (d : List Byte) : (s.defer b r k d).store = s.store := rfl
@[simp] theorem defer_clk (s : State) (b : Bound) (r : Fin 18) (k : Key) (d : List Byte) : (s.defer b r k d).clk = s.clk := rfl
@[simp] theorem defer_time (s : State) (b : Bound) (r : Fin 18) (k : Key) (d : List Byte) : (s.defer b r k d).time = s.time := rfl
@[simp] theorem defer_mgmt (s : State) (b : Bound) (r : Fin 18) (k : Key) (d : List Byte) : (s.defer b r k d).mgmt = s.mgmt := rfl
@[simp] theorem defer_pwr (s : State) (b : Bound) (r : Fin 18) (k : Key) (d : List Byte) : (s.defer b r k d).pwr = s.pwr := rfl
@[simp] theorem defer_lanes (s : State) (b : Bound) (r : Fin 18) (k : Key) (d : List Byte) : (s.defer b r k d).lanes = s.lanes := rfl
@[simp] theorem defer_hosts (s : State) (b : Bound) (r : Fin 18) (k : Key) (d : List Byte) : (s.defer b r k d).hosts = s.hosts := rfl
@[simp] theorem defer_pgs (s : State) (b : Bound) (r : Fin 18) (k : Key) (d : List Byte) : (s.defer b r k d).pgs = s.pgs := rfl
@[simp] theorem defer_ce (s : State) (b : Bound) (r : Fin 18) (k : Key) (d : List Byte) : (s.defer b r k d).ce = s.ce := rfl
@[simp] theorem defer_ring (s : State) (b : Bound) (r : Fin 18) (k : Key) (d : List Byte) : (s.defer b r k d).ring = s.ring := rfl
@[simp] theorem defer_sec (s : State) (b : Bound) (r : Fin 18) (k : Key) (d : List Byte) : (s.defer b r k d).sec = s.sec := rfl
@[simp] theorem defer_bist (s : State) (b : Bound) (r : Fin 18) (k : Key) (d : List Byte) : (s.defer b r k d).bist = s.bist := rfl
@[simp] theorem defer_rd (s : State) (b : Bound) (r : Fin 18) (k : Key) (d : List Byte) (k' : Key) : (s.defer b r k d).rd k' = s.rd k' := rfl
@[simp] theorem defer_storeOk (s : State) (b : Bound) (r : Fin 18) (k : Key) (d : List Byte) : (s.defer b r k d).storeOk = s.storeOk := rfl
@[simp] theorem startSave_pending (s : State) : (s.startSave).pending = s.pending := rfl
@[simp] theorem startSave_now (s : State) : (s.startSave).now = s.now := rfl
@[simp] theorem startSave_free (s : State) : (s.startSave).free = s.free := rfl
@[simp] theorem startSave_store (s : State) : (s.startSave).store = s.store := rfl
@[simp] theorem startSave_clk (s : State) : (s.startSave).clk = s.clk := rfl
@[simp] theorem startSave_time (s : State) : (s.startSave).time = s.time := rfl
@[simp] theorem startSave_mgmt (s : State) : (s.startSave).mgmt = s.mgmt := rfl
@[simp] theorem startSave_pwr (s : State) : (s.startSave).pwr = s.pwr := rfl
@[simp] theorem startSave_lanes (s : State) : (s.startSave).lanes = s.lanes := rfl
@[simp] theorem startSave_hosts (s : State) : (s.startSave).hosts = s.hosts := rfl
@[simp] theorem startSave_pgs (s : State) : (s.startSave).pgs = s.pgs := rfl
@[simp] theorem startSave_ce (s : State) : (s.startSave).ce = s.ce := rfl
@[simp] theorem startSave_ring (s : State) : (s.startSave).ring = s.ring := rfl
@[simp] theorem startSave_sec (s : State) : (s.startSave).sec = s.sec := rfl
@[simp] theorem startSave_bist (s : State) : (s.startSave).bist = s.bist := rfl
@[simp] theorem startSave_rd (s : State) (k' : Key) : (s.startSave).rd k' = s.rd k' := rfl
@[simp] theorem startSave_storeOk (s : State) : (s.startSave).storeOk = s.storeOk := rfl

end State

end Sys2Proof.Machine
end

