-- ==== Sys2Proof/Laws/Touch.lean ====
section
/-!
SUPPORT. What a change touches: the relation `Touches`, and that every operation on registers, records and interrupts keeps to
its areas. One lemma per operation, which says all that the operation may change.
-/

set_option linter.unusedSimpArgs false
set_option linter.unusedVariables false

namespace Sys2Proof.Machine

variable {A : Area → Bool} {s0 s : State}

/-! ## Areas of keys -/

theorem within_dev (o x : Nat) : Key.within A ⟨.dev, o, x⟩ = ((devArea o x).elim true A) := by
  unfold Key.within Key.area
  cases devArea o x <;> rfl
theorem within_line (n : Fin 16) (o x : Nat) : Key.within A ⟨.line n, o, x⟩ = A .lanes := rfl
theorem within_host (n : Fin 32) (o x : Nat) : Key.within A ⟨.host n, o, x⟩ = A .lanes := rfl
theorem within_pg (n : Fin 4) (o x : Nat) : Key.within A ⟨.pg n, o, x⟩ = A .lanes := rfl
theorem within_port (n : Fin 2) (o x : Nat) : Key.within A ⟨.port n, o, x⟩ = A .ring := rfl
theorem within_loop (n : Fin 64) (o x : Nat) : Key.within A ⟨.loop n, o, x⟩ = A .ce := rfl
theorem within_aux (n : Fin 48) (o x : Nat) : Key.within A ⟨.aux n, o, x⟩ = A .ce := rfl
theorem within_og (n : Fin 16) (o x : Nat) : Key.within A ⟨.og n, o, x⟩ = A .ce := rfl
theorem within_chain (n : Fin 64) (o x : Nat) : Key.within A ⟨.chain n, o, x⟩ = A .ce := rfl
theorem within_mb (n : Fin 12) (o x : Nat) : Key.within A ⟨.mb n, o, x⟩ = A .mgmt := rfl
theorem within_pc (n : Fin 8) (o x : Nat) : Key.within A ⟨.pc n, o, x⟩ = if x = 6 ∨ x = 8 then true else A .mgmt := by
  by_cases h : x = 6 ∨ x = 8
  · simp only [Key.within, Key.area, if_pos h]
  · simp only [Key.within, Key.area, if_neg h]
theorem within_slot (n : Fin 2) (o x : Nat) : Key.within A ⟨.slot n, o, x⟩ = A .sec := rfl
theorem within_pwr (u : Fin 22) (o x : Nat) :
    Key.within A ⟨.pwr u, o, x⟩ = if u.val = 21 ∧ (x = 3 ∨ x = 4) then true else A .pwr := by
  by_cases h : u.val = 21 ∧ (x = 3 ∨ x = 4)
  · simp only [Key.within, Key.area, if_pos h]
  · simp only [Key.within, Key.area, if_neg h]
theorem within_irq (g : Fin 32) (o x : Nat) : Key.within A ⟨.irq g, o, x⟩ = if x = 2 then A .mgmt else true := by
  by_cases h : x = 2
  · simp only [Key.within, Key.area, if_pos h]
  · simp only [Key.within, Key.area, if_neg h]

theorem within_all (h : ∀ a, A a = true) (k : Key) : k.within A = true := by
  unfold Key.within
  split
  · exact h _
  · rfl
theorem elim_ite (c : Prop) [Decidable c] (a : Area) (h : A a = true) : (if c then none else some a).elim true A = true := by
  split
  · rfl
  · exact h
theorem within_prbsGen (a : PrbsAt) (i : Nat) (h1 : A .lanes = true) (h2 : A .ring = true) : (prbsGen a i).within A = true := by
  cases a <;> simp [prbsGen, within_line, within_host, within_port, h1, h2]
theorem within_prbsChk (a : PrbsAt) (i : Nat) (h1 : A .lanes = true) (h2 : A .ring = true) : (prbsChk a i).within A = true := by
  cases a <;> simp [prbsChk, within_line, within_host, within_port, h1, h2]
theorem within_outageKey (c : OutageCause) (h : A .clk = true) : (State.outageKey c).within A = true := by
  cases c <;> simp [State.outageKey, within_dev, devArea, h]
theorem within_rclkoKey (i : Fin 2) (h : A .clk = true) : (State.rclkoKey i).within A = true := by
  unfold State.rclkoKey
  split <;> simp [within_dev, devArea, h]

/-! ## The relation -/

theorem Touches.refl (A : Area → Bool) (s : State) : Touches A s s :=
  ⟨rfl, rfl, id, fun _ _ => rfl, fun _ => rfl, fun _ => rfl, fun _ => ⟨rfl, rfl, rfl⟩, fun _ => rfl, fun _ => rfl, fun _ => rfl⟩

/-- Two changes one after the other. -/
theorem Touches.trans {a b c : State} (h1 : Touches A a b) (h2 : Touches A b c) : Touches A a c where
  queue := h2.queue.trans h1.queue
  now := h2.now.trans h1.now
  form h := h2.form (h1.form h)
  regs k hk := (h2.regs k hk).trans (h1.regs k hk)
  clk h := (h2.clk h).trans (h1.clk h)
  time h := (h2.time h).trans (h1.time h)
  lanes h := ⟨(h2.lanes h).1.trans (h1.lanes h).1, (h2.lanes h).2.1.trans (h1.lanes h).2.1, (h2.lanes h).2.2.trans (h1.lanes h).2.2⟩
  ce h := (h2.ce h).trans (h1.ce h)
  ring h := by
    have e1 := h1.ring h
    have e2 := h2.ring h
    have e3 : { c.ring with rose := a.ring.rose, roseTime := a.ring.roseTime } =
        { b.ring with rose := a.ring.rose, roseTime := a.ring.roseTime } := by rw [← e2]
    exact e3.trans e1
  bist h := (h2.bist h).trans (h1.bist h)

/-- What touches few areas touches more. -/
theorem Touches.mono {B : Area → Bool} {a b : State} (h : Touches A a b) (hB : ∀ x, A x = true → B x = true) : Touches B a b
    := by
  have n : ∀ x, B x = false → A x = false := fun x hx => by
    cases ha : A x with
    | false => rfl
    | true => rw [hB x ha] at hx; cases hx
  refine ⟨h.queue, h.now, h.form, fun k hk => h.regs k ?_, fun x => h.clk (n _ x), fun x => h.time (n _ x),
    fun x => h.lanes (n _ x), fun x => h.ce (n _ x), fun x => h.ring (n _ x), fun x => h.bist (n _ x)⟩
  unfold Key.within at *
  split at hk
  · exact n _ hk
  · cases hk

theorem touches_ite {a b : State} (c : Prop) [Decidable c] (ha : Touches A s0 a) (hb : Touches A s0 b) :
    Touches A s0 (if c then a else b) := by split <;> assumption

theorem touches_when (c : Bool) (f : State → State) (h : Touches A s0 s) (hf : ∀ z, Touches A s0 z → Touches A s0 (f z)) :
    Touches A s0 (when_ c f s) := by
  unfold when_
  split
  · exact hf s h
  · exact h

theorem touches_forAll {α : Type} {s : State} (l : List α) (f : α → State → State) (h : Touches A s0 s)
    (hf : ∀ a z, Touches A s0 z → Touches A s0 (f a z)) : Touches A s0 (forAll l f s) := by
  induction l generalizing s with
  | nil => exact h
  | cons a l ih => exact ih (hf a s h)

/-- A change of records. -/
theorem touches_mk (h : Touches A s0 s) (fr : Nat) (od : OdS) (clk : ClkS) (time : TimeS) (mgmt : MgmtS) (pwr : PwrS)
    (lanes : Vector LaneS 16) (hosts : Vector HostS 32) (pgs : Vector PgS 4) (ce : CeS) (ring : RingS) (sec : SecS) (bist : BistS)
    (h1 : A .clk = true ∨ clk = s.clk) (h2 : A .time = true ∨ time = s.time)
    (h3 : A .lanes = true ∨ (lanes = s.lanes ∧ hosts = s.hosts ∧ pgs = s.pgs)) (h4 : A .ce = true ∨ ce = s.ce)
    (h5 : A .ring = true ∨ ring = s.ring) (h6 : A .bist = true ∨ bist = s.bist) :
    Touches A s0 ⟨s.pending, s.now, fr, s.store, od, clk, time, mgmt, pwr, lanes, hosts, pgs, ce, ring, sec, bist⟩ := by
  refine h.trans ⟨rfl, rfl, id, fun _ _ => rfl, fun x => ?_, fun x => ?_, fun x => ?_, fun x => ?_, fun x => ?_, fun x => ?_⟩
  · exact h1.resolve_left (by simp [x])
  · exact h2.resolve_left (by simp [x])
  · exact h3.resolve_left (by simp [x])
  · exact h4.resolve_left (by simp [x])
  · rw [h5.resolve_left (by simp [x])]
  · exact h6.resolve_left (by simp [x])

namespace State

/-! ## The register store -/

theorem wr_touches (k : Key) (v : Nat) (h : Touches A s0 s) (hk : k.within A = true) : Touches A s0 (s.wr k v) := by
  refine h.trans ⟨rfl, rfl, storeOk_wr k v, fun k' hA => rd_wr_ne s v fun e => ?_, fun _ => rfl, fun _ => rfl,
    fun _ => ⟨rfl, rfl, rfl⟩, fun _ => rfl, fun _ => rfl, fun _ => rfl⟩
  subst e
  rw [hk] at hA
  cases hA

theorem resetEntries_touches (p : Key → Bool) (h : Touches A s0 s) (hp : ∀ k, p k = true → k.within A = true) :
    Touches A s0 (s.resetEntries p) := by
  refine h.trans ⟨rfl, rfl, storeOk_resetEntries p, fun k hA => ?_, fun _ => rfl, fun _ => rfl,
    fun _ => ⟨rfl, rfl, rfl⟩, fun _ => rfl, fun _ => rfl, fun _ => rfl⟩
  rw [rd_resetEntries]
  split
  · rename_i hpk
    rw [hp k hpk] at hA
    cases hA
  · rfl

theorem clr_touches (k : Key) (h : Touches A s0 s) (hk : k.within A = true) : Touches A s0 (s.clr k) := by
  refine h.trans ⟨rfl, rfl, storeOk_clr k, fun k' hA => ?_, fun _ => rfl, fun _ => rfl,
    fun _ => ⟨rfl, rfl, rfl⟩, fun _ => rfl, fun _ => rfl, fun _ => rfl⟩
  rw [rd_clr]
  split
  · rename_i e
    subst e
    rw [hk] at hA
    cases hA
  · rfl

theorem clrAll_touches {s : State} (ks : List Key) (h : Touches A s0 s) (hk : ∀ k ∈ ks, k.within A = true) :
    Touches A s0 (s.clrAll ks) := by
  induction ks generalizing s with
  | nil => exact h
  | cons k ks ih => exact ih (clr_touches k h (hk k (by simp))) fun x hx => hk x (by simp [hx])

theorem fresh_touches (h : Touches A s0 s) : Touches A s0 s.fresh.2 :=
  h.trans ⟨rfl, rfl, id, fun _ _ => rfl, fun _ => rfl, fun _ => rfl, fun _ => ⟨rfl, rfl, rfl⟩, fun _ => rfl, fun _ => rfl,
    fun _ => rfl⟩

theorem wrI_touches (k : Key) (i : Int) (h : Touches A s0 s) (hk : k.within A = true) : Touches A s0 (s.wrI k i) :=
  wr_touches _ _ h hk
theorem wrBit_touches (k : Key) (i : Nat) (b : Bool) (h : Touches A s0 s) (hk : k.within A = true) :
    Touches A s0 (s.wrBit k i b) := wr_touches _ _ h hk
theorem wrField_touches (k : Key) (hi lo x : Nat) (h : Touches A s0 s) (hk : k.within A = true) :
    Touches A s0 (s.wrField k hi lo x) := wr_touches _ _ h hk
theorem addSat_touches (k : Key) (n : Nat) (h : Touches A s0 s) (hk : k.within A = true) :
    Touches A s0 (s.addSat k n) := wr_touches _ _ h hk
theorem incSat_touches (k : Key) (h : Touches A s0 s) (hk : k.within A = true) : Touches A s0 (s.incSat k) :=
  wr_touches _ _ h hk
theorem incWrap_touches (k : Key) (h : Touches A s0 s) (hk : k.within A = true) : Touches A s0 (s.incWrap k) :=
  wr_touches _ _ h hk

/-! ## Interrupts -/

theorem summaryRise_touches (g : Fin 32) (h : Touches A s0 s) : Touches A s0 (s.summaryRise g) := by
  refine h.trans ?_
  unfold summaryRise
  split
  · exact ⟨rfl, rfl, id, fun _ _ => rfl, fun _ => rfl, fun _ => rfl, fun _ => ⟨rfl, rfl, rfl⟩, fun _ => rfl, fun _ => rfl,
      fun _ => rfl⟩
  · exact Touches.refl _ _

/-! ## Ops -/

theorem startSave_touches {s : State} (hk : Touches A s0 s) :
    Touches A s0 (State.startSave s) := by
  simp (maxDischargeDepth := 60) [State.startSave, touches_ite, touches_mk, hk]

theorem modReq_touches {s : State} (r : Fin 18) (f : Requester → Requester) (hk : Touches A s0 s) :
    Touches A s0 (State.modReq s r f) := by
  simp (maxDischargeDepth := 60) [State.modReq, touches_ite, touches_mk, hk]

theorem modUnit_touches {s : State} (u : Fin 22) (f : PwrUnit → PwrUnit) (hk : Touches A s0 s) :
    Touches A s0 (State.modUnit s u f) := by
  simp (maxDischargeDepth := 60) [State.modUnit, touches_ite, touches_mk, hk]

theorem modLane_touches {s : State} (n : Fin 16) (f : LaneS → LaneS) (hk : Touches A s0 s) (a_lanes : A .lanes = true) :
    Touches A s0 (State.modLane s n f) := by
  simp (maxDischargeDepth := 60) [State.modLane, touches_ite, touches_mk, hk, a_lanes]

theorem modHost_touches {s : State} (m : Fin 32) (f : HostS → HostS) (hk : Touches A s0 s) (a_lanes : A .lanes = true) :
    Touches A s0 (State.modHost s m f) := by
  simp (maxDischargeDepth := 60) [State.modHost, touches_ite, touches_mk, hk, a_lanes]

theorem modPg_touches {s : State} (k : Fin 4) (f : PgS → PgS) (hk : Touches A s0 s) (a_lanes : A .lanes = true) :
    Touches A s0 (State.modPg s k f) := by
  simp (maxDischargeDepth := 60) [State.modPg, touches_ite, touches_mk, hk, a_lanes]

theorem defer_touches {s : State} (b : Bound) (r : Fin 18) (k : Key) (data : List Byte) (hk : Touches A s0 s) :
    Touches A s0 (State.defer s b r k data) := by
  simp (maxDischargeDepth := 60) [State.defer, touches_ite, touches_mk, within_dev, devArea, elim_ite, within_irq, within_pc,
      hk]

theorem modOd_touches {s : State} (f : OdS → OdS) (hk : Touches A s0 s) :
    Touches A s0 (State.modOd s f) := by
  simp (maxDischargeDepth := 60) [State.modOd, touches_ite, touches_mk, hk]

theorem dropWaiting_touches {s : State} (p : Key → Bool) (hk : Touches A s0 s) :
    Touches A s0 (State.dropWaiting s p) := by
  simp (maxDischargeDepth := 60) [State.dropWaiting, touches_ite, touches_mk, within_dev, devArea, elim_ite, within_irq,
      within_pc, modOd_touches, hk]

theorem modClk_touches {s : State} (f : ClkS → ClkS) (hk : Touches A s0 s) (a_clk : A .clk = true) :
    Touches A s0 (State.modClk s f) := by
  simp (maxDischargeDepth := 60) [State.modClk, touches_ite, touches_mk, hk, a_clk]

theorem modTime_touches {s : State} (f : TimeS → TimeS) (hk : Touches A s0 s) (a_time : A .time = true) :
    Touches A s0 (State.modTime s f) := by
  simp (maxDischargeDepth := 60) [State.modTime, touches_ite, touches_mk, hk, a_time]

theorem modMgmt_touches {s : State} (f : MgmtS → MgmtS) (hk : Touches A s0 s) :
    Touches A s0 (State.modMgmt s f) := by
  simp (maxDischargeDepth := 60) [State.modMgmt, touches_ite, touches_mk, hk]

theorem modPwr_touches {s : State} (f : PwrS → PwrS) (hk : Touches A s0 s) :
    Touches A s0 (State.modPwr s f) := by
  simp (maxDischargeDepth := 60) [State.modPwr, touches_ite, touches_mk, hk]

/-! ## Flags -/

theorem record_touches {s : State} (kind : Nat) (unit : Nat) (data : List Byte) (hk : Touches A s0 s) :
    Touches A s0 (State.record s kind unit data) := by
  simp (maxDischargeDepth := 60) [State.record, touches_ite, touches_mk, within_dev, devArea, elim_ite, within_irq, within_pc,
      incSat_touches, modMgmt_touches, hk]

theorem followSummary_touches {s : State} (g : Fin 32) (f : State → State) (hk : Touches A s0 s) (hf : ∀ z, Touches A s0 z →
    Touches A s0 (f z)) :
    Touches A s0 (State.followSummary s g f) := by
  simp (maxDischargeDepth := 60) [State.followSummary, touches_ite, touches_mk, within_dev, devArea, elim_ite, within_irq,
      within_pc, summaryRise_touches, hk, hf]

theorem raise_touches {s : State} (x : Src) (hk : Touches A s0 s) :
    Touches A s0 (State.raise s x) := by
  simp (maxDischargeDepth := 60) +contextual [State.raise, touches_ite, touches_mk, within_dev, devArea, elim_ite, within_irq,
      within_pc, followSummary_touches, wr_touches, hk]

theorem raiseIn_touches {s : State} (x : Src) (detail : Key) (b : Nat) (hk : Touches A s0 s) (h_k : Key.within A detail =
    true) :
    Touches A s0 (State.raiseIn s x detail b) := by
  simp (maxDischargeDepth := 60) [State.raiseIn, touches_ite, touches_mk, within_dev, within_line, within_host, within_pg,
      within_port, within_loop, within_aux, within_og, within_chain, within_mb, within_pc, within_slot, within_pwr,
      within_irq, devArea, elim_ite, raise_touches, wr_touches, hk, h_k]

/-! ## Operands -/

theorem eraseKeys_touches {s : State} (hk : Touches A s0 s) :
    Touches A s0 (State.eraseKeys s) := by
  simp (maxDischargeDepth := 60) [State.eraseKeys, touches_ite, touches_mk, within_dev, devArea, elim_ite, within_irq,
      within_pc, wrBit_touches, hk]

theorem zeroize_touches {s : State} (tainted : Bool) (hk : Touches A s0 s) :
    Touches A s0 (State.zeroize s tainted) := by
  simp (maxDischargeDepth := 60) [State.zeroize, touches_ite, touches_mk, within_dev, devArea, elim_ite, within_irq,
      within_pc, eraseKeys_touches, wrBit_touches, hk]

theorem setTxTaps_touches {s : State} (n : Fin 16) (taps : List Int) (hk : Touches A s0 s) (a_lanes : A .lanes = true) :
    Touches A s0 (State.setTxTaps s n taps) := by
  simp (maxDischargeDepth := 60) +contextual [State.setTxTaps, touches_ite, touches_mk, within_dev, devArea, elim_ite,
      within_irq, within_pc, within_line, within_host, within_pg, touches_forAll, wrI_touches, hk, a_lanes]

theorem modPc_touches {s : State} (k : Fin 8) (f : PerfCnt → PerfCnt) (hk : Touches A s0 s) :
    Touches A s0 (State.modPc s k f) := by
  simp (maxDischargeDepth := 60) [State.modPc, touches_ite, touches_mk, within_dev, devArea, elim_ite, within_irq, within_pc,
      modMgmt_touches, hk]

theorem pcOverflow_touches {s : State} (k : Fin 8) (addr : Nat) (hk : Touches A s0 s) :
    Touches A s0 (State.pcOverflow s k addr) := by
  have h1 : Touches A s0 ((s.modPc k fun p => { p with count := 0 }).wrBit (K.PC_STATUS k) 0 true) :=
    wrBit_touches _ _ _ (modPc_touches _ _ hk) (by simp [within_pc])
  refine touches_when _ _ (touches_when _ _ (wrBit_touches _ _ _ (touches_when _ _ h1 fun z hz => ?_) (by simp [within_dev,
      devArea]))
    fun z hz => ?_) fun z hz => raise_touches _ hz
  · exact wrBit_touches _ _ _ hz (by simp [within_pc])
  · exact wr_touches _ _ hz (by simp [within_pc])

theorem pcAdd_touches {s : State} (k : Fin 8) (n : Nat) (hk : Touches A s0 s) :
    Touches A s0 (State.pcAdd s k n) := by
  simp (maxDischargeDepth := 60) [State.pcAdd, touches_ite, touches_mk, within_dev, devArea, elim_ite, within_irq, within_pc,
      fresh_touches, modPc_touches, pcOverflow_touches, hk]

theorem pcEvent_touches {s : State} (cls : Nat) (n : Nat) (hk : Touches A s0 s) :
    Touches A s0 (State.pcEvent s cls n) := by
  simp (maxDischargeDepth := 60) +contextual [State.pcEvent, touches_ite, touches_mk, within_dev, devArea, elim_ite,
      within_irq, within_pc, touches_forAll, pcAdd_touches, hk]

theorem taken_touches {s : State} (hk : Touches A s0 s) :
    Touches A s0 (State.taken s) := by
  simp (maxDischargeDepth := 60) [State.taken, touches_ite, touches_mk, within_dev, devArea, elim_ite, within_irq, within_pc,
      pcEvent_touches, hk]

theorem answered_touches {s : State} (r : Fin 18) (v : Verdict) (hk : Touches A s0 s) :
    Touches A s0 (State.answered s r v) := by
  unfold State.answered
  split <;> simp (maxDischargeDepth := 60) [touches_ite, touches_mk, within_dev, devArea, elim_ite, within_irq, within_pc,
      incSat_touches, modReq_touches, pcEvent_touches, hk]

theorem countOwnerWrite_touches {s : State} (r : Fin 18) (hk : Touches A s0 s) :
    Touches A s0 (State.countOwnerWrite s r) := by
  simp (maxDischargeDepth := 60) [State.countOwnerWrite, touches_ite, touches_mk, within_dev, devArea, elim_ite, within_irq,
      within_pc, incSat_touches, hk]

theorem noteUnsaved_touches {s : State} (k : Key) (hk : Touches A s0 s) :
    Touches A s0 (State.noteUnsaved s k) := by
  unfold State.noteUnsaved
  split <;> simp (maxDischargeDepth := 60) [touches_ite, touches_mk, within_dev, devArea, elim_ite, within_irq, within_pc,
      modOd_touches, hk]

theorem markDirty_touches {s : State} (r : Fin 18) (k : Key) (data : List Byte) (hk : Touches A s0 s) :
    Touches A s0 (State.markDirty s r k data) := by
  unfold State.markDirty
  split <;> simp (maxDischargeDepth := 60) [touches_ite, touches_mk, within_dev, devArea, elim_ite, within_irq, within_pc,
      modReq_touches, hk]

theorem slotReplaced_touches {s : State} (u : Fin 22) (hk : Touches A s0 s) (h_u : u.val = 21 ∨ A .pwr = true) :
    Touches A s0 (State.slotReplaced s u) := by
  have hw : Key.within A (K.PWR_PENDING u) = true := by
    rw [within_pwr]
    split
    · rfl
    · rename_i h
      exact h_u.resolve_left fun e => h ⟨e, Or.inr rfl⟩
  unfold slotReplaced
  split
  · exact hk
  · exact raiseIn_touches _ _ _ (incSat_touches _ (wr_touches _ _ hk hw) rfl) rfl

theorem wakingTo_touches {s : State} (u : Fin 22) (t : Nat) (hk : Touches A s0 s) (h_u : u.val = 21 ∨ A .pwr = true) :
    Touches A s0 (State.wakingTo s u t) := by
  have hw : Key.within A (K.PWR_TRANSITION u) = true := by
    rw [within_pwr]
    split
    · rfl
    · rename_i h
      exact h_u.resolve_left fun e => h ⟨e, Or.inl rfl⟩
  exact wr_touches _ _ (modUnit_touches _ _ hk) hw

theorem bankFail_touches {s : State} (b : Nat) (hk : Touches A s0 s) :
    Touches A s0 (State.bankFail s b) := by
  simp (maxDischargeDepth := 60) +contextual [State.bankFail, touches_ite, touches_mk, within_dev, devArea, elim_ite,
      within_irq, within_pc, touches_forAll, incSat_touches, modUnit_touches, raise_touches, record_touches, wrBit_touches,
      hk]

theorem bankCheck_touches {s : State} (u : Fin 22) (hk : Touches A s0 s) :
    Touches A s0 (State.bankCheck s u) := by
  simp (maxDischargeDepth := 60) +contextual [State.bankCheck, touches_ite, touches_mk, within_dev, devArea, elim_ite,
      within_irq, within_pc, touches_forAll, bankFail_touches, fresh_touches, hk]

theorem coreWake_touches {s : State} (hk : Touches A s0 s) :
    Touches A s0 (State.coreWake s) := by
  unfold State.coreWake
  split <;> simp (maxDischargeDepth := 60) [touches_ite, touches_mk, within_dev, within_line, within_host, within_pg,
      within_port, within_loop, within_aux, within_og, within_chain, within_mb, within_pc, within_slot, within_pwr,
      within_irq, devArea, elim_ite, bankCheck_touches, modUnit_touches, slotReplaced_touches, wakingTo_touches, hk]

theorem coreAsked_touches {s : State} (k : Key) (v : Verdict) (hk : Touches A s0 s) :
    Touches A s0 (State.coreAsked s k v) := by
  unfold State.coreAsked
  (repeat' split) <;> simp (maxDischargeDepth := 60) [touches_ite, touches_mk, within_dev, devArea, elim_ite, within_irq,
      within_pc, coreWake_touches, hk]

theorem counted_touches {s : State} (k : Key) (v : Verdict) (hk : Touches A s0 s) :
    Touches A s0 (State.counted s k v) := by
  simp (maxDischargeDepth := 60) +contextual [State.counted, touches_ite, touches_mk, within_dev, devArea, elim_ite,
      within_irq, within_pc, touches_when, coreAsked_touches, pcEvent_touches, taken_touches, hk]

theorem write_touches {s : State} (r : Fin 18) (k : Key) (data : List Byte) (eff : State → State) (hk : Touches A s0 s) (heff
    : ∀ z, Touches A s0 z → Touches A s0 (eff z)) :
    Touches A s0 (State.write s r k data eff) := by
  unfold State.write
  (repeat' split) <;> simp (maxDischargeDepth := 60) [touches_ite, touches_mk, within_dev, devArea, elim_ite, within_irq,
      within_pc, answered_touches, coreWake_touches, countOwnerWrite_touches, counted_touches, markDirty_touches,
      noteUnsaved_touches, hk, heff]

/-! ## Mgmt -/

theorem reply_touches {s : State} (r : Fin 18) (v : List Byte) (hk : Touches A s0 s) :
    Touches A s0 (State.reply s r v) := by
  simp (maxDischargeDepth := 60) [State.reply, touches_ite, touches_mk, within_dev, devArea, elim_ite, within_irq, within_pc,
      modReq_touches, hk]

theorem readBy_touches {s : State} (m : Fin 19) (hk : Touches A s0 s) :
    Touches A s0 (State.readBy s m) := by
  simp (maxDischargeDepth := 60) [State.readBy, touches_ite, touches_mk, within_dev, devArea, elim_ite, within_irq, within_pc,
      taken_touches, hk]

theorem give_touches {s : State} (m : Fin 19) (v : List Byte) (hk : Touches A s0 s) :
    Touches A s0 (State.give s m v) := by
  unfold State.give
  split <;> simp (maxDischargeDepth := 60) [touches_ite, touches_mk, within_dev, devArea, elim_ite, within_irq, within_pc,
      modMgmt_touches, reply_touches, hk]

theorem plStart_touches {s : State} (target : Nat) (hk : Touches A s0 s) :
    Touches A s0 (State.plStart s target) := by
  simp (maxDischargeDepth := 60) [State.plStart, touches_ite, touches_mk, within_dev, devArea, elim_ite, within_irq,
      within_pc, modMgmt_touches, hk]

theorem plDecide_touches {s : State} (target : Nat) (hk : Touches A s0 s) :
    Touches A s0 (State.plDecide s target) := by
  unfold State.plDecide
  split <;> simp (maxDischargeDepth := 60) [touches_ite, touches_mk, within_dev, devArea, elim_ite, within_irq, within_pc,
      modMgmt_touches, plStart_touches, hk]

theorem plFollow_touches {s : State} (hk : Touches A s0 s) :
    Touches A s0 (State.plFollow s) := by
  simp (maxDischargeDepth := 60) [State.plFollow, touches_ite, touches_mk, within_dev, devArea, elim_ite, within_irq,
      within_pc, plDecide_touches, hk]

theorem plDone_touches {s : State} (hk : Touches A s0 s) (a_mgmt : A .mgmt = true) :
    Touches A s0 (State.plDone s) := by
  unfold State.plDone
  (repeat' split) <;> simp (maxDischargeDepth := 60) [touches_ite, touches_mk, within_dev, devArea, elim_ite, within_irq,
      within_pc, within_mb, within_pc, incSat_touches, modMgmt_touches, plStart_touches, raise_touches, record_touches,
      wr_touches, hk, a_mgmt]

theorem setLock_touches {s : State} (k : Fin 32) (o : Nat) (hk : Touches A s0 s) :
    Touches A s0 (State.setLock s k o) := by
  simp (maxDischargeDepth := 60) [State.setLock, touches_ite, touches_mk, within_dev, devArea, elim_ite, within_irq,
      within_pc, modMgmt_touches, hk]

theorem releaseLock_touches {s : State} (k : Fin 32) (hk : Touches A s0 s) :
    Touches A s0 (State.releaseLock s k) := by
  simp (maxDischargeDepth := 60) [State.releaseLock, touches_ite, touches_mk, within_dev, devArea, elim_ite, within_irq,
      within_pc, raise_touches, setLock_touches, hk]

theorem forceLock_touches {s : State} (k : Fin 32) (by_ : Nat) (hk : Touches A s0 s) (a_mgmt : A .mgmt = true) :
    Touches A s0 (State.forceLock s k by_) := by
  simp (maxDischargeDepth := 60) [State.forceLock, touches_ite, touches_mk, within_dev, devArea, elim_ite, within_irq,
      within_pc, within_mb, within_pc, incSat_touches, raise_touches, record_touches, releaseLock_touches, hk, a_mgmt]

theorem takeLock_touches {s : State} (k : Fin 32) (m : Nat) (hk : Touches A s0 s) :
    Touches A s0 (State.takeLock s k m) := by
  simp (maxDischargeDepth := 60) [State.takeLock, touches_ite, touches_mk, within_dev, devArea, elim_ite, within_irq,
      within_pc, setLock_touches, hk]

theorem ceSafeTake_touches {s : State} (hk : Touches A s0 s) :
    Touches A s0 (State.ceSafeTake s) := by
  simp (maxDischargeDepth := 60) +contextual [State.ceSafeTake, touches_ite, touches_mk, within_dev, devArea, elim_ite,
      within_irq, within_pc, touches_forAll, takeLock_touches, hk]

theorem mbSend_touches {s : State} (c : Fin 12) (m : Nat) (data : List Byte) (hk : Touches A s0 s) (a_mgmt : A .mgmt = true) :
    Touches A s0 (State.mbSend s c m data) := by
  simp (maxDischargeDepth := 60) [State.mbSend, touches_ite, touches_mk, within_dev, devArea, elim_ite, within_irq, within_pc,
      within_mb, within_pc, modMgmt_touches, raiseIn_touches, wr_touches, hk, a_mgmt]

theorem mbEmpty_touches {s : State} (c : Fin 12) (hk : Touches A s0 s) (a_mgmt : A .mgmt = true) :
    Touches A s0 (State.mbEmpty s c) := by
  simp (maxDischargeDepth := 60) [State.mbEmpty, touches_ite, touches_mk, within_dev, devArea, elim_ite, within_irq,
      within_pc, within_mb, within_pc, modMgmt_touches, raiseIn_touches, wr_touches, hk, a_mgmt]

theorem mbRxReset_touches {s : State} (c : Fin 12) (hk : Touches A s0 s) (a_mgmt : A .mgmt = true) :
    Touches A s0 (State.mbRxReset s c) := by
  simp (maxDischargeDepth := 60) [State.mbRxReset, touches_ite, touches_mk, within_dev, devArea, elim_ite, within_irq,
      within_pc, within_mb, within_pc, raiseIn_touches, wrBit_touches, hk, a_mgmt]

theorem mbTxReset_touches {s : State} (c : Fin 12) (hk : Touches A s0 s) (a_mgmt : A .mgmt = true) :
    Touches A s0 (State.mbTxReset s c) := by
  simp (maxDischargeDepth := 60) [State.mbTxReset, touches_ite, touches_mk, within_dev, devArea, elim_ite, within_irq,
      within_pc, within_mb, within_pc, raiseIn_touches, wrBit_touches, hk, a_mgmt]

theorem mbRestart_touches {s : State} (m : Nat) (c : Fin 12) (hk : Touches A s0 s) (a_mgmt : A .mgmt = true) :
    Touches A s0 (State.mbRestart s m c) := by
  simp (maxDischargeDepth := 60) [State.mbRestart, touches_ite, touches_mk, within_dev, devArea, elim_ite, within_irq,
      within_pc, within_mb, within_pc, mbRxReset_touches, mbTxReset_touches, hk, a_mgmt]

theorem restartMaster_touches {s : State} (m : Nat) (hk : Touches A s0 s) (a_mgmt : A .mgmt = true) :
    Touches A s0 (State.restartMaster s m) := by
  simp (maxDischargeDepth := 60) +contextual [State.restartMaster, touches_ite, touches_mk, within_dev, devArea, elim_ite,
      within_irq, within_pc, within_mb, within_pc, touches_forAll, forceLock_touches, fresh_touches, mbRestart_touches,
      modMgmt_touches, releaseLock_touches, hk, a_mgmt]

theorem pcSecded_touches {s : State} (addr : Option Nat) (hk : Touches A s0 s) :
    Touches A s0 (State.pcSecded s addr) := by
  simp (maxDischargeDepth := 60) +contextual [State.pcSecded, touches_ite, touches_mk, within_dev, devArea, elim_ite,
      within_irq, within_pc, touches_forAll, fresh_touches, pcAdd_touches, hk]

theorem pcTick_touches {s : State} (hk : Touches A s0 s) :
    Touches A s0 (State.pcTick s) := by
  simp (maxDischargeDepth := 60) [State.pcTick, touches_ite, touches_mk, within_dev, devArea, elim_ite, within_irq, within_pc,
      pcEvent_touches, hk]

theorem pcSeen_touches {s : State} (k : Fin 8) (hk : Touches A s0 s) :
    Touches A s0 (State.pcSeen s k) := by
  simp (maxDischargeDepth := 60) [State.pcSeen, touches_ite, touches_mk, within_dev, devArea, elim_ite, within_irq, within_pc,
      fresh_touches, modPc_touches, hk]

theorem pcReprogram_touches {s : State} (k : Fin 8) (hk : Touches A s0 s) :
    Touches A s0 (State.pcReprogram s k) := by
  simp (maxDischargeDepth := 60) [State.pcReprogram, touches_ite, touches_mk, within_dev, devArea, elim_ite, within_irq,
      within_pc, modPc_touches, wr_touches, wrBit_touches, hk]

theorem pcReset_touches {s : State} (hk : Touches A s0 s) (a_mgmt : A .mgmt = true) :
    Touches A s0 (State.pcReset s) := by
  unfold pcReset
  refine modMgmt_touches _ (resetEntries_touches _ hk fun k h => ?_)
  obtain ⟨b, o, x⟩ := k
  cases b <;> simp_all [within_pc, within_dev, devArea]
  split
  · rfl
  · exact a_mgmt

theorem pcLatch_touches {s : State} (k : Fin 8) (r : Fin 19) (hk : Touches A s0 s) :
    Touches A s0 (State.pcLatch s k r) := by
  simp (maxDischargeDepth := 60) [State.pcLatch, touches_ite, touches_mk, within_dev, devArea, elim_ite, within_irq,
      within_pc, modPc_touches, hk]

theorem pcTakeLatch_touches {s : State} (k : Fin 8) (r : Fin 19) (hk : Touches A s0 s) :
    Touches A s0 (State.pcTakeLatch s k r).2 := by
  simp (maxDischargeDepth := 60) [State.pcTakeLatch, touches_ite, touches_mk, within_dev, devArea, elim_ite, within_irq,
      within_pc, modPc_touches, hk]

theorem evrWrite_touches {s : State} (hk : Touches A s0 s) (a_mgmt : A .mgmt = true) :
    Touches A s0 (State.evrWrite s) := by
  have hs : ∀ f n, evrSlot f n < 1024 := fun f n => by
    unfold evrSlot
    split
    · rename_i h
      have := (Bool.and_eq_true_iff.mp h).2
      simp at this
      omega
    · omega
  have w : ∀ f n, Key.within A (evrKey (evrSlot f n)) = true := fun f n => by
    have h := hs f n
    generalize evrSlot f n = i at h
    have e : devArea (0x9300 + i / 128) (i % 128 + 1) = some .mgmt := by
      have hi : i / 128 ≤ 7 := by omega
      unfold devArea
      interval_cases i / 128 <;> simp
    rw [evrKey, within_dev, e]
    exact a_mgmt
  unfold evrWrite
  split
  · exact hk
  · have h1 : ∀ (b : Bool) z, Touches A s0 z → Touches A s0 (when_ b (fun s => (s.incSat K.EVR_LOST).raise Src.EVR_OVERWRITE)
      z) :=
      fun b z hz => touches_when b _ hz fun y hy => raise_touches _ (incSat_touches _ hy a_mgmt)
    have h2 : ∀ (b : Bool) z, Touches A s0 z → Touches A s0 (when_ b (fun s => s.raise Src.EVR_FIXED_FULL) z) :=
      fun b z hz => touches_when b _ hz fun y hy => raise_touches _ hy
    refine touches_ite _ (raise_touches _ (modMgmt_touches _ ?_)) ?_
    all_goals exact h2 _ _ (raise_touches _ (h1 _ _ (wr_touches _ _ (wr_touches _ _ (wr_touches _ _ (modMgmt_touches _ hk) (w
        _ _)) a_mgmt) a_mgmt)))

theorem effPcEnable_touches {s : State} (v : Nat) (hk : Touches A s0 s) (a_mgmt : A .mgmt = true) :
    Touches A s0 (effPcEnable v s) := by
  simp (maxDischargeDepth := 60) +contextual [effPcEnable, touches_ite, touches_mk, within_dev, devArea, elim_ite, within_irq,
      within_pc, within_mb, within_pc, touches_forAll, pcSeen_touches, wr_touches, hk, a_mgmt]

theorem effPcReprogram_touches {s : State} (k : Fin 8) (sub : Nat) (v : Nat) (hk : Touches A s0 s) (a_mgmt : A .mgmt = true) :
    Touches A s0 (effPcReprogram k sub v s) := by
  simp (maxDischargeDepth := 60) [effPcReprogram, touches_ite, touches_mk, within_dev, devArea, elim_ite, within_irq,
      within_pc, within_mb, within_pc, modPc_touches, pcReprogram_touches, pcSeen_touches, wr_touches, hk, a_mgmt]

theorem effLkRelease_touches {s : State} (k : Fin 32) (v : Nat) (hk : Touches A s0 s) :
    Touches A s0 (effLkRelease k v s) := by
  simp (maxDischargeDepth := 60) [effLkRelease, touches_ite, touches_mk, within_dev, devArea, elim_ite, within_irq, within_pc,
      releaseLock_touches, hk]

theorem effLkForce_touches {s : State} (k : Fin 32) (v : Nat) (by_ : Nat) (hk : Touches A s0 s) (a_mgmt : A .mgmt = true) :
    Touches A s0 (effLkForce k v by_ s) := by
  simp (maxDischargeDepth := 60) [effLkForce, touches_ite, touches_mk, within_dev, devArea, elim_ite, within_irq, within_pc,
      within_mb, within_pc, forceLock_touches, hk, a_mgmt]

theorem effMbCfg_touches {s : State} (c : Fin 12) (v : Nat) (hk : Touches A s0 s) (a_mgmt : A .mgmt = true) :
    Touches A s0 (effMbCfg c v s) := by
  simp (maxDischargeDepth := 60) [effMbCfg, touches_ite, touches_mk, within_dev, devArea, elim_ite, within_irq, within_pc,
      within_mb, within_pc, wr_touches, hk, a_mgmt]

theorem effMbAck_touches {s : State} (c : Fin 12) (v : Nat) (hk : Touches A s0 s) (a_mgmt : A .mgmt = true) :
    Touches A s0 (effMbAck c v s) := by
  simp (maxDischargeDepth := 60) [effMbAck, touches_ite, touches_mk, within_dev, devArea, elim_ite, within_irq, within_pc,
      within_mb, within_pc, mbEmpty_touches, hk, a_mgmt]

theorem effMasterRestart_touches {s : State} (m : Nat) (v : Nat) (hk : Touches A s0 s) (a_mgmt : A .mgmt = true) :
    Touches A s0 (effMasterRestart m v s) := by
  simp (maxDischargeDepth := 60) [effMasterRestart, touches_ite, touches_mk, within_dev, devArea, elim_ite, within_irq,
      within_pc, within_mb, within_pc, restartMaster_touches, hk, a_mgmt]

theorem effEvrAck_touches {s : State} (v : Nat) (hk : Touches A s0 s) (a_mgmt : A .mgmt = true) :
    Touches A s0 (effEvrAck v s) := by
  simp (maxDischargeDepth := 60) [effEvrAck, touches_ite, touches_mk, within_dev, devArea, elim_ite, within_irq, within_pc,
      within_mb, within_pc, modMgmt_touches, wr_touches, hk, a_mgmt]

theorem effIrqCause_touches {s : State} (g : Fin 32) (v : Nat) (hk : Touches A s0 s) :
    Touches A s0 (effIrqCause g v s) := by
  simp (maxDischargeDepth := 60) [effIrqCause, touches_ite, touches_mk, within_dev, devArea, elim_ite, within_irq, within_pc,
      wr_touches, hk]

theorem effIrqEnable_touches {s : State} (g : Fin 32) (v : Nat) (hk : Touches A s0 s) (a_mgmt : A .mgmt = true) :
    Touches A s0 (effIrqEnable g v s) := by
  simp (maxDischargeDepth := 60) +contextual [effIrqEnable, touches_ite, touches_mk, within_dev, devArea, elim_ite,
      within_irq, within_pc, within_mb, within_pc, followSummary_touches, wr_touches, hk, a_mgmt]

theorem effIrqSwSet_touches {s : State} (v : Nat) (hk : Touches A s0 s) :
    Touches A s0 (effIrqSwSet v s) := by
  simp (maxDischargeDepth := 60) +contextual [effIrqSwSet, touches_ite, touches_mk, within_dev, devArea, elim_ite, within_irq,
      within_pc, touches_when, touches_forAll, raise_touches, hk]

theorem effMgmtMrst_touches {s : State} (v : Nat) (hk : Touches A s0 s) :
    Touches A s0 (effMgmtMrst v s) := by
  simp (maxDischargeDepth := 60) [effMgmtMrst, touches_ite, touches_mk, within_dev, devArea, elim_ite, within_irq, within_pc,
      modMgmt_touches, hk]

/-! ## TimeUnit -/

theorem timeStart_touches {s : State} (hk : Touches A s0 s) (a_time : A .time = true) :
    Touches A s0 (State.timeStart s) := by
  simp (maxDischargeDepth := 60) [State.timeStart, touches_ite, touches_mk, within_dev, devArea, elim_ite, within_irq,
      within_pc, modTime_touches, wrBit_touches, hk, a_time]

theorem timeStop_touches {s : State} (hk : Touches A s0 s) (a_time : A .time = true) :
    Touches A s0 (State.timeStop s) := by
  simp (maxDischargeDepth := 60) [State.timeStop, touches_ite, touches_mk, within_dev, devArea, elim_ite, within_irq,
      within_pc, modTime_touches, wrBit_touches, hk, a_time]

theorem holdoverEnter_touches {s : State} (hk : Touches A s0 s) (a_time : A .time = true) :
    Touches A s0 (State.holdoverEnter s) := by
  simp (maxDischargeDepth := 60) [State.holdoverEnter, touches_ite, touches_mk, within_dev, devArea, elim_ite, within_irq,
      within_pc, modTime_touches, raise_touches, wrBit_touches, hk, a_time]

theorem holdoverExit_touches {s : State} (hk : Touches A s0 s) (a_time : A .time = true) :
    Touches A s0 (State.holdoverExit s) := by
  simp (maxDischargeDepth := 60) [State.holdoverExit, touches_ite, touches_mk, within_dev, devArea, elim_ite, within_irq,
      within_pc, raise_touches, wrBit_touches, hk, a_time]

theorem timeRootLost_touches {s : State} (hk : Touches A s0 s) (a_time : A .time = true) :
    Touches A s0 (State.timeRootLost s) := by
  simp (maxDischargeDepth := 60) [State.timeRootLost, touches_ite, touches_mk, within_dev, devArea, elim_ite, within_irq,
      within_pc, holdoverEnter_touches, wrBit_touches, hk, a_time]

theorem timeRootBack_touches {s : State} (hk : Touches A s0 s) (a_time : A .time = true) :
    Touches A s0 (State.timeRootBack s) := by
  simp (maxDischargeDepth := 60) [State.timeRootBack, touches_ite, touches_mk, within_dev, devArea, elim_ite, within_irq,
      within_pc, holdoverExit_touches, wrBit_touches, hk, a_time]

theorem setStepPending_touches {s : State} (hk : Touches A s0 s) (a_time : A .time = true) :
    Touches A s0 (State.setStepPending s) := by
  simp (maxDischargeDepth := 60) [State.setStepPending, touches_ite, touches_mk, within_dev, devArea, elim_ite, within_irq,
      within_pc, wrBit_touches, hk, a_time]

theorem offsetAlarm_touches {s : State} (e : Int) (hk : Touches A s0 s) (a_time : A .time = true) :
    Touches A s0 (State.offsetAlarm s e) := by
  simp (maxDischargeDepth := 60) [State.offsetAlarm, touches_ite, touches_mk, within_dev, devArea, elim_ite, within_irq,
      within_pc, modTime_touches, raise_touches, hk, a_time]

theorem servoTerms_touches {s : State} (e : Int) (p : Nat) (hk : Touches A s0 s) (a_time : A .time = true) :
    Touches A s0 (State.servoTerms s e p) := by
  simp (maxDischargeDepth := 60) [State.servoTerms, touches_ite, touches_mk, within_dev, devArea, elim_ite, within_irq,
      within_pc, modTime_touches, wrI_touches, hk, a_time]

theorem servoMeasure_touches {s : State} (e : Int) (at_ : Nat) (hk : Touches A s0 s) (a_time : A .time = true) :
    Touches A s0 (State.servoMeasure s e at_) := by
  unfold servoMeasure
  dsimp only
  generalize hs2 : (((s.wrI K.TIME_SERVO_ERR e).modTime _).wrBit K.TIME_STATUS 2 _).offsetAlarm e = s2
  have h2 : Touches A s0 s2 := by
    rw [← hs2]
    exact offsetAlarm_touches _ (wrBit_touches _ _ _ (modTime_touches _ (wrI_touches _ _ hk a_time) a_time) a_time) a_time
  have h3 := holdoverExit_touches h2 a_time
  exact touches_ite _ h2 (touches_ite _ (setStepPending_touches (modTime_touches _ h3 a_time) a_time) (servoTerms_touches _ _
      h3 a_time))

theorem timeMiss_touches {s : State} (hk : Touches A s0 s) (a_time : A .time = true) :
    Touches A s0 (State.timeMiss s) := by
  simp (maxDischargeDepth := 60) [State.timeMiss, touches_ite, touches_mk, within_dev, devArea, elim_ite, within_irq,
      within_pc, holdoverEnter_touches, modTime_touches, hk, a_time]

theorem beaconSwitch_touches {s : State} (p : Fin 2) (hk : Touches A s0 s) (a_time : A .time = true) :
    Touches A s0 (State.beaconSwitch s p) := by
  simp (maxDischargeDepth := 60) +contextual [State.beaconSwitch, touches_ite, touches_mk, within_dev, devArea, elim_ite,
      within_irq, within_pc, touches_when, incSat_touches, modTime_touches, timeMiss_touches, hk, a_time]

theorem beaconMiss_touches {s : State} (hk : Touches A s0 s) (a_time : A .time = true) :
    Touches A s0 (State.beaconMiss s) := by
  simp (maxDischargeDepth := 60) +contextual [State.beaconMiss, touches_ite, touches_mk, within_dev, devArea, elim_ite,
      within_irq, within_pc, touches_when, beaconSwitch_touches, modTime_touches, raise_touches, hk, a_time]

theorem adjusted_touches {s : State} (hk : Touches A s0 s) (a_time : A .time = true) :
    Touches A s0 (State.adjusted s) := by
  simp (maxDischargeDepth := 60) [State.adjusted, touches_ite, touches_mk, within_dev, devArea, elim_ite, within_irq,
      within_pc, incWrap_touches, modTime_touches, wrBit_touches, hk, a_time]

theorem counterTo_touches {s : State} (new : Nat) (hk : Touches A s0 s) (a_time : A .time = true) :
    Touches A s0 (State.counterTo s new) := by
  simp (maxDischargeDepth := 60) [State.counterTo, touches_ite, touches_mk, within_dev, devArea, elim_ite, within_irq,
      within_pc, modTime_touches, hk, a_time]

theorem applySteps_touches {s : State} (hk : Touches A s0 s) (a_time : A .time = true) :
    Touches A s0 (State.applySteps s) := by
  simp (maxDischargeDepth := 60) [State.applySteps, touches_ite, touches_mk, within_dev, devArea, elim_ite, within_irq,
      within_pc, adjusted_touches, counterTo_touches, modTime_touches, raise_touches, record_touches, wrBit_touches, hk,
      a_time]

theorem applySource_touches {s : State} (hk : Touches A s0 s) (a_time : A .time = true) :
    Touches A s0 (State.applySource s) := by
  simp (maxDischargeDepth := 60) [State.applySource, touches_ite, touches_mk, within_dev, devArea, elim_ite, within_irq,
      within_pc, holdoverExit_touches, modTime_touches, wr_touches, wrField_touches, hk, a_time]

theorem gaugeTick_touches {s : State} (hk : Touches A s0 s) (a_time : A .time = true) :
    Touches A s0 (State.gaugeTick s) := by
  simp (maxDischargeDepth := 60) [State.gaugeTick, touches_ite, touches_mk, within_dev, devArea, elim_ite, within_irq,
      within_pc, applySource_touches, applySteps_touches, modTime_touches, hk, a_time]

theorem edgeStamped_touches {s : State} (stamp : Nat) (valid : Bool) (hk : Touches A s0 s) (a_time : A .time = true) :
    Touches A s0 (State.edgeStamped s stamp valid) := by
  simp (maxDischargeDepth := 60) [State.edgeStamped, touches_ite, touches_mk, within_dev, devArea, elim_ite, within_irq,
      within_pc, incWrap_touches, modTime_touches, raise_touches, wr_touches, hk, a_time]

theorem edgeSets_touches {s : State} (v : Nat) (j : Nat) (tick : Bool) (hk : Touches A s0 s) (a_time : A .time = true) :
    Touches A s0 (State.edgeSets s v j tick) := by
  simp (maxDischargeDepth := 60) [State.edgeSets, touches_ite, touches_mk, within_dev, devArea, elim_ite, within_irq,
      within_pc, adjusted_touches, counterTo_touches, edgeStamped_touches, incSat_touches, modTime_touches, raise_touches,
      wrBit_touches, hk, a_time]

theorem syncEdge_touches {s : State} (j : Nat) (tick : Bool) (hk : Touches A s0 s) (a_time : A .time = true) :
    Touches A s0 (State.syncEdge s j tick) := by
  unfold State.syncEdge
  (repeat' split) <;> simp (maxDischargeDepth := 60) [touches_ite, touches_mk, within_dev, devArea, elim_ite, within_irq,
      within_pc, edgeSets_touches, edgeStamped_touches, incSat_touches, raise_touches, servoMeasure_touches, hk, a_time]

theorem effTimeSet_touches {s : State} (v : Nat) (hk : Touches A s0 s) (a_time : A .time = true) :
    Touches A s0 (effTimeSet v s) := by
  simp (maxDischargeDepth := 60) [effTimeSet, touches_ite, touches_mk, within_dev, devArea, elim_ite, within_irq, within_pc,
      modTime_touches, wrBit_touches, hk, a_time]

theorem effTimeStep_touches {s : State} (v : Nat) (hk : Touches A s0 s) (a_time : A .time = true) :
    Touches A s0 (effTimeStep v s) := by
  simp (maxDischargeDepth := 60) [effTimeStep, touches_ite, touches_mk, within_dev, devArea, elim_ite, within_irq, within_pc,
      modTime_touches, setStepPending_touches, hk, a_time]

theorem effTimeRateAdj_touches {s : State} (v : Nat) (hk : Touches A s0 s) (a_time : A .time = true) :
    Touches A s0 (effTimeRateAdj v s) := by
  simp (maxDischargeDepth := 60) [effTimeRateAdj, touches_ite, touches_mk, within_dev, devArea, elim_ite, within_irq,
      within_pc, wr_touches, hk, a_time]

theorem effDiscSrc_touches {s : State} (v : Nat) (hk : Touches A s0 s) (a_time : A .time = true) :
    Touches A s0 (effDiscSrc v s) := by
  simp (maxDischargeDepth := 60) [effDiscSrc, touches_ite, touches_mk, within_dev, devArea, elim_ite, within_irq, within_pc,
      modTime_touches, wr_touches, hk, a_time]

theorem effLineLane_touches {s : State} (v : Nat) (hk : Touches A s0 s) (a_time : A .time = true) :
    Touches A s0 (effLineLane v s) := by
  simp (maxDischargeDepth := 60) [effLineLane, touches_ite, touches_mk, within_dev, devArea, elim_ite, within_irq, within_pc,
      modTime_touches, wr_touches, hk, a_time]

theorem effSyncInEn_touches {s : State} (v : Nat) (hk : Touches A s0 s) (a_time : A .time = true) :
    Touches A s0 (effSyncInEn v s) := by
  simp (maxDischargeDepth := 60) [effSyncInEn, touches_ite, touches_mk, within_dev, devArea, elim_ite, within_irq, within_pc,
      modTime_touches, wr_touches, hk, a_time]

/-! ## Clock -/

theorem outageStart_touches {s : State} (c : OutageCause) (hk : Touches A s0 s) (a_clk : A .clk = true) :
    Touches A s0 (State.outageStart s c) := by
  unfold State.outageStart
  split <;> simp (maxDischargeDepth := 60) [touches_ite, touches_mk, within_dev, devArea, elim_ite, within_irq, within_pc,
      modClk_touches, hk, a_clk]

theorem outageCheck_touches {s : State} (hk : Touches A s0 s) (a_clk : A .clk = true) :
    Touches A s0 (State.outageCheck s) := by
  unfold State.outageCheck
  split <;> simp (maxDischargeDepth := 60) [touches_ite, touches_mk, within_dev, devArea, elim_ite, within_irq, within_pc,
      within_outageKey, addSat_touches, incSat_touches, modClk_touches, startSave_touches, hk, a_clk]

theorem rootLost_touches {s : State} (hk : Touches A s0 s) (a_time : A .time = true) (a_clk : A .clk = true) :
    Touches A s0 (State.rootLost s) := by
  simp (maxDischargeDepth := 60) [State.rootLost, touches_ite, touches_mk, within_dev, devArea, elim_ite, within_irq,
      within_pc, incSat_touches, modClk_touches, raise_touches, timeRootLost_touches, wrBit_touches, hk, a_time, a_clk]

theorem rootBack_touches {s : State} (hk : Touches A s0 s) (a_time : A .time = true) (a_clk : A .clk = true) :
    Touches A s0 (State.rootBack s) := by
  simp (maxDischargeDepth := 60) [State.rootBack, touches_ite, touches_mk, within_dev, devArea, elim_ite, within_irq,
      within_pc, modClk_touches, raise_touches, timeRootBack_touches, wrBit_touches, hk, a_time, a_clk]

theorem rootSelect_touches {s : State} (v : Nat) (valid : Bool) (hk : Touches A s0 s) (a_time : A .time = true) (a_clk : A
    .clk = true) :
    Touches A s0 (State.rootSelect s v valid) := by
  simp (maxDischargeDepth := 60) [State.rootSelect, touches_ite, touches_mk, within_dev, devArea, elim_ite, within_irq,
      within_pc, rootBack_touches, rootLost_touches, wrBit_touches, hk, a_time, a_clk]

theorem squelch_touches {s : State} (i : Fin 2) (b : Bool) (hk : Touches A s0 s) (a_clk : A .clk = true) :
    Touches A s0 (State.squelch s i b) := by
  simp (maxDischargeDepth := 60) [State.squelch, touches_ite, touches_mk, within_dev, devArea, elim_ite, within_irq,
      within_pc, modClk_touches, hk, a_clk]

theorem rclkoLaneLost_touches {s : State} (n : Fin 16) (hk : Touches A s0 s) (a_clk : A .clk = true) :
    Touches A s0 (State.rclkoLaneLost s n) := by
  simp (maxDischargeDepth := 60) +contextual [State.rclkoLaneLost, touches_ite, touches_mk, within_dev, devArea, elim_ite,
      within_irq, within_pc, touches_forAll, squelch_touches, hk, a_clk]

theorem effClkRefSrc_touches {s : State} (v : Nat) (valid : Bool) (hk : Touches A s0 s) (a_time : A .time = true) (a_clk : A
    .clk = true) (a_lanes : A .lanes = true) :
    Touches A s0 (effClkRefSrc v valid s) := by
  simp (maxDischargeDepth := 60) +contextual [effClkRefSrc, touches_ite, touches_mk, within_dev, devArea, elim_ite,
      within_irq, within_pc, within_line, within_host, within_pg, touches_forAll, modLane_touches, rootSelect_touches,
      wr_touches, hk, a_time, a_clk, a_lanes]

theorem effRclko_touches {s : State} (i : Fin 2) (v : Nat) (hk : Touches A s0 s) (a_clk : A .clk = true) :
    Touches A s0 (effRclko i v s) := by
  simp (maxDischargeDepth := 60) [effRclko, touches_ite, touches_mk, within_dev, devArea, elim_ite, within_irq, within_pc,
      within_rclkoKey, squelch_touches, wr_touches, hk, a_clk]

theorem effAvailClear_touches {s : State} (v : Nat) (hk : Touches A s0 s) (a_clk : A .clk = true) :
    Touches A s0 (effAvailClear v s) := by
  simp (maxDischargeDepth := 60) [effAvailClear, touches_ite, touches_mk, within_dev, devArea, elim_ite, within_irq,
      within_pc, elim_ite, clrAll_touches, startSave_touches, hk, a_clk]

/-! ## LineRx -/

theorem snapshot_touches {s : State} (n : Fin 16) (hk : Touches A s0 s) (a_lanes : A .lanes = true) :
    Touches A s0 (State.snapshot s n) := by
  simp (maxDischargeDepth := 60) +contextual [State.snapshot, touches_ite, touches_mk, within_dev, devArea, elim_ite,
      within_irq, within_pc, within_line, within_host, within_pg, touches_forAll, incWrap_touches, wrI_touches, hk, a_lanes]

theorem snapLater_touches {s : State} (n : Fin 16) (hk : Touches A s0 s) (a_lanes : A .lanes = true) :
    Touches A s0 (State.snapLater s n) := by
  simp (maxDischargeDepth := 60) [State.snapLater, touches_ite, touches_mk, within_dev, devArea, elim_ite, within_irq,
      within_pc, within_line, within_host, within_pg, modLane_touches, hk, a_lanes]

theorem followFreeze_touches {s : State} (n : Fin 16) (f : State → State) (hk : Touches A s0 s) (a_lanes : A .lanes = true)
    (hf : ∀ z, Touches A s0 z → Touches A s0 (f z)) :
    Touches A s0 (State.followFreeze s n f) := by
  simp (maxDischargeDepth := 60) [State.followFreeze, touches_ite, touches_mk, within_dev, devArea, elim_ite, within_irq,
      within_pc, within_line, within_host, within_pg, snapLater_touches, hk, a_lanes, hf]

theorem setCoef_touches {s : State} (n : Fin 16) (c : Coefs) (hk : Touches A s0 s) (a_lanes : A .lanes = true) :
    Touches A s0 (State.setCoef s n c) := by
  simp (maxDischargeDepth := 60) [State.setCoef, touches_ite, touches_mk, within_dev, devArea, elim_ite, within_irq,
      within_pc, within_line, within_host, within_pg, modLane_touches, hk, a_lanes]

theorem acqStart_touches {s : State} (n : Fin 16) (forceCold : Bool) (hk : Touches A s0 s) (a_lanes : A .lanes = true) :
    Touches A s0 (State.acqStart s n forceCold) := by
  simp (maxDischargeDepth := 60) [State.acqStart, touches_ite, touches_mk, within_dev, devArea, elim_ite, within_irq,
      within_pc, within_line, within_host, within_pg, modLane_touches, setCoef_touches, hk, a_lanes]

theorem guardClear_touches {s : State} (n : Fin 16) (hk : Touches A s0 s) (a_lanes : A .lanes = true) :
    Touches A s0 (State.guardClear s n) := by
  simp (maxDischargeDepth := 60) [State.guardClear, touches_ite, touches_mk, within_dev, devArea, elim_ite, within_irq,
      within_pc, within_line, within_host, within_pg, modLane_touches, hk, a_lanes]

theorem adaptStop_touches {s : State} (n : Fin 16) (hk : Touches A s0 s) (a_lanes : A .lanes = true) :
    Touches A s0 (State.adaptStop s n) := by
  simp (maxDischargeDepth := 60) +contextual [State.adaptStop, touches_ite, touches_mk, within_dev, devArea, elim_ite,
      within_irq, within_pc, within_line, within_host, within_pg, followFreeze_touches, modLane_touches, hk, a_lanes]

theorem leaveC7_touches {s : State} (n : Fin 16) (hk : Touches A s0 s) (a_lanes : A .lanes = true) :
    Touches A s0 (State.leaveC7 s n) := by
  simp (maxDischargeDepth := 60) [State.leaveC7, touches_ite, touches_mk, within_dev, devArea, elim_ite, within_irq,
      within_pc, within_line, within_host, within_pg, modLane_touches, hk, a_lanes]

theorem ctleSearchEnd_touches {s : State} (n : Fin 16) (hk : Touches A s0 s) (a_lanes : A .lanes = true) :
    Touches A s0 (State.ctleSearchEnd s n) := by
  simp (maxDischargeDepth := 60) [State.ctleSearchEnd, touches_ite, touches_mk, within_dev, devArea, elim_ite, within_irq,
      within_pc, within_line, within_host, within_pg, modLane_touches, noteUnsaved_touches, wr_touches, hk, a_lanes]

theorem ctleSearchRead_touches {s : State} (n : Fin 16) (steps : Nat) (hk : Touches A s0 s) (a_lanes : A .lanes = true) :
    Touches A s0 (State.ctleSearchRead s n steps) := by
  simp (maxDischargeDepth := 60) [State.ctleSearchRead, touches_ite, touches_mk, within_dev, devArea, elim_ite, within_irq,
      within_pc, within_line, within_host, within_pg, ctleSearchEnd_touches, modLane_touches, hk, a_lanes]

theorem acqPeriodEnd_touches {s : State} (n : Fin 16) (hk : Touches A s0 s) (a_lanes : A .lanes = true) :
    Touches A s0 (State.acqPeriodEnd s n) := by
  simp (maxDischargeDepth := 60) [State.acqPeriodEnd, touches_ite, touches_mk, within_dev, devArea, elim_ite, within_irq,
      within_pc, within_line, within_host, within_pg, ctleSearchRead_touches, modLane_touches, hk, a_lanes]

theorem ctleSearchStep_touches {s : State} (n : Fin 16) (hk : Touches A s0 s) (a_lanes : A .lanes = true) :
    Touches A s0 (State.ctleSearchStep s n) := by
  unfold State.ctleSearchStep
  split <;> simp (maxDischargeDepth := 60) [touches_ite, touches_mk, within_dev, devArea, elim_ite, within_irq, within_pc,
      within_line, within_host, within_pg, ctleSearchEnd_touches, ctleSearchRead_touches, hk, a_lanes]

theorem agcFree_touches {s : State} (n : Fin 16) (hk : Touches A s0 s) (a_lanes : A .lanes = true) :
    Touches A s0 (State.agcFree s n) := by
  simp (maxDischargeDepth := 60) [State.agcFree, touches_ite, touches_mk, within_dev, devArea, elim_ite, within_irq,
      within_pc, within_line, within_host, within_pg, wr_touches, hk, a_lanes]

theorem agcStep_touches {s : State} (n : Fin 16) (hk : Touches A s0 s) (a_lanes : A .lanes = true) :
    Touches A s0 (State.agcStep s n) := by
  simp (maxDischargeDepth := 60) [State.agcStep, touches_ite, touches_mk, within_dev, devArea, elim_ite, within_irq,
      within_pc, within_line, within_host, within_pg, modLane_touches, wr_touches, hk, a_lanes]

theorem snrValue_touches {s : State} (p : Nat) (q : Nat) (hk : Touches A s0 s) :
    Touches A s0 (State.snrValue s p q).2 := by
  unfold State.snrValue
  split <;> simp (maxDischargeDepth := 60) [touches_ite, touches_mk, within_dev, devArea, elim_ite, within_irq, within_pc,
      fresh_touches, hk]

theorem lqmLevel_touches {s : State} (n : Fin 16) (i : Fin 4) (hk : Touches A s0 s) (a_lanes : A .lanes = true) :
    Touches A s0 (State.lqmLevel s n i) := by
  simp (maxDischargeDepth := 60) [State.lqmLevel, touches_ite, touches_mk, within_dev, devArea, elim_ite, within_irq,
      within_pc, within_line, within_host, within_pg, snrValue_touches, wr_touches, wrI_touches, hk, a_lanes]

theorem lqmOverall_touches {s : State} (n : Fin 16) (hk : Touches A s0 s) :
    Touches A s0 (State.lqmOverall s n).2 := by
  simp only [State.lqmOverall]
  (repeat' split) <;> simp (maxDischargeDepth := 60) [touches_ite, touches_mk, within_dev, devArea, elim_ite, within_irq,
      within_pc, fresh_touches, snrValue_touches, hk]

theorem lqmZero_touches {s : State} (n : Fin 16) (hk : Touches A s0 s) (a_lanes : A .lanes = true) :
    Touches A s0 (State.lqmZero s n) := by
  simp (maxDischargeDepth := 60) [State.lqmZero, touches_ite, touches_mk, within_dev, devArea, elim_ite, within_irq,
      within_pc, within_line, within_host, within_pg, modLane_touches, hk, a_lanes]

theorem lqmLatch_touches {s : State} (n : Fin 16) (hk : Touches A s0 s) (a_lanes : A .lanes = true) :
    Touches A s0 (State.lqmLatch s n) := by
  simp (maxDischargeDepth := 60) +contextual [State.lqmLatch, touches_ite, touches_mk, within_dev, devArea, elim_ite,
      within_irq, within_pc, within_line, within_host, within_pg, touches_when, touches_forAll, incWrap_touches,
      lqmLevel_touches, lqmOverall_touches, raise_touches, wr_touches, wrI_touches, hk, a_lanes]

theorem lqmEpoch_touches {s : State} (n : Fin 16) (hk : Touches A s0 s) (a_lanes : A .lanes = true) :
    Touches A s0 (State.lqmEpoch s n) := by
  simp (maxDischargeDepth := 60) [State.lqmEpoch, touches_ite, touches_mk, within_dev, devArea, elim_ite, within_irq,
      within_pc, within_line, within_host, within_pg, lqmLatch_touches, lqmZero_touches, modLane_touches, hk, a_lanes]

theorem swatchStore_touches {s : State} (n : Fin 16) (b : List Byte) (hk : Touches A s0 s) (a_lanes : A .lanes = true) :
    Touches A s0 (State.swatchStore s n b) := by
  simp (maxDischargeDepth := 60) [State.swatchStore, touches_ite, touches_mk, within_dev, devArea, elim_ite, within_irq,
      within_pc, within_line, within_host, within_pg, modLane_touches, hk, a_lanes]

theorem swatchAccept_touches {s : State} (n : Fin 16) (hk : Touches A s0 s) (a_lanes : A .lanes = true) :
    Touches A s0 (State.swatchAccept s n) := by
  simp (maxDischargeDepth := 60) [State.swatchAccept, touches_ite, touches_mk, within_dev, devArea, elim_ite, within_irq,
      within_pc, within_line, within_host, within_pg, wr_touches, hk, a_lanes]

theorem swatchTrigger_touches {s : State} (n : Fin 16) (src : Nat) (hk : Touches A s0 s) (a_lanes : A .lanes = true) :
    Touches A s0 (State.swatchTrigger s n src) := by
  simp (maxDischargeDepth := 60) [State.swatchTrigger, touches_ite, touches_mk, within_dev, devArea, elim_ite, within_irq,
      within_pc, within_line, within_host, within_pg, swatchAccept_touches, hk, a_lanes]

theorem swatchArm_touches {s : State} (n : Fin 16) (hk : Touches A s0 s) (a_lanes : A .lanes = true) :
    Touches A s0 (State.swatchArm s n) := by
  simp (maxDischargeDepth := 60) [State.swatchArm, touches_ite, touches_mk, within_dev, devArea, elim_ite, within_irq,
      within_pc, within_line, within_host, within_pg, elim_ite, clrAll_touches, modLane_touches, swatchTrigger_touches,
      wr_touches, hk, a_lanes]

theorem swatchAbort_touches {s : State} (n : Fin 16) (hk : Touches A s0 s) (a_lanes : A .lanes = true) :
    Touches A s0 (State.swatchAbort s n) := by
  simp (maxDischargeDepth := 60) [State.swatchAbort, touches_ite, touches_mk, within_dev, devArea, elim_ite, within_irq,
      within_pc, within_line, within_host, within_pg, wr_touches, hk, a_lanes]

theorem swatchComplete_touches {s : State} (n : Fin 16) (hk : Touches A s0 s) (a_lanes : A .lanes = true) :
    Touches A s0 (State.swatchComplete s n) := by
  exact touches_ite _ (raise_touches _ (wr_touches _ _ (wr_touches _ _ (wr_touches _ _ hk a_lanes) a_lanes) a_lanes)) hk

theorem rxSubstituted_touches {s : State} (n : Fin 16) (hk : Touches A s0 s) (a_lanes : A .lanes = true) :
    Touches A s0 (State.rxSubstituted s n) := by
  simp (maxDischargeDepth := 60) +contextual [State.rxSubstituted, touches_ite, touches_mk, within_dev, devArea, elim_ite,
      within_irq, within_pc, within_line, within_host, within_pg, followFreeze_touches, incSat_touches, modLane_touches, hk,
      a_lanes]

theorem rxCc_touches {s : State} (n : Fin 16) (g : RxCfg) (codes : List (BitVec 8)) (hk : Touches A s0 s) (a_lanes : A .lanes
    = true) :
    Touches A s0 (State.rxCc s n g codes).1 := by
  simp (maxDischargeDepth := 60) [State.rxCc, touches_ite, touches_mk, within_dev, devArea, elim_ite, within_irq, within_pc,
      within_line, within_host, within_pg, addSat_touches, modLane_touches, swatchStore_touches, hk, a_lanes]

theorem rxCcs_touches {s : State} (n : Fin 16) (g : RxCfg) (x0 : List (List (BitVec 8))) (hk : Touches A s0 s) (a_lanes : A
    .lanes = true) :
    Touches A s0 (State.rxCcs s n g x0).1 := by
  induction x0 generalizing s with
  | nil => exact hk
  | cons x l ih => exact ih (rxCc_touches _ _ _ hk a_lanes)

theorem hckoFollow_touches {s : State} (k : Fin 4) (hk : Touches A s0 s) (a_lanes : A .lanes = true) :
    Touches A s0 (State.hckoFollow s k) := by
  simp (maxDischargeDepth := 60) [State.hckoFollow, touches_ite, touches_mk, within_dev, devArea, elim_ite, within_irq,
      within_pc, within_line, within_host, within_pg, modPg_touches, hk, a_lanes]

theorem cdrShow_touches {s : State} (n : Fin 16) (hk : Touches A s0 s) (a_lanes : A .lanes = true) :
    Touches A s0 (State.cdrShow s n) := by
  simp (maxDischargeDepth := 60) [State.cdrShow, touches_ite, touches_mk, within_dev, devArea, elim_ite, within_irq,
      within_pc, within_line, within_host, within_pg, hckoFollow_touches, modLane_touches, wr_touches, wrI_touches, hk,
      a_lanes]

theorem adaptUpdate_touches {s : State} (n : Fin 16) (cc : List (List (BitVec 8))) (hk : Touches A s0 s) (a_lanes : A .lanes =
    true) :
    Touches A s0 (State.adaptUpdate s n cc) := by
  simp (maxDischargeDepth := 60) [State.adaptUpdate, touches_ite, touches_mk, within_dev, devArea, elim_ite, within_irq,
      within_pc, within_line, within_host, within_pg, agcFree_touches, cdrShow_touches, modLane_touches, rxCcs_touches, hk,
      a_lanes]

theorem guardEpoch_touches {s : State} (n : Fin 16) (hk : Touches A s0 s) (a_lanes : A .lanes = true) :
    Touches A s0 (State.guardEpoch s n) := by
  simp (maxDischargeDepth := 60) [State.guardEpoch, touches_ite, touches_mk, within_dev, devArea, elim_ite, within_irq,
      within_pc, within_line, within_host, within_pg, modLane_touches, hk, a_lanes]

theorem guardTrip_touches {s : State} (n : Fin 16) (hk : Touches A s0 s) (a_lanes : A .lanes = true) :
    Touches A s0 (State.guardTrip s n) := by
  simp (maxDischargeDepth := 60) [State.guardTrip, touches_ite, touches_mk, within_dev, devArea, elim_ite, within_irq,
      within_pc, within_line, within_host, within_pg, incSat_touches, modLane_touches, raise_touches, setCoef_touches,
      snapshot_touches, hk, a_lanes]

theorem coefWritten_touches {s : State} (n : Fin 16) (off : Nat) (sub : Nat) (v : Nat) (hk : Touches A s0 s) (a_lanes : A
    .lanes = true) :
    Touches A s0 (State.coefWritten s n off sub v) := by
  simp (maxDischargeDepth := 60) [State.coefWritten, touches_ite, touches_mk, within_dev, devArea, elim_ite, within_irq,
      within_pc, within_line, within_host, within_pg, modLane_touches, setCoef_touches, hk, a_lanes]

theorem rxLaneReset_touches {s : State} (n : Fin 16) (hk : Touches A s0 s) (a_lanes : A .lanes = true) :
    Touches A s0 (State.rxLaneReset s n) := by
  simp (maxDischargeDepth := 60) [State.rxLaneReset, touches_ite, touches_mk, within_dev, devArea, elim_ite, within_irq,
      within_pc, within_line, within_host, within_pg, adaptStop_touches, modLane_touches, swatchAbort_touches, hk, a_lanes]

theorem rxBoundary_touches {s : State} (n : Fin 16) (hk : Touches A s0 s) (a_lanes : A .lanes = true) :
    Touches A s0 (State.rxBoundary s n) := by
  simp (maxDischargeDepth := 60) [State.rxBoundary, touches_ite, touches_mk, within_dev, devArea, elim_ite, within_irq,
      within_pc, within_line, within_host, within_pg, acqStart_touches, guardClear_touches, modLane_touches, setCoef_touches,
      snapshot_touches, hk, a_lanes]

theorem effAdaptCtrl_touches {s : State} (n : Fin 16) (v : Nat) (hk : Touches A s0 s) (a_lanes : A .lanes = true) :
    Touches A s0 (effAdaptCtrl n v s) := by
  simp (maxDischargeDepth := 60) +contextual [effAdaptCtrl, touches_ite, touches_mk, within_dev, devArea, elim_ite,
      within_irq, within_pc, within_line, within_host, within_pg, followFreeze_touches, modLane_touches, wr_touches, hk,
      a_lanes]

theorem effFfeSnap_touches {s : State} (n : Fin 16) (v : Nat) (hk : Touches A s0 s) (a_lanes : A .lanes = true) :
    Touches A s0 (effFfeSnap n v s) := by
  simp (maxDischargeDepth := 60) [effFfeSnap, touches_ite, touches_mk, within_dev, devArea, elim_ite, within_irq, within_pc,
      within_line, within_host, within_pg, snapLater_touches, hk, a_lanes]

theorem effLqmClear_touches {s : State} (n : Fin 16) (v : Nat) (hk : Touches A s0 s) (a_lanes : A .lanes = true) :
    Touches A s0 (effLqmClear n v s) := by
  simp (maxDischargeDepth := 60) [effLqmClear, touches_ite, touches_mk, within_dev, devArea, elim_ite, within_irq, within_pc,
      within_line, within_host, within_pg, lqmZero_touches, hk, a_lanes]

theorem effSwatchArm_touches {s : State} (n : Fin 16) (v : Nat) (hk : Touches A s0 s) (a_lanes : A .lanes = true) :
    Touches A s0 (effSwatchArm n v s) := by
  simp (maxDischargeDepth := 60) [effSwatchArm, touches_ite, touches_mk, within_dev, devArea, elim_ite, within_irq, within_pc,
      within_line, within_host, within_pg, swatchArm_touches, hk, a_lanes]

theorem effCtlePeak_touches {s : State} (n : Fin 16) (v : Nat) (hk : Touches A s0 s) (a_lanes : A .lanes = true) :
    Touches A s0 (effCtlePeak n v s) := by
  simp (maxDischargeDepth := 60) [effCtlePeak, touches_ite, touches_mk, within_dev, devArea, elim_ite, within_irq, within_pc,
      within_line, within_host, within_pg, modLane_touches, wr_touches, hk, a_lanes]

theorem effFfeLen_touches {s : State} (n : Fin 16) (v : Nat) (hk : Touches A s0 s) (a_lanes : A .lanes = true) :
    Touches A s0 (effFfeLen n v s) := by
  simp (maxDischargeDepth := 60) [effFfeLen, touches_ite, touches_mk, within_dev, devArea, elim_ite, within_irq, within_pc,
      within_line, within_host, within_pg, setCoef_touches, wr_touches, hk, a_lanes]

/-! ## LineTx -/

theorem calDacBegin_touches {s : State} (n : Fin 16) (hk : Touches A s0 s) (a_lanes : A .lanes = true) :
    Touches A s0 (State.calDacBegin s n) := by
  simp (maxDischargeDepth := 60) [State.calDacBegin, touches_ite, touches_mk, within_dev, devArea, elim_ite, within_irq,
      within_pc, within_line, within_host, within_pg, modLane_touches, wr_touches, wrBit_touches, hk, a_lanes]

theorem picotCut_touches {s : State} (n : Fin 16) (hk : Touches A s0 s) (a_lanes : A .lanes = true) :
    Touches A s0 (State.picotCut s n) := by
  simp (maxDischargeDepth := 60) [State.picotCut, touches_ite, touches_mk, within_dev, devArea, elim_ite, within_irq,
      within_pc, within_line, within_host, within_pg, calDacBegin_touches, incSat_touches, modLane_touches, hk, a_lanes]

theorem injFollow_touches {s : State} (n : Fin 16) (hk : Touches A s0 s) (a_lanes : A .lanes = true) :
    Touches A s0 (State.injFollow s n) := by
  simp (maxDischargeDepth := 60) [State.injFollow, touches_ite, touches_mk, within_dev, devArea, elim_ite, within_irq,
      within_pc, within_line, within_host, within_pg, addSat_touches, modLane_touches, hk, a_lanes]

theorem injRebase_touches {s : State} (n : Fin 16) (hk : Touches A s0 s) (a_lanes : A .lanes = true) :
    Touches A s0 (State.injRebase s n) := by
  simp (maxDischargeDepth := 60) [State.injRebase, touches_ite, touches_mk, within_dev, devArea, elim_ite, within_irq,
      within_pc, within_line, within_host, within_pg, injFollow_touches, modLane_touches, hk, a_lanes]

theorem outSet_touches {s : State} (n : Fin 16) (f : LaneS → LaneS) (hk : Touches A s0 s) (a_lanes : A .lanes = true) :
    Touches A s0 (State.outSet s n f) := by
  simp (maxDischargeDepth := 60) [State.outSet, touches_ite, touches_mk, within_dev, devArea, elim_ite, within_irq, within_pc,
      within_line, within_host, within_pg, injFollow_touches, modLane_touches, hk, a_lanes]

theorem outFollow_touches {s : State} (n : Fin 16) (hk : Touches A s0 s) (a_lanes : A .lanes = true) :
    Touches A s0 (State.outFollow s n) := by
  simp only [State.outFollow]
  (repeat' split) <;> simp (maxDischargeDepth := 60) [touches_ite, touches_mk, within_dev, devArea, elim_ite, within_irq,
      within_pc, within_line, within_host, within_pg, outSet_touches, picotCut_touches, hk, a_lanes]

theorem outStep_touches {s : State} (n : Fin 16) (hk : Touches A s0 s) (a_lanes : A .lanes = true) :
    Touches A s0 (State.outStep s n) := by
  simp only [State.outStep]
  (repeat' split) <;> simp (maxDischargeDepth := 60) [touches_ite, touches_mk, within_dev, devArea, elim_ite, within_irq,
      within_pc, within_line, within_host, within_pg, outSet_touches, hk, a_lanes]

theorem outForceOff_touches {s : State} (n : Fin 16) (hk : Touches A s0 s) (a_lanes : A .lanes = true) :
    Touches A s0 (State.outForceOff s n) := by
  simp (maxDischargeDepth := 60) [State.outForceOff, touches_ite, touches_mk, within_dev, devArea, elim_ite, within_irq,
      within_pc, within_line, within_host, within_pg, outSet_touches, picotCut_touches, hk, a_lanes]

theorem outRelease_touches {s : State} (n : Fin 16) (hk : Touches A s0 s) (a_lanes : A .lanes = true) :
    Touches A s0 (State.outRelease s n) := by
  simp (maxDischargeDepth := 60) [State.outRelease, touches_ite, touches_mk, within_dev, devArea, elim_ite, within_irq,
      within_pc, within_line, within_host, within_pg, modLane_touches, outFollow_touches, hk, a_lanes]

theorem chooseSrc_touches {s : State} (n : Fin 16) (v : Nat) (hk : Touches A s0 s) (a_lanes : A .lanes = true) :
    Touches A s0 (State.chooseSrc s n v) := by
  simp (maxDischargeDepth := 60) [State.chooseSrc, touches_ite, touches_mk, within_dev, devArea, elim_ite, within_irq,
      within_pc, within_line, within_host, within_pg, modLane_touches, hk, a_lanes]

theorem txBoundary_touches {s : State} (n : Fin 16) (hk : Touches A s0 s) (a_lanes : A .lanes = true) :
    Touches A s0 (State.txBoundary s n) := by
  simp only [State.txBoundary]
  (repeat' split) <;> simp (maxDischargeDepth := 60) [touches_ite, touches_mk, within_dev, devArea, elim_ite, within_irq,
      within_pc, within_line, within_host, within_pg, modLane_touches, setTxTaps_touches, hk, a_lanes]

theorem queueSlip_touches {s : State} (n : Fin 16) (hk : Touches A s0 s) (a_lanes : A .lanes = true) :
    Touches A s0 (State.queueSlip s n) := by
  simp (maxDischargeDepth := 60) [State.queueSlip, touches_ite, touches_mk, within_dev, devArea, elim_ite, within_irq,
      within_pc, within_line, within_host, within_pg, incSat_touches, modLane_touches, raise_touches, wrBit_touches, hk,
      a_lanes]

theorem rampStep_touches {s : State} (n : Fin 16) (w : Ramp) (hk : Touches A s0 s) (a_lanes : A .lanes = true) :
    Touches A s0 (State.rampStep s n w) := by
  unfold State.rampStep
  split <;> simp (maxDischargeDepth := 60) [touches_ite, touches_mk, within_dev, devArea, elim_ite, within_irq, within_pc,
      within_line, within_host, within_pg, modHost_touches, modLane_touches, hk, a_lanes]

theorem txLaneReset_touches {s : State} (n : Fin 16) (hk : Touches A s0 s) (a_lanes : A .lanes = true) :
    Touches A s0 (State.txLaneReset s n) := by
  simp (maxDischargeDepth := 60) [State.txLaneReset, touches_ite, touches_mk, within_dev, devArea, elim_ite, within_irq,
      within_pc, within_line, within_host, within_pg, modLane_touches, outFollow_touches, wrBit_touches, hk, a_lanes]

theorem effTxOut_touches {s : State} (n : Fin 16) (k : Key) (v : Nat) (hk : Touches A s0 s) (a_lanes : A .lanes = true) (h_k :
    Key.within A k = true) :
    Touches A s0 (effTxOut n k v s) := by
  simp (maxDischargeDepth := 60) [effTxOut, touches_ite, touches_mk, within_dev, within_line, within_host, within_pg,
      within_port, within_loop, within_aux, within_og, within_chain, within_mb, within_pc, within_slot, within_pwr,
      within_irq, devArea, elim_ite, outFollow_touches, wr_touches, hk, a_lanes, h_k]

theorem effTxFfeMain_touches {s : State} (n : Fin 16) (v : Nat) (hk : Touches A s0 s) (a_lanes : A .lanes = true) :
    Touches A s0 (effTxFfeMain n v s) := by
  simp (maxDischargeDepth := 60) [effTxFfeMain, touches_ite, touches_mk, within_dev, devArea, elim_ite, within_irq, within_pc,
      within_line, within_host, within_pg, dropWaiting_touches, modLane_touches, setTxTaps_touches, wr_touches, hk, a_lanes]

/-! ## LineFormat -/

theorem setCw_touches {s : State} (n : Fin 16) (v : Nat) (hk : Touches A s0 s) (a_lanes : A .lanes = true) :
    Touches A s0 (State.setCw s n v) := by
  simp (maxDischargeDepth := 60) [State.setCw, touches_ite, touches_mk, within_dev, devArea, elim_ite, within_irq, within_pc,
      within_line, within_host, within_pg, wrBit_touches, wrField_touches, hk, a_lanes]

theorem setEp_touches {s : State} (n : Fin 16) (v : Nat) (hk : Touches A s0 s) (a_lanes : A .lanes = true) :
    Touches A s0 (State.setEp s n v) := by
  simp (maxDischargeDepth := 60) [State.setEp, touches_ite, touches_mk, within_dev, devArea, elim_ite, within_irq, within_pc,
      within_line, within_host, within_pg, modLane_touches, wrBit_touches, wrField_touches, hk, a_lanes]

theorem showMarkers_touches {s : State} (n : Fin 16) (hk : Touches A s0 s) (a_lanes : A .lanes = true) :
    Touches A s0 (State.showMarkers s n) := by
  simp (maxDischargeDepth := 60) [State.showMarkers, touches_ite, touches_mk, within_dev, devArea, elim_ite, within_irq,
      within_pc, within_line, within_host, within_pg, wrBit_touches, hk, a_lanes]

theorem followFrame_touches {s : State} (n : Fin 16) (lineLoss : Bool) (hk : Touches A s0 s) (a_clk : A .clk = true) (a_lanes
    : A .lanes = true) :
    Touches A s0 (State.followFrame s n lineLoss) := by
  simp (maxDischargeDepth := 60) +contextual [State.followFrame, touches_ite, touches_mk, within_dev, devArea, elim_ite,
      within_irq, within_pc, within_line, within_host, within_pg, followFreeze_touches, incSat_touches, modLane_touches,
      outageStart_touches, raise_touches, rclkoLaneLost_touches, wrBit_touches, hk, a_clk, a_lanes]

theorem markersOff_touches {s : State} (n : Fin 16) (hk : Touches A s0 s) (a_lanes : A .lanes = true) :
    Touches A s0 (State.markersOff s n) := by
  simp (maxDischargeDepth := 60) [State.markersOff, touches_ite, touches_mk, within_dev, devArea, elim_ite, within_irq,
      within_pc, within_line, within_host, within_pg, modLane_touches, setEp_touches, showMarkers_touches, hk, a_lanes]

theorem cwLost_touches {s : State} (n : Fin 16) (hk : Touches A s0 s) (a_clk : A .clk = true) (a_lanes : A .lanes = true) :
    Touches A s0 (State.cwLost s n) := by
  simp (maxDischargeDepth := 60) [State.cwLost, touches_ite, touches_mk, within_dev, devArea, elim_ite, within_irq, within_pc,
      within_line, within_host, within_pg, followFrame_touches, incSat_touches, markersOff_touches, modLane_touches,
      setCw_touches, hk, a_clk, a_lanes]

theorem lockHunt_touches {s : State} (n : Fin 16) (hk : Touches A s0 s) (a_lanes : A .lanes = true) :
    Touches A s0 (State.lockHunt s n) := by
  simp (maxDischargeDepth := 60) [State.lockHunt, touches_ite, touches_mk, within_dev, devArea, elim_ite, within_irq,
      within_pc, within_line, within_host, within_pg, modLane_touches, setCw_touches, hk, a_lanes]

theorem lockIdle_touches {s : State} (n : Fin 16) (hk : Touches A s0 s) (a_clk : A .clk = true) (a_lanes : A .lanes = true) :
    Touches A s0 (State.lockIdle s n) := by
  simp (maxDischargeDepth := 60) [State.lockIdle, touches_ite, touches_mk, within_dev, devArea, elim_ite, within_irq,
      within_pc, within_line, within_host, within_pg, followFrame_touches, markersOff_touches, modLane_touches, setCw_touches,
      hk, a_clk, a_lanes]

theorem countSyms_touches {s : State} (n : Fin 16) (d : Decoded) (hk : Touches A s0 s) (a_lanes : A .lanes = true) :
    Touches A s0 (State.countSyms s n d) := by
  unfold State.countSyms
  split <;> simp (maxDischargeDepth := 60) [touches_ite, touches_mk, within_dev, devArea, elim_ite, within_irq, within_pc,
      within_line, within_host, within_pg, addSat_touches, hk, a_lanes]

theorem countCw_touches {s : State} (n : Fin 16) (d : Decoded) (marks : List Nat) (hk : Touches A s0 s) (a_lanes : A .lanes =
    true) :
    Touches A s0 (State.countCw s n d marks) := by
  unfold State.countCw
  split <;> simp (maxDischargeDepth := 60) [touches_ite, touches_mk, within_dev, devArea, elim_ite, within_irq, within_pc,
      within_line, within_host, within_pg, addSat_touches, incSat_touches, modLane_touches, hk, a_lanes]

theorem codeword_touches {s : State} (n : Fin 16) (hk : Touches A s0 s) (a_clk : A .clk = true) (a_lanes : A .lanes = true) :
    Touches A s0 (State.codeword s n) := by
  unfold State.codeword
  split <;> simp (maxDischargeDepth := 60) [touches_ite, touches_mk, within_dev, devArea, elim_ite, within_irq, within_pc,
      within_line, within_host, within_pg, addSat_touches, countCw_touches, countSyms_touches, cwLost_touches,
      modLane_touches, hk, a_clk, a_lanes]

theorem slotRename_touches {s : State} (n : Fin 16) (shift : Nat) (hk : Touches A s0 s) (a_lanes : A .lanes = true) :
    Touches A s0 (State.slotRename s n shift) := by
  simp (maxDischargeDepth := 60) [State.slotRename, touches_ite, touches_mk, within_dev, devArea, elim_ite, within_irq,
      within_pc, within_line, within_host, within_pg, modLane_touches, hk, a_lanes]

theorem cwEnter_touches {s : State} (n : Fin 16) (hk : Touches A s0 s) (a_lanes : A .lanes = true) :
    Touches A s0 (State.cwEnter s n) := by
  simp (maxDischargeDepth := 60) [State.cwEnter, touches_ite, touches_mk, within_dev, devArea, elim_ite, within_irq,
      within_pc, within_line, within_host, within_pg, incWrap_touches, modLane_touches, setCw_touches, slotRename_touches, hk,
      a_lanes]

theorem takeBlock_touches {s : State} (n : Fin 16) (more : Nat) (hk : Touches A s0 s) (a_lanes : A .lanes = true) :
    Touches A s0 (State.takeBlock s n more) := by
  simp (maxDischargeDepth := 60) [State.takeBlock, touches_ite, touches_mk, within_dev, devArea, elim_ite, within_irq,
      within_pc, within_line, within_host, within_pg, modLane_touches, hk, a_lanes]

theorem blockDecoded_touches {s : State} (n : Fin 16) (hk : Touches A s0 s) (a_lanes : A .lanes = true) :
    Touches A s0 (State.blockDecoded s n) := by
  unfold State.blockDecoded
  split <;> simp (maxDischargeDepth := 60) [touches_ite, touches_mk, within_dev, devArea, elim_ite, within_irq, within_pc,
      within_line, within_host, within_pg, cwEnter_touches, modLane_touches, setCw_touches, takeBlock_touches, hk, a_lanes]

theorem markerAt_touches {s : State} (n : Fin 16) (b : Bool) (differ : Nat) (p : Nat) (hk : Touches A s0 s) (a_clk : A .clk =
    true) (a_lanes : A .lanes = true) :
    Touches A s0 (State.markerAt s n b differ p) := by
  unfold State.markerAt
  (repeat' split) <;> simp (maxDischargeDepth := 60) [touches_ite, touches_mk, within_dev, devArea, elim_ite, within_irq,
      within_pc, within_line, within_host, within_pg, followFrame_touches, incSat_touches, modLane_touches,
      showMarkers_touches, wrField_touches, hk, a_clk, a_lanes]

theorem rxEpoch_touches {s : State} (n : Fin 16) (hk : Touches A s0 s) (a_lanes : A .lanes = true) :
    Touches A s0 (State.rxEpoch s n) := by
  simp (maxDischargeDepth := 60) +contextual [State.rxEpoch, touches_ite, touches_mk, within_dev, devArea, elim_ite,
      within_irq, within_pc, within_line, within_host, within_pg, touches_when, guardEpoch_touches, lqmEpoch_touches,
      modLane_touches, raise_touches, wr_touches, hk, a_lanes]

theorem epochTag_touches {s : State} (n : Fin 16) (hk : Touches A s0 s) (a_lanes : A .lanes = true) :
    Touches A s0 (State.epochTag s n) := by
  unfold State.epochTag
  (repeat' split) <;> simp (maxDischargeDepth := 60) [touches_ite, touches_mk, within_dev, devArea, elim_ite, within_irq,
      within_pc, within_line, within_host, within_pg, incSat_touches, incWrap_touches, modLane_touches, rxEpoch_touches,
      setEp_touches, hk, a_lanes]

theorem fecClear_touches {s : State} (n : Fin 16) (hk : Touches A s0 s) (a_lanes : A .lanes = true) :
    Touches A s0 (State.fecClear s n) := by
  simp (maxDischargeDepth := 60) [State.fecClear, touches_ite, touches_mk, within_dev, devArea, elim_ite, within_irq,
      within_pc, within_line, within_host, within_pg, elim_ite, clrAll_touches, hk, a_lanes]

theorem formatLaneReset_touches {s : State} (n : Fin 16) (hk : Touches A s0 s) (a_clk : A .clk = true) (a_lanes : A .lanes =
    true) :
    Touches A s0 (State.formatLaneReset s n) := by
  simp (maxDischargeDepth := 60) [State.formatLaneReset, touches_ite, touches_mk, within_dev, devArea, elim_ite, within_irq,
      within_pc, within_line, within_host, within_pg, lockIdle_touches, modLane_touches, wr_touches, hk, a_clk, a_lanes]

theorem effFecClear_touches {s : State} (n : Fin 16) (v : Nat) (hk : Touches A s0 s) (a_lanes : A .lanes = true) :
    Touches A s0 (effFecClear n v s) := by
  simp (maxDischargeDepth := 60) [effFecClear, touches_ite, touches_mk, within_dev, devArea, elim_ite, within_irq, within_pc,
      within_line, within_host, within_pg, fecClear_touches, hk, a_lanes]

theorem effFecInject_touches {s : State} (n : Fin 16) (v : Nat) (hk : Touches A s0 s) (a_lanes : A .lanes = true) :
    Touches A s0 (effFecInject n v s) := by
  simp (maxDischargeDepth := 60) [effFecInject, touches_ite, touches_mk, within_dev, devArea, elim_ite, within_irq, within_pc,
      within_line, within_host, within_pg, injFollow_touches, modLane_touches, wr_touches, hk, a_lanes]

/-! ## Latency -/

theorem latEvent_touches {s : State} (n : Fin 16) (cause : Nat) (hk : Touches A s0 s) (a_lanes : A .lanes = true) :
    Touches A s0 (State.latEvent s n cause) := by
  simp (maxDischargeDepth := 60) [State.latEvent, touches_ite, touches_mk, within_dev, devArea, elim_ite, within_irq,
      within_pc, within_line, within_host, within_pg, incSat_touches, incWrap_touches, modLane_touches, modMgmt_touches,
      raise_touches, record_touches, wr_touches, hk, a_lanes]

theorem queueFound_touches {s : State} (n : Fin 16) (dist : Nat) (hk : Touches A s0 s) (a_lanes : A .lanes = true) :
    Touches A s0 (State.queueFound s n dist) := by
  simp (maxDischargeDepth := 60) [State.queueFound, touches_ite, touches_mk, within_dev, devArea, elim_ite, within_irq,
      within_pc, within_line, within_host, within_pg, latEvent_touches, queueSlip_touches, hk, a_lanes]

theorem latRecompute_touches {s : State} (n : Fin 16) (hk : Touches A s0 s) (a_lanes : A .lanes = true) :
    Touches A s0 (State.latRecompute s n) := by
  simp (maxDischargeDepth := 60) [State.latRecompute, touches_ite, touches_mk, within_dev, devArea, elim_ite, within_irq,
      within_pc, within_line, within_host, within_pg, modLane_touches, wrI_touches, hk, a_lanes]

theorem epochLatency_touches {s : State} (n : Fin 16) (hk : Touches A s0 s) (a_lanes : A .lanes = true) :
    Touches A s0 (State.epochLatency s n) := by
  simp (maxDischargeDepth := 60) [State.epochLatency, touches_ite, touches_mk, within_dev, devArea, elim_ite, within_irq,
      within_pc, within_line, within_host, within_pg, latRecompute_touches, raise_touches, hk, a_lanes]

theorem cfgChanged_touches {s : State} (n : Fin 16) (hk : Touches A s0 s) (a_lanes : A .lanes = true) :
    Touches A s0 (State.cfgChanged s n) := by
  simp (maxDischargeDepth := 60) [State.cfgChanged, touches_ite, touches_mk, within_dev, devArea, elim_ite, within_irq,
      within_pc, within_line, within_host, within_pg, epochLatency_touches, latEvent_touches, modLane_touches, hk, a_lanes]

theorem cfgReport_touches {s : State} (n : Fin 16) (hk : Touches A s0 s) (a_lanes : A .lanes = true) :
    Touches A s0 (State.cfgReport s n) := by
  simp (maxDischargeDepth := 60) [State.cfgReport, touches_ite, touches_mk, within_dev, devArea, elim_ite, within_irq,
      within_pc, within_line, within_host, within_pg, epochLatency_touches, latEvent_touches, modLane_touches, hk, a_lanes]

theorem effTxSkew_touches {s : State} (n : Fin 16) (v : Nat) (hk : Touches A s0 s) (a_lanes : A .lanes = true) :
    Touches A s0 (effTxSkew n v s) := by
  simp (maxDischargeDepth := 60) [effTxSkew, touches_ite, touches_mk, within_dev, devArea, elim_ite, within_irq, within_pc,
      within_line, within_host, within_pg, cfgChanged_touches, wr_touches, hk, a_lanes]

theorem effTxOutMode_touches {s : State} (n : Fin 16) (v : Nat) (hk : Touches A s0 s) (a_lanes : A .lanes = true) :
    Touches A s0 (effTxOutMode n v s) := by
  simp (maxDischargeDepth := 60) [effTxOutMode, touches_ite, touches_mk, within_dev, devArea, elim_ite, within_irq, within_pc,
      within_line, within_host, within_pg, cfgChanged_touches, outFollow_touches, wr_touches, hk, a_lanes]

/-! ## HostLane -/

theorem setHostBit_touches {s : State} (m : Fin 32) (i : Nat) (b : Bool) (hk : Touches A s0 s) (a_lanes : A .lanes = true) :
    Touches A s0 (State.setHostBit s m i b) := by
  simp (maxDischargeDepth := 60) [State.setHostBit, touches_ite, touches_mk, within_dev, devArea, elim_ite, within_irq,
      within_pc, within_line, within_host, within_pg, wrBit_touches, hk, a_lanes]

theorem setSignal_touches {s : State} (m : Fin 32) (b : Bool) (hk : Touches A s0 s) (a_lanes : A .lanes = true) :
    Touches A s0 (State.setSignal s m b) := by
  simp (maxDischargeDepth := 60) [State.setSignal, touches_ite, touches_mk, within_dev, devArea, elim_ite, within_irq,
      within_pc, within_line, within_host, within_pg, raiseIn_touches, setHostBit_touches, hk, a_lanes]

theorem setAlign_touches {s : State} (m : Fin 32) (b : Bool) (hk : Touches A s0 s) (a_lanes : A .lanes = true) :
    Touches A s0 (State.setAlign s m b) := by
  simp (maxDischargeDepth := 60) [State.setAlign, touches_ite, touches_mk, within_dev, devArea, elim_ite, within_irq,
      within_pc, within_line, within_host, within_pg, raiseIn_touches, setHostBit_touches, hk, a_lanes]

theorem hostTapsHeld_touches {s : State} (m : Fin 32) (hk : Touches A s0 s) (a_lanes : A .lanes = true) :
    Touches A s0 (State.hostTapsHeld s m) := by
  simp (maxDischargeDepth := 60) [State.hostTapsHeld, touches_ite, touches_mk, within_dev, devArea, elim_ite, within_irq,
      within_pc, within_line, within_host, within_pg, fresh_touches, wr_touches, hk, a_lanes]

theorem hostTapsFollow_touches {s : State} (m : Fin 32) (f : State → State) (hk : Touches A s0 s) (a_lanes : A .lanes = true)
    (hf : ∀ z, Touches A s0 z → Touches A s0 (f z)) :
    Touches A s0 (State.hostTapsFollow s m f) := by
  simp (maxDischargeDepth := 60) [State.hostTapsFollow, touches_ite, touches_mk, within_dev, devArea, elim_ite, within_irq,
      within_pc, within_line, within_host, within_pg, hostTapsHeld_touches, hk, a_lanes, hf]

theorem clkOkLost_touches {sn : State} (m : Fin 32) (hk : Touches A s0 sn) (a_lanes : A .lanes = true) :
    Touches A s0 (State.clkOkLost sn m) := by
  simp (maxDischargeDepth := 60) +contextual [State.clkOkLost, touches_ite, touches_mk, within_dev, devArea, elim_ite,
      within_irq, within_pc, within_line, within_host, within_pg, hostTapsFollow_touches, modHost_touches, setAlign_touches,
      setHostBit_touches, hk, a_lanes]

theorem hostTrain_touches {s : State} (m : Fin 32) (hk : Touches A s0 s) (a_lanes : A .lanes = true) :
    Touches A s0 (State.hostTrain s m) := by
  simp (maxDischargeDepth := 60) [State.hostTrain, touches_ite, touches_mk, within_dev, devArea, elim_ite, within_irq,
      within_pc, within_line, within_host, within_pg, modHost_touches, hk, a_lanes]

theorem hostSignalClear_touches {s : State} (m : Fin 32) (hk : Touches A s0 s) (a_lanes : A .lanes = true) :
    Touches A s0 (State.hostSignalClear s m) := by
  simp (maxDischargeDepth := 60) [State.hostSignalClear, touches_ite, touches_mk, within_dev, devArea, elim_ite, within_irq,
      within_pc, within_line, within_host, within_pg, clkOkLost_touches, setSignal_touches, hk, a_lanes]

theorem hostSignalSet_touches {s : State} (m : Fin 32) (hk : Touches A s0 s) (a_lanes : A .lanes = true) :
    Touches A s0 (State.hostSignalSet s m) := by
  simp (maxDischargeDepth := 60) [State.hostSignalSet, touches_ite, touches_mk, within_dev, devArea, elim_ite, within_irq,
      within_pc, within_line, within_host, within_pg, hostTrain_touches, setSignal_touches, hk, a_lanes]

theorem capture_touches {s : State} (m : Fin 32) (phase : Nat) (hk : Touches A s0 s) (a_lanes : A .lanes = true) :
    Touches A s0 (State.capture s m phase) := by
  unfold State.capture
  (repeat' split) <;> simp (maxDischargeDepth := 60) [touches_ite, touches_mk, within_dev, devArea, elim_ite, within_irq,
      within_pc, within_line, within_host, within_pg, modHost_touches, wr_touches, wrI_touches, hk, a_lanes]

theorem clkOkSet_touches {s : State} (m : Fin 32) (phase : Nat) (hk : Touches A s0 s) (a_lanes : A .lanes = true) :
    Touches A s0 (State.clkOkSet s m phase) := by
  unfold State.clkOkSet
  (repeat' split) <;> simp (maxDischargeDepth := 60) [touches_ite, touches_mk, within_dev, devArea, elim_ite, within_irq,
      within_pc, within_line, within_host, within_pg, capture_touches, latEvent_touches, modHost_touches, setHostBit_touches,
      hk, a_lanes]

theorem hostAcqEnd_touches {s : State} (m : Fin 32) (ctle : Nat) (hk : Touches A s0 s) (a_lanes : A .lanes = true) :
    Touches A s0 (State.hostAcqEnd s m ctle) := by
  simp (maxDischargeDepth := 60) [State.hostAcqEnd, touches_ite, touches_mk, within_dev, devArea, elim_ite, within_irq,
      within_pc, within_line, within_host, within_pg, modHost_touches, wr_touches, hk, a_lanes]

theorem hostMarkerAt_touches {s : State} (m : Fin 32) (differ : Nat) (at_ : Nat) (p : Nat) (moved : Bool) (hk : Touches A s0
    s) (a_lanes : A .lanes = true) :
    Touches A s0 (State.hostMarkerAt s m differ at_ p moved) := by
  unfold State.hostMarkerAt
  (repeat' split) <;> simp (maxDischargeDepth := 60) [touches_ite, touches_mk, within_dev, devArea, elim_ite, within_irq,
      within_pc, within_line, within_host, within_pg, latEvent_touches, modHost_touches, setAlign_touches, wr_touches, hk,
      a_lanes]

theorem hckiLost_touches {s : State} (k : Fin 4) (hk : Touches A s0 s) (a_lanes : A .lanes = true) :
    Touches A s0 (State.hckiLost s k) := by
  simp (maxDischargeDepth := 60) +contextual [State.hckiLost, touches_ite, touches_mk, within_dev, devArea, elim_ite,
      within_irq, within_pc, within_line, within_host, within_pg, touches_forAll, clkOkLost_touches, raise_touches,
      wrBit_touches, hk, a_lanes]

theorem hckiReturn_touches {s : State} (k : Fin 4) (hk : Touches A s0 s) (a_lanes : A .lanes = true) :
    Touches A s0 (State.hckiReturn s k) := by
  simp (maxDischargeDepth := 60) +contextual [State.hckiReturn, touches_ite, touches_mk, within_dev, devArea, elim_ite,
      within_irq, within_pc, within_line, within_host, within_pg, touches_forAll, hostTrain_touches, wrBit_touches, hk,
      a_lanes]

theorem gbUp_touches {s : State} (k : Fin 4) (hk : Touches A s0 s) (a_lanes : A .lanes = true) :
    Touches A s0 (State.gbUp s k) := by
  simp (maxDischargeDepth := 60) [State.gbUp, touches_ite, touches_mk, within_dev, devArea, elim_ite, within_irq, within_pc,
      within_line, within_host, within_pg, modPg_touches, hk, a_lanes]

theorem gbShow_touches {s : State} (k : Fin 4) (b : Bool) (hk : Touches A s0 s) (a_lanes : A .lanes = true) :
    Touches A s0 (State.gbShow s k b) := by
  simp (maxDischargeDepth := 60) +contextual [State.gbShow, touches_ite, touches_mk, within_dev, devArea, elim_ite,
      within_irq, within_pc, within_line, within_host, within_pg, touches_forAll, injRebase_touches, wr_touches,
      wrBit_touches, hk, a_lanes]

theorem gbDown_touches {s : State} (k : Fin 4) (hk : Touches A s0 s) (a_lanes : A .lanes = true) :
    Touches A s0 (State.gbDown s k) := by
  simp (maxDischargeDepth := 60) [State.gbDown, touches_ite, touches_mk, within_dev, devArea, elim_ite, within_irq, within_pc,
      within_line, within_host, within_pg, gbShow_touches, modPg_touches, hk, a_lanes]

theorem gbStop_touches {s : State} (k : Fin 4) (hk : Touches A s0 s) (a_lanes : A .lanes = true) :
    Touches A s0 (State.gbStop s k) := by
  simp (maxDischargeDepth := 60) [State.gbStop, touches_ite, touches_mk, within_dev, devArea, elim_ite, within_irq, within_pc,
      within_line, within_host, within_pg, gbShow_touches, modPg_touches, hk, a_lanes]

theorem gbUnlock_touches {s : State} (k : Fin 4) (hk : Touches A s0 s) (a_lanes : A .lanes = true) :
    Touches A s0 (State.gbUnlock s k) := by
  simp (maxDischargeDepth := 60) +contextual [State.gbUnlock, touches_ite, touches_mk, within_dev, devArea, elim_ite,
      within_irq, within_pc, within_line, within_host, within_pg, touches_forAll, gbShow_touches, incWrap_touches,
      modPg_touches, wrBit_touches, hk, a_lanes]

theorem gbLose_touches {s : State} (k : Fin 4) (hk : Touches A s0 s) (a_lanes : A .lanes = true) :
    Touches A s0 (State.gbLose s k) := by
  unfold State.gbLose
  split <;> simp (maxDischargeDepth := 60) [touches_ite, touches_mk, within_dev, devArea, elim_ite, within_irq, within_pc,
      within_line, within_host, within_pg, gbUnlock_touches, modPg_touches, hk, a_lanes]

theorem recapture_touches {s : State} (m : Fin 32) (hk : Touches A s0 s) (a_lanes : A .lanes = true) :
    Touches A s0 (State.recapture s m) := by
  simp (maxDischargeDepth := 60) [State.recapture, touches_ite, touches_mk, within_dev, devArea, elim_ite, within_irq,
      within_pc, within_line, within_host, within_pg, capture_touches, fresh_touches, hk, a_lanes]

theorem gbEnter_touches {s : State} (k : Fin 4) (blocks : Nat) (hk : Touches A s0 s) (a_lanes : A .lanes = true) :
    Touches A s0 (State.gbEnter s k blocks) := by
  simp (maxDischargeDepth := 60) +contextual [State.gbEnter, touches_ite, touches_mk, within_dev, devArea, elim_ite,
      within_irq, within_pc, within_line, within_host, within_pg, touches_forAll, epochLatency_touches, gbShow_touches,
      incSat_touches, latEvent_touches, modHost_touches, modLane_touches, modPg_touches, raise_touches, recapture_touches,
      wr_touches, hk, a_lanes]

theorem hostFill_touches {s : State} (k : Fin 4) (j : Fin 8) (fill : Nat) (hk : Touches A s0 s) (a_lanes : A .lanes = true) :
    Touches A s0 (State.hostFill s k j fill).1 := by
  simp only [State.hostFill]
  (repeat' split) <;> simp (maxDischargeDepth := 60) [touches_ite, touches_mk, within_dev, devArea, elim_ite, within_irq,
      within_pc, within_line, within_host, within_pg, incSat_touches, modHost_touches, raise_touches, recapture_touches,
      setHostBit_touches, wrBit_touches, wrI_touches, hk, a_lanes]

theorem hostFills_touches {s : State} (k : Fin 4) (fills : List (Fin 8 × Nat)) (hk : Touches A s0 s) (a_lanes : A .lanes =
    true) :
    Touches A s0 (State.hostFills s k fills) := by
  have hl : ∀ (l : List (Fin 8 × Nat)) (a : State × List (Nat × Nat)), Touches A s0 a.1 →
      Touches A s0 (l.foldl (fun (a : State × List (Nat × Nat)) f =>
        let q := a.1.hostFill k f.1 f.2
        (q.1, (f.1.val / 2, q.2) :: a.2)) a).1 := by
    intro l
    induction l with
    | nil => exact fun _ h => h
    | cons x l ih => exact fun a h => ih _ (hostFill_touches _ _ _ h a_lanes)
  exact touches_forAll _ _ (hl fills (s, []) hk) fun n z hz => touches_ite _ hz (latEvent_touches _ _ hz a_lanes)

theorem hostTapsSet_touches {s : State} (m : Fin 32) (hk : Touches A s0 s) (a_lanes : A .lanes = true) :
    Touches A s0 (State.hostTapsSet s m) := by
  simp (maxDischargeDepth := 60) [State.hostTapsSet, touches_ite, touches_mk, within_dev, devArea, elim_ite, within_irq,
      within_pc, within_line, within_host, within_pg, modHost_touches, hk, a_lanes]

theorem setFill_touches {s : State} (m : Fin 32) (b : Bool) (hk : Touches A s0 s) (a_lanes : A .lanes = true) :
    Touches A s0 (State.setFill s m b) := by
  simp (maxDischargeDepth := 60) [State.setFill, touches_ite, touches_mk, within_dev, devArea, elim_ite, within_irq,
      within_pc, within_line, within_host, within_pg, modHost_touches, wrBit_touches, hk, a_lanes]

theorem fillShow_touches {s : State} (n : Fin 16) (hk : Touches A s0 s) (a_lanes : A .lanes = true) :
    Touches A s0 (State.fillShow s n) := by
  simp (maxDischargeDepth := 60) [State.fillShow, touches_ite, touches_mk, within_dev, devArea, elim_ite, within_irq,
      within_pc, within_line, within_host, within_pg, wrBit_touches, hk, a_lanes]

theorem fillStart_touches {s : State} (m : Fin 32) (hk : Touches A s0 s) (a_lanes : A .lanes = true) :
    Touches A s0 (State.fillStart s m) := by
  unfold State.fillStart
  (repeat' split) <;> simp (maxDischargeDepth := 60) [touches_ite, touches_mk, within_dev, devArea, elim_ite, within_irq,
      within_pc, within_line, within_host, within_pg, fresh_touches, setFill_touches, wr_touches, hk, a_lanes]

theorem fillEnd_touches {s : State} (m : Fin 32) (p : Nat) (moved : Bool) (hk : Touches A s0 s) (a_lanes : A .lanes = true) :
    Touches A s0 (State.fillEnd s m p moved) := by
  unfold State.fillEnd
  (repeat' split) <;> simp (maxDischargeDepth := 60) [touches_ite, touches_mk, within_dev, devArea, elim_ite, within_irq,
      within_pc, within_line, within_host, within_pg, latEvent_touches, setFill_touches, wr_touches, hk, a_lanes]

theorem fecCodeword_touches {s : State} (k : Fin 4) (rx : Bool) (p : Fin 4) (skew : Nat) (syms : Option (Fin 16)) (hk :
    Touches A s0 s) (a_lanes : A .lanes = true) :
    Touches A s0 (State.fecCodeword s k rx p skew syms) := by
  unfold State.fecCodeword
  (repeat' split) <;> simp (maxDischargeDepth := 60) [touches_ite, touches_mk, within_dev, devArea, elim_ite, within_irq,
      within_pc, within_line, within_host, within_pg, addSat_touches, incSat_touches, modPg_touches, wr_touches, hk, a_lanes]

theorem fecEpoch_touches {s : State} (k : Fin 4) (hk : Touches A s0 s) (a_lanes : A .lanes = true) :
    Touches A s0 (State.fecEpoch s k) := by
  simp (maxDischargeDepth := 60) +contextual [State.fecEpoch, touches_ite, touches_mk, within_dev, devArea, elim_ite,
      within_irq, within_pc, within_line, within_host, within_pg, touches_when, touches_forAll, modPg_touches, raise_touches,
      wr_touches, hk, a_lanes]

theorem hostFreq_touches {s : State} (m : Fin 32) (f : Nat) (hk : Touches A s0 s) (a_lanes : A .lanes = true) :
    Touches A s0 (State.hostFreq s m f) := by
  simp (maxDischargeDepth := 60) [State.hostFreq, touches_ite, touches_mk, within_dev, devArea, elim_ite, within_irq,
      within_pc, within_line, within_host, within_pg, raiseIn_touches, setHostBit_touches, wr_touches, hk, a_lanes]

theorem hostFecClear_touches {s : State} (k : Fin 4) (hk : Touches A s0 s) (a_lanes : A .lanes = true) :
    Touches A s0 (State.hostFecClear s k) := by
  refine clrAll_touches _ hk fun x hx => ?_
  simp only [List.mem_flatMap, List.mem_cons, List.not_mem_nil, or_false] at hx
  obtain ⟨i, -, rfl | rfl⟩ := hx <;> exact a_lanes

theorem hostLaneReset_touches {s : State} (n : Fin 16) (hk : Touches A s0 s) (a_lanes : A .lanes = true) :
    Touches A s0 (State.hostLaneReset s n) := by
  simp (maxDischargeDepth := 60) +contextual [State.hostLaneReset, touches_ite, touches_mk, within_dev, devArea, elim_ite,
      within_irq, within_pc, within_line, within_host, within_pg, touches_forAll, clkOkLost_touches, hostTrain_touches, hk,
      a_lanes]

theorem effHostLosThr_touches {s : State} (m : Fin 32) (v : Nat) (hk : Touches A s0 s) (a_lanes : A .lanes = true) :
    Touches A s0 (effHostLosThr m v s) := by
  simp (maxDischargeDepth := 60) [effHostLosThr, touches_ite, touches_mk, within_dev, devArea, elim_ite, within_irq,
      within_pc, within_line, within_host, within_pg, hostSignalSet_touches, wr_touches, hk, a_lanes]

theorem effPgClkMode_touches {s : State} (k : Fin 4) (v : Nat) (hk : Touches A s0 s) (a_lanes : A .lanes = true) :
    Touches A s0 (effPgClkMode k v s) := by
  simp (maxDischargeDepth := 60) +contextual [effPgClkMode, touches_ite, touches_mk, within_dev, devArea, elim_ite,
      within_irq, within_pc, within_line, within_host, within_pg, touches_forAll, cfgChanged_touches, clkOkLost_touches,
      hostTrain_touches, wr_touches, hk, a_lanes]

theorem effHostAdapt_touches {s : State} (m : Fin 32) (k : Key) (v : Nat) (hk : Touches A s0 s) (a_lanes : A .lanes = true)
    (h_k : Key.within A k = true) :
    Touches A s0 (effHostAdapt m k v s) := by
  simp (maxDischargeDepth := 60) +contextual [effHostAdapt, touches_ite, touches_mk, within_dev, within_line, within_host,
      within_pg, within_port, within_loop, within_aux, within_og, within_chain, within_mb, within_pc, within_slot, within_pwr,
      within_irq, devArea, elim_ite, hostTapsFollow_touches, wr_touches, hk, a_lanes, h_k]

theorem effHostTaps_touches {s : State} (m : Fin 32) (k : Key) (v : Nat) (hk : Touches A s0 s) (a_lanes : A .lanes = true)
    (h_k : Key.within A k = true) :
    Touches A s0 (effHostTaps m k v s) := by
  simp (maxDischargeDepth := 60) [effHostTaps, touches_ite, touches_mk, within_dev, within_line, within_host, within_pg,
      within_port, within_loop, within_aux, within_og, within_chain, within_mb, within_pc, within_slot, within_pwr,
      within_irq, devArea, elim_ite, hostTapsSet_touches, wr_touches, hk, a_lanes, h_k]

theorem effHckoSrc_touches {s : State} (k : Fin 4) (v : Nat) (hk : Touches A s0 s) (a_lanes : A .lanes = true) :
    Touches A s0 (effHckoSrc k v s) := by
  simp (maxDischargeDepth := 60) [effHckoSrc, touches_ite, touches_mk, within_dev, devArea, elim_ite, within_irq, within_pc,
      within_line, within_host, within_pg, modPg_touches, wr_touches, hk, a_lanes]

theorem effPgFecMode_touches {s : State} (k : Fin 4) (v : Nat) (hk : Touches A s0 s) (a_lanes : A .lanes = true) :
    Touches A s0 (effPgFecMode k v s) := by
  simp (maxDischargeDepth := 60) +contextual [effPgFecMode, touches_ite, touches_mk, within_dev, devArea, elim_ite,
      within_irq, within_pc, within_line, within_host, within_pg, touches_forAll, cfgChanged_touches, wr_touches, hk, a_lanes]

theorem fecModeNow_touches {s : State} (k : Fin 4) (v : Nat) (hk : Touches A s0 s) (a_lanes : A .lanes = true) :
    Touches A s0 (fecModeNow k v s) := by
  simp (maxDischargeDepth := 60) [fecModeNow, touches_ite, touches_mk, within_dev, devArea, elim_ite, within_irq, within_pc,
      within_line, within_host, within_pg, dropWaiting_touches, effPgFecMode_touches, hk, a_lanes]

theorem effPgFecClear_touches {s : State} (k : Fin 4) (v : Nat) (hk : Touches A s0 s) (a_lanes : A .lanes = true) :
    Touches A s0 (effPgFecClear k v s) := by
  simp (maxDischargeDepth := 60) [effPgFecClear, touches_ite, touches_mk, within_dev, devArea, elim_ite, within_irq,
      within_pc, within_line, within_host, within_pg, hostFecClear_touches, hk, a_lanes]

end State

end Sys2Proof.Machine
end

