-- ==== Sys2Proof/Laws/TouchLane.lean ====
section
/-!
SUPPORT. What the operations of the line lanes' upper layers touch: Picot, slip-stitch, cast-on, line time, self-test of a lane.
-/

set_option linter.unusedSimpArgs false
set_option linter.unusedVariables false

namespace Sys2Proof.Machine

variable {A : Area → Bool} {s0 s : State}

namespace State

/-! ## Picot -/

theorem modPicot_touches {s : State} (n : Fin 16) (f : PicotS → PicotS) (hk : Touches A s0 s) (a_lanes : A .lanes = true) :
    Touches A s0 (State.modPicot s n f) := by
  simp (maxDischargeDepth := 60) [State.modPicot, touches_ite, touches_mk, within_dev, devArea, elim_ite, within_irq,
      within_pc, within_line, within_host, within_pg, modLane_touches, hk, a_lanes]

theorem picotOffer_touches {s : State} (n : Fin 16) (p : Packet) (hk : Touches A s0 s) (a_lanes : A .lanes = true) :
    Touches A s0 (State.picotOffer s n p) := by
  simp (maxDischargeDepth := 60) [State.picotOffer, touches_ite, touches_mk, within_dev, devArea, elim_ite, within_irq,
      within_pc, within_line, within_host, within_pg, incSat_touches, modPicot_touches, hk, a_lanes]

theorem picotFlush_touches {s : State} (n : Fin 16) (hk : Touches A s0 s) (a_lanes : A .lanes = true) :
    Touches A s0 (State.picotFlush s n) := by
  simp (maxDischargeDepth := 60) [State.picotFlush, touches_ite, touches_mk, within_dev, devArea, elim_ite, within_irq,
      within_pc, within_line, within_host, within_pg, incSat_touches, modLane_touches, modPicot_touches, hk, a_lanes]

theorem picotStart_touches {s : State} (n : Fin 16) (hk : Touches A s0 s) (a_lanes : A .lanes = true) :
    Touches A s0 (State.picotStart s n) := by
  unfold State.picotStart
  split <;> simp (maxDischargeDepth := 60) [touches_ite, touches_mk, within_dev, devArea, elim_ite, within_irq, within_pc,
      within_line, within_host, within_pg, incSat_touches, modPicot_touches, hk, a_lanes]

theorem picotBurstEnd_touches {s : State} (n : Fin 16) (hk : Touches A s0 s) (a_lanes : A .lanes = true) :
    Touches A s0 (State.picotBurstEnd s n) := by
  simp (maxDischargeDepth := 60) [State.picotBurstEnd, touches_ite, touches_mk, within_dev, devArea, elim_ite, within_irq,
      within_pc, within_line, within_host, within_pg, modPicot_touches, hk, a_lanes]

theorem picotSearch_touches {s : State} (n : Fin 16) (hk : Touches A s0 s) (a_lanes : A .lanes = true) :
    Touches A s0 (State.picotSearch s n) := by
  simp (maxDischargeDepth := 60) [State.picotSearch, touches_ite, touches_mk, within_dev, devArea, elim_ite, within_irq,
      within_pc, within_line, within_host, within_pg, modPicot_touches, hk, a_lanes]

theorem picotFollow_touches {s : State} (n : Fin 16) (hk : Touches A s0 s) (a_lanes : A .lanes = true) :
    Touches A s0 (State.picotFollow s n) := by
  simp (maxDischargeDepth := 60) [State.picotFollow, touches_ite, touches_mk, within_dev, devArea, elim_ite, within_irq,
      within_pc, within_line, within_host, within_pg, modPicot_touches, picotSearch_touches, hk, a_lanes]

theorem picotResume_touches {s : State} (n : Fin 16) (hk : Touches A s0 s) (a_lanes : A .lanes = true) :
    Touches A s0 (State.picotResume s n) := by
  unfold State.picotResume
  split <;> simp (maxDischargeDepth := 60) [touches_ite, touches_mk, within_dev, devArea, elim_ite, within_irq, within_pc,
      within_line, within_host, within_pg, incSat_touches, modPicot_touches, picotSearch_touches, hk, a_lanes]

theorem picotStore_touches {s : State} (n : Fin 16) (sym : List Int) (hk : Touches A s0 s) (a_lanes : A .lanes = true) :
    Touches A s0 (State.picotStore s n sym) := by
  simp (maxDischargeDepth := 60) [State.picotStore, touches_ite, touches_mk, within_dev, devArea, elim_ite, within_irq,
      within_pc, within_line, within_host, within_pg, modPicot_touches, hk, a_lanes]

theorem picotDropPend_touches {s : State} (n : Fin 16) (hk : Touches A s0 s) (a_lanes : A .lanes = true) :
    Touches A s0 (State.picotDropPend s n) := by
  simp (maxDischargeDepth := 60) [State.picotDropPend, touches_ite, touches_mk, within_dev, devArea, elim_ite, within_irq,
      within_pc, within_line, within_host, within_pg, incSat_touches, modPicot_touches, hk, a_lanes]

theorem picotCandidate_touches {s : State} (n : Fin 16) (p : Int) (e : Nat) (hk : Touches A s0 s) (a_lanes : A .lanes = true) :
    Touches A s0 (State.picotCandidate s n p e) := by
  simp only [State.picotCandidate]
  (repeat' split) <;> simp (maxDischargeDepth := 60) [touches_ite, touches_mk, within_dev, devArea, elim_ite, within_irq,
      within_pc, within_line, within_host, within_pg, incSat_touches, modPicot_touches, picotDropPend_touches, hk, a_lanes]

theorem picotLast_touches {s : State} (n : Fin 16) (hdr : List Byte) (payload : List Byte) (code : Nat) (hk : Touches A s0 s)
    (a_lanes : A .lanes = true) :
    Touches A s0 (State.picotLast s n hdr payload code) := by
  exact incWrap_touches _ (wr_touches _ _ hk a_lanes) a_lanes

theorem picotDelivered_touches {s : State} (n : Fin 16) (snr : Nat) (foff : Nat) (hk : Touches A s0 s) (a_lanes : A .lanes =
    true) :
    Touches A s0 (State.picotDelivered s n snr foff) := by
  simp (maxDischargeDepth := 60) [State.picotDelivered, touches_ite, touches_mk, within_dev, devArea, elim_ite, within_irq,
      within_pc, within_line, within_host, within_pg, incSat_touches, picotSearch_touches, wr_touches, wrI_touches, hk,
      a_lanes]

theorem picotPilot_touches {s : State} (n : Fin 16) (a : Int) (b : Int) (got : List Byte) (hk : Touches A s0 s) (a_lanes : A
    .lanes = true) :
    Touches A s0 (State.picotPilot s n a b got) := by
  simp (maxDischargeDepth := 60) [State.picotPilot, touches_ite, touches_mk, within_dev, devArea, elim_ite, within_irq,
      within_pc, within_line, within_host, within_pg, incSat_touches, modPicot_touches, picotLast_touches,
      picotSearch_touches, hk, a_lanes]

theorem picotClear_touches {s : State} (n : Fin 16) (hk : Touches A s0 s) (a_lanes : A .lanes = true) :
    Touches A s0 (State.picotClear s n) := by
  simp (maxDischargeDepth := 60) [State.picotClear, touches_ite, touches_mk, within_dev, devArea, elim_ite, within_irq,
      within_pc, within_line, within_host, within_pg, elim_ite, clrAll_touches, hk, a_lanes]

theorem picotLaneReset_touches {s : State} (n : Fin 16) (hk : Touches A s0 s) (a_lanes : A .lanes = true) :
    Touches A s0 (State.picotLaneReset s n) := by
  simp (maxDischargeDepth := 60) [State.picotLaneReset, touches_ite, touches_mk, within_dev, devArea, elim_ite, within_irq,
      within_pc, within_line, within_host, within_pg, picotFlush_touches, picotFollow_touches, hk, a_lanes]

theorem effPicotClear_touches {s : State} (n : Fin 16) (v : Nat) (hk : Touches A s0 s) (a_lanes : A .lanes = true) :
    Touches A s0 (effPicotClear n v s) := by
  simp (maxDischargeDepth := 60) [effPicotClear, touches_ite, touches_mk, within_dev, devArea, elim_ite, within_irq,
      within_pc, within_line, within_host, within_pg, picotClear_touches, hk, a_lanes]

/-! ## Slip -/

theorem modSs_touches {s : State} (n : Fin 16) (f : SsS → SsS) (hk : Touches A s0 s) (a_lanes : A .lanes = true) :
    Touches A s0 (State.modSs s n f) := by
  simp (maxDischargeDepth := 60) [State.modSs, touches_ite, touches_mk, within_dev, devArea, elim_ite, within_irq, within_pc,
      within_line, within_host, within_pg, modLane_touches, hk, a_lanes]

theorem modSlice_touches {s : State} (n : Fin 16) (i : Fin 17) (f : SliceS → SliceS) (hk : Touches A s0 s) (a_lanes : A .lanes
    = true) :
    Touches A s0 (State.modSlice s n i f) := by
  simp (maxDischargeDepth := 60) [State.modSlice, touches_ite, touches_mk, within_dev, devArea, elim_ite, within_irq,
      within_pc, within_line, within_host, within_pg, modSs_touches, hk, a_lanes]

theorem ssStart_touches {s : State} (n : Fin 16) (hk : Touches A s0 s) (a_lanes : A .lanes = true) :
    Touches A s0 (State.ssStart s n) := by
  unfold State.ssStart
  split <;> simp (maxDischargeDepth := 60) [touches_ite, touches_mk, within_dev, devArea, elim_ite, within_irq, within_pc,
      within_line, within_host, within_pg, modSlice_touches, modSs_touches, hk, a_lanes]

theorem ssStop_touches {s : State} (n : Fin 16) (hk : Touches A s0 s) (a_lanes : A .lanes = true) :
    Touches A s0 (State.ssStop s n) := by
  unfold State.ssStop
  split <;> simp (maxDischargeDepth := 60) [touches_ite, touches_mk, within_dev, devArea, elim_ite, within_irq, within_pc,
      within_line, within_host, within_pg, modSlice_touches, modSs_touches, hk, a_lanes]

theorem ssFollow_touches {s : State} (n : Fin 16) (hk : Touches A s0 s) (a_lanes : A .lanes = true) :
    Touches A s0 (State.ssFollow s n) := by
  simp (maxDischargeDepth := 60) [State.ssFollow, touches_ite, touches_mk, within_dev, devArea, elim_ite, within_irq,
      within_pc, within_line, within_host, within_pg, ssStart_touches, ssStop_touches, hk, a_lanes]

theorem sliceReport_touches {s : State} (n : Fin 16) (i : Fin 17) (what : Nat) (cause : Nat) (hk : Touches A s0 s) (a_bist : A
    .bist = true) (a_lanes : A .lanes = true) :
    Touches A s0 (State.sliceReport s n i what cause) := by
  simp (maxDischargeDepth := 60) [State.sliceReport, touches_ite, touches_mk, within_dev, devArea, elim_ite, within_irq,
      within_pc, within_line, within_host, within_pg, raiseIn_touches, record_touches, wr_touches, hk, a_bist, a_lanes]

theorem sliceFailed_touches {s : State} (n : Fin 16) (i : Fin 17) (cause : Nat) (hk : Touches A s0 s) (a_bist : A .bist =
    true) (a_lanes : A .lanes = true) :
    Touches A s0 (State.sliceFailed s n i cause) := by
  simp (maxDischargeDepth := 60) [State.sliceFailed, touches_ite, touches_mk, within_dev, devArea, elim_ite, within_irq,
      within_pc, within_line, within_host, within_pg, incSat_touches, modSlice_touches, modSs_touches, sliceReport_touches,
      hk, a_bist, a_lanes]

theorem ssFail_touches {s : State} (n : Fin 16) (i : Fin 17) (cause : Nat) (hk : Touches A s0 s) (a_bist : A .bist = true)
    (a_lanes : A .lanes = true) :
    Touches A s0 (State.ssFail s n i cause) := by
  simp (maxDischargeDepth := 60) [State.ssFail, touches_ite, touches_mk, within_dev, devArea, elim_ite, within_irq, within_pc,
      within_line, within_host, within_pg, incSat_touches, modSlice_touches, modSs_touches, sliceFailed_touches, wr_touches,
      hk, a_bist, a_lanes]

theorem ssSubstitute_touches {s : State} (n : Fin 16) (hk : Touches A s0 s) (a_lanes : A .lanes = true) :
    Touches A s0 (State.ssSubstitute s n) := by
  simp only [State.ssSubstitute]
  (repeat' split) <;> simp (maxDischargeDepth := 60) [touches_ite, touches_mk, within_dev, devArea, elim_ite, within_irq,
      within_pc, within_line, within_host, within_pg, incSat_touches, incWrap_touches, modSlice_touches, modSs_touches,
      rxSubstituted_touches, ssFollow_touches, wr_touches, hk, a_lanes]

theorem ssPass_touches {s : State} (n : Fin 16) (i : Fin 17) (hk : Touches A s0 s) (a_lanes : A .lanes = true) :
    Touches A s0 (State.ssPass s n i) := by
  simp (maxDischargeDepth := 60) [State.ssPass, touches_ite, touches_mk, within_dev, devArea, elim_ite, within_irq, within_pc,
      within_line, within_host, within_pg, modSlice_touches, modSs_touches, hk, a_lanes]

theorem ssStepEnd_touches {s : State} (n : Fin 16) (v : Nat) (hk : Touches A s0 s) (a_bist : A .bist = true) (a_lanes : A
    .lanes = true) :
    Touches A s0 (State.ssStepEnd s n v) := by
  unfold State.ssStepEnd
  (repeat' split) <;> simp (maxDischargeDepth := 60) [touches_ite, touches_mk, within_dev, devArea, elim_ite, within_irq,
      within_pc, within_line, within_host, within_pg, modSlice_touches, modSs_touches, ssFail_touches, ssPass_touches, hk,
      a_bist, a_lanes]

theorem ssIntervalEnd_touches {s : State} (n : Fin 16) (hk : Touches A s0 s) (a_lanes : A .lanes = true) :
    Touches A s0 (State.ssIntervalEnd s n) := by
  simp (maxDischargeDepth := 60) [State.ssIntervalEnd, touches_ite, touches_mk, within_dev, devArea, elim_ite, within_irq,
      within_pc, within_line, within_host, within_pg, incSat_touches, modSs_touches, ssSubstitute_touches, hk, a_lanes]

theorem ssLos_touches {s : State} (n : Fin 16) (hk : Touches A s0 s) (a_lanes : A .lanes = true) :
    Touches A s0 (State.ssLos s n) := by
  simp (maxDischargeDepth := 60) [State.ssLos, touches_ite, touches_mk, within_dev, devArea, elim_ite, within_irq, within_pc,
      within_line, within_host, within_pg, modSs_touches, hk, a_lanes]

theorem ssSuspect_touches {s : State} (n : Fin 16) (slot : Nat) (rms : Bool) (hk : Touches A s0 s) (a_bist : A .bist = true)
    (a_lanes : A .lanes = true) :
    Touches A s0 (State.ssSuspect s n slot rms) := by
  unfold State.ssSuspect
  (repeat' split) <;> simp (maxDischargeDepth := 60) [touches_ite, touches_mk, within_dev, devArea, elim_ite, within_irq,
      within_pc, within_line, within_host, within_pg, modSlice_touches, modSs_touches, sliceReport_touches, hk, a_bist,
      a_lanes]

theorem ssRetest_touches {s : State} (n : Fin 16) (hk : Touches A s0 s) (a_lanes : A .lanes = true) :
    Touches A s0 (State.ssRetest s n) := by
  unfold State.ssRetest
  split <;> simp (maxDischargeDepth := 60) [touches_ite, touches_mk, within_dev, devArea, elim_ite, within_irq, within_pc,
      within_line, within_host, within_pg, modSs_touches, hk, a_lanes]

theorem ssClear_touches {s : State} (n : Fin 16) (hk : Touches A s0 s) (a_lanes : A .lanes = true) :
    Touches A s0 (State.ssClear s n) := by
  simp (maxDischargeDepth := 60) [State.ssClear, touches_ite, touches_mk, within_dev, devArea, elim_ite, within_irq,
      within_pc, within_line, within_host, within_pg, elim_ite, clrAll_touches, hk, a_lanes]

theorem calDacStart_touches {s : State} (n : Fin 16) (hk : Touches A s0 s) (a_lanes : A .lanes = true) :
    Touches A s0 (State.calDacStart s n) := by
  simp (maxDischargeDepth := 60) [State.calDacStart, touches_ite, touches_mk, within_dev, devArea, elim_ite, within_irq,
      within_pc, within_line, within_host, within_pg, calDacBegin_touches, outFollow_touches, hk, a_lanes]

theorem calStart_touches {s : State} (n : Fin 16) (lane : Bool) (dac : Bool) (hk : Touches A s0 s) (a_lanes : A .lanes = true) :
    Touches A s0 (State.calStart s n lane dac) := by
  simp (maxDischargeDepth := 60) [State.calStart, touches_ite, touches_mk, within_dev, devArea, elim_ite, within_irq,
      within_pc, within_line, within_host, within_pg, calDacStart_touches, modLane_touches, picotFollow_touches, wr_touches,
      hk, a_lanes]

theorem calLaneEnd_touches {s : State} (n : Fin 16) (corr : List (Int × Nat × Int)) (hk : Touches A s0 s) (a_bist : A .bist =
    true) (a_lanes : A .lanes = true) :
    Touches A s0 (State.calLaneEnd s n corr) := by
  simp (maxDischargeDepth := 60) [State.calLaneEnd, touches_ite, touches_mk, within_dev, devArea, elim_ite, within_irq,
      within_pc, within_line, within_host, within_pg, incSat_touches, modLane_touches, picotFollow_touches, raiseIn_touches,
      wr_touches, hk, a_bist, a_lanes]

theorem calDacEnd_touches {s : State} (n : Fin 16) (outOfRange : Bool) (hk : Touches A s0 s) (a_bist : A .bist = true)
    (a_lanes : A .lanes = true) :
    Touches A s0 (State.calDacEnd s n outOfRange) := by
  simp (maxDischargeDepth := 60) [State.calDacEnd, touches_ite, touches_mk, within_dev, devArea, elim_ite, within_irq,
      within_pc, within_line, within_host, within_pg, incSat_touches, modLane_touches, outFollow_touches, raiseIn_touches,
      wr_touches, wrBit_touches, hk, a_bist, a_lanes]

theorem calAbort_touches {s : State} (n : Fin 16) (hk : Touches A s0 s) (a_lanes : A .lanes = true) :
    Touches A s0 (State.calAbort s n) := by
  simp (maxDischargeDepth := 60) [State.calAbort, touches_ite, touches_mk, within_dev, devArea, elim_ite, within_irq,
      within_pc, within_line, within_host, within_pg, incSat_touches, modLane_touches, picotFollow_touches, wr_touches,
      wrBit_touches, hk, a_lanes]

theorem calApply_touches {s : State} (n : Fin 16) (hk : Touches A s0 s) (a_lanes : A .lanes = true) :
    Touches A s0 (State.calApply s n) := by
  unfold State.calApply
  split <;> simp (maxDischargeDepth := 60) [touches_ite, touches_mk, within_dev, devArea, elim_ite, within_irq, within_pc,
      within_line, within_host, within_pg, modLane_touches, modSs_touches, hk, a_lanes]

theorem effSsInterval_touches {s : State} (n : Fin 16) (v : Nat) (hk : Touches A s0 s) (a_lanes : A .lanes = true) :
    Touches A s0 (effSsInterval n v s) := by
  simp (maxDischargeDepth := 60) [effSsInterval, touches_ite, touches_mk, within_dev, devArea, elim_ite, within_irq,
      within_pc, within_line, within_host, within_pg, ssFollow_touches, wr_touches, hk, a_lanes]

theorem effSsRetest_touches {s : State} (n : Fin 16) (v : Nat) (hk : Touches A s0 s) (a_lanes : A .lanes = true) :
    Touches A s0 (effSsRetest n v s) := by
  simp (maxDischargeDepth := 60) [effSsRetest, touches_ite, touches_mk, within_dev, devArea, elim_ite, within_irq, within_pc,
      within_line, within_host, within_pg, ssRetest_touches, hk, a_lanes]

theorem effSsClear_touches {s : State} (n : Fin 16) (v : Nat) (hk : Touches A s0 s) (a_lanes : A .lanes = true) :
    Touches A s0 (effSsClear n v s) := by
  simp (maxDischargeDepth := 60) [effSsClear, touches_ite, touches_mk, within_dev, devArea, elim_ite, within_irq, within_pc,
      within_line, within_host, within_pg, ssClear_touches, hk, a_lanes]

theorem effCalCmd_touches {s : State} (n : Fin 16) (v : Nat) (hk : Touches A s0 s) (a_lanes : A .lanes = true) :
    Touches A s0 (effCalCmd n v s) := by
  simp (maxDischargeDepth := 60) [effCalCmd, touches_ite, touches_mk, within_dev, devArea, elim_ite, within_irq, within_pc,
      within_line, within_host, within_pg, calStart_touches, modLane_touches, hk, a_lanes]

/-! ## Convo -/

theorem modCo_touches {s : State} (n : Fin 16) (f : CoS → CoS) (hk : Touches A s0 s) (a_lanes : A .lanes = true) :
    Touches A s0 (State.modCo s n f) := by
  simp (maxDischargeDepth := 60) [State.modCo, touches_ite, touches_mk, within_dev, devArea, elim_ite, within_irq, within_pc,
      within_line, within_host, within_pg, modLane_touches, hk, a_lanes]

theorem setCoFlag_touches {s : State} (n : Fin 16) (i : Nat) (b : Bool) (hk : Touches A s0 s) (a_lanes : A .lanes = true) :
    Touches A s0 (State.setCoFlag s n i b) := by
  simp (maxDischargeDepth := 60) [State.setCoFlag, touches_ite, touches_mk, within_dev, devArea, elim_ite, within_irq,
      within_pc, within_line, within_host, within_pg, wrBit_touches, hk, a_lanes]

theorem coOffer_touches {s : State} (n : Fin 16) (typ : Nat) (seq : Nat) (body : List Byte) (hk : Touches A s0 s) (a_lanes : A
    .lanes = true) :
    Touches A s0 (State.coOffer s n typ seq body) := by
  simp (maxDischargeDepth := 60) [State.coOffer, touches_ite, touches_mk, within_dev, devArea, elim_ite, within_irq,
      within_pc, within_line, within_host, within_pg, modCo_touches, picotOffer_touches, hk, a_lanes]

theorem sendPlain_touches {s : State} (n : Fin 16) (typ : Nat) (body : List Byte) (hk : Touches A s0 s) (a_lanes : A .lanes =
    true) :
    Touches A s0 (State.sendPlain s n typ body) := by
  simp (maxDischargeDepth := 60) [State.sendPlain, touches_ite, touches_mk, within_dev, devArea, elim_ite, within_irq,
      within_pc, within_line, within_host, within_pg, coOffer_touches, hk, a_lanes]

theorem sendKeepalive_touches {s : State} (n : Fin 16) (hk : Touches A s0 s) (a_lanes : A .lanes = true) :
    Touches A s0 (State.sendKeepalive s n) := by
  simp (maxDischargeDepth := 60) [State.sendKeepalive, touches_ite, touches_mk, within_dev, devArea, elim_ite, within_irq,
      within_pc, within_line, within_host, within_pg, sendPlain_touches, hk, a_lanes]

theorem sendSeq_touches {s : State} (n : Fin 16) (typ : Nat) (body : List Byte) (hk : Touches A s0 s) (a_lanes : A .lanes =
    true) :
    Touches A s0 (State.sendSeq s n typ body) := by
  simp (maxDischargeDepth := 60) [State.sendSeq, touches_ite, touches_mk, within_dev, devArea, elim_ite, within_irq,
      within_pc, within_line, within_host, within_pg, coOffer_touches, modCo_touches, hk, a_lanes]

theorem coPump_touches {s : State} (n : Fin 16) (x0 : Nat) (hk : Touches A s0 s) (a_lanes : A .lanes = true) :
    Touches A s0 (State.coPump s n x0) := by
  induction x0 generalizing s with
  | zero => exact hk
  | succ k ih =>
    unfold coPump
    split
    · exact hk
    · split
      · exact ih (modCo_touches _ _ (sendSeq_touches _ _ _ (modCo_touches _ _ hk a_lanes) a_lanes) a_lanes)
      · exact hk

theorem sendStatus_touches {s : State} (n : Fin 16) (hk : Touches A s0 s) (a_lanes : A .lanes = true) :
    Touches A s0 (State.sendStatus s n) := by
  simp (maxDischargeDepth := 60) [State.sendStatus, touches_ite, touches_mk, within_dev, devArea, elim_ite, within_irq,
      within_pc, within_line, within_host, within_pg, modCo_touches, sendSeq_touches, hk, a_lanes]

theorem sendReject_touches {s : State} (n : Fin 16) (num : Nat) (reason : Nat) (detail : Nat) (hk : Touches A s0 s) (a_lanes :
    A .lanes = true) :
    Touches A s0 (State.sendReject s n num reason detail) := by
  simp (maxDischargeDepth := 60) [State.sendReject, touches_ite, touches_mk, within_dev, devArea, elim_ite, within_irq,
      within_pc, within_line, within_host, within_pg, sendSeq_touches, hk, a_lanes]

theorem sendCap_touches {s : State} (n : Fin 16) (hk : Touches A s0 s) (a_lanes : A .lanes = true) :
    Touches A s0 (State.sendCap s n) := by
  simp (maxDischargeDepth := 60) [State.sendCap, touches_ite, touches_mk, within_dev, devArea, elim_ite, within_irq,
      within_pc, within_line, within_host, within_pg, modCo_touches, sendSeq_touches, hk, a_lanes]

theorem offerCheck_touches {s : State} (n : Fin 16) (hk : Touches A s0 s) (a_lanes : A .lanes = true) :
    Touches A s0 (State.offerCheck s n) := by
  unfold State.offerCheck
  split <;> simp (maxDischargeDepth := 60) [touches_ite, touches_mk, within_dev, devArea, elim_ite, within_irq, within_pc,
      within_line, within_host, within_pg, sendCap_touches, setCoFlag_touches, hk, a_lanes]

theorem propose_touches {s : State} (n : Fin 16) (a : Agreed) (hk : Touches A s0 s) (a_lanes : A .lanes = true) :
    Touches A s0 (State.propose s n a) := by
  simp (maxDischargeDepth := 60) [State.propose, touches_ite, touches_mk, within_dev, devArea, elim_ite, within_irq,
      within_pc, within_line, within_host, within_pg, modCo_touches, sendSeq_touches, hk, a_lanes]

theorem c3Start_touches {s : State} (n : Fin 16) (hk : Touches A s0 s) (a_lanes : A .lanes = true) :
    Touches A s0 (State.c3Start s n) := by
  unfold State.c3Start
  (repeat' split) <;> simp (maxDischargeDepth := 60) [touches_ite, touches_mk, within_dev, devArea, elim_ite, within_irq,
      within_pc, within_line, within_host, within_pg, propose_touches, setCoFlag_touches, hk, a_lanes]

theorem setFormat_touches {s : State} (n : Fin 16) (f : Nat) (hk : Touches A s0 s) (a_lanes : A .lanes = true) :
    Touches A s0 (State.setFormat s n f) := by
  simp (maxDischargeDepth := 60) [State.setFormat, touches_ite, touches_mk, within_dev, devArea, elim_ite, within_irq,
      within_pc, within_line, within_host, within_pg, clkOkLost_touches, hostTrain_touches, setFill_touches, wr_touches, hk,
      a_lanes]

theorem groupFix_touches {s : State} (k : Fin 4) (f : Nat) (hk : Touches A s0 s) (a_lanes : A .lanes = true) :
    Touches A s0 (State.groupFix s k f) := by
  simp (maxDischargeDepth := 60) [State.groupFix, touches_ite, touches_mk, within_dev, devArea, elim_ite, within_irq,
      within_pc, within_line, within_host, within_pg, modPg_touches, hk, a_lanes]

theorem groupFollow_touches {s : State} (n : Fin 16) (hk : Touches A s0 s) (a_lanes : A .lanes = true) :
    Touches A s0 (State.groupFollow s n) := by
  unfold groupFollow
  dsimp only
  refine touches_ite _ ?_ (touches_forAll _ _ ?_ fun m z hz => offerCheck_touches _ hz a_lanes)
  all_goals exact touches_ite _ (touches_ite _ (groupFix_touches _ _ hk a_lanes) hk) (modPg_touches _ _ hk a_lanes)

theorem phaseRecord_touches {s : State} (n : Fin 16) (p : Nat) (hk : Touches A s0 s) :
    Touches A s0 (State.phaseRecord s n p) := by
  simp (maxDischargeDepth := 60) [State.phaseRecord, touches_ite, touches_mk, within_dev, devArea, elim_ite, within_irq,
      within_pc, record_touches, hk]

theorem phaseSet_touches {s : State} (n : Fin 16) (p : Nat) (hk : Touches A s0 s) (a_clk : A .clk = true) (a_lanes : A .lanes
    = true) :
    Touches A s0 (State.phaseSet s n p) := by
  simp (maxDischargeDepth := 60) [State.phaseSet, touches_ite, touches_mk, within_dev, devArea, elim_ite, within_irq,
      within_pc, within_line, within_host, within_pg, adaptStop_touches, chooseSrc_touches, groupFollow_touches,
      leaveC7_touches, lockIdle_touches, modCo_touches, modLane_touches, phaseRecord_touches, setCoFlag_touches,
      setFormat_touches, ssFollow_touches, wr_touches, hk, a_clk, a_lanes]

theorem newSession_touches {s : State} (n : Fin 16) (hk : Touches A s0 s) (a_lanes : A .lanes = true) :
    Touches A s0 (State.newSession s n) := by
  simp (maxDischargeDepth := 60) [State.newSession, touches_ite, touches_mk, within_dev, devArea, elim_ite, within_irq,
      within_pc, within_line, within_host, within_pg, fresh_touches, wr_touches, hk, a_lanes]

theorem coDiscard_touches {s : State} (n : Fin 16) (hk : Touches A s0 s) (a_lanes : A .lanes = true) :
    Touches A s0 (State.coDiscard s n) := by
  simp (maxDischargeDepth := 60) [State.coDiscard, touches_ite, touches_mk, within_dev, devArea, elim_ite, within_irq,
      within_pc, within_line, within_host, within_pg, modCo_touches, hk, a_lanes]

theorem setFail_touches {s : State} (n : Fin 16) (cause : Nat) (hk : Touches A s0 s) (a_lanes : A .lanes = true) :
    Touches A s0 (State.setFail s n cause) := by
  simp (maxDischargeDepth := 60) [State.setFail, touches_ite, touches_mk, within_dev, devArea, elim_ite, within_irq,
      within_pc, within_line, within_host, within_pg, wr_touches, hk, a_lanes]

theorem enterC1_touches {s : State} (n : Fin 16) (hk : Touches A s0 s) (a_clk : A .clk = true) (a_lanes : A .lanes = true) :
    Touches A s0 (State.enterC1 s n) := by
  simp (maxDischargeDepth := 60) [State.enterC1, touches_ite, touches_mk, within_dev, devArea, elim_ite, within_irq,
      within_pc, within_line, within_host, within_pg, coDiscard_touches, modCo_touches, modPicot_touches, phaseSet_touches,
      wr_touches, hk, a_clk, a_lanes]

theorem sendReady_touches {s : State} (n : Fin 16) (hk : Touches A s0 s) (a_lanes : A .lanes = true) :
    Touches A s0 (State.sendReady s n) := by
  simp (maxDischargeDepth := 60) [State.sendReady, touches_ite, touches_mk, within_dev, devArea, elim_ite, within_irq,
      within_pc, within_line, within_host, within_pg, modCo_touches, sendSeq_touches, hk, a_lanes]

theorem portReady_touches {s : State} (n : Fin 16) (hk : Touches A s0 s) (a_lanes : A .lanes = true) :
    Touches A s0 (State.portReady s n) := by
  simp (maxDischargeDepth := 60) +contextual [State.portReady, touches_ite, touches_mk, within_dev, devArea, elim_ite,
      within_irq, within_pc, within_line, within_host, within_pg, touches_forAll, sendReady_touches, hk, a_lanes]

theorem laneWentDown_touches {s : State} (n : Fin 16) (hk : Touches A s0 s) (a_clk : A .clk = true) (a_lanes : A .lanes =
    true) :
    Touches A s0 (State.laneWentDown s n) := by
  simp (maxDischargeDepth := 60) [State.laneWentDown, touches_ite, touches_mk, within_dev, devArea, elim_ite, within_irq,
      within_pc, within_line, within_host, within_pg, gbDown_touches, outageCheck_touches, portReady_touches,
      swatchAbort_touches, hk, a_clk, a_lanes]

theorem laneCameUp_touches {s : State} (n : Fin 16) (hk : Touches A s0 s) (a_lanes : A .lanes = true) :
    Touches A s0 (State.laneCameUp s n) := by
  simp (maxDischargeDepth := 60) [State.laneCameUp, touches_ite, touches_mk, within_dev, devArea, elim_ite, within_irq,
      within_pc, within_line, within_host, within_pg, cfgReport_touches, gbUp_touches, hk, a_lanes]

theorem castStart_touches {s : State} (n : Fin 16) (hk : Touches A s0 s) (a_lanes : A .lanes = true) :
    Touches A s0 (State.castStart s n) := by
  simp (maxDischargeDepth := 60) [State.castStart, touches_ite, touches_mk, within_dev, devArea, elim_ite, within_irq,
      within_pc, within_line, within_host, within_pg, calStart_touches, modCo_touches, hk, a_lanes]

theorem toC0_touches {s : State} (n : Fin 16) (hold : Bool) (hk : Touches A s0 s) (a_clk : A .clk = true) (a_lanes : A .lanes
    = true) :
    Touches A s0 (State.toC0 s n hold) := by
  simp (maxDischargeDepth := 60) [State.toC0, touches_ite, touches_mk, within_dev, devArea, elim_ite, within_irq, within_pc,
      within_line, within_host, within_pg, castStart_touches, coDiscard_touches, laneWentDown_touches, modCo_touches,
      phaseSet_touches, picotFlush_touches, wr_touches, hk, a_clk, a_lanes]

theorem coRestart_touches {s : State} (n : Fin 16) (cause : Nat) (hk : Touches A s0 s) (a_clk : A .clk = true) (a_lanes : A
    .lanes = true) :
    Touches A s0 (State.coRestart s n cause) := by
  unfold State.coRestart
  split <;> simp (maxDischargeDepth := 60) [touches_ite, touches_mk, within_dev, devArea, elim_ite, within_irq, within_pc,
      within_line, within_host, within_pg, enterC1_touches, incSat_touches, modCo_touches, newSession_touches,
      picotFlush_touches, setFail_touches, toC0_touches, hk, a_clk, a_lanes]

theorem enterC2_touches {s : State} (n : Fin 16) (hk : Touches A s0 s) (a_clk : A .clk = true) (a_lanes : A .lanes = true) :
    Touches A s0 (State.enterC2 s n) := by
  simp (maxDischargeDepth := 60) [State.enterC2, touches_ite, touches_mk, within_dev, devArea, elim_ite, within_irq,
      within_pc, within_line, within_host, within_pg, coDiscard_touches, modCo_touches, phaseSet_touches, setCoFlag_touches,
      wr_touches, hk, a_clk, a_lanes]

theorem enterC3_touches {s : State} (n : Fin 16) (noPropose : Bool) (hk : Touches A s0 s) (a_clk : A .clk = true) (a_lanes : A
    .lanes = true) :
    Touches A s0 (State.enterC3 s n noPropose) := by
  simp (maxDischargeDepth := 60) [State.enterC3, touches_ite, touches_mk, within_dev, devArea, elim_ite, within_irq,
      within_pc, within_line, within_host, within_pg, c3Start_touches, modCo_touches, phaseSet_touches, hk, a_clk, a_lanes]

theorem enterC4_touches {s : State} (n : Fin 16) (cold : Bool) (hk : Touches A s0 s) (a_clk : A .clk = true) (a_lanes : A
    .lanes = true) :
    Touches A s0 (State.enterC4 s n cold) := by
  simp (maxDischargeDepth := 60) [State.enterC4, touches_ite, touches_mk, within_dev, devArea, elim_ite, within_irq,
      within_pc, within_line, within_host, within_pg, acqStart_touches, modCo_touches, phaseSet_touches, hk, a_clk, a_lanes]

theorem enterC5_touches {s : State} (n : Fin 16) (re : Bool) (hk : Touches A s0 s) (a_clk : A .clk = true) (a_lanes : A .lanes
    = true) :
    Touches A s0 (State.enterC5 s n re) := by
  simp (maxDischargeDepth := 60) +contextual [State.enterC5, touches_ite, touches_mk, within_dev, devArea, elim_ite,
      within_irq, within_pc, within_line, within_host, within_pg, followFreeze_touches, lockHunt_touches, phaseSet_touches,
      setCoFlag_touches, hk, a_clk, a_lanes]

theorem enterC7_touches {s : State} (n : Fin 16) (hk : Touches A s0 s) (a_clk : A .clk = true) (a_lanes : A .lanes = true) :
    Touches A s0 (State.enterC7 s n) := by
  simp (maxDischargeDepth := 60) [State.enterC7, touches_ite, touches_mk, within_dev, devArea, elim_ite, within_irq,
      within_pc, within_line, within_host, within_pg, incSat_touches, modLane_touches, modUnit_touches, outageCheck_touches,
      phaseSet_touches, sendStatus_touches, setCoFlag_touches, wr_touches, wrBit_touches, hk, a_clk, a_lanes]

theorem contradict_touches {s : State} (n : Fin 16) (num : Nat) (hk : Touches A s0 s) (a_clk : A .clk = true) (a_lanes : A
    .lanes = true) :
    Touches A s0 (State.contradict s n num) := by
  simp (maxDischargeDepth := 60) [State.contradict, touches_ite, touches_mk, within_dev, devArea, elim_ite, within_irq,
      within_pc, within_line, within_host, within_pg, enterC3_touches, incSat_touches, sendReject_touches, hk, a_clk, a_lanes]

theorem agreeTake_touches {s : State} (n : Fin 16) (p : Proposal) (own : Bool) (hk : Touches A s0 s) (a_clk : A .clk = true)
    (a_lanes : A .lanes = true) :
    Touches A s0 (State.agreeTake s n p own) := by
  simp (maxDischargeDepth := 60) [State.agreeTake, touches_ite, touches_mk, within_dev, devArea, elim_ite, within_irq,
      within_pc, within_line, within_host, within_pg, enterC4_touches, modCo_touches, setCoFlag_touches, setFormat_touches,
      wr_touches, hk, a_clk, a_lanes]

theorem agree_touches {s : State} (n : Fin 16) (p : Proposal) (own : Bool) (hk : Touches A s0 s) (a_clk : A .clk = true)
    (a_lanes : A .lanes = true) :
    Touches A s0 (State.agree s n p own) := by
  simp (maxDischargeDepth := 60) +contextual [State.agree, touches_ite, touches_mk, within_dev, devArea, elim_ite, within_irq,
      within_pc, within_line, within_host, within_pg, touches_forAll, agreeTake_touches, contradict_touches, hk, a_clk,
      a_lanes]

theorem sendTxeq_touches {s : State} (n : Fin 16) (taps : List Int) (hk : Touches A s0 s) (a_lanes : A .lanes = true) :
    Touches A s0 (State.sendTxeq s n taps) := by
  simp (maxDischargeDepth := 60) [State.sendTxeq, touches_ite, touches_mk, within_dev, devArea, elim_ite, within_irq,
      within_pc, within_line, within_host, within_pg, modCo_touches, sendSeq_touches, hk, a_lanes]

theorem searchNext_touches {s : State} (n : Fin 16) (x0 : Nat) (hk : Touches A s0 s) (a_lanes : A .lanes = true) :
    Touches A s0 (State.searchNext s n x0) := by
  induction x0 generalizing s with
  | zero => exact modCo_touches _ _ hk a_lanes
  | succ k ih =>
    unfold searchNext
    dsimp only
    split
    · exact modCo_touches _ _ hk a_lanes
    · split
      · exact sendTxeq_touches _ _ (modCo_touches _ _ hk a_lanes) a_lanes
      · exact ih (modCo_touches _ _ hk a_lanes)

theorem trainFrom_touches {s : State} (n : Fin 16) (t : Nat) (hk : Touches A s0 s) (a_lanes : A .lanes = true) :
    Touches A s0 (State.trainFrom s n t) := by
  simp (maxDischargeDepth := 60) [State.trainFrom, touches_ite, touches_mk, within_dev, devArea, elim_ite, within_irq,
      within_pc, within_line, within_host, within_pg, modLane_touches, hk, a_lanes]

theorem trainSnr_touches {s : State} (n : Fin 16) (hk : Touches A s0 s) (a_lanes : A .lanes = true) :
    Touches A s0 (State.trainSnr s n).2 := by
  simp (maxDischargeDepth := 60) [State.trainSnr, touches_ite, touches_mk, within_dev, devArea, elim_ite, within_irq,
      within_pc, within_line, within_host, within_pg, modLane_touches, snrValue_touches, hk, a_lanes]

theorem searchMeasured_touches {sn : State} (n : Fin 16) (hk : Touches A s0 sn) (a_lanes : A .lanes = true) :
    Touches A s0 (State.searchMeasured sn n) := by
  simp only [State.searchMeasured]
  (repeat' split) <;> simp (maxDischargeDepth := 60) [touches_ite, touches_mk, within_dev, devArea, elim_ite, within_irq,
      within_pc, within_line, within_host, within_pg, incSat_touches, modCo_touches, searchNext_touches, sendTxeq_touches,
      trainSnr_touches, wr_touches, wrI_touches, hk, a_lanes]

theorem txeqAnswered_touches {s : State} (n : Fin 16) (result : Nat) (hk : Touches A s0 s) (a_lanes : A .lanes = true) :
    Touches A s0 (State.txeqAnswered s n result) := by
  unfold State.txeqAnswered
  (repeat' split) <;> simp (maxDischargeDepth := 60) [touches_ite, touches_mk, within_dev, devArea, elim_ite, within_irq,
      within_pc, within_line, within_host, within_pg, modCo_touches, searchNext_touches, trainFrom_touches, hk, a_lanes]

theorem policyStart_touches {s : State} (n : Fin 16) (hk : Touches A s0 s) (a_lanes : A .lanes = true) :
    Touches A s0 (State.policyStart s n) := by
  unfold State.policyStart
  (repeat' split) <;> simp (maxDischargeDepth := 60) [touches_ite, touches_mk, within_dev, devArea, elim_ite, within_irq,
      within_pc, within_line, within_host, within_pg, modCo_touches, sendTxeq_touches, trainFrom_touches, hk, a_lanes]

theorem gateEnd_touches {s : State} (n : Fin 16) (hk : Touches A s0 s) (a_clk : A .clk = true) (a_lanes : A .lanes = true) :
    Touches A s0 (State.gateEnd s n) := by
  simp (maxDischargeDepth := 60) [State.gateEnd, touches_ite, touches_mk, within_dev, devArea, elim_ite, within_irq,
      within_pc, within_line, within_host, within_pg, coRestart_touches, enterC4_touches, incSat_touches, modCo_touches,
      portReady_touches, sendStatus_touches, hk, a_clk, a_lanes]

theorem enterC6_touches {s : State} (n : Fin 16) (hk : Touches A s0 s) (a_clk : A .clk = true) (a_lanes : A .lanes = true) :
    Touches A s0 (State.enterC6 s n) := by
  simp (maxDischargeDepth := 60) [State.enterC6, touches_ite, touches_mk, within_dev, devArea, elim_ite, within_irq,
      within_pc, within_line, within_host, within_pg, gateEnd_touches, modCo_touches, phaseSet_touches, hk, a_clk, a_lanes]

theorem advanceOnce_touches {s : State} (n : Fin 16) (hk : Touches A s0 s) (a_clk : A .clk = true) (a_lanes : A .lanes = true) :
    Touches A s0 (State.advanceOnce s n) := by
  simp only [State.advanceOnce]
  (repeat' split) <;> simp (maxDischargeDepth := 60) [touches_ite, touches_mk, within_dev, devArea, elim_ite, within_irq,
      within_pc, within_line, within_host, within_pg, enterC3_touches, enterC5_touches, enterC6_touches, enterC7_touches,
      sendReady_touches, hk, a_clk, a_lanes]

theorem coAdvance_touches {s : State} (n : Fin 16) (hk : Touches A s0 s) (a_clk : A .clk = true) (a_lanes : A .lanes = true) :
    Touches A s0 (State.coAdvance s n) := by
  simp (maxDischargeDepth := 60) [State.coAdvance, touches_ite, touches_mk, within_dev, devArea, elim_ite, within_irq,
      within_pc, within_line, within_host, within_pg, advanceOnce_touches, policyStart_touches, hk, a_clk, a_lanes]

theorem coSettle_touches {s : State} (n : Fin 16) (hk : Touches A s0 s) (a_clk : A .clk = true) (a_lanes : A .lanes = true) :
    Touches A s0 (State.coSettle s n) := by
  simp (maxDischargeDepth := 60) [State.coSettle, touches_ite, touches_mk, within_dev, devArea, elim_ite, within_irq,
      within_pc, within_line, within_host, within_pg, coAdvance_touches, sendKeepalive_touches, hk, a_clk, a_lanes]

theorem bindOff_touches {s : State} (n : Fin 16) (reason : Nat) (hk : Touches A s0 s) (a_lanes : A .lanes = true) :
    Touches A s0 (State.bindOff s n reason) := by
  simp (maxDischargeDepth := 60) [State.bindOff, touches_ite, touches_mk, within_dev, devArea, elim_ite, within_irq,
      within_pc, within_line, within_host, within_pg, incSat_touches, modCo_touches, sendSeq_touches, setCoFlag_touches, hk,
      a_lanes]

theorem bindDone_touches {s : State} (n : Fin 16) (hk : Touches A s0 s) (a_clk : A .clk = true) (a_lanes : A .lanes = true) :
    Touches A s0 (State.bindDone s n) := by
  simp (maxDischargeDepth := 60) [State.bindDone, touches_ite, touches_mk, within_dev, devArea, elim_ite, within_irq,
      within_pc, within_line, within_host, within_pg, toC0_touches, hk, a_clk, a_lanes]

theorem coFollow_touches {s : State} (n : Fin 16) (f : State → State) (hk : Touches A s0 s) (a_clk : A .clk = true) (a_lanes :
    A .lanes = true) (hf : ∀ z, Touches A s0 z → Touches A s0 (f z)) :
    Touches A s0 (State.coFollow s n f) := by
  simp (maxDischargeDepth := 60) [State.coFollow, touches_ite, touches_mk, within_dev, devArea, elim_ite, within_irq,
      within_pc, within_line, within_host, within_pg, coSettle_touches, enterC5_touches, incSat_touches, modCo_touches,
      sendStatus_touches, hk, a_clk, a_lanes, hf]

/-! ## CastOn -/

theorem ackedMsg_touches {s : State} (n : Fin 16) (m : Msg) (hk : Touches A s0 s) (a_clk : A .clk = true) (a_lanes : A .lanes
    = true) :
    Touches A s0 (State.ackedMsg s n m) := by
  unfold State.ackedMsg
  (repeat' split) <;> simp (maxDischargeDepth := 60) [touches_ite, touches_mk, within_dev, devArea, elim_ite, within_irq,
      within_pc, within_line, within_host, within_pg, agree_touches, bindDone_touches, modCo_touches, hk, a_clk, a_lanes]

theorem applyAck_touches {s : State} (n : Fin 16) (a : Nat) (hk : Touches A s0 s) (a_clk : A .clk = true) (a_lanes : A .lanes
    = true) :
    Touches A s0 (State.applyAck s n a) := by
  simp only [State.applyAck]
  (repeat' split) <;> simp (maxDischargeDepth := 60) +contextual [touches_ite, touches_mk, within_dev, devArea, elim_ite,
      within_irq, within_pc, within_line, within_host, within_pg, touches_forAll, ackedMsg_touches, coPump_touches,
      incSat_touches, modCo_touches, hk, a_clk, a_lanes]

theorem partnerRestart_touches {s : State} (n : Fin 16) (session : Nat) (hk : Touches A s0 s) (a_clk : A .clk = true) (a_lanes
    : A .lanes = true) :
    Touches A s0 (State.partnerRestart s n session) := by
  simp (maxDischargeDepth := 60) [State.partnerRestart, touches_ite, touches_mk, within_dev, devArea, elim_ite, within_irq,
      within_pc, within_line, within_host, within_pg, enterC2_touches, incSat_touches, newSession_touches, picotFlush_touches,
      setFail_touches, wr_touches, hk, a_clk, a_lanes]

theorem recvHead_touches {s : State} (n : Fin 16) (h : MsgHead) (hk : Touches A s0 s) (a_clk : A .clk = true) (a_lanes : A
    .lanes = true) :
    Touches A s0 (State.recvHead s n h).1 := by
  simp only [State.recvHead]
  (repeat' split) <;> simp (maxDischargeDepth := 60) [touches_ite, touches_mk, within_dev, devArea, elim_ite, within_irq,
      within_pc, within_line, within_host, within_pg, acqStart_touches, applyAck_touches, coAdvance_touches, enterC2_touches,
      fresh_touches, incSat_touches, modCo_touches, partnerRestart_touches, setCoFlag_touches, wr_touches, hk, a_clk, a_lanes]

theorem staleMsg_touches {s : State} (n : Fin 16) (typ : Nat) (body0 : Nat) (hk : Touches A s0 s) (a_lanes : A .lanes = true) :
    Touches A s0 (State.staleMsg s n typ body0) := by
  simp (maxDischargeDepth := 60) [State.staleMsg, touches_ite, touches_mk, within_dev, devArea, elim_ite, within_irq,
      within_pc, within_line, within_host, within_pg, incSat_touches, sendSeq_touches, hk, a_lanes]

theorem recvSequenced_touches {s : State} (n : Fin 16) (typ : Nat) (seq : Nat) (body0 : Nat) (body : State → State) (hk :
    Touches A s0 s) (a_clk : A .clk = true) (a_lanes : A .lanes = true) (hbody : ∀ z, Touches A s0 z → Touches A s0 (body z))
    :
    Touches A s0 (State.recvSequenced s n typ seq body0 body) := by
  simp only [State.recvSequenced]
  (repeat' split) <;> simp (maxDischargeDepth := 60) [touches_ite, touches_mk, within_dev, devArea, elim_ite, within_irq,
      within_pc, within_line, within_host, within_pg, coRestart_touches, incSat_touches, modCo_touches, staleMsg_touches, hk,
      a_clk, a_lanes, hbody]

theorem recv_touches {s : State} (n : Fin 16) (typ : Nat) (h : MsgHead) (body0 : Nat) (body : State → State) (hk : Touches A
    s0 s) (a_clk : A .clk = true) (a_lanes : A .lanes = true) (hbody : ∀ z, Touches A s0 z → Touches A s0 (body z)) :
    Touches A s0 (State.recv s n typ h body0 body) := by
  simp only [State.recv]
  (repeat' split) <;> simp (maxDischargeDepth := 60) +contextual [touches_ite, touches_mk, within_dev, devArea, elim_ite,
      within_irq, within_pc, within_line, within_host, within_pg, coSettle_touches, incSat_touches, recvHead_touches,
      recvSequenced_touches, sendCap_touches, sendSeq_touches, setCoFlag_touches, hk, a_clk, a_lanes, hbody]

theorem underAgr_touches {s : State} (n : Fin 16) (agr : Nat) (f : State → State) (hk : Touches A s0 s) (a_clk : A .clk =
    true) (a_lanes : A .lanes = true) (hf : ∀ z, Touches A s0 z → Touches A s0 (f z)) :
    Touches A s0 (State.underAgr s n agr f) := by
  simp (maxDischargeDepth := 60) [State.underAgr, touches_ite, touches_mk, within_dev, devArea, elim_ite, within_irq,
      within_pc, within_line, within_host, within_pg, contradict_touches, hk, a_clk, a_lanes, hf]

theorem capBody_touches {s : State} (n : Fin 16) (c : Cap) (hk : Touches A s0 s) (a_lanes : A .lanes = true) :
    Touches A s0 (State.capBody s n c) := by
  simp (maxDischargeDepth := 60) [State.capBody, touches_ite, touches_mk, within_dev, devArea, elim_ite, within_irq,
      within_pc, within_line, within_host, within_pg, c3Start_touches, incSat_touches, modCo_touches, setCoFlag_touches,
      wr_touches, hk, a_lanes]

theorem proposeBody_touches {s : State} (n : Fin 16) (p : Proposal) (hk : Touches A s0 s) (a_clk : A .clk = true) (a_lanes : A
    .lanes = true) :
    Touches A s0 (State.proposeBody s n p) := by
  simp only [State.proposeBody]
  (repeat' split) <;> simp (maxDischargeDepth := 60) [touches_ite, touches_mk, within_dev, devArea, elim_ite, within_irq,
      within_pc, within_line, within_host, within_pg, enterC3_touches, incSat_touches, modCo_touches, sendReject_touches,
      sendSeq_touches, hk, a_clk, a_lanes]

theorem acceptBody_touches {s : State} (n : Fin 16) (p : Proposal) (hk : Touches A s0 s) (a_clk : A .clk = true) (a_lanes : A
    .lanes = true) :
    Touches A s0 (State.acceptBody s n p) := by
  simp only [State.acceptBody]
  (repeat' split) <;> simp (maxDischargeDepth := 60) [touches_ite, touches_mk, within_dev, devArea, elim_ite, within_irq,
      within_pc, within_line, within_host, within_pg, agree_touches, incSat_touches, propose_touches, sendReject_touches, hk,
      a_clk, a_lanes]

theorem rejectBody_touches {s : State} (n : Fin 16) (num : Nat) (reason : Nat) (hk : Touches A s0 s) (a_clk : A .clk = true)
    (a_lanes : A .lanes = true) :
    Touches A s0 (State.rejectBody s n num reason) := by
  simp only [State.rejectBody]
  (repeat' split) <;> simp (maxDischargeDepth := 60) [touches_ite, touches_mk, within_dev, devArea, elim_ite, within_irq,
      within_pc, within_line, within_host, within_pg, enterC3_touches, incSat_touches, modCo_touches, propose_touches,
      setCoFlag_touches, hk, a_clk, a_lanes]

theorem txeqReqBody_touches {s : State} (n : Fin 16) (id : Nat) (main : Nat) (taps : List Int) (hk : Touches A s0 s) (a_lanes
    : A .lanes = true) :
    Touches A s0 (State.txeqReqBody s n id main taps) := by
  simp (maxDischargeDepth := 60) [State.txeqReqBody, touches_ite, touches_mk, within_dev, devArea, elim_ite, within_irq,
      within_pc, within_line, within_host, within_pg, incSat_touches, modCo_touches, modLane_touches, sendSeq_touches, hk,
      a_lanes]

theorem txeqAckDue_touches {s : State} (n : Fin 16) (hk : Touches A s0 s) (a_lanes : A .lanes = true) :
    Touches A s0 (State.txeqAckDue s n) := by
  unfold State.txeqAckDue
  split <;> simp (maxDischargeDepth := 60) [touches_ite, touches_mk, within_dev, devArea, elim_ite, within_irq, within_pc,
      within_line, within_host, within_pg, modCo_touches, sendSeq_touches, hk, a_lanes]

theorem txeqAckBody_touches {s : State} (n : Fin 16) (id : Nat) (result : Nat) (taps : List Int) (hk : Touches A s0 s)
    (a_lanes : A .lanes = true) :
    Touches A s0 (State.txeqAckBody s n id result taps) := by
  simp (maxDischargeDepth := 60) [State.txeqAckBody, touches_ite, touches_mk, within_dev, devArea, elim_ite, within_irq,
      within_pc, within_line, within_host, within_pg, incSat_touches, modCo_touches, txeqAnswered_touches, wr_touches, hk,
      a_lanes]

theorem statusBody_touches {s : State} (n : Fin 16) (lock : Nat) (fill : Nat) (verify : Nat) (hk : Touches A s0 s) (a_clk : A
    .clk = true) (a_lanes : A .lanes = true) :
    Touches A s0 (State.statusBody s n lock fill verify) := by
  simp (maxDischargeDepth := 60) [State.statusBody, touches_ite, touches_mk, within_dev, devArea, elim_ite, within_irq,
      within_pc, within_line, within_host, within_pg, enterC4_touches, setCoFlag_touches, hk, a_clk, a_lanes]

theorem readyBody_touches {s : State} (n : Fin 16) (done : Nat) (hk : Touches A s0 s) (a_lanes : A .lanes = true) :
    Touches A s0 (State.readyBody s n done) := by
  simp (maxDischargeDepth := 60) [State.readyBody, touches_ite, touches_mk, within_dev, devArea, elim_ite, within_irq,
      within_pc, within_line, within_host, within_pg, modCo_touches, hk, a_lanes]

theorem bindBody_touches {s : State} (n : Fin 16) (hk : Touches A s0 s) (a_clk : A .clk = true) (a_lanes : A .lanes = true) :
    Touches A s0 (State.bindBody s n) := by
  simp (maxDischargeDepth := 60) [State.bindBody, touches_ite, touches_mk, within_dev, devArea, elim_ite, within_irq,
      within_pc, within_line, within_host, within_pg, enterC1_touches, incSat_touches, sendKeepalive_touches, setFail_touches,
      hk, a_clk, a_lanes]

theorem silent_touches {s : State} (n : Fin 16) (hk : Touches A s0 s) (a_clk : A .clk = true) (a_lanes : A .lanes = true) :
    Touches A s0 (State.silent s n) := by
  simp (maxDischargeDepth := 60) [State.silent, touches_ite, touches_mk, within_dev, devArea, elim_ite, within_irq, within_pc,
      within_line, within_host, within_pg, coPump_touches, coRestart_touches, incSat_touches, modCo_touches,
      setCoFlag_touches, hk, a_clk, a_lanes]

theorem responseTimer_touches {s : State} (n : Fin 16) (hk : Touches A s0 s) (a_clk : A .clk = true) (a_lanes : A .lanes =
    true) :
    Touches A s0 (State.responseTimer s n) := by
  simp (maxDischargeDepth := 60) +contextual [State.responseTimer, touches_ite, touches_mk, within_dev, devArea, elim_ite,
      within_irq, within_pc, within_line, within_host, within_pg, touches_forAll, addSat_touches, coOffer_touches,
      modCo_touches, silent_touches, hk, a_clk, a_lanes]

theorem calFinished_touches {s : State} (n : Fin 16) (hk : Touches A s0 s) (a_clk : A .clk = true) (a_lanes : A .lanes = true) :
    Touches A s0 (State.calFinished s n) := by
  simp (maxDischargeDepth := 60) [State.calFinished, touches_ite, touches_mk, within_dev, devArea, elim_ite, within_irq,
      within_pc, within_line, within_host, within_pg, calApply_touches, castStart_touches, enterC1_touches, modCo_touches,
      newSession_touches, sendKeepalive_touches, hk, a_clk, a_lanes]

theorem burstStarted_touches {s : State} (n : Fin 16) (hk : Touches A s0 s) (a_lanes : A .lanes = true) :
    Touches A s0 (State.burstStarted s n) := by
  unfold State.burstStarted
  split <;> simp (maxDischargeDepth := 60) [touches_ite, touches_mk, within_dev, devArea, elim_ite, within_irq, within_pc,
      within_line, within_host, within_pg, incSat_touches, modCo_touches, modLane_touches, picotStart_touches, hk, a_lanes]

theorem burstEnded_touches {s : State} (n : Fin 16) (hk : Touches A s0 s) (a_clk : A .clk = true) (a_lanes : A .lanes = true) :
    Touches A s0 (State.burstEnded s n) := by
  unfold State.burstEnded
  split <;> simp (maxDischargeDepth := 60) [touches_ite, touches_mk, within_dev, devArea, elim_ite, within_irq, within_pc,
      within_line, within_host, within_pg, bindDone_touches, calDacStart_touches, picotBurstEnd_touches, hk, a_clk, a_lanes]

theorem coClear_touches {s : State} (n : Fin 16) (hk : Touches A s0 s) (a_lanes : A .lanes = true) :
    Touches A s0 (State.coClear s n) := by
  simp (maxDischargeDepth := 60) [State.coClear, touches_ite, touches_mk, within_dev, devArea, elim_ite, within_irq,
      within_pc, within_line, within_host, within_pg, elim_ite, clrAll_touches, hk, a_lanes]

theorem coDrop_touches {s : State} (n : Fin 16) (hk : Touches A s0 s) (a_clk : A .clk = true) (a_lanes : A .lanes = true) :
    Touches A s0 (State.coDrop s n) := by
  simp (maxDischargeDepth := 60) [State.coDrop, touches_ite, touches_mk, within_dev, devArea, elim_ite, within_irq, within_pc,
      within_line, within_host, within_pg, modCo_touches, picotFlush_touches, toC0_touches, hk, a_clk, a_lanes]

theorem effLineAdmin_touches {s : State} (n : Fin 16) (v : Nat) (hk : Touches A s0 s) (a_clk : A .clk = true) (a_lanes : A
    .lanes = true) :
    Touches A s0 (effLineAdmin n v s) := by
  unfold effLineAdmin
  (repeat' split) <;> simp (maxDischargeDepth := 60) [touches_ite, touches_mk, within_dev, devArea, elim_ite, within_irq,
      within_pc, within_line, within_host, within_pg, bindOff_touches, castStart_touches, coSettle_touches,
      laneCameUp_touches, laneWentDown_touches, modCo_touches, toC0_touches, wr_touches, hk, a_clk, a_lanes]

theorem effCoCmd_touches {s : State} (n : Fin 16) (v : Nat) (hk : Touches A s0 s) (a_clk : A .clk = true) (a_lanes : A .lanes
    = true) :
    Touches A s0 (effCoCmd n v s) := by
  simp (maxDischargeDepth := 60) [effCoCmd, touches_ite, touches_mk, within_dev, devArea, elim_ite, within_irq, within_pc,
      within_line, within_host, within_pg, bindOff_touches, coRestart_touches, coSettle_touches, toC0_touches, hk, a_clk,
      a_lanes]

theorem effTxeqGo_touches {s : State} (n : Fin 16) (v : Nat) (hk : Touches A s0 s) (a_clk : A .clk = true) (a_lanes : A .lanes
    = true) :
    Touches A s0 (effTxeqGo n v s) := by
  simp (maxDischargeDepth := 60) [effTxeqGo, touches_ite, touches_mk, within_dev, devArea, elim_ite, within_irq, within_pc,
      within_line, within_host, within_pg, coSettle_touches, modCo_touches, sendTxeq_touches, hk, a_clk, a_lanes]

theorem effCoClear_touches {s : State} (n : Fin 16) (v : Nat) (hk : Touches A s0 s) (a_lanes : A .lanes = true) :
    Touches A s0 (effCoClear n v s) := by
  simp (maxDischargeDepth := 60) [effCoClear, touches_ite, touches_mk, within_dev, devArea, elim_ite, within_irq, within_pc,
      within_line, within_host, within_pg, coClear_touches, hk, a_lanes]

theorem effCoCfg_touches {s : State} (n : Fin 16) (k : Key) (v : Nat) (hk : Touches A s0 s) (a_clk : A .clk = true) (a_lanes :
    A .lanes = true) (h_k : Key.within A k = true) :
    Touches A s0 (effCoCfg n k v s) := by
  have h : ∀ o z : State, Touches A s0 z → Touches A s0 (State.coConfig o z n) := fun o z hz =>
    touches_ite _ (coRestart_touches _ _ hz a_clk a_lanes) (offerCheck_touches _ hz a_lanes)
  exact h _ _ (wr_touches _ _ hk h_k)

theorem effPgCfg_touches {s : State} (k : Fin 4) (key : Key) (v : Nat) (hk : Touches A s0 s) (a_clk : A .clk = true) (a_lanes
    : A .lanes = true) (h_k : Key.within A key = true) :
    Touches A s0 (effPgCfg k key v s) := by
  have h : ∀ (o z : State) n, Touches A s0 z → Touches A s0 (State.coConfig o z n) := fun o z n hz =>
    touches_ite _ (coRestart_touches _ _ hz a_clk a_lanes) (offerCheck_touches _ hz a_lanes)
  exact touches_forAll _ _ (wr_touches _ _ hk h_k) fun n z hz => h _ _ n hz

theorem effOutEn_touches {s : State} (n : Fin 16) (v : Nat) (hk : Touches A s0 s) (a_clk : A .clk = true) (a_lanes : A .lanes
    = true) :
    Touches A s0 (effOutEn n v s) := by
  simp (maxDischargeDepth := 60) [effOutEn, touches_ite, touches_mk, within_dev, devArea, elim_ite, within_irq, within_pc,
      within_line, within_host, within_pg, bindDone_touches, effTxOut_touches, hk, a_clk, a_lanes]

/-! ## LineTime -/

theorem modXfer_touches {s : State} (n : Fin 16) (f : XferS → XferS) (hk : Touches A s0 s) (a_lanes : A .lanes = true) :
    Touches A s0 (State.modXfer s n f) := by
  simp (maxDischargeDepth := 60) [State.modXfer, touches_ite, touches_mk, within_dev, devArea, elim_ite, within_irq,
      within_pc, within_line, within_host, within_pg, modLane_touches, hk, a_lanes]

theorem stampRow_touches {s : State} (n : Fin 16) (hk : Touches A s0 s) (a_lanes : A .lanes = true) :
    Touches A s0 (State.stampRow s n) := by
  simp (maxDischargeDepth := 60) [State.stampRow, touches_ite, touches_mk, within_dev, devArea, elim_ite, within_irq,
      within_pc, within_line, within_host, within_pg, modXfer_touches, hk, a_lanes]

theorem stampArrival_touches {s : State} (n : Fin 16) (j : Nat) (frac : Nat) (hk : Touches A s0 s) (a_lanes : A .lanes = true) :
    Touches A s0 (State.stampArrival s n j frac) := by
  simp (maxDischargeDepth := 60) [State.stampArrival, touches_ite, touches_mk, within_dev, devArea, elim_ite, within_irq,
      within_pc, within_line, within_host, within_pg, modXfer_touches, hk, a_lanes]

theorem timeDue_touches {s : State} (n : Fin 16) (hk : Touches A s0 s) (a_lanes : A .lanes = true) :
    Touches A s0 (State.timeDue s n) := by
  unfold State.timeDue
  split <;> simp (maxDischargeDepth := 60) [touches_ite, touches_mk, within_dev, devArea, elim_ite, within_irq, within_pc,
      within_line, within_host, within_pg, incSat_touches, modXfer_touches, sendPlain_touches, hk, a_lanes]

theorem timeWithdraw_touches {s : State} (n : Fin 16) (hk : Touches A s0 s) (a_lanes : A .lanes = true) :
    Touches A s0 (State.timeWithdraw s n) := by
  simp (maxDischargeDepth := 60) [State.timeWithdraw, touches_ite, touches_mk, within_dev, devArea, elim_ite, within_irq,
      within_pc, within_line, within_host, within_pg, incSat_touches, modPicot_touches, modXfer_touches, hk, a_lanes]

theorem xferFault_touches {s : State} (n : Fin 16) (k : Key) (hk : Touches A s0 s) (a_time : A .time = true) (h_k : Key.within
    A k = true) :
    Touches A s0 (State.xferFault s n k) := by
  simp (maxDischargeDepth := 60) [State.xferFault, touches_ite, touches_mk, within_dev, within_line, within_host, within_pg,
      within_port, within_loop, within_aux, within_og, within_chain, within_mb, within_pc, within_slot, within_pwr,
      within_irq, devArea, elim_ite, incSat_touches, raiseIn_touches, hk, a_time, h_k]

theorem xferResult_touches {s : State} (n : Fin 16) (t1 : Nat) (t2 : Nat) (t3 : Nat) (t4 : Nat) (o : XferOut) (flags : Nat)
    (hk : Touches A s0 s) (a_time : A .time = true) (a_lanes : A .lanes = true) :
    Touches A s0 (State.xferResult s n t1 t2 t3 t4 o flags) := by
  simp (maxDischargeDepth := 60) [State.xferResult, touches_ite, touches_mk, within_dev, devArea, elim_ite, within_irq,
      within_pc, within_line, within_host, within_pg, incSat_touches, incWrap_touches, modXfer_touches, raiseIn_touches,
      servoMeasure_touches, wr_touches, wrI_touches, hk, a_time, a_lanes]

theorem timeHandle_touches {s : State} (n : Fin 16) (m : TimeMsg) (back : Nat) (hk : Touches A s0 s) (a_time : A .time = true)
    (a_lanes : A .lanes = true) :
    Touches A s0 (State.timeHandle s n m back) := by
  simp only [State.timeHandle]
  (repeat' split) <;> simp (maxDischargeDepth := 60) [touches_ite, touches_mk, within_dev, devArea, elim_ite, within_irq,
      within_pc, within_line, within_host, within_pg, modXfer_touches, xferFault_touches, xferResult_touches, hk, a_time,
      a_lanes]

theorem timeMessage_touches {s : State} (n : Fin 16) (h : MsgHead) (m : TimeMsg) (back : Nat) (hk : Touches A s0 s) (a_time :
    A .time = true) (a_clk : A .clk = true) (a_lanes : A .lanes = true) :
    Touches A s0 (State.timeMessage s n h m back) := by
  simp (maxDischargeDepth := 60) +contextual [State.timeMessage, touches_ite, touches_mk, within_dev, devArea, elim_ite,
      within_irq, within_pc, within_line, within_host, within_pg, incSat_touches, recv_touches, timeHandle_touches, hk,
      a_time, a_clk, a_lanes]

theorem delivered_touches {s : State} (n : Fin 16) (hdr : List Byte) (p : List Byte) (back : Nat) (hk : Touches A s0 s)
    (a_time : A .time = true) (a_clk : A .clk = true) (a_lanes : A .lanes = true) :
    Touches A s0 (State.delivered s n hdr p back) := by
  simp only [State.delivered]
  (repeat' split) <;> simp (maxDischargeDepth := 60) +contextual [touches_ite, touches_mk, within_dev, devArea, elim_ite,
      within_irq, within_pc, within_line, within_host, within_pg, acceptBody_touches, bindBody_touches, capBody_touches,
      incSat_touches, proposeBody_touches, readyBody_touches, recv_touches, rejectBody_touches, statusBody_touches,
      timeMessage_touches, txeqAckBody_touches, txeqReqBody_touches, underAgr_touches, hk, a_time, a_clk, a_lanes]

theorem headerEnd_touches {s : State} (n : Fin 16) (hdr : List Byte) (crc : List Byte) (snr : Nat) (foff : Nat) (hk : Touches
    A s0 s) (a_time : A .time = true) (a_clk : A .clk = true) (a_lanes : A .lanes = true) :
    Touches A s0 (State.headerEnd s n hdr crc snr foff) := by
  simp (maxDischargeDepth := 60) [State.headerEnd, touches_ite, touches_mk, within_dev, devArea, elim_ite, within_irq,
      within_pc, within_line, within_host, within_pg, delivered_touches, incSat_touches, modPicot_touches,
      picotDelivered_touches, picotDropPend_touches, picotLast_touches, picotResume_touches, hk, a_time, a_clk, a_lanes]

theorem payloadEnd_touches {s : State} (n : Fin 16) (payload : List Byte) (crc : List Byte) (snr : Nat) (foff : Nat) (back :
    Nat) (hk : Touches A s0 s) (a_time : A .time = true) (a_clk : A .clk = true) (a_lanes : A .lanes = true) :
    Touches A s0 (State.payloadEnd s n payload crc snr foff back) := by
  simp (maxDischargeDepth := 60) [State.payloadEnd, touches_ite, touches_mk, within_dev, devArea, elim_ite, within_irq,
      within_pc, within_line, within_host, within_pg, delivered_touches, incSat_touches, picotDelivered_touches,
      picotLast_touches, picotSearch_touches, hk, a_time, a_clk, a_lanes]

theorem lanePeriod_touches {s : State} (n : Fin 16) (hk : Touches A s0 s) (a_lanes : A .lanes = true) :
    Touches A s0 (State.lanePeriod s n) := by
  simp (maxDischargeDepth := 60) [State.lanePeriod, touches_ite, touches_mk, within_dev, devArea, elim_ite, within_irq,
      within_pc, within_line, within_host, within_pg, modXfer_touches, wrBit_touches, hk, a_lanes]

theorem periodMiss_touches {s : State} (w : MissOf) (hk : Touches A s0 s) (a_time : A .time = true) (a_lanes : A .lanes =
    true) :
    Touches A s0 (State.periodMiss s w) := by
  unfold State.periodMiss
  split <;> simp (maxDischargeDepth := 60) [touches_ite, touches_mk, within_dev, devArea, elim_ite, within_irq, within_pc,
      within_line, within_host, within_pg, beaconMiss_touches, lanePeriod_touches, modTime_touches, timeMiss_touches, hk,
      a_time, a_lanes]

theorem timeClear_touches {s : State} (n : Fin 16) (hk : Touches A s0 s) (a_lanes : A .lanes = true) :
    Touches A s0 (State.timeClear s n) := by
  simp (maxDischargeDepth := 60) [State.timeClear, touches_ite, touches_mk, within_dev, devArea, elim_ite, within_irq,
      within_pc, within_line, within_host, within_pg, elim_ite, clrAll_touches, hk, a_lanes]

theorem timeLaneReset_touches {s : State} (n : Fin 16) (hk : Touches A s0 s) (a_lanes : A .lanes = true) :
    Touches A s0 (State.timeLaneReset s n) := by
  simp (maxDischargeDepth := 60) [State.timeLaneReset, touches_ite, touches_mk, within_dev, devArea, elim_ite, within_irq,
      within_pc, within_line, within_host, within_pg, elim_ite, clrAll_touches, modXfer_touches, hk, a_lanes]

theorem effTimeClear_touches {s : State} (n : Fin 16) (v : Nat) (hk : Touches A s0 s) (a_lanes : A .lanes = true) :
    Touches A s0 (effTimeClear n v s) := by
  simp (maxDischargeDepth := 60) [effTimeClear, touches_ite, touches_mk, within_dev, devArea, elim_ite, within_irq, within_pc,
      within_line, within_host, within_pg, timeClear_touches, hk, a_lanes]

/-! ## Prbs -/

theorem setPrbs_touches {s : State} (a : PrbsAt) (v : PrbsChk) (hk : Touches A s0 s) (a_ring : A .ring = true) (a_lanes : A
    .lanes = true) :
    Touches A s0 (State.setPrbs s a v) := by
  unfold setPrbs
  have h1 := wrBit_touches (prbsChk a 2) 0 (v == .locked) hk (within_prbsChk a 2 a_lanes a_ring)
  cases a
  · exact modHost_touches _ _ h1 a_lanes
  · exact modLane_touches _ _ h1 a_lanes
  · exact touches_mk h1 _ _ _ _ _ _ _ _ _ _ _ _ _ (.inr rfl) (.inr rfl) (.inr ⟨rfl, rfl, rfl⟩) (.inr rfl) (.inl a_ring) (.inr
      rfl)

theorem modPrbsReg_touches {s : State} (a : PrbsAt) (f : PrbsReg → PrbsReg) (hk : Touches A s0 s) (a_ring : A .ring = true)
    (a_lanes : A .lanes = true) :
    Touches A s0 (State.modPrbsReg s a f) := by
  unfold State.modPrbsReg
  split <;> simp (maxDischargeDepth := 60) [touches_ite, touches_mk, within_dev, devArea, elim_ite, within_irq, within_pc,
      within_port, within_line, within_host, within_pg, modHost_touches, modLane_touches, hk, a_ring, a_lanes]

theorem setPrbsInj_touches {s : State} (a : PrbsAt) (i : InjS) (hk : Touches A s0 s) (a_ring : A .ring = true) (a_lanes : A
    .lanes = true) :
    Touches A s0 (State.setPrbsInj s a i) := by
  unfold State.setPrbsInj
  split <;> simp (maxDischargeDepth := 60) [touches_ite, touches_mk, within_dev, devArea, elim_ite, within_irq, within_pc,
      within_port, within_line, within_host, within_pg, modHost_touches, modLane_touches, hk, a_ring, a_lanes]

theorem prbsReseed_touches {s : State} (a : PrbsAt) (hk : Touches A s0 s) (a_ring : A .ring = true) (a_lanes : A .lanes =
    true) :
    Touches A s0 (State.prbsReseed s a) := by
  simp (maxDischargeDepth := 60) [State.prbsReseed, touches_ite, touches_mk, within_dev, devArea, elim_ite, within_irq,
      within_pc, within_port, within_line, within_host, within_pg, within_prbsGen, modPrbsReg_touches, hk, a_ring, a_lanes]

theorem prbsInjFollow_touches {s : State} (a : PrbsAt) (hk : Touches A s0 s) (a_ring : A .ring = true) (a_lanes : A .lanes =
    true) :
    Touches A s0 (State.prbsInjFollow s a) := by
  simp (maxDischargeDepth := 60) [State.prbsInjFollow, touches_ite, touches_mk, within_dev, devArea, elim_ite, within_irq,
      within_pc, within_port, within_line, within_host, within_pg, within_prbsGen, addSat_touches, setPrbsInj_touches, hk,
      a_ring, a_lanes]

theorem prbsCheck_touches {s : State} (a : PrbsAt) (v : Nat) (hk : Touches A s0 s) (a_ring : A .ring = true) (a_lanes : A
    .lanes = true) :
    Touches A s0 (State.prbsCheck s a v) := by
  unfold State.prbsCheck
  (repeat' split) <;> simp (maxDischargeDepth := 60) [touches_ite, touches_mk, within_dev, devArea, elim_ite, within_irq,
      within_pc, within_port, within_line, within_host, within_pg, within_prbsChk, modPrbsReg_touches, setHostBit_touches,
      setPrbs_touches, wr_touches, hk, a_ring, a_lanes]

theorem prbsWindow_touches {s : State} (a : PrbsAt) (bits : List Bool) (hk : Touches A s0 s) (a_ring : A .ring = true)
    (a_lanes : A .lanes = true) :
    Touches A s0 (State.prbsWindow s a bits) := by
  unfold State.prbsWindow
  split <;> simp (maxDischargeDepth := 60) [touches_ite, touches_mk, within_dev, devArea, elim_ite, within_irq, within_pc,
      within_port, within_line, within_host, within_pg, within_prbsChk, addSat_touches, incSat_touches, modPrbsReg_touches,
      setPrbs_touches, wrBit_touches, hk, a_ring, a_lanes]

theorem portTest_touches {s : State} (a : PrbsAt) (hk : Touches A s0 s) (a_ring : A .ring = true) :
    Touches A s0 (State.portTest s a) := by
  unfold State.portTest
  split <;> simp (maxDischargeDepth := 60) [touches_ite, touches_mk, within_dev, devArea, elim_ite, within_irq, within_pc,
      within_port, within_prbsGen, within_prbsChk, wr_touches, hk, a_ring]

theorem prbsClear_touches {s : State} (a : PrbsAt) (hk : Touches A s0 s) (a_ring : A .ring = true) (a_lanes : A .lanes = true) :
    Touches A s0 (State.prbsClear s a) := by
  simp (maxDischargeDepth := 60) [State.prbsClear, touches_ite, touches_mk, within_dev, devArea, elim_ite, within_irq,
      within_pc, within_port, within_line, within_host, within_pg, within_prbsChk, elim_ite, clrAll_touches, wrBit_touches,
      hk, a_ring, a_lanes]

theorem prbsOff_touches {s : State} (a : PrbsAt) (hk : Touches A s0 s) (a_ring : A .ring = true) (a_lanes : A .lanes = true) :
    Touches A s0 (State.prbsOff s a) := by
  simp (maxDischargeDepth := 60) [State.prbsOff, touches_ite, touches_mk, within_dev, devArea, elim_ite, within_irq,
      within_pc, within_port, within_line, within_host, within_pg, within_prbsGen, prbsCheck_touches, prbsInjFollow_touches,
      wr_touches, hk, a_ring, a_lanes]

theorem effPrbsGen_touches {s : State} (a : PrbsAt) (r : Fin 18) (v : Nat) (hk : Touches A s0 s) (a_ring : A .ring = true)
    (a_lanes : A .lanes = true) :
    Touches A s0 (effPrbsGen a r v s) := by
  unfold effPrbsGen
  split <;> simp (maxDischargeDepth := 60) [touches_ite, touches_mk, within_dev, devArea, elim_ite, within_irq, within_pc,
      within_port, within_line, within_host, within_pg, within_prbsGen, defer_touches, portTest_touches,
      prbsInjFollow_touches, prbsReseed_touches, wr_touches, hk, a_ring, a_lanes]

theorem effPrbsChk_touches {s : State} (a : PrbsAt) (v : Nat) (hk : Touches A s0 s) (a_ring : A .ring = true) (a_lanes : A
    .lanes = true) :
    Touches A s0 (effPrbsChk a v s) := by
  simp (maxDischargeDepth := 60) [effPrbsChk, touches_ite, touches_mk, within_dev, devArea, elim_ite, within_irq, within_pc,
      within_port, within_line, within_host, within_pg, portTest_touches, prbsCheck_touches, hk, a_ring, a_lanes]

theorem effPrbsInject_touches {s : State} (a : PrbsAt) (v : Nat) (hk : Touches A s0 s) (a_ring : A .ring = true) (a_lanes : A
    .lanes = true) :
    Touches A s0 (effPrbsInject a v s) := by
  simp (maxDischargeDepth := 60) [effPrbsInject, touches_ite, touches_mk, within_dev, devArea, elim_ite, within_irq,
      within_pc, within_port, within_line, within_host, within_pg, within_prbsGen, incSat_touches, prbsInjFollow_touches,
      setPrbsInj_touches, wr_touches, hk, a_ring, a_lanes]

theorem effPrbsClear_touches {s : State} (a : PrbsAt) (v : Nat) (hk : Touches A s0 s) (a_ring : A .ring = true) (a_lanes : A
    .lanes = true) :
    Touches A s0 (effPrbsClear a v s) := by
  simp (maxDischargeDepth := 60) [effPrbsClear, touches_ite, touches_mk, within_dev, devArea, elim_ite, within_irq, within_pc,
      within_port, within_line, within_host, within_pg, prbsClear_touches, hk, a_ring, a_lanes]

/-! ## TxChain -/

theorem txSend_touches {s : State} (n : Fin 16) (bits : List Bool) (wave : List Int) (hk : Touches A s0 s) (a_lanes : A .lanes
    = true) :
    Touches A s0 (State.txSend s n bits wave) := by
  simp (maxDischargeDepth := 60) [State.txSend, touches_ite, touches_mk, within_dev, devArea, elim_ite, within_irq, within_pc,
      within_line, within_host, within_pg, addSat_touches, modLane_touches, hk, a_lanes]

end State

end Sys2Proof.Machine
end

