-- ==== Sys2Proof/Laws/TouchUnit.lean ====
section
/-!
SUPPORT. What the operations of the ring, the optics control, the boot and the resets touch.
-/

set_option linter.unusedSimpArgs false
set_option linter.unusedVariables false

namespace Sys2Proof.Machine

variable {A : Area → Bool} {s0 s : State}

namespace State

/-! ## Link -/

theorem losSet_touches {s : State} (n : Fin 16) (hk : Touches A s0 s) (a_clk : A .clk = true) (a_lanes : A .lanes = true) :
    Touches A s0 (State.losSet s n) := by
  simp (maxDischargeDepth := 60) +contextual [State.losSet, touches_ite, touches_mk, within_dev, devArea, elim_ite,
      within_irq, within_pc, within_line, within_host, within_pg, cwLost_touches, followFreeze_touches, raise_touches,
      ssLos_touches, wr_touches, hk, a_clk, a_lanes]

theorem losClear_touches {s : State} (n : Fin 16) (hk : Touches A s0 s) (a_lanes : A .lanes = true) :
    Touches A s0 (State.losClear s n) := by
  simp (maxDischargeDepth := 60) +contextual [State.losClear, touches_ite, touches_mk, within_dev, devArea, elim_ite,
      within_irq, within_pc, within_line, within_host, within_pg, followFreeze_touches, wr_touches, hk, a_lanes]

theorem epochLane_touches {s : State} (n : Fin 16) (hk : Touches A s0 s) (a_lanes : A .lanes = true) :
    Touches A s0 (State.epochLane s n) := by
  simp (maxDischargeDepth := 60) [State.epochLane, touches_ite, touches_mk, within_dev, devArea, elim_ite, within_irq,
      within_pc, within_line, within_host, within_pg, epochLatency_touches, incWrap_touches, injFollow_touches,
      stampRow_touches, hk, a_lanes]

theorem slotCheck_touches {s : State} (n : Fin 16) (hk : Touches A s0 s) (a_bist : A .bist = true) (a_lanes : A .lanes = true) :
    Touches A s0 (State.slotCheck s n) := by
  unfold slotCheck
  refine modLane_touches _ _ (touches_ite _ (touches_forAll _ _ hk fun j z hz => ?_) hk) a_lanes
  split
  · exact ssSuspect_touches _ _ _ hz a_bist a_lanes
  · exact hz

theorem txEpoch_touches {s : State} (k : Fin 4) (freqs : List Nat) (hk : Touches A s0 s) (a_bist : A .bist = true) (a_lanes :
    A .lanes = true) :
    Touches A s0 (State.txEpoch s k freqs) := by
  unfold txEpoch
  refine touches_ite _ hk (touches_forAll _ _ (fecEpoch_touches _ (touches_forAll _ _ (touches_forAll _ _ hk ?_) ?_) a_lanes)
      ?_)
  · exact fun n z hz => epochLane_touches _ hz a_lanes
  · intro m z hz
    split
    · exact hostFreq_touches _ _ hz a_lanes
    · exact hz
  · exact fun n z hz => slotCheck_touches _ hz a_bist a_lanes

theorem blockEnd_touches {s : State} (n : Fin 16) (hk : Touches A s0 s) (a_lanes : A .lanes = true) :
    Touches A s0 (State.blockEnd s n) := by
  simp (maxDischargeDepth := 60) [State.blockEnd, touches_ite, touches_mk, within_dev, devArea, elim_ite, within_irq,
      within_pc, within_line, within_host, within_pg, blockDecoded_touches, latEvent_touches, hk, a_lanes]

theorem markerEnd_touches {s : State} (n : Fin 16) (b : Bool) (differ : Nat) (p : Nat) (moved : Bool) (hk : Touches A s0 s)
    (a_clk : A .clk = true) (a_lanes : A .lanes = true) :
    Touches A s0 (State.markerEnd s n b differ p moved) := by
  simp (maxDischargeDepth := 60) [State.markerEnd, touches_ite, touches_mk, within_dev, devArea, elim_ite, within_irq,
      within_pc, within_line, within_host, within_pg, latEvent_touches, markerAt_touches, hk, a_clk, a_lanes]

theorem tagEnd_touches {s : State} (n : Fin 16) (j : Nat) (hk : Touches A s0 s) (a_lanes : A .lanes = true) :
    Touches A s0 (State.tagEnd s n j) := by
  simp (maxDischargeDepth := 60) [State.tagEnd, touches_ite, touches_mk, within_dev, devArea, elim_ite, within_irq, within_pc,
      within_line, within_host, within_pg, epochTag_touches, stampArrival_touches, hk, a_lanes]

theorem effLosThr_touches {s : State} (n : Fin 16) (v : Nat) (hk : Touches A s0 s) (a_lanes : A .lanes = true) :
    Touches A s0 (effLosThr n v s) := by
  simp (maxDischargeDepth := 60) [effLosThr, touches_ite, touches_mk, within_dev, devArea, elim_ite, within_irq, within_pc,
      within_line, within_host, within_pg, losClear_touches, wr_touches, hk, a_lanes]

/-! ## Ring -/

theorem modPort_touches {s : State} (p : Fin 2) (f : PortS → PortS) (hk : Touches A s0 s) (a_ring : A .ring = true) :
    Touches A s0 (State.modPort s p f) := by
  simp (maxDischargeDepth := 60) [State.modPort, touches_ite, touches_mk, hk, a_ring]

theorem modRing_touches {s : State} (f : RingS → RingS) (hk : Touches A s0 s) (a_ring : A .ring = true) :
    Touches A s0 (State.modRing s f) := by
  simp (maxDischargeDepth := 60) [State.modRing, touches_ite, touches_mk, hk, a_ring]

theorem setTx_touches {s : State} (q : Fin 2) (x : RingTx) (hk : Touches A s0 s) (a_ring : A .ring = true) :
    Touches A s0 (State.setTx s q x) := by
  simp (maxDischargeDepth := 60) [State.setTx, touches_ite, touches_mk, within_dev, devArea, elim_ite, within_irq, within_pc,
      within_port, modPort_touches, hk, a_ring]

theorem sendToken_touches {s : State} (q : Fin 2) (hk : Touches A s0 s) (a_ring : A .ring = true) :
    Touches A s0 (State.sendToken s q) := by
  unfold State.sendToken
  split <;> simp (maxDischargeDepth := 60) [touches_ite, touches_mk, within_dev, devArea, elim_ite, within_irq, within_pc,
      within_port, modPort_touches, setTx_touches, hk, a_ring]

theorem sendTopo_touches {s : State} (q : Fin 2) (hk : Touches A s0 s) (a_ring : A .ring = true) :
    Touches A s0 (State.sendTopo s q) := by
  unfold State.sendTopo
  split <;> simp (maxDischargeDepth := 60) [touches_ite, touches_mk, within_dev, devArea, elim_ite, within_irq, within_pc,
      within_port, modPort_touches, setTx_touches, hk, a_ring]

theorem ringEof_touches {s : State} (q : Fin 2) (hk : Touches A s0 s) (a_ring : A .ring = true) :
    Touches A s0 (State.ringEof s q) := by
  unfold State.ringEof
  split <;> simp (maxDischargeDepth := 60) [touches_ite, touches_mk, within_dev, devArea, elim_ite, within_irq, within_pc,
      within_port, incSat_touches, modPort_touches, modRing_touches, sendToken_touches, hk, a_ring]

theorem ringTick_touches {s : State} (hk : Touches A s0 s) (a_ring : A .ring = true) :
    Touches A s0 (State.ringTick s) := by
  refine touches_forAll _ _ hk fun q z hz => ?_
  split
  · exact touches_ite _ (ringEof_touches _ hz a_ring) hz
  · exact hz

theorem flightLost_touches {s : State} (p : Fin 2) (hk : Touches A s0 s) (a_ring : A .ring = true) :
    Touches A s0 (State.flightLost s p) := by
  unfold State.flightLost
  split <;> simp (maxDischargeDepth := 60) [touches_ite, touches_mk, within_dev, devArea, elim_ite, within_irq, within_pc,
      within_port, modPort_touches, modRing_touches, hk, a_ring]

theorem ringShow_touches {s : State} (hk : Touches A s0 s) (a_ring : A .ring = true) :
    Touches A s0 (State.ringShow s) := by
  simp (maxDischargeDepth := 60) [State.ringShow, touches_ite, touches_mk, within_dev, devArea, elim_ite, within_irq,
      within_pc, within_port, wr_touches, wrBit_touches, hk, a_ring]

theorem ringFollow_touches {sn : State} (f : State → State) (hk : Touches A s0 sn) (a_ring : A .ring = true) (hf : ∀ z,
    Touches A s0 z → Touches A s0 (f z)) :
    Touches A s0 (State.ringFollow sn f) := by
  simp (maxDischargeDepth := 60) +contextual [State.ringFollow, touches_ite, touches_mk, within_dev, devArea, elim_ite,
      within_irq, within_pc, within_port, touches_forAll, flightLost_touches, modPort_touches, modRing_touches, raise_touches,
      ringShow_touches, ringTick_touches, setTx_touches, wr_touches, hk, a_ring, hf]

theorem sendLink_touches {s : State} (p : Fin 2) (agree : Bool) (hk : Touches A s0 s) (a_ring : A .ring = true) (a_clk : A
    .clk = true) (a_lanes : A .lanes = true) :
    Touches A s0 (State.sendLink s p agree) := by
  simp (maxDischargeDepth := 60) [State.sendLink, touches_ite, touches_mk, within_dev, devArea, elim_ite, within_irq,
      within_pc, within_port, within_line, within_host, within_pg, agree_touches, setTx_touches, hk, a_ring, a_clk, a_lanes]

theorem showHeld_touches {s : State} (hk : Touches A s0 s) (a_ring : A .ring = true) :
    Touches A s0 (State.showHeld s) := by
  simp (maxDischargeDepth := 60) [State.showHeld, touches_ite, touches_mk, within_dev, devArea, elim_ite, within_irq,
      within_pc, within_port, wrBit_touches, hk, a_ring]

theorem portTo_touches {s : State} (p : Fin 2) (st : Nat) (rate : Nat) (hk : Touches A s0 s) (a_ring : A .ring = true) (a_clk
    : A .clk = true) (a_lanes : A .lanes = true) :
    Touches A s0 (State.portTo s p st rate) := by
  simp (maxDischargeDepth := 60) +contextual [State.portTo, touches_ite, touches_mk, within_dev, devArea, elim_ite,
      within_irq, within_pc, within_port, within_line, within_host, within_pg, modPort_touches, ringFollow_touches,
      sendLink_touches, setTx_touches, showHeld_touches, wr_touches, hk, a_ring, a_clk, a_lanes]

theorem countPort_touches {s : State} (p : Fin 2) (sub : Nat) (hk : Touches A s0 s) (a_ring : A .ring = true) :
    Touches A s0 (State.countPort s p sub) := by
  simp (maxDischargeDepth := 60) [State.countPort, touches_ite, touches_mk, within_dev, devArea, elim_ite, within_irq,
      within_pc, within_port, incSat_touches, hk, a_ring]

theorem portAdmin_touches {s : State} (p : Fin 2) (v : Nat) (hk : Touches A s0 s) (a_ring : A .ring = true) (a_clk : A .clk =
    true) (a_lanes : A .lanes = true) :
    Touches A s0 (State.portAdmin s p v) := by
  simp (maxDischargeDepth := 60) [State.portAdmin, touches_ite, touches_mk, within_dev, devArea, elim_ite, within_irq,
      within_pc, within_port, within_line, within_host, within_pg, modPort_touches, portTo_touches, wr_touches, hk, a_ring,
      a_clk, a_lanes]

theorem linkDetect_touches {s : State} (p : Fin 2) (hk : Touches A s0 s) (a_ring : A .ring = true) (a_clk : A .clk = true)
    (a_lanes : A .lanes = true) :
    Touches A s0 (State.linkDetect s p) := by
  simp (maxDischargeDepth := 60) [State.linkDetect, touches_ite, touches_mk, within_dev, devArea, elim_ite, within_irq,
      within_pc, within_port, within_line, within_host, within_pg, modPort_touches, portTo_touches, hk, a_ring, a_clk,
      a_lanes]

theorem linkSet_touches {s : State} (p : Fin 2) (d : Nat) (hk : Touches A s0 s) (a_ring : A .ring = true) (a_clk : A .clk =
    true) (a_lanes : A .lanes = true) :
    Touches A s0 (State.linkSet s p d) := by
  unfold State.linkSet
  (repeat' split) <;> simp (maxDischargeDepth := 60) [touches_ite, touches_mk, within_dev, devArea, elim_ite, within_irq,
      within_pc, within_port, within_line, within_host, within_pg, modPort_touches, raise_touches, sendLink_touches,
      showHeld_touches, wr_touches, hk, a_ring, a_clk, a_lanes]

theorem trainTimeout_touches {s : State} (p : Fin 2) (hk : Touches A s0 s) (a_ring : A .ring = true) (a_clk : A .clk = true)
    (a_lanes : A .lanes = true) :
    Touches A s0 (State.trainTimeout s p) := by
  simp (maxDischargeDepth := 60) [State.trainTimeout, touches_ite, touches_mk, within_dev, devArea, elim_ite, within_irq,
      within_pc, within_port, within_line, within_host, within_pg, modPort_touches, portTo_touches, hk, a_ring, a_clk,
      a_lanes]

theorem verifyPass_touches {s : State} (p : Fin 2) (hk : Touches A s0 s) (a_ring : A .ring = true) (a_clk : A .clk = true)
    (a_lanes : A .lanes = true) :
    Touches A s0 (State.verifyPass s p) := by
  simp (maxDischargeDepth := 60) [State.verifyPass, touches_ite, touches_mk, within_dev, devArea, elim_ite, within_irq,
      within_pc, within_port, within_line, within_host, within_pg, modPort_touches, portTo_touches, raise_touches, hk, a_ring,
      a_clk, a_lanes]

theorem linkDown_touches {s : State} (p : Fin 2) (hk : Touches A s0 s) (a_ring : A .ring = true) (a_clk : A .clk = true)
    (a_lanes : A .lanes = true) :
    Touches A s0 (State.linkDown s p) := by
  simp (maxDischargeDepth := 60) [State.linkDown, touches_ite, touches_mk, within_dev, devArea, elim_ite, within_irq,
      within_pc, within_port, within_line, within_host, within_pg, countPort_touches, portTo_touches, raise_touches, hk,
      a_ring, a_clk, a_lanes]

theorem frameOver_touches {s : State} (p : Fin 2) (hk : Touches A s0 s) (a_ring : A .ring = true) :
    Touches A s0 (State.frameOver s p) := by
  simp (maxDischargeDepth := 60) [State.frameOver, touches_ite, touches_mk, within_dev, devArea, elim_ite, within_irq,
      within_pc, within_port, modPort_touches, hk, a_ring]

theorem codeViolation_touches {s : State} (p : Fin 2) (inFrame : Bool) (hk : Touches A s0 s) (a_ring : A .ring = true) (a_clk
    : A .clk = true) (a_lanes : A .lanes = true) :
    Touches A s0 (State.codeViolation s p inFrame) := by
  simp (maxDischargeDepth := 60) +contextual [State.codeViolation, touches_ite, touches_mk, within_dev, devArea, elim_ite,
      within_irq, within_pc, within_port, within_line, within_host, within_pg, touches_when, countPort_touches,
      incSat_touches, linkDown_touches, modPort_touches, portTo_touches, raise_touches, hk, a_ring, a_clk, a_lanes]

theorem rxcLoss_touches {s : State} (p : Fin 2) (hk : Touches A s0 s) (a_ring : A .ring = true) (a_clk : A .clk = true)
    (a_lanes : A .lanes = true) :
    Touches A s0 (State.rxcLoss s p) := by
  simp (maxDischargeDepth := 60) [State.rxcLoss, touches_ite, touches_mk, within_dev, devArea, elim_ite, within_irq,
      within_pc, within_port, within_line, within_host, within_pg, linkDown_touches, hk, a_ring, a_clk, a_lanes]

theorem rateGo_touches {s : State} (p : Fin 2) (x : Nat) (hk : Touches A s0 s) (a_ring : A .ring = true) :
    Touches A s0 (State.rateGo s p x) := by
  simp (maxDischargeDepth := 60) +contextual [State.rateGo, touches_ite, touches_mk, within_dev, devArea, elim_ite,
      within_irq, within_pc, within_port, touches_forAll, modPort_touches, modRing_touches, raise_touches, ringFollow_touches,
      setTx_touches, wr_touches, hk, a_ring]

theorem ringSend_touches {s : State} (q : Fin 2) (f : RingFrame) (hk : Touches A s0 s) (a_ring : A .ring = true) :
    Touches A s0 (State.ringSend s q f) := by
  simp (maxDischargeDepth := 60) [State.ringSend, touches_ite, touches_mk, within_dev, devArea, elim_ite, within_irq,
      within_pc, within_port, modPort_touches, modRing_touches, setTx_touches, hk, a_ring]

theorem ringTokenAt_touches {sn : State} (p : Fin 2) (hk : Touches A s0 sn) (a_ring : A .ring = true) :
    Touches A s0 (State.ringTokenAt sn p) := by
  have due : ∀ z f t, Touches A s0 z → z.eventDue = some (f, t) → Touches A s0 t := by
    intro z f t hz he
    unfold eventDue at he
    split at he
    · split at he
      · cases he; exact modRing_touches _ hz a_ring
      · cases he
    · split at he
      · cases he
      · split at he
        · cases he
        · cases he
          exact modRing_touches _ (incWrap_touches _ hz a_ring) a_ring
  have ht : Touches A s0 (sn.ringTick.frameOver p) := frameOver_touches _ (ringTick_touches hk a_ring) a_ring
  unfold ringTokenAt
  refine touches_ite _ ht (touches_ite _ (sendToken_touches _ ht a_ring) ?_)
  split
  · rename_i f t he
    refine ringSend_touches _ _ (due _ f t ht ?_) a_ring
    split at he
    · exact he
    · cases he
  · split
    · exact ringSend_touches _ _ (modRing_touches _ ht a_ring) a_ring
    · exact sendToken_touches _ ht a_ring

theorem ringSof_touches {sn : State} (p : Fin 2) (hk : Touches A s0 sn) (a_ring : A .ring = true) :
    Touches A s0 (State.ringSof sn p) := by
  simp only [State.ringSof]
  (repeat' split) <;> simp (maxDischargeDepth := 60) [touches_ite, touches_mk, within_dev, devArea, elim_ite, within_irq,
      within_pc, within_port, incSat_touches, modPort_touches, modRing_touches, raise_touches, ringTick_touches,
      setTx_touches, hk, a_ring]

theorem tokenLoss_touches {s : State} (p : Fin 2) (hk : Touches A s0 s) (a_ring : A .ring = true) :
    Touches A s0 (State.tokenLoss s p) := by
  simp (maxDischargeDepth := 60) [State.tokenLoss, touches_ite, touches_mk, within_dev, devArea, elim_ite, within_irq,
      within_pc, within_port, incSat_touches, raise_touches, hk, a_ring]

theorem topoAt_touches {s : State} (p : Fin 2) (wrapped : Bool) (hk : Touches A s0 s) (a_ring : A .ring = true) :
    Touches A s0 (State.topoAt s p wrapped) := by
  simp (maxDischargeDepth := 60) [State.topoAt, touches_ite, touches_mk, within_dev, devArea, elim_ite, within_irq, within_pc,
      within_port, setTx_touches, hk, a_ring]

theorem ringOffer_touches {s : State} (f : RingFrame) (hk : Touches A s0 s) (a_ring : A .ring = true) :
    Touches A s0 (State.ringOffer s f) := by
  simp (maxDischargeDepth := 60) [State.ringOffer, touches_ite, touches_mk, within_dev, devArea, elim_ite, within_irq,
      within_pc, within_port, modRing_touches, hk, a_ring]

theorem ringFrame_touches {sn : State} (p : Fin 2) (h : RingHead) (host : Bool) (pass : RingTx) (f : State → State) (hk :
    Touches A s0 sn) (a_ring : A .ring = true) (hf : ∀ z, Touches A s0 z → Touches A s0 (f z)) :
    Touches A s0 (State.ringFrame sn p h host pass f) := by
  simp only [State.ringFrame]
  (repeat' split) <;> simp (maxDischargeDepth := 60) [touches_ite, touches_mk, within_dev, devArea, elim_ite, within_irq,
      within_pc, within_port, frameOver_touches, incSat_touches, sendTopo_touches, setTx_touches, hk, a_ring, hf]

theorem ringCount_touches {s : State} (bytes : List Byte) (hk : Touches A s0 s) (a_ring : A .ring = true) :
    Touches A s0 (State.ringCount s bytes) := by
  have hb : ((ringBad bytes).getD K.RING_RX_FRAMES).within A = true := by
    unfold ringBad
    dsimp only
    (repeat' split) <;> exact a_ring
  unfold ringCount
  exact touches_ite _ (modRing_touches _ (incSat_touches _ hk hb) a_ring) (incSat_touches _ hk hb)

theorem ringArrival_touches {sn : State} (p : Fin 2) (bytes : List Byte) (void : Bool) (hk : Touches A s0 sn) (a_ring : A
    .ring = true) :
    Touches A s0 (State.ringArrival sn p bytes void) := by
  have h0 : Touches A s0 (sn.frameOver p) := frameOver_touches _ hk a_ring
  have hs : ∀ (b : Bool) q x, Touches A s0 (when_ b (fun s => s.incSat K.RING_ABORTED) (((sn.frameOver p).setTx q x).sendTopo
      q)) :=
    fun b q x => touches_when b _ (sendTopo_touches _ (setTx_touches _ _ h0 a_ring) a_ring) fun z hz => incSat_touches _ hz a_ring
  have hj : ∀ (c : Prop) [Decidable c] z, Touches A s0 z → Touches A s0 (if c then z else z.ringCount bytes) :=
    fun c _ z hz => touches_ite _ hz (ringCount_touches _ hz a_ring)
  unfold ringArrival
  refine touches_ite _ h0 (touches_ite _ (hj _ _ (hs _ _ _)) ?_)
  split
  · exact touches_ite _ (hs _ _ _) (incSat_touches _ (hs _ _ _) a_ring)
  · exact hj _ _ (hs _ _ _)
  · exact hj _ _ (hs _ _ _)
  · exact hs _ _ _

theorem ringReply_touches {s : State} (h : RingHead) (typ : Nat) (data : List Byte) (hk : Touches A s0 s) (a_ring : A .ring =
    true) :
    Touches A s0 (State.ringReply s h typ data) := by
  simp (maxDischargeDepth := 60) [State.ringReply, touches_ite, touches_mk, within_dev, devArea, elim_ite, within_irq,
      within_pc, within_port, ringOffer_touches, hk, a_ring]

theorem takeAddr_touches {s : State} (h : RingHead) (hops : Nat) (hk : Touches A s0 s) (a_ring : A .ring = true) :
    Touches A s0 (State.takeAddr s h hops) := by
  simp (maxDischargeDepth := 60) [State.takeAddr, touches_ite, touches_mk, within_dev, devArea, elim_ite, within_irq,
      within_pc, within_port, raise_touches, ringReply_touches, wr_touches, wrBit_touches, hk, a_ring]

theorem enumAt_touches {s : State} (p : Fin 2) (h : RingHead) (hops : Nat) (rsv : Nat) (epoch : Nat) (hk : Touches A s0 s)
    (a_ring : A .ring = true) :
    Touches A s0 (State.enumAt s p h hops rsv epoch) := by
  simp (maxDischargeDepth := 60) +contextual [State.enumAt, touches_ite, touches_mk, within_dev, devArea, elim_ite,
      within_irq, within_pc, within_port, incSat_touches, ringFrame_touches, takeAddr_touches, hk, a_ring]

theorem claimReply_touches {s : State} (h : RingHead) (result : Nat) (hk : Touches A s0 s) (a_ring : A .ring = true) :
    Touches A s0 (State.claimReply s h result) := by
  simp (maxDischargeDepth := 60) [State.claimReply, touches_ite, touches_mk, within_dev, devArea, elim_ite, within_irq,
      within_pc, within_port, ringReply_touches, hk, a_ring]

theorem groupLost_touches {s : State} (r : Fin 18) (cause : Nat) (hk : Touches A s0 s) (a_od : A .od = true) :
    Touches A s0 (State.groupLost s r cause) := by
  simp (maxDischargeDepth := 60) [State.groupLost, touches_ite, touches_mk, within_dev, devArea, elim_ite, within_irq,
      within_pc, incSat_touches, modReq_touches, record_touches, hk, a_od]

theorem adopt_touches {s : State} (epoch : Nat) (host : Nat) (hk : Touches A s0 s) (a_od : A .od = true) (a_ring : A .ring =
    true) :
    Touches A s0 (State.adopt s epoch host) := by
  simp only [State.adopt]
  (repeat' split) <;> simp (maxDischargeDepth := 60) [touches_ite, touches_mk, within_dev, devArea, elim_ite, within_irq,
      within_pc, within_port, groupLost_touches, wr_touches, hk, a_od, a_ring]

theorem claimJudge_touches {s : State} (h : RingHead) (epoch : Nat) (flags : Nat) (rsv : Nat) (hk : Touches A s0 s) (a_od : A
    .od = true) (a_ring : A .ring = true) :
    Touches A s0 (State.claimJudge s h epoch flags rsv) := by
  simp (maxDischargeDepth := 60) [State.claimJudge, touches_ite, touches_mk, within_dev, devArea, elim_ite, within_irq,
      within_pc, within_port, adopt_touches, claimReply_touches, incSat_touches, raise_touches, record_touches, wr_touches,
      wrBit_touches, hk, a_od, a_ring]

theorem rateSetAt_touches {s : State} (h : RingHead) (target : Nat) (rsv : Nat) (hk : Touches A s0 s) (a_ring : A .ring =
    true) :
    Touches A s0 (State.rateSetAt s h target rsv) := by
  simp (maxDischargeDepth := 60) [State.rateSetAt, touches_ite, touches_mk, within_dev, devArea, elim_ite, within_irq,
      within_pc, within_port, modRing_touches, ringReply_touches, hk, a_ring]

theorem resetAt_touches {s : State} (h : RingHead) (target : Nat) (kind : Nat) (rsv : Nat) (hk : Touches A s0 s) (a_ring : A
    .ring = true) :
    Touches A s0 (State.resetAt s h target kind rsv) := by
  simp (maxDischargeDepth := 60) [State.resetAt, touches_ite, touches_mk, within_dev, devArea, elim_ite, within_irq,
      within_pc, within_port, modRing_touches, ringReply_touches, hk, a_ring]

theorem eventAck_touches {s : State} (seq : Nat) (hk : Touches A s0 s) (a_ring : A .ring = true) :
    Touches A s0 (State.eventAck s seq) := by
  unfold State.eventAck
  split <;> simp (maxDischargeDepth := 60) [touches_ite, touches_mk, within_dev, devArea, elim_ite, within_irq, within_pc,
      within_port, modRing_touches, hk, a_ring]

theorem eventRetry_touches {sn : State} (hk : Touches A s0 sn) (a_ring : A .ring = true) :
    Touches A s0 (State.eventRetry sn) := by
  simp only [State.eventRetry]
  (repeat' split) <;> simp (maxDischargeDepth := 60) [touches_ite, touches_mk, within_dev, devArea, elim_ite, within_irq,
      within_pc, within_port, incSat_touches, modRing_touches, raise_touches, ringTick_touches, hk, a_ring]

theorem ringClear_touches {s : State} (hk : Touches A s0 s) (a_ring : A .ring = true) :
    Touches A s0 (State.ringClear s) := by
  simp (maxDischargeDepth := 60) [State.ringClear, touches_ite, touches_mk, within_dev, devArea, elim_ite, within_irq,
      within_pc, within_port, elim_ite, clrAll_touches, hk, a_ring]

theorem ringStart_touches {s : State} (hk : Touches A s0 s) (a_ring : A .ring = true) (a_clk : A .clk = true) (a_lanes : A
    .lanes = true) :
    Touches A s0 (State.ringStart s) := by
  simp (maxDischargeDepth := 60) +contextual [State.ringStart, touches_ite, touches_mk, within_dev, devArea, elim_ite,
      within_irq, within_pc, within_port, within_line, within_host, within_pg, touches_forAll, modRing_touches,
      portTo_touches, hk, a_ring, a_clk, a_lanes]

theorem beaconDue_touches {s : State} (hk : Touches A s0 s) (a_ring : A .ring = true) :
    Touches A s0 (State.beaconDue s) := by
  simp (maxDischargeDepth := 60) +contextual [State.beaconDue, touches_ite, touches_mk, within_dev, devArea, elim_ite,
      within_irq, within_pc, within_port, touches_forAll, ringOffer_touches, hk, a_ring]

theorem beaconFollow_touches {s : State} (p : Fin 2) (src : Nat) (dep : Nat) (corr : Nat) (stamp : Nat) (hk : Touches A s0 s)
    (a_time : A .time = true) :
    Touches A s0 (State.beaconFollow s p src dep corr stamp) := by
  simp (maxDischargeDepth := 60) [State.beaconFollow, touches_ite, touches_mk, within_dev, devArea, elim_ite, within_irq,
      within_pc, beaconSwitch_touches, incSat_touches, modTime_touches, servoMeasure_touches, wrI_touches, hk, a_time]

theorem beaconLoop_touches {s : State} (p : Fin 2) (dep : Nat) (corr : Nat) (stamp : Nat) (hk : Touches A s0 s) (a_time : A
    .time = true) :
    Touches A s0 (State.beaconLoop s p dep corr stamp) := by
  simp (maxDischargeDepth := 60) [State.beaconLoop, touches_ite, touches_mk, within_dev, devArea, elim_ite, within_irq,
      within_pc, raise_touches, wrI_touches, hk, a_time]

theorem beaconAt_touches {s : State} (p : Fin 2) (h : RingHead) (src : Nat) (dep : Nat) (corr : Nat) (j : Nat) (meas : Nat)
    (hk : Touches A s0 s) (a_ring : A .ring = true) (a_time : A .time = true) :
    Touches A s0 (State.beaconAt s p h src dep corr j meas) := by
  simp (maxDischargeDepth := 60) +contextual [State.beaconAt, touches_ite, touches_mk, within_dev, devArea, elim_ite,
      within_irq, within_pc, within_port, beaconFollow_touches, beaconLoop_touches, ringFrame_touches, hk, a_ring, a_time]

theorem effPortAdmin_touches {s : State} (p : Fin 2) (v : Nat) (hk : Touches A s0 s) (a_ring : A .ring = true) (a_clk : A .clk
    = true) (a_lanes : A .lanes = true) :
    Touches A s0 (effPortAdmin p v s) := by
  simp (maxDischargeDepth := 60) [effPortAdmin, touches_ite, touches_mk, within_dev, devArea, elim_ite, within_irq, within_pc,
      within_port, within_line, within_host, within_pg, portAdmin_touches, hk, a_ring, a_clk, a_lanes]

theorem effRingClear_touches {s : State} (v : Nat) (hk : Touches A s0 s) (a_ring : A .ring = true) :
    Touches A s0 (effRingClear v s) := by
  simp (maxDischargeDepth := 60) [effRingClear, touches_ite, touches_mk, within_dev, devArea, elim_ite, within_irq, within_pc,
      within_port, ringClear_touches, hk, a_ring]

/-! ## SelfTest -/

theorem modBist_touches {s : State} (f : BistS → BistS) (hk : Touches A s0 s) (a_bist : A .bist = true) :
    Touches A s0 (State.modBist s f) := by
  simp (maxDischargeDepth := 60) [State.modBist, touches_ite, touches_mk, hk, a_bist]

theorem bistEnd_touches {s : State} (t : BistTarget) (result : Nat) (cause : Nat) (hk : Touches A s0 s) (a_bist : A .bist =
    true) (a_lanes : A .lanes = true) :
    Touches A s0 (State.bistEnd s t result cause) := by
  unfold State.bistEnd
  (repeat' split) <;> simp (maxDischargeDepth := 60) +contextual [touches_ite, touches_mk, within_dev, devArea, elim_ite,
      within_irq, within_pc, within_line, within_host, within_pg, touches_forAll, castStart_touches, incSat_touches,
      modBist_touches, raise_touches, record_touches, wr_touches, hk, a_bist, a_lanes]

theorem bistDiscard_touches {s : State} (t : BistTarget) (hk : Touches A s0 s) (a_bist : A .bist = true) :
    Touches A s0 (State.bistDiscard s t) := by
  simp (maxDischargeDepth := 60) [State.bistDiscard, touches_ite, touches_mk, within_dev, devArea, elim_ite, within_irq,
      within_pc, addSat_touches, hk, a_bist]

theorem bistAbort_touches {s : State} (cause : Nat) (hk : Touches A s0 s) (a_bist : A .bist = true) (a_lanes : A .lanes =
    true) :
    Touches A s0 (State.bistAbort s cause) := by
  unfold State.bistAbort
  split <;> simp (maxDischargeDepth := 60) [touches_ite, touches_mk, within_dev, devArea, elim_ite, within_irq, within_pc,
      within_line, within_host, within_pg, bistDiscard_touches, bistEnd_touches, fresh_touches, wr_touches, hk, a_bist,
      a_lanes]

/-! ## OdBase -/

theorem deliver_touches {s : State} (r : Fin 18) (tag : Nat) (resp : List Byte) (hk : Touches A s0 s) (a_ring : A .ring =
    true) :
    Touches A s0 (State.deliver s r tag resp) := by
  simp (maxDischargeDepth := 60) [State.deliver, touches_ite, touches_mk, within_dev, devArea, elim_ite, within_irq,
      within_pc, within_port, modOd_touches, modReq_touches, ringOffer_touches, hk, a_ring]

theorem respond_touches {s : State} (r : Fin 18) (req : List Byte) (status : Nat) (flags : Nat) (body : List Byte) (hk :
    Touches A s0 s) (a_od : A .od = true) (a_ring : A .ring = true) :
    Touches A s0 (State.respond s r req status flags body) := by
  simp only [State.respond]
  (repeat' split) <;> simp (maxDischargeDepth := 60) [touches_ite, touches_mk, within_dev, devArea, elim_ite, within_irq,
      within_pc, within_port, deliver_touches, modReq_touches, wr_touches, hk, a_od, a_ring]

theorem answer_touches {s : State} (r : Fin 18) (req : List Byte) (v : Verdict) (hint : Nat) (hk : Touches A s0 s) (a_od : A
    .od = true) (a_ring : A .ring = true) :
    Touches A s0 (State.answer s r req v hint) := by
  unfold State.answer
  split <;> simp (maxDischargeDepth := 60) [touches_ite, touches_mk, within_dev, devArea, elim_ite, within_irq, within_pc,
      within_port, answered_touches, respond_touches, hk, a_od, a_ring]

theorem answerOk_touches {s : State} (r : Fin 18) (req : List Byte) (flags : Nat) (body : List Byte) (hk : Touches A s0 s)
    (a_od : A .od = true) (a_ring : A .ring = true) :
    Touches A s0 (State.answerOk s r req flags body) := by
  simp (maxDischargeDepth := 60) [State.answerOk, touches_ite, touches_mk, within_dev, devArea, elim_ite, within_irq,
      within_pc, within_port, answered_touches, respond_touches, hk, a_od, a_ring]

theorem answerNoCore_touches {s : State} (r : Fin 18) (req : List Byte) (hk : Touches A s0 s) (a_od : A .od = true) (a_ring :
    A .ring = true) :
    Touches A s0 (State.answerNoCore s r req) := by
  simp (maxDischargeDepth := 60) [State.answerNoCore, touches_ite, touches_mk, within_dev, devArea, elim_ite, within_irq,
      within_pc, within_port, answer_touches, fresh_touches, hk, a_od, a_ring]

theorem odCut_touches {s : State} (hk : Touches A s0 s) (a_od : A .od = true) (a_ring : A .ring = true) :
    Touches A s0 (State.odCut s) := by
  unfold State.odCut
  split <;> simp (maxDischargeDepth := 60) +contextual [touches_ite, touches_mk, within_dev, devArea, elim_ite, within_irq,
      within_pc, within_port, touches_forAll, answer_touches, answerNoCore_touches, modOd_touches, hk, a_od, a_ring]

/-! ## Optics -/

theorem modCe_touches {s : State} (f : CeS → CeS) (hk : Touches A s0 s) (a_ce : A .ce = true) :
    Touches A s0 (State.modCe s f) := by
  simp (maxDischargeDepth := 60) [State.modCe, touches_ite, touches_mk, hk, a_ce]

theorem modChain_touches {s : State} (e : Fin 64) (f : ChainS → ChainS) (hk : Touches A s0 s) (a_ce : A .ce = true) :
    Touches A s0 (State.modChain s e f) := by
  simp (maxDischargeDepth := 60) [State.modChain, touches_ite, touches_mk, within_dev, devArea, elim_ite, within_irq,
      within_pc, within_loop, within_aux, within_og, within_chain, modCe_touches, hk, a_ce]

theorem modLoop_touches {s : State} (j : Fin 64) (f : LoopS → LoopS) (hk : Touches A s0 s) (a_ce : A .ce = true) :
    Touches A s0 (State.modLoop s j f) := by
  simp (maxDischargeDepth := 60) [State.modLoop, touches_ite, touches_mk, within_dev, devArea, elim_ite, within_irq,
      within_pc, within_loop, within_aux, within_og, within_chain, modCe_touches, hk, a_ce]

theorem modAux_touches {s : State} (a : Fin 48) (f : AuxS → AuxS) (hk : Touches A s0 s) (a_ce : A .ce = true) :
    Touches A s0 (State.modAux s a f) := by
  simp (maxDischargeDepth := 60) [State.modAux, touches_ite, touches_mk, within_dev, devArea, elim_ite, within_irq, within_pc,
      within_loop, within_aux, within_og, within_chain, modCe_touches, hk, a_ce]

theorem sampleNow_touches {s : State} (hk : Touches A s0 s) (a_ce : A .ce = true) :
    Touches A s0 (State.sampleNow s) := by
  simp (maxDischargeDepth := 60) [State.sampleNow, touches_ite, touches_mk, within_dev, devArea, elim_ite, within_irq,
      within_pc, within_loop, within_aux, within_og, within_chain, modCe_touches, hk, a_ce]

theorem monLoad_touches {s : State} (head : Nat) (code : Nat) (hk : Touches A s0 s) (a_ce : A .ce = true) :
    Touches A s0 (State.monLoad s head code) := by
  simp (maxDischargeDepth := 60) [State.monLoad, touches_ite, touches_mk, within_dev, devArea, elim_ite, within_irq,
      within_pc, within_loop, within_aux, within_og, within_chain, incSat_touches, raise_touches, wr_touches, hk, a_ce]

theorem monTaken_touches {s : State} (hk : Touches A s0 s) (a_ce : A .ce = true) :
    Touches A s0 (State.monTaken s) := by
  simp (maxDischargeDepth := 60) [State.monTaken, touches_ite, touches_mk, within_dev, devArea, elim_ite, within_irq,
      within_pc, within_loop, within_aux, within_og, within_chain, wrBit_touches, hk, a_ce]

theorem monClip_touches {s : State} (e : Option Nat) (code : Nat) (hk : Touches A s0 s) (a_ce : A .ce = true) :
    Touches A s0 (State.monClip s e code) := by
  unfold State.monClip
  (repeat' split) <;> simp (maxDischargeDepth := 60) [touches_ite, touches_mk, within_dev, devArea, elim_ite, within_irq,
      within_pc, within_loop, within_aux, within_og, within_chain, incSat_touches, raise_touches, raiseIn_touches, hk, a_ce]

theorem chainOut_touches {s : State} (e : Fin 64) (y : Int) (hk : Touches A s0 s) (a_ce : A .ce = true) :
    Touches A s0 (State.chainOut s e y) := by
  simp (maxDischargeDepth := 60) [State.chainOut, touches_ite, touches_mk, within_dev, devArea, elim_ite, within_irq,
      within_pc, within_loop, within_aux, within_og, within_chain, incSat_touches, incWrap_touches, modChain_touches,
      raiseIn_touches, wr_touches, wrBit_touches, hk, a_ce]

theorem fadeDone_touches {s : State} (e : Fin 64) (hk : Touches A s0 s) (a_ce : A .ce = true) :
    Touches A s0 (State.fadeDone s e) := by
  simp (maxDischargeDepth := 60) [State.fadeDone, touches_ite, touches_mk, within_dev, devArea, elim_ite, within_irq,
      within_pc, within_loop, within_aux, within_og, within_chain, modChain_touches, raiseIn_touches, wrBit_touches, hk, a_ce]

theorem firStep_touches {s : State} (e : Fin 64) (hk : Touches A s0 s) (a_ce : A .ce = true) :
    Touches A s0 (State.firStep s e) := by
  simp only [State.firStep]
  (repeat' split) <;> simp (maxDischargeDepth := 60) [touches_ite, touches_mk, within_dev, devArea, elim_ite, within_irq,
      within_pc, within_loop, within_aux, within_og, within_chain, chainOut_touches, fadeDone_touches, modChain_touches,
      wr_touches, wrBit_touches, hk, a_ce]

theorem settleStep_touches {s : State} (e : Fin 64) (m : Nat) (hk : Touches A s0 s) (a_ce : A .ce = true) :
    Touches A s0 (State.settleStep s e m) := by
  simp (maxDischargeDepth := 60) [State.settleStep, touches_ite, touches_mk, within_dev, devArea, elim_ite, within_irq,
      within_pc, within_loop, within_aux, within_og, within_chain, chainOut_touches, modChain_touches, hk, a_ce]

theorem chainResult_touches {s : State} (e : Fin 64) (code : Nat) (hk : Touches A s0 s) (a_ce : A .ce = true) :
    Touches A s0 (State.chainResult s e code) := by
  simp (maxDischargeDepth := 60) [State.chainResult, touches_ite, touches_mk, within_dev, devArea, elim_ite, within_irq,
      within_pc, within_loop, within_aux, within_og, within_chain, firStep_touches, incSat_touches, modChain_touches,
      raiseIn_touches, settleStep_touches, wr_touches, wrBit_touches, hk, a_ce]

theorem passStart_touches {s : State} (hk : Touches A s0 s) (a_ce : A .ce = true) :
    Touches A s0 (State.passStart s) := by
  unfold passStart
  refine wrBit_touches _ _ _ (touches_forAll _ _ (modCe_touches _ (wr_touches _ _ hk a_ce) a_ce) fun e z hz => ?_) a_ce
  split
  · exact hz
  · exact touches_ite _ hz (modChain_touches _ _ hz a_ce)

theorem conversionEnd_touches {s : State} (code : Nat) (hk : Touches A s0 s) (a_ce : A .ce = true) :
    Touches A s0 (State.conversionEnd s code) := by
  unfold State.conversionEnd
  (repeat' split) <;> simp (maxDischargeDepth := 60) [touches_ite, touches_mk, within_dev, devArea, elim_ite, within_irq,
      within_pc, within_loop, within_aux, within_og, within_chain, chainResult_touches, incSat_touches, modCe_touches,
      monClip_touches, monLoad_touches, sampleNow_touches, wrBit_touches, hk, a_ce]

theorem setHeld_touches {s : State} (h : Option Nat) (hk : Touches A s0 s) (a_ce : A .ce = true) :
    Touches A s0 (State.setHeld s h) := by
  simp (maxDischargeDepth := 60) [State.setHeld, touches_ite, touches_mk, within_dev, devArea, elim_ite, within_irq,
      within_pc, within_loop, within_aux, within_og, within_chain, modCe_touches, wrBit_touches, hk, a_ce]

theorem urgentDropped_touches {s : State} (hk : Touches A s0 s) (a_ce : A .ce = true) :
    Touches A s0 (State.urgentDropped s) := by
  simp (maxDischargeDepth := 60) [State.urgentDropped, touches_ite, touches_mk, within_dev, devArea, elim_ite, within_irq,
      within_pc, within_loop, within_aux, within_og, within_chain, incSat_touches, raise_touches, hk, a_ce]

theorem urgentReq_touches {s : State} (v : Nat) (fits : Bool) (hk : Touches A s0 s) (a_ce : A .ce = true) :
    Touches A s0 (State.urgentReq s v fits) := by
  simp (maxDischargeDepth := 60) [State.urgentReq, touches_ite, touches_mk, within_dev, devArea, elim_ite, within_irq,
      within_pc, within_loop, within_aux, within_og, within_chain, incSat_touches, modCe_touches, raise_touches,
      sampleNow_touches, setHeld_touches, urgentDropped_touches, hk, a_ce]

theorem urgentEnd_touches {s : State} (code : Nat) (hk : Touches A s0 s) (a_ce : A .ce = true) :
    Touches A s0 (State.urgentEnd s code) := by
  unfold State.urgentEnd
  split <;> simp (maxDischargeDepth := 60) [touches_ite, touches_mk, within_dev, devArea, elim_ite, within_irq, within_pc,
      within_loop, within_aux, within_og, within_chain, incSat_touches, modCe_touches, monClip_touches, monLoad_touches,
      raise_touches, sampleNow_touches, setHeld_touches, hk, a_ce]

theorem monStop_touches {s : State} (hk : Touches A s0 s) (a_ce : A .ce = true) :
    Touches A s0 (State.monStop s) := by
  simp (maxDischargeDepth := 60) [State.monStop, touches_ite, touches_mk, within_dev, devArea, elim_ite, within_irq,
      within_pc, within_loop, within_aux, within_og, within_chain, modCe_touches, setHeld_touches, wrBit_touches, hk, a_ce]

theorem setMonHold_touches {s : State} (b : Bool) (hk : Touches A s0 s) (a_ce : A .ce = true) :
    Touches A s0 (State.setMonHold s b) := by
  simp (maxDischargeDepth := 60) [State.setMonHold, touches_ite, touches_mk, within_dev, devArea, elim_ite, within_irq,
      within_pc, within_loop, within_aux, within_og, within_chain, modCe_touches, wrBit_touches, hk, a_ce]

theorem monCalTrigger_touches {s : State} (hk : Touches A s0 s) (a_ce : A .ce = true) :
    Touches A s0 (State.monCalTrigger s) := by
  simp (maxDischargeDepth := 60) [State.monCalTrigger, touches_ite, touches_mk, within_dev, devArea, elim_ite, within_irq,
      within_pc, within_loop, within_aux, within_og, within_chain, modCe_touches, hk, a_ce]

theorem monCalStart_touches {s : State} (hk : Touches A s0 s) (a_ce : A .ce = true) :
    Touches A s0 (State.monCalStart s) := by
  simp (maxDischargeDepth := 60) [State.monCalStart, touches_ite, touches_mk, within_dev, devArea, elim_ite, within_irq,
      within_pc, within_loop, within_aux, within_og, within_chain, modCe_touches, setMonHold_touches, wr_touches,
      wrBit_touches, hk, a_ce]

theorem monCalFinish_touches {s : State} (result : Nat) (hk : Touches A s0 s) (a_ce : A .ce = true) :
    Touches A s0 (State.monCalFinish s result) := by
  simp (maxDischargeDepth := 60) [State.monCalFinish, touches_ite, touches_mk, within_dev, devArea, elim_ite, within_irq,
      within_pc, within_loop, within_aux, within_og, within_chain, incSat_touches, modCe_touches, raise_touches, wr_touches,
      wrBit_touches, hk, a_ce]

theorem monCalEnd_touches {s : State} (outOfRange : Bool) (hk : Touches A s0 s) (a_ce : A .ce = true) (a_bist : A .bist =
    true) :
    Touches A s0 (State.monCalEnd s outOfRange) := by
  simp (maxDischargeDepth := 60) [State.monCalEnd, touches_ite, touches_mk, within_dev, devArea, elim_ite, within_irq,
      within_pc, within_loop, within_aux, within_og, within_chain, monCalFinish_touches, raiseIn_touches, hk, a_ce, a_bist]

theorem monCalDrift_touches {s : State} (hk : Touches A s0 s) (a_ce : A .ce = true) :
    Touches A s0 (State.monCalDrift s) := by
  simp (maxDischargeDepth := 60) [State.monCalDrift, touches_ite, touches_mk, within_dev, devArea, elim_ite, within_irq,
      within_pc, within_loop, within_aux, within_og, within_chain, monCalTrigger_touches, hk, a_ce]

theorem rcSet_touches {s : State} (j : Fin 64) (i : Nat) (v : Int) (hk : Touches A s0 s) (a_ce : A .ce = true) :
    Touches A s0 (State.rcSet s j i v) := by
  simp (maxDischargeDepth := 60) [State.rcSet, touches_ite, touches_mk, within_dev, devArea, elim_ite, within_irq, within_pc,
      within_loop, within_aux, within_og, within_chain, wr_touches, hk, a_ce]

theorem rcAdvance_touches {s : State} (j : Fin 64) (hk : Touches A s0 s) (a_ce : A .ce = true) :
    Touches A s0 (State.rcAdvance s j) := by
  simp (maxDischargeDepth := 60) [State.rcAdvance, touches_ite, touches_mk, within_dev, devArea, elim_ite, within_irq,
      within_pc, within_loop, within_aux, within_og, within_chain, wr_touches, hk, a_ce]

theorem rcZero_touches {s : State} (j : Fin 64) (hk : Touches A s0 s) (a_ce : A .ce = true) :
    Touches A s0 (State.rcZero s j) := by
  simp (maxDischargeDepth := 60) [State.rcZero, touches_ite, touches_mk, within_dev, devArea, elim_ite, within_irq, within_pc,
      within_loop, within_aux, within_og, within_chain, wr_touches, hk, a_ce]

theorem rcUpdate_touches {s : State} (j : Fin 64) (e1 : Int) (hk : Touches A s0 s) (a_ce : A .ce = true) :
    Touches A s0 (State.rcUpdate s j e1) := by
  simp (maxDischargeDepth := 60) [State.rcUpdate, touches_ite, touches_mk, within_dev, devArea, elim_ite, within_irq,
      within_pc, within_loop, within_aux, within_og, within_chain, rcSet_touches, hk, a_ce]

theorem rcRms_touches {s : State} (j : Fin 64) (e1 : Int) (hk : Touches A s0 s) (a_ce : A .ce = true) :
    Touches A s0 (State.rcRms s j e1) := by
  simp (maxDischargeDepth := 60) [State.rcRms, touches_ite, touches_mk, within_dev, devArea, elim_ite, within_irq, within_pc,
      within_loop, within_aux, within_og, within_chain, modLoop_touches, raise_touches, wr_touches, hk, a_ce]

theorem setMode_touches {s : State} (j : Fin 64) (m : Nat) (hk : Touches A s0 s) (a_ce : A .ce = true) :
    Touches A s0 (State.setMode s j m) := by
  simp (maxDischargeDepth := 60) [State.setMode, touches_ite, touches_mk, within_dev, devArea, elim_ite, within_irq,
      within_pc, within_loop, within_aux, within_og, within_chain, wr_touches, wrBit_touches, wrField_touches, hk, a_ce]

theorem toSafe_touches {s : State} (j : Fin 64) (fault : Bool) (hk : Touches A s0 s) (a_ce : A .ce = true) :
    Touches A s0 (State.toSafe s j fault) := by
  simp (maxDischargeDepth := 60) +contextual [State.toSafe, touches_ite, touches_mk, within_dev, devArea, elim_ite,
      within_irq, within_pc, within_loop, within_aux, within_og, within_chain, touches_when, ceSafeTake_touches,
      modLoop_touches, raise_touches, raiseIn_touches, setMode_touches, hk, a_ce]

theorem manualStep_touches {s : State} (j : Fin 64) (hk : Touches A s0 s) (a_ce : A .ce = true) :
    Touches A s0 (State.manualStep s j) := by
  simp (maxDischargeDepth := 60) [State.manualStep, touches_ite, touches_mk, within_dev, devArea, elim_ite, within_irq,
      within_pc, within_loop, within_aux, within_og, within_chain, modLoop_touches, hk, a_ce]

theorem limitStep_touches {s : State} (j : Fin 64) (u : Nat) (hk : Touches A s0 s) (a_ce : A .ce = true) :
    Touches A s0 (State.limitStep s j u) := by
  simp (maxDischargeDepth := 60) [State.limitStep, touches_ite, touches_mk, within_dev, devArea, elim_ite, within_irq,
      within_pc, within_loop, within_aux, within_og, within_chain, modLoop_touches, raiseIn_touches, wrBit_touches, hk, a_ce]

theorem regionStep_touches {s : State} (j : Fin 64) (e1 : Option Int) (hk : Touches A s0 s) (a_ce : A .ce = true) :
    Touches A s0 (State.regionStep s j e1) := by
  unfold State.regionStep
  split <;> simp (maxDischargeDepth := 60) [touches_ite, touches_mk, within_dev, devArea, elim_ite, within_irq, within_pc,
      within_loop, within_aux, within_og, within_chain, raiseIn_touches, wr_touches, wrI_touches, hk, a_ce]

theorem autoStep_touches {s : State} (j : Fin 64) (y : Nat) (hold : Bool) (hk : Touches A s0 s) (a_ce : A .ce = true) :
    Touches A s0 (State.autoStep s j y hold) := by
  simp (maxDischargeDepth := 60) [State.autoStep, touches_ite, touches_mk, within_dev, devArea, elim_ite, within_irq,
      within_pc, within_loop, within_aux, within_og, within_chain, limitStep_touches, modLoop_touches, rcAdvance_touches,
      rcRms_touches, rcUpdate_touches, regionStep_touches, wrI_touches, hk, a_ce]

theorem staleStep_touches {s : State} (j : Fin 64) (m : Nat) (hold : Bool) (hk : Touches A s0 s) (a_ce : A .ce = true) :
    Touches A s0 (State.staleStep s j m hold) := by
  simp (maxDischargeDepth := 60) [State.staleStep, touches_ite, touches_mk, within_dev, devArea, elim_ite, within_irq,
      within_pc, within_loop, within_aux, within_og, within_chain, incSat_touches, limitStep_touches, manualStep_touches,
      modLoop_touches, raiseIn_touches, rcAdvance_touches, wrBit_touches, hk, a_ce]

theorem faultStep_touches {s : State} (j : Fin 64) (y : Nat) (hk : Touches A s0 s) (a_ce : A .ce = true) :
    Touches A s0 (State.faultStep s j y).1 := by
  simp only [State.faultStep]
  (repeat' split) <;> simp (maxDischargeDepth := 60) [touches_ite, touches_mk, within_dev, devArea, elim_ite, within_irq,
      within_pc, within_loop, within_aux, within_og, within_chain, modLoop_touches, rcAdvance_touches, toSafe_touches,
      wrBit_touches, hk, a_ce]

theorem loopExec_touches {s : State} (j : Fin 64) (fresh : Bool) (hk : Touches A s0 s) (a_ce : A .ce = true) :
    Touches A s0 (State.loopExec s j fresh) := by
  simp (maxDischargeDepth := 60) [State.loopExec, touches_ite, touches_mk, within_dev, devArea, elim_ite, within_irq,
      within_pc, within_loop, within_aux, within_og, within_chain, autoStep_touches, faultStep_touches, fresh_touches,
      incWrap_touches, limitStep_touches, manualStep_touches, modLoop_touches, rcAdvance_touches, regionStep_touches,
      staleStep_touches, wrBit_touches, hk, a_ce]

theorem loopAt_touches {s : State} (j : Fin 64) (hk : Touches A s0 s) (a_ce : A .ce = true) :
    Touches A s0 (State.loopAt s j) := by
  simp only [State.loopAt]
  (repeat' split) <;> simp (maxDischargeDepth := 60) [touches_ite, touches_mk, within_dev, devArea, elim_ite, within_irq,
      within_pc, within_loop, within_aux, within_og, within_chain, fresh_touches, loopExec_touches, manualStep_touches,
      modLoop_touches, rcAdvance_touches, hk, a_ce]

theorem ogSample_touches {s : State} (levels : Nat) (hk : Touches A s0 s) (a_ce : A .ce = true) :
    Touches A s0 (State.ogSample s levels) := by
  simp (maxDischargeDepth := 60) +contextual [State.ogSample, touches_ite, touches_mk, within_dev, devArea, elim_ite,
      within_irq, within_pc, within_loop, within_aux, within_og, within_chain, touches_forAll, raiseIn_touches, wr_touches,
      hk, a_ce]

theorem loopPassed_touches {s : State} (j : Fin 64) (hk : Touches A s0 s) (a_ce : A .ce = true) :
    Touches A s0 (State.loopPassed s j) := by
  simp (maxDischargeDepth := 60) [State.loopPassed, touches_ite, touches_mk, within_dev, devArea, elim_ite, within_irq,
      within_pc, within_loop, within_aux, within_og, within_chain, modLoop_touches, hk, a_ce]

theorem loopSnapshot_touches {s : State} (levels : Nat) (hk : Touches A s0 s) (a_ce : A .ce = true) :
    Touches A s0 (State.loopSnapshot s levels) := by
  simp (maxDischargeDepth := 60) +contextual [State.loopSnapshot, touches_ite, touches_mk, within_dev, devArea, elim_ite,
      within_irq, within_pc, within_loop, within_aux, within_og, within_chain, touches_forAll, loopAt_touches,
      loopPassed_touches, modCe_touches, ogSample_touches, hk, a_ce]

theorem loopWrite_touches {s : State} (j : Fin 64) (hk : Touches A s0 s) (a_ce : A .ce = true) :
    Touches A s0 (State.loopWrite s j) := by
  simp only [State.loopWrite]
  (repeat' split) <;> simp (maxDischargeDepth := 60) [touches_ite, touches_mk, within_dev, devArea, elim_ite, within_irq,
      within_pc, within_loop, within_aux, within_og, within_chain, modLoop_touches, wr_touches, hk, a_ce]

theorem auxStep_touches {s : State} (a : Fin 48) (hk : Touches A s0 s) (a_ce : A .ce = true) :
    Touches A s0 (State.auxStep s a) := by
  unfold State.auxStep
  (repeat' split) <;> simp (maxDischargeDepth := 60) [touches_ite, touches_mk, within_dev, devArea, elim_ite, within_irq,
      within_pc, within_loop, within_aux, within_og, within_chain, modAux_touches, wr_touches, hk, a_ce]

theorem auxPads_touches {s : State} (a : Fin 48) (compl : Bool) (short : Bool) (hk : Touches A s0 s) (a_ce : A .ce = true) :
    Touches A s0 (State.auxPads s a compl short) := by
  simp (maxDischargeDepth := 60) [State.auxPads, touches_ite, touches_mk, within_dev, devArea, elim_ite, within_irq,
      within_pc, within_loop, within_aux, within_og, within_chain, modAux_touches, raiseIn_touches, wrBit_touches, hk, a_ce]

theorem ogWrite_touches {s : State} (g : Fin 16) (hk : Touches A s0 s) (a_ce : A .ce = true) :
    Touches A s0 (State.ogWrite s g) := by
  simp (maxDischargeDepth := 60) [State.ogWrite, touches_ite, touches_mk, within_dev, devArea, elim_ite, within_irq,
      within_pc, within_loop, within_aux, within_og, within_chain, modCe_touches, hk, a_ce]

theorem tripStep_touches {s : State} (hk : Touches A s0 s) (a_ce : A .ce = true) :
    Touches A s0 (State.tripStep s) := by
  simp (maxDischargeDepth := 60) +contextual [State.tripStep, touches_ite, touches_mk, within_dev, devArea, elim_ite,
      within_irq, within_pc, within_loop, within_aux, within_og, within_chain, touches_forAll, modCe_touches, modLoop_touches,
      toSafe_touches, wrBit_touches, hk, a_ce]

theorem padRelease_touches {s : State} (hk : Touches A s0 s) (a_ce : A .ce = true) :
    Touches A s0 (State.padRelease s) := by
  simp (maxDischargeDepth := 60) +contextual [State.padRelease, touches_ite, touches_mk, within_dev, devArea, elim_ite,
      within_irq, within_pc, within_loop, within_aux, within_og, within_chain, touches_forAll, modCe_touches, raise_touches,
      setMode_touches, wrBit_touches, hk, a_ce]

theorem tripResume_touches {s : State} (hk : Touches A s0 s) (a_ce : A .ce = true) :
    Touches A s0 (State.tripResume s) := by
  simp (maxDischargeDepth := 60) +contextual [State.tripResume, touches_ite, touches_mk, within_dev, devArea, elim_ite,
      within_irq, within_pc, within_loop, within_aux, within_og, within_chain, touches_forAll, modCe_touches, modLoop_touches,
      setMode_touches, wr_touches, hk, a_ce]

theorem outputWrite_touches {sn : State} (compl : Nat) (short : Nat) (hk : Touches A s0 sn) (a_ce : A .ce = true) :
    Touches A s0 (State.outputWrite sn compl short) := by
  simp (maxDischargeDepth := 60) +contextual [State.outputWrite, touches_ite, touches_mk, within_dev, devArea, elim_ite,
      within_irq, within_pc, within_loop, within_aux, within_og, within_chain, touches_forAll, auxPads_touches,
      auxStep_touches, loopWrite_touches, modCe_touches, ogWrite_touches, padRelease_touches, tripResume_touches,
      tripStep_touches, hk, a_ce]

theorem leavePin_touches {s : State} (j : Fin 64) (hk : Touches A s0 s) (a_ce : A .ce = true) :
    Touches A s0 (State.leavePin s j) := by
  simp only [State.leavePin]
  (repeat' split) <;> simp (maxDischargeDepth := 60) [touches_ite, touches_mk, within_dev, devArea, elim_ite, within_irq,
      within_pc, within_loop, within_aux, within_og, within_chain, noteUnsaved_touches, wr_touches, hk, a_ce]

theorem modeTo_touches {s : State} (j : Fin 64) (v : Nat) (manSet : Bool) (intSet : Bool) (hk : Touches A s0 s) (a_ce : A .ce
    = true) :
    Touches A s0 (State.modeTo s j v manSet intSet) := by
  simp only [State.modeTo]
  (repeat' split) <;> simp (maxDischargeDepth := 60) [touches_ite, touches_mk, within_dev, devArea, elim_ite, within_irq,
      within_pc, within_loop, within_aux, within_og, within_chain, leavePin_touches, modLoop_touches, setMode_touches,
      wr_touches, hk, a_ce]

theorem padLatch_touches {s : State} (hk : Touches A s0 s) (a_ce : A .ce = true) :
    Touches A s0 (State.padLatch s) := by
  simp (maxDischargeDepth := 60) +contextual [State.padLatch, touches_ite, touches_mk, within_dev, devArea, elim_ite,
      within_irq, within_pc, within_loop, within_aux, within_og, within_chain, touches_forAll, wrBit_touches, hk, a_ce]

theorem ceStop_touches {s : State} (hk : Touches A s0 s) (a_ce : A .ce = true) :
    Touches A s0 (State.ceStop s) := by
  simp (maxDischargeDepth := 60) [State.ceStop, touches_ite, touches_mk, within_dev, devArea, elim_ite, within_irq, within_pc,
      within_loop, within_aux, within_og, within_chain, monStop_touches, padLatch_touches, wrBit_touches, hk, a_ce]

theorem ceHold_touches {s : State} (hk : Touches A s0 s) (a_ce : A .ce = true) :
    Touches A s0 (State.ceHold s) := by
  refine touches_forAll _ _ hk fun j z hz => ?_
  dsimp only
  split
  · exact touches_ite _ hz (setMode_touches _ _ hz a_ce)
  · exact raise_touches _ (setMode_touches _ _ (modLoop_touches _ _ (wr_touches _ _ (touches_ite _ (wr_touches _ _ hz a_ce)
      hz) a_ce) a_ce) a_ce)

theorem ceApply_touches {s : State} (grp : List Key) (k : Key) (v : Nat) (hk : Touches A s0 s) (a_ce : A .ce = true) (h_k :
    Key.within A k = true) :
    Touches A s0 (State.ceApply s grp k v) := by
  have hq : ∀ z f, Touches A s0 z → Touches A s0 (State.noteUnsaved z f) := fun z f hz => noteUnsaved_touches f hz
  unfold ceApply
  refine hq _ _ ?_
  split
  · exact modeTo_touches _ _ _ _ hk a_ce
  · exact touches_ite _ hk (wrBit_touches _ _ _ (modLoop_touches _ _ (wr_touches _ _ (rcZero_touches _ (wr_touches _ _ hk h_k)
      a_ce) a_ce) a_ce) a_ce)
  · exact touches_ite _ (rcZero_touches _ hk a_ce) hk
  · exact modLoop_touches _ _ (wr_touches _ _ hk h_k) a_ce
  · exact touches_ite _ hk (wrBit_touches _ _ _ (modChain_touches _ _ (wr_touches _ _ hk h_k) a_ce) a_ce)
  · exact touches_ite _ hk (wrBit_touches _ _ _ (modChain_touches _ _ (wr_touches _ _ hk h_k) a_ce) a_ce)
  · exact touches_ite _ hk (touches_ite _ (fadeDone_touches _ (wr_touches _ _ hk a_ce) a_ce) (modChain_touches _ _ hk a_ce))
  · refine touches_forAll _ _ hk fun i z hz => ?_
    split <;> exact wrI_touches _ _ hz a_ce
  · exact touches_ite _ hk (modAux_touches _ _ (wr_touches _ _ hk h_k) a_ce)
  · exact touches_ite _ (modCe_touches _ hk a_ce) hk
  · exact urgentReq_touches _ _ hk a_ce
  · exact touches_ite _ (monCalTrigger_touches hk a_ce) hk
  · refine touches_ite _ (clrAll_touches _ hk fun x hx => ?_) hk
    simp only [List.mem_map] at hx
    obtain ⟨i, -, rfl⟩ := hx
    simp [within_dev, devArea, a_ce]
  · exact wr_touches _ _ hk h_k

theorem ceApplySet_touches {s : State} (l : List (Key × Nat)) (hk : Touches A s0 s) (a_all : ∀ a, A a = true) :
    Touches A s0 (State.ceApplySet s l) := by
  exact touches_forAll _ _ hk fun p z hz => ceApply_touches _ _ _ hz (a_all _) (within_all a_all _)

theorem frameWrites_touches {s : State} (hk : Touches A s0 s) (a_all : ∀ a, A a = true) :
    Touches A s0 (State.frameWrites s) := by
  simp (maxDischargeDepth := 60) +contextual [State.frameWrites, touches_ite, touches_mk, within_all, touches_when,
      touches_forAll, within_all, ceApplySet_touches, modOd_touches, raise_touches, hk, a_all]

theorem frameBoundary_touches {s : State} (hk : Touches A s0 s) (a_all : ∀ a, A a = true) :
    Touches A s0 (State.frameBoundary s) := by
  simp (maxDischargeDepth := 60) [State.frameBoundary, touches_ite, touches_mk, within_all, within_all, frameWrites_touches,
      incWrap_touches, modCe_touches, passStart_touches, sampleNow_touches, setMonHold_touches, hk, a_all]

theorem ceMemError_touches {s : State} (j : Fin 64) (w : CeMem) (hk : Touches A s0 s) (a_ce : A .ce = true) :
    Touches A s0 (State.ceMemError s j w) := by
  unfold State.ceMemError
  split <;> simp (maxDischargeDepth := 60) [touches_ite, touches_mk, within_dev, devArea, elim_ite, within_irq, within_pc,
      within_loop, within_aux, within_og, within_chain, incSat_touches, pcSecded_touches, raise_touches, rcSet_touches,
      toSafe_touches, hk, a_ce]

theorem ceWrite_touches {s : State} (r : Fin 18) (k : Key) (data : List Byte) (hk : Touches A s0 s) :
    Touches A s0 (State.ceWrite s r k data) := by
  simp (maxDischargeDepth := 60) +contextual [State.ceWrite, touches_ite, touches_mk, within_dev, devArea, elim_ite,
      within_irq, within_pc, defer_touches, write_touches, hk]

theorem effMonCalCmd_touches {s : State} (v : Nat) (hk : Touches A s0 s) (a_ce : A .ce = true) :
    Touches A s0 (effMonCalCmd v s) := by
  simp (maxDischargeDepth := 60) [effMonCalCmd, touches_ite, touches_mk, within_dev, devArea, elim_ite, within_irq, within_pc,
      within_loop, within_aux, within_og, within_chain, monCalTrigger_touches, hk, a_ce]

/-! ## Boot -/

theorem modSec_touches {s : State} (f : SecS → SecS) (hk : Touches A s0 s) :
    Touches A s0 (State.modSec s f) := by
  simp (maxDischargeDepth := 60) [State.modSec, touches_ite, touches_mk, hk]

theorem readOtp_touches {s : State} (hk : Touches A s0 s) :
    Touches A s0 (State.readOtp s) := by
  simp (maxDischargeDepth := 60) [State.readOtp, touches_ite, touches_mk, within_dev, devArea, elim_ite, within_irq,
      within_pc, modSec_touches, raise_touches, record_touches, hk]

theorem deriveKeys_touches {s : State} (hk : Touches A s0 s) :
    Touches A s0 (State.deriveKeys s) := by
  simp (maxDischargeDepth := 60) [State.deriveKeys, touches_ite, touches_mk, within_dev, devArea, elim_ite, within_irq,
      within_pc, eraseKeys_touches, modSec_touches, wrBit_touches, hk]

theorem vendorEndAll_touches {s : State} (hk : Touches A s0 s) (a_sec : A .sec = true) :
    Touches A s0 (State.vendorEndAll s) := by
  simp (maxDischargeDepth := 60) [State.vendorEndAll, touches_ite, touches_mk, within_dev, devArea, elim_ite, within_irq,
      within_pc, within_slot, wr_touches, hk, a_sec]

theorem debugEnd_touches {s : State} (cause : Nat) (hk : Touches A s0 s) :
    Touches A s0 (State.debugEnd s cause) := by
  simp (maxDischargeDepth := 60) [State.debugEnd, touches_ite, touches_mk, within_dev, devArea, elim_ite, within_irq,
      within_pc, modSec_touches, record_touches, wrField_touches, hk]

theorem flashWrite_touches {s : State} (a : Nat) (f : State → State) (hk : Touches A s0 s) (hf : ∀ z, Touches A s0 z → Touches
    A s0 (f z)) :
    Touches A s0 (State.flashWrite s a f) := by
  simp (maxDischargeDepth := 60) [State.flashWrite, touches_ite, touches_mk, hk, hf]

theorem recWrite_touches {s : State} (hk : Touches A s0 s) :
    Touches A s0 (State.recWrite s) := by
  simp (maxDischargeDepth := 60) [State.recWrite, touches_ite, touches_mk, within_dev, devArea, elim_ite, within_irq,
      within_pc, modSec_touches, hk]

theorem recEnd_touches {s : State} (hk : Touches A s0 s) :
    Touches A s0 (State.recEnd s) := by
  unfold State.recEnd
  split <;> simp (maxDischargeDepth := 60) [touches_ite, touches_mk, within_dev, devArea, elim_ite, within_irq, within_pc,
      modSec_touches, hk]

theorem modSlot_touches {s : State} (x : Fin 2) (f : Slot → Slot) (hk : Touches A s0 s) :
    Touches A s0 (State.modSlot s x f) := by
  simp (maxDischargeDepth := 60) [State.modSlot, touches_ite, touches_mk, within_dev, devArea, elim_ite, within_irq,
      within_pc, modSec_touches, recWrite_touches, hk]

theorem recRead_touches {s : State} (hk : Touches A s0 s) :
    Touches A s0 (State.recRead s) := by
  unfold State.recRead
  split <;> simp (maxDischargeDepth := 60) [touches_ite, touches_mk, within_dev, devArea, elim_ite, within_irq, within_pc,
      modSec_touches, hk]

theorem fwFail_touches {s : State} (x : Fin 2) (code : Nat) (hk : Touches A s0 s) (a_sec : A .sec = true) :
    Touches A s0 (State.fwFail s x code) := by
  simp (maxDischargeDepth := 60) [State.fwFail, touches_ite, touches_mk, within_dev, devArea, elim_ite, within_irq, within_pc,
      within_slot, wr_touches, hk, a_sec]

theorem slotRefused_touches {s : State} (x : Fin 2) (code : Nat) (hk : Touches A s0 s) (a_sec : A .sec = true) :
    Touches A s0 (State.slotRefused s x code) := by
  simp (maxDischargeDepth := 60) [State.slotRefused, touches_ite, touches_mk, within_dev, devArea, elim_ite, within_irq,
      within_pc, within_slot, fwFail_touches, modSlot_touches, raise_touches, hk, a_sec]

theorem slotRecord_touches {s : State} (x : Fin 2) (what : Nat) (hk : Touches A s0 s) :
    Touches A s0 (State.slotRecord s x what) := by
  simp (maxDischargeDepth := 60) [State.slotRecord, touches_ite, touches_mk, within_dev, devArea, elim_ite, within_irq,
      within_pc, recWrite_touches, record_touches, hk]

theorem fwConfirm_touches {s : State} (hk : Touches A s0 s) :
    Touches A s0 (State.fwConfirm s) := by
  unfold State.fwConfirm
  split <;> simp (maxDischargeDepth := 60) [touches_ite, touches_mk, within_dev, devArea, elim_ite, within_irq, within_pc,
      modSec_touches, modSlot_touches, slotRecord_touches, hk]

theorem trialFail_touches {s : State} (hk : Touches A s0 s) (a_sec : A .sec = true) :
    Touches A s0 (State.trialFail s) := by
  unfold State.trialFail
  (repeat' split) <;> simp (maxDischargeDepth := 60) [touches_ite, touches_mk, within_dev, devArea, elim_ite, within_irq,
      within_pc, within_slot, fwFail_touches, modSec_touches, modSlot_touches, raise_touches, slotRecord_touches, hk, a_sec]

theorem loadKeys_touches {s : State} (p : Key → Bool) (hk : Touches A s0 s) (a_all : ∀ a, A a = true) :
    Touches A s0 (State.loadKeys s p) := by
  unfold loadKeys
  generalize s.savedStore.filter (fun e => p e.1 && persOf e.1 == .flash) = l
  have h1 : Touches A s0 (l.foldl (fun s e => s.wr e.1 e.2) s) := by
    induction l generalizing s with
    | nil => exact hk
    | cons e l ih => exact ih (wr_touches _ _ hk (within_all a_all _))
  exact touches_forAll _ _ h1 fun g z hz => touches_ite _ (summaryRise_touches _ hz) hz

theorem noteDefaults_touches {s : State} (hk : Touches A s0 s) :
    Touches A s0 (State.noteDefaults s) := by
  simp (maxDischargeDepth := 60) [State.noteDefaults, touches_ite, touches_mk, within_dev, devArea, elim_ite, within_irq,
      within_pc, record_touches, hk]

theorem loadedLane_touches {s : State} (cold : Bool) (n : Fin 16) (hk : Touches A s0 s) (a_lanes : A .lanes = true) :
    Touches A s0 (State.loadedLane s cold n) := by
  unfold loadedLane
  dsimp only
  have h1 : ∀ f, Touches A s0 (s.modLane n f) := fun f => modLane_touches _ _ hk a_lanes
  have h2 : ∀ (z : State) (c : Prop) [Decidable c], Touches A s0 z → Touches A s0 (if c then z.setCoef n (z.coldCoef n) else
      (z.setCoef n (z.coldCoef n)).snapshot n) :=
    fun z c _ hz => touches_ite _ (setCoef_touches _ _ hz a_lanes) (snapshot_touches _ (setCoef_touches _ _ hz a_lanes) a_lanes)
  have h3 : ∀ (z : State) (c : Prop) [Decidable c] t, Touches A s0 z → Touches A s0 (if c then z else z.setTxTaps n t) :=
    fun z c _ t hz => touches_ite _ hz (setTxTaps_touches _ _ hz a_lanes)
  have h4 : ∀ (z : State) (c : Prop) [Decidable c], Touches A s0 z → Touches A s0 (if c then effLosThr n 0 z else z) :=
    fun z c _ hz => touches_ite _ (effLosThr_touches _ _ hz a_lanes) hz
  refine touches_forAll _ _ (h4 _ _ (h3 _ _ _ (touches_ite _ (h1 _) (h2 _ _ (h1 _))))) fun m z hz => ?_
  have hm := hostTapsSet_touches m (modHost_touches m (fun h => { h with ampNow := z.rd (K.HOST_TX_AMP m) }) hz a_lanes) a_lanes
  exact touches_ite _ (effHostLosThr_touches _ _ hm a_lanes) hm

theorem loadedOptics_touches {s : State} (hk : Touches A s0 s) (a_ce : A .ce = true) :
    Touches A s0 (State.loadedOptics s) := by
  unfold loadedOptics
  have h1 := touches_forAll (allFin 48) (fun a s => if s.rd (K.AUX_MODE a) = (s.ce.auxs.get a).mode then s else s.modAux a fun
      x => { x with step := 2 }) hk
    fun a z hz => touches_ite _ hz (modAux_touches _ _ hz a_ce)
  refine touches_forAll _ _ h1 fun j z hz => touches_ite _ hz (setMode_touches _ _ (modLoop_touches _ _ ?_ a_ce) a_ce)
  split
  · exact wr_touches _ _ hz a_ce
  · exact hz

theorem loadedRoot_touches {sn : State} (rootOk : Bool) (hk : Touches A s0 sn) (a_time : A .time = true) (a_clk : A .clk =
    true) :
    Touches A s0 (State.loadedRoot sn rootOk) := by
  simp (maxDischargeDepth := 60) [State.loadedRoot, touches_ite, touches_mk, within_dev, devArea, elim_ite, within_irq,
      within_pc, rootSelect_touches, wr_touches, hk, a_time, a_clk]

theorem outsReleased_touches {s : State} (hk : Touches A s0 s) (a_lanes : A .lanes = true) :
    Touches A s0 (State.outsReleased s) := by
  simp (maxDischargeDepth := 60) +contextual [State.outsReleased, touches_ite, touches_mk, within_dev, devArea, elim_ite,
      within_irq, within_pc, within_line, within_host, within_pg, touches_forAll, outRelease_touches, hk, a_lanes]

theorem lanesHeld_touches {s : State} (hk : Touches A s0 s) (a_lanes : A .lanes = true) :
    Touches A s0 (State.lanesHeld s) := by
  simp (maxDischargeDepth := 60) +contextual [State.lanesHeld, touches_ite, touches_mk, within_dev, devArea, elim_ite,
      within_irq, within_pc, within_line, within_host, within_pg, touches_forAll, wr_touches, hk, a_lanes]

theorem loadedAdmin_touches {s : State} (hk : Touches A s0 s) (a_clk : A .clk = true) (a_lanes : A .lanes = true) :
    Touches A s0 (State.loadedAdmin s) := by
  simp (maxDischargeDepth := 60) +contextual [State.loadedAdmin, touches_ite, touches_mk, within_dev, devArea, elim_ite,
      within_irq, within_pc, within_line, within_host, within_pg, touches_forAll, castStart_touches, laneCameUp_touches,
      lanesHeld_touches, outageCheck_touches, outsReleased_touches, picotFollow_touches, hk, a_clk, a_lanes]

theorem outageUncounted_touches {s : State} (hk : Touches A s0 s) (a_clk : A .clk = true) :
    Touches A s0 (State.outageUncounted s) := by
  simp (maxDischargeDepth := 60) [State.outageUncounted, touches_ite, touches_mk, within_dev, devArea, elim_ite, within_irq,
      within_pc, modClk_touches, hk, a_clk]

theorem loadConfig_touches {s : State} (rootOk : Bool) (hk : Touches A s0 s) (a_all : ∀ a, A a = true) :
    Touches A s0 (State.loadConfig s rootOk) := by
  simp (maxDischargeDepth := 60) +contextual [State.loadConfig, touches_ite, touches_mk, within_all, touches_forAll,
      within_all, effPortAdmin_touches, loadKeys_touches, loadedAdmin_touches, loadedLane_touches, loadedOptics_touches,
      loadedRoot_touches, modClk_touches, modPwr_touches, modTime_touches, noteDefaults_touches, outageUncounted_touches, hk,
      a_all]

theorem bootStart_touches {s : State} (hk : Touches A s0 s) (a_od : A .od = true) (a_bist : A .bist = true) (a_lanes : A
    .lanes = true) :
    Touches A s0 (State.bootStart s) := by
  simp (maxDischargeDepth := 60) [State.bootStart, touches_ite, touches_mk, within_dev, devArea, elim_ite, within_irq,
      within_pc, within_line, within_host, within_pg, bistAbort_touches, modSec_touches, wr_touches, hk, a_od, a_bist,
      a_lanes]

theorem recover_touches {s : State} (hk : Touches A s0 s) (a_od : A .od = true) (a_clk : A .clk = true) (a_lanes : A .lanes =
    true) :
    Touches A s0 (State.recover s) := by
  simp (maxDischargeDepth := 60) +contextual [State.recover, touches_ite, touches_mk, within_dev, devArea, elim_ite,
      within_irq, within_pc, within_line, within_host, within_pg, touches_forAll, modPwr_touches, modSec_touches,
      outageCheck_touches, outageUncounted_touches, outsReleased_touches, picotFollow_touches, wr_touches, hk, a_od, a_clk,
      a_lanes]

theorem loadSkein_touches {s : State} (img : List Byte) (hk : Touches A s0 s) :
    Touches A s0 (State.loadSkein s img) := by
  simp (maxDischargeDepth := 60) [State.loadSkein, touches_ite, touches_mk, within_dev, devArea, elim_ite, within_irq,
      within_pc, modSec_touches, hk]

theorem coreRan_touches {s : State} (hk : Touches A s0 s) :
    Touches A s0 (State.coreRan s) := by
  unfold State.coreRan
  split <;> simp (maxDischargeDepth := 60) [touches_ite, touches_mk, within_dev, devArea, elim_ite, within_irq, within_pc,
      modSec_touches, hk]

theorem guardedWrite_touches {s : State} (pc : Nat) (f : State → State) (hk : Touches A s0 s) (hf : ∀ z, Touches A s0 z →
    Touches A s0 (f z)) :
    Touches A s0 (State.guardedWrite s pc f) := by
  simp (maxDischargeDepth := 60) [State.guardedWrite, touches_ite, touches_mk, hk, hf]

theorem coreReady_touches {s : State} (x : Fin 2) (rootOk : Bool) (hk : Touches A s0 s) (a_all : ∀ a, A a = true) :
    Touches A s0 (State.coreReady s x rootOk) := by
  have hw : ∀ k, Key.within A k = true := within_all a_all
  unfold coreReady
  extract_lets s1 s2 s3 owed s4 s5 s6 s7
  have h1 : Touches A s0 s1 := touches_ite _ (loadConfig_touches _ hk a_all) hk
  have h2 : Touches A s0 s2 := modPwr_touches _ (modSec_touches _ (loadSkein_touches _ (wr_touches _ _ h1 (hw _))))
  clear_value s2
  have h3 : Touches A s0 s3 := raise_touches _ (incSat_touches _ h2 (hw _))
  have h4 : Touches A s0 s4 :=
    touches_when _ _ (touches_when _ _ h3 fun z hz => raise_touches _ hz) fun z hz => raise_touches _ hz
  clear_value s4
  have h5 : Touches A s0 s5 := touches_ite _ (modSec_touches _ (raise_touches _ h4)) h4
  have h6 : Touches A s0 s6 := touches_ite _ (wrBit_touches _ _ _ h5 (hw _)) h5
  have h7 : Touches A s0 s7 := plFollow_touches (modMgmt_touches _ h6)
  exact touches_ite _ (fwConfirm_touches h7) h7

theorem bootRefused_touches {s : State} (x : Fin 2) (code : Nat) (hk : Touches A s0 s) (a_sec : A .sec = true) :
    Touches A s0 (State.bootRefused s x code) := by
  simp (maxDischargeDepth := 60) [State.bootRefused, touches_ite, touches_mk, within_dev, devArea, elim_ite, within_irq,
      within_pc, within_slot, modSec_touches, slotRefused_touches, hk, a_sec]

theorem bootOther_touches {s : State} (x : Fin 2) (y : Fin 2) (rootOk : Bool) (hk : Touches A s0 s) (a_all : ∀ a, A a = true) :
    Touches A s0 (State.bootOther s x y rootOk) := by
  simp (maxDischargeDepth := 60) [State.bootOther, touches_ite, touches_mk, within_all, within_all, coreReady_touches,
      modSec_touches, modSlot_touches, raise_touches, slotRecord_touches, hk, a_all]

theorem boot_touches {s : State} (flash : Bool) (rootOk : Bool) (hk : Touches A s0 s) (a_all : ∀ a, A a = true) :
    Touches A s0 (State.boot s flash rootOk) := by
  simp only [State.boot]
  (repeat' split) <;> simp (maxDischargeDepth := 60) [touches_ite, touches_mk, within_all, within_all, bootOther_touches,
      bootRefused_touches, coreReady_touches, fwFail_touches, modSlot_touches, raise_touches, recover_touches, hk, a_all]

theorem resetNoted_touches {s : State} (bit : Nat) (lanes : Nat) (hk : Touches A s0 s) (a_pwr : A .pwr = true) :
    Touches A s0 (State.resetNoted s bit lanes) := by
  simp (maxDischargeDepth := 60) [State.resetNoted, touches_ite, touches_mk, within_dev, devArea, elim_ite, within_irq,
      within_pc, within_pwr, record_touches, wrBit_touches, hk, a_pwr]

theorem coreReset_touches {s : State} (why : CoreWhy) (hk : Touches A s0 s) (a_od : A .od = true) (a_ring : A .ring = true)
    (a_pwr : A .pwr = true) (a_mgmt : A .mgmt = true) :
    Touches A s0 (State.coreReset s why) := by
  have h1 : Touches A s0 (forAll (allFin 18) (fun r s => s.groupLost r 2) s.odCut) :=
    touches_forAll _ _ (odCut_touches hk a_od a_ring) fun r z hz => groupLost_touches _ _ hz a_od
  have h3 : ∀ k n, Key.within A k = true →
      Touches A s0 (((((forAll (allFin 18) (fun r s => s.groupLost r 2) s.odCut).restartMaster 18).pcReset).incSat k).resetNoted n 0) :=
    fun k n hw => resetNoted_touches _ _ (incSat_touches _ (pcReset_touches (restartMaster_touches _ h1 a_mgmt) a_mgmt) hw) a_pwr
  have hw : ∀ b : Bool, Key.within A (if b then K.MGMT_WDT_RESETS else K.MGMT_MRST_COUNT) = true := fun b => by cases b <;>
      exact a_mgmt
  unfold coreReset
  refine modSec_touches _ (wr_touches _ _ (wr_touches _ _ (wr_touches _ _ (modMgmt_touches _ ?_) a_mgmt) a_od) a_od)
  cases why
  case command => exact record_touches _ _ _ (h3 _ _ (hw _))
  case watchdog => exact record_touches _ _ _ (h3 _ _ (hw _))
  case sram => exact record_touches _ _ _ (h3 _ _ (hw _))
  all_goals exact h3 _ _ (hw _)

/-! ## Reset -/

theorem laneVolatile_touches {s : State} (n : Fin 16) (hk : Touches A s0 s) (a_lanes : A .lanes = true) :
    Touches A s0 (State.laneVolatile s n) := by
  refine resetEntries_touches _ hk fun x hx => ?_
  obtain ⟨b, o, y⟩ := x
  cases b <;> simp_all [within_line, within_host]

theorem laneResetAt_touches {s : State} (n : Fin 16) (hk : Touches A s0 s) (a_ring : A .ring = true) (a_clk : A .clk = true)
    (a_lanes : A .lanes = true) :
    Touches A s0 (State.laneResetAt s n) := by
  simp (maxDischargeDepth := 60) [State.laneResetAt, touches_ite, touches_mk, within_dev, devArea, elim_ite, within_irq,
      within_pc, within_port, within_line, within_host, within_pg, calAbort_touches, coDrop_touches, fillShow_touches,
      formatLaneReset_touches, hostLaneReset_touches, laneVolatile_touches, modCo_touches, modLane_touches, outFollow_touches,
      picotLaneReset_touches, prbsOff_touches, rxLaneReset_touches, setFail_touches, ssFollow_touches, timeLaneReset_touches,
      txLaneReset_touches, wr_touches, hk, a_ring, a_clk, a_lanes]

theorem laneResetTick_touches {s : State} (hk : Touches A s0 s) (a_lanes : A .lanes = true) :
    Touches A s0 (State.laneResetTick s) := by
  simp (maxDischargeDepth := 60) +contextual [State.laneResetTick, touches_ite, touches_mk, within_dev, devArea, elim_ite,
      within_irq, within_pc, within_line, within_host, within_pg, touches_forAll, castStart_touches, modLane_touches,
      outFollow_touches, picotFollow_touches, hk, a_lanes]

theorem testCut_touches {s : State} (n : Fin 16) (cause : Nat) (hk : Touches A s0 s) (a_bist : A .bist = true) (a_lanes : A
    .lanes = true) :
    Touches A s0 (State.testCut s n cause) := by
  simp (maxDischargeDepth := 60) [State.testCut, touches_ite, touches_mk, within_dev, devArea, elim_ite, within_irq,
      within_pc, within_line, within_host, within_pg, bistAbort_touches, hk, a_bist, a_lanes]

theorem lanesReset_touches {s : State} (mask : Nat) (hk : Touches A s0 s) (a_ring : A .ring = true) (a_clk : A .clk = true)
    (a_pwr : A .pwr = true) (a_bist : A .bist = true) (a_lanes : A .lanes = true) :
    Touches A s0 (State.lanesReset s mask) := by
  simp (maxDischargeDepth := 60) +contextual [State.lanesReset, touches_ite, touches_mk, within_dev, devArea, elim_ite,
      within_irq, within_pc, within_port, within_pwr, within_line, within_host, within_pg, touches_forAll,
      laneResetAt_touches, resetNoted_touches, testCut_touches, hk, a_ring, a_clk, a_pwr, a_bist, a_lanes]

theorem phasesLost_touches {s : State} (hk : Touches A s0 s) :
    Touches A s0 (State.phasesLost s) := by
  simp (maxDischargeDepth := 60) +contextual [State.phasesLost, touches_ite, touches_mk, within_dev, devArea, elim_ite,
      within_irq, within_pc, touches_forAll, phaseRecord_touches, hk]

theorem holdTrip_touches {s : State} (hk : Touches A s0 s) (a_pwr : A .pwr = true) :
    Touches A s0 (State.holdTrip s) := by
  simp (maxDischargeDepth := 60) +contextual [State.holdTrip, touches_ite, touches_mk, within_dev, devArea, elim_ite,
      within_irq, within_pc, within_pwr, touches_forAll, wr_touches, hk, a_pwr]

theorem fresh__touches {s : State} (keep : Key → Bool) (hk : Touches A s0 s) (a_all : ∀ a, A a = true) :
    Touches A s0 (State.fresh_ s keep) := by
  have no : ∀ {a}, A a = false → False := fun {a} h => by
    rw [a_all] at h
    cases h
  have nk : ∀ k, Key.within A k = false → False := fun k h => by
    rw [within_all a_all] at h
    cases h
  exact hk.trans ⟨rfl, rfl, fun h => Store.wf_filter _ h, fun k h => (nk k h).elim, fun h => (no h).elim, fun h => (no h).elim,
    fun h => (no h).elim, fun h => (no h).elim, fun h => (no h).elim, fun h => (no h).elim⟩

theorem slotsCut_touches {s : State} (hk : Touches A s0 s) :
    Touches A s0 (State.slotsCut s) := by
  simp (maxDischargeDepth := 60) +contextual [State.slotsCut, touches_ite, touches_mk, within_dev, devArea, elim_ite,
      within_irq, within_pc, touches_forAll, modSlot_touches, hk]

theorem rootShown_touches {s : State} (hk : Touches A s0 s) (a_clk : A .clk = true) :
    Touches A s0 (State.rootShown s) := by
  simp (maxDischargeDepth := 60) [State.rootShown, touches_ite, touches_mk, within_dev, devArea, elim_ite, within_irq,
      within_pc, wrBit_touches, hk, a_clk]

theorem porAssert_touches {s : State} (why : PorWhy) (hk : Touches A s0 s) (a_all : ∀ a, A a = true) :
    Touches A s0 (State.porAssert s why) := by
  unfold State.porAssert
  split <;> simp (maxDischargeDepth := 60) [touches_ite, touches_mk, within_all, within_all, fresh__touches, modPwr_touches,
      wr_touches, wrBit_touches, hk, a_all]

theorem latchStraps_touches {s : State} (straps : BitVec 3) (hk : Touches A s0 s) :
    Touches A s0 (State.latchStraps s straps) := by
  simp (maxDischargeDepth := 60) [State.latchStraps, touches_ite, touches_mk, within_dev, devArea, elim_ite, within_irq,
      within_pc, modPwr_touches, hk]

theorem porRelease_touches {sn : State} (straps : BitVec 3) (hk : Touches A s0 sn) (a_all : ∀ a, A a = true) :
    Touches A s0 (State.porRelease sn straps) := by
  have hw : ∀ k, Key.within A k = true := within_all a_all
  have h1 : ∀ f, Touches A s0 ((((sn.latchStraps straps).rootShown).wr K.CLK_REF_SRC (if (sn.latchStraps straps).pwr.strapRef
      then 1 else 0)).modPwr f) :=
    fun f => modPwr_touches _ (wr_touches _ _ (rootShown_touches (latchStraps_touches _ hk) (a_all _)) (hw _))
  exact slotsCut_touches (recRead_touches (readOtp_touches (modSec_touches _ (touches_mk (h1 _) _ _ _ _ _ _ _ _ _ _ _ _ _
    (.inr rfl) (.inr rfl) (.inr ⟨rfl, rfl, rfl⟩) (.inr rfl) (.inr rfl) (.inr rfl)))))

theorem resetNAssert_touches {s : State} (hk : Touches A s0 s) (a_all : ∀ a, A a = true) :
    Touches A s0 (State.resetNAssert s) := by
  have no : ∀ {a}, A a = false → False := fun {a} h => by
    rw [a_all] at h
    cases h
  have hw : ∀ k, Key.within A k = true := within_all a_all
  have hr : ∀ {z}, Touches A s0 z → ∀ (t : State), t.pending = z.pending → t.now = z.now → t.store = z.store → Touches A s0 t :=
    fun {z} hz t e1 e2 e3 => hz.trans ⟨e1, e2, fun h => (by simpa [storeOk, e3] using h), fun k h => (by simp [hw] at h),
      fun h => (no h).elim, fun h => (no h).elim, fun h => (no h).elim, fun h => (no h).elim, fun h => (no h).elim, fun h => (no h).elim⟩
  unfold resetNAssert
  extract_lets x y
  have hx : Touches A s0 x := phasesLost_touches (resetNoted_touches _ _ (debugEnd_touches _ (touches_ite _
      (outageStart_touches _ hk (a_all _)) hk)) (a_all _))
  clear_value x
  have hy : Touches A s0 y := wr_touches K.OD_CORE_STATE 1 (fresh__touches _ hx a_all) (hw _)
  clear_value y
  refine wr_touches _ _ (rootShown_touches (holdTrip_touches (slotsCut_touches (wrField_touches _ _ _ _ ?_ (hw _))) (a_all _))
      (a_all _)) (hw _)
  exact hr hy _ rfl rfl rfl

theorem loadUnits_touches {s : State} (hk : Touches A s0 s) (a_all : ∀ a, A a = true) :
    Touches A s0 (State.loadUnits s) := by
  simp (maxDischargeDepth := 60) +contextual [State.loadUnits, touches_ite, touches_mk, within_all, touches_forAll,
      within_all, loadKeys_touches, loadedAdmin_touches, loadedLane_touches, loadedOptics_touches, modTime_touches,
      noteDefaults_touches, hk, a_all]

theorem ringDeviceReset_touches {s : State} (hk : Touches A s0 s) (a_all : ∀ a, A a = true) :
    Touches A s0 (State.ringDeviceReset s) := by
  have no : ∀ {a}, A a = false → False := fun {a} h => by
    rw [a_all] at h
    cases h
  have hw : ∀ k, Key.within A k = true := within_all a_all
  have hr : ∀ {z}, Touches A s0 z → ∀ (t : State), t.pending = z.pending → t.now = z.now → t.store = z.store → Touches A s0 t :=
    fun {z} hz t e1 e2 e3 => hz.trans ⟨e1, e2, fun h => (by simpa [storeOk, e3] using h), fun k h => (by simp [hw] at h),
      fun h => (no h).elim, fun h => (no h).elim, fun h => (no h).elim, fun h => (no h).elim, fun h => (no h).elim, fun h => (no h).elim⟩
  unfold ringDeviceReset
  extract_lets w x y
  have hq : Touches A s0 w := touches_forAll _ _ hk fun n z hz => touches_ite _ (rclkoLaneLost_touches _ hz (a_all _)) hz
  clear_value w
  have hx : Touches A s0 x := phasesLost_touches (resetNoted_touches _ _ (debugEnd_touches _ (touches_ite _
      (outageStart_touches _ hq (a_all _)) hq)) (a_all _))
  clear_value x
  have hy : Touches A s0 y := wr_touches K.OD_CORE_STATE 1 (fresh__touches ringKeeps (padLatch_touches hx (a_all _)) a_all)
      (hw _)
  clear_value y
  refine bootStart_touches (ceHold_touches (loadUnits_touches (holdTrip_touches (slotsCut_touches (wrBit_touches _ _ _
    (wrBit_touches _ _ _ (wrField_touches _ _ _ _ ?_ (hw _)) (hw _)) (hw _))) (a_all _)) a_all) (a_all _)) (a_all _) (a_all _) (a_all _)
  exact hr hy _ rfl rfl rfl

theorem synthLock_touches {s : State} (dist : List (Fin 16 × Nat)) (hk : Touches A s0 s) (a_od : A .od = true) (a_ring : A
    .ring = true) (a_time : A .time = true) (a_clk : A .clk = true) (a_ce : A .ce = true) (a_bist : A .bist = true) (a_lanes :
    A .lanes = true) :
    Touches A s0 (State.synthLock s dist) := by
  simp (maxDischargeDepth := 60) +contextual [State.synthLock, touches_ite, touches_mk, within_dev, devArea, elim_ite,
      within_irq, within_pc, within_port, within_loop, within_aux, within_og, within_chain, within_line, within_host,
      within_pg, touches_forAll, bootStart_touches, deriveKeys_touches, gbUp_touches, modClk_touches, modPwr_touches,
      queueFound_touches, ringStart_touches, timeStart_touches, wrBit_touches, hk, a_od, a_ring, a_time, a_clk, a_ce, a_bist,
      a_lanes]

theorem synthLost_touches {s : State} (hsyn : Bool) (hk : Touches A s0 s) (a_clk : A .clk = true) (a_lanes : A .lanes = true) :
    Touches A s0 (State.synthLost s hsyn) := by
  simp (maxDischargeDepth := 60) +contextual [State.synthLost, touches_ite, touches_mk, within_dev, devArea, elim_ite,
      within_irq, within_pc, within_line, within_host, within_pg, touches_forAll, gbLose_touches, wrBit_touches, hk, a_clk,
      a_lanes]

theorem railFaultAt_touches {s : State} (rail : Nat) (kind : Nat) (hk : Touches A s0 s) (a_pwr : A .pwr = true) :
    Touches A s0 (State.railFaultAt s rail kind) := by
  simp (maxDischargeDepth := 60) [State.railFaultAt, touches_ite, touches_mk, within_dev, devArea, elim_ite, within_irq,
      within_pc, within_pwr, incSat_touches, modPwr_touches, raise_touches, record_touches, wr_touches, hk, a_pwr]

theorem railFaultPor_touches {s : State} (hk : Touches A s0 s) (a_all : ∀ a, A a = true) :
    Touches A s0 (State.railFaultPor s) := by
  unfold State.railFaultPor
  split <;> simp (maxDischargeDepth := 60) [touches_ite, touches_mk, within_all, within_all, modPwr_touches,
      porAssert_touches, hk, a_all]

theorem faultRestart_touches {s : State} (straps : BitVec 3) (hk : Touches A s0 s) (a_all : ∀ a, A a = true) :
    Touches A s0 (State.faultRestart s straps) := by
  simp (maxDischargeDepth := 60) [State.faultRestart, touches_ite, touches_mk, within_all, within_all, modPwr_touches,
      porRelease_touches, hk, a_all]

theorem vinLoss_touches {s : State} (deep : Bool) (hk : Touches A s0 s) (a_all : ∀ a, A a = true) :
    Touches A s0 (State.vinLoss s deep) := by
  simp (maxDischargeDepth := 60) [State.vinLoss, touches_ite, touches_mk, within_all, within_all, modPwr_touches,
      porAssert_touches, hk, a_all]

theorem sramError_touches {s : State} (corrected : Bool) (addr : Nat) (hk : Touches A s0 s) (a_mgmt : A .mgmt = true) :
    Touches A s0 (State.sramError s corrected addr) := by
  simp (maxDischargeDepth := 60) [State.sramError, touches_ite, touches_mk, within_dev, devArea, elim_ite, within_irq,
      within_pc, within_mb, within_pc, incSat_touches, modMgmt_touches, pcSecded_touches, raise_touches, hk, a_mgmt]

theorem watchdogReset_touches {s : State} (hk : Touches A s0 s) (a_od : A .od = true) (a_ring : A .ring = true) (a_pwr : A
    .pwr = true) (a_mgmt : A .mgmt = true) (a_sec : A .sec = true) (a_bist : A .bist = true) (a_lanes : A .lanes = true) :
    Touches A s0 (State.watchdogReset s) := by
  simp (maxDischargeDepth := 60) [State.watchdogReset, touches_ite, touches_mk, within_dev, devArea, elim_ite, within_irq,
      within_pc, within_port, within_pwr, within_mb, within_pc, within_slot, within_line, within_host, within_pg,
      bootStart_touches, coreReset_touches, trialFail_touches, hk, a_od, a_ring, a_pwr, a_mgmt, a_sec, a_bist, a_lanes]

theorem mrst_touches {s : State} (hk : Touches A s0 s) (a_od : A .od = true) (a_ring : A .ring = true) (a_pwr : A .pwr = true)
    (a_mgmt : A .mgmt = true) (a_sec : A .sec = true) (a_bist : A .bist = true) (a_lanes : A .lanes = true) :
    Touches A s0 (State.mrst s) := by
  simp (maxDischargeDepth := 60) [State.mrst, touches_ite, touches_mk, within_dev, devArea, elim_ite, within_irq, within_pc,
      within_port, within_pwr, within_mb, within_pc, within_slot, within_line, within_host, within_pg, bootStart_touches,
      coreReset_touches, trialFail_touches, hk, a_od, a_ring, a_pwr, a_mgmt, a_sec, a_bist, a_lanes]

theorem effRstLane_touches {s : State} (v : Nat) (hk : Touches A s0 s) (a_ring : A .ring = true) (a_clk : A .clk = true)
    (a_pwr : A .pwr = true) (a_bist : A .bist = true) (a_lanes : A .lanes = true) :
    Touches A s0 (effRstLane v s) := by
  simp (maxDischargeDepth := 60) [effRstLane, touches_ite, touches_mk, within_dev, devArea, elim_ite, within_irq, within_pc,
      within_port, within_pwr, within_line, within_host, within_pg, lanesReset_touches, hk, a_ring, a_clk, a_pwr, a_bist,
      a_lanes]

end State

end Sys2Proof.Machine
end

