-- ==== Sys2Proof/Laws/TouchDevice.lean ====
section
/-!
SUPPORT. What the operations of power, security, self-test and the dictionary touch.
-/

set_option linter.unusedSimpArgs false
set_option linter.unusedVariables false

namespace Sys2Proof.Machine

variable {A : Area → Bool} {s0 s : State}

namespace State

/-! ## Thermal -/

theorem setBroken_touches {s : State} (i : Fin 24) (n : Nat) (hk : Touches A s0 s) :
    Touches A s0 (State.setBroken s i n) := by
  simp (maxDischargeDepth := 60) [State.setBroken, touches_ite, touches_mk, within_dev, devArea, elim_ite, within_irq,
      within_pc, modPwr_touches, hk]

theorem tempReading_touches {s : State} (i : Fin 24) (v : Nat) (answers : Bool) (hk : Touches A s0 s) (a_pwr : A .pwr = true) :
    Touches A s0 (State.tempReading s i v answers) := by
  simp (maxDischargeDepth := 60) [State.tempReading, touches_ite, touches_mk, within_dev, devArea, elim_ite, within_irq,
      within_pc, within_pwr, raise_touches, setBroken_touches, wr_touches, wrBit_touches, hk, a_pwr]

theorem tempFollow_touches {s : State} (hk : Touches A s0 s) (a_pwr : A .pwr = true) :
    Touches A s0 (State.tempFollow s) := by
  simp (maxDischargeDepth := 60) [State.tempFollow, touches_ite, touches_mk, within_dev, devArea, elim_ite, within_irq,
      within_pc, within_pwr, modPwr_touches, raise_touches, wr_touches, wrBit_touches, wrI_touches, hk, a_pwr]

theorem tempConverted_touches {s : State} (i : Fin 24) (v : Nat) (answers : Bool) (hk : Touches A s0 s) (a_ce : A .ce = true)
    (a_pwr : A .pwr = true) :
    Touches A s0 (State.tempConverted s i v answers) := by
  simp (maxDischargeDepth := 60) [State.tempConverted, touches_ite, touches_mk, within_dev, devArea, elim_ite, within_irq,
      within_pc, within_loop, within_aux, within_og, within_chain, within_pwr, modCe_touches, monCalDrift_touches,
      tempFollow_touches, tempReading_touches, hk, a_ce, a_pwr]

theorem pwrRefuse_touches {s : State} (u : Fin 22) (v : Nat) (code : Nat) (hk : Touches A s0 s) (a_pwr : A .pwr = true) :
    Touches A s0 (State.pwrRefuse s u v code) := by
  simp (maxDischargeDepth := 60) [State.pwrRefuse, touches_ite, touches_mk, within_dev, devArea, elim_ite, within_irq,
      within_pc, within_pwr, elim_ite, incSat_touches, raiseIn_touches, record_touches, wrField_touches, hk, a_pwr]

theorem pwrAborted_touches {s : State} (u : Fin 22) (target : Nat) (ap : Nat) (cause : Nat) (hk : Touches A s0 s) (a_pwr : A
    .pwr = true) :
    Touches A s0 (State.pwrAborted s u target ap cause) := by
  simp (maxDischargeDepth := 60) [State.pwrAborted, touches_ite, touches_mk, within_dev, devArea, elim_ite, within_irq,
      within_pc, within_pwr, elim_ite, incSat_touches, raiseIn_touches, record_touches, wrField_touches, hk, a_pwr]

theorem unitStill_touches {s : State} (u : Fin 22) (st : Nat) (hk : Touches A s0 s) (a_pwr : A .pwr = true) :
    Touches A s0 (State.unitStill s u st) := by
  simp (maxDischargeDepth := 60) [State.unitStill, touches_ite, touches_mk, within_dev, devArea, elim_ite, within_irq,
      within_pc, within_pwr, modUnit_touches, wr_touches, hk, a_pwr]

theorem tripDiscard_touches {s : State} (u : Fin 22) (hk : Touches A s0 s) (a_pwr : A .pwr = true) :
    Touches A s0 (State.tripDiscard s u) := by
  simp (maxDischargeDepth := 60) [State.tripDiscard, touches_ite, touches_mk, within_dev, devArea, elim_ite, within_irq,
      within_pc, within_pwr, pwrRefuse_touches, wr_touches, hk, a_pwr]

theorem tripMembers_touches {s : State} (u : Fin 22) (hk : Touches A s0 s) (a_ring : A .ring = true) (a_clk : A .clk = true)
    (a_lanes : A .lanes = true) :
    Touches A s0 (State.tripMembers s u) := by
  unfold tripMembers
  split
  · exact outFollow_touches _ (modLane_touches _ _ (laneResetAt_touches _ hk a_ring a_clk a_lanes) a_lanes) a_lanes
  · split
    · refine resetEntries_touches _ (gbStop_touches _ hk a_lanes) fun x hx => ?_
      obtain ⟨b, o, y⟩ := x
      cases b <;> simp_all [within_pg]
    · exact hk

theorem tripUnit_touches {s : State} (u : Fin 22) (hk : Touches A s0 s) (a_ring : A .ring = true) (a_clk : A .clk = true)
    (a_pwr : A .pwr = true) (a_lanes : A .lanes = true) :
    Touches A s0 (State.tripUnit s u) := by
  unfold State.tripUnit
  (repeat' split) <;> simp (maxDischargeDepth := 60) [touches_ite, touches_mk, within_dev, devArea, elim_ite, within_irq,
      within_pc, within_port, within_pwr, within_line, within_host, within_pg, modUnit_touches, pwrAborted_touches,
      tripDiscard_touches, tripMembers_touches, unitStill_touches, hk, a_ring, a_clk, a_pwr, a_lanes]

theorem thermalTrip_touches {s : State} (hk : Touches A s0 s) (a_ring : A .ring = true) (a_clk : A .clk = true) (a_ce : A .ce
    = true) (a_pwr : A .pwr = true) (a_bist : A .bist = true) (a_lanes : A .lanes = true) :
    Touches A s0 (State.thermalTrip s) := by
  simp (maxDischargeDepth := 60) +contextual [State.thermalTrip, touches_ite, touches_mk, within_dev, devArea, elim_ite,
      within_irq, within_pc, within_port, within_loop, within_aux, within_og, within_chain, within_pwr, within_line,
      within_host, within_pg, touches_when, touches_forAll, bistAbort_touches, incSat_touches, modCe_touches, modMgmt_touches,
      modPwr_touches, monCalFinish_touches, outageCheck_touches, outageStart_touches, plFollow_touches, raise_touches,
      record_touches, resetNoted_touches, tripUnit_touches, wr_touches, wrBit_touches, hk, a_ring, a_clk, a_ce, a_pwr, a_bist,
      a_lanes]

theorem laneRuns_touches {s : State} (n : Fin 16) (hk : Touches A s0 s) (a_lanes : A .lanes = true) :
    Touches A s0 (State.laneRuns s n) := by
  simp (maxDischargeDepth := 60) [State.laneRuns, touches_ite, touches_mk, within_dev, devArea, elim_ite, within_irq,
      within_pc, within_line, within_host, within_pg, castStart_touches, gbUp_touches, hostLaneReset_touches,
      outRelease_touches, picotFollow_touches, ssFollow_touches, hk, a_lanes]

theorem thermalRestart_touches {s : State} (hk : Touches A s0 s) (a_ce : A .ce = true) (a_pwr : A .pwr = true) (a_lanes : A
    .lanes = true) :
    Touches A s0 (State.thermalRestart s) := by
  simp (maxDischargeDepth := 60) +contextual [State.thermalRestart, touches_ite, touches_mk, within_dev, devArea, elim_ite,
      within_irq, within_pc, within_loop, within_aux, within_og, within_chain, within_pwr, within_line, within_host,
      within_pg, touches_forAll, laneRuns_touches, modCe_touches, modMgmt_touches, modPwr_touches, plFollow_touches,
      raise_touches, record_touches, unitStill_touches, wrBit_touches, hk, a_ce, a_pwr, a_lanes]

theorem effTripTest_touches {s : State} (v : Nat) (hk : Touches A s0 s) (a_pwr : A .pwr = true) :
    Touches A s0 (effTripTest v s) := by
  simp (maxDischargeDepth := 60) [effTripTest, touches_ite, touches_mk, within_dev, devArea, elim_ite, within_irq, within_pc,
      within_pwr, wrBit_touches, hk, a_pwr]

/-! ## Power -/

theorem wakeWaits_touches {s : State} (u : Fin 22) (c : Nat) (hk : Touches A s0 s) (a_pwr : A .pwr = true) :
    Touches A s0 (State.wakeWaits s u c) := by
  simp (maxDischargeDepth := 60) [State.wakeWaits, touches_ite, touches_mk, within_dev, devArea, elim_ite, within_irq,
      within_pc, within_pwr, modUnit_touches, slotReplaced_touches, hk, a_pwr]

theorem wakeStart_touches {s : State} (u : Fin 22) (t : Nat) (hk : Touches A s0 s) (a_pwr : A .pwr = true) :
    Touches A s0 (State.wakeStart s u t) := by
  simp only [State.wakeStart]
  (repeat' split) <;> simp (maxDischargeDepth := 60) [touches_ite, touches_mk, within_dev, devArea, elim_ite, within_irq,
      within_pc, within_pwr, bankCheck_touches, modUnit_touches, wakeWaits_touches, wakingTo_touches, hk, a_pwr]

theorem pgRuns_touches {s : State} (k : Fin 4) (hk : Touches A s0 s) :
    Touches A s0 (State.pgRuns s k) := by
  simp (maxDischargeDepth := 60) +contextual [State.pgRuns, touches_ite, touches_mk, within_dev, devArea, elim_ite,
      within_irq, within_pc, touches_forAll, bankCheck_touches, modUnit_touches, hk]

theorem wakeEvent_touches {s : State} (u : Fin 22) (cause : Nat) (hk : Touches A s0 s) (a_pwr : A .pwr = true) :
    Touches A s0 (State.wakeEvent s u cause) := by
  unfold State.wakeEvent
  (repeat' split) <;> simp (maxDischargeDepth := 60) [touches_ite, touches_mk, within_dev, devArea, elim_ite, within_irq,
      within_pc, within_pwr, slotReplaced_touches, wakeStart_touches, wakeWaits_touches, hk, a_pwr]

theorem stepBegin_touches {s : State} (u : Fin 22) (st : Nat) (t : Nat) (hk : Touches A s0 s) (a_clk : A .clk = true) (a_pwr :
    A .pwr = true) (a_lanes : A .lanes = true) :
    Touches A s0 (State.stepBegin s u st t) := by
  simp only [State.stepBegin]
  (repeat' split) <;> simp (maxDischargeDepth := 60) [touches_ite, touches_mk, within_dev, devArea, elim_ite, within_irq,
      within_pc, within_pwr, within_line, within_host, within_pg, bindOff_touches, calAbort_touches, coSettle_touches,
      modCo_touches, modLane_touches, modUnit_touches, outFollow_touches, outageCheck_touches, startSave_touches,
      swatchAbort_touches, toC0_touches, wr_touches, hk, a_clk, a_pwr, a_lanes]

theorem entryStart_touches {s : State} (u : Fin 22) (t : Nat) (hk : Touches A s0 s) (a_clk : A .clk = true) (a_pwr : A .pwr =
    true) (a_lanes : A .lanes = true) :
    Touches A s0 (State.entryStart s u t) := by
  simp (maxDischargeDepth := 60) [State.entryStart, touches_ite, touches_mk, within_dev, devArea, elim_ite, within_irq,
      within_pc, within_pwr, within_line, within_host, within_pg, modUnit_touches, stepBegin_touches, hk, a_clk, a_pwr,
      a_lanes]

theorem pwrNew_touches {s : State} (u : Fin 22) (v : Nat) (hk : Touches A s0 s) (a_clk : A .clk = true) (a_pwr : A .pwr =
    true) (a_lanes : A .lanes = true) :
    Touches A s0 (State.pwrNew s u v) := by
  simp (maxDischargeDepth := 60) [State.pwrNew, touches_ite, touches_mk, within_dev, devArea, elim_ite, within_irq, within_pc,
      within_pwr, within_line, within_host, within_pg, entryStart_touches, wakeStart_touches, hk, a_clk, a_pwr, a_lanes]

theorem pwrAsk_touches {s : State} (u : Fin 22) (v : Nat) (f : State → State) (hk : Touches A s0 s) (a_pwr : A .pwr = true)
    (hf : ∀ z, Touches A s0 z → Touches A s0 (f z)) :
    Touches A s0 (State.pwrAsk s u v f) := by
  unfold State.pwrAsk
  split <;> simp (maxDischargeDepth := 60) [touches_ite, touches_mk, within_dev, devArea, elim_ite, within_irq, within_pc,
      within_pwr, pwrRefuse_touches, hk, a_pwr, hf]

theorem pwrRequest_touches {s : State} (u : Fin 22) (v : Nat) (hk : Touches A s0 s) (a_clk : A .clk = true) (a_pwr : A .pwr =
    true) (a_lanes : A .lanes = true) :
    Touches A s0 (State.pwrRequest s u v) := by
  have hw : Key.within A (K.PWR_PENDING u) = true := by
    rw [within_pwr]
    split
    · rfl
    · exact a_pwr
  have hr : Key.within A (K.PWR_REQ u) = true := by
    rw [within_pwr]
    split
    · rfl
    · exact a_pwr
  unfold pwrRequest
  refine touches_ite _ (wr_touches _ _ hk hr) (pwrAsk_touches _ _ _ hk a_pwr fun z hz => ?_)
  dsimp only
  split
  · exact pwrNew_touches _ _ (wr_touches _ _ hz hr) a_clk a_pwr a_lanes
  · exact wr_touches _ _ (slotReplaced_touches _ (wr_touches _ _ hz hr) (.inr a_pwr)) hw

theorem afterMove_touches {s : State} (u : Fin 22) (hk : Touches A s0 s) (a_clk : A .clk = true) (a_pwr : A .pwr = true)
    (a_lanes : A .lanes = true) :
    Touches A s0 (State.afterMove s u) := by
  unfold State.afterMove
  split <;> simp (maxDischargeDepth := 60) +contextual [touches_ite, touches_mk, within_dev, devArea, elim_ite, within_irq,
      within_pc, within_pwr, within_line, within_host, within_pg, modUnit_touches, pwrAsk_touches, pwrNew_touches,
      wakeEvent_touches, wr_touches, hk, a_clk, a_pwr, a_lanes]

theorem moveDone_touches {s : State} (u : Fin 22) (st : Nat) (hk : Touches A s0 s) (a_clk : A .clk = true) (a_pwr : A .pwr =
    true) (a_lanes : A .lanes = true) :
    Touches A s0 (State.moveDone s u st) := by
  simp (maxDischargeDepth := 60) [State.moveDone, touches_ite, touches_mk, within_dev, devArea, elim_ite, within_irq,
      within_pc, within_pwr, within_line, within_host, within_pg, afterMove_touches, raiseIn_touches, record_touches,
      unitStill_touches, hk, a_clk, a_pwr, a_lanes]

theorem backInRun_touches {s : State} (u : Fin 22) (hk : Touches A s0 s) (a_clk : A .clk = true) (a_pwr : A .pwr = true)
    (a_lanes : A .lanes = true) :
    Touches A s0 (State.backInRun s u) := by
  unfold State.backInRun
  (repeat' split) <;> simp (maxDischargeDepth := 60) [touches_ite, touches_mk, within_dev, devArea, elim_ite, within_irq,
      within_pc, within_pwr, within_line, within_host, within_pg, afterMove_touches, castStart_touches, modUnit_touches,
      pgRuns_touches, unitStill_touches, hk, a_clk, a_pwr, a_lanes]

theorem abortPoint_touches {s : State} (u : Fin 22) (ap : Nat) (lvl : Nat) (t : Nat) (hk : Touches A s0 s) (a_clk : A .clk =
    true) (a_pwr : A .pwr = true) (a_lanes : A .lanes = true) :
    Touches A s0 (State.abortPoint s u ap lvl t) := by
  unfold State.abortPoint
  split <;> simp (maxDischargeDepth := 60) [touches_ite, touches_mk, within_dev, devArea, elim_ite, within_irq, within_pc,
      within_pwr, within_line, within_host, within_pg, backInRun_touches, modUnit_touches, moveDone_touches,
      pwrAborted_touches, stepBegin_touches, wakeStart_touches, wr_touches, hk, a_clk, a_pwr, a_lanes]

theorem laneAnew_touches {s : State} (n : Fin 16) (hk : Touches A s0 s) (a_lanes : A .lanes = true) :
    Touches A s0 (State.laneAnew s n) := by
  simp (maxDischargeDepth := 60) [State.laneAnew, touches_ite, touches_mk, within_dev, devArea, elim_ite, within_irq,
      within_pc, within_line, within_host, within_pg, modCo_touches, setFill_touches, hk, a_lanes]

theorem powerOff_touches {s : State} (u : Fin 22) (hk : Touches A s0 s) (a_all : ∀ a, A a = true) :
    Touches A s0 (State.powerOff s u) := by
  unfold State.powerOff
  split <;> simp (maxDischargeDepth := 60) +contextual [touches_ite, touches_mk, within_all, touches_forAll, within_all,
      eraseKeys_touches, laneAnew_touches, modMgmt_touches, modSec_touches, prbsOff_touches, resetEntries_touches,
      vendorEndAll_touches, wr_touches, hk, a_all]

theorem stepDone_touches {s : State} (u : Fin 22) (st : Nat) (hk : Touches A s0 s) (a_ce : A .ce = true) (a_pwr : A .pwr =
    true) (a_lanes : A .lanes = true) :
    Touches A s0 (State.stepDone s u st) := by
  unfold State.stepDone
  (repeat' split) <;> simp (maxDischargeDepth := 60) [touches_ite, touches_mk, within_dev, devArea, elim_ite, within_irq,
      within_pc, within_loop, within_aux, within_og, within_chain, within_pwr, within_line, within_host, within_pg,
      ceStop_touches, gbStop_touches, outForceOff_touches, picotFollow_touches, ssFollow_touches, wr_touches, hk, a_ce, a_pwr,
      a_lanes]

theorem stepEnd_touches {s : State} (u : Fin 22) (hk : Touches A s0 s) (a_all : ∀ a, A a = true) :
    Touches A s0 (State.stepEnd s u) := by
  unfold State.stepEnd
  split <;> simp (maxDischargeDepth := 60) [touches_ite, touches_mk, within_all, within_all, abortPoint_touches,
      afterMove_touches, moveDone_touches, powerOff_touches, pwrRefuse_touches, stepDone_touches, unitStill_touches, hk,
      a_all]

theorem coldInit_touches {s : State} (u : Fin 22) (hk : Touches A s0 s) (a_all : ∀ a, A a = true) :
    Touches A s0 (State.coldInit s u) := by
  unfold State.coldInit
  split <;> simp (maxDischargeDepth := 60) [touches_ite, touches_mk, within_all, within_all, modLane_touches, modUnit_touches,
      mrst_touches, resetEntries_touches, hk, a_all]

theorem loadUnit_touches {s : State} (u : Fin 22) (cold : Bool) (hk : Touches A s0 s) (a_all : ∀ a, A a = true) :
    Touches A s0 (State.loadUnit s u cold) := by
  unfold State.loadUnit
  split <;> simp (maxDischargeDepth := 60) [touches_ite, touches_mk, within_all, within_all, loadKeys_touches,
      loadedLane_touches, resetEntries_touches, hk, a_all]

theorem coldStart_touches {s : State} (u : Fin 22) (hk : Touches A s0 s) (a_all : ∀ a, A a = true) :
    Touches A s0 (State.coldStart s u) := by
  simp (maxDischargeDepth := 60) [State.coldStart, touches_ite, touches_mk, within_all, within_all, coldInit_touches,
      loadUnit_touches, hk, a_all]

theorem restore_touches {s : State} (u : Fin 22) (hk : Touches A s0 s) (a_all : ∀ a, A a = true) :
    Touches A s0 (State.restore s u) := by
  unfold State.restore
  (repeat' split) <;> simp (maxDischargeDepth := 60) [touches_ite, touches_mk, within_all, within_all, coldStart_touches,
      laneAnew_touches, loadUnit_touches, hk, a_all]

theorem unitRuns_touches {s : State} (u : Fin 22) (deep : Bool) (hk : Touches A s0 s) (a_od : A .od = true) (a_ce : A .ce =
    true) (a_bist : A .bist = true) (a_lanes : A .lanes = true) :
    Touches A s0 (State.unitRuns s u deep) := by
  unfold State.unitRuns
  (repeat' split) <;> simp (maxDischargeDepth := 60) +contextual [touches_ite, touches_mk, within_dev, devArea, elim_ite,
      within_irq, within_pc, within_loop, within_aux, within_og, within_chain, within_line, within_host, within_pg,
      bootStart_touches, ceHold_touches, deriveKeys_touches, laneRuns_touches, pgRuns_touches, wrBit_touches, hk, a_od, a_ce,
      a_bist, a_lanes]

theorem wakeDone_touches {s : State} (u : Fin 22) (hk : Touches A s0 s) (a_all : ∀ a, A a = true) :
    Touches A s0 (State.wakeDone s u) := by
  have hw : ∀ k, Key.within A k = true := within_all a_all
  unfold wakeDone
  split
  · have h1 : ∀ b : Bool, Touches A s0 (if b = true then s.restore u else s) := fun b => touches_ite _ (restore_touches _ hk
      a_all) hk
    refine touches_ite _ hk (moveDone_touches _ _ ?_ (a_all _) (a_all _) (a_all _))
    refine touches_ite _ (unitRuns_touches _ _ (modUnit_touches _ _ (wr_touches _ _ (h1 _) (hw _))) (a_all _) (a_all _) (a_all
        _) (a_all _)) (touches_ite _ ?_ (wr_touches _ _ (h1 _) (hw _)))
    exact bootStart_touches (deriveKeys_touches (wr_touches _ _ (h1 _) (hw _))) (a_all _) (a_all _) (a_all _)
  · exact hk

theorem offRefuse_touches {s : State} (code : Nat) (hk : Touches A s0 s) (a_pwr : A .pwr = true) :
    Touches A s0 (State.offRefuse s code) := by
  simp (maxDischargeDepth := 60) [State.offRefuse, touches_ite, touches_mk, within_dev, devArea, elim_ite, within_irq,
      within_pc, within_pwr, elim_ite, incSat_touches, raiseIn_touches, record_touches, wrField_touches, hk, a_pwr]

theorem offEnd_touches {s : State} (hk : Touches A s0 s) (a_lanes : A .lanes = true) :
    Touches A s0 (State.offEnd s) := by
  simp (maxDischargeDepth := 60) +contextual [State.offEnd, touches_ite, touches_mk, within_dev, devArea, elim_ite,
      within_irq, within_pc, within_line, within_host, within_pg, touches_forAll, castStart_touches, modPwr_touches, hk,
      a_lanes]

theorem offAbort_touches {s : State} (ap : Nat) (cause : Nat) (hk : Touches A s0 s) (a_pwr : A .pwr = true) (a_lanes : A
    .lanes = true) :
    Touches A s0 (State.offAbort s ap cause) := by
  simp (maxDischargeDepth := 60) [State.offAbort, touches_ite, touches_mk, within_dev, devArea, elim_ite, within_irq,
      within_pc, within_pwr, within_line, within_host, within_pg, elim_ite, incSat_touches, offEnd_touches, raiseIn_touches,
      record_touches, wrField_touches, hk, a_pwr, a_lanes]

theorem offBind_touches {s : State} (n : Fin 16) (hk : Touches A s0 s) (a_clk : A .clk = true) (a_lanes : A .lanes = true) :
    Touches A s0 (State.offBind s n) := by
  simp only [State.offBind]
  (repeat' split) <;> simp (maxDischargeDepth := 60) [touches_ite, touches_mk, within_dev, devArea, elim_ite, within_irq,
      within_pc, within_line, within_host, within_pg, bindOff_touches, calAbort_touches, coSettle_touches, modCo_touches,
      modUnit_touches, outageCheck_touches, toC0_touches, hk, a_clk, a_lanes]

theorem deviceOff_touches {s : State} (hk : Touches A s0 s) (a_clk : A .clk = true) (a_pwr : A .pwr = true) (a_lanes : A
    .lanes = true) :
    Touches A s0 (State.deviceOff s) := by
  simp (maxDischargeDepth := 60) +contextual [State.deviceOff, touches_ite, touches_mk, within_dev, devArea, elim_ite,
      within_irq, within_pc, within_pwr, within_line, within_host, within_pg, touches_forAll, modPwr_touches, offBind_touches,
      offRefuse_touches, hk, a_clk, a_pwr, a_lanes]

theorem offStepEnd_touches {s : State} (hk : Touches A s0 s) (a_all : ∀ a, A a = true) :
    Touches A s0 (State.offStepEnd s) := by
  unfold State.offStepEnd
  (repeat' split) <;> simp (maxDischargeDepth := 60) [touches_ite, touches_mk, within_all, within_all, deviceOff_touches,
      modPwr_touches, offAbort_touches, offEnd_touches, offRefuse_touches, porAssert_touches, startSave_touches, hk, a_all]

theorem pwrSaveEnd_touches {s : State} (ok : Bool) (hk : Touches A s0 s) :
    Touches A s0 (State.pwrSaveEnd s ok) := by
  simp (maxDischargeDepth := 60) +contextual [State.pwrSaveEnd, touches_ite, touches_mk, within_dev, devArea, elim_ite,
      within_irq, within_pc, touches_forAll, modPwr_touches, modUnit_touches, hk]

theorem wakeEdge_touches {s : State} (straps : BitVec 3) (hk : Touches A s0 s) (a_all : ∀ a, A a = true) :
    Touches A s0 (State.wakeEdge s straps) := by
  unfold State.wakeEdge
  split <;> simp (maxDischargeDepth := 60) +contextual [touches_ite, touches_mk, within_all, touches_forAll, within_all,
      deviceOff_touches, modPwr_touches, porRelease_touches, wakeEvent_touches, wrBit_touches, hk, a_all]

theorem debugWake_touches {s : State} (hk : Touches A s0 s) (a_pwr : A .pwr = true) :
    Touches A s0 (State.debugWake s) := by
  simp (maxDischargeDepth := 60) [State.debugWake, touches_ite, touches_mk, within_dev, devArea, elim_ite, within_irq,
      within_pc, within_pwr, modPwr_touches, wakeEvent_touches, hk, a_pwr]

theorem effPwrReq_touches {s : State} (u : Fin 22) (v : Nat) (hk : Touches A s0 s) (a_clk : A .clk = true) (a_pwr : A .pwr =
    true) (a_lanes : A .lanes = true) :
    Touches A s0 (effPwrReq u v s) := by
  simp (maxDischargeDepth := 60) [effPwrReq, touches_ite, touches_mk, within_dev, devArea, elim_ite, within_irq, within_pc,
      within_pwr, within_line, within_host, within_pg, pwrRequest_touches, hk, a_clk, a_pwr, a_lanes]

theorem effDeviceOff_touches {s : State} (v : Nat) (hk : Touches A s0 s) (a_clk : A .clk = true) (a_pwr : A .pwr = true)
    (a_lanes : A .lanes = true) :
    Touches A s0 (effDeviceOff v s) := by
  simp (maxDischargeDepth := 60) [effDeviceOff, touches_ite, touches_mk, within_dev, devArea, elim_ite, within_irq, within_pc,
      within_pwr, within_line, within_host, within_pg, deviceOff_touches, hk, a_clk, a_pwr, a_lanes]

theorem effPwrCntClear_touches {s : State} (v : Nat) (hk : Touches A s0 s) (a_pwr : A .pwr = true) :
    Touches A s0 (effPwrCntClear v s) := by
  simp (maxDischargeDepth := 60) [effPwrCntClear, touches_ite, touches_mk, within_dev, devArea, elim_ite, within_irq,
      within_pc, within_pwr, elim_ite, clrAll_touches, hk, a_pwr]

/-! ## Bist -/

theorem bistPrepare_touches {s : State} (x0 : BistTarget) (hk : Touches A s0 s) (a_od : A .od = true) (a_ring : A .ring =
    true) (a_pwr : A .pwr = true) (a_mgmt : A .mgmt = true) (a_lanes : A .lanes = true) :
    Touches A s0 (State.bistPrepare s x0) := by
  unfold State.bistPrepare
  split <;> simp (maxDischargeDepth := 60) +contextual [touches_ite, touches_mk, within_dev, devArea, elim_ite, within_irq,
      within_pc, within_port, within_pwr, within_mb, within_pc, within_line, within_host, within_pg, touches_forAll,
      coreReset_touches, swatchAbort_touches, zeroize_touches, hk, a_od, a_ring, a_pwr, a_mgmt, a_lanes]

theorem bistStart_touches {s : State} (t : BistTarget) (hk : Touches A s0 s) (a_od : A .od = true) (a_ring : A .ring = true)
    (a_pwr : A .pwr = true) (a_mgmt : A .mgmt = true) (a_bist : A .bist = true) (a_lanes : A .lanes = true) :
    Touches A s0 (State.bistStart s t) := by
  simp (maxDischargeDepth := 60) [State.bistStart, touches_ite, touches_mk, within_dev, devArea, elim_ite, within_irq,
      within_pc, within_port, within_pwr, within_mb, within_pc, within_line, within_host, within_pg, bistPrepare_touches,
      fresh_touches, modBist_touches, wr_touches, hk, a_od, a_ring, a_pwr, a_mgmt, a_bist, a_lanes]

theorem bankJudged_touches {s : State} (t : BistTarget) (result : Nat) (hk : Touches A s0 s) :
    Touches A s0 (State.bankJudged s t result) := by
  unfold State.bankJudged
  split <;> simp (maxDischargeDepth := 60) [touches_ite, touches_mk, within_dev, devArea, elim_ite, within_irq, within_pc,
      modPwr_touches, hk]

theorem bistFinish_touches {s : State} (t : BistTarget) (result : Nat) (hk : Touches A s0 s) (a_od : A .od = true) (a_bist : A
    .bist = true) (a_lanes : A .lanes = true) :
    Touches A s0 (State.bistFinish s t result) := by
  simp (maxDischargeDepth := 60) [State.bistFinish, touches_ite, touches_mk, within_dev, devArea, elim_ite, within_irq,
      within_pc, within_line, within_host, within_pg, bankJudged_touches, bistEnd_touches, bootStart_touches, hk, a_od,
      a_bist, a_lanes]

theorem bistDone_touches {s : State} (fails : List Nat) (sig : Nat) (hk : Touches A s0 s) (a_od : A .od = true) (a_bist : A
    .bist = true) (a_lanes : A .lanes = true) :
    Touches A s0 (State.bistDone s fails sig) := by
  simp only [State.bistDone]
  (repeat' split) <;> simp (maxDischargeDepth := 60) [touches_ite, touches_mk, within_dev, devArea, elim_ite, within_irq,
      within_pc, within_line, within_host, within_pg, bistDiscard_touches, bistFinish_touches, modBist_touches, wr_touches,
      wrBit_touches, hk, a_od, a_bist, a_lanes]

theorem repairApply_touches {s : State} (lost : Bool) (hk : Touches A s0 s) (a_all : ∀ a, A a = true) :
    Touches A s0 (State.repairApply s lost) := by
  simp only [State.repairApply]
  (repeat' split) <;> simp (maxDischargeDepth := 60) +contextual [touches_ite, touches_mk, within_all, touches_forAll,
      within_all, bistFinish_touches, coldStart_touches, modBist_touches, raise_touches, record_touches, hk, a_all]

theorem repairFuse_touches {s : State} (failed : Nat) (hk : Touches A s0 s) (a_bist : A .bist = true) :
    Touches A s0 (State.repairFuse s failed) := by
  simp (maxDischargeDepth := 60) [State.repairFuse, touches_ite, touches_mk, within_dev, devArea, elim_ite, within_irq,
      within_pc, modBist_touches, raise_touches, record_touches, hk, a_bist]

theorem effBistStart_touches {s : State} (v : Nat) (hk : Touches A s0 s) (a_od : A .od = true) (a_ring : A .ring = true)
    (a_pwr : A .pwr = true) (a_mgmt : A .mgmt = true) (a_bist : A .bist = true) (a_lanes : A .lanes = true) :
    Touches A s0 (effBistStart v s) := by
  unfold effBistStart
  split <;> simp (maxDischargeDepth := 60) [touches_ite, touches_mk, within_dev, devArea, elim_ite, within_irq, within_pc,
      within_port, within_pwr, within_mb, within_pc, within_line, within_host, within_pg, bistStart_touches, hk, a_od, a_ring,
      a_pwr, a_mgmt, a_bist, a_lanes]

theorem effBistStop_touches {s : State} (v : Nat) (hk : Touches A s0 s) (a_bist : A .bist = true) (a_lanes : A .lanes = true) :
    Touches A s0 (effBistStop v s) := by
  simp (maxDischargeDepth := 60) [effBistStop, touches_ite, touches_mk, within_dev, devArea, elim_ite, within_irq, within_pc,
      within_line, within_host, within_pg, bistAbort_touches, hk, a_bist, a_lanes]

theorem effRepairFuse_touches {s : State} (v : Nat) (failed : Nat) (hk : Touches A s0 s) (a_bist : A .bist = true) :
    Touches A s0 (effRepairFuse v failed s) := by
  simp (maxDischargeDepth := 60) [effRepairFuse, touches_ite, touches_mk, within_dev, devArea, elim_ite, within_irq,
      within_pc, repairFuse_touches, hk, a_bist]

theorem effBistCntClear_touches {s : State} (v : Nat) (hk : Touches A s0 s) (a_bist : A .bist = true) :
    Touches A s0 (effBistCntClear v s) := by
  simp (maxDischargeDepth := 60) [effBistCntClear, touches_ite, touches_mk, within_dev, devArea, elim_ite, within_irq,
      within_pc, elim_ite, clrAll_touches, hk, a_bist]

/-! ## Security -/

theorem slotInit_touches {s : State} (x : Fin 2) (r : Fin 18) (hk : Touches A s0 s) :
    Touches A s0 (State.slotInit s x r) := by
  simp (maxDischargeDepth := 60) [State.slotInit, touches_ite, touches_mk, within_dev, devArea, elim_ite, within_irq,
      within_pc, modSlot_touches, hk]

theorem slotOpen_touches {s : State} (x : Fin 2) (r : Fin 18) (hk : Touches A s0 s) :
    Touches A s0 (State.slotOpen s x r) := by
  simp (maxDischargeDepth := 60) [State.slotOpen, touches_ite, touches_mk, within_dev, devArea, elim_ite, within_irq,
      within_pc, modSlot_touches, hk]

theorem slotData_touches {s : State} (x : Fin 2) (d : List Byte) (bad : Bool) (hk : Touches A s0 s) :
    Touches A s0 (State.slotData s x d bad) := by
  simp (maxDischargeDepth := 60) +contextual [State.slotData, touches_ite, touches_mk, within_dev, devArea, elim_ite,
      within_irq, within_pc, flashWrite_touches, fresh_touches, modSlot_touches, raise_touches, hk]

theorem certWrite_touches {s : State} (data : List Byte) (bad : Bool) (hk : Touches A s0 s) :
    Touches A s0 (State.certWrite s data bad) := by
  simp (maxDischargeDepth := 60) +contextual [State.certWrite, touches_ite, touches_mk, within_dev, devArea, elim_ite,
      within_irq, within_pc, flashWrite_touches, fresh_touches, modSec_touches, raise_touches, hk]

theorem slotAbort_touches {s : State} (x : Fin 2) (hk : Touches A s0 s) :
    Touches A s0 (State.slotAbort s x) := by
  simp (maxDischargeDepth := 60) [State.slotAbort, touches_ite, touches_mk, within_dev, devArea, elim_ite, within_irq,
      within_pc, modSlot_touches, hk]

theorem slotFinish_touches {s : State} (x : Fin 2) (hk : Touches A s0 s) (a_sec : A .sec = true) :
    Touches A s0 (State.slotFinish s x) := by
  simp only [State.slotFinish]
  (repeat' split) <;> simp (maxDischargeDepth := 60) [touches_ite, touches_mk, within_dev, devArea, elim_ite, within_irq,
      within_pc, within_slot, modSlot_touches, raise_touches, record_touches, slotRefused_touches, hk, a_sec]

theorem fwActivate_touches {s : State} (hk : Touches A s0 s) (a_od : A .od = true) (a_ring : A .ring = true) (a_pwr : A .pwr =
    true) (a_mgmt : A .mgmt = true) (a_bist : A .bist = true) (a_lanes : A .lanes = true) :
    Touches A s0 (State.fwActivate s) := by
  unfold State.fwActivate
  split <;> simp (maxDischargeDepth := 60) [touches_ite, touches_mk, within_dev, devArea, elim_ite, within_irq, within_pc,
      within_port, within_pwr, within_mb, within_pc, within_line, within_host, within_pg, bootStart_touches,
      coreReset_touches, modSec_touches, modSlot_touches, slotRecord_touches, hk, a_od, a_ring, a_pwr, a_mgmt, a_bist,
      a_lanes]

theorem svnCommit_touches {s : State} (failed : Nat) (hk : Touches A s0 s) (a_sec : A .sec = true) :
    Touches A s0 (State.svnCommit s failed) := by
  unfold State.svnCommit
  split <;> simp (maxDischargeDepth := 60) +contextual [touches_ite, touches_mk, within_dev, devArea, elim_ite, within_irq,
      within_pc, within_slot, touches_forAll, fwFail_touches, modSec_touches, modSlot_touches, raise_touches, record_touches,
      hk, a_sec]

theorem attestSkein_touches {s : State} (hk : Touches A s0 s) :
    Touches A s0 (State.attestSkein s).2 := by
  unfold State.attestSkein
  split <;> simp (maxDischargeDepth := 60) [touches_ite, touches_mk, within_dev, devArea, elim_ite, within_irq, within_pc,
      fresh_touches, hk]

theorem attestDone_touches {s : State} (hk : Touches A s0 s) (a_sec : A .sec = true) :
    Touches A s0 (State.attestDone s) := by
  unfold attestDone
  split
  · exact hk
  · exact raise_touches _ (modSec_touches _ (incWrap_touches _ (wr_touches _ _ (attestSkein_touches hk) a_sec) a_sec))

theorem lcAdvance_touches {s : State} (r : Fin 18) (target : Nat) (hk : Touches A s0 s) (a_od : A .od = true) (a_clk : A .clk
    = true) (a_sec : A .sec = true) (a_lanes : A .lanes = true) :
    Touches A s0 (State.lcAdvance s r target) := by
  unfold lcAdvance
  dsimp only
  have h1 : ∀ f d, Touches A s0 ((((s.modSec f).record 0x62 0xFF d).raise Src.LIFE_CYCLE_CHG).vendorEndAll.debugEnd 3) :=
    fun f d => debugEnd_touches _ (vendorEndAll_touches (raise_touches _ (record_touches _ _ _ (modSec_touches _ hk))) a_sec)
  refine touches_ite _ (touches_forAll _ _ (recover_touches ?_ a_od a_clk a_lanes) fun n z hz => outForceOff_touches _ hz
      a_lanes) ?_
  all_goals exact touches_ite _ (zeroize_touches _ (h1 _ _)) (h1 _ _)

theorem newChallenge_touches {s : State} (hk : Touches A s0 s) :
    Touches A s0 (State.newChallenge s) := by
  simp (maxDischargeDepth := 60) [State.newChallenge, touches_ite, touches_mk, hk]

theorem tokenRefused_touches {s : State} (r : Fin 18) (res : Nat) (level : Nat) (hk : Touches A s0 s) (a_sec : A .sec = true) :
    Touches A s0 (State.tokenRefused s r res level) := by
  simp (maxDischargeDepth := 60) [State.tokenRefused, touches_ite, touches_mk, within_dev, devArea, elim_ite, within_irq,
      within_pc, within_slot, incSat_touches, modSec_touches, raise_touches, record_touches, wr_touches, wrBit_touches, hk,
      a_sec]

theorem scanEnter_touches {s : State} (hk : Touches A s0 s) (a_ring : A .ring = true) (a_clk : A .clk = true) (a_ce : A .ce =
    true) (a_lanes : A .lanes = true) :
    Touches A s0 (State.scanEnter s) := by
  simp (maxDischargeDepth := 60) +contextual [State.scanEnter, touches_ite, touches_mk, within_dev, devArea, elim_ite,
      within_irq, within_pc, within_port, within_loop, within_aux, within_og, within_chain, within_line, within_host,
      within_pg, touches_forAll, ceStop_touches, portTo_touches, hk, a_ring, a_clk, a_ce, a_lanes]

theorem debugOpen_touches {s : State} (level : Nat) (dur : Nat) (hk : Touches A s0 s) (a_ring : A .ring = true) (a_clk : A
    .clk = true) (a_ce : A .ce = true) (a_pwr : A .pwr = true) (a_lanes : A .lanes = true) :
    Touches A s0 (State.debugOpen s level dur) := by
  simp (maxDischargeDepth := 60) [State.debugOpen, touches_ite, touches_mk, within_dev, devArea, elim_ite, within_irq,
      within_pc, within_port, within_loop, within_aux, within_og, within_chain, within_pwr, within_line, within_host,
      within_pg, debugWake_touches, modSec_touches, raise_touches, record_touches, scanEnter_touches, wrField_touches, hk,
      a_ring, a_clk, a_ce, a_pwr, a_lanes]

theorem tokenGranted_touches {s : State} (r : Fin 18) (level : Nat) (dur : Nat) (hk : Touches A s0 s) (a_ring : A .ring =
    true) (a_clk : A .clk = true) (a_ce : A .ce = true) (a_pwr : A .pwr = true) (a_sec : A .sec = true) (a_lanes : A .lanes =
    true) :
    Touches A s0 (State.tokenGranted s r level dur) := by
  simp (maxDischargeDepth := 60) [State.tokenGranted, touches_ite, touches_mk, within_dev, devArea, elim_ite, within_irq,
      within_pc, within_port, within_loop, within_aux, within_og, within_chain, within_pwr, within_slot, within_line,
      within_host, within_pg, debugOpen_touches, modSec_touches, wr_touches, wrBit_touches, zeroize_touches, hk, a_ring,
      a_clk, a_ce, a_pwr, a_sec, a_lanes]

theorem tokenCheck_touches {s : State} (r : Fin 18) (tap : Bool) (t : List Byte) (eraseOk : Bool) (hk : Touches A s0 s)
    (a_ring : A .ring = true) (a_clk : A .clk = true) (a_ce : A .ce = true) (a_pwr : A .pwr = true) (a_sec : A .sec = true)
    (a_lanes : A .lanes = true) :
    Touches A s0 (State.tokenCheck s r tap t eraseOk).2 := by
  simp (maxDischargeDepth := 60) +contextual [State.tokenCheck, touches_ite, touches_mk, within_dev, devArea, elim_ite,
      within_irq, within_pc, within_port, within_loop, within_aux, within_og, within_chain, within_pwr, within_slot,
      within_line, within_host, within_pg, touches_when, eraseKeys_touches, newChallenge_touches, tokenGranted_touches,
      tokenRefused_touches, hk, a_ring, a_clk, a_ce, a_pwr, a_sec, a_lanes]

theorem tokenSubmit_touches {s : State} (r : Fin 18) (t : List Byte) (eraseOk : Bool) (hk : Touches A s0 s) (a_ring : A .ring
    = true) (a_clk : A .clk = true) (a_ce : A .ce = true) (a_pwr : A .pwr = true) (a_sec : A .sec = true) (a_lanes : A .lanes
    = true) :
    Touches A s0 (State.tokenSubmit s r t eraseOk).2 := by
  simp (maxDischargeDepth := 60) [State.tokenSubmit, touches_ite, touches_mk, within_dev, devArea, elim_ite, within_irq,
      within_pc, within_port, within_loop, within_aux, within_og, within_chain, within_pwr, within_slot, within_line,
      within_host, within_pg, tokenCheck_touches, hk, a_ring, a_clk, a_ce, a_pwr, a_sec, a_lanes]

theorem tokenWrite_touches {s : State} (r : Fin 18) (t : List Byte) (eraseOk : Bool) (hk : Touches A s0 s) (a_ring : A .ring =
    true) (a_clk : A .clk = true) (a_ce : A .ce = true) (a_pwr : A .pwr = true) (a_sec : A .sec = true) (a_lanes : A .lanes =
    true) :
    Touches A s0 (State.tokenWrite s r t eraseOk) := by
  unfold State.tokenWrite
  (repeat' split) <;> simp (maxDischargeDepth := 60) [touches_ite, touches_mk, within_dev, devArea, elim_ite, within_irq,
      within_pc, within_port, within_loop, within_aux, within_og, within_chain, within_pwr, within_slot, within_line,
      within_host, within_pg, answered_touches, coreWake_touches, countOwnerWrite_touches, counted_touches,
      tokenSubmit_touches, hk, a_ring, a_clk, a_ce, a_pwr, a_sec, a_lanes]

theorem modTap_touches {s : State} (f : TapS → TapS) (hk : Touches A s0 s) :
    Touches A s0 (State.modTap s f) := by
  simp (maxDischargeDepth := 60) [State.modTap, touches_ite, touches_mk, within_dev, devArea, elim_ite, within_irq, within_pc,
      modSec_touches, hk]

theorem tapShift_touches {s : State} (reg : List Bool) (d : List Bool) (hk : Touches A s0 s) :
    Touches A s0 (State.tapShift s reg d) := by
  simp (maxDischargeDepth := 60) [State.tapShift, touches_ite, touches_mk, within_dev, devArea, elim_ite, within_irq,
      within_pc, modTap_touches, hk]

theorem tapBoundary_touches {s : State} (pins : BitVec 16) (d : List Bool) (hk : Touches A s0 s) :
    Touches A s0 (State.tapBoundary s pins d) := by
  simp (maxDischargeDepth := 60) [State.tapBoundary, touches_ite, touches_mk, within_dev, devArea, elim_ite, within_irq,
      within_pc, modTap_touches, tapShift_touches, hk]

theorem tapRun_touches {s : State} (code : BitVec 5) (d : List Bool) (f : State → State) (hk : Touches A s0 s) (hf : ∀ z,
    Touches A s0 z → Touches A s0 (f z)) :
    Touches A s0 (State.tapRun s code d f) := by
  simp (maxDischargeDepth := 60) [State.tapRun, touches_ite, touches_mk, within_dev, devArea, elim_ite, within_irq, within_pc,
      modTap_touches, tapShift_touches, hk, hf]

theorem tapFree_touches {s : State} (n : Nat) (hk : Touches A s0 s) :
    Touches A s0 (State.tapFree s n) := by
  simp (maxDischargeDepth := 60) [State.tapFree, touches_ite, touches_mk, within_dev, devArea, elim_ite, within_irq,
      within_pc, fresh_touches, modTap_touches, hk]

theorem debugAct_touches {s : State} (d : List Bool) (op : DebugOp) (hk : Touches A s0 s) :
    Touches A s0 (State.debugAct s d op) := by
  unfold State.debugAct
  (repeat' split) <;> simp (maxDischargeDepth := 60) [touches_ite, touches_mk, within_dev, devArea, elim_ite, within_irq,
      within_pc, coreRan_touches, modSec_touches, modTap_touches, tapFree_touches, write_touches, hk]

theorem tapToken_touches {s : State} (token : List Byte) (eraseOk : Bool) (hk : Touches A s0 s) (a_ring : A .ring = true)
    (a_clk : A .clk = true) (a_ce : A .ce = true) (a_pwr : A .pwr = true) (a_sec : A .sec = true) (a_lanes : A .lanes = true)
    :
    Touches A s0 (State.tapToken s token eraseOk) := by
  simp (maxDischargeDepth := 60) [State.tapToken, touches_ite, touches_mk, within_dev, devArea, elim_ite, within_irq,
      within_pc, within_port, within_loop, within_aux, within_og, within_chain, within_pwr, within_slot, within_line,
      within_host, within_pg, debugWake_touches, modOd_touches, tokenCheck_touches, hk, a_ring, a_clk, a_ce, a_pwr, a_sec,
      a_lanes]

theorem effFwActivate_touches {s : State} (v : Nat) (hk : Touches A s0 s) (a_od : A .od = true) (a_ring : A .ring = true)
    (a_pwr : A .pwr = true) (a_mgmt : A .mgmt = true) (a_bist : A .bist = true) (a_lanes : A .lanes = true) :
    Touches A s0 (effFwActivate v s) := by
  simp (maxDischargeDepth := 60) [effFwActivate, touches_ite, touches_mk, within_dev, devArea, elim_ite, within_irq,
      within_pc, within_port, within_pwr, within_mb, within_pc, within_line, within_host, within_pg, fwActivate_touches, hk,
      a_od, a_ring, a_pwr, a_mgmt, a_bist, a_lanes]

theorem effFwConfirm_touches {s : State} (v : Nat) (hk : Touches A s0 s) :
    Touches A s0 (effFwConfirm v s) := by
  simp (maxDischargeDepth := 60) [effFwConfirm, touches_ite, touches_mk, within_dev, devArea, elim_ite, within_irq, within_pc,
      fwConfirm_touches, hk]

theorem effSvnCommit_touches {s : State} (v : Nat) (failed : Nat) (hk : Touches A s0 s) (a_sec : A .sec = true) :
    Touches A s0 (effSvnCommit v failed s) := by
  simp (maxDischargeDepth := 60) [effSvnCommit, touches_ite, touches_mk, within_dev, devArea, elim_ite, within_irq, within_pc,
      within_slot, svnCommit_touches, hk, a_sec]

theorem effAttestNonce_touches {s : State} (data : List Byte) (hk : Touches A s0 s) :
    Touches A s0 (effAttestNonce data s) := by
  simp (maxDischargeDepth := 60) [effAttestNonce, touches_ite, touches_mk, within_dev, devArea, elim_ite, within_irq,
      within_pc, modSec_touches, hk]

theorem effLcAdvance_touches {s : State} (r : Fin 18) (v : Nat) (hk : Touches A s0 s) (a_od : A .od = true) (a_clk : A .clk =
    true) (a_sec : A .sec = true) (a_lanes : A .lanes = true) :
    Touches A s0 (effLcAdvance r v s) := by
  simp (maxDischargeDepth := 60) [effLcAdvance, touches_ite, touches_mk, within_dev, devArea, elim_ite, within_irq, within_pc,
      within_slot, within_line, within_host, within_pg, lcAdvance_touches, hk, a_od, a_clk, a_sec, a_lanes]

theorem effDebugClose_touches {s : State} (v : Nat) (hk : Touches A s0 s) :
    Touches A s0 (effDebugClose v s) := by
  simp (maxDischargeDepth := 60) [effDebugClose, touches_ite, touches_mk, within_dev, devArea, elim_ite, within_irq,
      within_pc, debugEnd_touches, hk]

theorem effVendorDrop_touches {s : State} (r : Fin 18) (v : Nat) (hk : Touches A s0 s) (a_sec : A .sec = true) :
    Touches A s0 (effVendorDrop r v s) := by
  simp (maxDischargeDepth := 60) [effVendorDrop, touches_ite, touches_mk, within_dev, devArea, elim_ite, within_irq,
      within_pc, within_slot, wrBit_touches, hk, a_sec]

/-! ## OdRead -/

theorem pcLook_touches {s : State} (k : Key) (hk : Touches A s0 s) :
    Touches A s0 (State.pcLook s k) := by
  unfold State.pcLook
  split <;> simp (maxDischargeDepth := 60) +contextual [touches_ite, touches_mk, within_dev, devArea, elim_ite, within_irq,
      within_pc, touches_forAll, pcSeen_touches, hk]

theorem readAfter_touches {s : State} (r : Fin 18) (k : Key) (hk : Touches A s0 s) (a_all : ∀ a, A a = true) :
    Touches A s0 (State.readAfter s r k) := by
  unfold State.readAfter
  (repeat' split) <;> simp (maxDischargeDepth := 60) +contextual [touches_ite, touches_mk, within_all, touches_forAll,
      within_all, fresh_touches, injFollow_touches, monTaken_touches, pcLatch_touches, pcLook_touches, pcTakeLatch_touches,
      prbsInjFollow_touches, takeLock_touches, wr_touches, wrBit_touches, hk, a_all]

/-! ## OdApply -/

theorem effCfgErase_touches {s : State} (v : Nat) (bad : Bool) (hk : Touches A s0 s) :
    Touches A s0 (effCfgErase v bad s) := by
  simp (maxDischargeDepth := 60) [effCfgErase, touches_ite, touches_mk, within_dev, devArea, elim_ite, within_irq, within_pc,
      fresh_touches, modOd_touches, raise_touches, hk]

theorem effStatsClear_touches {s : State} (v : Nat) (hk : Touches A s0 s) (a_od : A .od = true) :
    Touches A s0 (effStatsClear v s) := by
  refine touches_ite _ (clrAll_touches _ hk fun x hx => ?_) hk
  simp only [List.mem_append, List.mem_map, List.mem_cons, List.not_mem_nil, or_false] at hx
  obtain ⟨i, -, rfl⟩ | rfl := hx
  · simp [within_dev, devArea, elim_ite, a_od]
  · exact a_od

theorem stored_touches {s : State} (k : Key) (v : Nat) (hk : Touches A s0 s) (h_k : Key.within A k = true) :
    Touches A s0 (stored k v s) := by
  unfold stored
  split <;> simp (maxDischargeDepth := 60) [touches_ite, touches_mk, within_dev, within_line, within_host, within_pg,
      within_port, within_loop, within_aux, within_og, within_chain, within_mb, within_pc, within_slot, within_pwr,
      within_irq, devArea, elim_ite, wr_touches, hk, h_k]

theorem applyLine_touches {s : State} (n : Fin 16) (k : Key) (v : Nat) (hk : Touches A s0 s) (a_ring : A .ring = true) (a_clk
    : A .clk = true) (a_lanes : A .lanes = true) (h_k : Key.within A k = true) :
    Touches A s0 (applyLine n k v s) := by
  unfold applyLine
  split <;> simp (maxDischargeDepth := 60) [touches_ite, touches_mk, within_dev, within_line, within_host, within_pg,
      within_port, within_loop, within_aux, within_og, within_chain, within_mb, within_pc, within_slot, within_pwr,
      within_irq, devArea, elim_ite, coefWritten_touches, effAdaptCtrl_touches, effCalCmd_touches, effCoCfg_touches,
      effCoClear_touches, effCoCmd_touches, effCtlePeak_touches, effFecClear_touches, effFecInject_touches, effFfeLen_touches,
      effFfeSnap_touches, effLineAdmin_touches, effLosThr_touches, effLqmClear_touches, effOutEn_touches,
      effPicotClear_touches, effPrbsChk_touches, effPrbsClear_touches, effPrbsGen_touches, effPrbsInject_touches,
      effSsClear_touches, effSsInterval_touches, effSsRetest_touches, effSwatchArm_touches, effTimeClear_touches,
      effTxFfeMain_touches, effTxOutMode_touches, effTxSkew_touches, effTxeqGo_touches, stored_touches, hk, a_ring, a_clk,
      a_lanes, h_k]

theorem applyHost_touches {s : State} (m : Fin 32) (k : Key) (v : Nat) (hk : Touches A s0 s) (a_ring : A .ring = true)
    (a_lanes : A .lanes = true) (h_k : Key.within A k = true) :
    Touches A s0 (applyHost m k v s) := by
  unfold applyHost
  split <;> simp (maxDischargeDepth := 60) [touches_ite, touches_mk, within_dev, within_line, within_host, within_pg,
      within_port, within_loop, within_aux, within_og, within_chain, within_mb, within_pc, within_slot, within_pwr,
      within_irq, devArea, elim_ite, effHostAdapt_touches, effHostLosThr_touches, effHostTaps_touches, effPrbsChk_touches,
      effPrbsClear_touches, effPrbsInject_touches, prbsInjFollow_touches, prbsReseed_touches, stored_touches, wr_touches, hk,
      a_ring, a_lanes, h_k]

theorem applyPg_touches {s : State} (g : Fin 4) (k : Key) (v : Nat) (hk : Touches A s0 s) (a_clk : A .clk = true) (a_lanes : A
    .lanes = true) (h_k : Key.within A k = true) :
    Touches A s0 (applyPg g k v s) := by
  unfold applyPg
  split <;> simp (maxDischargeDepth := 60) [touches_ite, touches_mk, within_dev, within_line, within_host, within_pg,
      within_port, within_loop, within_aux, within_og, within_chain, within_mb, within_pc, within_slot, within_pwr,
      within_irq, devArea, elim_ite, effHckoSrc_touches, effPgCfg_touches, effPgClkMode_touches, effPgFecClear_touches,
      effPgFecMode_touches, stored_touches, hk, a_clk, a_lanes, h_k]

theorem applyMgmt_touches {s : State} (r : Fin 18) (k : Key) (v : Nat) (hk : Touches A s0 s) (a_clk : A .clk = true) (a_mgmt :
    A .mgmt = true) (h_k : Key.within A k = true) :
    Touches A s0 (applyMgmt r k v s) := by
  unfold applyMgmt
  (repeat' split) <;> simp (maxDischargeDepth := 60) [touches_ite, touches_mk, within_dev, within_line, within_host,
      within_pg, within_port, within_loop, within_aux, within_og, within_chain, within_mb, within_pc, within_slot, within_pwr,
      within_irq, devArea, elim_ite, effAvailClear_touches, effEvrAck_touches, effIrqSwSet_touches, effLkForce_touches,
      effLkRelease_touches, effMasterRestart_touches, effMgmtMrst_touches, effPcEnable_touches, plFollow_touches,
      stored_touches, wr_touches, hk, a_clk, a_mgmt, h_k]

theorem applySec_touches {s : State} (r : Fin 18) (k : Key) (data : List Byte) (x : Nat) (hk : Touches A s0 s) (a_od : A .od =
    true) (a_ring : A .ring = true) (a_clk : A .clk = true) (a_ce : A .ce = true) (a_pwr : A .pwr = true) (a_mgmt : A .mgmt =
    true) (a_sec : A .sec = true) (a_bist : A .bist = true) (a_lanes : A .lanes = true) (h_k : Key.within A k = true) :
    Touches A s0 (applySec r k data x s) := by
  unfold applySec
  split <;> simp (maxDischargeDepth := 60) [touches_ite, touches_mk, within_dev, within_line, within_host, within_pg,
      within_port, within_loop, within_aux, within_og, within_chain, within_mb, within_pc, within_slot, within_pwr,
      within_irq, devArea, elim_ite, elim_ite, certWrite_touches, effAttestNonce_touches, effBistCntClear_touches,
      effBistStart_touches, effBistStop_touches, effDebugClose_touches, effDeviceOff_touches, effFwActivate_touches,
      effFwConfirm_touches, effLcAdvance_touches, effPwrCntClear_touches, effRepairFuse_touches, effRstLane_touches,
      effSvnCommit_touches, effTripTest_touches, effVendorDrop_touches, stored_touches, tokenSubmit_touches, wr_touches, hk,
      a_od, a_ring, a_clk, a_ce, a_pwr, a_mgmt, a_sec, a_bist, a_lanes, h_k]

theorem applyDev_touches {s : State} (r : Fin 18) (k : Key) (data : List Byte) (x : Nat) (hk : Touches A s0 s) (a_all : ∀ a, A
    a = true) :
    Touches A s0 (applyDev r k data x s) := by
  unfold applyDev
  split <;> simp (maxDischargeDepth := 60) [touches_ite, touches_mk, within_all, within_all, applyMgmt_touches,
      applySec_touches, ceApplySet_touches, effCfgErase_touches, effClkRefSrc_touches, effDiscSrc_touches,
      effLineLane_touches, effMonCalCmd_touches, effRclko_touches, effRingClear_touches, effStatsClear_touches,
      effSyncInEn_touches, effTimeRateAdj_touches, effTimeSet_touches, effTimeStep_touches, stored_touches, urgentReq_touches,
      hk, a_all]

theorem applySlot_touches {s : State} (y : Fin 2) (r : Fin 18) (data : List Byte) (x : Nat) (hk : Touches A s0 s) (a_sec : A
    .sec = true) :
    Touches A s0 (applySlot y r data x s) := by
  simp (maxDischargeDepth := 60) [applySlot, touches_ite, touches_mk, within_dev, devArea, elim_ite, within_irq, within_pc,
      within_slot, slotData_touches, slotFinish_touches, slotInit_touches, hk, a_sec]

theorem applyNow_touches {s : State} (r : Fin 18) (k : Key) (data : List Byte) (x : Nat) (hk : Touches A s0 s) (a_all : ∀ a, A
    a = true) :
    Touches A s0 (State.applyNow s r k data x) := by
  unfold State.applyNow
  (repeat' split) <;> simp (maxDischargeDepth := 60) [touches_ite, touches_mk, within_all, within_all, applyDev_touches,
      applyHost_touches, applyLine_touches, applyPg_touches, applySlot_touches, ceApplySet_touches, effIrqCause_touches,
      effIrqEnable_touches, effMbAck_touches, effMbCfg_touches, effPcReprogram_touches, effPortAdmin_touches,
      effPrbsChk_touches, effPrbsClear_touches, effPrbsGen_touches, effPrbsInject_touches, effPwrReq_touches, mbSend_touches,
      noteUnsaved_touches, stored_touches, hk, a_all]

theorem commitWrite_touches {s : State} (r : Fin 18) (e : Nat) (k : Key) (data : List Byte) (x : Nat) (hk : Touches A s0 s)
    (a_all : ∀ a, A a = true) :
    Touches A s0 (State.commitWrite s r e k data x) := by
  unfold State.commitWrite
  split <;> simp (maxDischargeDepth := 60) [touches_ite, touches_mk, within_all, within_all, applyNow_touches,
      dropWaiting_touches, modOd_touches, hk, a_all]

theorem boundaryPass_touches {s : State} (p : Bound → Bool) (hk : Touches A s0 s) (a_all : ∀ a, A a = true) :
    Touches A s0 (State.boundaryPass s p) := by
  simp (maxDischargeDepth := 60) +contextual [State.boundaryPass, touches_ite, touches_mk, within_all, touches_forAll,
      within_all, applyNow_touches, modOd_touches, hk, a_all]

theorem rxWrites_touches {s : State} (n : Fin 16) (hk : Touches A s0 s) (a_all : ∀ a, A a = true) :
    Touches A s0 (State.rxWrites s n) := by
  simp (maxDischargeDepth := 60) +contextual [State.rxWrites, touches_ite, touches_mk, within_all, touches_when, within_all,
      boundaryPass_touches, snapshot_touches, hk, a_all]

theorem txWrites_touches {s : State} (n : Fin 16) (hk : Touches A s0 s) (a_all : ∀ a, A a = true) :
    Touches A s0 (State.txWrites s n) := by
  simp (maxDischargeDepth := 60) [State.txWrites, touches_ite, touches_mk, within_all, within_all, boundaryPass_touches, hk,
      a_all]

theorem rxCodeword_touches {s : State} (n : Fin 16) (hk : Touches A s0 s) (a_all : ∀ a, A a = true) :
    Touches A s0 (State.rxCodeword s n) := by
  simp (maxDischargeDepth := 60) [State.rxCodeword, touches_ite, touches_mk, within_all, within_all, rxBoundary_touches,
      rxWrites_touches, wr_touches, hk, a_all]

theorem txCodeword_touches {s : State} (n : Fin 16) (hk : Touches A s0 s) (a_all : ∀ a, A a = true) :
    Touches A s0 (State.txCodeword s n) := by
  simp (maxDischargeDepth := 60) [State.txCodeword, touches_ite, touches_mk, within_all, within_all, coSettle_touches,
      injFollow_touches, prbsInjFollow_touches, prbsReseed_touches, txBoundary_touches, txWrites_touches, txeqAckDue_touches,
      wr_touches, hk, a_all]

theorem periodBoundary_touches {s : State} (g : Fin 4) (fills : List (Fin 8 × Nat)) (hk : Touches A s0 s) (a_all : ∀ a, A a =
    true) :
    Touches A s0 (State.periodBoundary s g fills) := by
  simp (maxDischargeDepth := 60) +contextual [State.periodBoundary, touches_ite, touches_mk, within_all, within_all,
      boundaryPass_touches, hostFills_touches, hk, a_all]

theorem gaugeBoundary_touches {s : State} (hk : Touches A s0 s) (a_all : ∀ a, A a = true) :
    Touches A s0 (State.gaugeBoundary s) := by
  simp (maxDischargeDepth := 60) [State.gaugeBoundary, touches_ite, touches_mk, within_all, within_all, boundaryPass_touches,
      gaugeTick_touches, hk, a_all]

theorem groupApply_touches {s : State} (b : BoundAt) (hk : Touches A s0 s) (a_all : ∀ a, A a = true) :
    Touches A s0 (State.groupApply s b) := by
  unfold State.groupApply
  split <;> simp (maxDischargeDepth := 60) [touches_ite, touches_mk, within_all, within_all, boundaryPass_touches,
      frameWrites_touches, rxWrites_touches, txWrites_touches, hk, a_all]

/-! ## Od -/

theorem takeSlot_touches {s : State} (r : Fin 18) (hk : Touches A s0 s) :
    Touches A s0 (State.takeSlot s r) := by
  simp (maxDischargeDepth := 60) [State.takeSlot, touches_ite, touches_mk, within_dev, devArea, elim_ite, within_irq,
      within_pc, modOd_touches, hk]

theorem twiLost_touches {s : State} (hk : Touches A s0 s) (a_od : A .od = true) :
    Touches A s0 (State.twiLost s) := by
  simp (maxDischargeDepth := 60) [State.twiLost, touches_ite, touches_mk, within_dev, devArea, elim_ite, within_irq,
      within_pc, incSat_touches, modOd_touches, hk, a_od]

theorem queueFull_touches {s : State} (r : Fin 18) (req : List Byte) (hk : Touches A s0 s) (a_ring : A .ring = true) :
    Touches A s0 (State.queueFull s r req) := by
  simp (maxDischargeDepth := 60) [State.queueFull, touches_ite, touches_mk, within_dev, devArea, elim_ite, within_irq,
      within_pc, within_port, answered_touches, deliver_touches, hk, a_ring]

theorem dropCached_touches {s : State} (r : Fin 18) (req : List Byte) (hk : Touches A s0 s) :
    Touches A s0 (State.dropCached s r req) := by
  simp (maxDischargeDepth := 60) [State.dropCached, touches_ite, touches_mk, within_dev, devArea, elim_ite, within_irq,
      within_pc, modReq_touches, hk]

theorem accept_touches {s : State} (r : Fin 18) (req : List Byte) (f : State → State) (hk : Touches A s0 s) (a_od : A .od =
    true) (a_ring : A .ring = true) (hf : ∀ z, Touches A s0 z → Touches A s0 (f z)) :
    Touches A s0 (State.accept s r req f) := by
  unfold State.accept
  (repeat' split) <;> simp (maxDischargeDepth := 60) [touches_ite, touches_mk, within_dev, devArea, elim_ite, within_irq,
      within_pc, within_port, answer_touches, deliver_touches, dropCached_touches, queueFull_touches, takeSlot_touches,
      taken_touches, twiLost_touches, hk, a_od, a_ring, hf]

theorem enqueue_touches {s : State} (r : Fin 18) (req : List Byte) (core : Bool) (hk : Touches A s0 s) :
    Touches A s0 (State.enqueue s r req core) := by
  simp (maxDischargeDepth := 60) [State.enqueue, touches_ite, touches_mk, within_dev, devArea, elim_ite, within_irq,
      within_pc, modReq_touches, hk]

theorem hold_touches {s : State} (r : Fin 18) (req : List Byte) (core : Bool) (x : Nat) (hk : Touches A s0 s) :
    Touches A s0 (State.hold s r req core x) := by
  simp (maxDischargeDepth := 60) [State.hold, touches_ite, touches_mk, within_dev, devArea, elim_ite, within_irq, within_pc,
      enqueue_touches, modOd_touches, hk]

theorem setTransfer_touches {s : State} (r : Fin 18) (t : Transfer) (hk : Touches A s0 s) :
    Touches A s0 (State.setTransfer s r t) := by
  simp (maxDischargeDepth := 60) [State.setTransfer, touches_ite, touches_mk, within_dev, devArea, elim_ite, within_irq,
      within_pc, modReq_touches, hk]

theorem endTransfer_touches {s : State} (r : Fin 18) (hk : Touches A s0 s) :
    Touches A s0 (State.endTransfer s r) := by
  unfold State.endTransfer
  (repeat' split) <;> simp (maxDischargeDepth := 60) [touches_ite, touches_mk, within_dev, devArea, elim_ite, within_irq,
      within_pc, setTransfer_touches, slotAbort_touches, hk]

theorem serveRead_touches {s : State} (r : Fin 18) (req : List Byte) (hk : Touches A s0 s) (a_all : ∀ a, A a = true) :
    Touches A s0 (State.serveRead s r req) := by
  simp only [State.serveRead]
  (repeat' split) <;> simp (maxDischargeDepth := 60) [touches_ite, touches_mk, within_all, within_all, answer_touches,
      answerNoCore_touches, answerOk_touches, answered_touches, endTransfer_touches, readAfter_touches, respond_touches,
      setTransfer_touches, hk, a_all]

theorem serveWrite_touches {s : State} (r : Fin 18) (req : List Byte) (e : Nat) (k : Key) (data : List Byte) (flags : Nat) (x
    : Nat) (hk : Touches A s0 s) (a_all : ∀ a, A a = true) :
    Touches A s0 (State.serveWrite s r req e k data flags x) := by
  simp only [State.serveWrite]
  (repeat' split) <;> simp (maxDischargeDepth := 60) [touches_ite, touches_mk, within_all, within_all, answer_touches,
      answerNoCore_touches, answerOk_touches, commitWrite_touches, countOwnerWrite_touches, markDirty_touches,
      tokenSubmit_touches, hk, a_all]

theorem stage_touches {s : State} (r : Fin 18) (req : List Byte) (ws : List (Key × List Byte)) (k : Key) (data : List Byte)
    (flags : Nat) (hk : Touches A s0 s) (a_od : A .od = true) (a_ring : A .ring = true) :
    Touches A s0 (State.stage s r req ws k data flags) := by
  unfold State.stage
  split <;> simp (maxDischargeDepth := 60) [touches_ite, touches_mk, within_dev, devArea, elim_ite, within_irq, within_pc,
      within_port, answer_touches, answerNoCore_touches, answerOk_touches, groupLost_touches, modReq_touches, hk, a_od,
      a_ring]

theorem writeRequest_touches {s : State} (r : Fin 18) (req : List Byte) (e : Nat) (x : Nat) (hk : Touches A s0 s) (a_all : ∀
    a, A a = true) :
    Touches A s0 (State.writeRequest s r req e x) := by
  simp only [State.writeRequest]
  (repeat' split) <;> simp (maxDischargeDepth := 60) +contextual [touches_ite, touches_mk, within_all, within_all,
      answer_touches, groupLost_touches, serveWrite_touches, stage_touches, hk, a_all]

theorem initRequest_touches {s : State} (r : Fin 18) (req : List Byte) (hk : Touches A s0 s) (a_od : A .od = true) (a_ring : A
    .ring = true) :
    Touches A s0 (State.initRequest s r req) := by
  simp only [State.initRequest]
  (repeat' split) <;> simp (maxDischargeDepth := 60) [touches_ite, touches_mk, within_dev, devArea, elim_ite, within_irq,
      within_pc, within_port, answer_touches, answerNoCore_touches, answerOk_touches, endTransfer_touches, groupLost_touches,
      setTransfer_touches, slotInit_touches, slotOpen_touches, hk, a_od, a_ring]

theorem downloadEnd_touches {s : State} (r : Fin 18) (req : List Byte) (k : Key) (size : Nat) (data : List Byte) (flags : Nat)
    (e : Nat) (x : Nat) (hk : Touches A s0 s) (a_all : ∀ a, A a = true) :
    Touches A s0 (State.downloadEnd s r req k size data flags e x) := by
  unfold State.downloadEnd
  (repeat' split) <;> simp (maxDischargeDepth := 60) [touches_ite, touches_mk, within_all, within_all, answer_touches,
      answerOk_touches, endTransfer_touches, groupLost_touches, serveWrite_touches, setTransfer_touches, slotFinish_touches,
      stage_touches, hk, a_all]

theorem segRequest_touches {s : State} (r : Fin 18) (req : List Byte) (e : Nat) (x : Nat) (hk : Touches A s0 s) (a_all : ∀ a,
    A a = true) :
    Touches A s0 (State.segRequest s r req e x) := by
  simp only [State.segRequest]
  (repeat' split) <;> simp (maxDischargeDepth := 60) [touches_ite, touches_mk, within_all, within_all, answer_touches,
      answerNoCore_touches, answerOk_touches, downloadEnd_touches, endTransfer_touches, setTransfer_touches, slotData_touches,
      hk, a_all]

theorem readSegRequest_touches {s : State} (r : Fin 18) (req : List Byte) (hk : Touches A s0 s) (a_od : A .od = true) (a_ring
    : A .ring = true) :
    Touches A s0 (State.readSegRequest s r req) := by
  unfold State.readSegRequest
  split <;> simp (maxDischargeDepth := 60) [touches_ite, touches_mk, within_dev, devArea, elim_ite, within_irq, within_pc,
      within_port, answer_touches, answerOk_touches, endTransfer_touches, setTransfer_touches, hk, a_od, a_ring]

theorem abortRequest_touches {s : State} (r : Fin 18) (req : List Byte) (hk : Touches A s0 s) (a_od : A .od = true) (a_ring :
    A .ring = true) :
    Touches A s0 (State.abortRequest s r req) := by
  unfold State.abortRequest
  split <;> simp (maxDischargeDepth := 60) [touches_ite, touches_mk, within_dev, devArea, elim_ite, within_irq, within_pc,
      within_port, answer_touches, answerOk_touches, endTransfer_touches, setTransfer_touches, hk, a_od, a_ring]

theorem openRequest_touches {s : State} (r : Fin 18) (req : List Byte) (hk : Touches A s0 s) (a_od : A .od = true) (a_ring : A
    .ring = true) :
    Touches A s0 (State.openRequest s r req) := by
  simp (maxDischargeDepth := 60) [State.openRequest, touches_ite, touches_mk, within_dev, devArea, elim_ite, within_irq,
      within_pc, within_port, answer_touches, answerOk_touches, modReq_touches, hk, a_od, a_ring]

theorem groupDrop_touches {s : State} (r : Fin 18) (hk : Touches A s0 s) :
    Touches A s0 (State.groupDrop s r) := by
  refine modReq_touches _ _ (touches_forAll _ _ hk fun w z hz => ?_)
  split
  · exact slotAbort_touches _ hz
  · exact hz

theorem cancelRequest_touches {s : State} (r : Fin 18) (req : List Byte) (hk : Touches A s0 s) (a_od : A .od = true) (a_ring :
    A .ring = true) :
    Touches A s0 (State.cancelRequest s r req) := by
  simp (maxDischargeDepth := 60) [State.cancelRequest, touches_ite, touches_mk, within_dev, devArea, elim_ite, within_irq,
      within_pc, within_port, answer_touches, answerOk_touches, groupDrop_touches, groupLost_touches, modReq_touches, hk,
      a_od, a_ring]

theorem groupCommit_touches {s : State} (r : Fin 18) (ws : List (Key × List Byte)) (x : Nat) (hk : Touches A s0 s) (a_all : ∀
    a, A a = true) :
    Touches A s0 (State.groupCommit s r ws x) := by
  simp (maxDischargeDepth := 60) +contextual [State.groupCommit, touches_ite, touches_mk, within_all, touches_forAll,
      within_all, applyNow_touches, modOd_touches, hk, a_all]

theorem closeRequest_touches {s : State} (r : Fin 18) (req : List Byte) (x : Nat) (hk : Touches A s0 s) (a_all : ∀ a, A a =
    true) :
    Touches A s0 (State.closeRequest s r req x) := by
  have hv : ∀ ws v z, s.tokenRefuses r ws x = some (v, z) → Touches A s0 z := fun ws v z h => by
    obtain ⟨w, -, hw⟩ := List.exists_of_findSome?_eq_some h
    dsimp only at hw
    split at hw
    · have e : z = (s.tokenSubmit r w.2 (!x.testBit 0)).2 := congrArg Prod.snd (Option.some.inj hw).symm
      rw [e]
      exact tokenSubmit_touches _ _ _ hk (a_all _) (a_all _) (a_all _) (a_all _) (a_all _) (a_all _)
    · cases hw
  have hd : ∀ z v, Touches A s0 z → Touches A s0 ((z.groupDrop r).answer r req v) := fun z v hz =>
    answer_touches _ _ _ _ (groupDrop_touches _ hz) (a_all _) (a_all _)
  unfold closeRequest
  split
  · exact answer_touches _ _ _ _ (modReq_touches _ _ hk) (a_all _) (a_all _)
  · split
    · exact answer_touches _ _ _ _ hk (a_all _) (a_all _)
    · refine touches_ite _ (hd _ _ hk) ?_
      dsimp only
      split
      · split
        · rename_i h
          exact hd _ _ (hv _ _ _ h)
        · exact answerOk_touches _ _ _ _ (groupCommit_touches _ _ _ (touches_forAll _ _ (modReq_touches _ _ hk) fun w z hz =>
            markDirty_touches _ _ _ (countOwnerWrite_touches _ hz)) a_all) (a_all _) (a_all _)
      · exact answerNoCore_touches _ _ hk (a_all _) (a_all _)
      · exact answer_touches _ _ _ _ hk (a_all _) (a_all _)
      · exact hd _ _ hk

theorem fenceMark_touches {s : State} (r : Fin 18) (hk : Touches A s0 s) :
    Touches A s0 (State.fenceMark s r) := by
  simp (maxDischargeDepth := 60) [State.fenceMark, touches_ite, touches_mk, within_dev, devArea, elim_ite, within_irq,
      within_pc, modReq_touches, hk]

theorem fenceRequest_touches {s : State} (r : Fin 18) (req : List Byte) (kind : Nat) (e : Nat) (hk : Touches A s0 s) (a_od : A
    .od = true) (a_ring : A .ring = true) :
    Touches A s0 (State.fenceRequest s r req kind e) := by
  simp (maxDischargeDepth := 60) +contextual [State.fenceRequest, touches_ite, touches_mk, within_dev, devArea, elim_ite,
      within_irq, within_pc, within_port, touches_when, answerOk_touches, modReq_touches, startSave_touches, hk, a_od, a_ring]

theorem fencesDone_touches {s : State} (r : Fin 18) (kind : Nat) (hk : Touches A s0 s) (a_od : A .od = true) (a_ring : A .ring
    = true) :
    Touches A s0 (State.fencesDone s r kind) := by
  simp (maxDischargeDepth := 60) +contextual [State.fencesDone, touches_ite, touches_mk, within_dev, devArea, elim_ite,
      within_irq, within_pc, within_port, touches_forAll, answer_touches, answerOk_touches, modReq_touches, hk, a_od, a_ring]

theorem describeRequest_touches {s : State} (r : Fin 18) (req : List Byte) (k : Key) (hk : Touches A s0 s) (a_od : A .od =
    true) (a_ring : A .ring = true) :
    Touches A s0 (State.describeRequest s r req k) := by
  unfold State.describeRequest
  split <;> simp (maxDischargeDepth := 60) [touches_ite, touches_mk, within_dev, devArea, elim_ite, within_irq, within_pc,
      within_port, answer_touches, answerOk_touches, hk, a_od, a_ring]

theorem serveHeld_touches {sn : State} (q : CoreReq) (x : Nat) (hk : Touches A s0 sn) (a_all : ∀ a, A a = true) :
    Touches A s0 (State.serveHeld sn q x) := by
  unfold State.serveHeld
  split <;> simp (maxDischargeDepth := 60) +contextual [touches_ite, touches_mk, within_all, touches_when, within_all,
      abortRequest_touches, cancelRequest_touches, closeRequest_touches, describeRequest_touches, fenceRequest_touches,
      initRequest_touches, openRequest_touches, pcEvent_touches, readSegRequest_touches, segRequest_touches,
      serveRead_touches, tokenCheck_touches, writeRequest_touches, hk, a_all]

theorem serveAt_touches {s : State} (q : CoreReq) (i : Nat) (x : Nat) (hk : Touches A s0 s) (a_all : ∀ a, A a = true) :
    Touches A s0 (State.serveAt s q i x) := by
  simp (maxDischargeDepth := 60) [State.serveAt, touches_ite, touches_mk, within_all, within_all, modOd_touches,
      serveHeld_touches, hk, a_all]

theorem pumpOne_touches {s : State} (hk : Touches A s0 s) (a_all : ∀ a, A a = true) :
    Touches A s0 (State.pumpOne s) := by
  simp only [State.pumpOne]
  (repeat' split) <;> simp (maxDischargeDepth := 60) [touches_ite, touches_mk, within_all, within_all, modOd_touches,
      serveAt_touches, hk, a_all]

theorem pump_touches {s : State} (x0 : Nat) (hk : Touches A s0 s) (a_all : ∀ a, A a = true) :
    Touches A s0 (State.pump x0 s) := by
  induction x0 generalizing s with
  | zero => exact hk
  | succ n ih => exact ih (pumpOne_touches hk a_all)

theorem pumpAll_touches {s : State} (hk : Touches A s0 s) (a_all : ∀ a, A a = true) :
    Touches A s0 (State.pumpAll s) := by
  simp (maxDischargeDepth := 60) [State.pumpAll, touches_ite, touches_mk, within_all, within_all, pump_touches, hk, a_all]

theorem coreArrive_touches {s : State} (r : Fin 18) (req : List Byte) (v : Verdict) (x : Nat) (hk : Touches A s0 s) (a_all : ∀
    a, A a = true) :
    Touches A s0 (State.coreArrive s r req v x) := by
  unfold State.coreArrive
  split <;> simp (maxDischargeDepth := 60) [touches_ite, touches_mk, within_all, within_all, answer_touches,
      answerNoCore_touches, coreWake_touches, hold_touches, pumpAll_touches, hk, a_all]

theorem fastArrive_touches {s : State} (r : Fin 18) (req : List Byte) (x : Nat) (hk : Touches A s0 s) (a_all : ∀ a, A a =
    true) :
    Touches A s0 (State.fastArrive s r req x) := by
  simp (maxDischargeDepth := 60) [State.fastArrive, touches_ite, touches_mk, within_all, within_all, hold_touches,
      serveHeld_touches, hk, a_all]

theorem coreCommit_touches {s : State} (x : Nat) (hk : Touches A s0 s) (a_all : ∀ a, A a = true) :
    Touches A s0 (State.coreCommit s x) := by
  unfold State.coreCommit
  split <;> simp (maxDischargeDepth := 60) [touches_ite, touches_mk, within_all, within_all, modOd_touches, pumpAll_touches,
      serveAt_touches, hk, a_all]

theorem saveEnd_touches {s : State} (ok : Bool) (hk : Touches A s0 s) (a_od : A .od = true) :
    Touches A s0 (State.saveEnd s ok) := by
  simp (maxDischargeDepth := 60) +contextual [State.saveEnd, touches_ite, touches_mk, within_dev, devArea, elim_ite,
      within_irq, within_pc, touches_when, touches_forAll, incSat_touches, modOd_touches, modReq_touches, pwrSaveEnd_touches,
      raise_touches, startSave_touches, hk, a_od]

theorem readArrive_touches {s : State} (r : Fin 18) (req : List Byte) (hk : Touches A s0 s) (a_all : ∀ a, A a = true) :
    Touches A s0 (State.readArrive s r req) := by
  simp (maxDischargeDepth := 60) +contextual [State.readArrive, touches_ite, touches_mk, within_all, within_all,
      accept_touches, coreArrive_touches, fastArrive_touches, hk, a_all]

theorem writeArrive_touches {s : State} (r : Fin 18) (req : List Byte) (hk : Touches A s0 s) (a_all : ∀ a, A a = true) :
    Touches A s0 (State.writeArrive s r req) := by
  simp (maxDischargeDepth := 60) +contextual [State.writeArrive, touches_ite, touches_mk, within_all, within_all,
      accept_touches, coreArrive_touches, fastArrive_touches, hk, a_all]

theorem initArrive_touches {s : State} (r : Fin 18) (req : List Byte) (hk : Touches A s0 s) (a_all : ∀ a, A a = true) :
    Touches A s0 (State.initArrive s r req) := by
  simp (maxDischargeDepth := 60) +contextual [State.initArrive, touches_ite, touches_mk, within_all, within_all,
      accept_touches, coreArrive_touches, fastArrive_touches, hk, a_all]

theorem segArrive_touches {s : State} (r : Fin 18) (req : List Byte) (x : Nat) (hk : Touches A s0 s) (a_all : ∀ a, A a = true) :
    Touches A s0 (State.segArrive s r req x) := by
  simp (maxDischargeDepth := 60) +contextual [State.segArrive, touches_ite, touches_mk, within_all, within_all,
      accept_touches, coreArrive_touches, fastArrive_touches, hk, a_all]

theorem fenceLocalArrive_touches {s : State} (r : Fin 18) (req : List Byte) (hk : Touches A s0 s) (a_od : A .od = true)
    (a_ring : A .ring = true) :
    Touches A s0 (State.fenceLocalArrive s r req) := by
  simp (maxDischargeDepth := 60) +contextual [State.fenceLocalArrive, touches_ite, touches_mk, within_dev, devArea, elim_ite,
      within_irq, within_pc, within_port, accept_touches, answer_touches, answerOk_touches, fenceMark_touches, hk, a_od,
      a_ring]

theorem fenceApplyArrive_touches {s : State} (r : Fin 18) (req : List Byte) (hk : Touches A s0 s) (a_od : A .od = true)
    (a_ring : A .ring = true) :
    Touches A s0 (State.fenceApplyArrive s r req) := by
  simp (maxDischargeDepth := 60) +contextual [State.fenceApplyArrive, touches_ite, touches_mk, within_dev, devArea, elim_ite,
      within_irq, within_pc, within_port, accept_touches, answer_touches, enqueue_touches, fenceMark_touches,
      fenceRequest_touches, hk, a_od, a_ring]

theorem fencePersistArrive_touches {s : State} (r : Fin 18) (req : List Byte) (hk : Touches A s0 s) (a_all : ∀ a, A a = true) :
    Touches A s0 (State.fencePersistArrive s r req) := by
  simp (maxDischargeDepth := 60) +contextual [State.fencePersistArrive, touches_ite, touches_mk, within_all, within_all,
      accept_touches, answer_touches, coreArrive_touches, fenceMark_touches, hk, a_all]

theorem coreOnlyArrive_touches {s : State} (r : Fin 18) (req : List Byte) (x : Nat) (hk : Touches A s0 s) (a_all : ∀ a, A a =
    true) :
    Touches A s0 (State.coreOnlyArrive s r req x) := by
  simp (maxDischargeDepth := 60) +contextual [State.coreOnlyArrive, touches_ite, touches_mk, within_all, within_all,
      accept_touches, coreArrive_touches, hk, a_all]

theorem odArrive_touches {s : State} (r : Fin 18) (req : List Byte) (x : Nat) (hk : Touches A s0 s) (a_all : ∀ a, A a = true) :
    Touches A s0 (State.odArrive s r req x) := by
  unfold State.odArrive
  (repeat' split) <;> simp (maxDischargeDepth := 60) +contextual [touches_ite, touches_mk, within_all, within_all,
      accept_touches, answer_touches, coreOnlyArrive_touches, fastArrive_touches, fenceApplyArrive_touches,
      fenceLocalArrive_touches, fencePersistArrive_touches, incSat_touches, initArrive_touches, readArrive_touches,
      segArrive_touches, writeArrive_touches, hk, a_all]

theorem ringDeliver_touches {s : State} (p : Fin 2) (bytes : List Byte) (void : Bool) (hk : Touches A s0 s) (a_all : ∀ a, A a
    = true) :
    Touches A s0 (State.ringDeliver s p bytes void) := by
  unfold State.ringDeliver
  (repeat' split) <;> simp (maxDischargeDepth := 60) +contextual [touches_ite, touches_mk, within_all, within_all,
      beaconAt_touches, claimJudge_touches, enumAt_touches, eventAck_touches, fresh_touches, odArrive_touches,
      rateSetAt_touches, resetAt_touches, ringArrival_touches, ringFrame_touches, hk, a_all]

end State

end Sys2Proof.Machine
end

