-- ==== Sys2Proof/Laws/Ops.lean ====
section
/-!
SUPPORT. What a register reads as after each shared operation, the records it leaves alone, and what the write of an entry
does: accepted, refused, not served.
-/

namespace Sys2Proof.Machine

/-! ## Areas of keys -/

@[simp] theorem area_dev (o x : Nat) : Key.area ⟨.dev, o, x⟩ = devArea o x := by
  unfold Key.area
  rfl
@[simp] theorem area_line (n : Fin 16) (o x : Nat) : Key.area ⟨.line n, o, x⟩ = some .lanes := by
  unfold Key.area
  rfl
@[simp] theorem area_host (n : Fin 32) (o x : Nat) : Key.area ⟨.host n, o, x⟩ = some .lanes := by
  unfold Key.area
  rfl
@[simp] theorem area_pg (n : Fin 4) (o x : Nat) : Key.area ⟨.pg n, o, x⟩ = some .lanes := by
  unfold Key.area
  rfl
@[simp] theorem area_port (n : Fin 2) (o x : Nat) : Key.area ⟨.port n, o, x⟩ = some .ring := by
  unfold Key.area
  rfl
@[simp] theorem area_loop (n : Fin 64) (o x : Nat) : Key.area ⟨.loop n, o, x⟩ = some .ce := by
  unfold Key.area
  rfl
@[simp] theorem area_aux (n : Fin 48) (o x : Nat) : Key.area ⟨.aux n, o, x⟩ = some .ce := by
  unfold Key.area
  rfl
@[simp] theorem area_og (n : Fin 16) (o x : Nat) : Key.area ⟨.og n, o, x⟩ = some .ce := by
  unfold Key.area
  rfl
@[simp] theorem area_chain (n : Fin 64) (o x : Nat) : Key.area ⟨.chain n, o, x⟩ = some .ce := by
  unfold Key.area
  rfl
@[simp] theorem area_mb (n : Fin 12) (o x : Nat) : Key.area ⟨.mb n, o, x⟩ = some .mgmt := by
  unfold Key.area
  rfl
@[simp] theorem area_pc (n : Fin 8) (o x : Nat) : Key.area ⟨.pc n, o, x⟩ = if x = 6 ∨ x = 8 then none else some .mgmt := by
  unfold Key.area
  rfl
@[simp] theorem area_slot (n : Fin 2) (o x : Nat) : Key.area ⟨.slot n, o, x⟩ = some .sec := by
  unfold Key.area
  rfl
@[simp] theorem area_pwr (u : Fin 22) (o x : Nat) :
    Key.area ⟨.pwr u, o, x⟩ = if u.val = 21 ∧ (x = 3 ∨ x = 4) then none else some .pwr := by
  unfold Key.area
  rfl
@[simp] theorem area_irq (g : Fin 32) (o x : Nat) : Key.area ⟨.irq g, o, x⟩ = if x = 2 then some .mgmt else none := by
  unfold Key.area
  rfl

theorem changes_iff {ks : List Key} {s t : State} : Changes ks s t ↔ ∀ k, k.area ≠ none → k ∉ ks → t.rd k = s.rd k := by
  unfold Changes SameBut
  constructor
  · intro h k ha hk
    refine h k ?_
    cases e : k.area with
    | none => exact absurd e ha
    | some a => simpa [e] using hk
  · intro h k hk
    simp only [Bool.or_eq_false_iff] at hk
    refine h k (fun e => by simp [e] at hk) (fun e => by simp [e] at hk)

theorem Changes.trans {ks : List Key} {a b c : State} (h1 : Changes ks a b) (h2 : Changes ks b c) : Changes ks a c :=
  fun k hk => (h2 k hk).trans (h1 k hk)

namespace State

variable (s : State) (k k' : Key)

/-! ## The forms of a register write -/

theorem rd_wrI (i : Int) : (s.wrI k i).rd k' = if k' = k then zx (bitsOf k) i % 2 ^ bitsOf k else s.rd k' := rd_wr _ _ _ _
theorem rd_wrBit (i : Nat) (b : Bool) :
    (s.wrBit k i b).rd k' = if k' = k then withBit (s.rd k) i b % 2 ^ bitsOf k else s.rd k' := rd_wr _ _ _ _
theorem rd_wrField (hi lo x : Nat) :
    (s.wrField k hi lo x).rd k' = if k' = k then withField (s.rd k) hi lo x % 2 ^ bitsOf k else s.rd k' := rd_wr _ _ _ _
theorem rd_addSat (n : Nat) :
    (s.addSat k n).rd k' = if k' = k then min (s.rd k + n) (2 ^ bitsOf k - 1) else s.rd k' := by
  have h : 0 < 2 ^ bitsOf k := Nat.two_pow_pos _
  rw [addSat, rd_wr, Nat.mod_eq_of_lt (by omega)]
theorem rd_incSat : (s.incSat k).rd k' = if k' = k then min (s.rd k + 1) (2 ^ bitsOf k - 1) else s.rd k' := rd_addSat _ _ _ _
theorem rd_incWrap : (s.incWrap k).rd k' = if k' = k then (s.rd k + 1) % 2 ^ bitsOf k else s.rd k' := rd_wr _ _ _ _

/-! ## Interrupts and records -/

theorem rd_summaryRise (g : Fin 32) : (s.summaryRise g).rd k = s.rd k := by
  unfold summaryRise
  split <;> rfl

theorem rd_followSummary (g : Fin 32) (f : State → State) : (s.followSummary g f).rd k = (f s).rd k := by
  unfold followSummary
  split
  · exact rd_summaryRise _ _ _
  · rfl

/-- An event sets its cause bit, and takes the time where the group's causes were all zero (R431). -/
theorem rd_raise (x : Src) :
    (s.raise x).rd k = if k = K.IRQ_CAUSE x.g then (s.rd (K.IRQ_CAUSE x.g) ||| 2 ^ x.b) % 2 ^ 16
      else if k = K.IRQ_FIRST x.g ∧ s.rd (K.IRQ_CAUSE x.g) = 0 then s.timeNow % 2 ^ 96 else s.rd k := by
  have h1 : bitsOf (K.IRQ_CAUSE x.g) = 16 := rfl
  have h2 : bitsOf (K.IRQ_FIRST x.g) = 96 := rfl
  unfold raise
  rw [rd_followSummary, rd_wr, h1]
  split
  · rfl
  · split
    · rename_i h0
      rw [rd_wr, h2]
      simp [h0]
    · rename_i h0
      simp [h0]

theorem rd_raise_ne (x : Src) (h1 : k ≠ K.IRQ_CAUSE x.g) (h2 : k ≠ K.IRQ_FIRST x.g) : (s.raise x).rd k = s.rd k := by
  rw [rd_raise, if_neg h1, if_neg (fun h => h2 h.1)]

/-- Every entry of an area reads after an event as before it. -/
theorem rd_raise_area (x : Src) (h : k.area ≠ none) : (s.raise x).rd k = s.rd k :=
  rd_raise_ne _ _ _ (fun e => h (by rw [e]; rfl)) (fun e => h (by rw [e]; rfl))

theorem raised_raise (x : Src) (h : x.b < 16) : Raised (s.raise x) x := by
  unfold Raised bit
  rw [rd_raise, if_pos rfl, Nat.testBit_mod_two_pow]
  simp [h, Nat.testBit_or]

/-- A cause bit that is set stays set. -/
theorem raised_keep {x : Src} (y : Src) (h : Raised s x) (hb : x.b < 16) : Raised (s.raise y) x := by
  unfold Raised bit at *
  rw [rd_raise]
  split
  · rename_i e
    have e' : y.g = x.g := by
      have := congrArg Key.blk e
      simpa [K.IRQ_CAUSE] using this.symm
    rw [Nat.testBit_mod_two_pow, Nat.testBit_or, e', h]
    simp [hb]
  · rw [if_neg (fun e => by simpa [K.IRQ_CAUSE, K.IRQ_FIRST] using e.1)]
    exact h

theorem raise_fields (x : Src) :
    (s.raise x).pending = s.pending ∧ (s.raise x).now = s.now ∧ (s.raise x).free = s.free ∧ (s.raise x).od = s.od ∧
    (s.raise x).clk = s.clk ∧ (s.raise x).time = s.time ∧ (s.raise x).mgmt = s.mgmt ∧ (s.raise x).pwr = s.pwr ∧
    (s.raise x).lanes = s.lanes ∧ (s.raise x).hosts = s.hosts ∧ (s.raise x).pgs = s.pgs ∧ (s.raise x).ce = s.ce ∧
    (s.raise x).sec = s.sec ∧ (s.raise x).bist = s.bist := by
  unfold raise followSummary summaryRise
  refine ⟨?_, ?_, ?_, ?_, ?_, ?_, ?_, ?_, ?_, ?_, ?_, ?_, ?_, ?_⟩ <;> (repeat' split) <;> first | rfl | (dsimp only [wr]; split <;> rfl)

@[simp] theorem raise_pending (x : Src) : (s.raise x).pending = s.pending := (raise_fields s x).1
@[simp] theorem raise_now (x : Src) : (s.raise x).now = s.now := (raise_fields s x).2.1
@[simp] theorem raise_free (x : Src) : (s.raise x).free = s.free := (raise_fields s x).2.2.1
@[simp] theorem raise_od (x : Src) : (s.raise x).od = s.od := (raise_fields s x).2.2.2.1
@[simp] theorem raise_clk (x : Src) : (s.raise x).clk = s.clk := (raise_fields s x).2.2.2.2.1
@[simp] theorem raise_time (x : Src) : (s.raise x).time = s.time := (raise_fields s x).2.2.2.2.2.1
@[simp] theorem raise_mgmt (x : Src) : (s.raise x).mgmt = s.mgmt := (raise_fields s x).2.2.2.2.2.2.1
@[simp] theorem raise_pwr (x : Src) : (s.raise x).pwr = s.pwr := (raise_fields s x).2.2.2.2.2.2.2.1
@[simp] theorem raise_lanes (x : Src) : (s.raise x).lanes = s.lanes := (raise_fields s x).2.2.2.2.2.2.2.2.1
@[simp] theorem raise_hosts (x : Src) : (s.raise x).hosts = s.hosts := (raise_fields s x).2.2.2.2.2.2.2.2.2.1
@[simp] theorem raise_pgs (x : Src) : (s.raise x).pgs = s.pgs := (raise_fields s x).2.2.2.2.2.2.2.2.2.2.1
@[simp] theorem raise_ce (x : Src) : (s.raise x).ce = s.ce := (raise_fields s x).2.2.2.2.2.2.2.2.2.2.2.1
@[simp] theorem raise_sec (x : Src) : (s.raise x).sec = s.sec := (raise_fields s x).2.2.2.2.2.2.2.2.2.2.2.2.1
@[simp] theorem raise_bist (x : Src) : (s.raise x).bist = s.bist := (raise_fields s x).2.2.2.2.2.2.2.2.2.2.2.2.2
@[simp] theorem raise_lane (x : Src) (n : Fin 16) : (s.raise x).lane n = s.lane n := by simp [lane]
@[simp] theorem raise_host (x : Src) (n : Fin 32) : (s.raise x).host n = s.host n := by simp [host]
@[simp] theorem raise_pg (x : Src) (n : Fin 4) : (s.raise x).pg n = s.pg n := by simp [pg]
@[simp] theorem raise_req (x : Src) (n : Fin 18) : (s.raise x).req n = s.req n := by simp [req]
@[simp] theorem raise_unit (x : Src) (n : Fin 22) : (s.raise x).unit n = s.unit n := by simp [unit]

@[simp] theorem raiseIn_eq (x : Src) (d : Key) (b : Nat) : s.raiseIn x d b = (s.wr d (s.rd d ||| 2 ^ b)).raise x := rfl

/-- A record leaves every register alone but `EVR_DROPPED`, which counts it when 32 wait (R427). -/
theorem rd_record (kind unit : Nat) (data : List Byte) :
    (s.record kind unit data).rd k =
      if k = K.EVR_DROPPED ∧ 32 ≤ s.mgmt.recQ.length then min (s.rd K.EVR_DROPPED + 1) (2 ^ 32 - 1) else s.rd k := by
  unfold record
  by_cases h : s.mgmt.recQ.length ≥ 32
  · rw [if_pos h, rd_incSat]
    by_cases e : k = K.EVR_DROPPED
    · simp only [e, if_true, ge_iff_le.mp h, and_self]
      rfl
    · simp [e]
  · have h' : ¬(k = K.EVR_DROPPED ∧ 32 ≤ s.mgmt.recQ.length) := fun e => h e.2
    rw [if_neg h, if_neg h']
    rfl

theorem rd_record_area (kind unit : Nat) (data : List Byte) (h : k.area ≠ none) : (s.record kind unit data).rd k = s.rd k := by
  rw [rd_record, if_neg (fun e => h (by rw [e.1]; rfl))]

theorem raised_record {x : Src} (kind unit : Nat) (data : List Byte) (h : Raised s x) : Raised (s.record kind unit data) x := by
  unfold Raised bit at *
  rw [rd_record, if_neg (fun e => by simpa [K.IRQ_CAUSE, K.EVR_DROPPED] using e.1)]
  exact h

/-- A record leaves the records of every unit alone but the recorder's queue. -/
theorem record_fields (kind unit : Nat) (data : List Byte) :
    let t := s.record kind unit data
    t.pending = s.pending ∧ t.now = s.now ∧ t.free = s.free ∧ t.od = s.od ∧ t.clk = s.clk ∧ t.time = s.time ∧ t.pwr = s.pwr ∧
    t.lanes = s.lanes ∧ t.hosts = s.hosts ∧ t.pgs = s.pgs ∧ t.ce = s.ce ∧ t.ring = s.ring ∧ t.sec = s.sec ∧ t.bist = s.bist := by
  unfold record
  dsimp only
  refine ⟨?_, ?_, ?_, ?_, ?_, ?_, ?_, ?_, ?_, ?_, ?_, ?_, ?_, ?_⟩ <;> split <;> rfl

@[simp] theorem record_pending (a b : Nat) (d : List Byte) : (s.record a b d).pending = s.pending := (record_fields s a b d).1
@[simp] theorem record_now (a b : Nat) (d : List Byte) : (s.record a b d).now = s.now := (record_fields s a b d).2.1
@[simp] theorem record_free (a b : Nat) (d : List Byte) : (s.record a b d).free = s.free := (record_fields s a b d).2.2.1
@[simp] theorem record_od (a b : Nat) (d : List Byte) : (s.record a b d).od = s.od := (record_fields s a b d).2.2.2.1
@[simp] theorem record_clk (a b : Nat) (d : List Byte) : (s.record a b d).clk = s.clk := (record_fields s a b d).2.2.2.2.1
@[simp] theorem record_time (a b : Nat) (d : List Byte) : (s.record a b d).time = s.time := (record_fields s a b d).2.2.2.2.2.1
@[simp] theorem record_pwr (a b : Nat) (d : List Byte) : (s.record a b d).pwr = s.pwr := (record_fields s a b d).2.2.2.2.2.2.1
@[simp] theorem record_lanes (a b : Nat) (d : List Byte) : (s.record a b d).lanes = s.lanes := (record_fields s a b d).2.2.2.2.2.2.2.1
@[simp] theorem record_hosts (a b : Nat) (d : List Byte) : (s.record a b d).hosts = s.hosts := (record_fields s a b d).2.2.2.2.2.2.2.2.1
@[simp] theorem record_pgs (a b : Nat) (d : List Byte) : (s.record a b d).pgs = s.pgs := (record_fields s a b d).2.2.2.2.2.2.2.2.2.1
@[simp] theorem record_ce (a b : Nat) (d : List Byte) : (s.record a b d).ce = s.ce := (record_fields s a b d).2.2.2.2.2.2.2.2.2.2.1
@[simp] theorem record_ring (a b : Nat) (d : List Byte) : (s.record a b d).ring = s.ring := (record_fields s a b d).2.2.2.2.2.2.2.2.2.2.2.1
@[simp] theorem record_sec (a b : Nat) (d : List Byte) : (s.record a b d).sec = s.sec := (record_fields s a b d).2.2.2.2.2.2.2.2.2.2.2.2.1
@[simp] theorem record_bist (a b : Nat) (d : List Byte) : (s.record a b d).bist = s.bist := (record_fields s a b d).2.2.2.2.2.2.2.2.2.2.2.2.2
@[simp] theorem record_lane (a b : Nat) (d : List Byte) (n : Fin 16) : (s.record a b d).lane n = s.lane n := by simp [lane]
@[simp] theorem record_host (a b : Nat) (d : List Byte) (n : Fin 32) : (s.record a b d).host n = s.host n := by simp [host]
@[simp] theorem record_pg (a b : Nat) (d : List Byte) (n : Fin 4) : (s.record a b d).pg n = s.pg n := by simp [pg]
@[simp] theorem record_req (a b : Nat) (d : List Byte) (n : Fin 18) : (s.record a b d).req n = s.req n := by simp [req]
@[simp] theorem record_unit (a b : Nat) (d : List Byte) (n : Fin 22) : (s.record a b d).unit n = s.unit n := by simp [unit]

/-! ## The write of an entry -/

/-- An accepted write: the effect on the state in which the request was counted, then the save note and the answer. -/
theorem write_ok {r : Fin 18} {k : Key} {data : List Byte} (eff : State → State) (h : s.accepts r k data = true) :
    s.write r k data eff = ((eff (s.admitted r k data)).noteUnsaved k).answered r .ok := by
  simp only [accepts, Bool.and_eq_true, Bool.not_eq_true', beq_iff_eq] at h
  unfold write admitted
  simp only [h.1.1, h.1.2, h.2, Bool.not_true, Bool.false_eq_true, if_false]

/-- A refused write has no effect but the request's own. -/
theorem write_refused {r : Fin 18} {k : Key} {data : List Byte} {a : Abort} (eff : State → State) (h : s.refuses r k data a = true) :
    s.write r k data eff = (s.counted k (.abort a)).answered r (.abort a) := by
  simp only [refuses, Bool.and_eq_true, Bool.not_eq_true', beq_iff_eq] at h
  unfold write
  simp only [h.1.1, h.1.2, h.2, Bool.not_true, Bool.false_eq_true, if_false]

/-- A write that must wait for the core, or for an earlier one, changes nothing but what the wake of the core changes. -/
theorem write_waits {r : Fin 18} {k : Key} (data : List Byte) (eff : State → State) (h1 : s.served r = true) (h2 : s.mustWake k = true) :
    s.write r k data eff = s.coreWake := by
  unfold write
  simp only [h1, h2, Bool.not_true, Bool.false_eq_true, if_false, if_true]

/-- A write of a requester that is not served changes nothing. -/
theorem write_unserved {r : Fin 18} {k : Key} (data : List Byte) (eff : State → State) (h : s.served r = false) :
    s.write r k data eff = s := by
  unfold write
  simp only [h, Bool.not_false, if_true]

@[simp] theorem rd_noteUnsaved : (s.noteUnsaved k).rd k' = s.rd k' := by
  unfold noteUnsaved
  split
  · split <;> rfl
  · rfl

@[simp] theorem rd_answered_ok (r : Fin 18) : (s.answered r .ok).rd k = s.rd k := rfl

/-- What touches no area leaves every entry of one alone. -/
theorem rd_of_touches {s t : State} (h : Touches (fun _ => false) s t) {k : Key} (ha : k.area ≠ none) : t.rd k = s.rd k := by
  refine h.regs k ?_
  unfold Key.within
  cases e : k.area with
  | none => exact absurd e ha
  | some a => rfl

/-- The request itself leaves every entry alone that has an area. -/
theorem rd_pcEvent_area (cls n : Nat) (h : k.area ≠ none) : (s.pcEvent cls n).rd k = s.rd k :=
  rd_of_touches (pcEvent_touches _ _ (Touches.refl _ s)) h
theorem rd_taken_area (h : k.area ≠ none) : s.taken.rd k = s.rd k := rd_of_touches (taken_touches (Touches.refl _ s)) h
theorem rd_coreWake_area (h : k.area ≠ none) : s.coreWake.rd k = s.rd k := rd_of_touches (coreWake_touches (Touches.refl _ s)) h
theorem rd_counted_area (v : Verdict) (h : k.area ≠ none) : (s.counted k' v).rd k = s.rd k :=
  rd_of_touches (counted_touches _ _ (Touches.refl _ s)) h

theorem rd_markDirty (r : Fin 18) (data : List Byte) : (s.markDirty r k' data).rd k = s.rd k := by
  unfold markDirty
  split
  · split <;> rfl
  · rfl

/-- The request itself touches no area. -/
theorem admitted_touches {A : Area → Bool} (r : Fin 18) (data : List Byte) : Touches A s (s.admitted r k' data) :=
  markDirty_touches _ _ _ (countOwnerWrite_touches _ (counted_touches _ _ (Touches.refl A s)))

/-- Before an accepted write has its effect, every entry of an area reads as before the request. -/
theorem rd_admitted (r : Fin 18) (data : List Byte) (h : k.area ≠ none) : (s.admitted r k' data).rd k = s.rd k :=
  rd_of_touches (admitted_touches s k' r data) h

@[simp] theorem admitted_lanes (r : Fin 18) (d : List Byte) : (s.admitted r k d).lanes = s.lanes :=
  ((admitted_touches s k r d).lanes (A := fun _ => false) rfl).1
@[simp] theorem admitted_hosts (r : Fin 18) (d : List Byte) : (s.admitted r k d).hosts = s.hosts :=
  ((admitted_touches s k r d).lanes (A := fun _ => false) rfl).2.1
@[simp] theorem admitted_pgs (r : Fin 18) (d : List Byte) : (s.admitted r k d).pgs = s.pgs :=
  ((admitted_touches s k r d).lanes (A := fun _ => false) rfl).2.2
@[simp] theorem admitted_clk (r : Fin 18) (d : List Byte) : (s.admitted r k d).clk = s.clk :=
  (admitted_touches s k r d).clk (A := fun _ => false) rfl
@[simp] theorem admitted_time (r : Fin 18) (d : List Byte) : (s.admitted r k d).time = s.time :=
  (admitted_touches s k r d).time (A := fun _ => false) rfl
@[simp] theorem admitted_ce (r : Fin 18) (d : List Byte) : (s.admitted r k d).ce = s.ce :=
  (admitted_touches s k r d).ce (A := fun _ => false) rfl
@[simp] theorem admitted_bist (r : Fin 18) (d : List Byte) : (s.admitted r k d).bist = s.bist :=
  (admitted_touches s k r d).bist (A := fun _ => false) rfl
@[simp] theorem admitted_now (r : Fin 18) (d : List Byte) : (s.admitted r k d).now = s.now :=
  (admitted_touches (A := fun _ => false) s k r d).now
@[simp] theorem admitted_pending (r : Fin 18) (d : List Byte) : (s.admitted r k d).pending = s.pending :=
  (admitted_touches (A := fun _ => false) s k r d).queue
@[simp] theorem admitted_lane (r : Fin 18) (d : List Byte) (n : Fin 16) : (s.admitted r k d).lane n = s.lane n := by simp [lane]
@[simp] theorem admitted_host (r : Fin 18) (d : List Byte) (n : Fin 32) : (s.admitted r k d).host n = s.host n := by simp [host]
@[simp] theorem admitted_pg (r : Fin 18) (d : List Byte) (n : Fin 4) : (s.admitted r k d).pg n = s.pg n := by simp [pg]

/-- What a register reads as after an accepted write is what the effect left in it. -/
theorem write_rd {r : Fin 18} {k : Key} {data : List Byte} (eff : State → State) (h : s.accepts r k data = true) (k' : Key) :
    (s.write r k data eff).rd k' = (eff (s.admitted r k data)).rd k' := by
  rw [write_ok s eff h, rd_answered_ok, rd_noteUnsaved]

/-- An accepted write changes what its effect changes. -/
theorem write_changes {r : Fin 18} {k : Key} {data : List Byte} {ks : List Key} (eff : State → State)
    (h : s.accepts r k data = true) (he : Changes ks (s.admitted r k data) (eff (s.admitted r k data))) :
    Changes ks s (s.write r k data eff) := by
  rw [changes_iff] at he ⊢
  intro k' ha hk
  rw [write_rd s eff h, he k' ha hk, rd_admitted _ _ _ _ _ ha]

/-- The answer of an accepted write is OK. -/
theorem write_outcome {r : Fin 18} {k : Key} {data : List Byte} (eff : State → State) (h : s.accepts r k data = true) :
    ((s.write r k data eff).req r).outcome = 0 := by
  rw [write_ok s eff h]
  simp [answered, Verdict.num]

/-- A cause bit that the effect of an accepted write sets is set after it. -/
theorem write_raised {r : Fin 18} {k : Key} {data : List Byte} (eff : State → State) (h : s.accepts r k data = true) {x : Src}
    (he : Raised (eff (s.admitted r k data)) x) : Raised (s.write r k data eff) x := by
  unfold Raised bit at *
  rw [write_rd s eff h]
  exact he

/-! ### Records after an accepted write -/

/-- Of the management record, a change leaves all but the counters' running values and the recorder's queue. -/
def MgmtRest (s t : State) : Prop := { t.mgmt with pcs := s.mgmt.pcs, recQ := s.mgmt.recQ } = s.mgmt

theorem MgmtRest.of_eq {s t : State} (h : t.mgmt = s.mgmt) : MgmtRest s t := by
  unfold MgmtRest
  rw [h]
theorem MgmtRest.trans {a b c : State} (h1 : MgmtRest a b) (h2 : MgmtRest b c) : MgmtRest a c := by
  unfold MgmtRest at *
  rw [← h1, ← h2]
theorem MgmtRest.step {a b c : State} (h1 : MgmtRest a b) (h2 : c.mgmt = b.mgmt) : MgmtRest a c := h1.trans (.of_eq h2)

theorem MgmtRest.forAll {α : Type} {a : State} (xs : List α) (f : α → State → State) (hf : ∀ x z, MgmtRest z (f x z)) :
    ∀ {z}, MgmtRest a z → MgmtRest a (forAll xs f z) := by
  induction xs with
  | nil => exact fun h => h
  | cons x xs ih => exact fun h => ih (h.trans (hf x _))

theorem MgmtRest.when_ {a z : State} (b : Bool) (f : State → State) (hf : ∀ z, MgmtRest z (f z)) (h : MgmtRest a z) :
    MgmtRest a (when_ b f z) := by
  unfold Machine.when_
  split
  · exact h.trans (hf z)
  · exact h

theorem pcAdd_mgmtRest (j : Fin 8) (n : Nat) : MgmtRest s (s.pcAdd j n) := by
  unfold pcAdd pcOverflow
  dsimp only
  split
  · rfl
  · have h0 : MgmtRest s ((s.fresh.2.modPc j fun p => { p with count := 0 }).wrBit (K.PC_STATUS j) 0 true) := rfl
    have h1 := MgmtRest.when_ (!(s.fresh.2.pc j).latch.isEmpty) (fun s => s.wrBit (K.PC_STATUS j) 1 true) (fun z => rfl) h0
    have h2 := h1.step (c := wrBit _ K.PC_OVF_CAUSE j.val true) rfl
    have h3 := MgmtRest.when_ ((s.fresh.2.rd (K.PC_CFG j)).testBit 31) (fun z => z.wr (K.PC_SAMPLE_ADDR j) s.fresh.1) (fun z => rfl) h2
    exact (MgmtRest.when_ ((s.fresh.2.rd (K.PC_CFG j)).testBit 30) (fun z => z.raise Src.PC_OVERFLOW)
      (fun z => .of_eq (raise_mgmt _ _)) h3).trans rfl

theorem pcEvent_mgmtRest (cls n : Nat) : MgmtRest s (s.pcEvent cls n) := by
  refine .forAll _ _ (fun j z => ?_) rfl
  dsimp only
  split
  · exact pcAdd_mgmtRest z j n
  · rfl

theorem record_mgmtRest (kind unit : Nat) (data : List Byte) : MgmtRest s (s.record kind unit data) := by
  unfold record
  split <;> rfl

theorem coreWake_mgmtRest : MgmtRest s s.coreWake := by
  have hs : MgmtRest s (s.slotReplaced 21) := by
    unfold slotReplaced
    split
    · rfl
    · exact .of_eq (raise_mgmt _ _)
  unfold coreWake
  split
  · exact hs.trans rfl
  · split
    · unfold bankCheck
      split
      · refine .forAll _ _ (fun b z => ?_) rfl
        unfold bankFail
        refine .forAll _ _ ?_ (MgmtRest.step (b := _) ?_ (raise_mgmt _ _))
        · exact fun u y => rfl
        · exact record_mgmtRest _ _ _ _
      · rfl
    · rfl
  · dsimp only
    split
    · exact hs
    · exact hs.trans rfl

/-- Before an accepted write has its effect, the management record is as before but for what counts the request. -/
theorem admitted_mgmtRest (r : Fin 18) (d : List Byte) : MgmtRest s (s.admitted r k d) := by
  have h1 : MgmtRest s (s.counted k .ok) := by
    unfold counted taken
    refine .when_ _ _ (fun z => pcEvent_mgmtRest z 0x09 1) ((pcEvent_mgmtRest s 0x08 1).trans ?_)
    unfold coreAsked
    split
    · rfl
    · exact coreWake_mgmtRest _
  have h2 : ∀ z : State, (z.countOwnerWrite r).mgmt = z.mgmt := fun z => by
    unfold countOwnerWrite
    split <;> rfl
  have h3 : ∀ z : State, (z.markDirty r k d).mgmt = z.mgmt := fun z => by
    unfold markDirty
    split
    · split <;> rfl
    · rfl
  exact (h1.step (h2 _)).step (h3 _)

@[simp] theorem admitted_lockOwner (r : Fin 18) (d : List Byte) : (s.admitted r k d).mgmt.lockOwner = s.mgmt.lockOwner := by
  have h := admitted_mgmtRest s k r d
  unfold MgmtRest at h
  have e := congrArg MgmtS.lockOwner h
  exact e
@[simp] theorem admitted_boxes (r : Fin 18) (d : List Byte) : (s.admitted r k d).mgmt.boxes = s.mgmt.boxes := by
  have h := admitted_mgmtRest s k r d
  unfold MgmtRest at h
  have e := congrArg MgmtS.boxes h
  exact e
@[simp] theorem admitted_gens (r : Fin 18) (d : List Byte) : (s.admitted r k d).mgmt.gens = s.mgmt.gens := by
  have h := admitted_mgmtRest s k r d
  unfold MgmtRest at h
  have e := congrArg MgmtS.gens h
  exact e

/-- After an accepted write every record but the dictionary's is what the effect left. -/
theorem write_fields {r : Fin 18} {k : Key} {data : List Byte} (eff : State → State) (h : s.accepts r k data = true) :
    let t := s.write r k data eff
    let u := eff (s.admitted r k data)
    t.pending = u.pending ∧ t.now = u.now ∧ t.free = u.free ∧ t.clk = u.clk ∧ t.time = u.time ∧ t.mgmt = u.mgmt ∧ t.pwr = u.pwr ∧
    t.lanes = u.lanes ∧ t.hosts = u.hosts ∧ t.pgs = u.pgs ∧ t.ce = u.ce ∧ t.ring = u.ring ∧ t.sec = u.sec ∧ t.bist = u.bist := by
  dsimp only
  rw [write_ok s eff h]
  generalize eff (s.admitted r k data) = u
  unfold noteUnsaved
  split
  · split <;> exact ⟨rfl, rfl, rfl, rfl, rfl, rfl, rfl, rfl, rfl, rfl, rfl, rfl, rfl, rfl⟩
  · exact ⟨rfl, rfl, rfl, rfl, rfl, rfl, rfl, rfl, rfl, rfl, rfl, rfl, rfl, rfl⟩

theorem write_pending {r : Fin 18} {k : Key} {data : List Byte} (eff : State → State) (h : s.accepts r k data = true) :
    (s.write r k data eff).pending = (eff (s.admitted r k data)).pending := (write_fields s eff h).1
theorem write_now {r : Fin 18} {k : Key} {data : List Byte} (eff : State → State) (h : s.accepts r k data = true) :
    (s.write r k data eff).now = (eff (s.admitted r k data)).now := (write_fields s eff h).2.1
theorem write_free {r : Fin 18} {k : Key} {data : List Byte} (eff : State → State) (h : s.accepts r k data = true) :
    (s.write r k data eff).free = (eff (s.admitted r k data)).free := (write_fields s eff h).2.2.1
theorem write_clk {r : Fin 18} {k : Key} {data : List Byte} (eff : State → State) (h : s.accepts r k data = true) :
    (s.write r k data eff).clk = (eff (s.admitted r k data)).clk := (write_fields s eff h).2.2.2.1
theorem write_time {r : Fin 18} {k : Key} {data : List Byte} (eff : State → State) (h : s.accepts r k data = true) :
    (s.write r k data eff).time = (eff (s.admitted r k data)).time := (write_fields s eff h).2.2.2.2.1
theorem write_mgmt {r : Fin 18} {k : Key} {data : List Byte} (eff : State → State) (h : s.accepts r k data = true) :
    (s.write r k data eff).mgmt = (eff (s.admitted r k data)).mgmt := (write_fields s eff h).2.2.2.2.2.1
theorem write_pwr {r : Fin 18} {k : Key} {data : List Byte} (eff : State → State) (h : s.accepts r k data = true) :
    (s.write r k data eff).pwr = (eff (s.admitted r k data)).pwr := (write_fields s eff h).2.2.2.2.2.2.1
theorem write_lanes {r : Fin 18} {k : Key} {data : List Byte} (eff : State → State) (h : s.accepts r k data = true) :
    (s.write r k data eff).lanes = (eff (s.admitted r k data)).lanes := (write_fields s eff h).2.2.2.2.2.2.2.1
theorem write_hosts {r : Fin 18} {k : Key} {data : List Byte} (eff : State → State) (h : s.accepts r k data = true) :
    (s.write r k data eff).hosts = (eff (s.admitted r k data)).hosts := (write_fields s eff h).2.2.2.2.2.2.2.2.1
theorem write_pgs {r : Fin 18} {k : Key} {data : List Byte} (eff : State → State) (h : s.accepts r k data = true) :
    (s.write r k data eff).pgs = (eff (s.admitted r k data)).pgs := (write_fields s eff h).2.2.2.2.2.2.2.2.2.1
theorem write_ce {r : Fin 18} {k : Key} {data : List Byte} (eff : State → State) (h : s.accepts r k data = true) :
    (s.write r k data eff).ce = (eff (s.admitted r k data)).ce := (write_fields s eff h).2.2.2.2.2.2.2.2.2.2.1
theorem write_ring {r : Fin 18} {k : Key} {data : List Byte} (eff : State → State) (h : s.accepts r k data = true) :
    (s.write r k data eff).ring = (eff (s.admitted r k data)).ring := (write_fields s eff h).2.2.2.2.2.2.2.2.2.2.2.1
theorem write_sec {r : Fin 18} {k : Key} {data : List Byte} (eff : State → State) (h : s.accepts r k data = true) :
    (s.write r k data eff).sec = (eff (s.admitted r k data)).sec := (write_fields s eff h).2.2.2.2.2.2.2.2.2.2.2.2.1
theorem write_bist {r : Fin 18} {k : Key} {data : List Byte} (eff : State → State) (h : s.accepts r k data = true) :
    (s.write r k data eff).bist = (eff (s.admitted r k data)).bist := (write_fields s eff h).2.2.2.2.2.2.2.2.2.2.2.2.2
theorem write_lane {r : Fin 18} {k : Key} {data : List Byte} (eff : State → State) (h : s.accepts r k data = true) (n : Fin 16) :
    (s.write r k data eff).lane n = (eff (s.admitted r k data)).lane n := by simp [lane, write_lanes s eff h]
theorem write_host {r : Fin 18} {k : Key} {data : List Byte} (eff : State → State) (h : s.accepts r k data = true) (n : Fin 32) :
    (s.write r k data eff).host n = (eff (s.admitted r k data)).host n := by simp [host, write_hosts s eff h]
theorem write_pg {r : Fin 18} {k : Key} {data : List Byte} (eff : State → State) (h : s.accepts r k data = true) (n : Fin 4) :
    (s.write r k data eff).pg n = (eff (s.admitted r k data)).pg n := by simp [pg, write_pgs s eff h]
theorem write_unit {r : Fin 18} {k : Key} {data : List Byte} (eff : State → State) (h : s.accepts r k data = true) (n : Fin 22) :
    (s.write r k data eff).unit n = (eff (s.admitted r k data)).unit n := by simp [unit, write_pwr s eff h]

/-! ## Bits -/

theorem and_mod2 (v w : Nat) : (v &&& w) % 2 = 1 ↔ (v % 2 = 1 ∧ w % 2 = 1) := by
  have h := Nat.testBit_and v w 0
  simp only [Nat.testBit_zero] at h
  simpa using h
theorem testBit_sub_and (j : Nat) : ∀ v w : Nat, (v - (v &&& w)).testBit j = (v.testBit j && !w.testBit j) := by
  induction j with
  | zero =>
    intro v w
    have h := and_mod2 v w
    have hl : v &&& w ≤ v := Nat.and_le_left
    simp only [Nat.testBit_zero]
    generalize v &&& w = a at h hl
    have e : (v - a) % 2 = 1 ↔ (v % 2 = 1 ∧ ¬ w % 2 = 1) := by omega
    by_cases h1 : v % 2 = 1 <;> by_cases h2 : w % 2 = 1 <;> simp [e, h1, h2]
  | succ j ih =>
    intro v w
    have h := and_mod2 v w
    have hl : v &&& w ≤ v := Nat.and_le_left
    have hd : (v &&& w) / 2 = v / 2 &&& w / 2 := Nat.and_div_two
    have e : (v - (v &&& w)) / 2 = v / 2 - (v / 2 &&& w / 2) := by rw [← hd]; omega
    rw [Nat.testBit_succ, e, ih, Nat.testBit_succ, Nat.testBit_succ]
/-- Clearing and setting a bit, as an operation on bits. -/
theorem withBit_false (v i : Nat) : withBit v i false = v - (v &&& 2 ^ i) := by
  unfold withBit
  have hb : v &&& 2 ^ i = if v.testBit i then 2 ^ i else 0 := by
    rw [Nat.and_two_pow]; cases v.testBit i <;> simp
  cases hv : v.testBit i <;> simp [hb, hv]
theorem and_add_or (v w : Nat) : ∀ _ : v &&& w = 0, v + w = v ||| w := by
  induction v using Nat.strongRecOn generalizing w with
  | _ v ih =>
    intro h
    by_cases hv : v = 0
    · subst hv; simp
    · have h2 := and_mod2 v w
      have hd : (v &&& w) / 2 = v / 2 &&& w / 2 := Nat.and_div_two
      have ho : (v ||| w) / 2 = v / 2 ||| w / 2 := Nat.or_div_two
      have hm : (v ||| w) % 2 = 1 ↔ (v % 2 = 1 ∨ w % 2 = 1) := by
        have h := Nat.testBit_or v w 0
        simp only [Nat.testBit_zero] at h
        simpa using h
      have := ih (v / 2) (by omega) (w / 2) (by rw [← hd, h])
      rw [h] at h2
      simp at h2
      omega
theorem withBit_true (v i : Nat) : withBit v i true = v ||| 2 ^ i := by
  unfold withBit
  cases hv : v.testBit i <;> simp
  · apply and_add_or; rw [Nat.and_two_pow, hv]; simp
  · apply Nat.eq_of_testBit_eq; intro j
    simp only [Nat.testBit_or, Nat.testBit_two_pow]
    by_cases h : i = j
    · subst h; simp [hv]
    · simp [h]
/-- What the bits of a number are after one is written. -/
theorem testBit_withBit (v i j : Nat) (b : Bool) : (withBit v i b).testBit j = if j = i then b else v.testBit j := by
  cases b
  · rw [withBit_false, testBit_sub_and, Nat.testBit_two_pow]
    by_cases h : j = i
    · subst h; simp
    · simp [h, Ne.symm h]
  · rw [withBit_true, Nat.testBit_or, Nat.testBit_two_pow]
    by_cases h : j = i
    · subst h; simp
    · simp [h, Ne.symm h]
/-- What a bit reads as after a bit was written. -/
theorem bit_wrBit (s : State) (k k' : Key) (i j : Nat) (b : Bool) : (s.wrBit k i b).bit k' j = if k' = k then decide (j < bitsOf k) && (if j = i then b else s.bit k j) else s.bit k' j := by
  unfold bit
  rw [rd_wrBit]
  split
  · rw [Nat.testBit_mod_two_pow, testBit_withBit]
  · rfl
theorem bit_of_rd {s t : State} {k : Key} (h : t.rd k = s.rd k) (j) : t.bit k j = s.bit k j := by unfold bit; rw [h]
end State

end Sys2Proof.Machine
end

