-- ==== Sys2Proof/Tests/Slice0.lean ====
section
/-!
SUPPORT. Tests: ill-formed commands that the check refuses; the worked examples of the spec, whose numbers stand in spec/; and for each
statement with hypotheses a witness that meets the hypotheses of each of its clauses.
-/

set_option maxRecDepth 20000

open Sys2Proof Sys2Proof.Machine

namespace Sys2Proof.Tests

/-- The device in service: powered, its root valid, its synthesizers locked, the core serving. -/
def up : State :=
  let s := State.reset.wr K.OD_CORE_STATE 0
  { s with pwr := { s.pwr with supply := .up, fromPor := false, loadDue := false, lockedOnce := true }, clk := { s.clk with rootValid := true, lsynRuns := true } }

/-- As `up`, every requester with the Vendor role, host 1 the owner. -/
def upV : State := ((up.wr K.SEC_VENDOR_HOLDERS 0x3FFFF).wr K.RING_OWNER_EPOCH 1).wr K.RING_OWNER_HOST 1

/-- As `up`, the two-wire interface with its role, an intrusive debug session open. -/
def upT : State := (up.wr K.OD_TWI_ROLE 2).wr K.SEC_DEBUG_STATE 0x21

/-- The state that a command leaves. -/
def after (s : State) (c : Instr) : State :=
  match Sys2Proof.Machine.exec c s with
  | .next t => t
  | _ => s

/-! ## Ill-formed commands -/

def zeros (n : Nat) : List Byte := List.replicate n 0
def zcorr (n : Nat) : List SliceCorr := List.replicate n ⟨0, 0, 0⟩
def head : MsgHead := ⟨0, 0, 0, 0⟩
theorem test_wf_write : Instr.wf (.write 1 0 0x4022 1 (zeros 249)) = false := by decide
theorem test_wf_write_seg_empty : Instr.wf (.writeSeg 1 0 0 0 [] 0) = false := by decide
theorem test_wf_write_seg_long : Instr.wf (.writeSeg 1 0 0 0 (zeros 253) 0) = false := by decide
theorem test_wf_mb_data : Instr.wf (.mbDataWrite 1 0 (zeros 65)) = false := by decide
theorem test_wf_nonce : Instr.wf (.secAttestNonce 1 (zeros 31)) = false := by decide
theorem test_wf_token : Instr.wf (.secToken 1 (zeros 3436) true) = false := by decide
theorem test_wf_dbg_token : Instr.wf (.dbgToken (zeros 3438) true) = false := by decide
theorem test_wf_adapt : Instr.wf (.adaptUpdate 0 [[], [], [], []]) = false := by decide
theorem test_wf_adapt_count : Instr.wf (.adaptUpdate 0 []) = false := by decide
theorem test_wf_tx_epoch : Instr.wf (.txEpochBoundary 0 []) = false := by decide
theorem test_wf_codeword_rx : Instr.wf (.codewordBoundaryApply 0 true [true] []) = false := by decide
theorem test_wf_codeword_tx : Instr.wf (.codewordBoundaryApply 0 false [] []) = false := by decide
theorem test_wf_host_period : Instr.wf (.hostPeriodBoundary 0 (List.replicate 9 0)) = false := by decide
theorem test_wf_txeq_req : Instr.wf (.txeqReq 0 head 0 0 []) = false := by decide
theorem test_wf_txeq_ack : Instr.wf (.txeqAck 0 head 0 0 []) = false := by decide
theorem test_wf_pilot : Instr.wf (.picotPilotPair 0 0 0 (List.replicate 256 0)) = false := by decide
theorem test_wf_payload_empty : Instr.wf (.picotPayloadEnd 0 [] 0 0 0 0) = false := by decide
theorem test_wf_payload_long : Instr.wf (.picotPayloadEnd 0 (zeros 256) 0 0 0 0) = false := by decide
theorem test_wf_lane_cal : Instr.wf (.laneCalComplete 0 (zcorr 16)) = false := by decide
theorem test_wf_ring_short : Instr.wf (.ringFrameArrival 0 (zeros 9) 0) = false := by decide
theorem test_wf_ring_long : Instr.wf (.ringFrameArrival 0 (zeros 523) 0) = false := by decide
theorem test_wf_synth : Instr.wf (.synthLock (List.replicate 17 0)) = false := by decide
theorem test_wf_malformed : Instr.wf (.malformedRequest 1 (zeros 257) false) = false := by decide
theorem test_wf_bypass : Instr.wf (.bypass 0x02 []) = false := by decide
theorem test_wf_register_write : Instr.wf (.registerWrite 1 0x4022 1 (zeros 3670017) 0) = false := by
  simp only [Instr.wf, zeros, List.length_replicate]
  decide

/-! ## Worked examples of the spec -/

/-- R238: CRC-32 as Ethernet gives 0xFC891918 on "123456789" in this bit order, CRC-16 gives 0x29B1. -/
theorem test_crc32_check : crc32 [0x31, 0x32, 0x33, 0x34, 0x35, 0x36, 0x37, 0x38, 0x39] = 0xFC891918 := by decide +kernel
theorem test_crc16_check : crc16 [0x31, 0x32, 0x33, 0x34, 0x35, 0x36, 0x37, 0x38, 0x39] = 0x29B1 := by decide +kernel
/-- Chapter 8: the type byte of a KEEPALIVE in 4-GFSK. -/
theorem test_type_symbols : picotMap 0 (bitsOut [0x42]) = [-1, -3, -3, 3] := by decide
/-- Table 8-4: with 5 payload bytes, 60 data symbols, one pilot pair, 118 symbols. -/
theorem test_packet_length : (picotData 0 5, pilotPairs 60, picotSymbols 0 5) = (60, 1, 118) := by decide
theorem test_burst_length : (picotBurst 0 9 ⟨0x42, 1, [1, 2, 3, 4, 5]⟩).length = 118 := by decide +kernel
/-- Table 12-2: K28.5 at either running disparity. -/
theorem test_k28_5_neg : (RingK.k28_5.group false).1 = 0b0011111010 := by decide
theorem test_k28_5_pos : (RingK.k28_5.group true).1 = 0b1100000101 := by decide

/-- Chapter 4, erasure decoding: the word sent is the reference vector of R105. -/
def sentWord : List Byte := zeros 67 ++ [0x01, 0x0F, 0x36, 0x78, 0x40]
/-- The word received: bytes 66, 68 and 70 differ. -/
def gotWord : List Byte := zeros 66 ++ [0x10, 0x01, 0x0B, 0x36, 0x79, 0x40]
theorem test_reference_vector : rsEncode (zeros 67 ++ [0x01]) = sentWord := by decide +kernel
theorem test_syndromes : (List.range 4).map (syndrome gotWord) = [0x15, 0x18, 0x0A, 0xBA] := by decide +kernel
theorem test_erasure_poly : gammaPoly ([66, 68].map locator) = [1, 0x28, 0x1D] := by decide +kernel
theorem test_free_syndromes : (List.range 2).map (modSyndrome [0x15, 0x18, 0x0A, 0xBA] [1, 0x28, 0x1D]) = [0x49,
    0x92] := by decide +kernel
theorem test_decode_erased :
    (match rsDecode gotWord [68, 66] with | .corrected fix => applyFix gotWord fix | _ => []) = sentWord := by decide +kernel
/-- The marks: of the candidates 15, 66 and 68 the two of lowest reliability. -/
theorem test_erasure_marks :
    erasureMarks (List.replicate 60 15 ++ [8, 3, 10, 12] ++ List.replicate 200 15 ++ [9, 2, 11, 12] ++ List.replicate 4 15 ++ [14, 7, 1,
        13] ++
      List.replicate 4 15 ++ [12, 10, 13, 6] ++ List.replicate 4 15) 3 2 = [68, 66] := by decide +kernel

/-- Chapter 3, level correction: the new set passes R78; chapter 13: with -700 in place of -251 it does not. -/
def levels (a b c d : Int) : State :=
  (((up.wrI (K.LINE_TX_LEVEL 3 0) a).wrI (K.LINE_TX_LEVEL 3 1) b).wrI (K.LINE_TX_LEVEL 3 2) c).wrI (K.LINE_TX_LEVEL 3 3) d
theorem test_levels_pass : levelsOk 3 (levels (-814) (-251) 253 822) = true := by decide
theorem test_levels_close : levelsOk 3 (levels (-814) (-700) 253 822) = false := by decide
/-- Chapter 13: the bytes of the first WRITE of the exchange, which is answered OK. -/
theorem test_write_bytes : reqAt 2 0x21 0x40E2 1 (be 2 0xFCD2) = [0x02, 0x21, 0x40, 0xE2, 0x01, 0xFC, 0xD2] := by decide
theorem test_write_ok : ((after upV (.write 1 0x21 0x40E2 1 [0xFC, 0xD2])).req 1).outcome = 0 := by decide
/-- Chapter 2, reading the taps: 0xFEC3 is -317. -/
theorem test_tap_raw : sx 16 0xFEC3 = -317 := by decide

/-- Chapter 17: the ROM test takes 16,392 cycles, and 16,388 of them have run when the boot cuts it. -/
theorem test_rom_expected : Bist.expected .rom = 16392 := by decide
theorem test_rom_cycles : State.bistCycles { State.reset with now := 4 * 16388 } .rom = 16388 := by decide

/-! ## Witnesses of the statements' hypotheses -/

def st_LockRegisters_2 : State := up.modMgmt fun x => { x with lockOwner := x.lockOwner.set 1 0 }
def st_LockRegisters_3 : State := up.modMgmt fun x => { x with lockOwner := x.lockOwner.set 31 3 }
def st_LockRegisters_8 : State := upV.modMgmt fun x => { x with lockOwner := x.lockOwner.set 0 0 }
theorem wit_LockRegisters :
    (∃ (s : State) (m : Fin 19) (k : Fin 32), s.lockOwner k = 0xFF) ∧
    (∃ (s : State) (m : Fin 19) (k : Fin 32), s.lockOwner k ≠ 0xFF) ∧
    (∃ (s : State) (r : Fin 18) (k : Fin 32), s.accepts r (K.LK_RELEASE k.val) (be 1 1) = true) ∧
    (∃ (s : State) (k : Fin 32), s.lockOwner k = 18) ∧
    (∃ (s : State) (k : Fin 32) (v : BitVec 8), s.lockOwner k ≠ 18) ∧
    (∃ (s : State) (r : Fin 18) (k : Fin 32), s.accepts r (K.LK_RELEASE k.val) (be 1 0) = true) ∧
    (∃ (s : State) (r : Fin 18) (k : Fin 32), s.accepts r (K.LK_RELEASE k.val) (be 1 1) = true) ∧
    (∃ (s : State) (r : Fin 18) (k : Fin 32), s.accepts r (K.LK_FORCE k.val) (be 1 1) = true ∧ s.lockOwner k ≠ 0xFF) ∧
    (∃ (s : State) (r : Fin 18) (k : Fin 32), s.accepts r (K.LK_FORCE k.val) (be 1 1) = true ∧ s.lockOwner k = 0xFF) ∧
    (∃ (s : State) (r : Fin 18) (k : Fin 32), s.accepts r (K.LK_FORCE k.val) (be 1 0) = true) :=
  ⟨⟨up, 1, 1, by decide⟩,
   ⟨st_LockRegisters_2, 1, 1, by decide⟩,
   ⟨st_LockRegisters_3, 3, 31, by decide⟩,
   ⟨up.setLock 1 18, 1, by decide⟩,
   ⟨up, 1, 62, by decide⟩,
   ⟨up, 1, 1, by decide⟩,
   ⟨upV.setLock 1 1, 1, 1, by decide⟩,
   ⟨st_LockRegisters_8, 1, 0, by decide, by decide⟩,
   ⟨upV, 1, 1, by decide, by decide⟩,
   ⟨upV, 1, 1, by decide⟩⟩

theorem wit_Mailboxes :
    (∃ (s : State) (r : Fin 18) (c : Fin 12) (v : BitVec 16), s.accepts r (K.MB_CFG c) (be 2 v.toNat) = true) ∧
    (∃ (s : State) (r : Fin 18) (c : Fin 12) (data : List Byte), s.accepts r (K.MB_DATA c) data = true) ∧
    (∃ (s : State) (c : Fin 12) (data : List Byte), s.mbCfgSender c = 18 ∧ mbFull s c = false ∧ data.length ≤ 64) ∧
    (∃ (s : State) (c : Fin 12), s.mbCfgReceiver c = 18 ∧ mbFull s c = true) ∧
    (∃ (s : State) (c : Fin 12) (data : List Byte), (s.mbCfgSender c ≠ 18 ∨ mbFull s c = true ∨ 64 < data.length)) ∧
    (∃ (s : State) (c : Fin 12) (v : BitVec 8), (s.mbCfgReceiver c ≠ 18 ∨ mbFull s c = false ∨ v ≠ 1)) ∧
    (∃ (s : State) (r : Fin 18) (c : Fin 12), s.accepts r (K.MB_ACK c) (be 1 1) = true) ∧
    (∃ (s : State) (r : Fin 18) (c : Fin 12), s.accepts r (K.MB_ACK c) (be 1 0) = true) :=
  ⟨⟨upV, 1, 1, 1, by decide⟩,
   ⟨upV, 1, 0, [161], by decide⟩,
   ⟨up, 1, [0, 1, 2, 3, 4, 5, 6, 7, 8, 9, 10, 11, 12, 13, 14, 15], by decide, by decide, by decide⟩,
   ⟨up.wr (K.MB_STATUS 0) 1, 0, by decide, by decide⟩,
   ⟨upV, 1, List.replicate 65 0, by decide⟩,
   ⟨upV, 1, 1, by decide⟩,
   ⟨upV.wr (K.MB_STATUS 1) 1, 1, 1, by decide⟩,
   ⟨up, 1, 1, by decide⟩⟩

theorem wit_PerformanceCounters :
    (∃ (s : State) (r : Fin 18) (v : BitVec 8), s.accepts r K.PC_ENABLE (be 1 v.toNat) = true) ∧
    (∃ (s : State) (r : Fin 18) (k : Fin 8) (w : Fin 4) (v : BitVec 64), w.val ≠ 3 ∧
        s.accepts r ⟨.pc k, 0, w.val + 1⟩ (be 4 v.toNat) = true) ∧
    (∃ (s : State) (r : Fin 18) (k : Fin 8) (v : BitVec 64), s.accepts r (K.PC_PRESET k) (be 8 v.toNat) = true) ∧
    (∃ (s : State) (k : Fin 8) (addr : BitVec 32), s.pcHidden k = true) ∧
    (∃ (s : State) (k : Fin 8) (addr : BitVec 32), s.pcHidden k = false) :=
  ⟨⟨upV, 1, 255, by decide⟩,
   ⟨upV, 1, 1, 1, 1, by decide, by decide⟩,
   ⟨upV, 1, 1, 0, by decide⟩,
   ⟨(up.wr K.PC_ENABLE 2).wr (K.PC_CFG 1) 2, 1, 3513342192, by decide⟩,
   ⟨up, 1, 4294967295, by decide⟩⟩

theorem wit_EventRecorder :
    (∃ (s : State) (e : Rec) (rest : List Rec) (slot : Nat), s.mgmt.recQ = e :: rest ∧ s.rd K.EVR_HEAD < 2 ^ 32 ∧
        slot = (if s.mgmt.firstLap = true ∧
        s.rd K.EVR_HEAD < 256 then s.rd K.EVR_HEAD else 256 + (s.rd K.EVR_HEAD + 2 ^ 32 - 256) % 2 ^ 32 % 768)) ∧
    (∃ (s : State), s.mgmt.recQ = []) ∧
    (∃ (s : State) (r : Fin 18) (v : BitVec 32), s.accepts r K.EVR_ACK (be 4 v.toNat) = true) :=
  ⟨⟨up.modMgmt fun x => { x with recQ := [{ cc := 6472, time := 0, kind := 487218053943489, unit := 0, data := [0, 66, 122, 173] }] },
      { cc := 6472, time := 0, kind := 487218053943489, unit := 0, data := [0, 66, 122, 173] }, [], _, by decide, by decide, rfl⟩,
   ⟨up, by decide⟩,
   ⟨upV, 1, 0, by decide⟩⟩

theorem wit_InterruptTree :
    (∃ (s : State) (r : Fin 18) (g : Fin 32) (v : BitVec 16), s.accepts r (K.IRQ_CAUSE g) (be 2 v.toNat) = true) ∧
    (∃ (s : State) (r : Fin 18) (v : BitVec 8), s.accepts r K.IRQ_SW_SET (be 1 v.toNat) = true) :=
  ⟨⟨upV, 1, 1, 0, by decide⟩,
   ⟨upV, 1, 1, by decide⟩⟩

theorem wit_CoreLevelsAndResets :
    (∃ (s : State) (a b : Nat), s.mgmt.plChange = some (a, b) ∧ b < 3) ∧
    (∃ (s : State), s.mgmt.plChange = none) ∧
    (∃ (s : State) (load : BitVec 8), s.plAuto = true ∧ (50 < load.toNat ∨ (∃ r, ∃ q ∈ (s.req r).queue, q.at_ + 351562 < s.now)) ∧
        s.mgmt.plChange = none ∧ s.rd K.MGMT_PL ≠ 2) ∧
    (∃ (s : State) (load : BitVec 8), s.plAuto = true ∧ (50 < load.toNat ∨ (∃ r, ∃ q ∈ (s.req r).queue, q.at_ + 351562 < s.now)) ∧
        s.mgmt.plChange ≠ none) ∧
    (∃ (s : State) (load : BitVec 8), (s.plAuto = false ∨ (load.toNat ≤ 50 ∧
        ∀ r, ∀ q ∈ (s.req r).queue, s.now ≤ q.at_ + 351562) ∨ (s.mgmt.plChange = none ∧ s.rd K.MGMT_PL = 2))) ∧
    (∃ (s : State) (load : BitVec 8), s.plAuto = true ∧ load.toNat < 15 ∧ s.mgmt.plChange = none ∧ s.rd K.MGMT_PL ≠ 0) ∧
    (∃ (s : State) (load : BitVec 8), (s.plAuto = false ∨ 15 ≤ load.toNat ∨ s.mgmt.plChange ≠ none ∨ s.rd K.MGMT_PL = 0)) ∧
    (∃ (s : State) (r : Fin 18) (v : BitVec 8), s.accepts r K.MGMT_MRST (be 1 v.toNat) = true) ∧
    (∃ (s : State) (r : Fin 18), s.accepts r K.MGMT_MASTER_RESTART (be 1 1) = true) ∧
    (∃ (s : State), s.mgmt.mrstPend = true) ∧
    (∃ (s : State), s.mgmt.mrstPend = false) ∧
    (∃ (s : State), s.rd K.OD_CORE_STATE ≠ 1 ∧ s.sec.halted = false) :=
  ⟨⟨up.modMgmt fun m => { m with plChange := some (0, 2) }, 0, 2, rfl, by decide⟩,
   ⟨up, by decide⟩,
   ⟨up.wr K.MGMT_PL 0, 105, by decide, by decide, by decide, by decide⟩,
   ⟨up.modMgmt fun x => { x with plChange := some (0, 1) }, 112, by decide, by decide, by decide⟩,
   ⟨up, 88, by decide⟩,
   ⟨up, 3, by decide, by decide, by decide, by decide⟩,
   ⟨up, 62, by decide⟩,
   ⟨upV, 1, 1, by decide⟩,
   ⟨up, 1, by decide⟩,
   ⟨up.modMgmt fun x => { x with mrstPend := true }, by decide⟩,
   ⟨up, by decide⟩,
   ⟨up, by decide, by decide⟩⟩

theorem wit_ClockAndOutage :
    (∃ (s : State) (r : Fin 18) (v : BitVec 8) (valid : Bool), s.accepts r K.CLK_REF_SRC (be 1 v.toNat) = true) ∧
    (∃ (s : State), s.clk.rootValid = true ∧ s.clk.lsynRuns = true) ∧
    (∃ (s : State), s.clk.rootValid = true ∧ s.clk.lsynRuns = false) ∧
    (∃ (s : State), s.clk.rootValid = false) ∧
    (∃ (s : State), s.clk.rootValid = false) ∧
    (∃ (s : State), s.clk.rootValid = true) ∧
    (∃ (s : State) (r : Fin 18) (q : Fin 2) (v : BitVec 16), s.accepts r (State.rclkoKey q) (be 2 v.toNat) = true) ∧
    (∃ (s : State) (q : Fin 2) (n : Fin 16), s.rclkoLane q = n.val ∧ (s.lane n).heldEpoch = true) ∧
    (∃ (s : State) (q : Fin 2) (n : Fin 16), s.rclkoLane q = n.val ∧ (s.lane n).heldEpoch = false) ∧
    (∃ (s : State) (r : Fin 18), s.accepts r K.AVAIL_CLEAR (be 1 1) = true) ∧
    (∃ (s : State) (r : Fin 18), s.accepts r K.AVAIL_CLEAR (be 1 0) = true) :=
  ⟨⟨upV, 1, 0, true, by decide⟩,
   ⟨up, by decide, by decide⟩,
   ⟨up.modClk fun x => { x with lsynRuns := false }, by decide, by decide⟩,
   ⟨State.reset, by decide⟩,
   ⟨State.reset, by decide⟩,
   ⟨up, by decide⟩,
   ⟨upT, 17, 1, 0, by decide⟩,
   ⟨up.modLane 0 fun l => { l with heldEpoch := true }, 1, 0, by decide, by decide⟩,
   ⟨up, 0, 0, by decide, by decide⟩,
   ⟨upV, 1, by decide⟩,
   ⟨upV, 1, by decide⟩⟩

theorem wit_TimeUnit :
    (∃ (s : State) (r : Fin 18) (v : BitVec 96), s.accepts r K.TIME_SET (be 12 v.toNat) = true) ∧
    (∃ (s : State) (r : Fin 18) (v : BitVec 64), s.accepts r K.TIME_STEP (be 8 v.toNat) = true) ∧
    (∃ (s : State) (r : Fin 18) (v : BitVec 32), s.accepts r K.TIME_RATE_ADJ (be 4 v.toNat) = true) ∧
    (∃ (s : State), s.running = true ∧ (∀ g ∈ s.od.waiting, g.bound ≠ .tick)) ∧
    (∃ (s : State), s.running = false) ∧
    (∃ (s : State) (j : Fin 16) (tick : Bool), s.on K.SYNC_IN_EN = true ∧ s.running = true ∧ s.time.pendSet = none) ∧
    (∃ (s : State) (j : Fin 16) (tick : Bool) (v : Nat), s.on K.SYNC_IN_EN = true ∧ s.running = true ∧ s.time.pendSet = some v) ∧
    (∃ (s : State) (j : Fin 16) (tick : Bool), (s.on K.SYNC_IN_EN = false ∨ s.running = false)) ∧
    (∃ (s : State), s.on K.SYNC_IN_EN = true ∧ s.running = true ∧ s.time.silenceTold = false) ∧
    (∃ (s : State), s.time.silenceTold = true) ∧
    (∃ (s : State), s.running = true ∧ s.rd K.SYNC_OUT_WIDTH ≠ 0 ∧ s.reachesSecond = true ∧ s.pulseNear = false ∧
        s.time.outSkip ≠ some s.pulseSecond) ∧
    (∃ (s : State), (s.running = false ∨ s.rd K.SYNC_OUT_WIDTH = 0 ∨ s.reachesSecond = false ∨ s.pulseNear = true ∨ s.time.outSkip = some
        s.pulseSecond)) ∧
    (∃ (s : State) (c : Nat), s.time.lastPulse = some c ∧ 225 * s.time.outWidth ≤ 128 * (s.now - c)) ∧
    (∃ (s : State), (s.time.lastPulse = none ∨ (∃ c, s.time.lastPulse = some c ∧ 128 * (s.now - c) < 225 * s.time.outWidth))) ∧
    (∃ (s : State) (r : Fin 18) (v : BitVec 8), s.accepts r K.TIME_DISC_SRC (be 1 v.toNat) = true) ∧
    (∃ (s : State) (r : Fin 18) (v : BitVec 8), s.accepts r K.TIME_LINE_LANE (be 1 v.toNat) = true) :=
  ⟨⟨upV, 1, 6, by decide⟩,
   ⟨upV, 1, 15165156398645585656, by decide⟩,
   ⟨upV, 1, 6, by decide⟩,
   ⟨up.wr K.TIME_STATUS 1, by decide, by decide⟩,
   ⟨up, by decide⟩,
   ⟨(up.wr K.TIME_STATUS 1).wr K.SYNC_IN_EN 1, 1, true, by decide, by decide, by decide⟩,
   ⟨((up.modTime fun x => { x with pendSet := some 0 }).wr K.TIME_STATUS 1).wr K.SYNC_IN_EN 1, 1, true, 0, by decide, by decide,
       by decide⟩,
   ⟨up, 1, true, by decide⟩,
   ⟨(up.wr K.TIME_STATUS 1).wr K.SYNC_IN_EN 1, by decide, by decide, by decide⟩,
   ⟨up.modTime fun x => { x with silenceTold := true }, by decide⟩,
   ⟨up.wr K.TIME_STATUS 1, by decide, by decide, by decide, by decide, by decide⟩,
   ⟨up, by decide⟩,
   ⟨up.modTime fun x => { x with lastPulse := some 12 }, 12, by decide, by decide⟩,
   ⟨up, by decide⟩,
   ⟨upV, 1, 0, by decide⟩,
   ⟨upV, 1, 6, by decide⟩⟩

def stAgc : State := (upV.modLane 1 fun l => { l with adapt := 2, power := (1, 2 ^ 70) }).wr (K.LINE_VGA_GAIN 1) 9
theorem wit_LineAdaptation :
    (∃ (s : State) (n : Fin 16), s.on (K.LINE_AGC_EN n) = true ∧ (s.lane n).adapt = 2 ∧ s.frzAgc n = false ∧
        (∀ c, (s.lane n).agcAt = some c → c + 65536 ≤ s.now) ∧
        (s.lane n).power.2 < (s.lane n).power.1 * (s.rd (K.LINE_AGC_TARGET n) * 2 ^ 23) ^ 2 ∧ s.rd (K.LINE_VGA_GAIN n) < 60) ∧
    (∃ (s : State) (n : Fin 16), s.on (K.LINE_AGC_EN n) = true ∧ (s.lane n).adapt = 2 ∧ s.frzAgc n = false ∧
        (∀ c, (s.lane n).agcAt = some c → c + 65536 ≤ s.now) ∧ (s.lane n).power.1 ≠ 0 ∧
        (s.lane n).power.1 * (s.rd (K.LINE_AGC_TARGET n) * 2 ^ 23) ^ 2 < (s.lane n).power.2 ∧ 0 < s.rd (K.LINE_VGA_GAIN n) ∧
        s.rd (K.LINE_VGA_GAIN n) ≤ 60) ∧
    (∃ (s : State) (n : Fin 16),
        (s.on (K.LINE_AGC_EN n) = false ∨ (s.lane n).adapt ≠ 2 ∨ s.frzAgc n = true ∨ (s.lane n).power.1 = 0 ∨ (∃ c,
        (s.lane n).agcAt = some c ∧
        s.now < c + 65536) ∨ (s.lane n).power.2 = (s.lane n).power.1 * (s.rd (K.LINE_AGC_TARGET n) * 2 ^ 23) ^ 2 ∨ (s.rd (K.LINE_VGA_GAIN
        n) = 60 ∧ (s.lane n).power.2 < (s.lane n).power.1 * (s.rd (K.LINE_AGC_TARGET n) * 2 ^ 23) ^ 2) ∨ (s.rd (K.LINE_VGA_GAIN n) = 0 ∧
        (s.lane n).power.1 * (s.rd (K.LINE_AGC_TARGET n) * 2 ^ 23) ^ 2 < (s.lane n).power.2))) ∧
    (∃ (s : State) (r : Fin 18) (n : Fin 16) (v : BitVec 16), s.accepts r (K.LINE_ADAPT_CTRL n) (be 2 v.toNat) = true) ∧
    (∃ (s : State) (n : Fin 16), s.adaptCtrl n 6 = true ∧ (64 ≤ (s.lane n).satFfe ∨ 64 ≤ (s.lane n).satMlse)) ∧
    (∃ (s : State) (n : Fin 16), (s.adaptCtrl n 6 = false ∨ (s.lane n).satFfe < 64 ∧ (s.lane n).satMlse < 64)) ∧
    (∃ (s : State) (r : Fin 18) (n : Fin 16), s.accepts r (K.LINE_FFE_SNAP n) (be 1 1) = true) ∧
    (∃ (s : State) (r : Fin 18) (n : Fin 16), s.accepts r (K.LINE_FFE_SNAP n) (be 1 0) = true) :=
  ⟨⟨((upV.modLane 1 fun l => { l with adapt := 2, power := (1, 0) }).modLane 14 fun l => { l with adapt := 2 }).modLane 15 fun l =>
      { l with adapt := 2 }, 1, by decide, by decide, by decide, by decide, by decide, by decide⟩,
   ⟨stAgc, 1, by decide, by decide, by decide, by decide, by decide, by decide, by decide, by decide⟩,
   ⟨up, 1, by decide⟩,
   ⟨upV, 1, 0, 9, by decide⟩,
   ⟨up.modLane 1 fun l => { l with satFfe := 64 }, 1, by decide, by decide⟩,
   ⟨up, 1, by decide⟩,
   ⟨upV, 1, 1, by decide⟩,
   ⟨upV, 1, 1, by decide⟩⟩

def stCtle : State := (upV.modLane 1 fun l => { l with ctleSearch := some 0, ctleNow := 5 }).wr (K.LINE_CTLE_ADAPT 1) 1
def stAcq (k : Nat) : State := (upV.modLane 1 fun l => { l with adapt := 1, ctleSearch := none, ctleNow := k }).wr (K.LINE_CTLE_ADAPT 1) 1
theorem wit_LineReceiveMonitors :
    (∃ (s : State) (r : Fin 18) (n : Fin 16), s.accepts r (K.LINE_LQM_CLEAR n) (be 1 1) = true) ∧
    (∃ (s : State) (r : Fin 18) (n : Fin 16), s.accepts r (K.LINE_SWATCH_ARM n) (be 1 1) = true) ∧
    (∃ (s : State) (n : Fin 16) (src : Fin 6), s.rd (K.LINE_SWATCH_STATUS n) = 1 ∧ s.rd (K.LINE_SWATCH_TRIGGER n) = src.val ∧
        (src.val = 0 ∨ s.rd (K.LINE_SWATCH_PRE n) * 4096 ≤ (s.lane n).swatch.stored)) ∧
    (∃ (s : State) (n : Fin 16) (src : Fin 6),
        (s.rd (K.LINE_SWATCH_STATUS n) ≠ 1 ∨ s.rd (K.LINE_SWATCH_TRIGGER n) ≠ src.val ∨ (src.val ≠ 0 ∧
        (s.lane n).swatch.stored < s.rd (K.LINE_SWATCH_PRE n) * 4096))) ∧
    (∃ (s : State) (n : Fin 16), s.rd (K.LINE_SWATCH_STATUS n) = 2 ∧
        (16 - (if s.rd (K.LINE_SWATCH_TRIGGER n) = 0 then 0 else s.rd (K.LINE_SWATCH_PRE n))) * 4096 ≤ (s.lane n).swatch.post) ∧
    (∃ (s : State) (n : Fin 16),
        (s.rd (K.LINE_SWATCH_STATUS n) ≠ 2 ∨ (s.lane n).swatch.post < (16 - (if s.rd (K.LINE_SWATCH_TRIGGER n) = 0 then 0 else s.rd
        (K.LINE_SWATCH_PRE n))) * 4096)) ∧
    (∃ (s : State) (n : Fin 16), s.rd (K.LINE_LOS_THR n) ≠ 0 ∧ s.losOn n = false ∧ s.clamped (laneUnit n) = false) ∧
    (∃ (s : State) (n : Fin 16), (s.rd (K.LINE_LOS_THR n) = 0 ∨ s.losOn n = true ∨ s.clamped (laneUnit n) = true)) ∧
    (∃ (s : State) (n : Fin 16), (s.lane n).adapt = 1 ∧ (s.lane n).ctleSearch = none ∧ s.on (K.LINE_CTLE_ADAPT n) = false) ∧
    (∃ (s : State) (n : Fin 16), (s.lane n).adapt = 1 ∧ (s.lane n).ctleSearch = none ∧ s.on (K.LINE_CTLE_ADAPT n) = true ∧
        7 * 1024 < 20 * (s.firstPost n).natAbs ∧ (s.lane n).ctleNow < 28) ∧
    (∃ (s : State) (n : Fin 16), (s.lane n).adapt = 1 ∧ (s.lane n).ctleSearch = none ∧ s.on (K.LINE_CTLE_ADAPT n) = true ∧
        20 * (s.firstPost n).natAbs < 3 * 1024 ∧ 0 < (s.lane n).ctleNow) ∧
    (∃ (s : State) (n : Fin 16) (c : Instr), (c = .acquisitionEnd n ∧ (s.lane n).adapt = 1 ∧
        (s.lane n).ctleSearch = none ∨ c = .ctleSearchStep n ∧ (s.lane n).ctleSearch ≠ none) ∧ s.on (K.LINE_CTLE_ADAPT n) = true ∧
        ((3 * 1024 ≤ 20 * (s.firstPost n).natAbs ∧ 20 * (s.firstPost n).natAbs ≤ 7 * 1024) ∨ (7 * 1024 < 20 * (s.firstPost n).natAbs ∧
        28 ≤ (s.lane n).ctleNow) ∨ (20 * (s.firstPost n).natAbs < 3 * 1024 ∧ (s.lane n).ctleNow = 0))) ∧
    (∃ (s : State) (n : Fin 16), ((s.lane n).adapt ≠ 1 ∨ (s.lane n).ctleSearch ≠ none)) ∧
    (∃ (s : State) (n : Fin 16) (k : Nat), (s.lane n).ctleSearch = some k ∧ s.on (K.LINE_CTLE_ADAPT n) = true ∧ k < 28 ∧
        7 * 1024 < 20 * (s.firstPost n).natAbs ∧ (s.lane n).ctleNow < 28) ∧
    (∃ (s : State) (n : Fin 16) (k : Nat), (s.lane n).ctleSearch = some k ∧ s.on (K.LINE_CTLE_ADAPT n) = true ∧ k < 28 ∧
        20 * (s.firstPost n).natAbs < 3 * 1024 ∧ 0 < (s.lane n).ctleNow) ∧
    (∃ (s : State) (n : Fin 16) (k : Nat), (s.lane n).ctleSearch = some k ∧ (s.on (K.LINE_CTLE_ADAPT n) = false ∨ 28 ≤ k)) ∧
    (∃ (s : State) (n : Fin 16), (s.lane n).ctleSearch = none) :=
  ⟨⟨upV, 1, 0, by decide⟩,
   ⟨upV, 1, 0, by decide⟩,
   ⟨up.wr (K.LINE_SWATCH_STATUS 1) 1, 1, 0, by decide, by decide, by decide⟩,
   ⟨up, 1, 1, by decide⟩,
   ⟨(up.modLane 1 fun l => { l with swatch := { l.swatch with post := 65536 } }).wr (K.LINE_SWATCH_STATUS 1) 2, 1, by decide, by decide⟩,
   ⟨up, 1, by decide⟩,
   ⟨up, 1, by decide, by decide, by decide⟩,
   ⟨up.wr (K.LINE_LOS_STATUS 1) 1, 1, by decide⟩,
   ⟨(up.modLane 1 fun l => { l with adapt := 1 }).wr (K.LINE_CTLE_ADAPT 1) 0, 1, by decide, by decide, by decide⟩,
   ⟨State.reset.modLane 1 fun l =>
       { l with adapt := 1, coef := { l.coef with acc := [0, 0, 0, 0, 0, 0, 4408858, 4408858, 4408858, 4408858] } }, 1, by decide,
       by decide, by decide, by decide, by decide⟩,
   ⟨stAcq 5, 1, by decide, by decide, by decide, by decide, by decide⟩,
   ⟨stAcq 0, 1, .acquisitionEnd 1, by decide, by decide, by decide⟩,
   ⟨up, 1, by decide⟩,
   ⟨upV.modLane 1 fun l =>
       { l with ctleSearch := some 0, coef := { l.coef with acc := [0, 0, 0, 0, 0, 0, 3587987, 3587987, 3587987, 3587987] } }, 1, 0,
       by decide, by decide, by decide, by decide, by decide⟩,
   ⟨stCtle, 1, 0, by decide, by decide, by decide, by decide, by decide⟩,
   ⟨upV.modLane 1 fun l => { l with ctleSearch := some 28 }, 1, 28, by decide, by decide⟩,
   ⟨up, 1, by decide⟩⟩

def stIdle : State := (upV.modLane 1 fun l => { l with out := .idle, outOff := false }).wr (K.LINE_TX_OUT_EN 1) 1
theorem wit_LineTransmitStage :
    (∃ (s : State) (n : Fin 16), (s.lane n).ctleSearch = none) ∧
    (∃ (s : State) (n : Fin 16), (s.lane n).ctleSearch ≠ none) ∧
    (∃ (s : State) (n : Fin 16) (w : Ramp) (m : Fin 32), (w = .ampA ∧ m = hostA n ∨ w = .ampB ∧ m = hostB n)) ∧
    (∃ (s : State) (n : Fin 16), (s.lane n).out = .idle ∧ (s.lane n).outOff = false ∧ s.on (K.LINE_TX_OUT_EN n) = true ∧
        (s.lane n).outMode = s.rd (K.LINE_TX_OUT_MODE n) ∧ s.bit (K.LINE_TX_FAULT n) 2 = false ∧ (s.lane n).laneReset = false ∧
        s.sec.lc ≠ .scrapped) ∧
    (∃ (s : State) (n : Fin 16), (s.lane n).out = .idle ∧ (s.lane n).outOff = false ∧ s.on (K.LINE_TX_OUT_EN n) = true ∧
        (s.lane n).outMode = s.rd (K.LINE_TX_OUT_MODE n) ∧ (s.bit (K.LINE_TX_FAULT n) 2 = true ∨ (s.lane n).laneReset = true) ∧
        s.sec.lc ≠ .scrapped) ∧
    (∃ (s : State) (n : Fin 16), (s.lane n).out = .idle ∧
        ((s.lane n).outOff = true ∨ s.on (K.LINE_TX_OUT_EN n) = false ∨ (s.lane n).outMode ≠ s.rd (K.LINE_TX_OUT_MODE n) ∨ s.sec.lc =
        .scrapped)) ∧
    (∃ (s : State) (n : Fin 16), (s.lane n).out = .disabled ∧ (s.lane n).outOff = false ∧ s.on (K.LINE_TX_OUT_EN n) = true ∧
        s.sec.lc ≠ .scrapped) ∧
    (∃ (s : State) (n : Fin 16), ((s.lane n).out = .modulating ∨ (s.lane n).out = .disabled ∧
        ((s.lane n).outOff = true ∨ s.on (K.LINE_TX_OUT_EN n) = false ∨ s.sec.lc = .scrapped))) ∧
    (∃ (s : State) (n : Fin 16), s.clamped (laneUnit n) = false) ∧
    (∃ (s : State) (n : Fin 16), s.clamped (laneUnit n) = true) ∧
    (∃ (s : State) (n : Fin 16), s.clamped (laneUnit n) = false) :=
  ⟨⟨up, 1, by decide⟩,
   ⟨up.modLane 1 fun l => { l with ctleSearch := some 1 }, 1, by decide⟩,
   ⟨up, 0, .ampB, 1, by decide⟩,
   ⟨stIdle, 1, by decide, by decide, by decide, by decide, by decide, by decide, by decide⟩,
   ⟨stIdle.modLane 1 fun l => { l with laneReset := true }, 1, by decide, by decide, by decide, by decide, by decide, by decide⟩,
   ⟨stIdle.modLane 1 fun l => { l with outOff := true }, 1, by decide, by decide⟩,
   ⟨(up.modLane 1 fun l => { l with outOff := false }).wr (K.LINE_TX_OUT_EN 1) 1, 1, by decide, by decide, by decide, by decide⟩,
   ⟨up, 1, by decide⟩,
   ⟨up, 1, by decide⟩,
   ⟨up.wr (K.PWR_STATE 1) 3, 1, by decide⟩,
   ⟨up, 1, by decide⟩⟩

def blkSyms : List (Fin 4 × Nat) := List.replicate 1152 (0, 15)
def stBlk (cw w : Nat) : State := (upV.modLane 1 fun l => { l with rx := { l.rx with syms := blkSyms }, blkW := w }).setCw 1 cw
theorem stBlk_syms (cw w : Nat) : ((stBlk cw w).lane 1).rx.syms = blkSyms := rfl
theorem stBlk_rx (cw w : Nat) : (stBlk cw w).rxBlock 1 = some blkSyms := by
  simp only [State.rxBlock, stBlk_syms, blkSyms, List.length_replicate, List.take_replicate]
  rfl
theorem wit_LineLockMachines :
    (∃ (s : State) (n : Fin 16) (blk : List (Fin 4 × Nat)), s.laneTested n = false ∧ s.cwState n = 3 ∧ s.rxBlock n = some blk ∧
        (s.lane n).blkW < 4 ∧ ∃ w, w = (s.lane n).blkW ∧ ∃ bytes, bytes = wordBytes (wordSyms blk w)) ∧
    (∃ (s : State) (n : Fin 16) (blk : List (Fin 4 × Nat)), s.laneTested n = false ∧ (s.cwState n = 1 ∨ s.cwState n = 2) ∧
        s.rxBlock n = some blk ∧ (s.lane n).blkW < 4 ∧ ∃ w, w = (s.lane n).blkW) ∧
    (∃ (s : State) (n : Fin 16), (s.laneTested n = true ∨ s.cwState n = 0 ∨ s.rxBlock n = none ∨ 4 ≤ (s.lane n).blkW)) ∧
    (∃ (s : State) (n : Fin 16), (s.lane n).blkW = 4) ∧
    (∃ (s : State) (n : Fin 16), (s.lane n).blkW ≠ 4) ∧
    (∃ (s : State) (n : Fin 16) (b : Bool) (differ : BitVec 8) (p : BitVec 12) (moved : Bool), s.cwLock n = true ∧
        (b && s.is225 n) = false ∧ ∃ m, m = (if b then (s.lane n).mkB else (s.lane n).mkA) ∧
        ∃ at_, at_ = 2176 * (s.lane n).blkNo + p.toNat ∧ ∃ next, next = at_ + s.markerStep n ∧ ∃ good, good = decide (differ.toNat ≤ 8)) ∧
    (∃ (s : State) (n : Fin 16) (b : Bool) (differ : BitVec 8) (p : BitVec 12) (moved : Bool),
        (s.cwLock n = false ∨ (b && s.is225 n) = true)) ∧
    (∃ (s : State) (n : Fin 16) (j : Fin 128) (blk : List (Fin 4 × Nat)) (present expected : Bool), s.cwLock n = true ∧
        s.rxBlock n = some blk ∧ 1 ≤ (s.lane n).blkW ∧ (s.lane n).blkTag = false ∧
        present = (tagTest (wordBytes (wordSyms blk 0))).isSome ∧ expected = ((s.lane n).blkNo == (s.lane n).tagNext)) ∧
    (∃ (s : State) (n : Fin 16) (j : Fin 128),
        (s.cwLock n = false ∨ s.rxBlock n = none ∨ (s.lane n).blkW = 0 ∨ (s.lane n).blkTag = true)) ∧
    (∃ (s : State) (r : Fin 18) (n : Fin 16), s.accepts r (K.LINE_FEC_CLEAR n) (be 1 1) = true) :=
  ⟨⟨stBlk 3 0, 1, blkSyms, by decide, by decide, stBlk_rx 3 0, by decide, _, rfl, _, rfl⟩,
   ⟨stBlk 1 0, 1, blkSyms, by decide, by decide, stBlk_rx 1 0, by decide, _, rfl⟩,
   ⟨up, 1, Or.inr (Or.inl (by decide))⟩,
   ⟨up.modLane 1 fun l => { l with blkW := 4 }, 1, by decide⟩,
   ⟨up, 1, by decide⟩,
   ⟨up.wr (K.LINE_LOCK_STATUS 1) 2596, 1, true, 201, 3, true, by decide, by decide, _, rfl, _, rfl, _, rfl, _, rfl⟩,
   ⟨up, 1, true, 135, 3564, true, by decide⟩,
   ⟨stBlk 3 1, 1, 0, blkSyms, _, _, by decide, stBlk_rx 3 1, by decide, by decide, rfl, rfl⟩,
   ⟨up, 1, 1, by decide⟩,
   ⟨upV, 1, 1, by decide⟩⟩

theorem wit_LinkAndGearbox :
    (∃ (s : State) (k : Fin 4) (freqs : List (BitVec 32)), s.gbLock k = true) ∧
    (∃ (s : State) (k : Fin 4) (freqs : List (BitVec 32)), s.gbLock k = false) ∧
    (∃ (s : State) (m : Fin 32) (key : Key),
        key = (if isB m then K.LAT_TX_MARKER_B (lineOfHost m) else K.LAT_TX_MARKER_A (lineOfHost m)) ∧ s.hostLost m = true ∧
        (s.host m).filled = false ∧ s.gbLock (pgOfHost m) = true ∧ (isB m && s.is225 (lineOfHost m)) = false) ∧
    (∃ (s : State) (m : Fin 32),
        (s.hostLost m = false ∨ (s.host m).filled = true ∨ s.gbLock (pgOfHost m) = false ∨ (isB m && s.is225 (lineOfHost m)) = true)) ∧
    (∃ (s : State) (m : Fin 32) (p : BitVec 12) (moved : Bool), s.hostLost m = false ∧ (s.host m).filled = true) ∧
    (∃ (s : State) (m : Fin 32) (p : BitVec 12) (moved : Bool), (s.hostLost m = true ∨ (s.host m).filled = false)) ∧
    (∃ (s : State) (k : Fin 4) (blocks : BitVec 18), s.clocksOk = true ∧ ((s.pg k).gb = .wait ∨ (s.pg k).gb = .locked ∧
        (s.pg k).relockFmt = true)) ∧
    (∃ (s : State) (k : Fin 4) (blocks : BitVec 18), (s.clocksOk = false ∨ (s.pg k).gb = .off ∨ (s.pg k).gb = .locked ∧
        (s.pg k).relockFmt = false)) :=
  ⟨⟨up.wr (K.PG_GB_STATUS 1) 1, 1, [], by decide⟩,
   ⟨up, 1, [3896295062], by decide⟩,
   ⟨up.wr (K.PG_GB_STATUS 1) 1, 8, _, rfl, by decide, by decide, by decide, by decide⟩,
   ⟨up, 1, by decide⟩,
   ⟨(up.modHost 1 fun l => { l with filled := true }).wr (K.HOST_RX_STATUS 1) 22, 1, 4095, true, by decide, by decide⟩,
   ⟨up, 1, 3341, false, by decide⟩,
   ⟨(up.modPg 0 fun l => { l with gb := .wait }).wr K.CLK_STATUS 3, 0, 65305, by decide, by decide⟩,
   ⟨up, 1, 77069, by decide⟩⟩

theorem wit_HostReceivers :
    (∃ (s : State) (m : Fin 32), s.clamped (laneUnit (lineOfHost m)) = false ∧ s.rd (K.HOST_LOS_THR m) ≠ 0 ∧ s.hostBit m 1 = true) ∧
    (∃ (s : State) (m : Fin 32), (s.clamped (laneUnit (lineOfHost m)) = true ∨ s.rd (K.HOST_LOS_THR m) = 0 ∨ s.hostBit m 1 = false)) ∧
    (∃ (s : State) (m : Fin 32), s.clamped (laneUnit (lineOfHost m)) = false ∧ s.hostBit m 1 = false) ∧
    (∃ (s : State) (m : Fin 32), (s.clamped (laneUnit (lineOfHost m)) = true ∨ s.hostBit m 1 = true)) ∧
    (∃ (s : State) (m : Fin 32) (phase : Fin 602353) (c : Instr), (c = .hckiTrainingDone m phase ∧
        s.fwdClock (pgOfHost m) = true ∨ c = .hostCdrLock m phase ∧ s.fwdClock (pgOfHost m) = false) ∧ (s.host m).training = true) ∧
    (∃ (s : State) (m : Fin 32) (phase : Fin 602353), (s.fwdClock (pgOfHost m) = false ∨ (s.host m).training = false)) ∧
    (∃ (s : State) (m : Fin 32) (phase : Fin 602353), (s.fwdClock (pgOfHost m) = true ∨ (s.host m).training = false)) ∧
    (∃ (s : State) (m : Fin 32) (ctle : BitVec 8), (s.host m).acq = 1) ∧
    (∃ (s : State) (m : Fin 32) (ctle : BitVec 8), (s.host m).acq ≠ 1) ∧
    (∃ (s : State) (m : Fin 32) (differ : BitVec 8) (pos : BitVec 64) (p : BitVec 12) (moved : Bool), s.hostBit m 2 = true ∧
        ∃ good, good = decide (differ.toNat ≤ 8) ∧ ∃ a, a = (s.host m).align) ∧
    (∃ (s : State) (m : Fin 32) (differ : BitVec 8) (pos : BitVec 64) (p : BitVec 12) (moved : Bool), s.hostBit m 2 = false) ∧
    (∃ (s : State) (k : Fin 4), s.clamped (pgUnit k) = false ∧ s.hckiPresent k = true) ∧
    (∃ (s : State) (k : Fin 4), (s.clamped (pgUnit k) = true ∨ s.hckiPresent k = false)) ∧
    (∃ (s : State) (k : Fin 4), s.clamped (pgUnit k) = false ∧ s.hckiPresent k = false) ∧
    (∃ (s : State) (k : Fin 4), (s.clamped (pgUnit k) = true ∨ s.hckiPresent k = true)) :=
  ⟨⟨up.wr (K.HOST_RX_STATUS 1) 2, 1, by decide, by decide, by decide⟩,
   ⟨up, 1, by decide⟩,
   ⟨up, 1, by decide, by decide⟩,
   ⟨up.wr (K.HOST_RX_STATUS 1) 2, 1, by decide⟩,
   ⟨(up.modHost 1 fun l => { l with training := true }).wr (K.PG_CLK_MODE 0) 1, 1, 1, .hckiTrainingDone 1 1, by decide, by decide⟩,
   ⟨up, 1, 1, by decide⟩,
   ⟨up, 1, 1, by decide⟩,
   ⟨up.modHost 1 fun l => { l with acq := 1 }, 1, 255, by decide⟩,
   ⟨up, 1, 13, by decide⟩,
   ⟨up.wr (K.HOST_RX_STATUS 1) 4, 1, 1, 7, 0, true, by decide, _, rfl, _, rfl⟩,
   ⟨up, 1, 13, 1, 3564, true, by decide⟩,
   ⟨up.wr (K.PG_GB_STATUS 1) 8, 1, by decide, by decide⟩,
   ⟨up, 1, by decide⟩,
   ⟨up, 1, by decide, by decide⟩,
   ⟨up.wr (K.PG_GB_STATUS 1) 8, 1, by decide⟩⟩

theorem wit_HostFecAndPeriod :
    (∃ (s : State) (r : Fin 18) (k : Fin 4) (v : BitVec 8), s.accepts r (K.PG_FEC_MODE k) (be 1 v.toNat) = true ∧
        (s.rd (K.PG_FEC_MODE k) = 2 ↔ v = 2)) ∧
    (∃ (s : State) (r : Fin 18) (k : Fin 4) (v : BitVec 8), s.accepts r (K.PG_FEC_MODE k) (be 1 v.toNat) = true ∧
        (¬(s.rd (K.PG_FEC_MODE k) = 2 ↔ v = 2))) ∧
    (∃ (s : State) (k : Fin 4) (v : BitVec 8) (r : Fin 18) (e : Nat) (grp : Bool) (fills : List (Fin 8 × Fin 129)), s.scanOn = false ∧
        s.od.waiting = [{ req := r, epoch := e, bound := .period k, grp := grp, writes := [(K.PG_FEC_MODE k, be 1 v.toNat)] }]) ∧
    (∃ (s : State) (k : Fin 4) (fills : List (Fin 8 × Fin 129)), (∀ g ∈ s.od.waiting, g.bound ≠ .period k) ∧ (fills.map (·.1)).Nodup) ∧
    (∃ (s : State) (k : Fin 4) (rx : Bool) (p : Fin 4) (skew : BitVec 16) (syms : Option (Fin 16)), skew.toNat ≤ 32 ∧
        s.bist.running ≠ some (.pg k) ∧ s.fecDecodes k rx p.val = true) ∧
    (∃ (s : State) (k : Fin 4) (rx : Bool) (p : Fin 4) (skew : BitVec 16) (syms : Option (Fin 16)),
        (s.bist.running = some (.pg k) ∨ 32 < skew.toNat ∨ s.fecDecodes k rx p.val = false)) ∧
    (∃ (s : State) (r : Fin 18) (k : Fin 4), s.accepts r (K.PG_FEC_CLEAR k) (be 1 1) = true) ∧
    (∃ (s : State) (r : Fin 18) (k : Fin 4), s.accepts r (K.PG_FEC_CLEAR k) (be 1 0) = true) :=
  ⟨⟨upV, 1, 1, 0, by decide, by decide⟩,
   ⟨upV, 1, 1, 2, by decide, by decide⟩,
   ⟨up.modOd fun x => { x with waiting := [{ req := 1, epoch := 0, bound := .period 1, grp := false, writes := [((K.PG_FEC_MODE 1), [3])] }] }, 1, 3, 1, 0, false, [(1, 0)], by decide, by decide⟩,
   ⟨up, 1, [], by decide, by decide⟩,
   ⟨(up.wr (K.LINE_LOCK_STATUS 1) 16386).wr (K.PG_FEC_MODE 0) 1, 0, true, 1, 1, none, by decide, by decide, by decide⟩,
   ⟨up, 1, true, 1, 11533, none, by decide⟩,
   ⟨upV, 1, 1, by decide⟩,
   ⟨upV, 1, 1, by decide⟩⟩

def stSeed : State := up.modRing fun x => { x with prbs := x.prbs.set 1 .seeding }
def stChk : State := up.modRing fun x => { x with prbs := x.prbs.set 1 .locked }
theorem wit_PatternTests :
    (∃ (s : State) (r : Fin 18) (m : Fin 32) (v : BitVec 16), s.accepts r (prbsGen (.host m) 1) (be 2 v.toNat) = true) ∧
    (∃ (s : State) (r : Fin 18) (n : Fin 16) (v : BitVec 16), s.accepts r (prbsGen (.line n) 1) (be 2 v.toNat) = true) ∧
    (∃ (s : State) (r : Fin 18) (p : Fin 2) (v : BitVec 16), s.accepts r (prbsGen (.port p) 1) (be 2 v.toNat) = true) ∧
    (∃ (s : State) (r : Fin 18) (a : PrbsAt) (v : BitVec 16), s.accepts r (prbsChk a 1) (be 2 v.toNat) = true) ∧
    (∃ (s : State) (r : Fin 18) (a : PrbsAt) (v : BitVec 32), s.accepts r (prbsGen a 2) (be 4 v.toNat) = true) ∧
    (∃ (s : State) (r : Fin 18) (a : PrbsAt), s.accepts r (prbsChk a 8) (be 1 1) = true) ∧
    (∃ (s : State) (a : PrbsAt) (bits : List Bool), (s.prbsState a = .off ∨ s.prbsTested a = true)) ∧
    (∃ (s : State) (a : PrbsAt) (bits : List Bool), s.prbsTested a = false ∧ s.prbsState a = .seeding ∧
        ∃ pat, pat = s.prbsPattern (prbsChk a 1) ∧ ∃ d, d = prbsDegree pat ∧ ∃ rx, rx = s.prbsSeen a bits ∧ d + 1024 ≤ rx.length ∧
        ∃ want, want = (prbsRun pat (prbsSeedFrom pat (rx.take d)) 1024).1 ∧
        ∃ errs, errs = ((State.prbsErrors ((rx.drop d).take 1024) want).filter id).length) ∧
    (∃ (s : State) (a : PrbsAt) (bits : List Bool), s.prbsTested a = false ∧ s.prbsState a = .locked ∧
        ∃ pat, pat = s.prbsPattern (prbsChk a 1) ∧ ∃ rx, rx = s.prbsSeen a bits ∧ 1024 ≤ rx.length ∧
        ∃ e, e = State.prbsErrors (rx.take 1024) (prbsRun pat (s.prbsReg a).chk 1024).1 ∧ ∃ errs, errs = (e.filter id).length) ∧
    (∃ (s : State) (a : PrbsAt) (bits : List Bool), (s.prbsState a = .seeding ∧
        (s.prbsSeen a bits).length < prbsDegree (s.prbsPattern (prbsChk a 1)) + 1024 ∨ s.prbsState a = .locked ∧
        (s.prbsSeen a bits).length < 1024)) :=
  ⟨⟨upV, 1, 0, 0, by decide⟩,
   ⟨upV, 1, 0, 0, by decide⟩,
   ⟨upV, 1, 0, 0, by decide⟩,
   ⟨upV, 1, .host 1, 0, by decide⟩,
   ⟨upV, 1, .host 1, 0, by decide⟩,
   ⟨upV, 1, .host 1, by decide⟩,
   ⟨up, .line 1, [], by decide⟩,
   ⟨stSeed, .port 1, List.replicate 1100 true, by decide, by decide, _, rfl, _, rfl, _, rfl, by decide, _, rfl, _, rfl⟩,
   ⟨stChk, .port 1, List.replicate 1024 true, by decide, by decide, _, rfl, _, rfl, by decide, _, rfl, _, rfl⟩,
   ⟨stSeed, .port 1, [], by decide⟩⟩

theorem wit_CastOnMessages :
    (∃ (s : State) (n : Fin 16) (h : MsgHead) (b : CapMsg), s.heard n 0x01 h = true) ∧
    (∃ (s : State) (n : Fin 16) (h : MsgHead) (num format precode time : BitVec 8), s.heard n 0x02 h = true) ∧
    (∃ (s : State) (n : Fin 16) (h : MsgHead) (num format precode time : BitVec 8), s.heard n 0x03 h = true) ∧
    (∃ (s : State) (n : Fin 16) (h : MsgHead) (num reason detail : BitVec 8), s.heard n 0x04 h = true) ∧
    (∃ (s : State) (n : Fin 16) (h : MsgHead) (id main : BitVec 8) (taps : List (BitVec 16)), s.heard n 0x05 h = true) ∧
    (∃ (s : State) (n : Fin 16) (h : MsgHead) (id result : BitVec 8) (taps : List (BitVec 16)), s.heard n 0x06 h = true) ∧
    (∃ (s : State) (n : Fin 16) (h : MsgHead) (agr lock fill verify : BitVec 8), s.heard n 0x07 h = true) ∧
    (∃ (s : State) (n : Fin 16) (h : MsgHead) (agr done : BitVec 8), s.heard n 0x08 h = true ∧
        (s.judged n h).agrDiffers n agr.toNat = false) ∧
    (∃ (s : State) (n : Fin 16) (h : MsgHead), s.heard n 0x09 h = true) ∧
    (∃ (s : State) (n : Fin 16) (h : MsgHead) (agr : BitVec 8), s.heard n 0x42 h = true ∧ (s.judged n h).agrDiffers n agr.toNat = false) ∧
    (∃ (s : State) (n : Fin 16) (h : MsgHead) (agr lock fill verify done : BitVec 8) (c : Instr), (c = .status n h agr lock fill verify ∧
        s.heard n 0x07 h = true ∨ c = .ready n h agr done ∧ s.heard n 0x08 h = true ∨ c = .keepalive n h agr ∧ s.heard n 0x42 h = true) ∧
        4 ≤ (s.judged n h).phase n ∧ 4 ≤ (s.judged n h).rd (K.LINE_CO_PEER_PHASE n) ∧ agr.toNat ≠ (s.judged n h).rd (K.LINE_CO_AGR n)) ∧
    (∃ (s : State) (n : Fin 16) (h : MsgHead) (b : CapMsg) (a1 a2 a3 a4 : BitVec 8) (taps : List (BitVec 16)) (c : Instr),
        (c = .cap n h b ∨ c = .propose n h a1 a2 a3 a4 ∨ c = .accept n h a1 a2 a3 a4 ∨ c = .reject n h a1 a2 a3 ∨ c = .txeqReq n h a1 a2
        taps ∨ c = .txeqAck n h a1 a2 taps ∨ c = .status n h a1 a2 a3 a4 ∨ c = .ready n h a1 a2 ∨ c = .keepalive n h a1)) :=
  ⟨⟨(up.wr (K.LINE_CO_PHASE 1) 2).wr (K.LINE_CO_PEER_SESSION 1) 1, 1, { seq := 0, ack := 255, phase := 2, session := 1 },
      { uid := 16868920018554394540, pgMode := 0, lane := 15, formats := 13, flags := 57, main := 63, policy := 94 }, by decide⟩,
   ⟨(up.wr (K.LINE_CO_PHASE 1) 3).wr (K.LINE_CO_PEER_SESSION 1) 1, 1, { seq := 0, ack := 255, phase := 3, session := 1 }, 210, 255, 14, 1,
       by decide⟩,
   ⟨(up.wr (K.LINE_CO_PHASE 1) 3).wr (K.LINE_CO_PEER_SESSION 1) 1, 1, { seq := 0, ack := 255, phase := 3, session := 1 }, 152, 4, 1, 7,
       by decide⟩,
   ⟨(up.wr (K.LINE_CO_PHASE 1) 3).wr (K.LINE_CO_PEER_SESSION 1) 1, 1, { seq := 0, ack := 255, phase := 3, session := 1 }, 1, 2, 1,
       by decide⟩,
   ⟨(up.wr (K.LINE_CO_PHASE 1) 4).wr (K.LINE_CO_PEER_SESSION 1) 1, 1, { seq := 0, ack := 255, phase := 4, session := 1 }, 215, 172, [1,
       45719, 0], by decide⟩,
   ⟨(up.wr (K.LINE_CO_PHASE 1) 4).wr (K.LINE_CO_PEER_SESSION 1) 1, 1, { seq := 0, ack := 255, phase := 4, session := 1 }, 215, 172, [1,
       45719, 0], by decide⟩,
   ⟨(up.wr (K.LINE_CO_PHASE 1) 5).wr (K.LINE_CO_PEER_SESSION 1) 1, 1, { seq := 0, ack := 255, phase := 5, session := 1 }, 210, 255, 14, 1,
       by decide⟩,
   ⟨(up.wr (K.LINE_CO_PHASE 1) 4).wr (K.LINE_CO_PEER_SESSION 1) 1, 1, { seq := 0, ack := 255, phase := 4, session := 1 }, 0, 52,
       by decide, by decide⟩,
   ⟨(up.wr (K.LINE_CO_PHASE 1) 2).wr (K.LINE_CO_PEER_SESSION 1) 1, 1, { seq := 0, ack := 255, phase := 2, session := 1 }, by decide⟩,
   ⟨(up.wr (K.LINE_CO_PHASE 1) 2).wr (K.LINE_CO_PEER_SESSION 1) 5, 1, { seq := 1, ack := 142, phase := 1, session := 5 }, 4, by decide,
       by decide⟩,
   ⟨(up.wr (K.LINE_CO_PHASE 1) 5).wr (K.LINE_CO_PEER_SESSION 1) 1, 1, { seq := 0, ack := 255, phase := 5, session := 1 }, 6, 156, 7, 0,
       67, .status 1 { seq := 0, ack := 255, phase := 5, session := 1 } 6 156 7 0, by decide, by decide, by decide, by decide⟩,
   ⟨up, 0, { seq := 0, ack := 255, phase := 0, session := 0 },
       { uid := 0, pgMode := 1, lane := 3, formats := 251, flags := 221, main := 9, policy := 5 }, 80, 1, 255, 221, [65535, 29991, 8496],
       .cap 0 { seq := 0, ack := 255, phase := 0, session := 0 }
       { uid := 0, pgMode := 1, lane := 3, formats := 251, flags := 221, main := 9, policy := 5 }, by decide⟩⟩

def stCap (formats : Nat) (time : Bool) : Cap :=
    { uid := 0, pgMode := 0, formats := formats, precodeReq := true, timeEn := time, role := 0, main := 1, policy := 1 }
def stProp : State := ((up.modCo 1 fun c => { c with cap := some (stCap 3 true), ownCap := some (stCap 2 false) }).wr (K.LINE_CO_PHASE 1)
    3).wr (K.LINE_CO_PEER_ID 1) (2 ^ 64 - 1)
theorem stProp_id : stProp.idHigher 1 = false := by
  have h : stProp.rd (K.LINE_CO_PEER_ID 1) = 2 ^ 64 - 1 := by decide
  have hu := Config.uniqueId.isLt
  simp only [State.idHigher, State.uid, h, decide_eq_false_iff_not]
  omega
theorem wit_CastOnTimers :
    (∃ (s : State) (n : Fin 16), ((s.co n).out.filter (·.sent)).isEmpty = true) ∧
    (∃ (s : State) (n : Fin 16) (c : Nat), c = ((s.co n).out.filter (·.sent)).length ∧ 0 < c ∧ (s.co n).retries < s.coTimer n 2) ∧
    (∃ (s : State) (n : Fin 16) (c : Instr), (c = .partnerSilence n ∨ (c = .responseTimer n ∧
        ((s.co n).out.filter (·.sent)).isEmpty = false ∧ s.coTimer n 2 ≤ (s.co n).retries))) ∧
    (∃ (s : State) (n : Fin 16) (c : Instr), (c = .beaconTimer n ∧ s.phase n = 1 ∧ (s.co n).backoff = false ∨ c = .keepaliveTimer n ∧
        2 ≤ s.phase n) ∧ (s.picot n).queue.length < 8) ∧
    (∃ (s : State) (n : Fin 16), (s.phase n ≠ 1 ∨ (s.co n).backoff = true)) ∧
    (∃ (s : State) (n : Fin 16), s.phase n < 2) ∧
    (∃ (s : State) (n : Fin 16), 2 ≤ s.phase n ∧ s.phase n < 7 ∧ s.coHeld n = false ∧ s.coTimer n (s.phase n + 4) ≠ 0) ∧
    (∃ (s : State) (n : Fin 16), (s.phase n < 2 ∨ s.phase n = 7 ∨ s.coHeld n = true ∨ s.coTimer n (s.phase n + 4) = 0)) ∧
    (∃ (s : State) (n : Fin 16), 2 ≤ s.phase n ∧ s.phase n < 7 ∧ s.coHeld n = false) ∧
    (∃ (s : State) (n : Fin 16), (s.phase n < 2 ∨ s.phase n = 7 ∨ s.coHeld n = true)) ∧
    (∃ (s : State) (n : Fin 16), s.phase n = 7 ∧ s.coTimer n 12 ≠ 0) ∧
    (∃ (s : State) (n : Fin 16), (s.phase n ≠ 7 ∨ s.coTimer n 12 = 0)) ∧
    (∃ (s : State) (n : Fin 16) (reason : Nat), s.binding n = true ∧ s.coTimer n 13 ≠ 0 ∧ (s.co n).bind = some reason ∧
        (∀ m ∈ (s.co n).out ++ (s.co n).wait, m.typ = 0x09 → m.sent = true)) ∧
    (∃ (s : State) (n : Fin 16), (s.binding n = false ∨ s.coTimer n 13 = 0 ∨ (s.co n).bind = none ∨ (∃ m,
        m ∈ (s.co n).out ++ (s.co n).wait ∧ m.typ = 0x09 ∧ m.sent = false))) ∧
    (∃ (s : State) (n : Fin 16), s.phase n = 1 ∧ (s.co n).backoff = true ∧ (s.picot n).queue.length < 8) ∧
    (∃ (s : State) (n : Fin 16), (s.phase n ≠ 1 ∨ (s.co n).backoff = false)) ∧
    (∃ (s : State) (n : Fin 16) (a : Agreed), s.phase n = 3 ∧ s.rd (K.LINE_CO_ROLE n) = 0 ∧ s.idHigher n = false ∧ (s.co n).prop = none ∧
        (s.co n).accepted = none ∧ (s.co n).rejected = none ∧ (s.co n).heardPropose = false ∧ (s.co n).noPropose = false ∧
        s.coHeld n = false ∧ s.agreement n = some a) ∧
    (∃ (s : State) (n : Fin 16),
        (s.phase n ≠ 3 ∨ s.rd (K.LINE_CO_ROLE n) ≠ 0 ∨ s.idHigher n = true ∨ (s.co n).heardPropose = true ∨ s.coHeld n = true)) ∧
    (∃ (s : State) (n : Fin 16), s.phase n = 6 ∧ (s.co n).gate = 0 ∧ s.binding n = false) ∧
    (∃ (s : State) (n : Fin 16), (s.phase n ≠ 6 ∨ (s.co n).gate ≠ 0 ∨ s.binding n = true)) :=
  ⟨⟨up, 1, by decide⟩,
   ⟨up.modCo 1 fun x => { x with out := [{ typ := 1, body := [], seq := 3, sent := true }] }, 1, _, rfl, by decide, by decide⟩,
   ⟨up, 1, .partnerSilence 1, by decide⟩,
   ⟨up.wr (K.LINE_CO_PHASE 1) 1, 1, .beaconTimer 1, by decide, by decide⟩,
   ⟨up, 1, by decide⟩,
   ⟨up, 1, by decide⟩,
   ⟨up.wr (K.LINE_CO_PHASE 1) 2, 1, by decide, by decide, by decide, by decide⟩,
   ⟨up, 1, by decide⟩,
   ⟨up.wr (K.LINE_CO_PHASE 1) 2, 1, by decide, by decide, by decide⟩,
   ⟨up, 1, by decide⟩,
   ⟨up.wr (K.LINE_CO_PHASE 1) 7, 1, by decide, by decide⟩,
   ⟨up, 1, by decide⟩,
   ⟨(up.modCo 1 fun x => { x with bind := some 0 }).wr (K.LINE_CO_FLAGS 1) 1, 1, 0, by decide, by decide, by decide, by decide⟩,
   ⟨up, 1, by decide⟩,
   ⟨(up.modCo 1 fun x => { x with backoff := true }).wr (K.LINE_CO_PHASE 1) 1, 1, by decide, by decide, by decide⟩,
   ⟨up, 1, by decide⟩,
   ⟨stProp, 1, ⟨2, true, true, false⟩, by decide, by decide, stProp_id, by decide, by decide, by decide, by decide, by decide, by decide⟩,
   ⟨up, 1, by decide⟩,
   ⟨up.wr (K.LINE_CO_PHASE 1) 6, 1, by decide, by decide, by decide⟩,
   ⟨up, 1, by decide⟩⟩

def stTxeq : State := ((upV.modCo 1 fun c => { c with txeq := .host }).wr (K.LINE_CO_PHASE 1) 4).wr (K.LINE_CO_TXEQ_POLICY 1) 2
theorem wit_CastOnCommands :
    (∃ (s : State) (r : Fin 18) (n : Fin 16), s.accepts r (K.LINE_ADMIN n) (be 1 1) = true) ∧
    (∃ (s : State) (r : Fin 18) (n : Fin 16), s.accepts r (K.LINE_ADMIN n) (be 1 0) = true) ∧
    (∃ (s : State) (r : Fin 18) (n : Fin 16), s.accepts r (K.LINE_CO_CMD n) (be 1 1) = true) ∧
    (∃ (s : State) (r : Fin 18) (n : Fin 16), s.accepts r (K.LINE_CO_CMD n) (be 1 2) = true) ∧
    (∃ (s : State) (r : Fin 18) (n : Fin 16), s.accepts r (K.LINE_CO_TXEQ_GO n) (be 1 1) = true ∧ s.phase n = 4 ∧
        s.rd (K.LINE_CO_TXEQ_POLICY n) = 2) ∧
    (∃ (s : State) (r : Fin 18) (n : Fin 16), s.accepts r (K.LINE_CO_TXEQ_GO n) (be 1 2) = true ∧ s.phase n = 4 ∧
        s.rd (K.LINE_CO_TXEQ_POLICY n) = 2) ∧
    (∃ (s : State) (r : Fin 18) (n : Fin 16) (v : BitVec 8), s.accepts r (K.LINE_CO_TXEQ_GO n) (be 1 v.toNat) = true ∧
        (s.phase n ≠ 4 ∨ s.rd (K.LINE_CO_TXEQ_POLICY n) ≠ 2 ∨ v = 0)) ∧
    (∃ (s : State) (n : Fin 16) (snr : Int), s.phase n = 4 ∧ snr = (s.snrValue (5 * (s.lane n).snrT.n * 2 ^ 52) (s.lane n).snrT.sq).1) ∧
    (∃ (s : State) (n : Fin 16), s.phase n ≠ 4) ∧
    (∃ (s : State) (r : Fin 18) (n : Fin 16), s.accepts r (K.LINE_CO_CLEAR n) (be 1 1) = true) :=
  ⟨⟨upV, 1, 1, by decide⟩,
   ⟨upV, 1, 1, by decide⟩,
   ⟨upV, 1, 1, by decide⟩,
   ⟨upV, 1, 1, by decide⟩,
   ⟨stTxeq, 1, 1, by decide, by decide⟩,
   ⟨stTxeq, 1, 1, by decide, by decide, by decide⟩,
   ⟨upV, 1, 1, 0, by decide, by decide⟩,
   ⟨up.wr (K.LINE_CO_PHASE 1) 4, 1, _, by decide, rfl⟩,
   ⟨up, 1, by decide⟩,
   ⟨upV, 1, 1, by decide⟩⟩

def stBurst : State := (((upV.modLane 1 fun l => { l with out := .modulating }).modPicot 1 fun p =>
    { p with queue := [⟨0x50, 1, []⟩] }).wr (K.LINE_CO_PHASE 1) 1).wr (K.LINE_TX_OUT_EN 1) 1
def stSync : State := up.modPicot 1 fun x => { x with rx := .sync, symNo := 16, candAt := 16 }
def syncSyms : List (BitVec 16) := (syncWord 3).map fun v => BitVec.ofInt 16 (256 * v)
theorem wit_PicotChannel :
    (∃ (s : State) (n : Fin 16) (p : Packet) (rest : List Packet), s.picotMay n = true ∧ (s.picot n).queue = p :: rest) ∧
    (∃ (s : State) (n : Fin 16), (s.picotMay n = false ∨ (s.picot n).queue = [])) ∧
    (∃ (s : State) (n : Fin 16) (p : Packet), (s.picot n).burst = some p ∧ (p.typ ≠ 0x09 ∨ s.coTimer n 13 ≠ 0)) ∧
    (∃ (s : State) (n : Fin 16) (p : Packet), (s.picot n).burst = some p ∧ p.typ = 0x09 ∧ s.coTimer n 13 = 0 ∧ (s.co n).bind ≠ none) ∧
    (∃ (s : State) (n : Fin 16), (s.picot n).burst = none) ∧
    (∃ (s : State) (n : Fin 16) (ds : List (BitVec 9 × BitVec 16 × BitVec 16)), (s.picot n).rx ≠ .off ∧ s.laneTested n = false ∧
        ∃ p e, candidateOf (s.rd (K.PICOT_DET_THR n)) (s.rdI (K.PICOT_SQUELCH n)) (ds.map fun d => (d.1.toNat, d.2.1.toInt)) = some (p,
        e)) ∧
    (∃ (s : State) (n : Fin 16) (ds : List (BitVec 9 × BitVec 16 × BitVec 16)), (s.picot n).rx ≠ .off ∧ s.laneTested n = false ∧
        (∀ d ∈ ds, d.1.toNat < s.rd (K.PICOT_DET_THR n) ∨ d.2.1.toInt < s.rdI (K.PICOT_SQUELCH n))) ∧
    (∃ (s : State) (n : Fin 16) (ds : List (BitVec 9 × BitVec 16 × BitVec 16)), ((s.picot n).rx = .off ∨ s.laneTested n = true)) ∧
    (∃ (s : State) (n : Fin 16), (s.picot n).rx ≠ .off ∧ s.laneTested n = false) ∧
    (∃ (s : State) (n : Fin 16), ((s.picot n).rx = .off ∨ s.laneTested n = true)) ∧
    (∃ (s : State) (n : Fin 16) (sym : List (BitVec 16)), (s.picot n).rx = .sync ∧ s.laneTested n = false ∧
        ∃ m, m = { s.picot n with disc := ((sym.map BitVec.toInt).reverse ++ (s.picot n).disc).take 96, symNo := (s.picot n).symNo + sym.length } ∧ ∃ e, m.candAt < e ∧ e ≤ m.candAt + 40 ∧ (∃ d, decisions m (e - 16) 16 = some d ∧ ((d.zip (syncWord (picotAmp m.mode))).filter fun p => p.1 != p.2).length ≤ 2)) ∧
    (∃ (s : State) (n : Fin 16) (sym : List (BitVec 16)), (s.picot n).rx = .sync ∧ s.laneTested n = false ∧
        ∃ m, m = { s.picot n with disc := ((sym.map BitVec.toInt).reverse ++ (s.picot n).disc).take 96, symNo := (s.picot n).symNo + sym.length } ∧ syncIn m = none) ∧
    (∃ (s : State) (n : Fin 16) (sym : List (BitVec 16)), (s.picot n).rx = .sync ∧ s.laneTested n = false ∧
        ∃ m, m = { s.picot n with disc := ((sym.map BitVec.toInt).reverse ++ (s.picot n).disc).take 96, symNo := (s.picot n).symNo + sym.length }) ∧
    (∃ (s : State) (n : Fin 16) (sym : List (BitVec 16)) (c : Instr), (c = .picotSyncFound n sym ∨ c = .picotSyncTimeout n sym) ∧
        ((s.picot n).rx ≠ .sync ∨ s.laneTested n = true)) ∧
    (∃ (s : State) (n : Fin 16) (a b : BitVec 4) (got : List Byte), (s.picot n).rx = .payload ∧ s.laneTested n = false ∧
        ∃ ok, ok = pilotOk (s.picot n).mode a.toInt b.toInt) ∧
    (∃ (s : State) (n : Fin 16) (a b : BitVec 4) (got : List Byte), ((s.picot n).rx ≠ .payload ∨ s.laneTested n = true)) ∧
    (∃ (s : State) (n : Fin 16) (sym : List (BitVec 16)) (snr foff : BitVec 16), (s.picot n).rx = .header ∧ s.laneTested n = false ∧
        ∃ m, m = { s.picot n with disc := ((sym.map BitVec.toInt).reverse ++ (s.picot n).disc).take 96, symNo := (s.picot n).symNo + sym.length }) ∧
    (∃ (s : State) (n : Fin 16) (sym : List (BitVec 16)) (snr foff : BitVec 16), ((s.picot n).rx ≠ .header ∨ s.laneTested n = true)) ∧
    (∃ (s : State) (n : Fin 16) (payload : List Byte) (crc : BitVec 32) (snr foff : BitVec 16) (back : BitVec 8),
        (s.picot n).rx = .payload ∧ s.laneTested n = false ∧
        ∃ ok, ok = State.payloadCrcOk (s.picot n).hdr (payload.take (State.byteAt (s.picot n).hdr 3)) (be 4 crc.toNat)) ∧
    (∃ (s : State) (n : Fin 16) (payload : List Byte) (crc : BitVec 32) (snr foff : BitVec 16) (back : BitVec 8),
        ((s.picot n).rx ≠ .payload ∨ s.laneTested n = true)) ∧
    (∃ (s : State) (r : Fin 18) (n : Fin 16), s.accepts r (K.PICOT_CLEAR n) (be 1 1) = true) :=
  ⟨⟨stBurst, 1, _, [], by decide, rfl⟩,
   ⟨up, 1, by decide⟩,
   ⟨up.modPicot 1 fun x => { x with burst := some { typ := 0, seq := 31, data := [] } }, 1, { typ := 0, seq := 31, data := [] },
       by decide, by decide⟩,
   ⟨(up.modPicot 1 fun x => { x with burst := some { typ := 9, seq := 3, data := [1] } }).modCo 1 fun x =>
       { x with timers := [0, 0, 0, 0, 0, 0, 0, 0, 0, 0, 0, 0, 0], bind := some 1 }, 1, { typ := 9, seq := 3, data := [1] }, by decide,
       by decide, by decide, by decide⟩,
   ⟨up, 1, by decide⟩,
   ⟨up.modPicot 1 fun x => { x with rx := .header }, 1, [(235, 0, 65535)], by decide, by decide, 0, 1, by decide⟩,
   ⟨up.modPicot 1 fun x => { x with rx := .sync }, 1, [], by decide, by decide, fun _ h => nomatch h⟩,
   ⟨up, 1, [], by decide⟩,
   ⟨up.modPicot 1 fun x => { x with rx := .header }, 1, by decide, by decide⟩,
   ⟨up, 1, by decide⟩,
   ⟨stSync, 1, syncSyms, by decide, by decide, _, rfl, 32, by decide, by decide, _, rfl, by decide⟩,
   ⟨up.modPicot 1 fun x => { x with rx := .sync }, 1, [1, 43169, 5, 1, 13174, 14654, 1, 0, 1, 9, 9, 2, 5], by decide, by decide, _, rfl,
       by decide⟩,
   ⟨up.modPicot 1 fun x => { x with rx := .sync }, 1, [1, 43169, 5, 1, 13174, 14654, 1, 0, 1, 9, 9, 2, 5], by decide, by decide, _, rfl⟩,
   ⟨up, 1, [], .picotSyncFound 1 [], by decide, by decide⟩,
   ⟨up.modPicot 1 fun x => { x with rx := .payload }, 1, 13, 7, [1, 0, 255, 24], by decide, by decide, _, rfl⟩,
   ⟨up, 1, 1, 13, [5], by decide⟩,
   ⟨up.modPicot 1 fun x => { x with rx := .header }, 1, [256, 256, 256, 256, 65280, 65280, 256, 65280, 256, 65280, 65280, 65280, 256, 256,
       65280, 256], 65535, 7680, by decide, by decide, _, rfl⟩,
   ⟨up, 0, [11249, 48187, 4], 1, 5200, by decide⟩,
   ⟨up.modPicot 1 fun x => { x with rx := .payload }, 1, [189, 255], 0, 4917, 9, 1, by decide, by decide, _, rfl⟩,
   ⟨up, 1, [5], 1, 33984, 33984, 207, by decide⟩,
   ⟨upV, 1, 1, by decide⟩⟩

def stDue : State := ((upV.modXfer 1 fun x => { x with last := some ⟨32, 0, 0, false, 0⟩, rows := 16, per := 16 }).wr (K.LINE_CO_PHASE 1)
    7).wr (K.LINE_CO_FLAGS 1) 8
theorem wit_TimeTransfer :
    (∃ (s : State) (n : Fin 16) (h : MsgHead) (m : TimeMsg) (back : BitVec 8), s.heard n 0x41 h = true ∧
        (s.judged n h).xferRuns n = true ∧ ∃ row, row = ((s.judged n h).rd (K.LINE_ROW_RX n) + 2 ^ 32 - back.toNat) % 2 ^ 32) ∧
    (∃ (s : State) (n : Fin 16) (h : MsgHead) (m : TimeMsg) (back : BitVec 8), s.heard n 0x41 h = true ∧
        (s.judged n h).xferRuns n = false) ∧
    (∃ (s : State) (n : Fin 16) (d : DepStamp), (s.xfer n).last = some d ∧ s.xferRuns n = true ∧ d.row % (s.xfer n).per = 0 ∧
        16 ≤ (s.xfer n).rows) ∧
    (∃ (s : State) (n : Fin 16), ((s.xfer n).last = none ∨ s.xferRuns n = false ∨ (s.xfer n).rows < 16)) ∧
    (∃ (s : State) (n : Fin 16), (s.xfer n).due ≠ none) ∧
    (∃ (s : State) (n : Fin 16), (s.xfer n).due = none) ∧
    (∃ (s : State), s.timeSrc ≠ 2 ∧ s.time.followed = true) ∧
    (∃ (s : State), (s.timeSrc = 1 ∨ s.timeSrc = 3) ∧ s.time.followed = false ∧ s.rd K.TIME_HOLDOVER_MISS ≤ s.time.missed + 1) ∧
    (∃ (s : State), s.on K.TIME_RING_BEACON_EN = false ∧ s.timeSrc ≠ 2 ∧ s.time.beaconSeen = true) ∧
    (∃ (s : State) (r : Fin 18) (n : Fin 16), s.accepts r (K.TIME_CLEAR n) (be 1 1) = true) :=
  ⟨⟨((up.wr (K.LINE_CO_PHASE 1) 7).wr (K.LINE_CO_FLAGS 1) 55240).wr (K.LINE_CO_PEER_SESSION 1) 1, 1,
      { seq := 0, ack := 255, phase := 7, session := 1 },
      { txRow := 1487277315, txStamp := 79228162514264337593543950335, echoRow := 1, echoStamp := 1, echoFrac := 0, flags := 2 }, 0,
      by decide, by decide, _, rfl⟩,
   ⟨(up.wr (K.LINE_CO_PHASE 1) 7).wr (K.LINE_CO_PEER_SESSION 1) 1, 1, { seq := 0, ack := 255, phase := 7, session := 1 },
       { txRow := 1, txStamp := 1, echoRow := 0, echoStamp := 1, echoFrac := 0, flags := 0 }, 1, by decide, by decide⟩,
   ⟨stDue, 1, ⟨32, 0, 0, false, 0⟩, rfl, by decide, by decide, by decide⟩,
   ⟨up, 1, by decide⟩,
   ⟨up.modXfer 1 fun x => { x with due := some { row := 16, gen := 37, stamp := 1, held := false, rateSeq := 75 } }, 1, by decide⟩,
   ⟨up, 1, by decide⟩,
   ⟨up.modTime fun x => { x with followed := true }, by decide, by decide⟩,
   ⟨(up.wr K.TIME_STATUS 32).wr K.TIME_HOLDOVER_MISS 0, by decide, by decide, by decide⟩,
   ⟨up.modTime fun x => { x with beaconSeen := true }, by decide, by decide, by decide⟩,
   ⟨upV, 1, 1, by decide⟩⟩

def stRetest : State := (upV.modSlice 1 3 fun x => { x with st := 3 }).wr (K.LINE_CO_PHASE 1) 4
theorem wit_SlipStitch :
    (∃ (s : State) (n : Fin 16) (i : Fin 17) (v : BitVec 16), s.ssUnder n = some i) ∧
    (∃ (s : State) (n : Fin 16) (i : Fin 17) (v : BitVec 16) (cause : Nat), s.ssUnder n = some i ∧ (s.ss n).retest = false ∧
        ((s.ss n).step = 1 ∧ 4096 < (sx 16 v.toNat).natAbs ∧ cause = 1 ∨ (s.ss n).step = 2 ∧ v.toNat < 28672 ∧
        cause = 2 ∨ (s.ss n).step = 2 ∧ 36864 < v.toNat ∧ cause = 2 ∨ (s.ss n).step = 3 ∧ s.losOn n = false ∧
        32 < (sx 16 v.toNat).natAbs ∧ cause = 3 ∨ (s.ss n).step = 5 ∧ s.losOn n = false ∧ s.rd (K.LINE_SS_VERIFY_THR n) < v.toNat ∧
        cause = 4)) ∧
    (∃ (s : State) (n : Fin 16) (v : BitVec 16), (s.ssUnder n = none ∨ (s.ss n).step = 0 ∨ (s.ss n).step = 6)) ∧
    (∃ (s : State) (n : Fin 16), 1 ≤ (s.ss n).step ∧ (s.ss n).step ≤ 5 ∧ (s.ss n).retest = false ∧ (s.ss n).ended = false) ∧
    (∃ (s : State) (n : Fin 16), ((s.ss n).step = 0 ∨ (s.ss n).retest = true ∨ (s.ss n).ended = true)) ∧
    (∃ (s : State) (n : Fin 16) (c : Instr) (i j : Fin 17), s.sliceSpare n = some i ∧ s.sliceAt n (s.ss n).target = some j ∧
        (s.ss n).step = 6 ∧ s.losOn n = false ∧ (c = .ssIntervalEnd n ∧ (s.ss n).retest = false ∧
        (s.ss n).ended = false ∨ c = .ssSubstitution n ∧ ((s.ss n).ended || (s.ss n).outOfTurn || (s.ss n).subNow) = true)) ∧
    (∃ (s : State) (n : Fin 16), s.ssReady n = false) ∧
    (∃ (s : State) (r : Fin 18) (n : Fin 16) (i : Fin 17), s.accepts r (K.LINE_SS_RETEST n) (be 1 1) = true ∧ s.sliceOut n = some i ∧
        (s.sliceOf n i).st = 3) ∧
    (∃ (s : State) (r : Fin 18) (n : Fin 16), s.accepts r (K.LINE_SS_RETEST n) (be 1 0) = true) ∧
    (∃ (s : State) (r : Fin 18) (n : Fin 16), s.accepts r (K.LINE_SS_CLEAR n) (be 1 1) = true) :=
  ⟨⟨up, 1, 16, 59899, by decide⟩,
   ⟨up.modSs 1 fun x => { x with step := 1 }, 1, 16, 49243, 1, by decide, by decide, by decide⟩,
   ⟨up, 1, 59391, by decide⟩,
   ⟨up.modSs 1 fun x => { x with step := 1 }, 1, by decide, by decide, by decide, by decide⟩,
   ⟨up, 0, by decide⟩,
   ⟨up.modSs 1 fun x => { x with step := 6 }, 1, .ssIntervalEnd 1, 16, 0, by decide, by decide, by decide, by decide, by decide⟩,
   ⟨up, 1, by decide⟩,
   ⟨stRetest, 1, 1, 3, by decide, by decide, by decide⟩,
   ⟨stRetest, 1, 1, by decide⟩,
   ⟨upV, 1, 1, by decide⟩⟩

theorem wit_LaneCalibration :
    (∃ (s : State) (r : Fin 18) (n : Fin 16) (c : Instr) (v : Nat), (c = .lineCalLane r n ∧ v = 1 ∨ c = .lineCalDac r n ∧
        v = 2 ∨ c = .lineCalBoth r n ∧ v = 3) ∧ s.accepts r (K.LINE_CAL_CMD n) (be 1 v) = true) ∧
    (∃ (s : State) (n : Fin 16) (corr : List SliceCorr), (s.lane n).calLane = true ∧
        ∃ mask, mask = State.corrMask (corr.map fun c => (c.off.toInt, c.gain.toNat, c.skew.toInt)) ∧
        ∃ failed, failed = (State.maskSlices mask).length) ∧
    (∃ (s : State) (n : Fin 16) (corr : List SliceCorr), (s.lane n).calLane = false) ∧
    (∃ (corr : List (Int × Nat × Int)) (i : Nat), i < 17) ∧
    (∃ (s : State) (n : Fin 16) (bad : Bool), (s.lane n).calDac = true) ∧
    (∃ (s : State) (n : Fin 16) (bad : Bool), (s.lane n).calDac = false) ∧
    (∃ (s : State) (n : Fin 16), (s.lane n).calBad = true ∧ s.on (K.LINE_ADMIN n) = true ∧ s.phase n = 0 ∧ s.inRun n = true ∧
        s.calIdle n = true) ∧
    (∃ (s : State) (n : Fin 16), ((s.lane n).calBad = false ∨ s.on (K.LINE_ADMIN n) = false ∨ s.phase n ≠ 0)) :=
  ⟨⟨upV, 1, 1, .lineCalLane 1 1, 1, by decide, by decide⟩,
   ⟨up.modLane 1 fun l => { l with calLane := true }, 1, [], by decide, _, rfl, _, rfl⟩,
   ⟨up, 1, [], by decide⟩,
   ⟨[], 0, by decide⟩,
   ⟨up.modLane 1 fun l => { l with calDac := true }, 1, true, by decide⟩,
   ⟨up, 1, true, by decide⟩,
   ⟨(up.modLane 1 fun l => { l with calBad := true }).wr (K.LINE_ADMIN 1) 1, 1, by decide, by decide, by decide, by decide, by decide⟩,
   ⟨up, 1, by decide⟩⟩

theorem wit_RingPorts :
    (∃ (s : State) (r : Fin 18) (p : Fin 2), s.accepts r (K.PORT_ADMIN p) (be 1 0) = true) ∧
    (∃ (s : State) (r : Fin 18) (p : Fin 2), s.accepts r (K.PORT_ADMIN p) (be 1 1) = true) ∧
    (∃ (s : State) (p : Fin 2), s.portState p = 1) ∧
    (∃ (s : State) (p : Fin 2), s.portState p = 2 ∧ (s.port p).atTarget = true) ∧
    (∃ (s : State) (p : Fin 2), s.portState p ≠ 1 ∧ (s.portState p ≠ 2 ∨ (s.port p).atTarget = false)) ∧
    (∃ (s : State) (p : Fin 2) (d : BitVec 8) (t' : Nat), s.portState p = 2 ∧ (s.port p).atTarget = false ∧ (s.port p).byGo = false ∧
        s.ownTarget p d.toNat = some t' ∧ t' ≤ (s.port p).maxRate ∧ t' ≤ field d.toNat 7 6) ∧
    (∃ (s : State) (p : Fin 2) (d : BitVec 8), s.portState p = 2 ∧ (s.port p).atTarget = false ∧ (s.port p).byGo = false ∧
        (s.ownTarget p d.toNat = none ∨ (∃ t', s.ownTarget p d.toNat = some t' ∧ ((s.port p).maxRate < t' ∨ field d.toNat 7 6 < t')))) ∧
    (∃ (s : State) (p : Fin 2) (d : BitVec 8), s.portState p ≠ 0 ∧ s.portState p ≠ 5 ∧
        (s.portState p ≠ 2 ∨ (s.port p).atTarget = true ∨ (s.port p).byGo = true)) ∧
    (∃ (s : State) (p : Fin 2) (d : BitVec 8), (s.portState p = 0 ∨ s.portState p = 5)) ∧
    (∃ (s : State) (p : Fin 2), s.portState p = 2 ∧ (s.port p).held = false) ∧
    (∃ (s : State) (p : Fin 2), (s.portState p ≠ 2 ∨ (s.port p).held = true)) ∧
    (∃ (s : State) (p : Fin 2), s.portState p = 3) ∧
    (∃ (s : State) (p : Fin 2), s.portState p ≠ 3) ∧
    (∃ (s : State) (p : Fin 2) (inFrame : Bool), s.portState p ≠ 0 ∧ s.portState p ≠ 5) ∧
    (∃ (s : State) (p : Fin 2) (inFrame : Bool), (s.portState p = 0 ∨ s.portState p = 5)) ∧
    (∃ (s : State) (p : Fin 2), s.portUp p = true) ∧
    (∃ (s : State) (p : Fin 2), s.portUp p = false) ∧
    (∃ (s : State) (p : Fin 2) (x : Fin 4) (at_ : Nat), s.portUp p = true ∧ s.ring.rateSet = some (x.val, at_) ∧
        s.now ≤ at_ + 175781250) ∧
    (∃ (s : State) (p : Fin 2) (x : Fin 4), s.portUp p = true ∧ (s.ring.rateSet = none ∨ (∃ r, s.ring.rateSet = some r ∧
        (r.1 ≠ x.val ∨ r.2 + 175781250 < s.now)))) ∧
    (∃ (s : State) (p : Fin 2) (x : Fin 4), s.portState p = 2 ∧ (s.port p).goIn = true) ∧
    (∃ (s : State) (p : Fin 2) (w : Bool), s.portUp p = true) ∧
    (∃ (s : State) (p : Fin 2) (x : Fin 4) (w : Bool) (c : Instr), (c = .rateGo p x ∧
        (s.portState p ≠ 2 ∨ (s.port p).goIn = false) ∨ c = .topo p w) ∧ s.portUp p = false) :=
  ⟨⟨upV, 1, 1, by decide⟩,
   ⟨upV, 1, 1, by decide⟩,
   ⟨up.wr (K.PORT_STATE 1) 1, 1, by decide⟩,
   ⟨(up.modPort 1 fun x => { x with atTarget := true }).wr (K.PORT_STATE 1) 2, 1, by decide, by decide⟩,
   ⟨up, 1, by decide, by decide⟩,
   ⟨up.wr (K.PORT_STATE 1) 2, 1, 0, 0, by decide, by decide, by decide, by decide, by decide, by decide⟩,
   ⟨up.wr (K.PORT_STATE 1) 2, 1, 61, by decide, by decide, by decide, by decide⟩,
   ⟨up.wr (K.PORT_STATE 1) 1, 1, 1, by decide, by decide, by decide⟩,
   ⟨up, 1, 62, by decide⟩,
   ⟨up.wr (K.PORT_STATE 1) 2, 1, by decide, by decide⟩,
   ⟨up, 1, by decide⟩,
   ⟨up.wr (K.PORT_STATE 1) 3, 1, by decide⟩,
   ⟨up, 1, by decide⟩,
   ⟨up.wr (K.PORT_STATE 1) 1, 1, true, by decide, by decide⟩,
   ⟨up, 1, true, by decide⟩,
   ⟨up.wr (K.PORT_STATE 1) 4, 1, by decide⟩,
   ⟨up, 1, by decide⟩,
   ⟨(up.modRing fun x => { x with rateSet := some (0, 0) }).wr (K.PORT_STATE 1) 4, 1, 0, 0, by decide, by decide, by decide⟩,
   ⟨up.wr (K.PORT_STATE 1) 4, 1, 1, by decide, by decide⟩,
   ⟨(up.modPort 1 fun x => { x with goIn := true }).wr (K.PORT_STATE 1) 2, 1, 1, by decide, by decide⟩,
   ⟨up.wr (K.PORT_STATE 1) 4, 1, true, by decide⟩,
   ⟨up, 0, 1, true, .rateGo 0 1, by decide, by decide⟩⟩

theorem wit_RingAccess :
    (∃ (s : State) (p : Fin 2), (∀ q, (s.port q).flight = none) ∧ s.portUp p = true ∧ (s.ringAddr = 0 ∨ (s.eventDue = none ∧
        s.ring.queue.find? (s.mayLeave (s.outOf p)) = none))) ∧
    (∃ (s : State) (p : Fin 2) (f : RingFrame), (∀ q, (s.port q).flight = none) ∧ s.portUp p = true ∧ s.ringAddr ≠ 0 ∧ s.eventDue = none ∧
        s.ring.queue.find? (s.mayLeave (s.outOf p)) = some f ∧ f.typ ≠ 0x30 ∧ f.seq = none) ∧
    (∃ (s : State) (p : Fin 2) (d : Nat), (∀ q, (s.port q).flight = none) ∧ s.portUp p = true ∧ s.ringAddr ≠ 0 ∧ s.ring.event = none ∧
        s.eventDest = some d ∧ s.ring.rose ≠ 0 ∧ (s.outOf p = 0 ∨ s.saUp = false)) ∧
    (∃ (s : State) (p : Fin 2), (∀ q, (s.port q).flight = none) ∧ s.portUp p = true) ∧
    (∃ (s : State) (p : Fin 2) (f : RingFrame) (e : Nat), (s.port (s.outOf p)).flight = some (f, e) ∧ s.now < e ∧ s.portUp p = true) ∧
    (∃ (s : State) (p : Fin 2) (c : Instr), (c = .token p ∨ c = .sof p) ∧ (∀ q, (s.port q).flight = none) ∧ s.portUp p = false) ∧
    (∃ (s : State) (p : Fin 2), s.portUp p = true) ∧
    (∃ (s : State) (p : Fin 2), s.portUp p = false) ∧
    (∃ (s : State) (e : RingEvent), (∀ q, (s.port q).flight = none) ∧ s.ring.event = some e ∧ s.ringAddr ≠ 0 ∧ e.again = false) ∧
    (∃ (s : State), (∀ q, (s.port q).flight = none) ∧ s.ring.event = none) ∧
    (∃ (s : State), s.rd K.RING_CRC_THR ≠ 0 ∧ s.rd K.RING_CRC_THR ≤ (s.ring.crcAt.filter fun x => s.now < x + ccPerSecond).length) ∧
    (∃ (s : State), (s.rd K.RING_CRC_THR = 0 ∨ (s.ring.crcAt.filter fun x => s.now < x + ccPerSecond).length < s.rd K.RING_CRC_THR)) ∧
    (∃ (s : State) (r : Fin 18), s.accepts r K.RING_CLEAR (be 1 1) = true) ∧
    (∃ (s : State), s.on K.TIME_RING_BEACON_EN = true ∧ s.rd K.TIME_RING_PERIOD ≠ 0 ∧ s.running = true ∧ s.ringAddr ≠ 0) ∧
    (∃ (s : State), (s.on K.TIME_RING_BEACON_EN = false ∨ s.rd K.TIME_RING_PERIOD = 0 ∨ s.running = false)) :=
  ⟨⟨up.wr (K.PORT_STATE 1) 4, 1, by decide, by decide, by decide⟩,
   ⟨(((up.modRing fun x => { x with queue := [{ dest := 0, typ := 0, data := [8, 3, 255], out := some 1, seq := none }] }).wr K.RING_ADDR
       1).wr (K.PORT_STATE 0) 4).wr (K.PORT_STATE 1) 4, 0, { dest := 0, typ := 0, data := [8, 3, 255], out := some 1, seq := none },
       by decide, by decide, by decide, by decide, by decide, by decide, by decide⟩,
   ⟨(((up.modRing fun x => { x with rose := 1 }).wr K.RING_ADDR 1).wr K.RING_EVENT_DEST 6).wr (K.PORT_STATE 1) 4, 1, 6, by decide,
       by decide, by decide, by decide, by decide, by decide, by decide⟩,
   ⟨up.wr (K.PORT_STATE 1) 4, 1, by decide, by decide⟩,
   ⟨((up.modPort 0 fun x => { x with flight := some ({ dest := 11, typ := 61878, data := [], out := some 1, seq := none }, 10301) }).wr
       (K.PORT_STATE 0) 4).wr (K.PORT_STATE 1) 4, 1, { dest := 11, typ := 61878, data := [], out := some 1, seq := none }, 10301,
       by decide, by decide, by decide⟩,
   ⟨up, 1, .token 1, by decide, by decide, by decide⟩,
   ⟨up.wr (K.PORT_STATE 1) 4, 1, by decide⟩,
   ⟨up, 1, by decide⟩,
   ⟨(up.modRing fun x =>
       { x with event := some { seq := 7, dest := 3, data := [], rose := 24786, time := 32, retries := 28, again := false } }).wr
       K.RING_ADDR 1, { seq := 7, dest := 3, data := [], rose := 24786, time := 32, retries := 28, again := false }, by decide, by decide,
       by decide, by decide⟩,
   ⟨up, by decide, by decide⟩,
   ⟨(up.modRing fun x => { x with crcAt := [0] }).wr K.RING_CRC_THR 1, by decide, by decide⟩,
   ⟨up, by decide⟩,
   ⟨upV, 1, by decide⟩,
   ⟨((up.wr K.RING_ADDR 1).wr K.TIME_STATUS 1).wr K.TIME_RING_BEACON_EN 1, by decide, by decide, by decide, by decide⟩,
   ⟨up, by decide⟩⟩

theorem wit_RingFrames :
    (∃ (s : State) (p : Fin 2) (bytes : List Byte) (void : Bool), s.portUp p = true ∧ 2 ≤ bytes.length ∧
        s.ringFate (State.byteAt bytes 0) (State.byteAt bytes 1) = .absorb) ∧
    (∃ (s : State) (p : Fin 2) (bytes : List Byte) (void : Bool), s.portUp p = true ∧ 2 ≤ bytes.length ∧
        s.ringFate (State.byteAt bytes 0) (State.byteAt bytes 1) = .forward) ∧
    (∃ (s : State) (p : Fin 2) (bytes : List Byte) (void : Bool), s.portUp p = true ∧ 2 ≤ bytes.length ∧
        s.ringFate (State.byteAt bytes 0) (State.byteAt bytes 1) = .strip ∧ State.byteAt bytes 0 ≠ 0xFF) ∧
    (∃ (s : State) (p : Fin 2) (bytes : List Byte) (void : Bool), s.portUp p = false) ∧
    (∃ (s : State) (p : Fin 2) (h : RingHead) (hops : BitVec 8) (epoch : BitVec 32), s.portUp p = true ∧
        (s.ringFate h.dest.toNat h.src.toNat = .both ∨ s.ringFate h.dest.toNat h.src.toNat = .absorb) ∧ isHostAddr h.src.toNat = true ∧
        (s.port p).cut = false ∧ (p = 1 ∨ s.sbUp = false) ∧ (s.ringOwnerIs h.src.toNat = true ∨ s.rd K.RING_OWNER_EPOCH = 0)) ∧
    (∃ (s : State) (p : Fin 2) (h : RingHead) (epoch : BitVec 32) (flags : BitVec 8), s.portUp p = true ∧
        (s.ringFate h.dest.toNat h.src.toNat = .both ∨ s.ringFate h.dest.toNat h.src.toNat = .absorb) ∧ isHostAddr h.src.toNat = true ∧
        (s.port p).cut = false ∧ ∃ (host : Nat), host = h.src.toNat - 0xC0 ∧ epoch.toNat ≠ 0 ∧ flags.toNat ≤ 1) ∧
    (∃ (s : State) (p : Fin 2) (h : RingHead) (target rsv : BitVec 8), s.portUp p = true ∧
        (s.ringFate h.dest.toNat h.src.toNat = .both ∨ s.ringFate h.dest.toNat h.src.toNat = .absorb) ∧ isHostAddr h.src.toNat = true ∧
        (s.port p).cut = false) ∧
    (∃ (s : State) (p : Fin 2) (h : RingHead) (target : BitVec 64) (kind rsv : BitVec 8), s.portUp p = true ∧
        (s.ringFate h.dest.toNat h.src.toNat = .both ∨ s.ringFate h.dest.toNat h.src.toNat = .absorb) ∧ isHostAddr h.src.toNat = true ∧
        (s.port p).cut = false) ∧
    (∃ (s : State) (p : Fin 2) (h : RingHead) (seq : BitVec 32), s.portUp p = true ∧
        (s.ringFate h.dest.toNat h.src.toNat = .both ∨ s.ringFate h.dest.toNat h.src.toNat = .absorb) ∧ isHostAddr h.src.toNat = true ∧
        (s.port p).cut = false) ∧
    (∃ (s : State) (p : Fin 2) (h : RingHead) (src : BitVec 64) (dep : BitVec 96) (corr : BitVec 64) (j : Fin 16) (meas : BitVec 32),
        s.portUp p = true ∧ (s.ringFate h.dest.toNat h.src.toNat = .both ∨ s.ringFate h.dest.toNat h.src.toNat = .absorb) ∧
        (s.port p).cut = false ∧ s.on K.TIME_RING_BEACON_EN = false ∧
        (s.rd K.TIME_RING_SRC_ID = 0 ∨ s.rd K.TIME_RING_SRC_ID = src.toNat) ∧ s.time.port = p ∧
        ∃ (e : Int), e = s.beaconErr p dep.toNat corr.toNat (counterAdd s.time.counter (State.subCc j.val))) ∧
    (∃ (s : State) (p : Fin 2) (h : RingHead) (src : BitVec 64) (dep : BitVec 96) (corr : BitVec 64) (j : Fin 16) (meas : BitVec 32),
        s.portUp p = true ∧ s.ringFate h.dest.toNat h.src.toNat = .strip ∧ (s.port p).cut = false ∧ s.on K.TIME_RING_BEACON_EN = true ∧
        src.toNat = State.uid ∧ ∃ (e : Int), e = -(s.beaconErr p dep.toNat corr.toNat (counterAdd s.time.counter (State.subCc j.val)))) ∧
    (∃ (s : State) (p : Fin 2) (h : RingHead) (n k : BitVec 8) (epoch seq : BitVec 32) (target src corr : BitVec 64) (dep : BitVec 96) (j
        : Fin 16) (c : Instr),
        (c = .enum p h n k epoch ∨ c = .claim p h epoch n k ∨ c = .rateSet p h n k ∨ c = .reset p h target n k ∨ c = .eventAck p h seq ∨ c
        = .beacon p h src dep corr j seq) ∧ (s.portUp p = false ∨ (s.port p).cut = true)) :=
  ⟨⟨(up.wr K.RING_ADDR 5).wr (K.PORT_STATE 0) 4, 0, [5, 193, 3, 17, 0, 0, 140, 123, 207, 227], true, by decide, by decide, by decide⟩,
   ⟨up.wr (K.PORT_STATE 1) 4, 1, [5, 193, 3, 17, 0, 1, 1, 64, 224, 4, 170], true, by decide, by decide, by decide⟩,
   ⟨(up.wr K.RING_ADDR 1).wr (K.PORT_STATE 0) 4, 0, [0, 1, 1, 148], true, by decide, by decide, by decide, by decide⟩,
   ⟨up, 1, [5, 193, 3, 17, 0, 1, 1, 64, 224, 77, 170], false, by decide⟩,
   ⟨up.wr (K.PORT_STATE 1) 4, 1, { dest := 255, src := 193, seq := 3 }, 0, 0, by decide, by decide, by decide, by decide, by decide,
       by decide⟩,
   ⟨up.wr (K.PORT_STATE 0) 4, 0, { dest := 255, src := 193, seq := 3 }, 1937460780, 0, by decide, by decide, by decide, by decide, _, rfl,
       by decide, by decide⟩,
   ⟨up.wr (K.PORT_STATE 1) 4, 1, { dest := 255, src := 193, seq := 3 }, 0, 0, by decide, by decide, by decide, by decide⟩,
   ⟨up.wr (K.PORT_STATE 1) 4, 1, { dest := 255, src := 192, seq := 4 }, 8913473706851356998, 255, 255, by decide, by decide, by decide,
       by decide⟩,
   ⟨up.wr (K.PORT_STATE 1) 4, 1, { dest := 255, src := 195, seq := 4 }, 0, by decide, by decide, by decide, by decide⟩,
   ⟨up.wr (K.PORT_STATE 0) 4, 0, { dest := 255, src := 245, seq := 1 }, 0, 0, 1, 1, 2207518596, by decide, by decide, by decide,
       by decide, by decide, by decide, _, rfl⟩,
   ⟨((up.wr K.RING_ADDR 2).wr K.TIME_RING_BEACON_EN 1).wr (K.PORT_STATE 0) 4, 0, { dest := 255, src := 2, seq := 9 }, Config.uniqueId, 7,
       9, 1, 3, by decide, by decide, by decide, by decide, rfl, _, rfl⟩,
   ⟨up, 1, { dest := 57, src := 255, seq := 1 }, 1, 2, 209054429, 1404676933, 0, 0, 1, 79228162514264337593543950335, 1,
       .enum 1 { dest := 57, src := 255, seq := 1 } 1 2 209054429, by decide, by decide⟩⟩

theorem wit_MonitorSequencer :
    (∃ (s : State) (e : Nat) (h : e < 64) (code : BitVec 12), s.ce.pass = some e ∧ s.ceRuns = true ∧ s.slotRuns = true) ∧
    (∃ (s : State) (code : BitVec 12), (s.slotRuns = false ∨ s.ceRuns = false)) ∧
    (∃ (s : State) (r : Fin 18) (v : BitVec 16) (fits : Bool), s.accepts r K.MON_URGENT_REQ (be 2 v.toNat) = true) ∧
    (∃ (s : State) (v : Nat) (code : BitVec 12), s.ce.urgent = some v ∧ s.ceRuns = true) ∧
    (∃ (s : State) (code : BitVec 12), (s.ce.urgent = none ∨ s.ceRuns = false)) ∧
    (∃ (s : State) (r : Fin 18), s.accepts r K.MON_CAL_CMD (be 1 1) = true) ∧
    (∃ (s : State), s.ce.calPend = true ∧ s.ceRuns = true ∧ s.ce.urgent = none) ∧
    (∃ (s : State), (s.ce.calPend = false ∨ s.ceRuns = false ∨ s.ce.urgent ≠ none)) ∧
    (∃ (s : State) (bad : Bool), s.ce.calRun = true) ∧
    (∃ (s : State) (bad : Bool), s.ce.calRun = false) :=
  ⟨⟨(up.modCe fun x => { x with pass := some 3 }).wr K.CE_STATUS 1, 3, by decide, 7, by decide, by decide, by decide⟩,
   ⟨up, 1112, by decide⟩,
   ⟨upV, 1, 1, true, by decide⟩,
   ⟨(up.modCe fun x => { x with urgent := some 3 }).wr K.CE_STATUS 1, 3, 0, by decide, by decide⟩,
   ⟨up, 1112, by decide⟩,
   ⟨upV, 1, by decide⟩,
   ⟨up.wr K.CE_STATUS 1, by decide, by decide, by decide⟩,
   ⟨up, by decide⟩,
   ⟨up.modCe fun x => { x with calRun := true }, true, by decide⟩,
   ⟨up, true, by decide⟩⟩

theorem wit_ControlFrameWrites :
    (∃ (s : State) (r : Fin 18) (v : BitVec 8) (w : BitVec 64) (e j : Fin 64) (a : Fin 48) (c : Instr) (k : Key) (data : List Byte),
        (c = .monCntClear r v ∧ k = K.MON_CNT_CLEAR ∧ data = be 1 v.toNat ∨ c = .filtPreset r e v ∧ k = K.FILT_PRESET e ∧
        data = be 1 v.toNat ∨ c = .filtSwap r e v ∧ k = K.FILT_SWAP e ∧ data = be 1 v.toNat ∨ c = .loopModeWrite r j v ∧
        k = K.LOOP_MODE j ∧ data = be 1 v.toNat ∨ c = .loopIntegratorWrite r j w ∧ k = K.LOOP_INTEGRATOR j ∧
        data = be 8 w.toNat ∨ c = .rcClear r j v ∧ k = K.RC_CLEAR j ∧ data = be 1 v.toNat ∨ c = .auxModeWrite r a v ∧ k = K.AUX_MODE a ∧
        data = be 1 v.toNat ∨ c = .cePadRelease r v ∧ k = K.CE_PAD_RELEASE ∧ data = be 1 v.toNat) ∧ s.accepts r k data = true) ∧
    (∃ (s : State), s.ceRuns = true ∧ (∀ g ∈ s.od.waiting, g.bound ≠ .frame)) ∧
    (∃ (s : State), s.ceRuns = false ∧ s.clk.lsynRuns = true ∧ (∀ g ∈ s.od.waiting, g.bound ≠ .frame)) ∧
    (∃ (s : State), s.ceRuns = false ∧ s.clk.lsynRuns = false) ∧
    (∃ (s : State) (r : Fin 18) (e : Nat) (k : Key) (data : List Byte), (s.ceRuns = true ∨ s.clk.lsynRuns = true) ∧
        s.od.waiting = [{ req := r, epoch := e, bound := .frame, grp := false, writes := [(k, data)] }]) :=
  ⟨⟨upV, 1, 1, 3, 1, 1, 1, .monCntClear 1 1, K.MON_CNT_CLEAR, [1], by decide, by decide⟩,
   ⟨up.wr K.CE_STATUS 1, by decide, by decide⟩,
   ⟨up, by decide, by decide, by decide⟩,
   ⟨State.reset, by decide, by decide⟩,
   ⟨up.modOd fun o => { o with waiting := [⟨1, 0, .frame, false, [(K.LOOP_MODE 1, be 1 1)]⟩] }, 1, 0, K.LOOP_MODE 1, be 1 1, by decide,
       rfl⟩⟩

theorem wit_ControlLoops :
    (∃ (s : State) (levels : BitVec 16), (s.ce.snapDone = true ∨ (s.ceRuns = false ∧ s.clk.lsynRuns = false))) ∧
    (∃ (s : State) (levels : BitVec 16), s.ceRuns = false ∧ s.clk.lsynRuns = true ∧ s.ce.snapDone = false) ∧
    (∃ (s : State) (levels : BitVec 16), s.ceRuns = true ∧ s.ce.snapDone = false) ∧
    (∃ (s : State) (levels : BitVec 16) (j : Fin 64), s.ceRuns = true ∧ s.ce.snapDone = false ∧ s.ce.hold = false ∧
        s.rd (K.LOOP_MODE j) = 1 ∧ s.rd K.CE_FRAME % s.rd (K.LOOP_PERIOD j) ≠ 0) ∧
    (∃ (s : State) (levels : BitVec 16) (j : Fin 64), s.ceRuns = true ∧ s.ce.snapDone = false ∧ s.ce.hold = false ∧
        s.rd (K.LOOP_MODE j) = 2 ∧ s.rd K.CE_FRAME % s.rd (K.LOOP_PERIOD j) = 0 ∧
        s.srcNew (s.rd (K.LOOP_INPUT j)) (s.rd K.CE_FRAME) (s.loop j).prevDue = true ∧ s.rd (K.LOOP_FAULT_COUNT j) = 0 ∧
        s.rd (K.SCHED_VAR j) = 255 ∧ s.rd (K.LOOP_REGION j) = 0 ∧ s.rd (K.RC_LEN j) = 0 ∧ (s.loop j).preset = false ∧
        s.rd (K.LOOP_UMAX j) < 2 ^ 16 ∧ s.rd (K.LOOP_UMIN j) < 2 ^ 16 ∧ ∃ y, y = s.srcValue (s.rd (K.LOOP_INPUT j)) ∧
        ∃ (e : Int), e = (if s.on (K.LOOP_POLARITY j) then (y : Int) - s.rd (K.LOOP_SETPOINT j) else (s.rd (K.LOOP_SETPOINT j) : Int) - y)
        ∧ ∃ e1, e1 = clampI (-2147483648) 2147483647 (roundAway (e * (loopGain (fun k => s.rd (K.LOOP_GAIN_LUT j k)) (s.rd
        (K.LOOP_GAIN_SHIFT j)) e : Int)) 16384) ∧ ∃ p, p = s.rdI (K.SCHED_KP j 0) * e1 ∧ ∃ d, d = s.rdI (K.SCHED_KI j 0) * e1 ∧
        ∃ ff, ff = s.rdI (K.LOOP_FF j) * 65536 ∧ ∃ (umin : Int), umin = (s.rd (K.LOOP_UMIN j) * 65536 : Nat) ∧
        ∃ (umax : Int), umax = (s.rd (K.LOOP_UMAX j) * 65536 : Nat) ∧ ∃ sum, sum = p + s.rdI (K.LOOP_INTEGRATOR j) + ff ∧
        ∃ i1, i1 = (if !(decide (umax < sum) && decide (0 < d)) && !(decide (sum < umin) && decide (d < 0)) then clampI umin umax (s.rdI
        (K.LOOP_INTEGRATOR j) + d) else s.rdI (K.LOOP_INTEGRATOR j))) ∧
    (∃ (s : State) (compl short : BitVec 48), (s.ceRuns = false ∨ s.ce.snapDone = false ∨ s.ce.outDone = true)) ∧
    (∃ (s : State) (compl short : BitVec 48), s.ceRuns = true ∧ s.ce.snapDone = true ∧ s.ce.outDone = false ∧ s.ce.hold = true ∧
        s.ce.trip = false) ∧
    (∃ (s : State) (compl short : BitVec 48) (j : Fin 64) (u : Nat), s.ceRuns = true ∧ s.ce.snapDone = true ∧ s.ce.outDone = false ∧
        s.ce.hold = false ∧ s.ce.trip = false ∧ s.ce.resume = false ∧ s.ce.release = false ∧ (s.loop j).out = some u ∧ u < 2 ^ 16 ∧
        (∀ a : Fin 48, s.rd (K.LOOP_OUTPUT j) = a.val → s.auxHeld a = false)) ∧
    (∃ (s : State) (compl short : BitVec 48) (j : Fin 64) (u : Nat) (a : Fin 48), s.ceRuns = true ∧ s.ce.snapDone = true ∧
        s.ce.outDone = false ∧ s.ce.hold = false ∧ s.ce.trip = false ∧ s.ce.resume = false ∧ s.ce.release = false ∧
        (s.loop j).out = some u ∧ u < 2 ^ 16 ∧ s.rd (K.LOOP_OUTPUT j) = a.val ∧ s.auxHeld a = true) ∧
    (∃ (s : State) (compl short : BitVec 48) (a : Fin 48), s.ceRuns = true ∧ s.ce.snapDone = true ∧ s.ce.outDone = false ∧
        s.ce.hold = false ∧ s.ce.trip = false ∧ s.ce.resume = false ∧ s.ce.release = false ∧ s.auxHeld a = false) ∧
    (∃ (s : State) (compl short : BitVec 48) (a : Fin 48) (isShort : Bool), s.ceRuns = true ∧ s.ce.snapDone = true ∧
        s.ce.outDone = false ∧ s.ce.hold = false ∧ s.ce.trip = false ∧ s.ce.resume = false ∧ s.ce.release = false ∧ s.auxHeld a = false ∧
        (s.ce.auxs.get a).step = 0 ∧ (s.ce.auxs.get a).mode ≠ 0 ∧ ∃ flag, flag = s.bit (K.AUX_STATUS a) (if isShort then 2 else 1) ∧
        ∃ cond, cond = (if isShort then short else compl).toNat.testBit a.val ∧
        ∃ run, run = (if isShort then (s.ce.auxs.get a).shortRun else (s.ce.auxs.get a).complRun)) :=
  ⟨⟨up.modCe fun x => { x with snapDone := true }, 0, by decide⟩,
   ⟨up, 0, by decide, by decide, by decide⟩,
   ⟨up.wr K.CE_STATUS 1, 3, by decide, by decide⟩,
   ⟨(((up.wr K.CE_STATUS 1).wr K.CE_FRAME 1).wr (K.LOOP_MODE 1) 1).wr (K.LOOP_PERIOD 1) 0, 3, 1, by decide, by decide, by decide,
       by decide, by decide⟩,
   ⟨((up.wr K.CE_STATUS 1).wr (K.LOOP_MODE 1) 2).wr (K.LOOP_INPUT 1) 128, 1, 1, by decide, by decide, by decide, by decide, by decide,
       by decide, by decide, by decide, by decide, by decide, by decide, by decide, by decide, _, rfl, _, rfl, _, rfl, _, rfl, _, rfl, _,
       rfl, _, rfl, _, rfl, _, rfl, _, rfl⟩,
   ⟨up, 3, 1, by decide⟩,
   ⟨(up.modCe fun x => { x with snapDone := true, hold := true }).wr K.CE_STATUS 1, 140221102834503, 132516385623324, by decide,
       by decide, by decide, by decide, by decide⟩,
   ⟨((upV.modLoop 1 fun x => { x with out := some 0 }).modCe fun x => { x with snapDone := true }).wr K.CE_STATUS 1, 1, 93316256415145, 1,
       0, by decide, by decide, by decide, by decide, by decide, by decide, by decide, by decide, by decide, by decide⟩,
   ⟨((((up.modLoop 1 fun x => { x with out := some 0 }).modCe fun x => { x with snapDone := true }).wr K.CE_STATUS 1).wr (K.LOOP_OUTPUT 1)
       1).wr (K.AUX_STATUS 1) 8, 1, 1, 1, 0, 1, by decide, by decide, by decide, by decide, by decide, by decide, by decide, by decide,
       by decide, by decide, by decide⟩,
   ⟨(up.modCe fun x => { x with snapDone := true }).wr K.CE_STATUS 1, 8, 151594913245343, 0, by decide, by decide, by decide, by decide,
       by decide, by decide, by decide, by decide⟩,
   ⟨((up.modAux 1 fun x => { x with mode := 1 }).modCe fun x => { x with snapDone := true }).wr K.CE_STATUS 1, 178689952146811, 0, 1,
       true, by decide, by decide, by decide, by decide, by decide, by decide, by decide, by decide, by decide, by decide, _, rfl, _, rfl,
       _, rfl⟩⟩

theorem wit_PowerRequests :
    (∃ (s : State) (r : Fin 18) (u : Fin 22) (v : BitVec 8) (c : Nat), s.accepts r (K.PWR_REQ u) (be 1 v.toNat) = true ∧
        ∃ a, a = s.admitted r (K.PWR_REQ u) (be 1 v.toNat) ∧ a.refuser u v.toNat = some c ∧
        (v.toNat ≠ a.rd (K.PWR_STATE u) ∨ (a.unit u).trans ≠ .still ∨ (u.val < 20 ∧ a.tripped = true))) ∧
    (∃ (s : State) (r : Fin 18) (u : Fin 22) (v : BitVec 8), s.accepts r (K.PWR_REQ u) (be 1 v.toNat) = true ∧ v.toNat ≤ 3 ∧
        ∃ a, a = s.admitted r (K.PWR_REQ u) (be 1 v.toNat) ∧ (a.refuser u v.toNat = none ∨ (v.toNat = a.rd (K.PWR_STATE u) ∧
        (20 ≤ u.val ∨ a.tripped = false))) ∧ (a.unit u).trans = .still) ∧
    (∃ (s : State) (r : Fin 18) (u : Fin 22) (v : BitVec 8), s.accepts r (K.PWR_REQ u) (be 1 v.toNat) = true ∧
        ∃ a, a = s.admitted r (K.PWR_REQ u) (be 1 v.toNat) ∧ a.refuser u v.toNat = none ∧ (a.unit u).trans ≠ .still) ∧
    (∃ (s : State) (r : Fin 18), s.accepts r K.PWR_CNT_CLEAR (be 1 1) = true) ∧
    (∃ (s : State) (r : Fin 18), s.accepts r K.PWR_CNT_CLEAR (be 1 0) = true) :=
  ⟨⟨((((((upV.wr K.PWR_CNT_REPLACED 1).wr K.DET_PWR_ENTRY_REFUSED 1).wr K.THERM_STATUS 1).wr K.MGMT_WDT_RESETS 1).wr (K.PWR_STATE 1) 1).wr
      (K.PWR_TRANSITION 1) 1).wr (K.PWR_PENDING 1) 0, 1, 1, 1, 5, by decide, _, rfl, by decide, by decide⟩,
   ⟨upV, 1, 1, 1, by decide, by decide, _, rfl, by decide, by decide⟩,
   ⟨upV.modUnit 1 fun x => { x with trans := .entering 1 137 }, 1, 1, 0, by decide, _, rfl, by decide, by decide⟩,
   ⟨upV, 1, by decide⟩,
   ⟨upV, 1, by decide⟩⟩

theorem wit_PowerTransitions :
    (∃ (s : State) (u : Fin 22), (∀ st v, (s.unit u).trans ≠ .entering st v)) ∧
    (∃ (s : State) (u : Fin 22) (st v : Nat), (s.unit u).trans = .entering st v ∧ (st = 1 ∧ (∃ n : Fin 16, u = laneUnit n ∧
        (s.phase n ≠ 0 ∨ s.binding n = true)) ∨ st = 1 ∧ u = 20 ∧ s.ce.calRun = true ∨ st = 4 ∧ (s.unit u).save = 1)) ∧
    (∃ (s : State) (u : Fin 22) (v : Nat), (s.unit u).trans = .entering 6 v ∧ (s.unit u).pendWake = none ∧
        s.rd (K.PWR_PENDING u) = 0xFF) ∧
    (∃ (s : State) (u : Fin 22) (v : Nat), (s.unit u).trans = .entering 4 v ∧ (s.unit u).save = 3 ∧ (s.unit u).pendWake = none ∧
        s.rd (K.PWR_PENDING u) = 0xFF) ∧
    (∃ (s : State) (u : Fin 22) (st v lvl : Nat), (s.unit u).trans = .entering st v ∧ 1 ≤ st ∧ st ≤ 5 ∧ v ≤ 3 ∧ s.stepMayEnd u st = true ∧
        (¬ (st = 4 ∧ (s.unit u).save = 3)) ∧ lvl = (if st = 2 then 1 else if st = 3 then 2 else s.rd (K.PWR_STATE u)) ∧ lvl ≤ 3) ∧
    (∃ (s : State) (u : Fin 22), ((s.unit u).waitPg = true ∨ (∀ v, (s.unit u).trans ≠ .waking v))) ∧
    (∃ (s : State) (u : Fin 22) (v : Nat), (s.unit u).trans = .waking v ∧ (s.unit u).waitPg = false ∧ v ≤ 3 ∧ (s.unit u).pendWake = none ∧
        s.rd (K.PWR_PENDING u) = 0xFF) :=
  ⟨⟨up, 1, fun _ _ h => nomatch h⟩,
   ⟨upV.modUnit 20 fun x => { x with trans := .entering 4 2, save := 1 }, 20, 4, 2, by decide, Or.inr (Or.inr (by decide))⟩,
   ⟨up.modUnit 0 fun x => { x with trans := .entering 6 1 }, 0, 1, by decide, by decide, by decide⟩,
   ⟨up.modUnit 1 fun x => { x with trans := .entering 4 2, save := 3 }, 1, 2, by decide, by decide, by decide, by decide⟩,
   ⟨up.modUnit 1 fun x => { x with trans := .entering 2 1 }, 1, 2, 1, _, by decide, by decide, by decide, by decide, by decide, by decide,
       rfl, by decide⟩,
   ⟨up, 1, Or.inr fun _ h => nomatch h⟩,
   ⟨up.modUnit 1 fun x => { x with trans := .waking 3 }, 1, 3, by decide, by decide, by decide, by decide, by decide⟩⟩

theorem wit_DeviceOff :
    (∃ (s : State) (r : Fin 18), s.accepts r K.PWR_DEVICE_OFF (be 1 1) = true ∧ ∃ a, a = s.admitted r K.PWR_DEVICE_OFF (be 1 1)) ∧
    (∃ (s : State) (r : Fin 18), s.accepts r K.PWR_DEVICE_OFF (be 1 0) = true) ∧
    (∃ (s : State), (s.pwr.offStep = 0 ∨ (s.pwr.offStep = 2 ∧ s.pwr.offSave = 1) ∨ (s.pwr.offStep = 1 ∧
        ∃ n : Fin 16, s.rd (K.PWR_STATE (laneUnit n)) ≤ 1 ∧ (s.phase n ≠ 0 ∨ s.binding n = true)))) ∧
    (∃ (s : State) (ap : Nat), (s.pwr.offStep = 1 ∧ (∀ n : Fin 16, s.phase n = 0 ∧ s.binding n = false) ∧ ap = 1 ∨ s.pwr.offStep = 2 ∧
        s.pwr.offSave = 2 ∧ ap = 2)) ∧
    (∃ (s : State), s.pwr.offStep = 2 ∧ s.pwr.offSave = 3) ∧
    (∃ (s : State), s.pwr.offStep = 3) ∧
    (∃ (s : State) (straps : BitVec 3), (s.pwr.supply = .deviceOff ∨ s.pwr.supply = .stuckOff)) ∧
    (∃ (s : State) (straps : BitVec 3), s.powered = false ∧ s.pwr.supply ≠ .deviceOff ∧ s.pwr.supply ≠ .stuckOff) ∧
    (∃ (s : State) (straps : BitVec 3), s.powered = true) ∧
    (∃ (s : State) (straps : BitVec 3), s.powered = true) ∧
    (∃ (s : State) (straps : BitVec 3) (u : Fin 22), s.powered = true ∧ s.tripped = true ∧ u.val < 20) :=
  ⟨⟨upV, 1, by decide, _, rfl⟩,
   ⟨upV, 1, by decide⟩,
   ⟨up, by decide⟩,
   ⟨upV.modPwr fun x => { x with offStep := 1 }, 1, by decide⟩,
   ⟨up.modPwr fun x => { x with offStep := 2, offSave := 3 }, by decide, by decide⟩,
   ⟨up.modPwr fun x => { x with offStep := 3 }, by decide⟩,
   ⟨up.modPwr fun x => { x with supply := .deviceOff }, 5, by decide⟩,
   ⟨up.modPwr fun x => { x with resetLow := true }, 2, by decide, by decide, by decide⟩,
   ⟨up, 0, by decide⟩,
   ⟨up, 0, by decide⟩,
   ⟨up.wr K.THERM_STATUS 1, 0, 0, by decide, by decide, by decide⟩⟩

theorem wit_Temperature :
    (∃ (s : State) (r : Fin 18), s.accepts r K.THERM_TRIP_TEST (be 1 1) = true) ∧
    (∃ (s : State) (r : Fin 18), s.accepts r K.THERM_TRIP_TEST (be 1 0) = true) ∧
    (∃ (s : State) (fired : BitVec 24), s.bit K.THERM_STATUS 6 = true) ∧
    (∃ (s : State) (fired : BitVec 24), s.bit K.THERM_STATUS 6 = false) :=
  ⟨⟨upV, 1, by decide⟩,
   ⟨upV, 1, by decide⟩,
   ⟨up.wr K.THERM_STATUS 64, 0, by decide⟩,
   ⟨up, 16217176, by decide⟩⟩

theorem wit_ThermalTrip :
    (∃ (s : State), (s.tripped = true ∨ s.rdI K.THERM_TRIP_MAX < 12500)) ∧
    (∃ (s : State), s.tripped = false ∧ 12500 ≤ s.rdI K.THERM_TRIP_MAX) ∧
    (∃ (s : State), (s.tripped = false ∨ s.pwr.coolAt = none)) ∧
    (∃ (s : State), s.tripped = true ∧ s.pwr.coolAt ≠ none) :=
  ⟨⟨up, by decide⟩,
   ⟨((({ upV with free := 0 }).wr K.THERM_TRIP_MAX 19373).wr K.THERM_LAST_TRIP 2199023255553).wr (K.PWR_LAST_REFUSER 1) 65535, by decide,
       by decide⟩,
   ⟨up, by decide⟩,
   ⟨(up.modPwr fun x => { x with coolAt := some 0 }).wr K.THERM_STATUS 1, by decide, by decide⟩⟩

theorem wit_SupplyAndClocks :
    (∃ (s : State) (c : Instr) (x : Src), ((c = .vinUnder ∧ x = Src.VIN_UNDER) ∨ (c = .vinOver ∧ x = Src.VIN_OVER))) ∧
    (∃ (s : State) (deep : Bool), deep = false ∧ (s.pwr.supply = .stuckOff ∨ (s.pwr.supply = .faultOff ∧ 3 ≤ s.pwr.faultPors.length))) ∧
    (∃ (s : State) (deep : Bool), (deep = true ∨ (s.pwr.supply ≠ .stuckOff ∧ (s.pwr.supply ≠ .faultOff ∨ s.pwr.faultPors.length < 3)))) ∧
    (∃ (s : State) (straps : BitVec 3), s.pwr.supply ≠ .off) ∧
    (∃ (s : State) (straps : BitVec 3), s.pwr.supply = .off) ∧
    (∃ (s : State) (rail : BitVec 8) (cur : Bool), s.supplied = true ∧ 1 ≤ rail.toNat ∧ rail.toNat ≤ 6) ∧
    (∃ (s : State) (rail : BitVec 8) (cur : Bool), (s.supplied = false ∨ rail.toNat = 0 ∨ 6 < rail.toNat)) ∧
    (∃ (s : State), (s.supplied = false ∨ s.pwr.railFault = none)) ∧
    (∃ (s : State), s.supplied = true ∧ s.pwr.railFault ≠ none) ∧
    (∃ (s : State) (straps : BitVec 3), s.pwr.supply ≠ .faultOff) ∧
    (∃ (s : State) (straps : BitVec 3), s.pwr.supply = .faultOff) ∧
    (∃ (s : State) (dist : List (Fin 16 × Fin 256)), (s.clk.rootValid = false ∨ s.pwr.resetLow = true ∨ s.powered = false)) ∧
    (∃ (s : State) (dist : List (Fin 16 × Fin 256)), s.clk.rootValid = true ∧ s.pwr.resetLow = false ∧ s.powered = true ∧
        s.clk.lsynRuns = false) ∧
    (∃ (s : State) (dist : List (Fin 16 × Fin 256)), s.clk.rootValid = true ∧ s.pwr.resetLow = false ∧ s.powered = true ∧
        s.clk.lsynRuns = true ∧ s.bit K.CLK_STATUS 0 = true) ∧
    (∃ (s : State) (n : Fin 16) (d : Fin 256), s.clk.rootValid = true ∧ s.pwr.resetLow = false ∧ s.powered = true ∧
        s.clk.lsynRuns = true ∧ s.bit K.CLK_STATUS 0 = false ∧ (s.lane n).out ≠ .disabled ∧ d.val ≠ (s.lane n).queue) ∧
    (∃ (s : State) (hsyn : Bool), (s.bit K.CLK_STATUS 3 = true ∨ s.clk.lsynRuns = false)) ∧
    (∃ (s : State) (hsyn : Bool), s.bit K.CLK_STATUS 3 = false ∧ s.clk.lsynRuns = true) :=
  ⟨⟨up, .vinUnder, { g := 25, b := 2 }, by decide⟩,
   ⟨up.modPwr fun x => { x with supply := .faultOff, faultPors := [0, 0, 0] }, _, rfl, by decide⟩,
   ⟨up, false, by decide⟩,
   ⟨up, 0, by decide⟩,
   ⟨up.modPwr fun x => { x with supply := .off }, 5, by decide⟩,
   ⟨up, 1, true, by decide, by decide, by decide⟩,
   ⟨up, 177, true, by decide⟩,
   ⟨up, by decide⟩,
   ⟨up.modPwr fun x => { x with railFault := some (0, 0) }, by decide, by decide⟩,
   ⟨up, 0, by decide⟩,
   ⟨up.modPwr fun x => { x with supply := .faultOff }, 7, by decide⟩,
   ⟨State.reset, [(1, 1)], by decide⟩,
   ⟨up.modClk fun x => { x with lsynRuns := false }, [], by decide, by decide, by decide, by decide⟩,
   ⟨up.wr K.CLK_STATUS 1, [], by decide, by decide, by decide, by decide, by decide⟩,
   ⟨up.modLane 1 fun l => { l with out := .idle }, 1, 1, by decide, by decide, by decide, by decide, by decide, by decide, by decide⟩,
   ⟨State.reset, true, by decide⟩,
   ⟨up, true, by decide, by decide⟩⟩

theorem wit_Resets :
    (∃ (s : State), s.powered = true) ∧
    (∃ (s : State), s.powered = false) ∧
    (∃ (s : State) (r : Fin 18) (v : BitVec 16), s.accepts r K.RST_LANE (be 2 v.toNat) = true) ∧
    (∃ (s : State), (s.resetReplied = false ∨ s.scanOn = true)) ∧
    (∃ (s : State), s.resetReplied = true ∧ s.scanOn = false) :=
  ⟨⟨up, by decide⟩,
   ⟨up.modPwr fun x => { x with supply := .faultOff }, by decide⟩,
   ⟨upV, 1, 0, by decide⟩,
   ⟨up, by decide⟩,
   ⟨up.modRing fun x => { x with resetPend := true, resetGo := true }, by decide, by decide⟩⟩

def st_Boot_5 : State := up.modSec fun x => { x with slots := x.slots.set 1 { x.slots[1] with st := .trial } }
def st_Boot_6 : State := up.modSec fun x => { x with slots := x.slots.set 1 { x.slots[1] with st := .trial } }
def st_Boot_10 : State := State.reset.modSec fun x => { x with slots := x.slots.set 1 { x.slots[1] with st := .trial } }
theorem wit_Boot :
    (∃ (s : State) (flash rootOk : Bool), s.rd K.OD_CORE_STATE ≠ 3 ∧ (s.rd K.OD_CORE_STATE ≠ 2 ∨ s.sec.recovery = true)) ∧
    (∃ (s : State) (flash rootOk : Bool), s.scanOn = true) ∧
    (∃ (s : State) (flash rootOk : Bool) (x y : Fin 2), (s.rd K.OD_CORE_STATE = 3 ∨ (s.rd K.OD_CORE_STATE = 2 ∧ s.sec.recovery = false)) ∧
        s.scanOn = false ∧ x = s.trialSlot.getD s.sec.preferred ∧ y = State.otherSlot x) ∧
    (∃ (s : State), (s.coreUp = false ∨ s.trialSlot = none)) ∧
    (∃ (s : State) (x : Fin 2), s.coreUp = true ∧ s.trialSlot = some x) ∧
    (∃ (s : State), s.onTrial = true) ∧
    (∃ (s : State) (j : Fin 2), s.sec.recDue = some j) ∧
    (∃ (s : State), s.onTrial = false) ∧
    (∃ (s : State), (s.onTrial = false ∨ s.coreUp = true)) ∧
    (∃ (s : State) (x : Fin 2), s.trialSlot = some x ∧ s.coreUp = false ∧ s.bist.running = none) :=
  ⟨⟨up, false, true, by decide, by decide⟩,
   ⟨up.wr K.SEC_DEBUG_STATE 2, false, false, by decide⟩,
   ⟨up.wr K.OD_CORE_STATE 2, true, true, _, _, by decide, by decide, rfl, rfl⟩,
   ⟨up, by decide⟩,
   ⟨st_Boot_5, 1, by decide, by decide⟩,
   ⟨st_Boot_6, by decide⟩,
   ⟨up.modSec fun x => { x with recDue := some 0 }, 0, by decide⟩,
   ⟨up, by decide⟩,
   ⟨up, by decide⟩,
   ⟨st_Boot_10, 1, by decide, by decide, by decide⟩⟩

def st_Firmware_2 : State := upV.modSec fun x => { x with slots := x.slots.set 1 { x.slots[1] with st := .trial } }
def st_Firmware_5 : State := upV.modSec fun x => { x with slots := x.slots.set 0 { x.slots[0] with st := .active } }
theorem wit_Firmware :
    (∃ (s : State) (r : Fin 18), s.accepts r K.FW_ACTIVATE (be 1 1) = true ∧ ∃ a, a = s.admitted r K.FW_ACTIVATE (be 1 1) ∧
        ∃ x, x = a.activateSlot ∧ (a.slot x).st = .valid ∧ s.bist.running = none) ∧
    (∃ (s : State) (r : Fin 18) (x : Fin 2), s.accepts r K.FW_CONFIRM (be 1 1) = true ∧ s.trialSlot = some x) ∧
    (∃ (s : State) (r : Fin 18), s.accepts r K.FW_CONFIRM (be 1 1) = true ∧ s.trialSlot = none) ∧
    (∃ (s : State) (r : Fin 18) (failed : BitVec 128), s.accepts r K.FW_SVN_COMMIT (be 1 1) = true ∧ s.activeSlot = none) ∧
    (∃ (s : State) (r : Fin 18) (failed : BitVec 128) (w : Fin 2) (svn : Nat), s.accepts r K.FW_SVN_COMMIT (be 1 1) = true ∧
        s.activeSlot = some w ∧ svn = Skein.svn (s.slot w).image) ∧
    (∃ (s : State) (r : Fin 18) (failed : BitVec 128) (c : Instr), ((c = .fwActivate r 0 ∧
        s.accepts r K.FW_ACTIVATE (be 1 0) = true) ∨ (c = .fwConfirm r 0 ∧
        s.accepts r K.FW_CONFIRM (be 1 0) = true) ∨ (c = .fwSvnCommit r 0 failed ∧ s.accepts r K.FW_SVN_COMMIT (be 1 0) = true))) :=
  ⟨⟨upV.modSec fun x => { x with slots := x.slots.set 1 { x.slots[1] with st := .valid } }, 1, by decide, _, rfl, 1, by decide, by decide,
      by decide⟩,
   ⟨st_Firmware_2, 1, 1, by decide, by decide⟩,
   ⟨upV, 1, by decide, by decide⟩,
   ⟨upV, 1, 1, by decide, by decide⟩,
   ⟨st_Firmware_5, 1, 5, 0, _, by decide, by decide, rfl⟩,
   ⟨upV, 1, 1, .fwActivate 1 0, by decide⟩⟩

theorem wit_AttestationAndLifeCycle :
    (∃ (s : State) (r : Fin 18) (data : List Byte), s.accepts r K.SEC_ATTEST_NONCE data = true) ∧
    (∃ (s : State), s.sec.nonce = none) ∧
    (∃ (s : State) (nonce : List Byte), s.sec.nonce = some nonce) ∧
    (∃ (s : State) (r : Fin 18) (v : BitVec 8), s.accepts r K.SEC_LC_ADVANCE (be 1 v.toNat) = true ∧ 1 ≤ v.toNat ∧ v.toNat ≤ 4) :=
  ⟨⟨upV, 1, [0, 1, 2, 3, 4, 5, 6, 7, 8, 9, 10, 11, 12, 13, 14, 15, 16, 17, 18, 19, 20, 21, 22, 23, 24, 25, 26, 27, 28, 29, 30, 31],
      by decide⟩,
   ⟨up, by decide⟩,
   ⟨up.modSec fun x => { x with nonce := some [] }, [], by decide⟩,
   ⟨upV, 1, 4, by decide, by decide, by decide⟩⟩

def st_TokensAndSessions_13 : State := up.modSec fun x => { x with grants := x.grants.set 1 1 }
theorem wit_TokensAndSessions :
    (∃ (s : State) (r : Fin 18) (token : List Byte) (ok : Bool), s.served r = false) ∧
    (∃ (s : State) (r : Fin 18) (token : List Byte) (ok : Bool), s.served r = true ∧ s.mustWake K.SEC_TOKEN = true) ∧
    (∃ (s : State) (r : Fin 18) (token : List Byte) (ok : Bool) (a : Abort), s.refuses r K.SEC_TOKEN token a = true) ∧
    (∃ (s : State) (c : Instr) (r : Fin 18) (token : List Byte) (ok tap : Bool) (level res : Nat), ((c = .secToken r token ok ∧
        s.accepts r K.SEC_TOKEN token = true ∧ tap = false) ∨ (c = .dbgToken token ok ∧ r = 17 ∧ token.length = 3437 ∧ s.powered = true ∧
        tap = true ∧ (s.scanOn = true ∨ (s.od.coreQ = [] ∧ s.rd (K.PWR_STATE 21) = 0 ∧ (s.unit 21).trans = .still)))) ∧
        level = beNat (slice token 6 1) ∧ res = (if s.tokenResult tap token = 1 ∧ level &&& 6 ≠ 0 ∧
        ok = false then 11 else s.tokenResult tap token)) ∧
    (∃ (s : State) (token : List Byte) (ok : Bool), token.length = 3437 ∧ s.powered = true ∧ s.scanOn = false ∧
        ((∃ i, (s.unit 21).trans = .waking i) ∨ (2 ≤ s.rd (K.PWR_STATE 21) ∧ (s.unit 21).trans = .still))) ∧
    (∃ (s : State) (token : List Byte) (ok : Bool), s.powered = false) ∧
    (∃ (s : State) (r : Fin 18), s.accepts r K.SEC_DEBUG_CLOSE (be 1 1) = true) ∧
    (∃ (s : State) (r : Fin 18), s.accepts r K.SEC_DEBUG_CLOSE (be 1 0) = true) ∧
    (∃ (s : State), s.debugLevel = 1 ∧ s.sec.dbgDur ≠ 0) ∧
    (∃ (s : State), (s.debugLevel ≠ 1 ∨ s.sec.dbgDur = 0)) ∧
    (∃ (s : State) (r : Fin 18), s.accepts r K.SEC_VENDOR_DROP (be 1 1) = true) ∧
    (∃ (s : State) (r : Fin 18), s.accepts r K.SEC_VENDOR_DROP (be 1 0) = true) ∧
    (∃ (s : State) (r : Fin 18), s.sec.grants.get r ≠ 0) ∧
    (∃ (s : State) (r : Fin 18), s.sec.grants.get r = 0) :=
  ⟨⟨up.wr K.SEC_DEBUG_STATE 2, 1, [], true, by decide⟩,
   ⟨upV.wr (K.PWR_STATE 21) 1, 1, [], true, by decide, by decide⟩,
   ⟨upV, 1, [], true, .length, by decide⟩,
   ⟨up, .dbgToken (List.replicate 3437 0) true, 17, List.replicate 3437 0, true, true, _, _, Or.inr ⟨rfl, rfl, List.length_replicate,
       by decide, rfl, Or.inr (by decide)⟩, rfl, rfl⟩,
   ⟨up.wr (K.PWR_STATE 21) 2, List.replicate 3437 0, true, List.length_replicate, by decide, by decide, Or.inr (by decide)⟩,
   ⟨up.modPwr fun p => { p with supply := .off }, [], true, by decide⟩,
   ⟨upV, 1, by decide⟩,
   ⟨upV, 1, by decide⟩,
   ⟨(up.wr K.SEC_DEBUG_STATE 1).modSec fun x => { x with dbgDur := 5 }, by decide, by decide⟩,
   ⟨up, by decide⟩,
   ⟨upV, 1, by decide⟩,
   ⟨upV, 1, by decide⟩,
   ⟨st_TokensAndSessions_13, 1, by decide⟩,
   ⟨up, 1, by decide⟩⟩

theorem wit_TestAccessPort :
    (∃ (s : State) (c : Instr) (code : BitVec 5) (pins : BitVec 16) (d : List Bool) (op : DebugOp), ((c = .extest pins d ∧ code = 0x00 ∧
        s.debugLevel ≠ 2) ∨ (c = .clamp d ∧ code = 0x04 ∧ s.debugLevel ≠ 2) ∨ (c = .highz d ∧ code = 0x05 ∧
        s.debugLevel ≠ 2) ∨ (c = .dbgAccess d op ∧ code = 0x11 ∧ s.debugLevel = 0) ∨ (c = .scanAccess d ∧ code = 0x12 ∧
        s.debugLevel ≠ 2) ∨ (c = .bypass code d ∧ code.toNat ∉ [0x00, 0x01, 0x02, 0x04, 0x05, 0x10, 0x11, 0x12]))) ∧
    (∃ (s : State) (c : Instr) (d : List Bool) (pins : BitVec 16), ((c = .extest pins d ∧
        s.debugLevel = 2) ∨ c = .samplePreload pins d)) ∧
    (∃ (s : State) (c : Instr) (d : List Bool) (i : TapIr), ((c = .clamp d ∧ i = .clamp) ∨ (c = .highz d ∧ i = .highz)) ∧
        s.debugLevel = 2) ∧
    (∃ (s : State) (d : List Bool) (op : DebugOp), s.debugLevel = 1) ∧
    (∃ (s : State) (c : Instr) (d : List Bool) (op : DebugOp), s.debugLevel = 2 ∧ (c = .dbgAccess d op ∨ c = .scanAccess d)) :=
  ⟨⟨up, .extest 41929 [true], 0, 41929, [true], .fabricWrite 1 2, by decide⟩,
   ⟨up.wr K.SEC_DEBUG_STATE 2, .extest 3 [true, false, true], [true, false, true], 3, by decide⟩,
   ⟨up.wr K.SEC_DEBUG_STATE 2, .clamp [true, false, true], [true, false, true], .clamp, by decide, by decide⟩,
   ⟨upT, [true, false, false, false, false, false, true, false], .fabricRead 3, by decide⟩,
   ⟨up.wr K.SEC_DEBUG_STATE 2, .dbgAccess [true, false, true] (.sramRead 6), [true, false, true], .sramRead 6, by decide, by decide⟩⟩

theorem wit_SelfTest :
    (∃ (s : State) (r : Fin 18) (v : BitVec 8) (x : BistTarget), s.accepts r K.BIST_START (be 1 v.toNat) = true ∧
        Bist.ofCode v.toNat = some x) ∧
    (∃ (s : State) (r : Fin 18), s.accepts r K.BIST_START (be 1 0) = true) ∧
    (∃ (s : State) (r : Fin 18), s.accepts r K.BIST_STOP (be 1 0) = true) ∧
    (∃ (s : State) (r : Fin 18), s.accepts r K.BIST_STOP (be 1 1) = true ∧ s.bist.running = none) ∧
    (∃ (s : State) (r : Fin 18) (x : BistTarget), s.accepts r K.BIST_STOP (be 1 1) = true ∧ s.bist.running = some x ∧
        s.bist.failing = none) ∧
    (∃ (s : State) (fails : List (BitVec 17)) (sig : BitVec 32), (s.bist.running = none ∨ s.bist.failing ≠ none)) ∧
    (∃ (s : State) (fails : List (BitVec 17)) (sig : BitVec 32) (x : BistTarget) (bad : List Nat), s.bist.running = some x ∧
        s.bist.failing = none ∧ bad = ((fails.map (·.toNat)).filter fun w => decide (w < Bist.words x)) ∧ bad.length < 2 ^ 32) :=
  ⟨⟨upV, 1, 82, .rom, by decide, by decide⟩,
   ⟨upV, 1, by decide⟩,
   ⟨upV, 1, by decide⟩,
   ⟨upV, 1, by decide, by decide⟩,
   ⟨upV.modBist fun x => { x with running := some (.rom) }, 1, .rom, by decide, by decide, by decide⟩,
   ⟨up, [62947], 1, by decide⟩,
   ⟨up.modBist fun x => { x with running := some (.sram) }, [], 7, .sram, _, by decide, by decide, rfl, by decide⟩⟩

theorem wit_Repair :
    (∃ (s : State) (lost : Bool), s.bist.failing = none) ∧
    (∃ (s : State) (lost : Bool) (x : BistTarget) (rows need : List Nat) (m : Nat), s.bist.failing = some (x, rows) ∧
        Bist.mem x = some m ∧ need = rows.filter (fun w => !(s.mappedRows m).contains w)) ∧
    (∃ (s : State) (r : Fin 18) (failed : BitVec 64), s.accepts r K.REPAIR_FUSE_CMD (be 1 1) = true) ∧
    (∃ (s : State) (r : Fin 18) (failed : BitVec 64), s.accepts r K.REPAIR_FUSE_CMD (be 1 0) = true) ∧
    (∃ (s : State) (r : Fin 18), s.accepts r K.BIST_CNT_CLEAR (be 1 1) = true) ∧
    (∃ (s : State) (r : Fin 18), s.accepts r K.BIST_CNT_CLEAR (be 1 0) = true) :=
  ⟨⟨up, true, by decide⟩,
   ⟨(((((((upV.modBist fun x => { x with failing := some (.lane 1, []) }).wr K.OD_BUSY_TEST_COUNT 1).wr K.SEC_DEBUG_STATE 1).wr
       K.BIST_STATUS 1).wr K.BIST_FAILS 1).wr K.BIST_CNT_CLEAR 1).wr K.REPAIR_FUSE_CMD 1).wr (K.IRQ_FIRST 1) 1, false, .lane 1, [], _, 1,
       by decide, by decide, rfl⟩,
   ⟨upV, 1, 16521144690721092715, by decide⟩,
   ⟨upV, 1, 16521144690721092715, by decide⟩,
   ⟨upV, 1, by decide⟩,
   ⟨upV, 1, by decide⟩⟩

theorem wit_RequestAcceptance :
    (∃ (s : State) (c : Instr) (r : Fin 18) (req : List Byte), requestOf c = some (r, req) ∧ s.served r = false) ∧
    (∃ (s : State) (c : Instr) (r : Fin 18) (req : List Byte), requestOf c = some (r, req) ∧ s.served r = true ∧ (¬ (r = 16 ∧
        8 ≤ s.od.twiSlots)) ∧ 8 ≤ (s.req r).queue.length) ∧
    (∃ (s : State) (c : Instr) (req : List Byte), requestOf c = some (16, req) ∧ s.served 16 = true ∧ 8 ≤ s.od.twiSlots) ∧
    (∃ (s : State) (c : Instr) (r : Fin 18) (req : List Byte) (a : Cached), requestOf c = some (r, req) ∧ s.served r = true ∧ (¬ (r = 16 ∧
        8 ≤ s.od.twiSlots)) ∧ (s.req r).queue.length < 8 ∧ reqFits req = true ∧ ((s.req r).cache.find? fun c => c.req == req) = some a) ∧
    (∃ (s : State) (c : Instr) (r : Fin 18) (req : List Byte), requestOf c = some (r, req) ∧ s.served r = true ∧ (¬ (r = 16 ∧
        8 ≤ s.od.twiSlots)) ∧ (s.req r).queue.length < 8 ∧ reqFits req = true ∧ ((s.req r).cache.find? fun c => c.req == req) = none ∧
        ((s.req r).queue.any fun q => q.bytes == req) = true) ∧
    (∃ (s : State) (c : Instr) (r : Fin 18) (req : List Byte), requestOf c = some (r, req) ∧ s.served r = true ∧ (¬ (r = 16 ∧
        8 ≤ s.od.twiSlots)) ∧ (s.req r).queue.length < 8 ∧ reqFits req = false) :=
  ⟨⟨up.wr K.SEC_DEBUG_STATE 2, .groupOpen 1 1, 1, [8, 1], by decide, by decide⟩,
   ⟨up.modReq 1 fun x =>
       { x with queue := [{ bytes := [8, 1], at_ := 0, core := false }, { bytes := [8, 1], at_ := 0, core := false }, { bytes := [8, 1], at_ := 0, core := false }, { bytes := [8, 1], at_ := 0, core := false }, { bytes := [8, 1], at_ := 0, core := false }, { bytes := [8, 1], at_ := 0, core := false }, { bytes := [8, 1], at_ := 0, core := false }, { bytes := [8, 1], at_ := 0, core := false }] }, .groupOpen 1 1, 1, [8, 1], by decide, by decide, by decide, by decide⟩,
   ⟨upT.modOd fun x => { x with twiSlots := 8 }, .groupOpen 16 62, [8, 62], by decide, by decide, by decide⟩,
   ⟨up.modReq 1 fun x => { x with cache := [{ req := [8, 1], resp := [1, 2] }] }, .groupOpen 1 1, 1, [8, 1],
       { req := [8, 1], resp := [1, 2] }, by decide, by decide, by decide, by decide, by decide, by decide⟩,
   ⟨up.modReq 1 fun x => { x with queue := [{ bytes := [8, 1], at_ := 0, core := false }] }, .groupOpen 1 1, 1, [8, 1], by decide,
       by decide, by decide, by decide, by decide, by decide, by decide⟩,
   ⟨up, .writeSeg 1 0 0 0 [] 0, 1, _, rfl, by decide, by decide, by decide, by decide⟩⟩

theorem wit_Reads :
    (∃ (s : State) (r : Fin 18) (tag : BitVec 8) (idx : BitVec 16) (sub : BitVec 8), ∃ (k : Key), k = Key.ofIndex idx.toNat sub.toNat ∧
        ∃ (req : List Byte), req = reqAt 1 tag idx sub [] ∧ s.arrives r req = true ∧ ∃ (a : State), a = s.arrived r req ∧
        ((State.readNeedsCore k = false ∧ (∀ q ∈ s.od.coreQ, q.req = r → q.core = true) ∧
        a.mustWait a.od.coreQ ⟨r, req, (s.req r).epoch, false, 0⟩ = false) ∨ (State.readNeedsCore k = true ∧ a.readAccess r k = .ok ∧
        a.coreAwake = true ∧ s.od.coreQ = [] ∧ s.od.coreAt = none)) ∧ ∃ (b : State), b = (if State.readNeedsCore k then a.asked else a) ∧
        b.readCheck r k = .ok) ∧
    (∃ (s : State) (r : Fin 18) (tag : BitVec 8) (idx : BitVec 16) (sub : BitVec 8) (x : Abort), ∃ (k : Key),
        k = Key.ofIndex idx.toNat sub.toNat ∧ ∃ (req : List Byte), req = reqAt 1 tag idx sub [] ∧ s.arrives r req = true ∧
        ∃ (a : State), a = s.arrived r req ∧ ((State.readNeedsCore k = false ∧ (∀ q ∈ s.od.coreQ, q.req = r → q.core = true) ∧
        a.mustWait a.od.coreQ ⟨r, req, (s.req r).epoch, false, 0⟩ = false ∧ a.readCheck r k = .abort x) ∨ (State.readNeedsCore k = true ∧
        a.readAccess r k = .abort x))) ∧
    (∃ (s : State) (r : Fin 18) (tag : BitVec 8) (idx : BitVec 16) (sub : BitVec 8), ∃ (k : Key), k = Key.ofIndex idx.toNat sub.toNat ∧
        ∃ (req : List Byte), req = reqAt 1 tag idx sub [] ∧ s.arrives r req = true ∧ ∃ (a : State), a = s.arrived r req ∧
        ((State.readNeedsCore k = false ∧ ((∃ q ∈ s.od.coreQ, q.req = r ∧
        q.core = false) ∨ a.mustWait a.od.coreQ ⟨r, req, (s.req r).epoch, false, 0⟩ = true)) ∨ (State.readNeedsCore k = true ∧
        a.readAccess r k = .ok ∧ (∀ q ∈ s.od.coreQ, q.core = true) ∧ (a.coreAwake = false ∨ s.od.coreAt ≠ none)))) ∧
    (∃ (s : State) (r : Fin 18) (idx : BitVec 16) (sub : BitVec 8), s.served r = false) ∧
    (∃ (s : State) (r : Fin 18) (idx : BitVec 16) (sub : BitVec 8), ∃ (k : Key), k = Key.ofIndex idx.toNat sub.toNat ∧
        s.served r = true) :=
  ⟨⟨up, 1, 17, 20752, 1, _, rfl, _, rfl, by decide, _, rfl, by decide, _, rfl, by decide⟩,
   ⟨up, 1, 1, 5, 0, .noEntry, _, rfl, _, rfl, by decide, _, rfl, by decide⟩,
   ⟨up.modOd fun x => { x with coreQ := [{ req := 1, bytes := [], epoch := 0, core := false, x := 0 }] }, 1, 0, 1, 132, _, rfl, _, rfl,
       by decide, _, rfl, by decide⟩,
   ⟨up, 17, 1, 1, by decide⟩,
   ⟨upT, 17, 0, 1, _, rfl, by decide⟩⟩

theorem wit_Writes :
    (∃ (s : State) (r : Fin 18) (idx : BitVec 16) (sub : BitVec 8) (data : List Byte) (x : BitVec 128), ∃ (k : Key),
        k = Key.ofIndex idx.toNat sub.toNat ∧ k ≠ K.SEC_TOKEN ∧ s.accepts r k data = true ∧ ∃ (a : State), a = s.admitted r k data) ∧
    (∃ (s : State) (r : Fin 18) (tag : BitVec 8) (idx : BitVec 16) (sub : BitVec 8) (data : List Byte), ∃ (k : Key),
        k = Key.ofIndex idx.toNat sub.toNat ∧ ∃ (req : List Byte), req = reqAt 2 tag idx sub data ∧ data.length ≤ 248 ∧
        s.arrives r req = true ∧ ∃ (a : State), a = s.arrived r req ∧ (s.req r).lost = false ∧ (s.req r).group = none ∧ k ≠ K.SEC_TOKEN ∧
        State.fastWrite k = true ∧ checkWrite a r k data = .ok ∧ (∀ q ∈ s.od.coreQ, q.req ≠ r) ∧
        a.mustWait a.od.coreQ ⟨r, req, (s.req r).epoch, false, 0⟩ = false) ∧
    (∃ (s : State) (r : Fin 18) (tag : BitVec 8) (idx : BitVec 16) (sub : BitVec 8) (data : List Byte), ∃ (k : Key),
        k = Key.ofIndex idx.toNat sub.toNat ∧ ∃ (req : List Byte), req = reqAt 2 tag idx sub data ∧ data.length ≤ 248 ∧
        s.arrives r req = true ∧ ∃ (a : State), a = s.arrived r req ∧ (s.req r).lost = false ∧ (s.req r).group = none ∧
        State.fastWrite k = false ∧ checkEntry a r k data = .ok ∧ (∀ q ∈ s.od.coreQ, q.core = true) ∧ ∃ (took : Bool), ((took = false ∧
        (a.coreAwake = false ∨ s.od.coreAt ≠ none ∨ (s.od.coreQ = [] ∧
        a.mustWait [] ⟨r, req, (s.req r).epoch, true, 0⟩ = true))) ∨ (took = true ∧ a.coreAwake = true ∧ s.od.coreAt = none ∧
        s.od.coreQ = [] ∧ checkWrite a r k data = .ok ∧ a.mustWait [] ⟨r, req, (s.req r).epoch, true, 0⟩ = false))) ∧
    (∃ (s : State) (r : Fin 18) (tag : BitVec 8) (idx : BitVec 16) (sub : BitVec 8) (data : List Byte) (x : Abort), ∃ (k : Key),
        k = Key.ofIndex idx.toNat sub.toNat ∧ ∃ (req : List Byte), req = reqAt 2 tag idx sub data ∧ data.length ≤ 248 ∧
        s.arrives r req = true ∧ ∃ (a : State), a = s.arrived r req ∧ (checkEntry a r k data = .abort x ∨ (checkEntry a r k data = .ok ∧
        checkWrite a r k data = .abort x ∧ (s.req r).lost = false ∧ (s.req r).group = none ∧
        (if State.fastWrite k then (∀ q ∈ s.od.coreQ, q.req ≠ r) ∧
        a.mustWait a.od.coreQ ⟨r, req, (s.req r).epoch, false, 0⟩ = false else s.od.coreQ = [] ∧ s.od.coreAt = none ∧ a.coreAwake = true ∧
        (s.unit 21).trans = .still ∧ a.mustWait [] ⟨r, req, (s.req r).epoch, true, 0⟩ = false)))) ∧
    (∃ (s : State) (r : Fin 18) (tag : BitVec 8) (idx : BitVec 16) (sub : BitVec 8) (data : List Byte), ∃ (req : List Byte),
        req = reqAt 2 tag idx sub data ∧ 248 < data.length ∧ s.arrives r req = true) ∧
    (∃ (s : State) (x : BitVec 128), (s.coreAwake = false ∨ s.od.coreAt = none)) ∧
    (∃ (s : State) (x : BitVec 128) (r : Fin 18) (q : CoreReq) (k : Key), s.coreAwake = true ∧ s.od.coreAt = some r ∧ s.od.coreQ = [q] ∧
        q.req = r ∧ q.core = true ∧ reqCmd q.bytes = 2 ∧ k = reqKey q.bytes ∧ (s.req r).lost = false ∧ (s.req r).group = none ∧
        k ≠ K.SEC_TOKEN ∧ ∃ (w : State), w = (s.modOd fun o => { o with coreQ := [], coreAt := none }).pcEvent 0x09 1 ∧
        checkWrite w r k (reqData q.bytes) = .ok) ∧
    (∃ (s : State) (x : BitVec 128) (r : Fin 18) (q : CoreReq) (j : Nat), s.coreAwake = true ∧ s.od.coreAt = some r ∧
        s.coreHead r = some (q, j) ∧
        ∃ (w : State), w = (s.modOd fun o => { o with coreQ := s.od.coreQ.eraseIdx j, coreAt := none }).pcEvent 0x09 1) :=
  ⟨⟨upV, 1, 25618, 2, [9], 6, _, rfl, by decide, by decide, _, rfl⟩,
   ⟨upV, 1, 0, 0x9010, 2, be 4 1, _, rfl, _, rfl, by decide, by decide, _, rfl, by decide, by decide, by decide, by decide, by decide,
       by decide, by decide⟩,
   ⟨upV, 1, 0, 16725, 1, [0], _, rfl, _, rfl, by decide, by decide, _, rfl, by decide, by decide, by decide, by decide, by decide, true,
       by decide⟩,
   ⟨up, 1, 255, 1, 0, [], .noEntry, _, rfl, _, rfl, by decide, by decide, _, rfl, by decide⟩,
   ⟨up, 1, 8, 3, 255, [255, 71, 234, 255, 219, 2, 85, 0, 1, 1, 5, 1, 1, 1, 79, 255, 255, 7, 0, 1, 4, 1, 255, 7, 3, 0, 255, 1, 47, 1, 102,
       1, 2, 188, 7, 136, 1, 1, 3, 41, 43, 0, 1, 169, 174, 255, 255, 221, 0, 1, 222, 0, 253, 1, 255, 6, 1, 1, 31, 0, 255, 25, 185, 1, 180,
       255, 255, 255, 178, 201, 1, 37, 0, 255, 8, 0, 1, 66, 0, 0, 248, 213, 217, 0, 93, 0, 84, 8, 42, 1, 162, 0, 8, 0, 1, 6, 1, 255, 0, 1,
       152, 1, 9, 107, 0, 1, 1, 9, 1, 233, 8, 255, 242, 51, 2, 8, 5, 17, 137, 5, 1, 175, 0, 5, 157, 42, 228, 54, 210, 1, 41, 9, 240, 90,
       1, 255, 6, 1, 147, 124, 73, 157, 19, 126, 0, 9, 9, 1, 167, 4, 214, 0, 57, 144, 1, 7, 8, 80, 255, 247, 159, 111, 7, 240, 3, 10, 68,
       1, 110, 5, 47, 116, 4, 0, 7, 198, 7, 132, 255, 7, 255, 0, 158, 0, 229, 255, 227, 0, 224, 3, 3, 255, 3, 8, 1, 42, 121, 40, 29, 1, 0,
       21, 1, 0, 54, 9, 22, 91, 8, 157, 254, 1, 0, 0, 253, 121, 8, 212, 0, 0, 0, 0, 6, 216, 0, 7, 189, 0, 7, 9, 1, 9, 1, 255, 243, 1, 0,
       4, 1, 115, 255, 1, 7, 151, 0, 0, 98, 255, 0], _, rfl, by decide, by decide⟩,
   ⟨up, 3, by decide⟩,
   ⟨upV.modOd fun x => { x with coreQ := [{ req := 1, bytes := [2, 1, 56, 16, 4, 1], epoch := 0, core := true, x := 0 }], coreAt := some 1 }, 340282366920938463463374607431768211455, 1, { req := 1, bytes := [2, 1, 56, 16, 4, 1], epoch := 0, core := true, x := 0 }, _, by decide, by decide, by decide, by decide, by decide, by decide, rfl, by decide, by decide, by decide, _, rfl, by decide⟩,
   ⟨up.modOd fun x => { x with coreQ := [{ req := 1, bytes := [2, 1, 64, 107, 1, 1], epoch := 0, core := true, x := 0 }], coreAt := some 1 }, 340282366920938463463374607431768211455, 1, { req := 1, bytes := [2, 1, 64, 107, 1, 1], epoch := 0, core := true, x := 0 }, 0, by decide, by decide, by decide, _, rfl⟩⟩

def stMod : State := up.modLane 1 fun l => { l with out := .modulating, srcNow := 3 }
theorem wit_Boundaries :
    (∃ (s : State) (b : BoundAt) (bound : Bound), ((b = .tick ∧ bound = .tick) ∨ (b = .frame ∧ bound = .frame) ∨ (∃ g, b = .period g ∧
        bound = .period g)) ∧ (∀ g ∈ s.od.waiting, g.bound ≠ bound)) ∧
    (∃ (s : State) (b : BoundAt) (n : Fin 16), ((b = .rx n ∧ ∀ g ∈ s.od.waiting, g.bound ≠ .rxCw n ∧ g.bound ≠ .anyCw n) ∨ (b = .tx n ∧
        ∀ g ∈ s.od.waiting, g.bound ≠ .txCw n ∧ g.bound ≠ .anyCw n))) ∧
    (∃ (s : State) (b : BoundAt) (bound : Bound) (k : Key) (data : List Byte) (r : Fin 18) (e : Nat) (grp : Bool) (d : Entry), ((∃ n,
        b = .tx n ∧ bound = .txCw n ∧ k.blk = .line n ∧ (k.off = 0x22 ∨ k.off = 0x24 ∨ k.off = 0x25)) ∨ (∃ g, b = .period g ∧
        bound = .period g ∧ k = ⟨.pg g, 0x09, 2⟩) ∨ (∃ i, 3 ≤ i ∧ b = .tick ∧ bound = .tick ∧ k = ⟨.dev, 0x5002, i⟩)) ∧
        entryOf k = some d ∧ d.acc ≠ .wo ∧ s.scanOn = false ∧
        s.od.waiting = [{ req := r, epoch := e, bound := bound, grp := grp, writes := [(k, data)] }]) ∧
    (∃ (s : State) (g : Waiting), s.scanOn = false ∧ s.od.waiting = [g] ∧ g.bound = .frame ∧ g.grp = true) ∧
    (∃ (s : State) (n : Fin 16) (bits : List Bool) (tone : List Int), (∀ g ∈ s.od.waiting, g.bound ≠ .rxCw n ∧ g.bound ≠ .anyCw n) ∧
        (s.lane n).coldApply = false ∧ (s.lane n).restartPend = false ∧ (s.lane n).snapPend = false) ∧
    (∃ (s : State) (n : Fin 16) (bits : List Bool) (tone : List Int) (i : Nat) (data : List Byte) (r : Fin 18) (e : Nat) (grp : Bool),
        1 ≤ i ∧ i ≤ 48 ∧ s.scanOn = false ∧
        s.od.waiting = [{ req := r, epoch := e, bound := .rxCw n, grp := grp, writes := [(⟨.line n, 0x12, i⟩, data)] }] ∧
        (s.lane n).coldApply = false ∧ (s.lane n).restartPend = false ∧ (s.lane n).snapPend = false) ∧
    (∃ (s : State) (n : Fin 16) (bits : List Bool) (tone : List Int), (∀ g ∈ s.od.waiting, g.bound ≠ .rxCw n ∧ g.bound ≠ .anyCw n) ∧
        (s.lane n).coldApply = false ∧ (s.lane n).restartPend = false ∧ (s.lane n).snapPend = true) ∧
    (∃ (s : State) (n : Fin 16) (bits : List Bool) (tone : List Int), (∀ g ∈ s.od.waiting, g.bound ≠ .txCw n ∧ g.bound ≠ .anyCw n)) ∧
    (∃ (s : State) (n : Fin 16) (bits : List Bool) (tone : List Int) (r : TxS × List Int), (s.lane n).out ≠ .disabled ∧
        (s.pg (pgOf n)).code0 = false ∧ r = txRun (s.txCfg n) (s.lane n).tx (s.txSymbols n bits) (s.toneSamples n tone)) ∧
    (∃ (s : State) (n : Fin 16) (hi lo : Bool) (tone : List Int) (a : Fin 4) (old : TxS) (v d : Int), (s.lane n).out ≠ .disabled ∧
        (s.pg (pgOf n)).code0 = false ∧ (s.lane n).srcNow = 3 ∧ s.on (K.LINE_TX_PRECODE n) = false ∧ (s.picot n).burst = none ∧
        a = gray hi lo ∧ old = txPush (s.lane n).tx (a, s.rdI (K.LINE_TX_LEVEL n a.val)) ∧ v = txFfe (txTaps s n) old.amp ∧
        d = (if s.on (K.LINE_TX_PD_EN n) then s.rdI (K.LINE_TX_PD_LUT n (pdIdx (txIdx old (s.rd (K.LINE_TX_FFE_MAIN n) + 1)) (txIdx old
        (s.rd (K.LINE_TX_FFE_MAIN n))) (txIdx old (s.rd (K.LINE_TX_FFE_MAIN n) - 1)))) else 0)) ∧
    (∃ (s : State) (n : Fin 16) (bits : List Bool) (tone : List Int), ((s.lane n).out = .disabled ∨ (s.pg (pgOf n)).code0 = true)) :=
  ⟨⟨up, .tick, .tick, by decide, by decide⟩,
   ⟨up, .rx 1, 1, by decide⟩,
   ⟨upV.modOd fun o => { o with waiting := [⟨1, 0, .tick, false, [(⟨.dev, 0x5002, 3⟩, be 1 1)]⟩] }, .tick, .tick, ⟨.dev, 0x5002, 3⟩,
       be 1 1, 1, 0, false, _, Or.inr (Or.inr ⟨3, by decide⟩), rfl, by decide, by decide, rfl⟩,
   ⟨up.modOd fun x => { x with waiting := [{ req := 1, epoch := 0, bound := .frame, grp := true, writes := [((K.TIME_IMPLAUSIBLE 1), [1]), ((K.LINE_CO_T_PHASE 1 7), []), (K.BIST_START, []), (K.MON_CAL_DT, [1, 132, 0])] }] }, { req := 1, epoch := 0, bound := .frame, grp := true, writes := [((K.TIME_IMPLAUSIBLE 1), [1]), ((K.LINE_CO_T_PHASE 1 7), []), (K.BIST_START, []), (K.MON_CAL_DT, [1, 132, 0])] }, by decide, by decide, by decide, by decide⟩,
   ⟨up, 1, [], [], by decide, by decide, by decide, by decide⟩,
   ⟨upV.modOd fun o => { o with waiting := [⟨1, 0, .rxCw 1, false, [(⟨.line 1, 0x12, 5⟩, be 2 1)]⟩] }, 1, [], [], 5, be 2 1, 1, 0, false,
       by decide, by decide, by decide, rfl, by decide, by decide, by decide⟩,
   ⟨up.modLane 1 fun l => { l with snapPend := true }, 1, [], [], by decide, by decide, by decide, by decide⟩,
   ⟨up, 1, [], [], by decide⟩,
   ⟨stMod, 1, [true, false], [], _, by decide, by decide, rfl⟩,
   ⟨stMod, 1, true, false, [], _, _, _, _, by decide, by decide, by decide, by decide, by decide, rfl, rfl, rfl, rfl⟩,
   ⟨up, 1, [], [], by decide⟩⟩

theorem upV_free : upV.coreFree := ⟨by decide, by decide, by decide, by decide⟩
def stWriting : State := upV.modReq 1 fun x => { x with transfer := .writing (K.LINE_TX_FFE_TAP 1 3) 2 0 [] false }
theorem stWriting_free : stWriting.coreFree := ⟨by decide, by decide, by decide, by decide⟩
theorem wit_Transfers :
    (∃ (s : State) (r : Fin 18) (tag : BitVec 8) (idx : BitVec 16) (sub : BitVec 8) (size : BitVec 32), ∃ (k : Key),
        k = Key.ofIndex idx.toNat sub.toNat ∧ ∃ (req : List Byte), req = reqAt 3 tag idx sub (be 4 size.toNat) ∧ s.arrives r req = true ∧
        s.coreFree ∧ ∃ (a : State), a = s.arrived r req ∧ checkEntry a r k [] = .ok ∧ ∃ en, entryOf k = some en ∧
        (s.req r).lost = false) ∧
    (∃ (s : State) (r : Fin 18) (tag flags rsv : BitVec 8) (data : List Byte) (x : BitVec 128), ∃ (req : List Byte),
        req = reqOf 4 tag ([flags, rsv] ++ data) ∧ s.arrives r req = true ∧ s.coreFree ∧ s.fencesMet r ∧
        ∃ (a : State), a = s.arrived r req ∧ 1 ≤ data.length ∧ data.length ≤ 252 ∧
        ∃ (k : Key) (size got : Nat) (held : List Byte) (tog : Bool), (s.req r).transfer = .writing k size got held tog ∧
        a.segCheck r data = .ok ∧ field flags.toNat 5 0 = 0 ∧ rsv = 0 ∧ ∃ (n : Nat), n = got + data.length ∧
        ∃ (big : Bool), big = decide (65536 < size) ∧ ∃ (ack : Nat), ack = flags.toNat / 64 * 64) ∧
    (∃ (s : State) (r : Fin 18) (tag flags rsv : BitVec 8) (data : List Byte) (x : BitVec 128), ∃ (req : List Byte),
        req = reqOf 4 tag ([flags, rsv] ++ data) ∧ s.arrives r req = true ∧ s.coreFree ∧ s.fencesMet r ∧ 1 ≤ data.length ∧
        data.length ≤ 252 ∧ s.coreCheck = .ok) ∧
    (∃ (s : State) (r : Fin 18) (tag flags : BitVec 8), ∃ (req : List Byte), req = reqOf 5 tag [flags] ∧ s.arrives r req = true ∧
        (∀ q ∈ s.od.coreQ, q.req = r → q.core = true) ∧ s.mustWait s.od.coreQ ⟨r, req, (s.req r).epoch, false, 0⟩ = false) ∧
    (∃ (s : State) (r : Fin 18) (tag : BitVec 8) (code : BitVec 32), ∃ (req : List Byte), req = reqOf 6 tag (be 4 code.toNat) ∧
        s.arrives r req = true ∧ s.coreFree ∧ s.coreCheck = .ok) ∧
    (∃ (s : State) (r : Fin 18), ((s.req r).transfer = .idle ∨ (s.req r).transfer = .timedOut)) ∧
    (∃ (s : State) (r : Fin 18), (s.req r).transfer ≠ .idle ∧ (s.req r).transfer ≠ .timedOut) :=
  ⟨⟨upV, 1, 0, 0x4064, 3, 2, _, rfl, _, rfl, by decide, upV_free, _, rfl, by decide, _, rfl, by decide⟩,
   ⟨stWriting, 1, 0, 0x40, 0, [1, 2], 0, _, rfl, by decide, stWriting_free, by unfold State.fencesMet; decide, _, rfl, by decide,
       by decide, _, 2, 0, [], false, rfl, by decide, by decide, by decide, _, rfl, _, rfl, _, rfl⟩,
   ⟨upV, 1, 0, 0x40, 0, [1, 2], 0, _, rfl, by decide, upV_free, by unfold State.fencesMet; decide, by decide, by decide, by decide⟩,
   ⟨upV, 1, 0, 0, _, rfl, by decide, by decide, by decide⟩,
   ⟨upV, 1, 0, 0, _, rfl, by decide, upV_free, by decide⟩,
   ⟨upV, 1, by decide⟩,
   ⟨stWriting, 1, by decide, by decide⟩⟩

theorem wit_GroupsAndFences :
    (∃ (s : State) (r : Fin 18) (tag : BitVec 8), ∃ (req : List Byte), req = reqOf 8 tag [] ∧ s.arrives r req = true ∧ s.coreFree ∧
        s.coreCheck = .ok) ∧
    (∃ (s : State) (r : Fin 18) (tag : BitVec 8), ∃ (req : List Byte), req = reqOf 10 tag [] ∧ s.arrives r req = true ∧ s.coreFree ∧
        s.coreCheck = .ok) ∧
    (∃ (s : State) (r : Fin 18) (tag : BitVec 8) (idx : BitVec 16) (sub : BitVec 8) (data : List Byte), ∃ (k : Key),
        k = Key.ofIndex idx.toNat sub.toNat ∧ ∃ (req : List Byte), req = reqAt 2 tag idx sub data ∧ data.length ≤ 248 ∧
        s.arrives r req = true ∧ s.coreFree ∧ s.fencesMet r ∧ ∃ (a : State), a = s.arrived r req ∧ checkEntry a r k data = .ok) ∧
    (∃ (s : State) (r : Fin 18) (tag : BitVec 8) (x : BitVec 128), ∃ (req : List Byte), req = reqOf 9 tag [] ∧ s.arrives r req = true ∧
        s.coreFree ∧ s.fencesMet r ∧ s.coreCheck = .ok ∧ ∃ (a : State), a = (s.arrived r req).asked) ∧
    (∃ (s : State) (r : Fin 18), (s.req r).group = none) ∧
    (∃ (s : State) (r : Fin 18), (s.req r).group ≠ none) ∧
    (∃ (s : State) (c : Instr) (r : Fin 18) (tag : BitVec 8) (kind : Nat), ((c = .fenceLocal r tag ∧ kind = 1) ∨ (c = .fenceApply r tag ∧
        kind = 2) ∨ (c = .fencePersist r tag ∧ kind = 3 ∧ s.coreCheck = .ok)) ∧ ∃ (req : List Byte), req = reqOf 7 tag (be 1 kind) ∧
        s.arrives r req = true ∧ (∀ q ∈ s.od.coreQ, q.req ≠ r) ∧ (s.req r).group ≠ none) ∧
    (∃ (s : State) (c : Instr) (r : Fin 18) (tag : BitVec 8) (kind : Nat), ((c = .fenceLocal r tag ∧ kind = 1) ∨ (c = .fenceApply r tag ∧
        kind = 2) ∨ (c = .fencePersist r tag ∧ kind = 3 ∧ s.coreCheck = .ok ∧ s.coreFree)) ∧
        ∃ (req : List Byte), req = reqOf 7 tag (be 1 kind) ∧ s.arrives r req = true ∧ (∀ q ∈ s.od.coreQ, q.req ≠ r) ∧
        (s.req r).group = none) ∧
    (∃ (s : State) (c : Instr) (r : Fin 18) (kind : Nat) (f : Fence), ((c = .fenceApplyDone r ∧ kind = 2) ∨ (c = .fencePersistDone r ∧
        kind = 3)) ∧ ((s.req r).fences.filter fun f => f.kind == kind && !s.fencePending r f.epoch && (kind == 2 || f.saved.isSome)) =
        [f]) ∧
    (∃ (s : State) (c : Instr) (r : Fin 18) (kind : Nat), ((c = .fenceApplyDone r ∧ kind = 2) ∨ (c = .fencePersistDone r ∧ kind = 3)) ∧
        (∀ f ∈ (s.req r).fences, f.kind = kind → s.fencePending r f.epoch = true ∨ (kind = 3 ∧ f.saved = none))) :=
  ⟨⟨upV, 1, 0, _, rfl, by decide, upV_free, by decide⟩,
   ⟨upV, 1, 0, _, rfl, by decide, upV_free, by decide⟩,
   ⟨upV, 1, 0, 0x4064, 3, [0, 1], _, rfl, _, rfl, by decide, by decide, upV_free, by unfold State.fencesMet; decide, _, rfl, by decide⟩,
   ⟨upV, 1, 0, 0, _, rfl, by decide, upV_free, by unfold State.fencesMet; decide, by decide, _, rfl⟩,
   ⟨up, 1, by decide⟩,
   ⟨up.modReq 0 fun x => { x with group := some [] }, 0, by decide⟩,
   ⟨up.modReq 1 fun x => { x with group := some [] }, .fenceLocal 1 15, 1, 15, 1, by decide, _, rfl, by decide, by decide, by decide⟩,
   ⟨up, .fenceLocal 1 0, 1, 0, 1, Or.inl (by decide), _, rfl, by decide, by decide, by decide⟩,
   ⟨up.modReq 1 fun x => { x with fences := [{ kind := 2, req := [255, 8], epoch := 6, saved := none }] }, .fenceApplyDone 1, 1, 2,
       { kind := 2, req := [255, 8], epoch := 6, saved := none }, by decide, by decide⟩,
   ⟨up, .fenceApplyDone 1, 1, 2, by decide, by decide⟩⟩

theorem wit_SavesAndTransport :
    (∃ (s : State), s.od.saveTimer = true ∧ s.rd K.OD_SAVE_DELAY ≠ 0 ∧ s.od.saving = false) ∧
    (∃ (s : State), (s.od.saveTimer = false ∨ s.rd K.OD_SAVE_DELAY = 0 ∨ s.od.saving = true)) ∧
    (∃ (s : State) (ok : Bool), s.od.saving = false) ∧
    (∃ (s : State), s.od.saving = true) ∧
    (∃ (s : State), s.od.saving = true) ∧
    (∃ (s : State) (r : Fin 18), s.accepts r K.OD_CFG_ERASE (be 1 1) = true) ∧
    (∃ (s : State) (r : Fin 18), s.accepts r K.OD_CFG_ERASE (be 1 1) = true) ∧
    (∃ (s : State) (r : Fin 18), s.accepts r K.OD_STATS_CLEAR (be 1 1) = true) ∧
    (∃ (s : State) (r : Fin 18) (ok : Bool) (c : Instr), ((c = .odCfgErase r 0 ok ∧
        s.accepts r K.OD_CFG_ERASE (be 1 0) = true) ∨ (c = .odStatsClear r 0 ∧ s.accepts r K.OD_STATS_CLEAR (be 1 0) = true))) ∧
    (∃ (s : State) (r : Fin 18) (tag : BitVec 8) (idx : BitVec 16) (sub : BitVec 8), ∃ (k : Key), k = Key.ofIndex idx.toNat sub.toNat ∧
        ∃ (req : List Byte), req = reqAt 11 tag idx sub [] ∧ s.arrives r req = true ∧ (∀ q ∈ s.od.coreQ, q.req = r → q.core = true) ∧
        s.mustWait s.od.coreQ ⟨r, req, (s.req r).epoch, false, 0⟩ = false) ∧
    (∃ (s : State) (full : Bool), s.served 16 = false) ∧
    (∃ (s : State) (full : Bool), s.served 16 = true ∧ ∃ (resp : List Byte), resp = (s.od.twiReady.head?).getD [] ∧
        ∃ (body : List Byte), body = be 1 (128 * s.od.twiOverflow.toNat + s.od.twiSlots) ++ be 2 resp.length ++ resp) :=
  ⟨⟨up.modOd fun x => { x with saveTimer := true }, by decide, by decide, by decide⟩,
   ⟨up, by decide⟩,
   ⟨up, false, by decide⟩,
   ⟨up.modOd fun x => { x with saving := true }, by decide⟩,
   ⟨up.modOd fun x => { x with saving := true }, by decide⟩,
   ⟨upV, 1, by decide⟩,
   ⟨upV, 1, by decide⟩,
   ⟨upV, 1, by decide⟩,
   ⟨upV, 1, false, .odCfgErase 1 0 false, by decide⟩,
   ⟨up, 1, 0, 3, 1, _, rfl, _, rfl, by decide, by decide, by decide⟩,
   ⟨State.reset, true, by decide⟩,
   ⟨upT, true, by decide, _, rfl, _, rfl⟩⟩

theorem wit_IdleStep :
    (∃ s : State, s.pending = [] ∧ s.od.coreQ = []) :=
  ⟨State.reset, by decide, by decide⟩

theorem wit_StoreFormKept :
    (∃ (s t : State), s.storeOk = true ∧ step s = .next t) :=
  ⟨up, _, by decide, rfl⟩

theorem wit_AcceptedWrites :
    (∃ (c : Instr) (r : Fin 18) (k : Key) (data : List Byte) (s : State), writeOf c = some (r, k, data) ∧ s.accepts r k data = true) :=
  ⟨.lineCoClear 1 1 1, 1, K.LINE_CO_CLEAR 1, be 1 1, upV, rfl, by decide⟩

theorem wit_RefusedWrites :
    (∃ (c : Instr) (r : Fin 18) (k : Key) (data : List Byte) (a : Abort) (s : State), writeOf c = some (r, k, data) ∧
        s.refuses r k data a = true) :=
  ⟨.lineCoClear 1 1 7, 1, K.LINE_CO_CLEAR 1, be 1 7, .outOfRange, upV, rfl, by decide⟩

theorem wit_ZeroWrites :
    (∃ (s : State) (r : Fin 18) (n : Fin 16) (g : Fin 4) (j : Fin 64) (k : Fin 32) (a : PrbsAt) (x : BitVec 128) (y : BitVec 64) (b :
        Bool) (c : Instr) (key : Key), c ∈ [Instr.lineCoClear r n 0, .availClear r 0, .pgFecClear r g 0, .lineFecClear r n 0,
        .lineFfeSnap r n 0, .lineLqmClear r n 0, .lineSwatchArm r n 0, .timeClear r n 0, .mgmtMrst r 0, .mgmtMasterRestart r 0,
        .lkForce r k 0, .monCalCmd r 0, .monCntClear r 0, .rcClear r j 0, .picotClear r n 0, .pwrDeviceOff r 0, .pwrCntClear r 0,
        .prbsChkClear r a 0, .ringClear r 0, .fwActivate r 0, .fwConfirm r 0, .fwSvnCommit r 0 x, .secDebugClose r 0, .secVendorDrop r 0,
        .lineSsRetest r n 0, .lineSsClear r n 0, .thermTripTest r 0, .bistStart r 0, .bistStop r 0, .repairFuseCmd r 0 y,
        .bistCntClear r 0, .odCfgErase r 0 b, .odStatsClear r 0] ∧ writeOf c = some (r, key, be 1 0) ∧ s.accepts r key (be 1 0) = true) :=
  ⟨upV, 1, 1, 0, 0, 0, .line 1, 0, 0, false, .lineCoClear 1 1 0, K.LINE_CO_CLEAR 1, by decide, rfl, by decide⟩

theorem wit_ResetCauseRegister :
    (∃ (s : State) (deep : Bool), (deep = true ∨ (s.pwr.supply ≠ .stuckOff ∧ (s.pwr.supply ≠ .faultOff ∨ s.pwr.faultPors.length < 3)))) ∧
    (∃ (s : State) (c : Instr) (b : Nat), ((∃ (r : Fin 18) (v : BitVec 16), c = .rstLane r v ∧ b = 0 ∧ v ≠ 0 ∧
        s.accepts r K.RST_LANE (be 2 v.toNat) = true) ∨ (c = .mrst ∧ b = 1 ∧ s.mgmt.mrstPend = true) ∨ (c = .watchdogExpiry ∧ b = 2 ∧
        s.rd K.OD_CORE_STATE ≠ 1 ∧ s.sec.halted = false) ∨ (c = .thermalTrip ∧ b = 3 ∧ s.tripped = false ∧
        12500 ≤ s.rdI K.THERM_TRIP_MAX) ∨ (c = .ringDeviceReset ∧ b = 4 ∧ s.resetReplied = true ∧ s.scanOn = false) ∨ (c = .resetNAssert ∧
        b = 5 ∧ s.powered = true) ∨ (c = .railFaultPor ∧ b = 7 ∧ s.supplied = true ∧
        s.pwr.railFault ≠ none) ∨ ((∃ straps, c = .wakeEdge straps) ∧ b = 8 ∧ s.pwr.supply = .stuckOff))) ∧
    (∃ (s : State) (r : Fin 18) (v : BitVec 16) (x : BitVec 128), s.accepts r K.RST_CAUSE (be 2 v.toNat) = true) :=
  ⟨⟨up, false, by decide⟩,
   ⟨upV.modMgmt fun m => { m with mrstPend := true }, .mrst, 1, Or.inr (Or.inl ⟨rfl, rfl, by decide⟩)⟩,
   ⟨upV, 1, 8, 964961466355927293337106250944751775, by decide⟩⟩

end Sys2Proof.Tests
end

section
/-!
SUPPORT. The write of an entry as one operation: each command that is the write of an entry is `State.write` with an effect of its
own; what counting a request leaves alone; what a refused write leaves behind.
-/

namespace Sys2Proof.Machine

/-! ## The commands that write an entry -/

/-- A master's command on a lock or a mailbox is the write of an entry where the master is a requester; the core (18) writes none. -/
theorem next_write_of_master {m : Fin 19} {r : Fin 18} {k k' : Key} {data data' : List Byte} (eff' portEff : State → State)
    (h : (if hm : m.val < 18 then some ((⟨m.val, hm⟩ : Fin 18), k', data') else none) = some (r, k, data)) :
    ∃ eff : State → State, ∀ s : State,
      (.next (if hm : m.val < 18 then s.write ⟨m.val, hm⟩ k' data' eff' else portEff s) : Host.Outcome State Fault Refusal) =
        .next (s.write r k data eff) := by
  by_cases hm : m.val < 18
  · cases (dif_pos hm).symm.trans h
    exact ⟨eff', fun _ => congrArg _ (dif_pos hm)⟩
  · cases (dif_neg hm).symm.trans h

/-- A command that is the write of an entry is the checked write of that entry, with an effect of its own. -/
theorem exec_of_writeOf {c : Instr} {r : Fin 18} {k : Key} {data : List Byte} (h : writeOf c = some (r, k, data)) :
    ∃ eff : State → State, ∀ s, exec c s = .next (s.write r k data eff) := by
  cases c
  case lkRelease m l v => exact next_write_of_master _ _ h
  case mbDataWrite m b d => exact next_write_of_master _ _ h
  case mbAck m b v => exact next_write_of_master _ _ h
  case timeDiscSrcWrite q isLane v =>
    cases h
    cases isLane <;> exact ⟨_, fun _ => rfl⟩
  case registerWrite q idx sub d x =>
    by_cases hk : (Key.ofIndex idx.toNat sub.toNat == K.SEC_TOKEN) = true
    · cases (if_pos hk).symm.trans h
    · cases (if_neg hk).symm.trans h
      exact ⟨_, fun _ => congrArg _ (if_neg hk)⟩
  all_goals cases h <;> exact ⟨_, fun _ => rfl⟩

namespace State

/-! ## What counting a request leaves alone -/

/-- A change that only counts a request (R419): of the entries it changes those alone that a request may change whatever it asks, and of
the dictionary's own record nothing. -/
def OnlyCounts (s t : State) : Prop := SameBut requestKeys s t ∧ t.od = s.od

variable {a s : State}

theorem OnlyCounts.refl (s : State) : OnlyCounts s s := ⟨fun _ _ => rfl, rfl⟩

theorem OnlyCounts.trans {b c : State} (h1 : OnlyCounts a b) (h2 : OnlyCounts b c) : OnlyCounts a c :=
  ⟨fun k hk => (h2.1 k hk).trans (h1.1 k hk), h2.2.trans h1.2⟩

theorem ne_of_requestKeys {k x : Key} (hk : requestKeys k = false) (hx : requestKeys x = true) : k ≠ x := by
  intro e
  rw [e, hx] at hk
  cases hk

theorem OnlyCounts.wr (x : Key) (v : Nat) (hx : requestKeys x = true) (h : OnlyCounts a s) : OnlyCounts a (s.wr x v) :=
  h.trans ⟨fun _ hk => rd_wr_ne s v (ne_of_requestKeys hk hx), rfl⟩

theorem OnlyCounts.modPc (j : Fin 8) (f : PerfCnt → PerfCnt) (h : OnlyCounts a s) : OnlyCounts a (s.modPc j f) := h

theorem OnlyCounts.raise (x : Src) (h1 : requestKeys (K.IRQ_CAUSE x.g) = true) (h2 : requestKeys (K.IRQ_FIRST x.g) = true)
    (h : OnlyCounts a s) : OnlyCounts a (s.raise x) :=
  h.trans ⟨fun k hk => rd_raise_ne s k x (ne_of_requestKeys hk h1) (ne_of_requestKeys hk h2), raise_od s x⟩

theorem OnlyCounts.when_ (b : Bool) (f : State → State) (h : OnlyCounts a s) (hf : ∀ z, OnlyCounts a z → OnlyCounts a (f z)) :
    OnlyCounts a (when_ b f s) := by
  unfold Machine.when_
  split
  · exact hf s h
  · exact h

theorem OnlyCounts.forAll {α : Type} (l : List α) (f : α → State → State) (h : OnlyCounts a s)
    (hf : ∀ x z, OnlyCounts a z → OnlyCounts a (f x z)) : OnlyCounts a (forAll l f s) := by
  induction l generalizing s with
  | nil => exact h
  | cons x l ih => exact ih (hf x s h)

theorem pcOverflow_onlyCounts (j : Fin 8) (addr : Nat) (h : OnlyCounts a s) : OnlyCounts a (s.pcOverflow j addr) := by
  have hovf : OnlyCounts a ((s.modPc j fun p => { p with count := 0 }).wrBit (K.PC_STATUS j) 0 true) := (h.modPc j _).wr _ _ rfl
  have hwrap := hovf.when_ (!(s.pc j).latch.isEmpty) (fun z => z.wrBit (K.PC_STATUS j) 1 true) fun z hz => hz.wr _ _ rfl
  have hcause : OnlyCounts a (State.wrBit _ K.PC_OVF_CAUSE j.val true) := hwrap.wr _ _ rfl
  have haddr := hcause.when_ ((s.rd (K.PC_CFG j)).testBit 31) (fun z => z.wr (K.PC_SAMPLE_ADDR j) addr) fun z hz => hz.wr _ _ rfl
  exact haddr.when_ _ _ fun z hz => hz.raise Src.PC_OVERFLOW rfl rfl

theorem pcAdd_onlyCounts (j : Fin 8) (n : Nat) (h : OnlyCounts a s) : OnlyCounts a (s.pcAdd j n) := by
  unfold pcAdd
  dsimp only
  split
  · exact h.modPc j _
  · exact (pcOverflow_onlyCounts j s.fresh.1 (s := s.fresh.2) h).modPc j _

theorem pcEvent_onlyCounts (cls n : Nat) (h : OnlyCounts a s) : OnlyCounts a (s.pcEvent cls n) := by
  refine h.forAll _ _ fun j z hz => ?_
  dsimp only
  split
  · exact pcAdd_onlyCounts j n hz
  · exact hz

theorem taken_onlyCounts (s : State) : OnlyCounts s s.taken := pcEvent_onlyCounts _ _ (.refl s)

/-! ## A refused write -/

/-- A refused request is counted as a request and does not wake the core. -/
theorem counted_abort (s : State) (k : Key) (x : Abort) : s.counted k (.abort x) = s.taken := by
  have hw : s.taken.coreAsked k (.abort x) = s.taken := ite_self _
  have hv : (!fastWrite k && (Verdict.abort x == .ok)) = false := Bool.and_false _
  unfold counted
  rw [hw, hv]
  rfl

theorem rd_answered_abort (s : State) (r : Fin 18) (x : Abort) (k : Key) :
    (s.answered r (.abort x)).rd k = (s.incSat K.OD_ABORT_COUNT).rd k := rfl

/-- What a refused write leaves behind: the request counted, and the abort as its answer. -/
theorem write_of_refuses {r : Fin 18} {k : Key} {data : List Byte} {x : Abort} (eff : State → State)
    (h : s.refuses r k data x = true) : s.write r k data eff = s.taken.answered r (.abort x) := by
  rw [write_refused s eff h, counted_abort]

/-- The answer of a refused write is its abort code. -/
theorem outcome_answered (s : State) (r : Fin 18) (x : Abort) : ((s.answered r (.abort x)).req r).outcome = x.code := by
  show ((s.modReq r fun q => { q with outcome := x.code }).req r).outcome = x.code
  rw [req_modReq]

theorem refused_sameBut (s : State) (r : Fin 18) (x : Abort) :
    SameBut (fun k => requestKeys k || k == K.OD_ABORT_COUNT) s (s.taken.answered r (.abort x)) := by
  intro k hk
  obtain ⟨h1, h2⟩ := Bool.or_eq_false_iff.mp hk
  rw [rd_answered_abort, rd_incSat, if_neg (by simpa using h2), (taken_onlyCounts s).1 k h1]

theorem refused_countsUp (s : State) (r : Fin 18) (x : Abort) :
    CountsUp s (s.taken.answered r (.abort x)) K.OD_ABORT_COUNT 1 := by
  unfold CountsUp
  rw [rd_answered_abort, rd_incSat, if_pos rfl, (taken_onlyCounts s).1 K.OD_ABORT_COUNT rfl]

theorem refused_waiting (s : State) (r : Fin 18) (x : Abort) : (s.taken.answered r (.abort x)).od.waiting = s.od.waiting := by
  have h : (s.taken.answered r (.abort x)).od.waiting = s.taken.od.waiting := rfl
  rw [h, (taken_onlyCounts s).2]

theorem refused_touches (s : State) (r : Fin 18) (x : Abort) :
    Touches (fun _ => false) s (s.taken.answered r (.abort x)) :=
  answered_touches _ _ (taken_touches (.refl _ s))

end State

/-- Settles O8: such a command is the checked write of its entry, and a refused one leaves the request counted and its abort answered,
which touch no area. -/
theorem refusedWrites : Obligations.RefusedWrites := by
  intro c r k data x s hc hr
  obtain ⟨eff, he⟩ := exec_of_writeOf hc
  have ht := State.refused_touches s r x
  obtain ⟨hlanes, hhosts, hpgs⟩ := ht.lanes rfl
  refine ⟨s.taken.answered r (.abort x), by rw [he, State.write_of_refuses eff hr], ?_⟩
  exact ⟨State.refused_sameBut s r x, State.refused_countsUp s r x, State.outcome_answered s.taken r x, hlanes, hhosts, hpgs,
    ht.ce rfl, ht.ring rfl, ht.time rfl, ht.clk rfl, ht.bist rfl, State.refused_waiting s r x⟩

end Sys2Proof.Machine
end

section
/-!
SUPPORT. What the return of the root leaves of holdover: it ends where source 0 is in force (R22, R295), and the source in force is SRC of
`TIME_STATUS`, which follows `TIME_DISC_SRC` at the next gauge tick alone (R293). A device whose change to source 0 still waits for that
tick stays in holdover.
-/

namespace Sys2Proof.Machine

namespace State

/-! ## Holdover at the return of the root -/

theorem holdover_of_rd {s t : State} (h : t.rd K.TIME_STATUS = s.rd K.TIME_STATUS) : t.holdover = s.holdover := bit_of_rd h 3

theorem timeSrc_of_rd {s t : State} (h : t.rd K.TIME_STATUS = s.rd K.TIME_STATUS) : t.timeSrc = s.timeSrc :=
  congrArg (field · 7 5) h

theorem rd_wrBit_ne (s : State) {k k' : Key} (i : Nat) (b : Bool) (h : k' ≠ k) : (s.wrBit k i b).rd k' = s.rd k' := rd_wr_ne s _ h

/-- Where holdover is left, it is over. -/
theorem holdover_holdoverExit (s : State) : s.holdoverExit.holdover = false := by
  unfold holdoverExit
  split
  next =>
    have h := rd_raise_area (s.wrBit K.TIME_STATUS 3 false) K.TIME_STATUS Src.TIME_HOLDOVER_CHG (by decide)
    rw [holdover_of_rd h, holdover, bit_wrBit, if_pos rfl, if_pos rfl, Bool.and_false]
  next h => exact Bool.eq_false_iff.mpr h

/-- The time unit's part: holdover ends with source 0 in force, and stands with any other (R295). -/
theorem holdover_timeRootBack (s : State) : s.timeRootBack.holdover = (s.holdover && s.timeSrc != 0) := by
  unfold timeRootBack
  dsimp only
  split
  next h => rw [holdover_holdoverExit, h]; exact (Bool.and_false _).symm
  next h =>
    have hbit : (s.wrBit K.TIME_STATUS 4 false).holdover = s.holdover := bit_wrBit s K.TIME_STATUS K.TIME_STATUS 4 3 false
    rw [hbit, bne_iff_ne.mpr h, Bool.and_true]

/-- A root that returns to a held LSYN (R22) ends holdover where source 0 is in force, and leaves it as it stands elsewhere. -/
theorem holdover_rootBack (s : State) (h : s.bit K.CLK_STATUS 3 = true) : s.rootBack.holdover = (s.holdover && s.timeSrc != 0) := by
  have hne : K.TIME_STATUS ≠ K.CLK_STATUS := by decide
  unfold rootBack
  dsimp only
  rw [if_pos h, holdover_timeRootBack]
  have hrd : ∀ z : State, (z.raise Src.CLK_REF_RESTORED).rd K.TIME_STATUS = z.rd K.TIME_STATUS := fun z =>
    rd_raise_area z _ _ (by decide)
  rw [holdover_of_rd (s := s), timeSrc_of_rd (s := s)] <;>
    rw [hrd, rd_wrBit_ne _ _ _ hne, rd_wrBit_ne _ _ _ hne, rd_wrBit_ne _ _ _ hne, rd_wrBit_ne _ _ _ hne, modClk_rd]

end State

/-! ## A device whose change of source waits for the gauge tick -/

/-- The device after reset with its root valid, its synthesizers locked and its core serving. -/
def lockedAndServing : State :=
  match core.run 2 { State.reset with pending := [.rootRestored, .synthLock []] } with
  | .next t => t.wr K.OD_CORE_STATE 0
  | _ => State.reset

/-- There SYNC_IN becomes the source and takes effect at a gauge tick; the root is lost, and source 0 is written but not yet in force. -/
def sourceChangeWaits : State :=
  match core.run 5 { lockedAndServing with pending :=
    [.registerWrite 16 0x5003 3 [1] 0, .timeDiscSrcWrite 16 false 1, .timeAdjApply, .rootLost, .timeDiscSrcWrite 16 false 0] } with
  | .next t => t
  | _ => State.reset

set_option maxRecDepth 4000 in
/-- The root is lost and LSYN held; source 0 is written and SYNC_IN in force, in holdover. -/
theorem sourceChangeWaits_reads :
    sourceChangeWaits.clk.rootValid = false ∧ sourceChangeWaits.bit K.CLK_STATUS 3 = true ∧
    sourceChangeWaits.rd K.TIME_DISC_SRC = 0 ∧ sourceChangeWaits.timeSrc = 1 ∧ sourceChangeWaits.holdover = true := by
  decide

/-- Refutes O17: `TIME_DISC_SRC` of 0 that waits for its gauge tick leaves SYNC_IN the source in force (R293), and holdover then stands
when the root returns; the clause on ROOT_RESTORED asks that it end. -/
theorem not_clockAndOutage : ¬ Obligations.ClockAndOutage := by
  unfold Obligations.ClockAndOutage
  rintro ⟨-, -, -, -, hrestored, -⟩
  obtain ⟨hroot, hheld, hsrc, hforce, hholdover⟩ := sourceChangeWaits_reads
  obtain ⟨t, hrun, -, -, -, hend⟩ := hrestored sourceChangeWaits hroot
  have hexec : exec .rootRestored sourceChangeWaits = .next sourceChangeWaits.rootBack := by
    rw [exec_rootRestored, execRootRestored, hroot, if_neg Bool.false_ne_true]
  obtain rfl : sourceChangeWaits.rootBack = t := Host.Outcome.next.inj (hexec.symm.trans hrun)
  obtain ⟨-, -, -, -, -, hends⟩ := hend hheld
  have hstays : sourceChangeWaits.rootBack.holdover = true := by
    rw [State.holdover_rootBack _ hheld, hholdover, hforce]
    rfl
  exact Bool.false_ne_true ((hends hsrc).symm.trans hstays)

end Sys2Proof.Machine
end

section
/-!
SUPPORT. Rules that the line lanes' statements share: bits of a register of which a field is written, changes that leave every entry or
all but one alone, and what a change of one lane's record leaves alone.
-/

namespace Sys2Proof.Machine

namespace State

/-! ## Fields and bits -/

/-- A written field, in its place between the bits below and above it. -/
theorem withField_eq (v lo w x : Nat) :
    withField v (lo + w) lo x = 2 ^ lo * (2 ^ (w + 1) * (v / 2 ^ lo / 2 ^ (w + 1)) + x % 2 ^ (w + 1)) + v % 2 ^ lo := by
  have hw : lo + w + 1 - lo = w + 1 := by omega
  have hhigh := Nat.div_add_mod (v / 2 ^ lo) (2 ^ (w + 1))
  have hlow := Nat.div_add_mod v (2 ^ lo)
  have hsplit : v = 2 ^ lo * (2 ^ (w + 1) * (v / 2 ^ lo / 2 ^ (w + 1))) + v / 2 ^ lo % 2 ^ (w + 1) * 2 ^ lo + v % 2 ^ lo := by
    calc v = 2 ^ lo * (v / 2 ^ lo) + v % 2 ^ lo := hlow.symm
      _ = 2 ^ lo * (2 ^ (w + 1) * (v / 2 ^ lo / 2 ^ (w + 1)) + v / 2 ^ lo % 2 ^ (w + 1)) + v % 2 ^ lo := by rw [hhigh]
      _ = _ := by ring
  unfold withField field
  rw [hw, Nat.mul_add, Nat.mul_comm (x % 2 ^ (w + 1))]
  omega

/-- What the bits of a number are after a field is written. -/
theorem testBit_withField (v lo w x j : Nat) :
    (withField v (lo + w) lo x).testBit j = if lo ≤ j ∧ j ≤ lo + w then x.testBit (j - lo) else v.testBit j := by
  rw [withField_eq, Nat.testBit_two_pow_mul_add _ (Nat.mod_lt _ (Nat.two_pow_pos _)),
    Nat.testBit_two_pow_mul_add _ (Nat.mod_lt _ (Nat.two_pow_pos _)), Nat.testBit_mod_two_pow, Nat.testBit_mod_two_pow,
    Nat.testBit_div_two_pow, Nat.testBit_div_two_pow]
  by_cases hlow : j < lo
  · simp [hlow, Nat.not_le.mpr hlow]
  · by_cases hin : j - lo < w + 1
    · have hj : lo ≤ j ∧ j ≤ lo + w := by omega
      simp [hlow, hin, hj]
    · have hj : ¬(lo ≤ j ∧ j ≤ lo + w) := by omega
      have hsum : j - lo - (w + 1) + (w + 1) + lo = j := by omega
      simp [hlow, hin, hj, hsum]

/-- What a bit reads as after a field was written. -/
theorem bit_wrField (s : State) (k : Key) (lo w x j : Nat) :
    (s.wrField k (lo + w) lo x).bit k j =
      (decide (j < bitsOf k) && if lo ≤ j ∧ j ≤ lo + w then x.testBit (j - lo) else s.bit k j) := by
  unfold bit
  rw [rd_wrField, if_pos rfl, Nat.testBit_mod_two_pow, testBit_withField]

/-- Numbers with the same bits in a field have the same field. -/
theorem field_congr {v v' hi lo : Nat} (h : ∀ j, lo ≤ j → j ≤ hi → v.testBit j = v'.testBit j) : field v hi lo = field v' hi lo := by
  apply Nat.eq_of_testBit_eq
  intro j
  unfold field
  rw [Nat.testBit_mod_two_pow, Nat.testBit_mod_two_pow, Nat.testBit_div_two_pow, Nat.testBit_div_two_pow]
  by_cases hj : j < hi + 1 - lo
  · rw [h (j + lo) (by omega) (by omega)]
  · simp [hj]

/-! ## Changes of entries -/

theorem changes_of_rd {s t : State} (ks : List Key) (h : ∀ k, t.rd k = s.rd k) : Changes ks s t := fun k _ => h k

theorem changes_wr (s : State) (k : Key) (v : Nat) : Changes [k] s (s.wr k v) := by
  rw [changes_iff]
  exact fun x _ hx => rd_wr_ne _ _ (by simpa using hx)

/-- An event changes no entry of an area. -/
theorem changes_raise (ks : List Key) (s : State) (x : Src) : Changes ks s (s.raise x) := by
  rw [changes_iff]
  exact fun k ha _ => rd_raise_area s k x ha

/-- A cause bit stays set where its register reads as before. -/
theorem raised_of_rd {s t : State} {x : Src} (h : t.rd (K.IRQ_CAUSE x.g) = s.rd (K.IRQ_CAUSE x.g)) (hr : Raised s x) : Raised t x :=
  (bit_of_rd h x.b).trans hr

/-! ## Records of lanes -/

/-- A change of one lane's record leaves the other lanes and every register alone. -/
theorem modLane_frame (s : State) (n : Fin 16) (f : LaneS → LaneS) :
    (∀ m, m ≠ n → (s.modLane n f).lane m = s.lane m) ∧ ∀ x, (s.modLane n f).rd x = s.rd x :=
  ⟨fun _ hm => lane_modLane_ne s f hm, fun _ => rfl⟩

/-- A change of one host lane's record leaves the other host lanes, the line lanes and every register alone. -/
theorem modHost_frame (s : State) (m : Fin 32) (f : HostS → HostS) :
    (∀ p, p ≠ m → (s.modHost m f).host p = s.host p) ∧ (s.modHost m f).lanes = s.lanes ∧ ∀ x, (s.modHost m f).rd x = s.rd x :=
  ⟨fun p hp => by simp [host, modHost, get_setVec, hp], rfl, fun _ => rfl⟩

@[simp] theorem noteUnsaved_lane (s : State) (k : Key) (n : Fin 16) : (s.noteUnsaved k).lane n = s.lane n := by
  unfold noteUnsaved
  split
  · split <;> rfl
  · rfl

/-- A change that may start a freeze writes the entries that it writes without one. -/
theorem rd_followFreeze (s : State) (n : Fin 16) (f : State → State) (k : Key) : (s.followFreeze n f).rd k = (f s).rd k := by
  unfold followFreeze
  split <;> rfl

end State

end Sys2Proof.Machine
end

section
/-!
SUPPORT. A lane that a self-test holds takes no samples (R505): nothing of an update of its reaches the chain, its counters or the
entries that follow the loop.
-/

namespace Sys2Proof.Machine

namespace State

/-- The samples of a lane under self-test are discarded (R505). -/
theorem adaptUpdate_of_laneTested {s : State} {n : Fin 16} (cc : List (List (BitVec 8))) (h : s.laneTested n = true) :
    s.adaptUpdate n cc = s := if_pos h

theorem bistStart_running (s : State) (x : BistTarget) : (s.bistStart x).bist.running = some x := rfl

/-- The start of a lane's self-test aborts its capture (R505) and writes no other entry of the lanes. -/
theorem rd_bistStart_lane (s : State) (n : Fin 16) {k : Key} (h : k.area = some .lanes) :
    (s.bistStart (.lane n)).rd k = (s.swatchAbort n).rd k := by
  have hne : ∀ {x : Key}, x.area = some .bist → k ≠ x := fun hx e => by
    rw [e, hx] at h
    cases h
  dsimp only [bistStart, bistPrepare, fresh]
  iterate 8 rw [rd_wr_ne _ _ (hne rfl)]
  rfl

end State

/-- The device in service, `BIST_START` of L0 written (R499). -/
def laneUnderTest : State := lockedAndServing.write 16 K.BIST_START (be 1 0x10) (effBistStart 0x10)

theorem exec_bistStart_laneUnderTest : exec (.bistStart 16 0x10) lockedAndServing = .next laneUnderTest := rfl

set_option maxRecDepth 4000 in
theorem laneUnderTest_accepted : lockedAndServing.accepts 16 K.BIST_START (be 1 0x10) = true := by decide

set_option maxRecDepth 4000 in
/-- Before the test no code of L0 has been counted as clipped, and no capture runs. -/
theorem lockedAndServing_reads : lockedAndServing.rd (K.LINE_ADC_CLIP 0) = 0 ∧ lockedAndServing.rd (K.LINE_SWATCH_STATUS 0) = 0 := by
  decide

theorem effBistStart_lane0 (s : State) : effBistStart 0x10 s = s.bistStart (.lane 0) := rfl

theorem laneUnderTest_tested : laneUnderTest.laneTested 0 = true := by
  rw [State.laneTested, laneUnderTest, State.write_bist _ _ laneUnderTest_accepted, effBistStart_lane0, State.bistStart_running]
  decide

theorem laneUnderTest_clip : laneUnderTest.rd (K.LINE_ADC_CLIP 0) = 0 := by
  obtain ⟨hclip, hswatch⟩ := lockedAndServing_reads
  rw [laneUnderTest, State.write_rd _ _ laneUnderTest_accepted, effBistStart_lane0, State.rd_bistStart_lane _ _ rfl, State.swatchAbort,
    State.swatchBusy, State.rd_admitted _ _ _ _ _ (by decide), hswatch, if_neg (by decide), State.rd_admitted _ _ _ _ _ (by decide), hclip]

/-- An update of four cc whose every code is clipped. -/
def clippedUpdate : List (List (BitVec 8)) := List.replicate 4 (List.replicate 128 127)

set_option maxRecDepth 4000 in
theorem clippedUpdate_count : (clippedUpdate.flatten.filter clipped).length = 512 := by decide

/-- Refutes O19: the clause on ADAPT_UPDATE is asserted of every lane, but a lane under self-test discards its samples (R505), so that
clipped codes are not counted in `LINE_ADC_CLIP`. -/
theorem not_lineAdaptation : ¬ Obligations.LineAdaptation := by
  unfold Obligations.LineAdaptation
  rintro ⟨-, -, -, hupdate, -⟩
  obtain ⟨t, hrun, hclips, -⟩ := hupdate laneUnderTest 0 clippedUpdate
  have hexec : exec (.adaptUpdate 0 clippedUpdate) laneUnderTest = .next laneUnderTest := by
    rw [exec_adaptUpdate, execAdaptUpdate, State.adaptUpdate_of_laneTested clippedUpdate laneUnderTest_tested]
  obtain rfl : laneUnderTest = t := Host.Outcome.next.inj (hexec.symm.trans hrun)
  rw [CountsUp, laneUnderTest_clip, clippedUpdate_count] at hclips
  exact absurd hclips (by decide)

end Sys2Proof.Machine
end

section
/-!
SUPPORT. A written receive tap at its codeword boundary (R62): the chain takes it through the rule that taps at or above the count of
`LINE_FFE_LEN` are held at zero (R47), and main - 1 in acquisition (R48).
-/

namespace Sys2Proof.Machine

namespace State

/-! ## Held taps -/

/-- A tap at or above the count of `LINE_FFE_LEN` is held at zero, whatever the coefficients give it (R47). -/
theorem getI_holdTaps_of_len_le (s : State) (n : Fin 16) (c : Coefs) {k : Nat} (h : ffeLen (s.rd (K.LINE_FFE_LEN n)) ≤ k) :
    getI (s.holdTaps n c).acc k = 0 := by
  unfold getI holdTaps
  dsimp only
  rw [List.getElem?_mapIdx]
  cases c.acc[k]? with
  | none => rfl
  | some v => simp [h]

/-! ## The receive codeword boundary -/

theorem forAll_lanes {α : Type} (l : List α) (f : α → State → State) (hf : ∀ a s, (f a s).lanes = s.lanes) (s : State) :
    (forAll l f s).lanes = s.lanes := by
  induction l generalizing s with
  | nil => rfl
  | cons a l ih => exact (ih (f a s)).trans (hf a s)

/-- A snapshot moves entries alone (R63). -/
theorem snapshot_lanes (s : State) (n : Fin 16) : (s.snapshot n).lanes = s.lanes := by
  unfold snapshot
  dsimp only
  rw [incWrap_lanes, wrI_lanes, wrI_lanes, forAll_lanes _ _ (fun _ _ => wrI_lanes _ _ _), forAll_lanes _ _ (fun _ _ => wrI_lanes _ _ _)]

@[simp] theorem snapshot_lane (s : State) (n m : Fin 16) : (s.snapshot n).lane m = s.lane m := by simp [lane, snapshot_lanes]

/-- At its boundary a write that waits alone takes effect, and waits no longer (R388). -/
theorem boundaryPass_of_waiting {s : State} (p : Bound → Bool) {r : Fin 18} {e : Nat} {b : Bound} {grp : Bool} {k : Key} {data : List Byte}
    (hscan : s.scanOn = false) (hp : p b = true)
    (hw : s.od.waiting = [{ req := r, epoch := e, bound := b, grp := grp, writes := [(k, data)] }]) :
    s.boundaryPass p = (s.modOd fun o => { o with waiting := [] }).applyNow r k data 0 := by
  have hrest : (s.modOd fun o => { o with waiting := o.waiting.filter fun g => !p g.bound }) = s.modOd fun o => { o with waiting := [] } := by
    simp [modOd, hw, hp]
  rw [boundaryPass, hscan, hrest, hw]
  simp [hp, forAll]

/-- A receive boundary for which neither a reset, nor RESTART, nor a snapshot is due does nothing of its own. -/
theorem rxBoundary_of_nothing_due {s : State} {n : Fin 16} (hcold : (s.lane n).coldApply = false)
    (hrestart : (s.lane n).restartPend = false) (hsnap : (s.lane n).snapPend = false) : s.rxBoundary n = s := by
  simp [rxBoundary, hcold, hrestart, hsnap]

/-- A tap's write takes effect through the held taps, and notes the entry for the flash copy. -/
theorem applyNow_ffeTap (s : State) (r : Fin 18) (n : Fin 16) (i : Nat) (data : List Byte) (x : Nat) :
    s.applyNow r ⟨.line n, 0x12, i⟩ data x = (s.coefWritten n 0x12 i (beNat data)).noteUnsaved ⟨.line n, 0x12, i⟩ := rfl

/-- The coefficients that a write of tap `i` gives, before the held taps (R62): its value stands in the accumulator. -/
def tapWritten (s : State) (n : Fin 16) (i v : Nat) : Coefs :=
  { (s.lane n).coef with acc := (s.lane n).coef.acc.set (i - 1) (sx 16 v * 4096) }

/-- A written tap changes the coefficients and what is noted of the write. -/
theorem lane_coefWritten_ffeTap (s : State) (n : Fin 16) (i v : Nat) : ∃ wrote, (s.coefWritten n 0x12 i v).lane n =
    { s.lane n with coef := s.holdTaps n (s.tapWritten n i v), wroteAt := s.now, wrote := wrote } := by
  unfold coefWritten setCoef
  exact ⟨_, by rw [lane_modLane, lane_modLane]; rfl⟩

/-- A receive boundary at which a tap's write waits puts it in place through the held taps (R47, R48, R62). -/
theorem coef_rxCodeword_of_tap_waiting {s : State} {n : Fin 16} {i e : Nat} {data : List Byte} {r : Fin 18} {grp : Bool}
    (hscan : s.scanOn = false)
    (hw : s.od.waiting = [{ req := r, epoch := e, bound := .rxCw n, grp := grp, writes := [(⟨.line n, 0x12, i⟩, data)] }])
    (hcold : (s.lane n).coldApply = false) (hrestart : (s.lane n).restartPend = false) (hsnap : (s.lane n).snapPend = false) :
    ((s.rxCodeword n).lane n).coef = s.holdTaps n (s.tapWritten n i (beNat data)) := by
  obtain ⟨wrote, hlane⟩ := lane_coefWritten_ffeTap (s.modOd fun o => { o with waiting := [] }) n i (beNat data)
  have hpass := boundaryPass_of_waiting (fun b => b == .rxCw n || b == .anyCw n) hscan (by simp) hw
  rw [applyNow_ffeTap] at hpass
  have hwrites : (s.rxWrites n).lane n =
      { s.lane n with coef := s.holdTaps n (s.tapWritten n i (beNat data)), wroteAt := s.now, wrote := wrote } := by
    unfold rxWrites when_
    dsimp only
    rw [hpass]
    split
    · rw [snapshot_lane, noteUnsaved_lane, hlane]
      rfl
    · rw [noteUnsaved_lane, hlane]
      rfl
  have hbound : (s.rxWrites n).rxBoundary n = s.rxWrites n :=
    rxBoundary_of_nothing_due (by rw [hwrites]; exact hcold) (by rw [hwrites]; exact hrestart) (by rw [hwrites]; exact hsnap)
  unfold rxCodeword
  dsimp only
  rw [hbound, lane_wr, hwrites]

end State

/-! ## A tap above a count that changed while its write waited -/

/-- The device in service: a write of tap 48 of L0 waits for its boundary, and `LINE_FFE_LEN` has then been written to 16 taps. -/
def tapAboveLen : State :=
  match core.run 2 { lockedAndServing with pending :=
    [.registerWrite 16 0x4012 48 [1, 0] 0, .registerWrite 16 0x4010 1 [3] 0] } with
  | .next t => t
  | _ => State.reset

set_option maxRecDepth 4000 in
theorem tapAboveLen_reads :
    tapAboveLen.scanOn = false ∧ ffeLen (tapAboveLen.rd (K.LINE_FFE_LEN 0)) = 16 ∧ (tapAboveLen.lane 0).coef.acc.length = 48 ∧
    (tapAboveLen.lane 0).coldApply = false ∧ (tapAboveLen.lane 0).restartPend = false ∧ (tapAboveLen.lane 0).snapPend = false := by
  decide

set_option maxRecDepth 4000 in
theorem tapAboveLen_waiting :
    tapAboveLen.od.waiting = [{ req := 16, epoch := 0, bound := .rxCw 0, grp := false, writes := [(⟨.line 0, 0x12, 48⟩, [1, 0])] }] := by
  decide

/-- Refutes O57: the clause on a written receive tap asks that the accumulator take the value as written. A tap at or above the count of
`LINE_FFE_LEN` is held at zero (R47), also one whose write was accepted while the count was higher. -/
theorem not_boundaries : ¬ Obligations.Boundaries := by
  unfold Obligations.Boundaries
  rintro ⟨-, -, -, -, -, htap, -⟩
  obtain ⟨hscan, hlen, hacc, hcold, hrestart, hsnap⟩ := tapAboveLen_reads
  obtain ⟨t, hrun, hcoef, -⟩ := htap tapAboveLen 0 [] [] 48 [1, 0] 16 0 false (by decide) (by decide) hscan tapAboveLen_waiting
    hcold hrestart hsnap
  obtain rfl : tapAboveLen.rxCodeword 0 = t := Host.Outcome.next.inj hrun
  have hheld := State.coef_rxCodeword_of_tap_waiting hscan tapAboveLen_waiting hcold hrestart hsnap
  have hzero : getI ((tapAboveLen.rxCodeword 0).lane 0).coef.acc 47 = 0 := by
    rw [hheld]
    exact State.getI_holdTaps_of_len_le _ _ _ (by rw [hlen]; decide)
  have hwritten : getI ((tapAboveLen.rxCodeword 0).lane 0).coef.acc 47 = 1048576 := by
    rw [hcoef, getI, List.getElem?_set_self (by rw [hacc]; decide)]
    decide
  rw [hzero] at hwritten
  exact absurd hwritten (by decide)

end Sys2Proof.Machine
end

section
/-!
SUPPORT. The transmit stage of a line lane: the steps of a drive, a host amplitude or the peaking, the output stage at the end of its
1,024 cc, and the compliance bit.
-/

namespace Sys2Proof.Machine

namespace State

/-! ## Ramps (R37, R92, R151) -/

theorem rampStep_ctle (s : State) (n : Fin 16) :
    s.rampStep n .ctle = s.modLane n fun l => if l.ctleSearch.isSome then l else
      { l with ctleNow := if l.ctleNow < s.rd (K.LINE_CTLE_PEAK n) then l.ctleNow + 1
        else if s.rd (K.LINE_CTLE_PEAK n) < l.ctleNow then l.ctleNow - 1 else l.ctleNow } := rfl

theorem rampStep_swing (s : State) (n : Fin 16) :
    s.rampStep n .swing = s.modLane n fun l =>
      { l with swingNow := if l.swingNow < s.rd (K.LINE_TX_SWING n) then l.swingNow + 1
        else if s.rd (K.LINE_TX_SWING n) < l.swingNow then l.swingNow - 1 else l.swingNow } := rfl

theorem rampStep_ifs (s : State) (n : Fin 16) :
    s.rampStep n .ifs = s.modLane n fun l =>
      { l with ifsNow := if l.ifsNow < s.rd (K.LINE_TX_IFS n) then l.ifsNow + 1
        else if s.rd (K.LINE_TX_IFS n) < l.ifsNow then l.ifsNow - 1 else l.ifsNow } := rfl

/-- Either host amplitude of a lane moves by the same law. -/
theorem rampStep_amp {n : Fin 16} {w : Ramp} {m : Fin 32} (s : State) (h : w = .ampA ∧ m = hostA n ∨ w = .ampB ∧ m = hostB n) :
    s.rampStep n w = s.modHost m fun x =>
      { x with ampNow := if x.ampNow < s.rd (K.HOST_TX_AMP m) then x.ampNow + 1
        else if s.rd (K.HOST_TX_AMP m) < x.ampNow then x.ampNow - 1 else x.ampNow } := by
  obtain ⟨rfl, rfl⟩ | ⟨rfl, rfl⟩ := h <;> rfl

/-- A search under way holds the ramp of the peaking (R38). -/
theorem rampStep_ctle_of_search {s : State} {n : Fin 16} (h : (s.lane n).ctleSearch ≠ none) :
    (s.rampStep n .ctle).lanes = s.lanes := by
  have hsome : (s.lanes.get n).ctleSearch.isSome = true := Option.isSome_iff_ne_none.mpr h
  rw [rampStep_ctle, modLane]
  simp only [hsome, if_true]
  exact Vector.set_getElem_self n.isLt

/-! ## The output stage (R91, R92) -/

/-- A change of the stage brings the injection's count up to it first (R127), and the lane's record is then what the change makes of it. -/
theorem lane_outSet (s : State) (n : Fin 16) (f : LaneS → LaneS) : ∃ inj, (s.outSet n f).lane n = f { s.lane n with inj := inj } := by
  unfold outSet injFollow
  exact ⟨_, by rw [lane_modLane, lane_modLane]; rfl⟩

/-- Of the other lanes and of the entries it moves that count alone. -/
theorem outSet_frame (s : State) (n : Fin 16) (f : LaneS → LaneS) :
    (∀ m, m ≠ n → (s.outSet n f).lane m = s.lane m) ∧ Changes [K.LINE_FEC_INJ_COUNT n] s (s.outSet n f) := by
  unfold outSet injFollow
  refine ⟨fun m hm => ?_, ?_⟩
  · rw [lane_modLane_ne _ _ hm, lane_modLane_ne _ _ hm]
    rfl
  · rw [changes_iff]
    intro k _ hk
    rw [modLane_rd, modLane_rd, rd_addSat, if_neg (by simpa using hk)]

variable {s : State} {n : Fin 16}

/-- The stage is asked to be disabled while it is held off, in SCRAPPED (R452), and without `LINE_TX_OUT_EN`. -/
theorem outWanted_of_held (h : (s.lane n).outOff = true ∨ s.on (K.LINE_TX_OUT_EN n) = false ∨ s.sec.lc = .scrapped) :
    s.outWanted n = .disabled := by
  unfold outWanted
  dsimp only
  rw [if_pos]
  obtain h | h | h := h <;> simp [h]

/-- It is also asked to be disabled between two modes (R92). -/
theorem outWanted_of_mode (hout : (s.lane n).out ≠ .disabled) (h : (s.lane n).outMode ≠ s.rd (K.LINE_TX_OUT_MODE n)) :
    s.outWanted n = .disabled := by
  unfold outWanted
  dsimp only
  split
  · rfl
  · rw [if_pos (by simp [hout, h])]

/-- Enabled in its mode, it is asked to be idle where a DAC calibration or a lane reset holds it, and else to modulate. -/
theorem outWanted_of_enabled (hoff : (s.lane n).outOff = false) (hon : s.on (K.LINE_TX_OUT_EN n) = true) (hlc : s.sec.lc ≠ .scrapped)
    (hmode : (s.lane n).out = .disabled ∨ (s.lane n).outMode = s.rd (K.LINE_TX_OUT_MODE n)) :
    s.outWanted n = if s.bit (K.LINE_TX_FAULT n) 2 || (s.lane n).laneReset then .idle else .modulating := by
  unfold outWanted
  dsimp only
  rw [if_neg (by simp [hoff, hon, hlc]), if_neg (by obtain h | h := hmode <;> simp [h])]

theorem outStep_of_modulating (h : (s.lane n).out = .modulating) : s.outStep n = s := by
  unfold outStep
  dsimp only
  rw [h]

theorem outStep_idle_modulating (h : (s.lane n).out = .idle) (hw : s.outWanted n = .modulating) :
    s.outStep n = s.outSet n fun l => { l with out := .modulating } := by
  unfold outStep
  dsimp only
  rw [h, hw]

theorem outStep_idle_idle (h : (s.lane n).out = .idle) (hw : s.outWanted n = .idle) : s.outStep n = s := by
  unfold outStep
  dsimp only
  rw [h, hw]

theorem outStep_idle_disabled (h : (s.lane n).out = .idle) (hw : s.outWanted n = .disabled) :
    s.outStep n = s.outSet n fun l =>
      { l with out := .disabled, modeStep := !l.outOff && s.on (K.LINE_TX_OUT_EN n) } := by
  unfold outStep
  dsimp only
  rw [h, hw]

theorem outStep_disabled_disabled (h : (s.lane n).out = .disabled) (hw : s.outWanted n = .disabled) : s.outStep n = s := by
  unfold outStep
  dsimp only
  rw [h, hw]

theorem outStep_disabled_wanted (h : (s.lane n).out = .disabled) (hw : s.outWanted n ≠ .disabled) :
    s.outStep n = s.outSet n fun l =>
      { l with out := .idle, modeStep := false, outMode := s.rd (K.LINE_TX_OUT_MODE n), queue := 2 } := by
  unfold outStep
  dsimp only
  rw [h]
  cases e : s.outWanted n with
  | disabled => exact absurd e hw
  | idle => rfl
  | modulating => rfl

/-! ## Compliance (R93) -/

/-- A bit of `LINE_TX_FAULT` is written and no other. -/
theorem bit_wrBit_txFault (s : State) (n : Fin 16) (i : Nat) (b : Bool) {j : Nat} (hj : j < 8) :
    (s.wrBit (K.LINE_TX_FAULT n) i b).bit (K.LINE_TX_FAULT n) j = if j = i then b else s.bit (K.LINE_TX_FAULT n) j := by
  have hbits : bitsOf (K.LINE_TX_FAULT n) = 8 := rfl
  rw [bit_wrBit, if_pos rfl, hbits, decide_eq_true hj, Bool.true_and]

end State

open State in
/-- Settles O21: a ramp is the change of one record; the end of the stage's 1,024 cc goes by what the stage is asked to be; the compliance
bit alone is written. -/
theorem lineTransmitStage : Obligations.LineTransmitStage := by
  unfold Obligations.LineTransmitStage
  refine ⟨?_, ?_, ?_, ?_, ?_, ?_, ?_, ?_, ?_, ?_, ?_, ?_, ?_⟩
  · intro s n hsearch
    refine ⟨_, rfl, ?_⟩
    rw [rampStep_ctle]
    exact ⟨by rw [lane_modLane]; simp [hsearch], modLane_frame s n _⟩
  · intro s n hsearch
    exact ⟨_, rfl, rampStep_ctle_of_search hsearch, fun x => rfl⟩
  · intro s n
    refine ⟨_, rfl, ?_⟩
    rw [rampStep_swing]
    exact ⟨by rw [lane_modLane], modLane_frame s n _⟩
  · intro s n
    refine ⟨_, rfl, ?_⟩
    rw [rampStep_ifs]
    exact ⟨by rw [lane_modLane], modLane_frame s n _⟩
  · intro s n w m hw
    refine ⟨_, rfl, ?_⟩
    rw [rampStep_amp s hw]
    exact ⟨by rw [host_modHost], modHost_frame s m _⟩
  · intro s n hout hoff hon hmode hcal hreset hlc
    have hw : s.outWanted n = .modulating := by rw [outWanted_of_enabled hoff hon hlc (.inr hmode), hcal, hreset]; rfl
    refine ⟨_, rfl, ?_⟩
    rw [outStep_idle_modulating hout hw]
    obtain ⟨inj, hlane⟩ := lane_outSet s n fun l => { l with out := .modulating }
    exact ⟨by rw [hlane], outSet_frame s n _⟩
  · intro s n hout hoff hon hmode hheld hlc
    have hw : s.outWanted n = .idle := by
      rw [outWanted_of_enabled hoff hon hlc (.inr hmode), if_pos (by simpa using hheld)]
    exact ⟨_, rfl, outStep_idle_idle hout hw⟩
  · intro s n hout hasked
    have hw : s.outWanted n = .disabled := by
      obtain hoff | hon | hmode | hlc := hasked
      · exact outWanted_of_held (.inl hoff)
      · exact outWanted_of_held (.inr (.inl hon))
      · exact outWanted_of_mode (by simp [hout]) hmode
      · exact outWanted_of_held (.inr (.inr hlc))
    refine ⟨_, rfl, ?_⟩
    rw [outStep_idle_disabled hout hw]
    obtain ⟨inj, hlane⟩ := lane_outSet s n fun l =>
      { l with out := .disabled, modeStep := !l.outOff && s.on (K.LINE_TX_OUT_EN n) }
    exact ⟨by rw [hlane], outSet_frame s n _⟩
  · intro s n hout hoff hon hlc
    have hw : s.outWanted n ≠ .disabled := by
      rw [outWanted_of_enabled hoff hon hlc (.inl hout)]
      split <;> simp
    refine ⟨_, rfl, ?_⟩
    rw [outStep_disabled_wanted hout hw]
    obtain ⟨inj, hlane⟩ := lane_outSet s n fun l =>
      { l with out := .idle, modeStep := false, outMode := s.rd (K.LINE_TX_OUT_MODE n), queue := 2 }
    exact ⟨by rw [hlane], by rw [hlane], outSet_frame s n _⟩
  · intro s n hcase
    obtain hout | ⟨hout, hheld⟩ := hcase
    · exact ⟨_, rfl, outStep_of_modulating hout⟩
    · exact ⟨_, rfl, outStep_disabled_disabled hout (outWanted_of_held hheld)⟩
  · intro s n hpower
    have hexec : exec (.complianceSet n) s = .next ((s.wrBit (K.LINE_TX_FAULT n) 1 true).raise (Src.TX_FAULT n)) := by
      rw [exec_complianceSet, execComplianceSet, hpower, if_neg Bool.false_ne_true]
    refine ⟨_, hexec, ?_, ?_, raised_raise _ _ (show 4 < 16 by decide), raise_lanes _ _, (changes_wr s _ _).trans (changes_raise _ _ _)⟩
    · rw [bit_of_rd (rd_raise_area _ _ _ (by simp)), bit_wrBit_txFault s n 1 true (by decide), if_pos rfl]
    · intro b hb hne
      rw [bit_of_rd (rd_raise_area _ _ _ (by simp)), bit_wrBit_txFault s n 1 true hb, if_neg hne]
  · intro s n hpower
    exact ⟨⟨_, rfl, if_pos hpower⟩, _, rfl, if_pos hpower⟩
  · intro s n hpower
    have hexec : exec (.complianceClear n) s = .next (s.wrBit (K.LINE_TX_FAULT n) 1 false) := by
      rw [exec_complianceClear, execComplianceClear, hpower, if_neg Bool.false_ne_true]
    refine ⟨_, hexec, ?_, ?_, rfl, changes_wr s _ _⟩
    · rw [bit_wrBit_txFault s n 1 false (by decide), if_pos rfl]
    · intro b hb hne
      rw [bit_wrBit_txFault s n 1 false hb, if_neg hne]

end Sys2Proof.Machine
end

section
/-!
SUPPORT. The capture of a line receiver (R67 to R69): arming, the trigger, completion. The running totals of its quality monitor (R65).
-/

namespace Sys2Proof.Machine

/-- A time stamp fits its entry (R276). -/
theorem time96_lt (c : Nat) : time96 c < 2 ^ 96 := by
  have hns : c % secUnits / 2 ^ 40 < 1000000000 :=
    Nat.div_lt_of_lt_mul ((Nat.mod_lt c (by decide)).trans_eq (Nat.mul_comm _ _))
  have hfrac : c % 2 ^ 40 / 2 ^ 24 < 2 ^ 16 := Nat.div_lt_of_lt_mul (Nat.mod_lt c (by decide))
  have hsec : c / secUnits % 2 ^ 48 < 2 ^ 48 := Nat.mod_lt _ (by decide)
  unfold time96
  omega

namespace State

/-- An armed capture: the earlier one discarded, its entries at their reset values. -/
def swatchArmed (s : State) (n : Fin 16) : State :=
  ((s.clrAll [K.LINE_SWATCH_TRIG_TIME n, K.LINE_SWATCH_SUBST_INDEX n, K.LINE_SWATCH_SUBST_COUNT n, K.LINE_SWATCH_DATA n]).wr
    (K.LINE_SWATCH_STATUS n) 1).modLane n fun l => { l with swatch := {} }

theorem rd_swatchArmed (s : State) (n : Fin 16) (k : Key) :
    (s.swatchArmed n).rd k = if k = K.LINE_SWATCH_STATUS n then 1
      else if k ∈ [K.LINE_SWATCH_TRIG_TIME n, K.LINE_SWATCH_SUBST_INDEX n, K.LINE_SWATCH_SUBST_COUNT n, K.LINE_SWATCH_DATA n] then resetOf k
      else s.rd k := by
  rw [swatchArmed, modLane_rd, rd_wr, rd_clrAll]
  rfl

theorem rd_swatchAccept (s : State) (n : Fin 16) (k : Key) :
    (s.swatchAccept n).rd k = if k = K.LINE_SWATCH_TRIG_TIME n then s.timeNow else if k = K.LINE_SWATCH_STATUS n then 2 else s.rd k := by
  have hbits : bitsOf (K.LINE_SWATCH_TRIG_TIME n) = 96 := rfl
  have htime : s.timeNow % 2 ^ 96 = s.timeNow := Nat.mod_eq_of_lt (time96_lt _)
  rw [swatchAccept, rd_wr, rd_wr, hbits, htime]
  rfl

theorem changes_swatchAccept (s : State) (n : Fin 16) :
    Changes [K.LINE_SWATCH_STATUS n, K.LINE_SWATCH_TRIG_TIME n] s (s.swatchAccept n) := by
  rw [changes_iff]
  intro k _ hk
  simp only [List.mem_cons, List.not_mem_nil, or_false, not_or] at hk
  obtain ⟨hstatus, htime⟩ := hk
  rw [rd_swatchAccept, if_neg htime, if_neg hstatus]

/-- An event of the selected source triggers an armed capture once the part before the trigger is stored (R67). -/
theorem swatchTrigger_taken {s : State} {n : Fin 16} {src : Nat} (harmed : s.rd (K.LINE_SWATCH_STATUS n) = 1)
    (hsrc : s.rd (K.LINE_SWATCH_TRIGGER n) = src)
    (hpre : src = 0 ∨ s.rd (K.LINE_SWATCH_PRE n) * 4096 ≤ (s.lane n).swatch.stored) :
    s.swatchTrigger n src = s.swatchAccept n := by
  have hstored : s.swatchPre n * 4096 ≤ (s.lane n).swatch.stored := by
    unfold swatchPre
    split
    · omega
    · exact hpre.resolve_left (by omega)
  rw [swatchTrigger, if_pos (by simp [harmed, hsrc, hstored])]

/-- Any other event leaves the capture alone. -/
theorem swatchTrigger_ignored {s : State} {n : Fin 16} {src : Nat}
    (h : s.rd (K.LINE_SWATCH_STATUS n) ≠ 1 ∨ s.rd (K.LINE_SWATCH_TRIGGER n) ≠ src ∨
      (src ≠ 0 ∧ (s.lane n).swatch.stored < s.rd (K.LINE_SWATCH_PRE n) * 4096)) : s.swatchTrigger n src = s := by
  rw [swatchTrigger, if_neg]
  simp only [Bool.and_eq_true, decide_eq_true_eq]
  rintro ⟨⟨harmed, hsrc⟩, hstored⟩
  obtain h | h | ⟨hne, hless⟩ := h
  · exact h harmed
  · exact h hsrc
  · rw [swatchPre, if_neg (by omega)] at hstored
    omega

theorem swatchArm_eq (s : State) (n : Fin 16) : s.swatchArm n = (s.swatchArmed n).swatchTrigger n 0 := rfl

/-- Source 0 triggers at arming (R69). -/
theorem swatchArm_immediate {s : State} {n : Fin 16} (h : s.rd (K.LINE_SWATCH_TRIGGER n) = 0) :
    s.swatchArm n = (s.swatchArmed n).swatchAccept n := by
  rw [swatchArm_eq]
  refine swatchTrigger_taken ?_ ?_ (.inl rfl)
  · rw [rd_swatchArmed, if_pos rfl]
  · rw [rd_swatchArmed, if_neg (by simp), if_neg (by simp), h]

/-- Any other source leaves it armed. -/
theorem swatchArm_waiting {s : State} {n : Fin 16} (h : s.rd (K.LINE_SWATCH_TRIGGER n) ≠ 0) : s.swatchArm n = s.swatchArmed n := by
  rw [swatchArm_eq]
  refine swatchTrigger_ignored (.inr (.inl ?_))
  rw [rd_swatchArmed, if_neg (by simp), if_neg (by simp)]
  exact h

/-- What every entry reads as after arming. -/
theorem rd_swatchArm (s : State) (n : Fin 16) (k : Key) :
    (s.swatchArm n).rd k =
      if k = K.LINE_SWATCH_STATUS n then (if s.rd (K.LINE_SWATCH_TRIGGER n) = 0 then 2 else 1)
      else if k = K.LINE_SWATCH_TRIG_TIME n then (if s.rd (K.LINE_SWATCH_TRIGGER n) = 0 then s.timeNow else 0)
      else if k ∈ [K.LINE_SWATCH_SUBST_INDEX n, K.LINE_SWATCH_SUBST_COUNT n, K.LINE_SWATCH_DATA n] then resetOf k else s.rd k := by
  by_cases htrig : s.rd (K.LINE_SWATCH_TRIGGER n) = 0
  · rw [swatchArm_immediate htrig, rd_swatchAccept, rd_swatchArmed, if_pos htrig, if_pos htrig]
    by_cases hstatus : k = K.LINE_SWATCH_STATUS n
    · simp [hstatus]
    · by_cases htime : k = K.LINE_SWATCH_TRIG_TIME n
      · simp [htime]
        rfl
      · simp [hstatus, htime]
  · rw [swatchArm_waiting htrig, rd_swatchArmed, if_neg htrig, if_neg htrig]
    by_cases htime : k = K.LINE_SWATCH_TRIG_TIME n
    · simp [htime]
      rfl
    · simp [htime]

theorem lanes_swatchArm (s : State) (n : Fin 16) : (s.swatchArm n).lanes = (s.modLane n fun l => { l with swatch := {} }).lanes := by
  unfold swatchArm swatchTrigger
  dsimp only
  split <;> rfl

theorem exec_lineSwatchArm_one (s : State) (r : Fin 18) (n : Fin 16) : exec (.lineSwatchArm r n 1) s =
    .next (s.write r (K.LINE_SWATCH_ARM n) (be 1 1) fun z => z.swatchArm n) := by
  have heff : effSwatchArm n (1 : BitVec 8).toNat = fun z => z.swatchArm n := funext fun _ => if_pos rfl
  have hone : (1 : BitVec 8).toNat = 1 := rfl
  rw [exec_lineSwatchArm, execLineSwatchArm, heff, hone]

/-- What every entry of an area reads as after an accepted write of 1 to `LINE_SWATCH_ARM`. -/
theorem rd_write_swatchArm {s : State} {r : Fin 18} {n : Fin 16} (h : s.accepts r (K.LINE_SWATCH_ARM n) (be 1 1) = true) {k : Key}
    (ha : k.area ≠ none) :
    (s.write r (K.LINE_SWATCH_ARM n) (be 1 1) fun z => z.swatchArm n).rd k =
      if k = K.LINE_SWATCH_STATUS n then (if s.rd (K.LINE_SWATCH_TRIGGER n) = 0 then 2 else 1)
      else if k = K.LINE_SWATCH_TRIG_TIME n then (if s.rd (K.LINE_SWATCH_TRIGGER n) = 0 then s.timeNow else 0)
      else if k ∈ [K.LINE_SWATCH_SUBST_INDEX n, K.LINE_SWATCH_SUBST_COUNT n, K.LINE_SWATCH_DATA n] then resetOf k else s.rd k := by
  rw [write_rd _ _ h, rd_swatchArm, rd_admitted _ _ _ _ _ (by simp), rd_admitted _ _ _ _ _ ha, timeNow, admitted_time]
  rfl

theorem changes_write_swatchArm {s : State} {r : Fin 18} {n : Fin 16} (h : s.accepts r (K.LINE_SWATCH_ARM n) (be 1 1) = true) :
    Changes [K.LINE_SWATCH_DATA n, K.LINE_SWATCH_SUBST_COUNT n, K.LINE_SWATCH_STATUS n, K.LINE_SWATCH_TRIG_TIME n,
      K.LINE_SWATCH_SUBST_INDEX n] s (s.write r (K.LINE_SWATCH_ARM n) (be 1 1) fun z => z.swatchArm n) := by
  rw [changes_iff]
  intro k ha hk
  simp only [List.mem_cons, List.not_mem_nil, or_false, not_or] at hk
  obtain ⟨hdata, hcount, hstatus, htime, hindex⟩ := hk
  rw [rd_write_swatchArm h ha, if_neg hstatus, if_neg htime, if_neg (by simp [hdata, hcount, hindex])]

theorem lane_write_swatchArm {s : State} {r : Fin 18} {n : Fin 16} (h : s.accepts r (K.LINE_SWATCH_ARM n) (be 1 1) = true) :
    ((s.write r (K.LINE_SWATCH_ARM n) (be 1 1) fun z => z.swatchArm n).lane n).swatch = {} ∧
    ∀ m, m ≠ n → (s.write r (K.LINE_SWATCH_ARM n) (be 1 1) fun z => z.swatchArm n).lane m = s.lane m := by
  have hlane : ∀ (z : State) (m : Fin 16), (z.swatchArm n).lane m = (z.modLane n fun l => { l with swatch := {} }).lane m := fun z m =>
    congrArg (fun v : Vector LaneS 16 => v.get m) (lanes_swatchArm z n)
  refine ⟨?_, fun m hm => ?_⟩
  · rw [write_lane _ _ h, hlane, lane_modLane]
  · rw [write_lane _ _ h, hlane, lane_modLane_ne _ _ hm, admitted_lane]

/-- A capture whose samples after the trigger are stored is complete, oldest sample first (R67). -/
theorem swatchComplete_done {s : State} {n : Fin 16} (hstatus : s.rd (K.LINE_SWATCH_STATUS n) = 2)
    (hpost : s.swatchPost n ≤ (s.lane n).swatch.post) :
    s.swatchComplete n = (((s.wr (K.LINE_SWATCH_DATA n) (beNat (s.lane n).swatch.ring.reverse)).wr (K.LINE_SWATCH_STATUS n) 3).wr
      (K.LINE_SWATCH_SUBST_INDEX n) (swatchIndex (s.lane n).swatch)).raise (Src.SWATCH_DONE n) := by
  unfold swatchComplete
  exact if_pos (by simp [hstatus, hpost])

theorem swatchComplete_early {s : State} {n : Fin 16}
    (h : s.rd (K.LINE_SWATCH_STATUS n) ≠ 2 ∨ (s.lane n).swatch.post < s.swatchPost n) : s.swatchComplete n = s := by
  unfold swatchComplete
  refine if_neg ?_
  simp only [Bool.and_eq_true, decide_eq_true_eq]
  rintro ⟨hstatus, hpost⟩
  obtain h | h := h
  · exact h hstatus
  · omega

/-- What every entry of an area reads as after a capture completes. -/
theorem rd_swatchComplete {s : State} {n : Fin 16} (hstatus : s.rd (K.LINE_SWATCH_STATUS n) = 2)
    (hpost : s.swatchPost n ≤ (s.lane n).swatch.post) {k : Key} (ha : k.area ≠ none) :
    (s.swatchComplete n).rd k =
      if k = K.LINE_SWATCH_SUBST_INDEX n then swatchIndex (s.lane n).swatch % 2 ^ bitsOf (K.LINE_SWATCH_SUBST_INDEX n)
      else if k = K.LINE_SWATCH_STATUS n then 3
      else if k = K.LINE_SWATCH_DATA n then beNat (s.lane n).swatch.ring.reverse % 2 ^ bitsOf (K.LINE_SWATCH_DATA n) else s.rd k := by
  have hbits : 3 % 2 ^ bitsOf (K.LINE_SWATCH_STATUS n) = 3 := rfl
  rw [swatchComplete_done hstatus hpost, rd_raise_area _ _ _ ha, rd_wr, rd_wr, rd_wr, hbits]

theorem changes_swatchComplete {s : State} {n : Fin 16} (hstatus : s.rd (K.LINE_SWATCH_STATUS n) = 2)
    (hpost : s.swatchPost n ≤ (s.lane n).swatch.post) :
    Changes [K.LINE_SWATCH_STATUS n, K.LINE_SWATCH_SUBST_INDEX n, K.LINE_SWATCH_DATA n] s (s.swatchComplete n) := by
  rw [changes_iff]
  intro k ha hk
  simp only [List.mem_cons, List.not_mem_nil, or_false, not_or] at hk
  obtain ⟨hne, hindex, hdata⟩ := hk
  rw [rd_swatchComplete hstatus hpost ha, if_neg hindex, if_neg hne, if_neg hdata]

/-- A capture in which no substitution fell has no index to show (R67). -/
theorem swatchIndex_of_none {w : SwatchS} (h : w.substs = []) : swatchIndex w = 0xFFFFFFFF := by
  unfold swatchIndex
  rw [h]
  rfl

/-! ## The running totals of the quality monitor (R65) -/

theorem exec_lineLqmClear_one (s : State) (r : Fin 18) (n : Fin 16) : exec (.lineLqmClear r n 1) s =
    .next (s.write r (K.LINE_LQM_CLEAR n) (be 1 1) fun z => z.lqmZero n) := by
  have heff : effLqmClear n (1 : BitVec 8).toNat = fun z => z.lqmZero n := funext fun _ => if_pos rfl
  have hone : (1 : BitVec 8).toNat = 1 := rfl
  rw [exec_lineLqmClear, execLineLqmClear, heff, hone]

theorem lane_lqmZero (s : State) (n : Fin 16) : (s.lqmZero n).lane n =
    { s.lane n with levels := Vector.replicate 4 {}, hist := 0, lqmEpochs := 0 } := lane_modLane _ _ _

theorem lane_lqmZero_ne (s : State) {n m : Fin 16} (h : m ≠ n) : (s.lqmZero n).lane m = s.lane m := lane_modLane_ne _ _ h

theorem rd_lqmZero (s : State) (n : Fin 16) (k : Key) : (s.lqmZero n).rd k = s.rd k := rfl

end State

end Sys2Proof.Machine
end

section
/-!
SUPPORT. The end of an acquisition and the search of the CTLE peaking (R38, R58).
-/

namespace Sys2Proof.Machine

namespace State

variable {s : State} {n : Fin 16} {steps : Nat}

/-- Above 0.35 the peaking goes up. -/
theorem ctleSearchRead_up (hsteps : steps < 28) (hread : 7 * 1024 < 20 * (s.firstPost n).natAbs) (hpeak : (s.lane n).ctleNow < 28) :
    s.ctleSearchRead n steps =
      s.modLane n fun l => { l with ctleNow := (s.lane n).ctleNow + 1, ctleSearch := some (steps + 1) } := by
  unfold ctleSearchRead
  exact if_pos (by simp [hsteps, hread, hpeak])

/-- Below 0.15 it goes down. -/
theorem ctleSearchRead_down (hsteps : steps < 28) (hread : 20 * (s.firstPost n).natAbs < 3 * 1024) (hpeak : 0 < (s.lane n).ctleNow) :
    s.ctleSearchRead n steps =
      s.modLane n fun l => { l with ctleNow := (s.lane n).ctleNow - 1, ctleSearch := some (steps + 1) } := by
  unfold ctleSearchRead
  dsimp only
  rw [if_neg (by simp; omega), if_pos (by simp [hsteps, hread, hpeak])]

/-- After 28 steps, within the window or at the range's end the search ends. -/
theorem ctleSearchRead_end (h : 28 ≤ steps ∨ (3 * 1024 ≤ 20 * (s.firstPost n).natAbs ∧ 20 * (s.firstPost n).natAbs ≤ 7 * 1024) ∨
      (7 * 1024 < 20 * (s.firstPost n).natAbs ∧ 28 ≤ (s.lane n).ctleNow) ∨
      (20 * (s.firstPost n).natAbs < 3 * 1024 ∧ (s.lane n).ctleNow = 0)) :
    s.ctleSearchRead n steps = s.ctleSearchEnd n := by
  unfold ctleSearchRead
  dsimp only
  rw [if_neg (by simp; omega), if_neg (by simp; omega)]

/-- The search's end: the peaking in place is shown, tracking follows. -/
theorem ctleSearchEnd_spec (s : State) (n : Fin 16) :
    (s.ctleSearchEnd n).rd (K.LINE_CTLE_PEAK n) = (s.lane n).ctleNow % 2 ^ bitsOf (K.LINE_CTLE_PEAK n) ∧
    ((s.ctleSearchEnd n).lane n).ctleSearch = none ∧ ((s.ctleSearchEnd n).lane n).adapt = 2 ∧
    Changes [K.LINE_CTLE_PEAK n] s (s.ctleSearchEnd n) := by
  have hrd : ∀ k, (s.ctleSearchEnd n).rd k = (s.wr (K.LINE_CTLE_PEAK n) (s.lane n).ctleNow).rd k := fun k => by
    rw [ctleSearchEnd, modLane_rd, rd_noteUnsaved]
  have hlane : (s.ctleSearchEnd n).lane n = { s.lane n with ctleSearch := none, adapt := 2 } := by
    rw [ctleSearchEnd, lane_modLane, noteUnsaved_lane, lane_wr]
  refine ⟨by rw [hrd, rd_wr_self], by rw [hlane], by rw [hlane], ?_⟩
  exact (changes_wr s _ _).trans (changes_of_rd _ hrd)

/-- An acquisition that ends with no search under way starts one where the device chooses the peaking. -/
theorem acqPeriodEnd_search (hacq : (s.lane n).adapt = 1) (hnone : (s.lane n).ctleSearch = none)
    (hon : s.on (K.LINE_CTLE_ADAPT n) = true) : s.acqPeriodEnd n = s.ctleSearchRead n 0 := by
  unfold acqPeriodEnd
  rw [if_pos (by simp [hacq, hnone]), if_pos hon]

theorem acqPeriodEnd_tracking (hacq : (s.lane n).adapt = 1) (hnone : (s.lane n).ctleSearch = none)
    (hoff : s.on (K.LINE_CTLE_ADAPT n) = false) : s.acqPeriodEnd n = s.modLane n fun l => { l with adapt := 2 } := by
  unfold acqPeriodEnd
  rw [if_pos (by simp [hacq, hnone]), if_neg (by simp [hoff])]

theorem acqPeriodEnd_of_other (h : (s.lane n).adapt ≠ 1 ∨ (s.lane n).ctleSearch ≠ none) : s.acqPeriodEnd n = s := by
  unfold acqPeriodEnd
  refine if_neg ?_
  simp only [Bool.and_eq_true, decide_eq_true_eq, Option.isNone_iff_eq_none]
  rintro ⟨hacq, hnone⟩
  exact h.elim (fun h => h hacq) fun h => h hnone

theorem ctleSearchStep_read {k : Nat} (hk : (s.lane n).ctleSearch = some k) (hon : s.on (K.LINE_CTLE_ADAPT n) = true) :
    s.ctleSearchStep n = s.ctleSearchRead n k := by
  unfold ctleSearchStep
  rw [hk]
  exact if_pos hon

/-- A search that `LINE_CTLE_ADAPT` of 0 cuts, or that has made its 28 steps, ends at the peaking in place. -/
theorem ctleSearchStep_end {k : Nat} (hk : (s.lane n).ctleSearch = some k) (h : s.on (K.LINE_CTLE_ADAPT n) = false ∨ 28 ≤ k) :
    s.ctleSearchStep n = s.ctleSearchEnd n := by
  cases hon : s.on (K.LINE_CTLE_ADAPT n) with
  | true => rw [ctleSearchStep_read hk hon, ctleSearchRead_end (.inl (h.resolve_left (by simp [hon])))]
  | false =>
    unfold ctleSearchStep
    rw [hk]
    exact if_neg (by simp [hon])

theorem ctleSearchStep_of_none (h : (s.lane n).ctleSearch = none) : s.ctleSearchStep n = s := by
  unfold ctleSearchStep
  rw [h]

end State

end Sys2Proof.Machine
end

section
/-!
SUPPORT. Loss of signal and of codeword lock (R40, R46, R120): what falls with them in `LINE_LOCK_STATUS`, and what stands.
-/

namespace Sys2Proof.Machine

namespace State

variable {s : State} {n : Fin 16}

/-! ## The lock status (Table 4-5) -/

/-- A bit of `LINE_LOCK_STATUS` is written and no other. -/
theorem bit_wrBit_lockStatus (s : State) (n : Fin 16) (i : Nat) (b : Bool) {j : Nat} (hj : j < 16) :
    (s.wrBit (K.LINE_LOCK_STATUS n) i b).bit (K.LINE_LOCK_STATUS n) j = if j = i then b else s.bit (K.LINE_LOCK_STATUS n) j := by
  have hbits : bitsOf (K.LINE_LOCK_STATUS n) = 16 := rfl
  rw [bit_wrBit, if_pos rfl, hbits, decide_eq_true hj, Bool.true_and]

theorem bit_wrField_lockStatus (s : State) (n : Fin 16) (lo w x : Nat) {j : Nat} (hj : j < 16) :
    (s.wrField (K.LINE_LOCK_STATUS n) (lo + w) lo x).bit (K.LINE_LOCK_STATUS n) j =
      if lo ≤ j ∧ j ≤ lo + w then x.testBit (j - lo) else s.bit (K.LINE_LOCK_STATUS n) j := by
  have hbits : bitsOf (K.LINE_LOCK_STATUS n) = 16 := rfl
  rw [bit_wrField, hbits, decide_eq_true hj, Bool.true_and]

/-- The codeword machine's state is two bits of the status. -/
theorem cwState_eq_one (h10 : s.bit (K.LINE_LOCK_STATUS n) 10 = true) (h11 : s.bit (K.LINE_LOCK_STATUS n) 11 = false) : s.cwState n = 1 := by
  have h : field (s.rd (K.LINE_LOCK_STATUS n)) 11 10 = field (2 ^ 10) 11 10 := by
    refine field_congr fun j hlo hhi => ?_
    obtain rfl | rfl : j = 10 ∨ j = 11 := by omega
    · exact h10.trans (by decide)
    · exact h11.trans (by decide)
  exact h.trans (by decide)

/-- The codeword machine returns to HUNT, and codeword lock falls. -/
theorem bit_setCw_hunt (s : State) (n : Fin 16) :
    (s.setCw n 1).bit (K.LINE_LOCK_STATUS n) 10 = true ∧ (s.setCw n 1).bit (K.LINE_LOCK_STATUS n) 11 = false ∧
    (s.setCw n 1).bit (K.LINE_LOCK_STATUS n) 2 = false := by
  have hbit : ∀ j, j < 16 → (s.setCw n 1).bit (K.LINE_LOCK_STATUS n) j =
      if j = 2 then false else if 10 ≤ j ∧ j ≤ 11 then (1 : Nat).testBit (j - 10) else s.bit (K.LINE_LOCK_STATUS n) j := fun j hj => by
    rw [setCw, bit_wrBit_lockStatus _ _ _ _ hj, bit_wrField_lockStatus s n 10 1 1 hj]
    rfl
  exact ⟨by rw [hbit 10 (by decide)]; rfl, by rw [hbit 11 (by decide)]; rfl, by rw [hbit 2 (by decide)]; rfl⟩

/-- The epoch machine returns to SEARCH, and epoch lock falls. -/
theorem bit_setEp_search (s : State) (n : Fin 16) {j : Nat} (hj : j < 16) (hep : ¬(8 ≤ j ∧ j ≤ 8 + 1)) :
    (s.setEp n 0).bit (K.LINE_LOCK_STATUS n) j = if j = 5 then false else s.bit (K.LINE_LOCK_STATUS n) j := by
  have hrd : (s.setEp n 0).rd (K.LINE_LOCK_STATUS n) =
      ((s.wrField (K.LINE_LOCK_STATUS n) (8 + 1) 8 0).wrBit (K.LINE_LOCK_STATUS n) 5 false).rd (K.LINE_LOCK_STATUS n) := modLane_rd _ _ _ _
  rw [bit_of_rd hrd, bit_wrBit_lockStatus _ _ _ _ hj, bit_wrField_lockStatus _ _ _ _ _ hj, if_neg hep]

/-- The marker locks are bits 3 and 4. -/
theorem bit_showMarkers (s : State) (n : Fin 16) {j : Nat} (hj : j < 16) (h3 : j ≠ 3) (h4 : j ≠ 4) :
    (s.showMarkers n).bit (K.LINE_LOCK_STATUS n) j = s.bit (K.LINE_LOCK_STATUS n) j := by
  have hA : K.LINE_LOCK_STATUS n ≠ K.LAT_RX_MARKER_A n := by simp
  have hB : K.LINE_LOCK_STATUS n ≠ K.LAT_RX_MARKER_B n := by simp
  rw [showMarkers, bit_wrBit, if_neg hB, bit_wrBit, if_neg hA, bit_wrBit_lockStatus _ _ _ _ hj, if_neg h4,
    bit_wrBit_lockStatus _ _ _ _ hj, if_neg h3]

/-- The marker and epoch machines off: the status keeps its other bits. -/
theorem bit_markersOff (s : State) (n : Fin 16) {j : Nat} (hj : j < 16) (h3 : j ≠ 3) (h4 : j ≠ 4) (hep : ¬(8 ≤ j ∧ j ≤ 8 + 1)) :
    (s.markersOff n).bit (K.LINE_LOCK_STATUS n) j = if j = 5 then false else s.bit (K.LINE_LOCK_STATUS n) j := by
  rw [markersOff, bit_showMarkers _ _ hj h3 h4, bit_setEp_search _ _ hj hep]
  rfl

/-- The machines' other writes are those of the markers' positions. -/
theorem rd_markersOff (s : State) (n : Fin 16) {k : Key} (hlock : k ≠ K.LINE_LOCK_STATUS n) (hA : k ≠ K.LAT_RX_MARKER_A n)
    (hB : k ≠ K.LAT_RX_MARKER_B n) : (s.markersOff n).rd k = s.rd k := by
  rw [markersOff, showMarkers, rd_wrBit_ne _ _ _ hB, rd_wrBit_ne _ _ _ hA, rd_wrBit_ne _ _ _ hlock, rd_wrBit_ne _ _ _ hlock, setEp, modLane_rd,
    rd_wrBit_ne _ _ _ hlock, rd_wrField, if_neg hlock, modLane_rd]

/-! ## Frame lock follows its parts (R119, R122) -/

theorem rd_rclkoLaneLost (s : State) (n : Fin 16) (k : Key) : (s.rclkoLaneLost n).rd k = s.rd k := by
  unfold rclkoLaneLost
  have hstep : ∀ (l : List (Fin 2)) (z : State),
      (forAll l (fun i s => if s.rclkoLane i == n.val then s.squelch i true else s) z).rd k = z.rd k := by
    intro l
    induction l with
    | nil => exact fun z => rfl
    | cons i l ih =>
      intro z
      refine (ih _).trans ?_
      dsimp only
      split <;> rfl
  exact hstep _ s

theorem rd_outageStart (s : State) (c : OutageCause) (k : Key) : (s.outageStart c).rd k = s.rd k := by
  unfold outageStart
  split <;> rfl

theorem followFrame_of_same {lineLoss : Bool} (h : s.frameLock n = s.frameNow n) : s.followFrame n lineLoss = s := by
  unfold followFrame
  exact if_pos (by simp [h])

/-- A change of frame lock writes its bit and its event, and a loss on the line's account its count. -/
theorem rd_followFrame_of_change {lineLoss : Bool} (h : s.frameLock n ≠ s.frameNow n) {k : Key} (hk : k ≠ K.LINE_FRAME_LOSS n) :
    (s.followFrame n lineLoss).rd k =
      ((s.followFreeze n fun z => z.wrBit (K.LINE_LOCK_STATUS n) 1 (s.frameNow n)).raise (Src.FRAME_LOCK_CHG n)).rd k := by
  have hcount : ∀ z : State, (if lineLoss then z.incSat (K.LINE_FRAME_LOSS n) else z).rd k = z.rd k := fun z => by
    cases lineLoss
    · rfl
    · exact (rd_incSat _ _ _).trans (if_neg hk)
  have hout : ∀ (b : Bool) (z : State), (if b then z else z.outageStart .line).rd k = z.rd k := fun b z => by
    cases b
    · exact rd_outageStart _ _ _
    · rfl
  unfold followFrame
  dsimp only
  rw [if_neg (by simpa using h)]
  split
  · rfl
  · rw [hout, hcount, rd_rclkoLaneLost, modLane_rd]

/-- Every other entry of the lanes stands. -/
theorem rd_followFrame (s : State) (n : Fin 16) (lineLoss : Bool) {k : Key} (ha : k.area ≠ none) (hlock : k ≠ K.LINE_LOCK_STATUS n)
    (hloss : k ≠ K.LINE_FRAME_LOSS n) : (s.followFrame n lineLoss).rd k = s.rd k := by
  by_cases h : s.frameLock n = s.frameNow n
  · rw [followFrame_of_same h]
  · rw [rd_followFrame_of_change h hloss, rd_raise_area _ _ _ ha, rd_followFreeze, rd_wrBit_ne _ _ _ hlock]

/-- Frame lock is then what its parts give, and the status keeps its other bits. -/
theorem bit_followFrame (s : State) (n : Fin 16) (lineLoss : Bool) {j : Nat} (hj : j < 16) :
    (s.followFrame n lineLoss).bit (K.LINE_LOCK_STATUS n) j = if j = 1 then s.frameNow n else s.bit (K.LINE_LOCK_STATUS n) j := by
  by_cases h : s.frameLock n = s.frameNow n
  · rw [followFrame_of_same h, ← h]
    split
    next hone => rw [hone]; rfl
    · rfl
  · rw [bit_of_rd (rd_followFrame_of_change h (by simp)), bit_of_rd (rd_raise_area _ _ _ (by simp)), bit_of_rd (rd_followFreeze _ _ _ _),
      bit_wrBit_lockStatus _ _ _ _ hj]

/-- An event that was raised before stays raised. -/
theorem raised_followFrame {x : Src} (lineLoss : Bool) (hx : x.b < 16) (h : Raised s x) : Raised (s.followFrame n lineLoss) x := by
  by_cases hsame : s.frameLock n = s.frameNow n
  · rw [followFrame_of_same hsame]
    exact h
  · refine raised_of_rd (rd_followFrame_of_change hsame (by simp)) (raised_keep _ _ (raised_of_rd ?_ h) hx)
    rw [rd_followFreeze, rd_wrBit_ne _ _ _ (by simp)]

/-! ## Loss of codeword lock (R120) -/

/-- The state in which frame lock is judged after a loss of codeword lock: the machines below and above are off. -/
def huntAgain (s : State) (n : Fin 16) : State :=
  (((s.setCw n 1).modLane n fun l => { l with offset := 0, uncorrRun := 0, cwGood := 0 }).incSat (K.LINE_CWLOCK_LOSS n)).markersOff n

theorem cwLost_of_lock (h : s.cwState n = 3) : s.cwLost n = (s.huntAgain n).followFrame n true := by
  unfold cwLost
  exact if_pos h

theorem cwLost_of_no_lock (h : s.cwState n ≠ 3) : s.cwLost n = s := by
  unfold cwLost
  exact if_neg h

/-- The entries that a loss of codeword lock writes. -/
def cwLostKeys (n : Fin 16) : List Key :=
  [K.LINE_LOCK_STATUS n, K.LAT_RX_MARKER_A n, K.LAT_RX_MARKER_B n, K.LINE_CWLOCK_LOSS n, K.LINE_FRAME_LOSS n]

theorem rd_huntAgain (s : State) (n : Fin 16) {k : Key} (hk : k ∉ cwLostKeys n) : (s.huntAgain n).rd k = s.rd k := by
  simp only [cwLostKeys, List.mem_cons, List.not_mem_nil, or_false, not_or] at hk
  obtain ⟨hlock, hA, hB, hcount, -⟩ := hk
  rw [huntAgain, rd_markersOff _ _ hlock hA hB, rd_incSat, if_neg hcount, modLane_rd, setCw, rd_wrBit_ne _ _ _ hlock, rd_wrField,
    if_neg hlock]

/-- Every other entry stands. -/
theorem rd_cwLost (s : State) (n : Fin 16) {k : Key} (ha : k.area ≠ none) (hk : k ∉ cwLostKeys n) : (s.cwLost n).rd k = s.rd k := by
  by_cases h : s.cwState n = 3
  · have hk' := hk
    simp only [cwLostKeys, List.mem_cons, List.not_mem_nil, or_false, not_or] at hk'
    obtain ⟨hlock, -, -, -, hloss⟩ := hk'
    rw [cwLost_of_lock h, rd_followFrame _ _ _ ha hlock hloss, rd_huntAgain _ _ hk]
  · rw [cwLost_of_no_lock h]

theorem raised_cwLost {x : Src} (hx : x.b < 16) (h : Raised s x) : Raised (s.cwLost n) x := by
  by_cases hlock : s.cwState n = 3
  · rw [cwLost_of_lock hlock]
    exact raised_followFrame true hx (raised_of_rd (rd_huntAgain _ _ (by simp [cwLostKeys])) h)
  · rw [cwLost_of_no_lock hlock]
    exact h

/-- The bits of the hunt that starts again. -/
theorem bit_huntAgain (s : State) (n : Fin 16) {j : Nat} (hj : j < 16) (h3 : j ≠ 3) (h4 : j ≠ 4) (hep : ¬(8 ≤ j ∧ j ≤ 8 + 1)) :
    (s.huntAgain n).bit (K.LINE_LOCK_STATUS n) j = if j = 5 then false else (s.setCw n 1).bit (K.LINE_LOCK_STATUS n) j := by
  have hrd : ∀ z : State, (z.incSat (K.LINE_CWLOCK_LOSS n)).rd (K.LINE_LOCK_STATUS n) = z.rd (K.LINE_LOCK_STATUS n) := fun z =>
    (rd_incSat _ _ _).trans (if_neg (by simp))
  rw [huntAgain, bit_markersOff _ _ hj h3 h4 hep, bit_of_rd (hrd _), bit_of_rd (modLane_rd _ _ _ _)]

/-- With codeword lock fall frame lock and epoch lock, and the machine is in HUNT (R120). -/
theorem locks_cwLost (h : s.cwState n = 3) :
    (s.cwLost n).cwState n = 1 ∧ (s.cwLost n).frameLock n = false ∧ (s.cwLost n).epochLock n = false := by
  obtain ⟨h10, h11, h2⟩ := bit_setCw_hunt s n
  have hframe : (s.huntAgain n).frameNow n = false := by
    have hcw : (s.huntAgain n).cwLock n = false := by
      rw [cwLock, bit_huntAgain _ _ (by decide) (by decide) (by decide) (by decide), if_neg (by decide), h2]
    rw [frameNow, hcw, Bool.false_and, Bool.false_and]
  rw [cwLost_of_lock h]
  refine ⟨cwState_eq_one ?_ ?_, ?_, ?_⟩
  · rw [bit_followFrame _ _ _ (by decide), if_neg (by decide), bit_huntAgain _ _ (by decide) (by decide) (by decide) (by decide),
      if_neg (by decide), h10]
  · rw [bit_followFrame _ _ _ (by decide), if_neg (by decide), bit_huntAgain _ _ (by decide) (by decide) (by decide) (by decide),
      if_neg (by decide), h11]
  · rw [frameLock, bit_followFrame _ _ _ (by decide), if_pos rfl, hframe]
  · rw [epochLock, bit_followFrame _ _ _ (by decide), if_neg (by decide), bit_huntAgain _ _ (by decide) (by decide) (by decide) (by decide),
      if_pos rfl]

/-! ## Loss of signal (R40, R46) -/

/-- The conversation follows what a change makes of the state. -/
theorem coFollow_congr {f g : State → State} (h : f s = g s) : s.coFollow n f = s.coFollow n g := by
  unfold coFollow
  rw [h]

/-- Loss of signal is not seen at a threshold of 0, twice, or without power (R483). -/
theorem losSet_unseen (h : s.rd (K.LINE_LOS_THR n) = 0 ∨ s.losOn n = true ∨ s.clamped (laneUnit n) = true) : s.losSet n = s := by
  unfold losSet
  exact if_pos (by simpa [or_assoc] using h)

/-- The status and the hold of the clock recovery, with the event. -/
def losShown (s : State) (n : Fin 16) : State :=
  (s.followFreeze n fun s => (s.wr (K.LINE_LOS_STATUS n) 1).wr (K.LINE_CDR_HOLD n) 1).raise (Src.LINE_LOS n)

theorem losSet_seen (hthr : s.rd (K.LINE_LOS_THR n) ≠ 0) (hlos : s.losOn n = false) (hpower : s.clamped (laneUnit n) = false) :
    s.losSet n = ((s.losShown n).cwLost n).ssLos n := by
  unfold losSet
  exact if_neg (by simp [hthr, hlos, hpower])

theorem rd_losShown (s : State) (n : Fin 16) {k : Key} (ha : k.area ≠ none) :
    (s.losShown n).rd k = if k = K.LINE_CDR_HOLD n then 1 else if k = K.LINE_LOS_STATUS n then 1 else s.rd k := by
  rw [losShown, rd_raise_area _ _ _ ha, rd_followFreeze, rd_wr, rd_wr]
  rfl

/-- What loss of signal sets, and the locks that it takes with it. -/
theorem losSet_spec (hthr : s.rd (K.LINE_LOS_THR n) ≠ 0) (hlos : s.losOn n = false) (hpower : s.clamped (laneUnit n) = false) :
    (s.losSet n).rd (K.LINE_LOS_STATUS n) = 1 ∧ (s.losSet n).rd (K.LINE_CDR_HOLD n) = 1 ∧ Raised (s.losSet n) (Src.LINE_LOS n) ∧
    (s.cwState n = 3 → (s.losSet n).cwState n = 1 ∧ (s.losSet n).frameLock n = false ∧ (s.losSet n).epochLock n = false) := by
  rw [losSet_seen hthr hlos hpower]
  have hstatus : ((s.losShown n).cwLost n).rd (K.LINE_LOS_STATUS n) = 1 := by
    rw [rd_cwLost _ _ (by simp) (by simp [cwLostKeys]), rd_losShown _ _ (by simp), if_neg (by simp), if_pos rfl]
  have hhold : ((s.losShown n).cwLost n).rd (K.LINE_CDR_HOLD n) = 1 := by
    rw [rd_cwLost _ _ (by simp) (by simp [cwLostKeys]), rd_losShown _ _ (by simp), if_pos rfl]
  have hraised : Raised ((s.losShown n).cwLost n) (Src.LINE_LOS n) :=
    raised_cwLost (show 0 < 16 by decide) (raised_raise _ _ (show 0 < 16 by decide))
  refine ⟨hstatus, hhold, hraised, fun hcw => ?_⟩
  have hshown : (s.losShown n).cwState n = 3 := by
    rw [cwState, rd_losShown _ _ (by simp), if_neg (by simp), if_neg (by simp)]
    exact hcw
  exact locks_cwLost hshown

/-- Its end clears both. -/
theorem losClear_spec (s : State) (n : Fin 16) :
    (s.losClear n).rd (K.LINE_LOS_STATUS n) = 0 ∧ (s.losClear n).rd (K.LINE_CDR_HOLD n) = 0 ∧ (s.losClear n).now = s.now := by
  refine ⟨?_, ?_, ?_⟩
  · rw [losClear, rd_followFreeze, rd_wr, if_neg (by simp), rd_wr_self, Nat.zero_mod]
  · rw [losClear, rd_followFreeze, rd_wr_self, Nat.zero_mod]
  · unfold losClear followFreeze
    split <;> rfl

end State

open State in
/-- Settles O20: a command of the capture, of the search and of the loss of signal is its operation, and the conversation then follows the
lane. -/
theorem lineReceiveMonitors : Obligations.LineReceiveMonitors := by
  unfold Obligations.LineReceiveMonitors
  refine ⟨?_, ?_, ?_, ?_, ?_, ?_, ?_, ?_, ?_, ?_, ?_, ?_, ?_, ?_, ?_, ?_, ?_, ?_⟩
  · intro s r n hacc
    refine ⟨_, exec_lineLqmClear_one s r n, ?_⟩
    simp only [write_lane _ _ hacc, lane_lqmZero, admitted_lane, true_and]
    refine ⟨fun m hm => ?_, write_changes _ _ hacc (changes_of_rd _ (rd_lqmZero _ n))⟩
    rw [lane_lqmZero_ne _ hm, admitted_lane]
  · intro s r n hacc
    obtain ⟨hswatch, hothers⟩ := lane_write_swatchArm hacc
    refine ⟨_, exec_lineSwatchArm_one s r n, ?_, ?_, ?_, ?_, ?_, ?_, ?_, hothers, changes_write_swatchArm hacc⟩
    · rw [rd_write_swatchArm hacc (by simp), if_neg (by simp), if_neg (by simp), if_pos (by simp)]
      rfl
    · rw [rd_write_swatchArm hacc (by simp), if_neg (by simp), if_neg (by simp), if_pos (by simp)]
      rfl
    · rw [rd_write_swatchArm hacc (by simp), if_pos rfl]
    · rw [rd_write_swatchArm hacc (by simp), if_neg (by simp), if_pos rfl]
    all_goals rw [hswatch]
  · intro s n src harmed hsrc hpre
    have hexec : exec (.swatchTrigger n src) s = .next (s.swatchAccept n) := by
      rw [exec_swatchTrigger, execSwatchTrigger, swatchTrigger_taken harmed hsrc hpre]
    refine ⟨_, hexec, ?_, ?_, ?_, changes_swatchAccept s n⟩
    · rw [rd_swatchAccept, if_neg (by simp), if_pos rfl]
    · rw [rd_swatchAccept, if_pos rfl]
    · rw [swatchAccept, wr_lanes, wr_lanes]
  · intro s n src h
    exact ⟨_, rfl, swatchTrigger_ignored h⟩
  · intro s n hstatus hpost
    refine ⟨_, rfl, ?_, ?_, fun hnone => ?_, ?_, ?_, changes_swatchComplete hstatus hpost⟩
    · rw [rd_swatchComplete hstatus hpost (by simp), if_neg (by simp), if_pos rfl]
    · rw [rd_swatchComplete hstatus hpost (by simp), if_neg (by simp), if_neg (by simp), if_pos rfl]
    · rw [rd_swatchComplete hstatus hpost (by simp), if_pos rfl, swatchIndex_of_none hnone]
      rfl
    · rw [swatchComplete_done hstatus hpost]
      exact raised_raise _ _ (show 7 < 16 by decide)
    · rw [swatchComplete_done hstatus hpost, raise_lanes, wr_lanes, wr_lanes, wr_lanes]
  · intro s n h
    exact ⟨_, rfl, swatchComplete_early h⟩
  · intro s n hthr hlos hpower
    exact ⟨_, rfl, s.losSet n, rfl, losSet_spec hthr hlos hpower⟩
  · intro s n h
    exact ⟨_, rfl, coFollow_congr (losSet_unseen h)⟩
  · intro s n
    exact ⟨_, rfl, s.losClear n, rfl, losClear_spec s n⟩
  · intro s n hacq hnone hoff
    refine ⟨_, rfl, _, congrArg (coSettle · n) (acqPeriodEnd_tracking hacq hnone hoff), ?_, ?_, changes_of_rd _ fun _ => rfl⟩
    · rw [lane_modLane]
    · rw [lane_modLane, hnone]
  · intro s n hacq hnone hon hread hpeak
    have hstep := (acqPeriodEnd_search hacq hnone hon).trans (ctleSearchRead_up (by decide) hread hpeak)
    refine ⟨_, rfl, _, congrArg (coSettle · n) hstep, ?_, ?_, ?_, changes_of_rd _ fun _ => rfl⟩ <;> rw [lane_modLane]
    exact hacq
  · intro s n hacq hnone hon hread hpeak
    have hstep := (acqPeriodEnd_search hacq hnone hon).trans (ctleSearchRead_down (by decide) hread hpeak)
    refine ⟨_, rfl, _, congrArg (coSettle · n) hstep, ?_, ?_, ?_, changes_of_rd _ fun _ => rfl⟩ <;> rw [lane_modLane]
    exact hacq
  · intro s n c hc hon hread
    obtain ⟨hpeak, hsearch, hadapt, hchanges⟩ := ctleSearchEnd_spec s n
    obtain ⟨rfl, hacq, hnone⟩ | ⟨rfl, hsome⟩ := hc
    · have hend := (acqPeriodEnd_search hacq hnone hon).trans (ctleSearchRead_end (.inr hread))
      exact ⟨_, rfl, _, congrArg (coSettle · n) hend, hpeak, hsearch, hadapt, hchanges⟩
    · obtain ⟨k, hk⟩ := Option.ne_none_iff_exists'.mp hsome
      have hend := (ctleSearchStep_read hk hon).trans (ctleSearchRead_end (.inr hread))
      exact ⟨_, rfl, _, congrArg (coSettle · n) hend, hpeak, hsearch, hadapt, hchanges⟩
  · intro s n h
    exact ⟨_, rfl, congrArg (coSettle · n) (acqPeriodEnd_of_other h)⟩
  · intro s n k hk hon hsteps hread hpeak
    have hstep := (ctleSearchStep_read hk hon).trans (ctleSearchRead_up hsteps hread hpeak)
    refine ⟨_, rfl, _, congrArg (coSettle · n) hstep, ?_, ?_, changes_of_rd _ fun _ => rfl⟩ <;> rw [lane_modLane]
  · intro s n k hk hon hsteps hread hpeak
    have hstep := (ctleSearchStep_read hk hon).trans (ctleSearchRead_down hsteps hread hpeak)
    refine ⟨_, rfl, _, congrArg (coSettle · n) hstep, ?_, ?_, changes_of_rd _ fun _ => rfl⟩ <;> rw [lane_modLane]
  · intro s n k hk hend
    exact ⟨_, rfl, _, congrArg (coSettle · n) (ctleSearchStep_end hk hend), ctleSearchEnd_spec s n⟩
  · intro s n hnone
    exact ⟨_, rfl, congrArg (coSettle · n) (ctleSearchStep_of_none hnone)⟩

end Sys2Proof.Machine
end

section
/-!
SUPPORT. `LINE_CAL_CMD` in the hold of a failed cast-on calibration (R267): two or more slices have failed, the lane stays in C0 and
repeats the calibration, and a commanded one does not end that hold (R269).
-/

namespace Sys2Proof.Machine

namespace State

/-- A commanded calibration leaves the hold as it stands where cast-on waits for its calibrations, and marks none elsewhere. -/
theorem calBad_effCalCmd (s : State) (n : Fin 16) {v : Nat} (hv : v ≠ 0) :
    ((effCalCmd n v s).lane n).calBad = ((s.lane n).calBad && (s.lane n).co.calCo) := by
  rw [effCalCmd, if_neg hv, lane_modLane]

/-- An accepted `LINE_CAL_CMD` keeps the hold of a failed cast-on calibration. -/
theorem calBad_write_calCmd {s : State} {r : Fin 18} {n : Fin 16} {v : Nat} (hv : v ≠ 0)
    (hacc : s.accepts r (K.LINE_CAL_CMD n) (be 1 v) = true) (hbad : (s.lane n).calBad = true) (hco : (s.lane n).co.calCo = true) :
    ((s.write r (K.LINE_CAL_CMD n) (be 1 v) (effCalCmd n v)).lane n).calBad = true := by
  rw [write_lane _ _ hacc, calBad_effCalCmd _ _ hv, admitted_lane, hbad, hco]
  rfl

end State

/-- A lane calibration's measurements: the gain of S0 and of S1 reads 0, outside the limits of Table 9-2, and that of every other slice 1. -/
def twoSlicesOut : List SliceCorr := List.replicate 2 ⟨0, 0, 0⟩ ++ List.replicate 15 ⟨0, 32768, 0⟩

/-- The device in service: L0 is put up, and its cast-on calibrations end with two failed slices. -/
def castOnHeld : State :=
  match core.run 3 { lockedAndServing with pending :=
    [.lineAdminWrite 16 0 1, .dacCalComplete 0 false, .laneCalComplete 0 twoSlicesOut] } with
  | .next t => t
  | _ => State.reset

set_option maxRecDepth 4000 in
/-- L0 waits in C0 with its failed calibration, and `LINE_CAL_CMD` is accepted there, since no calibration runs (R269). -/
theorem castOnHeld_reads :
    (castOnHeld.lane 0).calBad = true ∧ (castOnHeld.lane 0).co.calCo = true ∧
    castOnHeld.accepts 16 (K.LINE_CAL_CMD 0) (be 1 1) = true := by
  decide

/-- Refutes O33: the clause on `LINE_CAL_CMD` asks that a lane calibration's start leave no failed calibration marked. Written in the hold
of a cast-on calibration with two failed slices (R267), the command is accepted and the hold goes on: only its own repetition ends it. -/
theorem not_laneCalibration : ¬ Obligations.LaneCalibration := by
  unfold Obligations.LaneCalibration
  rintro ⟨hcommand, -⟩
  obtain ⟨hbad, hco, hacc⟩ := castOnHeld_reads
  obtain ⟨t, hrun, hlane, -⟩ := hcommand castOnHeld 16 0 (.lineCalLane 16 0) 1 (.inl ⟨rfl, rfl⟩) hacc
  obtain ⟨-, hcleared, -⟩ := hlane (by decide)
  have hexec : exec (.lineCalLane 16 0) castOnHeld =
      .next (castOnHeld.write 16 (K.LINE_CAL_CMD 0) (be 1 1) (effCalCmd 0 1)) := exec_lineCalLane castOnHeld 16 0
  have hkept := State.calBad_write_calCmd (by decide) hacc hbad hco
  rw [Host.Outcome.next.inj (hexec.symm.trans hrun), hcleared] at hkept
  exact Bool.false_ne_true hkept

end Sys2Proof.Machine
end

section
/-!
SUPPORT. The cast-on conversation counts no codeword: whatever a lane's own progress does (R190, R196), the counters of decoded codewords
(Table 4-6) read as before it.
-/

namespace Sys2Proof.Machine

/-- The counters of decoded codewords (Table 4-6): outcomes, corrections and marks. -/
def codewordCounter (k : Key) : Bool :=
  match k.blk with
  | .line _ => k.off == 0x32 && decide (k.sub ≤ 11)
  | _ => false

/-- What every step of a pass leaves alone, the pass leaves alone. -/
theorem forAll_keep {α β : Type} (g : State → β) {f : α → State → State} {l : List α} (h : ∀ a ∈ l, ∀ z, g (f a z) = g z) (s : State) :
    g (forAll l f s) = g s := by
  induction l generalizing s with
  | nil => rfl
  | cons a l ih =>
    exact (ih (fun b hb => h b (List.mem_cons_of_mem a hb)) (f a s)).trans (h a List.mem_cons_self s)

namespace State

/-- Changes that each leave an entry alone leave it alone one after the other. -/
theorem rd_forAll_of_keep {α : Type} {k : Key} {f : α → State → State} (h : ∀ a z, (f a z).rd k = z.rd k) (l : List α) (s : State) :
    (forAll l f s).rd k = s.rd k := forAll_keep (fun z => z.rd k) (fun a _ z => h a z) s

/-- An entry after one of two changes. -/
theorem rd_ite (c : Prop) [Decidable c] (a b : State) (k : Key) : (if c then a else b).rd k = if c then a.rd k else b.rd k :=
  apply_ite (fun z : State => z.rd k) c a b

/-- Rotation starts or stops in the lane's record alone (R261). -/
theorem rd_ssFollow (s : State) (n : Fin 16) (k : Key) : (s.ssFollow n).rd k = s.rd k := by
  have hstart : ∀ z : State, (z.ssStart n).rd k = z.rd k := fun z => by
    unfold ssStart
    split <;> rfl
  have hstop : ∀ z : State, (z.ssStop n).rd k = z.rd k := fun z => by
    unfold ssStop
    dsimp only
    split <;> rfl
  simp only [ssFollow, rd_ite, hstart, hstop, ite_self]

variable {s : State} {k : Key} (hk : codewordCounter k = true)

include hk

/-! ## Writes of other entries -/

theorem ne_of_codewordCounter {x : Key} (hx : codewordCounter x = false) : k ≠ x := by
  rintro rfl
  exact Bool.noConfusion (hk.symm.trans hx)

theorem area_codewordCounter : k.area ≠ none := by
  obtain ⟨b, o, x⟩ := k
  cases b <;> simp_all [codewordCounter]

theorem rd_wr_counter {x : Key} (v : Nat) (hx : codewordCounter x = false) : (s.wr x v).rd k = s.rd k :=
  rd_wr_ne s v (ne_of_codewordCounter hk hx)

theorem rd_wrBit_counter {x : Key} (i : Nat) (b : Bool) (hx : codewordCounter x = false) : (s.wrBit x i b).rd k = s.rd k :=
  rd_wr_counter hk _ hx

theorem rd_addSat_counter {x : Key} (v : Nat) (hx : codewordCounter x = false) : (s.addSat x v).rd k = s.rd k := rd_wr_counter hk _ hx

theorem rd_incSat_counter {x : Key} (hx : codewordCounter x = false) : (s.incSat x).rd k = s.rd k := rd_wr_counter hk _ hx

theorem rd_raise_counter (x : Src) : (s.raise x).rd k = s.rd k := rd_raise_area _ _ _ (area_codewordCounter hk)

/-! ## Messages (R189 to R191) -/

theorem rd_coOffer_counter (n : Fin 16) (typ seq : Nat) (body : List Byte) : (s.coOffer n typ seq body).rd k = s.rd k := by
  unfold coOffer picotOffer
  dsimp only
  (repeat' split) <;> simp [rd_incSat_counter hk, codewordCounter]

theorem rd_sendSeq_counter (n : Fin 16) (typ : Nat) (body : List Byte) : (s.sendSeq n typ body).rd k = s.rd k := by
  unfold sendSeq
  dsimp only
  split <;> simp [rd_coOffer_counter hk]

theorem rd_sendKeepalive_counter (n : Fin 16) : (s.sendKeepalive n).rd k = s.rd k := rd_coOffer_counter hk _ _ _ _

theorem rd_sendStatus_counter (n : Fin 16) : (s.sendStatus n).rd k = s.rd k := rd_sendSeq_counter hk _ _ _

theorem rd_sendReady_counter (n : Fin 16) : (s.sendReady n).rd k = s.rd k := rd_sendSeq_counter hk _ _ _

theorem rd_sendTxeq_counter (n : Fin 16) (taps : List Int) : (s.sendTxeq n taps).rd k = s.rd k := rd_sendSeq_counter hk _ _ _

theorem rd_sendCap_counter (n : Fin 16) : (s.sendCap n).rd k = s.rd k := rd_sendSeq_counter hk _ _ _

theorem rd_propose_counter (n : Fin 16) (a : Agreed) : (s.propose n a).rd k = s.rd k := rd_sendSeq_counter hk _ _ _

theorem rd_offerCheck_counter (n : Fin 16) : (s.offerCheck n).rd k = s.rd k := by
  unfold offerCheck
  dsimp only
  (repeat' split) <;> simp [setCoFlag, rd_wrBit_counter hk, rd_sendCap_counter hk, codewordCounter]

theorem rd_portReady_counter (n : Fin 16) : (s.portReady n).rd k = s.rd k := by
  refine rd_forAll_of_keep (fun m z => ?_) _ s
  split
  · exact rd_sendReady_counter hk m
  · rfl

/-! ## The lane's format, locks and chains -/

theorem rd_clkOkLost_counter (m : Fin 32) : (s.clkOkLost m).rd k = s.rd k := by
  have hbit : ∀ (z : State) (i : Nat) (b : Bool), (z.setHostBit m i b).rd k = z.rd k := fun z i b =>
    rd_wrBit_counter hk i b (by simp [codewordCounter])
  have halign : ∀ z : State, (z.setAlign m false).rd k = z.rd k := fun z => by
    unfold setAlign raiseIn
    rw [rd_ite, rd_raise_counter hk, rd_wr_counter hk _ (by simp [codewordCounter]), hbit, ite_self]
  have htaps : ∀ z : State, (z.hostTapsHeld m).rd k = z.rd k := fun z => rd_wr_counter (s := z.fresh.2) hk _ (by simp [codewordCounter])
  simp only [clkOkLost, hostTapsFollow, rd_ite, htaps, halign, modHost_rd, hbit, ite_self]

theorem rd_setFormat_counter (n : Fin 16) (f : Nat) : (s.setFormat n f).rd k = s.rd k := by
  unfold setFormat setFill hostTrain
  (repeat' split) <;> simp [rd_wr_counter hk, rd_wrBit_counter hk, rd_clkOkLost_counter hk, codewordCounter]

theorem rd_groupFollow_counter (n : Fin 16) : (s.groupFollow n).rd k = s.rd k := by
  have hoffers := rd_forAll_of_keep (f := fun m z => z.offerCheck m) fun m z => rd_offerCheck_counter (s := z) hk m
  unfold groupFollow groupFix
  dsimp only
  (repeat' split) <;> simp [hoffers]

theorem rd_lockIdle_counter (n : Fin 16) : (s.lockIdle n).rd k = s.rd k := by
  have hne : ∀ {x : Key}, codewordCounter x = false → k ≠ x := ne_of_codewordCounter hk
  have hlock := hne (x := K.LINE_LOCK_STATUS n) (by simp [codewordCounter])
  rw [lockIdle, rd_followFrame _ _ _ (area_codewordCounter hk) hlock (hne (by simp [codewordCounter])),
    rd_markersOff _ _ hlock (hne (by simp [codewordCounter])) (hne (by simp [codewordCounter])), modLane_rd, setCw,
    rd_wrBit_ne _ _ _ hlock, rd_wrField, if_neg hlock]

theorem rd_lockHunt_counter (n : Fin 16) : (s.lockHunt n).rd k = s.rd k := by
  have hlock := ne_of_codewordCounter hk (x := K.LINE_LOCK_STATUS n) (by simp [codewordCounter])
  unfold lockHunt
  split
  · rw [modLane_rd, setCw, rd_wrBit_ne _ _ _ hlock, rd_wrField, if_neg hlock]
  · rfl

theorem rd_calDacBegin_counter (n : Fin 16) : (s.calDacBegin n).rd k = s.rd k := by
  rw [calDacBegin, rd_wrBit_counter hk _ _ (by simp [codewordCounter]), rd_wr_counter hk _ (by simp [codewordCounter]), modLane_rd]

theorem rd_injFollow_counter (n : Fin 16) : (s.injFollow n).rd k = s.rd k := by
  unfold injFollow
  dsimp only
  rw [modLane_rd, rd_addSat_counter hk _ (by simp [codewordCounter])]

theorem rd_outFollow_counter (n : Fin 16) : (s.outFollow n).rd k = s.rd k := by
  have hcut : ∀ z : State, (z.picotCut n).rd k = z.rd k := fun z => by
    simp only [picotCut, rd_ite, rd_calDacBegin_counter hk, modLane_rd, rd_incSat_counter hk (x := K.PICOT_TX_CUT n) rfl, ite_self]
  unfold outFollow
  dsimp only
  split <;> simp only [rd_ite, hcut, outSet, modLane_rd, rd_injFollow_counter hk, ite_self]

theorem rd_calStart_counter (n : Fin 16) (lane dac : Bool) : (s.calStart n lane dac).rd k = s.rd k := by
  have hpicot : ∀ z : State, (z.picotFollow n).rd k = z.rd k := fun z => by
    simp only [picotFollow, picotSearch, rd_ite, modPicot_rd, ite_self]
  simp only [calStart, calDacStart, rd_ite, modLane_rd, rd_outFollow_counter hk, rd_calDacBegin_counter hk, hpicot,
    rd_wr_counter hk (x := K.LINE_CAL_LANE_LAST n) _ rfl, ite_self]

theorem rd_outageCheck_counter : s.outageCheck.rd k = s.rd k := by
  have hkey : ∀ c : OutageCause, codewordCounter (outageKey c) = false := fun c => by cases c <;> rfl
  unfold outageCheck
  split
  · rfl
  next c t0 _ =>
    rw [rd_ite, startSave_rd, modClk_rd, rd_incSat_counter hk (hkey c), rd_addSat_counter hk (x := K.AVAIL_OUTAGE_US) _ rfl, ite_self]

/-! ## Phases (R196) -/

theorem rd_phaseSet_counter (n : Fin 16) (p : Nat) : (s.phaseSet n p).rd k = s.rd k := by
  have hrecord : ∀ (z : State) (b c : Nat) (d : List Byte), (z.record b c d).rd k = z.rd k := fun z b c d =>
    rd_record_area z k b c d (area_codewordCounter hk)
  have hflag : ∀ (z : State) (i : Nat) (b : Bool), (z.setCoFlag n i b).rd k = z.rd k := fun z i b =>
    rd_wrBit_counter hk i b rfl
  simp only [phaseSet, rd_groupFollow_counter hk, rd_ssFollow, rd_ite, modLane_rd, modCo_rd, hflag, rd_setFormat_counter hk,
    rd_wr_counter hk (x := K.LINE_CO_AGR n) _ rfl, adaptStop, rd_followFreeze, rd_lockIdle_counter hk, chooseSrc,
    rd_wr_counter hk (x := K.LINE_CO_PHASE n) _ rfl, phaseRecord, hrecord, leaveC7, ite_self]

theorem rd_laneWentDown_counter (n : Fin 16) : (s.laneWentDown n).rd k = s.rd k := by
  have hrebase : ∀ (m : Fin 16) (z : State), (z.injRebase m).rd k = z.rd k := fun m z => rd_injFollow_counter hk m
  have hshow : ∀ (z : State) (g : Fin 4), (z.gbShow g false).rd k = z.rd k := fun z g => by
    rw [gbShow, rd_wr_counter hk _ (by simp [codewordCounter]), rd_wrBit_counter hk _ _ (by simp [codewordCounter]),
      rd_forAll_of_keep hrebase]
  have hgearbox : ∀ (z : State) (g : Fin 4), (z.gbDown g).rd k = z.rd k := fun z g => by
    rw [gbDown, rd_ite, modPg_rd, hshow, ite_self]
  have habort : ∀ z : State, (z.swatchAbort n).rd k = z.rd k := fun z => by
    rw [swatchAbort, rd_ite, rd_wr_counter hk _ (by simp [codewordCounter]), ite_self]
  rw [laneWentDown, rd_outageCheck_counter hk, rd_portReady_counter hk, habort, hgearbox]

theorem rd_toC0_counter (n : Fin 16) (hold : Bool) : (s.toC0 n hold).rd k = s.rd k := by
  unfold toC0 castStart coDiscard picotFlush
  dsimp only
  (repeat' split) <;>
    simp [rd_laneWentDown_counter hk, rd_calStart_counter hk, rd_phaseSet_counter hk, rd_wr_counter hk, rd_incSat_counter hk,
      codewordCounter]

theorem rd_coRestart_counter (n : Fin 16) (cause : Nat) : (s.coRestart n cause).rd k = s.rd k := by
  have hsession : ∀ z : State, (z.newSession n).rd k = z.rd k := fun z =>
    rd_wr_counter (s := z.fresh.2) hk _ (by simp [codewordCounter])
  unfold coRestart enterC1 coDiscard picotFlush setFail
  (repeat' split) <;>
    simp [hsession, rd_toC0_counter hk, rd_phaseSet_counter hk, rd_wr_counter hk, rd_incSat_counter hk, codewordCounter]

theorem rd_enterC3_counter (n : Fin 16) (noPropose : Bool) : (s.enterC3 n noPropose).rd k = s.rd k := by
  have hstart : ∀ z : State, (z.c3Start n).rd k = z.rd k := fun z => by
    unfold c3Start
    dsimp only
    (repeat' split) <;> simp [setCoFlag, rd_wrBit_counter hk, rd_propose_counter hk, codewordCounter]
  rw [enterC3, hstart, modCo_rd, rd_phaseSet_counter hk]

theorem rd_enterC4_counter (n : Fin 16) (cold : Bool) : (s.enterC4 n cold).rd k = s.rd k := by
  unfold enterC4 acqStart setCoef
  simp [rd_phaseSet_counter hk]

theorem rd_enterC5_counter (n : Fin 16) (re : Bool) : (s.enterC5 n re).rd k = s.rd k := by
  rw [enterC5, rd_followFreeze, rd_lockHunt_counter hk, setCoFlag, rd_wrBit_counter hk _ _ (by simp [codewordCounter]),
    rd_phaseSet_counter hk]

theorem rd_enterC6_counter (n : Fin 16) : (s.enterC6 n).rd k = s.rd k := by
  unfold enterC6 gateEnd
  dsimp only
  (repeat' split) <;>
    simp [rd_portReady_counter hk, rd_sendStatus_counter hk, rd_enterC4_counter hk, rd_coRestart_counter hk, rd_incSat_counter hk,
      rd_phaseSet_counter hk, codewordCounter]

theorem rd_enterC7_counter (n : Fin 16) : (s.enterC7 n).rd k = s.rd k := by
  unfold enterC7
  simp [rd_outageCheck_counter hk, setCoFlag, rd_sendStatus_counter hk, rd_wr_counter hk, rd_wrBit_counter hk, rd_incSat_counter hk,
    rd_phaseSet_counter hk, codewordCounter]

/-! ## Progress (R190, R196) -/

theorem rd_policyStart_counter (n : Fin 16) : (s.policyStart n).rd k = s.rd k := by
  unfold policyStart trainFrom
  (repeat' split) <;> simp [rd_sendTxeq_counter hk]

theorem rd_advanceOnce_counter (n : Fin 16) : (s.advanceOnce n).rd k = s.rd k := by
  unfold advanceOnce
  dsimp only
  (repeat' split) <;>
    simp [rd_enterC3_counter hk, rd_sendReady_counter hk, rd_enterC5_counter hk, rd_enterC6_counter hk, rd_enterC7_counter hk]

/-- The lane's own progress leaves the counters of decoded codewords alone. -/
theorem rd_coSettle_counter (n : Fin 16) : (s.coSettle n).rd k = s.rd k := by
  have hadvance : (s.coAdvance n).rd k = s.rd k := by
    simp [coAdvance, rd_advanceOnce_counter hk, rd_policyStart_counter hk]
  unfold coSettle
  dsimp only
  split
  · rw [rd_sendKeepalive_counter hk, hadvance]
  · exact hadvance

end State

end Sys2Proof.Machine
end

section
/-!
SUPPORT. More marks than `LINE_ERASE_MAX` allows (0 to 4, R56): a codeword with six marks, of which the decoder corrects all six, counts in
the sixth place of the counters by corrections, which is `LINE_SYM_CORR` itself.
-/

namespace Sys2Proof.Machine

/-- A received block: the first six bytes of each codeword read 0x55 at reliability 0, the others 0 at reliability 15. -/
def sixMarksBlock : List (Fin 4 × Nat) := List.replicate 96 (1, 0) ++ List.replicate 1056 (0, 15)

/-- L0 in codeword lock, after the first codeword of that block, its `LINE_ERASE_MAX` at 6. -/
def sixMarks : State :=
  ((State.reset.modLane 0 fun l => { l with rx := { l.rx with syms := sixMarksBlock }, blkW := 1 }).setCw 0 3).wr (K.LINE_ERASE_MAX 0) 6

/-- What the decoder corrects: six bytes, each by a value other than 0. -/
def sixFixes : List (Nat × Nat) := [(0, 134), (1, 67), (2, 110), (3, 234), (4, 158), (5, 223)]

theorem sixMarks_reads : sixMarks.laneTested 0 = false ∧ sixMarks.cwState 0 = 3 ∧ (sixMarks.lane 0).blkW = 1 ∧ sixMarks.phase 0 = 0 ∧
    sixMarks.rd (K.LINE_SYM_CORR 0) = 0 := by
  decide +kernel

theorem sixMarks_rxBlock : sixMarks.rxBlock 0 = some sixMarksBlock := by
  decide +kernel

theorem sixMarks_decoded :
    (sixMarks.decodeAt 0 1 (wordBytes (wordSyms sixMarksBlock 1)) (erasureMarks ((wordSyms sixMarksBlock 1).map (·.2))
      (sixMarks.rd (K.LINE_ERASE_THR 0)) (sixMarks.rd (K.LINE_ERASE_MAX 0)))).1 = .corrected sixFixes := by
  decide +kernel

/-- The sixth place of the counters by corrections counts the codeword, and then its six corrections are added. -/
theorem sixMarks_counted : (sixMarks.codeword 0).rd (K.LINE_SYM_CORR 0) = 7 := by
  decide +kernel

/-- Refutes O22: the first clause asks of every state that `LINE_SYM_CORR` go up by the corrections of a codeword. With `LINE_ERASE_MAX`
out of its range, at 6, a codeword of six corrections counts there once more. -/
theorem not_lineLockMachines : ¬ Obligations.LineLockMachines := by
  unfold Obligations.LineLockMachines
  rintro ⟨hlocked, -⟩
  obtain ⟨htested, hcw, hword, hphase, hzero⟩ := sixMarks_reads
  obtain ⟨t, hrun, u, hu, hcounts⟩ :=
    hlocked sixMarks 0 sixMarksBlock htested hcw sixMarks_rxBlock (by rw [hword]; decide) 1 hword.symm _ rfl
  obtain ⟨-, -, -, -, hcorrected, -⟩ := hcounts _ rfl _ rfl
  obtain ⟨hsym, -, -⟩ := hcorrected sixFixes sixMarks_decoded
  have hfollow : ∀ f : State → State, sixMarks.coFollow 0 f = (f sixMarks).coSettle 0 := fun f => by
    simp [State.coFollow, hphase]
  have hexec : exec (.codewordDecoded 0) sixMarks = .next ((sixMarks.codeword 0).coSettle 0) := by
    rw [exec_codewordDecoded, execCodewordDecoded, hfollow]
  have hsettled : u.coSettle 0 = (sixMarks.codeword 0).coSettle 0 := by
    rw [← hfollow fun _ => u, ← hu]
    exact Host.Outcome.next.inj (hrun.symm.trans hexec)
  have hsix : u.rd (K.LINE_SYM_CORR 0) = 6 := by
    rw [hsym, hzero]
    rfl
  have hkept : ∀ z : State, (z.coSettle 0).rd (K.LINE_SYM_CORR 0) = z.rd (K.LINE_SYM_CORR 0) := fun z => State.rd_coSettle_counter rfl 0
  have hsame : u.rd (K.LINE_SYM_CORR 0) = (sixMarks.codeword 0).rd (K.LINE_SYM_CORR 0) := by
    rw [← hkept u, hsettled, hkept]
  rw [hsix, sixMarks_counted] at hsame
  exact absurd hsame (by decide)

end Sys2Proof.Machine
end

section
/-!
SUPPORT. Changes of some line lanes: which lanes' records and entries such a change may alter, and what a pass over the lanes of a port
group does to each of them.
-/

namespace Sys2Proof.Machine

/-- A change of the line lanes in `l`: the other lanes' records and entries, the records of host lanes and port groups and their entries, and
what has been raised stand. The slice report of R262 marks its lane in `CAL_SLICE_FAIL_LANES`. -/
structure OnlyLanes (l : List (Fin 16)) (s t : State) : Prop where
  others : ∀ m, m ∉ l → t.lane m = s.lane m
  entries : ∀ k, k.area ≠ none → (∀ m ∈ l, k.blk ≠ .line m) → k ≠ K.CAL_SLICE_FAIL_LANES → t.rd k = s.rd k
  hosts : t.hosts = s.hosts
  pgs : t.pgs = s.pgs
  now : t.now = s.now
  raised : ∀ x, x.b < 16 → Raised s x → Raised t x

namespace OnlyLanes

variable {l : List (Fin 16)} {n : Fin 16} {a s t : State}

theorem refl (l : List (Fin 16)) (s : State) : OnlyLanes l s s :=
  ⟨fun _ _ => rfl, fun _ _ _ _ => rfl, rfl, rfl, rfl, fun _ _ h => h⟩

theorem trans (h1 : OnlyLanes l a s) (h2 : OnlyLanes l s t) : OnlyLanes l a t where
  others m hm := (h2.others m hm).trans (h1.others m hm)
  entries k ha hb hne := (h2.entries k ha hb hne).trans (h1.entries k ha hb hne)
  hosts := h2.hosts.trans h1.hosts
  pgs := h2.pgs.trans h1.pgs
  now := h2.now.trans h1.now
  raised x hx h := h2.raised x hx (h1.raised x hx h)

theorem mono {l' : List (Fin 16)} (h : OnlyLanes l s t) (hl : ∀ m ∈ l, m ∈ l') : OnlyLanes l' s t where
  others m hm := h.others m fun hin => hm (hl m hin)
  entries k ha hb hne := h.entries k ha (fun m hm => hb m (hl m hm)) hne
  hosts := h.hosts
  pgs := h.pgs
  now := h.now
  raised := h.raised

theorem ite {b : State} (c : Prop) [Decidable c] (ha : OnlyLanes l s a) (hb : OnlyLanes l s b) : OnlyLanes l s (if c then a else b) := by
  split
  · exact ha
  · exact hb

theorem pg (h : OnlyLanes l s t) (k : Fin 4) : t.pg k = s.pg k := by rw [State.pg, State.pg, h.pgs]

theorem host (h : OnlyLanes l s t) (m : Fin 32) : t.host m = s.host m := by rw [State.host, State.host, h.hosts]

/-- An entry of a lane outside the list. -/
theorem rd_line (h : OnlyLanes l s t) (hn : n ∉ l) (o x : Nat) : t.rd ⟨.line n, o, x⟩ = s.rd ⟨.line n, o, x⟩ :=
  h.entries _ (by simp) (fun m hm e => hn (by cases e; exact hm)) (by simp)

theorem rd_pg (h : OnlyLanes l s t) (k : Fin 4) (o x : Nat) : t.rd ⟨.pg k, o, x⟩ = s.rd ⟨.pg k, o, x⟩ :=
  h.entries _ (by simp) (fun _ _ e => by cases e) (by simp)

theorem modLane (s : State) (n : Fin 16) (f : LaneS → LaneS) : OnlyLanes [n] s (s.modLane n f) :=
  ⟨fun _ hm => State.lane_modLane_ne s f (by simpa using hm), fun _ _ _ _ => rfl, rfl, rfl, rfl, fun _ _ h => h⟩

theorem wr (s : State) (n : Fin 16) (o x v : Nat) : OnlyLanes [n] s (s.wr ⟨.line n, o, x⟩ v) :=
  ⟨fun _ _ => rfl, fun k _ hb _ => State.rd_wr_ne s v fun e => hb n (by simp) (congrArg Key.blk e), rfl, rfl, rfl, fun y _ h =>
    State.raised_of_rd (State.rd_wr_ne s v (by simp)) h⟩

theorem raise (l : List (Fin 16)) (s : State) (x : Src) : OnlyLanes l s (s.raise x) :=
  ⟨fun m _ => State.raise_lane s x m, fun k ha _ _ => State.rd_raise_area s k x ha, State.raise_hosts s x, State.raise_pgs s x,
    State.raise_now s x, fun _ hy h => State.raised_keep s x h hy⟩

theorem record (l : List (Fin 16)) (s : State) (kind unit : Nat) (d : List Byte) : OnlyLanes l s (s.record kind unit d) :=
  ⟨fun m _ => State.record_lane s kind unit d m, fun k ha _ _ => State.rd_record_area s k kind unit d ha, State.record_hosts s kind unit d,
    State.record_pgs s kind unit d, State.record_now s kind unit d, fun _ _ h => State.raised_record s kind unit d h⟩

/-- A pass over lanes that changes each lane in turn. -/
theorem forAll {f : Fin 16 → State → State} (hf : ∀ m z, OnlyLanes [m] z (f m z)) (l : List (Fin 16)) (s : State) :
    OnlyLanes l s (forAll l f s) := by
  induction l generalizing s with
  | nil => exact .refl _ _
  | cons m l ih =>
    have hhead : OnlyLanes (m :: l) s (f m s) := (hf m s).mono fun _ hm => List.mem_cons.mpr (.inl (List.mem_singleton.mp hm))
    exact hhead.trans ((ih (f m s)).mono fun _ hm => List.mem_cons_of_mem _ hm)

end OnlyLanes

/-- A pass over a list without repetition comes to an element once. -/
theorem exists_forAll_eq {α : Type} {l : List α} {a : α} (ha : a ∈ l) (hl : l.Nodup) (f : α → State → State) (s : State) :
    ∃ l₁ l₂, a ∉ l₁ ∧ a ∉ l₂ ∧ forAll l f s = forAll l₂ f (f a (forAll l₁ f s)) := by
  obtain ⟨l₁, l₂, rfl⟩ := List.append_of_mem ha
  rw [List.nodup_middle, List.nodup_cons, List.mem_append, not_or] at hl
  obtain ⟨⟨h1, h2⟩, -⟩ := hl
  exact ⟨l₁, l₂, h1, h2, by simp [forAll]⟩

theorem mem_lanesOf : ∀ (k : Fin 4) (n : Fin 16), n ∈ lanesOf k ↔ pgOf n = k := by decide

theorem nodup_lanesOf : ∀ k : Fin 4, (lanesOf k).Nodup := by decide

/-- What a pass over a group's lanes, each of which changes its own lane, makes of one of them: what its own step makes of it. -/
theorem lane_of_pass {f : Fin 16 → State → State} (hf : ∀ m z, OnlyLanes [m] z (f m z)) {k : Fin 4} {n : Fin 16} (hn : pgOf n = k)
    (s : State) : ∃ l₁ l₂ z, n ∉ l₁ ∧ n ∉ l₂ ∧ OnlyLanes l₁ s z ∧ OnlyLanes l₂ (f n z) (forAll (lanesOf k) f s) := by
  obtain ⟨l₁, l₂, h1, h2, hpass⟩ := exists_forAll_eq ((mem_lanesOf k n).mpr hn) (nodup_lanesOf k) f s
  refine ⟨l₁, l₂, _, h1, h2, .forAll hf l₁ s, ?_⟩
  rw [hpass]
  exact .forAll hf l₂ _

end Sys2Proof.Machine
end

section
/-!
SUPPORT. A lane's part of an epoch and of a latency report (R110, R170, R174, R263, R284): each changes its own lane.
-/

namespace Sys2Proof.Machine

namespace State

variable (s : State) (n : Fin 16)

/-! ## Analogue parts (R170) -/

theorem latRecompute_onlyLanes : OnlyLanes [n] s (s.latRecompute n) :=
  ((OnlyLanes.modLane _ n _).trans (.wr _ n _ _ _)).trans (.wr _ n _ _ _)

theorem epochLatency_onlyLanes : OnlyLanes [n] s (s.epochLatency n) :=
  .ite _ ((latRecompute_onlyLanes s n).trans (.raise _ _ _)) (latRecompute_onlyLanes s n)

/-- The analogue parts are written to two entries. -/
theorem rd_epochLatency {k : Key} (ha : k.area ≠ none) (htx : k ≠ K.LAT_TX_ANALOG_FS n) (hrx : k ≠ K.LAT_RX_ANALOG_FS n) :
    (s.epochLatency n).rd k = s.rd k := by
  have hparts : (s.latRecompute n).rd k = s.rd k := by
    unfold latRecompute
    dsimp only
    rw [rd_wrI, if_neg hrx, rd_wrI, if_neg htx, modLane_rd]
  rw [epochLatency, rd_ite, rd_raise_area _ _ _ ha, hparts, ite_self]

/-- They leave alone what the lane waits for. -/
theorem lane_epochLatency : ((s.epochLatency n).lane n).latAt = (s.lane n).latAt ∧
    ((s.epochLatency n).lane n).cfgPend = (s.lane n).cfgPend := by
  have hwrI : ∀ (z : State) (k : Key) (v : Int), (z.wrI k v).lane n = z.lane n := fun _ _ _ => rfl
  have hsame : (s.epochLatency n).lane n = (s.latRecompute n).lane n := by
    unfold epochLatency
    dsimp only
    split
    · exact raise_lane _ _ _
    · rfl
  rw [hsame, latRecompute, hwrI, hwrI, lane_modLane]
  exact ⟨rfl, rfl⟩

/-! ## Latency reports (R174) -/

/-- A report of a lane that reported nothing in this cc before. -/
def reportFirst (s : State) (n : Fin 16) (c : Nat) : State :=
  let t := ((((s.incWrap (K.LAT_SEQ n)).wr (K.LAT_CAUSE n) c).wr (K.LAT_EVENT_TIME n) s.timeNow).incSat (K.LAT_EVENT_COUNT n)).modLane n
    fun l => { l with latAt := some s.now }
  t.record 0x01 n.val (t.latData n)

/-- A report that completes an earlier one of the same cc. -/
def reportAgain (s : State) (n : Fin 16) (c : Nat) : State :=
  let t := s.wr (K.LAT_CAUSE n) (s.rd (K.LAT_CAUSE n) ||| c)
  t.modMgmt fun m => { m with recQ := m.recQ.map fun e =>
    if e.cc = s.now && e.kind = 0x01 && e.unit = n.val then { e with data := t.latData n } else e }

theorem latEvent_eq (c : Nat) : s.latEvent n c = if s.clamped (laneUnit n) then s else
    (if (s.lane n).latAt = some s.now then s.reportAgain n c else s.reportFirst n c).raise (Src.LATENCY_CHG n) := rfl

theorem latEvent_onlyLanes (c : Nat) : OnlyLanes [n] s (s.latEvent n c) := by
  have hagain : OnlyLanes [n] s (s.reportAgain n c) :=
    ⟨fun _ _ => rfl, fun _ _ hb _ => rd_wr_ne s _ fun e => hb n (by simp) (congrArg Key.blk e), rfl, rfl, rfl, fun y _ h =>
      raised_of_rd (rd_wr_ne s _ (by simp)) h⟩
  have hfirst : OnlyLanes [n] s (s.reportFirst n c) :=
    (((((OnlyLanes.wr _ n _ _ _).trans (.wr _ n _ _ _)).trans (.wr _ n _ _ _)).trans (.wr _ n _ _ _)).trans (.modLane _ n _)).trans
      (.record _ _ _ _ _)
  rw [latEvent_eq]
  exact .ite _ (.refl _ _) ((OnlyLanes.ite _ hagain hfirst).trans (.raise _ _ _))

/-- The causes of a first report. -/
theorem rd_reportFirst_cause (c : Nat) : (s.reportFirst n c).rd (K.LAT_CAUSE n) = c % 2 ^ bitsOf (K.LAT_CAUSE n) := by
  unfold reportFirst
  dsimp only
  rw [rd_record_area _ _ _ _ _ (by simp), modLane_rd, rd_incSat, if_neg (by simp), rd_wr_ne _ _ (by simp), rd_wr_self]

theorem rd_reportFirst {k : Key} (ha : k.area ≠ none) (hk : k ∉ [K.LAT_CAUSE n, K.LAT_SEQ n, K.LAT_EVENT_TIME n, K.LAT_EVENT_COUNT n])
    (c : Nat) : (s.reportFirst n c).rd k = s.rd k := by
  simp only [List.mem_cons, List.not_mem_nil, or_false, not_or] at hk
  obtain ⟨hcause, hseq, htime, hcount⟩ := hk
  unfold reportFirst
  dsimp only
  rw [rd_record_area _ _ _ _ _ ha, modLane_rd, rd_incSat, if_neg hcount, rd_wr_ne _ _ htime, rd_wr_ne _ _ hcause, rd_incWrap, if_neg hseq]

/-- Of the entries of an area a report writes the lane's own four. -/
theorem rd_latEvent {k : Key} (ha : k.area ≠ none) (hk : k ∉ [K.LAT_CAUSE n, K.LAT_SEQ n, K.LAT_EVENT_TIME n, K.LAT_EVENT_COUNT n])
    (c : Nat) : (s.latEvent n c).rd k = s.rd k := by
  have hagain : (s.reportAgain n c).rd k = s.rd k := rd_wr_ne s _ fun e => hk (by simp [e])
  rw [latEvent_eq, rd_ite, rd_raise_area _ _ _ ha, rd_ite, hagain, rd_reportFirst _ _ ha hk, ite_self, ite_self]

theorem cfgPend_latEvent (c : Nat) : ((s.latEvent n c).lane n).cfgPend = (s.lane n).cfgPend := by
  have hfirst : ((s.reportFirst n c).lane n).cfgPend = (s.lane n).cfgPend := by
    have hcount : ∀ (z : State) (k : Key), (z.incSat k).lane n = z.lane n := fun _ _ => rfl
    have hwrap : ∀ (z : State) (k : Key), (z.incWrap k).lane n = z.lane n := fun _ _ => rfl
    unfold reportFirst
    dsimp only
    rw [record_lane, lane_modLane, hcount, lane_wr, lane_wr, hwrap]
  rw [latEvent_eq]
  split
  · rfl
  · rw [raise_lane]
    split
    · rfl
    · exact hfirst

/-- A lane with power reports its event, with the causes of the cc (R174, R483). -/
theorem latencyReported_latEvent (c : Nat) (h : s.clamped (laneUnit n) = false) : LatencyReported n c s (s.latEvent n c) := by
  rw [latEvent_eq, h, if_neg Bool.false_ne_true]
  refine ⟨raised_raise _ _ (show 3 < 16 by decide), ?_⟩
  rw [rd_raise_area _ _ _ (by simp)]
  split
  · exact rd_wr_self _ _ _
  · exact rd_reportFirst_cause s n c

end State

/-- What a report joins is what the lane last reported, and its causes. -/
theorem LatencyReported.of_before {n : Fin 16} {c : Nat} {s z t : State} (h : LatencyReported n c z t)
    (hcause : z.rd (K.LAT_CAUSE n) = s.rd (K.LAT_CAUSE n)) (hat : (z.lane n).latAt = (s.lane n).latAt) (hnow : z.now = s.now) :
    LatencyReported n c s t := by
  unfold LatencyReported at *
  rwa [hcause, hat, hnow] at h

/-- A report stands through changes of other lanes. -/
theorem LatencyReported.of_after {n : Fin 16} {l : List (Fin 16)} {c : Nat} {s t t' : State} (h : LatencyReported n c s t) (hn : n ∉ l)
    (ht : OnlyLanes l t t') : LatencyReported n c s t' :=
  ⟨ht.raised _ (show 3 < 16 by decide) h.1, (ht.rd_line hn _ _).trans h.2⟩

theorem clamped_of_rd {s t : State} {u : Fin 22} (h : t.rd (K.PWR_STATE u) = s.rd (K.PWR_STATE u)) : t.clamped u = s.clamped u :=
  congrArg (· == 3) h

theorem OnlyLanes.clamped {l : List (Fin 16)} {s t : State} (h : OnlyLanes l s t) (u : Fin 22) : t.clamped u = s.clamped u :=
  clamped_of_rd (h.entries _ (by simp) (fun _ _ e => by cases e) (by simp))

namespace State

variable (s : State) (n : Fin 16)

/-! ## A transmit epoch (R110, R127, R263, R284) -/

theorem injFollow_onlyLanes : OnlyLanes [n] s (s.injFollow n) := by
  have hcount : ∀ v : Nat, OnlyLanes [n] s (s.addSat (K.LINE_FEC_INJ_COUNT n) v) := fun v => .wr s n _ _ _
  unfold injFollow
  exact (hcount _).trans (.modLane _ n _)

theorem epochLane_onlyLanes : OnlyLanes [n] s (s.epochLane n) :=
  (((epochLatency_onlyLanes s n).trans (.wr _ n _ _ _)).trans (.modLane _ n _)).trans (injFollow_onlyLanes _ n)

/-- The lane's row goes up by one. -/
theorem rowTx_epochLane : (s.epochLane n).rd (K.LINE_ROW_TX n) = (s.rd (K.LINE_ROW_TX n) + 1) % 2 ^ 32 := by
  have hbits : bitsOf (K.LINE_ROW_TX n) = 32 := rfl
  unfold epochLane injFollow
  dsimp only
  rw [modLane_rd, rd_addSat, if_neg (by simp), stampRow, modXfer_rd, rd_incWrap, if_pos rfl, hbits,
    rd_epochLatency _ _ (by simp) (by simp) (by simp)]

theorem ssSuspect_onlyLanes (slot : Nat) (rms : Bool) : OnlyLanes [n] s (s.ssSuspect n slot rms) := by
  have hmark : ∀ z : State, OnlyLanes [n] z (z.wr K.CAL_SLICE_FAIL_LANES (z.rd K.CAL_SLICE_FAIL_LANES ||| 2 ^ n.val)) := fun z =>
    ⟨fun _ _ => rfl, fun _ _ _ hne => rd_wr_ne z _ hne, rfl, rfl, rfl, fun _ _ h => raised_of_rd (rd_wr_ne z _ (by simp)) h⟩
  have hslice : ∀ (i : Fin 17) (f : SliceS → SliceS), OnlyLanes [n] s (s.modSlice n i f) := fun _ _ => by
    unfold modSlice
    exact .modLane s n _
  have hreport : ∀ (z : State) (i : Fin 17) (what cause : Nat), OnlyLanes [n] z (z.sliceReport n i what cause) := fun z i what cause =>
    (((OnlyLanes.wr _ n _ _ _).trans (.record _ _ _ _ _)).trans (hmark _)).trans (.raise _ _ _)
  unfold ssSuspect
  dsimp only
  split
  · exact .refl _ _
  · split
    · exact .ite _ (.refl _ _) ((hslice _ _).trans (.modLane _ n _))
    · exact .ite _ (.refl _ _) ((hreport _ _ _ _).trans (.modLane _ n _))

theorem rd_ssSuspect {k : Key} (ha : k.area ≠ none) (hfail : k ≠ K.LINE_SS_LAST_FAIL n) (hmark : k ≠ K.CAL_SLICE_FAIL_LANES) (slot : Nat)
    (rms : Bool) : (s.ssSuspect n slot rms).rd k = s.rd k := by
  have hreport : ∀ (z : State) (i : Fin 17) (what cause : Nat), (z.sliceReport n i what cause).rd k = z.rd k := fun z i what cause => by
    unfold sliceReport
    rw [raiseIn_eq, rd_raise_area _ _ _ ha, rd_wr_ne _ _ hmark, rd_record_area _ _ _ _ _ ha, rd_wr_ne _ _ hfail]
  unfold ssSuspect
  dsimp only
  split
  · rfl
  · split
    · rw [rd_ite, modSs_rd, modSlice, modSs_rd, ite_self]
    · rw [rd_ite, modSs_rd, hreport, ite_self]

/-- A slot is judged by the totals of the epoch (R263). -/
def judgeSlot (t : Vector SlotSum 16) (n j : Fin 16) (z : State) : State :=
  match slotSuspect t j with
  | some rms => z.ssSuspect n j.val rms
  | none => z

theorem judgeSlot_onlyLanes (t : Vector SlotSum 16) (j : Fin 16) : OnlyLanes [n] s (judgeSlot t n j s) := by
  unfold judgeSlot
  split
  · exact ssSuspect_onlyLanes _ _ _ _
  · exact .refl _ _

/-- The slots of a lane that held frame lock through the epoch are judged. -/
def slotsJudged (s : State) (n : Fin 16) : State :=
  if (s.lane n).lockTx then forAll (allFin 16) (judgeSlot (s.lane n).slots n) s else s

theorem slotCheck_eq : s.slotCheck n = (s.slotsJudged n).modLane n fun l =>
    { l with lockTx := s.frameLock n, slots := Vector.replicate 16 {} } := rfl

theorem slotCheck_onlyLanes : OnlyLanes [n] s (s.slotCheck n) := by
  have hpass : ∀ (js : List (Fin 16)) (z : State), OnlyLanes [n] z (forAll js (judgeSlot (s.lane n).slots n) z) := fun js => by
    induction js with
    | nil => exact fun z => .refl _ _
    | cons j js ih => exact fun z => (judgeSlot_onlyLanes z n _ j).trans (ih _)
  have hjudged : OnlyLanes [n] s (s.slotsJudged n) := .ite _ (hpass _ s) (.refl _ s)
  rw [slotCheck_eq]
  exact hjudged.trans (.modLane _ n _)

theorem rd_slotCheck {k : Key} (ha : k.area ≠ none) (hfail : k ≠ K.LINE_SS_LAST_FAIL n) (hmark : k ≠ K.CAL_SLICE_FAIL_LANES) :
    (s.slotCheck n).rd k = s.rd k := by
  rw [slotCheck_eq, modLane_rd, slotsJudged, rd_ite, rd_forAll_of_keep, ite_self]
  intro j z
  unfold judgeSlot
  split
  · exact rd_ssSuspect z n ha hfail hmark _ _
  · rfl

theorem lockTx_slotCheck : ((s.slotCheck n).lane n).lockTx = s.frameLock n := by rw [slotCheck_eq, lane_modLane]

end State

end Sys2Proof.Machine
end

section
/-!
SUPPORT. The transmit epoch boundary of a port group (R110, R141, R156).
-/

namespace Sys2Proof.Machine

namespace State

/-! ## Host frequencies (R141) -/

/-- The frequency of a host lane over the epoch, where one is given. -/
def hostFreqOf (freqs : List Nat) (m : Fin 32) (z : State) : State :=
  match freqs[m.val % 8]? with
  | some f => z.hostFreq m f
  | none => z

/-- The frequencies of a group's host lanes over the epoch. -/
def hostFreqs (s : State) (k : Fin 4) (freqs : List Nat) : State := forAll (hostsOf k) (hostFreqOf freqs) s

/-- They are entries of the host lanes, with a mark of the lanes that are off. -/
theorem rd_hostFreqs (s : State) (k : Fin 4) (freqs : List Nat) {x : Key} (ha : x.area ≠ none) (hhost : ∀ m, x.blk ≠ .host m)
    (hmark : ∀ g, x ≠ K.HOST_FREQ_OFFSET_LANES g) : (s.hostFreqs k freqs).rd x = s.rd x := by
  have hfreq : ∀ (z : State) (m : Fin 32) (f : Nat), (z.hostFreq m f).rd x = z.rd x := fun z m f => by
    have hne : ∀ y : Key, y.blk = .host m → x ≠ y := fun y hy e => hhost m (e ▸ hy)
    unfold hostFreq setHostBit
    dsimp only
    rw [rd_ite, raiseIn_eq, rd_raise_area _ _ _ ha, rd_wr_ne _ _ (hmark _), rd_wrBit_ne _ _ _ (hne _ rfl), rd_wrBit_ne _ _ _ (hne _ rfl),
      rd_wr_ne _ _ (hne _ rfl), ite_self]
  refine rd_forAll_of_keep (fun m z => ?_) _ s
  unfold hostFreqOf
  split
  · exact hfreq _ _ _
  · rfl

theorem hostFreq_records (z : State) (m : Fin 32) (f : Nat) : (z.hostFreq m f).lanes = z.lanes ∧ (z.hostFreq m f).pgs = z.pgs := by
  unfold hostFreq
  dsimp only
  split
  · rw [raiseIn_eq, raise_lanes, raise_pgs]
    exact ⟨rfl, rfl⟩
  · exact ⟨rfl, rfl⟩

theorem hostFreqs_records (s : State) (k : Fin 4) (freqs : List Nat) :
    (s.hostFreqs k freqs).lanes = s.lanes ∧ (s.hostFreqs k freqs).pgs = s.pgs := by
  have hstep : ∀ m ∈ hostsOf k, ∀ z : State, ((hostFreqOf freqs m z).lanes, (hostFreqOf freqs m z).pgs) = (z.lanes, z.pgs) := fun m _ z => by
    unfold hostFreqOf
    split
    · exact Prod.ext (hostFreq_records z m _).1 (hostFreq_records z m _).2
    · rfl
  exact Prod.ext_iff.mp (forAll_keep (fun z => (z.lanes, z.pgs)) hstep s)

/-! ## The group's codeword totals (R156) -/

/-- The totals of a port are copied. -/
def fecCopyPort (k : Fin 4) (g : PgS) (p : Fin 4) (z : State) : State :=
  (z.wr (K.FEC_UNCORR_EPOCH k p.val) (g.epTx.get p)).wr (K.FEC_UNCORR_EPOCH_RX k p.val) (g.epRx.get p)

/-- The totals of the four ports are copied. -/
def fecCopy (s : State) (k : Fin 4) (g : PgS) : State := forAll (allFin 4) (fecCopyPort k g) s

/-- Does a port's total reach the threshold? -/
def fecHit (s : State) (k : Fin 4) : Bool :=
  s.rd (K.PG_FEC_UNCORR_THR k) != 0 && (allFin 4).any fun p =>
    s.rd (K.PG_FEC_UNCORR_THR k) ≤ (s.pg k).epTx.get p || s.rd (K.PG_FEC_UNCORR_THR k) ≤ (s.pg k).epRx.get p

theorem fecEpoch_eq (s : State) (k : Fin 4) : s.fecEpoch k = when_ (s.fecHit k) (fun z => z.raise (Src.HOST_FEC_ALARM k))
    ((s.fecCopy k (s.pg k)).modPg k fun g => { g with epTx := Vector.replicate 4 0, epRx := Vector.replicate 4 0 }) := rfl

theorem rd_fecEpoch_eq_fecCopy (s : State) (k : Fin 4) {x : Key} (ha : x.area ≠ none) :
    (s.fecEpoch k).rd x = (s.fecCopy k (s.pg k)).rd x := by
  rw [fecEpoch_eq, when_, rd_ite, rd_raise_area _ _ _ ha, modPg_rd, ite_self]

theorem rd_fecCopy_line (s : State) (k : Fin 4) (g : PgS) (n : Fin 16) (o x : Nat) :
    (s.fecCopy k g).rd ⟨.line n, o, x⟩ = s.rd ⟨.line n, o, x⟩ :=
  rd_forAll_of_keep (fun p z => by rw [fecCopyPort, rd_wr_ne _ _ (by simp), rd_wr_ne _ _ (by simp)]) _ s

theorem bitsOf_fecEpoch : ∀ k p : Fin 4, bitsOf (K.FEC_UNCORR_EPOCH k p.val) = 32 ∧ bitsOf (K.FEC_UNCORR_EPOCH_RX k p.val) = 32 := by
  decide

theorem rd_fecCopy (s : State) (k : Fin 4) (g : PgS) (p : Fin 4) :
    (s.fecCopy k g).rd (K.FEC_UNCORR_EPOCH k p.val) = g.epTx.get p % 2 ^ 32 ∧
    (s.fecCopy k g).rd (K.FEC_UNCORR_EPOCH_RX k p.val) = g.epRx.get p % 2 ^ 32 := by
  obtain ⟨htx, hrx⟩ := bitsOf_fecEpoch k p
  obtain ⟨l₁, l₂, -, hp, hpass⟩ := exists_forAll_eq (List.mem_finRange p) (List.nodup_finRange 4) (fecCopyPort k g) s
  have hother : ∀ q ∈ l₂, ∀ o x : Nat, (⟨.pg k, o, x + p.val⟩ : Key) ≠ ⟨.pg k, o, x + q.val⟩ := fun q hq o x e => by
    have hsub : x + p.val = x + q.val := congrArg Key.sub e
    exact hp ((Fin.ext (by omega) : p = q) ▸ hq)
  have hafter : ∀ (z : State) (y : Key), y = K.FEC_UNCORR_EPOCH k p.val ∨ y = K.FEC_UNCORR_EPOCH_RX k p.val →
      (forAll l₂ (fecCopyPort k g) z).rd y = z.rd y := fun z y hy => by
    refine forAll_keep (fun z => z.rd y) (fun q hq z => ?_) z
    obtain rfl | rfl := hy
    · rw [fecCopyPort, rd_wr_ne _ _ (by simp), rd_wr_ne _ _ (hother q hq _ _)]
    · rw [fecCopyPort, rd_wr_ne _ _ (hother q hq _ _), rd_wr_ne _ _ (by simp)]
  rw [fecCopy, allFin, hpass, hafter _ _ (.inl rfl), hafter _ _ (.inr rfl), fecCopyPort, rd_wr_ne _ _ (by simp), rd_wr_self, rd_wr_self, htx,
    hrx]
  exact ⟨rfl, rfl⟩

/-- Copied, the totals start again. -/
theorem pg_fecEpoch (s : State) (k p : Fin 4) : ((s.fecEpoch k).pg k).epTx.get p = 0 ∧ ((s.fecEpoch k).pg k).epRx.get p = 0 := by
  have hpg : ((s.fecEpoch k).pg k).epTx = Vector.replicate 4 0 ∧ ((s.fecEpoch k).pg k).epRx = Vector.replicate 4 0 := by
    rw [fecEpoch_eq, when_]
    split
    · rw [raise_pg, pg_modPg]
      exact ⟨rfl, rfl⟩
    · rw [pg_modPg]
      exact ⟨rfl, rfl⟩
  rw [hpg.1, hpg.2]
  exact ⟨Vector.getElem_replicate p.isLt, Vector.getElem_replicate p.isLt⟩

theorem fecEpoch_lanes (s : State) (k : Fin 4) : (s.fecEpoch k).lanes = s.lanes := by
  have hcopy : (s.fecCopy k (s.pg k)).lanes = s.lanes := forAll_lanes (allFin 4) (fecCopyPort k (s.pg k)) (fun _ _ => rfl) s
  rw [fecEpoch_eq, when_]
  split
  · rw [raise_lanes]
    exact hcopy
  · exact hcopy

theorem raised_fecEpoch (s : State) (k p : Fin 4) (hthr : s.rd (K.PG_FEC_UNCORR_THR k) ≠ 0)
    (h : s.rd (K.PG_FEC_UNCORR_THR k) ≤ (s.pg k).epTx.get p ∨ s.rd (K.PG_FEC_UNCORR_THR k) ≤ (s.pg k).epRx.get p) :
    Raised (s.fecEpoch k) (Src.HOST_FEC_ALARM k) := by
  have hhit : s.fecHit k = true := by
    rw [fecHit, bne_iff_ne.mpr hthr, Bool.true_and, List.any_eq_true]
    exact ⟨p, List.mem_finRange p, by simpa using h⟩
  rw [fecEpoch_eq, hhit]
  exact raised_raise _ _ (show 4 < 16 by decide)

/-! ## The boundary (R110) -/

/-- The boundary before the slots are judged: the lanes' epochs, the host lanes' frequencies, the group's totals. -/
def epochCounted (s : State) (k : Fin 4) (freqs : List Nat) : State :=
  ((forAll (lanesOf k) (fun n z => z.epochLane n) s).hostFreqs k freqs).fecEpoch k

theorem txEpoch_of_locked {s : State} {k : Fin 4} (freqs : List Nat) (h : s.gbLock k = true) :
    s.txEpoch k freqs = forAll (lanesOf k) (fun n z => z.slotCheck n) (s.epochCounted k freqs) := by
  unfold txEpoch
  rw [h]
  rfl

theorem txEpoch_of_unlocked {s : State} {k : Fin 4} (freqs : List Nat) (h : s.gbLock k = false) : s.txEpoch k freqs = s := by
  unfold txEpoch
  rw [h]
  rfl

variable {s : State} {k : Fin 4} (freqs : List Nat)

theorem epochs_onlyLanes : OnlyLanes (lanesOf k) s (forAll (lanesOf k) (fun n z => z.epochLane n) s) :=
  .forAll (fun m z => epochLane_onlyLanes z m) _ s

/-- The lanes' records and entries are those that their epochs give. -/
theorem lane_epochCounted (n : Fin 16) :
    (s.epochCounted k freqs).lane n = (forAll (lanesOf k) (fun n z => z.epochLane n) s).lane n := by
  rw [epochCounted, lane, fecEpoch_lanes, (hostFreqs_records _ _ _).1, lane]

theorem rd_epochCounted (n : Fin 16) (o x : Nat) :
    (s.epochCounted k freqs).rd ⟨.line n, o, x⟩ = (forAll (lanesOf k) (fun n z => z.epochLane n) s).rd ⟨.line n, o, x⟩ := by
  rw [epochCounted, rd_fecEpoch_eq_fecCopy _ _ (by simp), rd_fecCopy_line, rd_hostFreqs _ _ _ (by simp) (by simp) (by simp)]

/-- What the boundary leaves of each lane of the group (R110, R263). -/
theorem lanes_txEpoch (h : s.gbLock k = true) (n : Fin 16) (hn : pgOf n = k) :
    (s.txEpoch k freqs).rd (K.LINE_ROW_TX n) = (s.rd (K.LINE_ROW_TX n) + 1) % 2 ^ 32 ∧
    ((s.txEpoch k freqs).lane n).lockTx = (s.txEpoch k freqs).frameLock n := by
  obtain ⟨e₁, e₂, y, hy1, hy2, hbefore, hafter⟩ :=
    lane_of_pass (f := fun n z => z.epochLane n) (fun m z => epochLane_onlyLanes z m) hn s
  obtain ⟨l₁, l₂, z, hz1, hz2, hjudge, hrest⟩ :=
    lane_of_pass (f := fun n z => z.slotCheck n) (fun m z => slotCheck_onlyLanes z m) hn (s.epochCounted k freqs)
  rw [txEpoch_of_locked freqs h]
  constructor
  · rw [hrest.rd_line hz2, rd_slotCheck _ _ (by simp) (by simp) (by simp), hjudge.rd_line hz1, rd_epochCounted, hafter.rd_line hy2,
      rowTx_epochLane, hbefore.rd_line hy1]
  · rw [hrest.others n hz2, lockTx_slotCheck, frameLock, frameLock, bit_of_rd (hrest.rd_line hz2 _ _),
      bit_of_rd (rd_slotCheck _ _ (by simp) (by simp) (by simp))]

theorem slots_onlyLanes (h : s.gbLock k = true) : OnlyLanes (lanesOf k) (s.epochCounted k freqs) (s.txEpoch k freqs) := by
  rw [txEpoch_of_locked freqs h]
  exact .forAll (fun m z => slotCheck_onlyLanes z m) _ _

/-- The lanes of other groups have no boundary there. -/
theorem others_txEpoch (h : s.gbLock k = true) (n : Fin 16) (hn : pgOf n ≠ k) :
    (s.txEpoch k freqs).lane n = s.lane n ∧ (s.txEpoch k freqs).rd (K.LINE_ROW_TX n) = s.rd (K.LINE_ROW_TX n) := by
  have hout : n ∉ lanesOf k := fun hin => hn ((mem_lanesOf k n).mp hin)
  have hslots := slots_onlyLanes freqs h
  exact ⟨by rw [hslots.others n hout, lane_epochCounted, epochs_onlyLanes.others n hout],
    by rw [hslots.rd_line hout, rd_epochCounted, epochs_onlyLanes.rd_line hout]⟩

/-- The group's totals of the epoch, and its alarm (R156). -/
theorem totals_txEpoch (h : s.gbLock k = true) (p : Fin 4) :
    (s.txEpoch k freqs).rd (K.FEC_UNCORR_EPOCH k p.val) = (s.pg k).epTx.get p % 2 ^ 32 ∧
    (s.txEpoch k freqs).rd (K.FEC_UNCORR_EPOCH_RX k p.val) = (s.pg k).epRx.get p % 2 ^ 32 ∧
    ((s.txEpoch k freqs).pg k).epTx.get p = 0 ∧ ((s.txEpoch k freqs).pg k).epRx.get p = 0 ∧
    (s.rd (K.PG_FEC_UNCORR_THR k) ≠ 0 →
      s.rd (K.PG_FEC_UNCORR_THR k) ≤ (s.pg k).epTx.get p ∨ s.rd (K.PG_FEC_UNCORR_THR k) ≤ (s.pg k).epRx.get p →
      Raised (s.txEpoch k freqs) (Src.HOST_FEC_ALARM k)) := by
  have hslots := slots_onlyLanes freqs h
  have hepochs := epochs_onlyLanes (s := s) (k := k)
  generalize hz : (forAll (lanesOf k) (fun n z => z.epochLane n) s).hostFreqs k freqs = z
  have hcounted : s.epochCounted k freqs = z.fecEpoch k := by rw [epochCounted, hz]
  have hpg : z.pg k = s.pg k := by rw [← hz, pg, (hostFreqs_records _ _ _).2, hepochs.pgs, pg]
  have hthr : z.rd (K.PG_FEC_UNCORR_THR k) = s.rd (K.PG_FEC_UNCORR_THR k) := by
    rw [← hz, rd_hostFreqs _ _ _ (by simp) (by simp) (by simp), hepochs.rd_pg]
  obtain ⟨htx, hrx⟩ := rd_fecCopy z k (z.pg k) p
  obtain ⟨hzeroTx, hzeroRx⟩ := pg_fecEpoch z k p
  rw [hcounted] at hslots
  rw [← hpg, ← hthr]
  refine ⟨?_, ?_, ?_, ?_, fun hne hhit => hslots.raised _ (show 4 < 16 by decide) (raised_fecEpoch z k p hne hhit)⟩
  · rw [hslots.rd_pg, rd_fecEpoch_eq_fecCopy _ _ (by simp), htx]
  · rw [hslots.rd_pg, rd_fecEpoch_eq_fecCopy _ _ (by simp), hrx]
  · rw [hslots.pg, hzeroTx]
  · rw [hslots.pg, hzeroRx]

end State

end Sys2Proof.Machine
end

section
/-!
SUPPORT. Marker fill of a host lane (R113, R114).
-/

namespace Sys2Proof.Machine

namespace State

variable {s : State} {m : Fin 32}

/-- The entry of a host lane's marker position on the line (Table 6-8). -/
def txMarkerKey (m : Fin 32) : Key :=
  if isB m then K.LAT_TX_MARKER_B (lineOfHost m) else K.LAT_TX_MARKER_A (lineOfHost m)

/-- It is an entry of 16 bits and not the lock status. -/
theorem txMarkerKey_facts (m : Fin 32) :
    bitsOf (txMarkerKey m) = 16 ∧ (txMarkerKey m).area ≠ none ∧ txMarkerKey m ≠ K.LINE_LOCK_STATUS (lineOfHost m) ∧
    txMarkerKey m ∉ [K.LAT_CAUSE (lineOfHost m), K.LAT_SEQ (lineOfHost m), K.LAT_EVENT_TIME (lineOfHost m), K.LAT_EVENT_COUNT (lineOfHost m)] := by
  unfold txMarkerKey
  split <;> exact ⟨rfl, by simp, by simp, by simp⟩

/-- FILL of the host lane in the lock status, and in its record. -/
theorem bit_setFill (s : State) (m : Fin 32) (b : Bool) :
    (s.setFill m b).bit (K.LINE_LOCK_STATUS (lineOfHost m)) (if isB m then 7 else 6) = b := by
  rw [setFill, bit_of_rd (modHost_rd _ _ _ _), bit_wrBit_lockStatus _ _ _ _ (by split <;> decide), if_pos rfl]

theorem host_setFill (s : State) (m : Fin 32) (b : Bool) :
    ((s.setFill m b).host m).filled = b ∧ ∀ p, p ≠ m → (s.setFill m b).host p = s.host p := by
  obtain ⟨hothers, -, -⟩ := modHost_frame (s.wrBit (K.LINE_LOCK_STATUS (lineOfHost m)) (if isB m then 7 else 6) b) m
    (fun h => { h with filled := b })
  exact ⟨by rw [setFill, host_modHost], hothers⟩

theorem rd_setFill (s : State) (b : Bool) {k : Key} (hk : k ≠ K.LINE_LOCK_STATUS (lineOfHost m)) : (s.setFill m b).rd k = s.rd k := by
  rw [setFill, modHost_rd, rd_wrBit_ne _ _ _ hk]

/-- Where the markers of a fill stand: as they stood, else at a position of the device's. -/
def fillPlaced (s : State) (m : Fin 32) : State :=
  if s.bit (txMarkerKey m) 15 then s else s.fresh.2.wr (txMarkerKey m) (0x8000 + s.fresh.1 % 2176)

theorem fillStart_of_lost (hlost : s.hostLost m = true) (hfill : (s.host m).filled = false) (hlock : s.gbLock (pgOfHost m) = true)
    (hformat : (isB m && s.is225 (lineOfHost m)) = false) : s.fillStart m = (s.fillPlaced m).setFill m true := by
  unfold fillStart
  rw [if_pos (by simp [hlost, hfill, hlock, hformat]), fillPlaced, apply_ite (fun z : State => z.setFill m true)]
  rfl

theorem fillStart_of_other (h : s.hostLost m = false ∨ (s.host m).filled = true ∨ s.gbLock (pgOfHost m) = false ∨
    (isB m && s.is225 (lineOfHost m)) = true) : s.fillStart m = s := by
  unfold fillStart
  refine if_neg ?_
  obtain h | h | h | h := h <;> simp [h]

theorem host_fillPlaced (s : State) (m p : Fin 32) : (s.fillPlaced m).host p = s.host p := by
  unfold fillPlaced
  split <;> rfl

theorem rd_fillPlaced_ne (s : State) {k : Key} (hk : k ≠ txMarkerKey m) : (s.fillPlaced m).rd k = s.rd k := by
  rw [fillPlaced, rd_ite, rd_wr_ne _ _ hk]
  exact ite_self _

/-- A fill's markers have a position. -/
theorem bit_fillPlaced (s : State) (m : Fin 32) : (s.fillPlaced m).bit (txMarkerKey m) 15 = true := by
  obtain ⟨hbits, -⟩ := txMarkerKey_facts m
  unfold fillPlaced
  split
  next h => exact h
  next =>
    have hsmall : s.fresh.1 % 2176 < 2 ^ 15 := Nat.lt_of_lt_of_le (Nat.mod_lt _ (by decide)) (by decide)
    have hmod : (0x8000 + s.fresh.1 % 2176) % 2 ^ 16 = 2 ^ 15 + s.fresh.1 % 2176 := Nat.mod_eq_of_lt (by omega)
    rw [bit, rd_wr_self, hbits, hmod, Nat.testBit_two_pow_add_eq, Nat.testBit_lt_two_pow hsmall]
    rfl

/-- What the start of a fill leaves (R113, R114). -/
theorem fillStart_spec (hlost : s.hostLost m = true) (hfill : (s.host m).filled = false) (hlock : s.gbLock (pgOfHost m) = true)
    (hformat : (isB m && s.is225 (lineOfHost m)) = false) :
    ((s.fillStart m).host m).filled = true ∧ (∀ p, p ≠ m → (s.fillStart m).host p = s.host p) ∧
    (s.fillStart m).bit (K.LINE_LOCK_STATUS (lineOfHost m)) (if isB m then 7 else 6) = true ∧
    (s.fillStart m).bit (txMarkerKey m) 15 = true ∧
    (s.bit (txMarkerKey m) 15 = true → (s.fillStart m).rd (txMarkerKey m) = s.rd (txMarkerKey m)) ∧
    Changes [K.LINE_LOCK_STATUS (lineOfHost m), txMarkerKey m] s (s.fillStart m) := by
  obtain ⟨-, -, hstatus, -⟩ := txMarkerKey_facts m
  rw [fillStart_of_lost hlost hfill hlock hformat]
  obtain ⟨hfilled, hothers⟩ := host_setFill (s.fillPlaced m) m true
  refine ⟨hfilled, fun p hp => (hothers p hp).trans (host_fillPlaced s m p), bit_setFill _ _ _, ?_, fun hstood => ?_, ?_⟩
  · rw [bit_of_rd (rd_setFill _ _ hstatus), bit_fillPlaced]
  · rw [rd_setFill _ _ hstatus, fillPlaced, if_pos hstood]
  · rw [changes_iff]
    intro k _ hk
    simp only [List.mem_cons, List.not_mem_nil, or_false, not_or] at hk
    rw [rd_setFill _ _ hk.1, rd_fillPlaced_ne _ hk.2]

/-- The lane's own markers return, without the report. -/
def fillEnded (s : State) (m : Fin 32) (p : Nat) : State := (s.setFill m false).wr (txMarkerKey m) (0x8000 + p % 4096)

theorem fillEnd_of_back (hlost : s.hostLost m = false) (hfill : (s.host m).filled = true) (p : Nat) (moved : Bool) :
    s.fillEnd m p moved =
      if moved then (s.fillEnded m p).latEvent (lineOfHost m) (causeMarker (isB m)) else s.fillEnded m p := by
  unfold fillEnd
  rw [if_pos (by simp [hlost, hfill])]
  rfl

theorem fillEnd_of_other (h : s.hostLost m = true ∨ (s.host m).filled = false) (p : Nat) (moved : Bool) : s.fillEnd m p moved = s := by
  unfold fillEnd
  refine if_neg ?_
  obtain h | h := h <;> simp [h]

/-- What the end of a fill leaves (R113, R114). -/
theorem fillEnd_spec (hlost : s.hostLost m = false) (hfill : (s.host m).filled = true) (p : BitVec 12) (moved : Bool) :
    ((s.fillEnd m p.toNat moved).host m).filled = false ∧ (∀ q, q ≠ m → (s.fillEnd m p.toNat moved).host q = s.host q) ∧
    (s.fillEnd m p.toNat moved).bit (K.LINE_LOCK_STATUS (lineOfHost m)) (if isB m then 7 else 6) = false ∧
    (s.fillEnd m p.toNat moved).rd (txMarkerKey m) = 0x8000 + p.toNat ∧
    (moved = true → s.clamped (laneUnit (lineOfHost m)) = false →
      LatencyReported (lineOfHost m) (causeMarker (isB m)) s (s.fillEnd m p.toNat moved)) := by
  obtain ⟨hbits, harea, hstatus, hreport⟩ := txMarkerKey_facts m
  obtain ⟨hfilled, hothers⟩ := host_setFill s m false
  have hhost : ∀ q, (s.fillEnd m p.toNat moved).host q = (s.setFill m false).host q := fun q => by
    rw [fillEnd_of_back hlost hfill]
    split
    · exact (latEvent_onlyLanes _ _ _).host q
    · rfl
  have hrd : ∀ k : Key, k.area ≠ none →
      k ∉ [K.LAT_CAUSE (lineOfHost m), K.LAT_SEQ (lineOfHost m), K.LAT_EVENT_TIME (lineOfHost m), K.LAT_EVENT_COUNT (lineOfHost m)] →
      (s.fillEnd m p.toNat moved).rd k = (s.fillEnded m p.toNat).rd k := fun k ha hk => by
    rw [fillEnd_of_back hlost hfill, rd_ite, rd_latEvent _ _ ha hk, ite_self]
  have hended : ∀ k : Key, k ≠ txMarkerKey m → k ≠ K.LINE_LOCK_STATUS (lineOfHost m) → (s.fillEnded m p.toNat).rd k = s.rd k :=
    fun k hkey hlock => by rw [fillEnded, rd_wr_ne _ _ hkey, rd_setFill _ _ hlock]
  refine ⟨by rw [hhost, hfilled], fun q hq => by rw [hhost, hothers q hq], ?_, ?_, fun hmoved hpower => ?_⟩
  · rw [bit_of_rd (hrd _ (by simp) (by simp)), fillEnded, bit_of_rd (rd_wr_ne _ _ hstatus.symm), bit_setFill]
  · have hp : p.toNat < 4096 := p.isLt
    rw [hrd _ harea hreport, fillEnded, rd_wr_self, hbits, Nat.mod_eq_of_lt hp, Nat.mod_eq_of_lt (by omega)]
  · have hpwr : K.PWR_STATE (laneUnit (lineOfHost m)) ≠ txMarkerKey m := by
      unfold txMarkerKey
      split <;> simp
    have hpowered : (s.fillEnded m p.toNat).clamped (laneUnit (lineOfHost m)) = false :=
      (clamped_of_rd (hended _ hpwr (by simp))).trans hpower
    rw [fillEnd_of_back hlost hfill, if_pos hmoved]
    exact (latencyReported_latEvent _ _ _ hpowered).of_before (hended _ (fun e => hreport (by simp [← e])) (by simp)) rfl rfl

end State

end Sys2Proof.Machine
end

section
/-!
SUPPORT. Gearbox lock (R146 to R148, R174, R204): what the entry to LOCKED sets in its group and reports on its lanes, and what the end of
a lock that is to be placed anew leaves as it was.
-/

namespace Sys2Proof.Machine

/-- What the entry to LOCKED makes of a state: the group's machine, its entries, and the report on each of its lanes. -/
def GearboxEntered (k : Fin 4) (blocks : Nat) (s t : State) : Prop :=
  (t.pg k).gb = .locked ∧ (t.pg k).lostLock = false ∧ (t.pg k).relockFmt = false ∧ (∀ g, g ≠ k → t.pg g = s.pg g) ∧
  t.gbLock k = true ∧ (t.pg k).code0 = false ∧ (t.pg k).lockedAt = s.now ∧
  t.rd (K.PG_XPHASE k) = 2 ∧ CountsUp s t (K.PG_GB_LOCKS k) 1 ∧ Raised t (Src.GEARBOX_EVENT k) ∧
  (∀ n, pgOf n = k → t.rd (K.LINE_ROW_TX n) = 0 ∧
    t.rd (K.LAT_EPOCH_SHORT n) = (if (s.pg k).lostLock || (s.pg k).relockFmt then blocks else 0) ∧
    (s.clamped (laneUnit n) = false → LatencyReported n (if (s.pg k).relockFmt then (if (s.pg k).lostLock then 0x81 else 0x80)
      else if (s.lane n).cfgPend then 0x81 else 1) s t) ∧ (t.lane n).cfgPend = false) ∧
  ∀ n, pgOf n ≠ k → t.lane n = s.lane n

/-- What of a group's lanes a change of its gearbox leaves alone: all that a latency report joins, and all of other lanes' records. -/
structure LanesKept (k : Fin 4) (s t : State) : Prop where
  others : ∀ n, pgOf n ≠ k → t.lane n = s.lane n
  latAt : ∀ n, (t.lane n).latAt = (s.lane n).latAt
  cfgPend : ∀ n, (t.lane n).cfgPend = (s.lane n).cfgPend
  cause : ∀ n, t.rd (K.LAT_CAUSE n) = s.rd (K.LAT_CAUSE n)
  power : ∀ u, t.rd (K.PWR_STATE u) = s.rd (K.PWR_STATE u)
  now : t.now = s.now

theorem LanesKept.refl (k : Fin 4) (s : State) : LanesKept k s s :=
  ⟨fun _ _ => rfl, fun _ => rfl, fun _ => rfl, fun _ => rfl, fun _ => rfl, rfl⟩

theorem LanesKept.trans {k : Fin 4} {a s t : State} (h1 : LanesKept k a s) (h2 : LanesKept k s t) : LanesKept k a t :=
  ⟨fun n hn => (h2.others n hn).trans (h1.others n hn), fun n => (h2.latAt n).trans (h1.latAt n),
    fun n => (h2.cfgPend n).trans (h1.cfgPend n), fun n => (h2.cause n).trans (h1.cause n), fun u => (h2.power u).trans (h1.power u),
    h2.now.trans h1.now⟩

/-- A change of other records and entries. -/
theorem LanesKept.of_lanes {k : Fin 4} {s t : State} (hl : t.lanes = s.lanes) (hn : t.now = s.now)
    (hc : ∀ n, t.rd (K.LAT_CAUSE n) = s.rd (K.LAT_CAUSE n)) (hp : ∀ u, t.rd (K.PWR_STATE u) = s.rd (K.PWR_STATE u)) : LanesKept k s t := by
  have hlane : ∀ n, t.lane n = s.lane n := fun n => by rw [State.lane, State.lane, hl]
  exact ⟨fun n _ => hlane n, fun n => by rw [hlane], fun n => by rw [hlane], hc, hp, hn⟩

theorem LanesKept.wr {k : Fin 4} (s : State) {x : Key} (v : Nat) (hc : ∀ n, K.LAT_CAUSE n ≠ x) (hp : ∀ u, K.PWR_STATE u ≠ x) :
    LanesKept k s (s.wr x v) :=
  .of_lanes rfl rfl (fun n => State.rd_wr_ne s v (hc n)) fun u => State.rd_wr_ne s v (hp u)

theorem LanesKept.modPg {k : Fin 4} (s : State) (g : Fin 4) (f : PgS → PgS) : LanesKept k s (s.modPg g f) :=
  .of_lanes rfl rfl (fun _ => rfl) fun _ => rfl

theorem LanesKept.forAll {α : Type} {k : Fin 4} {f : α → State → State} {l : List α} (h : ∀ a ∈ l, ∀ z, LanesKept k z (f a z))
    (s : State) : LanesKept k s (forAll l f s) := by
  induction l generalizing s with
  | nil => exact .refl k s
  | cons a l ih => exact (h a List.mem_cons_self s).trans (ih (fun b hb => h b (List.mem_cons_of_mem a hb)) (f a s))

namespace State

variable (s : State) (k : Fin 4)

/-! ## GB_LOCK and XPHASE (R127, R146) -/

theorem injRebase_onlyLanes (n : Fin 16) : OnlyLanes [n] s (s.injRebase n) := (injFollow_onlyLanes s n).trans (.modLane _ n _)

theorem rd_injRebase {n : Fin 16} {x : Key} (hx : x ≠ K.LINE_FEC_INJ_COUNT n) : (s.injRebase n).rd x = s.rd x := by
  unfold injRebase injFollow
  dsimp only
  rw [modLane_rd, modLane_rd, rd_addSat, if_neg hx]

theorem injRebase_lanesKept {n : Fin 16} (hn : pgOf n = k) : LanesKept k s (s.injRebase n) := by
  have hlane : ∃ inj, (s.injRebase n).lane n = { s.lane n with inj := inj } := by
    have hcount : ∀ (x : Key) (v : Nat), (s.addSat x v).lane n = s.lane n := fun _ _ => rfl
    unfold injRebase injFollow
    dsimp only
    rw [lane_modLane, lane_modLane, hcount]
    exact ⟨_, rfl⟩
  obtain ⟨inj, hinj⟩ := hlane
  have honly := injRebase_onlyLanes s n
  have hrecord : ∀ m, ((s.injRebase n).lane m).latAt = (s.lane m).latAt ∧ ((s.injRebase n).lane m).cfgPend = (s.lane m).cfgPend := fun m => by
    by_cases hm : m = n
    · rw [hm, hinj]
      exact ⟨rfl, rfl⟩
    · rw [honly.others m (by simpa using hm)]
      exact ⟨rfl, rfl⟩
  exact ⟨fun m hm => honly.others m (by rintro h; exact hm (List.mem_singleton.mp h ▸ hn)), fun m => (hrecord m).1, fun m => (hrecord m).2,
    fun m => rd_injRebase s (by simp), fun u => rd_injRebase s (by simp), honly.now⟩

theorem rd_gbShow (b : Bool) {x : Key} (hx : ∀ n, x ≠ K.LINE_FEC_INJ_COUNT n) : (s.gbShow k b).rd x =
    if x = K.PG_XPHASE k then (if b then 2 else 0xFF) % 2 ^ bitsOf (K.PG_XPHASE k)
    else (s.wrBit (K.PG_GB_STATUS k) 0 b).rd x := by
  have hrebase : ∀ y : Key, (∀ n, y ≠ K.LINE_FEC_INJ_COUNT n) → ∀ z : State,
      (forAll (lanesOf k) (fun n z => z.injRebase n) z).rd y = z.rd y := fun y hy =>
    rd_forAll_of_keep (fun n z => rd_injRebase z (hy n)) _
  rw [gbShow, rd_wr, rd_wrBit, rd_wrBit, hrebase _ hx, hrebase _ (by simp)]

theorem gbShow_lanesKept (b : Bool) : LanesKept k s (s.gbShow k b) := by
  have hrebase : LanesKept k s (forAll (lanesOf k) (fun n z => z.injRebase n) s) :=
    .forAll (fun n hn z => injRebase_lanesKept z k ((mem_lanesOf k n).mp hn)) s
  exact (hrebase.trans (.wr _ _ (by simp) (by simp))).trans (.wr _ _ (by simp) (by simp))

theorem gbShow_pgs (b : Bool) : (s.gbShow k b).pgs = s.pgs := by
  rw [gbShow, wr_pgs, wrBit_pgs]
  exact forAll_keep (fun z => z.pgs) (fun n _ z => (injRebase_onlyLanes z n).pgs) s

/-- GB_LOCK shows the lock, XPHASE its phase. -/
theorem bit_gbShow (b : Bool) : (s.gbShow k b).gbLock k = b := by
  have hbits : bitsOf (K.PG_GB_STATUS k) = 16 := rfl
  rw [gbLock, bit_of_rd ((rd_gbShow s k b (by simp)).trans (if_neg (by simp))), bit_wrBit, if_pos rfl, if_pos rfl, hbits]
  rfl

/-! ## The end of a lock (R111) -/

/-- A lock that ends keeps what its group waits for, and its count of locks. -/
theorem gbUnlock_lanesKept : LanesKept k s (s.gbUnlock k) := by
  have hrelock : ∀ z : State, LanesKept k z (z.wrBit (K.PG_GB_STATUS k) 2 true) := fun z => .wr z _ (by simp) (by simp)
  have hrow : ∀ (n : Fin 16) (z : State), LanesKept k z (z.incWrap (K.LINE_ROW_TX n)) := fun n z => .wr z _ (by simp) (by simp)
  exact (((gbShow_lanesKept s k false).trans (hrelock _)).trans (.modPg _ k _)).trans (.forAll (fun n _ z => hrow n z) _)

theorem pg_gbUnlock : ((s.gbUnlock k).pg k).lostLock = (s.pg k).lostLock ∧ ((s.gbUnlock k).pg k).relockFmt = (s.pg k).relockFmt ∧
    ∀ g, g ≠ k → (s.gbUnlock k).pg g = s.pg g := by
  have hrows := forAll_keep (fun z : State => z.pgs) (l := lanesOf k) (f := fun n z => z.incWrap (K.LINE_ROW_TX n)) (fun _ _ _ => rfl)
    (((s.gbShow k false).wrBit (K.PG_GB_STATUS k) 2 true).modPg k fun g => { g with gb := .wait, code0 := true })
  have hpg : ∀ g, (s.gbUnlock k).pg g =
      if g = k then { s.pg k with gb := .wait, code0 := true } else s.pg g := fun g => by
    rw [pg, gbUnlock, hrows, modPg, get_setVec]
    have hshow := gbShow_pgs s k false
    rw [wrBit_pgs, hshow]
    rfl
  exact ⟨by rw [hpg, if_pos rfl], by rw [hpg, if_pos rfl], fun g hg => by rw [hpg, if_neg hg]⟩

theorem locks_gbUnlock : (s.gbUnlock k).rd (K.PG_GB_LOCKS k) = s.rd (K.PG_GB_LOCKS k) := by
  rw [gbUnlock, rd_forAll_of_keep fun n z => (rd_incWrap z _ _).trans (if_neg (by simp)), modPg_rd, rd_wrBit_ne _ _ _ (by simp),
    rd_gbShow s k false (by simp), if_neg (by simp), rd_wrBit_ne _ _ _ (by simp)]

/-! ## Entry to LOCKED (Table 5-2) -/

/-- A host lane's part: a capture whose slip fell in the relock is fixed again (R148). -/
def enterHost (m : Fin 32) (z : State) : State :=
  if (z.host m).slipDue then (z.recapture m).modHost m fun h => { h with slipDue := false } else z

/-- The causes that a lane's report names: what the lock ended, and a CONFIG change that waited for it. -/
def enterCause (g : PgS) (z : State) (n : Fin 16) : Nat :=
  if g.relockFmt then causeConfig + (if g.lostLock then causeRelock else 0) else causeRelock + z.cfgCause n

/-- A line lane's row 0, before the report. -/
def enterRow (short : Nat) (n : Fin 16) (z : State) : State :=
  (((z.wr (K.LINE_ROW_TX n) 0).wr (K.LAT_EPOCH_SHORT n) short).modLane n fun l =>
    { l with cfgPend := false, xfer := { l.xfer with dep := [], last := none, rows := 0 } }).epochLatency n

/-- A line lane's part: row 0, and the report. -/
def enterLane (g : PgS) (short : Nat) (n : Fin 16) (z : State) : State := (enterRow short n z).latEvent n (enterCause g z n)

/-- The blocks of the epoch that a relock shortened, reported in 18 bits (Table 6-9). -/
def enterShort (s : State) (k : Fin 4) (blocks : Nat) : Nat :=
  if (s.pg k).lostLock || (s.pg k).relockFmt then blocks % 2 ^ 18 else 0

/-- The group's machine in LOCKED, its lock counted. -/
def enterGroup (s : State) (k : Fin 4) : State :=
  ((s.gbShow k true).modPg k fun g =>
    { g with gb := .locked, lostLock := false, relockFmt := false, code0 := false, lockedAt := s.now, grid := s.gridFormat k }).incSat
    (K.PG_GB_LOCKS k)

/-- The group's part of the entry: its machine, its event, its captures. -/
def enterPart (s : State) (k : Fin 4) : State := forAll (hostsOf k) enterHost ((s.enterGroup k).raise (Src.GEARBOX_EVENT k))

theorem gbEnter_eq (blocks : Nat) : s.gbEnter k blocks = forAll (lanesOf k) (enterLane (s.pg k) (s.enterShort k blocks)) (s.enterPart k) := rfl

/-- A capture fixed again is the host lane's own. -/
theorem rd_enterHost (m : Fin 32) (z : State) {x : Key} (hhost : x.blk ≠ .host m) (hslip : ∀ n, x ≠ K.LAT_TX_SLIP_A n ∧ x ≠ K.LAT_TX_SLIP_B n) :
    (enterHost m z).rd x = z.rd x := by
  have hkey : x ≠ if isB m then K.LAT_TX_SLIP_B (lineOfHost m) else K.LAT_TX_SLIP_A (lineOfHost m) := by
    split
    · exact (hslip _).2
    · exact (hslip _).1
  have hfraction : x ≠ K.HOST_RX_CAPTURE_FRAC m := fun e => hhost (by rw [e])
  have hfree : z.fresh.2.rd x = z.rd x := rfl
  unfold enterHost recapture capture
  dsimp only
  rw [rd_ite, modHost_rd, rd_wr_ne _ _ hkey, rd_wrI, if_neg hfraction, modHost_rd, hfree, ite_self]

theorem enterHost_lanesKept (m : Fin 32) (z : State) : LanesKept k z (enterHost m z) := by
  refine .of_lanes ?_ ?_ (fun n => rd_enterHost m z (by simp) (by simp)) fun u => rd_enterHost m z (by simp) (by simp)
  all_goals
    unfold enterHost
    split <;> rfl

theorem enterHost_pgs (m : Fin 32) (z : State) : (enterHost m z).pgs = z.pgs := by
  unfold enterHost
  split <;> rfl

theorem enterPart_lanesKept : LanesKept k s (s.enterPart k) := by
  have hcount : ∀ z : State, LanesKept k z (z.incSat (K.PG_GB_LOCKS k)) := fun z => .wr z _ (by simp) (by simp)
  have hevent : ∀ z : State, LanesKept k z (z.raise (Src.GEARBOX_EVENT k)) := fun z =>
    .of_lanes (raise_lanes _ _) (raise_now _ _) (fun n => rd_raise_area _ _ _ (by simp)) fun u => rd_raise_area _ _ _ (by
      rw [area_pwr, if_neg (by omega)]
      simp)
  exact ((((gbShow_lanesKept s k true).trans (.modPg _ k _)).trans (hcount _)).trans (hevent _)).trans
    (.forAll (fun m _ z => enterHost_lanesKept k m z) _)

/-- An entry of the group after its part. -/
theorem rd_enterPart (o x : Nat) : (s.enterPart k).rd ⟨.pg k, o, x⟩ = (s.enterGroup k).rd ⟨.pg k, o, x⟩ := by
  rw [enterPart, rd_forAll_of_keep fun m z => rd_enterHost m z (by simp) (by simp), rd_raise_area _ _ _ (by simp)]

theorem pg_enterPart (g : Fin 4) : (s.enterPart k).pg g = if g = k then
    { s.pg k with gb := .locked, lostLock := false, relockFmt := false, code0 := false, lockedAt := s.now, grid := s.gridFormat k }
    else s.pg g := by
  have hhosts : (s.enterPart k).pgs = (s.enterGroup k).pgs :=
    (forAll_keep (fun z => z.pgs) (fun m _ z => enterHost_pgs m z) _).trans (raise_pgs _ _)
  rw [pg, hhosts, enterGroup, incSat_pgs, modPg, get_setVec, gbShow_pgs]
  rfl

theorem raised_enterPart : Raised (s.enterPart k) (Src.GEARBOX_EVENT k) := by
  have hcause : ∀ z : State, (forAll (hostsOf k) enterHost z).rd (K.IRQ_CAUSE (Src.GEARBOX_EVENT k).g) =
      z.rd (K.IRQ_CAUSE (Src.GEARBOX_EVENT k).g) := rd_forAll_of_keep (fun m z => rd_enterHost m z (by simp) (by simp)) _
  exact raised_of_rd (hcause _) (raised_raise _ _ (show 3 < 16 by decide))

theorem enterRow_onlyLanes (short : Nat) (n : Fin 16) (z : State) : OnlyLanes [n] z (enterRow short n z) :=
  (((OnlyLanes.wr z n _ _ _).trans (.wr _ n _ _ _)).trans (.modLane _ n _)).trans (epochLatency_onlyLanes _ n)

theorem enterLane_onlyLanes (g : PgS) (short : Nat) (n : Fin 16) (z : State) : OnlyLanes [n] z (enterLane g short n z) :=
  (enterRow_onlyLanes short n z).trans (latEvent_onlyLanes _ n _)

/-- What the lane's part makes of the lane. -/
theorem enterLane_spec (g : PgS) (short : Nat) (n : Fin 16) (z : State) :
    (enterLane g short n z).rd (K.LINE_ROW_TX n) = 0 ∧ (enterLane g short n z).rd (K.LAT_EPOCH_SHORT n) = short % 2 ^ 32 ∧
    (z.clamped (laneUnit n) = false → LatencyReported n (enterCause g z n) z (enterLane g short n z)) ∧
    ((enterLane g short n z).lane n).cfgPend = false := by
  have hbits : bitsOf (K.LAT_EPOCH_SHORT n) = 32 := rfl
  obtain ⟨hlatAt, hpend⟩ := lane_epochLatency (((z.wr (K.LINE_ROW_TX n) 0).wr (K.LAT_EPOCH_SHORT n) short).modLane n fun l =>
    { l with cfgPend := false, xfer := { l.xfer with dep := [], last := none, rows := 0 } }) n
  have hrow := enterRow_onlyLanes short n z
  refine ⟨?_, ?_, fun hpower => ?_, ?_⟩
  · rw [enterLane, rd_latEvent _ _ (by simp) (by simp), enterRow, rd_epochLatency _ _ (by simp) (by simp) (by simp), modLane_rd,
      rd_wr_ne _ _ (by simp), rd_wr_self, Nat.zero_mod]
  · rw [enterLane, rd_latEvent _ _ (by simp) (by simp), enterRow, rd_epochLatency _ _ (by simp) (by simp) (by simp), modLane_rd, rd_wr_self,
      hbits]
  · refine (latencyReported_latEvent _ n _ ((hrow.clamped _).trans hpower)).of_before ?_ ?_ hrow.now
    · rw [enterRow, rd_epochLatency _ _ (by simp) (by simp) (by simp), modLane_rd, rd_wr_ne _ _ (by simp), rd_wr_ne _ _ (by simp)]
    · rw [enterRow, hlatAt, lane_modLane, lane_wr, lane_wr]
  · rw [enterLane, cfgPend_latEvent, enterRow, hpend, lane_modLane]

/-- The causes as the report names them. -/
theorem enterCause_eq (g : PgS) (z : State) (n : Fin 16) : enterCause g z n =
    if g.relockFmt then (if g.lostLock then 0x81 else 0x80) else if (z.lane n).cfgPend then 0x81 else 1 := by
  unfold enterCause cfgCause
  cases g.relockFmt <;> cases g.lostLock <;> cases (z.lane n).cfgPend <;> rfl

/-- The entry to LOCKED (R146 to R148, R174). -/
theorem gbEnter_entered (blocks : BitVec 18) : GearboxEntered k blocks.toNat s (s.gbEnter k blocks.toNat) := by
  have hkept := enterPart_lanesKept s k
  have hlanes := OnlyLanes.forAll (enterLane_onlyLanes (s.pg k) (s.enterShort k blocks.toNat)) (lanesOf k) (s.enterPart k)
  rw [← gbEnter_eq] at hlanes
  have hpg : ∀ g, (s.gbEnter k blocks.toNat).pg g = _ := fun g => (hlanes.pg g).trans (pg_enterPart s k g)
  have hrd : ∀ o x, (s.gbEnter k blocks.toNat).rd ⟨.pg k, o, x⟩ = (s.enterGroup k).rd ⟨.pg k, o, x⟩ := fun o x =>
    (hlanes.rd_pg k o x).trans (rd_enterPart s k o x)
  have hshow : ∀ x : Key, x ≠ K.PG_GB_LOCKS k → (s.enterGroup k).rd x = (s.gbShow k true).rd x := fun x hx => by
    rw [enterGroup, rd_incSat, if_neg hx, modPg_rd]
  refine ⟨by rw [hpg, if_pos rfl], by rw [hpg, if_pos rfl], by rw [hpg, if_pos rfl], fun g hg => by rw [hpg, if_neg hg], ?_,
    by rw [hpg, if_pos rfl], by rw [hpg, if_pos rfl], ?_, ?_, hlanes.raised _ (show 3 < 16 by decide) (raised_enterPart s k),
    fun n hn => ?_, fun n hn => ?_⟩
  · have hlock : (s.gbEnter k blocks.toNat).gbLock k = (s.gbShow k true).gbLock k := bit_of_rd ((hrd _ _).trans (hshow _ (by simp))) 0
    rw [hlock, bit_gbShow]
  · have hbits : bitsOf (K.PG_XPHASE k) = 8 := rfl
    rw [hrd, hshow _ (by simp), rd_gbShow _ _ _ (by simp), if_pos rfl, hbits]
    rfl
  · rw [CountsUp, hrd, enterGroup, rd_incSat, if_pos rfl, modPg_rd, rd_gbShow _ _ _ (by simp), if_neg (by simp), rd_wrBit_ne _ _ _ (by simp)]
  · obtain ⟨l₁, l₂, z, h1, h2, hbefore, hafter⟩ :=
      lane_of_pass (enterLane_onlyLanes (s.pg k) (s.enterShort k blocks.toNat)) hn (s.enterPart k)
    rw [← gbEnter_eq] at hafter
    obtain ⟨hrow, hshort, hreport, hpend⟩ := enterLane_spec (s.pg k) (s.enterShort k blocks.toNat) n z
    refine ⟨by rw [hafter.rd_line h2, hrow], ?_, fun hpower => ?_, by rw [hafter.others n h2, hpend]⟩
    · have hblocks : blocks.toNat < 2 ^ 18 := blocks.isLt
      rw [hafter.rd_line h2, hshort, enterShort, Nat.mod_eq_of_lt hblocks]
      split
      · exact Nat.mod_eq_of_lt (by omega)
      · rfl
    · have hpowered : z.clamped (laneUnit n) = false := (hbefore.clamped _).trans ((clamped_of_rd (hkept.power _)).trans hpower)
      have hlane : z.lane n = (s.enterPart k).lane n := hbefore.others n h1
      have hcause := (enterCause_eq (s.pg k) z n).symm
      rw [hlane, hkept.cfgPend n] at hcause
      rw [hcause]
      refine ((hreport hpowered).of_before ((hbefore.rd_line h1 _ _).trans (hkept.cause n)) ?_ (hbefore.now.trans hkept.now)).of_after h2 hafter
      rw [hlane, hkept.latAt]
  · rw [hlanes.others n fun hin => hn ((mem_lanesOf k n).mp hin), hkept.others n hn]

/-- A lock that is ended to be placed anew is entered as from the state before (R204). -/
theorem gbEnter_gbUnlock_entered (blocks : BitVec 18) : GearboxEntered k blocks.toNat s ((s.gbUnlock k).gbEnter k blocks.toNat) := by
  have hkept := gbUnlock_lanesKept s k
  obtain ⟨hlost, hformat, hgroups⟩ := pg_gbUnlock s k
  obtain ⟨hgb, hlostAfter, hfmtAfter, hothers, hlock, hcode, hat, hphase, hcount, hevent, hlanes, hrest⟩ :=
    gbEnter_entered (s.gbUnlock k) k blocks
  refine ⟨hgb, hlostAfter, hfmtAfter, fun g hg => (hothers g hg).trans (hgroups g hg), hlock, hcode, hat.trans hkept.now, hphase, ?_, hevent,
    fun n hn => ?_, fun n hn => (hrest n hn).trans (hkept.others n hn)⟩
  · rw [CountsUp, ← locks_gbUnlock s k]
    exact hcount
  · obtain ⟨hrow, hshort, hreport, hpend⟩ := hlanes n hn
    rw [hlost, hformat] at hshort
    rw [hlost, hformat, hkept.cfgPend n, clamped_of_rd (hkept.power _)] at hreport
    exact ⟨hrow, hshort, fun hpower => (hreport hpower).of_before (hkept.cause n) (hkept.latAt n) hkept.now, hpend⟩

/-! ## GEARBOX_LOCK -/

variable {s : State} {k : Fin 4} {blocks : BitVec 18}

/-- With the clocks locked, a group that waits is locked, and one whose grid is to be placed anew is locked again. -/
theorem runs_gearboxLock (hclocks : s.clocksOk = true) (hgb : (s.pg k).gb = .wait ∨ (s.pg k).gb = .locked ∧ (s.pg k).relockFmt = true) :
    Runs (.gearboxLock k blocks) s (GearboxEntered k blocks.toNat s) := by
  obtain hwait | ⟨hlocked, hformat⟩ := hgb
  · refine ⟨s.gbEnter k blocks.toNat, ?_, gbEnter_entered s k blocks⟩
    rw [exec_gearboxLock, execGearboxLock, hclocks, if_neg (by simp), if_pos hwait]
  · refine ⟨(s.gbUnlock k).gbEnter k blocks.toNat, ?_, gbEnter_gbUnlock_entered s k blocks⟩
    rw [exec_gearboxLock, execGearboxLock, hclocks, if_neg (by simp), if_neg (by simp [hlocked]), if_pos (by simp [hlocked, hformat])]

/-- Without them, in OFF, and in LOCKED on its grid, nothing happens. -/
theorem exec_gearboxLock_idle (h : s.clocksOk = false ∨ (s.pg k).gb = .off ∨ (s.pg k).gb = .locked ∧ (s.pg k).relockFmt = false) :
    exec (.gearboxLock k blocks) s = .next s := by
  rw [exec_gearboxLock, execGearboxLock]
  obtain hclocks | hoff | ⟨hlocked, hformat⟩ := h
  · rw [if_pos (by simp [hclocks])]
  · simp [hoff]
  · simp [hlocked, hformat]

end State

open State in
/-- Settles O23: the boundary of a group is one pass over its lanes' epochs and one over their slots, a fill is its lane's own, and the entry
to LOCKED is the group's part and then each lane's. -/
theorem linkAndGearbox : Obligations.LinkAndGearbox := by
  unfold Obligations.LinkAndGearbox
  refine ⟨?_, ?_, ?_, ?_, ?_, ?_, ?_, ?_⟩
  · intro s k freqs hlock
    exact ⟨_, rfl, lanes_txEpoch _ hlock, others_txEpoch _ hlock, totals_txEpoch _ hlock⟩
  · intro s k freqs hlock
    exact ⟨_, rfl, txEpoch_of_unlocked _ hlock⟩
  · rintro s m key rfl hlost hfill hlock hformat
    exact ⟨_, rfl, s.fillStart m, rfl, fillStart_spec hlost hfill hlock hformat⟩
  · intro s m h
    exact ⟨_, rfl, coFollow_congr (fillStart_of_other h)⟩
  · intro s m p moved hlost hfill
    exact ⟨_, rfl, s.fillEnd m p.toNat moved, rfl, fillEnd_spec hlost hfill p moved⟩
  · intro s m p moved h
    exact ⟨_, rfl, coFollow_congr (fillEnd_of_other h _ _)⟩
  · intro s k blocks hclocks hgb
    exact runs_gearboxLock hclocks hgb
  · intro s k blocks h
    exact ⟨s, exec_gearboxLock_idle h, rfl⟩

end Sys2Proof.Machine
end

section
/-!
SUPPORT. `PRBS_INJECT` with ONCE (R158): the injection counts from the write, and the record of the place keeps the cc at which the one
error was injected.
-/

namespace Sys2Proof.Machine

namespace State

/-! ## The injection of a place -/

theorem prbsInj_setPrbsInj (s : State) (a : PrbsAt) (i : InjS) : (s.setPrbsInj a i).prbsInj a = i := by
  cases a with
  | host m => simp [prbsInj, setPrbsInj]
  | line n => simp [prbsInj, setPrbsInj]
  | port p => simp [prbsInj, setPrbsInj, get_setVec]

theorem prbsInj_incSat (s : State) (k : Key) (a : PrbsAt) : (s.incSat k).prbsInj a = s.prbsInj a := by
  cases a <;> rfl

/-- A write of `PRBS_INJECT` starts the count anew; an error injected into a pattern being sent is noted with its cc. -/
theorem prbsInj_effPrbsInject (s : State) (a : PrbsAt) (v : Nat) : (effPrbsInject a v s).prbsInj a =
    { start := s.now, onceAt := if v.testBit 31 && s.prbsSends a then some s.now else none } := by
  unfold effPrbsInject
  dsimp only
  split
  · rw [prbsInj_incSat, prbsInj_setPrbsInj]
  · rw [prbsInj_setPrbsInj]

theorem prbsInj_write_host {s : State} {r : Fin 18} {k : Key} {data : List Byte} (eff : State → State)
    (h : s.accepts r k data = true) (m : Fin 32) :
    (s.write r k data eff).prbsInj (.host m) = (eff (s.admitted r k data)).prbsInj (.host m) :=
  congrArg HostS.pinj (write_host s eff h m)

/-- Counting a request leaves a host lane's generator sending as it was. -/
theorem prbsSends_admitted_host (s : State) (r : Fin 18) (k : Key) (data : List Byte) (m : Fin 32) :
    (s.admitted r k data).prbsSends (.host m) = s.prbsSends (.host m) :=
  bit_of_rd (rd_admitted _ _ _ _ _ (by simp [prbsGen])) 0

end State

/-! ## A host lane that sends a pattern -/

/-- The device in service, the generator of H0 enabled and in place since a period boundary (R160). -/
def hostGeneratorOn : State :=
  match core.run 2 { lockedAndServing with pending := [.prbsGenCfgWrite 16 (.host 0) 1, .hostPeriodBoundary 0 []] } with
  | .next t => t
  | _ => State.reset

set_option maxRecDepth 4000 in
theorem hostGeneratorOn_reads : hostGeneratorOn.prbsSends (.host 0) = true ∧
    hostGeneratorOn.accepts 16 (prbsGen (.host 0) 2) (be 4 (0x80000000#32).toNat) = true := by
  decide

/-- Refutes O26: the clause on `PRBS_INJECT` asks that the write leave an injection without a noted error. ONCE into the pattern that H0
sends notes the cc of its error, by which the bit inverted is found (R158). -/
theorem not_patternTests : ¬ Obligations.PatternTests := by
  unfold Obligations.PatternTests
  rintro ⟨-, -, -, -, hinject, -⟩
  obtain ⟨hsends, hacc⟩ := hostGeneratorOn_reads
  obtain ⟨t, hrun, -, hinj, -⟩ := hinject hostGeneratorOn 16 (.host 0) 0x80000000#32 hacc
  obtain rfl : hostGeneratorOn.write 16 (prbsGen (.host 0) 2) (be 4 (0x80000000#32).toNat) (effPrbsInject (.host 0) (0x80000000#32).toNat) = t :=
    Host.Outcome.next.inj hrun
  have honce : (0x80000000#32).toNat.testBit 31 = true := by decide
  rw [State.prbsInj_write_host _ hacc, State.prbsInj_effPrbsInject, State.prbsSends_admitted_host, hsends, honce] at hinj
  exact Option.some_ne_none _ (congrArg InjS.onceAt hinj)

end Sys2Proof.Machine
end

section
/-!
SUPPORT. Changes of some host lanes: which host lanes' records and which entries such a change may alter, what a pass over the host lanes of
a port group does to each of them, and the bits of a receiver's status.
-/

namespace Sys2Proof.Machine

theorem Changes.mono {ks ks' : List Key} {s t : State} (h : Changes ks s t) (hks : ∀ k ∈ ks, k ∈ ks') : Changes ks' s t := by
  rw [changes_iff] at h ⊢
  exact fun k ha hk => h k ha fun hin => hk (hks k hin)

/-- A change of the host lanes in `l` and of the entries `ks`: the other host lanes' records, the records of line lanes and port groups, the
dictionary's own record and the time stand, and so does what has been raised. -/
structure OnlyHosts (l : List (Fin 32)) (ks : List Key) (s t : State) : Prop where
  others : ∀ p, p ∉ l → t.host p = s.host p
  changes : Changes ks s t
  lanes : t.lanes = s.lanes
  pgs : t.pgs = s.pgs
  od : t.od = s.od
  now : t.now = s.now
  raised : ∀ x, x.b < 16 → Raised s x → Raised t x

namespace OnlyHosts

variable {l : List (Fin 32)} {ks : List Key} {m : Fin 32} {a s t : State}

theorem refl (l : List (Fin 32)) (ks : List Key) (s : State) : OnlyHosts l ks s s :=
  ⟨fun _ _ => rfl, fun _ _ => rfl, rfl, rfl, rfl, rfl, fun _ _ h => h⟩

theorem trans (h1 : OnlyHosts l ks a s) (h2 : OnlyHosts l ks s t) : OnlyHosts l ks a t where
  others p hp := (h2.others p hp).trans (h1.others p hp)
  changes := h1.changes.trans h2.changes
  lanes := h2.lanes.trans h1.lanes
  pgs := h2.pgs.trans h1.pgs
  od := h2.od.trans h1.od
  now := h2.now.trans h1.now
  raised x hx h := h2.raised x hx (h1.raised x hx h)

theorem mono {l' : List (Fin 32)} {ks' : List Key} (h : OnlyHosts l ks s t) (hl : ∀ p ∈ l, p ∈ l') (hks : ∀ k ∈ ks, k ∈ ks') :
    OnlyHosts l' ks' s t :=
  ⟨fun p hp => h.others p fun hin => hp (hl p hin), h.changes.mono hks, h.lanes, h.pgs, h.od, h.now, h.raised⟩

theorem ite {b : State} (c : Prop) [Decidable c] (ha : OnlyHosts l ks s a) (hb : OnlyHosts l ks s b) :
    OnlyHosts l ks s (if c then a else b) := by
  split
  · exact ha
  · exact hb

/-- An entry outside the list. -/
theorem rd (h : OnlyHosts l ks s t) {k : Key} (ha : k.area ≠ none) (hk : k ∉ ks) : t.rd k = s.rd k := changes_iff.mp h.changes k ha hk

theorem lane (h : OnlyHosts l ks s t) (n : Fin 16) : t.lane n = s.lane n := by rw [State.lane, State.lane, h.lanes]

theorem pg (h : OnlyHosts l ks s t) (k : Fin 4) : t.pg k = s.pg k := by rw [State.pg, State.pg, h.pgs]

/-- A change of no host lane's record leaves them all. -/
theorem host (h : OnlyHosts [] ks s t) (p : Fin 32) : t.host p = s.host p := h.others p List.not_mem_nil

theorem hosts (h : OnlyHosts [] ks s t) : t.hosts = s.hosts := Vector.ext fun i hi => h.host ⟨i, hi⟩

theorem modHost (s : State) (f : HostS → HostS) (hm : m ∈ l) : OnlyHosts l ks s (s.modHost m f) :=
  ⟨fun p hp => (State.modHost_frame s m f).1 p fun e => hp (e ▸ hm), fun _ _ => rfl, rfl, rfl, rfl, rfl, fun _ _ h => h⟩

theorem wr (s : State) {k : Key} (v : Nat) (hk : k ∈ ks) (ha : k.area ≠ none) : OnlyHosts l ks s (s.wr k v) :=
  ⟨fun _ _ => rfl, (State.changes_wr s k v).mono fun x hx => (List.mem_singleton.mp hx) ▸ hk, rfl, rfl, rfl, rfl, fun x _ h =>
    State.raised_of_rd (State.rd_wr_ne s v fun e => ha (by simp [← e])) h⟩

theorem raise (s : State) (x : Src) : OnlyHosts l ks s (s.raise x) :=
  ⟨fun p _ => State.raise_host s x p, State.changes_raise ks s x, State.raise_lanes s x, State.raise_pgs s x, State.raise_od s x,
    State.raise_now s x, fun _ hy h => State.raised_keep s x h hy⟩

theorem raiseIn (s : State) (x : Src) {d : Key} (b : Nat) (hd : d ∈ ks) (ha : d.area ≠ none) : OnlyHosts l ks s (s.raiseIn x d b) :=
  (wr s _ hd ha).trans (raise _ x)

theorem fresh (l : List (Fin 32)) (ks : List Key) (s : State) : OnlyHosts l ks s s.fresh.2 :=
  ⟨fun _ _ => rfl, fun _ _ => rfl, rfl, rfl, rfl, rfl, fun _ _ h => h⟩

/-- A pass whose steps each change one host lane, with entries of that step's own. -/
theorem forAll {α : Type} {f : α → State → State} {h : α → Fin 32} {g : α → List Key} (hf : ∀ x z, OnlyHosts [h x] (g x) z (f x z))
    (l : List α) (s : State) : OnlyHosts (l.map h) (l.flatMap g) s (forAll l f s) := by
  induction l generalizing s with
  | nil => exact .refl _ _ _
  | cons x l ih =>
    have hhead : OnlyHosts ((x :: l).map h) ((x :: l).flatMap g) s (f x s) :=
      (hf x s).mono (fun q hq => List.mem_cons.mpr (.inl (List.mem_singleton.mp hq))) fun k hk =>
        List.mem_flatMap.mpr ⟨x, List.mem_cons_self, hk⟩
    exact hhead.trans ((ih (f x s)).mono (fun q hq => List.mem_cons_of_mem _ hq) fun k hk => by
      rw [List.flatMap_cons]
      exact List.mem_append_right _ hk)

/-- A pass over host lanes that changes each lane in turn. -/
theorem forAllHosts {f : Fin 32 → State → State} {g : Fin 32 → List Key} (hf : ∀ p z, OnlyHosts [p] (g p) z (f p z)) (l : List (Fin 32))
    (s : State) : OnlyHosts l (l.flatMap g) s (Machine.forAll l f s) := by
  simpa using forAll (h := id) hf l s

end OnlyHosts

theorem mem_hostsOf : ∀ (k : Fin 4) (m : Fin 32), m ∈ hostsOf k ↔ pgOfHost m = k := by decide

theorem nodup_hostsOf : ∀ k : Fin 4, (hostsOf k).Nodup := by decide

/-- What a pass over a group's host lanes, each of which changes its own lane, makes of one of them: what its own step makes of it. -/
theorem host_of_pass {f : Fin 32 → State → State} {g : Fin 32 → List Key} (hf : ∀ p z, OnlyHosts [p] (g p) z (f p z)) {k : Fin 4}
    {m : Fin 32} (hm : pgOfHost m = k) (s : State) :
    ∃ l₁ l₂ z, m ∉ l₁ ∧ m ∉ l₂ ∧ OnlyHosts l₁ (l₁.flatMap g) s z ∧ OnlyHosts l₂ (l₂.flatMap g) (f m z) (forAll (hostsOf k) f s) := by
  obtain ⟨l₁, l₂, h1, h2, hpass⟩ := exists_forAll_eq ((mem_hostsOf k m).mpr hm) (nodup_hostsOf k) f s
  refine ⟨l₁, l₂, _, h1, h2, .forAllHosts hf l₁ s, ?_⟩
  rw [hpass]
  exact .forAllHosts hf l₂ _

/-! ## The line lanes' records (R174) -/

theorem SameLanes.of_lanes {s t : State} (h : t.lanes = s.lanes) : SameLanes s t := fun n => by rw [State.lane, State.lane, h]

theorem SameLanes.trans {a s t : State} (h1 : SameLanes a s) (h2 : SameLanes s t) : SameLanes a t := fun n => by
  rw [← h1 n, ← h2 n]

namespace State

variable (s : State)

theorem sameLanes_modLane_latAt (n : Fin 16) (v : Option Nat) : SameLanes s (s.modLane n fun l => { l with latAt := v }) := fun p => by
  by_cases hp : p = n
  · rw [hp, lane_modLane]
  · rw [lane_modLane_ne _ _ hp]

/-- Of the line lanes' records a latency report changes the cc of the report. -/
theorem sameLanes_latEvent (n : Fin 16) (c : Nat) : SameLanes s (s.latEvent n c) := by
  have hentries : SameLanes s ((((s.incWrap (K.LAT_SEQ n)).wr (K.LAT_CAUSE n) c).wr (K.LAT_EVENT_TIME n) s.timeNow).incSat
      (K.LAT_EVENT_COUNT n)) := .of_lanes (by rw [incSat_lanes, wr_lanes, wr_lanes, incWrap_lanes])
  have hfirst : SameLanes s (s.reportFirst n c) :=
    (hentries.trans (sameLanes_modLane_latAt _ n _)).trans (.of_lanes (record_lanes _ _ _ _))
  rw [latEvent_eq]
  split
  · exact fun _ => rfl
  · refine SameLanes.trans (s := if (s.lane n).latAt = some s.now then s.reportAgain n c else s.reportFirst n c) ?_
      (.of_lanes (raise_lanes _ _))
    split
    · exact fun _ => rfl
    · exact hfirst

theorem latEvent_od (n : Fin 16) (c : Nat) : (s.latEvent n c).od = s.od := by
  have hfirst : (s.reportFirst n c).od = s.od := by
    unfold reportFirst
    dsimp only
    rw [record_od, modLane_od, incSat_od, wr_od, wr_od, incWrap_od]
  rw [latEvent_eq]
  split
  · rfl
  · rw [raise_od]
    split
    · rfl
    · exact hfirst

/-! ## The status of a host receiver (R134) -/

variable {s} {m : Fin 32}

theorem hostBit_of_rd {t : State} (h : t.rd (K.HOST_RX_STATUS m) = s.rd (K.HOST_RX_STATUS m)) (j : Nat) : t.hostBit m j = s.hostBit m j :=
  bit_of_rd h j

theorem hostBit_setHostBit (s : State) (m : Fin 32) (i : Nat) (b : Bool) {j : Nat} (hj : j < 16) :
    (s.setHostBit m i b).hostBit m j = if j = i then b else s.hostBit m j := by
  have hbits : bitsOf (K.HOST_RX_STATUS m) = 16 := rfl
  rw [hostBit, setHostBit, bit_wrBit, if_pos rfl, hbits, decide_eq_true hj, Bool.true_and]
  rfl

theorem setHostBit_onlyHosts (s : State) (m : Fin 32) (i : Nat) (b : Bool) : OnlyHosts [] [K.HOST_RX_STATUS m] s (s.setHostBit m i b) :=
  .wr s _ (by simp) (by simp)

/-! ## Sources with a detail register (R431) -/

theorem rd_raiseIn (s : State) (x : Src) (d : Key) (b : Nat) {k : Key} (ha : k.area ≠ none) :
    (s.raiseIn x d b).rd k = if k = d then (s.rd d ||| 2 ^ b) % 2 ^ bitsOf d else s.rd k := by
  rw [raiseIn_eq, rd_raise_area _ _ _ ha, rd_wr]

theorem bit_raiseIn (s : State) (x : Src) {d : Key} {b : Nat} (ha : d.area ≠ none) (hb : b < bitsOf d) :
    (s.raiseIn x d b).bit d b = true := by
  rw [bit, rd_raiseIn _ _ _ _ ha, if_pos rfl, Nat.testBit_mod_two_pow, Nat.testBit_or, Nat.testBit_two_pow_self, Bool.or_true,
    decide_eq_true hb, Bool.true_and]

theorem raised_raiseIn (s : State) {x : Src} (d : Key) (b : Nat) (hx : x.b < 16) : Raised (s.raiseIn x d b) x := raised_raise _ _ hx

end State

end Sys2Proof.Machine
end

section
/-!
SUPPORT. The receivers of host lanes: signal, clock and alignment lost and found (R133 to R139), one rule per operation.
-/

namespace Sys2Proof.Machine

namespace State

/-! ## SIGNAL and ALIGN (R134, R135, R162) -/

theorem setSignal_onlyHosts (s : State) (m : Fin 32) (b : Bool) :
    OnlyHosts [] [K.HOST_RX_STATUS m, K.HOST_LOS_LANES (pgOfHost m)] s (s.setSignal m b) :=
  ((setHostBit_onlyHosts s m 1 b).mono (by simp) (by simp)).trans (.raiseIn _ _ _ (by simp) (by simp))

theorem hostBit_setSignal (s : State) (m : Fin 32) (b : Bool) {j : Nat} (hj : j < 16) :
    (s.setSignal m b).hostBit m j = if j = 1 then b else s.hostBit m j := by
  rw [setSignal, hostBit_of_rd ((rd_raiseIn _ _ _ _ (by simp)).trans (if_neg (by simp))), hostBit_setHostBit _ _ _ _ hj]

/-- A change of SIGNAL is reported with the lane's bit. -/
theorem setSignal_reported (s : State) (m : Fin 32) (b : Bool) : Raised (s.setSignal m b) (Src.HOST_LOS (pgOfHost m)) ∧
    (s.setSignal m b).bit (K.HOST_LOS_LANES (pgOfHost m)) (hostJ m) = true := by
  have hbits : bitsOf (K.HOST_LOS_LANES (pgOfHost m)) = 8 := rfl
  exact ⟨raised_raiseIn _ _ _ (show 0 < 16 by decide), bit_raiseIn _ _ (by simp) (by rw [hbits, hostJ]; omega)⟩

theorem setAlign_onlyHosts (s : State) (m : Fin 32) (b : Bool) :
    OnlyHosts [] [K.HOST_RX_STATUS m, K.HOST_ALIGN_CHG_LANES (pgOfHost m)] s (s.setAlign m b) :=
  .ite _ (.refl _ _ _) (((setHostBit_onlyHosts s m 4 b).mono (by simp) (by simp)).trans (.raiseIn _ _ _ (by simp) (by simp)))

theorem hostBit_setAlign (s : State) (m : Fin 32) (b : Bool) {j : Nat} (hj : j < 16) :
    (s.setAlign m b).hostBit m j = if j = 4 then b else s.hostBit m j := by
  unfold setAlign
  split
  next hsame =>
    split
    next h4 => rw [h4, beq_iff_eq.mp hsame]
    next => rfl
  next =>
    rw [hostBit_of_rd ((rd_raiseIn _ _ _ _ (by simp)).trans (if_neg (by simp))), hostBit_setHostBit _ _ _ _ hj]

/-- A change of ALIGN is reported. -/
theorem raised_setAlign {s : State} {m : Fin 32} {b : Bool} (h : s.hostBit m 4 ≠ b) :
    Raised (s.setAlign m b) (Src.HOST_ALIGN_CHG (pgOfHost m)) := by
  rw [setAlign, if_neg (by simpa using h)]
  exact raised_raiseIn _ _ _ (show 1 < 16 by decide)

/-! ## CLK_OK lost (R133, R137) -/

theorem hostTapsFollow_onlyHosts (s : State) (m : Fin 32) (f : State → State) :
    OnlyHosts [] [K.HOST_RX_FFE m] (f s) (s.hostTapsFollow m f) :=
  .ite _ ((OnlyHosts.fresh _ _ _).trans (.wr _ _ (by simp) (by simp))) (.refl _ _ _)

/-- CLK_OK is lost, whatever becomes of the equalizer's taps. -/
def receiverLost (m : Fin 32) (s : State) : State :=
  (((s.setHostBit m 2 false).setHostBit m 3 false).modHost m fun h => { h with acq := 0, align := {}, training := false }).setAlign m false

theorem clkOkLost_eq (s : State) (m : Fin 32) : s.clkOkLost m = s.hostTapsFollow m (receiverLost m) := rfl

/-- The entries that the loss of a lane's clock changes. -/
def clkLostKeys (m : Fin 32) : List Key := [K.HOST_RX_STATUS m, K.HOST_RX_FFE m, K.HOST_ALIGN_CHG_LANES (pgOfHost m)]

theorem clkOkLost_onlyHosts (s : State) (m : Fin 32) : OnlyHosts [m] (clkLostKeys m) s (s.clkOkLost m) := by
  have hlost : OnlyHosts [m] (clkLostKeys m) s (receiverLost m s) :=
    ((((setHostBit_onlyHosts s m 2 false).trans (setHostBit_onlyHosts _ m 3 false)).mono (by simp) (by simp [clkLostKeys])).trans
      (.modHost _ _ (by simp))).trans ((setAlign_onlyHosts _ m false).mono (by simp) (by simp [clkLostKeys]))
  exact hlost.trans ((hostTapsFollow_onlyHosts s m _).mono (by simp) (by simp [clkLostKeys]))

theorem host_clkOkLost (s : State) (m : Fin 32) :
    (s.clkOkLost m).host m = { s.host m with acq := 0, align := {}, training := false } := by
  rw [clkOkLost_eq, (hostTapsFollow_onlyHosts s m _).host, receiverLost, (setAlign_onlyHosts _ _ _).host, host_modHost,
    (setHostBit_onlyHosts _ _ _ _).host, (setHostBit_onlyHosts _ _ _ _).host]

theorem hostBit_clkOkLost (s : State) (m : Fin 32) {j : Nat} (hj : j < 16) :
    (s.clkOkLost m).hostBit m j = if j = 4 ∨ j = 3 ∨ j = 2 then false else s.hostBit m j := by
  have hmod : ∀ (z : State) (f : HostS → HostS), (z.modHost m f).hostBit m j = z.hostBit m j := fun _ _ => rfl
  rw [clkOkLost_eq, hostBit_of_rd ((hostTapsFollow_onlyHosts s m _).rd (by simp) (by simp)), receiverLost, hostBit_setAlign _ _ _ hj, hmod,
    hostBit_setHostBit _ _ _ _ hj, hostBit_setHostBit _ _ _ _ hj]
  by_cases h4 : j = 4 <;> by_cases h3 : j = 3 <;> by_cases h2 : j = 2 <;> simp [h4, h3, h2]

/-! ## Training (R137, R138) -/

/-- Training begins: SIGNAL, a forwarded clock where it is used, and a lane that is not powered down. -/
theorem hostTrain_of_ready {s : State} {m : Fin 32} (hsignal : s.hostBit m 1 = true)
    (hclock : s.fwdClock (pgOfHost m) = false ∨ s.hckiPresent (pgOfHost m) = true) (hformat : (isB m && s.is225 (lineOfHost m)) = false) :
    s.hostTrain m = s.modHost m fun h => { h with training := true } := by
  unfold hostTrain
  refine if_pos ?_
  obtain h | h := hclock <;> simp [hsignal, h, hformat]

theorem hostTrain_onlyHosts (s : State) (m : Fin 32) : OnlyHosts [m] [] s (s.hostTrain m) :=
  .ite _ (.modHost _ _ (by simp)) (.refl _ _ _)

theorem is225_of_rd {s t : State} {n : Fin 16} (h : t.rd (K.LINE_FORMAT n) = s.rd (K.LINE_FORMAT n)) : t.is225 n = s.is225 n :=
  congrArg (· == 2) h

theorem fwdClock_of_rd {s t : State} {k : Fin 4} (h : t.rd (K.PG_CLK_MODE k) = s.rd (K.PG_CLK_MODE k)) : t.fwdClock k = s.fwdClock k :=
  congrArg (· == 1) h

/-! ## SIGNAL lost and found (R134) -/

/-- What the loss of a host lane's signal leaves. -/
theorem hostSignalClear_spec {s : State} {m : Fin 32} (hthr : s.rd (K.HOST_LOS_THR m) ≠ 0) (hsignal : s.hostBit m 1 = true) :
    (s.hostSignalClear m).hostBit m 1 = false ∧ (s.hostSignalClear m).hostBit m 2 = false ∧ (s.hostSignalClear m).hostBit m 3 = false ∧
    (s.hostSignalClear m).hostBit m 4 = false ∧ ((s.hostSignalClear m).host m).acq = 0 ∧ ((s.hostSignalClear m).host m).training = false ∧
    Raised (s.hostSignalClear m) (Src.HOST_LOS (pgOfHost m)) ∧
    (s.hostSignalClear m).bit (K.HOST_LOS_LANES (pgOfHost m)) (hostJ m) = true ∧
    (∀ p, p ≠ m → (s.hostSignalClear m).host p = s.host p) ∧
    Changes [K.HOST_RX_STATUS m, K.HOST_RX_FFE m, K.HOST_LOS_LANES (pgOfHost m), K.HOST_ALIGN_CHG_LANES (pgOfHost m)] s
      (s.hostSignalClear m) := by
  have hclear : s.hostSignalClear m = (s.setSignal m false).clkOkLost m := if_pos (by simp [hthr, hsignal])
  have hsig := setSignal_onlyHosts s m false
  have hclk := clkOkLost_onlyHosts (s.setSignal m false) m
  obtain ⟨hraised, hlane⟩ := setSignal_reported s m false
  rw [hclear, host_clkOkLost, hostBit_clkOkLost _ _ (show 1 < 16 by decide), hostBit_setSignal _ _ _ (show 1 < 16 by decide),
    hostBit_clkOkLost _ _ (show 2 < 16 by decide), hostBit_clkOkLost _ _ (show 3 < 16 by decide), hostBit_clkOkLost _ _ (show 4 < 16 by decide)]
  refine ⟨rfl, rfl, rfl, rfl, rfl, rfl, hclk.raised _ (show 0 < 16 by decide) hraised, ?_, fun p hp => ?_, ?_⟩
  · rw [bit_of_rd (hclk.rd (by simp) (by simp [clkLostKeys])), hlane]
  · rw [hclk.others p (by simpa using hp), hsig.host]
  · exact (hsig.changes.mono (by simp)).trans (hclk.changes.mono (by simp [clkLostKeys]))

theorem hostSignalClear_of_other {s : State} {m : Fin 32} (h : s.rd (K.HOST_LOS_THR m) = 0 ∨ s.hostBit m 1 = false) :
    s.hostSignalClear m = s := by
  refine if_neg ?_
  obtain h | h := h <;> simp [h]

/-- What the return of a host lane's signal leaves. -/
theorem hostSignalSet_spec {s : State} {m : Fin 32} (hsignal : s.hostBit m 1 = false) :
    (s.hostSignalSet m).hostBit m 1 = true ∧ Raised (s.hostSignalSet m) (Src.HOST_LOS (pgOfHost m)) ∧
    (s.hostSignalSet m).bit (K.HOST_LOS_LANES (pgOfHost m)) (hostJ m) = true ∧
    (s.fwdClock (pgOfHost m) = false ∨ s.hckiPresent (pgOfHost m) = true → (isB m && s.is225 (lineOfHost m)) = false →
      ((s.hostSignalSet m).host m).training = true) ∧
    (∀ p, p ≠ m → (s.hostSignalSet m).host p = s.host p) ∧
    Changes [K.HOST_RX_STATUS m, K.HOST_LOS_LANES (pgOfHost m)] s (s.hostSignalSet m) := by
  have hset : s.hostSignalSet m = (s.setSignal m true).hostTrain m := if_neg (by simp [hsignal])
  have hsig := setSignal_onlyHosts s m true
  have htrain := hostTrain_onlyHosts (s.setSignal m true) m
  obtain ⟨hraised, hlane⟩ := setSignal_reported s m true
  have hbit : (s.setSignal m true).hostBit m 1 = true := hostBit_setSignal s m true (show 1 < 16 by decide)
  rw [hset]
  refine ⟨?_, htrain.raised _ (show 0 < 16 by decide) hraised, ?_, fun hclock hformat => ?_, fun p hp => ?_, ?_⟩
  · rw [hostBit_of_rd (htrain.rd (by simp) (by simp)), hbit]
  · rw [bit_of_rd (htrain.rd (by simp) (by simp)), hlane]
  · have hmode : (s.setSignal m true).fwdClock (pgOfHost m) = s.fwdClock (pgOfHost m) := fwdClock_of_rd (hsig.rd (by simp) (by simp))
    have hinput : (s.setSignal m true).hckiPresent (pgOfHost m) = s.hckiPresent (pgOfHost m) := bit_of_rd (hsig.rd (by simp) (by simp)) 3
    rw [hostTrain_of_ready hbit (by rwa [hmode, hinput]) (by rwa [is225_of_rd (hsig.rd (by simp) (by simp))]), host_modHost]
  · rw [htrain.others p (by simpa using hp), hsig.host]
  · exact hsig.changes.trans (htrain.changes.mono (by simp))

theorem hostSignalSet_of_signal {s : State} {m : Fin 32} (h : s.hostBit m 1 = true) : s.hostSignalSet m = s := if_pos h

end State

end Sys2Proof.Machine
end

section
/-!
SUPPORT. The capture of a host lane (R139): its delay and its fraction, and what the lock of a host lane's clock leaves and reports.
-/

namespace Sys2Proof.Machine

/-! ## Delay and fraction of a phase (R139) -/

/-- The nearest integer lies within half of the divisor. -/
theorem roundOpen_bounds (a : Int) : -80000 ≤ a - 160000 * roundOpen a 160000 ∧ a - 160000 * roundOpen a 160000 ≤ 80000 := by
  unfold roundOpen divOpen
  split
  · split
    · omega
    · split <;> omega
  · omega

theorem captureOf_bounds (phase : Nat) :
    (captureOf phase).1 < 64 ∧ -4706 ≤ (captureOf phase).2 ∧ (captureOf phase).2 ≤ 4706 := by
  obtain ⟨hlo, hhi⟩ := roundOpen_bounds (17 * phase : Nat)
  unfold captureOf divOpen
  dsimp only
  push_cast at hlo hhi ⊢
  refine ⟨by omega, ?_⟩
  split
  · omega
  · split <;> omega

/-- A signed number of 16 bits reads as it was written. -/
theorem sx_zx_of_16 {i : Int} (hlo : -32768 ≤ i) (hhi : i ≤ 32767) : sx 16 (zx 16 i % 2 ^ 16) = i := by
  unfold sx zx
  split <;> omega

namespace State

theorem rdI_wrI_of_16 (s : State) {k : Key} {i : Int} (hbits : bitsOf k = 16) (hlo : -32768 ≤ i) (hhi : i ≤ 32767) :
    (s.wrI k i).rdI k = i := by
  rw [rdI, rd_wrI, if_pos rfl, hbits, sx_zx_of_16 hlo hhi]

theorem rdI_of_rd {s t : State} {k : Key} (h : t.rd k = s.rd k) : t.rdI k = s.rdI k := congrArg (sx (bitsOf k)) h

/-- The entry of a host lane's slips (Table 6-7). -/
def txSlipKey (m : Fin 32) : Key := if isB m then K.LAT_TX_SLIP_B (lineOfHost m) else K.LAT_TX_SLIP_A (lineOfHost m)

/-- It is an entry of 16 bits of the lane's line lane, and none that a latency report writes. -/
theorem txSlipKey_facts (m : Fin 32) : bitsOf (txSlipKey m) = 16 ∧ (∃ x, 5 ≤ x ∧ txSlipKey m = ⟨.line (lineOfHost m), 0x3A, x⟩) ∧
    ∀ n, txSlipKey m ∉ [K.LAT_CAUSE n, K.LAT_SEQ n, K.LAT_EVENT_TIME n, K.LAT_EVENT_COUNT n] := by
  unfold txSlipKey
  split <;> exact ⟨rfl, ⟨_, by decide, rfl⟩, by simp⟩

theorem txSlipKey_ne (m : Fin 32) {k : Key} (hk : ∀ n, k.blk ≠ .line n) : k ≠ txSlipKey m := by
  obtain ⟨-, ⟨x, -, hkey⟩, -⟩ := txSlipKey_facts m
  exact fun e => hk (lineOfHost m) (by rw [e, hkey])

theorem area_txSlipKey (m : Fin 32) : (txSlipKey m).area ≠ none := by
  obtain ⟨-, ⟨x, -, hkey⟩, -⟩ := txSlipKey_facts m
  simp [hkey]

/-! ## The capture is fixed -/

variable {s : State} {m : Fin 32}

/-- The fraction of a capture: the one that the lane had, where it is the same at every lock. -/
def captureFrac (s : State) (m : Fin 32) (phase : Nat) : Int :=
  if s.captureSame m then (s.host m).fracFixed.getD (captureOf phase).2 else (captureOf phase).2

/-- The record of a lane whose capture is fixed. -/
def capturedHost (s : State) (m : Fin 32) (phase : Nat) (h : HostS) : HostS :=
  { h with fracFixed := if s.captureSame m then some (s.captureFrac m phase) else none, delay := (captureOf phase).1, fill := 64, refind := 0 }

theorem capture_eq (s : State) (m : Fin 32) (phase : Nat) : s.capture m phase =
    ((s.modHost m (s.capturedHost m phase)).wrI (K.HOST_RX_CAPTURE_FRAC m) (s.captureFrac m phase)).wr (txSlipKey m) 0 := rfl

theorem capture_onlyHosts (s : State) (m : Fin 32) (phase : Nat) :
    OnlyHosts [m] [K.HOST_RX_CAPTURE_FRAC m, txSlipKey m] s (s.capture m phase) := by
  rw [capture_eq]
  exact ((OnlyHosts.modHost s _ (by simp)).trans (.wr _ _ (by simp) (by simp))).trans (.wr _ _ (by simp) (area_txSlipKey m))

theorem host_capture (s : State) (m : Fin 32) (phase : Nat) : (s.capture m phase).host m = s.capturedHost m phase (s.host m) := by
  have hwrI : ∀ (z : State) (k : Key) (v : Int), (z.wrI k v).host m = z.host m := fun _ _ _ => rfl
  rw [capture_eq, host_wr, hwrI, host_modHost]

theorem rd_capture_slip (s : State) (m : Fin 32) (phase : Nat) : (s.capture m phase).rd (txSlipKey m) = 0 := by
  rw [capture_eq, rd_wr_self, Nat.zero_mod]

theorem rdI_capture_frac {phase : Nat} (hlo : -4706 ≤ s.captureFrac m phase) (hhi : s.captureFrac m phase ≤ 4706) :
    (s.capture m phase).rdI (K.HOST_RX_CAPTURE_FRAC m) = s.captureFrac m phase := by
  rw [capture_eq, rdI_of_rd (rd_wr_ne _ _ (txSlipKey_ne m (by simp))), rdI_wrI_of_16 _ rfl (by omega) (by omega)]

/-- Without a fraction to keep it is that of the phase. -/
theorem captureFrac_of_fresh (phase : Nat)
    (h : s.fwdClock (pgOfHost m) = false ∨ s.rd K.CLK_REF_SRC ≠ 1 ∨ (s.host m).fracFixed = none) :
    s.captureFrac m phase = (captureOf phase).2 := by
  unfold captureFrac captureSame
  obtain h | h | h := h
  · simp [h]
  · simp [h]
  · simp [h]

theorem captureFrac_of_fixed {f : Int} (phase : Nat) (hmode : s.fwdClock (pgOfHost m) = true) (hroot : s.rd K.CLK_REF_SRC = 1)
    (hf : (s.host m).fracFixed = some f) : s.captureFrac m phase = f := by
  simp [captureFrac, captureSame, hmode, hroot, hf]

/-! ## CLK_OK (R133, R137 to R139) -/

/-- The lane with its clock, before its capture: acquisition starts. -/
def clockLocked (s : State) (m : Fin 32) : State :=
  ((s.modHost m fun h => { h with training := false, acq := 1 }).setHostBit m 2 true).setHostBit m 3 true

theorem clkOkSet_of_training (phase : Nat) (h : (s.host m).training = true) :
    s.clkOkSet m phase = ((s.clockLocked m).capture m phase).latEvent (lineOfHost m) (causeCapture (isB m)) :=
  if_neg (by simp [h])

theorem clkOkSet_of_idle (phase : Nat) (h : (s.host m).training = false) : s.clkOkSet m phase = s := if_pos (by simp [h])

theorem clockLocked_onlyHosts (s : State) (m : Fin 32) : OnlyHosts [m] [K.HOST_RX_STATUS m] s (s.clockLocked m) :=
  (OnlyHosts.modHost s _ (by simp)).trans
    (((setHostBit_onlyHosts _ m 2 true).trans (setHostBit_onlyHosts _ m 3 true)).mono (by simp) (by simp))

theorem host_clockLocked (s : State) (m : Fin 32) : (s.clockLocked m).host m = { s.host m with training := false, acq := 1 } := by
  rw [clockLocked, (setHostBit_onlyHosts _ _ _ _).host, (setHostBit_onlyHosts _ _ _ _).host, host_modHost]

theorem hostBit_clockLocked (s : State) (m : Fin 32) : (s.clockLocked m).hostBit m 2 = true ∧ (s.clockLocked m).hostBit m 3 = true := by
  rw [clockLocked, hostBit_setHostBit _ _ _ _ (show 2 < 16 by decide), hostBit_setHostBit _ _ _ _ (show 2 < 16 by decide),
    hostBit_setHostBit _ _ _ _ (show 3 < 16 by decide)]
  exact ⟨rfl, rfl⟩

/-- What the lock of a host lane's clock leaves. -/
theorem clkOkSet_spec (phase : Nat) (h : (s.host m).training = true) :
    (s.clkOkSet m phase).hostBit m 2 = true ∧ (s.clkOkSet m phase).hostBit m 3 = true ∧ ((s.clkOkSet m phase).host m).acq = 1 ∧
    ((s.clkOkSet m phase).host m).training = false ∧
    (s.fwdClock (pgOfHost m) = false ∨ s.rd K.CLK_REF_SRC ≠ 1 ∨ (s.host m).fracFixed = none →
      (s.clkOkSet m phase).rdI (K.HOST_RX_CAPTURE_FRAC m) = (captureOf phase).2) ∧
    ((s.clkOkSet m phase).host m).delay = (captureOf phase).1 ∧ ((s.clkOkSet m phase).host m).delay < 64 ∧
    ((s.clkOkSet m phase).host m).fill = 64 ∧
    (∀ f, s.fwdClock (pgOfHost m) = true → s.rd K.CLK_REF_SRC = 1 → (s.host m).fracFixed = some f → -4706 ≤ f → f ≤ 4706 →
      (s.clkOkSet m phase).rdI (K.HOST_RX_CAPTURE_FRAC m) = f) ∧
    (s.clkOkSet m phase).rd (txSlipKey m) = 0 ∧
    (s.clamped (laneUnit (lineOfHost m)) = false →
      LatencyReported (lineOfHost m) (causeCapture (isB m)) s (s.clkOkSet m phase)) ∧
    SameLanes s (s.clkOkSet m phase) ∧ ∀ p, p ≠ m → (s.clkOkSet m phase).host p = s.host p := by
  obtain ⟨hdelay, hlo, hhi⟩ := captureOf_bounds phase
  obtain ⟨-, ⟨x, -, hkey⟩, hreport⟩ := txSlipKey_facts m
  obtain ⟨h2, h3⟩ := hostBit_clockLocked s m
  have hlocked := clockLocked_onlyHosts s m
  have hcapture := capture_onlyHosts (s.clockLocked m) m phase
  have hevent := latEvent_onlyLanes ((s.clockLocked m).capture m phase) (lineOfHost m) (causeCapture (isB m))
  have hbit : ∀ j, (((s.clockLocked m).capture m phase).latEvent (lineOfHost m) (causeCapture (isB m))).hostBit m j =
      (s.clockLocked m).hostBit m j := fun j =>
    hostBit_of_rd ((hevent.entries _ (by simp) (by simp) (by simp)).trans (hcapture.rd (by simp) (by simp [hkey]))) j
  have hfrac : -4706 ≤ (s.clockLocked m).captureFrac m phase → (s.clockLocked m).captureFrac m phase ≤ 4706 →
      (((s.clockLocked m).capture m phase).latEvent (lineOfHost m) (causeCapture (isB m))).rdI (K.HOST_RX_CAPTURE_FRAC m) =
        (s.clockLocked m).captureFrac m phase := fun hl hh => by
    rw [rdI_of_rd (hevent.entries _ (by simp) (by simp) (by simp)), rdI_capture_frac hl hh]
  have hmode : (s.clockLocked m).fwdClock (pgOfHost m) = s.fwdClock (pgOfHost m) := fwdClock_of_rd (hlocked.rd (by simp) (by simp))
  have hroot : (s.clockLocked m).rd K.CLK_REF_SRC = s.rd K.CLK_REF_SRC := hlocked.rd (by decide) (by simp)
  have hfixed : ((s.clockLocked m).host m).fracFixed = (s.host m).fracFixed := by rw [host_clockLocked]
  rw [clkOkSet_of_training phase h, hevent.host, hbit, hbit, h2, h3, host_capture, host_clockLocked]
  refine ⟨rfl, rfl, rfl, rfl, fun hfresh => ?_, rfl, hdelay, rfl, fun f hf hr hs hfl hfh => ?_, ?_, fun hpower => ?_, ?_, fun p hp => ?_⟩
  · have hvalue := captureFrac_of_fresh (s := s.clockLocked m) (m := m) phase (by rwa [hmode, hroot, hfixed])
    rw [hfrac (by omega) (by omega), hvalue]
  · have hvalue := captureFrac_of_fixed (s := s.clockLocked m) (m := m) phase (hmode.trans hf) (hroot.trans hr) (hfixed.trans hs)
    rw [hfrac (by omega) (by omega), hvalue]
  · rw [rd_latEvent _ _ (area_txSlipKey m) (hreport _), rd_capture_slip]
  · have hcause : ((s.clockLocked m).capture m phase).rd (K.LAT_CAUSE (lineOfHost m)) = s.rd (K.LAT_CAUSE (lineOfHost m)) :=
      (hcapture.rd (by simp) (by simp [hkey])).trans (hlocked.rd (by simp) (by simp))
    have hpowered : ((s.clockLocked m).capture m phase).clamped (laneUnit (lineOfHost m)) = false := by
      rw [clamped_of_rd (hcapture.rd (by simp) (by simp [hkey])), clamped_of_rd (hlocked.rd (by simp) (by simp)), hpower]
    exact (latencyReported_latEvent _ _ _ hpowered).of_before hcause (by rw [hcapture.lane, hlocked.lane]) (hcapture.now.trans hlocked.now)
  · exact (SameLanes.of_lanes (hcapture.lanes.trans hlocked.lanes)).trans (sameLanes_latEvent _ _ _)
  · rw [hevent.host, hcapture.others p (by simpa using hp), hlocked.others p (by simpa using hp)]

end State

end Sys2Proof.Machine
end

section
/-!
SUPPORT. The equalizer's acquisition, the alignment monitor and the forwarded clock input of host lanes (R113, R133, R135, R137).
-/

namespace Sys2Proof.Machine

/-! ## The marker machine (Table 4-4) -/

/-- What a judged pattern makes of the machine. -/
theorem Marker.judge_spec (a : Marker) (good : Bool) (pos period : Nat) :
    (a.st = .hunt → (a.judge good pos period).1.st = if good then .confirm else .hunt) ∧
    (a.st ≠ .hunt → pos ≠ a.expected → (a.judge good pos period).1 = a) ∧
    (a.st = .confirm → pos = a.expected →
      (a.judge good pos period).1.st = if good then (if 3 ≤ a.good then .lock else .confirm) else .hunt) ∧
    (a.st = .lock → pos = a.expected → (a.judge good pos period).1.st = if !good && decide (2 ≤ a.bad) then .hunt else .lock) ∧
    ((a.judge good pos period).1.st = .hunt ∨ (a.judge good pos period).1 = a ∨ (a.judge good pos period).1.expected = pos + period) := by
  obtain ⟨st, goods, bads, expected⟩ := a
  cases st with
  | hunt => cases good <;> simp [Marker.judge]
  | confirm =>
    by_cases hpos : pos = expected
    · cases good
      · simp [Marker.judge, hpos]
      · by_cases h3 : 3 ≤ goods <;> simp [Marker.judge, hpos, h3]
    · simp [Marker.judge, hpos]
  | lock =>
    by_cases hpos : pos = expected
    · cases good
      · by_cases h2 : 2 ≤ bads <;> simp [Marker.judge, hpos, h2]
      · simp [Marker.judge, hpos]
    · simp [Marker.judge, hpos]

namespace State

variable {s : State} {m : Fin 32}

/-! ## The equalizer's acquisition (R133) -/

/-- What the end of a host lane's acquisition leaves. -/
theorem hostAcqEnd_spec (ctle : Nat) (h : (s.host m).acq = 1) :
    ((s.hostAcqEnd m ctle).host m).acq = 2 ∧
    (s.hostAcqEnd m ctle).rd (K.HOST_RX_CTLE m) = (if s.on (K.HOST_RX_ADAPT m) then min ctle 24 else s.rd (K.HOST_RX_CTLE m)) ∧
    (∀ p, p ≠ m → (s.hostAcqEnd m ctle).host p = s.host p) ∧ Changes [K.HOST_RX_CTLE m] s (s.hostAcqEnd m ctle) := by
  have hbits : bitsOf (K.HOST_RX_CTLE m) = 8 := rfl
  have hend : s.hostAcqEnd m ctle = if s.on (K.HOST_RX_ADAPT m) then
      (s.modHost m fun h => { h with acq := 2 }).wr (K.HOST_RX_CTLE m) (min ctle 24) else s.modHost m fun h => { h with acq := 2 } := if_pos h
  have honly : OnlyHosts [m] [K.HOST_RX_CTLE m] s (s.hostAcqEnd m ctle) := by
    rw [hend]
    exact .ite _ ((OnlyHosts.modHost s _ (by simp)).trans (.wr _ _ (by simp) (by simp))) (.modHost s _ (by simp))
  refine ⟨?_, ?_, fun p hp => honly.others p (by simpa using hp), honly.changes⟩
  · rw [hend]
    split <;> simp
  · rw [hend, rd_ite, rd_wr_self, hbits, Nat.mod_eq_of_lt (by omega), modHost_rd]

theorem hostAcqEnd_of_other (ctle : Nat) (h : (s.host m).acq ≠ 1) : s.hostAcqEnd m ctle = s := if_neg h

/-! ## The alignment monitor (R113, R135) -/

/-- The machine after a pattern that differs in `differ` bits. -/
def alignJudged (s : State) (m : Fin 32) (differ pos : Nat) : Marker :=
  ((s.host m).align.judge (markerGood differ) pos (Config.markerPeriod (s.rd (K.PG_MODE (pgOfHost m))))).1

/-- The lane with its monitor moved, ALIGN with it. -/
def alignMoved (s : State) (m : Fin 32) (differ pos : Nat) : State :=
  (s.modHost m fun h => { h with align := s.alignJudged m differ pos, refind := h.refind - 1 }).setAlign m
    ((s.alignJudged m differ pos).st == .lock)

/-- Does the pattern show the marker's position on the line? -/
def alignShows (s : State) (m : Fin 32) (differ pos : Nat) : Bool :=
  (s.alignJudged m differ pos).st == .lock && markerGood differ && !(s.host m).filled

theorem hostMarkerAt_of_clock (differ pos p : Nat) (moved : Bool) (h : s.hostBit m 2 = true) :
    s.hostMarkerAt m differ pos p moved =
      if s.alignShows m differ pos then
        (if s.bit (txMarkerKey m) 15 && moved then
          ((s.alignMoved m differ pos).wr (txMarkerKey m) (0x8000 + p % 4096)).latEvent (lineOfHost m) (causeMarker (isB m))
        else (s.alignMoved m differ pos).wr (txMarkerKey m) (0x8000 + p % 4096))
      else s.alignMoved m differ pos := if_neg (by simp [h])

theorem hostMarkerAt_of_no_clock (differ pos p : Nat) (moved : Bool) (h : s.hostBit m 2 = false) :
    s.hostMarkerAt m differ pos p moved = s := if_pos (by simp [h])

theorem alignMoved_onlyHosts (s : State) (m : Fin 32) (differ pos : Nat) :
    OnlyHosts [m] [K.HOST_RX_STATUS m, K.HOST_ALIGN_CHG_LANES (pgOfHost m)] s (s.alignMoved m differ pos) :=
  (OnlyHosts.modHost s _ (by simp)).trans ((setAlign_onlyHosts _ m _).mono (by simp) (by simp))

theorem align_alignMoved (s : State) (m : Fin 32) (differ pos : Nat) :
    ((s.alignMoved m differ pos).host m).align = s.alignJudged m differ pos := by
  rw [alignMoved, (setAlign_onlyHosts _ _ _).host, host_modHost]

theorem hostBit_alignMoved (s : State) (m : Fin 32) (differ pos : Nat) :
    (s.alignMoved m differ pos).hostBit m 4 = ((s.alignJudged m differ pos).st == .lock) := hostBit_setAlign _ _ _ (show 4 < 16 by decide)

theorem raised_alignMoved {differ pos : Nat} (h : s.hostBit m 4 ≠ (s.alignMoved m differ pos).hostBit m 4) :
    Raised (s.alignMoved m differ pos) (Src.HOST_ALIGN_CHG (pgOfHost m)) := by
  rw [hostBit_alignMoved] at h
  exact raised_setAlign h

/-- What follows of the marker's position leaves the lanes' records but for the cc of the report, and the status of the receiver. -/
structure ShownAfter (m : Fin 32) (s t : State) : Prop where
  host : ∀ p, t.host p = s.host p
  status : t.rd (K.HOST_RX_STATUS m) = s.rd (K.HOST_RX_STATUS m)
  lanes : SameLanes s t
  raised : ∀ x, x.b < 16 → Raised s x → Raised t x

theorem wr_txMarker_shownAfter (s : State) (m : Fin 32) (v : Nat) : ShownAfter m s (s.wr (txMarkerKey m) v) := by
  obtain ⟨-, harea, -, -⟩ := txMarkerKey_facts m
  have hstatus : K.HOST_RX_STATUS m ≠ txMarkerKey m := by
    unfold txMarkerKey
    split <;> simp
  exact ⟨fun _ => rfl, rd_wr_ne _ _ hstatus, fun _ => rfl, fun x _ h => raised_of_rd (rd_wr_ne _ _ fun e => harea (by simp [← e])) h⟩

theorem latEvent_shownAfter (s : State) (m : Fin 32) (n : Fin 16) (c : Nat) : ShownAfter m s (s.latEvent n c) :=
  have honly := latEvent_onlyLanes s n c
  ⟨honly.host, honly.entries _ (by simp) (by simp) (by simp), sameLanes_latEvent s n c, honly.raised⟩

theorem ShownAfter.trans {a t : State} (h1 : ShownAfter m a s) (h2 : ShownAfter m s t) : ShownAfter m a t :=
  ⟨fun p => (h2.host p).trans (h1.host p), h2.status.trans h1.status, h1.lanes.trans h2.lanes, fun x hx h =>
    h2.raised x hx (h1.raised x hx h)⟩

theorem hostMarkerAt_shownAfter (differ pos p : Nat) (moved : Bool) (h : s.hostBit m 2 = true) :
    ShownAfter m (s.alignMoved m differ pos) (s.hostMarkerAt m differ pos p moved) := by
  have hwritten := wr_txMarker_shownAfter (s.alignMoved m differ pos) m (0x8000 + p % 4096)
  rw [hostMarkerAt_of_clock differ pos p moved h]
  split
  · split
    · exact hwritten.trans (latEvent_shownAfter _ _ _ _)
    · exact hwritten
  · exact ⟨fun _ => rfl, rfl, fun _ => rfl, fun _ _ h => h⟩

/-- The position that a good marker in LOCK shows. -/
theorem rd_hostMarkerAt (differ pos : Nat) (p : BitVec 12) (moved : Bool) (h : s.hostBit m 2 = true)
    (hshows : s.alignShows m differ pos = true) : (s.hostMarkerAt m differ pos p.toNat moved).rd (txMarkerKey m) = 0x8000 + p.toNat := by
  obtain ⟨hbits, harea, -, hreport⟩ := txMarkerKey_facts m
  have hp : p.toNat < 4096 := p.isLt
  rw [hostMarkerAt_of_clock _ _ _ _ h, if_pos hshows, rd_ite, rd_latEvent _ _ harea hreport, ite_self, rd_wr_self, hbits,
    Nat.mod_eq_of_lt hp, Nat.mod_eq_of_lt (by omega)]

/-! ## The forwarded clock input (R137) -/

theorem bit_wrBit_gbStatus (s : State) (k : Fin 4) (i : Nat) (b : Bool) {j : Nat} (hj : j < 8) :
    (s.wrBit (K.PG_GB_STATUS k) i b).bit (K.PG_GB_STATUS k) j = if j = i then b else s.bit (K.PG_GB_STATUS k) j := by
  have hbits : bitsOf (K.PG_GB_STATUS k) = 16 := rfl
  rw [bit_wrBit, if_pos rfl, hbits, decide_eq_true (by omega), Bool.true_and]

variable {k : Fin 4}

/-- The group's status with the input lost. -/
def hckiGone (s : State) (k : Fin 4) : State := (s.wrBit (K.PG_GB_STATUS k) 3 false).wrBit (K.PG_GB_STATUS k) 4 true

/-- Every lane of the group loses its clock. -/
def clocksLost (s : State) (k : Fin 4) : State := forAll (hostsOf k) (fun m z => z.clkOkLost m) s

/-- Every lane of the group starts its training where it can. -/
def lanesTrain (s : State) (k : Fin 4) : State := forAll (hostsOf k) (fun m z => z.hostTrain m) s

theorem hckiLost_of_present (hpower : s.clamped (pgUnit k) = false) (hinput : s.hckiPresent k = true) :
    s.hckiLost k = if s.fwdClock k then ((s.hckiGone k).clocksLost k).raise (Src.GEARBOX_EVENT k) else s.hckiGone k :=
  if_neg (by simp [hpower, hinput])

theorem hckiLost_of_other (h : s.clamped (pgUnit k) = true ∨ s.hckiPresent k = false) : s.hckiLost k = s := by
  refine if_pos ?_
  obtain h | h := h <;> simp [h]

theorem hckiGone_onlyHosts (s : State) (k : Fin 4) : OnlyHosts [] [K.PG_GB_STATUS k] s (s.hckiGone k) :=
  (OnlyHosts.wr s _ (by simp) (by simp)).trans (.wr _ _ (by simp) (by simp))

theorem bit_hckiGone (s : State) (k : Fin 4) : (s.hckiGone k).bit (K.PG_GB_STATUS k) 3 = false ∧
    (s.hckiGone k).bit (K.PG_GB_STATUS k) 4 = true := by
  rw [hckiGone, bit_wrBit_gbStatus _ _ _ _ (by decide), bit_wrBit_gbStatus _ _ _ _ (by decide), bit_wrBit_gbStatus _ _ _ _ (by decide)]
  exact ⟨rfl, rfl⟩

theorem clocksLost_onlyHosts (s : State) (k : Fin 4) : OnlyHosts (hostsOf k) ((hostsOf k).flatMap clkLostKeys) s (s.clocksLost k) :=
  .forAllHosts (fun p z => clkOkLost_onlyHosts z p) _ s

/-- A lane of the group has lost its clock. -/
theorem host_clocksLost (s : State) {k : Fin 4} {m : Fin 32} (hm : pgOfHost m = k) :
    (s.clocksLost k).hostBit m 2 = false ∧ ((s.clocksLost k).host m).training = false := by
  obtain ⟨l₁, l₂, z, -, h2, -, hafter⟩ := host_of_pass (f := fun m z => z.clkOkLost m) (fun p z => clkOkLost_onlyHosts z p) hm s
  have hlost : forAll (hostsOf k) (fun m z => z.clkOkLost m) s = s.clocksLost k := rfl
  rw [hlost] at hafter
  have hstatus : K.HOST_RX_STATUS m ∉ l₂.flatMap clkLostKeys := fun hin => by
    obtain ⟨q, hq, hkey⟩ := List.mem_flatMap.mp hin
    have hmq : m = q := by simpa [clkLostKeys] using hkey
    exact h2 (hmq ▸ hq)
  rw [hostBit_of_rd (hafter.rd (by simp) hstatus), hostBit_clkOkLost _ _ (show 2 < 16 by decide), hafter.others m h2, host_clkOkLost]
  exact ⟨rfl, rfl⟩

/-- What the loss of a present clock input leaves. -/
theorem hckiLost_spec (hpower : s.clamped (pgUnit k) = false) (hinput : s.hckiPresent k = true) :
    (s.hckiLost k).hckiPresent k = false ∧ (s.hckiLost k).bit (K.PG_GB_STATUS k) 4 = true ∧
    (s.fwdClock k = true → Raised (s.hckiLost k) (Src.GEARBOX_EVENT k) ∧
      ∀ m, pgOfHost m = k → (s.hckiLost k).hostBit m 2 = false ∧ ((s.hckiLost k).host m).training = false) ∧
    (s.fwdClock k = false → (s.hckiLost k).hosts = s.hosts ∧ Changes [K.PG_GB_STATUS k] s (s.hckiLost k)) ∧
    ∀ m, pgOfHost m ≠ k → (s.hckiLost k).host m = s.host m := by
  have hgone := hckiGone_onlyHosts s k
  obtain ⟨h3, h4⟩ := bit_hckiGone s k
  rw [hckiLost_of_present hpower hinput]
  cases hmode : s.fwdClock k with
  | false => exact ⟨h3, h4, fun h => absurd h (by decide), fun _ => ⟨hgone.hosts, hgone.changes⟩, fun m _ => hgone.host m⟩
  | true =>
    have hlost := clocksLost_onlyHosts (s.hckiGone k) k
    have hevent : OnlyHosts [] [] ((s.hckiGone k).clocksLost k) (((s.hckiGone k).clocksLost k).raise (Src.GEARBOX_EVENT k)) := .raise _ _
    have hstatus : (((s.hckiGone k).clocksLost k).raise (Src.GEARBOX_EVENT k)).rd (K.PG_GB_STATUS k) = (s.hckiGone k).rd (K.PG_GB_STATUS k) :=
      (hevent.rd (by simp) (by simp)).trans (hlost.rd (by simp) (by simp [clkLostKeys]))
    refine ⟨(bit_of_rd hstatus 3).trans h3, (bit_of_rd hstatus 4).trans h4, fun _ => ⟨raised_raise _ _ (show 3 < 16 by decide), fun m hm => ?_⟩,
      fun h => absurd h (by decide), fun m hm => ?_⟩
    · obtain ⟨hclock, htraining⟩ := host_clocksLost (s.hckiGone k) hm
      exact ⟨(hostBit_of_rd (hevent.rd (by simp) (by simp)) 2).trans hclock, (congrArg HostS.training (hevent.host m)).trans htraining⟩
    · exact (hevent.host m).trans ((hlost.others m fun hin => hm ((mem_hostsOf k m).mp hin)).trans (hgone.host m))

theorem hckiReturn_of_absent (hpower : s.clamped (pgUnit k) = false) (hinput : s.hckiPresent k = false) :
    s.hckiReturn k = if s.fwdClock k then (s.wrBit (K.PG_GB_STATUS k) 3 true).lanesTrain k else s.wrBit (K.PG_GB_STATUS k) 3 true :=
  if_neg (by simp [hpower, hinput])

theorem hckiReturn_of_other (h : s.clamped (pgUnit k) = true ∨ s.hckiPresent k = true) : s.hckiReturn k = s := by
  refine if_pos ?_
  obtain h | h := h <;> simp [h]

theorem lanesTrain_onlyHosts (s : State) (k : Fin 4) : OnlyHosts (hostsOf k) [] s (s.lanesTrain k) :=
  (OnlyHosts.forAllHosts (g := fun _ => []) (fun p z => hostTrain_onlyHosts z p) (hostsOf k) s).mono (fun _ h => h) (by simp)

/-- A lane of the group that can has started its training. -/
theorem training_lanesTrain {k : Fin 4} {m : Fin 32} (hm : pgOfHost m = k) (hinput : s.hckiPresent k = true)
    (hsignal : s.hostBit m 1 = true) (hformat : (isB m && s.is225 (lineOfHost m)) = false) : ((s.lanesTrain k).host m).training = true := by
  obtain ⟨l₁, l₂, z, -, h2, hbefore, hafter⟩ :=
    host_of_pass (f := fun m z => z.hostTrain m) (g := fun _ => []) (fun p z => hostTrain_onlyHosts z p) hm s
  have hrd : ∀ {x : Key}, x.area ≠ none → z.rd x = s.rd x := fun ha => hbefore.rd ha (by simp)
  have hready := hostTrain_of_ready (s := z) (m := m) ((hostBit_of_rd (hrd (by simp)) 1).trans hsignal)
    (.inr (by rw [hm]; exact (bit_of_rd (hrd (by simp)) 3).trans hinput)) (by rwa [is225_of_rd (hrd (by simp))])
  have htrain : forAll (hostsOf k) (fun m z => z.hostTrain m) s = s.lanesTrain k := rfl
  rw [htrain] at hafter
  rw [hafter.others m h2, hready, host_modHost]

/-- What the return of an absent clock input leaves. -/
theorem hckiReturn_spec (hpower : s.clamped (pgUnit k) = false) (hinput : s.hckiPresent k = false) :
    (s.hckiReturn k).hckiPresent k = true ∧ Changes [K.PG_GB_STATUS k] s (s.hckiReturn k) ∧
    (s.fwdClock k = true → ∀ m, pgOfHost m = k → s.hostBit m 1 = true → (isB m && s.is225 (lineOfHost m)) = false →
      ((s.hckiReturn k).host m).training = true) ∧
    (s.fwdClock k = false → (s.hckiReturn k).hosts = s.hosts) := by
  have hback : OnlyHosts [] [K.PG_GB_STATUS k] s (s.wrBit (K.PG_GB_STATUS k) 3 true) := .wr s _ (by simp) (by simp)
  have h3 : (s.wrBit (K.PG_GB_STATUS k) 3 true).hckiPresent k = true := bit_wrBit_gbStatus s k 3 true (show 3 < 8 by decide)
  rw [hckiReturn_of_absent hpower hinput]
  cases hmode : s.fwdClock k with
  | false => exact ⟨h3, hback.changes, fun h => absurd h (by decide), fun _ => hback.hosts⟩
  | true =>
    have htrain := lanesTrain_onlyHosts (s.wrBit (K.PG_GB_STATUS k) 3 true) k
    refine ⟨(bit_of_rd (htrain.rd (by simp) (by simp)) 3).trans h3, hback.changes.trans (htrain.changes.mono (by simp)),
      fun _ m hm hsignal hformat => ?_, fun h => absurd h (by decide)⟩
    exact training_lanesTrain hm h3 ((hostBit_of_rd (hback.rd (by simp) (by simp)) 1).trans hsignal)
      (by rwa [is225_of_rd (hback.rd (by simp) (by simp))])

end State

end Sys2Proof.Machine
end

section
/-!
SUPPORT. The commands of the host receivers (R133 to R139), from the rules of their operations.
-/

namespace Sys2Proof.Machine

namespace State

variable {s : State} {m : Fin 32}

theorem exec_hostSignalClear_powered (hpower : s.clamped (laneUnit (lineOfHost m)) = false) :
    exec (.hostSignalClear m) s = .next (s.hostSignalClear m) := by
  rw [exec_hostSignalClear, execHostSignalClear, if_neg (by simp [hpower])]

theorem exec_hostSignalClear_idle (h : s.clamped (laneUnit (lineOfHost m)) = true ∨ s.rd (K.HOST_LOS_THR m) = 0 ∨ s.hostBit m 1 = false) :
    exec (.hostSignalClear m) s = .next s := by
  rw [exec_hostSignalClear, execHostSignalClear]
  obtain hclamped | hother := h
  · rw [if_pos hclamped]
  · rw [hostSignalClear_of_other hother, ite_self]

theorem exec_hostSignalSet_powered (hpower : s.clamped (laneUnit (lineOfHost m)) = false) :
    exec (.hostSignalSet m) s = .next (s.hostSignalSet m) := by
  rw [exec_hostSignalSet, execHostSignalSet, if_neg (by simp [hpower])]

theorem exec_hostSignalSet_idle (h : s.clamped (laneUnit (lineOfHost m)) = true ∨ s.hostBit m 1 = true) :
    exec (.hostSignalSet m) s = .next s := by
  rw [exec_hostSignalSet, execHostSignalSet]
  obtain hclamped | hsignal := h
  · rw [if_pos hclamped]
  · rw [hostSignalSet_of_signal hsignal, ite_self]

/-- The clock's lock is the event of the clock mode in force. -/
theorem exec_of_clockLock {phase : Fin 602353} {c : Instr}
    (h : c = .hckiTrainingDone m phase ∧ s.fwdClock (pgOfHost m) = true ∨ c = .hostCdrLock m phase ∧ s.fwdClock (pgOfHost m) = false) :
    exec c s = .next (s.clkOkSet m phase.val) := by
  obtain ⟨rfl, hmode⟩ | ⟨rfl, hmode⟩ := h
  · rw [exec_hckiTrainingDone, execHckiTrainingDone, if_pos hmode]
  · rw [exec_hostCdrLock, execHostCdrLock, if_neg (by simp [hmode])]

theorem exec_hckiTrainingDone_idle {phase : Fin 602353} (h : s.fwdClock (pgOfHost m) = false ∨ (s.host m).training = false) :
    exec (.hckiTrainingDone m phase) s = .next s := by
  rw [exec_hckiTrainingDone, execHckiTrainingDone]
  obtain hmode | hidle := h
  · rw [if_neg (by simp [hmode])]
  · rw [clkOkSet_of_idle _ hidle, ite_self]

theorem exec_hostCdrLock_idle {phase : Fin 602353} (h : s.fwdClock (pgOfHost m) = true ∨ (s.host m).training = false) :
    exec (.hostCdrLock m phase) s = .next s := by
  rw [exec_hostCdrLock, execHostCdrLock]
  obtain hmode | hidle := h
  · rw [if_pos hmode]
  · rw [clkOkSet_of_idle _ hidle, ite_self]

/-- What a pattern met by the alignment monitor leaves. -/
theorem hostMarkerAt_spec (differ : BitVec 8) (pos : BitVec 64) (p : BitVec 12) (moved : Bool) (h : s.hostBit m 2 = true) {good : Bool}
    (hgood : good = decide (differ.toNat ≤ 8)) {a : Marker} (ha : a = (s.host m).align) {t : State}
    (ht : t = s.hostMarkerAt m differ.toNat pos.toNat p.toNat moved) :
    (a.st = .hunt → (t.host m).align.st = if good then .confirm else .hunt) ∧
    (a.st ≠ .hunt → pos.toNat ≠ a.expected → (t.host m).align = a) ∧
    (a.st = .confirm → pos.toNat = a.expected →
      (t.host m).align.st = if good then (if 3 ≤ a.good then .lock else .confirm) else .hunt) ∧
    (a.st = .lock → pos.toNat = a.expected → (t.host m).align.st = if !good && decide (2 ≤ a.bad) then .hunt else .lock) ∧
    ((t.host m).align.st = .hunt ∨ (t.host m).align = a ∨
      (t.host m).align.expected = pos.toNat + Config.markerPeriod (s.rd (K.PG_MODE (pgOfHost m)))) ∧
    t.hostBit m 4 = ((t.host m).align.st == .lock) ∧
    (s.hostBit m 4 ≠ t.hostBit m 4 → Raised t (Src.HOST_ALIGN_CHG (pgOfHost m))) ∧
    (t.hostBit m 4 = true → good = true → (s.host m).filled = false → t.rd (txMarkerKey m) = 0x8000 + p.toNat) ∧
    SameLanes s t ∧ ∀ q, q ≠ m → t.host q = s.host q := by
  have hmoved := alignMoved_onlyHosts s m differ.toNat pos.toNat
  have hshown := hostMarkerAt_shownAfter differ.toNat pos.toNat p.toNat moved h
  rw [← ht] at hshown
  have halign : (t.host m).align = (a.judge good pos.toNat (Config.markerPeriod (s.rd (K.PG_MODE (pgOfHost m))))).1 := by
    rw [hshown.host, align_alignMoved, ha, hgood]
    rfl
  have hbit : t.hostBit m 4 = (s.alignMoved m differ.toNat pos.toNat).hostBit m 4 := hostBit_of_rd hshown.status 4
  have hlock : t.hostBit m 4 = ((t.host m).align.st == .lock) := by rw [hbit, hostBit_alignMoved, hshown.host, align_alignMoved]
  obtain ⟨hhunt, helsewhere, hconfirm, hlocked, hexpected⟩ :=
    a.judge_spec good pos.toNat (Config.markerPeriod (s.rd (K.PG_MODE (pgOfHost m))))
  rw [← halign] at hhunt helsewhere hconfirm hlocked hexpected
  refine ⟨hhunt, helsewhere, hconfirm, hlocked, hexpected, hlock, fun hne => ?_, fun h4 hg hf => ?_, ?_, fun q hq => ?_⟩
  · exact hshown.raised _ (show 1 < 16 by decide) (raised_alignMoved (by rwa [← hbit]))
  · have hshows : s.alignShows m differ.toNat pos.toNat = true := by
      have hst : ((s.alignJudged m differ.toNat pos.toNat).st == .lock) = true := by rw [← hostBit_alignMoved, ← hbit, h4]
      have hmarker : markerGood differ.toNat = true := by rw [← hg, hgood]; rfl
      rw [alignShows, hst, hmarker, hf]
      rfl
    rw [ht, rd_hostMarkerAt _ _ _ _ h hshows]
  · exact (SameLanes.of_lanes hmoved.lanes).trans hshown.lanes
  · rw [hshown.host, hmoved.others q (by simpa using hq)]

end State

open State in
/-- Settles O24: each command is its operation where its event can have happened, and leaves the state alone elsewhere. -/
theorem hostReceivers : Obligations.HostReceivers := by
  unfold Obligations.HostReceivers
  refine ⟨?_, ?_, ?_, ?_, ?_, ?_, ?_, ?_, ?_, ?_, ?_, ?_, ?_, ?_, ?_⟩
  · intro s m hpower hthr hsignal
    exact ⟨_, exec_hostSignalClear_powered hpower, hostSignalClear_spec hthr hsignal⟩
  · intro s m h
    exact ⟨s, exec_hostSignalClear_idle h, rfl⟩
  · intro s m hpower hsignal
    exact ⟨_, exec_hostSignalSet_powered hpower, hostSignalSet_spec hsignal⟩
  · intro s m h
    exact ⟨s, exec_hostSignalSet_idle h, rfl⟩
  · intro s m phase c hc htraining
    exact ⟨_, exec_of_clockLock hc, clkOkSet_spec phase.val htraining⟩
  · intro s m phase h
    exact ⟨s, exec_hckiTrainingDone_idle h, rfl⟩
  · intro s m phase h
    exact ⟨s, exec_hostCdrLock_idle h, rfl⟩
  · intro s m ctle hacq
    exact ⟨_, rfl, hostAcqEnd_spec ctle.toNat hacq⟩
  · intro s m ctle hacq
    exact ⟨_, rfl, hostAcqEnd_of_other ctle.toNat hacq⟩
  · intro s m differ pos p moved hclock good hgood a ha
    exact ⟨_, rfl, hostMarkerAt_spec differ pos p moved hclock hgood ha rfl⟩
  · intro s m differ pos p moved hclock
    exact ⟨_, rfl, hostMarkerAt_of_no_clock _ _ _ _ hclock⟩
  · intro s k hpower hinput
    exact ⟨_, rfl, hckiLost_spec hpower hinput⟩
  · intro s k h
    exact ⟨_, rfl, hckiLost_of_other h⟩
  · intro s k hpower hinput
    exact ⟨_, rfl, hckiReturn_spec hpower hinput⟩
  · intro s k h
    exact ⟨_, rfl, hckiReturn_of_other h⟩

end Sys2Proof.Machine
end

section
/-!
SUPPORT. Writes that wait for their boundary (R388): what of the dictionary's own record the counting of a request leaves alone, and what
an accepted write leaves among the waiting ones.
-/

namespace Sys2Proof.Machine

/-- The value of one byte. -/
theorem beNat_be_one (v : BitVec 8) : beNat (be 1 v.toNat) = v.toNat := by simp [be, beNat]

namespace State

variable (s : State)

/-! ## The dictionary's record (R377, R477) -/

theorem raiseIn_od (x : Src) (d : Key) (b : Nat) : (s.raiseIn x d b).od = s.od := raise_od _ _

theorem slotReplaced_od (u : Fin 22) : (s.slotReplaced u).od = s.od := by
  unfold slotReplaced
  split
  · rfl
  · rw [raiseIn_od, incSat_od, wr_od]

theorem bankFail_od (b : Nat) : (s.bankFail b).od = s.od := by
  unfold bankFail
  dsimp only
  refine (forAll_keep (fun z => z.od) (fun u _ z => modUnit_od z u _) _).trans ?_
  rw [raise_od, record_od, incSat_od, wrBit_od]

theorem bankCheck_od (u : Fin 22) : (s.bankCheck u).od = s.od := by
  unfold bankCheck
  split
  · exact forAll_keep (fun z => z.od) (fun b _ z => bankFail_od z b) s.fresh.2
  · rfl

theorem coreWake_od : s.coreWake.od = s.od := by
  have hwake : (s.wakingTo 21 0).od = s.od := rfl
  unfold coreWake
  split
  · rw [modUnit_od, slotReplaced_od]
  · split
    · rw [bankCheck_od, hwake]
    · rfl
  · dsimp only
    split
    · rw [slotReplaced_od]
    · rw [modUnit_od, slotReplaced_od]

theorem pcEvent_od (cls n : Nat) : (s.pcEvent cls n).od = s.od := (pcEvent_onlyCounts cls n (.refl s)).2

theorem counted_od (k : Key) (v : Verdict) : (s.counted k v).od = s.od := by
  have hasked : (s.taken.coreAsked k v).od = s.od := by
    unfold coreAsked
    split
    · exact pcEvent_od _ _ _
    · split
      · rw [coreWake_od]
        exact pcEvent_od _ _ _
      · rw [coreWake_od]
        exact pcEvent_od _ _ _
      · exact pcEvent_od _ _ _
  unfold counted when_
  split
  · rw [pcEvent_od, hasked]
  · exact hasked

theorem countOwnerWrite_od (r : Fin 18) : (s.countOwnerWrite r).od = s.od := by
  unfold countOwnerWrite
  split <;> rfl

theorem markDirty_waiting (r q : Fin 18) (k : Key) (data : List Byte) : (s.markDirty r k data).od.waiting = s.od.waiting ∧
    ((s.markDirty r k data).req q).epoch = (s.req q).epoch := by
  unfold markDirty
  split
  · split
    · refine ⟨rfl, ?_⟩
      by_cases hq : q = r
      · rw [hq, req_modReq]
      · rw [req_modReq_ne _ _ hq]
    · exact ⟨rfl, rfl⟩
  · exact ⟨rfl, rfl⟩

/-- The request itself leaves the waiting writes, and the fences that its requester sent. -/
theorem admitted_waiting (r q : Fin 18) (k : Key) (data : List Byte) : (s.admitted r k data).od.waiting = s.od.waiting ∧
    ((s.admitted r k data).req q).epoch = (s.req q).epoch := by
  obtain ⟨hwaiting, hepoch⟩ := markDirty_waiting ((s.counted k .ok).countOwnerWrite r) r q k data
  have hod : ((s.counted k .ok).countOwnerWrite r).od = s.od := (countOwnerWrite_od _ _).trans (counted_od _ _ _)
  have hreq : ((s.counted k .ok).countOwnerWrite r).req q = s.req q := by rw [req, req, hod]
  rw [hod] at hwaiting
  rw [hreq] at hepoch
  exact ⟨hwaiting, hepoch⟩

theorem noteUnsaved_waiting (k : Key) : (s.noteUnsaved k).od.waiting = s.od.waiting := by
  unfold noteUnsaved
  split
  · split <;> rfl
  · rfl

/-- After an accepted write wait those that its effect leaves waiting. -/
theorem write_waiting {s : State} {r : Fin 18} {k : Key} {data : List Byte} (eff : State → State) (h : s.accepts r k data = true) :
    (s.write r k data eff).od.waiting = (eff (s.admitted r k data)).od.waiting := by
  have hanswered : ∀ z : State, (z.answered r .ok).od.waiting = z.od.waiting := fun _ => rfl
  rw [write_ok s eff h, hanswered, noteUnsaved_waiting]

theorem defer_waiting (b : Bound) (r : Fin 18) (k : Key) (data : List Byte) : (s.defer b r k data).od.waiting =
    s.od.waiting ++ [{ req := r, epoch := (s.req r).epoch, bound := b, grp := false, writes := [(k, data)] }] := rfl

/-- A superseded write waits no longer. -/
theorem not_waiting_dropWaiting (p : Key → Bool) {g : Waiting} (hg : g ∈ (s.dropWaiting p).od.waiting) {w : Key × List Byte}
    (hw : w ∈ g.writes) : p w.1 = false := by
  obtain ⟨q, -, rfl⟩ := List.mem_map.mp hg
  simpa using (List.mem_filter.mp hw).2

end State

end Sys2Proof.Machine
end

section
/-!
SUPPORT. The host FEC mode (R153, R173): it waits for its period boundary, or takes effect at once with a setting of the group's lanes.
-/

namespace Sys2Proof.Machine

namespace State

variable {s : State} {k : Fin 4}

/-! ## A setting of R173 -/

theorem cfgChanged_onlyLanes (s : State) (n : Fin 16) : OnlyLanes [n] s (s.cfgChanged n) :=
  .ite _ ((epochLatency_onlyLanes s n).trans (latEvent_onlyLanes _ n _)) (.modLane s n _)

theorem epochLatency_od (s : State) (n : Fin 16) : (s.epochLatency n).od = s.od := by
  have hparts : (s.latRecompute n).od = s.od := by
    unfold latRecompute
    dsimp only
    rw [wrI_od, wrI_od, modLane_od]
  unfold epochLatency
  dsimp only
  split
  · rw [raise_od, hparts]
  · exact hparts

theorem cfgChanged_od (s : State) (n : Fin 16) : (s.cfgChanged n).od = s.od := by
  unfold cfgChanged
  split
  · rw [latEvent_od, epochLatency_od]
  · rfl

/-! ## The mode takes effect -/

/-- To or from terminate the lanes of the group take a setting of R173. -/
theorem effPgFecMode_eq (s : State) (k : Fin 4) (v : Nat) : effPgFecMode k v s =
    if (s.rd (K.PG_FEC_MODE k) = 2) = (v = 2) then s.wr (K.PG_FEC_MODE k) v
    else forAll (lanesOf k) (fun n z => z.cfgChanged n) (s.wr (K.PG_FEC_MODE k) v) := rfl

theorem effPgFecMode_onlyLanes (s : State) (k : Fin 4) (v : Nat) :
    OnlyLanes (lanesOf k) (s.wr (K.PG_FEC_MODE k) v) (effPgFecMode k v s) := by
  rw [effPgFecMode_eq]
  exact .ite _ (.refl _ _) (.forAll (fun n z => cfgChanged_onlyLanes z n) _ _)

theorem rd_effPgFecMode (s : State) (k : Fin 4) (v : BitVec 8) : (effPgFecMode k v.toNat s).rd (K.PG_FEC_MODE k) = v.toNat := by
  have hbits : bitsOf (K.PG_FEC_MODE k) = 8 := rfl
  rw [(effPgFecMode_onlyLanes s k _).rd_pg, rd_wr_self, hbits, Nat.mod_eq_of_lt v.isLt]

theorem effPgFecMode_od (s : State) (k : Fin 4) (v : Nat) : (effPgFecMode k v s).od = s.od := by
  rw [effPgFecMode_eq]
  split
  · rfl
  · exact forAll_keep (fun z => z.od) (fun n _ z => cfgChanged_od z n) _

/-! ## The write of the mode -/

theorem fecModeWaits_iff (s : State) (k : Fin 4) (v : BitVec 8) :
    fecModeWaits k v.toNat s = true ↔ (s.rd (K.PG_FEC_MODE k) = 2 ↔ v = 2) := by
  have hv : v.toNat = 2 ↔ v = 2 := ⟨fun h => BitVec.eq_of_toNat_eq h, fun h => by rw [h]; rfl⟩
  rw [fecModeWaits, beq_iff_eq, Bool.eq_iff_iff, beq_iff_eq, beq_iff_eq, hv]

/-- The effect of the write (R153). -/
def fecModeWrite (r : Fin 18) (k : Fin 4) (v : Nat) (s : State) : State :=
  if fecModeWaits k v s then s.defer (.period k) r (K.PG_FEC_MODE k) (be 1 v) else fecModeNow k v s

theorem exec_pgFecModeWrite_eq (s : State) (r : Fin 18) (k : Fin 4) (v : BitVec 8) : exec (.pgFecModeWrite r k v) s =
    .next (s.write r (K.PG_FEC_MODE k) (be 1 v.toNat) (fecModeWrite r k v.toNat)) := rfl

variable {r : Fin 18} {v : BitVec 8}

theorem fecModeWaits_admitted (data : List Byte) :
    fecModeWaits k v.toNat (s.admitted r (K.PG_FEC_MODE k) data) = true ↔ (s.rd (K.PG_FEC_MODE k) = 2 ↔ v = 2) := by
  rw [fecModeWaits_iff, rd_admitted _ _ _ _ _ (by simp)]

/-- Between pass and monitor the write waits for its boundary. -/
theorem write_fecMode_waits (hacc : s.accepts r (K.PG_FEC_MODE k) (be 1 v.toNat) = true) (h : s.rd (K.PG_FEC_MODE k) = 2 ↔ v = 2) :
    let t := s.write r (K.PG_FEC_MODE k) (be 1 v.toNat) (fecModeWrite r k v.toNat)
    t.od.waiting = s.od.waiting ++ [{ req := r, epoch := (s.req r).epoch, bound := .period k, grp := false
                                      writes := [(K.PG_FEC_MODE k, be 1 v.toNat)] }] ∧
    t.lanes = s.lanes ∧ Changes [] s t := by
  obtain ⟨hwaiting, hepoch⟩ := admitted_waiting s r r (K.PG_FEC_MODE k) (be 1 v.toNat)
  have heff : fecModeWrite r k v.toNat (s.admitted r (K.PG_FEC_MODE k) (be 1 v.toNat)) =
      (s.admitted r (K.PG_FEC_MODE k) (be 1 v.toNat)).defer (.period k) r (K.PG_FEC_MODE k) (be 1 v.toNat) :=
    if_pos ((fecModeWaits_admitted _).mpr h)
  refine ⟨?_, ?_, write_changes _ _ hacc ?_⟩
  · rw [write_waiting _ hacc, heff, ← hwaiting, ← hepoch]
    exact defer_waiting _ _ _ _ _
  · rw [write_lanes _ _ hacc, heff, defer_lanes, admitted_lanes]
  · rw [heff, changes_iff]
    exact fun x _ _ => defer_rd _ _ _ _ _ x

/-- To or from terminate it takes effect at once, over an earlier one that waits. -/
theorem write_fecMode_now (hacc : s.accepts r (K.PG_FEC_MODE k) (be 1 v.toNat) = true) (h : ¬(s.rd (K.PG_FEC_MODE k) = 2 ↔ v = 2)) :
    let t := s.write r (K.PG_FEC_MODE k) (be 1 v.toNat) (fecModeWrite r k v.toNat)
    t.rd (K.PG_FEC_MODE k) = v.toNat ∧ (∀ g ∈ t.od.waiting, ∀ w ∈ g.writes, w.1 ≠ K.PG_FEC_MODE k) ∧
    ∀ n, pgOf n ≠ k → t.lane n = s.lane n := by
  have heff : fecModeWrite r k v.toNat (s.admitted r (K.PG_FEC_MODE k) (be 1 v.toNat)) =
      effPgFecMode k v.toNat ((s.admitted r (K.PG_FEC_MODE k) (be 1 v.toNat)).dropWaiting fun q => q == K.PG_FEC_MODE k) :=
    if_neg fun hw => h ((fecModeWaits_admitted _).mp hw)
  refine ⟨?_, fun g hg w hw => ?_, fun n hn => ?_⟩
  · rw [write_rd _ _ hacc, heff, rd_effPgFecMode]
  · rw [write_waiting _ hacc, heff, effPgFecMode_od] at hg
    simpa using not_waiting_dropWaiting _ _ hg hw
  · have hdrop : ∀ (z : State) (p : Key → Bool), (z.dropWaiting p).lane n = z.lane n := fun _ _ => rfl
    rw [write_lane _ _ hacc, heff, (effPgFecMode_onlyLanes _ k _).others n fun hin => hn ((mem_lanesOf k n).mp hin), lane_wr, hdrop,
      admitted_lane]

/-- At its boundary the waiting mode takes effect, and is noted for the flash copy. -/
theorem applyNow_fecMode (s : State) (r : Fin 18) (k : Fin 4) (v : BitVec 8) :
    s.applyNow r (K.PG_FEC_MODE k) (be 1 v.toNat) 0 = (effPgFecMode k v.toNat s).noteUnsaved (K.PG_FEC_MODE k) := by
  have hv := beNat_be_one v
  generalize be 1 v.toNat = data at hv
  rw [← hv]
  rfl

end State

end Sys2Proof.Machine
end

section
/-!
SUPPORT. A lane's capture buffer at the period boundary of its group (R140, R148): one rule for each thing its fill can mean.
-/

namespace Sys2Proof.Machine

/-- The host lane of index `j` in group `k`. -/
def laneAt (k : Fin 4) (j : Fin 8) : Fin 32 := ⟨8 * k.val + j.val, by omega⟩

theorem laneAt_injective (k : Fin 4) : Function.Injective (laneAt k) := fun i j h => by
  have hval : 8 * k.val + i.val = 8 * k.val + j.val := congrArg Fin.val h
  exact Fin.ext (by omega)

/-- Its line lane is one of the group's, the one of its pair. -/
theorem lineOfHost_laneAt (k : Fin 4) (j : Fin 8) :
    pgOf (lineOfHost (laneAt k j)) = k ∧ j.val / 2 = (lineOfHost (laneAt k j)).val % 4 := by
  have hval : (lineOfHost (laneAt k j)).val = (8 * k.val + j.val) / 2 := rfl
  refine ⟨Fin.ext ?_, by omega⟩
  show (lineOfHost (laneAt k j)).val / 4 = k.val
  omega

namespace State

theorem txSlipKey_eq (m : Fin 32) : txSlipKey m = ⟨.line (lineOfHost m), 0x3A, if isB m then 6 else 5⟩ := by
  unfold txSlipKey
  split <;> rfl

/-- Each host lane has an entry of its own. -/
theorem txSlipKey_injective : Function.Injective txSlipKey := fun p q h => by
  rw [txSlipKey_eq, txSlipKey_eq] at h
  have hhalf : p.val / 2 = q.val / 2 := congrArg Fin.val (Blk.line.inj (congrArg Key.blk h))
  have hsub : (if isB p then 6 else 5) = if isB q then 6 else 5 := congrArg Key.sub h
  simp only [isB, beq_iff_eq] at hsub
  have hparity : p.val % 2 = q.val % 2 := by split at hsub <;> split at hsub <;> omega
  exact Fin.ext (by omega)

variable (s : State) (k : Fin 4) (j : Fin 8) (fill : Nat)

/-! ## What a fill means (R140, R148) -/

/-- The fill is taken over. -/
def filledTo (s : State) (m : Fin 32) (fill : Nat) : State := s.modHost m fun h => { h with fill := fill }

/-- The read point moves by 64 symbols toward the centre, and the lane's slip by one. -/
def slipMoved (s : State) (m : Fin 32) (fill : Nat) : State :=
  ((s.filledTo m fill).modHost m fun h => { h with fill := if decide (124 ≤ fill) then fill - 64 else fill + 64, refind := 4 }).wrI
    (txSlipKey m) (clampI (-32767) 32767 (s.rdI (txSlipKey m) + if decide (124 ≤ fill) then -1 else 1))

/-- The slip is counted and shown. -/
def slipped (s : State) (k : Fin 4) (m : Fin 32) (fill : Nat) : State :=
  (((((s.slipMoved m fill).setHostBit m 6 true).incSat (K.HOST_RX_SLIPS m)).incSat (K.PG_GB_SLIPS k)).wrBit (K.PG_GB_STATUS k) 1 true).raise
    (Src.GEARBOX_EVENT k)

theorem hostFill_eq : s.hostFill k j fill =
    if !s.hostBit (laneAt k j) 3 || (decide (4 < fill) && decide (fill < 124)) then (s.filledTo (laneAt k j) fill, 0)
    else if (s.pg k).gb != .locked then
      ((s.filledTo (laneAt k j) fill).modHost (laneAt k j) fun h => { h with slipDue := (s.pg k).gb == .wait }, 0)
    else if s.now < (s.pg k).lockedAt + 18 then ((s.filledTo (laneAt k j) fill).recapture (laneAt k j), 0)
    else (s.slipped k (laneAt k j) fill, causeSlip (isB (laneAt k j))) := rfl

/-- The entries that a fill may change: the lane's own, and the group's count and status. -/
def fillKeys (k : Fin 4) (m : Fin 32) : List Key :=
  [K.HOST_RX_STATUS m, K.HOST_RX_SLIPS m, K.HOST_RX_CAPTURE_FRAC m, txSlipKey m, K.PG_GB_SLIPS k, K.PG_GB_STATUS k]

theorem filledTo_onlyHosts (m : Fin 32) (ks : List Key) : OnlyHosts [m] ks s (s.filledTo m fill) := .modHost s _ (by simp)

theorem recapture_onlyHosts (m : Fin 32) : OnlyHosts [m] [K.HOST_RX_CAPTURE_FRAC m, txSlipKey m] s (s.recapture m) :=
  (OnlyHosts.fresh _ _ s).trans (capture_onlyHosts s.fresh.2 m _)

theorem slipMoved_onlyHosts (m : Fin 32) : OnlyHosts [m] [txSlipKey m] s (s.slipMoved m fill) :=
  ((filledTo_onlyHosts s fill m _).trans (.modHost _ _ (by simp))).trans (.wr _ _ (by simp) (area_txSlipKey m))

theorem slipped_onlyHosts (m : Fin 32) : OnlyHosts [m] (fillKeys k m) s (s.slipped k m fill) :=
  ((((((slipMoved_onlyHosts s fill m).mono (fun _ h => h) (by simp [fillKeys])).trans
    ((setHostBit_onlyHosts _ m 6 true).mono (by simp) (by simp [fillKeys]))).trans (.wr _ _ (by simp [fillKeys]) (by simp))).trans
    (.wr _ _ (by simp [fillKeys]) (by simp))).trans (.wr _ _ (by simp [fillKeys]) (by simp))).trans (.raise _ _)

theorem hostFill_onlyHosts : OnlyHosts [laneAt k j] (fillKeys k (laneAt k j)) s (s.hostFill k j fill).1 := by
  rw [hostFill_eq]
  split
  · exact filledTo_onlyHosts _ _ _ _
  · split
    · dsimp only
      exact (filledTo_onlyHosts s fill (laneAt k j) _).trans (.modHost _ _ (List.mem_singleton_self _))
    · split
      · exact (filledTo_onlyHosts _ _ _ _).trans ((recapture_onlyHosts _ _).mono (fun _ h => h) (by simp [fillKeys]))
      · exact slipped_onlyHosts _ _ _ _

variable {s k j fill}

/-! ## The lane after its fill -/

theorem hostFill_quiet (h : s.hostBit (laneAt k j) 3 = false ∨ (4 < fill ∧ fill < 124)) :
    s.hostFill k j fill = (s.filledTo (laneAt k j) fill, 0) := by
  rw [hostFill_eq]
  refine if_pos ?_
  obtain h | ⟨hlo, hhi⟩ := h
  · simp [h]
  · simp [hlo, hhi]

/-- At 4 or at 124 symbols, the receiver's capture fixed, it goes by the group's gearbox. -/
theorem hostFill_edge (hok : s.hostBit (laneAt k j) 3 = true) (hedge : fill ≤ 4 ∨ 124 ≤ fill) : s.hostFill k j fill =
    if (s.pg k).gb != .locked then
      ((s.filledTo (laneAt k j) fill).modHost (laneAt k j) fun h => { h with slipDue := (s.pg k).gb == .wait }, 0)
    else if s.now < (s.pg k).lockedAt + 18 then ((s.filledTo (laneAt k j) fill).recapture (laneAt k j), 0)
    else (s.slipped k (laneAt k j) fill, causeSlip (isB (laneAt k j))) := by
  rw [hostFill_eq, if_neg]
  rw [hok, Bool.not_true, Bool.false_or, Bool.and_eq_true, decide_eq_true_eq, decide_eq_true_eq]
  omega

theorem hostFill_unlocked (hok : s.hostBit (laneAt k j) 3 = true) (hedge : fill ≤ 4 ∨ 124 ≤ fill) (hgb : (s.pg k).gb ≠ .locked) :
    s.hostFill k j fill =
      ((s.filledTo (laneAt k j) fill).modHost (laneAt k j) fun h => { h with slipDue := (s.pg k).gb == .wait }, 0) := by
  rw [hostFill_edge hok hedge, if_pos (by simpa using hgb)]

theorem hostFill_relock (hok : s.hostBit (laneAt k j) 3 = true) (hedge : fill ≤ 4 ∨ 124 ≤ fill) (hgb : (s.pg k).gb = .locked)
    (hnow : s.now < (s.pg k).lockedAt + 18) :
    s.hostFill k j fill = ((s.filledTo (laneAt k j) fill).recapture (laneAt k j), 0) := by
  rw [hostFill_edge hok hedge, if_neg (by simp [hgb]), if_pos hnow]

theorem hostFill_slip (hok : s.hostBit (laneAt k j) 3 = true) (hedge : fill ≤ 4 ∨ 124 ≤ fill) (hgb : (s.pg k).gb = .locked)
    (hnow : (s.pg k).lockedAt + 18 ≤ s.now) :
    s.hostFill k j fill = (s.slipped k (laneAt k j) fill, causeSlip (isB (laneAt k j))) := by
  rw [hostFill_edge hok hedge, if_neg (by simp [hgb]), if_neg (by omega)]

theorem slipMoved_spec (s : State) (m : Fin 32) (fill : Nat) :
    ((s.slipMoved m fill).host m).fill = (if 124 ≤ fill then fill - 64 else fill + 64) ∧
    (s.slipMoved m fill).rdI (txSlipKey m) = clampI (-32767) 32767 (s.rdI (txSlipKey m) + if 124 ≤ fill then -1 else 1) := by
  obtain ⟨hbits, -, -⟩ := txSlipKey_facts m
  have hclamp : ∀ i : Int, -32768 ≤ clampI (-32767) 32767 i ∧ clampI (-32767) 32767 i ≤ 32767 := fun i => by
    unfold clampI
    split
    · omega
    · split <;> omega
  constructor
  · have hwrI : ∀ (z : State) (x : Key) (i : Int), (z.wrI x i).host m = z.host m := fun _ _ _ => rfl
    rw [slipMoved, hwrI, host_modHost]
    simp
  · rw [slipMoved, rdI_wrI_of_16 _ hbits (hclamp _).1 (hclamp _).2]
    simp

/-- An entry that the count and the group's status are not, after a slip. -/
theorem rd_slipped (s : State) (k : Fin 4) (m : Fin 32) (fill : Nat) {x : Key} (ha : x.area ≠ none) (hstatus : x ≠ K.PG_GB_STATUS k)
    (hcount : x ≠ K.PG_GB_SLIPS k) : (s.slipped k m fill).rd x =
      if x = K.HOST_RX_SLIPS m then min (((s.slipMoved m fill).setHostBit m 6 true).rd (K.HOST_RX_SLIPS m) + 1) (2 ^ bitsOf (K.HOST_RX_SLIPS m) - 1)
      else ((s.slipMoved m fill).setHostBit m 6 true).rd x := by
  rw [slipped, rd_raise_area _ _ _ ha, rd_wrBit_ne _ _ _ hstatus, rd_incSat, if_neg hcount, rd_incSat]

/-- What a slip leaves of its lane and its group. -/
theorem slipped_spec (s : State) (k : Fin 4) (m : Fin 32) (fill : Nat) :
    ((s.slipped k m fill).host m).fill = (if 124 ≤ fill then fill - 64 else fill + 64) ∧
    (s.slipped k m fill).rdI (txSlipKey m) = clampI (-32767) 32767 (s.rdI (txSlipKey m) + if 124 ≤ fill then -1 else 1) ∧
    CountsUp s (s.slipped k m fill) (K.HOST_RX_SLIPS m) 1 ∧ (s.slipped k m fill).hostBit m 6 = true ∧
    (s.slipped k m fill).bit (K.PG_GB_STATUS k) 1 = true ∧ Raised (s.slipped k m fill) (Src.GEARBOX_EVENT k) := by
  obtain ⟨hfill, hslip⟩ := slipMoved_spec s m fill
  have hown : ∀ {x : Key}, (∀ n, x.blk ≠ .line n) → txSlipKey m ≠ x := fun h e => txSlipKey_ne m h e.symm
  have hmoved := slipMoved_onlyHosts s fill m
  have hbit := setHostBit_onlyHosts (s.slipMoved m fill) m 6 true
  refine ⟨?_, ?_, ?_, ?_, ?_, raised_raise _ _ (show 3 < 16 by decide)⟩
  · have hsat : ∀ (z : State) (x : Key), (z.incSat x).host m = z.host m := fun _ _ => rfl
    have hwrBit : ∀ (z : State) (x : Key) (i : Nat) (b : Bool), (z.wrBit x i b).host m = z.host m := fun _ _ _ _ => rfl
    rw [slipped, raise_host, hwrBit, hsat, hsat, hbit.host, hfill]
  · have hrd := rd_slipped s k m fill (area_txSlipKey m) (hown (by simp)) (hown (by simp))
    rw [if_neg (hown (by simp))] at hrd
    rw [rdI_of_rd (hrd.trans (rd_wrBit_ne _ _ _ (hown (by simp)))), hslip]
  · rw [CountsUp, rd_slipped _ _ _ _ (by simp) (by simp) (by simp), if_pos rfl, hbit.rd (by simp) (by simp),
      hmoved.rd (by simp) (by simpa using txSlipKey_ne m (by simp))]
  · have hrd := rd_slipped s k m fill (x := K.HOST_RX_STATUS m) (by simp) (by simp) (by simp)
    rw [if_neg (by simp)] at hrd
    rw [hostBit_of_rd hrd, hostBit_setHostBit _ _ _ _ (show 6 < 16 by decide), if_pos rfl]
  · rw [slipped, bit_of_rd (rd_raise_area _ _ _ (by simp)), bit_wrBit_gbStatus _ _ _ _ (by decide), if_pos rfl]

/-- What a lane's fill leaves of the lane, and where it slips of its group, before the report. -/
structure FillSpec (k : Fin 4) (m : Fin 32) (fill : Nat) (s t : State) : Prop where
  quiet : s.hostBit m 3 = false ∨ (4 < fill ∧ fill < 124) → (t.host m).fill = fill ∧ t.rdI (txSlipKey m) = s.rdI (txSlipKey m) ∧
    t.rd (K.HOST_RX_SLIPS m) = s.rd (K.HOST_RX_SLIPS m)
  unlocked : s.hostBit m 3 = true → fill ≤ 4 ∨ 124 ≤ fill → (s.pg k).gb ≠ .locked →
    (t.host m).fill = fill ∧ (t.host m).slipDue = ((s.pg k).gb == .wait) ∧ t.rdI (txSlipKey m) = s.rdI (txSlipKey m) ∧
    t.rd (K.HOST_RX_SLIPS m) = s.rd (K.HOST_RX_SLIPS m)
  relock : s.hostBit m 3 = true → fill ≤ 4 ∨ 124 ≤ fill → (s.pg k).gb = .locked → s.now < (s.pg k).lockedAt + 18 →
    (t.host m).fill = 64 ∧ t.rdI (txSlipKey m) = 0 ∧ t.rd (K.HOST_RX_SLIPS m) = s.rd (K.HOST_RX_SLIPS m)
  slip : s.hostBit m 3 = true → fill ≤ 4 ∨ 124 ≤ fill → (s.pg k).gb = .locked → (s.pg k).lockedAt + 18 ≤ s.now →
    (t.host m).fill = (if 124 ≤ fill then fill - 64 else fill + 64) ∧
    t.rdI (txSlipKey m) = clampI (-32767) 32767 (s.rdI (txSlipKey m) + if 124 ≤ fill then -1 else 1) ∧
    CountsUp s t (K.HOST_RX_SLIPS m) 1 ∧ t.hostBit m 6 = true ∧ t.bit (K.PG_GB_STATUS k) 1 = true ∧ Raised t (Src.GEARBOX_EVENT k)

theorem hostFill_spec (s : State) (k : Fin 4) (j : Fin 8) (fill : Nat) :
    FillSpec k (laneAt k j) fill s (s.hostFill k j fill).1 where
  quiet h := by
    rw [hostFill_quiet h, filledTo, host_modHost]
    exact ⟨rfl, rfl, rfl⟩
  unlocked hok hedge hgb := by
    rw [hostFill_unlocked hok hedge hgb, filledTo, host_modHost, host_modHost]
    exact ⟨rfl, rfl, rfl, rfl⟩
  relock hok hedge hgb hnow := by
    have honly := (filledTo_onlyHosts s fill (laneAt k j) _).trans (recapture_onlyHosts (s.filledTo (laneAt k j) fill) (laneAt k j))
    rw [hostFill_relock hok hedge hgb hnow]
    dsimp only
    refine ⟨?_, ?_, honly.rd (by simp) ?_⟩
    · rw [recapture, host_capture]
      rfl
    · rw [rdI, recapture, rd_capture_slip]
      obtain ⟨hbits, -, -⟩ := txSlipKey_facts (laneAt k j)
      rw [hbits]
      rfl
    · simpa using txSlipKey_ne (k := K.HOST_RX_SLIPS (laneAt k j)) _ (by simp)
  slip hok hedge hgb hnow := by
    rw [hostFill_slip hok hedge hgb hnow]
    exact slipped_spec s k (laneAt k j) fill

/-- A slip shown in the group's status stays shown through other lanes' fills. -/
theorem bit_hostFill_slipShown (h : s.bit (K.PG_GB_STATUS k) 1 = true) : (s.hostFill k j fill).1.bit (K.PG_GB_STATUS k) 1 = true := by
  rw [hostFill_eq]
  split
  · exact h
  · split
    · exact h
    · split
      · have hkept := (recapture_onlyHosts (s.filledTo (laneAt k j) fill) (laneAt k j)).rd (k := K.PG_GB_STATUS k) (by simp)
          (by simpa using txSlipKey_ne _ (by simp))
        exact (bit_of_rd hkept 1).trans h
      · exact (slipped_spec s k (laneAt k j) fill).2.2.2.2.1

end State

end Sys2Proof.Machine
end

section
/-!
SUPPORT. The fills of a group's host lanes at one period boundary (R140, R174): each lane's own part of the pass over them, and the report
of the slips.
-/

namespace Sys2Proof.Machine

namespace State

variable {s z t : State} {k : Fin 4} {m : Fin 32}

/-! ## A lane's part of the pass -/

/-- The lane's record and the entries of its status, its slips and its slip are the same. -/
structure SameFill (m : Fin 32) (s t : State) : Prop where
  host : t.host m = s.host m
  status : t.rd (K.HOST_RX_STATUS m) = s.rd (K.HOST_RX_STATUS m)
  slips : t.rd (K.HOST_RX_SLIPS m) = s.rd (K.HOST_RX_SLIPS m)
  slip : t.rd (txSlipKey m) = s.rd (txSlipKey m)

/-- A lane's fill goes by what is the lane's own and by the group's gearbox. -/
theorem FillSpec.of_before {fill : Nat} (h : FillSpec k m fill z t) (hown : SameFill m s z) (hpg : z.pg k = s.pg k) (hnow : z.now = s.now) :
    FillSpec k m fill s t := by
  have hok := hostBit_of_rd hown.status 3
  have hslip := rdI_of_rd hown.slip
  obtain ⟨hquiet, hunlocked, hrelock, hslipped⟩ := h
  rw [hok, hslip, hown.slips] at hquiet
  rw [hok, hpg, hslip, hown.slips] at hunlocked
  rw [hok, hpg, hnow, hown.slips] at hrelock
  rw [hok, hpg, hnow, hslip, CountsUp, hown.slips] at hslipped
  exact ⟨hquiet, hunlocked, hrelock, hslipped⟩

/-- What it leaves stands where the lane's own stands and the event stays shown. -/
theorem FillSpec.of_after {fill : Nat} (h : FillSpec k m fill s z) (hown : SameFill m z t)
    (hshown : z.bit (K.PG_GB_STATUS k) 1 = true → t.bit (K.PG_GB_STATUS k) 1 = true)
    (hraised : Raised z (Src.GEARBOX_EVENT k) → Raised t (Src.GEARBOX_EVENT k)) : FillSpec k m fill s t := by
  have hslip := rdI_of_rd hown.slip
  obtain ⟨hquiet, hunlocked, hrelock, hslipped⟩ := h
  rw [← hown.host, ← hslip, ← hown.slips] at hquiet
  rw [← hown.host, ← hslip, ← hown.slips] at hunlocked
  rw [← hown.host, ← hslip, ← hown.slips] at hrelock
  rw [← hown.host, ← hslip, CountsUp, ← hown.slips, ← hostBit_of_rd hown.status 6] at hslipped
  refine ⟨hquiet, hunlocked, hrelock, fun hok hedge hgb hnow => ?_⟩
  obtain ⟨hfill, hmoved, hcount, hbit, hgroup, hevent⟩ := hslipped hok hedge hgb hnow
  exact ⟨hfill, hmoved, hcount, hbit, hshown hgroup, hraised hevent⟩

/-! ## The pass over the fills -/

/-- The step of the pass: a lane's fill. -/
def fillStep (k : Fin 4) (f : Fin 8 × Nat) (z : State) : State := (z.hostFill k f.1 f.2).1

/-- The entries that fills may change. -/
def fillsKeys (k : Fin 4) (l : List (Fin 8 × Nat)) : List Key := l.flatMap fun f => fillKeys k (laneAt k f.1)

theorem fillPass_onlyHosts (k : Fin 4) (l : List (Fin 8 × Nat)) (s : State) :
    OnlyHosts (l.map fun f => laneAt k f.1) (fillsKeys k l) s (forAll l (fillStep k) s) :=
  .forAll (fun f z => hostFill_onlyHosts z k f.1 f.2) l s

/-- An entry that no lane's fill changes. -/
theorem notMem_fillsKeys {x : Key} {l : List (Fin 8 × Nat)} (h : ∀ f ∈ l, x ∉ fillKeys k (laneAt k f.1)) : x ∉ fillsKeys k l := fun hx => by
  obtain ⟨f, hf, hin⟩ := List.mem_flatMap.mp hx
  exact h f hf hin

/-- Other lanes' fills leave a lane's own alone. -/
theorem sameFill_fillPass {l : List (Fin 8 × Nat)} (h : ∀ f ∈ l, laneAt k f.1 ≠ m) (s : State) :
    SameFill m s (forAll l (fillStep k) s) := by
  have honly := fillPass_onlyHosts k l s
  have hslip : ∀ p, txSlipKey m ≠ K.HOST_RX_STATUS p ∧ txSlipKey m ≠ K.HOST_RX_SLIPS p ∧ txSlipKey m ≠ K.HOST_RX_CAPTURE_FRAC p :=
    fun p => ⟨(txSlipKey_ne m (by simp)).symm, (txSlipKey_ne m (by simp)).symm, (txSlipKey_ne m (by simp)).symm⟩
  have hgroup : txSlipKey m ≠ K.PG_GB_SLIPS k ∧ txSlipKey m ≠ K.PG_GB_STATUS k :=
    ⟨(txSlipKey_ne m (by simp)).symm, (txSlipKey_ne m (by simp)).symm⟩
  refine ⟨honly.others m fun hm => ?_, honly.rd (by simp) (notMem_fillsKeys fun f hf => ?_),
    honly.rd (by simp) (notMem_fillsKeys fun f hf => ?_), honly.rd (area_txSlipKey m) (notMem_fillsKeys fun f hf => ?_)⟩
  · obtain ⟨f, hf, rfl⟩ := List.mem_map.mp hm
    exact h f hf rfl
  · have hne := (h f hf).symm
    simp [fillKeys, hne, txSlipKey_ne (laneAt k f.1) (k := K.HOST_RX_STATUS m) (by simp)]
  · have hne := (h f hf).symm
    simp [fillKeys, hne, txSlipKey_ne (laneAt k f.1) (k := K.HOST_RX_SLIPS m) (by simp)]
  · have hne : txSlipKey m ≠ txSlipKey (laneAt k f.1) := fun e => h f hf (txSlipKey_injective e).symm
    simp [fillKeys, hne, hslip, hgroup]

theorem slipShown_fillPass (l : List (Fin 8 × Nat)) (h : s.bit (K.PG_GB_STATUS k) 1 = true) :
    (forAll l (fillStep k) s).bit (K.PG_GB_STATUS k) 1 = true := by
  induction l generalizing s with
  | nil => exact h
  | cons f l ih => exact ih (bit_hostFill_slipShown h)

/-- A fill stands among those of other lanes. -/
theorem exists_fills_eq {fills : List (Fin 8 × Nat)} {f : Fin 8 × Nat} (hf : f ∈ fills) (hnodup : (fills.map (·.1)).Nodup) (k : Fin 4) :
    ∃ l₁ l₂, fills = l₁ ++ f :: l₂ ∧ (∀ q ∈ l₁, laneAt k q.1 ≠ laneAt k f.1) ∧ ∀ q ∈ l₂, laneAt k q.1 ≠ laneAt k f.1 := by
  obtain ⟨l₁, l₂, rfl⟩ := List.append_of_mem hf
  rw [List.map_append, List.map_cons, List.nodup_middle, List.nodup_cons, List.mem_append, not_or] at hnodup
  obtain ⟨⟨h1, h2⟩, -⟩ := hnodup
  exact ⟨l₁, l₂, rfl, fun q hq e => h1 (laneAt_injective k e ▸ List.mem_map_of_mem hq),
    fun q hq e => h2 (laneAt_injective k e ▸ List.mem_map_of_mem hq)⟩

theorem fillPass_spec {fills : List (Fin 8 × Nat)} {f : Fin 8 × Nat} (hf : f ∈ fills) (hnodup : (fills.map (·.1)).Nodup) (s : State) :
    FillSpec k (laneAt k f.1) f.2 s (forAll fills (fillStep k) s) := by
  obtain ⟨l₁, l₂, rfl, h1, h2⟩ := exists_fills_eq hf hnodup k
  have hbefore := fillPass_onlyHosts k l₁ s
  have hafter := fillPass_onlyHosts k l₂ (fillStep k f (forAll l₁ (fillStep k) s))
  have hpass : forAll (l₁ ++ f :: l₂) (fillStep k) s = forAll l₂ (fillStep k) (fillStep k f (forAll l₁ (fillStep k) s)) := by simp [forAll]
  rw [hpass]
  exact ((hostFill_spec (forAll l₁ (fillStep k) s) k f.1 f.2).of_before (sameFill_fillPass h1 s) (hbefore.pg k) hbefore.now).of_after
    (sameFill_fillPass h2 _) (slipShown_fillPass l₂) (hafter.raised _ (show 3 < 16 by decide))

/-! ## The causes of the report (R174) -/

/-- The fills of a list, with the causes that they give, the latest first. -/
def fillsTaken (k : Fin 4) (l : List (Fin 8 × Nat)) (a : State × List (Nat × Nat)) : State × List (Nat × Nat) :=
  l.foldl (fun a f =>
    let q := a.1.hostFill k f.1 f.2
    (q.1, (f.1.val / 2, q.2) :: a.2)) a

theorem fillsTaken_state (k : Fin 4) (l : List (Fin 8 × Nat)) (a : State × List (Nat × Nat)) :
    (fillsTaken k l a).1 = forAll l (fillStep k) a.1 := by
  induction l generalizing a with
  | nil => rfl
  | cons f l ih => exact ih _

theorem mem_fillsTaken_of_mem {l : List (Fin 8 × Nat)} {a : State × List (Nat × Nat)} {p : Nat × Nat} (h : p ∈ a.2) :
    p ∈ (fillsTaken k l a).2 := by
  induction l generalizing a with
  | nil => exact h
  | cons f l ih => exact ih (List.mem_cons_of_mem _ h)

/-- A fill's causes are among them. -/
theorem mem_fillsTaken (l₁ l₂ : List (Fin 8 × Nat)) (f : Fin 8 × Nat) (a : State × List (Nat × Nat)) :
    (f.1.val / 2, ((forAll l₁ (fillStep k) a.1).hostFill k f.1 f.2).2) ∈ (fillsTaken k (l₁ ++ f :: l₂) a).2 := by
  have htaken : fillsTaken k (l₁ ++ f :: l₂) a = fillsTaken k (f :: l₂) (fillsTaken k l₁ a) := List.foldl_append
  rw [← fillsTaken_state, htaken]
  exact mem_fillsTaken_of_mem (l := l₂) List.mem_cons_self

/-- The causes of the pair of Ln's host lanes. -/
def slipCauses (l : List (Nat × Nat)) (n : Fin 16) : Nat := l.foldl (fun c p => if p.1 = n.val % 4 then c ||| p.2 else c) 0

theorem testBit_slipCauses {l : List (Nat × Nat)} {n : Fin 16} {c i : Nat} (hmem : (n.val % 4, c) ∈ l) (hc : c.testBit i = true) :
    (slipCauses l n).testBit i = true := by
  have hkept : ∀ (l : List (Nat × Nat)) (c : Nat), c.testBit i = true →
      (l.foldl (fun c p => if p.1 = n.val % 4 then c ||| p.2 else c) c).testBit i = true := fun l => by
    induction l with
    | nil => exact fun _ h => h
    | cons p l ih =>
      refine fun c h => ih _ ?_
      dsimp only
      split
      · rw [Nat.testBit_or, h, Bool.true_or]
      · exact h
  obtain ⟨l₁, l₂, rfl⟩ := List.append_of_mem hmem
  rw [slipCauses, List.foldl_append, List.foldl_cons]
  refine hkept l₂ _ ?_
  rw [if_pos rfl, Nat.testBit_or, hc, Bool.or_true]

/-! ## The report -/

/-- Ln's part of the report. -/
def reportSlips (l : List (Nat × Nat)) (n : Fin 16) (z : State) : State := if slipCauses l n = 0 then z else z.latEvent n (slipCauses l n)

theorem hostFills_eq (s : State) (k : Fin 4) (fills : List (Fin 8 × Nat)) :
    s.hostFills k fills = forAll (lanesOf k) (reportSlips (fillsTaken k fills (s, [])).2) (forAll fills (fillStep k) s) := by
  have hstate := fillsTaken_state k fills (s, [])
  dsimp only at hstate
  rw [← hstate]
  rfl

theorem reportSlips_onlyLanes (l : List (Nat × Nat)) (n : Fin 16) (z : State) : OnlyLanes [n] z (reportSlips l n z) :=
  .ite _ (.refl _ _) (latEvent_onlyLanes z n _)

theorem reportPass_onlyLanes (l : List (Nat × Nat)) (k : Fin 4) (z : State) :
    OnlyLanes (lanesOf k) z (forAll (lanesOf k) (reportSlips l) z) := .forAll (reportSlips_onlyLanes l) _ _

theorem reportSlips_od (l : List (Nat × Nat)) (n : Fin 16) (z : State) : (reportSlips l n z).od = z.od := by
  unfold reportSlips
  split
  · rfl
  · exact latEvent_od z n _

theorem reportSlips_sameLanes (l : List (Nat × Nat)) (n : Fin 16) (z : State) : SameLanes z (reportSlips l n z) := by
  unfold reportSlips
  split
  · exact fun _ => rfl
  · exact sameLanes_latEvent z n _

theorem reportPass_sameLanes (l : List (Nat × Nat)) (ns : List (Fin 16)) (z : State) : SameLanes z (forAll ns (reportSlips l) z) := by
  induction ns generalizing z with
  | nil => exact fun _ => rfl
  | cons n ns ih => exact (reportSlips_sameLanes l n z).trans (ih _)

theorem rd_reportSlips_txSlip (l : List (Nat × Nat)) (n : Fin 16) (z : State) (m : Fin 32) :
    (reportSlips l n z).rd (txSlipKey m) = z.rd (txSlipKey m) := by
  obtain ⟨-, -, hreport⟩ := txSlipKey_facts m
  unfold reportSlips
  split
  · rfl
  · exact rd_latEvent z n (area_txSlipKey m) (hreport n) _

/-- The report leaves a lane's own alone. -/
theorem sameFill_reportPass (l : List (Nat × Nat)) (k : Fin 4) (m : Fin 32) (z : State) :
    SameFill m z (forAll (lanesOf k) (reportSlips l) z) :=
  have honly := reportPass_onlyLanes l k z
  ⟨honly.host m, honly.entries _ (by simp) (by simp) (by simp), honly.entries _ (by simp) (by simp) (by simp),
    rd_forAll_of_keep (fun n y => rd_reportSlips_txSlip l n y m) _ z⟩

/-- A reported cause stands in the line lane's record. -/
theorem bit_of_latencyReported {n : Fin 16} {c i : Nat} (h : LatencyReported n c s t) (hc : c.testBit i = true) (hi : i < 16) :
    t.bit (K.LAT_CAUSE n) i = true := by
  have hbits : bitsOf (K.LAT_CAUSE n) = 16 := rfl
  rw [bit, h.2, hbits, Nat.testBit_mod_two_pow, decide_eq_true hi, Bool.true_and]
  split
  · rw [Nat.testBit_or, hc, Bool.or_true]
  · exact hc

/-- Causes of a line lane with power are reported. -/
theorem reportPass_reported {l : List (Nat × Nat)} {n : Fin 16} {i : Nat} (hn : pgOf n = k) (hc : (slipCauses l n).testBit i = true)
    (hi : i < 16) (hpower : z.clamped (laneUnit n) = false) :
    Raised (forAll (lanesOf k) (reportSlips l) z) (Src.LATENCY_CHG n) ∧ (forAll (lanesOf k) (reportSlips l) z).bit (K.LAT_CAUSE n) i = true := by
  obtain ⟨l₁, l₂, y, -, h2, hbefore, hafter⟩ := lane_of_pass (reportSlips_onlyLanes l) hn z
  have hcause : slipCauses l n ≠ 0 := fun e => by simp [e] at hc
  have hstep : reportSlips l n y = y.latEvent n (slipCauses l n) := if_neg hcause
  have hreport := (latencyReported_latEvent y n (slipCauses l n) (by rw [hbefore.clamped, hpower])).of_after h2 (hstep ▸ hafter)
  exact ⟨hreport.1, bit_of_latencyReported hreport hc hi⟩

/-! ## The boundary's fills -/

variable {fills : List (Fin 8 × Nat)}

theorem hostFills_od (s : State) (k : Fin 4) (fills : List (Fin 8 × Nat)) : (s.hostFills k fills).od = s.od := by
  rw [hostFills_eq]
  exact (forAll_keep (fun z => z.od) (fun n _ z => reportSlips_od _ n z) _).trans (fillPass_onlyHosts k fills s).od

theorem hostFills_sameLanes (s : State) (k : Fin 4) (fills : List (Fin 8 × Nat)) : SameLanes s (s.hostFills k fills) := by
  rw [hostFills_eq]
  exact (SameLanes.of_lanes (fillPass_onlyHosts k fills s).lanes).trans (reportPass_sameLanes _ _ _)

theorem host_hostFills_of_absent (s : State) (h : ∀ f ∈ fills, laneAt k f.1 ≠ m) : (s.hostFills k fills).host m = s.host m := by
  rw [hostFills_eq, (reportPass_onlyLanes _ k _).host, (sameFill_fillPass h s).host]

/-- The group's FEC mode is no entry of its fills. -/
theorem rd_hostFills_fecMode (s : State) (k : Fin 4) (fills : List (Fin 8 × Nat)) :
    (s.hostFills k fills).rd (K.PG_FEC_MODE k) = s.rd (K.PG_FEC_MODE k) := by
  rw [hostFills_eq, (reportPass_onlyLanes _ k _).rd_pg]
  refine (fillPass_onlyHosts k fills s).rd (by simp) (notMem_fillsKeys fun f _ => ?_)
  simp [fillKeys, txSlipKey_ne (laneAt k f.1) (k := K.PG_FEC_MODE k) (by simp)]

theorem hostFills_spec {f : Fin 8 × Nat} (hf : f ∈ fills) (hnodup : (fills.map (·.1)).Nodup) (s : State) :
    FillSpec k (laneAt k f.1) f.2 s (s.hostFills k fills) := by
  have honly := reportPass_onlyLanes (fillsTaken k fills (s, [])).2 k (forAll fills (fillStep k) s)
  rw [hostFills_eq]
  exact (fillPass_spec hf hnodup s).of_after (sameFill_reportPass _ k _ _) (fun h => (bit_of_rd (honly.rd_pg k _ _) 1).trans h)
    (honly.raised _ (show 3 < 16 by decide))

/-- A slip of a lane whose line lane has power is reported as a latency event. -/
theorem hostFills_reported {f : Fin 8 × Nat} (hf : f ∈ fills) (hnodup : (fills.map (·.1)).Nodup)
    (hok : s.hostBit (laneAt k f.1) 3 = true) (hedge : f.2 ≤ 4 ∨ 124 ≤ f.2) (hgb : (s.pg k).gb = .locked)
    (hnow : (s.pg k).lockedAt + 18 ≤ s.now) (hpower : s.clamped (laneUnit (lineOfHost (laneAt k f.1))) = false) :
    Raised (s.hostFills k fills) (Src.LATENCY_CHG (lineOfHost (laneAt k f.1))) ∧
    (s.hostFills k fills).bit (K.LAT_CAUSE (lineOfHost (laneAt k f.1))) (if isB (laneAt k f.1) then 2 else 1) = true := by
  obtain ⟨hgroup, hpair⟩ := lineOfHost_laneAt k f.1
  have hpass := fillPass_onlyHosts k fills s
  obtain ⟨l₁, l₂, hsplit, h1, -⟩ := exists_fills_eq hf hnodup k
  have hbefore := fillPass_onlyHosts k l₁ s
  have hcause := mem_fillsTaken (k := k) l₁ l₂ f (s, [])
  rw [← hsplit, hpair, hostFill_slip ((hostBit_of_rd (sameFill_fillPass h1 s).status 3).trans hok) hedge
    ((congrArg PgS.gb (hbefore.pg k)).trans hgb) (by rw [hbefore.pg, hbefore.now]; exact hnow)] at hcause
  have hbit : (causeSlip (isB (laneAt k f.1))).testBit (if isB (laneAt k f.1) then 2 else 1) = true := by
    cases isB (laneAt k f.1) <;> rfl
  rw [hostFills_eq]
  refine reportPass_reported hgroup (testBit_slipCauses hcause hbit) (by split <;> omega) ?_
  rw [clamped_of_rd (hpass.rd (by simp) (notMem_fillsKeys fun f _ => ?_)), hpower]
  simp [fillKeys, txSlipKey_ne (laneAt k f.1) (k := K.PWR_STATE _) (by simp)]

end State

end Sys2Proof.Machine
end

section
/-!
SUPPORT. The period boundary as a whole (R140, R153), the host FEC's codewords (R154, R155) and their clear (R156).
-/

namespace Sys2Proof.Machine

namespace State

variable {s : State} {k : Fin 4}

/-! ## The writes of a boundary (R388) -/

/-- A boundary for which nothing waits. -/
theorem boundaryPass_of_none (p : Bound → Bool) (h : ∀ g ∈ s.od.waiting, p g.bound = false) : s.boundaryPass p = s := by
  have hnone : (s.od.waiting.filter fun g => p g.bound) = [] := List.filter_eq_nil_iff.mpr fun g hg => by simp [h g hg]
  have hall : (s.od.waiting.filter fun g => !p g.bound) = s.od.waiting := List.filter_eq_self.mpr fun g hg => by simp [h g hg]
  have hsame : (s.modOd fun o => { o with waiting := o.waiting.filter fun g => !p g.bound }) = s := by
    rw [modOd, hall]
  rw [boundaryPass, hnone, hsame, forAll, List.foldl_nil, ite_self]

/-- The FEC mode that waits takes effect at its boundary. -/
theorem periodBoundary_fecMode {v : BitVec 8} {r : Fin 18} {e : Nat} {grp : Bool} (fills : List (Fin 8 × Nat)) (hscan : s.scanOn = false)
    (hw : s.od.waiting =
      [{ req := r, epoch := e, bound := .period k, grp := grp, writes := [(K.PG_FEC_MODE k, be 1 v.toNat)] }]) :
    (s.periodBoundary k fills).rd (K.PG_FEC_MODE k) = v.toNat ∧ (s.periodBoundary k fills).od.waiting = [] := by
  have hpass := boundaryPass_of_waiting (fun b => b == .period k) hscan (by simp) hw
  rw [applyNow_fecMode] at hpass
  rw [periodBoundary, hpass]
  constructor
  · rw [rd_hostFills_fecMode, rd_noteUnsaved, rd_effPgFecMode]
  · rw [hostFills_od, noteUnsaved_waiting, effPgFecMode_od]
    rfl

theorem periodBoundary_of_none (fills : List (Fin 8 × Nat)) (h : ∀ g ∈ s.od.waiting, g.bound ≠ .period k) :
    s.periodBoundary k fills = s.hostFills k fills := by
  rw [periodBoundary, boundaryPass_of_none _ fun g hg => by simpa using h g hg]

/-- What the fills of a boundary make of a lane with one. -/
theorem hostFills_lane {fills : List (Fin 8 × Fin 129)} (hnodup : (fills.map (·.1)).Nodup) {f : Fin 8 × Fin 129} (hf : f ∈ fills)
    (s : State) :
    FillSpec k (laneAt k f.1) f.2.val s (s.hostFills k (fills.map fun f => (f.1, f.2.val))) ∧
    (s.hostBit (laneAt k f.1) 3 = true → f.2.val ≤ 4 ∨ 124 ≤ f.2.val → (s.pg k).gb = .locked → (s.pg k).lockedAt + 18 ≤ s.now →
      s.clamped (laneUnit (lineOfHost (laneAt k f.1))) = false →
      Raised (s.hostFills k (fills.map fun f => (f.1, f.2.val))) (Src.LATENCY_CHG (lineOfHost (laneAt k f.1))) ∧
      (s.hostFills k (fills.map fun f => (f.1, f.2.val))).bit (K.LAT_CAUSE (lineOfHost (laneAt k f.1)))
        (if isB (laneAt k f.1) then 2 else 1) = true) := by
  have hmem : (f.1, f.2.val) ∈ fills.map fun f => (f.1, f.2.val) := List.mem_map_of_mem hf
  have hlanes : ((fills.map fun f => (f.1, f.2.val)).map (·.1)).Nodup := by
    rw [List.map_map]
    exact hnodup
  exact ⟨hostFills_spec (f := (f.1, f.2.val)) hmem hlanes s, hostFills_reported (f := (f.1, f.2.val)) hmem hlanes⟩

/-! ## Codewords of the host FEC (R154, R155) -/

/-- The entries of the direction: what the host sends, or what the line delivers (Table 5-5). -/
def fecKey (k : Fin 4) (rx : Bool) (sub : Nat) : Key := ⟨.pg k, if rx then 0x06 else 0x05, sub⟩

@[simp] theorem fecKey_eq_iff {rx : Bool} {a b : Nat} : fecKey k rx a = fecKey k rx b ↔ a = b := by simp [fecKey]

/-- One more uncorrectable codeword of the epoch. -/
def uncorrectable (rx : Bool) (p : Fin 4) (g : PgS) : PgS :=
  if rx then { g with epRx := g.epRx.set p (g.epRx.get p + 1) } else { g with epTx := g.epTx.set p (g.epTx.get p + 1) }

/-- A codeword with `e` symbols corrected, counted. -/
def corrected (s : State) (k : Fin 4) (rx : Bool) (p : Fin 4) (e : Nat) : State :=
  (if e = 0 then s.incSat (fecKey k rx (1 + p.val))
    else (s.incSat (fecKey k rx (1 + p.val))).incSat (fecKey k rx (5 + p.val))).addSat (fecKey k rx (0x0D + p.val)) e

theorem fecCodeword_of_idle (rx : Bool) (p : Fin 4) {skew : Nat} (syms : Option (Fin 16))
    (h : s.bist.running = some (.pg k) ∨ 32 < skew ∨ s.fecDecodes k rx p.val = false) : s.fecCodeword k rx p skew syms = s := by
  refine if_pos ?_
  obtain h | h | h := h
  · simp [h]
  · simp [Nat.not_le.mpr h]
  · simp [h]

/-- A codeword of a decoded port, with its outcome. -/
theorem fecCodeword_of_decoded {rx : Bool} {p : Fin 4} {skew : Nat} (hskew : skew ≤ 32) (htest : s.bist.running ≠ some (.pg k))
    (hdecodes : s.fecDecodes k rx p.val = true) :
    s.fecCodeword k rx p skew none =
      ((s.incSat (fecKey k rx (1 + p.val))).incSat (fecKey k rx (9 + p.val))).modPg k (uncorrectable rx p) ∧
    ∀ e : Fin 16, s.fecCodeword k rx p skew (some e) =
      (s.corrected k rx p e.val).wr (fecKey k rx 0x11) (fecHistAdd (s.rd (fecKey k rx 0x11)) (16 * p.val + e.val)) := by
  have hactive : ¬(s.bist.running == some (.pg k) || !(decide (skew ≤ 32) && s.fecDecodes k rx p.val)) = true := by
    simp [htest, hskew, hdecodes]
  exact ⟨if_neg hactive, fun _ => if_neg hactive⟩

theorem uncorrectable_counts (rx : Bool) (p : Fin 4) (g : PgS) :
    (if rx then (uncorrectable rx p g).epRx.get p else (uncorrectable rx p g).epTx.get p) =
      (if rx then g.epRx.get p else g.epTx.get p) + 1 := by
  cases rx with
  | true => exact (get_setVec _ _ _ _).trans (if_pos rfl)
  | false => exact (get_setVec _ _ _ _).trans (if_pos rfl)

/-- What a codeword of a decoded port counts. -/
theorem fecCodeword_spec {rx : Bool} {p : Fin 4} {skew : Nat} (hskew : skew ≤ 32) (htest : s.bist.running ≠ some (.pg k))
    (hdecodes : s.fecDecodes k rx p.val = true) (syms : Option (Fin 16)) :
    CountsUp s (s.fecCodeword k rx p skew syms) (fecKey k rx (1 + p.val)) 1 ∧
    (syms = none → CountsUp s (s.fecCodeword k rx p skew syms) (fecKey k rx (9 + p.val)) 1 ∧
      (if rx then ((s.fecCodeword k rx p skew syms).pg k).epRx.get p else ((s.fecCodeword k rx p skew syms).pg k).epTx.get p) =
        (if rx then (s.pg k).epRx.get p else (s.pg k).epTx.get p) + 1) ∧
    (∀ e, syms = some e →
      (e.val ≠ 0 → CountsUp s (s.fecCodeword k rx p skew syms) (fecKey k rx (5 + p.val)) 1) ∧
      CountsUp s (s.fecCodeword k rx p skew syms) (fecKey k rx (0x0D + p.val)) e.val ∧ (s.fecCodeword k rx p skew syms).pgs = s.pgs) ∧
    (s.fecCodeword k rx p skew syms).lanes = s.lanes ∧ (s.fecCodeword k rx p skew syms).hosts = s.hosts := by
  obtain ⟨hnone, hsome⟩ := fecCodeword_of_decoded hskew htest hdecodes
  cases syms with
  | none =>
    rw [hnone]
    refine ⟨?_, fun _ => ⟨?_, ?_⟩, nofun, rfl, rfl⟩
    · rw [CountsUp, modPg_rd, rd_incSat, if_neg (by simp), rd_incSat, if_pos rfl]
    · rw [CountsUp, modPg_rd, rd_incSat, if_pos rfl, rd_incSat, if_neg (by simp)]
    · rw [pg_modPg]
      exact uncorrectable_counts rx p (s.pg k)
  | some e =>
    have hp := p.isLt
    have hhist : ∀ x v, x ≤ 0x10 → ((s.corrected k rx p e.val).wr (fecKey k rx 0x11) v).rd (fecKey k rx x) =
        (s.corrected k rx p e.val).rd (fecKey k rx x) := fun x v hx => rd_wr_ne _ _ (by simp; omega)
    rw [hsome]
    refine ⟨?_, nofun, fun e' he => ?_, ?_, ?_⟩
    · rw [CountsUp, hhist _ _ (by omega), corrected, rd_addSat, if_neg (by simp)]
      split
      · rw [rd_incSat, if_pos rfl]
      · rw [rd_incSat, if_neg (by simp), rd_incSat, if_pos rfl]
    · obtain rfl : e = e' := Option.some.inj he
      refine ⟨fun hne => ?_, ?_, ?_⟩
      · rw [CountsUp, hhist _ _ (by omega), corrected, if_neg hne, rd_addSat, if_neg (by simp), rd_incSat, if_pos rfl, rd_incSat,
          if_neg (by simp)]
      · rw [CountsUp, hhist _ _ (by omega), corrected, rd_addSat, if_pos rfl]
        split
        · rw [rd_incSat, if_neg (by simp)]
        · rw [rd_incSat, if_neg (by simp), rd_incSat, if_neg (by simp)]
      · rw [wr_pgs, corrected, addSat_pgs]
        split <;> rfl
    · rw [wr_lanes, corrected, addSat_lanes]
      split <;> rfl
    · rw [wr_hosts, corrected, addSat_hosts]
      split <;> rfl

/-! ## The clear (R156) -/

/-- The entries that the clear returns to their reset values. -/
def fecCounters (k : Fin 4) : List Key := (List.range 21).flatMap fun i => [⟨.pg k, 0x05, i + 1⟩, ⟨.pg k, 0x06, i + 1⟩]

theorem mem_fecCounters {i : Nat} (h1 : 1 ≤ i) (h21 : i ≤ 21) : ⟨.pg k, 0x05, i⟩ ∈ fecCounters k ∧ ⟨.pg k, 0x06, i⟩ ∈ fecCounters k := by
  have hpair : ∀ x ∈ [⟨Blk.pg k, 0x05, i⟩, ⟨Blk.pg k, 0x06, i⟩], x ∈ fecCounters k := fun x hx => by
    refine List.mem_flatMap.mpr ⟨i - 1, by simp; omega, ?_⟩
    rwa [Nat.sub_add_cancel h1]
  exact ⟨hpair _ (by simp), hpair _ (by simp)⟩

theorem clrAll_frame (s : State) (ks : List Key) :
    (s.clrAll ks).pgs = s.pgs ∧ (s.clrAll ks).lanes = s.lanes ∧ (s.clrAll ks).hosts = s.hosts := by
  induction ks generalizing s with
  | nil => exact ⟨rfl, rfl, rfl⟩
  | cons k ks ih => exact ih (s.clr k)

theorem hostFecClear_eq (s : State) (k : Fin 4) : s.hostFecClear k = s.clrAll (fecCounters k) := rfl

theorem hostFecClear_frame (s : State) (k : Fin 4) :
    (s.hostFecClear k).pgs = s.pgs ∧ (s.hostFecClear k).lanes = s.lanes ∧ (s.hostFecClear k).hosts = s.hosts := clrAll_frame s (fecCounters k)

theorem rd_hostFecClear (s : State) (k : Fin 4) (x : Key) :
    (s.hostFecClear k).rd x = if x ∈ fecCounters k then resetOf x else s.rd x := by
  rw [hostFecClear_eq, rd_clrAll]

variable {r : Fin 18}

theorem write_fecClear {data : List Byte} (hacc : s.accepts r (K.PG_FEC_CLEAR k) data = true) :
    let t := s.write r (K.PG_FEC_CLEAR k) data (effPgFecClear k 1)
    (∀ i, 1 ≤ i → i ≤ 21 → t.rd ⟨.pg k, 0x05, i⟩ = resetOf ⟨.pg k, 0x05, i⟩ ∧ t.rd ⟨.pg k, 0x06, i⟩ = resetOf ⟨.pg k, 0x06, i⟩) ∧
    t.pgs = s.pgs ∧ t.lanes = s.lanes ∧ t.hosts = s.hosts ∧ Changes (fecCounters k) s t := by
  have heff : ∀ z, effPgFecClear k 1 z = z.hostFecClear k := fun _ => rfl
  obtain ⟨hpgs, hlanes, hhosts⟩ := hostFecClear_frame (s.admitted r (K.PG_FEC_CLEAR k) data) k
  refine ⟨fun i h1 h21 => ?_, ?_, ?_, ?_, write_changes _ _ hacc ?_⟩
  · obtain ⟨h5, h6⟩ := mem_fecCounters (k := k) h1 h21
    rw [write_rd _ _ hacc, write_rd _ _ hacc, heff, rd_hostFecClear, rd_hostFecClear, if_pos h5, if_pos h6]
    exact ⟨rfl, rfl⟩
  · rw [write_pgs _ _ hacc, heff, hpgs, admitted_pgs]
  · rw [write_lanes _ _ hacc, heff, hlanes, admitted_lanes]
  · rw [write_hosts _ _ hacc, heff, hhosts, admitted_hosts]
  · rw [changes_iff, heff]
    exact fun x _ hx => (rd_hostFecClear _ k x).trans (if_neg hx)

/-- A write of 0 clears nothing. -/
theorem write_fecClear_zero {data : List Byte} (hacc : s.accepts r (K.PG_FEC_CLEAR k) data = true) :
    let t := s.write r (K.PG_FEC_CLEAR k) data (effPgFecClear k 0)
    t.pgs = s.pgs ∧ t.lanes = s.lanes ∧ t.hosts = s.hosts ∧ Changes [] s t := by
  have heff : ∀ z, effPgFecClear k 0 z = z := fun _ => rfl
  refine ⟨?_, ?_, ?_, write_changes _ _ hacc ?_⟩
  · rw [write_pgs _ _ hacc, heff, admitted_pgs]
  · rw [write_lanes _ _ hacc, heff, admitted_lanes]
  · rw [write_hosts _ _ hacc, heff, admitted_hosts]
  · rw [heff]
    exact fun _ _ => rfl

end State

open State in
/-- Settles O25: each command is its operation on the group; the fills of a boundary are taken lane by lane. -/
theorem hostFecAndPeriod : Obligations.HostFecAndPeriod := by
  unfold Obligations.HostFecAndPeriod
  refine ⟨?_, ?_, ?_, ?_, ?_, ?_, ?_, ?_⟩
  · intro s r k v hacc hmode
    exact ⟨_, exec_pgFecModeWrite_eq s r k v, write_fecMode_waits hacc hmode⟩
  · intro s r k v hacc hmode
    exact ⟨_, exec_pgFecModeWrite_eq s r k v, write_fecMode_now hacc hmode⟩
  · intro s k v r e grp fills hscan hw
    exact ⟨_, rfl, periodBoundary_fecMode _ hscan hw⟩
  · intro s k fills hwaiting hnodup
    refine ⟨_, rfl, ?_⟩
    rw [periodBoundary_of_none _ hwaiting]
    refine ⟨hostFills_od _ _ _, hostFills_sameLanes _ _ _, fun m hm => host_hostFills_of_absent s fun f hf => ?_,
      fun f hf m hm key hkey => ?_⟩
    · obtain ⟨q, hq, rfl⟩ := List.mem_map.mp hf
      exact fun e => hm q hq (congrArg Fin.val e).symm
    · obtain rfl : m = laneAt k f.1 := Fin.ext hm
      obtain rfl : key = txSlipKey (laneAt k f.1) := hkey
      obtain ⟨⟨hquiet, hunlocked, hrelock, hslip⟩, hreported⟩ := hostFills_lane (k := k) hnodup hf s
      refine ⟨hquiet, hunlocked, hrelock, fun hok hedge hgb hnow => ?_⟩
      obtain ⟨hfill, hmoved, hcount, hbit, hgroup, hevent⟩ := hslip hok hedge hgb hnow
      exact ⟨hfill, hmoved, hcount, hbit, hgroup, hevent, hreported hok hedge hgb hnow⟩
  · intro s k rx p skew syms hskew htest hdecodes
    have hspec := fecCodeword_spec hskew htest hdecodes syms
    refine ⟨_, rfl, ?_⟩
    cases rx with
    | true => exact hspec
    | false => exact hspec
  · intro s k rx p skew syms h
    exact ⟨_, rfl, fecCodeword_of_idle rx p syms h⟩
  · intro s r k hacc
    exact ⟨_, rfl, write_fecClear hacc⟩
  · intro s r k hacc
    exact ⟨_, rfl, write_fecClear_zero hacc⟩

end Sys2Proof.Machine
end

section
/-!
SUPPORT. What leaves every lane's cast-on conversation alone: the operations of the receive and transmit chains, of the gearbox, the host
lanes, the calibrations and the Picot queue that the conversation starts or stops.
-/

namespace Sys2Proof.Machine

/-- The entries of cast-on (Table 7-8: 0x2B to 0x2F of a line lane), and `LINE_FORMAT`, which the conversation agrees. -/
def convoEntry (k : Key) : Bool :=
  match k.blk with
  | .line _ => decide (0x2B ≤ k.off) && decide (k.off ≤ 0x30)
  | _ => false

@[simp] theorem convoEntry_line (n : Fin 16) (o x : Nat) : convoEntry ⟨.line n, o, x⟩ = (decide (0x2B ≤ o) && decide (o ≤ 0x30)) := rfl
@[simp] theorem convoEntry_host (m : Fin 32) (o x : Nat) : convoEntry ⟨.host m, o, x⟩ = false := rfl
@[simp] theorem convoEntry_pg (k : Fin 4) (o x : Nat) : convoEntry ⟨.pg k, o, x⟩ = false := rfl

theorem area_convoEntry {k : Key} (hk : convoEntry k = true) : k.area ≠ none := by
  obtain ⟨b, o, x⟩ := k
  cases b <;> simp_all [convoEntry]

theorem ne_of_convoEntry {k x : Key} (hk : convoEntry k = true) (hx : convoEntry x = false) : k ≠ x := by
  rintro rfl
  exact Bool.noConfusion (hk.symm.trans hx)

/-- A change that leaves the conversations alone: every entry of cast-on and every lane's record of its conversation stand, but for whether
frame lock has held since the verify window opened. -/
structure Aside (s t : State) : Prop where
  rd : ∀ k, convoEntry k = true → t.rd k = s.rd k
  co : ∀ n, { t.co n with heldC6 := (s.co n).heldC6 } = s.co n

namespace Aside

variable {a s t : State}

theorem refl (s : State) : Aside s s := ⟨fun _ _ => rfl, fun _ => rfl⟩

theorem trans (h1 : Aside a s) (h2 : Aside s t) : Aside a t where
  rd k hk := (h2.rd k hk).trans (h1.rd k hk)
  co n := by rw [← h1.co n, ← h2.co n]

theorem ite {b : State} (c : Prop) [Decidable c] (ha : Aside s a) (hb : Aside s b) : Aside s (if c then a else b) := by
  split
  · exact ha
  · exact hb

theorem forAll {α : Type} {f : α → State → State} (hf : ∀ x z, Aside z (f x z)) (l : List α) (h : Aside a s) :
    Aside a (forAll l f s) := by
  induction l generalizing s with
  | nil => exact h
  | cons x l ih => exact ih (h.trans (hf x s))

/-- The record of a conversation, up to what the lock machines note in it. -/
theorem co_eq (h : Aside s t) (n : Fin 16) : ∃ held, t.co n = { s.co n with heldC6 := held } := ⟨(t.co n).heldC6, by rw [← h.co n]⟩

theorem of_lanes (hl : t.lanes = s.lanes) (hr : ∀ k, convoEntry k = true → t.rd k = s.rd k) : Aside s t :=
  ⟨hr, fun n => by rw [State.co, State.co, State.lane, State.lane, hl]⟩

theorem of_touches {A : Area → Bool} (hA : A .lanes = false) (h : Touches A s t) : Aside s t := by
  refine of_lanes (h.lanes hA).1 fun k hk => h.regs k ?_
  obtain ⟨b, o, x⟩ := k
  cases b with
  | line n => rw [within_line, hA]
  | _ => exact Bool.noConfusion hk

theorem of_hosts {l : List (Fin 32)} {ks : List Key} (h : OnlyHosts l ks s t) (hks : ∀ k ∈ ks, convoEntry k = false) : Aside s t :=
  of_lanes h.lanes fun _ hk => h.rd (area_convoEntry hk) fun hin => ne_of_convoEntry hk (hks _ hin) rfl

theorem wr {x : Key} (h : Aside a s) (v : Nat) (hx : convoEntry x = false) : Aside a (s.wr x v) :=
  h.trans (of_lanes rfl fun _ hk => State.rd_wr_ne s v (ne_of_convoEntry hk hx))

/-- A change of a lane's record outside its conversation. -/
theorem modLane {f : LaneS → LaneS} (h : Aside a s) (n : Fin 16) (hf : ∀ l, { (f l).co with heldC6 := l.co.heldC6 } = l.co) :
    Aside a (s.modLane n f) := by
  refine h.trans ⟨fun _ _ => rfl, fun m => ?_⟩
  by_cases hm : m = n
  · rw [State.co, State.co, hm, State.lane_modLane, hf]
  · rw [State.co, State.co, State.lane_modLane_ne _ _ hm]

theorem modPg (h : Aside a s) (k : Fin 4) (f : PgS → PgS) : Aside a (s.modPg k f) := h.trans (of_lanes rfl fun _ _ => rfl)

theorem raise (h : Aside a s) (x : Src) : Aside a (s.raise x) :=
  h.trans (of_touches (A := fun _ => false) rfl (State.raise_touches x (.refl _ s)))

theorem record (h : Aside a s) (kind unit : Nat) (d : List Byte) : Aside a (s.record kind unit d) :=
  h.trans (of_touches (A := fun _ => false) rfl (State.record_touches kind unit d (.refl _ s)))

theorem phase (h : Aside s t) (n : Fin 16) : t.phase n = s.phase n := h.rd _ rfl

theorem coFlag (h : Aside s t) (n : Fin 16) (i : Nat) : t.coFlag n i = s.coFlag n i := State.bit_of_rd (h.rd _ rfl) i

end Aside

namespace State

variable (s : State) (n : Fin 16)

/-! ## Receive chain -/

theorem followFreeze_aside {f : State → State} (hf : Aside s (f s)) : Aside s (s.followFreeze n f) :=
  .ite _ (.modLane hf n fun _ => rfl) hf

theorem adaptStop_aside : Aside s (s.adaptStop n) := followFreeze_aside s n (.modLane (.refl s) n fun _ => rfl)

theorem acqStart_aside (cold : Bool) : Aside s (s.acqStart n cold) := by
  unfold acqStart setCoef
  refine .modLane ?_ n fun _ => rfl
  exact .modLane (.refl s) n fun _ => rfl

theorem swatchAbort_aside : Aside s (s.swatchAbort n) := .ite _ (.wr (.refl s) _ rfl) (.refl s)

theorem outageStart_aside (c : OutageCause) : Aside s (s.outageStart c) :=
  .of_touches (A := fun x => x == .clk) rfl (outageStart_touches c (.refl _ s) rfl)

theorem rclkoLaneLost_aside : Aside s (s.rclkoLaneLost n) :=
  .of_touches (A := fun x => x == .clk) rfl (rclkoLaneLost_touches n (.refl _ s) rfl)

theorem followFrame_aside (lineLoss : Bool) : Aside s (s.followFrame n lineLoss) := by
  have hshown : Aside s ((s.followFreeze n fun z => z.wrBit (K.LINE_LOCK_STATUS n) 1 (s.frameNow n)).raise (Src.FRAME_LOCK_CHG n)) :=
    .raise (followFreeze_aside s n (.wr (.refl s) _ rfl)) _
  have hcount : ∀ z : State, Aside z (if lineLoss then z.incSat (K.LINE_FRAME_LOSS n) else z) := fun z => by
    split
    · exact .wr (.refl z) _ rfl
    · exact .refl z
  have hout : ∀ (c : Bool) (z : State), Aside z (if c then z else z.outageStart .line) := fun c z => .ite _ (.refl z) (outageStart_aside z _)
  unfold followFrame
  dsimp only
  split
  · exact .refl s
  · split
    · exact hshown
    · refine .trans (.trans (.trans ?_ (rclkoLaneLost_aside _ n)) (hcount _)) (hout _ _)
      exact .modLane hshown n fun _ => rfl

theorem setCw_aside (v : Nat) : Aside s (s.setCw n v) := .wr (.wr (.refl s) _ rfl) _ rfl

theorem setEp_aside (v : Nat) : Aside s (s.setEp n v) := .modLane (.wr (.wr (.refl s) _ rfl) _ rfl) n (by intro l; split <;> rfl)

theorem showMarkers_aside : Aside s (s.showMarkers n) := .wr (.wr (.wr (.wr (.refl s) _ rfl) _ rfl) _ rfl) _ rfl

theorem markersOff_aside : Aside s (s.markersOff n) := by
  unfold markersOff
  refine .trans (.trans ?_ (setEp_aside _ n 0)) (showMarkers_aside _ n)
  exact .modLane (.refl s) n fun _ => rfl

theorem lockIdle_aside : Aside s (s.lockIdle n) := by
  unfold lockIdle
  refine .trans (.trans ?_ (markersOff_aside _ n)) (followFrame_aside _ n false)
  exact .modLane (setCw_aside s n 0) n fun _ => rfl

theorem lockHunt_aside : Aside s (s.lockHunt n) := .ite _ (.modLane (setCw_aside s n 1) n fun _ => rfl) (.refl s)

theorem modSs_aside (f : SsS → SsS) : Aside s (s.modSs n f) := .modLane (.refl s) n fun _ => rfl

theorem ssFollow_aside : Aside s (s.ssFollow n) := by
  have hslice : ∀ (z : State) (i : Fin 17) (f : SliceS → SliceS), Aside z (z.modSlice n i f) := fun z i f => modSs_aside z n _
  have hstart : Aside s (s.ssStart n) := by
    unfold ssStart
    split
    · exact (hslice _ _ _).trans (modSs_aside _ n _)
    · exact modSs_aside s n _
  have hstop : Aside s (s.ssStop n) := by
    unfold ssStop
    dsimp only
    split
    · exact (hslice _ _ _).trans (modSs_aside _ n _)
    · exact modSs_aside s n _
  unfold ssFollow
  dsimp only
  exact .ite _ (.ite _ hstart (.refl s)) (.ite _ (.refl s) hstop)

/-! ## Host lanes, gearbox, outage, latency reports -/

theorem clkOkLost_aside (m : Fin 32) : Aside s (s.clkOkLost m) :=
  .of_hosts (clkOkLost_onlyHosts s m) (by simp [clkLostKeys])

theorem hostTrain_aside (m : Fin 32) : Aside s (s.hostTrain m) := .of_hosts (hostTrain_onlyHosts s m) (by simp)

theorem setFill_aside (m : Fin 32) (b : Bool) : Aside s (s.setFill m b) := by
  have hshow : Aside s (s.wrBit (K.LINE_LOCK_STATUS (lineOfHost m)) (if isB m then 7 else 6) b) := .wr (.refl s) _ rfl
  exact hshow.trans (.of_lanes rfl fun _ _ => rfl)

theorem injFollow_aside : Aside s (s.injFollow n) := by
  unfold injFollow
  dsimp only
  exact .modLane (.wr (.refl s) _ rfl) n fun _ => rfl

theorem gbDown_aside (k : Fin 4) : Aside s (s.gbDown k) := by
  have hrebase : ∀ (m : Fin 16) (z : State), Aside z (z.injRebase m) := fun m z =>
    .modLane (injFollow_aside z m) m fun _ => rfl
  have hshow : Aside s (s.gbShow k false) := .wr (.wr (.forAll hrebase _ (.refl s)) _ rfl) _ rfl
  exact .ite _ (.modPg hshow k _) (.refl s)

theorem gbUp_aside (k : Fin 4) : Aside s (s.gbUp k) := .ite _ (.modPg (.refl s) k _) (.refl s)

theorem outageCheck_aside : Aside s s.outageCheck := .of_touches (A := fun x => x == .clk) rfl (outageCheck_touches (.refl _ s) rfl)

theorem latEvent_aside (c : Nat) : Aside s (s.latEvent n c) := by
  have hagain : Aside s (s.reportAgain n c) :=
    .trans (.wr (.refl s) (s.rd (K.LAT_CAUSE n) ||| c) (x := K.LAT_CAUSE n) rfl) (.of_lanes rfl fun _ _ => rfl)
  have hfirst : Aside s (s.reportFirst n c) := by
    unfold reportFirst
    dsimp only
    refine .record ?_ _ _ _
    refine .modLane ?_ n fun _ => rfl
    exact .wr (.wr (.wr (.wr (.refl s) _ rfl) _ rfl) _ rfl) _ rfl
  rw [latEvent_eq]
  exact .ite _ (.refl s) (.raise (.ite _ hagain hfirst) _)

theorem epochLatency_aside : Aside s (s.epochLatency n) := by
  have hparts : Aside s (s.latRecompute n) := by
    unfold latRecompute
    dsimp only
    refine .wr (.wr ?_ _ rfl) _ rfl
    exact .modLane (.refl s) n fun _ => rfl
  unfold epochLatency
  dsimp only
  exact .ite _ (.raise hparts _) hparts

theorem cfgReport_aside : Aside s (s.cfgReport n) := by
  unfold cfgReport
  split
  · refine .trans (.trans ?_ (epochLatency_aside _ n)) (latEvent_aside _ n _)
    exact .modLane (.refl s) n fun _ => rfl
  · exact .refl s

/-! ## Calibrations, output stage, Picot queue -/

theorem calDacBegin_aside : Aside s (s.calDacBegin n) := by
  unfold calDacBegin
  refine .wr (.wr ?_ _ rfl) _ rfl
  exact .modLane (.refl s) n fun _ => rfl

theorem picotCut_aside : Aside s (s.picotCut n) := by
  have hstop : Aside s ((s.incSat (K.PICOT_TX_CUT n)).modLane n fun l => { l with picot := { l.picot with burst := none, tone := [] } }) :=
    .modLane (.wr (.refl s) _ rfl) n fun _ => rfl
  exact .ite _ (.ite _ (hstop.trans (calDacBegin_aside _ n)) hstop) (.refl s)

theorem outFollow_aside : Aside s (s.outFollow n) := by
  unfold outFollow outSet
  dsimp only
  split
  · split
    · exact .refl s
    · refine .trans ?_ (picotCut_aside _ n)
      exact .modLane (injFollow_aside s n) n fun _ => rfl
  · split
    · exact .refl s
    · exact .modLane (injFollow_aside s n) n fun _ => rfl
  · exact .refl s

theorem modPicot_aside (f : PicotS → PicotS) : Aside s (s.modPicot n f) := .modLane (.refl s) n fun _ => rfl

theorem picotFollow_aside : Aside s (s.picotFollow n) :=
  .ite _ (modPicot_aside s n _) (.ite _ (modPicot_aside s n _) (.refl s))

theorem calStart_aside (lane dac : Bool) : Aside s (s.calStart n lane dac) := by
  have hlane : Aside s (if lane then ((s.modLane n fun l => { l with calLane := true, calBad := false, calCmd := false }).wr
      (K.LINE_CAL_LANE_LAST n) s.timeNow).picotFollow n else s) := by
    split
    · refine .trans ?_ (picotFollow_aside _ n)
      refine .wr ?_ _ rfl
      exact .modLane (.refl s) n fun _ => rfl
    · exact .refl s
  unfold calStart
  dsimp only
  split
  · split
    · exact .modLane hlane n fun _ => rfl
    · exact (hlane.trans (calDacBegin_aside _ n)).trans (outFollow_aside _ n)
  · exact hlane

theorem picotOffer_aside (p : Packet) : Aside s (s.picotOffer n p) := by
  have hqueue := modPicot_aside s n
  unfold picotOffer
  dsimp only
  exact .ite _ (hqueue _) (.ite _ (hqueue _) (.ite _ (hqueue _) (.ite _ (hqueue _) (.wr (.refl s) _ rfl))))

theorem picotFlush_aside : Aside s (s.picotFlush n) := by
  have hempty : Aside s (s.modPicot n fun m => { m with queue := [], waiting := [] }) := modPicot_aside s n _
  unfold picotFlush
  dsimp only
  split
  · refine .wr ?_ _ rfl
    exact .modLane hempty n fun _ => rfl
  · exact hempty

end State

end Sys2Proof.Machine
end

section
/-!
SUPPORT. Messages of the conversation (R185, R189 to R191): what offering a packet and sending a message leave of the lane's record and of the
entries.
-/

namespace Sys2Proof.Machine

/-- A step that keeps a property keeps it through a pass. -/
theorem forAll_induct {α : Type} {P : State → Prop} {f : α → State → State} (hf : ∀ a z, P z → P (f a z)) (l : List α) {s : State}
    (h : P s) : P (forAll l f s) := by
  induction l generalizing s with
  | nil => exact h
  | cons a l ih => exact ih (hf a s h)

/-- The record once a sequenced message is handed over: it takes a number and a free place, or waits (R189). -/
def CoS.queued (c : CoS) (typ : Nat) (body : List Byte) : CoS :=
  if c.out.length < 4 && c.wait.isEmpty then
    { c with out := c.out ++ [⟨typ, body, c.txSeq, false⟩], txSeq := (c.txSeq + 1) % 256, numbered := c.numbered + 1, owe := false }
  else { c with wait := c.wait ++ [⟨typ, body, 0, false⟩], owe := false }

namespace CoS

variable (c : CoS) (typ : Nat) (body : List Byte)

@[simp] theorem queued_accepted : (c.queued typ body).accepted = c.accepted := by unfold queued; split <;> rfl
@[simp] theorem queued_best : (c.queued typ body).best = c.best := by unfold queued; split <;> rfl
@[simp] theorem queued_bind : (c.queued typ body).bind = c.bind := by unfold queued; split <;> rfl
@[simp] theorem queued_hold : (c.queued typ body).hold = c.hold := by unfold queued; split <;> rfl
@[simp] theorem queued_cap : (c.queued typ body).cap = c.cap := by unfold queued; split <;> rfl
@[simp] theorem queued_farKnown : (c.queued typ body).farKnown = c.farKnown := by unfold queued; split <;> rfl
@[simp] theorem queued_heardPropose : (c.queued typ body).heardPropose = c.heardPropose := by unfold queued; split <;> rfl
@[simp] theorem queued_prop : (c.queued typ body).prop = c.prop := by unfold queued; split <;> rfl
@[simp] theorem queued_propNum : (c.queued typ body).propNum = c.propNum := by unfold queued; split <;> rfl
@[simp] theorem queued_readyAcked : (c.queued typ body).readyAcked = c.readyAcked := by unfold queued; split <;> rfl
@[simp] theorem queued_reqId : (c.queued typ body).reqId = c.reqId := by unfold queued; split <;> rfl
@[simp] theorem queued_txeq : (c.queued typ body).txeq = c.txeq := by unfold queued; split <;> rfl
@[simp] theorem queued_capAcked : (c.queued typ body).capAcked = c.capAcked := by unfold queued; split <;> rfl

/-- The message is among those outstanding or waiting, and so is every one that was. -/
theorem mem_queued : (∃ m ∈ (c.queued typ body).out ++ (c.queued typ body).wait, m.typ = typ) ∧
    ∀ m ∈ c.out ++ c.wait, m ∈ (c.queued typ body).out ++ (c.queued typ body).wait := by
  unfold queued
  split
  · refine ⟨⟨⟨typ, body, c.txSeq, false⟩, by simp, rfl⟩, fun m hm => ?_⟩
    simp only [List.mem_append, List.mem_singleton] at hm ⊢
    tauto
  · refine ⟨⟨⟨typ, body, 0, false⟩, by simp, rfl⟩, fun m hm => ?_⟩
    simp only [List.mem_append, List.mem_singleton] at hm ⊢
    tauto

theorem length_queued : (c.queued typ body).out.length + (c.queued typ body).wait.length = c.out.length + c.wait.length + 1 := by
  unfold queued
  split <;> simp <;> omega

/-- With a free place and none waiting it is outstanding. -/
theorem queued_of_room (h : c.out.length < 4 ∧ c.wait = []) : c.queued typ body =
    { c with out := c.out ++ [⟨typ, body, c.txSeq, false⟩], txSeq := (c.txSeq + 1) % 256, numbered := c.numbered + 1, owe := false } :=
  if_pos (by simp [h])

end CoS

namespace State

variable (s : State) (n : Fin 16)

@[simp] theorem co_modCo (f : CoS → CoS) : (s.modCo n f).co n = f (s.co n) := by rw [co, modCo, lane_modLane]; rfl

theorem co_modCo_ne {m : Fin 16} (f : CoS → CoS) (h : m ≠ n) : (s.modCo n f).co m = s.co m := by
  rw [co, modCo, lane_modLane_ne _ _ h]; rfl

@[simp] theorem co_wr (k : Key) (v : Nat) : (s.wr k v).co n = s.co n := rfl
@[simp] theorem co_incSat (k : Key) : (s.incSat k).co n = s.co n := rfl
@[simp] theorem co_addSat (k : Key) (v : Nat) : (s.addSat k v).co n = s.co n := rfl
@[simp] theorem co_setCoFlag (m : Fin 16) (i : Nat) (b : Bool) : (s.setCoFlag m i b).co n = s.co n := rfl
@[simp] theorem co_modPicot (m : Fin 16) (f : PicotS → PicotS) : (s.modPicot m f).co n = s.co n := by
  by_cases h : n = m
  · rw [co, h, modPicot, lane_modLane]; rfl
  · rw [co, modPicot, lane_modLane_ne _ _ h]; rfl

/-! ## The Picot queue (R240) -/

/-- An offer changes the lane's Picot record, or counts an unsequenced packet as dropped. -/
theorem picotOffer_cases (p : Packet) : (∃ f, s.picotOffer n p = s.modPicot n f) ∨
    (sequenced p.typ = false ∧ s.picotOffer n p = s.incSat (K.PICOT_TX_DROPPED n)) := by
  unfold picotOffer
  dsimp only
  split
  · exact .inl ⟨_, rfl⟩
  · split
    · exact .inl ⟨_, rfl⟩
    · split
      · exact .inl ⟨_, rfl⟩
      · split
        · exact .inl ⟨_, rfl⟩
        next hseq => exact .inr ⟨by simpa using hseq, rfl⟩

theorem picotOffer_co (m : Fin 16) (p : Packet) : (s.picotOffer m p).co n = s.co n := by
  obtain ⟨f, hf⟩ | ⟨_, hdrop⟩ := picotOffer_cases s m p
  · rw [hf, co_modPicot]
  · rw [hdrop, co_incSat]

theorem picotOffer_lane_ne {m : Fin 16} (p : Packet) (h : n ≠ m) : (s.picotOffer m p).lane n = s.lane n := by
  obtain ⟨f, hf⟩ | ⟨_, hdrop⟩ := picotOffer_cases s m p
  · rw [hf, modPicot, lane_modLane_ne _ _ h]
  · rw [hdrop]; rfl

/-- Of the lane's record the queue alone changes. -/
theorem lane_picotOffer (p : Packet) : ∃ picot, (s.picotOffer n p).lane n = { s.lane n with picot := picot } := by
  obtain ⟨f, hf⟩ | ⟨_, hdrop⟩ := picotOffer_cases s n p
  · exact ⟨_, by rw [hf, modPicot, lane_modLane]⟩
  · exact ⟨_, by rw [hdrop]; rfl⟩

/-- A sequenced packet is never dropped: it moves no entry. -/
theorem rd_picotOffer_sequenced (p : Packet) (hp : sequenced p.typ = true) (k : Key) : (s.picotOffer n p).rd k = s.rd k := by
  obtain ⟨f, hf⟩ | ⟨hplain, _⟩ := picotOffer_cases s n p
  · rw [hf, modPicot_rd]
  · exact Bool.noConfusion (hplain.symm.trans hp)

/-- An unsequenced packet joins the queue where it has a place. -/
theorem picotOffer_of_place (p : Packet) (hp : sequenced p.typ = false) (hroom : (s.picot n).queue.length < 8) :
    s.picotOffer n p = s.modPicot n fun m => { m with queue := m.queue ++ [p] } := by
  unfold picotOffer
  dsimp only
  rw [hp, if_neg (by simp), if_neg (by simp), if_pos hroom]

/-! ## Offers and messages -/

variable (typ seq : Nat) (body : List Byte)

theorem co_coOffer : (s.coOffer n typ seq body).co n = { s.co n with owe := false } := by rw [coOffer, co_modCo, picotOffer_co]

theorem coOffer_co_ne {m : Fin 16} (h : n ≠ m) : (s.coOffer m typ seq body).co n = s.co n := by
  rw [coOffer, co_modCo_ne _ _ _ h, picotOffer_co]

theorem rd_coOffer {k : Key} (hk : convoEntry k = true) : (s.coOffer n typ seq body).rd k = s.rd k := (picotOffer_aside s n _).rd k hk

theorem rd_coOffer_sequenced (h : sequenced typ = true) (k : Key) : (s.coOffer n typ seq body).rd k = s.rd k := by
  rw [coOffer, modCo_rd]
  exact rd_picotOffer_sequenced s n ⟨typ, seq, s.coPrefix n ++ body⟩ h k

theorem co_sendSeq : (s.sendSeq n typ body).co n = (s.co n).queued typ body := by
  unfold sendSeq CoS.queued
  dsimp only
  split
  · rw [co_coOffer, co_modCo]
  · rw [co_modCo]

theorem sendSeq_co_ne {m : Fin 16} (h : n ≠ m) : (s.sendSeq m typ body).co n = s.co n := by
  unfold sendSeq
  dsimp only
  split
  · rw [coOffer_co_ne _ _ _ _ _ h, co_modCo_ne _ _ _ h]
  · rw [co_modCo_ne _ _ _ h]

/-- A sequenced message moves no entry. -/
theorem rd_sendSeq (h : sequenced typ = true) (k : Key) : (s.sendSeq n typ body).rd k = s.rd k := by
  unfold sendSeq
  dsimp only
  split
  · exact rd_coOffer_sequenced _ _ _ _ _ h k
  · rfl

theorem rd_sendSeq_convo {k : Key} (hk : convoEntry k = true) : (s.sendSeq n typ body).rd k = s.rd k := by
  unfold sendSeq
  dsimp only
  split
  · exact rd_coOffer _ _ _ _ _ hk
  · rfl

/-- Of the lane's record the conversation and the Picot queue alone change. -/
theorem lane_sendSeq : ∃ co picot, (s.sendSeq n typ body).lane n = { s.lane n with co := co, picot := picot } := by
  have hrecord : ∀ (z : State) (f : CoS → CoS), (z.modCo n f).lane n = { z.lane n with co := f (z.lane n).co } := fun z f =>
    lane_modLane _ _ _
  unfold sendSeq
  dsimp only
  split
  · rw [coOffer, hrecord]
    obtain ⟨picot, hpicot⟩ := lane_picotOffer (s.modCo n fun c =>
      { c with out := c.out ++ [⟨typ, body, c.txSeq, false⟩], txSeq := (c.txSeq + 1) % 256, numbered := c.numbered + 1 }) n
      ⟨typ, (s.co n).txSeq, (s.modCo n fun c =>
      { c with out := c.out ++ [⟨typ, body, c.txSeq, false⟩], txSeq := (c.txSeq + 1) % 256, numbered := c.numbered + 1 }).coPrefix n ++ body⟩
    rw [hpicot, hrecord]
    exact ⟨_, _, rfl⟩
  · exact ⟨_, _, hrecord _ _⟩

/-! ## Messages by type -/

theorem co_sendKeepalive : (s.sendKeepalive n).co n = { s.co n with owe := false } := co_coOffer _ _ _ _ _

theorem rd_sendKeepalive {k : Key} (hk : convoEntry k = true) : (s.sendKeepalive n).rd k = s.rd k := rd_coOffer _ _ _ _ _ hk

/-- A KEEPALIVE that has a place joins the queue, and nothing but the lane's record changes. -/
theorem sendKeepalive_of_place (hroom : (s.picot n).queue.length < 8) :
    (∃ p, ((s.sendKeepalive n).picot n).queue = (s.picot n).queue ++ [p] ∧ p.typ = 0x42) ∧
    (∀ m, m ≠ n → (s.sendKeepalive n).lane m = s.lane m) ∧ ∀ x, (s.sendKeepalive n).rd x = s.rd x := by
  have hqueue : ∀ (z : State) (f : CoS → CoS), (z.modCo n f).picot n = z.picot n := fun z f => by rw [picot, modCo, lane_modLane]; rfl
  have hplain : sequenced 0x42 = false := by decide
  have hput : ∀ f : PicotS → PicotS, (s.modPicot n f).picot n = f (s.picot n) := fun f => by rw [picot, modPicot, lane_modLane]; rfl
  unfold sendKeepalive sendPlain coOffer
  refine ⟨?_, fun m hm => ?_, fun x => ?_⟩
  · rw [hqueue, picotOffer_of_place s n _ hplain hroom, hput]
    exact ⟨_, rfl, rfl⟩
  · rw [modCo, lane_modLane_ne _ _ hm, picotOffer_lane_ne _ _ _ hm]
  · rw [modCo_rd, picotOffer_of_place s n _ hplain hroom, modPicot_rd]

theorem co_sendReady : (s.sendReady n).co n = { s.co n with readySent := true }.queued 0x08
    (be 1 (s.rd (K.LINE_CO_AGR n)) ++ be 1 (s.phase n)) := by rw [sendReady, co_sendSeq, co_modCo]

theorem sendReady_co_ne {m : Fin 16} (h : n ≠ m) : (s.sendReady m).co n = s.co n := by
  rw [sendReady, sendSeq_co_ne _ _ _ _ h, co_modCo_ne _ _ _ h]

theorem rd_sendReady (k : Key) : (s.sendReady n).rd k = s.rd k := rd_sendSeq _ n 0x08 _ (by decide) k

/-- STATUS: one message more, and its LOCK and FILL bytes are noted. -/
theorem co_sendStatus : ∃ body, (s.sendStatus n).co n = { (s.co n).queued 0x07 body with lastStatus := s.lockFill n } :=
  ⟨_, by rw [sendStatus, co_modCo, co_sendSeq]⟩

theorem rd_sendStatus (k : Key) : (s.sendStatus n).rd k = s.rd k := rd_sendSeq _ n 0x07 _ (by decide) k

theorem rd_sendReject (num reason detail : Nat) (k : Key) : (s.sendReject n num reason detail).rd k = s.rd k :=
  rd_sendSeq _ n 0x04 _ (by decide) k

theorem rd_sendTxeq (taps : List Int) (k : Key) : (s.sendTxeq n taps).rd k = s.rd k := rd_sendSeq _ n 0x05 _ (by decide) k

theorem co_sendTxeq (taps : List Int) : ∃ body, (s.sendTxeq n taps).co n =
    { s.co n with reqId := ((s.co n).reqId + 1) % 256 }.queued 0x05 body := ⟨_, by rw [sendTxeq, co_sendSeq, co_modCo]⟩

theorem rd_sendCap (k : Key) : (s.sendCap n).rd k = s.rd k := rd_sendSeq _ n 0x01 _ (by decide) k

theorem co_sendCap : ∃ body, (s.sendCap n).co n =
    { (s.co n).queued 0x01 body with ownCap := some (s.capNow n), capAcked := false } := ⟨_, by rw [sendCap, co_modCo, co_sendSeq]⟩

theorem sendCap_co_ne {m : Fin 16} (h : n ≠ m) : (s.sendCap m).co n = s.co n := by
  rw [sendCap, co_modCo_ne _ _ _ h, sendSeq_co_ne _ _ _ _ h]

theorem rd_propose (a : Agreed) (k : Key) : (s.propose n a).rd k = s.rd k := rd_sendSeq _ n 0x02 _ (by decide) k

theorem co_propose (a : Agreed) : ∃ body, (s.propose n a).co n =
    { s.co n with
      prop := some ⟨(s.co n).propNum, a.format, a.precode, a.time.toNat⟩, rejected := none
      propNum := if (s.co n).propNum = 255 then 1 else (s.co n).propNum + 1 }.queued 0x02 body :=
  ⟨_, by rw [propose, co_sendSeq, co_modCo]⟩

/-- READY of the other lanes of a port (R215): the lane's own conversation, and every entry, stands. -/
theorem portReady_stands : (s.portReady n).co n = s.co n ∧ ∀ k, (s.portReady n).rd k = s.rd k := by
  refine forAll_induct (P := fun z => z.co n = s.co n ∧ ∀ k, z.rd k = s.rd k) (fun m z hz => ?_) _ ⟨rfl, fun _ => rfl⟩
  split
  next h =>
    have hm : n ≠ m := fun e => by simp [e] at h
    exact ⟨(sendReady_co_ne z n hm).trans hz.1, fun k => (rd_sendReady z m k).trans (hz.2 k)⟩
  · exact hz

end State

end Sys2Proof.Machine
end

section
/-!
SUPPORT. A change of phase (R182, R196, R226): which bits of the entries of cast-on it may move, and what it makes of the lane's record.
-/

namespace Sys2Proof.Machine

/-! ## Changes of some bits -/

/-- A change of the bits `A` at most, of the entries of cast-on. -/
def Leaves (A : Key → Nat → Bool) (s t : State) : Prop := ∀ k j, convoEntry k = true → A k j = false → t.bit k j = s.bit k j

namespace Leaves

variable {A B : Key → Nat → Bool} {a s t : State}

theorem refl (A : Key → Nat → Bool) (s : State) : Leaves A s s := fun _ _ _ _ => rfl

theorem trans (h1 : Leaves A a s) (h2 : Leaves A s t) : Leaves A a t := fun k j hk hA => (h2 k j hk hA).trans (h1 k j hk hA)

theorem mono (h : Leaves A s t) (hAB : ∀ k j, B k j = false → A k j = false) : Leaves B s t := fun k j hk hB => h k j hk (hAB k j hB)

theorem aside (h : Leaves A a s) (ht : Aside s t) : Leaves A a t := h.trans fun k j hk _ => State.bit_of_rd (ht.rd k hk) j

theorem of_rd (h : ∀ k, t.rd k = s.rd k) : Leaves A s t := fun k j _ _ => State.bit_of_rd (h k) j

theorem ite {b : State} (c : Prop) [Decidable c] (ha : Leaves A s a) (hb : Leaves A s b) : Leaves A s (if c then a else b) := by
  split
  · exact ha
  · exact hb

theorem forAll {α : Type} {f : α → State → State} (hf : ∀ x z, Leaves A z (f x z)) (l : List α) (h : Leaves A a s) :
    Leaves A a (forAll l f s) := forAll_induct (P := Leaves A a) (fun x z hz => hz.trans (hf x z)) l h

/-- A write of an entry whose every bit may move. -/
theorem wr (h : Leaves A a s) {x : Key} (v : Nat) (hx : ∀ j, A x j = true) : Leaves A a (s.wr x v) := by
  refine h.trans fun k j _ hA => State.bit_of_rd (State.rd_wr_ne s v ?_) j
  rintro rfl
  exact Bool.noConfusion (hA.symm.trans (hx j))

theorem addSat (h : Leaves A a s) {x : Key} (v : Nat) (hx : ∀ j, A x j = true) : Leaves A a (s.addSat x v) := h.wr _ hx

theorem incSat (h : Leaves A a s) {x : Key} (hx : ∀ j, A x j = true) : Leaves A a (s.incSat x) := h.wr _ hx

theorem modCo (h : Leaves A a s) (n : Fin 16) (f : CoS → CoS) : Leaves A a (s.modCo n f) := h

theorem modLane (h : Leaves A a s) (n : Fin 16) (f : LaneS → LaneS) : Leaves A a (s.modLane n f) := h

theorem modPicot (h : Leaves A a s) (n : Fin 16) (f : PicotS → PicotS) : Leaves A a (s.modPicot n f) := h

/-- A write of one flag, where its bit and those the entry does not hold may move. -/
theorem flag (h : Leaves A a s) (n : Fin 16) (i : Nat) (b : Bool) (hi : A (K.LINE_CO_FLAGS n) i = true)
    (hhigh : ∀ j, 16 ≤ j → A (K.LINE_CO_FLAGS n) j = true) : Leaves A a (s.setCoFlag n i b) := by
  refine h.trans fun k j _ hA => ?_
  rw [State.setCoFlag, State.bit_wrBit]
  split
  next hkey =>
    subst hkey
    have hj : j < 16 := by
      by_contra hj
      exact Bool.noConfusion (hA.symm.trans (hhigh j (by omega)))
    have hne : j ≠ i := by
      rintro rfl
      exact Bool.noConfusion (hA.symm.trans hi)
    rw [if_neg hne, decide_eq_true (show j < bitsOf (K.LINE_CO_FLAGS n) from hj), Bool.true_and]
  · rfl

theorem rd (h : Leaves A s t) {k : Key} (hk : convoEntry k = true) (hA : ∀ j, A k j = false) : t.rd k = s.rd k :=
  Nat.eq_of_testBit_eq fun j => h k j hk (hA j)

theorem coFlag (h : Leaves A s t) (n : Fin 16) {i : Nat} (hA : A (K.LINE_CO_FLAGS n) i = false) : t.coFlag n i = s.coFlag n i :=
  h _ i rfl hA

end Leaves

/-- What entering a phase may move beside `PHASE`: the flags REALIGN and INCOMPATIBLE, and below C4 what was agreed (`AGR`, `LINE_FORMAT`, the
flags of whose proposal it is and of TIME). A flag beyond the entry's sixteen has no bit to keep. -/
def turnBits (terms : Bool) (k : Key) (j : Nat) : Bool :=
  (k.off == 0x30 && terms) || (k.off == 0x2C && ((k.sub == 6 && terms) ||
    (k.sub == 2 && (j == 1 || j == 9 || decide (16 ≤ j) || ((j == 2 || j == 3) && terms)))))

/-- The same with `PHASE`. -/
def phaseBits (terms : Bool) (k : Key) (j : Nat) : Bool := (k.off == 0x2C && k.sub == 1) || turnBits terms k j

theorem turnBits_mono {terms : Bool} {k : Key} {j : Nat} (h : turnBits true k j = false) : turnBits terms k j = false := by
  cases terms
  · simp only [turnBits, Bool.and_true, Bool.and_false, Bool.false_or, Bool.or_false, Bool.or_eq_false_iff, Bool.and_eq_false_iff] at h ⊢
    tauto
  · exact h

theorem phaseBits_turn {terms : Bool} {k : Key} {j : Nat} (h : phaseBits terms k j = false) : turnBits terms k j = false :=
  (Bool.or_eq_false_iff.mp h).2

theorem phaseBits_mono {terms : Bool} {k : Key} {j : Nat} (h : phaseBits true k j = false) : phaseBits terms k j = false :=
  Bool.or_eq_false_iff.mpr ⟨(Bool.or_eq_false_iff.mp h).1, turnBits_mono (Bool.or_eq_false_iff.mp h).2⟩

theorem turnBits_high (terms : Bool) (n : Fin 16) (j : Nat) (h : 16 ≤ j) : turnBits terms (K.LINE_CO_FLAGS n) j = true := by
  simp [turnBits, h]

/-! ## The phases -/

/-- The record at an entry to phase `p`, at cc `now`. -/
def CoS.begun (now p : Nat) (c : CoS) : CoS :=
  { c with phaseAt := now, readySent := false, readyAcked := false, owe := decide (2 ≤ p)
           peerReady := if p ≤ 4 then [] else c.peerReady, gate := if p = 7 then c.gate else 0 }

/-- The record with no agreement. -/
def CoS.termsOff (c : CoS) : CoS := { c with precOwn := false, precFar := false, needReacq := false, txeq := .idle }

/-- The record in phase `p`. -/
def CoS.inPhase (now p : Nat) (c : CoS) : CoS := if p ≤ 3 then (c.begun now p).termsOff else c.begun now p

namespace State

variable (s : State) (n : Fin 16) (p : Nat)

/-- The new phase on show. -/
def phaseShown : State :=
  let s1 := if s.phase n = 7 && p != 7 then s.leaveC7 n else s
  ((if s.phase n = p then s1 else s1.phaseRecord n p).wr (K.LINE_CO_PHASE n) p).setCoFlag n 9 false

/-- Its source and its record. -/
def phaseBegun : State :=
  ((s.phaseShown n p).chooseSrc n (if p ≤ 3 then 1 else if p = 4 then 2 else 3)).modCo n (CoS.begun s.now p)

/-- Below C5 the lock machines idle. -/
def phaseLocks : State :=
  if p < 5 && 5 ≤ s.phase n then ((s.phaseBegun n p).lockIdle n).setCoFlag n 1 false else s.phaseBegun n p

/-- Nothing agreed. -/
def termsOff : State :=
  ((((s.wr (K.LINE_CO_AGR n) 0).setFormat n 0).setCoFlag n 3 false).setCoFlag n 2 false).modCo n CoS.termsOff

/-- Below C4 adaptation stops and nothing is agreed. -/
def phaseTerms : State :=
  if p ≤ 3 then (if 4 ≤ s.phase n then (s.phaseLocks n p).adaptStop n else s.phaseLocks n p).termsOff n else s.phaseLocks n p

theorem phaseSet_eq : s.phaseSet n p =
    ((if p = 4 then (s.phaseTerms n p).modLane n fun l => { l with tx := { l.tx with train := 0 } }
      else s.phaseTerms n p).ssFollow n).groupFollow n :=
  rfl

theorem phaseRecord_aside : Aside s (s.phaseRecord n p) := .record (.refl s) _ _ _

theorem leaveC7_aside : Aside s (s.leaveC7 n) := .modLane (.refl s) n fun _ => rfl

theorem chooseSrc_aside (v : Nat) : Aside s (s.chooseSrc n v) := .modLane (.refl s) n fun _ => rfl

variable {s n p}

/-- The agreed format: `LINE_FORMAT` takes it, and the conversation stands. -/
theorem setFormat_eq_aside (s : State) (n : Fin 16) (f : Nat) : s.setFormat n f = s ∧ s.rd (K.LINE_FORMAT n) = f ∨
    Aside (s.wr (K.LINE_FORMAT n) f) (s.setFormat n f) := by
  unfold setFormat
  split
  next h => exact .inl ⟨rfl, h⟩
  · refine .inr (.ite _ ?_ (.ite _ (hostTrain_aside _ _) (.refl _)))
    exact (clkOkLost_aside _ _).trans (setFill_aside _ _ _)

theorem rd_setFormat (s : State) (n : Fin 16) {f : Nat} (hf : f < 256) : (s.setFormat n f).rd (K.LINE_FORMAT n) = f := by
  obtain ⟨heq, hrd⟩ | h := setFormat_eq_aside s n f
  · rw [heq, hrd]
  · rw [h.rd _ rfl, rd_wr_self]
    exact Nat.mod_eq_of_lt hf

theorem setFormat_leaves {A : Key → Nat → Bool} (s : State) (n : Fin 16) (f : Nat) (hA : ∀ j, A (K.LINE_FORMAT n) j = true) :
    Leaves A s (s.setFormat n f) := by
  obtain ⟨heq, -⟩ | h := setFormat_eq_aside s n f
  · rw [heq]; exact .refl A s
  · exact ((Leaves.refl A s).wr f hA).aside h

theorem setFormat_co (s : State) (n m : Fin 16) (f : Nat) : ∃ held, (s.setFormat n f).co m = { s.co m with heldC6 := held } := by
  obtain ⟨heq, -⟩ | h := setFormat_eq_aside s n f
  · exact ⟨_, by rw [heq]⟩
  · exact h.co_eq m

/-! ## Offers of a group -/

theorem offerCheck_leaves (terms : Bool) (s : State) (m : Fin 16) : Leaves (turnBits terms) s (s.offerCheck m) := by
  have hcap : Leaves (turnBits terms) s (s.sendCap m) := .of_rd fun k => rd_sendCap s m k
  unfold offerCheck
  split
  · exact .ite _ (.ite _ (hcap.flag m 9 true rfl (turnBits_high terms m)) hcap) (.refl _ s)
  · exact .refl _ s

/-- A changed offer is sent by a lane in C2 or C3 that has sent one. -/
theorem offerCheck_co (s : State) (m : Fin 16) (h : n ≠ m ∨ (s.phase m ≠ 2 ∧ s.phase m ≠ 3) ∨ (s.co m).ownCap = none) :
    (s.offerCheck m).co n = s.co n := by
  have hcap : n ≠ m → (s.sendCap m).co n = s.co n := sendCap_co_ne s n
  unfold offerCheck
  split
  next c hc =>
    split
    next hgo =>
      have hne : n ≠ m := by
        simp only [Bool.and_eq_true, Bool.or_eq_true, decide_eq_true_eq] at hgo
        rcases h with h | ⟨h2, h3⟩ | h
        · exact h
        · exact absurd hgo.1 (by simp [h2, h3])
        · exact absurd (h.symm.trans hc) (by simp)
      dsimp only
      split
      · rw [co_setCoFlag, hcap hne]
      · exact hcap hne
    · rfl
  · rfl

theorem offerCheck_phase (s : State) (m : Fin 16) : (s.offerCheck m).phase n = s.phase n :=
  (offerCheck_leaves false s m).rd rfl fun _ => rfl

theorem groupFix_aside (s : State) (k : Fin 4) (f : Nat) : Aside s (s.groupFix k f) := .modPg (.refl s) k _

/-- The group's format once it follows its lanes. -/
def groupFormat (s : State) (n : Fin 16) : State :=
  if (lanesOf (pgOf n)).any (fun m => 4 ≤ s.phase m) then
    (if (s.pg (pgOf n)).fixed = 0 then s.groupFix (pgOf n) (s.rd (K.LINE_FORMAT n)) else s)
  else s.modPg (pgOf n) fun g => { g with fixed := 0, relockFmt := false }

theorem groupFollow_eq (s : State) (n : Fin 16) : s.groupFollow n =
    if (s.pg (pgOf n)).fixed = ((s.groupFormat n).pg (pgOf n)).fixed then s.groupFormat n
    else forAll (lanesOf (pgOf n)) (fun m z => z.offerCheck m) (s.groupFormat n) := rfl

theorem groupFormat_aside (s : State) (n : Fin 16) : Aside s (s.groupFormat n) :=
  .ite _ (.ite _ (groupFix_aside s _ _) (.refl s)) (.modPg (.refl s) _ _)

theorem groupFollow_leaves (terms : Bool) (s : State) (m : Fin 16) : Leaves (turnBits terms) s (s.groupFollow m) := by
  have hformat : Leaves (turnBits terms) s (s.groupFormat m) := (Leaves.refl _ s).aside (groupFormat_aside s m)
  rw [groupFollow_eq]
  exact .ite _ hformat (.forAll (fun x z => offerCheck_leaves terms z x) _ hformat)

/-- Where no offer of the lane's own is due its record stands. -/
theorem groupFollow_co (s : State) (m : Fin 16) (h : (s.phase n ≠ 2 ∧ s.phase n ≠ 3) ∨ (s.co n).ownCap = none) :
    ∃ held, (s.groupFollow m).co n = { s.co n with heldC6 := held } := by
  have hformat := groupFormat_aside s m
  obtain ⟨held, hheld⟩ := hformat.co_eq n
  rw [groupFollow_eq]
  split
  · exact ⟨held, hheld⟩
  · refine ⟨held, (forAll_induct (P := fun z => z.phase n = s.phase n ∧ z.co n = { s.co n with heldC6 := held })
      (fun x z hz => ?_) _ ⟨hformat.phase n, hheld⟩).2⟩
    obtain ⟨hphase, hco⟩ := hz
    refine ⟨(offerCheck_phase z x).trans hphase, (offerCheck_co z x ?_).trans hco⟩
    by_cases hx : n = x
    · subst hx
      rw [hphase, hco]
      exact .inr h
    · exact .inl hx

/-! ## The stages of an entry -/

theorem phaseShown_base (s : State) (n : Fin 16) (p : Nat) :
    ∃ z, Aside s z ∧ s.phaseShown n p = (z.wr (K.LINE_CO_PHASE n) p).setCoFlag n 9 false := by
  refine ⟨_, ?_, rfl⟩
  have hleft : Aside s (if s.phase n = 7 && p != 7 then s.leaveC7 n else s) := .ite _ (leaveC7_aside s n) (.refl s)
  exact .ite _ hleft (hleft.trans (phaseRecord_aside _ n p))

theorem phaseShown_leaves (s : State) (n : Fin 16) (p : Nat) : Leaves (phaseBits false) s (s.phaseShown n p) := by
  obtain ⟨z, hz, heq⟩ := phaseShown_base s n p
  rw [heq]
  exact (((Leaves.refl _ s).aside hz).wr p fun _ => rfl).flag n 9 false rfl fun j hj => by simp [phaseBits, turnBits_high false n j hj]

theorem phaseShown_phase (s : State) (n : Fin 16) (hp : p < 256) : (s.phaseShown n p).phase n = p := by
  obtain ⟨z, -, heq⟩ := phaseShown_base s n p
  rw [heq, phase, setCoFlag, rd_wrBit_ne _ _ _ (by simp), rd_wr_self]
  exact Nat.mod_eq_of_lt hp

theorem phaseShown_co (s : State) (n : Fin 16) (p : Nat) : ∃ held, (s.phaseShown n p).co n = { s.co n with heldC6 := held } := by
  obtain ⟨z, hz, heq⟩ := phaseShown_base s n p
  obtain ⟨held, hheld⟩ := hz.co_eq n
  exact ⟨held, by rw [heq, co_setCoFlag, co_wr, hheld]⟩

theorem phaseLocks_leaves (s : State) (n : Fin 16) (p : Nat) : Leaves (turnBits false) (s.phaseShown n p) (s.phaseLocks n p) := by
  have hbegun : Leaves (turnBits false) (s.phaseShown n p) (s.phaseBegun n p) := ((Leaves.refl _ _).aside (chooseSrc_aside _ n _)).modCo n _
  exact .ite _ ((hbegun.aside (lockIdle_aside _ n)).flag n 1 false rfl (turnBits_high false n)) hbegun

theorem phaseLocks_co (s : State) (n : Fin 16) (p : Nat) :
    ∃ held, (s.phaseLocks n p).co n = { (s.co n).begun s.now p with heldC6 := held } := by
  have hbegun : ∃ held, (s.phaseBegun n p).co n = { (s.co n).begun s.now p with heldC6 := held } := by
    obtain ⟨h1, e1⟩ := phaseShown_co s n p
    obtain ⟨h2, e2⟩ := (chooseSrc_aside (s.phaseShown n p) n (if p ≤ 3 then 1 else if p = 4 then 2 else 3)).co_eq n
    exact ⟨h2, by rw [phaseBegun, co_modCo, e2, e1]; rfl⟩
  obtain ⟨h1, e1⟩ := hbegun
  unfold phaseLocks
  split
  · obtain ⟨h2, e2⟩ := (lockIdle_aside (s.phaseBegun n p) n).co_eq n
    exact ⟨h2, by rw [co_setCoFlag, e2, e1]⟩
  · exact ⟨h1, e1⟩

theorem termsOff_leaves (s : State) (n : Fin 16) : Leaves (turnBits true) s (s.termsOff n) := by
  have hagr : Leaves (turnBits true) s (s.wr (K.LINE_CO_AGR n) 0) := (Leaves.refl _ s).wr 0 fun _ => rfl
  have hformat := hagr.trans (setFormat_leaves _ n 0 fun _ => rfl)
  exact (hformat.flag n 3 false rfl (turnBits_high true n)).flag n 2 false rfl (turnBits_high true n)

theorem termsOff_agr (s : State) (n : Fin 16) : (s.termsOff n).rd (K.LINE_CO_AGR n) = 0 := by
  have hformat : ((s.wr (K.LINE_CO_AGR n) 0).setFormat n 0).rd (K.LINE_CO_AGR n) = 0 := by
    obtain ⟨heq, -⟩ | h := setFormat_eq_aside (s.wr (K.LINE_CO_AGR n) 0) n 0
    · rw [heq, rd_wr_self, Nat.zero_mod]
    · rw [h.rd _ rfl, rd_wr_ne _ _ (by simp), rd_wr_self, Nat.zero_mod]
  rw [termsOff, modCo_rd, setCoFlag, rd_wrBit_ne _ _ _ (by simp), setCoFlag, rd_wrBit_ne _ _ _ (by simp), hformat]

theorem termsOff_co (s : State) (n : Fin 16) : ∃ held, (s.termsOff n).co n = { (s.co n).termsOff with heldC6 := held } := by
  obtain ⟨held, hheld⟩ := setFormat_co (s.wr (K.LINE_CO_AGR n) 0) n n 0
  exact ⟨held, by rw [termsOff, co_modCo, co_setCoFlag, co_setCoFlag, hheld, co_wr]; rfl⟩

theorem phaseTerms_leaves (s : State) (n : Fin 16) (p : Nat) :
    Leaves (turnBits (decide (p ≤ 3))) (s.phaseShown n p) (s.phaseTerms n p) := by
  have hlocks := phaseLocks_leaves s n p
  unfold phaseTerms
  split
  next hp =>
    rw [decide_eq_true hp]
    have hlocks' : Leaves (turnBits true) (s.phaseShown n p) (s.phaseLocks n p) := hlocks.mono fun _ _ => turnBits_mono
    exact (Leaves.ite _ (hlocks'.aside (adaptStop_aside _ n)) hlocks').trans (termsOff_leaves _ n)
  next hp => rwa [decide_eq_false hp]

theorem phaseTerms_co (s : State) (n : Fin 16) (p : Nat) : ∃ held,
    (s.phaseTerms n p).co n = { (s.co n).inPhase s.now p with heldC6 := held } := by
  obtain ⟨h1, e1⟩ := phaseLocks_co s n p
  unfold phaseTerms CoS.inPhase
  split
  · have hstop : Aside (s.phaseLocks n p) (if 4 ≤ s.phase n then (s.phaseLocks n p).adaptStop n else s.phaseLocks n p) :=
      .ite _ (adaptStop_aside _ n) (.refl _)
    obtain ⟨h2, e2⟩ := hstop.co_eq n
    obtain ⟨h3, e3⟩ := termsOff_co (if 4 ≤ s.phase n then (s.phaseLocks n p).adaptStop n else s.phaseLocks n p) n
    exact ⟨h3, by rw [e3, e2, e1]; rfl⟩
  · exact ⟨h1, e1⟩

/-! ## The whole entry -/

/-- The last steps of an entry: TRAIN's seed, slip-stitch and the group's format. -/
theorem phaseSet_after (s : State) (n : Fin 16) (p : Nat) : ∃ z, Aside (s.phaseTerms n p) z ∧ s.phaseSet n p = z.groupFollow n := by
  have hseed : Aside (s.phaseTerms n p) ((s.phaseTerms n p).modLane n fun l => { l with tx := { l.tx with train := 0 } }) :=
    .modLane (.refl _) n fun _ => rfl
  exact ⟨_, (Aside.ite _ hseed (.refl _)).trans (ssFollow_aside _ n), phaseSet_eq s n p⟩

theorem phaseSet_shown (s : State) (n : Fin 16) (p : Nat) : Leaves (turnBits (decide (p ≤ 3))) (s.phaseShown n p) (s.phaseSet n p) := by
  obtain ⟨z, hz, heq⟩ := phaseSet_after s n p
  rw [heq]
  exact ((phaseTerms_leaves s n p).aside hz).trans (groupFollow_leaves _ z n)

theorem phaseSet_leaves (s : State) (n : Fin 16) (p : Nat) : Leaves (phaseBits (decide (p ≤ 3))) s (s.phaseSet n p) := by
  have hshown : Leaves (phaseBits (decide (p ≤ 3))) s (s.phaseShown n p) := (phaseShown_leaves s n p).mono fun k j h => by
    simp only [phaseBits, turnBits, Bool.or_eq_false_iff, Bool.and_eq_false_iff] at h ⊢
    tauto
  exact hshown.trans ((phaseSet_shown s n p).mono fun _ _ => phaseBits_turn)

theorem phaseSet_phase (s : State) (n : Fin 16) (hp : p < 256) : (s.phaseSet n p).phase n = p :=
  ((phaseSet_shown s n p).rd rfl fun _ => rfl).trans (phaseShown_phase s n hp)

/-- Below C4 there is no agreement number. -/
theorem phaseSet_agr (s : State) (n : Fin 16) (hp : p ≤ 3) : (s.phaseSet n p).rd (K.LINE_CO_AGR n) = 0 := by
  obtain ⟨z, hz, heq⟩ := phaseSet_after s n p
  rw [heq, (groupFollow_leaves false z n).rd rfl fun _ => rfl, hz.rd _ rfl, phaseTerms, if_pos hp, termsOff_agr]

/-- The lane's record after an entry: unless an offer of its own is due (in C2 and C3 only). -/
theorem phaseSet_co (s : State) (n : Fin 16) (hp : p < 256) (h : (p ≠ 2 ∧ p ≠ 3) ∨ (s.co n).ownCap = none) :
    ∃ held, (s.phaseSet n p).co n = { (s.co n).inPhase s.now p with heldC6 := held } := by
  obtain ⟨z, hz, heq⟩ := phaseSet_after s n p
  obtain ⟨h1, e1⟩ := phaseTerms_co s n p
  obtain ⟨h2, e2⟩ := hz.co_eq n
  have hphase : z.phase n = p :=
    (hz.phase n).trans (((phaseTerms_leaves s n p).rd rfl fun _ => rfl).trans (phaseShown_phase s n hp))
  have hown : (z.co n).ownCap = (s.co n).ownCap := by
    rw [e2, e1, CoS.inPhase]
    split <;> rfl
  obtain ⟨h3, e3⟩ := groupFollow_co (n := n) z n (by rwa [hphase, hown])
  exact ⟨h3, by rw [heq, e3, e2, e1]⟩

end State

end Sys2Proof.Machine
end

section
/-!
SUPPORT. How a conversation ends (R195, R196, R221, Table 7-6): a restart, the entries to C0 and C1, bind-off, and what they make of the
lane's record and of its entries.
-/

namespace Sys2Proof.Machine

/-- What the entry to C1 may move: `PHASE`, the flags and what was agreed. -/
def idleBits (k : Key) (_ : Nat) : Bool := k.off == 0x30 || (k.off == 0x2C && (k.sub == 1 || k.sub == 2 || k.sub == 6))

/-- What the entry to C0 may move: besides, what is known of the partner. -/
def endBits (k : Key) (_ : Nat) : Bool :=
  k.off == 0x30 || (k.off == 0x2C && (k.sub == 1 || k.sub == 2 || k.sub == 3 || k.sub == 5 || k.sub == 6 || k.sub == 7))

/-- What a restart may move: besides, the session, the cause and the count of restarts. -/
def restartBits (k : Key) (j : Nat) : Bool :=
  endBits k j || (k.off == 0x2C && (k.sub == 4 || k.sub == 0x0A)) || (k.off == 0x2E && k.sub == 2)

theorem idleBits_phase {terms : Bool} {k : Key} {j : Nat} (h : idleBits k j = false) : phaseBits terms k j = false := by
  simp only [idleBits, phaseBits, turnBits, Bool.or_eq_false_iff, Bool.and_eq_false_iff] at h ⊢
  tauto

theorem endBits_idle {k : Key} {j : Nat} (h : endBits k j = false) : idleBits k j = false := by
  simp only [idleBits, endBits, Bool.or_eq_false_iff, Bool.and_eq_false_iff] at h ⊢
  tauto

theorem restartBits_end {k : Key} {j : Nat} (h : restartBits k j = false) : endBits k j = false :=
  (Bool.or_eq_false_iff.mp (Bool.or_eq_false_iff.mp h).1).1

/-- The record with no message outstanding or waiting. -/
def CoS.discarded (c : CoS) : CoS := { c with out := [], wait := [], retries := 0, ackOwed := none }

namespace State

variable {s : State} {n : Fin 16}

theorem coDiscard_co (s : State) (n : Fin 16) : (s.coDiscard n).co n = (s.co n).discarded := co_modCo _ _ _

/-! ## C1 -/

theorem enterC1_leaves (s : State) (n : Fin 16) : Leaves idleBits s (s.enterC1 n) := by
  have hset : Leaves idleBits s ((s.coDiscard n).phaseSet n 1) := (phaseSet_leaves (s.coDiscard n) n 1).mono fun _ _ => idleBits_phase
  unfold enterC1
  exact ((hset.wr 0 fun _ => rfl).modPicot n _).modCo n _

theorem enterC1_phase (s : State) (n : Fin 16) : (s.enterC1 n).phase n = 1 := by
  rw [enterC1, phase, modCo_rd, modPicot_rd, rd_wr_ne _ _ (by simp)]
  exact phaseSet_phase _ n (by decide)

theorem enterC1_flags (s : State) (n : Fin 16) : (s.enterC1 n).rd (K.LINE_CO_FLAGS n) = 0 := by
  rw [enterC1, modCo_rd, modPicot_rd, rd_wr_self, Nat.zero_mod]

theorem enterC1_co (s : State) (n : Fin 16) : ∃ held, (s.enterC1 n).co n =
    { (s.co n).discarded.inPhase s.now 1 with e := 0, bind := none, backoff := false, heldC6 := held } := by
  obtain ⟨held, hco⟩ := phaseSet_co (s.coDiscard n) n (p := 1) (by decide) (.inl (by decide))
  exact ⟨held, by rw [enterC1, co_modCo, co_modPicot, co_wr, hco, coDiscard_co]; rfl⟩

/-! ## A new session (R186) -/

theorem newSession_leaves {A : Key → Nat → Bool} (s : State) (n : Fin 16) (hA : ∀ j, A (K.LINE_CO_SESSION n) j = true) :
    Leaves A s (s.newSession n) := Leaves.wr (s := s.fresh.2) (fun _ _ _ _ => rfl) _ hA

/-- The number drawn, of sixteen bits. -/
theorem session_drawn {v old : Nat} (hv : 1 ≤ v) (hlt : v < 65536) : (if v = old then v % 65535 + 1 else v) % 2 ^ 16 ≠ 0 ∧
    (if v = old then v % 65535 + 1 else v) % 2 ^ 16 ≠ old := by
  have hpow : 2 ^ 16 = 65536 := rfl
  rw [hpow]
  split
  · have hnext : v % 65535 < 65535 := Nat.mod_lt _ (by decide)
    rw [Nat.mod_eq_of_lt (by omega)]
    omega
  · rw [Nat.mod_eq_of_lt hlt]
    omega

/-- It is never 0 and never the one it replaces. -/
theorem newSession_session (s : State) (n : Fin 16) :
    (s.newSession n).rd (K.LINE_CO_SESSION n) ≠ 0 ∧ (s.newSession n).rd (K.LINE_CO_SESSION n) ≠ s.rd (K.LINE_CO_SESSION n) := by
  have hbits : bitsOf (K.LINE_CO_SESSION n) = 16 := rfl
  unfold newSession
  rw [rd_wr_self, hbits]
  have hlt : s.fresh.1 % 65535 < 65535 := Nat.mod_lt _ (by decide)
  exact session_drawn (by omega) (by omega)

/-! ## C0 -/

/-- What of a lane's own conversation stands when its port's other lanes take note of it. -/
theorem laneWentDown_stands (s : State) (n : Fin 16) : (∀ k, convoEntry k = true → (s.laneWentDown n).rd k = s.rd k) ∧
    ∃ held, (s.laneWentDown n).co n = { s.co n with heldC6 := held } := by
  have hbefore : Aside s ((s.gbDown (pgOf n)).swatchAbort n) := (gbDown_aside s _).trans (swatchAbort_aside _ n)
  obtain ⟨hco, hrd⟩ := portReady_stands ((s.gbDown (pgOf n)).swatchAbort n) n
  have hafter := outageCheck_aside (((s.gbDown (pgOf n)).swatchAbort n).portReady n)
  obtain ⟨h1, e1⟩ := hbefore.co_eq n
  obtain ⟨h2, e2⟩ := hafter.co_eq n
  exact ⟨fun k hk => (hafter.rd k hk).trans ((hrd k).trans (hbefore.rd k hk)), h2, by rw [laneWentDown, e2, hco, e1]⟩

/-- The start of cast-on begins calibrations; of the conversation it is noted that they run for it. -/
theorem castStart_stands (s : State) (n : Fin 16) : (∀ k, convoEntry k = true → (s.castStart n).rd k = s.rd k) ∧
    ∃ held calCo, (s.castStart n).co n = { s.co n with heldC6 := held, calCo := calCo } := by
  unfold castStart
  split
  · have hcal := calStart_aside (s.modCo n fun c => { c with calCo := true }) n true true
    obtain ⟨held, hheld⟩ := hcal.co_eq n
    exact ⟨fun k hk => hcal.rd k hk, held, true, by rw [hheld, co_modCo]⟩
  · exact ⟨fun _ _ => rfl, _, _, rfl⟩

/-- The state on the way to C0, before the lane's down counts or cast-on starts again. -/
def c0Base (s : State) (n : Fin 16) (hold : Bool) : State :=
  ((((((((s.coDiscard n).picotFlush n).phaseSet n 0).wr (K.LINE_CO_FLAGS n) 0).wr (K.LINE_CO_PEER_ID n) 0).wr (K.LINE_CO_PEER_SESSION n) 0).wr
    (K.LINE_CO_PEER_PHASE n) 0xFF).modCo n fun c =>
      { c with hold := hold, bind := none, backoff := false, e := 0, cap := none, ownCap := none, prop := none, rejected := none
               accepted := none, owe := false, oow := 0 })

theorem toC0_eq (s : State) (n : Fin 16) (hold : Bool) : s.toC0 n hold =
    if (s.c0Base n hold).laneDown n then (s.c0Base n hold).laneWentDown n else (s.c0Base n hold).castStart n := rfl

theorem toC0_stands (s : State) (n : Fin 16) (hold : Bool) :
    (∀ k, convoEntry k = true → (s.toC0 n hold).rd k = (s.c0Base n hold).rd k) ∧
    ∃ held calCo, (s.toC0 n hold).co n = { (s.c0Base n hold).co n with heldC6 := held, calCo := calCo } := by
  rw [toC0_eq]
  split
  · obtain ⟨hrd, held, hco⟩ := laneWentDown_stands (s.c0Base n hold) n
    exact ⟨hrd, held, _, hco⟩
  · exact castStart_stands _ n

theorem c0Base_leaves (s : State) (n : Fin 16) (hold : Bool) : Leaves endBits s (s.c0Base n hold) := by
  have hflush : Leaves endBits s ((s.coDiscard n).picotFlush n) := Leaves.aside (s := s.coDiscard n) (.refl _ s) (picotFlush_aside _ n)
  have hset := hflush.trans ((phaseSet_leaves ((s.coDiscard n).picotFlush n) n 0).mono fun _ _ h => idleBits_phase (endBits_idle h))
  unfold c0Base
  exact ((((hset.wr 0 fun _ => rfl).wr 0 fun _ => rfl).wr 0 fun _ => rfl).wr 0xFF fun _ => rfl).modCo n _

theorem toC0_leaves (s : State) (n : Fin 16) (hold : Bool) : Leaves endBits s (s.toC0 n hold) :=
  (c0Base_leaves s n hold).trans fun k j hk _ => bit_of_rd ((toC0_stands s n hold).1 k hk) j

theorem toC0_phase (s : State) (n : Fin 16) (hold : Bool) : (s.toC0 n hold).phase n = 0 := by
  rw [phase, (toC0_stands s n hold).1 _ rfl, c0Base, modCo_rd, rd_wr_ne _ _ (by simp), rd_wr_ne _ _ (by simp), rd_wr_ne _ _ (by simp),
    rd_wr_ne _ _ (by simp)]
  exact phaseSet_phase _ n (by decide)

theorem toC0_flags (s : State) (n : Fin 16) (hold : Bool) : (s.toC0 n hold).rd (K.LINE_CO_FLAGS n) = 0 := by
  rw [(toC0_stands s n hold).1 _ rfl, c0Base, modCo_rd, rd_wr_ne _ _ (by simp), rd_wr_ne _ _ (by simp), rd_wr_ne _ _ (by simp), rd_wr_self,
    Nat.zero_mod]

theorem toC0_peerPhase (s : State) (n : Fin 16) (hold : Bool) : (s.toC0 n hold).rd (K.LINE_CO_PEER_PHASE n) = 0xFF := by
  rw [(toC0_stands s n hold).1 _ rfl, c0Base, modCo_rd, rd_wr_self]
  rfl

/-- The record in C0: held or not, nothing under way. -/
theorem toC0_co (s : State) (n : Fin 16) (hold : Bool) : ((s.toC0 n hold).co n).hold = hold ∧ ((s.toC0 n hold).co n).bind = none ∧
    ((s.toC0 n hold).co n).out = [] ∧ ((s.toC0 n hold).co n).wait = [] := by
  obtain ⟨-, h1, calCo, e1⟩ := toC0_stands s n hold
  obtain ⟨h2, e2⟩ := (picotFlush_aside (s.coDiscard n) n).co_eq n
  obtain ⟨h3, e3⟩ := phaseSet_co ((s.coDiscard n).picotFlush n) n (p := 0) (by decide) (.inl (by decide))
  rw [e1, c0Base, co_modCo, co_wr, co_wr, co_wr, co_wr, e3, e2, coDiscard_co]
  exact ⟨rfl, rfl, rfl, rfl⟩

/-! ## Bind-off ends (R221) -/

theorem bindDone_of_bind {reason : Nat} (h : (s.co n).bind = some reason) : s.bindDone n = s.toC0 n (reason == 1) := by
  rw [bindDone, h, Option.isSome_some, if_pos rfl, show (some reason == some 1) = (reason == 1) from rfl]

theorem bindDone_of_none (h : (s.co n).bind = none) : s.bindDone n = s := by
  rw [bindDone, h, if_neg (by simp)]

/-! ## Restart (R195) -/

/-- The cause recorded and the restart counted, the queue empty. -/
def restartNoted (s : State) (n : Fin 16) (cause : Nat) : State := ((s.setFail n cause).incSat (K.LINE_CO_RESTARTS n)).picotFlush n

/-- The restart in C1. -/
def restartBase (s : State) (n : Fin 16) (cause : Nat) : State :=
  (((s.restartNoted n cause).newSession n).enterC1 n).modCo n fun c => { c with backoff := true, owe := false }

theorem coRestart_of_none {cause : Nat} (h : (s.co n).bind = none) : s.coRestart n cause = s.restartBase n cause := by
  unfold coRestart
  rw [h]
  rfl

theorem coRestart_of_bind {cause reason : Nat} (h : (s.co n).bind = some reason) :
    s.coRestart n cause = (s.restartBase n cause).toC0 n (reason == 1) := by
  unfold coRestart
  rw [h]
  rfl

theorem restartNoted_rd (s : State) (n : Fin 16) (cause : Nat) {k : Key} (hk : convoEntry k = true) : (s.restartNoted n cause).rd k =
    if k = K.LINE_CO_RESTARTS n then min (s.rd (K.LINE_CO_RESTARTS n) + 1) (2 ^ bitsOf (K.LINE_CO_RESTARTS n) - 1)
    else if k = K.LINE_CO_LAST_FAIL n then (s.phase n * 256 + cause) % 2 ^ bitsOf (K.LINE_CO_LAST_FAIL n) else s.rd k := by
  rw [restartNoted, (picotFlush_aside _ n).rd k hk, rd_incSat, setFail,
    rd_wr_ne s _ (show K.LINE_CO_RESTARTS n ≠ K.LINE_CO_LAST_FAIL n by simp), rd_wr]

theorem restartBase_leaves (s : State) (n : Fin 16) (cause : Nat) : Leaves restartBits s (s.restartBase n cause) := by
  have hcause : Leaves restartBits s (s.setFail n cause) := (Leaves.refl _ s).wr _ fun _ => rfl
  have hnoted : Leaves restartBits s (s.restartNoted n cause) := (hcause.incSat fun _ => rfl).aside (picotFlush_aside _ n)
  have hidle := (enterC1_leaves ((s.restartNoted n cause).newSession n) n).mono fun _ _ h => endBits_idle (restartBits_end h)
  unfold restartBase
  exact ((hnoted.trans (newSession_leaves _ n fun _ => rfl)).trans hidle).modCo n _

theorem coRestart_leaves (s : State) (n : Fin 16) (cause : Nat) : Leaves restartBits s (s.coRestart n cause) := by
  cases h : (s.co n).bind with
  | none => rw [coRestart_of_none h]; exact restartBase_leaves s n cause
  | some reason =>
    rw [coRestart_of_bind h]
    exact (restartBase_leaves s n cause).trans ((toC0_leaves _ n _).mono fun _ _ => restartBits_end)

/-- The entries that the entry to C1 does not move, after a restart. -/
theorem restartBase_rd (s : State) (n : Fin 16) (cause : Nat) {k : Key} (hk : convoEntry k = true) (hA : ∀ j, idleBits k j = false) :
    (s.restartBase n cause).rd k = ((s.restartNoted n cause).newSession n).rd k := by
  rw [restartBase, modCo_rd]
  exact (enterC1_leaves _ n).rd hk hA

theorem restartBase_lastFail (s : State) (n : Fin 16) {cause : Nat} (hphase : s.phase n ≤ 7) (hcause : cause < 256) :
    (s.restartBase n cause).rd (K.LINE_CO_LAST_FAIL n) = s.phase n * 256 + cause := by
  rw [restartBase_rd s n cause rfl fun _ => rfl, newSession, rd_wr_ne _ _ (by simp)]
  refine (restartNoted_rd s n cause rfl).trans ?_
  rw [if_neg (by simp), if_pos rfl]
  exact Nat.mod_eq_of_lt (show s.phase n * 256 + cause < 65536 by omega)

theorem restartBase_counted (s : State) (n : Fin 16) (cause : Nat) : CountsUp s (s.restartBase n cause) (K.LINE_CO_RESTARTS n) 1 := by
  rw [CountsUp, restartBase_rd s n cause rfl fun _ => rfl, newSession, rd_wr_ne _ _ (by simp)]
  exact (restartNoted_rd s n cause rfl).trans (if_pos rfl)

theorem restartBase_restarted (s : State) (n : Fin 16) {cause : Nat} (hphase : s.phase n ≤ 7) (hcause : cause < 256) :
    Restarted n cause s (s.restartBase n cause) := by
  have hsession : (s.restartNoted n cause).rd (K.LINE_CO_SESSION n) = s.rd (K.LINE_CO_SESSION n) :=
    (restartNoted_rd s n cause rfl).trans (by rw [if_neg (by simp), if_neg (by simp)])
  obtain ⟨hzero, hnew⟩ := newSession_session (s.restartNoted n cause) n
  have hkeeps := restartBase_rd s n cause (k := K.LINE_CO_SESSION n) rfl fun _ => rfl
  obtain ⟨held, hco⟩ := enterC1_co ((s.restartNoted n cause).newSession n) n
  refine ⟨?_, restartBase_lastFail s n hphase hcause, restartBase_counted s n cause, ?_, ?_, ?_, ?_, ?_⟩
  · rw [restartBase, phase, modCo_rd]
    exact enterC1_phase _ n
  · rwa [hkeeps]
  · rwa [hkeeps, ← hsession]
  · rw [restartBase, co_modCo]
  · rw [restartBase, co_modCo, hco]; rfl
  · rw [restartBase, co_modCo, hco]; rfl

/-- A restart is one, of a lane that binds off as of any other (R195, R221). -/
theorem coRestart_restarts (s : State) (n : Fin 16) {cause : Nat} (hphase : s.phase n ≤ 7) (hcause : cause < 256) :
    Restarts n cause s (s.coRestart n cause) := by
  refine ⟨fun hbind => ?_, fun reason hbind => ?_⟩
  · rw [coRestart_of_none hbind]
    exact restartBase_restarted s n hphase hcause
  · rw [coRestart_of_bind hbind]
    obtain ⟨hhold, hnone, hout, hwait⟩ := toC0_co (s.restartBase n cause) n (reason == 1)
    have hkeeps : ∀ k, convoEntry k = true → (∀ j, endBits k j = false) →
        ((s.restartBase n cause).toC0 n (reason == 1)).rd k = (s.restartBase n cause).rd k := fun k hk => (toC0_leaves _ n _).rd hk
    refine ⟨toC0_phase _ n _, ?_, ?_, toC0_flags _ n _, hnone, hhold, hout, hwait⟩
    · rw [hkeeps _ rfl fun _ => rfl, restartBase_lastFail s n hphase hcause]
    · rw [CountsUp, hkeeps _ rfl fun _ => rfl]
      exact restartBase_counted s n cause

end State

/-- The restart of a state that is `a` but for what a restart does not look at. -/
theorem Restarts.of_start {a s u : State} {n : Fin 16} {cause : Nat} (h : Restarts n cause s u) (hbind : (s.co n).bind = (a.co n).bind)
    (hrd : ∀ k ∈ [K.LINE_CO_PHASE n, K.LINE_CO_RESTARTS n, K.LINE_CO_SESSION n], s.rd k = a.rd k) : Restarts n cause a u := by
  have hphase : s.phase n = a.phase n := hrd _ (by simp)
  have hcount : s.rd (K.LINE_CO_RESTARTS n) = a.rd (K.LINE_CO_RESTARTS n) := hrd _ (by simp)
  have hsession : s.rd (K.LINE_CO_SESSION n) = a.rd (K.LINE_CO_SESSION n) := hrd _ (by simp)
  simpa only [Restarts, Restarted, RestartedOff, CountsUp, hbind, hphase, hcount, hsession] using h

end Sys2Proof.Machine
end

section
/-!
SUPPORT. The entries to C4 and C5, and messages that take the free places (R189, R208, R213, R217).
-/

namespace Sys2Proof.Machine

namespace State

variable {s : State} {n : Fin 16}

/-! ## Waiting messages take the free places -/

/-- One step: the first that waits is outstanding. -/
def pumped (s : State) (n : Fin 16) (m : Msg) (rest : List Msg) : State :=
  ((s.modCo n fun c => { c with wait := [] }).sendSeq n m.typ m.body).modCo n fun c => { c with wait := rest }

theorem coPump_cons {m : Msg} {rest : List Msg} (hwait : (s.co n).wait = m :: rest) (hroom : (s.co n).out.length < 4) (k : Nat) :
    s.coPump n (k + 1) = (s.pumped n m rest).coPump n k := by
  rw [coPump, hwait]
  dsimp only
  rw [if_pos hroom]
  rfl

theorem coPump_nil (hwait : (s.co n).wait = []) (k : Nat) : s.coPump n k = s := by
  cases k with
  | zero => rfl
  | succ k => rw [coPump, hwait]

theorem coPump_full {m : Msg} {rest : List Msg} (hwait : (s.co n).wait = m :: rest) (hroom : ¬ (s.co n).out.length < 4) (k : Nat) :
    s.coPump n (k + 1) = s := by
  rw [coPump, hwait]
  dsimp only
  rw [if_neg hroom]

theorem pumped_co (m : Msg) (rest : List Msg) (hroom : (s.co n).out.length < 4) : (s.pumped n m rest).co n =
    { s.co n with
      out := (s.co n).out ++ [⟨m.typ, m.body, (s.co n).txSeq, false⟩], wait := rest, txSeq := ((s.co n).txSeq + 1) % 256
      numbered := (s.co n).numbered + 1, owe := false } := by
  have hput : ((s.modCo n fun c => { c with wait := [] }).sendSeq n m.typ m.body).co n =
      { s.co n with
        out := (s.co n).out ++ [⟨m.typ, m.body, (s.co n).txSeq, false⟩], wait := [], txSeq := ((s.co n).txSeq + 1) % 256
        numbered := (s.co n).numbered + 1, owe := false } := by
    rw [co_sendSeq, co_modCo]
    exact CoS.queued_of_room _ _ _ ⟨hroom, rfl⟩
  rw [pumped, co_modCo, hput]

theorem pumped_rd (s : State) (n : Fin 16) (m : Msg) (rest : List Msg) {k : Key} (hk : convoEntry k = true) :
    (s.pumped n m rest).rd k = s.rd k := by
  rw [pumped, modCo_rd, rd_sendSeq_convo _ _ _ _ hk, modCo_rd]

/-- A property that each step keeps. -/
theorem coPump_induct {P : State → Prop} (hstep : ∀ z m rest, (z.co n).out.length < 4 → P z → P (z.pumped n m rest)) (k : Nat) {s : State}
    (h : P s) : P (s.coPump n k) := by
  induction k generalizing s with
  | zero => exact h
  | succ k ih =>
    cases hwait : (s.co n).wait with
    | nil => rwa [coPump_nil hwait]
    | cons m rest =>
      by_cases hroom : (s.co n).out.length < 4
      · rw [coPump_cons hwait hroom]
        exact ih (hstep s m rest hroom h)
      · rwa [coPump_full hwait hroom]

theorem coPump_rd (s : State) (n : Fin 16) (k : Nat) {x : Key} (hx : convoEntry x = true) : (s.coPump n k).rd x = s.rd x :=
  coPump_induct (P := fun z => z.rd x = s.rd x) (fun z m rest _ hz => (pumped_rd z n m rest hx).trans hz) k rfl

/-- All but the messages, their numbers and what is owed stands. -/
theorem coPump_co (s : State) (n : Fin 16) (k : Nat) : ∃ out wait txSeq numbered owe, (s.coPump n k).co n =
    { s.co n with out := out, wait := wait, txSeq := txSeq, numbered := numbered, owe := owe } := by
  refine coPump_induct (P := fun z => ∃ out wait txSeq numbered owe, z.co n =
    { s.co n with out := out, wait := wait, txSeq := txSeq, numbered := numbered, owe := owe })
    (fun z m rest hroom hz => ?_) k ⟨_, _, _, _, _, rfl⟩
  obtain ⟨_, _, _, _, _, hco⟩ := hz
  exact ⟨_, _, _, _, _, by rw [pumped_co m rest hroom, hco]⟩

/-- What the first `k` messages that wait say follows what is outstanding. -/
theorem coPump_out (n : Fin 16) (k : Nat) {s : State} (hroom : (s.co n).out.length + k ≤ 4) :
    ((s.coPump n k).co n).out.map (fun m => (m.typ, m.body)) =
      (s.co n).out.map (fun m => (m.typ, m.body)) ++ ((s.co n).wait.take k).map fun m => (m.typ, m.body) := by
  induction k generalizing s with
  | zero => simp [coPump]
  | succ k ih =>
    cases hwait : (s.co n).wait with
    | nil => simp [coPump_nil hwait]
    | cons m rest =>
      have hplace : (s.co n).out.length < 4 := by omega
      rw [coPump_cons hwait hplace, ih (by rw [pumped_co m rest hplace]; simp; omega), pumped_co m rest hplace]
      simp

/-! ## C4 and C5 -/

theorem enterC4_leaves (s : State) (n : Fin 16) (cold : Bool) : Leaves (phaseBits false) s (s.enterC4 n cold) := by
  unfold enterC4
  exact ((phaseSet_leaves s n 4).aside (acqStart_aside _ n cold)).modCo n _

theorem enterC4_phase (s : State) (n : Fin 16) (cold : Bool) : (s.enterC4 n cold).phase n = 4 := by
  rw [enterC4, phase, modCo_rd]
  exact ((acqStart_aside _ n cold).phase n).trans (phaseSet_phase s n (by decide))

theorem enterC4_co (s : State) (n : Fin 16) (cold : Bool) : ∃ held needReacq reqFrom, (s.enterC4 n cold).co n =
    { (s.co n).begun s.now 4 with needReacq := needReacq, txeq := .idle, reqFrom := reqFrom, gate := 0, heldC6 := held } := by
  obtain ⟨h1, e1⟩ := phaseSet_co s n (p := 4) (by decide) (.inl (by decide))
  obtain ⟨h2, e2⟩ := (acqStart_aside (s.phaseSet n 4) n cold).co_eq n
  exact ⟨h2, _, _, by rw [enterC4, co_modCo, e2, e1]; rfl⟩

theorem enterC5_aside (s : State) (n : Fin 16) (re : Bool) : Aside ((s.phaseSet n 5).setCoFlag n 1 re) (s.enterC5 n re) := by
  unfold enterC5 followFreeze
  exact .ite _ (.modLane (lockHunt_aside _ n) n fun _ => rfl) (lockHunt_aside _ n)

theorem enterC5_leaves (s : State) (n : Fin 16) (re : Bool) : Leaves (phaseBits false) s (s.enterC5 n re) :=
  ((phaseSet_leaves s n 5).flag n 1 re rfl fun j hj => by simp [phaseBits, turnBits_high _ n j hj]).aside (enterC5_aside s n re)

theorem enterC5_phase (s : State) (n : Fin 16) (re : Bool) : (s.enterC5 n re).phase n = 5 := by
  rw [(enterC5_aside s n re).phase n, phase, setCoFlag, rd_wrBit_ne _ _ _ (by simp)]
  exact phaseSet_phase s n (by decide)

theorem enterC5_co (s : State) (n : Fin 16) (re : Bool) : ∃ held, (s.enterC5 n re).co n = { (s.co n).begun s.now 5 with heldC6 := held } := by
  obtain ⟨h1, e1⟩ := phaseSet_co s n (p := 5) (by decide) (.inl (by decide))
  obtain ⟨h2, e2⟩ := (enterC5_aside s n re).co_eq n
  exact ⟨h2, by rw [e2, co_setCoFlag, e1]; rfl⟩

end State

end Sys2Proof.Machine
end

section
/-!
SUPPORT. The timers of the conversation (R190, R191, R193, R195, R214, R217, R218, R221), and obligation O28.
-/

namespace Sys2Proof.Machine

namespace State

variable {s : State} {n : Fin 16}

/-! ## A counted restart -/

theorem countsUp_incSat (s : State) (k : Key) : CountsUp s (s.incSat k) k 1 := (rd_incSat s k k).trans (if_pos rfl)

/-- A restart that a counter of its own precedes. -/
theorem restart_counted (s : State) (n : Fin 16) (i : Nat) (hi : i ≠ 2) {cause : Nat} (hphase : s.phase n ≤ 7) (hcause : cause < 256) :
    CountsUp s ((s.incSat ⟨.line n, 0x2E, i⟩).coRestart n cause) ⟨.line n, 0x2E, i⟩ 1 ∧
      Restarts n cause s ((s.incSat ⟨.line n, 0x2E, i⟩).coRestart n cause) := by
  have hstands : ∀ o x, (o, x) ≠ (0x2E, i) → (s.incSat ⟨.line n, 0x2E, i⟩).rd ⟨.line n, o, x⟩ = s.rd ⟨.line n, o, x⟩ := fun o x h =>
    rd_wr_ne _ _ (by simpa using h)
  have hkept := coRestart_leaves (s.incSat ⟨.line n, 0x2E, i⟩) n cause
  constructor
  · rw [CountsUp, hkept.rd rfl fun j => by simp [restartBits, endBits, hi]]
    exact countsUp_incSat s _
  · have hphase' : (s.incSat ⟨.line n, 0x2E, i⟩).phase n = s.phase n := hstands 0x2C 1 (by simp)
    refine (coRestart_restarts _ n (hphase'.trans_le hphase) hcause).of_start rfl fun k hk => ?_
    simp only [List.mem_cons, List.not_mem_nil, or_false] at hk
    obtain rfl | rfl | rfl := hk
    · exact hstands _ _ (by simp)
    · exact hstands _ _ (by simpa using Ne.symm hi)
    · exact hstands _ _ (by simp)

/-! ## The response timer (R191, R217) -/

/-- What is outstanding is offered again: of the record nothing but what is owed changes. -/
theorem resend_stands (s : State) (n : Fin 16) (l : List Msg) :
    (∃ owe, (forAll l (fun m z => z.coOffer n m.typ m.seq m.body) s).co n = { s.co n with owe := owe }) ∧
    ∀ k, convoEntry k = true → (forAll l (fun m z => z.coOffer n m.typ m.seq m.body) s).rd k = s.rd k := by
  refine forAll_induct (P := fun z => (∃ owe, z.co n = { s.co n with owe := owe }) ∧ ∀ k, convoEntry k = true → z.rd k = s.rd k)
    (fun m z hz => ?_) l ⟨⟨_, rfl⟩, fun _ _ => rfl⟩
  obtain ⟨⟨owe, hco⟩, hrd⟩ := hz
  exact ⟨⟨false, by rw [co_coOffer, hco]⟩, fun k hk => (rd_coOffer _ _ _ _ _ hk).trans (hrd k hk)⟩

theorem responseTimer_idle (h : ((s.co n).out.filter (·.sent)).isEmpty = true) : s.responseTimer n = s := if_pos h

theorem responseTimer_silent (h : ((s.co n).out.filter (·.sent)).isEmpty = false) (hretries : s.coTimer n 2 ≤ (s.co n).retries) :
    s.responseTimer n = s.silent n := by
  unfold responseTimer
  dsimp only
  rw [if_neg (by simp [h]), if_pos (by omega)]

theorem responseTimer_resends {c : Nat} (hc : c = ((s.co n).out.filter (·.sent)).length) (hpos : 0 < c)
    (hretries : (s.co n).retries < s.coTimer n 2) :
    CountsUp s (s.responseTimer n) (K.LINE_CO_RETRANSMIT n) c ∧ ((s.responseTimer n).co n).retries = (s.co n).retries + 1 ∧
      ((s.responseTimer n).co n).out = (s.co n).out ∧ (s.responseTimer n).phase n = s.phase n := by
  have hsome : ¬ ((s.co n).out.filter (·.sent)).isEmpty = true := fun h => by
    rw [List.isEmpty_iff.mp h, List.length_nil] at hc
    omega
  have heq : s.responseTimer n = forAll ((s.co n).out.filter (·.sent)) (fun m z => z.coOffer n m.typ m.seq m.body)
      ((s.addSat (K.LINE_CO_RETRANSMIT n) c).modCo n fun c => { c with retries := c.retries + 1 }) := by
    rw [hc]
    unfold responseTimer
    dsimp only
    rw [if_neg hsome, if_neg (by omega)]
  obtain ⟨⟨owe, hco⟩, hrd⟩ := resend_stands ((s.addSat (K.LINE_CO_RETRANSMIT n) c).modCo n fun c => { c with retries := c.retries + 1 }) n
    ((s.co n).out.filter (·.sent))
  rw [← heq] at hco hrd
  refine ⟨?_, ?_, ?_, ?_⟩
  · rw [CountsUp, hrd _ rfl, modCo_rd, rd_addSat, if_pos rfl]
  · rw [hco, co_modCo, co_addSat]
  · rw [hco, co_modCo, co_addSat]
  · rw [phase, hrd _ rfl, modCo_rd, addSat, rd_wr_ne _ _ (by simp)]
    rfl

/-- What waits takes the place of what is outstanding (R217). -/
def outGivenUp (s : State) (n : Fin 16) : State := (s.modCo n fun c => { c with out := [], retries := 0 }).coPump n 4

theorem outGivenUp_rd (s : State) (n : Fin 16) {k : Key} (hk : convoEntry k = true) : (s.outGivenUp n).rd k = s.rd k := coPump_rd _ n 4 hk

theorem outGivenUp_retries (s : State) (n : Fin 16) : ((s.outGivenUp n).co n).retries = 0 := by
  obtain ⟨_, _, _, _, _, hco⟩ := coPump_co (s.modCo n fun c => { c with out := [], retries := 0 }) n 4
  rw [outGivenUp, hco, co_modCo]

theorem outGivenUp_out (s : State) (n : Fin 16) : ((s.outGivenUp n).co n).out.map (fun m => (m.typ, m.body)) =
    ((s.co n).wait.take 4).map (fun m => (m.typ, m.body)) := by
  rw [outGivenUp, coPump_out n 4 (by rw [co_modCo]; simp), co_modCo]
  rfl

theorem coFlag_setCoFlag_self (s : State) (n : Fin 16) {i : Nat} (hi : i < 16) (b : Bool) : (s.setCoFlag n i b).coFlag n i = b := by
  rw [coFlag, setCoFlag, bit_wrBit, if_pos rfl, if_pos rfl, decide_eq_true (show i < bitsOf (K.LINE_CO_FLAGS n) from hi), Bool.true_and]

/-- Silence on show, counted where it was not. -/
def silenceShown (s : State) (n : Fin 16) : State :=
  if s.coFlag n 7 then s else (s.setCoFlag n 7 true).incSat (K.LINE_CO_SILENCE n)

theorem silenceShown_co (s : State) (n : Fin 16) : (s.silenceShown n).co n = s.co n := by
  unfold silenceShown
  split <;> rfl

theorem silenceShown_phase (s : State) (n : Fin 16) : (s.silenceShown n).phase n = s.phase n := by
  unfold silenceShown
  split
  · rfl
  · rw [phase, rd_incSat, if_neg (by simp), setCoFlag, rd_wrBit_ne _ _ _ (by simp)]
    rfl

theorem silenceShown_flag (s : State) (n : Fin 16) : (s.silenceShown n).coFlag n 7 = true := by
  unfold silenceShown
  split
  next h => exact h
  · rw [coFlag, bit_of_rd (t := (s.setCoFlag n 7 true).incSat (K.LINE_CO_SILENCE n)) (rd_wr_ne _ _ (by simp)) 7]
    exact coFlag_setCoFlag_self s n (by decide) true

theorem silenceShown_counts (h : s.coFlag n 7 = false) : CountsUp s (s.silenceShown n) (K.LINE_CO_SILENCE n) 1 := by
  rw [silenceShown, if_neg (by simp [h]), CountsUp, rd_incSat, if_pos rfl, setCoFlag, rd_wrBit_ne _ _ _ (by simp)]

theorem silent_c7_eq (h7 : s.phase n = 7) : s.silent n = (s.silenceShown n).outGivenUp n := if_pos h7

/-- Silence in C7: shown and counted once, and what waits takes the place of what is outstanding. -/
theorem silent_c7 (h7 : s.phase n = 7) :
    (s.silent n).phase n = 7 ∧ (s.silent n).coFlag n 7 = true ∧ ((s.silent n).co n).retries = 0 ∧
      ((s.silent n).co n).out.map (fun m => (m.typ, m.body)) = ((s.co n).wait.take 4).map (fun m => (m.typ, m.body)) ∧
      (s.coFlag n 7 = false → CountsUp s (s.silent n) (K.LINE_CO_SILENCE n) 1) := by
  rw [silent_c7_eq h7]
  refine ⟨?_, ?_, outGivenUp_retries _ n, ?_, fun h => ?_⟩
  · rw [phase, outGivenUp_rd _ n rfl]
    exact (silenceShown_phase s n).trans h7
  · rw [coFlag, bit_of_rd (outGivenUp_rd _ n rfl) 7]
    exact silenceShown_flag s n
  · rw [outGivenUp_out, silenceShown_co]
  · rw [CountsUp, outGivenUp_rd _ n rfl]
    exact silenceShown_counts h

theorem silent_below (h2 : 2 ≤ s.phase n) (h7 : s.phase n < 7) : s.silent n = (s.incSat (K.LINE_CO_SILENCE n)).coRestart n 3 := by
  rw [silent, if_neg (by omega), if_pos h2]

theorem silent_idle (h2 : s.phase n < 2) : s.silent n = s := by
  rw [silent, if_neg (by omega), if_neg (by omega)]

/-- What silence does, however it is noticed (R191, R217). -/
theorem silent_does (s : State) (n : Fin 16) :
    (s.phase n = 7 → (s.silent n).phase n = 7 ∧ (s.silent n).coFlag n 7 = true ∧ ((s.silent n).co n).retries = 0 ∧
      ((s.silent n).co n).out.map (fun m => (m.typ, m.body)) = ((s.co n).wait.take 4).map (fun m => (m.typ, m.body)) ∧
      (s.coFlag n 7 = false → CountsUp s (s.silent n) (K.LINE_CO_SILENCE n) 1)) ∧
    (2 ≤ s.phase n → s.phase n < 7 → CountsUp s (s.silent n) (K.LINE_CO_SILENCE n) 1 ∧ Restarts n 3 s (s.silent n)) ∧
    (s.phase n < 2 → s.silent n = s) := by
  refine ⟨silent_c7, fun h2 h7 => ?_, silent_idle⟩
  rw [silent_below h2 h7]
  exact restart_counted s n 0x12 (by decide) (by omega) (by decide)

/-! ## The verify window (R214, R215) -/

theorem gateEnd_passes (h : s.gatePasses n (s.co n).win = true) :
    ((s.gateEnd n).co n).gate = 1 ∧ ∀ x, (s.gateEnd n).rd x = s.rd x := by
  obtain ⟨hco, hrd⟩ := portReady_stands (s.modCo n fun c => { c with gate := 1 }) n
  rw [gateEnd, if_pos h]
  exact ⟨by rw [hco, co_modCo], hrd⟩

/-- The STATUS of a failed gate. -/
def gateFailed (s : State) (n : Fin 16) : State := (s.modCo n fun c => { c with gate := 2 }).sendStatus n

theorem gateFailed_rd (s : State) (n : Fin 16) (k : Key) : (s.gateFailed n).rd k = s.rd k := rd_sendStatus _ n k

theorem gateFailed_bind (s : State) (n : Fin 16) : ((s.gateFailed n).co n).bind = (s.co n).bind := by
  obtain ⟨body, hco⟩ := co_sendStatus (s.modCo n fun c => { c with gate := 2 }) n
  rw [gateFailed, hco, CoS.queued_bind, co_modCo]

theorem gateEnd_fails (h : s.gatePasses n (s.co n).win = false) : s.gateEnd n =
    if (s.co n).retrains < s.rd (K.LINE_CO_RETRAIN_MAX n) then
      (((s.gateFailed n).incSat (K.LINE_CO_RETRAIN n)).modCo n fun c => { c with retrains := c.retrains + 1 }).enterC4 n true
    else (s.gateFailed n).coRestart n 5 := by
  rw [gateEnd, if_neg (by simp [h])]
  rfl

theorem gateEnd_retrains (h : s.gatePasses n (s.co n).win = false) (hmax : (s.co n).retrains < s.rd (K.LINE_CO_RETRAIN_MAX n)) :
    (s.gateEnd n).phase n = 4 ∧ CountsUp s (s.gateEnd n) (K.LINE_CO_RETRAIN n) 1 := by
  rw [gateEnd_fails h, if_pos hmax]
  refine ⟨enterC4_phase _ n true, ?_⟩
  rw [CountsUp, (enterC4_leaves _ n true).rd rfl fun _ => rfl, modCo_rd, rd_incSat, if_pos rfl, gateFailed_rd]

theorem gateEnd_restarts (h6 : s.phase n = 6) (h : s.gatePasses n (s.co n).win = false)
    (hmax : s.rd (K.LINE_CO_RETRAIN_MAX n) ≤ (s.co n).retrains) : Restarts n 5 s (s.gateEnd n) := by
  have hphase : (s.gateFailed n).phase n = 6 := (gateFailed_rd s n _).trans h6
  rw [gateEnd_fails h, if_neg (by omega)]
  exact (coRestart_restarts _ n (by omega) (by decide)).of_start (gateFailed_bind s n) fun k _ => gateFailed_rd s n k

/-! ## The wait for BIND (R221) -/

/-- The end of bind-off. -/
theorem bindDone_does {reason : Nat} (h : (s.co n).bind = some reason) :
    (s.bindDone n).phase n = 0 ∧ ((s.bindDone n).co n).hold = (reason == 1) ∧ ((s.bindDone n).co n).bind = none ∧
      (s.bindDone n).rd (K.LINE_CO_FLAGS n) = 0 ∧ (s.bindDone n).rd (K.LINE_CO_PEER_PHASE n) = 0xFF := by
  rw [bindDone_of_bind h]
  obtain ⟨hhold, hbind, -, -⟩ := toC0_co s n (reason == 1)
  exact ⟨toC0_phase s n _, hhold, hbind, toC0_flags s n _, toC0_peerPhase s n _⟩

end State

end Sys2Proof.Machine
end

section
/-!
PROOF. Obligation O28: what each timer of the conversation does.
-/

namespace Sys2Proof.Machine

variable {s : State} {n : Fin 16}

theorem runs_partnerSilence (s : State) (n : Fin 16) (c : Instr)
    (hc : c = .partnerSilence n ∨ (c = .responseTimer n ∧ ((s.co n).out.filter (·.sent)).isEmpty = false ∧
      s.coTimer n 2 ≤ (s.co n).retries)) : Runs c s fun t => t = (s.silent n).coSettle n := by
  obtain rfl | ⟨rfl, hsome, hretries⟩ := hc
  · exact ⟨_, exec_partnerSilence s n, rfl⟩
  · exact ⟨_, exec_responseTimer s n, congrArg (State.coSettle · n) (State.responseTimer_silent hsome hretries)⟩

theorem runs_beacon (hphase : s.phase n = 1) (hback : (s.co n).backoff = false) :
    Runs (.beaconTimer n) s fun t => t = s.sendKeepalive n :=
  ⟨_, exec_beaconTimer s n, if_pos (by simp [hphase, hback])⟩

theorem runs_keepaliveTimer (hphase : 2 ≤ s.phase n) : Runs (.keepaliveTimer n) s fun t => t = s.sendKeepalive n :=
  ⟨_, exec_keepaliveTimer s n, if_pos hphase⟩

/-- An acquisition from the cold state is not warm. -/
theorem State.acqStart_cold (s : State) (n : Fin 16) : ((s.acqStart n true).lane n).warm = false := by
  unfold State.acqStart State.setCoef
  dsimp only
  rw [State.lane_modLane, State.lane_modLane]
  exact Bool.and_false _

/-- The phase timer (R193, R218) of a phase that has one running. -/
theorem phaseTimeout_does (h2 : 2 ≤ s.phase n) (h7 : s.phase n < 7) (hheld : s.coHeld n = false) (htimer : s.coTimer n (s.phase n + 4) ≠ 0) :
    Runs (.phaseTimeout n) s fun t =>
      (s.phase n ≠ 5 ∨ s.realign n = false → CountsUp s t (K.LINE_CO_PHASE_TIMEOUT n) 1 ∧ Restarts n 1 s t) ∧
      (s.phase n = 5 → s.realign n = true → (s.co n).realignOuts ≠ 0 →
        CountsUp s t (K.LINE_CO_PHASE_TIMEOUT n) 1 ∧ Restarts n 7 s t) ∧
      (s.phase n = 5 → s.realign n = true → (s.co n).realignOuts = 0 →
        (t.co n).realignOuts = 1 ∧ (t.lane n).warm = false ∧ ∀ x, t.rd x = s.rd x) := by
  have hrun : ¬ (s.phase n < 2 || s.phase n = 7 || s.coHeld n || s.coTimer n (s.phase n + 4) = 0) = true := by
    simp [hheld, htimer]
    omega
  have hcount : ∀ cause, cause < 256 → CountsUp s ((s.incSat (K.LINE_CO_PHASE_TIMEOUT n)).coRestart n cause) (K.LINE_CO_PHASE_TIMEOUT n) 1 ∧
      Restarts n cause s ((s.incSat (K.LINE_CO_PHASE_TIMEOUT n)).coRestart n cause) := fun cause =>
    State.restart_counted s n 0x14 (by decide) (by omega)
  refine ⟨_, exec_phaseTimeout s n, ?_⟩
  rw [if_neg hrun]
  refine ⟨fun h => ?_, fun h5 hre houts => ?_, fun h5 hre houts => ?_⟩
  · have hplain : (decide (s.phase n = 5) && s.realign n) = false := by
      obtain h | h := h
      · rw [decide_eq_false h, Bool.false_and]
      · rw [h, Bool.and_false]
    rw [hplain, Bool.false_and, if_neg (by simp), if_neg (by simp)]
    exact hcount 1 (by decide)
  · rw [if_neg (by simp [houts]), if_pos (by simp [h5, hre])]
    exact hcount 7 (by decide)
  · rw [if_pos (by simp [h5, hre, houts])]
    have haside := State.acqStart_aside (s.modCo n fun c => { c with realignOuts := 1 }) n true
    obtain ⟨held, hco⟩ := haside.co_eq n
    exact ⟨by rw [hco, State.co_modCo], State.acqStart_cold _ n, fun _ => rfl⟩

theorem phaseTimeout_idle (h : s.phase n < 2 ∨ s.phase n = 7 ∨ s.coHeld n = true ∨ s.coTimer n (s.phase n + 4) = 0) :
    Runs (.phaseTimeout n) s fun t => t = s := by
  refine ⟨_, exec_phaseTimeout s n, ?_⟩
  rw [if_pos (by simpa [or_assoc] using h)]

theorem castOnLimit_does (h2 : 2 ≤ s.phase n) (h7 : s.phase n < 7) (hheld : s.coHeld n = false) :
    Runs (.castOnLimit n) s fun t => CountsUp s t (K.LINE_CO_LIMIT n) 1 ∧ Restarts n 2 s t := by
  refine ⟨_, exec_castOnLimit s n, ?_⟩
  rw [if_neg (by simp [hheld]; omega)]
  exact State.restart_counted s n 0x15 (by decide) (by omega) (by decide)

theorem castOnLimit_idle (h : s.phase n < 2 ∨ s.phase n = 7 ∨ s.coHeld n = true) : Runs (.castOnLimit n) s fun t => t = s :=
  ⟨_, exec_castOnLimit s n, if_pos (by simpa [or_assoc] using h)⟩

theorem statusTimer_does (h7 : s.phase n = 7) (htimer : s.coTimer n 12 ≠ 0) : Runs (.statusTimer n) s fun t =>
    (t.co n).lastStatus = s.lockFill n ∧ (t.co n).out.length + (t.co n).wait.length = (s.co n).out.length + (s.co n).wait.length + 1 ∧
    t.phase n = 7 := by
  obtain ⟨body, hco⟩ := State.co_sendStatus s n
  have hexec : exec (.statusTimer n) s = .next (s.sendStatus n) :=
    (exec_statusTimer s n).trans (congrArg Host.Outcome.next (if_pos (by simp [h7, htimer])))
  refine ⟨_, hexec, ?_⟩
  beta_reduce
  rw [hco]
  exact ⟨rfl, CoS.length_queued _ _ _, (State.rd_sendStatus s n _).trans h7⟩

theorem bindTimeout_does {reason : Nat} (hbinding : s.binding n = true) (htimer : s.coTimer n 13 ≠ 0) (hbind : (s.co n).bind = some reason)
    (hsent : ∀ m ∈ (s.co n).out ++ (s.co n).wait, m.typ = 0x09 → m.sent = true) : Runs (.bindTimeout n) s fun t =>
    t.phase n = 0 ∧ (t.co n).hold = (reason == 1) ∧ (t.co n).bind = none ∧ t.rd (K.LINE_CO_FLAGS n) = 0 ∧
      t.rd (K.LINE_CO_PEER_PHASE n) = 0xFF := by
  have hnone : (((s.co n).out ++ (s.co n).wait).any fun m => m.typ == 0x09 && !m.sent) = false := by
    rw [List.any_eq_false]
    intro m hm h
    simp only [Bool.and_eq_true, beq_iff_eq, Bool.not_eq_true'] at h
    exact Bool.noConfusion (h.2.symm.trans (hsent m hm h.1))
  refine ⟨_, exec_bindTimeout s n, ?_⟩
  rw [if_pos (by simp [hbinding, htimer, hnone])]
  exact State.bindDone_does hbind

theorem bindTimeout_idle (h : s.binding n = false ∨ s.coTimer n 13 = 0 ∨ (s.co n).bind = none ∨
    ∃ m, m ∈ (s.co n).out ++ (s.co n).wait ∧ m.typ = 0x09 ∧ m.sent = false) : Runs (.bindTimeout n) s fun t => t = s := by
  refine ⟨_, exec_bindTimeout s n, ?_⟩
  obtain h | h | h | ⟨m, hm, htyp, hsent⟩ := h
  · rw [if_neg (by simp [h])]
  · rw [if_neg (by simp [h])]
  · split
    · exact State.bindDone_of_none h
    · rfl
  · have hwaits : (((s.co n).out ++ (s.co n).wait).any fun m => m.typ == 0x09 && !m.sent) = true :=
      List.any_eq_true.mpr ⟨m, hm, by simp [htyp, hsent]⟩
    rw [if_neg (by rw [hwaits]; simp)]

theorem restartBackoffEnd_does (h1 : s.phase n = 1) (hback : (s.co n).backoff = true) (hroom : (s.picot n).queue.length < 8) :
    Runs (.restartBackoffEnd n) s fun t =>
      (t.co n).backoff = false ∧ (∃ p, (t.picot n).queue = (s.picot n).queue ++ [p] ∧ p.typ = 0x42) ∧ ∀ x, t.rd x = s.rd x := by
  have hpicot : (s.modCo n fun c => { c with backoff := false }).picot n = s.picot n := by
    rw [State.picot, State.modCo, State.lane_modLane]
    rfl
  obtain ⟨hqueue, -, hrd⟩ := State.sendKeepalive_of_place (s.modCo n fun c => { c with backoff := false }) n (by rwa [hpicot])
  rw [hpicot] at hqueue
  refine ⟨_, exec_restartBackoffEnd s n, ?_⟩
  rw [if_pos (by simp [h1, hback])]
  exact ⟨by rw [State.co_sendKeepalive, State.co_modCo], hqueue, hrd⟩

theorem proposeTimer_does {a : Agreed} (h3 : s.phase n = 3) (hrole : s.rd (K.LINE_CO_ROLE n) = 0) (hid : s.idHigher n = false)
    (hprop : (s.co n).prop = none) (hacc : (s.co n).accepted = none) (hrej : (s.co n).rejected = none)
    (hheard : (s.co n).heardPropose = false) (hno : (s.co n).noPropose = false) (hheld : s.coHeld n = false)
    (ha : s.agreement n = some a) : Runs (.proposeTimer n) s fun t =>
      (t.co n).prop = some ⟨(s.co n).propNum, a.format, a.precode, a.time.toNat⟩ ∧
      (t.co n).propNum = (if (s.co n).propNum = 255 then 1 else (s.co n).propNum + 1) ∧ t.phase n = 3 := by
  obtain ⟨body, hco⟩ := State.co_propose s n a
  have hexec : exec (.proposeTimer n) s = .next (s.propose n a) := by
    refine (exec_proposeTimer s n).trans (congrArg Host.Outcome.next ?_)
    rw [ha, if_pos (by simp only [h3, hrole, hid, hprop, hacc, hrej, hheard, hno, hheld]; rfl)]
  refine ⟨_, hexec, ?_⟩
  beta_reduce
  rw [hco, CoS.queued_prop, CoS.queued_propNum]
  exact ⟨rfl, rfl, (State.rd_propose s n a _).trans h3⟩

theorem proposeTimer_idle (h : s.phase n ≠ 3 ∨ s.rd (K.LINE_CO_ROLE n) ≠ 0 ∨ s.idHigher n = true ∨ (s.co n).heardPropose = true ∨
    s.coHeld n = true) : Runs (.proposeTimer n) s fun t => t = s := by
  refine ⟨_, exec_proposeTimer s n, ?_⟩
  rw [if_neg]
  simp only [Bool.and_eq_true, decide_eq_true_eq, Bool.not_eq_true']
  rintro ⟨⟨⟨⟨⟨⟨⟨⟨h3, hrole⟩, hid⟩, -⟩, -⟩, -⟩, hheard⟩, -⟩, hheld⟩
  simp [h3, hrole, hid, hheard, hheld] at h

theorem verifyWindowEnd_does (h6 : s.phase n = 6) (hgate : (s.co n).gate = 0) (hbinding : s.binding n = false) :
    Runs (.verifyWindowEnd n) s fun t => ∃ u, t = forAll (s.portLines n) (fun m x => State.coSettle x m) u ∧
      (s.gatePasses n (s.co n).win = true → (u.co n).gate = 1 ∧ u.phase n = 6 ∧ ∀ x, u.rd x = s.rd x) ∧
      (s.gatePasses n (s.co n).win = false → (s.co n).retrains < s.rd (K.LINE_CO_RETRAIN_MAX n) →
        u.phase n = 4 ∧ CountsUp s u (K.LINE_CO_RETRAIN n) 1) ∧
      (s.gatePasses n (s.co n).win = false → s.rd (K.LINE_CO_RETRAIN_MAX n) ≤ (s.co n).retrains → Restarts n 5 s u) := by
  refine ⟨_, exec_verifyWindowEnd s n, s.gateEnd n, if_pos (by simp [h6, hgate, hbinding]), fun hpass => ?_, State.gateEnd_retrains,
    State.gateEnd_restarts h6⟩
  obtain ⟨hone, hrd⟩ := State.gateEnd_passes hpass
  exact ⟨hone, (hrd _).trans h6, hrd⟩

theorem verifyWindowEnd_idle (h : s.phase n ≠ 6 ∨ (s.co n).gate ≠ 0 ∨ s.binding n = true) : Runs (.verifyWindowEnd n) s fun t => t = s := by
  refine ⟨_, exec_verifyWindowEnd s n, if_neg ?_⟩
  simp only [Bool.and_eq_true, decide_eq_true_eq, Bool.not_eq_true']
  rintro ⟨⟨h6, hgate⟩, hbinding⟩
  simp [h6, hgate, hbinding] at h

/-- Settles O28, timer by timer. -/
theorem castOnTimers : Obligations.CastOnTimers := by
  unfold Obligations.CastOnTimers
  refine ⟨fun s n h => ?_, fun s n c hc hpos hretries => ?_, fun s n c hc => ?_, fun s n c hc hroom => ?_, fun s n h => ?_, fun s n h => ?_,
    fun s n => phaseTimeout_does, fun s n => phaseTimeout_idle, fun s n => castOnLimit_does, fun s n => castOnLimit_idle,
    fun s n => statusTimer_does, fun s n h => ?_, fun s n reason => bindTimeout_does, fun s n => bindTimeout_idle,
    fun s n => restartBackoffEnd_does, fun s n h => ?_, fun s n a => proposeTimer_does, fun s n => proposeTimer_idle,
    fun s n => verifyWindowEnd_does, fun s n => verifyWindowEnd_idle⟩
  · exact ⟨_, exec_responseTimer s n, congrArg (State.coSettle · n) (State.responseTimer_idle h)⟩
  · exact ⟨_, exec_responseTimer s n, s.responseTimer n, rfl, State.responseTimer_resends hc hpos hretries⟩
  · obtain ⟨t, hexec, ht⟩ := runs_partnerSilence s n c hc
    exact ⟨t, hexec, s.silent n, ht, State.silent_does s n⟩
  · have hsends : Runs c s fun t => t = s.sendKeepalive n := by
      obtain ⟨rfl, h1, hback⟩ | ⟨rfl, h2⟩ := hc
      · exact runs_beacon h1 hback
      · exact runs_keepaliveTimer h2
    obtain ⟨t, hexec, rfl⟩ := hsends
    exact ⟨_, hexec, State.sendKeepalive_of_place s n hroom⟩
  · exact ⟨_, exec_beaconTimer s n, if_neg (by simpa [Classical.or_iff_not_imp_left] using h)⟩
  · exact ⟨_, exec_keepaliveTimer s n, if_neg (by omega)⟩
  · exact ⟨_, exec_statusTimer s n, if_neg (by simpa [Classical.or_iff_not_imp_left] using h)⟩
  · exact ⟨_, exec_restartBackoffEnd s n, if_neg (by simpa [Classical.or_iff_not_imp_left] using h)⟩

end Sys2Proof.Machine
end

section
/-!
SUPPORT. The start of cast-on (R180, R183): what it asks of the power unit, the self-test and the calibrations, and what leaves that alone.
-/

namespace Sys2Proof.Machine

/-! ## Power units -/

/-- The Off sequence and the transitions of every unit but the management unit stand. -/
structure UnitsStand (s t : State) : Prop where
  trans : ∀ u : Fin 22, u ≠ 21 → (t.unit u).trans = (s.unit u).trans
  off : t.pwr.offStep = s.pwr.offStep

namespace UnitsStand

variable {a s t : State}

theorem of_pwr (h : t.pwr = s.pwr) : UnitsStand s t := ⟨fun u _ => by rw [State.unit, State.unit, h], by rw [h]⟩

theorem comp (h1 : UnitsStand a s) (h2 : UnitsStand s t) : UnitsStand a t :=
  ⟨fun u hu => (h2.trans u hu).trans (h1.trans u hu), h2.off.trans h1.off⟩

theorem unit_modUnit_ne (s : State) {u v : Fin 22} (f : PwrUnit → PwrUnit) (h : v ≠ u) : (s.modUnit u f).unit v = s.unit v := by
  simp [State.unit, State.modUnit, State.get_setVec, h]

/-- A change of the management unit. -/
theorem manager (h : UnitsStand a s) (f : PwrUnit → PwrUnit) : UnitsStand a (s.modUnit 21 f) :=
  h.comp ⟨fun _ hu => by rw [unit_modUnit_ne s f hu], rfl⟩

/-- A change of a unit's record beside its transition. -/
theorem modUnit (h : UnitsStand a s) (u : Fin 22) (f : PwrUnit → PwrUnit) (hf : ∀ p, (f p).trans = p.trans) :
    UnitsStand a (s.modUnit u f) := by
  refine h.comp ⟨fun v _ => ?_, rfl⟩
  by_cases hv : v = u
  · rw [hv, State.unit_modUnit, hf]
  · rw [unit_modUnit_ne s f hv]

end UnitsStand

namespace State

variable (s : State)

theorem slotReplaced_pwr (u : Fin 22) : (s.slotReplaced u).pwr = s.pwr := by
  unfold slotReplaced
  split
  · rfl
  · rw [raiseIn, raise_pwr, wr_pwr, incSat_pwr, wr_pwr]

theorem bankFail_units (b : Nat) : UnitsStand s (s.bankFail b) := by
  unfold bankFail
  dsimp only
  refine forAll_induct (P := UnitsStand s) (fun u z hz => ?_) _ (.of_pwr ?_)
  · exact hz.modUnit u _ fun _ => rfl
  · rw [raise_pwr, record_pwr, incSat_pwr, wrBit_pwr]

theorem bankCheck_units (u : Fin 22) : UnitsStand s (s.bankCheck u) := by
  unfold bankCheck
  split
  · exact forAll_induct (P := UnitsStand s) (fun b z hz => hz.comp (bankFail_units z b)) _ (.of_pwr rfl)
  · exact .of_pwr rfl

theorem coreWake_units : UnitsStand s s.coreWake := by
  have hslot : UnitsStand s (s.slotReplaced 21) := .of_pwr (slotReplaced_pwr s 21)
  have hwaking : UnitsStand s (s.wakingTo 21 0)  := by
    unfold wakingTo
    exact ((UnitsStand.of_pwr rfl).manager _).comp (.of_pwr (wr_pwr _ _ _))
  unfold coreWake
  split
  · exact hslot.manager _
  · split
    · exact hwaking.comp (bankCheck_units _ 21)
    · exact .of_pwr rfl
  · dsimp only
    split
    · exact hslot
    · exact hslot.manager _

theorem pcOverflow_pwr (j : Fin 8) (addr : Nat) : (s.pcOverflow j addr).pwr = s.pwr := by
  have hwhen : ∀ (b : Bool) (f : State → State) (z : State), (∀ y, (f y).pwr = y.pwr) → (when_ b f z).pwr = z.pwr := fun b f z hf => by
    unfold when_
    split
    · exact hf z
    · rfl
  unfold pcOverflow
  dsimp only
  rw [hwhen _ _ _ fun y => raise_pwr y _, hwhen _ _ _ fun y => wr_pwr y _ _, wrBit_pwr, hwhen _ _ _ fun y => wrBit_pwr y _ _ _,
    wrBit_pwr, modPc_pwr]

theorem pcEvent_pwr (cls n : Nat) : (s.pcEvent cls n).pwr = s.pwr := by
  refine forAll_induct (P := fun z => z.pwr = s.pwr) (fun j z hz => ?_) _ rfl
  dsimp only
  split
  · refine Eq.trans ?_ hz
    unfold pcAdd
    dsimp only
    split
    · exact modPc_pwr _ _ _
    · rw [modPc_pwr, pcOverflow_pwr]
      rfl
  · exact hz

/-- A request on its way to its effect wakes no unit but the management unit. -/
theorem admitted_units (r : Fin 18) (k : Key) (data : List Byte) : UnitsStand s (s.admitted r k data) := by
  have htaken : UnitsStand s s.taken := .of_pwr (pcEvent_pwr s _ _)
  have hasked : UnitsStand s (s.taken.coreAsked k .ok) := by
    unfold coreAsked
    split
    · exact htaken
    · exact htaken.comp (coreWake_units _)
  have hcounted : UnitsStand s (s.counted k .ok) := by
    unfold counted when_
    split
    · exact hasked.comp (.of_pwr (pcEvent_pwr _ _ _))
    · exact hasked
  have howner : UnitsStand s ((s.counted k .ok).countOwnerWrite r) := by
    unfold countOwnerWrite
    split
    · exact hcounted.comp (.of_pwr rfl)
    · exact hcounted
  refine howner.comp (.of_pwr ?_)
  unfold admitted markDirty
  split
  · split <;> rfl
  · rfl

end State

/-! ## What the start of cast-on asks -/

/-- What holds up calibrations of a lane, in its record: a reset, and a calibration under way. -/
def calView (l : LaneS) : Bool × Bool × Bool × Bool := (l.laneReset, l.calLane, l.calDac, l.calDacDue)

/-- What the start of cast-on looks at outside the conversation stands. -/
structure StartStands (n : Fin 16) (s t : State) : Prop where
  view : calView (t.lane n) = calView (s.lane n)
  units : UnitsStand s t
  state : t.inRun n = s.inRun n
  bist : t.bist = s.bist

namespace StartStands

variable {n : Fin 16} {a s t : State}

theorem refl (n : Fin 16) (s : State) : StartStands n s s := ⟨rfl, .of_pwr rfl, rfl, rfl⟩

theorem trans (h1 : StartStands n a s) (h2 : StartStands n s t) : StartStands n a t :=
  ⟨h2.view.trans h1.view, h1.units.comp h2.units, h2.state.trans h1.state, h2.bist.trans h1.bist⟩

theorem of_rd (hlanes : calView (t.lane n) = calView (s.lane n)) (hpwr : t.pwr = s.pwr) (hbist : t.bist = s.bist)
    (hrd : ∀ u, t.rd (K.PWR_STATE u) = s.rd (K.PWR_STATE u)) : StartStands n s t :=
  ⟨hlanes, .of_pwr hpwr, by rw [State.inRun, State.inRun, hrd], hbist⟩

theorem modLane (h : StartStands n a s) (f : LaneS → LaneS) (hf : ∀ l, calView (f l) = calView l) :
    StartStands n a (s.modLane n f) := h.trans (.of_rd (by rw [State.lane_modLane, hf]) rfl rfl fun _ => rfl)

theorem wr {x : Key} (h : StartStands n a s) (v : Nat) (hx : ∀ u, K.PWR_STATE u ≠ x) : StartStands n a (s.wr x v) :=
  h.trans (.of_rd rfl rfl rfl fun u => State.rd_wr_ne _ _ (hx u))

theorem raise (h : StartStands n a s) (x : Src) : StartStands n a (s.raise x) :=
  h.trans (.of_rd (by rw [State.raise_lane]) (State.raise_pwr s x) (State.raise_bist s x) fun _ => State.rd_raise_area _ _ _ (by simp))

theorem record (h : StartStands n a s) (kind unit : Nat) (d : List Byte) : StartStands n a (s.record kind unit d) :=
  h.trans (.of_rd (by rw [State.record_lane]) (State.record_pwr s kind unit d) (State.record_bist s kind unit d) fun _ =>
    State.rd_record_area _ _ _ _ _ (by simp))

end StartStands

namespace State

variable {s : State} {n : Fin 16}

theorem epochLatency_start (s : State) (n : Fin 16) : StartStands n s (s.epochLatency n) := by
  have hparts : StartStands n s (s.latRecompute n) := by
    unfold latRecompute
    dsimp only
    refine .wr (.wr ?_ _ (by simp)) _ (by simp)
    exact .modLane (.refl n s) _ fun _ => rfl
  unfold epochLatency
  dsimp only
  split
  · exact hparts.raise _
  · exact hparts

theorem latEvent_start (s : State) (n : Fin 16) (c : Nat) : StartStands n s (s.latEvent n c) := by
  have hagain : StartStands n s (s.reportAgain n c) :=
    .trans (.wr (.refl n s) (s.rd (K.LAT_CAUSE n) ||| c) (x := K.LAT_CAUSE n) (by simp)) (.of_rd rfl rfl rfl fun _ => rfl)
  have hfirst : StartStands n s (s.reportFirst n c) := by
    unfold reportFirst
    dsimp only
    refine .record ?_ _ _ _
    refine .modLane ?_ _ fun _ => rfl
    exact .wr (.wr (.wr (.wr (.refl n s) _ (by simp)) _ (by simp)) _ (by simp)) _ (by simp)
  rw [latEvent_eq]
  split
  · exact .refl n s
  · refine .raise ?_ _
    split
    · exact hagain
    · exact hfirst

/-- A lane that comes up (R173, Table 5-2) is as ready to calibrate as before. -/
theorem laneCameUp_start (s : State) (n : Fin 16) : StartStands n s (s.laneCameUp n) := by
  have hgb : StartStands n s (s.gbUp (pgOf n)) := by
    unfold gbUp
    split
    · exact .of_rd rfl rfl rfl fun _ => rfl
    · exact .refl n s
  unfold laneCameUp cfgReport
  split
  · refine .trans (.trans ?_ (epochLatency_start _ n)) (latEvent_start _ n _)
    exact .modLane hgb _ fun _ => rfl
  · exact hgb

theorem laneCameUp_aside (s : State) (n : Fin 16) : Aside s (s.laneCameUp n) := (gbUp_aside s _).trans (cfgReport_aside _ n)

/-! ## The lane calibration that the start of cast-on begins -/

theorem calLane_modLane (s : State) (n : Fin 16) (f : LaneS → LaneS) (hf : ∀ l, (f l).calLane = l.calLane) :
    ((s.modLane n f).lane n).calLane = (s.lane n).calLane := by rw [lane_modLane, hf]

theorem calLane_picotFollow (s : State) (n : Fin 16) : ((s.picotFollow n).lane n).calLane = (s.lane n).calLane := by
  unfold picotFollow
  split
  · exact calLane_modLane _ _ _ fun _ => rfl
  · split
    · exact calLane_modLane _ _ _ fun _ => rfl
    · rfl

theorem calLane_calDacBegin (s : State) (n : Fin 16) : ((s.calDacBegin n).lane n).calLane = (s.lane n).calLane := by
  unfold calDacBegin wrBit
  rw [lane_wr, lane_wr]
  exact calLane_modLane _ _ _ fun _ => rfl

theorem calLane_picotCut (s : State) (n : Fin 16) : ((s.picotCut n).lane n).calLane = (s.lane n).calLane := by
  have hstop : (((s.incSat (K.PICOT_TX_CUT n)).modLane n fun l => { l with picot := { l.picot with burst := none, tone := [] } }).lane
      n).calLane = (s.lane n).calLane := calLane_modLane _ _ _ fun _ => rfl
  unfold picotCut
  split
  · dsimp only
    split
    · rw [calLane_calDacBegin, hstop]
    · exact hstop
  · rfl

theorem calLane_outFollow (s : State) (n : Fin 16) : ((s.outFollow n).lane n).calLane = (s.lane n).calLane := by
  have hset : ∀ f : LaneS → LaneS, (∀ l, (f l).calLane = l.calLane) → ((s.outSet n f).lane n).calLane = (s.lane n).calLane := fun f hf =>
    (calLane_modLane _ _ _ hf).trans (calLane_modLane _ _ _ fun _ => rfl)
  unfold outFollow
  dsimp only
  split
  · split
    · rfl
    · rw [calLane_picotCut]
      exact hset _ fun _ => rfl
  · split
    · rfl
    · exact hset _ fun _ => rfl
  · rfl

theorem calLane_calStart (s : State) (n : Fin 16) : ((s.calStart n true true).lane n).calLane = true := by
  have hlane : ((((s.modLane n fun l => { l with calLane := true, calBad := false, calCmd := false }).wr
      (K.LINE_CAL_LANE_LAST n) s.timeNow).picotFollow n).lane n).calLane = true := by
    rw [calLane_picotFollow, lane_wr, lane_modLane]
  unfold calStart
  dsimp only
  rw [if_pos rfl, if_pos rfl]
  split
  · refine (calLane_modLane _ _ _ ?_).trans hlane
    exact fun _ => rfl
  · rw [calDacStart, calLane_outFollow, calLane_calDacBegin]
    exact hlane

/-- Where nothing holds it up, cast-on starts with both calibrations (R183). -/
theorem castStart_starts (hphase : s.phase n = 0) (hadmin : s.on (K.LINE_ADMIN n) = true) (hhold : (s.co n).hold = false)
    (hcal : (s.co n).calCo = false) (hrun : s.inRun n = true) (htrans : (s.unit (laneUnit n)).trans = .still) (hoff : s.pwr.offStep = 0)
    (hreset : (s.lane n).laneReset = false) (htest : s.laneTested n = false) (hidle : s.calIdle n = true) :
    ((s.castStart n).co n).calCo = true ∧ ((s.castStart n).lane n).calLane = true := by
  have hgo : s.castStart n = (s.modCo n fun c => { c with calCo := true }).calStart n true true := by
    refine if_pos ?_
    simp only [hphase, hadmin, hhold, hcal, hrun, htrans, hoff, hreset, htest, hidle]
    rfl
  rw [hgo]
  obtain ⟨held, hco⟩ := (calStart_aside (s.modCo n fun c => { c with calCo := true }) n true true).co_eq n
  exact ⟨by rw [hco, co_modCo], calLane_calStart _ n⟩

end State

end Sys2Proof.Machine
end

section
/-!
SUPPORT. The lane's own progress (R196): what each of its steps can do, the entries it moves, and when it has nothing to do.
-/

namespace Sys2Proof.Machine

/-- What the progress of a conversation that does not restart may move: of the entries of its own state all but the partner's phase and the
flag of silence; and its counters. -/
def talkBits (k : Key) (j : Nat) : Bool :=
  k.off == 0x30 || k.off == 0x2E || (k.off == 0x2C && (k.sub != 7 && !(k.sub == 2 && j == 7)))

/-- The entries of a conversation's state and counters, and the format it agrees: not its configuration. -/
def stateBits (k : Key) (_ : Nat) : Bool := k.off == 0x30 || k.off == 0x2E || k.off == 0x2C

theorem talkBits_phase {terms : Bool} {k : Key} {j : Nat} (h : talkBits k j = false) : phaseBits terms k j = false := by
  refine phaseBits_mono ?_
  simp only [talkBits, phaseBits, turnBits, Bool.or_eq_false_iff, Bool.and_eq_false_iff, bne_eq_false_iff_eq, Bool.not_eq_false',
    Bool.and_eq_true, beq_iff_eq, beq_eq_false_iff_ne, decide_eq_false_iff_not] at h ⊢
  omega

theorem stateBits_talk {k : Key} {j : Nat} (h : stateBits k j = false) : talkBits k j = false := by
  simp only [stateBits, talkBits, Bool.or_eq_false_iff, Bool.and_eq_false_iff] at h ⊢
  tauto

theorem stateBits_restart {k : Key} {j : Nat} (h : stateBits k j = false) : restartBits k j = false := by
  simp only [stateBits, restartBits, endBits, Bool.or_eq_false_iff, Bool.and_eq_false_iff] at h ⊢
  tauto

namespace State

variable {s : State} {n : Fin 16}

/-! ## Proposals and C3 -/

theorem c3Start_leaves (s : State) (n : Fin 16) : Leaves (turnBits false) s (s.c3Start n) := by
  have hflag : ∀ b, Leaves (turnBits false) s (s.setCoFlag n 9 b) := fun b => (Leaves.refl _ s).flag n 9 b rfl (turnBits_high false n)
  have hpropose : ∀ a, Leaves (turnBits false) s ((s.setCoFlag n 9 false).propose n a) := fun a =>
    (hflag false).trans (.of_rd (rd_propose _ n a))
  unfold c3Start
  split
  · exact hflag true
  · dsimp only
    split
    · exact hflag false
    · split
      · exact hpropose _
      · exact .ite _ (hpropose _) (hflag false)
      · exact hflag false

theorem c3Start_phase (s : State) (n : Fin 16) : (s.c3Start n).phase n = s.phase n := (c3Start_leaves s n).rd rfl fun _ => rfl

theorem enterC3_leaves (s : State) (n : Fin 16) (noPropose : Bool) : Leaves (phaseBits true) s (s.enterC3 n noPropose) := by
  unfold enterC3
  have hset : Leaves (phaseBits true) s ((s.phaseSet n 3).modCo n fun c =>
      { c with prop := none, rejected := none, accepted := none, heardPropose := false, noPropose := noPropose }) :=
    (phaseSet_leaves s n 3).modCo n _
  exact hset.trans ((c3Start_leaves _ n).mono fun _ _ h => turnBits_mono (phaseBits_turn h))

theorem enterC3_phase (s : State) (n : Fin 16) (noPropose : Bool) : (s.enterC3 n noPropose).phase n = 3 := by
  rw [enterC3, c3Start_phase, phase, modCo_rd]
  exact phaseSet_phase s n (by decide)

theorem enterC3_agr (s : State) (n : Fin 16) (noPropose : Bool) : (s.enterC3 n noPropose).rd (K.LINE_CO_AGR n) = 0 := by
  rw [enterC3, (c3Start_leaves _ n).rd rfl fun _ => rfl, modCo_rd]
  exact phaseSet_agr s n (by decide)

/-! ## C6 and C7 -/

/-- The record of the verify window that opens in C6. -/
def windowOpened (s : State) (n : Fin 16) : State :=
  (s.phaseSet n 6).modCo n fun c =>
    { c with gate := 0, win := s.rd (K.LINE_CO_VERIFY_WIN n), heldC6 := s.frameLock n, uncorr0 := s.rd (K.LINE_CW_UNCORR n)
             symErr0 := s.rd (K.LINE_SYM_ERR n) }

theorem enterC6_eq (s : State) (n : Fin 16) : s.enterC6 n =
    if s.rd (K.LINE_CO_VERIFY_WIN n) = 0 then (s.windowOpened n).gateEnd n else s.windowOpened n := rfl

theorem windowOpened_leaves (s : State) (n : Fin 16) : Leaves talkBits s (s.windowOpened n) := by
  unfold windowOpened
  exact ((phaseSet_leaves s n 6).mono fun _ _ => talkBits_phase).modCo n _

/-- The gate's result without a restart. -/
theorem gateEnd_cases (s : State) (n : Fin 16) : Leaves talkBits s (s.gateEnd n) ∨ s.gateEnd n = (s.gateFailed n).coRestart n 5 := by
  cases hpass : s.gatePasses n (s.co n).win with
  | true => exact .inl (.of_rd (gateEnd_passes hpass).2)
  | false =>
    rw [gateEnd_fails hpass]
    split
    · have hfailed : Leaves talkBits s (s.gateFailed n) := .of_rd (gateFailed_rd s n)
      exact .inl (((hfailed.incSat fun _ => rfl).modCo n _).trans ((enterC4_leaves _ n true).mono fun _ _ => talkBits_phase))
    · exact .inr rfl

theorem enterC7_leaves (s : State) (n : Fin 16) : Leaves talkBits s (s.enterC7 n) := by
  have hset : Leaves talkBits s ((((s.phaseSet n 7).modLane n fun l => { l with reachedC7 := true }).incSat (K.LINE_CO_RUNS n)).wrBit
      (K.TIME_LINE_FLAGS n) 0 false) :=
    .aside (((phaseSet_leaves s n 7).mono fun _ _ => talkBits_phase).modLane n _ |>.incSat fun _ => rfl) (.wr (.refl _) _ rfl)
  have hunit : ∀ (z : State) (u : Fin 22) (f : PwrUnit → PwrUnit), Leaves talkBits z (z.modUnit u f) := fun _ _ _ => .of_rd fun _ => rfl
  unfold enterC7
  dsimp only
  refine .aside ?_ (outageCheck_aside _)
  refine .trans ?_ (.of_rd (rd_sendStatus _ n))
  refine .flag ?_ n 1 false rfl fun j hj => ?_
  · exact .wr (hset.trans (hunit _ _ _)) _ fun _ => rfl
  · have h7 : j ≠ 7 := by omega
    simp [talkBits, h7]

/-! ## The steps of progress -/

/-- What the start of a TXEQ policy can do (R210). -/
theorem policyStart_cases (s : State) (n : Fin 16) : s.policyStart n = s ∨
    (s.phase n = 4 ∧ (s.co n).txeq = .idle ∧ s.binding n = false ∧
      (s.policyStart n = (s.modCo n fun c => { c with txeq := .done }) ∨
        s.policyStart n = ((s.modCo n fun c => { c with txeq := .baseline }).trainFrom n s.now) ∨
        s.policyStart n = (s.modCo n fun c => { c with txeq := .host }) ∨
        (s.rd (K.LINE_CO_TXEQ_POLICY n) ≠ 2 ∧ ∃ taps, s.policyStart n = (s.modCo n fun c => { c with txeq := .request }).sendTxeq n taps))) := by
  unfold policyStart
  split
  next hgo =>
    simp only [Bool.and_eq_true, decide_eq_true_eq, Bool.not_eq_true'] at hgo
    obtain ⟨⟨⟨⟨hphase, hidle⟩, -⟩, -⟩, hbinding⟩ := hgo
    refine .inr ⟨hphase, hidle, hbinding, ?_⟩
    split
    · exact .inl rfl
    · exact .inr (.inl rfl)
    · exact .inr (.inr (.inl rfl))
    next h2 => exact .inr (.inr (.inr ⟨h2, _, rfl⟩))
  · exact .inl rfl

/-- Work is done in C4, C5 and C6 alone. -/
theorem workDone_phase (h : s.workDone n = true) : s.phase n = 4 ∨ s.phase n = 5 ∨ s.phase n = 6 := by
  unfold workDone at h
  split at h
  next h4 => exact .inl h4
  next h5 => exact .inr (.inl h5)
  next h6 => exact .inr (.inr h6)
  · exact Bool.noConfusion h

/-- What one step of progress can do (R196). -/
theorem advanceOnce_cases (s : State) (n : Fin 16) : s.advanceOnce n = s ∨
    (s.binding n = false ∧
      (s.phase n = 2 ∧ (s.co n).capAcked = true ∧ s.advanceOnce n = s.enterC3 n false ∨
        s.workDone n = true ∧
          (s.advanceOnce n = s.sendReady n ∨
            (s.co n).readyAcked = true ∧
              (s.phase n = 4 ∧ s.advanceOnce n = s.enterC5 n false ∨ s.phase n = 5 ∧ s.advanceOnce n = s.enterC6 n ∨
                s.phase n = 6 ∧ s.advanceOnce n = s.enterC7 n)))) := by
  unfold advanceOnce
  dsimp only
  split
  · exact .inl rfl
  next hbinding =>
    replace hbinding : s.binding n = false := by simpa using hbinding
    split
    next h2 =>
      split
      next hgo =>
        simp only [Bool.and_eq_true] at hgo
        exact .inr ⟨hbinding, .inl ⟨h2, hgo.1.1, rfl⟩⟩
      · exact .inl rfl
    · split
      · exact .inl rfl
      next hwork =>
        replace hwork : s.workDone n = true := by simpa using hwork
        split
        · exact .inr ⟨hbinding, .inr ⟨hwork, .inl rfl⟩⟩
        · split
          next hready =>
            have hacked : (s.co n).readyAcked = true := (Bool.and_eq_true_iff.mp hready).1
            refine .inr ⟨hbinding, .inr ⟨hwork, .inr ⟨hacked, ?_⟩⟩⟩
            split
            next h4 => exact .inl ⟨h4, rfl⟩
            next h5 => exact .inr (.inl ⟨h5, rfl⟩)
            next h4 h5 =>
              obtain h | h | h := workDone_phase hwork
              · exact absurd h h4
              · exact absurd h h5
              · exact .inr (.inr ⟨h, rfl⟩)
          · exact .inl rfl

/-- A property that both steps keep. -/
theorem coAdvance_induct {P : State → Prop} (hstart : ∀ z, P z → P (z.policyStart n)) (hstep : ∀ z, P z → P (z.advanceOnce n))
    (h : P s) : P (s.coAdvance n) := by
  have h1 : P ((s.policyStart n).advanceOnce n) := hstep _ (hstart _ h)
  have h2 := hstep _ (hstep _ (hstart _ h1))
  exact hstep _ (hstep _ h2)

/-- Of the settling, what follows the progress is a KEEPALIVE at most. -/
theorem coSettle_cases (s : State) (n : Fin 16) : s.coSettle n = s.coAdvance n ∨ s.coSettle n = (s.coAdvance n).sendKeepalive n := by
  unfold coSettle
  dsimp only
  split
  · exact .inr rfl
  · exact .inl rfl

/-- Of the lane's record, and of its entries, it changes no more than what is owed. -/
theorem coSettle_stands (s : State) (n : Fin 16) : (∀ k, convoEntry k = true → (s.coSettle n).rd k = (s.coAdvance n).rd k) ∧
    ∃ owe, (s.coSettle n).co n = { (s.coAdvance n).co n with owe := owe } := by
  obtain h | h := coSettle_cases s n
  · rw [h]
    exact ⟨fun _ _ => rfl, _, rfl⟩
  · rw [h]
    exact ⟨fun k hk => rd_sendKeepalive _ n hk, false, co_sendKeepalive _ n⟩

/-! ## A lane that binds off makes no progress (R221) -/

theorem policyStart_of_binding (h : s.binding n = true) : s.policyStart n = s := by
  obtain heq | ⟨-, -, hnot, -⟩ := policyStart_cases s n
  · exact heq
  · exact Bool.noConfusion (h.symm.trans hnot)

theorem advanceOnce_of_binding (h : s.binding n = true) : s.advanceOnce n = s := by
  obtain heq | ⟨hnot, -⟩ := advanceOnce_cases s n
  · exact heq
  · exact Bool.noConfusion (h.symm.trans hnot)

theorem coAdvance_of_binding (h : s.binding n = true) : s.coAdvance n = s :=
  coAdvance_induct (P := fun z => z = s) (fun z hz => by rw [hz, policyStart_of_binding h])
    (fun z hz => by rw [hz, advanceOnce_of_binding h]) rfl

/-! ## The configuration stands -/

theorem policyStart_rd (s : State) (n : Fin 16) (k : Key) : (s.policyStart n).rd k = s.rd k := by
  obtain h | ⟨-, -, -, h | h | h | ⟨-, taps, h⟩⟩ := policyStart_cases s n
  · rw [h]
  · rw [h, modCo_rd]
  · rw [h, trainFrom, modLane_rd, modCo_rd]
  · rw [h, modCo_rd]
  · rw [h, rd_sendTxeq, modCo_rd]

/-- A step of progress without a restart, or the restart of a failed gate (R214). -/
theorem advanceOnce_leaves (s : State) (n : Fin 16) : Leaves talkBits s (s.advanceOnce n) ∨
    ∃ z, Leaves talkBits s z ∧ s.advanceOnce n = z.coRestart n 5 := by
  obtain h | ⟨-, ⟨-, -, h⟩ | ⟨-, h | ⟨-, ⟨-, h⟩ | ⟨-, h⟩ | ⟨-, h⟩⟩⟩⟩ := advanceOnce_cases s n
  · rw [h]; exact .inl (.refl _ s)
  · rw [h]; exact .inl ((enterC3_leaves s n false).mono fun _ _ => talkBits_phase)
  · rw [h]; exact .inl (.of_rd (rd_sendReady s n))
  · rw [h]; exact .inl ((enterC5_leaves s n false).mono fun _ _ => talkBits_phase)
  · have hopened := windowOpened_leaves s n
    rw [h, enterC6_eq]
    split
    · obtain hgate | hgate := gateEnd_cases (s.windowOpened n) n
      · exact .inl (hopened.trans hgate)
      · rw [hgate]
        exact .inr ⟨_, hopened.trans (.of_rd (gateFailed_rd _ n)), rfl⟩
    · exact .inl hopened
  · rw [h]; exact .inl (enterC7_leaves s n)

theorem advanceOnce_state (s : State) (n : Fin 16) : Leaves stateBits s (s.advanceOnce n) := by
  obtain h | ⟨z, hz, h⟩ := advanceOnce_leaves s n
  · exact h.mono fun _ _ => stateBits_talk
  · rw [h]
    exact (hz.mono fun _ _ => stateBits_talk).trans ((coRestart_leaves z n 5).mono fun _ _ => stateBits_restart)

theorem coAdvance_state (s : State) (n : Fin 16) : Leaves stateBits s (s.coAdvance n) :=
  coAdvance_induct (P := Leaves stateBits s) (fun z hz => hz.trans (.of_rd (policyStart_rd z n))) (fun z hz => hz.trans (advanceOnce_state z n))
    (.refl _ s)

theorem coSettle_state (s : State) (n : Fin 16) : Leaves stateBits s (s.coSettle n) :=
  (coAdvance_state s n).trans fun k j hk _ => bit_of_rd ((coSettle_stands s n).1 k hk) j

end State

end Sys2Proof.Machine
end

section
/-!
SUPPORT. Bind-off (R221), the TXEQ policies (R210, R211) and what the commands of the host do to the conversation (R180, R181, R225).
-/

namespace Sys2Proof.Machine

namespace State

variable {s : State} {n : Fin 16}

/-! ## Bind-off -/

theorem bindOff_of_some {reason other : Nat} (h : (s.co n).bind = some reason) : s.bindOff n other = s := if_pos (by rw [h]; rfl)

/-- The first bind-off: shown, counted, its BIND handed over. -/
theorem bindOff_of_none (h : (s.co n).bind = none) (reason : Nat) : s.bindOff n reason =
    (((s.setCoFlag n 0 true).incSat (K.LINE_CO_BIND_TX n)).modCo n fun c => { c with bind := some reason }).sendSeq n 0x09
      (be 1 reason ++ be 1 0) := if_neg (by rw [h]; simp)

theorem bindOff_does (h : (s.co n).bind = none) (reason : Nat) : (s.bindOff n reason).binding n = true ∧
    CountsUp s (s.bindOff n reason) (K.LINE_CO_BIND_TX n) 1 ∧ ((s.bindOff n reason).co n).bind = some reason ∧
    ((s.bindOff n reason).co n).hold = (s.co n).hold ∧ (s.bindOff n reason).phase n = s.phase n := by
  have hrd : ∀ k, (s.bindOff n reason).rd k = ((s.setCoFlag n 0 true).incSat (K.LINE_CO_BIND_TX n)).rd k := fun k => by
    rw [bindOff_of_none h, rd_sendSeq _ _ _ _ (by decide), modCo_rd]
  have hco : (s.bindOff n reason).co n = { s.co n with bind := some reason }.queued 0x09 (be 1 reason ++ be 1 0) := by
    rw [bindOff_of_none h, co_sendSeq, co_modCo, co_incSat, co_setCoFlag]
  refine ⟨?_, ?_, ?_, ?_, ?_⟩
  · rw [binding, coFlag, bit_of_rd (hrd _) 0, bit_of_rd (t := (s.setCoFlag n 0 true).incSat (K.LINE_CO_BIND_TX n)) (rd_wr_ne _ _ (by simp)) 0]
    exact coFlag_setCoFlag_self s n (by decide) true
  · rw [CountsUp, hrd, rd_incSat, if_pos rfl, setCoFlag, rd_wrBit_ne _ _ _ (by simp)]
  · rw [hco, CoS.queued_bind]
  · rw [hco, CoS.queued_hold]
  · rw [phase, hrd, rd_incSat, if_neg (by simp), setCoFlag, rd_wrBit_ne _ _ _ (by simp)]
    rfl

/-- Settling a lane that binds off sends at most what is owed. -/
theorem coSettle_of_binding (h : s.binding n = true) : (∀ k, convoEntry k = true → (s.coSettle n).rd k = s.rd k) ∧
    ∃ owe, (s.coSettle n).co n = { s.co n with owe := owe } := by
  have hstands := coSettle_stands s n
  rwa [coAdvance_of_binding h] at hstands

/-- A bind-off that begins, and the settling that follows. -/
theorem bindOff_settled (h : (s.co n).bind = none) (reason : Nat) :
    CountsUp s ((s.bindOff n reason).coSettle n) (K.LINE_CO_BIND_TX n) 1 ∧ (((s.bindOff n reason).coSettle n).co n).bind = some reason ∧
    ((s.bindOff n reason).coSettle n).binding n = true ∧ ((s.bindOff n reason).coSettle n).phase n = s.phase n ∧
    (((s.bindOff n reason).coSettle n).co n).hold = (s.co n).hold := by
  obtain ⟨hbinding, hcount, hbind, hhold, hphase⟩ := bindOff_does h reason
  obtain ⟨hrd, owe, hco⟩ := coSettle_of_binding hbinding
  refine ⟨?_, by rw [hco, hbind], (bit_of_rd (hrd _ rfl) 0).trans hbinding, (hrd _ rfl).trans hphase, by rw [hco, hhold]⟩
  rw [CountsUp, hrd _ rfl]
  exact hcount

/-- A bind-off under way goes on. -/
theorem bindOff_again {reason : Nat} (h : (s.co n).bind = some reason) (hbinding : s.binding n = true) (other : Nat) :
    ((s.bindOff n other).coSettle n).rd (K.LINE_CO_BIND_TX n) = s.rd (K.LINE_CO_BIND_TX n) ∧
    (((s.bindOff n other).coSettle n).co n).bind = some reason ∧ ((s.bindOff n other).coSettle n).phase n = s.phase n := by
  rw [bindOff_of_some h]
  obtain ⟨hrd, owe, hco⟩ := coSettle_of_binding hbinding
  exact ⟨hrd _ rfl, by rw [hco, h], hrd _ rfl⟩

theorem bindOff_state (s : State) (n : Fin 16) (reason : Nat) : Leaves stateBits s (s.bindOff n reason) := by
  cases h : (s.co n).bind with
  | some other => rw [bindOff_of_some h]; exact .refl _ s
  | none =>
    rw [bindOff_of_none h]
    have hshown : Leaves stateBits s ((s.setCoFlag n 0 true).incSat (K.LINE_CO_BIND_TX n)) :=
      (((Leaves.refl _ s).flag n 0 true rfl fun _ _ => rfl).incSat fun _ => rfl)
    exact (hshown.modCo n _).trans (.of_rd (rd_sendSeq _ _ _ _ (by decide)))

/-! ## An accepted write -/

variable {r : Fin 18} {k : Key} {data : List Byte} {eff : State → State}

end State

/-- The state `z` on which a write has its effect, as far as the conversation goes: the request itself changes none of it. -/
structure Admitted (s z : State) : Prop where
  rd : ∀ k, k.area ≠ none → z.rd k = s.rd k
  lanes : z.lanes = s.lanes
  bist : z.bist = s.bist
  units : UnitsStand s z

namespace Admitted

variable {s z : State}

theorem lane (h : Admitted s z) (n : Fin 16) : z.lane n = s.lane n := by rw [State.lane, State.lane, h.lanes]

theorem co (h : Admitted s z) (n : Fin 16) : z.co n = s.co n := by rw [State.co, State.co, h.lane]

theorem phase (h : Admitted s z) (n : Fin 16) : z.phase n = s.phase n := h.rd _ (by simp)

theorem binding (h : Admitted s z) (n : Fin 16) : z.binding n = s.binding n := State.bit_of_rd (h.rd _ (by simp)) 0

end Admitted

/-- An accepted write comes to what its effect comes to. -/
theorem runs_write {c : Instr} {s : State} {r : Fin 18} {k : Key} {data : List Byte} {eff : State → State} {P : State → Prop}
    (hexec : exec c s = .next (s.write r k data eff)) (h : s.accepts r k data = true)
    (hP : ∀ z t, Admitted s z → (∀ k, t.rd k = (eff z).rd k) → t.lanes = (eff z).lanes → P t) : Runs c s P := by
  refine ⟨_, hexec, hP (s.admitted r k data) _ ⟨fun x hx => ?_, ?_, ?_, ?_⟩ ?_ ?_⟩
  · exact State.rd_admitted _ _ _ _ _ hx
  · exact State.admitted_lanes _ _ _ _
  · exact State.admitted_bist _ _ _ _
  · exact State.admitted_units _ _ _ _
  · exact State.write_rd s eff h
  · exact State.write_lanes s eff h

theorem co_of_lanes {u t : State} (h : t.lanes = u.lanes) (n : Fin 16) : t.co n = u.co n := by
  rw [State.co, State.co, State.lane, State.lane, h]

/-- A restart that ends in `u` ends in every state that reads the same. -/
theorem Restarts.of_end {s u t : State} {n : Fin 16} {cause : Nat} (h : Restarts n cause s u) (hco : t.co n = u.co n)
    (hrd : ∀ k, t.rd k = u.rd k) : Restarts n cause s t := by
  have hphase : t.phase n = u.phase n := hrd _
  simpa only [Restarts, Restarted, RestartedOff, CountsUp, hco, hphase, hrd] using h

namespace State

variable {s : State} {n : Fin 16}

/-! ## TXEQ in C4 -/

/-- A conversation that has sent its request number `id` in C4 and has got no further than C5. -/
structure Requested (n : Fin 16) (id : Nat) (z : State) : Prop where
  policy : z.rd (K.LINE_CO_TXEQ_POLICY n) = 2
  phase : z.phase n = 4 ∨ z.phase n = 5 ∧ (z.co n).readyAcked = false
  req : (z.co n).reqId = id
  sent : ∃ m, m ∈ (z.co n).out ++ (z.co n).wait ∧ m.typ = 0x05

theorem Requested.sendReady {id : Nat} (h : Requested n id s) : Requested n id (s.sendReady n) where
  policy := (rd_sendReady s n _).trans h.policy
  phase := by
    rw [State.phase, rd_sendReady, co_sendReady, CoS.queued_readyAcked]
    exact h.phase
  req := by rw [co_sendReady, CoS.queued_reqId]; exact h.req
  sent := by
    obtain ⟨m, hm, htyp⟩ := h.sent
    rw [co_sendReady]
    exact ⟨m, (CoS.mem_queued _ _ _).2 m hm, htyp⟩

theorem Requested.enterC5 {id : Nat} (h : Requested n id s) : Requested n id (s.enterC5 n false) := by
  obtain ⟨held, hco⟩ := enterC5_co s n false
  refine ⟨((enterC5_leaves s n false).rd rfl fun _ => rfl).trans h.policy, .inr ⟨enterC5_phase s n false, ?_⟩, ?_, ?_⟩
  · rw [hco]; rfl
  · rw [hco]; exact h.req
  · rw [hco]; exact h.sent

theorem Requested.policyStart {id : Nat} (h : Requested n id s) : Requested n id (s.policyStart n) := by
  have htxeq : ∀ (x : Txeq), Requested n id (s.modCo n fun c => { c with txeq := x }) := fun x =>
    ⟨h.policy, by rw [co_modCo]; exact h.phase, by rw [co_modCo]; exact h.req, by rw [co_modCo]; exact h.sent⟩
  obtain heq | ⟨-, -, -, heq | heq | heq | ⟨hnot, -⟩⟩ := policyStart_cases s n
  · rwa [heq]
  · rw [heq]; exact htxeq .done
  · rw [heq]
    obtain ⟨hpolicy, hphase, hreq, hsent⟩ := htxeq .baseline
    have hco : ∀ z : State, (z.trainFrom n s.now).co n = z.co n := fun z => by rw [trainFrom, co, lane_modLane]; rfl
    exact ⟨hpolicy, by rw [hco]; exact hphase, by rw [hco]; exact hreq, by rw [hco]; exact hsent⟩
  · rw [heq]; exact htxeq .host
  · exact absurd h.policy hnot

theorem Requested.advanceOnce {id : Nat} (h : Requested n id s) : Requested n id (s.advanceOnce n) := by
  obtain heq | ⟨-, ⟨h2, -, -⟩ | ⟨-, heq | ⟨hacked, ⟨-, heq⟩ | ⟨h5, -⟩ | ⟨h6, -⟩⟩⟩⟩ := advanceOnce_cases s n
  · rwa [heq]
  · obtain h4 | ⟨h5, -⟩ := h.phase <;> omega
  · rw [heq]; exact h.sendReady
  · rw [heq]; exact h.enterC5
  · obtain h4 | ⟨-, hnot⟩ := h.phase
    · omega
    · exact Bool.noConfusion (hnot.symm.trans hacked)
  · obtain h4 | ⟨h5, -⟩ := h.phase <;> omega

/-- A conversation whose policy has ended in C4, which may have gone on to C5. -/
def PolicyEnded (n : Fin 16) (adapt : Nat) (z : State) : Prop :=
  (z.phase n = 4 ∧ (z.co n).txeq = .done ∧ (z.lane n).adapt = adapt) ∨ (z.phase n = 5 ∧ (z.co n).readyAcked = false ∧ adapt = 2)

theorem PolicyEnded.policyStart {adapt : Nat} (h : PolicyEnded n adapt s) : PolicyEnded n adapt (s.policyStart n) := by
  obtain heq | ⟨h4, hidle, -⟩ := policyStart_cases s n
  · rwa [heq]
  · obtain ⟨-, hdone, -⟩ | ⟨h5, -⟩ := h
    · exact absurd (hdone.symm.trans hidle) (by decide)
    · omega

theorem PolicyEnded.sendReady {adapt : Nat} (h : PolicyEnded n adapt s) : PolicyEnded n adapt (s.sendReady n) := by
  have hphase : (s.sendReady n).phase n = s.phase n := rd_sendReady s n _
  obtain ⟨co, picot, hlane⟩ := lane_sendSeq (s.modCo n fun c => { c with readySent := true }) n 0x08
    (be 1 (s.rd (K.LINE_CO_AGR n)) ++ be 1 (s.phase n))
  have hadapt : ((s.sendReady n).lane n).adapt = (s.lane n).adapt := by
    rw [State.sendReady, hlane, modCo, lane_modLane]
  unfold PolicyEnded
  rw [hphase, hadapt, co_sendReady, CoS.queued_txeq, CoS.queued_readyAcked]
  exact h

theorem PolicyEnded.advanceOnce {adapt : Nat} (h : PolicyEnded n adapt s) : PolicyEnded n adapt (s.advanceOnce n) := by
  obtain heq | ⟨-, ⟨h2, -, -⟩ | ⟨hwork, heq | ⟨hacked, ⟨h4, heq⟩ | ⟨h5, -⟩ | ⟨h6, -⟩⟩⟩⟩ := advanceOnce_cases s n
  · rwa [heq]
  · obtain ⟨h4, -⟩ | ⟨h5, -⟩ := h <;> omega
  · rw [heq]; exact h.sendReady
  · obtain ⟨-, -, hadapt⟩ | ⟨h5, -⟩ := h
    · obtain ⟨held, hco⟩ := enterC5_co s n false
      have htwo : (s.lane n).adapt = 2 := by
        unfold workDone at hwork
        rw [h4] at hwork
        simp only [Bool.and_eq_true, beq_iff_eq] at hwork
        exact hwork.1.1
      rw [heq]
      exact .inr ⟨enterC5_phase s n false, by rw [hco]; rfl, hadapt.symm.trans htwo⟩
    · omega
  · obtain ⟨h4, -⟩ | ⟨-, hnot, -⟩ := h
    · omega
    · exact Bool.noConfusion (hnot.symm.trans hacked)
  · obtain ⟨h4, -⟩ | ⟨h5, -⟩ := h <;> omega

/-! ## The TXEQ search (R211) -/

/-- The search sends messages at most: every entry, the best SNR and what is known of the far taps stand. -/
theorem searchNext_stands (n : Fin 16) (fuel : Nat) (s : State) : (∀ k, (s.searchNext n fuel).rd k = s.rd k) ∧
    ((s.searchNext n fuel).co n).best = (s.co n).best ∧ ((s.searchNext n fuel).co n).farKnown = (s.co n).farKnown := by
  induction fuel generalizing s with
  | zero => exact ⟨fun _ => rfl, by rw [searchNext, co_modCo], by rw [searchNext, co_modCo]⟩
  | succ fuel ih =>
    unfold searchNext
    dsimp only
    split
    · exact ⟨fun _ => rfl, by rw [co_modCo], by rw [co_modCo]⟩
    · split
      next u _ =>
        obtain ⟨body, hco⟩ := co_sendTxeq (s.modCo n fun c => { c with uTaps := u, txeq := .stepAck }) n u
        exact ⟨fun k => rd_sendTxeq _ n u k, by rw [hco, CoS.queued_best, co_modCo], by rw [hco, CoS.queued_farKnown, co_modCo]⟩
      · obtain ⟨hrd, hbest, hfar⟩ := ih (s.modCo n fun c => { c with eqJ := c.eqJ + 1, eqStep := 1 })
        exact ⟨hrd, by rw [hbest, co_modCo], by rw [hfar, co_modCo]⟩

end State

end Sys2Proof.Machine
end

section
/-!
PROOF. Obligation O29: the commands of the host to the conversation.
-/

namespace Sys2Proof.Machine

variable {s : State} {r : Fin 18} {n : Fin 16}

/-! ## `LINE_ADMIN` (R180, R181) -/

/-- The write itself: the entry, and the end of a hold. -/
def adminBase (n : Fin 16) (v : Nat) (z : State) : State := (z.wr (K.LINE_ADMIN n) v).modCo n fun c => { c with hold := false }

theorem adminBase_rd_ne (z : State) (v : Nat) {k : Key} (hk : k ≠ K.LINE_ADMIN n) : (adminBase n v z).rd k = z.rd k := State.rd_wr_ne _ _ hk

theorem adminBase_admin (z : State) {v : Nat} (hv : v < 256) : (adminBase n v z).rd (K.LINE_ADMIN n) = v :=
  (State.rd_wr_self _ _ _).trans (Nat.mod_eq_of_lt hv)

theorem adminBase_co (z : State) (v : Nat) : (adminBase n v z).co n = { z.co n with hold := false } := State.co_modCo _ _ _

theorem adminBase_phase (z : State) (v : Nat) : (adminBase n v z).phase n = z.phase n := adminBase_rd_ne z v (by simp)

theorem adminBase_start (z : State) (v : Nat) : StartStands n z (adminBase n v z) :=
  StartStands.modLane (s := z.wr (K.LINE_ADMIN n) v) (.wr (.refl n z) v (by simp)) (fun l => { l with co := { l.co with hold := false } })
    fun _ => rfl

/-- Up: what the lane starts from. -/
def adminUp (n : Fin 16) (z : State) : State := if z.laneDown n then (adminBase n 1 z).laneCameUp n else adminBase n 1 z

theorem effLineAdmin_up (z : State) : effLineAdmin n 1 z = if z.phase n = 0 then (adminUp n z).castStart n else adminBase n 1 z := rfl

theorem adminUp_aside (z : State) : Aside (adminBase n 1 z) (adminUp n z) := .ite _ (State.laneCameUp_aside _ n) (.refl _)

theorem adminUp_start (z : State) : StartStands n z (adminUp n z) := by
  unfold adminUp
  split
  · exact (adminBase_start z 1).trans (State.laneCameUp_start _ n)
  · exact adminBase_start z 1

/-- Up: the entry and the end of the hold; the phase and a bind-off under way stand. -/
theorem effLineAdmin_up_does (z : State) : (effLineAdmin n 1 z).rd (K.LINE_ADMIN n) = 1 ∧ ((effLineAdmin n 1 z).co n).hold = false ∧
    (effLineAdmin n 1 z).phase n = z.phase n ∧ ((effLineAdmin n 1 z).co n).bind = (z.co n).bind := by
  have hbase : (adminBase n 1 z).rd (K.LINE_ADMIN n) = 1 := adminBase_admin z (by decide)
  rw [effLineAdmin_up]
  split
  · obtain ⟨h1, e1⟩ := (adminUp_aside z).co_eq n
    obtain ⟨hrd, h2, calCo, e2⟩ := State.castStart_stands (adminUp n z) n
    refine ⟨?_, ?_, ?_, ?_⟩
    · rw [hrd _ rfl, (adminUp_aside z).rd _ rfl, hbase]
    · rw [e2, e1, adminBase_co]
    · rw [State.phase, hrd _ rfl, (adminUp_aside z).rd _ rfl]
      exact adminBase_phase z 1
    · rw [e2, e1, adminBase_co]
  · exact ⟨hbase, by rw [adminBase_co], adminBase_phase z 1, by rw [adminBase_co]⟩

/-- Up from C0, with nothing that holds it up: the calibrations start. -/
theorem effLineAdmin_up_starts {z : State} (hphase : z.phase n = 0) (hrun : z.inRun n = true) (htrans : (z.unit (laneUnit n)).trans = .still)
    (hoff : z.pwr.offStep = 0) (hreset : (z.lane n).laneReset = false) (htest : z.laneTested n = false) (hidle : z.calIdle n = true)
    (hcal : (z.co n).calCo = false) :
    ((effLineAdmin n 1 z).co n).calCo = true ∧ ((effLineAdmin n 1 z).lane n).calLane = true := by
  obtain ⟨hview, ⟨hunits, hstep⟩, hstate, hbist⟩ := adminUp_start (n := n) z
  obtain ⟨held, hco⟩ := (adminUp_aside (n := n) z).co_eq n
  have hne : laneUnit n ≠ 21 := fun h => by
    have hval : n.val = 21 := congrArg Fin.val h
    omega
  simp only [calView, Prod.mk.injEq] at hview
  obtain ⟨hreset', hlane', hdac', hdue'⟩ := hview
  have hadmin : (adminUp n z).rd (K.LINE_ADMIN n) = 1 := ((adminUp_aside z).rd _ rfl).trans (adminBase_admin z (by decide))
  rw [effLineAdmin_up, if_pos hphase]
  refine State.castStart_starts ?_ ?_ ?_ ?_ (hstate.trans hrun) ((hunits _ hne).trans htrans) (hstep.trans hoff) (hreset'.trans hreset) ?_ ?_
  · exact ((adminUp_aside z).phase n).trans ((adminBase_phase z 1).trans hphase)
  · rw [State.on, hadmin]; rfl
  · rw [hco, adminBase_co]
  · rw [hco, adminBase_co, hcal]
  · rw [State.laneTested, hbist]
    exact htest
  · rw [State.calIdle, hlane', hdac', hdue']
    exact hidle

theorem effLineAdmin_down (z : State) : effLineAdmin n 0 z =
    match z.phase n with
    | 0 => if z.laneDown n then adminBase n 0 z else ((adminBase n 0 z).modCo n fun c => { c with calCo := false }).laneWentDown n
    | 1 => (adminBase n 0 z).toC0 n false
    | _ => ((adminBase n 0 z).bindOff n 0).coSettle n := rfl

/-- Down from C0: the lane counts as down, and stays in C0. -/
theorem effLineAdmin_down_c0 {z : State} (h0 : z.phase n = 0) : (effLineAdmin n 0 z).rd (K.LINE_ADMIN n) = 0 ∧
    (effLineAdmin n 0 z).phase n = 0 ∧ ((effLineAdmin n 0 z).co n).hold = false := by
  have hbase : (adminBase n 0 z).rd (K.LINE_ADMIN n) = 0 := adminBase_admin z (by decide)
  have hphase : (adminBase n 0 z).phase n = 0 := (adminBase_phase z 0).trans h0
  have heq : effLineAdmin n 0 z =
      if z.laneDown n then adminBase n 0 z else ((adminBase n 0 z).modCo n fun c => { c with calCo := false }).laneWentDown n := by
    rw [effLineAdmin_down]
    split
    · rfl
    · omega
    next hne _ => exact absurd h0 hne
  rw [heq]
  split
  · exact ⟨hbase, hphase, by rw [adminBase_co]⟩
  · obtain ⟨hrd, held, hco⟩ := State.laneWentDown_stands ((adminBase n 0 z).modCo n fun c => { c with calCo := false }) n
    exact ⟨(hrd _ rfl).trans hbase, (hrd _ rfl).trans hphase, by rw [hco, State.co_modCo, adminBase_co]⟩

/-- Down from C1: C0. -/
theorem effLineAdmin_down_c1 {z : State} (h1 : z.phase n = 1) : (effLineAdmin n 0 z).rd (K.LINE_ADMIN n) = 0 ∧
    (effLineAdmin n 0 z).phase n = 0 ∧ ((effLineAdmin n 0 z).co n).hold = false := by
  have heq : effLineAdmin n 0 z = (adminBase n 0 z).toC0 n false := by
    rw [effLineAdmin_down]
    split
    · omega
    · rfl
    next _ hne => exact absurd h1 hne
  rw [heq]
  refine ⟨?_, State.toC0_phase _ n false, (State.toC0_co _ n false).1⟩
  rw [(State.toC0_leaves _ n false).rd rfl fun _ => rfl]
  exact adminBase_admin z (by decide)

/-- Down from C2 and above: bind-off. -/
theorem effLineAdmin_down_above {z : State} (h2 : 2 ≤ z.phase n) :
    effLineAdmin n 0 z = ((adminBase n 0 z).bindOff n 0).coSettle n := by
  rw [effLineAdmin_down]
  split
  · omega
  · omega
  · rfl

theorem effLineAdmin_down_admin (z : State) : (effLineAdmin n 0 z).rd (K.LINE_ADMIN n) = 0 := by
  obtain h0 | h1 | h2 : z.phase n = 0 ∨ z.phase n = 1 ∨ 2 ≤ z.phase n := by omega
  · exact (effLineAdmin_down_c0 h0).1
  · exact (effLineAdmin_down_c1 h1).1
  · rw [effLineAdmin_down_above h2, (State.coSettle_state _ n).rd rfl fun _ => rfl, (State.bindOff_state _ n 0).rd rfl fun _ => rfl]
    exact adminBase_admin z (by decide)

theorem lineAdminUp_does (h : s.accepts r (K.LINE_ADMIN n) (be 1 1) = true) : Runs (.lineAdminWrite r n 1) s fun t =>
    t.rd (K.LINE_ADMIN n) = 1 ∧ (t.co n).hold = false ∧ t.phase n = s.phase n ∧ (t.co n).bind = (s.co n).bind ∧
    (s.phase n = 0 → s.inRun n = true → (s.unit (laneUnit n)).trans = .still → s.pwr.offStep = 0 → (s.lane n).laneReset = false →
      s.laneTested n = false → s.calIdle n = true → (s.co n).calCo = false →
      (t.co n).calCo = true ∧ (t.lane n).calLane = true) := by
  refine runs_write (eff := effLineAdmin n 1) (exec_lineAdminWrite s r n 1) h fun z t hz hrd hlanes => ?_
  have hne : laneUnit n ≠ 21 := fun h => by
    have hval : n.val = 21 := congrArg Fin.val h
    omega
  obtain ⟨hadmin, hhold, hphase, hbind⟩ := effLineAdmin_up_does (n := n) z
  have hco := co_of_lanes hlanes n
  refine ⟨(hrd _).trans hadmin, by rw [hco, hhold], (hrd _).trans (hphase.trans (hz.phase n)), by rw [hco, hbind, hz.co],
    fun h0 hrun htrans hoff hreset htest hidle hcal => ?_⟩
  rw [hco, State.lane, hlanes]
  refine effLineAdmin_up_starts ((hz.phase n).trans h0) ?_ ((hz.units.trans _ hne).trans htrans) (hz.units.off.trans hoff) ?_ ?_ ?_ ?_
  · rw [State.inRun, hz.rd _ (by simp)]
    exact hrun
  · rw [hz.lane, hreset]
  · rw [State.laneTested, hz.bist]
    exact htest
  · rw [State.calIdle, hz.lane]
    exact hidle
  · rw [hz.co, hcal]

theorem lineAdminDown_does (h : s.accepts r (K.LINE_ADMIN n) (be 1 0) = true) : Runs (.lineAdminWrite r n 0) s fun t =>
    t.rd (K.LINE_ADMIN n) = 0 ∧ (s.phase n ≤ 1 → t.phase n = 0 ∧ (t.co n).hold = false) ∧
    (2 ≤ s.phase n → (s.co n).bind = none → CountsUp s t (K.LINE_CO_BIND_TX n) 1 ∧ (t.co n).bind = some 0 ∧ t.binding n = true ∧
      t.phase n = s.phase n ∧ (t.co n).hold = false) ∧
    (∀ reason, 2 ≤ s.phase n → s.binding n = true → (s.co n).bind = some reason →
      t.rd (K.LINE_CO_BIND_TX n) = s.rd (K.LINE_CO_BIND_TX n) ∧ (t.co n).bind = some reason ∧ t.phase n = s.phase n) := by
  refine runs_write (eff := effLineAdmin n 0) (exec_lineAdminWrite s r n 0) h fun z t hz hrd hlanes => ?_
  have hco := co_of_lanes hlanes n
  have hphase := hz.phase n
  have hbase : ∀ k, k ≠ K.LINE_ADMIN n → k.area ≠ none → (adminBase n 0 z).rd k = s.rd k := fun k hk ha =>
    (adminBase_rd_ne z 0 hk).trans (hz.rd k ha)
  have hbasePhase : (adminBase n 0 z).phase n = s.phase n := (adminBase_phase z 0).trans hphase
  refine ⟨(hrd _).trans (effLineAdmin_down_admin z), fun hlow => ?_, fun h2 hnone => ?_, fun reason h2 hbinding hsome => ?_⟩
  · obtain h0 | h1 : z.phase n = 0 ∨ z.phase n = 1 := by omega
    · obtain ⟨-, hp, hhold⟩ := effLineAdmin_down_c0 h0
      exact ⟨(hrd _).trans hp, by rw [hco, hhold]⟩
    · obtain ⟨-, hp, hhold⟩ := effLineAdmin_down_c1 h1
      exact ⟨(hrd _).trans hp, by rw [hco, hhold]⟩
  · rw [effLineAdmin_down_above (by omega)] at hrd hco
    obtain ⟨hcount, hbind, hbinding, hp, hhold⟩ := State.bindOff_settled (s := adminBase n 0 z) (n := n)
      (by rw [adminBase_co, hz.co, hnone]) 0
    refine ⟨?_, by rw [hco, hbind], (State.bit_of_rd (hrd _) 0).trans hbinding, (hrd _).trans (hp.trans hbasePhase), ?_⟩
    · rw [CountsUp, hrd, ← hbase _ (by simp) (by simp)]
      exact hcount
    · rw [hco, hhold, adminBase_co]
  · rw [effLineAdmin_down_above (by omega)] at hrd hco
    obtain ⟨hcount, hbind, hp⟩ := State.bindOff_again (s := adminBase n 0 z) (n := n) (reason := reason)
      (by rw [adminBase_co, hz.co, hsome]) ((State.bit_of_rd (hbase _ (by simp) (by simp)) 0).trans hbinding) 0
    exact ⟨(hrd _).trans (hcount.trans (hbase _ (by simp) (by simp))), by rw [hco, hbind], (hrd _).trans (hp.trans hbasePhase)⟩

/-! ## `LINE_CO_CMD` (R181) -/

theorem effCoCmd_c0 {z : State} (h0 : z.phase n = 0) (v : Nat) : effCoCmd n v z = z := if_pos h0

theorem effCoCmd_restart {z : State} (h1 : 1 ≤ z.phase n) : effCoCmd n 1 z = z.coRestart n 10 := by
  rw [effCoCmd, if_neg (by omega), if_pos rfl]

theorem effCoCmd_bindOff {z : State} (h1 : 1 ≤ z.phase n) :
    effCoCmd n 2 z = if z.phase n = 1 then z.toC0 n true else (z.bindOff n 1).coSettle n := by
  rw [effCoCmd, if_neg (by omega), if_neg (by decide), if_pos rfl]

theorem Admitted.idle {z t : State} (hz : Admitted s z) (hrd : ∀ k, t.rd k = z.rd k) (hlanes : t.lanes = z.lanes) :
    t.lanes = s.lanes ∧ Changes [] s t := by
  refine ⟨hlanes.trans hz.lanes, ?_⟩
  rw [changes_iff]
  exact fun k hk _ => (hrd k).trans (hz.rd k hk)

theorem coRestart_does (h : s.accepts r (K.LINE_CO_CMD n) (be 1 1) = true) : Runs (.coRestart r n) s fun t =>
    (1 ≤ s.phase n → s.phase n ≤ 7 → Restarts n 10 s t) ∧ (s.phase n = 0 → t.lanes = s.lanes ∧ Changes [] s t) := by
  refine runs_write (eff := effCoCmd n 1) (exec_coRestart s r n) h fun z t hz hrd hlanes => ⟨fun h1 h7 => ?_, fun h0 => ?_⟩
  · have hphase := hz.phase n
    rw [effCoCmd_restart (by omega)] at hrd hlanes
    have hrestarts := State.coRestart_restarts z n (cause := 10) (by omega) (by decide)
    refine (hrestarts.of_start (by rw [hz.co]) fun k hk => hz.rd k ?_).of_end (co_of_lanes hlanes n) hrd
    simp only [List.mem_cons, List.not_mem_nil, or_false] at hk
    obtain rfl | rfl | rfl := hk <;> simp
  · rw [effCoCmd_c0 ((hz.phase n).trans h0)] at hrd hlanes
    exact hz.idle hrd hlanes

theorem coBindOff_does (h : s.accepts r (K.LINE_CO_CMD n) (be 1 2) = true) : Runs (.coBindOff r n) s fun t =>
    (s.phase n = 0 → t.lanes = s.lanes ∧ Changes [] s t) ∧ (s.phase n = 1 → t.phase n = 0 ∧ (t.co n).hold = true) ∧
    (2 ≤ s.phase n → (s.co n).bind = none → CountsUp s t (K.LINE_CO_BIND_TX n) 1 ∧ (t.co n).bind = some 1 ∧ t.binding n = true ∧
      t.phase n = s.phase n) ∧
    (∀ reason, 2 ≤ s.phase n → s.binding n = true → (s.co n).bind = some reason →
      t.rd (K.LINE_CO_BIND_TX n) = s.rd (K.LINE_CO_BIND_TX n) ∧ (t.co n).bind = some reason ∧ t.phase n = s.phase n) := by
  refine runs_write (eff := effCoCmd n 2) (exec_coBindOff s r n) h fun z t hz hrd hlanes => ?_
  have hphase := hz.phase n
  have hcount := hz.rd (K.LINE_CO_BIND_TX n) (by simp)
  refine ⟨fun h0 => ?_, fun h1 => ?_, fun h2 hnone => ?_, fun reason h2 hbinding hsome => ?_⟩
  · rw [effCoCmd_c0 (hphase.trans h0)] at hrd hlanes
    exact hz.idle hrd hlanes
  · rw [effCoCmd_bindOff (by omega), if_pos (by omega)] at hrd hlanes
    exact ⟨(hrd _).trans (State.toC0_phase z n true), by rw [co_of_lanes hlanes, (State.toC0_co z n true).1]⟩
  · rw [effCoCmd_bindOff (by omega), if_neg (by omega)] at hrd hlanes
    obtain ⟨hup, hbind, hbinding, hp, -⟩ := State.bindOff_settled (s := z) (n := n) (by rw [hz.co, hnone]) 1
    refine ⟨?_, by rw [co_of_lanes hlanes, hbind], (State.bit_of_rd (hrd _) 0).trans hbinding, (hrd _).trans (hp.trans hphase)⟩
    rw [CountsUp, hrd, ← hcount]
    exact hup
  · rw [effCoCmd_bindOff (by omega), if_neg (by omega)] at hrd hlanes
    obtain ⟨hsame, hbind, hp⟩ := State.bindOff_again (s := z) (n := n) (reason := reason) (by rw [hz.co, hsome])
      ((hz.binding n).trans hbinding) 1
    exact ⟨(hrd _).trans (hsame.trans hcount), by rw [co_of_lanes hlanes, hbind], (hrd _).trans (hp.trans hphase)⟩

/-! ## `LINE_CO_TXEQ_GO` (R210) -/

theorem effTxeqGo_idle {z : State} {v : Nat} (h : z.phase n ≠ 4 ∨ z.rd (K.LINE_CO_TXEQ_POLICY n) ≠ 2 ∨ v = 0) : effTxeqGo n v z = z := by
  unfold effTxeqGo
  split
  · rfl
  next hgo =>
    simp only [Bool.or_eq_true, bne_iff_ne, not_or, not_not] at hgo
    obtain h | h | h := h
    · exact absurd hgo.1 h
    · exact absurd hgo.2 h
    · rw [h, if_neg (by decide), if_neg (by decide)]

theorem effTxeqGo_host {z : State} (h4 : z.phase n = 4) (h2 : z.rd (K.LINE_CO_TXEQ_POLICY n) = 2) :
    effTxeqGo n 1 z = (z.sendTxeq n (z.tapEntries n 2)).coSettle n ∧
      effTxeqGo n 2 z = (z.modCo n fun c => { c with txeq := .done }).coSettle n := by
  have hgo : ¬ (z.phase n != 4 || z.rd (K.LINE_CO_TXEQ_POLICY n) != 2) = true := by simp [h4, h2]
  exact ⟨(if_neg hgo).trans (if_pos rfl), (if_neg hgo).trans ((if_neg (by decide)).trans (if_pos rfl))⟩

theorem txeqGoSend_does (h : s.accepts r (K.LINE_CO_TXEQ_GO n) (be 1 1) = true) (h4 : s.phase n = 4)
    (h2 : s.rd (K.LINE_CO_TXEQ_POLICY n) = 2) : Runs (.lineCoTxeqGo r n 1) s fun t =>
      (t.co n).reqId = ((s.co n).reqId + 1) % 256 ∧ ∃ m, m ∈ (t.co n).out ++ (t.co n).wait ∧ m.typ = 0x05 := by
  refine runs_write (eff := effTxeqGo n 1) (exec_lineCoTxeqGo s r n 1) h fun z t hz hrd hlanes => ?_
  have hpolicy : z.rd (K.LINE_CO_TXEQ_POLICY n) = 2 := (hz.rd _ (by simp)).trans h2
  have hphase : z.phase n = 4 := (hz.phase n).trans h4
  rw [(effTxeqGo_host hphase hpolicy).1] at hrd hlanes
  obtain ⟨body, hsent⟩ := State.co_sendTxeq z n (z.tapEntries n 2)
  have hstart : State.Requested n (((s.co n).reqId + 1) % 256) (z.sendTxeq n (z.tapEntries n 2)) := by
    refine ⟨(State.rd_sendTxeq z n _ _).trans hpolicy, .inl ((State.rd_sendTxeq z n _ _).trans hphase), ?_, ?_⟩
    · rw [hsent, CoS.queued_reqId, hz.co]
    · rw [hsent]
      exact (CoS.mem_queued _ _ _).1
  have hend := State.coAdvance_induct (n := n) (P := State.Requested n (((s.co n).reqId + 1) % 256)) (fun _ h => h.policyStart)
    (fun _ h => h.advanceOnce) hstart
  obtain ⟨-, owe, hco⟩ := State.coSettle_stands (z.sendTxeq n (z.tapEntries n 2)) n
  rw [co_of_lanes hlanes, hco]
  exact ⟨hend.req, hend.sent⟩

theorem txeqGoEnd_does (h : s.accepts r (K.LINE_CO_TXEQ_GO n) (be 1 2) = true) (h4 : s.phase n = 4)
    (h2 : s.rd (K.LINE_CO_TXEQ_POLICY n) = 2) : Runs (.lineCoTxeqGo r n 2) s fun t =>
      (t.phase n = 4 → (t.co n).txeq = .done) ∧ (t.phase n = 4 ∨ t.phase n = 5 ∧ (s.lane n).adapt = 2) := by
  refine runs_write (eff := effTxeqGo n 2) (exec_lineCoTxeqGo s r n 2) h fun z t hz hrd hlanes => ?_
  have hpolicy : z.rd (K.LINE_CO_TXEQ_POLICY n) = 2 := (hz.rd _ (by simp)).trans h2
  have hphase : z.phase n = 4 := (hz.phase n).trans h4
  rw [(effTxeqGo_host hphase hpolicy).2] at hrd hlanes
  have hstart : State.PolicyEnded n (s.lane n).adapt (z.modCo n fun c => { c with txeq := .done }) := by
    refine .inl ⟨hphase, by rw [State.co_modCo], ?_⟩
    rw [State.modCo, State.lane_modLane, hz.lane]
  have hend := State.coAdvance_induct (n := n) (P := State.PolicyEnded n (s.lane n).adapt) (fun _ h => h.policyStart)
    (fun _ h => h.advanceOnce) hstart
  obtain ⟨hkept, owe, hco⟩ := State.coSettle_stands (z.modCo n fun c => { c with txeq := .done }) n
  have htphase : t.phase n = ((z.modCo n fun c => { c with txeq := .done }).coAdvance n).phase n := (hrd _).trans (hkept _ rfl)
  rw [co_of_lanes hlanes, hco, htphase]
  obtain ⟨h4', hdone, -⟩ | ⟨h5, -, hadapt⟩ := hend
  · exact ⟨fun _ => hdone, .inl h4'⟩
  · exact ⟨fun h4' => absurd (h4'.symm.trans h5) (by decide), .inr ⟨h5, hadapt⟩⟩

theorem txeqGo_idle {v : BitVec 8} (h : s.accepts r (K.LINE_CO_TXEQ_GO n) (be 1 v.toNat) = true)
    (hnot : s.phase n ≠ 4 ∨ s.rd (K.LINE_CO_TXEQ_POLICY n) ≠ 2 ∨ v = 0) : Runs (.lineCoTxeqGo r n v) s fun t =>
      t.lanes = s.lanes ∧ Changes [] s t := by
  refine runs_write (eff := effTxeqGo n v.toNat) (exec_lineCoTxeqGo s r n v) h fun z t hz hrd hlanes => ?_
  have hz' : z.phase n ≠ 4 ∨ z.rd (K.LINE_CO_TXEQ_POLICY n) ≠ 2 ∨ v.toNat = 0 := by
    rw [hz.phase, hz.rd _ (by simp)]
    exact hnot.imp_right (Or.imp_right fun hv => by rw [hv]; rfl)
  rw [effTxeqGo_idle hz'] at hrd hlanes
  exact hz.idle hrd hlanes

/-! ## The TXEQ search (R211) -/

/-- The measurement reads the errors gathered and starts afresh: the conversation and the entries stand. -/
theorem trainSnr_stands (s : State) (n : Fin 16) : (s.trainSnr n).2.co n = s.co n ∧ ∀ k, (s.trainSnr n).2.rd k = s.rd k := by
  have hvalue : ∀ p q, (s.snrValue p q).2.lanes = s.lanes ∧ ∀ k, (s.snrValue p q).2.rd k = s.rd k := fun p q => by
    unfold State.snrValue
    split
    · exact ⟨rfl, fun _ => rfl⟩
    · exact ⟨rfl, fun _ => rfl⟩
  obtain ⟨hlanes, hrd⟩ := hvalue (5 * (s.lane n).snrT.n * 2 ^ 52) (s.lane n).snrT.sq
  refine ⟨?_, fun k => (State.modLane_rd _ n _ k).trans (hrd k)⟩
  rw [State.trainSnr, State.co, State.lane_modLane, State.lane, hlanes]
  rfl

/-- The measurement recorded. -/
def measured (s : State) (n : Fin 16) : State := (s.trainSnr n).2.wrI (K.LINE_CO_TRAIN_SNR n) (s.trainSnr n).1

theorem measured_rd_ne {k : Key} (hk : k ≠ K.LINE_CO_TRAIN_SNR n) : (measured s n).rd k = s.rd k :=
  (State.rd_wr_ne _ _ hk).trans ((trainSnr_stands s n).2 k)

theorem measured_snr (s : State) (n : Fin 16) : (measured s n).rd (K.LINE_CO_TRAIN_SNR n) = ((s.trainSnr n).1 % 2 ^ 16).toNat := by
  have hlt : zx 16 (s.trainSnr n).1 < 2 ^ 16 := by
    unfold zx
    omega
  refine (State.rd_wr_self _ _ _).trans ?_
  exact Nat.mod_eq_of_lt hlt

theorem searchMeasured_baseline (h : (s.co n).txeq = .baseline) : ∃ taps, s.searchMeasured n =
    (((measured s n).wr (K.LINE_CO_TXEQ_STEPS n) 0).modCo n fun c =>
      { c with best := (s.trainSnr n).1, eqJ := 0, eqStep := 1, tTaps := taps }).searchNext n 3 := by
  unfold State.searchMeasured
  dsimp only
  rw [(trainSnr_stands s n).1, h]
  exact ⟨_, rfl⟩

theorem searchMeasured_settle (h : (s.co n).txeq = .settle) : s.searchMeasured n =
    if (s.trainSnr n).1 < (s.co n).best + 5 then ((measured s n).modCo n fun c => { c with txeq := .backAck }).sendTxeq n (s.co n).tTaps
    else (((measured s n).incSat (K.LINE_CO_TXEQ_STEPS n)).modCo n fun c =>
      { c with tTaps := c.uTaps, best := (s.trainSnr n).1, eqStep := c.eqStep + 1 }).searchNext n 3 := by
  unfold State.searchMeasured
  dsimp only
  rw [(trainSnr_stands s n).1, h]
  rfl

theorem searchMeasured_other (h1 : (s.co n).txeq ≠ .baseline) (h2 : (s.co n).txeq ≠ .settle) : s.searchMeasured n = s := by
  unfold State.searchMeasured
  dsimp only
  rw [(trainSnr_stands s n).1]
  split
  next h => exact absurd h h1
  next h => exact absurd h h2
  · rfl

theorem searchMeasured_does (s : State) (n : Fin 16) :
    ((s.co n).txeq = .baseline ∨ (s.co n).txeq = .settle →
      (s.searchMeasured n).rd (K.LINE_CO_TRAIN_SNR n) = ((s.trainSnr n).1 % 2 ^ 16).toNat) ∧
    ((s.co n).txeq ≠ .baseline → (s.co n).txeq ≠ .settle → s.searchMeasured n = s) ∧
    ((s.co n).txeq = .baseline → ((s.searchMeasured n).co n).best = (s.trainSnr n).1 ∧
      (s.searchMeasured n).rd (K.LINE_CO_TXEQ_STEPS n) = 0) ∧
    ((s.co n).txeq = .settle → (s.trainSnr n).1 < (s.co n).best + 5 → ((s.searchMeasured n).co n).txeq = .backAck) ∧
    ((s.co n).txeq = .settle → (s.co n).best + 5 ≤ (s.trainSnr n).1 →
      ((s.searchMeasured n).co n).best = (s.trainSnr n).1 ∧ CountsUp s (s.searchMeasured n) (K.LINE_CO_TXEQ_STEPS n) 1) := by
  refine ⟨fun h => ?_, searchMeasured_other, fun h => ?_, fun h hlow => ?_, fun h hhigh => ?_⟩
  · obtain h | h := h
    · obtain ⟨taps, heq⟩ := searchMeasured_baseline h
      rw [heq, (State.searchNext_stands n 3 _).1, State.modCo_rd, State.rd_wr_ne _ _ (by simp), measured_snr]
    · rw [searchMeasured_settle h]
      split
      · rw [State.rd_sendTxeq, State.modCo_rd, measured_snr]
      · rw [(State.searchNext_stands n 3 _).1, State.modCo_rd, State.rd_incSat, if_neg (by simp), measured_snr]
  · obtain ⟨taps, heq⟩ := searchMeasured_baseline h
    rw [heq, (State.searchNext_stands n 3 _).1, (State.searchNext_stands n 3 _).2.1, State.co_modCo, State.modCo_rd, State.rd_wr_self]
    exact ⟨rfl, Nat.zero_mod _⟩
  · obtain ⟨body, hco⟩ := State.co_sendTxeq ((measured s n).modCo n fun c => { c with txeq := .backAck }) n (s.co n).tTaps
    rw [searchMeasured_settle h, if_pos hlow, hco, CoS.queued_txeq, State.co_modCo]
  · rw [searchMeasured_settle h, if_neg (by omega), (State.searchNext_stands n 3 _).2.1, State.co_modCo, CountsUp,
      (State.searchNext_stands n 3 _).1, State.modCo_rd, State.rd_incSat, if_pos rfl, measured_rd_ne (by simp)]
    exact ⟨rfl, rfl⟩

/-! ## `LINE_CO_CLEAR` (R225) -/

theorem lineCoClear_does (h : s.accepts r (K.LINE_CO_CLEAR n) (be 1 1) = true) : Runs (.lineCoClear r n 1) s fun t =>
    (∀ i, 1 ≤ i → i ≤ 26 → t.rd ⟨.line n, 0x2E, i⟩ = resetOf ⟨.line n, 0x2E, i⟩) ∧ t.lanes = s.lanes ∧
    Changes ((List.range 26).map fun i => ⟨.line n, 0x2E, i + 1⟩) s t := by
  refine runs_write (eff := effCoClear n 1) (exec_lineCoClear s r n 1) h fun z t hz hrd hlanes => ?_
  have hclear : effCoClear n 1 z = z.clrAll ((List.range 26).map fun i => ⟨.line n, 0x2E, i + 1⟩) := if_pos rfl
  rw [hclear] at hrd hlanes
  refine ⟨fun i h1 h26 => ?_, ?_, ?_⟩
  · rw [hrd, State.rd_clrAll, if_pos]
    exact List.mem_map.mpr ⟨i - 1, List.mem_range.mpr (by omega), by rw [Nat.sub_add_cancel h1]⟩
  · obtain ⟨-, hkept, -⟩ := State.clrAll_frame z ((List.range 26).map fun i => ⟨.line n, 0x2E, i + 1⟩)
    exact hlanes.trans (hkept.trans hz.lanes)
  · rw [changes_iff]
    intro k hk hout
    rw [hrd, State.rd_clrAll, if_neg hout, hz.rd k hk]

/-- Settles O29, command by command. -/
theorem castOnCommands : Obligations.CastOnCommands := by
  unfold Obligations.CastOnCommands
  refine ⟨fun s r n => lineAdminUp_does, fun s r n => lineAdminDown_does, fun s r n => coRestart_does, fun s r n => coBindOff_does,
    fun s r n => txeqGoSend_does, fun s r n => txeqGoEnd_does, fun s r n v => txeqGo_idle, fun s n snr h4 hsnr => ?_, fun s n h4 => ?_,
    fun s r n => lineCoClear_does⟩
  · have hvalue : snr = (s.trainSnr n).1 := hsnr
    rw [hvalue]
    exact ⟨_, exec_txeqSearchMeasure s n, s.searchMeasured n, if_pos h4, searchMeasured_does s n⟩
  · exact ⟨_, exec_txeqSearchMeasure s n, if_neg h4⟩

end Sys2Proof.Machine
end

section
/-!
SUPPORT. Reception (R188 to R192): what the ACK and the PHASE of a packet lead to, and what becomes of a packet whose type counts.
-/

namespace Sys2Proof.Machine

namespace State

variable {s : State} {n : Fin 16}

/-! ## Contradiction and agreement (R203 to R205) -/

theorem contradict_binding (h : s.binding n = true) (num : Nat) : s.contradict n num =
    (s.incSat (K.LINE_CO_CONTRADICT n)).sendReject n num 6 (s.rd (K.LINE_CO_AGR n)) := if_pos h

theorem contradict_free (h : s.binding n = false) (num : Nat) : s.contradict n num =
    ((s.incSat (K.LINE_CO_CONTRADICT n)).sendReject n num 6 (s.rd (K.LINE_CO_AGR n))).enterC3 n false := if_neg (by simp [h])

/-- A contradiction is counted; the lane goes to C3 with no agreement, unless it binds off. -/
theorem contradict_does (s : State) (n : Fin 16) (num : Nat) : CountsUp s (s.contradict n num) (K.LINE_CO_CONTRADICT n) 1 ∧
    (s.binding n = true → (s.contradict n num).phase n = s.phase n) ∧
    (s.binding n = false → (s.contradict n num).phase n = 3 ∧ (s.contradict n num).rd (K.LINE_CO_AGR n) = 0) := by
  have hcount : CountsUp s ((s.incSat (K.LINE_CO_CONTRADICT n)).sendReject n num 6 (s.rd (K.LINE_CO_AGR n))) (K.LINE_CO_CONTRADICT n) 1 := by
    rw [CountsUp, rd_sendReject]
    exact countsUp_incSat s _
  refine ⟨?_, fun h => ?_, fun h => ?_⟩
  · cases h : s.binding n with
    | true => rw [contradict_binding h]; exact hcount
    | false =>
      rw [contradict_free h, CountsUp, (enterC3_leaves _ n false).rd rfl fun _ => rfl]
      exact hcount
  · rw [contradict_binding h, phase, rd_sendReject, rd_incSat, if_neg (by simp)]
    rfl
  · rw [contradict_free h]
    exact ⟨enterC3_phase _ n false, enterC3_agr _ n false⟩

theorem contradict_leaves (s : State) (n : Fin 16) (num : Nat) : Leaves talkBits s (s.contradict n num) := by
  have hcount : Leaves talkBits s ((s.incSat (K.LINE_CO_CONTRADICT n)).sendReject n num 6 (s.rd (K.LINE_CO_AGR n))) :=
    ((Leaves.refl _ s).incSat fun _ => rfl).trans (.of_rd (rd_sendReject _ n _ _ _))
  unfold contradict
  exact .ite _ hcount (hcount.trans ((enterC3_leaves _ n false).mono fun _ _ => talkBits_phase))

/-- The terms of an agreement, before the entry to C4. -/
def termsTaken (s : State) (n : Fin 16) (p : Proposal) (own : Bool) : State :=
  ((((s.wr (K.LINE_CO_AGR n) p.num).setFormat n p.format).setCoFlag n 3 (p.time.testBit 0)).setCoFlag n 2 own).modCo n fun c =>
    { c with precOwn := if own then p.precode.testBit 0 else p.precode.testBit 1
             precFar := if own then p.precode.testBit 1 else p.precode.testBit 0
             prop := none, accepted := none, rejected := none }

theorem agreeTake_eq (s : State) (n : Fin 16) (p : Proposal) (own : Bool) : s.agreeTake n p own = (s.termsTaken n p own).enterC4 n false := rfl

theorem talkBits_high (n : Fin 16) (j : Nat) (h : 16 ≤ j) : talkBits (K.LINE_CO_FLAGS n) j = true := by
  have h7 : j ≠ 7 := by omega
  simp [talkBits, h7]

theorem termsTaken_leaves (s : State) (n : Fin 16) (p : Proposal) (own : Bool) : Leaves talkBits s (s.termsTaken n p own) := by
  have hagr : Leaves talkBits s (s.wr (K.LINE_CO_AGR n) p.num) := (Leaves.refl _ s).wr _ fun _ => rfl
  have hformat := hagr.trans (setFormat_leaves _ n p.format fun _ => rfl)
  exact ((hformat.flag n 3 _ rfl (talkBits_high n)).flag n 2 own rfl (talkBits_high n)).modCo n _

theorem agreeTake_leaves (s : State) (n : Fin 16) (p : Proposal) (own : Bool) : Leaves talkBits s (s.agreeTake n p own) := by
  rw [agreeTake_eq]
  exact (termsTaken_leaves s n p own).trans ((enterC4_leaves _ n false).mono fun _ _ => talkBits_phase)

theorem agree_leaves (s : State) (n : Fin 16) (p : Proposal) (own : Bool) : Leaves talkBits s (s.agree n p own) := by
  unfold agree
  refine .ite _ (agreeTake_leaves s n p own) (.ite _ ?_ (contradict_leaves s n _))
  exact (Leaves.forAll (fun m z => contradict_leaves z m _) _ (.refl _ s)).trans (agreeTake_leaves _ n p own)

/-! ## The flag of silence after an ACK -/

theorem ackedMsg_flag (h : s.coFlag n 7 = false) (m : Msg) : (s.ackedMsg n m).coFlag n 7 = false := by
  unfold ackedMsg
  split
  · dsimp only
    split
    · exact h
    · exact h
  · split
    · split
      · exact ((agree_leaves s n _ false).coFlag n rfl).trans h
      · exact h
    · exact h
  · split
    · exact h
    · exact h
  · cases hbind : (s.co n).bind with
    | none => rwa [bindDone_of_none hbind]
    | some reason =>
      rw [bindDone_of_bind hbind, coFlag, bit, toC0_flags]
      exact Nat.zero_testBit 7
  · exact h

theorem applyAck_flag (h : s.coFlag n 7 = false) (a : Nat) : (s.applyAck n a).coFlag n 7 = false := by
  have hcount : (s.incSat (K.LINE_CO_BAD_ACK n)).coFlag n 7 = false :=
    (bit_of_rd (t := s.incSat (K.LINE_CO_BAD_ACK n)) (rd_wr_ne _ _ (by simp)) 7).trans h
  unfold applyAck
  dsimp only
  split
  · exact h
  · split
    · split
      · exact hcount
      · exact h
    · refine forAll_induct (P := fun z => z.coFlag n 7 = false) (fun m z hz => ackedMsg_flag hz m) _ ?_
      exact (bit_of_rd (coPump_rd _ n 4 rfl) 7).trans h

/-! ## PHASE and the end of silence through the progress -/

/-- The partner's PHASE is recorded and silence is over, unless the lane is in C0. -/
def PeerNoted (n : Fin 16) (p : Nat) (z : State) : Prop := z.phase n = 0 ∨ (z.rd (K.LINE_CO_PEER_PHASE n) = p ∧ z.coFlag n 7 = false)

variable {p : Nat}

theorem PeerNoted.of_leaves {t : State} (hs : s.rd (K.LINE_CO_PEER_PHASE n) = p ∧ s.coFlag n 7 = false) (h : Leaves talkBits s t) :
    t.rd (K.LINE_CO_PEER_PHASE n) = p ∧ t.coFlag n 7 = false :=
  ⟨(h.rd rfl fun _ => rfl).trans hs.1, (h.coFlag n rfl).trans hs.2⟩

theorem coRestart_peerNoted {cause : Nat} (hs : s.rd (K.LINE_CO_PEER_PHASE n) = p ∧ s.coFlag n 7 = false) :
    PeerNoted n p (s.coRestart n cause) := by
  cases hbind : (s.co n).bind with
  | some reason =>
    rw [coRestart_of_bind hbind]
    exact .inl (toC0_phase _ n _)
  | none =>
    rw [coRestart_of_none hbind]
    refine .inr ⟨?_, ?_⟩
    · rw [restartBase_rd s n cause rfl fun _ => rfl, newSession, rd_wr_ne _ _ (by simp)]
      refine ((restartNoted_rd s n cause rfl).trans ?_).trans hs.1
      rw [if_neg (by simp), if_neg (by simp)]
    · rw [coFlag, bit, restartBase, modCo_rd, enterC1_flags]
      exact Nat.zero_testBit 7

theorem advanceOnce_of_c0 (h : s.phase n = 0) : s.advanceOnce n = s := by
  obtain heq | ⟨-, ⟨h2, -⟩ | ⟨hwork, -⟩⟩ := advanceOnce_cases s n
  · exact heq
  · omega
  · have hwhere := workDone_phase hwork
    omega

theorem PeerNoted.coAdvance (h : PeerNoted n p s) : PeerNoted n p (s.coAdvance n) := by
  refine coAdvance_induct (P := PeerNoted n p) (fun z hz => ?_) (fun z hz => ?_) h
  · have hrd := policyStart_rd z n
    have hphase : (z.policyStart n).phase n = z.phase n := hrd _
    have hflag : (z.policyStart n).coFlag n 7 = z.coFlag n 7 := bit_of_rd (hrd _) 7
    unfold PeerNoted
    rwa [hphase, hrd, hflag]
  · obtain h0 | hnoted := hz
    · rw [advanceOnce_of_c0 h0]
      exact .inl h0
    · obtain hleaves | ⟨y, hy, heq⟩ := advanceOnce_leaves z n
      · exact .inr (PeerNoted.of_leaves hnoted hleaves)
      · rw [heq]
        exact coRestart_peerNoted (PeerNoted.of_leaves hnoted hy)

/-! ## What the head of a packet leads to -/

/-- The ACK and the PHASE of a packet are taken. -/
def headTaken (s : State) (n : Fin 16) (h : MsgHead) : State :=
  let s3 := ((s.setCoFlag n 7 false).applyAck n h.ack.toNat).wr (K.LINE_CO_PEER_PHASE n) h.phase.toNat
  if s3.phase n = 4 && (s3.co n).needReacq && 4 ≤ h.phase.toNat then
    (s3.acqStart n !(s3.lane n).warm).modCo n fun c => { c with needReacq := false } else s3

theorem headTaken_noted (s : State) (n : Fin 16) (h : MsgHead) :
    (s.headTaken n h).rd (K.LINE_CO_PEER_PHASE n) = h.phase.toNat ∧ (s.headTaken n h).coFlag n 7 = false := by
  have hflag : ((s.setCoFlag n 7 false).applyAck n h.ack.toNat).coFlag n 7 = false :=
    applyAck_flag (coFlag_setCoFlag_self s n (by decide) false) _
  have htaken : ∀ z : State, z.coFlag n 7 = false → (z.wr (K.LINE_CO_PEER_PHASE n) h.phase.toNat).rd (K.LINE_CO_PEER_PHASE n) = h.phase.toNat ∧
      (z.wr (K.LINE_CO_PEER_PHASE n) h.phase.toNat).coFlag n 7 = false := fun z hz => by
    refine ⟨?_, (bit_of_rd (rd_wr_ne _ _ (by simp)) 7).trans hz⟩
    rw [rd_wr_self]
    exact Nat.mod_eq_of_lt (show h.phase.toNat < 256 by omega)
  have hboth := htaken _ hflag
  unfold headTaken
  dsimp only
  split
  · have haside := acqStart_aside (((s.setCoFlag n 7 false).applyAck n h.ack.toNat).wr (K.LINE_CO_PEER_PHASE n) h.phase.toNat) n
      !((((s.setCoFlag n 7 false).applyAck n h.ack.toNat).wr (K.LINE_CO_PEER_PHASE n) h.phase.toNat).lane n).warm
    exact ⟨(haside.rd _ rfl).trans hboth.1, (haside.coFlag n 7).trans hboth.2⟩
  · exact hboth

/-- The head of a packet of the conversation under way. -/
theorem recvHead_same {h : MsgHead} (h2 : 2 ≤ s.phase n) (hses : h.session.toNat ≠ 0) (hpeer : h.session.toNat = s.rd (K.LINE_CO_PEER_SESSION n))
    (htype : (s.recvHead n h).2.2 = true) : s.recvHead n h = ((s.headTaken n h).coAdvance n, false, true) := by
  revert htype
  have hnew : (!(s.phase n == 1) && s.rd (K.LINE_CO_PEER_SESSION n) != 0 && h.session.toNat != s.rd (K.LINE_CO_PEER_SESSION n)) = false := by
    simp [hpeer]
  have hfresh : (s.phase n == 1) = false := by simp; omega
  have hpeer0 : ¬ s.rd (K.LINE_CO_PEER_SESSION n) = 0 := by omega
  have hc1 : ¬ (decide (s.phase n = 1) && !s.leavesC1 n) = true := by
    rw [decide_eq_false (by omega)]
    simp
  unfold recvHead
  dsimp only
  rw [if_neg (by omega), hnew, hfresh, if_neg hc1, if_neg Bool.false_ne_true, if_neg Bool.false_ne_true, if_neg hpeer0]
  split
  · intro hfalse
    exact absurd hfalse (by simp)
  · split
    · intro hfalse
      exact absurd hfalse (by simp)
    · intro _
      rfl

/-! ## A packet whose type counts -/

/-- What is known of a packet whose type counts. -/
theorem heard_iff {typ : Nat} {h : MsgHead} (hheard : s.heard n typ h = true) : s.recvHead n h = (s.judged n h, false, true) ∧
    judge typ ((s.judged n h).phase n) = .valid ∧ (sequenced typ = true → h.seq.toNat = ((s.judged n h).co n).e) ∧
    s.judged n h = (s.headTaken n h).coAdvance n := by
  simp only [heard, Bool.and_eq_true, decide_eq_true_eq, bne_iff_ne, beq_iff_eq, Bool.or_eq_true, Bool.not_eq_true'] at hheard
  obtain ⟨⟨⟨⟨⟨h2, hses⟩, hpeer⟩, htype⟩, hvalid⟩, hseq⟩ := hheard
  have heq := recvHead_same h2 hses hpeer htype
  have hjudged : s.judged n h = (s.headTaken n h).coAdvance n := by rw [judged, heq]
  refine ⟨by rw [heq, hjudged], hvalid, fun hs => ?_, hjudged⟩
  obtain hnot | hseq := hseq
  · exact Bool.noConfusion (hnot.symm.trans hs)
  · exact hseq

/-- The phases that accept a type. -/
theorem judge_valid {typ lo hi q : Nat} (hin : acceptedIn typ = some (lo, hi)) (h : judge typ q = .valid) : lo ≤ q ∧ q ≤ hi := by
  unfold judge at h
  rw [hin] at h
  dsimp only at h
  split at h
  · exact absurd h (by decide)
  · split at h
    · exact absurd h (by decide)
    · omega

theorem heard_phase {typ lo hi : Nat} {h : MsgHead} (hin : acceptedIn typ = some (lo, hi)) (hheard : s.heard n typ h = true) :
    lo ≤ (s.judged n h).phase n ∧ (s.judged n h).phase n ≤ hi := judge_valid hin (heard_iff hheard).2.1

/-- A packet that counts has its PHASE recorded and ends silence. -/
theorem heard_noted {typ lo hi : Nat} {h : MsgHead} (hin : acceptedIn typ = some (lo, hi)) (hlo : 1 ≤ lo) (hheard : s.heard n typ h = true) :
    (s.judged n h).rd (K.LINE_CO_PEER_PHASE n) = h.phase.toNat ∧ (s.judged n h).coFlag n 7 = false := by
  obtain ⟨hphase, -⟩ := heard_phase hin hheard
  obtain ⟨-, -, -, hjudged⟩ := heard_iff hheard
  have hnoted : PeerNoted n h.phase.toNat (s.judged n h) := by
    rw [hjudged]
    exact PeerNoted.coAdvance (.inr (headTaken_noted s n h))
  obtain h0 | hboth := hnoted
  · omega
  · exact hboth

/-- The next sequenced message is taken: expected is the one after it, and an acknowledgement is owed. -/
def inOrder (s : State) (n : Fin 16) : State :=
  (s.modCo n fun c => { c with oow := 0 }).modCo n fun c => { c with e := (c.e + 1) % 256, owe := true }

theorem inOrder_co (s : State) (n : Fin 16) : (s.inOrder n).co n = { s.co n with oow := 0, e := ((s.co n).e + 1) % 256, owe := true } := by
  rw [inOrder, co_modCo, co_modCo]

theorem inOrder_rd (s : State) (n : Fin 16) (k : Key) : (s.inOrder n).rd k = s.rd k := rfl

/-- A sequenced packet that counts: its body acts, and the lane's own progress follows. -/
theorem recv_heard {typ : Nat} {h : MsgHead} (hseq : sequenced typ = true) (hheard : s.heard n typ h = true) (body0 : Nat)
    (body : State → State) : s.recv n typ h body0 body = (body ((s.judged n h).inOrder n)).coSettle n := by
  obtain ⟨hhead, hvalid, hnext, -⟩ := heard_iff hheard
  have hd : (h.seq.toNat + 256 - ((s.judged n h).co n).e) % 256 = 0 := by
    rw [hnext hseq]
    omega
  have hbody : (s.judged n h).recvSequenced n typ h.seq.toNat body0 body = body ((s.judged n h).inOrder n) := by
    unfold recvSequenced
    dsimp only
    rw [hd, if_neg (by decide), if_neg (by decide), if_neg (by decide)]
    have hphase : ((s.judged n h).modCo n fun c =>
        { c with oow := if (decide (0 ≤ 3) || decide (252 ≤ 0)) = true then 0 else c.oow + 1 }).phase n =
        (s.judged n h).phase n := rfl
    rw [hphase, hvalid]
    rfl
  unfold recv
  dsimp only
  rw [hhead, if_neg (by simp), if_pos hseq, hbody, if_neg (by simp)]

/-- An unsequenced packet that counts. -/
theorem recv_heard_plain {typ : Nat} {h : MsgHead} (hseq : sequenced typ = false) (hheard : s.heard n typ h = true) (body0 : Nat)
    (body : State → State) : s.recv n typ h body0 body = (body (s.judged n h)).coSettle n := by
  obtain ⟨hhead, hvalid, -, -⟩ := heard_iff hheard
  unfold recv
  dsimp only
  rw [hhead, if_neg (by simp), hseq, if_neg (by simp), hvalid]
  dsimp only
  rw [if_neg (by simp)]

end State

end Sys2Proof.Machine
end

section
/-!
SUPPORT. What the body of each message does (R197 to R210, R214 to R222).
-/

namespace Sys2Proof.Machine

namespace State

variable {s : State} {n : Fin 16}

/-! ## CAP (R197 to R199) -/

theorem c3Start_cap (s : State) (n : Fin 16) : ((s.c3Start n).co n).cap = (s.co n).cap := by
  have hpropose : ∀ a, (((s.setCoFlag n 9 false).propose n a).co n).cap = (s.co n).cap := fun a => by
    obtain ⟨body, hco⟩ := co_propose (s.setCoFlag n 9 false) n a
    rw [hco, CoS.queued_cap, co_setCoFlag]
  have hite : ∀ (b : Bool) (a : Agreed), ((if b then (s.setCoFlag n 9 false).propose n a else s.setCoFlag n 9 false).co n).cap = (s.co n).cap :=
    fun b a => by
      split
      · exact hpropose a
      · rfl
  unfold c3Start
  split
  · rfl
  · dsimp only
    split
    · rfl
    · split
      · exact hpropose _
      · exact hite _ _
      · rfl

/-- The CAP kept, and whose it is. -/
def capKept (s : State) (n : Fin 16) (c : Cap) : State := (s.modCo n fun x => { x with cap := some c }).wr (K.LINE_CO_PEER_ID n) c.uid

theorem capKept_flag (s : State) (n : Fin 16) (c : Cap) (i : Nat) : (s.capKept n c).coFlag n i = s.coFlag n i :=
  bit_of_rd (rd_wr_ne _ _ (by simp)) i

theorem capKept_rd_ne (s : State) (n : Fin 16) (c : Cap) {k : Key} (hk : k ≠ K.LINE_CO_PEER_ID n) : (s.capKept n c).rd k = s.rd k :=
  rd_wr_ne _ _ hk

/-- The device's own CAP: LOOPBACK, counted where it was not shown. -/
theorem capBody_own {c : Cap} (h : c.uid = uid) : s.capBody n c =
    (if s.coFlag n 8 then s.capKept n c else (s.capKept n c).incSat (K.LINE_CO_LOOPBACK n)).setCoFlag n 8 true := if_pos h

/-- A partner's CAP: no LOOPBACK; in C3 the agreement may be computed again. -/
theorem capBody_partner {c : Cap} (h : c.uid ≠ uid) : ∃ z, (s.capBody n c = z ∨ s.capBody n c = z.c3Start n) ∧
    (z.co n).cap = some c ∧ ∀ k, z.rd k = ((s.capKept n c).setCoFlag n 8 false).rd k := by
  have hcap : ((s.capKept n c).co n).cap = some c := by rw [capKept, co_wr, co_modCo]
  have heq : s.capBody n c = if ((s.capKept n c).setCoFlag n 8 false).phase n = 3 && (((s.capKept n c).setCoFlag n 8 false).coFlag n 9 ||
      (((s.capKept n c).setCoFlag n 8 false).co n).rejected.isSome || (((s.capKept n c).setCoFlag n 8 false).agreement n).isNone) then
        (((s.capKept n c).setCoFlag n 8 false).modCo n fun x => { x with rejected := none }).c3Start n
      else (s.capKept n c).setCoFlag n 8 false := if_neg h
  rw [heq]
  split
  · exact ⟨_, .inr rfl, by rw [co_modCo]; exact hcap, fun _ => rfl⟩
  · exact ⟨_, .inl rfl, hcap, fun _ => rfl⟩

theorem coFlag_setCoFlag_ne (s : State) (n : Fin 16) {i j : Nat} (hi : i < 16) (hne : i ≠ j) (b : Bool) :
    (s.setCoFlag n j b).coFlag n i = s.coFlag n i := by
  rw [coFlag, setCoFlag, bit_wrBit, if_pos rfl, if_neg hne, decide_eq_true (show i < bitsOf (K.LINE_CO_FLAGS n) from hi), Bool.true_and]
  rfl

theorem rd_setCoFlag_ne (s : State) (n : Fin 16) (j : Nat) (b : Bool) {k : Key} (hk : k ≠ K.LINE_CO_FLAGS n) :
    (s.setCoFlag n j b).rd k = s.rd k := rd_wrBit_ne s j b hk

/-- What a CAP does in C2 and C3. -/
theorem capBody_does (s : State) (n : Fin 16) (c : Cap) (huid : c.uid < 2 ^ 64) :
    (s.capBody n c).rd (K.LINE_CO_PEER_PHASE n) = s.rd (K.LINE_CO_PEER_PHASE n) ∧ (s.capBody n c).rd (K.LINE_CO_PEER_ID n) = c.uid ∧
    ((s.capBody n c).co n).cap = some c ∧ (s.capBody n c).coFlag n 7 = s.coFlag n 7 ∧ (s.capBody n c).coFlag n 8 = (c.uid == uid) ∧
    (c.uid = uid → s.coFlag n 8 = false → CountsUp s (s.capBody n c) (K.LINE_CO_LOOPBACK n) 1) ∧ (s.capBody n c).phase n = s.phase n := by
  have hid : (s.capKept n c).rd (K.LINE_CO_PEER_ID n) = c.uid := (rd_wr_self _ _ _).trans (Nat.mod_eq_of_lt huid)
  by_cases hown : c.uid = uid
  · have hcap : ((s.capKept n c).co n).cap = some c := by rw [capKept, co_wr, co_modCo]
    have hcounted : ∀ k, k ≠ K.LINE_CO_LOOPBACK n →
        (if s.coFlag n 8 then s.capKept n c else (s.capKept n c).incSat (K.LINE_CO_LOOPBACK n)).rd k = (s.capKept n c).rd k := fun k hk => by
      split
      · rfl
      · rw [rd_incSat, if_neg hk]
    rw [capBody_own hown]
    refine ⟨?_, ?_, ?_, ?_, ?_, fun _ h8 => ?_, ?_⟩
    · rw [rd_setCoFlag_ne _ _ _ _ (by simp), hcounted _ (by simp), capKept_rd_ne _ _ _ (by simp)]
    · rw [rd_setCoFlag_ne _ _ _ _ (by simp), hcounted _ (by simp), hid]
    · rw [co_setCoFlag]
      split
      · exact hcap
      · exact hcap
    · rw [coFlag_setCoFlag_ne _ _ (by decide) (by decide), coFlag, bit_of_rd (hcounted _ (by simp)) 7]
      exact capKept_flag s n c 7
    · rw [coFlag_setCoFlag_self _ _ (by decide), hown, beq_self_eq_true]
    · rw [CountsUp, rd_setCoFlag_ne _ _ _ _ (by simp), h8, if_neg (by simp), rd_incSat, if_pos rfl, capKept_rd_ne _ _ _ (by simp)]
    · rw [phase, rd_setCoFlag_ne _ _ _ _ (by simp), hcounted _ (by simp), capKept_rd_ne _ _ _ (by simp)]
      rfl
  · obtain ⟨z, heq, hcap, hrd⟩ := capBody_partner (s := s) (n := n) hown
    have hleaves : Leaves (turnBits false) z (s.capBody n c) := by
      obtain heq | heq := heq
      · rw [heq]; exact .refl _ z
      · rw [heq]; exact c3Start_leaves z n
    have hcap' : ((s.capBody n c).co n).cap = some c := by
      obtain heq | heq := heq
      · rw [heq, hcap]
      · rw [heq, c3Start_cap, hcap]
    refine ⟨?_, ?_, hcap', ?_, ?_, fun h => absurd h hown, ?_⟩
    · rw [hleaves.rd rfl fun _ => rfl, hrd, rd_setCoFlag_ne _ _ _ _ (by simp), capKept_rd_ne _ _ _ (by simp)]
    · rw [hleaves.rd rfl fun _ => rfl, hrd, rd_setCoFlag_ne _ _ _ _ (by simp), hid]
    · rw [hleaves.coFlag n rfl, coFlag, bit_of_rd (hrd _) 7]
      exact (coFlag_setCoFlag_ne _ _ (by decide) (by decide) _).trans (capKept_flag s n c 7)
    · rw [hleaves.coFlag n rfl, coFlag, bit_of_rd (hrd _) 8, beq_eq_false_iff_ne.mpr hown]
      exact coFlag_setCoFlag_self _ _ (by decide) _
    · rw [phase, hleaves.rd rfl fun _ => rfl, hrd, rd_setCoFlag_ne _ _ _ _ (by simp), capKept_rd_ne _ _ _ (by simp)]
      rfl

/-! ## PROPOSE (R201, R202, R207) -/

/-- The answer to a PROPOSE. -/
def answerProposal (s : State) (n : Fin 16) (p : Proposal) : State :=
  match s.rejectReason n p with
  | none => (s.modCo n fun c => { c with accepted := some p }).sendSeq n 0x03 (be 1 p.num ++ be 1 p.format ++ be 1 p.precode ++ be 1 p.time)
  | some (r, d) => (s.incSat (K.LINE_CO_REJECT_TX n)).sendReject n p.num r d

theorem answer_accepts {p : Proposal} (h : s.rejectReason n p = none) :
    ((s.answerProposal n p).co n).accepted = some p ∧ ((s.answerProposal n p).co n).prop = (s.co n).prop ∧
    ((s.answerProposal n p).co n).heardPropose = (s.co n).heardPropose ∧ ∀ k, (s.answerProposal n p).rd k = s.rd k := by
  have heq : s.answerProposal n p = (s.modCo n fun c => { c with accepted := some p }).sendSeq n 0x03
      (be 1 p.num ++ be 1 p.format ++ be 1 p.precode ++ be 1 p.time) := by rw [answerProposal, h]
  have hco := (congrArg (State.co · n) heq).trans (co_sendSeq _ _ _ _)
  rw [co_modCo] at hco
  refine ⟨by rw [hco, CoS.queued_accepted], by rw [hco, CoS.queued_prop], by rw [hco, CoS.queued_heardPropose], fun k => ?_⟩
  rw [heq, rd_sendSeq _ _ _ _ (by decide), modCo_rd]

theorem answer_rejects {p : Proposal} (h : s.rejectReason n p ≠ none) : CountsUp s (s.answerProposal n p) (K.LINE_CO_REJECT_TX n) 1 ∧
    ((s.answerProposal n p).co n).prop = (s.co n).prop ∧ ((s.answerProposal n p).co n).heardPropose = (s.co n).heardPropose ∧
    ∀ k, k ≠ K.LINE_CO_REJECT_TX n → (s.answerProposal n p).rd k = s.rd k := by
  obtain ⟨⟨reason, detail⟩, hreason⟩ := Option.ne_none_iff_exists'.mp h
  have heq : s.answerProposal n p = (s.incSat (K.LINE_CO_REJECT_TX n)).sendReject n p.num reason detail := by rw [answerProposal, hreason]
  have hco : (s.answerProposal n p).co n = (s.co n).queued 0x04 (be 1 p.num ++ be 1 reason ++ be 1 detail) := by
    rw [heq, sendReject, co_sendSeq, co_incSat]
  refine ⟨?_, by rw [hco, CoS.queued_prop], by rw [hco, CoS.queued_heardPropose], fun k hk => ?_⟩
  · rw [CountsUp, heq, rd_sendReject, rd_incSat, if_pos rfl]
  · rw [heq, rd_sendReject, rd_incSat, if_neg hk]

/-- Whichever the answer: another counter than that of REJECTs, and every other entry, stands. -/
theorem answer_stands (s : State) (n : Fin 16) (p : Proposal) : ((s.answerProposal n p).co n).prop = (s.co n).prop ∧
    ((s.answerProposal n p).co n).heardPropose = (s.co n).heardPropose ∧
    ∀ k, k ≠ K.LINE_CO_REJECT_TX n → (s.answerProposal n p).rd k = s.rd k := by
  by_cases h : s.rejectReason n p = none
  · obtain ⟨-, hprop, hheard, hrd⟩ := answer_accepts h
    exact ⟨hprop, hheard, fun k _ => hrd k⟩
  · exact (answer_rejects h).2

/-- A lane in C4 and above goes back to C3 for a PROPOSE, unless it binds off (R207). -/
def proposeHeard (s : State) (n : Fin 16) : State :=
  (if 4 ≤ s.phase n && !s.binding n then s.enterC3 n true else s).modCo n fun c => { c with heardPropose := true }

theorem proposeBody_of_none {p : Proposal} (h : ((s.proposeHeard n).co n).prop = none) :
    s.proposeBody n p = (s.proposeHeard n).answerProposal n p := by
  unfold proposeBody
  dsimp only
  change (match ((s.proposeHeard n).co n).prop with | some _ => _ | none => _) = _
  rw [h]
  rfl

theorem proposeBody_of_some {p : Proposal} (h : ((s.proposeHeard n).co n).prop ≠ none) : s.proposeBody n p =
    if (s.proposeHeard n).idHigher n then s.proposeHeard n
    else (((s.proposeHeard n).modCo n fun c => { c with prop := none }).incSat (K.LINE_CO_TIE_YIELD n)).answerProposal n p := by
  obtain ⟨q, hq⟩ := Option.ne_none_iff_exists'.mp h
  unfold proposeBody
  dsimp only
  change (match ((s.proposeHeard n).co n).prop with | some _ => _ | none => _) = _
  rw [hq]
  rfl

end State

end Sys2Proof.Machine
end

section
/-!
SUPPORT. What the bodies of PROPOSE, ACCEPT, REJECT, the TXEQ messages, STATUS, READY and BIND come to.
-/

namespace Sys2Proof.Machine

namespace State

variable {s : State} {n : Fin 16}

/-! ## PROPOSE -/

theorem rejectReason_congr {t : State} (hown : (t.co n).ownCap = (s.co n).ownCap) (hcap : (t.co n).cap = (s.co n).cap)
    (hpg : t.pg (pgOf n) = s.pg (pgOf n)) (p : Proposal) : t.rejectReason n p = s.rejectReason n p := by
  unfold rejectReason
  rw [hown, hcap, hpg]

/-- A lane in C3, or one that binds off, keeps its phase at a PROPOSE. -/
theorem proposeHeard_stays (h : s.phase n = 3 ∨ s.binding n = true) :
    s.proposeHeard n = s.modCo n fun c => { c with heardPropose := true } := by
  have hnot : ¬ (decide (4 ≤ s.phase n) && !s.binding n) = true := by
    obtain h | h := h
    · simp [h]
    · simp [h]
  rw [proposeHeard, if_neg hnot]

theorem proposeHeard_phase (h3 : 3 ≤ s.phase n) (h : s.binding n = false) : (s.proposeHeard n).phase n = 3 := by
  by_cases h4 : s.phase n = 3
  · rw [proposeHeard_stays (.inl h4)]
    exact h4
  · rw [proposeHeard, if_pos (by simp [h]; omega), phase, modCo_rd]
    exact enterC3_phase s n true

theorem proposeHeard_heard (s : State) (n : Fin 16) : ((s.proposeHeard n).co n).heardPropose = true := by
  rw [proposeHeard, co_modCo]

/-- The state from which a PROPOSE is answered, if it is: the phase and what was heard stand. -/
theorem proposeBody_stands (s : State) (n : Fin 16) (p : Proposal) : (s.proposeBody n p).phase n = (s.proposeHeard n).phase n ∧
    ((s.proposeBody n p).co n).heardPropose = true := by
  by_cases hprop : ((s.proposeHeard n).co n).prop = none
  · obtain ⟨-, hheard, hrd⟩ := answer_stands (s.proposeHeard n) n p
    rw [proposeBody_of_none hprop]
    exact ⟨hrd _ (by simp), hheard.trans (proposeHeard_heard s n)⟩
  · rw [proposeBody_of_some hprop]
    split
    · exact ⟨rfl, proposeHeard_heard s n⟩
    · obtain ⟨-, hheard, hrd⟩ :=
        answer_stands (((s.proposeHeard n).modCo n fun c => { c with prop := none }).incSat (K.LINE_CO_TIE_YIELD n)) n p
      refine ⟨(hrd _ (by simp)).trans (rd_wr_ne _ _ (by simp)), hheard.trans ?_⟩
      rw [co_incSat, co_modCo]
      exact proposeHeard_heard s n

/-- What a PROPOSE does: where it leads, and the answer of a lane that is in C3 or binds off. -/
theorem proposeBody_does (s : State) (n : Fin 16) (p : Proposal) (h3 : 3 ≤ s.phase n) :
    (s.binding n = false → (s.proposeBody n p).phase n = 3) ∧ (s.binding n = true → (s.proposeBody n p).phase n = s.phase n) ∧
    ((s.proposeBody n p).co n).heardPropose = true ∧
    (s.phase n = 3 ∨ s.binding n = true →
      ((s.co n).prop = none → s.rejectReason n p = none → ((s.proposeBody n p).co n).accepted = some p) ∧
      ((s.co n).prop = none → s.rejectReason n p ≠ none → CountsUp s (s.proposeBody n p) (K.LINE_CO_REJECT_TX n) 1) ∧
      ((s.co n).prop ≠ none → s.idHigher n = true →
        (((s.proposeBody n p).co n).prop = (s.co n).prop ∧ ∀ x, (s.proposeBody n p).rd x = s.rd x)) ∧
      ((s.co n).prop ≠ none → s.idHigher n = false →
        (((s.proposeBody n p).co n).prop = none ∧ CountsUp s (s.proposeBody n p) (K.LINE_CO_TIE_YIELD n) 1))) := by
  obtain ⟨hphase, hheard⟩ := proposeBody_stands s n p
  refine ⟨fun h => hphase.trans (proposeHeard_phase h3 h), fun h => ?_, hheard, fun h => ?_⟩
  · rw [hphase, proposeHeard_stays (.inr h)]
    rfl
  · have heq := proposeHeard_stays h
    have hprop : ((s.proposeHeard n).co n).prop = (s.co n).prop := by rw [heq, co_modCo]
    have hreason : (s.proposeHeard n).rejectReason n p = s.rejectReason n p := by
      rw [heq]
      refine rejectReason_congr ?_ ?_ ?_ p
      · rw [co_modCo]
      · rw [co_modCo]
      · rfl
    have hid : (s.proposeHeard n).idHigher n = s.idHigher n := by rw [heq]; rfl
    have hrd : ∀ x, (s.proposeHeard n).rd x = s.rd x := fun x => by rw [heq, modCo_rd]
    refine ⟨fun hnone hok => ?_, fun hnone hbad => ?_, fun hsome hhigh => ?_, fun hsome hlow => ?_⟩
    · rw [proposeBody_of_none (hprop.trans hnone)]
      exact (answer_accepts (hreason.trans hok)).1
    · rw [proposeBody_of_none (hprop.trans hnone), CountsUp, ← hrd]
      exact (answer_rejects (by rwa [hreason])).1
    · rw [proposeBody_of_some (by rwa [hprop]), if_pos (by rw [hid, hhigh])]
      exact ⟨hprop, hrd⟩
    · rw [proposeBody_of_some (by rwa [hprop]), if_neg (by rw [hid, hlow]; simp)]
      obtain ⟨hprop', -, hkept⟩ :=
        answer_stands (((s.proposeHeard n).modCo n fun c => { c with prop := none }).incSat (K.LINE_CO_TIE_YIELD n)) n p
      refine ⟨hprop'.trans (by rw [co_incSat, co_modCo]), ?_⟩
      rw [CountsUp, hkept _ (by simp), rd_incSat, if_pos rfl, modCo_rd, hrd]

/-! ## ACCEPT (R203) -/

theorem termsTaken_agr (s : State) (n : Fin 16) {p : Proposal} (own : Bool) (hnum : p.num < 256) :
    (s.termsTaken n p own).rd (K.LINE_CO_AGR n) = p.num := by
  have hagr : (s.wr (K.LINE_CO_AGR n) p.num).rd (K.LINE_CO_AGR n) = p.num := (rd_wr_self _ _ _).trans (Nat.mod_eq_of_lt hnum)
  rw [termsTaken, modCo_rd, rd_setCoFlag_ne _ _ _ _ (by simp), rd_setCoFlag_ne _ _ _ _ (by simp)]
  obtain ⟨heq, -⟩ | h := setFormat_eq_aside (s.wr (K.LINE_CO_AGR n) p.num) n p.format
  · rw [heq, hagr]
  · rw [h.rd _ rfl, rd_wr_ne _ _ (by simp), hagr]

theorem termsTaken_format (s : State) (n : Fin 16) {p : Proposal} (own : Bool) (hformat : p.format < 256) :
    (s.termsTaken n p own).rd (K.LINE_FORMAT n) = p.format := by
  rw [termsTaken, modCo_rd, rd_setCoFlag_ne _ _ _ _ (by simp), rd_setCoFlag_ne _ _ _ _ (by simp), rd_setFormat _ _ hformat]

theorem termsTaken_flags (s : State) (n : Fin 16) (p : Proposal) (own : Bool) :
    (s.termsTaken n p own).coFlag n 2 = own ∧ (s.termsTaken n p own).coFlag n 3 = p.time.testBit 0 := by
  have hmod : ∀ (z : State) (f : CoS → CoS) (i : Nat), (z.modCo n f).coFlag n i = z.coFlag n i := fun _ _ _ => rfl
  rw [termsTaken, hmod, hmod]
  refine ⟨coFlag_setCoFlag_self _ _ (by decide) _, ?_⟩
  rw [coFlag_setCoFlag_ne _ _ (by decide) (by decide)]
  exact coFlag_setCoFlag_self _ _ (by decide) _

theorem agreeTake_precode (s : State) (n : Fin 16) (p : Proposal) : ((s.agreeTake n p true).co n).precOwn = p.precode.testBit 0 ∧
    ((s.agreeTake n p true).co n).precFar = p.precode.testBit 1 := by
  obtain ⟨held, needReacq, reqFrom, hco⟩ := enterC4_co (s.termsTaken n p true) n false
  rw [agreeTake_eq, hco, termsTaken, co_modCo]
  exact ⟨rfl, rfl⟩

/-- An agreement made on the lane's own proposal. -/
theorem agreeTake_does (s : State) (n : Fin 16) {p : Proposal} (hnum : p.num < 256) (hformat : p.format < 256) :
    (s.agreeTake n p true).phase n = 4 ∧ (s.agreeTake n p true).rd (K.LINE_CO_AGR n) = p.num ∧
    (s.agreeTake n p true).rd (K.LINE_FORMAT n) = p.format ∧ (s.agreeTake n p true).coFlag n 2 = true ∧
    (s.agreeTake n p true).coFlag n 3 = p.time.testBit 0 ∧ ((s.agreeTake n p true).co n).precOwn = p.precode.testBit 0 ∧
    ((s.agreeTake n p true).co n).precFar = p.precode.testBit 1 := by
  have hkept := enterC4_leaves (s.termsTaken n p true) n false
  obtain ⟨htwo, hthree⟩ := termsTaken_flags s n p true
  refine ⟨?_, ?_, ?_, ?_, ?_, agreeTake_precode s n p⟩
  · rw [agreeTake_eq]; exact enterC4_phase _ n false
  · rw [agreeTake_eq, hkept.rd rfl fun _ => rfl, termsTaken_agr s n true hnum]
  · rw [agreeTake_eq, hkept.rd rfl fun _ => rfl, termsTaken_format s n true hformat]
  · rw [agreeTake_eq, hkept.coFlag n rfl, htwo]
  · rw [agreeTake_eq, hkept.coFlag n rfl, hthree]

theorem acceptBody_own {p : Proposal} (h : (s.co n).prop = some p) :
    s.acceptBody n p = if s.binding n then s else s.agree n p true := if_pos h

/-- An ACCEPT of anything but the lane's own proposal is counted as a contradiction, and the lane stays. -/
theorem acceptBody_other {p : Proposal} (h : (s.co n).prop ≠ some p) : CountsUp s (s.acceptBody n p) (K.LINE_CO_CONTRADICT n) 1 ∧
    (s.acceptBody n p).phase n = s.phase n := by
  have hrd : ∀ k, (s.acceptBody n p).rd k = (s.incSat (K.LINE_CO_CONTRADICT n)).rd k := fun k => by
    unfold acceptBody
    rw [if_neg h]
    dsimp only
    split
    · split
      · exact rd_sendReject _ n _ _ _ k
      · exact (rd_propose _ n _ k).trans (rd_sendReject _ n _ _ _ k)
    · exact rd_sendReject _ n _ _ _ k
  refine ⟨?_, ?_⟩
  · rw [CountsUp, hrd, rd_incSat, if_pos rfl]
  · rw [phase, hrd, rd_incSat, if_neg (by simp)]
    rfl

/-! ## REJECT (R202, R203) -/

/-- A REJECT is counted; with reason 6 or another unknown one it leads from C4 and above to C3, unless the lane binds off. -/
theorem rejectBody_does (s : State) (n : Fin 16) (num reason : Nat) : CountsUp s (s.rejectBody n num reason) (K.LINE_CO_REJECT_RX n) 1 ∧
    (1 ≤ reason ∧ reason ≤ 5 ∨ s.binding n = true → (s.rejectBody n num reason).phase n = s.phase n) ∧
    (reason = 0 ∨ 5 < reason → s.binding n = false → 3 ≤ s.phase n → (s.rejectBody n num reason).phase n = 3) := by
  have hcounted : ∀ k, k ≠ K.LINE_CO_REJECT_RX n → (s.incSat (K.LINE_CO_REJECT_RX n)).rd k = s.rd k := fun k hk => rd_wr_ne _ _ hk
  by_cases h4 : 4 ≤ s.phase n
  · have heq : s.rejectBody n num reason = if !(decide (1 ≤ reason) && decide (reason ≤ 5)) && !s.binding n then
        (s.incSat (K.LINE_CO_REJECT_RX n)).enterC3 n false else s.incSat (K.LINE_CO_REJECT_RX n) := if_pos h4
    rw [heq]
    refine ⟨?_, fun h => ?_, fun h hbinding _ => ?_⟩
    · split
      · rw [CountsUp, (enterC3_leaves _ n false).rd rfl fun _ => rfl]
        exact countsUp_incSat s _
      · exact countsUp_incSat s _
    · rw [if_neg]
      · exact hcounted _ (by simp)
      · obtain ⟨h1, h5⟩ | h := h
        · simp [h1, h5]
        · simp [h]
    · have hsix : (decide (1 ≤ reason) && decide (reason ≤ 5)) = false := by
        simp
        omega
      rw [if_pos (by rw [hsix, hbinding]; rfl)]
      exact enterC3_phase _ n false
  · have hleaves : Leaves (turnBits false) (s.incSat (K.LINE_CO_REJECT_RX n)) (s.rejectBody n num reason) := by
      have hcase : ∀ c : Bool, Leaves (turnBits false) (s.incSat (K.LINE_CO_REJECT_RX n))
          (if c then (s.incSat (K.LINE_CO_REJECT_RX n)).modCo n fun x => { x with accepted := none } else s.incSat (K.LINE_CO_REJECT_RX n)) :=
        fun c => .ite _ (.modCo (.refl _ _) n _) (.refl _ _)
      unfold rejectBody
      dsimp only
      rw [if_neg h4]
      split
      · split
        · exact hcase _
        · split
          · exact ((hcase _).modCo n _).flag n 9 true rfl (turnBits_high false n)
          · split
            · exact ((hcase _).modCo n _).modCo n _
            · exact ((hcase _).modCo n _).trans (.of_rd (rd_propose _ n _))
      · exact hcase _
    have hphase : (s.rejectBody n num reason).phase n = s.phase n := (hleaves.rd rfl fun _ => rfl).trans (hcounted _ (by simp))
    refine ⟨?_, fun _ => hphase, fun _ _ h3 => hphase.trans (by omega)⟩
    rw [CountsUp, hleaves.rd rfl fun _ => rfl]
    exact countsUp_incSat s _

/-! ## TXEQ messages (R209, R210) -/

theorem txeqReqBody_applies {id main : Nat} {taps : List Int} (hmain : main = s.rd (K.LINE_TX_FFE_MAIN n))
    (hok : txTapsOk main ((List.range 9).map (getI taps)) = true) :
    ((s.txeqReqBody n id main taps).lane n).txTapsPend = some ((List.range 9).map (getI taps)) ∧
      ((s.txeqReqBody n id main taps).co n).ackOwed = some id := by
  have heq : s.txeqReqBody n id main taps = (s.modLane n fun l => { l with txTapsPend := some ((List.range 9).map (getI taps)) }).modCo n
      fun c => { c with ackOwed := some id, owe := false } := by
    unfold txeqReqBody
    dsimp only
    rw [hok, ← hmain, if_neg (by simp), if_neg (by simp)]
  rw [heq, co_modCo]
  refine ⟨?_, rfl⟩
  rw [modCo, lane_modLane, lane_modLane]

theorem txeqReqBody_refuses {id main : Nat} {taps : List Int} (h : main ≠ s.rd (K.LINE_TX_FFE_MAIN n) ∨
    txTapsOk main ((List.range 9).map (getI taps)) = false) :
    CountsUp s (s.txeqReqBody n id main taps) (K.LINE_CO_TXEQ_REFUSED n) 1 ∧
      ((s.txeqReqBody n id main taps).lane n).txTapsPend = (s.lane n).txTapsPend := by
  have heq : ∃ body, s.txeqReqBody n id main taps = (s.incSat (K.LINE_CO_TXEQ_REFUSED n)).sendSeq n 0x06 body := by
    unfold txeqReqBody
    dsimp only
    split
    · exact ⟨_, rfl⟩
    next hmain =>
      have hbad : txTapsOk main ((List.range 9).map (getI taps)) = false := by
        obtain h | h := h
        · exact absurd (by simpa using h) hmain
        · exact h
      rw [hbad]
      exact ⟨_, rfl⟩
  obtain ⟨body, heq⟩ := heq
  rw [heq]
  refine ⟨?_, ?_⟩
  · rw [CountsUp, rd_sendSeq _ _ _ _ (by decide), rd_incSat, if_pos rfl]
  · obtain ⟨co, picot, hlane⟩ := lane_sendSeq (s.incSat (K.LINE_CO_TXEQ_REFUSED n)) n 0x06 body
    rw [hlane]
    rfl

/-- An answer to the policy's request moves no entry, and the far taps stay known. -/
theorem txeqAnswered_stands (s : State) (n : Fin 16) (result : Nat) : (∀ k, (s.txeqAnswered n result).rd k = s.rd k) ∧
    ((s.txeqAnswered n result).co n).farKnown = (s.co n).farKnown := by
  unfold txeqAnswered
  split
  · exact ⟨fun _ => rfl, by rw [co_modCo]⟩
  · split
    · refine ⟨fun _ => rfl, ?_⟩
      rw [trainFrom, co, lane_modLane]
      change ((s.modCo n fun c => { c with txeq := .settle }).co n).farKnown = _
      rw [co_modCo]
    · obtain ⟨hrd, -, hfar⟩ := searchNext_stands n 3 (s.modCo n fun c => { c with eqJ := c.eqJ + 1, eqStep := 1 })
      exact ⟨hrd, by rw [hfar, co_modCo]⟩
    · exact ⟨fun _ => rfl, by rw [co_modCo]⟩
    · exact ⟨fun _ => rfl, rfl⟩

/-- A TXEQ_ACK before it answers a request: the far taps are known; a refusal is counted. -/
def tapsKnown (s : State) (n : Fin 16) (result : Nat) (taps : List Int) : State :=
  let s1 := (s.wr (K.LINE_CO_FAR_TAPS n) (beNat (tapBytes taps))).modCo n fun c => { c with farKnown := true }
  if result = 0 then s1 else s1.incSat (K.LINE_CO_TXEQ_DENIED n)

theorem txeqAckBody_eq (s : State) (n : Fin 16) (id result : Nat) (taps : List Int) : s.txeqAckBody n id result taps =
    if id = (s.co n).reqId || (result != 0 && ownRequest (s.co n) id) then (s.tapsKnown n result taps).txeqAnswered n result
    else s.tapsKnown n result taps := rfl

theorem tapsKnown_does (s : State) (n : Fin 16) (result : Nat) (taps : List Int) :
    (s.tapsKnown n result taps).rd (K.LINE_CO_FAR_TAPS n) = beNat (tapBytes taps) % 2 ^ 144 ∧
    ((s.tapsKnown n result taps).co n).farKnown = true ∧
    (result ≠ 0 → CountsUp s (s.tapsKnown n result taps) (K.LINE_CO_TXEQ_DENIED n) 1) := by
  have htaps : ((s.wr (K.LINE_CO_FAR_TAPS n) (beNat (tapBytes taps))).modCo n fun c => { c with farKnown := true }).rd (K.LINE_CO_FAR_TAPS n) =
      beNat (tapBytes taps) % 2 ^ 144 := rd_wr_self _ _ _
  unfold tapsKnown
  dsimp only
  refine ⟨?_, ?_, fun h => ?_⟩
  · split
    · exact htaps
    · rw [rd_incSat, if_neg (by simp), htaps]
  · split
    · rw [co_modCo]
    · rw [co_incSat, co_modCo]
  · rw [if_neg h, CountsUp, rd_incSat, if_pos rfl, modCo_rd, rd_wr_ne _ _ (by simp)]

theorem txeqAckBody_does (s : State) (n : Fin 16) (id result : Nat) (taps : List Int) :
    (s.txeqAckBody n id result taps).rd (K.LINE_CO_FAR_TAPS n) = beNat (tapBytes taps) % 2 ^ 144 ∧
    ((s.txeqAckBody n id result taps).co n).farKnown = true ∧
    (result ≠ 0 → CountsUp s (s.txeqAckBody n id result taps) (K.LINE_CO_TXEQ_DENIED n) 1) := by
  have hknown := tapsKnown_does s n result taps
  rw [txeqAckBody_eq]
  split
  · obtain ⟨hrd, hfar⟩ := txeqAnswered_stands (s.tapsKnown n result taps) n result
    unfold CountsUp
    rw [hfar, hrd, hrd]
    exact hknown
  · exact hknown

end State

end Sys2Proof.Machine
end

section
/-!
SUPPORT. What STATUS, READY and BIND do, and the first packet that a lane hears in C1 (R184, R188, R197).
-/

namespace Sys2Proof.Machine

namespace State

variable {s : State} {n : Fin 16}

/-! ## STATUS and READY (R196, R215, R216) -/

theorem underAgr_same {agr : Nat} (h : s.agrDiffers n agr = false) (f : State → State) : s.underAgr n agr f = f s := if_neg (by simp [h])

theorem underAgr_other {agr : Nat} (h4 : 4 ≤ s.phase n) (hpeer : 4 ≤ s.rd (K.LINE_CO_PEER_PHASE n)) (hagr : agr ≠ s.rd (K.LINE_CO_AGR n))
    (f : State → State) : s.underAgr n agr f = s.contradict n (s.rd (K.LINE_CO_AGR n)) := if_pos (by simp [agrDiffers, h4, hpeer, hagr])

/-- The partner's LOCK and FILL on show. -/
def peerShown (s : State) (n : Fin 16) (lock fill : Nat) : State :=
  ((s.setCoFlag n 4 (lock.testBit 0)).setCoFlag n 5 (fill.testBit 0)).setCoFlag n 6 (fill.testBit 1)

theorem statusBody_eq (s : State) (n : Fin 16) (lock fill verify : Nat) : s.statusBody n lock fill verify =
    if verify = 2 && !s.binding n then (s.peerShown n lock fill).enterC4 n false else s.peerShown n lock fill := rfl

theorem peerShown_rd_ne (s : State) (n : Fin 16) (lock fill : Nat) {k : Key} (hk : k ≠ K.LINE_CO_FLAGS n) :
    (s.peerShown n lock fill).rd k = s.rd k := by
  rw [peerShown, rd_setCoFlag_ne _ _ _ _ hk, rd_setCoFlag_ne _ _ _ _ hk, rd_setCoFlag_ne _ _ _ _ hk]

theorem peerShown_flags (s : State) (n : Fin 16) (lock fill : Nat) : (s.peerShown n lock fill).coFlag n 4 = lock.testBit 0 ∧
    (s.peerShown n lock fill).coFlag n 5 = fill.testBit 0 ∧ (s.peerShown n lock fill).coFlag n 6 = fill.testBit 1 := by
  unfold peerShown
  refine ⟨?_, ?_, coFlag_setCoFlag_self _ _ (by decide) _⟩
  · rw [coFlag_setCoFlag_ne _ _ (by decide) (by decide), coFlag_setCoFlag_ne _ _ (by decide) (by decide)]
    exact coFlag_setCoFlag_self _ _ (by decide) _
  · rw [coFlag_setCoFlag_ne _ _ (by decide) (by decide)]
    exact coFlag_setCoFlag_self _ _ (by decide) _

theorem statusBody_shows {verify : Nat} (h : verify ≠ 2 ∨ s.binding n = true) (lock fill : Nat) :
    (s.statusBody n lock fill verify).coFlag n 4 = lock.testBit 0 ∧ (s.statusBody n lock fill verify).coFlag n 5 = fill.testBit 0 ∧
    (s.statusBody n lock fill verify).coFlag n 6 = fill.testBit 1 ∧ (s.statusBody n lock fill verify).phase n = s.phase n ∧
    Changes [K.LINE_CO_FLAGS n] s (s.statusBody n lock fill verify) := by
  have hnot : ¬ (decide (verify = 2) && !s.binding n) = true := by
    obtain h | h := h
    · simp [h]
    · simp [h]
  obtain ⟨h4, h5, h6⟩ := peerShown_flags s n lock fill
  rw [statusBody_eq, if_neg hnot]
  refine ⟨h4, h5, h6, peerShown_rd_ne s n lock fill (by simp), ?_⟩
  rw [changes_iff]
  exact fun k _ hk => peerShown_rd_ne s n lock fill (by simpa using hk)

theorem statusBody_retrains (h : s.binding n = false) (lock fill : Nat) : (s.statusBody n lock fill 2).phase n = 4 := by
  rw [statusBody_eq, if_pos (by simp [h])]
  exact enterC4_phase _ n false

theorem readyBody_does (s : State) (n : Fin 16) (done : Nat) :
    (s.phase n ≤ done → ((s.readyBody n done).co n).peerReady.contains done = true) ∧
    (done < s.phase n → ((s.readyBody n done).co n).peerReady = (s.co n).peerReady) ∧ ∀ x, (s.readyBody n done).rd x = s.rd x := by
  unfold readyBody
  refine ⟨fun h => ?_, fun h => by rw [if_neg (by omega)], fun x => by rw [rd_ite, modCo_rd, ite_self]⟩
  rw [if_pos h, co_modCo]
  dsimp only
  split
  next hin => exact hin
  · simp

/-! ## BIND (R222) -/

/-- A BIND acknowledged, counted and recorded. -/
def bindHeard (s : State) (n : Fin 16) : State := ((s.sendKeepalive n).incSat (K.LINE_CO_BIND_RX n)).setFail n 8

theorem bindBody_eq (s : State) (n : Fin 16) : s.bindBody n = if s.binding n then s.bindHeard n else (s.bindHeard n).enterC1 n := rfl

theorem bindHeard_rd (s : State) (n : Fin 16) {k : Key} (hk : convoEntry k = true) (h1 : k ≠ K.LINE_CO_BIND_RX n)
    (h2 : k ≠ K.LINE_CO_LAST_FAIL n) : (s.bindHeard n).rd k = s.rd k := by
  rw [bindHeard, setFail, rd_wr_ne _ _ h2, rd_incSat, if_neg h1, rd_sendKeepalive s n hk]

theorem bindHeard_counts (s : State) (n : Fin 16) : CountsUp s (s.bindHeard n) (K.LINE_CO_BIND_RX n) 1 := by
  rw [CountsUp, bindHeard, setFail, rd_wr_ne _ _ (by simp), rd_incSat, if_pos rfl, rd_sendKeepalive s n rfl]

theorem bindHeard_fail (h7 : s.phase n ≤ 7) : (s.bindHeard n).rd (K.LINE_CO_LAST_FAIL n) = s.phase n * 256 + 8 := by
  have hphase : ((s.sendKeepalive n).incSat (K.LINE_CO_BIND_RX n)).phase n = s.phase n :=
    (rd_wr_ne _ _ (by simp)).trans (rd_sendKeepalive s n rfl)
  rw [bindHeard, setFail, rd_wr_self, hphase]
  exact Nat.mod_eq_of_lt (show s.phase n * 256 + 8 < 65536 by omega)

theorem bindHeard_co (s : State) (n : Fin 16) : (s.bindHeard n).co n = { s.co n with owe := false } := by
  rw [bindHeard, setFail, co_wr, co_incSat, co_sendKeepalive]

theorem bindBody_does (h7 : s.phase n ≤ 7) : CountsUp s (s.bindBody n) (K.LINE_CO_BIND_RX n) 1 ∧
    (s.bindBody n).rd (K.LINE_CO_LAST_FAIL n) = s.phase n * 256 + 8 ∧
    (s.binding n = false → (s.bindBody n).phase n = 1 ∧ (s.bindBody n).rd (K.LINE_CO_SESSION n) = s.rd (K.LINE_CO_SESSION n) ∧
      ((s.bindBody n).co n).out = [] ∧ ((s.bindBody n).co n).e = 0) ∧
    (s.binding n = true → (s.bindBody n).phase n = s.phase n ∧ ((s.bindBody n).co n).bind = (s.co n).bind ∧
      (s.bindBody n).binding n = true) := by
  cases hbinding : s.binding n with
  | true =>
    rw [bindBody_eq, if_pos hbinding]
    refine ⟨bindHeard_counts s n, bindHeard_fail h7, fun h => Bool.noConfusion h, fun _ => ⟨?_, by rw [bindHeard_co], ?_⟩⟩
    · exact bindHeard_rd s n rfl (by simp) (by simp)
    · exact (bit_of_rd (bindHeard_rd s n rfl (by simp) (by simp)) 0).trans hbinding
  | false =>
    have hkept := enterC1_leaves (s.bindHeard n) n
    obtain ⟨held, hco⟩ := enterC1_co (s.bindHeard n) n
    rw [bindBody_eq, if_neg (by simp [hbinding])]
    refine ⟨?_, ?_, fun _ => ⟨enterC1_phase _ n, ?_, ?_, ?_⟩, fun h => Bool.noConfusion h⟩
    · rw [CountsUp, hkept.rd rfl fun _ => rfl]
      exact bindHeard_counts s n
    · rw [hkept.rd rfl fun _ => rfl]
      exact bindHeard_fail h7
    · rw [hkept.rd rfl fun _ => rfl]
      exact bindHeard_rd s n rfl (by simp) (by simp)
    · rw [hco]; rfl
    · rw [hco]

/-! ## The first packet of a conversation (R184, R197) -/

/-- The lane is in C2 with the partner's numbers recorded, nothing sent yet and no CAP acknowledged. -/
structure Opened (n : Fin 16) (session p : Nat) (z : State) : Prop where
  phase : z.phase n = 2
  session : z.rd (K.LINE_CO_PEER_SESSION n) = session
  peer : z.rd (K.LINE_CO_PEER_PHASE n) = p
  out : (z.co n).out = []
  wait : (z.co n).wait = []
  acked : (z.co n).capAcked = false

variable {session p : Nat}

/-- A change that leaves the phase, the partner's numbers and the messages alone. -/
theorem Opened.keep {t : State} (h : Opened n session p s)
    (hrd : ∀ k ∈ [K.LINE_CO_PHASE n, K.LINE_CO_PEER_SESSION n, K.LINE_CO_PEER_PHASE n], t.rd k = s.rd k)
    (hco : (t.co n).out = (s.co n).out ∧ (t.co n).wait = (s.co n).wait ∧ (t.co n).capAcked = (s.co n).capAcked) :
    Opened n session p t := by
  obtain ⟨hout, hwait, hacked⟩ := hco
  exact ⟨(hrd _ (by simp)).trans h.phase, (hrd _ (by simp)).trans h.session, (hrd _ (by simp)).trans h.peer, hout.trans h.out,
    hwait.trans h.wait, hacked.trans h.acked⟩

/-- A counter goes up. -/
theorem Opened.count (h : Opened n session p s) (i : Nat) : Opened n session p (s.incSat ⟨.line n, 0x2E, i⟩) := by
  refine h.keep (fun k hk => rd_wr_ne _ _ ?_) ⟨rfl, rfl, rfl⟩
  simp only [List.mem_cons, List.not_mem_nil, or_false] at hk
  obtain rfl | rfl | rfl := hk <;> simp

/-- The record changes outside what matters here. -/
theorem Opened.record (h : Opened n session p s) (f : CoS → CoS) (hf : (f (s.co n)).out = (s.co n).out ∧ (f (s.co n)).wait = (s.co n).wait ∧
    (f (s.co n)).capAcked = (s.co n).capAcked) : Opened n session p (s.modCo n f) :=
  h.keep (fun _ _ => rfl) (by rwa [co_modCo])

theorem Opened.flag (h : Opened n session p s) (i : Nat) (b : Bool) : Opened n session p (s.setCoFlag n i b) := by
  refine h.keep (fun k hk => rd_setCoFlag_ne _ _ _ _ ?_) ⟨rfl, rfl, rfl⟩
  simp only [List.mem_cons, List.not_mem_nil, or_false] at hk
  obtain rfl | rfl | rfl := hk <;> simp

/-- A CAP in C2 is kept (R197). -/
theorem Opened.cap (h : Opened n session p s) (c : Cap) : Opened n session p (s.capBody n c) := by
  have hkept : Opened n session p (s.capKept n c) := by
    refine Opened.keep (s := s.modCo n fun x => { x with cap := some c }) (h.record _ ⟨rfl, rfl, rfl⟩) (fun k hk => rd_wr_ne _ _ ?_)
      ⟨rfl, rfl, rfl⟩
    simp only [List.mem_cons, List.not_mem_nil, or_false] at hk
    obtain rfl | rfl | rfl := hk <;> simp
  have h2 : ((s.capKept n c).setCoFlag n 8 false).phase n = 2 := (hkept.flag 8 false).phase
  unfold capBody
  dsimp only
  split
  · split
    · exact hkept.flag 8 true
    · exact (hkept.count 0x1A).flag 8 true
  · rw [if_neg]
    · exact hkept.flag 8 false
    · change ¬ (decide (((s.capKept n c).setCoFlag n 8 false).phase n = 3) && _) = true
      rw [h2]
      simp

end State

end Sys2Proof.Machine
end

section
/-!
SUPPORT. The first packet that a lane hears in C1: the conversation opens in C2, the packet's own type is judged there, and the lane's CAP
goes out (R184, R192, R197).
-/

namespace Sys2Proof.Machine

namespace State

variable {s : State} {n : Fin 16} {session p : Nat}

/-! ## The entry to C2 -/

theorem enterC2_co (s : State) (n : Fin 16) : ((s.enterC2 n).co n).out = [] ∧ ((s.enterC2 n).co n).wait = [] ∧
    ((s.enterC2 n).co n).capAcked = false ∧ ((s.enterC2 n).co n).oow = 0 := by
  have hnone : (((s.coDiscard n).modCo n fun c => { c with ownCap := none }).co n).ownCap = none := by rw [co_modCo]
  obtain ⟨held, hco⟩ := phaseSet_co ((s.coDiscard n).modCo n fun c => { c with ownCap := none }) n (p := 2) (by decide) (.inr hnone)
  rw [co_modCo, coDiscard_co] at hco
  rw [enterC2, co_setCoFlag, co_setCoFlag, co_wr, co_modCo, hco]
  exact ⟨rfl, rfl, rfl, rfl⟩

theorem enterC2_rd (s : State) (n : Fin 16) {k : Key} (hk : convoEntry k = true) (hphase : ∀ j, phaseBits true k j = false)
    (hid : k ≠ K.LINE_CO_PEER_ID n) (hflags : k ≠ K.LINE_CO_FLAGS n) : (s.enterC2 n).rd k = s.rd k := by
  rw [enterC2, rd_setCoFlag_ne _ _ _ _ hflags, rd_setCoFlag_ne _ _ _ _ hflags, rd_wr_ne _ _ hid, modCo_rd,
    (phaseSet_leaves _ n 2).rd hk hphase]
  rfl

theorem enterC2_phase (s : State) (n : Fin 16) : (s.enterC2 n).phase n = 2 := by
  rw [enterC2, phase, rd_setCoFlag_ne _ _ _ _ (by simp), rd_setCoFlag_ne _ _ _ _ (by simp), rd_wr_ne _ _ (by simp), modCo_rd]
  exact phaseSet_phase _ n (by decide)

/-- The conversation opens with the partner's SESSION. -/
theorem enterC2_opened (s : State) (n : Fin 16) (hses : session < 65536) :
    Opened n session (((s.wr (K.LINE_CO_PEER_SESSION n) session).enterC2 n).rd (K.LINE_CO_PEER_PHASE n))
      ((s.wr (K.LINE_CO_PEER_SESSION n) session).enterC2 n) := by
  obtain ⟨hout, hwait, hacked, -⟩ := enterC2_co (s.wr (K.LINE_CO_PEER_SESSION n) session) n
  refine ⟨enterC2_phase _ n, ?_, rfl, hout, hwait, hacked⟩
  rw [enterC2_rd _ n rfl (fun _ => rfl) (by simp) (by simp), rd_wr_self]
  exact Nat.mod_eq_of_lt hses

/-- The PHASE of the packet is recorded. -/
theorem Opened.noted {q : Nat} (h : Opened n session p s) (hq : q < 256) : Opened n session q (s.wr (K.LINE_CO_PEER_PHASE n) q) :=
  ⟨(rd_wr_ne _ _ (by simp)).trans h.phase, (rd_wr_ne _ _ (by simp)).trans h.session, (rd_wr_self _ _ _).trans (Nat.mod_eq_of_lt hq),
    h.out, h.wait, h.acked⟩

/-! ## The head of the packet -/

/-- With nothing outstanding an ACK is at most counted as bad. -/
theorem applyAck_of_none (hout : (s.co n).out = []) (a : Nat) : s.applyAck n a = s ∨ s.applyAck n a = s.incSat (K.LINE_CO_BAD_ACK n) := by
  unfold applyAck
  dsimp only
  rw [hout]
  split
  · exact .inl rfl
  · change (if neverSent (s.co n) a then s.incSat (K.LINE_CO_BAD_ACK n) else s) = s ∨ _
    split
    · exact .inr rfl
    · exact .inl rfl

/-- In C2 a lane whose CAP is not acknowledged makes no progress. -/
theorem coAdvance_waits (h2 : s.phase n = 2) (hacked : (s.co n).capAcked = false) : s.coAdvance n = s := by
  have hpolicy : s.policyStart n = s := by
    obtain heq | ⟨h4, -⟩ := policyStart_cases s n
    · exact heq
    · omega
  have hstep : s.advanceOnce n = s := by
    obtain heq | ⟨-, ⟨-, hack, -⟩ | ⟨hwork, -⟩⟩ := advanceOnce_cases s n
    · exact heq
    · exact Bool.noConfusion (hacked.symm.trans hack)
    · have hwhere := workDone_phase hwork
      omega
  exact coAdvance_induct (P := fun z => z = s) (fun z hz => by rw [hz, hpolicy]) (fun z hz => by rw [hz, hstep]) rfl

/-- The ACK and the PHASE of the packet, taken in C2 with nothing outstanding. -/
theorem Opened.headed {q : Nat} (h : Opened n session p s) (hfresh : (s.co n).oow = 0) (a : Nat) (hq : q < 256) :
    ((s.setCoFlag n 7 false).applyAck n a).phase n = 2 ∧
    Opened n session q (((s.setCoFlag n 7 false).applyAck n a).wr (K.LINE_CO_PEER_PHASE n) q) ∧
    ((((s.setCoFlag n 7 false).applyAck n a).wr (K.LINE_CO_PEER_PHASE n) q).co n).oow = 0 := by
  obtain heq | heq := applyAck_of_none (h.flag 7 false).out a
  · rw [heq]
    exact ⟨(h.flag 7 false).phase, (h.flag 7 false).noted hq, hfresh⟩
  · rw [heq]
    exact ⟨((h.flag 7 false).count _).phase, ((h.flag 7 false).count _).noted hq, hfresh⟩

/-- What the head of a packet leads to in C1 (R184, R197). -/
theorem recvHead_opens {h : MsgHead} (h1 : s.phase n = 1) (hses : h.session.toNat ≠ 0) (hphase : h.phase.toNat ≤ 7)
    (hout : s.on (K.LINE_TX_OUT_EN n) = true) (hdepth : s.rd (K.LINE_PICOT_DEPTH n) ≠ 0) :
    ∃ z, s.recvHead n h = (z, true, true) ∧ Opened n h.session.toNat h.phase.toNat z ∧ (z.co n).oow = 0 := by
  obtain ⟨-, -, -, hoow⟩ := enterC2_co (s.wr (K.LINE_CO_PEER_SESSION n) h.session.toNat) n
  obtain ⟨h2, hopened, hfresh⟩ := (enterC2_opened s n h.session.isLt).headed hoow h.ack.toNat (Nat.lt_of_le_of_lt hphase (by decide))
  refine ⟨_, ?_, hopened, hfresh⟩
  have hnew : (s.phase n == 1) = true := by simp [h1]
  have hleaves : ¬ (decide (s.phase n = 1) && !s.leavesC1 n) = true := by simp [leavesC1, hout, hdepth]
  have hformed : ¬ (decide (h.session.toNat = 0) || decide (7 < h.phase.toNat)) = true := by
    simp
    omega
  unfold recvHead
  dsimp only
  rw [if_neg (by omega), if_neg hformed, if_neg hleaves, hnew, if_pos rfl, if_neg (by omega), hopened.phase, if_neg (by simp),
    coAdvance_waits hopened.phase hopened.acked, Bool.true_or]

/-- A packet that is not one of a conversation is only counted (R188). -/
theorem recvHead_malformed {h : MsgHead} (h0 : s.phase n ≠ 0) (hbad : h.session.toNat = 0 ∨ 7 < h.phase.toNat) :
    s.recvHead n h = (s.incSat (K.LINE_CO_MALFORMED n), false, false) := by
  unfold recvHead
  dsimp only
  rw [if_neg h0, if_pos (by simpa using hbad)]

/-- In C0 no packet is heard. -/
theorem recvHead_deaf {h : MsgHead} (h0 : s.phase n = 0) : s.recvHead n h = (s, false, false) := if_pos h0

/-- A packet whose type is not looked at does no more than its head. -/
theorem recv_headOnly {h : MsgHead} {z : State} (hhead : s.recvHead n h = (z, false, false)) (typ body0 : Nat) (body : State → State) :
    s.recv n typ h body0 body = z := by
  unfold recv
  dsimp only
  rw [hhead]
  exact if_pos rfl

/-! ## The type of the packet, judged in C2 -/

/-- What a lane in C2 makes of the packet of a conversation: a CAP is kept, another sequenced type comes early, and a KEEPALIVE that
finds no agreement to contradict changes nothing. -/
inductive OpensWith (n : Fin 16) : Nat → (State → State) → Prop where
  | cap (c : Cap) : OpensWith n 0x01 fun s => s.capBody n c
  | early {typ : Nat} (hseq : sequenced typ = true) (hjudge : judge typ 2 = .later) (body : State → State) : OpensWith n typ body
  | keepalive (agr : Nat) : OpensWith n 0x42 fun s => s.underAgr n agr id

/-- The next in order, taken. -/
theorem Opened.taken (h : Opened n session p s) : Opened n session p (s.modCo n fun c => { c with e := (c.e + 1) % 256, owe := true }) :=
  h.record _ ⟨rfl, rfl, rfl⟩

/-- The sequence rules leave a fresh conversation open. -/
theorem Opened.sequenced {typ : Nat} {body : State → State} (h : Opened n session p s) (hfresh : (s.co n).oow = 0)
    (htype : typ = 0x01 ∧ (∃ c, body = fun s => s.capBody n c) ∨ judge typ 2 = .later) (seq body0 : Nat) :
    Opened n session p (s.recvSequenced n typ seq body0 body) := by
  have hwindow : ∀ b : Bool, Opened n session p (s.modCo n fun c => { c with oow := if b then 0 else c.oow + 1 }) := fun b =>
    h.record _ ⟨rfl, rfl, rfl⟩
  have hshort : ∀ b : Bool, ((s.modCo n fun c => { c with oow := if b then 0 else c.oow + 1 }).co n).oow ≤ 1 := fun b => by
    rw [co_modCo]
    cases b with
    | true => exact Nat.zero_le 1
    | false => exact Nat.le_of_eq (congrArg (· + 1) hfresh)
  unfold recvSequenced
  dsimp only
  split
  · exact ((hwindow _).count _).record _ ⟨rfl, rfl, rfl⟩
  · split
    · exact (hwindow _).count _
    · split
      · rw [if_neg]
        · exact (hwindow _).count _
        · rw [co_incSat]
          have hle := hshort (decide ((seq + 256 - (s.co n).e) % 256 ≤ 3) || decide (252 ≤ (seq + 256 - (s.co n).e) % 256))
          omega
      · rw [(hwindow _).phase]
        obtain ⟨rfl, c, rfl⟩ | hlater := htype
        · exact (hwindow _).taken.cap c
        · rw [hlater]
          exact (hwindow _).count _

/-! ## The lane's own CAP -/

/-- The lane is in C2 with the partner's numbers recorded and its own CAP outstanding. -/
structure Offered (n : Fin 16) (session p : Nat) (z : State) : Prop where
  phase : z.phase n = 2
  session : z.rd (K.LINE_CO_PEER_SESSION n) = session
  peer : z.rd (K.LINE_CO_PEER_PHASE n) = p
  acked : (z.co n).capAcked = false
  cap : ∃ m ∈ (z.co n).out, m.typ = 0x01

theorem Opened.offered (h : Opened n session p s) : Offered n session p (s.sendCap n) := by
  obtain ⟨body, hco⟩ := co_sendCap s n
  rw [CoS.queued_of_room _ _ _ ⟨by rw [h.out]; decide, h.wait⟩] at hco
  refine ⟨(rd_sendCap s n _).trans h.phase, (rd_sendCap s n _).trans h.session, (rd_sendCap s n _).trans h.peer, by rw [hco], ?_⟩
  rw [hco]
  exact ⟨_, List.mem_append_right _ (List.mem_singleton_self _), rfl⟩

/-- A message that follows leaves the CAP outstanding. -/
theorem Offered.sendSeq (h : Offered n session p s) (typ : Nat) (hseq : Machine.sequenced typ = true) (body : List Byte) :
    Offered n session p (s.sendSeq n typ body) := by
  have hrd := rd_sendSeq s n typ body hseq
  obtain ⟨m, hm, htyp⟩ := h.cap
  refine ⟨(hrd _).trans h.phase, (hrd _).trans h.session, (hrd _).trans h.peer, by rw [co_sendSeq, CoS.queued_capAcked, h.acked], m, ?_, htyp⟩
  rw [co_sendSeq, CoS.queued]
  split
  · exact List.mem_append_left _ hm
  · exact hm

theorem Offered.flag (h : Offered n session p s) (i : Nat) (b : Bool) : Offered n session p (s.setCoFlag n i b) :=
  ⟨(rd_setCoFlag_ne _ _ _ _ (by simp)).trans h.phase, (rd_setCoFlag_ne _ _ _ _ (by simp)).trans h.session,
    (rd_setCoFlag_ne _ _ _ _ (by simp)).trans h.peer, h.acked, h.cap⟩

/-- The progress waits for the partner's ACK. -/
theorem Offered.settles (h : Offered n session p s) : Offered n session p (s.coSettle n) := by
  obtain ⟨hrd, owe, hco⟩ := coSettle_stands s n
  rw [coAdvance_waits h.phase h.acked] at hrd hco
  exact ⟨(hrd _ rfl).trans h.phase, (hrd _ rfl).trans h.session, (hrd _ rfl).trans h.peer, by rw [hco]; exact h.acked, by rw [hco]; exact h.cap⟩

/-! ## The whole packet -/

/-- A sequenced packet that leaves the conversation open is answered by the lane's CAP. -/
theorem recv_offers {h : MsgHead} {typ : Nat} {body : State → State} {z : State} (hhead : s.recvHead n h = (z, true, true))
    (hseq : sequenced typ = true) {body0 : Nat} (hopened : Opened n session p (z.recvSequenced n typ h.seq.toNat body0 body)) :
    Offered n session p (s.recv n typ h body0 body) := by
  unfold recv
  dsimp only
  rw [hhead, if_neg (by simp), if_pos hseq]
  dsimp only
  rw [hopened.phase, if_pos (by decide)]
  split
  · exact ((hopened.offered.flag 0 true).sendSeq 0x09 rfl _).settles
  · exact hopened.offered.settles

/-- And so is an unsequenced one. -/
theorem recv_offers_plain {h : MsgHead} {typ : Nat} {body : State → State} {z : State} (hhead : s.recvHead n h = (z, true, true))
    (hseq : sequenced typ = false) (hvalid : judge typ (z.phase n) = .valid) (body0 : Nat) (hopened : Opened n session p (body z)) :
    Offered n session p (s.recv n typ h body0 body) := by
  unfold recv
  dsimp only
  rw [hhead, if_neg (by simp), hseq, if_neg Bool.false_ne_true]
  dsimp only
  rw [hvalid]
  dsimp only
  rw [hopened.phase, if_pos (by decide)]
  split
  · exact ((hopened.offered.flag 0 true).sendSeq 0x09 rfl _).settles
  · exact hopened.offered.settles

/-- In C1 the packet leads to C2, and the lane's own CAP is sent. -/
theorem recv_opens {h : MsgHead} {typ : Nat} {body : State → State} (hwith : OpensWith n typ body) (h1 : s.phase n = 1)
    (hses : h.session.toNat ≠ 0) (hphase : h.phase.toNat ≤ 7) (hout : s.on (K.LINE_TX_OUT_EN n) = true)
    (hdepth : s.rd (K.LINE_PICOT_DEPTH n) ≠ 0) (body0 : Nat) :
    Offered n h.session.toNat h.phase.toNat (s.recv n typ h body0 body) := by
  obtain ⟨z, hhead, hopened, hfresh⟩ := recvHead_opens h1 hses hphase hout hdepth
  cases hwith with
  | cap c => exact recv_offers hhead rfl (hopened.sequenced hfresh (.inl ⟨rfl, c, rfl⟩) _ _)
  | early hseq hjudge => exact recv_offers hhead hseq (hopened.sequenced hfresh (.inr hjudge) _ _)
  | keepalive agr =>
    have hagrees : z.agrDiffers n agr = false := by simp [agrDiffers, hopened.phase]
    refine recv_offers_plain hhead rfl (by rw [hopened.phase]; rfl) body0 ?_
    rwa [underAgr_same hagrees]

end State

end Sys2Proof.Machine
end

section
/-!
PROOF. O27: what a message of each type does (R192, R197 to R210, R214 to R222), message by message.
-/

namespace Sys2Proof.Machine

open State

variable {s : State} {n : Fin 16} {h : MsgHead}

/-- A sequenced packet that counts: its body acts on the state that its head leads to, the next in order taken, and the lane settles. -/
theorem runs_heard {c : Instr} {typ body0 : Nat} {body : State → State} {Q : State → State → Prop}
    (hexec : exec c s = .next (s.recv n typ h body0 body)) (hseq : sequenced typ = true) (hheard : s.heard n typ h = true)
    (hdoes : Q (body ((s.judged n h).inOrder n)) (s.judged n h)) :
    Runs c s fun t => ∃ u, t = State.coSettle u n ∧ ∀ v, v = s.judged n h → Q u v :=
  ⟨_, hexec, _, recv_heard hseq hheard body0 body, fun _ hv => hv ▸ hdoes⟩

theorem inOrder_rejectReason (v : State) (n : Fin 16) (p : Proposal) : (v.inOrder n).rejectReason n p = v.rejectReason n p := by
  have hown : ((v.inOrder n).co n).ownCap = (v.co n).ownCap := by rw [inOrder_co]
  have hcap : ((v.inOrder n).co n).cap = (v.co n).cap := by rw [inOrder_co]
  exact rejectReason_congr hown hcap rfl p

theorem inOrder_prop (v : State) (n : Fin 16) : ((v.inOrder n).co n).prop = (v.co n).prop := by rw [inOrder_co]

theorem inOrder_txTapsPend (v : State) (n : Fin 16) : ((v.inOrder n).lane n).txTapsPend = (v.lane n).txTapsPend := by
  rw [inOrder, modCo, lane_modLane, modCo, lane_modLane]

/-! ## CAP, PROPOSE, ACCEPT and REJECT -/

theorem cap_does (b : CapMsg) (hheard : s.heard n 0x01 h = true) : Runs (.cap n h b) s fun t =>
    ∃ u, t = State.coSettle u n ∧ ∀ v, v = s.judged n h →
      u.rd (K.LINE_CO_PEER_PHASE n) = h.phase.toNat ∧ u.rd (K.LINE_CO_PEER_ID n) = b.uid.toNat ∧
      (u.co n).cap = some ⟨b.uid.toNat, b.pgMode.toNat, b.formats.toNat % 4, b.flags.toNat.testBit 3, b.flags.toNat.testBit 2,
        b.flags.toNat % 4, b.main.toNat, b.policy.toNat⟩ ∧
      u.coFlag n 7 = false ∧ u.coFlag n 8 = (b.uid.toNat == State.uid) ∧
      (b.uid.toNat = State.uid → v.coFlag n 8 = false → CountsUp v u (K.LINE_CO_LOOPBACK n) 1) ∧ u.phase n = v.phase n := by
  obtain ⟨hpeer, hsilent⟩ := heard_noted rfl (by decide) hheard
  refine runs_heard (exec_cap s n h b) rfl hheard ?_
  generalize s.judged n h = v at hpeer hsilent ⊢
  obtain ⟨hrd, hid, hcap, hseven, height, hloop, hphase⟩ := capBody_does (v.inOrder n) n ⟨b.uid.toNat, b.pgMode.toNat, b.formats.toNat % 4,
    b.flags.toNat.testBit 3, b.flags.toNat.testBit 2, b.flags.toNat % 4, b.main.toNat, b.policy.toNat⟩ b.uid.isLt
  exact ⟨hrd.trans hpeer, hid, hcap, hseven.trans hsilent, height, hloop, hphase⟩

theorem propose_does (num format precode time : BitVec 8) (hheard : s.heard n 0x02 h = true) :
    Runs (.propose n h num format precode time) s fun t =>
      ∃ u, t = State.coSettle u n ∧ ∀ v, v = s.judged n h →
        (v.binding n = false → u.phase n = 3) ∧ (v.binding n = true → u.phase n = v.phase n) ∧ (u.co n).heardPropose = true ∧
        ∀ p, p = Proposal.mk num.toNat format.toNat precode.toNat time.toNat → v.phase n = 3 ∨ v.binding n = true →
          ((v.co n).prop = none → v.rejectReason n p = none → (u.co n).accepted = some p) ∧
          ((v.co n).prop = none → v.rejectReason n p ≠ none → CountsUp v u (K.LINE_CO_REJECT_TX n) 1) ∧
          ((v.co n).prop ≠ none → v.idHigher n = true → ((u.co n).prop = (v.co n).prop ∧ ∀ x, u.rd x = v.rd x)) ∧
          ((v.co n).prop ≠ none → v.idHigher n = false → ((u.co n).prop = none ∧ CountsUp v u (K.LINE_CO_TIE_YIELD n) 1)) := by
  obtain ⟨h3, -⟩ := heard_phase rfl hheard
  refine runs_heard (exec_propose s n h num format precode time) rfl hheard ?_
  generalize s.judged n h = v at h3 ⊢
  obtain ⟨hfree, hbound, hnoted, hanswer⟩ :=
    proposeBody_does (v.inOrder n) n (Proposal.mk num.toNat format.toNat precode.toNat time.toNat) h3
  rw [inOrder_prop, inOrder_rejectReason] at hanswer
  exact ⟨hfree, hbound, hnoted, fun p hp hwhere => hp ▸ hanswer hwhere⟩

theorem accept_does (num format precode time : BitVec 8) (hheard : s.heard n 0x03 h = true) :
    Runs (.accept n h num format precode time) s fun t =>
      ∃ u, t = State.coSettle u n ∧ ∀ v, v = s.judged n h →
        ∀ p, p = Proposal.mk num.toNat format.toNat precode.toNat time.toNat →
        ((v.co n).prop = some p → v.binding n = false → (v.pg (pgOf n)).fixed = 0 ∨ (v.pg (pgOf n)).fixed = p.format →
          u.phase n = 4 ∧ u.rd (K.LINE_CO_AGR n) = num.toNat ∧ u.rd (K.LINE_FORMAT n) = format.toNat ∧
          u.coFlag n 2 = true ∧ u.coFlag n 3 = time.toNat.testBit 0 ∧ (u.co n).precOwn = precode.toNat.testBit 0 ∧
          (u.co n).precFar = precode.toNat.testBit 1) ∧
        ((v.co n).prop = some p → v.binding n = true → u.phase n = v.phase n ∧ ∀ x, u.rd x = v.rd x) ∧
        ((v.co n).prop ≠ some p → CountsUp v u (K.LINE_CO_CONTRADICT n) 1 ∧ u.phase n = 3) := by
  obtain ⟨hlow, hhigh⟩ := heard_phase rfl hheard
  refine runs_heard (exec_accept s n h num format precode time) rfl hheard ?_
  generalize s.judged n h = v at hlow hhigh ⊢
  intro p hp
  rw [← hp, ← inOrder_prop v n]
  refine ⟨fun hown hfree hfixed => ?_, fun hown hbound => ?_, fun hother => ?_⟩
  · have hagree : (v.inOrder n).acceptBody n p = (v.inOrder n).agreeTake n p true := by
      have hbinding : (v.inOrder n).binding n = false := hfree
      rw [acceptBody_own hown, hbinding, if_neg Bool.false_ne_true]
      exact if_pos (by rwa [Bool.or_eq_true, decide_eq_true_eq, decide_eq_true_eq])
    rw [hagree, hp]
    exact agreeTake_does (v.inOrder n) n num.isLt format.isLt
  · have hbinding : (v.inOrder n).binding n = true := hbound
    rw [acceptBody_own hown, if_pos hbinding]
    exact ⟨rfl, fun _ => rfl⟩
  · obtain ⟨hcount, hphase⟩ := acceptBody_other hother
    exact ⟨hcount, hphase.trans (Nat.le_antisymm hhigh hlow)⟩

theorem reject_does (num reason detail : BitVec 8) (hheard : s.heard n 0x04 h = true) : Runs (.reject n h num reason detail) s fun t =>
    ∃ u, t = State.coSettle u n ∧ ∀ v, v = s.judged n h →
      CountsUp v u (K.LINE_CO_REJECT_RX n) 1 ∧
      (1 ≤ reason.toNat ∧ reason.toNat ≤ 5 ∨ v.binding n = true → u.phase n = v.phase n) ∧
      (reason.toNat = 0 ∨ 5 < reason.toNat → v.binding n = false → u.phase n = 3) := by
  obtain ⟨h3, -⟩ := heard_phase rfl hheard
  refine runs_heard (exec_reject s n h num reason detail) rfl hheard ?_
  generalize s.judged n h = v at h3 ⊢
  obtain ⟨hcount, hstays, hback⟩ := rejectBody_does (v.inOrder n) n num.toNat reason.toNat
  exact ⟨hcount, hstays, fun hsix hfree => hback hsix hfree h3⟩

/-! ## The TXEQ messages -/

theorem txeqReq_does (id main : BitVec 8) (taps : List (BitVec 16)) (hheard : s.heard n 0x05 h = true) :
    Runs (.txeqReq n h id main taps) s fun t =>
      ∃ u, t = State.coSettle u n ∧ ∀ v, v = s.judged n h →
        ∀ l, l = (List.range 9).map (getI (taps.map BitVec.toInt)) →
        (main.toNat = v.rd (K.LINE_TX_FFE_MAIN n) → txTapsOk main.toNat l = true →
          (u.lane n).txTapsPend = some l ∧ (u.co n).ackOwed = some id.toNat) ∧
        (main.toNat ≠ v.rd (K.LINE_TX_FFE_MAIN n) ∨ txTapsOk main.toNat l = false →
          CountsUp v u (K.LINE_CO_TXEQ_REFUSED n) 1 ∧ (u.lane n).txTapsPend = (v.lane n).txTapsPend) := by
  refine runs_heard (exec_txeqReq s n h id main taps) rfl hheard ?_
  generalize s.judged n h = v
  rintro l rfl
  rw [← inOrder_txTapsPend v n]
  refine ⟨fun hmain hok => ?_, fun hbad => ?_⟩
  · exact txeqReqBody_applies (s := v.inOrder n) hmain hok
  · exact txeqReqBody_refuses (s := v.inOrder n) hbad

theorem txeqAck_does (id result : BitVec 8) (taps : List (BitVec 16)) (hheard : s.heard n 0x06 h = true) :
    Runs (.txeqAck n h id result taps) s fun t =>
      ∃ u, t = State.coSettle u n ∧ ∀ v, v = s.judged n h →
        u.rd (K.LINE_CO_FAR_TAPS n) = beNat (tapBytes (taps.map BitVec.toInt)) % 2 ^ 144 ∧
        (u.co n).farKnown = true ∧ (result ≠ 0 → CountsUp v u (K.LINE_CO_TXEQ_DENIED n) 1) := by
  refine runs_heard (exec_txeqAck s n h id result taps) rfl hheard ?_
  generalize s.judged n h = v
  obtain ⟨htaps, hknown, hdenied⟩ := txeqAckBody_does (v.inOrder n) n id.toNat result.toNat (taps.map BitVec.toInt)
  exact ⟨htaps, hknown, fun hresult => hdenied fun hzero => hresult (BitVec.eq_of_toNat_eq hzero)⟩

/-! ## STATUS, READY, KEEPALIVE and BIND -/

theorem status_does (agr lock fill verify : BitVec 8) (hheard : s.heard n 0x07 h = true) :
    Runs (.status n h agr lock fill verify) s fun t =>
      ∃ u, t = State.coSettle u n ∧ ∀ v, v = s.judged n h →
        (v.agrDiffers n agr.toNat = false → verify.toNat ≠ 2 ∨ v.binding n = true →
          u.coFlag n 4 = lock.toNat.testBit 0 ∧ u.coFlag n 5 = fill.toNat.testBit 0 ∧ u.coFlag n 6 = fill.toNat.testBit 1 ∧
          u.phase n = v.phase n ∧ Changes [K.LINE_CO_FLAGS n] v u) ∧
        (v.agrDiffers n agr.toNat = false → verify.toNat = 2 → v.binding n = false → u.phase n = 4) := by
  refine runs_heard (exec_status s n h agr lock fill verify) rfl hheard ?_
  generalize s.judged n h = v
  refine ⟨fun hagrees hverify => ?_, fun hagrees hverify hfree => ?_⟩
  · rw [underAgr_same (s := v.inOrder n) hagrees]
    exact statusBody_shows (s := v.inOrder n) hverify lock.toNat fill.toNat
  · rw [underAgr_same (s := v.inOrder n) hagrees, hverify]
    exact statusBody_retrains (s := v.inOrder n) hfree lock.toNat fill.toNat

theorem ready_does (agr done : BitVec 8) (hheard : s.heard n 0x08 h = true) (hagrees : (s.judged n h).agrDiffers n agr.toNat = false) :
    Runs (.ready n h agr done) s fun t =>
      ∃ u, t = State.coSettle u n ∧ ∀ v, v = s.judged n h →
        (v.phase n ≤ done.toNat → (u.co n).peerReady.contains done.toNat = true) ∧
        (done.toNat < v.phase n → (u.co n).peerReady = (v.co n).peerReady) ∧ ∀ x, u.rd x = v.rd x := by
  refine runs_heard (exec_ready s n h agr done) rfl hheard ?_
  generalize s.judged n h = v at hagrees ⊢
  obtain ⟨hheld, hpast, hrd⟩ := readyBody_does (v.inOrder n) n done.toNat
  rw [underAgr_same (s := v.inOrder n) hagrees]
  exact ⟨hheld, fun hlt => (hpast hlt).trans (by rw [inOrder_co]), hrd⟩

theorem keepalive_does (agr : BitVec 8) (hheard : s.heard n 0x42 h = true) (hagrees : (s.judged n h).agrDiffers n agr.toNat = false) :
    Runs (.keepalive n h agr) s fun t =>
      ∃ u, t = State.coSettle u n ∧ u = s.judged n h ∧ u.rd (K.LINE_CO_PEER_PHASE n) = h.phase.toNat ∧ u.coFlag n 7 = false :=
  ⟨_, exec_keepalive s n h agr, _, recv_heard_plain rfl hheard 0 _, underAgr_same hagrees id, by
    rw [underAgr_same hagrees]
    exact heard_noted rfl (by decide) hheard⟩

theorem bind_does (hheard : s.heard n 0x09 h = true) : Runs (.bind n h) s fun t =>
    ∃ u, t = State.coSettle u n ∧ ∀ v, v = s.judged n h →
      CountsUp v u (K.LINE_CO_BIND_RX n) 1 ∧ u.rd (K.LINE_CO_LAST_FAIL n) = v.phase n * 256 + 8 ∧
      (v.binding n = false → u.phase n = 1 ∧ u.rd (K.LINE_CO_SESSION n) = v.rd (K.LINE_CO_SESSION n) ∧ (u.co n).out = [] ∧
        (u.co n).e = 0) ∧
      (v.binding n = true → u.phase n = v.phase n ∧ (u.co n).bind = (v.co n).bind ∧ u.binding n = true) := by
  obtain ⟨-, h7⟩ := heard_phase rfl hheard
  refine runs_heard (exec_bind s n h) rfl hheard ?_
  generalize s.judged n h = v at h7 ⊢
  obtain ⟨hcount, hfail, hfree, hbound⟩ := bindBody_does (s := v.inOrder n) h7
  have hbind : ((v.inOrder n).co n).bind = (v.co n).bind := by rw [inOrder_co]
  rw [hbind] at hbound
  exact ⟨hcount, hfail, hfree, hbound⟩

/-- Above another AGR than the lane's (R205). -/
theorem contradicted {v w : State} {agr : Nat} (hrd : ∀ k, w.rd k = v.rd k) (h4 : 4 ≤ v.phase n) (hpeer : 4 ≤ v.rd (K.LINE_CO_PEER_PHASE n))
    (hagr : agr ≠ v.rd (K.LINE_CO_AGR n)) (f : State → State) : CountsUp v (w.underAgr n agr f) (K.LINE_CO_CONTRADICT n) 1 ∧
    (v.binding n = true → (w.underAgr n agr f).phase n = v.phase n) ∧
    (v.binding n = false → (w.underAgr n agr f).phase n = 3 ∧ (w.underAgr n agr f).rd (K.LINE_CO_AGR n) = 0) := by
  have hphase : w.phase n = v.phase n := hrd _
  have hbinding : w.binding n = v.binding n := bit_of_rd (hrd _) 0
  have hother : w.underAgr n agr f = w.contradict n (w.rd (K.LINE_CO_AGR n)) :=
    underAgr_other (hphase.symm ▸ h4) ((hrd _).symm ▸ hpeer) ((hrd _).symm ▸ hagr) f
  obtain ⟨hcount, hbound, hfree⟩ := contradict_does w n (w.rd (K.LINE_CO_AGR n))
  rw [hother, CountsUp, ← hrd, ← hphase, ← hbinding]
  exact ⟨hcount, hbound, hfree⟩

theorem otherAgr_does (agr lock fill verify done : BitVec 8) (c : Instr)
    (hc : c = .status n h agr lock fill verify ∧ s.heard n 0x07 h = true ∨ c = .ready n h agr done ∧ s.heard n 0x08 h = true ∨
      c = .keepalive n h agr ∧ s.heard n 0x42 h = true)
    (h4 : 4 ≤ (s.judged n h).phase n) (hpeer : 4 ≤ (s.judged n h).rd (K.LINE_CO_PEER_PHASE n))
    (hagr : agr.toNat ≠ (s.judged n h).rd (K.LINE_CO_AGR n)) : Runs c s fun t =>
      ∃ u, t = State.coSettle u n ∧ ∀ v, v = s.judged n h →
        CountsUp v u (K.LINE_CO_CONTRADICT n) 1 ∧ (v.binding n = true → u.phase n = v.phase n) ∧
        (v.binding n = false → u.phase n = 3 ∧ u.rd (K.LINE_CO_AGR n) = 0) := by
  obtain ⟨rfl, hheard⟩ | ⟨rfl, hheard⟩ | ⟨rfl, hheard⟩ := hc
  · exact runs_heard (exec_status s n h agr lock fill verify) rfl hheard (contradicted (inOrder_rd _ n) h4 hpeer hagr _)
  · exact runs_heard (exec_ready s n h agr done) rfl hheard (contradicted (inOrder_rd _ n) h4 hpeer hagr _)
  · exact ⟨_, exec_keepalive s n h agr, _, recv_heard_plain rfl hheard 0 _, fun v hv => hv ▸ contradicted (fun _ => rfl) h4 hpeer hagr id⟩

/-! ## The first packet -/

/-- Each of these messages is received by its type, and what a lane in C2 makes of it is known. -/
theorem exec_opensWith (s : State) (n : Fin 16) (h : MsgHead) (b : CapMsg) (a1 a2 a3 a4 : BitVec 8) (taps : List (BitVec 16)) (c : Instr)
    (hc : c = .cap n h b ∨ c = .propose n h a1 a2 a3 a4 ∨ c = .accept n h a1 a2 a3 a4 ∨ c = .reject n h a1 a2 a3 ∨
      c = .txeqReq n h a1 a2 taps ∨ c = .txeqAck n h a1 a2 taps ∨ c = .status n h a1 a2 a3 a4 ∨ c = .ready n h a1 a2 ∨
      c = .keepalive n h a1) :
    ∃ typ body0 body, exec c s = .next (s.recv n typ h body0 body) ∧ OpensWith n typ body := by
  obtain rfl | rfl | rfl | rfl | rfl | rfl | rfl | rfl | rfl := hc
  · exact ⟨_, _, _, exec_cap s n h b, .cap _⟩
  · exact ⟨_, _, _, exec_propose s n h a1 a2 a3 a4, .early rfl rfl _⟩
  · exact ⟨_, _, _, exec_accept s n h a1 a2 a3 a4, .early rfl rfl _⟩
  · exact ⟨_, _, _, exec_reject s n h a1 a2 a3, .early rfl rfl _⟩
  · exact ⟨_, _, _, exec_txeqReq s n h a1 a2 taps, .early rfl rfl _⟩
  · exact ⟨_, _, _, exec_txeqAck s n h a1 a2 taps, .early rfl rfl _⟩
  · exact ⟨_, _, _, exec_status s n h a1 a2 a3 a4, .early rfl rfl _⟩
  · exact ⟨_, _, _, exec_ready s n h a1 a2, .early rfl rfl _⟩
  · exact ⟨_, _, _, exec_keepalive s n h a1, .keepalive _⟩

/-- Settles O27, message by message. -/
theorem castOnMessages : Obligations.CastOnMessages := by
  unfold Obligations.CastOnMessages
  refine ⟨fun s n h b => cap_does b, fun s n h num format precode time => propose_does num format precode time,
    fun s n h num format precode time => accept_does num format precode time, fun s n h num reason detail => reject_does num reason detail,
    fun s n h id main taps => txeqReq_does id main taps, fun s n h id result taps => txeqAck_does id result taps,
    fun s n h agr lock fill verify => status_does agr lock fill verify, fun s n h agr done => ready_does agr done,
    fun s n h => bind_does, fun s n h agr => keepalive_does agr,
    fun s n h agr lock fill verify done c => otherAgr_does agr lock fill verify done c,
    fun s n h b a1 a2 a3 a4 taps c hc => ?_⟩
  obtain ⟨typ, body0, body, hexec, hwith⟩ := exec_opensWith s n h b a1 a2 a3 a4 taps c hc
  refine ⟨fun h1 hses hphase hout hdepth => ?_, fun h0 hbad => ?_, fun h0 => ?_⟩
  · obtain ⟨h2, hsession, hpeer, -, hcap⟩ := recv_opens hwith h1 hses hphase hout hdepth body0
    exact ⟨_, hexec, h2, hsession, hpeer, hcap⟩
  · exact ⟨_, hexec, recv_headOnly (recvHead_malformed h0 hbad) typ body0 body⟩
  · exact ⟨_, hexec, recv_headOnly (recvHead_deaf h0) typ body0 body⟩

end Sys2Proof.Machine
end

section
/-!
SUPPORT. A candidate that supersedes (Table 8-6) where none is pending: `PICOT_RX_IGNORED` is not written. The register store holds a plain
number for each entry, and its canonical form does not bound the number by the entry's type, as a write does.
-/

namespace Sys2Proof.Machine

/-- A counter that reads as before and is said to have gone up by 0 stands within its type. -/
theorem CountsUp.le_of_stands {s t : State} {k : Key} (h : CountsUp s t k 0) (hrd : t.rd k = s.rd k) : s.rd k ≤ 2 ^ bitsOf k - 1 := by
  rw [CountsUp, hrd, Nat.add_zero] at h
  exact h.le.trans (Nat.min_le_right _ _)

namespace State

variable {s : State} {n : Fin 16} {p : Int}

theorem rd_picotStore (s : State) (n : Fin 16) (sym : List Int) (k : Key) : (s.picotStore n sym).rd k = s.rd k := by
  rw [picotStore, rd_ite, modPicot_rd, ite_self]

/-- Symbols that come in are stored; the attempt and the pending candidate stand. -/
theorem picot_picotStore (s : State) (n : Fin 16) (sym : List Int) : ∃ disc symNo,
    (s.picotStore n sym).picot n = { s.picot n with disc := disc, symNo := symNo } := by
  unfold picotStore
  split
  · exact ⟨_, _, rfl⟩
  · exact ⟨_, _, by rw [picot, modPicot, lane_modLane]; rfl⟩

theorem laneTested_picotStore (s : State) (n : Fin 16) (sym : List Int) : (s.picotStore n sym).laneTested n = s.laneTested n := by
  unfold picotStore
  split <;> rfl

/-- A candidate that supersedes an attempt in SYNC, where none is pending, writes its two counts (detected, superseded) and no other
entry. -/
theorem rd_picotCandidate_supersedes (htested : s.laneTested n = false) (hrx : (s.picot n).rx = .sync) (hpend : (s.picot n).pend = none)
    (hstrong : (s.picot n).strength + 600 ≤ p) (e : Nat) {k : Key} (hdetect : k ≠ K.PICOT_RX_DETECT n)
    (hsuper : k ≠ K.PICOT_RX_SUPERSEDED n) : (s.picotCandidate n p e).rd k = s.rd k := by
  have hnone : ∀ x y : Key, (((s.incSat x).incSat y).picot n).pend = none := fun _ _ => hpend
  have hdrop : ∀ x y : Key, ((s.incSat x).incSat y).picotDropPend n = (s.incSat x).incSat y := fun x y => by
    rw [picotDropPend, hnone, if_neg (by simp)]
  simp only [picotCandidate, htested, hrx, hstrong, hdrop, Bool.false_eq_true, if_true, if_false, modPicot_rd, rd_incSat, hdetect, hsuper]

/-- So does the command whose symbols hold such a candidate. -/
theorem picotCandidateEnd_supersedes {ds : List (BitVec 9 × BitVec 16 × BitVec 16)} {e : Nat} (htested : s.laneTested n = false)
    (hrx : (s.picot n).rx = .sync) (hpend : (s.picot n).pend = none) (hstrong : (s.picot n).strength + 600 ≤ p)
    (hcand : candidateOf (s.rd (K.PICOT_DET_THR n)) (s.rdI (K.PICOT_SQUELCH n)) (ds.map fun d => (d.1.toNat, d.2.1.toInt)) = some (p, e)) :
    Runs (.picotCandidateEnd n ds) s fun t =>
      ∀ k, k ≠ K.PICOT_RX_DETECT n → k ≠ K.PICOT_RX_SUPERSEDED n → t.rd k = s.rd k := by
  obtain ⟨disc, symNo, hstored⟩ := picot_picotStore s n (ds.map fun d => d.2.2.toInt)
  refine ⟨_, by rw [exec_picotCandidateEnd, execPicotCandidateEnd, hcand], fun k hdetect hsuper => ?_⟩
  rw [rd_picotCandidate_supersedes _ _ _ _ _ hdetect hsuper, rd_picotStore]
  · rw [laneTested_picotStore, htested]
  · rw [hstored]; exact hrx
  · rw [hstored]; exact hpend
  · rw [hstored]; exact hstrong

end State

/-- The device after reset, an attempt of -40 dBFS of L0 in SYNC, and a number of 33 bits in `PICOT_RX_IGNORED` of L0, a U32 (R253). -/
def ignoredTooWide : State :=
  { State.reset with store := [(K.OD_CORE_STATE, 1), (K.PICOT_RX_IGNORED 0, 2 ^ 32)] }.modPicot 0 fun m =>
    { m with rx := .sync, strength := -4000 }

/-- A detection at -20 dBFS, its correlation at the threshold (R246). -/
def strongCandidate : List (BitVec 9 × BitVec 16 × BitVec 16) := [(192, BitVec.ofInt 16 (-2000), 0)]

/-- The store has its canonical form; L0 hears, in SYNC, with no candidate pending. -/
theorem ignoredTooWide_reads :
    ignoredTooWide.storeOk = true ∧ ignoredTooWide.laneTested 0 = false ∧ (ignoredTooWide.picot 0).rx = .sync ∧
    (ignoredTooWide.picot 0).pend = none ∧ (ignoredTooWide.picot 0).strength + 600 ≤ -2000 ∧
    ignoredTooWide.rd (K.PICOT_RX_IGNORED 0) = 2 ^ 32 := by
  decide

theorem strongCandidate_detected : candidateOf (ignoredTooWide.rd (K.PICOT_DET_THR 0)) (ignoredTooWide.rdI (K.PICOT_SQUELCH 0))
    (strongCandidate.map fun d => (d.1.toNat, d.2.1.toInt)) = some (-2000, 1) := by
  decide

/-- Refutes O30: the clause on a superseding candidate asks that `PICOT_RX_IGNORED` go up by 0, saturating, where none is pending. It is
asserted of every state, and where the store holds a number above 2^32 - 1 for that counter, which no write leaves there, the command
leaves the number as it is. -/
theorem not_picotChannel : ¬ Obligations.PicotChannel := by
  unfold Obligations.PicotChannel
  rintro ⟨-, -, -, -, -, hcandidate, -⟩
  obtain ⟨-, htested, hrx, hpend, hstrong, hwide⟩ := ignoredTooWide_reads
  have hhears : (ignoredTooWide.picot 0).rx ≠ .off := by rw [hrx]; decide
  obtain ⟨t, hrun, -, -, -, -, -, -, hattempt⟩ :=
    hcandidate ignoredTooWide 0 strongCandidate hhears htested _ _ strongCandidate_detected
  obtain ⟨-, -, -, -, -, hignored⟩ := (hattempt (.inl hrx)).1 hstrong
  rw [if_pos hpend] at hignored
  obtain ⟨u, hexec, hstands⟩ := State.picotCandidateEnd_supersedes htested hrx hpend hstrong strongCandidate_detected
  obtain rfl : u = t := Host.Outcome.next.inj (hexec.symm.trans hrun)
  have hle := hignored.le_of_stands (hstands _ (by simp) (by simp))
  rw [hwide] at hle
  exact absurd hle (by decide)

end Sys2Proof.Machine
end

section
/-!
SUPPORT. The record of a lane's slip-stitch: what a change of it or of one of its slices leaves in it, and that each operation on it changes
its own lane alone.
-/

namespace Sys2Proof.Machine

namespace State

variable {s t : State} {n : Fin 16} {i j : Fin 17}

/-! ## The record and its slices -/

theorem ss_of_lanes (h : t.lanes = s.lanes) (n : Fin 16) : t.ss n = s.ss n := by rw [ss, ss, lane, lane, h]

theorem sliceOf_of_ss (h : t.ss n = s.ss n) (i : Fin 17) : t.sliceOf n i = s.sliceOf n i := by rw [sliceOf, sliceOf, h]

@[simp] theorem ss_modSs (s : State) (n : Fin 16) (f : SsS → SsS) : (s.modSs n f).ss n = f (s.ss n) := by
  rw [ss, modSs, lane_modLane]
  rfl

/-- A change of the record that keeps the slices. -/
theorem sliceOf_modSs {f : SsS → SsS} (hf : (f (s.ss n)).slices = (s.ss n).slices) (i : Fin 17) :
    (s.modSs n f).sliceOf n i = s.sliceOf n i := by
  rw [sliceOf, sliceOf, ss_modSs, hf]

@[simp] theorem ss_modSlice (s : State) (n : Fin 16) (i : Fin 17) (c : SliceS → SliceS) :
    (s.modSlice n i c).ss n = { s.ss n with slices := (s.ss n).slices.set i (c (s.sliceOf n i)) } := ss_modSs _ _ _

theorem sliceOf_modSlice (s : State) (n : Fin 16) (i j : Fin 17) (c : SliceS → SliceS) :
    (s.modSlice n i c).sliceOf n j = if j = i then c (s.sliceOf n i) else s.sliceOf n j := by
  rw [sliceOf, ss_modSlice]
  exact get_setVec _ _ _ _

@[simp] theorem sliceOf_modSlice_self (s : State) (n : Fin 16) (i : Fin 17) (c : SliceS → SliceS) :
    (s.modSlice n i c).sliceOf n i = c (s.sliceOf n i) := by
  rw [sliceOf_modSlice, if_pos rfl]

@[simp] theorem modSlice_rd (s : State) (n : Fin 16) (i : Fin 17) (c : SliceS → SliceS) (k : Key) : (s.modSlice n i c).rd k = s.rd k :=
  modSs_rd _ _ _ _

@[simp] theorem lane_modSs_ne (s : State) {n m : Fin 16} (f : SsS → SsS) (h : m ≠ n) : (s.modSs n f).lane m = s.lane m :=
  lane_modLane_ne s _ h

/-- The spare serves no slot. -/
theorem st_of_sliceSpare (h : s.sliceSpare n = some i) : (s.sliceOf n i).st = 1 ∨ (s.sliceOf n i).st = 2 := by
  simpa using List.find?_some h

theorem st_of_sliceAt {slot : Nat} (h : s.sliceAt n slot = some j) : (s.sliceOf n j).st = 0 := by
  have hserves := List.find?_some h
  rw [Bool.and_eq_true, beq_iff_eq, beq_iff_eq] at hserves
  exact hserves.1

/-- The spare is none of the slices that serve. -/
theorem ne_of_sliceSpare_sliceAt {slot : Nat} (hi : s.sliceSpare n = some i) (hj : s.sliceAt n slot = some j) : i ≠ j := fun heq => by
  have hspare := st_of_sliceSpare hi
  have hserves := st_of_sliceAt hj
  rw [heq] at hspare
  omega

/-- Which slices serve, which is the spare and which slot a retest names stand in the record. -/
theorem retestSlot_of_lanes (h : t.lanes = s.lanes) (n : Fin 16) : t.retestSlot n = s.retestSlot n := by
  have hslices : t.sliceOf n = s.sliceOf n := funext (sliceOf_of_ss (ss_of_lanes h n))
  unfold retestSlot nextSlot oldestSlice
  rw [hslices, ss_of_lanes h]

theorem sliceOut_of_lanes (h : t.lanes = s.lanes) (n : Fin 16) : t.sliceOut n = s.sliceOut n := by
  simp only [sliceOut, sliceOf, ss_of_lanes h]

/-! ## One lane's change -/

variable (s n i)

theorem modSs_onlyLanes (f : SsS → SsS) : OnlyLanes [n] s (s.modSs n f) := .modLane s n _

theorem modSlice_onlyLanes (c : SliceS → SliceS) : OnlyLanes [n] s (s.modSlice n i c) := modSs_onlyLanes s n _

theorem incSat_onlyLanes (o x : Nat) : OnlyLanes [n] s (s.incSat ⟨.line n, o, x⟩) := .wr s n o x _

theorem sliceReport_onlyLanes (what cause : Nat) : OnlyLanes [n] s (s.sliceReport n i what cause) := by
  have hmark : ∀ z : State, OnlyLanes [n] z (z.wr K.CAL_SLICE_FAIL_LANES (z.rd K.CAL_SLICE_FAIL_LANES ||| 2 ^ n.val)) := fun z =>
    ⟨fun _ _ => rfl, fun _ _ _ hne => rd_wr_ne z _ hne, rfl, rfl, rfl, fun _ _ h => raised_of_rd (rd_wr_ne z _ (by simp)) h⟩
  exact (((OnlyLanes.wr _ n _ _ _).trans (.record _ _ _ _ _)).trans (hmark _)).trans (.raise _ _ _)

theorem sliceFailed_onlyLanes (cause : Nat) : OnlyLanes [n] s (s.sliceFailed n i cause) := by
  unfold sliceFailed
  exact (((modSlice_onlyLanes s n i _).trans (incSat_onlyLanes _ n _ _)).trans (sliceReport_onlyLanes _ n i 1 cause)).trans
    (modSs_onlyLanes _ n _)

theorem ssFollow_onlyLanes : OnlyLanes [n] s (s.ssFollow n) := by
  have hstart : OnlyLanes [n] s (s.ssStart n) := by
    unfold ssStart
    split
    · exact (modSlice_onlyLanes s n _ _).trans (modSs_onlyLanes _ n _)
    · exact modSs_onlyLanes s n _
  have hstop : OnlyLanes [n] s (s.ssStop n) := by
    unfold ssStop
    dsimp only
    split
    · exact (modSlice_onlyLanes s n _ _).trans (modSs_onlyLanes _ n _)
    · exact modSs_onlyLanes s n _
  exact .ite _ (.ite _ hstart (.refl _ s)) (.ite _ (.refl _ s) hstop)

theorem rxSubstituted_onlyLanes : OnlyLanes [n] s (s.rxSubstituted n) := by
  have hfreeze : ∀ f : LaneS → LaneS, OnlyLanes [n] s (s.followFreeze n fun z => z.modLane n f) := fun f =>
    .ite _ ((OnlyLanes.modLane s n f).trans (.modLane _ n _)) (.modLane s n f)
  exact .ite _ (((hfreeze _).trans (.wr _ n _ _ _)).trans (.modLane _ n _)) (hfreeze _)

end State

end Sys2Proof.Machine
end

section
/-!
SUPPORT. The steps of an attempt (R257 to R263, Table 9-2) and the end of the interval (R258, R262).
-/

namespace Sys2Proof.Machine

namespace State

variable {s : State} {n : Fin 16} {i : Fin 17} {v : Nat}

/-! ## Failure (R262) -/

/-- A failed attempt is counted, on its slice and in the lane's entries. -/
def failCounted (s : State) (n : Fin 16) (i : Fin 17) (cause : Nat) : State :=
  ((s.modSlice n i fun c => { c with fails := min 7 ((s.sliceOf n i).fails + 1) }).incSat (K.LINE_SS_ATTEMPT_FAIL n)).wr
    (K.LINE_SS_LAST_FAIL n) (i.val * 256 + cause)

theorem failCounted_onlyLanes (s : State) (n : Fin 16) (i : Fin 17) (cause : Nat) : OnlyLanes [n] s (s.failCounted n i cause) :=
  ((modSlice_onlyLanes s n i _).trans (incSat_onlyLanes _ n _ _)).trans (.wr _ n _ _ _)

theorem ss_failCounted (s : State) (n : Fin 16) (i : Fin 17) (cause : Nat) : (s.failCounted n i cause).ss n =
    (s.modSlice n i fun c => { c with fails := min 7 ((s.sliceOf n i).fails + 1) }).ss n := rfl

theorem sliceOf_failCounted (s : State) (n : Fin 16) (i : Fin 17) (cause : Nat) : (s.failCounted n i cause).sliceOf n i =
    { s.sliceOf n i with fails := min 7 ((s.sliceOf n i).fails + 1) } :=
  (sliceOf_of_ss (ss_failCounted s n i cause) i).trans (sliceOf_modSlice_self s n i _)

theorem rd_failCounted (s : State) (n : Fin 16) (i : Fin 17) {cause : Nat} (hcause : cause < 256) (k : Key) :
    (s.failCounted n i cause).rd k = if k = K.LINE_SS_LAST_FAIL n then i.val * 256 + cause
      else (s.incSat (K.LINE_SS_ATTEMPT_FAIL n)).rd k := by
  have hbits : bitsOf (K.LINE_SS_LAST_FAIL n) = 16 := rfl
  rw [failCounted, rd_wr, hbits, Nat.mod_eq_of_lt (by omega), rd_incSat, rd_incSat, modSlice_rd, modSlice_rd]

/-- The report of a slice writes its cause and marks its lane (R262, R274). -/
theorem rd_sliceReport (s : State) (n : Fin 16) (i : Fin 17) (what : Nat) {cause : Nat} (hcause : cause < 256) {k : Key}
    (ha : k.area ≠ none) (hmark : k ≠ K.CAL_SLICE_FAIL_LANES) :
    (s.sliceReport n i what cause).rd k = if k = K.LINE_SS_LAST_FAIL n then i.val * 256 + cause else s.rd k := by
  have hbits : bitsOf (K.LINE_SS_LAST_FAIL n) = 16 := rfl
  rw [sliceReport, rd_raiseIn _ _ _ _ ha, if_neg hmark, rd_record_area _ _ _ _ _ ha, rd_wr, hbits, Nat.mod_eq_of_lt (by omega)]

theorem sliceReport_lanes (s : State) (n : Fin 16) (i : Fin 17) (what cause : Nat) : (s.sliceReport n i what cause).lanes = s.lanes := by
  rw [sliceReport, raiseIn_eq, raise_lanes, wr_lanes, record_lanes, wr_lanes]

/-- A FAILED slice is no spare: the attempts stop, it is counted and reported (R262). -/
theorem sliceFailed_does (s : State) (n : Fin 16) (i : Fin 17) {cause : Nat} (hcause : cause < 256) :
    ((s.sliceFailed n i cause).ss n).step = 0 ∧ ((s.sliceFailed n i cause).sliceOf n i).st = 3 ∧
    CountsUp s (s.sliceFailed n i cause) (K.LINE_SS_SLICE_FAILED n) 1 ∧ Raised (s.sliceFailed n i cause) Src.SLICE_FAIL ∧
    (s.sliceFailed n i cause).rd (K.LINE_SS_LAST_FAIL n) = i.val * 256 + cause ∧
    (s.sliceFailed n i cause).rd (K.LINE_SS_ATTEMPT_FAIL n) = s.rd (K.LINE_SS_ATTEMPT_FAIL n) := by
  refine ⟨?_, ?_, ?_, ?_, ?_, ?_⟩
  · rw [sliceFailed, ss_modSs]
  · rw [sliceFailed, sliceOf_modSs (by rfl), sliceOf_of_ss (ss_of_lanes (sliceReport_lanes _ _ _ _ _) n),
      sliceOf_of_ss (ss_of_lanes (incSat_lanes _ _) n), sliceOf_modSlice_self]
  · rw [CountsUp, sliceFailed, modSs_rd, rd_sliceReport _ _ _ _ hcause (by simp) (by simp), if_neg (by simp), rd_incSat,
      if_pos rfl, modSlice_rd]
  · exact raised_raiseIn _ _ _ (by decide)
  · rw [sliceFailed, modSs_rd, rd_sliceReport _ _ _ _ hcause (by simp) (by simp), if_pos rfl]
  · rw [sliceFailed, modSs_rd, rd_sliceReport _ _ _ _ hcause (by simp) (by simp), if_neg (by simp), rd_incSat, if_neg (by simp),
      modSlice_rd]

/-- An attempt that is no retest starts again below the limit of attempts; at the limit its slice is FAILED (R262). -/
theorem ssFail_eq (h : (s.ss n).retest = false) (i : Fin 17) (cause : Nat) : s.ssFail n i cause =
    if s.rd (K.LINE_SS_ATTEMPTS n) ≤ min 7 ((s.sliceOf n i).fails + 1) then (s.failCounted n i cause).sliceFailed n i cause
    else (s.failCounted n i cause).modSs n fun x => { x with step := 1 } := by
  rw [ssFail, h]
  rfl

theorem ssFail_onlyLanes (s : State) (n : Fin 16) (i : Fin 17) (cause : Nat) : OnlyLanes [n] s (s.ssFail n i cause) := by
  have hcounted := failCounted_onlyLanes s n i cause
  have hagain : ∀ f : SsS → SsS, OnlyLanes [n] s ((s.failCounted n i cause).modSs n f) := fun f => hcounted.trans (modSs_onlyLanes _ n f)
  have hfailed := hcounted.trans (sliceFailed_onlyLanes _ n i cause)
  exact .ite _ (.ite _ (.ite _ (hagain _) hfailed) (hagain _)) (.ite _ hfailed (hagain _))

/-- What a failed attempt of the spare leads to (R262). -/
theorem ssFail_does (h : (s.ss n).retest = false) (i : Fin 17) {cause : Nat} (hcause : cause < 256) :
    CountsUp s (s.ssFail n i cause) (K.LINE_SS_ATTEMPT_FAIL n) 1 ∧
    (s.ssFail n i cause).rd (K.LINE_SS_LAST_FAIL n) = i.val * 256 + cause ∧
    (min 7 ((s.sliceOf n i).fails + 1) < s.rd (K.LINE_SS_ATTEMPTS n) → ((s.ssFail n i cause).ss n).step = 1 ∧
      ((s.ssFail n i cause).sliceOf n i).fails = min 7 ((s.sliceOf n i).fails + 1) ∧
      ((s.ssFail n i cause).sliceOf n i).st = (s.sliceOf n i).st) ∧
    (s.rd (K.LINE_SS_ATTEMPTS n) ≤ min 7 ((s.sliceOf n i).fails + 1) → ((s.ssFail n i cause).ss n).step = 0 ∧
      ((s.ssFail n i cause).sliceOf n i).st = 3 ∧ CountsUp s (s.ssFail n i cause) (K.LINE_SS_SLICE_FAILED n) 1 ∧
      Raised (s.ssFail n i cause) Src.SLICE_FAIL) := by
  have hcount : CountsUp s (s.failCounted n i cause) (K.LINE_SS_ATTEMPT_FAIL n) 1 := by
    rw [CountsUp, rd_failCounted _ _ _ hcause, if_neg (by simp)]
    exact countsUp_incSat s _
  rw [ssFail_eq h]
  by_cases hlimit : s.rd (K.LINE_SS_ATTEMPTS n) ≤ min 7 ((s.sliceOf n i).fails + 1)
  · obtain ⟨hstep, hst, hfailed, hraised, hlast, hkept⟩ := sliceFailed_does (s.failCounted n i cause) n i hcause
    have hbefore : (s.failCounted n i cause).rd (K.LINE_SS_SLICE_FAILED n) = s.rd (K.LINE_SS_SLICE_FAILED n) := by
      rw [rd_failCounted _ _ _ hcause, if_neg (by simp), rd_incSat, if_neg (by simp)]
    rw [if_pos hlimit]
    refine ⟨hkept.trans hcount, hlast, fun hbelow => absurd hlimit (Nat.not_le.mpr hbelow), fun _ => ⟨hstep, hst, ?_, hraised⟩⟩
    rwa [CountsUp, hbefore] at hfailed
  · have hslice := sliceOf_failCounted s n i cause
    rw [if_neg hlimit]
    refine ⟨hcount, ?_, fun _ => ⟨?_, ?_, ?_⟩, fun hat => absurd hat hlimit⟩
    · rw [modSs_rd, rd_failCounted _ _ _ hcause, if_pos rfl]
    · rw [ss_modSs]
    · rw [sliceOf_modSs (by rfl), hslice]
    · rw [sliceOf_modSs (by rfl), hslice]

/-! ## The steps (Table 9-2) -/

theorem ssStepEnd_offset (hunder : s.ssUnder n = some i) (hstep : (s.ss n).step = 1) : s.ssStepEnd n v =
    if (sx 16 v).natAbs ≤ 4096 then (s.modSlice n i fun c => { c with off := sx 16 v }).modSs n fun x => { x with step := 2 }
    else s.ssFail n i 1 := by
  simp only [ssStepEnd, hunder, hstep]

theorem ssStepEnd_gain (hunder : s.ssUnder n = some i) (hstep : (s.ss n).step = 2) : s.ssStepEnd n v =
    if 28672 ≤ v && v ≤ 36864 then (s.modSlice n i fun c => { c with gain := v }).modSs n fun x => { x with step := 3 }
    else s.ssFail n i 2 := by
  simp only [ssStepEnd, hunder, hstep]

theorem ssStepEnd_skew (hunder : s.ssUnder n = some i) (hstep : (s.ss n).step = 3) : s.ssStepEnd n v =
    if s.losOn n then s
    else if (sx 16 v).natAbs ≤ 32 then
      (s.modSlice n i fun c => { c with skew := sx 16 v }).modSs n fun x => { x with step := if x.ended || x.retest then 5 else 4 }
    else s.ssFail n i 3 := by
  simp only [ssStepEnd, hunder, hstep]

theorem ssStepEnd_wait (hunder : s.ssUnder n = some i) (hstep : (s.ss n).step = 4) :
    s.ssStepEnd n v = s.modSs n fun x => { x with step := if s.losOn n then 3 else 5 } := by
  simp only [ssStepEnd, hunder, hstep]

theorem ssStepEnd_verify (hunder : s.ssUnder n = some i) (hstep : (s.ss n).step = 5) : s.ssStepEnd n v =
    if s.losOn n then s else if v ≤ s.rd (K.LINE_SS_VERIFY_THR n) then s.ssPass n i else s.ssFail n i 4 := by
  simp only [ssStepEnd, hunder, hstep]

/-- With no slice under calibration, or none of its steps under way, no step ends. -/
theorem ssStepEnd_idle (h : s.ssUnder n = none ∨ (s.ss n).step = 0 ∨ (s.ss n).step = 6) : s.ssStepEnd n v = s := by
  unfold ssStepEnd
  split
  · rfl
  · next hunder =>
    obtain h | h | h := h
    · rw [h] at hunder
      cases hunder
    · simp only [h]
    · simp only [h]

theorem ssPass_onlyLanes (s : State) (n : Fin 16) (i : Fin 17) : OnlyLanes [n] s (s.ssPass n i) := by
  unfold ssPass
  exact (modSlice_onlyLanes s n i _).trans (modSs_onlyLanes _ n _)

theorem ssPass_does (s : State) (n : Fin 16) (i : Fin 17) : ((s.ssPass n i).ss n).step = 6 ∧ ((s.ssPass n i).sliceOf n i).st = 2 ∧
    ((s.ssPass n i).sliceOf n i).fails = 0 ∧ ((s.ssPass n i).ss n).retest = false := by
  have hslice : (s.ssPass n i).sliceOf n i = { s.sliceOf n i with st := 2, fails := 0, age := 0, calAt := (s.ss n).calSeq } := by
    rw [ssPass, sliceOf_modSs (by rfl), sliceOf_modSlice_self]
  exact ⟨by rw [ssPass, ss_modSs], by rw [hslice], by rw [hslice], by rw [ssPass, ss_modSs]⟩

theorem ssStepEnd_onlyLanes (s : State) (n : Fin 16) (v : Nat) : OnlyLanes [n] s (s.ssStepEnd n v) := by
  have hcorrected : ∀ (i : Fin 17) (c : SliceS → SliceS) (f : SsS → SsS), OnlyLanes [n] s ((s.modSlice n i c).modSs n f) := fun i c f =>
    (modSlice_onlyLanes s n i c).trans (modSs_onlyLanes _ n f)
  have hfail := ssFail_onlyLanes s n
  unfold ssStepEnd
  split
  · exact .refl _ s
  · next i _ =>
    split
    · exact .ite _ (hcorrected i _ _) (hfail i 1)
    · exact .ite _ (hcorrected i _ _) (hfail i 2)
    · exact .ite _ (.refl _ s) (.ite _ (hcorrected i _ _) (hfail i 3))
    · exact modSs_onlyLanes s n _
    · exact .ite _ (.refl _ s) (.ite _ (ssPass_onlyLanes s n i) (hfail i 4))
    · exact .refl _ s

/-! ## The end of the interval (R258, R262) -/

/-- The interval has ended. -/
def intervalOver (s : State) (n : Fin 16) : State := s.modSs n fun y => { y with ended := true }

theorem ss_intervalOver (s : State) (n : Fin 16) : (s.intervalOver n).ss n = { s.ss n with ended := true } := ss_modSs _ _ _

theorem intervalOver_onlyLanes (s : State) (n : Fin 16) : OnlyLanes [n] s (s.intervalOver n) := modSs_onlyLanes s n _

/-- The slices serve as before. -/
theorem slices_intervalOver (s : State) (n : Fin 16) : (s.intervalOver n).sliceSpare n = s.sliceSpare n ∧
    (s.intervalOver n).sliceAt n ((s.intervalOver n).ss n).target = s.sliceAt n (s.ss n).target := by
  have hslices : (s.intervalOver n).sliceOf n = s.sliceOf n := funext (sliceOf_modSs (by rfl))
  unfold sliceSpare sliceAt
  rw [hslices, ss_intervalOver]
  exact ⟨rfl, rfl⟩

theorem ssIntervalEnd_idle (h : (s.ss n).step = 0 ∨ (s.ss n).retest = true ∨ (s.ss n).ended = true) : s.ssIntervalEnd n = s := by
  refine if_pos ?_
  obtain h | h | h := h <;> simp [h]

/-- The spare is not READY: the substitution is postponed. -/
theorem ssIntervalEnd_early (h1 : 1 ≤ (s.ss n).step) (h5 : (s.ss n).step ≤ 5) (hretest : (s.ss n).retest = false)
    (hended : (s.ss n).ended = false) : s.ssIntervalEnd n =
    ((s.intervalOver n).modSs n fun y => { y with postponed := true }).incSat (K.LINE_SS_POSTPONED n) := by
  have hruns : ¬((s.ss n).step = 0 || (s.ss n).retest || (s.ss n).ended) = true := by
    simp [hretest, hended, Nat.ne_of_gt h1]
  rw [ssIntervalEnd]
  dsimp only
  rw [if_neg hruns, if_neg (by omega)]
  rfl

/-- The spare is READY, and there is a signal: it substitutes. -/
theorem ssIntervalEnd_ready (h6 : (s.ss n).step = 6) (hretest : (s.ss n).retest = false) (hended : (s.ss n).ended = false)
    (hlos : s.losOn n = false) : s.ssIntervalEnd n = (s.intervalOver n).ssSubstitute n := by
  have hruns : ¬((s.ss n).step = 0 || (s.ss n).retest || (s.ss n).ended) = true := by
    simp [hretest, hended, h6]
  have hready : (s.intervalOver n).ssReady n = true := by
    have hstands : (s.intervalOver n).losOn n = s.losOn n := rfl
    rw [ssReady, ss_intervalOver, hstands]
    simp [h6, hlos]
  rw [ssIntervalEnd]
  dsimp only
  rw [if_neg hruns, if_pos h6]
  exact if_pos hready

end State

end Sys2Proof.Machine
end

section
/-!
SUPPORT. Substitution (R258, R260, R263): the spare takes over its target slot, the relieved slice is the next spare.
-/

namespace Sys2Proof.Machine

/-- A slice, one substitution later. -/
def SliceS.older (c : SliceS) : SliceS := { c with age := min 16383 (c.age + 1) }

/-- The record after a substitution that relieved slice `j`, which goes through a retest if it was suspect (R265). -/
def SsS.relieved (suspect : Bool) (j : Nat) (y : SsS) : SsS :=
  { y with rot := (y.rot + 1) % 17, ended := false, postponed := false, outOfTurn := false, subNow := false, step := 0
           retest := suspect, tries := 0, degraded := y.degraded.filter fun d => d != j }

namespace State

variable {s : State} {n : Fin 16} {i j : Fin 17}

/-! ## The slices -/

/-- A spare that is no longer READY: no slice changes but a READY one. -/
theorem sliceOf_modSlice_spare (hspare : s.sliceSpare n = some i) (hj : (s.sliceOf n j).st ≠ 2) :
    (s.modSlice n i fun c => { c with st := 1 }).sliceOf n j = s.sliceOf n j := by
  rw [sliceOf_modSlice]
  split
  · next heq =>
    subst heq
    have h1 : (s.sliceOf n j).st = 1 := (st_of_sliceSpare hspare).resolve_right hj
    rw [← h1]
  · rfl

/-- Rotation starts or stops without a change of any slice but a READY spare (R261). -/
theorem sliceOf_ssFollow (hj : (s.sliceOf n j).st ≠ 2) : (s.ssFollow n).sliceOf n j = s.sliceOf n j := by
  have hstart : (s.ssStart n).sliceOf n j = s.sliceOf n j := by
    unfold ssStart
    split
    · next hspare => rw [sliceOf_modSs (by rfl), sliceOf_modSlice_spare hspare hj]
    · exact sliceOf_modSs (by rfl) j
  have hstop : (s.ssStop n).sliceOf n j = s.sliceOf n j := by
    unfold ssStop
    dsimp only
    split
    · next hspare => rw [sliceOf_modSs (by rfl), sliceOf_modSlice_spare hspare hj]
    · exact sliceOf_modSs (by rfl) j
  unfold ssFollow
  dsimp only
  split
  · split
    · exact hstart
    · rfl
  · split
    · rfl
    · exact hstop

/-- A substitution leaves its freeze and the capture's count in the receiver (R67), which reports no slice. -/
theorem ss_rxSubstituted (s : State) (n : Fin 16) : (s.rxSubstituted n).ss n = s.ss n := by
  have hlane : ∀ {z : State} {f : LaneS → LaneS}, (∀ l, (f l).ss = l.ss) → (z.modLane n f).ss n = z.ss n := fun hf => by
    rw [ss, lane_modLane, hf]
    rfl
  have hfreeze : (s.followFreeze n fun z => z.modLane n fun l => { l with substUntil := z.now + 1792 }).ss n = s.ss n := by
    unfold followFreeze snapLater
    split
    · rw [hlane, hlane] <;> exact fun _ => rfl
    · rw [hlane]
      exact fun _ => rfl
  unfold rxSubstituted
  dsimp only
  split
  · rw [hlane, ss_of_lanes (incSat_lanes _ _), hfreeze]
    exact fun _ => rfl
  · exact hfreeze

theorem rd_rxSubstituted (s : State) (n : Fin 16) {k : Key} (hk : k ≠ K.LINE_SWATCH_SUBST_COUNT n) :
    (s.rxSubstituted n).rd k = s.rd k := by
  unfold rxSubstituted
  dsimp only
  rw [rd_ite, modLane_rd, rd_incSat, if_neg hk, rd_followFreeze, modLane_rd, ite_self]

/-- The slots after a substitution: `i` serves the target, `j` is the spare, every slice is one substitution older. -/
def spareServes (s : State) (n : Fin 16) (i j : Fin 17) : State :=
  ((s.modSlice n i fun c => { c with st := 0, slot := (s.ss n).target }).modSlice n j fun c => { c with st := 1, slot := 31 }).modSs n
    fun y => { y with slices := y.slices.map SliceS.older }

theorem lanes_ite (c : Prop) [Decidable c] (a b : State) : (if c then a else b).lanes = if c then a.lanes else b.lanes :=
  apply_ite State.lanes c a b

/-- The entries after a substitution. -/
def substCounted (s : State) (n : Fin 16) (x : SsS) : State :=
  let s2 := ((s.incSat (K.LINE_SS_SUBST n)).incWrap (K.LINE_SLOT_GEN n)).wr (K.LINE_SS_LAST_SUBST n) s.timeNow
  let s3 := if x.outOfTurn then s2.incSat (K.LINE_SS_OUT_OF_TURN n) else s2
  if x.rot + 1 = 17 then s3.incSat (K.LINE_SS_ROTATIONS n) else s3

theorem substCounted_onlyLanes (s : State) (n : Fin 16) (x : SsS) : OnlyLanes [n] s (s.substCounted n x) := by
  have hlast : OnlyLanes [n] s (((s.incSat (K.LINE_SS_SUBST n)).incWrap (K.LINE_SLOT_GEN n)).wr (K.LINE_SS_LAST_SUBST n) s.timeNow) :=
    ((incSat_onlyLanes s n _ _).trans (.wr _ n _ _ _)).trans (.wr _ n _ _ _)
  have hturn := OnlyLanes.ite (x.outOfTurn = true) (hlast.trans (incSat_onlyLanes _ n 0x0B 2)) hlast
  exact .ite _ (hturn.trans (incSat_onlyLanes _ n _ _)) hturn

theorem substCounted_lanes (s : State) (n : Fin 16) (x : SsS) : (s.substCounted n x).lanes = s.lanes := by
  unfold substCounted
  dsimp only
  rw [lanes_ite, incSat_lanes, ite_self, lanes_ite, incSat_lanes, ite_self, wr_lanes, incWrap_lanes, incSat_lanes]

theorem ssSubstitute_eq (hspare : s.sliceSpare n = some i) (hat : s.sliceAt n (s.ss n).target = some j) :
    s.ssSubstitute n = ((((((s.spareServes n i j).substCounted n (s.ss n)).modSs n
      (SsS.relieved ((s.ss n).degraded.contains j.val) j.val)).rxSubstituted n).ssFollow n).modSs n
        fun y => { y with retest := (s.ss n).degraded.contains j.val && y.step != 0 }) := by
  simp only [ssSubstitute, hspare, hat]
  rfl

theorem sliceOf_spareServes (s : State) (n : Fin 16) (i j k : Fin 17) : (s.spareServes n i j).sliceOf n k =
    (((s.modSlice n i fun c => { c with st := 0, slot := (s.ss n).target }).modSlice n j fun c =>
      { c with st := 1, slot := 31 }).sliceOf n k).older := by
  have hmap : ∀ v : Vector SliceS 17, (v.map SliceS.older).get k = (v.get k).older := fun v => by simp [Vector.get]
  rw [sliceOf, spareServes, ss_modSs, hmap]
  rfl

/-- The spare serves the target. -/
theorem sliceOf_spareServes_spare (hne : i ≠ j) : (s.spareServes n i j).sliceOf n i =
    { s.sliceOf n i with st := 0, slot := (s.ss n).target }.older := by
  rw [sliceOf_spareServes, sliceOf_modSlice, if_neg hne, sliceOf_modSlice_self]

/-- The relieved slice is the spare, and not READY. -/
theorem st_spareServes_relieved (s : State) (n : Fin 16) (i j : Fin 17) : ((s.spareServes n i j).sliceOf n j).st = 1 := by
  rw [sliceOf_spareServes, sliceOf_modSlice_self]
  rfl

/-- The slots stand through what follows a substitution, for slices that serve or are a spare not yet READY. -/
theorem sliceOf_ssSubstitute (hspare : s.sliceSpare n = some i) (hat : s.sliceAt n (s.ss n).target = some j) {k : Fin 17}
    (hk : ((s.spareServes n i j).sliceOf n k).st ≠ 2) : (s.ssSubstitute n).sliceOf n k = (s.spareServes n i j).sliceOf n k := by
  have hcounted : ((((s.spareServes n i j).substCounted n (s.ss n)).modSs n
      (SsS.relieved ((s.ss n).degraded.contains j.val) j.val)).rxSubstituted n).sliceOf n k = (s.spareServes n i j).sliceOf n k := by
    rw [sliceOf_of_ss (ss_rxSubstituted _ n), sliceOf_modSs (by rfl), sliceOf_of_ss (ss_of_lanes (substCounted_lanes _ _ _) n)]
  rw [ssSubstitute_eq hspare hat, sliceOf_modSs (by rfl), sliceOf_ssFollow (by rwa [hcounted]), hcounted]

/-! ## The entries -/

theorem rd_substCounted (s : State) (n : Fin 16) (x : SsS) {k : Key} (hturn : k ≠ K.LINE_SS_OUT_OF_TURN n)
    (hrot : k ≠ K.LINE_SS_ROTATIONS n) : (s.substCounted n x).rd k =
      (((s.incSat (K.LINE_SS_SUBST n)).incWrap (K.LINE_SLOT_GEN n)).wr (K.LINE_SS_LAST_SUBST n) s.timeNow).rd k := by
  unfold substCounted
  dsimp only
  rw [rd_ite, rd_incSat, if_neg hrot, ite_self, rd_ite, rd_incSat, if_neg hturn, ite_self]

theorem rd_ssSubstitute (hspare : s.sliceSpare n = some i) (hat : s.sliceAt n (s.ss n).target = some j) {k : Key}
    (hk : k ≠ K.LINE_SWATCH_SUBST_COUNT n) (hturn : k ≠ K.LINE_SS_OUT_OF_TURN n) (hrot : k ≠ K.LINE_SS_ROTATIONS n) :
    (s.ssSubstitute n).rd k = if k = K.LINE_SS_LAST_SUBST n then s.timeNow
      else if k = K.LINE_SLOT_GEN n then (s.rd (K.LINE_SLOT_GEN n) + 1) % 2 ^ 32 else (s.incSat (K.LINE_SS_SUBST n)).rd k := by
  have hgen : bitsOf (K.LINE_SLOT_GEN n) = 32 := rfl
  have hlast : bitsOf (K.LINE_SS_LAST_SUBST n) = 96 := rfl
  have htime : (s.spareServes n i j).timeNow % 2 ^ 96 = s.timeNow := Nat.mod_eq_of_lt (time96_lt _)
  have hslots : ∀ k, (s.spareServes n i j).rd k = s.rd k := fun k => by rw [spareServes, modSs_rd, modSlice_rd, modSlice_rd]
  have hcount : ∀ k, ((s.spareServes n i j).incSat (K.LINE_SS_SUBST n)).rd k = (s.incSat (K.LINE_SS_SUBST n)).rd k := fun k => by
    rw [rd_incSat, rd_incSat, hslots, hslots]
  have hgenStands : (s.incSat (K.LINE_SS_SUBST n)).rd (K.LINE_SLOT_GEN n) = s.rd (K.LINE_SLOT_GEN n) := rd_wr_ne _ _ (by simp)
  rw [ssSubstitute_eq hspare hat, modSs_rd, rd_ssFollow, rd_rxSubstituted _ _ hk, modSs_rd, rd_substCounted _ _ _ hturn hrot, rd_wr, hlast,
    htime, rd_incWrap, hgen, hcount, hcount, hgenStands]

theorem ssSubstitute_onlyLanes (hspare : s.sliceSpare n = some i) (hat : s.sliceAt n (s.ss n).target = some j) :
    OnlyLanes [n] s (s.ssSubstitute n) := by
  have hslots : OnlyLanes [n] s (s.spareServes n i j) :=
    ((modSlice_onlyLanes s n i _).trans (modSlice_onlyLanes _ n j _)).trans (modSs_onlyLanes _ n _)
  rw [ssSubstitute_eq hspare hat]
  exact ((((hslots.trans (substCounted_onlyLanes _ n _)).trans (modSs_onlyLanes _ n _)).trans (rxSubstituted_onlyLanes _ n)).trans
    (ssFollow_onlyLanes _ n)).trans (modSs_onlyLanes _ n _)

/-- What a substitution by spare `i` of the slice `j` that serves its target comes to. -/
theorem ssSubstitute_does (hspare : s.sliceSpare n = some i) (hat : s.sliceAt n (s.ss n).target = some j) :
    ((s.ssSubstitute n).sliceOf n i).st = 0 ∧ ((s.ssSubstitute n).sliceOf n i).slot = (s.ss n).target ∧
    ((s.ssSubstitute n).sliceOf n j).st = 1 ∧ CountsUp s (s.ssSubstitute n) (K.LINE_SS_SUBST n) 1 ∧
    (s.ssSubstitute n).rd (K.LINE_SLOT_GEN n) = (s.rd (K.LINE_SLOT_GEN n) + 1) % 2 ^ 32 ∧
    (s.ssSubstitute n).rd (K.LINE_SS_LAST_SUBST n) = s.timeNow ∧ ∀ m, m ≠ n → (s.ssSubstitute n).lane m = s.lane m := by
  have hi := sliceOf_spareServes_spare (s := s) (n := n) (ne_of_sliceSpare_sliceAt hspare hat)
  have hj := st_spareServes_relieved s n i j
  have hiStands := sliceOf_ssSubstitute hspare hat (k := i) (by simp [hi, SliceS.older])
  have hjStands := sliceOf_ssSubstitute hspare hat (k := j) (by simp [hj])
  refine ⟨?_, ?_, ?_, ?_, ?_, ?_, fun m hm => (ssSubstitute_onlyLanes hspare hat).others m (by simpa using hm)⟩
  · rw [hiStands, hi]
    rfl
  · rw [hiStands, hi]
    rfl
  · rw [hjStands, hj]
  · rw [CountsUp, rd_ssSubstitute hspare hat (by simp) (by simp) (by simp), if_neg (by simp), if_neg (by simp)]
    exact countsUp_incSat s _
  · rw [rd_ssSubstitute hspare hat (by simp) (by simp) (by simp), if_neg (by simp), if_pos rfl]
  · rw [rd_ssSubstitute hspare hat (by simp) (by simp) (by simp), if_pos rfl]

end State

end Sys2Proof.Machine
end

section
/-!
SUPPORT. The commands of slip-stitch: steps, interval, substitution, retest and the clear of its counters (R257 to R266).
-/

namespace Sys2Proof.Machine

open State

variable {s : State} {r : Fin 18} {n : Fin 16} {i j : Fin 17}

/-- A step that ends within its limits (Table 9-2); without a signal C and D wait. -/
theorem ssStepEnd_does (hunder : s.ssUnder n = some i) (v : BitVec 16) : Runs (.ssStepEnd n v) s fun t =>
    (∀ m, m ≠ n → t.lane m = s.lane m) ∧
    ((s.ss n).step = 1 → (sx 16 v.toNat).natAbs ≤ 4096 → (t.sliceOf n i).off = sx 16 v.toNat ∧ (t.ss n).step = 2) ∧
    ((s.ss n).step = 2 → 28672 ≤ v.toNat → v.toNat ≤ 36864 → (t.sliceOf n i).gain = v.toNat ∧ (t.ss n).step = 3) ∧
    ((s.ss n).step = 3 → s.losOn n = false → (sx 16 v.toNat).natAbs ≤ 32 → (t.sliceOf n i).skew = sx 16 v.toNat ∧
      (t.ss n).step = if (s.ss n).ended || (s.ss n).retest then 5 else 4) ∧
    ((s.ss n).step = 3 ∨ (s.ss n).step = 5 → s.losOn n = true → t = s) ∧
    ((s.ss n).step = 4 → (t.ss n).step = if s.losOn n then 3 else 5) ∧
    ((s.ss n).step = 5 → s.losOn n = false → v.toNat ≤ s.rd (K.LINE_SS_VERIFY_THR n) →
      (t.ss n).step = 6 ∧ (t.sliceOf n i).st = 2 ∧ (t.sliceOf n i).fails = 0 ∧ (t.ss n).retest = false) := by
  refine ⟨s.ssStepEnd n v.toNat, exec_ssStepEnd s n v,
    fun m hm => (ssStepEnd_onlyLanes s n _).others m (by simpa using hm), fun hstep hlimit => ?_, fun hstep hlow hhigh => ?_,
    fun hstep hlos hlimit => ?_, ?_, fun hstep => ?_, fun hstep hlos hlimit => ?_⟩
  · rw [ssStepEnd_offset hunder hstep, if_pos hlimit, sliceOf_modSs (by rfl), sliceOf_modSlice_self, ss_modSs]
    exact ⟨rfl, rfl⟩
  · rw [ssStepEnd_gain hunder hstep, if_pos (by simp [hlow, hhigh]), sliceOf_modSs (by rfl), sliceOf_modSlice_self, ss_modSs]
    exact ⟨rfl, rfl⟩
  · rw [ssStepEnd_skew hunder hstep, if_neg (by simp [hlos]), if_pos hlimit, sliceOf_modSs (by rfl), sliceOf_modSlice_self, ss_modSs,
      ss_modSlice]
    exact ⟨rfl, rfl⟩
  · rintro (hstep | hstep) hlos
    · rw [ssStepEnd_skew hunder hstep, if_pos hlos]
    · rw [ssStepEnd_verify hunder hstep, if_pos hlos]
  · rw [ssStepEnd_wait hunder hstep, ss_modSs]
  · rw [ssStepEnd_verify hunder hstep, if_neg (by simp [hlos]), if_pos hlimit]
    exact ssPass_does s n i

/-- A step outside its limits is the failure of the attempt, with the step's cause. -/
theorem ssStepEnd_fails (hunder : s.ssUnder n = some i) {v cause : Nat}
    (h : (s.ss n).step = 1 ∧ 4096 < (sx 16 v).natAbs ∧ cause = 1 ∨ (s.ss n).step = 2 ∧ v < 28672 ∧ cause = 2 ∨
      (s.ss n).step = 2 ∧ 36864 < v ∧ cause = 2 ∨ (s.ss n).step = 3 ∧ s.losOn n = false ∧ 32 < (sx 16 v).natAbs ∧ cause = 3 ∨
      (s.ss n).step = 5 ∧ s.losOn n = false ∧ s.rd (K.LINE_SS_VERIFY_THR n) < v ∧ cause = 4) :
    s.ssStepEnd n v = s.ssFail n i cause ∧ cause < 256 := by
  obtain ⟨hstep, hout, rfl⟩ | ⟨hstep, hout, rfl⟩ | ⟨hstep, hout, rfl⟩ | ⟨hstep, hlos, hout, rfl⟩ |
    ⟨hstep, hlos, hout, rfl⟩ := h
  · rw [ssStepEnd_offset hunder hstep, if_neg (Nat.not_le.mpr hout)]
    exact ⟨rfl, by decide⟩
  · rw [ssStepEnd_gain hunder hstep, if_neg (by simp; omega)]
    exact ⟨rfl, by decide⟩
  · rw [ssStepEnd_gain hunder hstep, if_neg (by simp; omega)]
    exact ⟨rfl, by decide⟩
  · rw [ssStepEnd_skew hunder hstep, if_neg (by simp [hlos]), if_neg (Nat.not_le.mpr hout)]
    exact ⟨rfl, by decide⟩
  · rw [ssStepEnd_verify hunder hstep, if_neg (by simp [hlos]), if_neg (Nat.not_le.mpr hout)]
    exact ⟨rfl, by decide⟩

theorem ssIntervalEnd_postpones (h1 : 1 ≤ (s.ss n).step) (h5 : (s.ss n).step ≤ 5) (hretest : (s.ss n).retest = false)
    (hended : (s.ss n).ended = false) : Runs (.ssIntervalEnd n) s fun t =>
      (t.ss n).ended = true ∧ (t.ss n).postponed = true ∧ (t.ss n).step = (s.ss n).step ∧
      CountsUp s t (K.LINE_SS_POSTPONED n) 1 ∧ (∀ m, m ≠ n → t.lane m = s.lane m) ∧ Changes [K.LINE_SS_POSTPONED n] s t := by
  have heq := ssIntervalEnd_early h1 h5 hretest hended
  have hss : (s.ssIntervalEnd n).ss n = { s.ss n with ended := true, postponed := true } := by
    rw [heq, ss_of_lanes (incSat_lanes _ _), ss_modSs, ss_intervalOver]
  have honly : OnlyLanes [n] s (s.ssIntervalEnd n) := by
    rw [heq]
    exact ((intervalOver_onlyLanes s n).trans (modSs_onlyLanes _ n _)).trans (incSat_onlyLanes _ n _ _)
  refine ⟨_, exec_ssIntervalEnd s n, by rw [hss], by rw [hss], by rw [hss], ?_, fun m hm => honly.others m (by simpa using hm), ?_⟩
  · rw [heq]
    exact countsUp_incSat s _
  · rw [heq]
    exact changes_wr s _ _

/-- A READY spare substitutes at the end of the interval, and at a boundary once it may. -/
theorem substitutes {c : Instr} (hspare : s.sliceSpare n = some i) (hat : s.sliceAt n (s.ss n).target = some j) (h6 : (s.ss n).step = 6)
    (hlos : s.losOn n = false) (hc : c = .ssIntervalEnd n ∧ (s.ss n).retest = false ∧ (s.ss n).ended = false ∨
      c = .ssSubstitution n ∧ ((s.ss n).ended || (s.ss n).outOfTurn || (s.ss n).subNow) = true) : Runs c s fun t =>
      (t.sliceOf n i).st = 0 ∧ (t.sliceOf n i).slot = (s.ss n).target ∧ (t.sliceOf n j).st = 1 ∧
      CountsUp s t (K.LINE_SS_SUBST n) 1 ∧ t.rd (K.LINE_SLOT_GEN n) = (s.rd (K.LINE_SLOT_GEN n) + 1) % 2 ^ 32 ∧
      t.rd (K.LINE_SS_LAST_SUBST n) = s.timeNow ∧ ∀ m, m ≠ n → t.lane m = s.lane m := by
  obtain ⟨rfl, hretest, hended⟩ | ⟨rfl, hmay⟩ := hc
  · obtain ⟨hspareStands, hatStands⟩ := slices_intervalOver s n
    have htarget : ((s.intervalOver n).ss n).target = (s.ss n).target := by rw [ss_intervalOver]
    obtain ⟨hserves, hslot, hrelieved, hcount, hgen, hlast, hothers⟩ :=
      ssSubstitute_does (hspareStands.trans hspare) (hatStands.trans hat)
    refine ⟨_, (exec_ssIntervalEnd s n).trans (congrArg Host.Outcome.next (ssIntervalEnd_ready h6 hretest hended hlos)), hserves,
      hslot.trans htarget, hrelieved, hcount, hgen, hlast, fun m hm => ?_⟩
    exact (hothers m hm).trans ((intervalOver_onlyLanes s n).others m (by simpa using hm))
  · have hready : s.ssReady n = true := by
      rw [ssReady]
      simpa [h6, hlos] using hmay
    exact ⟨s.ssSubstitute n, by rw [exec_ssSubstitution, execSsSubstitution, if_pos hready], ssSubstitute_does hspare hat⟩

/-- `LINE_SS_RETEST` of 1 starts a retest of the failed slice (R265). -/
theorem lineSsRetest_starts (h : s.accepts r (K.LINE_SS_RETEST n) (be 1 1) = true) (hout : s.sliceOut n = some i)
    (hfailed : (s.sliceOf n i).st = 3) : Runs (.lineSsRetest r n 1) s fun t =>
      (t.ss n).retest = true ∧ (t.ss n).step = 1 ∧ (t.ss n).tries = 0 ∧ (t.ss n).target = s.retestSlot n ∧
      (∀ m, m ≠ n → t.lane m = s.lane m) ∧ Changes [] s t := by
  refine runs_write (eff := effSsRetest n 1) (exec_lineSsRetest s r n 1) h fun z t hz hrd hlanes => ?_
  have hstarts : effSsRetest n 1 z = z.modSs n fun x => { x with retest := true, tries := 0, step := 1, target := z.retestSlot n } := by
    have houtz : z.sliceOut n = some i := (sliceOut_of_lanes hz.lanes n).trans hout
    have hfailedz : (z.sliceOf n i).st = 3 := by rwa [sliceOf_of_ss (ss_of_lanes hz.lanes n)]
    simp only [effSsRetest, ssRetest, houtz, hfailedz, if_true]
  rw [hstarts] at hrd hlanes
  have hss := (ss_of_lanes hlanes n).trans (ss_modSs z n _)
  refine ⟨by rw [hss], by rw [hss], by rw [hss], by rw [hss]; exact retestSlot_of_lanes hz.lanes n, fun m hm => ?_, ?_⟩
  · rw [lane, hlanes, ← hz.lane m]
    exact lane_modSs_ne z _ hm
  · rw [changes_iff]
    intro k hk _
    rw [hrd, modSs_rd, hz.rd k hk]

theorem lineSsRetest_zero (h : s.accepts r (K.LINE_SS_RETEST n) (be 1 0) = true) :
    Runs (.lineSsRetest r n 0) s fun t => t.lanes = s.lanes ∧ Changes [] s t := by
  refine runs_write (eff := effSsRetest n 0) (exec_lineSsRetest s r n 0) h fun z t hz hrd hlanes => ?_
  have hstands : effSsRetest n 0 z = z := if_neg (by decide)
  rw [hstands] at hrd hlanes
  refine ⟨hlanes.trans hz.lanes, ?_⟩
  rw [changes_iff]
  exact fun k hk _ => (hrd k).trans (hz.rd k hk)

/-- An accepted write that returns entries to their reset values. -/
theorem runs_clear {c : Instr} {k : Key} {data : List Byte} {ks : List Key} (hexec : exec c s = .next (s.write r k data (State.clrAll · ks)))
    (h : s.accepts r k data = true) :
    Runs c s fun t => (∀ x ∈ ks, t.rd x = resetOf x) ∧ t.lanes = s.lanes ∧ Changes ks s t := by
  refine runs_write hexec h fun z t hz hrd hlanes => ⟨fun x hx => ?_, ?_, ?_⟩
  · rw [hrd, rd_clrAll, if_pos hx]
  · obtain ⟨-, hkept, -⟩ := clrAll_frame z ks
    exact hlanes.trans (hkept.trans hz.lanes)
  · rw [changes_iff]
    intro x hx hout
    rw [hrd, rd_clrAll, if_neg hout, hz.rd x hx]

/-- `LINE_SS_CLEAR` of 1 zeroes the counters (R266). -/
theorem lineSsClear_does (h : s.accepts r (K.LINE_SS_CLEAR n) (be 1 1) = true) : Runs (.lineSsClear r n 1) s fun t =>
    (∀ i, 1 ≤ i → i ≤ 6 → t.rd ⟨.line n, 0x0B, i⟩ = resetOf ⟨.line n, 0x0B, i⟩) ∧ t.lanes = s.lanes ∧
    Changes ((List.range 6).map fun i => ⟨.line n, 0x0B, i + 1⟩) s t := by
  obtain ⟨t, hexec, hreset, hkept⟩ := runs_clear (exec_lineSsClear s r n 1) h
  refine ⟨t, hexec, fun i h1 h6 => hreset _ ?_, hkept⟩
  exact List.mem_map.mpr ⟨i - 1, List.mem_range.mpr (by omega), by rw [Nat.sub_add_cancel h1]⟩

/-- Settles O32: a step is judged by its own limits, every failure is one operation, and a substitution is the change of two slices that
what follows it leaves in place. -/
theorem slipStitch : Obligations.SlipStitch := by
  unfold Obligations.SlipStitch
  refine ⟨fun s n i v hunder => ssStepEnd_does hunder v, fun s n i v cause hunder hretest hout => ?_, fun s n v hidle => ?_,
    fun s n => ssIntervalEnd_postpones, fun s n hidle => ?_, fun s n c i j => substitutes, fun s n hready => ?_,
    fun s r n i => lineSsRetest_starts, fun s r n => lineSsRetest_zero, fun s r n => lineSsClear_does⟩
  · obtain ⟨hfail, hcause⟩ := ssStepEnd_fails hunder hout
    exact ⟨_, (exec_ssStepEnd s n v).trans (congrArg Host.Outcome.next hfail), ssFail_does hretest i hcause⟩
  · exact ⟨_, exec_ssStepEnd s n v, ssStepEnd_idle hidle⟩
  · exact ⟨_, exec_ssIntervalEnd s n, ssIntervalEnd_idle hidle⟩
  · exact ⟨s, by rw [exec_ssSubstitution, execSsSubstitution, if_neg (by simp [hready])], rfl⟩

end Sys2Proof.Machine
end

section
/-!
SUPPORT. The time unit's servo (R293 to R295): what a measurement leaves of the counter, of the entries and of the interrupt causes; what
the write of an entry of the unit comes to.
-/

namespace Sys2Proof.Machine

/-- An accepted write of an entry of the time unit's comes to what its effect comes to, on a state whose time unit is as it was. -/
theorem runs_timeWrite {c : Instr} {s : State} {r : Fin 18} {k : Key} {data : List Byte} {eff : State → State} {P : State → Prop}
    (hexec : exec c s = .next (s.write r k data eff)) (h : s.accepts r k data = true)
    (hP : ∀ z t, z.time = s.time → (∀ x, x.area ≠ none → z.rd x = s.rd x) → (∀ x, t.rd x = (eff z).rd x) →
      t.time = (eff z).time → P t) : Runs c s P :=
  ⟨_, hexec, hP (s.admitted r k data) _ (State.admitted_time s k r data) (fun _ hx => State.rd_admitted _ _ _ _ _ hx)
    (State.write_rd s eff h) (State.write_time s eff h)⟩

/-- A change of the time unit's that leaves the counter, writes of the entries of an area those among `ks` alone, and takes back no
interrupt cause. -/
structure Steers (ks : List Key) (s t : State) : Prop where
  counter : t.time.counter = s.time.counter
  changes : Changes ks s t
  raised : ∀ x : Src, x.b < 16 → Raised s x → Raised t x

namespace Steers

variable {ks : List Key} {a s : State}

theorem refl (ks : List Key) (s : State) : Steers ks s s := ⟨rfl, fun _ _ => rfl, fun _ _ h => h⟩

theorem trans {t : State} (h1 : Steers ks a s) (h2 : Steers ks s t) : Steers ks a t :=
  ⟨h2.counter.trans h1.counter, h1.changes.trans h2.changes, fun x hx h => h2.raised x hx (h1.raised x hx h)⟩

theorem modTime (h : Steers ks a s) (f : TimeS → TimeS) (hf : (f s.time).counter = s.time.counter) : Steers ks a (s.modTime f) :=
  h.trans ⟨hf, fun _ _ => rfl, fun _ _ hr => hr⟩

theorem wr (h : Steers ks a s) {x : Key} (v : Nat) (hx : x ∈ ks) (harea : x.area ≠ none) : Steers ks a (s.wr x v) := by
  refine h.trans ⟨rfl, ?_, fun y _ hr => ?_⟩
  · rw [changes_iff]
    exact fun k _ hk => State.rd_wr_ne s v fun e => hk (e ▸ hx)
  · exact State.raised_of_rd (State.rd_wr_ne s v fun e => harea (e ▸ rfl)) hr

theorem raise (h : Steers ks a s) (x : Src) : Steers ks a (s.raise x) :=
  h.trans ⟨congrArg _ (State.raise_time s x), State.changes_raise ks s x, fun _ hy hr => State.raised_keep s x hr hy⟩

theorem ite {b : Bool} {t : State} (h1 : Steers ks a s) (h2 : Steers ks a t) : Steers ks a (if b then s else t) := by
  cases b
  · exact h2
  · exact h1

theorem rd (h : Steers ks a s) {k : Key} (harea : k.area ≠ none) (hk : k ∉ ks) : s.rd k = a.rd k := changes_iff.mp h.changes k harea hk

end Steers

namespace State

variable {s : State}

/-! ## The servo (R293 to R295) -/

/-- The entries that a measurement moves: the error, the servo's frequency, and of the status LOCKED and HOLDOVER. -/
def servoKeys : List Key := [K.TIME_SERVO_ERR, K.TIME_SERVO_FREQ, K.TIME_STATUS]

theorem holdoverExit_steers {ks : List Key} (s : State) (hk : K.TIME_STATUS ∈ ks) : Steers ks s s.holdoverExit := by
  have hbit : Steers ks s (s.wrBit K.TIME_STATUS 3 false) := (Steers.refl ks s).wr _ hk (by decide)
  exact (hbit.raise Src.TIME_HOLDOVER_CHG).ite (.refl ks s)

theorem offsetAlarm_steers (ks : List Key) (s : State) (e : Int) : Steers ks s (s.offsetAlarm e) := by
  have harmed : ∀ b, Steers ks s (s.modTime fun t => { t with alarmArmed := b }) := fun b => (Steers.refl ks s).modTime _ rfl
  unfold offsetAlarm
  exact (((harmed false).raise Src.TIME_OFFSET_ALARM).ite (.refl ks s)).ite (harmed true)

theorem servoTerms_steers (s : State) (e : Int) (p : Nat) : Steers servoKeys s (s.servoTerms e p) := by
  unfold servoTerms
  exact ((Steers.refl servoKeys s).wr _ (by decide) (by decide)).modTime _ rfl

theorem setStepPending_steers (s : State) : Steers servoKeys s s.setStepPending :=
  (Steers.refl servoKeys s).wr _ (by decide) (by decide)

/-- A measurement steers: it moves neither the counter nor an entry that is not the servo's (R294). -/
theorem servoMeasure_steers (s : State) (e : Int) (at_ : Nat) : Steers servoKeys s (s.servoMeasure e at_) := by
  have hstep : ∀ (z : State) (v : Int), Steers servoKeys z (z.modTime fun t => { t with pendServo := v, slew := 0 }).setStepPending :=
    fun z v => ((Steers.refl servoKeys z).modTime _ rfl).trans (setStepPending_steers _)
  have hact : ∀ (z : State) (b : Bool) (v : Int) (p : Nat), Steers servoKeys z (if z.bit K.TIME_STATUS 4 then z else
      if b then (z.holdoverExit.modTime fun t => { t with pendServo := v, slew := 0 }).setStepPending
      else z.holdoverExit.servoTerms e p) := fun z b v p =>
    (Steers.refl servoKeys z).ite ((holdoverExit_steers z (by decide)).trans ((hstep _ v).ite (servoTerms_steers _ e p)))
  unfold servoMeasure
  dsimp only
  refine .trans ?_ (hact _ _ _ _)
  refine .trans ?_ (offsetAlarm_steers _ _ e)
  refine .wr ?_ _ (by decide) (by decide)
  exact ((Steers.refl servoKeys s).wr _ (by decide) (by decide)).modTime _ rfl

end State

end Sys2Proof.Machine
end

section
/-!
SUPPORT. Sets, steps and changes of source of the time unit (R280, R281, R293), and the gauge tick that applies them.
-/

namespace Sys2Proof.Machine

namespace State

variable {s : State}

/-! ## The status (Table 10-3) -/

theorem bit_wrBit_timeStatus (s : State) (i : Nat) (b : Bool) {j : Nat} (hj : j < 16) :
    (s.wrBit K.TIME_STATUS i b).bit K.TIME_STATUS j = if j = i then b else s.bit K.TIME_STATUS j := by
  have hbits : bitsOf K.TIME_STATUS = 16 := rfl
  rw [bit_wrBit, if_pos rfl, hbits, decide_eq_true hj, Bool.true_and]

theorem bit_raise_timeStatus (s : State) (x : Src) (j : Nat) : (s.raise x).bit K.TIME_STATUS j = s.bit K.TIME_STATUS j :=
  bit_of_rd (rd_raise_area s _ x (by decide)) j

theorem bit_holdoverExit (s : State) {j : Nat} (hj : j < 16) (h3 : j ≠ 3) :
    s.holdoverExit.bit K.TIME_STATUS j = s.bit K.TIME_STATUS j := by
  unfold holdoverExit
  split
  · rw [bit_raise_timeStatus, bit_wrBit_timeStatus s 3 false hj, if_neg h3]
  · rfl

theorem holdoverExit_time (s : State) : s.holdoverExit.time = s.time := by
  unfold holdoverExit
  split
  · rw [raise_time, wrBit_time]
  · rfl

/-! ## A set or a step (R280, R281) -/

theorem time_modTime (s : State) (f : TimeS → TimeS) : (s.modTime f).time = f s.time := rfl

theorem adjusted_time (s : State) : s.adjusted.time = { s.time with slew := 0, prevEdge := none, adjSincePulse := true } := rfl

theorem counterTo_frame (s : State) (c : Nat) : (s.counterTo c).time.counter = c ∧ ∀ k, (s.counterTo c).rd k = s.rd k :=
  ⟨rfl, fun _ => rfl⟩

/-- Every set and every step begins a new generation and sets SET. -/
theorem adjusted_does (s : State) : s.adjusted.rd K.TIME_GEN = (s.rd K.TIME_GEN + 1) % 2 ^ 32 ∧
    (∀ j, j < 16 → s.adjusted.bit K.TIME_STATUS j = if j = 1 then true else s.bit K.TIME_STATUS j) ∧
    ∀ k, k ≠ K.TIME_GEN → k ≠ K.TIME_STATUS → s.adjusted.rd k = s.rd k := by
  have hstatus : ∀ j, (s.incWrap K.TIME_GEN).bit K.TIME_STATUS j = s.bit K.TIME_STATUS j := fun j =>
    bit_of_rd (rd_wr_ne s _ (by decide)) j
  unfold adjusted
  refine ⟨?_, fun j hj => ?_, fun k hgen hk => ?_⟩
  · rw [modTime_rd, rd_wrBit_ne _ _ _ (by decide), rd_incWrap, if_pos rfl]
    rfl
  · rw [← hstatus j]
    exact bit_wrBit_timeStatus _ 1 true hj
  · rw [modTime_rd, rd_wrBit_ne _ _ _ hk, rd_incWrap, if_neg hgen]

/-- The steps pending are taken: the record without them, and PENDING clear. -/
def stepsTaken (s : State) : State := (s.modTime fun t => { t with pendHost := 0, pendServo := 0 }).wrBit K.TIME_STATUS 8 false

theorem applySteps_of_zero (h : s.time.pendHost + s.time.pendServo = 0) : s.applySteps = s.stepsTaken := if_pos h

/-- The counter has taken the sum of the steps. -/
def stepped (s : State) : State :=
  (s.stepsTaken.counterTo (counterAdd s.time.counter ((s.time.pendHost + s.time.pendServo) * 2 ^ 24))).modTime fun t =>
    { t with lastMeas := t.lastMeas.map fun m => counterAdd m ((s.time.pendHost + s.time.pendServo) * 2 ^ 24) }

theorem stepped_rd (s : State) (k : Key) : s.stepped.rd k = s.stepsTaken.rd k := rfl

theorem applySteps_of_ne (h : s.time.pendHost + s.time.pendServo ≠ 0) :
    ∃ data, s.applySteps = (s.stepped.adjusted.record 0x04 0xFF data).raise Src.TIME_STEP_DONE := ⟨_, if_neg h⟩

/-- A sum that is not zero is one step of the counter, with a new generation, its record and TIME_STEP_DONE. -/
theorem applySteps_steps (h : s.time.pendHost + s.time.pendServo ≠ 0) :
    s.applySteps.time = s.stepped.adjusted.time ∧ s.applySteps.bit K.TIME_STATUS 8 = false ∧
    s.applySteps.rd K.TIME_GEN = (s.rd K.TIME_GEN + 1) % 2 ^ 32 ∧ Raised s.applySteps Src.TIME_STEP_DONE := by
  obtain ⟨data, heq⟩ := applySteps_of_ne h
  obtain ⟨hgen, hstatus, -⟩ := adjusted_does s.stepped
  rw [heq]
  refine ⟨by rw [raise_time, record_time], ?_, ?_, raised_raise _ _ (by decide)⟩
  · rw [bit_raise_timeStatus, bit_of_rd (rd_record_area _ _ _ _ _ (by decide)), hstatus 8 (by decide), if_neg (by decide),
      bit_of_rd (stepped_rd s _)]
    exact bit_wrBit_timeStatus _ 8 false (by decide)
  · rw [rd_raise_area _ _ _ (by decide), rd_record_area _ _ _ _ _ (by decide), hgen, stepped_rd, stepsTaken,
      rd_wrBit_ne _ _ _ (by decide), modTime_rd]

/-- After the pending steps none is pending. -/
theorem applySteps_none (s : State) : s.applySteps.time.pendHost = 0 ∧ s.applySteps.time.pendServo = 0 ∧
    s.applySteps.bit K.TIME_STATUS 8 = false := by
  by_cases h : s.time.pendHost + s.time.pendServo = 0
  · rw [applySteps_of_zero h]
    exact ⟨rfl, rfl, bit_wrBit_timeStatus _ 8 false (by decide)⟩
  · obtain ⟨htime, hbit, -⟩ := applySteps_steps h
    rw [htime]
    exact ⟨rfl, rfl, hbit⟩

/-! ## A change of source (R293) -/

/-- The entries that a change of source moves. -/
def sourceKeys : List Key := [K.TIME_SERVO_FREQ, K.TIME_STATUS]

/-- The change of source before holdover may end. -/
def sourceTaken (s : State) : State :=
  (((s.modTime fun t => { t with srcChange := false, lane := s.rd K.TIME_LINE_LANE, slew := 0, missed := 0, lastMeas := none }).wr
    K.TIME_SERVO_FREQ 0).wrField K.TIME_STATUS 7 5 (s.rd K.TIME_DISC_SRC))

theorem applySource_of_change (h : s.time.srcChange = true) : s.applySource = s.sourceTaken ∨
    s.applySource = s.sourceTaken.holdoverExit := by
  unfold applySource
  rw [if_pos h]
  dsimp only
  split
  · exact .inr rfl
  · exact .inl rfl

theorem applySource_of_none (h : s.time.srcChange = false) : s.applySource = s := if_neg (by simp [h])

theorem sourceTaken_steers (s : State) : Steers sourceKeys s s.sourceTaken :=
  (((Steers.refl sourceKeys s).modTime _ rfl).wr 0 (by decide) (by decide)).wr _ (by decide) (by decide)

/-- SRC stands below PENDING. -/
theorem bit_sourceTaken (s : State) : s.sourceTaken.bit K.TIME_STATUS 8 = s.bit K.TIME_STATUS 8 := by
  have hbits : bitsOf K.TIME_STATUS = 16 := rfl
  unfold sourceTaken
  rw [bit_wrField _ _ 5 2, hbits, decide_eq_true (by decide : 8 < 16), Bool.true_and, if_neg (by decide)]
  exact bit_of_rd (rd_wr_ne _ _ (by decide)) 8

/-- A change of source that waits takes effect: the steps pending, PENDING and the counter stay as they are. -/
theorem applySource_does (s : State) : Steers sourceKeys s s.applySource ∧ s.applySource.time.srcChange = false ∧
    s.applySource.time.pendHost = s.time.pendHost ∧ s.applySource.time.pendServo = s.time.pendServo ∧
    s.applySource.bit K.TIME_STATUS 8 = s.bit K.TIME_STATUS 8 := by
  cases hsrc : s.time.srcChange with
  | false =>
    rw [applySource_of_none hsrc]
    exact ⟨.refl _ s, hsrc, rfl, rfl, rfl⟩
  | true =>
    obtain heq | heq := applySource_of_change hsrc
    · rw [heq]
      exact ⟨sourceTaken_steers s, rfl, rfl, rfl, bit_sourceTaken s⟩
    · rw [heq, holdoverExit_time, bit_holdoverExit _ (by decide) (by decide)]
      exact ⟨(sourceTaken_steers s).trans (holdoverExit_steers _ (by decide)), rfl, rfl, rfl, bit_sourceTaken s⟩

/-! ## The gauge tick (R280, R281, R293) -/

theorem gaugeTick_rd (s : State) (k : Key) : s.gaugeTick.rd k = s.applySteps.applySource.rd k := rfl

/-- The rate that a tick takes is the one that its entries and its slew give (R277). -/
theorem gaugeTick_rate (s : State) : s.gaugeTick.time.rate = s.gaugeTick.timeRate := rfl

theorem gaugeTick_time (s : State) : s.gaugeTick.time.counter = s.applySteps.time.counter ∧ s.gaugeTick.time.pendHost = 0 ∧
    s.gaugeTick.time.pendServo = 0 ∧ s.gaugeTick.bit K.TIME_STATUS 8 = false ∧ s.gaugeTick.time.srcChange = false := by
  obtain ⟨hsteers, hsrc, hhost, hservo, hbit⟩ := applySource_does s.applySteps
  obtain ⟨hnoHost, hnoServo, hnone⟩ := applySteps_none s
  exact ⟨hsteers.counter, hhost.trans hnoHost, hservo.trans hnoServo, (bit_of_rd (gaugeTick_rd s _) 8).trans (hbit.trans hnone), hsrc⟩

theorem gaugeBoundary_of_none (h : ∀ g ∈ s.od.waiting, g.bound ≠ .tick) : s.gaugeBoundary = s.gaugeTick := by
  unfold gaugeBoundary
  rw [boundaryPass_of_none (fun b => b == .tick) fun g hg => beq_false_of_ne (h g hg)]

end State

end Sys2Proof.Machine
end

section
/-!
SUPPORT. An edge of SYNC_IN (R283): its stamp, and the pending set that it takes (R280).
-/

namespace Sys2Proof.Machine

namespace State

variable {s : State}

/-! ## SYNC_IN (R283) -/

/-- The entries of a stamped edge. -/
def edgeKeys : List Key := [K.SYNC_IN_STAMP, K.SYNC_IN_SEQ, K.SYNC_IN_VALID]

/-- Every stamped edge is shown with its number and whether it was valid, and raises SYNC_IN_EDGE. -/
theorem edgeStamped_shows (s : State) (stamp : Nat) (valid : Bool) :
    (s.edgeStamped stamp valid).rd K.SYNC_IN_STAMP = time96 stamp ∧
    (s.edgeStamped stamp valid).rd K.SYNC_IN_SEQ = (s.rd K.SYNC_IN_SEQ + 1) % 2 ^ 32 ∧
    (s.edgeStamped stamp valid).rd K.SYNC_IN_VALID = valid.toNat ∧ Raised (s.edgeStamped stamp valid) Src.SYNC_IN_EDGE := by
  have hvalid : valid.toNat % 2 ^ bitsOf K.SYNC_IN_VALID = valid.toNat := by cases valid <;> rfl
  unfold edgeStamped
  refine ⟨?_, ?_, ?_, raised_raise _ _ (by decide)⟩
  · rw [rd_raise_area _ _ _ (by decide), modTime_rd, rd_wr_ne _ _ (by decide), rd_incWrap, if_neg (by decide), rd_wr_self]
    exact Nat.mod_eq_of_lt (time96_lt stamp)
  · rw [rd_raise_area _ _ _ (by decide), modTime_rd, rd_wr_ne _ _ (by decide), rd_incWrap, if_pos rfl, rd_wr_ne _ _ (by decide)]
    rfl
  · rw [rd_raise_area _ _ _ (by decide), modTime_rd, rd_wr_self, hvalid]

theorem edgeStamped_steers (s : State) (stamp : Nat) (valid : Bool) : Steers edgeKeys s (s.edgeStamped stamp valid) := by
  unfold edgeStamped
  refine .raise (.modTime ?_ _ rfl) _
  exact (((Steers.refl edgeKeys s).wr _ (by decide) (by decide)).wr _ (by decide) (by decide)).wr _ (by decide) (by decide)

theorem edgeStamped_time (s : State) (stamp : Nat) (valid : Bool) : (s.edgeStamped stamp valid).time =
    { s.time with prevEdge := some stamp, silenceTold := false, edgeSeen := true } := by
  unfold edgeStamped
  rw [raise_time, time_modTime, wr_time, incWrap_time, wr_time]

/-- What follows a stamp: a measurement of source 1, or the fault of an edge that is not valid. -/
theorem syncEdge_of_none {j : Nat} {tick : Bool} (hon : s.on K.SYNC_IN_EN = true) (hrun : s.running = true)
    (hset : s.time.pendSet = none) {stamp : Nat} (hstamp : stamp = counterAdd s.time.counter (subCc j)) :
    s.syncEdge j tick = if s.edgeValid stamp then
        (if s.timeSrc = 1 then (s.edgeStamped stamp (s.edgeValid stamp)).servoMeasure (s.syncError stamp) stamp
          else s.edgeStamped stamp (s.edgeValid stamp))
      else ((s.edgeStamped stamp (s.edgeValid stamp)).incSat K.SYNC_IN_FAULTS).raise Src.SYNC_IN_FAULT := by
  unfold syncEdge
  rw [hon, hrun, if_neg (by decide), hset, hstamp]

/-- An edge without a pending set is stamped; it counts as a fault where it is not valid. -/
theorem syncEdge_stamps {j : Nat} {tick : Bool} (hon : s.on K.SYNC_IN_EN = true) (hrun : s.running = true)
    (hset : s.time.pendSet = none) {stamp : Nat} (hstamp : stamp = counterAdd s.time.counter (subCc j)) :
    Steers (K.SYNC_IN_FAULTS :: servoKeys) (s.edgeStamped stamp (s.edgeValid stamp)) (s.syncEdge j tick) ∧
    (s.edgeValid stamp = false → CountsUp s (s.syncEdge j tick) K.SYNC_IN_FAULTS 1 ∧ Raised (s.syncEdge j tick) Src.SYNC_IN_FAULT) := by
  rw [syncEdge_of_none hon hrun hset hstamp]
  generalize s.edgeValid stamp = valid
  have hfaults : (s.edgeStamped stamp valid).rd K.SYNC_IN_FAULTS = s.rd K.SYNC_IN_FAULTS :=
    (edgeStamped_steers s stamp valid).rd (by decide) (by decide)
  generalize s.edgeStamped stamp valid = z at hfaults ⊢
  have hmore : ∀ {t : State}, Steers servoKeys z t → Steers (K.SYNC_IN_FAULTS :: servoKeys) z t := fun h =>
    ⟨h.counter, changes_iff.mpr fun k ha hk => h.rd ha fun e => hk (List.mem_cons_of_mem _ e), h.raised⟩
  have hfault : Steers (K.SYNC_IN_FAULTS :: servoKeys) z ((z.incSat K.SYNC_IN_FAULTS).raise Src.SYNC_IN_FAULT) :=
    ((Steers.refl _ z).wr _ (by decide) (by decide)).raise _
  refine ⟨.ite (hmore ?_) hfault, fun hbad => ?_⟩
  · split
    · exact servoMeasure_steers z _ _
    · exact .refl _ z
  · rw [hbad, if_neg (by decide)]
    refine ⟨?_, raised_raise _ _ (by decide)⟩
    rw [CountsUp, rd_raise_area _ _ _ (by decide), rd_incSat, if_pos rfl, hfaults]

/-- A step that would fall on the cc of a set is discarded (R280). -/
def stepsDiscarded (s : State) (tick : Bool) : State :=
  if tick && (s.time.pendHost != 0 || s.time.pendServo != 0) then s.stepsTaken.incSat K.TIME_ADJ_DISCARDED else s

/-- The counter stands at the set. -/
def setTaken (s : State) (new : Nat) (tick : Bool) : State :=
  (((s.stepsDiscarded tick).counterTo new).modTime fun t =>
    { t with
      pendSet := none
      lastMeas := t.lastMeas.map fun m => counterAdd m (counterDiff new (s.stepsDiscarded tick).time.counter) }).wrBit K.TIME_STATUS 9 false

/-- The stamp of the edge that takes a set reads the value written, with the delay of the pin; the counter stands where it so reads. -/
theorem edgeSets_eq (s : State) (v j : Nat) (tick : Bool) : ∃ stamp new,
    s.edgeSets v j tick = ((s.setTaken new tick).adjusted.raise Src.TIME_SET_DONE).edgeStamped stamp true := ⟨_, _, rfl⟩

theorem syncEdge_of_some {v j : Nat} {tick : Bool} (hon : s.on K.SYNC_IN_EN = true) (hrun : s.running = true)
    (hset : s.time.pendSet = some v) : s.syncEdge j tick = s.edgeSets v j tick := by
  unfold syncEdge
  rw [hon, hrun, if_neg (by decide), hset]

theorem syncEdge_of_off {j : Nat} {tick : Bool} (h : s.on K.SYNC_IN_EN = false ∨ s.running = false) : s.syncEdge j tick = s :=
  if_pos (by obtain h | h := h <;> simp [h])

theorem setTaken_rd (s : State) (new : Nat) (tick : Bool) {k : Key} (hk : k ≠ K.TIME_STATUS) :
    (s.setTaken new tick).rd k = (s.stepsDiscarded tick).rd k := by
  rw [setTaken, rd_wrBit_ne _ _ _ hk, modTime_rd, (counterTo_frame _ _).2]

theorem setTaken_time (s : State) (new : Nat) (tick : Bool) : (s.setTaken new tick).time.pendSet = none ∧
    (s.setTaken new tick).time.pendHost = (s.stepsDiscarded tick).time.pendHost := ⟨rfl, rfl⟩

theorem stepsDiscarded_gen (s : State) (tick : Bool) : (s.stepsDiscarded tick).rd K.TIME_GEN = s.rd K.TIME_GEN := by
  unfold stepsDiscarded
  split
  · rw [rd_incSat, if_neg (by decide), stepsTaken, rd_wrBit_ne _ _ _ (by decide), modTime_rd]
  · rfl

theorem stepsDiscarded_of_step (h : s.time.pendHost ≠ 0) : (s.stepsDiscarded true).time.pendHost = 0 ∧
    CountsUp s (s.stepsDiscarded true) K.TIME_ADJ_DISCARDED 1 := by
  have hdue : (true && (s.time.pendHost != 0 || s.time.pendServo != 0)) = true := by simp [h]
  rw [stepsDiscarded, if_pos hdue]
  refine ⟨rfl, ?_⟩
  rw [CountsUp, rd_incSat, if_pos rfl, stepsTaken, rd_wrBit_ne _ _ _ (by decide), modTime_rd]

/-- An edge that takes the pending set. -/
theorem edgeSets_does (s : State) (v j : Nat) (tick : Bool) :
    (s.edgeSets v j tick).time.pendSet = none ∧ (s.edgeSets v j tick).bit K.TIME_STATUS 9 = false ∧
    (s.edgeSets v j tick).bit K.TIME_STATUS 1 = true ∧ (s.edgeSets v j tick).rd K.TIME_GEN = (s.rd K.TIME_GEN + 1) % 2 ^ 32 ∧
    Raised (s.edgeSets v j tick) Src.TIME_SET_DONE ∧
    (tick = true → s.time.pendHost ≠ 0 →
      (s.edgeSets v j tick).time.pendHost = 0 ∧ CountsUp s (s.edgeSets v j tick) K.TIME_ADJ_DISCARDED 1) := by
  obtain ⟨stamp, new, heq⟩ := edgeSets_eq s v j tick
  obtain ⟨hgen, hstatus, hother⟩ := adjusted_does (s.setTaken new tick)
  have hset9 : (s.setTaken new tick).bit K.TIME_STATUS 9 = false := bit_wrBit_timeStatus _ 9 false (by decide)
  rw [heq]
  have hedge := edgeStamped_steers ((s.setTaken new tick).adjusted.raise Src.TIME_SET_DONE) stamp true
  have hrd : ∀ {k : Key}, k.area ≠ none → k ∉ edgeKeys →
      (((s.setTaken new tick).adjusted.raise Src.TIME_SET_DONE).edgeStamped stamp true).rd k = (s.setTaken new tick).adjusted.rd k :=
    fun ha hk => (hedge.rd ha hk).trans (rd_raise_area _ _ _ ha)
  have htime := edgeStamped_time ((s.setTaken new tick).adjusted.raise Src.TIME_SET_DONE) stamp true
  obtain ⟨hset, hhost⟩ := setTaken_time s new tick
  rw [raise_time, adjusted_time] at htime
  refine ⟨by rw [htime]; exact hset, ?_, ?_, ?_, hedge.raised _ (by decide) (raised_raise _ _ (by decide)), fun htick hstep => ?_⟩
  · rw [bit_of_rd (hrd (by decide) (by decide)), hstatus 9 (by decide), if_neg (by decide), hset9]
  · rw [bit_of_rd (hrd (by decide) (by decide)), hstatus 1 (by decide), if_pos rfl]
  · rw [hrd (by decide) (by decide), hgen, setTaken_rd s new tick (by decide), stepsDiscarded_gen]
  · subst htick
    obtain ⟨hnone, hcount⟩ := stepsDiscarded_of_step hstep
    refine ⟨by rw [htime]; exact hhost.trans hnone, ?_⟩
    rw [CountsUp, hrd (by decide) (by decide), hother _ (by decide) (by decide), setTaken_rd s new true (by decide)]
    exact hcount

end State

end Sys2Proof.Machine
end

section
/-!
PROOF. The commands of the time unit (R279 to R283, R293), and obligation O18.
-/

namespace Sys2Proof.Machine

section Commands

variable {s : State} {r : Fin 18}

open State

/-! ## Writes -/

/-- A word of 64 bits read as a signed number. -/
theorem sx_toNat (v : BitVec 64) : sx 64 v.toNat = v.toInt := by
  rw [sx, BitVec.toInt_eq_toNat_cond, Nat.mod_eq_of_lt v.isLt]
  by_cases h : v.toNat < 2 ^ 63
  · rw [if_pos h, if_pos (by omega)]
  · rw [if_neg h, if_neg (by omega)]

theorem timeSet_does {v : BitVec 96} (h : s.accepts r K.TIME_SET (be 12 v.toNat) = true) : Runs (.timeSet r v) s fun t =>
    t.time.pendSet = (if field v.toNat 47 16 = 0xFFFFFFFF then none else some v.toNat) ∧
    t.bit K.TIME_STATUS 9 = (field v.toNat 47 16 != 0xFFFFFFFF) ∧ t.time.counter = s.time.counter ∧ Changes [K.TIME_STATUS] s t := by
  refine runs_timeWrite (exec_timeSet s r v) h fun z t hz hzrd hrd htime => ?_
  have heff : effTimeSet v.toNat z = (z.modTime fun t => { t with
      pendSet := if field v.toNat 47 16 = 0xFFFFFFFF then none else some v.toNat }).wrBit K.TIME_STATUS 9
        (field v.toNat 47 16 != 0xFFFFFFFF) := by
    unfold effTimeSet
    split
    next hno => rw [hno]; rfl
    next hset => rw [bne_iff_ne.mpr hset]
  rw [heff] at hrd htime
  refine ⟨by rw [htime]; rfl, ?_, by rw [htime, ← hz]; rfl, ?_⟩
  · rw [bit_of_rd (hrd _)]
    exact bit_wrBit_timeStatus _ 9 _ (by decide)
  · rw [changes_iff]
    exact fun k ha hk => (hrd k).trans ((rd_wrBit_ne _ _ _ (by simpa using hk)).trans (hzrd k ha))

theorem timeStep_does {v : BitVec 64} (h : s.accepts r K.TIME_STEP (be 8 v.toNat) = true) : Runs (.timeStep r v) s fun t =>
    t.time.pendHost = s.time.pendHost + v.toInt ∧ t.time.counter = s.time.counter ∧
    t.bit K.TIME_STATUS 8 = (t.time.pendHost != 0 || s.time.pendServo != 0) ∧ Changes [K.TIME_STATUS] s t := by
  refine runs_timeWrite (exec_timeStep s r v) h fun z t hz hzrd hrd htime => ?_
  rw [effTimeStep, setStepPending, wrBit_time, time_modTime, hz] at htime
  refine ⟨by rw [htime, sx_toNat], by rw [htime], ?_, ?_⟩
  · rw [bit_of_rd (hrd _), htime, effTimeStep, setStepPending, bit_wrBit_timeStatus _ 8 _ (by decide), if_pos rfl, time_modTime, hz]
  · rw [changes_iff]
    exact fun k ha hk => (hrd k).trans ((rd_wrBit_ne _ _ _ (by simpa using hk)).trans (hzrd k ha))

theorem timeRateAdj_does {v : BitVec 32} (h : s.accepts r K.TIME_RATE_ADJ (be 4 v.toNat) = true) : Runs (.timeRateAdj r v) s fun t =>
    t.rd K.TIME_RATE_ADJ = v.toNat ∧ t.time = s.time ∧ Changes [K.TIME_RATE_ADJ] s t := by
  refine runs_timeWrite (exec_timeRateAdj s r v) h fun z t hz hzrd hrd htime => ⟨?_, htime.trans hz, ?_⟩
  · rw [hrd, effTimeRateAdj, rd_wr_self]
    exact Nat.mod_eq_of_lt v.isLt
  · rw [changes_iff]
    exact fun k ha hk => (hrd k).trans ((rd_wr_ne _ _ (by simpa using hk)).trans (hzrd k ha))

/-- A write of the source or of its lane: the entry takes the value, and one that differs is due at the gauge tick (R293), as far as `due`
has it. -/
theorem sourceWrite_does {c : Instr} {k : Key} {v : BitVec 8} {due : State → Bool} {eff : State → State}
    (hexec : exec c s = .next (s.write r k (be 1 v.toNat) eff)) (hbits : bitsOf k = 8) (harea : k.area ≠ none)
    (hsame : ∀ z, v.toNat = z.rd k → eff z = z)
    (hdiffers : ∀ z, v.toNat ≠ z.rd k → eff z = (z.wr k v.toNat).modTime fun t => { t with srcChange := t.srcChange || due z })
    (hdue : ∀ z, (∀ x, x.area ≠ none → z.rd x = s.rd x) → due z = due s) (h : s.accepts r k (be 1 v.toNat) = true) :
    Runs c s fun t => t.rd k = v.toNat ∧ t.time.srcChange = (s.time.srcChange || (v.toNat != s.rd k && due s)) ∧ Changes [k] s t := by
  refine runs_timeWrite hexec h fun z t hz hzrd hrd htime => ?_
  by_cases hv : v.toNat = z.rd k
  · rw [hsame z hv] at hrd htime
    rw [hzrd k harea] at hv
    refine ⟨(hrd k).trans ((hzrd k harea).trans hv.symm), ?_, ?_⟩
    · rw [htime, hz, hv, bne_self_eq_false, Bool.false_and, Bool.or_false]
    · rw [changes_iff]
      exact fun x ha _ => (hrd x).trans (hzrd x ha)
  · rw [hdiffers z hv] at hrd htime
    rw [hzrd k harea] at hv
    refine ⟨?_, ?_, ?_⟩
    · rw [hrd, modTime_rd, rd_wr_self, hbits]
      exact Nat.mod_eq_of_lt v.isLt
    · rw [htime, time_modTime, wr_time, hz, hdue z hzrd, bne_iff_ne.mpr hv, Bool.true_and]
    · rw [changes_iff]
      exact fun x ha hx => (hrd x).trans ((rd_wr_ne _ _ (by simpa using hx)).trans (hzrd x ha))

theorem timeDiscSrcWrite_source {v : BitVec 8} (h : s.accepts r K.TIME_DISC_SRC (be 1 v.toNat) = true) :
    Runs (.timeDiscSrcWrite r false v) s fun t =>
      t.rd K.TIME_DISC_SRC = v.toNat ∧ t.time.srcChange = (s.time.srcChange || v.toNat != s.rd K.TIME_DISC_SRC) ∧
      Changes [K.TIME_DISC_SRC] s t := by
  have hdoes := sourceWrite_does (c := .timeDiscSrcWrite r false v) (eff := effDiscSrc v.toNat) (due := fun _ => true) rfl rfl (by decide)
    (fun z hv => if_pos hv) (fun z hv => (if_neg hv).trans (by simp only [Bool.or_true])) (fun _ _ => rfl) h
  simpa only [Bool.and_true] using hdoes

theorem timeDiscSrcWrite_lane {v : BitVec 8} (h : s.accepts r K.TIME_LINE_LANE (be 1 v.toNat) = true) :
    Runs (.timeDiscSrcWrite r true v) s fun t =>
      t.rd K.TIME_LINE_LANE = v.toNat ∧
      t.time.srcChange = (s.time.srcChange || (v.toNat != s.rd K.TIME_LINE_LANE && s.rd K.TIME_DISC_SRC == 3)) ∧
      Changes [K.TIME_LINE_LANE] s t :=
  sourceWrite_does (eff := effLineLane v.toNat) (due := fun z => z.rd K.TIME_DISC_SRC == 3) rfl rfl (by decide)
    (fun z hv => if_pos hv) (fun z hv => if_neg hv) (fun z hz => by rw [hz _ (by decide)]) h

/-! ## The gauge tick -/

theorem timeAdjApply_does (hrun : s.running = true) (hnone : ∀ g ∈ s.od.waiting, g.bound ≠ .tick) : Runs .timeAdjApply s fun t =>
    t.time.pendHost = 0 ∧ t.time.pendServo = 0 ∧ t.bit K.TIME_STATUS 8 = false ∧ t.time.srcChange = false ∧
    t.time.rate = t.timeRate ∧
    (s.time.pendHost + s.time.pendServo = 0 → t.time.counter = s.time.counter ∧ t.rd K.TIME_GEN = s.rd K.TIME_GEN) ∧
    (s.time.pendHost + s.time.pendServo ≠ 0 →
      t.time.counter = counterAdd s.time.counter ((s.time.pendHost + s.time.pendServo) * 2 ^ 24) ∧
      t.rd K.TIME_GEN = (s.rd K.TIME_GEN + 1) % 2 ^ 32 ∧ Raised t Src.TIME_STEP_DONE) := by
  have hexec : exec .timeAdjApply s = .next s.gaugeTick := by
    rw [exec_timeAdjApply, execTimeAdjApply, if_pos hrun, gaugeBoundary_of_none hnone]
  obtain ⟨hcounter, hhost, hservo, hbit, hsrc⟩ := gaugeTick_time s
  obtain ⟨hsteers, -⟩ := applySource_does s.applySteps
  have hgen : s.gaugeTick.rd K.TIME_GEN = s.applySteps.rd K.TIME_GEN := (gaugeTick_rd s _).trans (hsteers.rd (by decide) (by decide))
  refine ⟨_, hexec, hhost, hservo, hbit, hsrc, gaugeTick_rate s, fun hzero => ?_, fun hsum => ?_⟩
  · rw [hcounter, hgen, applySteps_of_zero hzero]
    exact ⟨rfl, rd_wrBit_ne _ _ _ (by decide)⟩
  · obtain ⟨htime, -, hnew, hraised⟩ := applySteps_steps hsum
    rw [hcounter, hgen, htime]
    exact ⟨rfl, hnew, hsteers.raised _ (by decide) hraised⟩

/-! ## SYNC_IN -/

theorem syncInEdge_stamps {j : Fin 16} {tick : Bool} (hon : s.on K.SYNC_IN_EN = true) (hrun : s.running = true)
    (hset : s.time.pendSet = none) :
    let stamp := counterAdd s.time.counter (State.subCc j.val)
    Runs (.syncInEdge j tick) s fun t =>
      t.rd K.SYNC_IN_STAMP = time96 stamp ∧ t.rd K.SYNC_IN_SEQ = (s.rd K.SYNC_IN_SEQ + 1) % 2 ^ 32 ∧
      t.rd K.SYNC_IN_VALID = (s.edgeValid stamp).toNat ∧ Raised t Src.SYNC_IN_EDGE ∧ t.time.counter = s.time.counter ∧
      (s.edgeValid stamp = false → CountsUp s t K.SYNC_IN_FAULTS 1 ∧ Raised t Src.SYNC_IN_FAULT) := by
  intro stamp
  obtain ⟨hafter, hfault⟩ := syncEdge_stamps (j := j.val) (tick := tick) hon hrun hset (stamp := stamp) rfl
  obtain ⟨hstamp, hseq, hvalid, hedge⟩ := edgeStamped_shows s stamp (s.edgeValid stamp)
  have hbefore := edgeStamped_steers s stamp (s.edgeValid stamp)
  exact ⟨_, exec_syncInEdge s j tick, (hafter.rd (by decide) (by decide)).trans hstamp, (hafter.rd (by decide) (by decide)).trans hseq,
    (hafter.rd (by decide) (by decide)).trans hvalid, hafter.raised _ (by decide) hedge, hafter.counter.trans hbefore.counter, hfault⟩

theorem syncInEdge_sets {j : Fin 16} {tick : Bool} {v : Nat} (hon : s.on K.SYNC_IN_EN = true) (hrun : s.running = true)
    (hset : s.time.pendSet = some v) : Runs (.syncInEdge j tick) s fun t =>
      t.time.pendSet = none ∧ t.bit K.TIME_STATUS 9 = false ∧ t.bit K.TIME_STATUS 1 = true ∧
      t.rd K.TIME_GEN = (s.rd K.TIME_GEN + 1) % 2 ^ 32 ∧ Raised t Src.TIME_SET_DONE ∧
      (tick = true → s.time.pendHost ≠ 0 → t.time.pendHost = 0 ∧ CountsUp s t K.TIME_ADJ_DISCARDED 1) := by
  refine ⟨_, exec_syncInEdge s j tick, ?_⟩
  rw [syncEdge_of_some hon hrun hset]
  exact edgeSets_does s v j.val tick

theorem syncInSilence_tells (hon : s.on K.SYNC_IN_EN = true) (hrun : s.running = true) (htold : s.time.silenceTold = false) :
    Runs .syncInSilence s fun t => t.time.silenceTold = true ∧ Raised t Src.SYNC_IN_FAULT ∧ Changes [] s t := by
  have hdue : (s.on K.SYNC_IN_EN && s.running && !s.time.silenceTold) = true := by simp [hon, hrun, htold]
  refine ⟨_, (exec_syncInSilence s).trans (congrArg Host.Outcome.next (if_pos hdue)), ?_, raised_raise _ _ (by decide),
    changes_raise [] _ _⟩
  rw [raise_time]
  rfl

/-! ## SYNC_OUT (R282) -/

/-- What a pulse asks: the counter runs, the width is not 0, the instant comes in this cc, no second pulse comes too close, and the second
was not stepped across. -/
def pulseDue (s : State) : Bool :=
  s.running && s.rd K.SYNC_OUT_WIDTH != 0 && s.reachesSecond && !s.pulseNear && s.time.outSkip != some s.pulseSecond

theorem pulseDue_iff : pulseDue s = true ↔ s.running = true ∧ s.rd K.SYNC_OUT_WIDTH ≠ 0 ∧ s.reachesSecond = true ∧
    s.pulseNear = false ∧ s.time.outSkip ≠ some s.pulseSecond := by
  simp only [pulseDue, Bool.and_eq_true, bne_iff_ne, Bool.not_eq_true', and_assoc]

theorem exec_syncOutPulse_eq (s : State) : exec .syncOutPulse s = .next (if pulseDue s then s.modTime fun t =>
    { t with outHigh := true, lastPulse := some s.now, outSub := s.toSecond / State.subCc 1, outWidth := s.rd K.SYNC_OUT_WIDTH
             adjSincePulse := false } else s) := rfl

theorem syncOutPulse_rises (h : pulseDue s = true) : Runs .syncOutPulse s fun t =>
    t.time.outHigh = true ∧ t.time.lastPulse = some s.now ∧ t.time.outWidth = s.rd K.SYNC_OUT_WIDTH ∧
    t.time.outSub = s.toSecond / State.subCc 1 ∧ ∀ x, t.rd x = s.rd x :=
  ⟨_, (exec_syncOutPulse_eq s).trans (congrArg _ (if_pos h)), rfl, rfl, rfl, rfl, fun _ => rfl⟩

theorem syncOutPulse_stays (h : pulseDue s ≠ true) : Runs .syncOutPulse s fun t => t = s :=
  ⟨_, (exec_syncOutPulse_eq s).trans (congrArg _ (if_neg h)), rfl⟩

theorem syncOutPulseEnd_falls {c : Nat} (hlast : s.time.lastPulse = some c) (hpast : 225 * s.time.outWidth ≤ 128 * (s.now - c)) :
    Runs .syncOutPulseEnd s fun t =>
      t.time.outHigh = false ∧ t.time = { s.time with outHigh := false } ∧ ∀ x, t.rd x = s.rd x := by
  refine ⟨s.modTime fun t => { t with outHigh := false }, ?_, rfl, rfl, fun _ => rfl⟩
  rw [exec_syncOutPulseEnd, execSyncOutPulseEnd, hlast]
  exact congrArg _ (if_pos hpast)

theorem syncOutPulseEnd_stays (h : s.time.lastPulse = none ∨
    ∃ c, s.time.lastPulse = some c ∧ 128 * (s.now - c) < 225 * s.time.outWidth) : Runs .syncOutPulseEnd s fun t => t = s := by
  refine ⟨s, ?_, rfl⟩
  rw [exec_syncOutPulseEnd, execSyncOutPulseEnd]
  obtain hnone | ⟨c, hlast, hearly⟩ := h
  · rw [hnone]
  · rw [hlast]
    exact congrArg _ (if_neg (by omega))

end Commands

/-- Settles O18: a write of the time unit is its effect on an unchanged time record, a gauge tick the steps and then the source, an edge its
stamp and then what the stamp is good for. -/
theorem timeUnit : Obligations.TimeUnit := by
  unfold Obligations.TimeUnit
  refine ⟨fun s r v => timeSet_does, fun s r v => timeStep_does, fun s r v => timeRateAdj_does, fun s => timeAdjApply_does,
    fun s hstands => ?_, fun s j tick => syncInEdge_stamps, fun s j tick v => syncInEdge_sets, fun s j tick hoff => ?_,
    fun s => syncInSilence_tells, fun s htold => ?_,
    fun s hrun hwidth hreach hnear hskip => syncOutPulse_rises (pulseDue_iff.mpr ⟨hrun, hwidth, hreach, hnear, hskip⟩),
    fun s hno => syncOutPulse_stays fun hdue => ?_, fun s c => syncOutPulseEnd_falls, fun s => syncOutPulseEnd_stays,
    fun s r v => timeDiscSrcWrite_source, fun s r v => timeDiscSrcWrite_lane⟩
  · exact ⟨s, by rw [exec_timeAdjApply, execTimeAdjApply, hstands, if_neg Bool.false_ne_true], rfl⟩
  · exact ⟨s, by rw [exec_syncInEdge, execSyncInEdge, State.syncEdge_of_off hoff], rfl⟩
  · exact ⟨s, (exec_syncInSilence s).trans (congrArg Host.Outcome.next (if_neg (by simp [htold]))), rfl⟩
  · obtain ⟨hrun, hwidth, hreach, hnear, hskip⟩ := pulseDue_iff.mp hdue
    simp [hrun, hwidth, hreach, hnear, hskip] at hno

end Sys2Proof.Machine
end

section
/-!
PROOF. Statement O2: a cc in which no command comes. What ends by elapsed time alone is the ring's and the lanes' own, it sends the
dictionary no request, and with none queued there is none to serve.
-/

namespace Sys2Proof.Machine

namespace State

variable (s : State)

/-! ## A cc leaves the dictionary's record alone -/

theorem calDacBegin_od (n : Fin 16) : (s.calDacBegin n).od = s.od := by
  unfold calDacBegin
  rw [wrBit_od, wr_od, modLane_od]

theorem picotCut_od (n : Fin 16) : (s.picotCut n).od = s.od := by
  unfold picotCut
  split
  · dsimp only
    split
    · rw [calDacBegin_od, modLane_od, incSat_od]
    · rw [modLane_od, incSat_od]
  · rfl

theorem outSet_od (n : Fin 16) (f : LaneS → LaneS) : (s.outSet n f).od = s.od := by
  unfold outSet injFollow
  rw [modLane_od, modLane_od, addSat_od]

theorem outFollow_od (n : Fin 16) : (s.outFollow n).od = s.od := by
  unfold outFollow
  dsimp only
  split
  · split
    · rfl
    · rw [picotCut_od, outSet_od]
  · split
    · rfl
    · rw [outSet_od]
  · rfl

theorem picotFollow_od (n : Fin 16) : (s.picotFollow n).od = s.od := by
  unfold picotFollow picotSearch
  split
  · rw [modPicot_od]
  · split
    · rw [modPicot_od]
    · rfl

theorem calStart_od (n : Fin 16) (lane dac : Bool) : (s.calStart n lane dac).od = s.od := by
  have hlane : ∀ z : State, z.od = s.od →
      (if lane then ((s.modLane n fun l => { l with calLane := true, calBad := false, calCmd := false }).wr
        (K.LINE_CAL_LANE_LAST n) s.timeNow).picotFollow n else z).od = s.od := by
    intro z hz
    split
    · rw [picotFollow_od, wr_od, modLane_od]
    · exact hz
  unfold calStart
  dsimp only
  split
  · split
    · rw [modLane_od, hlane s rfl]
    · rw [calDacStart, outFollow_od, calDacBegin_od, hlane s rfl]
  · exact hlane s rfl

theorem castStart_od (n : Fin 16) : (s.castStart n).od = s.od := by
  unfold castStart
  split
  · rw [calStart_od, modCo_od]
  · rfl

theorem laneResetTick_od : s.laneResetTick.od = s.od :=
  forAll_keep (fun z => z.od) (fun n _ z => by
    split
    · rw [castStart_od, picotFollow_od, outFollow_od, modLane_od]
    · rfl) s

theorem sendToken_od (q : Fin 2) : (s.sendToken q).od = s.od := by
  unfold sendToken setTx
  split
  · rw [modPort_od, modPort_od]
  · rw [modPort_od]

theorem ringEof_od (q : Fin 2) : (s.ringEof q).od = s.od := by
  unfold ringEof
  split
  · dsimp only
    rw [sendToken_od, modPort_od, incSat_od]
    split
    · rw [modRing_od]
    · rfl
  · rfl

theorem ringTick_od : s.ringTick.od = s.od :=
  forAll_keep (fun z => z.od) (fun q _ z => by
    split
    · split
      · exact ringEof_od z q
      · rfl
    · rfl) s

theorem recEnd_od : s.recEnd.od = s.od := by
  unfold recEnd
  split
  · rfl
  · rw [modSec_od]

theorem pcTick_od : s.pcTick.od = s.od := by
  have hfabric : (if s.now % 4 = 0 then s.pcEvent 0x0B 1 else s).od = s.od := by
    split
    · exact pcEvent_od s _ _
    · rfl
  unfold pcTick
  split
  · rfl
  · dsimp only
    rw [apply_ite State.od, pcEvent_od, ite_self, hfabric]

/-! ## Nothing queued, nothing served -/

variable {s}

theorem coreNext_of_empty (h : s.od.coreQ = []) : s.coreNext = none := by
  have hhead (r : Fin 18) : s.coreHead r = none := by rw [coreHead, h]; rfl
  simp [coreNext, hhead]

theorem pumpOne_of_empty (h : s.od.coreQ = []) : s.pumpOne = s := by
  simp [pumpOne, h, coreNext_of_empty h]

theorem pumpAll_of_empty (h : s.od.coreQ = []) : s.pumpAll = s := by
  simp [pumpAll, pump, h, pumpOne_of_empty h]

/-! ## One cc -/

/-- The count of cc and the time unit's counter, with which a cc begins. -/
def clocked (s : State) : State := { s with now := s.now + 1, time := if s.running then s.time.tick else s.time }

/-- The areas whose own elapsed time a cc may end something in: the ring's and the lanes'. -/
def elapsing (a : Area) : Bool := a == .ring || a == .lanes

theorem tick_of_empty (h : s.od.coreQ = []) : s.tick = s.clocked.pcTick.ringTick.laneResetTick.recEnd :=
  pumpAll_of_empty (by rw [recEnd_od, laneResetTick_od, ringTick_od, pcTick_od]; exact h)

theorem tick_touches (h : s.od.coreQ = []) : Touches elapsing s.clocked s.tick := by
  rw [tick_of_empty h]
  exact recEnd_touches (laneResetTick_touches (ringTick_touches (pcTick_touches (.refl _ _)) rfl) rfl)

end State

theorem not_within_elapsing {k : Key} (hsome : k.area ≠ none) (hlanes : k.area ≠ some .lanes) (hring : k.area ≠ some .ring) :
    k.within State.elapsing = false := by
  unfold Key.within
  cases harea : k.area with
  | none => exact absurd harea hsome
  | some a => cases a <;> simp_all [State.elapsing]

/-- Settles O2: what a cc alone may end lies in the ring and the lanes, and with no request queued nothing is served. -/
theorem idleStep : Obligations.IdleStep := by
  unfold Obligations.IdleStep
  intro s hpending hempty
  have hcc := State.tick_touches hempty
  refine ⟨s.tick, ?_, hcc.now, hcc.queue.trans hpending, hcc.time rfl, fun k hsome hlanes hring _ =>
    hcc.regs k (not_within_elapsing hsome hlanes hring)⟩
  rw [step, hpending]

end Sys2Proof.Machine
end

section
/-!
SUPPORT. The state with one lane's count of TIME messages replaced, its store listed anew in the canonical form. Whatever does not read that
count does the same with the one state as with the other, which is what the statement O31 needs: a message is counted first and judged then.
-/

namespace Sys2Proof.Machine

namespace Store

/-- The same entries, listed in the canonical form. -/
def listed (m : Store) : Store := m.foldr (fun e acc => set acc e.1 e.2) []

theorem wf_listed (m : Store) : wf (listed m) = true := by
  induction m with
  | nil => rfl
  | cons e m ih => exact wf_set e.1 e.2 ih

theorem get_listed (m : Store) (k : Key) : get (listed m) k = get m k := by
  induction m with
  | nil => rfl
  | cons e m ih =>
    obtain ⟨a, v⟩ := e
    refine (get_set (listed m) a v k).trans ?_
    by_cases hk : k = a
    · simp [hk, get, find]
    · rw [if_neg hk, ih, get, get, find, if_neg (Ne.symm hk)]

theorem get_of_above {k : Key} {m : Store} (h : ∀ e ∈ m, Key.lt k e.1 = true) : get m k = resetOf k := by
  have hnone : find k m = none := by
    induction m with
    | nil => rfl
    | cons e m ih =>
      have hne : e.1 ≠ k := fun heq => by simpa [heq, Key.lt_irrefl] using h e List.mem_cons_self
      rw [find, if_neg hne]
      exact ih fun e he => h e (List.mem_cons_of_mem _ he)
  rw [get, hnone, Option.getD_none]

theorem get_cons_self (k : Key) (v : Nat) (m : Store) : get ((k, v) :: m) k = v := by simp [get, find]

theorem get_cons_ne {k k' : Key} (v : Nat) (m : Store) (h : k' ≠ k) : get ((k, v) :: m) k' = get m k' := by
  rw [get, find, if_neg (Ne.symm h), get]

/-- A canonical store's first entry reads otherwise in a store whose keys all come after it. -/
theorem get_ne_of_above {k : Key} {v : Nat} {m m' : Store} (h : wf ((k, v) :: m) = true) (habove : ∀ e ∈ m', Key.lt k e.1 = true) :
    get ((k, v) :: m) k ≠ get m' k := by
  rw [get_cons_self, get_of_above habove]
  exact ((wf_cons k v m).mp h).1

/-- The canonical form is settled by what the entries read. -/
theorem eq_of_get {m m' : Store} (h : wf m = true) (h' : wf m' = true) (hget : ∀ k, get m k = get m' k) : m = m' := by
  induction m generalizing m' with
  | nil =>
    cases m' with
    | nil => rfl
    | cons e m' => exact absurd (hget e.1).symm (get_ne_of_above h' (by simp))
  | cons e m ih =>
    obtain ⟨a, v⟩ := e
    cases m' with
    | nil => exact absurd (hget a) (get_ne_of_above h (by simp))
    | cons e' m' =>
      obtain ⟨b, w⟩ := e'
      obtain ⟨-, hm, hwf⟩ := (wf_cons a v m).mp h
      obtain ⟨-, hm', hwf'⟩ := (wf_cons b w m').mp h'
      have hbefore : ∀ {x y : Key} {z : Nat} {l : Store}, Key.lt x y = true → (∀ e ∈ l, Key.lt y e.1 = true) →
          ∀ e ∈ (y, z) :: l, Key.lt x e.1 = true := fun hxy hl e he => by
        obtain rfl | he := List.mem_cons.mp he
        · exact hxy
        · exact Key.lt_trans hxy (hl e he)
      have hab : a = b := by
        by_contra hne
        cases hlt : Key.lt a b with
        | true => exact get_ne_of_above h (hbefore hlt hm') (hget a)
        | false => exact get_ne_of_above h' (hbefore (Key.lt_total hlt hne) hm) (hget b).symm
      subst hab
      have hvw : v = w := by simpa [get_cons_self] using hget a
      have hrest : ∀ k, get m k = get m' k := fun k => by
        by_cases hk : k = a
        · rw [hk, get_of_above hm, get_of_above hm']
        · simpa [get_cons_ne _ _ hk] using hget k
      rw [hvw, ih hwf hwf' hrest]

end Store

namespace State

/-- The state with its store listed anew, and with lane `m`'s count of TIME messages at `c` where one is given. -/
def recounted (s : State) (m : Fin 16) (c : Option Nat) : State :=
  { s with store := match c with
      | none => s.store.listed
      | some v => s.store.listed.set (K.TIME_RX m) v }

variable (s : State) (m : Fin 16) (c : Option Nat)

theorem recounted_wf : (s.recounted m c).store.wf = true := by
  cases c with
  | none => exact Store.wf_listed _
  | some v => exact Store.wf_set _ _ (Store.wf_listed _)

@[simp] theorem rd_recounted {k : Key} (h : k ≠ K.TIME_RX m) : (s.recounted m c).rd k = s.rd k := by
  cases c with
  | none => exact Store.get_listed _ _
  | some v => exact (Store.get_set _ _ _ _).trans ((if_neg h).trans (Store.get_listed _ _))

theorem rd_recounted_none (k : Key) : (s.recounted m none).rd k = s.rd k := Store.get_listed _ _

theorem rd_recounted_some (v : Nat) : (s.recounted m (some v)).rd (K.TIME_RX m) = v := (Store.get_set _ _ _ _).trans (if_pos rfl)

/-- Two states in the canonical form that read alike, and whose records are the same, are the same. -/
theorem eq_of_rd {s t : State} (hs : s.store.wf = true) (ht : t.store.wf = true) (hrest : t = { s with store := t.store })
    (hget : ∀ k, t.rd k = s.rd k) : t = s := by
  have hstore : t.store = s.store := Store.eq_of_get ht hs hget
  rw [hrest, hstore]

@[simp] theorem wr_recounted {k : Key} (v : Nat) (h : k ≠ K.TIME_RX m) : (s.recounted m c).wr k v = (s.wr k v).recounted m c :=
  eq_of_rd (recounted_wf _ _ _) (Store.wf_set _ _ (recounted_wf _ _ _)) rfl fun x => by
    rw [rd_wr]
    by_cases hx : x = K.TIME_RX m
    · subst hx
      rw [if_neg (Ne.symm h)]
      cases c with
      | none => rw [rd_recounted_none, rd_recounted_none, rd_wr_ne _ _ (Ne.symm h)]
      | some w => rw [rd_recounted_some, rd_recounted_some]
    · rw [rd_recounted _ _ _ hx, rd_recounted _ _ _ hx, rd_wr]

/-- The count does not show once it is replaced. -/
theorem recounted_incSat (v : Nat) : (s.incSat (K.TIME_RX m)).recounted m (some v) = s.recounted m (some v) :=
  eq_of_rd (recounted_wf _ _ _) (recounted_wf _ _ _) rfl fun k => by
    by_cases hk : k = K.TIME_RX m
    · rw [hk, rd_recounted_some, rd_recounted_some]
    · rw [rd_recounted _ _ _ hk, rd_recounted _ _ _ hk]
      exact rd_wr_ne _ _ hk

/-- The count that stands may be put in its own place. -/
theorem recounted_self : s.recounted m (some (s.rd (K.TIME_RX m))) = s.recounted m none :=
  eq_of_rd (recounted_wf _ _ _) (recounted_wf _ _ _) rfl fun k => by
    rw [rd_recounted_none]
    by_cases hk : k = K.TIME_RX m
    · rw [hk, rd_recounted_some]
    · exact rd_recounted _ _ _ hk

end State

end Sys2Proof.Machine
end

section
/-!
SUPPORT. What a lane in C6 or C7 does on the ACK and the PHASE of a packet is the same whatever its count of TIME messages.
-/

namespace Sys2Proof.Machine

namespace State

variable (s : State) (m : Fin 16) (c : Option Nat)

/-! ## Records -/

@[simp] theorem recounted_now : (s.recounted m c).now = s.now := rfl
@[simp] theorem recounted_clk : (s.recounted m c).clk = s.clk := rfl
@[simp] theorem recounted_pwr : (s.recounted m c).pwr = s.pwr := rfl
@[simp] theorem recounted_lane (n : Fin 16) : (s.recounted m c).lane n = s.lane n := rfl
@[simp] theorem recounted_co (n : Fin 16) : (s.recounted m c).co n = s.co n := rfl
@[simp] theorem recounted_picot (n : Fin 16) : (s.recounted m c).picot n = s.picot n := rfl
@[simp] theorem recounted_ss (n : Fin 16) : (s.recounted m c).ss n = s.ss n := rfl
@[simp] theorem recounted_pg (k : Fin 4) : (s.recounted m c).pg k = s.pg k := rfl
@[simp] theorem recounted_unit (u : Fin 22) : (s.recounted m c).unit u = s.unit u := rfl

@[simp] theorem modLane_recounted (n : Fin 16) (f : LaneS → LaneS) :
    (s.recounted m c).modLane n f = (s.modLane n f).recounted m c := rfl
@[simp] theorem modCo_recounted (n : Fin 16) (f : CoS → CoS) : (s.recounted m c).modCo n f = (s.modCo n f).recounted m c := rfl
@[simp] theorem modPicot_recounted (n : Fin 16) (f : PicotS → PicotS) :
    (s.recounted m c).modPicot n f = (s.modPicot n f).recounted m c := rfl
@[simp] theorem modPg_recounted (k : Fin 4) (f : PgS → PgS) : (s.recounted m c).modPg k f = (s.modPg k f).recounted m c := rfl
@[simp] theorem modUnit_recounted (u : Fin 22) (f : PwrUnit → PwrUnit) :
    (s.recounted m c).modUnit u f = (s.modUnit u f).recounted m c := rfl
@[simp] theorem modClk_recounted (f : ClkS → ClkS) : (s.recounted m c).modClk f = (s.modClk f).recounted m c := rfl
@[simp] theorem startSave_recounted : (s.recounted m c).startSave = s.startSave.recounted m c := rfl

/-! ## Entries -/

@[simp] theorem bit_recounted {k : Key} (i : Nat) (h : k ≠ K.TIME_RX m) : (s.recounted m c).bit k i = s.bit k i := by simp [bit, h]

@[simp] theorem on_recounted {k : Key} (h : k ≠ K.TIME_RX m) : (s.recounted m c).on k = s.on k := by simp [on, h]

@[simp] theorem wrBit_recounted {k : Key} (i : Nat) (b : Bool) (h : k ≠ K.TIME_RX m) :
    (s.recounted m c).wrBit k i b = (s.wrBit k i b).recounted m c := by simp [wrBit, h]

@[simp] theorem addSat_recounted {k : Key} (v : Nat) (h : k ≠ K.TIME_RX m) :
    (s.recounted m c).addSat k v = (s.addSat k v).recounted m c := by simp [addSat, h]

@[simp] theorem incSat_recounted {k : Key} (h : k ≠ K.TIME_RX m) : (s.recounted m c).incSat k = (s.incSat k).recounted m c :=
  addSat_recounted s m c 1 h

@[simp] theorem phase_recounted (n : Fin 16) : (s.recounted m c).phase n = s.phase n := by simp [phase]
@[simp] theorem coFlag_recounted (n : Fin 16) (i : Nat) : (s.recounted m c).coFlag n i = s.coFlag n i := by simp [coFlag]
@[simp] theorem setCoFlag_recounted (n : Fin 16) (i : Nat) (b : Bool) :
    (s.recounted m c).setCoFlag n i b = (s.setCoFlag n i b).recounted m c := by simp [setCoFlag]
@[simp] theorem binding_recounted (n : Fin 16) : (s.recounted m c).binding n = s.binding n := coFlag_recounted s m c n 0
@[simp] theorem frameLock_recounted (n : Fin 16) : (s.recounted m c).frameLock n = s.frameLock n := by simp [frameLock]
@[simp] theorem laneDown_recounted (n : Fin 16) : (s.recounted m c).laneDown n = s.laneDown n := by simp [laneDown]
@[simp] theorem laneOpen_recounted (n : Fin 16) : (s.recounted m c).laneOpen n = s.laneOpen n := by simp [laneOpen]

@[simp] theorem ite_recounted (p : Prop) [Decidable p] (a b : State) :
    (if p then a.recounted m c else b.recounted m c) = (if p then a else b).recounted m c := (apply_ite (recounted · m c) p a b).symm

/-- A change made for each unit of a list. -/
theorem forAll_recounted {α : Type} {f : α → State → State} (hf : ∀ a z, f a (recounted z m c) = (f a z).recounted m c) (l : List α) :
    forAll l f (s.recounted m c) = (forAll l f s).recounted m c := by
  induction l generalizing s with
  | nil => rfl
  | cons a l ih => exact (congrArg (forAll l f) (hf a s)).trans (ih (f a s))

/-! ## Messages out (R185, R189, R240) -/

@[simp] theorem picotOffer_recounted (n : Fin 16) (p : Packet) :
    (s.recounted m c).picotOffer n p = (s.picotOffer n p).recounted m c := by simp [picotOffer]

@[simp] theorem coPrefix_recounted (n : Fin 16) : (s.recounted m c).coPrefix n = s.coPrefix n := by simp [coPrefix]

@[simp] theorem coOffer_recounted (n : Fin 16) (typ seq : Nat) (body : List Byte) :
    (s.recounted m c).coOffer n typ seq body = (s.coOffer n typ seq body).recounted m c := by simp [coOffer]

@[simp] theorem sendSeq_recounted (n : Fin 16) (typ : Nat) (body : List Byte) :
    (s.recounted m c).sendSeq n typ body = (s.sendSeq n typ body).recounted m c := by
  unfold sendSeq
  dsimp only
  rw [apply_ite (recounted · m c), ← coOffer_recounted]
  rfl

@[simp] theorem coPump_recounted (n : Fin 16) (k : Nat) : (s.recounted m c).coPump n k = (s.coPump n k).recounted m c := by
  induction k generalizing s with
  | zero => rfl
  | succ k ih =>
    simp only [coPump, recounted_co]
    split
    · rfl
    · simp [ih]

@[simp] theorem sendReady_recounted (n : Fin 16) : (s.recounted m c).sendReady n = (s.sendReady n).recounted m c := by
  simp [sendReady]

@[simp] theorem sendStatus_recounted (n : Fin 16) : (s.recounted m c).sendStatus n = (s.sendStatus n).recounted m c := by
  simp [sendStatus, lockFill]

@[simp] theorem coOffers_recounted (n : Fin 16) : (s.recounted m c).coOffers n = s.coOffers n := by simp [coOffers]

@[simp] theorem sendCap_recounted (n : Fin 16) : (s.recounted m c).sendCap n = (s.sendCap n).recounted m c := by
  simp [sendCap, capNow]

@[simp] theorem agreement_recounted (n : Fin 16) : (s.recounted m c).agreement n = s.agreement n := rfl

@[simp] theorem offerCheck_recounted (n : Fin 16) : (s.recounted m c).offerCheck n = (s.offerCheck n).recounted m c := by
  simp only [offerCheck, recounted_co]
  split
  · simp
  · rfl

/-! ## Entry to C7 (R216) -/

@[simp] theorem record_recounted (kind unit : Nat) (data : List Byte) :
    (s.recounted m c).record kind unit data = (s.record kind unit data).recounted m c := by
  have hrunning : (s.recounted m c).running = s.running := by simp [running]
  unfold record
  rw [apply_ite (recounted · m c), hrunning, incSat_recounted s m c (by simp)]
  rfl

@[simp] theorem phaseRecord_recounted (n : Fin 16) (p : Nat) :
    (s.recounted m c).phaseRecord n p = (s.phaseRecord n p).recounted m c := by simp [phaseRecord]

@[simp] theorem chooseSrc_recounted (n : Fin 16) (v : Nat) : (s.recounted m c).chooseSrc n v = (s.chooseSrc n v).recounted m c := rfl

@[simp] theorem groupFix_recounted (k : Fin 4) (f : Nat) : (s.recounted m c).groupFix k f = (s.groupFix k f).recounted m c := rfl

@[simp] theorem groupFollow_recounted (n : Fin 16) : (s.recounted m c).groupFollow n = (s.groupFollow n).recounted m c := by
  simp [groupFollow, forAll_recounted]

@[simp] theorem ssFollow_recounted (n : Fin 16) : (s.recounted m c).ssFollow n = (s.ssFollow n).recounted m c := by
  have hstart : (s.recounted m c).ssStart n = (s.ssStart n).recounted m c := by
    have hspare : (s.recounted m c).sliceSpare n = s.sliceSpare n := rfl
    simp only [ssStart, hspare]
    split <;> rfl
  have hstop : (s.recounted m c).ssStop n = (s.ssStop n).recounted m c := by
    have hspare : (s.recounted m c).sliceSpare n = s.sliceSpare n := rfl
    simp only [ssStop, hspare]
    split <;> rfl
  simp [ssFollow, ssRuns, ssMay, inRun, hstart, hstop]

@[simp] theorem outageCheck_recounted : (s.recounted m c).outageCheck = s.outageCheck.recounted m c := by
  simp only [outageCheck, recounted_clk]
  split
  · rfl
  next cause t0 _ =>
    have hkey : outageKey cause ≠ K.TIME_RX m := by cases cause <;> simp [outageKey]
    simp [hkey]

end State

end Sys2Proof.Machine
end

section
/-!
SUPPORT. A packet judged in C7 leaves the same behind whatever the lane's count of TIME messages: from the packet's ACK on, the lane
either does the same with both counts, or is short of C7 with both.
-/

namespace Sys2Proof.Machine

namespace State

variable {s : State} {n m : Fin 16} {c : Option Nat}

/-! ## The lane's progress above C5 -/

theorem enterC7_recounted (s : State) : (s.recounted m c).enterC7 n = (s.enterC7 n).recounted m c := by
  have hset : (s.recounted m c).phaseSet n 7 = (s.phaseSet n 7).recounted m c := by simp [phaseSet]
  simp [enterC7, hset]

theorem portPassed_recounted (s : State) (n : Fin 16) : (s.recounted m c).portPassed n = s.portPassed n := by
  have hlanes (k : Fin 4) (p : Nat) : (s.recounted m c).portLanes k p = s.portLanes k p := by simp [portLanes]
  simp [portPassed, portLines, hlanes]

theorem workDone_recounted (s : State) (n : Fin 16) : (s.recounted m c).workDone n = s.workDone n := by
  simp [workDone, portPassed_recounted]

theorem policyStart_above (h : 5 < s.phase n) : s.policyStart n = s := by
  obtain heq | ⟨h4, -⟩ := policyStart_cases s n
  · exact heq
  · omega

/-- Above C5 the one phase to come is C7. -/
theorem advanceOnce_above (h : 5 < s.phase n) : s.advanceOnce n =
    if s.binding n || !s.workDone n then s
    else if !(s.co n).readySent then s.sendReady n
    else if (s.co n).readyAcked && ((s.co n).peerReady.contains (s.phase n) ||
      (s.phase n < s.rd (K.LINE_CO_PEER_PHASE n) && s.rd (K.LINE_CO_PEER_PHASE n) ≤ 7)) then s.enterC7 n
    else s := by
  obtain ⟨q, hq⟩ : ∃ q, s.phase n = q + 6 := ⟨s.phase n - 6, by omega⟩
  cases hbinding : s.binding n with
  | true => simp [advanceOnce, hbinding]
  | false => simp [advanceOnce, hbinding, hq]

theorem advanceOnce_recounted (h : 5 < s.phase n) : (s.recounted m c).advanceOnce n = (s.advanceOnce n).recounted m c := by
  rw [advanceOnce_above h, advanceOnce_above (h.trans_eq (phase_recounted s m c n).symm)]
  simp [workDone_recounted, enterC7_recounted]

/-! ## Short of C7 -/

/-- The lane is short of C7, and of the ACK that opens it. -/
def Short (n : Fin 16) (z : State) : Prop := z.phase n ≤ 5 ∨ z.phase n = 6 ∧ (z.co n).readyAcked = false

theorem coRestart_low (s : State) (n : Fin 16) (cause : Nat) : (s.coRestart n cause).phase n ≤ 5 := by
  cases hbind : (s.co n).bind with
  | none =>
    have hbase : (s.restartBase n cause).phase n = 1 := by
      rw [restartBase, phase, modCo_rd]
      exact enterC1_phase _ n
    rw [coRestart_of_none hbind, hbase]
    decide
  | some reason =>
    rw [coRestart_of_bind hbind, toC0_phase]
    decide

theorem windowOpened_short (s : State) (n : Fin 16) :
    (s.windowOpened n).phase n = 6 ∧ ((s.windowOpened n).co n).readyAcked = false := by
  obtain ⟨held, hco⟩ := phaseSet_co s n (p := 6) (by decide) (.inl (by decide))
  refine ⟨?_, ?_⟩
  · rw [windowOpened, phase, modCo_rd]
    exact phaseSet_phase s n (by decide)
  · rw [windowOpened, co_modCo, hco]
    rfl

theorem enterC6_short (s : State) (n : Fin 16) : Short n (s.enterC6 n) := by
  have hopened := windowOpened_short s n
  rw [enterC6_eq]
  split
  · cases hpass : (s.windowOpened n).gatePasses n ((s.windowOpened n).co n).win with
    | true =>
      obtain ⟨hco, hrd⟩ := portReady_stands ((s.windowOpened n).modCo n fun c => { c with gate := 1 }) n
      refine .inr ⟨((gateEnd_passes hpass).2 _).trans hopened.1, ?_⟩
      rw [gateEnd, if_pos hpass, hco, co_modCo]
      exact hopened.2
    | false =>
      rw [gateEnd_fails hpass]
      split
      · exact .inl (by rw [enterC4_phase]; decide)
      · exact .inl (coRestart_low _ n 5)
  · exact .inr hopened

theorem policyStart_short (h : Short n s) : Short n (s.policyStart n) := by
  have hphase : (s.policyStart n).phase n = s.phase n := policyStart_rd s n _
  obtain hlow | ⟨h6, hacked⟩ := h
  · exact .inl (hphase.trans_le hlow)
  · rw [policyStart_above (by omega)]
    exact .inr ⟨h6, hacked⟩

theorem advanceOnce_short (h : Short n s) : Short n (s.advanceOnce n) := by
  obtain heq | ⟨-, ⟨-, -, heq⟩ | ⟨-, heq | ⟨hacked, ⟨-, heq⟩ | ⟨-, heq⟩ | ⟨h6, -⟩⟩⟩⟩ := advanceOnce_cases s n
  · rwa [heq]
  · exact .inl (by rw [heq, enterC3_phase]; decide)
  · have hphase : (s.sendReady n).phase n = s.phase n := rd_sendReady s n _
    rw [heq, Short, hphase, co_sendReady, CoS.queued_readyAcked]
    exact h
  · exact .inl (by rw [heq, enterC5_phase])
  · rw [heq]
    exact enterC6_short s n
  · obtain hlow | ⟨-, hnot⟩ := h
    · omega
    · exact Bool.noConfusion (hnot.symm.trans hacked)

/-! ## Two runs that differ in the count -/

/-- The second state is the first with the count replaced, or both meet `L`. -/
def Tracks (L : State → Prop) (m : Fin 16) (c : Option Nat) (z z' : State) : Prop := z' = z.recounted m c ∨ L z ∧ L z'

/-- A change that keeps `L`, and that the count does not enter unless it leads to `L`. -/
theorem Tracks.step {L : State → Prop} {f : State → State} (hkeep : ∀ z, L z → L (f z))
    (hsame : ∀ z, f (z.recounted m c) = (f z).recounted m c ∨ L (f z) ∧ L (f (z.recounted m c))) {z z' : State}
    (h : Tracks L m c z z') : Tracks L m c (f z) (f z') := by
  obtain rfl | ⟨hz, hz'⟩ := h
  · exact hsame z
  · exact .inr ⟨hkeep z hz, hkeep z' hz'⟩

theorem Tracks.forAll {L : State → Prop} {α : Type} {f : α → State → State}
    (hstep : ∀ a z z', Tracks L m c z z' → Tracks L m c (f a z) (f a z')) (l : List α)
    {z z' : State} (h : Tracks L m c z z') : Tracks L m c (forAll l f z) (forAll l f z') := by
  induction l generalizing z z' with
  | nil => exact h
  | cons a l ih => exact ih (hstep a z z' h)

/-- A lane at C5 or below. -/
def Low (n : Fin 16) (z : State) : Prop := z.phase n ≤ 5

theorem agree_low (hfree : s.binding n = false) (p : Proposal) (own : Bool) : Low n (s.agree n p own) := by
  have htake (z : State) : Low n (z.agreeTake n p own) := by
    rw [Low, agreeTake_eq, enterC4_phase]
    decide
  have hcontra : Low n (s.contradict n p.num) := by
    obtain ⟨-, -, hc3⟩ := contradict_does s n p.num
    rw [Low, (hc3 hfree).1]
    decide
  unfold agree
  dsimp only
  split
  · exact htake s
  · split
    · exact htake _
    · exact hcontra

theorem bindDone_cases (s : State) (n : Fin 16) :
    (s.co n).bind = none ∧ s.bindDone n = s ∨ (s.co n).bind.isSome = true ∧ (s.bindDone n).phase n = 0 := by
  cases hbind : (s.co n).bind with
  | none => exact .inl ⟨rfl, bindDone_of_none hbind⟩
  | some reason => exact .inr ⟨rfl, by rw [bindDone_of_bind hbind, toC0_phase]⟩

theorem ackedMsg_low (msg : Msg) (h : Low n s) : Low n (s.ackedMsg n msg) := by
  unfold ackedMsg
  split
  · dsimp only
    split <;> exact h
  · split
    · split
      next hmade =>
        simp only [Bool.and_eq_true, decide_eq_true_eq, Bool.not_eq_true'] at hmade
        exact agree_low hmade.2 _ false
      · exact h
    · exact h
  · split <;> exact h
  · obtain ⟨-, heq⟩ | ⟨-, h0⟩ := bindDone_cases s n
    · rwa [heq]
    · exact h0.trans_le (by decide)
  · exact h

theorem ackedMsg_tracks (s : State) (n : Fin 16) (msg : Msg) : (s.recounted m c).ackedMsg n msg = (s.ackedMsg n msg).recounted m c ∨
    Low n (s.ackedMsg n msg) ∧ Low n ((s.recounted m c).ackedMsg n msg) := by
  by_cases hlow : Low n s
  · exact .inr ⟨ackedMsg_low msg hlow, ackedMsg_low msg ((phase_recounted s m c n).trans_le hlow)⟩
  have h3 : s.phase n ≠ 3 := fun h => hlow (h.trans_le (by decide))
  unfold ackedMsg
  split
  · exact .inl (by simp)
  · refine .inl ?_
    simp only [recounted_co, phase_recounted, h3]
    split <;> rfl
  · exact .inl (by simp)
  · obtain ⟨hnone, heq⟩ | ⟨hsome, h0⟩ := bindDone_cases s n
    · exact .inl (by rw [heq, bindDone_of_none (show ((s.recounted m c).co n).bind = none from hnone)])
    · obtain ⟨hnone, -⟩ | ⟨-, h0'⟩ := bindDone_cases (s.recounted m c) n
      · simp [show (s.co n).bind = none from hnone] at hsome
      · exact .inr ⟨h0.trans_le (by decide), h0'.trans_le (by decide)⟩
  · exact .inl rfl

end State

end Sys2Proof.Machine
end

section
/-!
SUPPORT. A TIME message is counted before it is judged: the count is the one difference that this makes to the state in which it is judged.
-/

namespace Sys2Proof.Machine

namespace State

variable {s : State} {n m : Fin 16} {c : Option Nat}

/-! ## The ACK and the PHASE of a packet, with two counts -/

theorem applyAck_tracks (s : State) (n : Fin 16) (a : Nat) : Tracks (Low n) m c (s.applyAck n a) ((s.recounted m c).applyAck n a) := by
  unfold applyAck
  dsimp only
  rw [recounted_co]
  split
  · exact .inl rfl
  · split
    · refine .inl ?_
      split
      · exact incSat_recounted s m c (by simp)
      · rfl
    · rw [modCo_recounted, coPump_recounted]
      exact .forAll (fun msg _ _ => .step (fun _ => ackedMsg_low msg) fun z => ackedMsg_tracks z n msg) _ (.inl rfl)

/-- The acquisition that the partner's PHASE asks for again (R208). -/
def reacquired (s : State) (n : Fin 16) (p : Nat) : State :=
  if s.phase n = 4 && (s.co n).needReacq && 4 ≤ p then
    (s.acqStart n !(s.lane n).warm).modCo n fun c => { c with needReacq := false } else s

theorem headTaken_eq (s : State) (n : Fin 16) (h : MsgHead) : s.headTaken n h =
    (((s.setCoFlag n 7 false).applyAck n h.ack.toNat).wr (K.LINE_CO_PEER_PHASE n) h.phase.toNat).reacquired n h.phase.toNat := rfl

theorem reacquired_phase (s : State) (n : Fin 16) (p : Nat) : (s.reacquired n p).phase n = s.phase n := by
  unfold reacquired
  split
  · rw [phase, modCo_rd]
    exact (acqStart_aside s n _).phase n
  · rfl

theorem wr_peerPhase_phase (s : State) (n : Fin 16) (p : Nat) : (s.wr (K.LINE_CO_PEER_PHASE n) p).phase n = s.phase n :=
  rd_wr_ne _ _ (by simp)

theorem reacquired_above (h : 5 < s.phase n) (p : Nat) : s.reacquired n p = s := if_neg (by simp; omega)

theorem headTaken_tracks (s : State) (n : Fin 16) (h : MsgHead) :
    Tracks (Low n) m c (s.headTaken n h) ((s.recounted m c).headTaken n h) := by
  rw [headTaken_eq, headTaken_eq, setCoFlag_recounted]
  refine .step (fun z hz => (reacquired_phase z n _).trans_le hz) (fun z => ?_) (.step (fun z hz => (wr_peerPhase_phase z n _).trans_le hz)
    (fun z => .inl (wr_recounted z m c _ (by simp))) (applyAck_tracks (s.setCoFlag n 7 false) n _))
  by_cases hlow : Low n z
  · exact .inr ⟨(reacquired_phase z n _).trans_le hlow, (reacquired_phase _ n _).trans_le ((phase_recounted z m c n).trans_le hlow)⟩
  · have habove : 5 < z.phase n := Nat.lt_of_not_le hlow
    exact .inl (by rw [reacquired_above habove, reacquired_above (habove.trans_eq (phase_recounted z m c n).symm)])

theorem Short.recounted (h : Short n s) : Short n (s.recounted m c) := by
  rw [Short, phase_recounted, recounted_co]
  exact h

theorem coAdvance_short (h : Short n s) : Short n (s.coAdvance n) :=
  coAdvance_induct (fun _ => policyStart_short) (fun _ => advanceOnce_short) h

/-- A step of progress with two counts: the same above C5, and short of C7 below. -/
theorem Tracks.progress {f : State → State} (hshort : ∀ z, Short n z → Short n (f z))
    (habove : ∀ z, 5 < z.phase n → f (z.recounted m c) = (f z).recounted m c) {z z' : State} (h : Tracks (Short n) m c z z') :
    Tracks (Short n) m c (f z) (f z') :=
  h.step hshort fun z => by
    by_cases hlow : z.phase n ≤ 5
    · exact .inr ⟨hshort z (.inl hlow), hshort _ (Short.recounted (.inl hlow))⟩
    · exact .inl (habove z (Nat.lt_of_not_le hlow))

theorem policyStart_recounted (h : 5 < s.phase n) : (s.recounted m c).policyStart n = (s.policyStart n).recounted m c := by
  rw [policyStart_above h]
  exact policyStart_above (h.trans_eq (phase_recounted s m c n).symm)

theorem policyStart_tracks {z z' : State} (h : Tracks (Short n) m c z z') : Tracks (Short n) m c (z.policyStart n) (z'.policyStart n) :=
  h.progress (f := fun z => z.policyStart n) (fun _ => policyStart_short) fun _ => policyStart_recounted

theorem advanceOnce_tracks {z z' : State} (h : Tracks (Short n) m c z z') : Tracks (Short n) m c (z.advanceOnce n) (z'.advanceOnce n) :=
  h.progress (f := fun z => z.advanceOnce n) (fun _ => advanceOnce_short) fun _ => advanceOnce_recounted

theorem coAdvance_tracks {z z' : State} (h : Tracks (Short n) m c z z') : Tracks (Short n) m c (z.coAdvance n) (z'.coAdvance n) :=
  have hfirst := advanceOnce_tracks (policyStart_tracks h)
  have hsecond := advanceOnce_tracks (advanceOnce_tracks (policyStart_tracks hfirst))
  advanceOnce_tracks (advanceOnce_tracks hsecond)

/-- The state that a packet of the conversation under way leads to, before its type counts. -/
theorem headed_tracks (s : State) (n : Fin 16) (h : MsgHead) :
    Tracks (Short n) m c ((s.headTaken n h).coAdvance n) (((s.recounted m c).headTaken n h).coAdvance n) :=
  coAdvance_tracks ((headTaken_tracks s n h).imp_right fun hlow => ⟨.inl hlow.1, .inl hlow.2⟩)

/-! ## A TIME message whose type counts -/

/-- The head of a packet of the conversation under way. -/
theorem recvHead_under {h : MsgHead} (h2 : 2 ≤ s.phase n) (hses : h.session.toNat ≠ 0)
    (hpeer : h.session.toNat = s.rd (K.LINE_CO_PEER_SESSION n)) (hphase : h.phase.toNat ≤ 7)
    (hleft : ((s.setCoFlag n 7 false).applyAck n h.ack.toNat).phase n ≠ 0) :
    (s.recvHead n h).2.2 = true := by
  have hnew : (!(s.phase n == 1) && s.rd (K.LINE_CO_PEER_SESSION n) != 0 &&
      h.session.toNat != s.rd (K.LINE_CO_PEER_SESSION n)) = false := by
    simp [hpeer]
  have hfresh : (s.phase n == 1) = false := by simp; omega
  have hpeer0 : ¬ s.rd (K.LINE_CO_PEER_SESSION n) = 0 := hpeer ▸ hses
  unfold recvHead
  dsimp only
  rw [if_neg (by omega), hnew, hfresh, if_neg (by simp [hses, hphase]), if_neg (by simp; omega), if_neg Bool.false_ne_true,
    if_neg Bool.false_ne_true, if_neg hpeer0, if_neg hleft]

theorem recvHead_phase {h : MsgHead} (htype : (s.recvHead n h).2.2 = true) : h.phase.toNat ≤ 7 := by
  by_contra hbad
  by_cases h0 : s.phase n = 0
  · rw [recvHead_deaf h0] at htype
    exact Bool.noConfusion htype
  · rw [recvHead_malformed h0 (.inr (by omega))] at htype
    exact Bool.noConfusion htype

/-- A TIME message of the conversation under way counts in C7. -/
theorem heard_time {h : MsgHead} : s.heard n 0x41 h = true ↔ 2 ≤ s.phase n ∧ h.session.toNat ≠ 0 ∧
    h.session.toNat = s.rd (K.LINE_CO_PEER_SESSION n) ∧ h.phase.toNat ≤ 7 ∧ ((s.headTaken n h).coAdvance n).phase n = 7 := by
  constructor
  · intro hheard
    obtain ⟨-, -, -, hjudged⟩ := heard_iff hheard
    obtain ⟨hlo, hhi⟩ := heard_phase (lo := 7) (hi := 7) rfl hheard
    simp only [heard, Bool.and_eq_true, decide_eq_true_eq, bne_iff_ne, beq_iff_eq] at hheard
    obtain ⟨⟨⟨⟨⟨h2, hses⟩, hpeer⟩, htype⟩, -⟩, -⟩ := hheard
    exact ⟨h2, hses, hpeer, recvHead_phase htype, hjudged ▸ Nat.le_antisymm hhi hlo⟩
  · intro ⟨h2, hses, hpeer, hphase, h7⟩
    have hleft : ((s.setCoFlag n 7 false).applyAck n h.ack.toNat).phase n ≠ 0 := fun h0 => by
      have hlow : (s.headTaken n h).phase n ≤ 5 := by
        rw [headTaken_eq, reacquired_phase, wr_peerPhase_phase, h0]
        decide
      obtain hshort | ⟨hshort, -⟩ := coAdvance_short (.inl hlow)
      · omega
      · omega
    have htype := recvHead_under h2 hses hpeer hphase hleft
    have hjudged : s.judged n h = (s.headTaken n h).coAdvance n := by rw [judged, recvHead_same h2 hses hpeer htype]
    have hvalid : judge 0x41 ((s.judged n h).phase n) = .valid := by rw [hjudged, h7]; decide
    have hplain : sequenced 0x41 = false := by decide
    simp [heard, h2, hses, ← hpeer, htype, hvalid, hplain]

theorem headed_recounted {h : MsgHead} (h7 : ((s.headTaken n h).coAdvance n).phase n = 7) :
    ((s.recounted m c).headTaken n h).coAdvance n = ((s.headTaken n h).coAdvance n).recounted m c := by
  obtain heq | ⟨hshort | ⟨h6, -⟩, -⟩ := headed_tracks (m := m) (c := c) s n h
  · exact heq
  · omega
  · omega

theorem heard_recounted {h : MsgHead} : (s.recounted m c).heard n 0x41 h = true ↔ s.heard n 0x41 h = true := by
  have h7 : (((s.recounted m c).headTaken n h).coAdvance n).phase n = 7 ↔ ((s.headTaken n h).coAdvance n).phase n = 7 := by
    obtain heq | ⟨hshort, hshort'⟩ := headed_tracks (m := m) (c := c) s n h
    · rw [heq, phase_recounted]
    · unfold Short at hshort hshort'
      omega
  rw [heard_time, heard_time, phase_recounted, rd_recounted _ _ _ (by simp), h7]

theorem judged_recounted {h : MsgHead} (hheard : s.heard n 0x41 h = true) :
    (s.recounted m c).judged n h = (s.judged n h).recounted m c := by
  obtain ⟨-, -, -, hjudged⟩ := heard_iff hheard
  obtain ⟨-, -, -, hjudged'⟩ := heard_iff (heard_recounted.mpr hheard : (s.recounted m c).heard n 0x41 h = true)
  rw [hjudged', hjudged]
  obtain ⟨-, -, -, -, h7⟩ := heard_time.mp hheard
  exact headed_recounted h7

/-- Until it is handled a TIME message changes no count of TIME messages. -/
theorem judged_count {h : MsgHead} (hheard : s.heard n 0x41 h = true) :
    (s.judged n h).rd (K.TIME_RX m) = s.rd (K.TIME_RX m) := by
  have hsame : (s.judged n h).recounted m (some (s.rd (K.TIME_RX m))) = (s.judged n h).recounted m none := by
    rw [← judged_recounted hheard, ← judged_recounted hheard, recounted_self]
  rw [← rd_recounted_none (s.judged n h) m, ← hsame, rd_recounted_some]

theorem eq_of_recounted {v v' : State} (h : v'.recounted m c = v.recounted m c) : v' = { v with store := v'.store } :=
  congrArg (fun z : State => { z with store := v'.store }) h

/-- One TIME message more of lane `n` is counted, and nothing else differs. -/
structure Counted (n : Fin 16) (v v' : State) : Prop where
  rest : v' = { v with store := v'.store }
  rd : ∀ x, x ≠ K.TIME_RX n → v'.rd x = v.rd x
  count : CountsUp v v' (K.TIME_RX n) 1

/-- A message counted is a message judged as it would have been. -/
theorem judged_counted {h : MsgHead} (hheard : s.heard n 0x41 h = true) : (s.incSat (K.TIME_RX n)).heard n 0x41 h = true ∧
    Counted n (s.judged n h) ((s.incSat (K.TIME_RX n)).judged n h) := by
  have hsame := recounted_incSat s n 0
  have hheard' : (s.incSat (K.TIME_RX n)).heard n 0x41 h = true :=
    heard_recounted.mp (hsame ▸ heard_recounted.mpr hheard : ((s.incSat (K.TIME_RX n)).recounted n (some 0)).heard n 0x41 h = true)
  have hboth : ((s.incSat (K.TIME_RX n)).judged n h).recounted n (some 0) = (s.judged n h).recounted n (some 0) := by
    rw [← judged_recounted hheard', hsame, judged_recounted hheard]
  refine ⟨hheard', ?_, fun x hx => ?_, ?_⟩
  · exact eq_of_recounted hboth
  · rw [← rd_recounted _ n (some 0) hx, hboth, rd_recounted _ _ _ hx]
  · rw [CountsUp, judged_count hheard, judged_count hheard']
    exact countsUp_incSat s _

end State

end Sys2Proof.Machine
end

section
/-!
PROOF. Statement O31: a TIME message that counts (R288 to R292). Its arrival is kept for the answer; what it says then gives a fault, the
first that applies, or a result.
-/

namespace Sys2Proof.Machine

namespace State

variable {s v v' : State} {n : Fin 16}

theorem xfer_modXfer (s : State) (n : Fin 16) (f : XferS → XferS) : (s.modXfer n f).xfer n = f (s.xfer n) := by
  rw [xfer, modXfer, lane_modLane, xfer]

/-! ## Faults and results (R290 to R292) -/

/-- The count of each fault. -/
def faultKeys (n : Fin 16) : List Key :=
  [K.TIME_INVALID_FLAG n, K.TIME_NO_DEPARTURE n, K.TIME_NO_ARRIVAL n, K.TIME_GEN_MISMATCH n, K.TIME_IMPLAUSIBLE n]

theorem xferFault_does (s : State) (n : Fin 16) {k : Key} (hk : k ∈ faultKeys n) : CountsUp s (s.xferFault n k) k 1 ∧
    (s.xferFault n k).rd (K.TIME_RX n) = s.rd (K.TIME_RX n) ∧ Raised (s.xferFault n k) Src.LINE_TIME_FAULT := by
  have harea : k.area ≠ none ∧ k ≠ K.DET_LINE_TIME_FAULT ∧ K.TIME_RX n ≠ k := by
    simp only [faultKeys, List.mem_cons, List.not_mem_nil, or_false] at hk
    obtain rfl | rfl | rfl | rfl | rfl := hk <;> simp
  obtain ⟨harea, hdet, hrx⟩ := harea
  refine ⟨?_, ?_, raised_raiseIn _ _ _ (by decide)⟩
  · rw [CountsUp, xferFault, rd_raiseIn _ _ _ _ harea, if_neg hdet]
    exact countsUp_incSat s k
  · rw [xferFault, rd_raiseIn _ _ _ _ (by simp), if_neg (by simp), rd_incSat, if_neg hrx]

/-- The entries of a valid result (R292). -/
def resultShown (s : State) (n : Fin 16) (t1 t2 t3 t4 : Nat) (o : XferOut) (flags : Nat) : State :=
  ((((((((s.wrI (K.TIME_LINE_OFFSET_FS n) o.theta).wr (K.TIME_LINE_DELAY_FS n) o.mean.toNat).wr (K.TIME_LINE_REF n) (time96 o.ref)).wrI
    (K.TIME_LINE_RATE n) (clampI (-2147483648) 2147483647 o.y)).wr (K.TIME_LINE_FLAGS n) flags).incWrap (K.TIME_LINE_SEQ n)).wr
    (K.TIME_LINE_STAMPS n) (beNat (be 12 (time96 t1) ++ be 12 (time96 t2) ++ be 12 (time96 t3) ++ be 12 (time96 t4)))).incSat
    (K.TIME_RESULTS n)).modXfer n fun x => { x with fit := ((o.ref, o.theta) :: x.fit).take 7, got := true, miss := 0 }

/-- What the entries of a result read. -/
theorem rd_resultShown (s : State) (n : Fin 16) (t1 t2 t3 t4 : Nat) (o : XferOut) (flags : Nat) :
    (s.resultShown n t1 t2 t3 t4 o flags).rd (K.TIME_LINE_OFFSET_FS n) = zx 64 o.theta % 2 ^ 64 ∧
    (s.resultShown n t1 t2 t3 t4 o flags).rd (K.TIME_LINE_DELAY_FS n) = o.mean.toNat % 2 ^ 64 ∧
    (s.resultShown n t1 t2 t3 t4 o flags).rd (K.TIME_LINE_FLAGS n) = flags % 2 ^ 8 ∧
    CountsUp s (s.resultShown n t1 t2 t3 t4 o flags) (K.TIME_RESULTS n) 1 ∧
    (s.resultShown n t1 t2 t3 t4 o flags).rd (K.TIME_LINE_SEQ n) = (s.rd (K.TIME_LINE_SEQ n) + 1) % 2 ^ 32 ∧
    (s.resultShown n t1 t2 t3 t4 o flags).rd (K.TIME_RX n) = s.rd (K.TIME_RX n) := by
  have hxfer (z : State) (f : XferS → XferS) (k : Key) : (z.modXfer n f).rd k = z.rd k := rfl
  have h64 : bitsOf (K.TIME_LINE_OFFSET_FS n) = 64 ∧ bitsOf (K.TIME_LINE_DELAY_FS n) = 64 := ⟨rfl, rfl⟩
  have h8 : bitsOf (K.TIME_LINE_FLAGS n) = 8 ∧ bitsOf (K.TIME_LINE_SEQ n) = 32 := ⟨rfl, rfl⟩
  simp [resultShown, CountsUp, hxfer, rd_incSat, rd_incWrap, rd_wr, rd_wrI, h64, h8]

theorem xferResult_steers (s : State) (n : Fin 16) (t1 t2 t3 t4 : Nat) (o : XferOut) (flags : Nat) :
    Steers servoKeys ((s.resultShown n t1 t2 t3 t4 o flags).raiseIn Src.LINE_TIME_RESULT K.DET_LINE_TIME_RESULT n.val)
      (s.xferResult n t1 t2 t3 t4 o flags) := by
  unfold xferResult
  dsimp only
  split
  · exact servoMeasure_steers _ _ _
  · exact .refl _ _

/-- The servo writes none of the line's own entries. -/
theorem rd_xferResult (s : State) (n : Fin 16) (t1 t2 t3 t4 : Nat) (o : XferOut) (flags off sub : Nat) :
    (s.xferResult n t1 t2 t3 t4 o flags).rd ⟨.line n, off, sub⟩ = (s.resultShown n t1 t2 t3 t4 o flags).rd ⟨.line n, off, sub⟩ := by
  rw [(xferResult_steers s n t1 t2 t3 t4 o flags).rd (by simp) (by simp [servoKeys]), rd_raiseIn _ _ _ _ (by simp), if_neg (by simp)]

theorem raised_xferResult (s : State) (n : Fin 16) (t1 t2 t3 t4 : Nat) (o : XferOut) (flags : Nat) :
    Raised (s.xferResult n t1 t2 t3 t4 o flags) Src.LINE_TIME_RESULT :=
  (xferResult_steers s n t1 t2 t3 t4 o flags).raised _ (by decide) (raised_raiseIn _ _ _ (by decide))

/-! ## What a message gives (R291) -/

/-- The arrival of a message's own row. -/
def arrivedAt (s : State) (n : Fin 16) (back : Nat) : Option ArrStamp :=
  (s.xfer n).arr.find? fun a => a.row == (s.rd (K.LINE_ROW_RX n) + 2 ^ 32 - back) % 2 ^ 32

/-- The row's arrival is kept for the answer (R289). -/
def echoed (s : State) (n : Fin 16) (m : TimeMsg) (back : Nat) : State :=
  match s.arrivedAt n back with
  | some a => s.modXfer n fun x => { x with echo := some ⟨m.txRow.toNat, true, a.gen, a.coarse, a.frac⟩ }
  | none => s.modXfer n fun x => { x with echo := some ⟨m.txRow.toNat, false, 0, 0, 0⟩ }

theorem echoed_same (s : State) (n : Fin 16) (m : TimeMsg) (back : Nat) :
    (∀ k, (s.echoed n m back).rd k = s.rd k) ∧ ((s.echoed n m back).xfer n).fit = (s.xfer n).fit := by
  unfold echoed
  split <;> exact ⟨fun _ => rfl, by rw [xfer_modXfer]⟩

/-- Offset and delay are of the stamps, the points before and the entries alone. -/
theorem xferCompute_congr {z : State} (hrd : ∀ k, k ≠ K.TIME_RX n → z.rd k = s.rd k) (hfit : (z.xfer n).fit = (s.xfer n).fit)
    (t1 t2 t3 t4 : Nat) (r : Int) : z.xferCompute n t1 t2 t3 t4 r = s.xferCompute n t1 t2 t3 t4 r := by
  have hasym : z.rdI (K.TIME_LINE_ASYM n) = s.rdI (K.TIME_LINE_ASYM n) := by rw [rdI, hrd _ (by simp), rdI]
  have hfreq : z.rdI (K.LINE_CDR_FREQ n) = s.rdI (K.LINE_CDR_FREQ n) := by rw [rdI, hrd _ (by simp), rdI]
  simp only [xferCompute, hasym, hfreq, hfit]

/-- The flags of a valid result: far holdover, drift of the local oscillator alone, a rate that changed, a lane held (Table 10-6). -/
def resultFlags (far coarse rates held : Bool) : Nat :=
  1 + (if far then 4 else 0) + (if coarse then 8 else 0) + (if rates then 16 else 0) + (if held then 32 else 0)

theorem resultFlags_valid (far coarse rates held : Bool) : resultFlags far coarse rates held % 2 = 1 := by
  revert far coarse rates held
  decide

section Handled

variable {m : TimeMsg} {back : Nat} (hruns : s.xferRuns n = true)
include hruns

/-- The far gearbox is locked and the echoed stamps are valid, or not. -/
theorem timeHandle_invalid (hbad : m.flags.toNat.testBit 2 = false ∨ m.flags.toNat.testBit 0 = false) :
    s.timeHandle n m back = (s.echoed n m back).xferFault n (K.TIME_INVALID_FLAG n) := by
  unfold timeHandle
  rw [if_neg (by simp [hruns])]
  dsimp only
  rw [if_pos (by simpa using hbad)]
  rfl

variable (h2 : m.flags.toNat.testBit 2 = true) (h0 : m.flags.toNat.testBit 0 = true)
include h2 h0

theorem timeHandle_noDeparture (hdep : ((s.xfer n).dep.find? fun d => d.row == m.echoRow.toNat) = none) :
    s.timeHandle n m back = (s.echoed n m back).xferFault n (K.TIME_NO_DEPARTURE n) := by
  unfold timeHandle
  rw [if_neg (by simp [hruns])]
  dsimp only
  rw [if_neg (by simp [h2, h0]), hdep]
  rfl

variable {d : DepStamp} (hdep : ((s.xfer n).dep.find? fun d => d.row == m.echoRow.toNat) = some d)
include hdep

theorem timeHandle_noArrival (harr : s.arrivedAt n back = none) :
    s.timeHandle n m back = (s.echoed n m back).xferFault n (K.TIME_NO_ARRIVAL n) := by
  have hecho : s.echoed n m back = s.modXfer n fun x => { x with echo := some ⟨m.txRow.toNat, false, 0, 0, 0⟩ } := by rw [echoed, harr]
  unfold arrivedAt at harr
  unfold timeHandle
  rw [if_neg (by simp [hruns])]
  dsimp only
  rw [if_neg (by simp [h2, h0]), hdep, harr, hecho]

variable {a : ArrStamp} (harr : s.arrivedAt n back = some a)
include harr

/-- The four stamps are at hand. -/
theorem timeHandle_stamped : s.timeHandle n m back =
    if d.gen != a.gen then (s.echoed n m back).xferFault n (K.TIME_GEN_MISMATCH n)
    else
      let o := (s.echoed n m back).xferCompute n d.stamp (arrivalOf (ofTime96 m.echoStamp.toNat) m.echoFrac.toNat)
        (ofTime96 m.txStamp.toNat) (arrivalOf a.coarse a.frac) a.rate
      if o.mean < (0 : Int) || (1000000000000 : Int) < o.mean then (s.echoed n m back).xferFault n (K.TIME_IMPLAUSIBLE n)
      else (s.echoed n m back).xferResult n d.stamp (arrivalOf (ofTime96 m.echoStamp.toNat) m.echoFrac.toNat)
        (ofTime96 m.txStamp.toNat) (arrivalOf a.coarse a.frac) o
        (resultFlags (m.flags.toNat.testBit 1) o.coarse (d.rateSeq != a.rateSeq) (d.held || a.held)) := by
  have hecho : s.echoed n m back = s.modXfer n fun x => { x with echo := some ⟨m.txRow.toNat, true, a.gen, a.coarse, a.frac⟩ } := by
    rw [echoed, harr]
  unfold arrivedAt at harr
  unfold timeHandle
  rw [if_neg (by simp [hruns])]
  dsimp only
  rw [if_neg (by simp [h2, h0]), hdep, harr, hecho]
  rfl

end Handled

end State

end Sys2Proof.Machine
end

section
/-!
PROOF. Statement O31: a TIME message from its count to its fault or result (R288 to R292).
-/

namespace Sys2Proof.Machine

namespace State

variable {s v v' : State} {n : Fin 16} {m : TimeMsg} {back : Nat}

/-- Handling a message changes no count of messages received. -/
theorem timeHandle_rx (s : State) (n : Fin 16) (m : TimeMsg) (back : Nat) :
    (s.timeHandle n m back).rd (K.TIME_RX n) = s.rd (K.TIME_RX n) := by
  have hecho : (s.echoed n m back).rd (K.TIME_RX n) = s.rd (K.TIME_RX n) := (echoed_same s n m back).1 _
  have hfault {k : Key} (hk : k ∈ faultKeys n) : ((s.echoed n m back).xferFault n k).rd (K.TIME_RX n) = s.rd (K.TIME_RX n) :=
    (xferFault_does _ n hk).2.1.trans hecho
  cases hruns : s.xferRuns n with
  | false => rw [timeHandle, if_pos (by simp [hruns])]
  | true =>
    by_cases hbad : m.flags.toNat.testBit 2 = false ∨ m.flags.toNat.testBit 0 = false
    · rw [timeHandle_invalid hruns hbad]
      exact hfault (by simp [faultKeys])
    obtain ⟨h2, h0⟩ : m.flags.toNat.testBit 2 = true ∧ m.flags.toNat.testBit 0 = true := by simpa using hbad
    cases hdep : (s.xfer n).dep.find? fun d => d.row == m.echoRow.toNat with
    | none =>
      rw [timeHandle_noDeparture hruns h2 h0 hdep]
      exact hfault (by simp [faultKeys])
    | some d =>
      cases harr : s.arrivedAt n back with
      | none =>
        rw [timeHandle_noArrival hruns h2 h0 hdep harr]
        exact hfault (by simp [faultKeys])
      | some a =>
        rw [timeHandle_stamped hruns h2 h0 hdep harr]
        split
        · exact hfault (by simp [faultKeys])
        · dsimp only
          split
          · exact hfault (by simp [faultKeys])
          · obtain ⟨-, -, -, -, -, hrx⟩ := rd_resultShown (s.echoed n m back) n _ _ _ _ _ _
            exact (rd_xferResult _ n _ _ _ _ _ _ _ _).trans (hrx.trans hecho)

namespace Counted

variable (h : Counted n v v')
include h

theorem xfer_eq : v'.xfer n = v.xfer n := by rw [h.rest]; rfl

theorem xferRuns_eq : v'.xferRuns n = v.xferRuns n := by
  have hphase : v'.phase n = v.phase n := h.rd _ (by simp)
  have hflag : v'.coFlag n 3 = v.coFlag n 3 := bit_of_rd (h.rd _ (by simp)) 3
  simp only [xferRuns, hphase, hflag, h.xfer_eq]

theorem arrivedAt_eq : v'.arrivedAt n back = v.arrivedAt n back := by
  rw [arrivedAt, arrivedAt, h.xfer_eq, h.rd _ (by simp)]

theorem echoed_rd {k : Key} (hk : k ≠ K.TIME_RX n) : (v'.echoed n m back).rd k = v.rd k := ((echoed_same v' n m back).1 k).trans (h.rd k hk)

/-- A fault of the message counted is one of the lane as it was judged. -/
theorem fault {k : Key} (hk : k ∈ faultKeys n) {u : State} (heq : u = (v'.echoed n m back).xferFault n k) :
    CountsUp v u k 1 ∧ Raised u Src.LINE_TIME_FAULT := by
  have hne : k ≠ K.TIME_RX n := by
    simp only [faultKeys, List.mem_cons, List.not_mem_nil, or_false] at hk
    obtain rfl | rfl | rfl | rfl | rfl := hk <;> simp
  obtain ⟨hcount, -, hraised⟩ := xferFault_does (v'.echoed n m back) n hk
  rw [heq]
  exact ⟨by rw [CountsUp, hcount, h.echoed_rd hne], hraised⟩

/-- A result (R290 to R292). -/
theorem result (t1 t2 t3 t4 : Nat) {o : XferOut} {flags : Nat} (hflags : flags % 2 = 1) (h0 : 0 ≤ o.mean) (hmax : o.mean ≤ 1000000000000)
    {u : State} (heq : u = (v'.echoed n m back).xferResult n t1 t2 t3 t4 o flags) :
    u.rd (K.TIME_LINE_OFFSET_FS n) = zx 64 o.theta ∧ (u.rd (K.TIME_LINE_DELAY_FS n) : Int) = o.mean ∧
    u.bit (K.TIME_LINE_FLAGS n) 0 = true ∧ CountsUp v u (K.TIME_RESULTS n) 1 ∧
    u.rd (K.TIME_LINE_SEQ n) = (v.rd (K.TIME_LINE_SEQ n) + 1) % 2 ^ 32 ∧ Raised u Src.LINE_TIME_RESULT := by
  obtain ⟨hoffset, hdelay, hshown, hresults, hseq, -⟩ := rd_resultShown (v'.echoed n m back) n t1 t2 t3 t4 o flags
  have hzx : zx 64 o.theta % 2 ^ 64 = zx 64 o.theta := by
    rw [zx]
    omega
  rw [heq]
  refine ⟨?_, ?_, ?_, ?_, ?_, raised_xferResult _ n _ _ _ _ _ _⟩
  · rw [rd_xferResult, hoffset, hzx]
  · rw [rd_xferResult, hdelay]
    omega
  · rw [bit, rd_xferResult, hshown, Nat.testBit_zero]
    simp only [decide_eq_true_eq]
    omega
  · rw [CountsUp, rd_xferResult, hresults, h.echoed_rd (by simp)]
  · rw [rd_xferResult, hseq, h.echoed_rd (by simp)]

theorem xferCompute_eq (t1 t2 t3 t4 : Nat) (r : Int) :
    (v'.echoed n m back).xferCompute n t1 t2 t3 t4 r = v.xferCompute n t1 t2 t3 t4 r :=
  xferCompute_congr (fun _ hk => h.echoed_rd hk) (((echoed_same v' n m back).2).trans (congrArg XferS.fit h.xfer_eq)) t1 t2 t3 t4 r

/-! ### What the handling of the message counted gives, of the lane as it was judged -/

theorem received : CountsUp v (v'.timeHandle n m back) (K.TIME_RX n) 1 := (timeHandle_rx v' n m back).trans h.count

variable (hruns : v.xferRuns n = true)
include hruns

theorem invalid (hbad : m.flags.toNat.testBit 2 = false ∨ m.flags.toNat.testBit 0 = false) :
    CountsUp v (v'.timeHandle n m back) (K.TIME_INVALID_FLAG n) 1 ∧ Raised (v'.timeHandle n m back) Src.LINE_TIME_FAULT :=
  h.fault (by simp [faultKeys]) (timeHandle_invalid (h.xferRuns_eq.trans hruns) hbad)

variable (h2 : m.flags.toNat.testBit 2 = true) (h0 : m.flags.toNat.testBit 0 = true)
include h2 h0

theorem noDeparture (hdep : ((v.xfer n).dep.find? fun d => d.row == m.echoRow.toNat) = none) :
    CountsUp v (v'.timeHandle n m back) (K.TIME_NO_DEPARTURE n) 1 ∧ Raised (v'.timeHandle n m back) Src.LINE_TIME_FAULT :=
  h.fault (by simp [faultKeys]) (timeHandle_noDeparture (h.xferRuns_eq.trans hruns) h2 h0 (h.xfer_eq ▸ hdep))

variable {d : DepStamp} (hdep : ((v.xfer n).dep.find? fun d => d.row == m.echoRow.toNat) = some d)
include hdep

theorem noArrival (harr : v.arrivedAt n back = none) :
    CountsUp v (v'.timeHandle n m back) (K.TIME_NO_ARRIVAL n) 1 ∧ Raised (v'.timeHandle n m back) Src.LINE_TIME_FAULT :=
  h.fault (by simp [faultKeys])
    (timeHandle_noArrival (h.xferRuns_eq.trans hruns) h2 h0 (h.xfer_eq ▸ hdep) (h.arrivedAt_eq.trans harr))

variable {a : ArrStamp} (harr : v.arrivedAt n back = some a)
include harr

theorem mismatch (hgen : d.gen ≠ a.gen) :
    CountsUp v (v'.timeHandle n m back) (K.TIME_GEN_MISMATCH n) 1 ∧ Raised (v'.timeHandle n m back) Src.LINE_TIME_FAULT :=
  h.fault (by simp [faultKeys])
    ((timeHandle_stamped (h.xferRuns_eq.trans hruns) h2 h0 (h.xfer_eq ▸ hdep) (h.arrivedAt_eq.trans harr)).trans
      (if_pos (by simpa using hgen)))

variable (hgen : d.gen = a.gen) {o : XferOut} (ho : o = v.xferCompute n d.stamp (arrivalOf (ofTime96 m.echoStamp.toNat) m.echoFrac.toNat)
  (ofTime96 m.txStamp.toNat) (arrivalOf a.coarse a.frac) a.rate)
include hgen ho

/-- Offset and delay of four stamps of one generation are those of the lane as it was judged. -/
theorem computed : v'.timeHandle n m back =
    if o.mean < (0 : Int) || (1000000000000 : Int) < o.mean then (v'.echoed n m back).xferFault n (K.TIME_IMPLAUSIBLE n)
    else (v'.echoed n m back).xferResult n d.stamp (arrivalOf (ofTime96 m.echoStamp.toNat) m.echoFrac.toNat)
      (ofTime96 m.txStamp.toNat) (arrivalOf a.coarse a.frac) o
      (resultFlags (m.flags.toNat.testBit 1) o.coarse (d.rateSeq != a.rateSeq) (d.held || a.held)) := by
  have hstamped := timeHandle_stamped (h.xferRuns_eq.trans hruns) h2 h0 (h.xfer_eq ▸ hdep) (h.arrivedAt_eq.trans harr)
  rw [hstamped, if_neg (by simp [hgen]), h.xferCompute_eq, ← ho]

theorem implausible (hfar : o.mean < 0 ∨ 1000000000000 < o.mean) :
    CountsUp v (v'.timeHandle n m back) (K.TIME_IMPLAUSIBLE n) 1 ∧ Raised (v'.timeHandle n m back) Src.LINE_TIME_FAULT :=
  h.fault (by simp [faultKeys]) ((h.computed hruns h2 h0 hdep harr hgen ho).trans (if_pos (by simpa using hfar)))

theorem plausible (hlow : 0 ≤ o.mean) (hhigh : o.mean ≤ 1000000000000) : v'.timeHandle n m back =
    (v'.echoed n m back).xferResult n d.stamp (arrivalOf (ofTime96 m.echoStamp.toNat) m.echoFrac.toNat)
      (ofTime96 m.txStamp.toNat) (arrivalOf a.coarse a.frac) o
      (resultFlags (m.flags.toNat.testBit 1) o.coarse (d.rateSeq != a.rateSeq) (d.held || a.held)) :=
  (h.computed hruns h2 h0 hdep harr hgen ho).trans (if_neg (by simp; omega))

end Counted

/-- The step of a TIME message that counts. -/
theorem exec_time_heard {h : MsgHead} {back : BitVec 8} (hheard : s.heard n 0x41 h = true) : ∃ v', Counted n (s.judged n h) v' ∧
    exec (.time n h m back) s = .next ((v'.timeHandle n m back.toNat).coSettle n) := by
  obtain ⟨hheard', hcounted⟩ := judged_counted hheard
  exact ⟨_, hcounted, congrArg Host.Outcome.next (recv_heard_plain (by decide) hheard' 0 _)⟩

end State

end Sys2Proof.Machine
end

section
/-!
PROOF. Statement O31: when a lane's TIME messages are due and withdrawn, and what the periods that pass without a measurement do (R287,
R295, R298).
-/

namespace Sys2Proof.Machine

namespace State

variable {s : State} {n : Fin 16}

/-! ## Records of a lane -/

theorem picot_modPicot (s : State) (n : Fin 16) (f : PicotS → PicotS) : (s.modPicot n f).picot n = f (s.picot n) := by
  rw [picot, modPicot, lane_modLane]
  rfl

theorem xfer_modPicot (s : State) (n : Fin 16) (f : PicotS → PicotS) : (s.modPicot n f).xfer n = s.xfer n := by
  rw [xfer, modPicot, lane_modLane]
  rfl

theorem picot_modXfer (s : State) (n : Fin 16) (f : XferS → XferS) : (s.modXfer n f).picot n = s.picot n := by
  rw [picot, modXfer, lane_modLane]
  rfl

theorem picot_modCo (s : State) (n : Fin 16) (f : CoS → CoS) : (s.modCo n f).picot n = s.picot n := by
  rw [picot, modCo, lane_modLane]
  rfl

theorem xfer_modCo (s : State) (n : Fin 16) (f : CoS → CoS) : (s.modCo n f).xfer n = s.xfer n := by
  rw [xfer, modCo, lane_modLane]
  rfl

/-! ## A TIME message that is due (R287) -/

theorem timeDue_idle (h : (s.xfer n).last = none ∨ s.xferRuns n = false ∨ (s.xfer n).rows < 16) : s.timeDue n = s := by
  unfold timeDue
  split
  · rfl
  next d hlast =>
    dsimp only
    refine if_pos ?_
    obtain hnone | hruns | hrows := h
    · simp [hnone] at hlast
    · simp [hruns]
    · simp [hrows]

/-- A row whose message is due. -/
theorem timeDue_of_row {d : DepStamp} (hlast : (s.xfer n).last = some d) (hruns : s.xferRuns n = true) (hrow : d.row % (s.xfer n).per = 0)
    (hrows : 16 ≤ (s.xfer n).rows) : s.timeDue n =
    if ((s.picot n).burst.map (·.typ)) = some 0x41 then s.incSat (K.TIME_SKIPPED n)
    else if (s.picot n).queue.length < 8 then (s.sendPlain n 0x41 (s.timeBody n d)).modXfer n fun x => { x with due := some d }
    else (s.sendPlain n 0x41 (s.timeBody n d)).incSat (K.TIME_SKIPPED n) := by
  unfold timeDue
  rw [hlast]
  exact if_neg (by simp [hruns, hrow, hrows])

/-- A TIME message joins a queue with a place free. -/
theorem sendTime_of_place (body : List Byte) (hroom : (s.picot n).queue.length < 8) :
    (∃ p, ((s.sendPlain n 0x41 body).picot n).queue = (s.picot n).queue ++ [p] ∧ p.typ = 0x41) ∧
    (s.sendPlain n 0x41 body).xfer n = s.xfer n ∧ ∀ x, (s.sendPlain n 0x41 body).rd x = s.rd x := by
  have hplain : sequenced 0x41 = false := by decide
  unfold sendPlain coOffer
  rw [picotOffer_of_place s n _ hplain hroom, picot_modCo, xfer_modCo, picot_modPicot, xfer_modPicot]
  exact ⟨⟨_, rfl, rfl⟩, rfl, fun _ => rfl⟩

/-- At a full queue it is dropped. -/
theorem sendTime_of_full (body : List Byte) (hfull : 8 ≤ (s.picot n).queue.length) {k : Key} (hk : k ≠ K.PICOT_TX_DROPPED n) :
    (s.sendPlain n 0x41 body).rd k = s.rd k := by
  have hplain : sequenced 0x41 = false := by decide
  unfold sendPlain coOffer picotOffer
  simp [hplain, Nat.not_lt.mpr hfull, rd_incSat, hk]

theorem timeDue_does {d : DepStamp} (hlast : (s.xfer n).last = some d) (hruns : s.xferRuns n = true) (hrow : d.row % (s.xfer n).per = 0)
    (hrows : 16 ≤ (s.xfer n).rows) :
    (((s.picot n).burst.map (·.typ)) = some 0x41 → CountsUp s (s.timeDue n) (K.TIME_SKIPPED n) 1 ∧ (s.timeDue n).lanes = s.lanes) ∧
    (((s.picot n).burst.map (·.typ)) ≠ some 0x41 → (s.picot n).queue.length < 8 →
      ((s.timeDue n).xfer n).due = some d ∧ ((s.timeDue n).xfer n).dep = (s.xfer n).dep ∧
      (∃ p, ((s.timeDue n).picot n).queue = (s.picot n).queue ++ [p] ∧ p.typ = 0x41) ∧ ∀ x, (s.timeDue n).rd x = s.rd x) ∧
    (((s.picot n).burst.map (·.typ)) ≠ some 0x41 → 8 ≤ (s.picot n).queue.length → CountsUp s (s.timeDue n) (K.TIME_SKIPPED n) 1) := by
  rw [timeDue_of_row hlast hruns hrow hrows]
  refine ⟨fun hburst => ?_, fun hburst hroom => ?_, fun hburst hfull => ?_⟩
  · rw [if_pos hburst]
    exact ⟨countsUp_incSat s _, rfl⟩
  · obtain ⟨hqueue, hxfer, hrd⟩ := sendTime_of_place (s.timeBody n d) hroom
    rw [if_neg hburst, if_pos hroom, xfer_modXfer, picot_modXfer, hxfer]
    exact ⟨rfl, rfl, hqueue, hrd⟩
  · rw [if_neg hburst, if_neg (Nat.not_lt.mpr hfull), CountsUp, ← sendTime_of_full (s.timeBody n d) hfull (by simp)]
    exact countsUp_incSat _ _

/-! ## A message withdrawn (R287) -/

theorem timeWithdraw_does (hdue : (s.xfer n).due ≠ none) :
    ((s.timeWithdraw n).xfer n).due = none ∧ ((s.timeWithdraw n).xfer n).dep = (s.xfer n).dep ∧
    CountsUp s (s.timeWithdraw n) (K.TIME_WITHDRAWN n) 1 ∧
    ((s.timeWithdraw n).picot n).queue.take ((s.picot n).queue.filter fun p => p.typ != 0x41).length =
      ((s.picot n).queue.filter fun p => p.typ != 0x41) ∧
    (∀ m, m ≠ n → (s.timeWithdraw n).lane m = s.lane m) ∧ Changes [K.TIME_WITHDRAWN n] s (s.timeWithdraw n) := by
  have hlane (z : State) (k : Key) (m : Fin 16) : (z.incSat k).lane m = z.lane m := rfl
  have hxfer (z : State) (k : Key) : (z.incSat k).xfer n = z.xfer n := rfl
  have hpicot (z : State) (k : Key) : (z.incSat k).picot n = z.picot n := rfl
  unfold timeWithdraw
  dsimp only
  rw [if_pos (Option.isSome_iff_ne_none.mpr hdue), hxfer, hpicot, xfer_modXfer, picot_modXfer, xfer_modPicot, picot_modPicot]
  refine ⟨rfl, rfl, countsUp_incSat _ _, List.take_left, fun m hm => ?_, ?_⟩
  · rw [hlane, modXfer, lane_modLane_ne _ _ hm, modPicot, lane_modLane_ne _ _ hm]
  · rw [changes_iff]
    exact fun k _ hk => (rd_incSat _ _ _).trans (if_neg (by simpa using hk))

/-! ## Periods without a measurement (R295, R298) -/

/-- A period of a lane in which no result came is one more missed. -/
def periodShown (s : State) (n : Fin 16) : State := s.modXfer n fun x => { x with got := false, miss := if x.got then 0 else x.miss + 1 }

theorem lanePeriod_eq (s : State) (n : Fin 16) : s.lanePeriod n =
    if (s.xfer n).got = false ∧ s.rd K.TIME_HOLDOVER_MISS ≤ (s.xfer n).miss + 1 then (s.periodShown n).wrBit (K.TIME_LINE_FLAGS n) 1 true
    else s.periodShown n := by
  cases hgot : (s.xfer n).got with
  | true => simp [lanePeriod, periodShown, hgot]
  | false => simp [lanePeriod, periodShown, hgot, xfer_modXfer]

theorem lanePeriod_does (s : State) (n : Fin 16) :
    ((s.lanePeriod n).xfer n).got = false ∧ ((s.lanePeriod n).xfer n).miss = (if (s.xfer n).got then 0 else (s.xfer n).miss + 1) ∧
    ((s.xfer n).got = false → s.rd K.TIME_HOLDOVER_MISS ≤ (s.xfer n).miss + 1 → (s.lanePeriod n).bit (K.TIME_LINE_FLAGS n) 1 = true) ∧
    ((s.xfer n).got = true → ∀ x, (s.lanePeriod n).rd x = s.rd x) ∧ (∀ m, m ≠ n → (s.lanePeriod n).lane m = s.lane m) ∧
    Changes [K.TIME_LINE_FLAGS n] s (s.lanePeriod n) := by
  have hlane : ∀ m, (s.lanePeriod n).lane m = (s.periodShown n).lane m := fun m => by
    rw [lanePeriod_eq]
    split <;> rfl
  have hxfer : (s.lanePeriod n).xfer n = (s.periodShown n).xfer n := congrArg LaneS.xfer (hlane n)
  rw [hxfer, periodShown, xfer_modXfer]
  refine ⟨rfl, rfl, fun hgot hmiss => ?_, fun hgot x => ?_, fun m hm => ?_, ?_⟩
  · have hbits : bitsOf (K.TIME_LINE_FLAGS n) = 8 := rfl
    rw [lanePeriod_eq, if_pos ⟨hgot, hmiss⟩, bit_wrBit, if_pos rfl, hbits]
    rfl
  · rw [lanePeriod_eq, if_neg fun hno => Bool.noConfusion (hgot.symm.trans hno.1)]
    rfl
  · rw [hlane, periodShown, modXfer, lane_modLane_ne _ _ hm]
  · rw [lanePeriod_eq]
    split
    · exact changes_wr (s.periodShown n) _ _
    · exact fun _ _ => rfl

/-- Holdover entered shows in the status (R295). -/
theorem holdoverEnter_shown (s : State) : s.holdoverEnter.bit K.TIME_STATUS 3 = true := by
  unfold holdoverEnter
  dsimp only
  split
  next hheld => exact hheld
  · rw [bit_raise_timeStatus, bit_wrBit_timeStatus _ _ _ (by decide), if_pos rfl]

theorem timeMiss_holds (hsrc : s.timeSrc ≠ 0) (hmiss : s.rd K.TIME_HOLDOVER_MISS ≤ s.time.missed + 1) :
    s.timeMiss.bit K.TIME_STATUS 3 = true := by
  unfold timeMiss
  dsimp only
  rw [if_pos (by simp [hsrc, time_modTime, hmiss])]
  exact holdoverEnter_shown _

theorem periodMiss_source_followed (hsrc : s.timeSrc ≠ 2) (hfollowed : s.time.followed = true) :
    s.periodMiss .source = s.modTime fun t => { t with followed := false } := (if_neg hsrc).trans (if_pos hfollowed)

theorem periodMiss_source_missed (hsrc : s.timeSrc ≠ 2) (hfollowed : s.time.followed = false) : s.periodMiss .source = s.timeMiss :=
  (if_neg hsrc).trans (if_neg (by simp [hfollowed]))

theorem periodMiss_beacon_seen (hen : s.on K.TIME_RING_BEACON_EN = false) (hsrc : s.timeSrc ≠ 2) (hseen : s.time.beaconSeen = true) :
    s.periodMiss .beacon = s.modTime fun t => { t with beaconSeen := false } := by
  simp [periodMiss, hen, hsrc, hseen]

end State

end Sys2Proof.Machine
end

section
/-!
PROOF. Statement O31: time transfer over a line lane (R287 to R292, R295, R298).
-/

namespace Sys2Proof.Machine

section Commands

variable {s : State} {r : Fin 18} {n : Fin 16}

/-- With no time transfer the message is counted and no more. -/
theorem time_stands {h : MsgHead} {m : TimeMsg} {back : BitVec 8} (hheard : s.heard n 0x41 h = true)
    (hruns : (s.judged n h).xferRuns n = false) :
    Runs (.time n h m back) s fun t => ∃ u, t = State.coSettle u n ∧ ∀ v, v = s.judged n h →
      CountsUp v u (K.TIME_RX n) 1 ∧ u.xfer n = v.xfer n ∧ Changes [K.TIME_RX n] v u := by
  obtain ⟨v', hcounted, hexec⟩ := State.exec_time_heard (m := m) (back := back) hheard
  have hstands : v'.timeHandle n m back.toNat = v' := by rw [State.timeHandle, if_pos (by simp [hcounted.xferRuns_eq, hruns])]
  refine ⟨_, hexec, _, rfl, ?_⟩
  rintro _ rfl
  rw [hstands, changes_iff]
  exact ⟨hcounted.count, hcounted.xfer_eq, fun k _ hk => hcounted.rd k (by simpa using hk)⟩

theorem timeClear_does (h : s.accepts r (K.TIME_CLEAR n) (be 1 1) = true) : Runs (.timeClear r n 1) s fun t =>
    (∀ i, 1 ≤ i → i ≤ 10 → t.rd ⟨.line n, 0x3F, i⟩ = resetOf ⟨.line n, 0x3F, i⟩) ∧ t.lanes = s.lanes ∧
    Changes ((List.range 10).map fun i => ⟨.line n, 0x3F, i + 1⟩) s t := by
  obtain ⟨t, hexec, hreset, hkept⟩ := runs_clear (exec_timeClear s r n 1) h
  refine ⟨t, hexec, fun i h1 h10 => hreset _ ?_, hkept⟩
  exact List.mem_map.mpr ⟨i - 1, List.mem_range.mpr (by omega), by rw [Nat.sub_add_cancel h1]⟩

end Commands

/-- Settles O31: a message is judged as if it had not been counted, so its faults and its result are those of the lane as it was judged; a
period that passes is one change of a record and at most one flag. -/
theorem timeTransfer : Obligations.TimeTransfer := by
  unfold Obligations.TimeTransfer
  refine ⟨fun s n h m back hheard hruns row hrow => ?_,
    fun s n h m back => time_stands,
    fun s n d hlast hruns hrow hrows => ⟨_, exec_timeMessageDue s n, State.timeDue_does hlast hruns hrow hrows⟩,
    fun s n hidle => ⟨_, exec_timeMessageDue s n, State.timeDue_idle hidle⟩,
    fun s n hdue => ⟨_, exec_timeWithdrawn s n, State.timeWithdraw_does hdue⟩,
    fun s n hnone => ⟨_, exec_timeWithdrawn s n, ?_⟩,
    fun s n => ⟨_, exec_timeMeasurementMiss s (.lane n), State.lanePeriod_does s n⟩,
    fun s hsrc hfollowed => ⟨_, exec_timeMeasurementMiss s .source, ?_⟩,
    fun s hsrc hfollowed hmiss => ⟨_, exec_timeMeasurementMiss s .source, ?_⟩,
    fun s hen hsrc hseen => ⟨_, exec_timeMeasurementMiss s .beacon, ?_⟩,
    fun s r n => timeClear_does⟩
  · obtain ⟨v', hcounted, hexec⟩ := State.exec_time_heard (m := m) (back := back) hheard
    refine ⟨_, hexec, _, rfl, ?_⟩
    rintro _ rfl
    subst hrow
    refine ⟨hcounted.received, hcounted.invalid hruns, hcounted.noDeparture hruns, fun h2 h0 d hdep =>
      ⟨hcounted.noArrival hruns h2 h0 hdep, fun a => hcounted.mismatch hruns h2 h0 hdep, fun a harr hgen o ho =>
        ⟨hcounted.implausible hruns h2 h0 hdep harr hgen ho, fun hlow hhigh => ?_⟩⟩⟩
    have hresult := hcounted.plausible hruns h2 h0 hdep harr hgen ho hlow hhigh
    exact hcounted.result _ _ _ _ (State.resultFlags_valid _ _ _ _) hlow hhigh hresult
  · rw [State.timeWithdraw, hnone]
    rfl
  · rw [State.periodMiss_source_followed hsrc hfollowed]
    exact ⟨rfl, rfl, fun _ => rfl⟩
  · rw [State.periodMiss_source_missed (by omega) hfollowed]
    exact State.timeMiss_holds (by omega) hmiss
  · rw [State.periodMiss_beacon_seen hen hsrc hseen]
    exact ⟨rfl, fun _ => rfl⟩

end Sys2Proof.Machine
end

section
/-!
SUPPORT. Changes of the control engine (R304): which of its entries and which records of its filter chains, loops and aux pins a change
may move. The parts of a pass are such changes, each of its own unit.
-/

namespace Sys2Proof.Machine

/-- An accepted write of an entry comes to what its effect comes to, on a state whose control engine and entries are as they were. -/
theorem runs_ceEffect {c : Instr} {s : State} {r : Fin 18} {k : Key} {data : List Byte} {eff : State → State} {P : State → Prop}
    (hexec : exec c s = .next (s.write r k data eff)) (h : s.accepts r k data = true)
    (hP : ∀ z t, (∀ x, x.area ≠ none → z.rd x = s.rd x) → z.ce = s.ce → z.time = s.time → (∀ x, t.rd x = (eff z).rd x) →
      t.ce = (eff z).ce → P t) : Runs c s P :=
  ⟨_, hexec, hP (s.admitted r k data) _ (fun _ hx => State.rd_admitted _ _ _ _ _ hx) (State.admitted_ce s k r data)
    (State.admitted_time s k r data) (State.write_rd s eff h) (State.write_ce s eff h)⟩

namespace State

theorem chain_modChain (s : State) (e : Fin 64) (f : ChainS → ChainS) (i : Fin 64) :
    (s.modChain e f).chain i = if i = e then f (s.chain e) else s.chain i := by
  simp [chain, modChain, modCe, get_setVec]

theorem loop_modLoop (s : State) (j : Fin 64) (f : LoopS → LoopS) (i : Fin 64) :
    (s.modLoop j f).loop i = if i = j then f (s.loop j) else s.loop i := by
  simp [loop, modLoop, modCe, get_setVec]

theorem aux_modAux (s : State) (a : Fin 48) (f : AuxS → AuxS) (i : Fin 48) :
    (s.modAux a f).ce.auxs.get i = if i = a then f (s.ce.auxs.get a) else s.ce.auxs.get i := by
  simp [modAux, modCe, get_setVec]

end State

/-- A change of the control engine's: of the entries of an area it moves those of `E` alone, of the records of chains, loops and aux pins
those of the blocks `B` alone, and it takes back no interrupt cause. The levels that the GPIOs drive are not followed. -/
structure CeKeeps (E : Key → Prop) (B : Blk → Prop) (s t : State) : Prop where
  rd : ∀ k, k.area ≠ none → ¬ E k → t.rd k = s.rd k
  chain : ∀ e, ¬ B (.chain e) → t.chain e = s.chain e
  loop : ∀ j, ¬ B (.loop j) → t.loop j = s.loop j
  aux : ∀ a, ¬ B (.aux a) → t.ce.auxs.get a = s.ce.auxs.get a
  rest : { t.ce with chains := s.ce.chains, loops := s.ce.loops, auxs := s.ce.auxs, ogLevel := s.ce.ogLevel } = s.ce
  raised : ∀ x : Src, x.b < 16 → Raised s x → Raised t x

namespace CeKeeps

variable {E : Key → Prop} {B : Blk → Prop} {a s t : State}

theorem refl (E : Key → Prop) (B : Blk → Prop) (s : State) : CeKeeps E B s s :=
  ⟨fun _ _ _ => rfl, fun _ _ => rfl, fun _ _ => rfl, fun _ _ => rfl, rfl, fun _ _ h => h⟩

theorem trans (h1 : CeKeeps E B a s) (h2 : CeKeeps E B s t) : CeKeeps E B a t where
  rd k ha hE := (h2.rd k ha hE).trans (h1.rd k ha hE)
  chain e hB := (h2.chain e hB).trans (h1.chain e hB)
  loop j hB := (h2.loop j hB).trans (h1.loop j hB)
  aux x hB := (h2.aux x hB).trans (h1.aux x hB)
  rest := by
    have h := h1.rest
    rw [← h2.rest] at h
    exact h
  raised x hx h := h2.raised x hx (h1.raised x hx h)

theorem mono {E' : Key → Prop} {B' : Blk → Prop} (h : CeKeeps E B s t) (hE : ∀ k, E k → E' k) (hB : ∀ b, B b → B' b) :
    CeKeeps E' B' s t :=
  ⟨fun k ha hk => h.rd k ha fun hin => hk (hE k hin), fun _ hn => h.chain _ fun hin => hn (hB _ hin),
    fun _ hn => h.loop _ fun hin => hn (hB _ hin), fun _ hn => h.aux _ fun hin => hn (hB _ hin), h.rest, h.raised⟩

theorem ite {u : State} (c : Prop) [Decidable c] (h1 : CeKeeps E B a s) (h2 : CeKeeps E B a u) :
    CeKeeps E B a (if c then s else u) := by
  split
  · exact h1
  · exact h2

theorem bit (h : CeKeeps E B s t) {k : Key} (ha : k.area ≠ none) (hE : ¬ E k) (i : Nat) : t.bit k i = s.bit k i :=
  State.bit_of_rd (h.rd k ha hE) i

/-- What of the record is none of chains, loops, pins and GPIOs stands. -/
theorem field {α : Type} (h : CeKeeps E B s t) (g : CeS → α)
    (hg : ∀ c : CeS, g { c with chains := s.ce.chains, loops := s.ce.loops, auxs := s.ce.auxs, ogLevel := s.ce.ogLevel } = g c) :
    g t.ce = g s.ce := (hg t.ce).symm.trans (congrArg g h.rest)

theorem outDone (h : CeKeeps E B s t) : t.ce.outDone = s.ce.outDone := h.field _ fun _ => rfl

theorem hold (h : CeKeeps E B s t) : t.ce.hold = s.ce.hold := h.field _ fun _ => rfl

theorem sampled (h : CeKeeps E B s t) : t.ce.sampled = s.ce.sampled := h.field _ fun _ => rfl

theorem tempNew (h : CeKeeps E B s t) : t.ce.tempNew = s.ce.tempNew := h.field _ fun _ => rfl

/-! ## The writes and changes of which a change consists -/

theorem wr (h : CeKeeps E B a s) {k : Key} (v : Nat) (hE : E k) (ha : k.area ≠ none) : CeKeeps E B a (s.wr k v) :=
  h.trans ⟨fun _ _ hx => State.rd_wr_ne s v fun e => hx (e ▸ hE), fun _ _ => rfl, fun _ _ => rfl, fun _ _ => rfl, rfl, fun _ _ hr =>
    State.raised_of_rd (State.rd_wr_ne s v fun e => ha (e ▸ rfl)) hr⟩

theorem raise (h : CeKeeps E B a s) (x : Src) : CeKeeps E B a (s.raise x) := by
  have hce : (s.raise x).ce = s.ce := State.raise_ce s x
  refine h.trans ⟨fun k ha _ => State.rd_raise_area s k x ha, fun _ _ => ?_, fun _ _ => ?_, fun _ _ => ?_, ?_, fun _ hy hr =>
    State.raised_keep s x hr hy⟩
  · rw [State.chain, State.chain, hce]
  · rw [State.loop, State.loop, hce]
  · rw [hce]
  · rw [hce]

theorem raiseIn (h : CeKeeps E B a s) (x : Src) {d : Key} (b : Nat) (hE : E d) (ha : d.area ≠ none) : CeKeeps E B a (s.raiseIn x d b) :=
  (h.wr _ hE ha).raise x

theorem modChain (h : CeKeeps E B a s) {e : Fin 64} (f : ChainS → ChainS) (hB : B (.chain e)) : CeKeeps E B a (s.modChain e f) :=
  h.trans ⟨fun _ _ _ => rfl, fun i hi =>
    (State.chain_modChain s e f i).trans (if_neg fun (h : i = e) => hi (h ▸ hB)), fun _ _ => rfl, fun _ _ => rfl, rfl,
    fun _ _ hr => hr⟩

theorem modLoop (h : CeKeeps E B a s) {j : Fin 64} (f : LoopS → LoopS) (hB : B (.loop j)) : CeKeeps E B a (s.modLoop j f) :=
  h.trans ⟨fun _ _ _ => rfl, fun _ _ => rfl, fun i hi =>
    (State.loop_modLoop s j f i).trans (if_neg fun (h : i = j) => hi (h ▸ hB)), fun _ _ => rfl, rfl,
    fun _ _ hr => hr⟩

theorem modAux (h : CeKeeps E B a s) {x : Fin 48} (f : AuxS → AuxS) (hB : B (.aux x)) : CeKeeps E B a (s.modAux x f) :=
  h.trans ⟨fun _ _ _ => rfl, fun _ _ => rfl, fun _ _ => rfl, fun i hi =>
    (State.aux_modAux s x f i).trans (if_neg fun (h : i = x) => hi (h ▸ hB)), rfl,
    fun _ _ hr => hr⟩

/-- The parts of a pass, each a change of its own. -/
theorem forAll {α : Type} {E : α → Key → Prop} {B : α → Blk → Prop} {f : α → State → State}
    (hf : ∀ x z, CeKeeps (E x) (B x) z (f x z)) (l : List α) (s : State) :
    CeKeeps (fun k => ∃ x ∈ l, E x k) (fun b => ∃ x ∈ l, B x b) s (forAll l f s) := by
  induction l generalizing s with
  | nil => exact .refl _ _ _
  | cons x l ih =>
    have hhead := (hf x s).mono (E' := fun k => ∃ y ∈ x :: l, E y k) (B' := fun b => ∃ y ∈ x :: l, B y b)
      (fun k hk => ⟨x, List.mem_cons_self, hk⟩) (fun b hb => ⟨x, List.mem_cons_self, hb⟩)
    exact hhead.trans ((ih (f x s)).mono (fun _ ⟨y, hy, h⟩ => ⟨y, List.mem_cons_of_mem _ hy, h⟩)
      (fun _ ⟨y, hy, h⟩ => ⟨y, List.mem_cons_of_mem _ hy, h⟩))

end CeKeeps

end Sys2Proof.Machine
end

section
/-!
SUPPORT. The temperature sensors (R332, R491, R494, R495): what one conversion writes, the maxima of the readings, and the bits and
warnings that follow them.
-/

namespace Sys2Proof.Machine

/-- A signed entry of 16 bits reads as a number of 16 bits. -/
theorem sx_bounds_of_16 (v : Nat) : -32768 ≤ sx 16 v ∧ sx 16 v ≤ 32767 := by
  unfold sx
  split <;> omega

theorem bitsOf_tempT : ∀ i : Fin 24, bitsOf (K.TEMP_T i.val) = 16 := by decide

namespace State

/-! ## The largest reading (R332) -/

/-- One step of the search for the largest reading. -/
def hotter (s : State) (m : Option (Nat × Int)) (i : Nat) : Option (Nat × Int) :=
  match m with
  | none => some (i, s.tempOf i)
  | some (j, t) => if t < s.tempOf i then some (i, s.tempOf i) else some (j, t)

theorem hotter_some (s : State) (j i : Nat) : s.hotter (some (j, s.tempOf j)) i =
    if s.tempOf j < s.tempOf i then some (i, s.tempOf i) else some (j, s.tempOf j) := rfl

theorem foldl_hotter (s : State) (l : List Nat) (j : Nat) : ∃ i ∈ j :: l,
    l.foldl s.hotter (some (j, s.tempOf j)) = some (i, s.tempOf i) ∧ ∀ x ∈ j :: l, s.tempOf x ≤ s.tempOf i := by
  induction l generalizing j with
  | nil => exact ⟨j, by simp, rfl, by simp⟩
  | cons k l ih =>
    rw [List.foldl_cons, hotter_some]
    split
    next hlt =>
      obtain ⟨i, hi, hfold, hmax⟩ := ih k
      refine ⟨i, List.mem_cons_of_mem _ hi, hfold, List.forall_mem_cons.mpr ⟨?_, hmax⟩⟩
      exact hlt.le.trans (hmax k List.mem_cons_self)
    next hle =>
      obtain ⟨i, hi, hfold, hmax⟩ := ih j
      obtain ⟨hj, hl⟩ := List.forall_mem_cons.mp hmax
      refine ⟨i, by grind, hfold, List.forall_mem_cons.mpr ⟨hj, List.forall_mem_cons.mpr ⟨?_, hl⟩⟩⟩
      exact (not_lt.mp hle).trans hj

/-- Of sensors there are, the largest reading is that of one of them. -/
theorem hottest_of_mem (s : State) {l : List Nat} {j : Nat} (hj : j ∈ l) :
    ∃ i ∈ l, s.hottest l = some (i, s.tempOf i) ∧ ∀ x ∈ l, s.tempOf x ≤ s.tempOf i := by
  cases l with
  | nil => exact absurd hj List.not_mem_nil
  | cons k l => exact foldl_hotter s l k

/-- The sensor with the largest reading, and that reading. -/
def maxAt (s : State) : Nat × Int := (s.hottest sensors).getD (0, 0)

/-- The same of the sensors that the trip looks at. -/
def tripAt (s : State) : Nat × Int := (s.hottest s.tripSensors).getD (0, 0)

theorem maxAt_spec (s : State) : s.maxAt.1 < 24 ∧ s.maxAt.2 = s.tempOf s.maxAt.1 ∧ ∀ j, j < 24 → s.tempOf j ≤ s.maxAt.2 := by
  obtain ⟨i, hi, hmax, hle⟩ := hottest_of_mem s (l := sensors) (j := 0) (by decide)
  rw [maxAt, hmax]
  exact ⟨List.mem_range.mp hi, rfl, fun j hj => hle j (List.mem_range.mpr hj)⟩

theorem mem_tripSensors {s : State} {j : Nat} : j ∈ s.tripSensors ↔ j < 24 ∧ s.bit K.THERM_TRIP_EXCLUDE j = false := by
  simp [tripSensors, sensors]

theorem tripAt_spec {s : State} {j : Nat} (hj : j < 24) (hin : s.bit K.THERM_TRIP_EXCLUDE j = false) :
    s.tempOf j ≤ s.tripAt.2 ∧ s.bit K.THERM_TRIP_EXCLUDE s.tripAt.1 = false ∧ s.tripAt.2 = s.tempOf s.tripAt.1 := by
  have hmem : j ∈ s.tripSensors := mem_tripSensors.mpr ⟨hj, hin⟩
  obtain ⟨i, hi, hmax, hle⟩ := hottest_of_mem s hmem
  rw [tripAt, hmax]
  exact ⟨hle j hmem, (mem_tripSensors.mp hi).2, rfl⟩

theorem tripAt_lt {s : State} {j : Nat} (hj : j < 24) (hin : s.bit K.THERM_TRIP_EXCLUDE j = false) : s.tripAt.1 < 24 := by
  obtain ⟨i, hi, hmax, -⟩ := hottest_of_mem s (mem_tripSensors.mpr ⟨hj, hin⟩)
  rw [tripAt, hmax]
  exact (mem_tripSensors.mp hi).1

/-- A reading is a number of 16 bits. -/
theorem tempOf_bounds (s : State) {j : Nat} (hj : j < 24) : -32768 ≤ s.tempOf j ∧ s.tempOf j ≤ 32767 := by
  have hbits : bitsOf (K.TEMP_T j) = 16 := bitsOf_tempT ⟨j, hj⟩
  rw [tempOf, rdI, hbits]
  exact sx_bounds_of_16 _

theorem tripAt_bounds (s : State) : -32768 ≤ s.tripAt.2 ∧ s.tripAt.2 ≤ 32767 := by
  cases hs : s.tripSensors with
  | nil =>
    have hnone : s.tripAt = (0, 0) := by rw [tripAt, hs]; rfl
    rw [hnone]
    decide
  | cons j l =>
    obtain ⟨i, hi, hmax, -⟩ := hottest_of_mem s (l := s.tripSensors) (j := j) (by simp [hs])
    rw [tripAt, hmax]
    exact tempOf_bounds s (mem_tripSensors.mp hi).1

/-! ## The reading of one conversion (R332, R494) -/

/-- The sensor answers with a temperature in its range. -/
def tempValid (v : Nat) (answers : Bool) : Bool := answers && -6000 ≤ sx 16 v && sx 16 v ≤ 17500

theorem tempValid_iff {v : Nat} {answers : Bool} :
    tempValid v answers = true ↔ answers = true ∧ -6000 ≤ sx 16 v ∧ sx 16 v ≤ 17500 := by
  simp [tempValid, and_assoc]

/-- The reading and the sensor's broken bit are written. -/
def tempWritten (s : State) (i : Fin 24) (v : Nat) (valid : Bool) : State :=
  (s.wr (K.TEMP_T i.val) (if valid then v else 0x7FFF)).wrBit K.TEMP_BROKEN i.val !valid

theorem tempReading_eq (s : State) (i : Fin 24) (v : Nat) (answers : Bool) : s.tempReading i v answers =
    if !tempValid v answers then
      if s.bit K.TEMP_BROKEN i.val then (s.tempWritten i v (tempValid v answers)).setBroken i 1
      else ((s.tempWritten i v (tempValid v answers)).setBroken i 1).raise Src.TEMP_SENSOR_BROKEN
    else if s.pwr.brokenRun.get i = 0 then s.tempWritten i v (tempValid v answers)
    else if s.pwr.brokenRun.get i = 16 then
      ((s.tempWritten i v (tempValid v answers)).setBroken i 0).raise Src.TEMP_SENSOR_RESTORED
    else (s.tempWritten i v (tempValid v answers)).setBroken i (s.pwr.brokenRun.get i + 1) := rfl

variable (s : State) (i : Fin 24) (v : Nat) (answers : Bool)

theorem rd_setBroken (n : Nat) (k : Key) : (s.setBroken i n).rd k = s.rd k := rfl

theorem rd_tempReading {k : Key} (ha : k.area ≠ none) :
    (s.tempReading i v answers).rd k = (s.tempWritten i v (tempValid v answers)).rd k := by
  rw [tempReading_eq]
  simp only [rd_ite, rd_raise_area _ _ _ ha, rd_setBroken, ite_self]

theorem changes_tempReading : Changes [K.TEMP_T i.val, K.TEMP_BROKEN] s (s.tempReading i v answers) := by
  rw [changes_iff]
  intro k ha hk
  rw [List.mem_cons, List.mem_singleton, not_or] at hk
  rw [rd_tempReading _ _ _ _ ha, tempWritten, rd_wrBit, if_neg hk.2, rd_wr_ne _ _ hk.1]

theorem tempT_ne_broken {j : Nat} (hj : j < 24) : K.TEMP_T j ≠ K.TEMP_BROKEN := by
  simp
  omega

theorem tempOf_tempReading_self : (s.tempReading i v answers).tempOf i.val = if tempValid v answers then sx 16 v else 0x7FFF := by
  have hbits : bitsOf (K.TEMP_T i.val) = 16 := bitsOf_tempT i
  have hrd : (s.tempReading i v answers).rd (K.TEMP_T i.val) = (if tempValid v answers then v else 0x7FFF) % 2 ^ 16 := by
    rw [rd_tempReading _ _ _ _ (by simp [devArea]), tempWritten, rd_wrBit_ne _ _ _ (tempT_ne_broken i.isLt), rd_wr_self, hbits]
  rw [tempOf, rdI, hrd, hbits]
  cases tempValid v answers
  · exact (by decide : sx 16 (0x7FFF % 2 ^ 16) = 0x7FFF)
  · simp [sx]

theorem bit_tempReading_self : (s.tempReading i v answers).bit K.TEMP_BROKEN i.val = !tempValid v answers := by
  have hbits : bitsOf K.TEMP_BROKEN = 32 := rfl
  rw [bit, rd_tempReading _ _ _ _ (by decide)]
  show (s.tempWritten i v _).bit _ _ = _
  rw [tempWritten, bit_wrBit, if_pos rfl, if_pos rfl, hbits, decide_eq_true (by omega), Bool.true_and]

/-- Of the power record a reading moves the count of the sensor's valid readings alone. -/
theorem tempReading_stands : (s.tempReading i v answers).pwr.warnHighArmed = s.pwr.warnHighArmed ∧
    (s.tempReading i v answers).pwr.coolAt = s.pwr.coolAt ∧ (s.tempReading i v answers).now = s.now := by
  rw [tempReading_eq]
  (repeat' split) <;> exact ⟨by simp [setBroken, tempWritten, modPwr], by simp [setBroken, tempWritten, modPwr],
    by simp [setBroken, tempWritten]⟩

theorem brokenRun_setBroken (n : Nat) : (s.setBroken i n).pwr.brokenRun.get i = n := by
  simp [setBroken, modPwr, get_setVec]

theorem tempReading_broken {s : State} {i : Fin 24} {v : Nat} {answers : Bool} (h : tempValid v answers = false) :
    (s.tempReading i v answers).pwr.brokenRun.get i = 1 ∧
    (s.bit K.TEMP_BROKEN i.val = false → Raised (s.tempReading i v answers) Src.TEMP_SENSOR_BROKEN) := by
  rw [tempReading_eq, if_pos (by simp [h])]
  split
  next hbit => exact ⟨brokenRun_setBroken _ _ _, fun hno => by simp [hno] at hbit⟩
  next => exact ⟨by rw [raise_pwr, brokenRun_setBroken], fun _ => raised_raise _ _ (by decide)⟩

theorem tempReading_valid {s : State} {i : Fin 24} {v : Nat} {answers : Bool} (h : tempValid v answers = true) :
    (s.pwr.brokenRun.get i = 16 → (s.tempReading i v answers).pwr.brokenRun.get i = 0 ∧
      Raised (s.tempReading i v answers) Src.TEMP_SENSOR_RESTORED) ∧
    (1 ≤ s.pwr.brokenRun.get i → s.pwr.brokenRun.get i < 16 →
      (s.tempReading i v answers).pwr.brokenRun.get i = s.pwr.brokenRun.get i + 1) := by
  rw [tempReading_eq, if_neg (by simp [h])]
  refine ⟨fun hrun => ?_, fun hlo hhi => ?_⟩
  · rw [if_neg (by omega), if_pos hrun]
    exact ⟨by rw [raise_pwr, brokenRun_setBroken], raised_raise _ _ (by decide)⟩
  · rw [if_neg (by omega), if_neg (by omega), brokenRun_setBroken]

/-! ## What follows the maxima (R491, R493, R495) -/

/-- The maxima, with the sensor of each. -/
def maximaShown (s : State) : State :=
  (((s.wrI K.TEMP_MAX s.maxAt.2).wr K.TEMP_MAX_SENSOR s.maxAt.1).wrI K.THERM_TRIP_MAX s.tripAt.2).modPwr fun p =>
    { p with tripSensor := s.tripAt.1 }

def coldNear (s : State) : Bool := match s.coldest with | some t => t < s.rdI K.THERM_WARN_LOW | none => false

def coldFar (s : State) : Bool := match s.coldest with | some t => s.rdI K.THERM_WARN_LOW + 200 ≤ t | none => true

/-- The bits of the limits. -/
def limitsShown (s : State) : State :=
  ((s.maximaShown.wrBit K.THERM_STATUS 1 (s.tripSensors.any fun i => s.bit K.TEMP_BROKEN i)).wrBit K.THERM_STATUS 4
    (s.rdI K.THERM_WARN_HIGH ≤ s.maxAt.2)).wrBit K.THERM_STATUS 5 s.coldNear

/-- The high warning: raised once at its limit, armed again 2 °C below it. -/
def highWarned (s z : State) : State :=
  if s.rdI K.THERM_WARN_HIGH ≤ s.maxAt.2 && s.pwr.warnHighArmed then
    (z.modPwr fun p => { p with warnHighArmed := false }).raise Src.TEMP_WARN_HIGH
  else if s.maxAt.2 ≤ s.rdI K.THERM_WARN_HIGH - 200 then z.modPwr fun p => { p with warnHighArmed := true } else z

/-- The low warning likewise. -/
def lowWarned (s z : State) : State :=
  if s.coldNear && s.pwr.warnLowArmed then (z.modPwr fun p => { p with warnLowArmed := false }).raise Src.TEMP_WARN_LOW
  else if s.coldFar then z.modPwr fun p => { p with warnLowArmed := true } else z

/-- The fast rate. -/
def rateShown (s z : State) : State :=
  if 11500 ≤ s.maxAt.2 && !s.bit K.THERM_STATUS 3 then (z.wrBit K.THERM_STATUS 3 (11500 ≤ s.maxAt.2)).raise Src.TEMP_FAST_SAMPLE
  else z.wrBit K.THERM_STATUS 3 (11500 ≤ s.maxAt.2)

/-- The time below 105.00 °C. -/
def coolingShown (s z : State) : State :=
  if s.tripped then (z.wrBit K.THERM_STATUS 2 (s.tripAt.2 < 10500)).modPwr fun p =>
    { p with coolAt := if s.tripAt.2 < 10500 then p.coolAt.or (some s.now) else none }
  else z

theorem tempFollow_eq : s.tempFollow = s.coolingShown (s.rateShown (s.lowWarned (s.highWarned s.limitsShown))) := by
  unfold tempFollow coolingShown rateShown lowWarned highWarned limitsShown maximaShown maxAt tripAt
  generalize (s.hottest sensors).getD (0, 0) = m
  generalize (s.hottest s.tripSensors).getD (0, 0) = p
  rfl

variable (z : State)

theorem rd_highWarned {k : Key} (ha : k.area ≠ none) : (s.highWarned z).rd k = z.rd k := by
  simp only [highWarned, rd_ite, rd_raise_area _ _ _ ha, modPwr_rd, ite_self]

theorem rd_lowWarned {k : Key} (ha : k.area ≠ none) : (s.lowWarned z).rd k = z.rd k := by
  simp only [lowWarned, rd_ite, rd_raise_area _ _ _ ha, modPwr_rd, ite_self]

/-- Beside the status the maxima alone are written. -/
theorem rd_tempFollow {k : Key} (ha : k.area ≠ none) (hk : k ≠ K.THERM_STATUS) : s.tempFollow.rd k = s.maximaShown.rd k := by
  simp only [tempFollow_eq, coolingShown, rateShown, limitsShown, rd_ite, modPwr_rd, rd_wrBit_ne _ _ _ hk, rd_raise_area _ _ _ ha,
    rd_lowWarned _ _ ha, rd_highWarned _ _ ha, ite_self]

theorem rd_maximaShown {k : Key} (h1 : k ≠ K.TEMP_MAX) (h2 : k ≠ K.TEMP_MAX_SENSOR) (h3 : k ≠ K.THERM_TRIP_MAX) :
    s.maximaShown.rd k = s.rd k := by
  rw [maximaShown, modPwr_rd, rd_wrI, if_neg h3, rd_wr_ne _ _ h2, rd_wrI, if_neg h1]

theorem maxima_tempFollow : s.tempFollow.rdI K.TEMP_MAX = s.maxAt.2 ∧ s.tempFollow.rd K.TEMP_MAX_SENSOR = s.maxAt.1 ∧
    s.tempFollow.rdI K.THERM_TRIP_MAX = s.tripAt.2 := by
  have hmax : bitsOf K.TEMP_MAX = 16 := rfl
  have hsensor : bitsOf K.TEMP_MAX_SENSOR = 8 := rfl
  have htrip : bitsOf K.THERM_TRIP_MAX = 16 := rfl
  obtain ⟨hlt, hat, -⟩ := maxAt_spec s
  obtain ⟨hlo, hhi⟩ := tempOf_bounds s hlt
  obtain ⟨htlo, hthi⟩ := tripAt_bounds s
  rw [← hat] at hlo hhi
  refine ⟨?_, ?_, ?_⟩
  · rw [rdI, rd_tempFollow _ (by decide) (by decide), maximaShown, modPwr_rd, rd_wrI, if_neg (by decide), rd_wr_ne _ _ (by decide), rd_wrI,
      if_pos rfl, hmax, sx_zx_of_16 hlo hhi]
  · rw [rd_tempFollow _ (by decide) (by decide), maximaShown, modPwr_rd, rd_wrI, if_neg (by decide), rd_wr_self, hsensor,
      Nat.mod_eq_of_lt (by omega)]
  · rw [rdI, rd_tempFollow _ (by decide) (by decide), maximaShown, modPwr_rd, rd_wrI, if_pos rfl, htrip, sx_zx_of_16 htlo hthi]

/-! ### The status (Table 16-14) -/

theorem bit_wrBit_therm (i : Nat) (b : Bool) {j : Nat} (hj : j < 8) :
    (s.wrBit K.THERM_STATUS i b).bit K.THERM_STATUS j = if j = i then b else s.bit K.THERM_STATUS j := by
  have hbits : bitsOf K.THERM_STATUS = 8 := rfl
  rw [bit_wrBit, if_pos rfl, hbits, decide_eq_true hj, Bool.true_and]

theorem bit_raise_therm (x : Src) (j : Nat) : (s.raise x).bit K.THERM_STATUS j = s.bit K.THERM_STATUS j :=
  bit_of_rd (rd_raise_area s _ x (by decide)) j

theorem bit_coolingShown {j : Nat} (hj : j < 8) : (s.coolingShown z).bit K.THERM_STATUS j =
    if s.tripped = true ∧ j = 2 then decide (s.tripAt.2 < 10500) else z.bit K.THERM_STATUS j := by
  unfold coolingShown
  split
  next h =>
    rw [bit_of_rd (modPwr_rd _ _ _) j, bit_wrBit_therm _ _ _ hj]
    simp [h]
  next h => rw [if_neg fun hboth => h hboth.1]

theorem bit_rateShown {j : Nat} (hj : j < 8) : (s.rateShown z).bit K.THERM_STATUS j =
    if j = 3 then decide (11500 ≤ s.maxAt.2) else z.bit K.THERM_STATUS j := by
  unfold rateShown
  split
  · rw [bit_raise_therm, bit_wrBit_therm _ _ _ hj]
  · rw [bit_wrBit_therm _ _ _ hj]

theorem bit_limitsShown {j : Nat} (hj : j < 8) : s.limitsShown.bit K.THERM_STATUS j =
    if j = 5 then s.coldNear else if j = 4 then decide (s.rdI K.THERM_WARN_HIGH ≤ s.maxAt.2)
    else if j = 1 then s.tripSensors.any (fun i => s.bit K.TEMP_BROKEN i) else s.bit K.THERM_STATUS j := by
  rw [limitsShown, bit_wrBit_therm _ _ _ hj, bit_wrBit_therm _ _ _ hj, bit_wrBit_therm _ _ _ hj,
    bit_of_rd (rd_maximaShown s (by decide) (by decide) (by decide)) j]

theorem bit_tempFollow {j : Nat} (hj : j < 8) : s.tempFollow.bit K.THERM_STATUS j =
    if s.tripped = true ∧ j = 2 then decide (s.tripAt.2 < 10500) else if j = 3 then decide (11500 ≤ s.maxAt.2)
    else s.limitsShown.bit K.THERM_STATUS j := by
  rw [tempFollow_eq, bit_coolingShown _ _ hj, bit_rateShown _ _ hj, bit_of_rd (rd_lowWarned _ _ (by decide)) j,
    bit_of_rd (rd_highWarned _ _ (by decide)) j]

/-! ### The power record -/

theorem pwr_limitsShown : s.limitsShown.pwr = { s.pwr with tripSensor := s.tripAt.1 } := rfl

theorem pwr_highWarned : (s.highWarned z).pwr = { z.pwr with
    warnHighArmed := if s.rdI K.THERM_WARN_HIGH ≤ s.maxAt.2 ∧ s.pwr.warnHighArmed = true then false
      else if s.maxAt.2 ≤ s.rdI K.THERM_WARN_HIGH - 200 then true else z.pwr.warnHighArmed } := by
  simp only [highWarned, Bool.and_eq_true, decide_eq_true_eq]
  (repeat' split) <;> simp [modPwr]

theorem pwr_lowWarned : ∃ b, (s.lowWarned z).pwr = { z.pwr with warnLowArmed := b } := by
  unfold lowWarned
  (repeat' split)
  · exact ⟨false, raise_pwr _ _⟩
  · exact ⟨true, rfl⟩
  · exact ⟨_, rfl⟩

theorem pwr_rateShown : (s.rateShown z).pwr = z.pwr := by
  unfold rateShown
  split <;> simp

theorem pwr_coolingShown : (s.coolingShown z).pwr = { z.pwr with
    coolAt := if s.tripped then if s.tripAt.2 < 10500 then z.pwr.coolAt.or (some s.now) else none else z.pwr.coolAt } := by
  unfold coolingShown
  split <;> rfl

theorem pwr_tempFollow : s.tempFollow.pwr.brokenRun = s.pwr.brokenRun ∧ s.tempFollow.pwr.tripSensor = s.tripAt.1 ∧
    s.tempFollow.pwr.warnHighArmed = (if s.rdI K.THERM_WARN_HIGH ≤ s.maxAt.2 ∧ s.pwr.warnHighArmed = true then false
      else if s.maxAt.2 ≤ s.rdI K.THERM_WARN_HIGH - 200 then true else s.pwr.warnHighArmed) ∧
    s.tempFollow.pwr.coolAt =
      if s.tripped then if s.tripAt.2 < 10500 then s.pwr.coolAt.or (some s.now) else none else s.pwr.coolAt := by
  obtain ⟨b, hlow⟩ := pwr_lowWarned s (s.highWarned s.limitsShown)
  rw [tempFollow_eq, pwr_coolingShown, pwr_rateShown, hlow, pwr_highWarned, pwr_limitsShown]
  exact ⟨rfl, rfl, rfl, rfl⟩

/-! ### What is raised -/

section Raises

variable {s z : State} {x : Src} (hx : x.b < 16)

theorem raised_wr_area {k : Key} (v : Nat) (ha : k.area ≠ none) (h : Raised z x) : Raised (z.wr k v) x :=
  raised_of_rd (rd_wr_ne z v fun e => ha (e ▸ rfl)) h

theorem raised_limitsShown (h : Raised s x) : Raised s.limitsShown x :=
  raised_wr_area _ (by decide) (raised_wr_area _ (by decide) (raised_wr_area _ (by decide)
    (raised_wr_area _ (by decide) (raised_wr_area _ (by decide) (raised_wr_area _ (by decide) h)))))

include hx

theorem raised_highWarned (h : Raised z x) : Raised (s.highWarned z) x := by
  unfold highWarned
  (repeat' split)
  · exact raised_keep _ _ h hx
  · exact h
  · exact h

theorem raised_lowWarned (h : Raised z x) : Raised (s.lowWarned z) x := by
  unfold lowWarned
  (repeat' split)
  · exact raised_keep _ _ h hx
  · exact h
  · exact h

theorem raised_rateShown (h : Raised z x) : Raised (s.rateShown z) x := by
  have hbit := raised_wr_area (withBit (z.rd K.THERM_STATUS) 3 (11500 ≤ s.maxAt.2)) (k := K.THERM_STATUS) (by decide) h
  unfold rateShown
  split
  · exact raised_keep _ _ hbit hx
  · exact hbit

omit hx in
theorem raised_coolingShown (h : Raised z x) : Raised (s.coolingShown z) x := by
  unfold coolingShown
  split
  · exact raised_wr_area _ (k := K.THERM_STATUS) (by decide) h
  · exact h

theorem raised_tempFollow (h : Raised s x) : Raised s.tempFollow x := by
  rw [tempFollow_eq]
  exact raised_coolingShown (raised_rateShown hx (raised_lowWarned hx (raised_highWarned hx (raised_limitsShown h))))

end Raises

theorem raised_tempFollow_high {s : State} (hnear : s.rdI K.THERM_WARN_HIGH ≤ s.maxAt.2) (harmed : s.pwr.warnHighArmed = true) :
    Raised s.tempFollow Src.TEMP_WARN_HIGH := by
  have hb : Src.TEMP_WARN_HIGH.b < 16 := by decide
  have hhigh : Raised (s.highWarned s.limitsShown) Src.TEMP_WARN_HIGH := by
    rw [highWarned, if_pos (by simp [hnear, harmed])]
    exact raised_raise _ _ hb
  rw [tempFollow_eq]
  exact raised_coolingShown (raised_rateShown hb (raised_lowWarned hb hhigh))

theorem raised_tempFollow_fast {s : State} (hfast : 11500 ≤ s.maxAt.2) (hslow : s.bit K.THERM_STATUS 3 = false) :
    Raised s.tempFollow Src.TEMP_FAST_SAMPLE := by
  have hb : Src.TEMP_FAST_SAMPLE.b < 16 := by decide
  rw [tempFollow_eq]
  refine raised_coolingShown ?_
  rw [rateShown, if_pos (by simp [hfast, hslow])]
  exact raised_raise _ _ hb

/-! ## The conversion -/

/-- What a drift of T20 triggers is the control engine's own (R271). -/
theorem monCalDrift_stands (s : State) : s.monCalDrift.store = s.store ∧ s.monCalDrift.pwr = s.pwr := by
  unfold monCalDrift monCalTrigger
  dsimp only
  (repeat' split) <;> exact ⟨rfl, rfl⟩

/-- Of what reading and maxima leave, the conversion moves the control engine's record alone. -/
theorem tempConverted_stands : (s.tempConverted i v answers).store = (s.tempReading i v answers).tempFollow.store ∧
    (s.tempConverted i v answers).pwr = (s.tempReading i v answers).tempFollow.pwr := by
  unfold tempConverted
  dsimp only
  split
  · exact monCalDrift_stands _
  · exact ⟨rfl, rfl⟩

/-- A reading leaves the entries of the trip and of the warnings. -/
theorem rd_tempReading_therm {x : Nat} (ha : devArea 0x8200 x ≠ none) :
    (s.tempReading i v answers).rd ⟨.dev, 0x8200, x⟩ = s.rd ⟨.dev, 0x8200, x⟩ :=
  changes_iff.mp (changes_tempReading s i v answers) _ (by simpa using ha) (by simp)

theorem tempOf_tempFollow {j : Nat} (hj : j < 24) : s.tempFollow.tempOf j = s.tempOf j := by
  refine rdI_of_rd ((rd_tempFollow s (by simp [devArea]) (by simp)).trans (rd_maximaShown s ?_ ?_ (by simp)))
  · simp
    omega
  · simp
    omega

theorem changes_tempFollow :
    Changes [K.TEMP_MAX, K.TEMP_MAX_SENSOR, K.THERM_TRIP_MAX, K.THERM_STATUS] s s.tempFollow := by
  rw [changes_iff]
  intro k ha hk
  simp only [List.mem_cons, List.not_mem_nil, or_false, not_or] at hk
  obtain ⟨h1, h2, h3, h4⟩ := hk
  rw [rd_tempFollow s ha h4, rd_maximaShown s h1 h2 h3]

end State

section Commands

open State

variable {s t : State} {r : Fin 18} {i : Fin 24} {v : Nat} {answers : Bool}

/-- The state after a conversion, as far as its entries and the power record go: what reading and maxima leave. -/
def Converted (s : State) (i : Fin 24) (v : Nat) (answers : Bool) (t : State) : Prop :=
  (∀ k, t.rd k = (s.tempReading i v answers).tempFollow.rd k) ∧ t.pwr = (s.tempReading i v answers).tempFollow.pwr

theorem runs_tempConversion (s : State) (i : Fin 24) (v : BitVec 16) (answers : Bool) :
    Runs (.tempConversion i v answers) s (Converted s i v.toNat answers) := by
  obtain ⟨hstore, hpwr⟩ := tempConverted_stands s i v.toNat answers
  exact ⟨_, exec_tempConversion s i v answers, fun k => congrArg (Store.get · k) hstore, hpwr⟩

namespace Converted

/-- What neither maxima nor status are reads as the reading left it. -/
theorem kept (h : Converted s i v answers t) {k : Key} (ha : k.area ≠ none)
    (hk : k ∉ [K.TEMP_MAX, K.TEMP_MAX_SENSOR, K.THERM_TRIP_MAX, K.THERM_STATUS]) : t.rd k = (s.tempReading i v answers).rd k :=
  (h.1 k).trans (changes_iff.mp (changes_tempFollow _) k ha hk)

theorem tempOf (h : Converted s i v answers t) {j : Nat} (hj : j < 24) : t.tempOf j = (s.tempReading i v answers).tempOf j :=
  (rdI_of_rd (h.1 _)).trans (tempOf_tempFollow _ hj)

theorem raised (h : Converted s i v answers t) {x : Src} (hr : Raised (s.tempReading i v answers).tempFollow x) : Raised t x :=
  raised_of_rd (h.1 _) hr

theorem tempMax (h : Converted s i v answers t) : t.rdI K.TEMP_MAX = (s.tempReading i v answers).maxAt.2 :=
  (rdI_of_rd (h.1 _)).trans (maxima_tempFollow _).1

theorem tripMax (h : Converted s i v answers t) : t.rdI K.THERM_TRIP_MAX = (s.tempReading i v answers).tripAt.2 :=
  (rdI_of_rd (h.1 _)).trans (maxima_tempFollow _).2.2

theorem bit_broken (h : Converted s i v answers t) : t.bit K.TEMP_BROKEN i.val = !tempValid v answers :=
  (bit_of_rd (h.kept (by decide) (by decide)) _).trans (bit_tempReading_self s i v answers)

theorem brokenRun (h : Converted s i v answers t) : t.pwr.brokenRun = (s.tempReading i v answers).pwr.brokenRun := by
  rw [h.2, (pwr_tempFollow _).1]

theorem status (h : Converted s i v answers t) {j : Nat} (hj : j < 8) : t.bit K.THERM_STATUS j =
    if s.tripped = true ∧ j = 2 then decide (t.rdI K.THERM_TRIP_MAX < 10500) else if j = 3 then decide (11500 ≤ t.rdI K.TEMP_MAX)
    else if j = 4 then decide (s.rdI K.THERM_WARN_HIGH ≤ t.rdI K.TEMP_MAX) else (s.tempReading i v answers).limitsShown.bit K.THERM_STATUS j := by
  have htripped : (s.tempReading i v answers).tripped = s.tripped := bit_of_rd (rd_tempReading_therm s i v answers (by decide)) 0
  have hlimit : (s.tempReading i v answers).rdI K.THERM_WARN_HIGH = s.rdI K.THERM_WARN_HIGH :=
    rdI_of_rd (rd_tempReading_therm s i v answers (by decide))
  rw [bit_of_rd (h.1 _) j, bit_tempFollow _ hj, h.tempMax, h.tripMax, htripped]
  split
  · rfl
  · split
    · rfl
    · split
      next h4 => rw [h4, bit_limitsShown _ (by decide), if_neg (by decide), if_pos rfl, hlimit]
      · rfl

/-! What the statement says of a conversion. -/

theorem reads (h : Converted s i v answers t) (hvalid : tempValid v answers = true) :
    t.tempOf i.val = sx 16 v ∧ t.bit K.TEMP_BROKEN i.val = false ∧
    (s.pwr.brokenRun.get i = 16 → t.pwr.brokenRun.get i = 0 ∧ Raised t Src.TEMP_SENSOR_RESTORED) ∧
    (1 ≤ s.pwr.brokenRun.get i → s.pwr.brokenRun.get i < 16 → t.pwr.brokenRun.get i = s.pwr.brokenRun.get i + 1) := by
  obtain ⟨hrestored, hcounts⟩ := tempReading_valid (s := s) (i := i) hvalid
  rw [h.tempOf i.isLt, tempOf_tempReading_self, if_pos hvalid, h.bit_broken, hvalid, h.brokenRun]
  refine ⟨rfl, rfl, fun hrun => ?_, hcounts⟩
  obtain ⟨hzero, hr⟩ := hrestored hrun
  exact ⟨hzero, h.raised (raised_tempFollow (by decide) hr)⟩

theorem breaks (h : Converted s i v answers t) (hvalid : tempValid v answers = false) :
    t.tempOf i.val = 0x7FFF ∧ t.bit K.TEMP_BROKEN i.val = true ∧ t.pwr.brokenRun.get i = 1 ∧
    (s.bit K.TEMP_BROKEN i.val = false → Raised t Src.TEMP_SENSOR_BROKEN) := by
  obtain ⟨hone, hr⟩ := tempReading_broken (s := s) (i := i) hvalid
  rw [h.tempOf i.isLt, tempOf_tempReading_self, if_neg (by simp [hvalid]), h.bit_broken, hvalid, h.brokenRun]
  exact ⟨rfl, rfl, hone, fun hbit => h.raised (raised_tempFollow (by decide) (hr hbit))⟩

theorem others (h : Converted s i v answers t) {j : Nat} (hj : j < 24) (hne : j ≠ i.val) : t.tempOf j = s.tempOf j := by
  refine (h.tempOf hj).trans (rdI_of_rd (changes_iff.mp (changes_tempReading s i v answers) _ (by simp [devArea]) ?_))
  simp only [List.mem_cons, List.not_mem_nil, or_false, not_or]
  exact ⟨fun e => hne (by simpa using e), tempT_ne_broken hj⟩

theorem maximum (h : Converted s i v answers t) : (∀ j, j < 24 → t.tempOf j ≤ t.rdI K.TEMP_MAX) ∧ t.rd K.TEMP_MAX_SENSOR < 24 ∧
    t.tempOf (t.rd K.TEMP_MAX_SENSOR) = t.rdI K.TEMP_MAX := by
  obtain ⟨hlt, hat, hle⟩ := maxAt_spec (s.tempReading i v answers)
  obtain ⟨-, hsensor, -⟩ := maxima_tempFollow (s.tempReading i v answers)
  rw [h.1 K.TEMP_MAX_SENSOR, hsensor, h.tempMax]
  exact ⟨fun j hj => (h.tempOf hj).trans_le (hle j hj), hlt, (h.tempOf hlt).trans hat.symm⟩

theorem tripMaximum (h : Converted s i v answers t) {j : Nat} (hj : j < 24) (hin : s.bit K.THERM_TRIP_EXCLUDE j = false) :
    t.tempOf j ≤ t.rdI K.THERM_TRIP_MAX ∧ s.bit K.THERM_TRIP_EXCLUDE t.pwr.tripSensor = false ∧
    t.tempOf t.pwr.tripSensor = t.rdI K.THERM_TRIP_MAX := by
  have hexclude : ∀ j, (s.tempReading i v answers).bit K.THERM_TRIP_EXCLUDE j = s.bit K.THERM_TRIP_EXCLUDE j :=
    bit_of_rd (rd_tempReading_therm s i v answers (by decide))
  have hin' := (hexclude j).trans hin
  obtain ⟨hle, hfree, hat⟩ := tripAt_spec hj hin'
  obtain ⟨-, hsensor, -⟩ := pwr_tempFollow (s.tempReading i v answers)
  rw [h.2, hsensor, h.tripMax, ← hexclude, h.tempOf hj, h.tempOf (tripAt_lt hj hin')]
  exact ⟨hle, hfree, hat.symm⟩

theorem warns (h : Converted s i v answers t) : (s.pwr.warnHighArmed = true → s.rdI K.THERM_WARN_HIGH ≤ t.rdI K.TEMP_MAX →
      Raised t Src.TEMP_WARN_HIGH ∧ t.pwr.warnHighArmed = false) ∧
    (t.rdI K.TEMP_MAX ≤ s.rdI K.THERM_WARN_HIGH - 200 → t.pwr.warnHighArmed = true) := by
  have hlimit : (s.tempReading i v answers).rdI K.THERM_WARN_HIGH = s.rdI K.THERM_WARN_HIGH :=
    rdI_of_rd (rd_tempReading_therm s i v answers (by decide))
  obtain ⟨harmed, -, -⟩ := tempReading_stands s i v answers
  obtain ⟨-, -, hwarn, -⟩ := pwr_tempFollow (s.tempReading i v answers)
  rw [h.2, hwarn, h.tempMax, hlimit, harmed]
  refine ⟨fun ha hnear => ⟨h.raised ?_, if_pos ⟨hnear, ha⟩⟩, fun hfar => ?_⟩
  · exact raised_tempFollow_high (by rw [hlimit]; exact hnear) (harmed.trans ha)
  · rw [if_neg (by omega), if_pos hfar]

theorem fastRate (h : Converted s i v answers t) (hslow : s.bit K.THERM_STATUS 3 = false) (hfast : 11500 ≤ t.rdI K.TEMP_MAX) :
    Raised t Src.TEMP_FAST_SAMPLE :=
  h.raised (raised_tempFollow_fast (h.tempMax ▸ hfast) ((bit_of_rd (rd_tempReading_therm s i v answers (by decide)) 3).trans hslow))

theorem cooling (h : Converted s i v answers t) (htrip : s.tripped = true) :
    (t.bit K.THERM_STATUS 2 = true ↔ t.rdI K.THERM_TRIP_MAX < 10500) ∧
    t.pwr.coolAt = if t.rdI K.THERM_TRIP_MAX < 10500 then s.pwr.coolAt.or (some s.now) else none := by
  have htripped : (s.tempReading i v answers).tripped = s.tripped := bit_of_rd (rd_tempReading_therm s i v answers (by decide)) 0
  obtain ⟨-, hcool, hnow⟩ := tempReading_stands s i v answers
  obtain ⟨-, -, -, hat⟩ := pwr_tempFollow (s.tempReading i v answers)
  refine ⟨by rw [h.status (by decide), if_pos ⟨htrip, rfl⟩, decide_eq_true_eq], ?_⟩
  rw [h.2, hat, h.tripMax, hcool, hnow, if_pos (htripped.trans htrip)]

theorem tripped (h : Converted s i v answers t) : t.tripped = s.tripped := by
  have hbit : (s.tempReading i v answers).bit K.THERM_STATUS 0 = s.bit K.THERM_STATUS 0 :=
    bit_of_rd (rd_tempReading_therm s i v answers (by decide)) 0
  rw [State.tripped, h.status (by decide), if_neg (by simp), if_neg (by decide), if_neg (by decide), bit_limitsShown _ (by decide), hbit]
  rfl

theorem changes (h : Converted s i v answers t) :
    Changes [K.TEMP_T i.val, K.TEMP_BROKEN, K.TEMP_MAX, K.TEMP_MAX_SENSOR, K.THERM_TRIP_MAX, K.THERM_STATUS] s t := by
  rw [changes_iff]
  intro k ha hk
  have hboth : k ∉ [K.TEMP_T i.val, K.TEMP_BROKEN] ∧ k ∉ [K.TEMP_MAX, K.TEMP_MAX_SENSOR, K.THERM_TRIP_MAX, K.THERM_STATUS] := by
    simp only [List.mem_cons, List.not_mem_nil, or_false, not_or] at hk ⊢
    exact ⟨⟨hk.1, hk.2.1⟩, hk.2.2⟩
  exact (h.kept ha hboth.2).trans (changes_iff.mp (changes_tempReading s i v answers) k ha hboth.1)

end Converted

theorem thermTripTest_starts (h : s.accepts r K.THERM_TRIP_TEST (be 1 1) = true) : Runs (.thermTripTest r 1) s fun t =>
    t.bit K.THERM_STATUS 6 = true ∧ Changes [K.THERM_STATUS] s t := by
  refine runs_ceEffect (eff := effTripTest 1) (exec_thermTripTest s r 1) h fun z t hz _ _ hrd _ => ?_
  have hstart : effTripTest 1 z = z.wrBit K.THERM_STATUS 6 true := rfl
  rw [hstart] at hrd
  refine ⟨?_, changes_iff.mpr fun k ha hk => ?_⟩
  · rw [bit_of_rd (hrd _) 6, bit_wrBit_therm _ _ _ (by decide), if_pos rfl]
  · rw [hrd, rd_wrBit_ne _ _ _ (by simpa using hk), hz k ha]

theorem thermTripTest_zero (h : s.accepts r K.THERM_TRIP_TEST (be 1 0) = true) :
    Runs (.thermTripTest r 0) s fun t => Changes [] s t :=
  runs_ceEffect (eff := effTripTest 0) (exec_thermTripTest s r 0) h fun _ _ hz _ _ hrd _ =>
    changes_iff.mpr fun k ha _ => (hrd k).trans (hz k ha)

theorem tripTestDone_shows (fired : BitVec 24) (h : s.bit K.THERM_STATUS 6 = true) : Runs (.tripTestDone fired) s fun t =>
    t.bit K.THERM_STATUS 6 = false ∧ t.bit K.THERM_STATUS 7 = (fired == 0xFFFFFF) ∧ Raised t Src.TRIP_TEST_DONE ∧
    Changes [K.THERM_STATUS] s t := by
  have hfired : decide (fired.toNat = 2 ^ 24 - 1) = (fired == 0xFFFFFF) := by
    rw [Bool.eq_iff_iff, decide_eq_true_eq, beq_iff_eq, ← BitVec.toNat_inj]
    rfl
  refine ⟨_, (exec_tripTestDone s fired).trans (congrArg Host.Outcome.next (if_pos h)), ?_, ?_, raised_raise _ _ (by decide), ?_⟩
  · rw [bit_raise_therm, bit_wrBit_therm _ _ _ (by decide), if_neg (by decide), bit_wrBit_therm _ _ _ (by decide), if_pos rfl]
  · rw [bit_raise_therm, bit_wrBit_therm _ _ _ (by decide), if_pos rfl, hfired]
  · exact ((changes_wr s _ _).trans (changes_wr _ _ _)).trans (changes_raise _ _ _)

theorem tripTestDone_idle (fired : BitVec 24) (h : s.bit K.THERM_STATUS 6 = false) : Runs (.tripTestDone fired) s fun t => t = s :=
  ⟨s, (exec_tripTestDone s fired).trans (congrArg Host.Outcome.next (if_neg (by simp [h]))), rfl⟩

end Commands

/-- Settles O43: a conversion is the writing of a reading, and the maxima, bits and warnings of the state that it leaves. -/
theorem temperature : Obligations.Temperature := by
  unfold Obligations.Temperature
  refine ⟨fun s i v answers => ?_, fun s r => thermTripTest_starts, fun s r => thermTripTest_zero,
    fun s fired => tripTestDone_shows fired, fun s fired => tripTestDone_idle fired⟩
  obtain ⟨t, hexec, h⟩ := runs_tempConversion s i v answers
  obtain ⟨hmax, hsensor, hat⟩ := h.maximum
  obtain ⟨hwarn, hrearm⟩ := h.warns
  refine ⟨t, hexec, fun hvalid => h.reads (State.tempValid_iff.mpr hvalid), fun hinvalid => h.breaks ?_, fun j => h.others, hmax, hsensor, hat,
    fun j => h.tripMaximum, ?_, hwarn, hrearm, ?_, h.fastRate, h.cooling, h.tripped, h.changes⟩
  · exact Bool.eq_false_iff.mpr fun hvalid => hinvalid (State.tempValid_iff.mp hvalid)
  · rw [h.status (by decide), if_neg (by simp), if_neg (by decide), if_pos rfl, decide_eq_true_eq]
  · rw [h.status (by decide), if_neg (by simp), if_pos rfl, decide_eq_true_eq]

end Sys2Proof.Machine
end

section
/-!
SUPPORT. The monitor sequencer (R307 to R311): its results in `MON_DATA` and in their filter chains, and what leads from one slot to the
next.
-/

namespace Sys2Proof.Machine

/-! ## Filter chains (R312 to R315) -/

/-- The entries that a chain's work moves once a result is in: its own but the result, and the detail registers of the group MON. -/
def chainInner (e : Fin 64) (k : Key) : Prop :=
  k.blk = .chain e ∧ k ≠ K.FILT_RAW e ∨ k.blk = .dev ∧ k.off = 0x7005

/-- The work of a chain on a result. -/
def ChainStep (e : Fin 64) : State → State → Prop := CeKeeps (chainInner e) (· = .chain e)

namespace ChainStep

variable {e : Fin 64} {a s : State}

theorem refl (s : State) : ChainStep e s s := CeKeeps.refl _ _ s

theorem ite {u : State} (c : Prop) [Decidable c] (h1 : ChainStep e a s) (h2 : ChainStep e a u) : ChainStep e a (if c then s else u) :=
  CeKeeps.ite c h1 h2

theorem trans {u : State} (h1 : ChainStep e a s) (h2 : ChainStep e s u) : ChainStep e a u := CeKeeps.trans h1 h2

theorem wr (h : ChainStep e a s) {o x : Nat} (v : Nat) (hne : (o, x) ≠ (0x04, 0x05) := by decide) :
    ChainStep e a (s.wr ⟨.chain e, o, x⟩ v) :=
  CeKeeps.wr h v (.inl ⟨rfl, fun hk => hne (by cases hk; rfl)⟩) (by simp)

theorem raiseIn (h : ChainStep e a s) (y : Src) (x b : Nat) : ChainStep e a (s.raiseIn y ⟨.dev, 0x7005, x⟩ b) :=
  CeKeeps.raiseIn h y b (.inr ⟨rfl, rfl⟩) (by simp [devArea])

theorem modChain (h : ChainStep e a s) (f : ChainS → ChainS) : ChainStep e a (s.modChain e f) := CeKeeps.modChain h f rfl

end ChainStep

namespace State

variable (s : State) (e : Fin 64)

theorem chainOut_step (y : Int) : ChainStep e s (s.chainOut e y) := by
  have hout : ChainStep e s ((((s.wr (K.FILT_OUT e) (clampI 0 65535 y).toNat).incWrap (K.FILT_SEQ e)).wrBit (K.FILT_STATE e) 1
      false).modChain e fun c => { c with newAt := some s.newFrame }) :=
    ((((ChainStep.refl s).wr _).wr _).wr _).modChain _
  exact ChainStep.ite _ hout ((hout.wr _).raiseIn _ _ _)

theorem fadeDone_step : ChainStep e s (s.fadeDone e) :=
  (((ChainStep.refl s).modChain _).wr _).raiseIn _ _ _

theorem settleStep_step (m : Nat) : ChainStep e s (s.settleStep e m) := by
  have hrefl : ChainStep e s s := .refl s
  unfold settleStep
  dsimp only
  split
  · exact (hrefl.modChain _).trans (chainOut_step _ e _)
  · exact hrefl.modChain _

theorem firStep_step : ChainStep e s (s.firStep e) := by
  have hrefl : ChainStep e s s := .refl s
  have hswap : ∀ (f : ChainS → ChainS) (v : Nat), ChainStep e s ((s.wr (K.FILT_ACTIVE e) v).modChain e f) :=
    fun f v => (hrefl.wr _).modChain f
  have hbank : ∀ (b c : Prop) [Decidable b] [Decidable c] (f : ChainS → ChainS) (v : Nat), ChainStep e s
      (if b then (if c then ((s.wr (K.FILT_ACTIVE e) v).modChain e f).fadeDone e
        else ((s.wr (K.FILT_ACTIVE e) v).modChain e f).wrBit (K.FILT_STATE e) 0 true) else s) :=
    fun b c _ _ f v => .ite _ (.ite _ ((hswap f v).trans (fadeDone_step _ e)) ((hswap f v).wr _)) hrefl
  unfold firStep
  dsimp only
  split
  · exact (hbank _ _ _ _).trans (chainOut_step _ e _)
  · exact .ite _ (((hbank _ _ _ _).trans (chainOut_step _ e _)).trans (fadeDone_step _ e))
      (((hbank _ _ _ _).trans (chainOut_step _ e _)).modChain _)

/-- A result enters its chain: it shows in `FILT_RAW`, and the rest is the chain's work on it. -/
theorem chainResult_step (code : Nat) : ChainStep e (s.wr (K.FILT_RAW e) code) (s.chainResult e code) := by
  have hnew : ∀ (b c : Prop) [Decidable b] [Decidable c] (f : ChainS → ChainS) (v : Bool) (z : State),
      z = (if b then ((s.wr (K.FILT_RAW e) code).modChain e f).wrBit (K.FILT_STATE e) 1 v else (s.wr (K.FILT_RAW e) code).modChain e f) →
      ChainStep e (s.wr (K.FILT_RAW e) code) (if c then (z.incSat (K.FILT_SPIKES e)).raiseIn (Src.MON 7) K.DET_FILT_SPIKE e.val else z) := by
    rintro b c _ _ f v z rfl
    have hin : ChainStep e (s.wr (K.FILT_RAW e) code) ((s.wr (K.FILT_RAW e) code).modChain e f) := (ChainStep.refl _).modChain f
    have hz : ChainStep e (s.wr (K.FILT_RAW e) code)
        (if b then ((s.wr (K.FILT_RAW e) code).modChain e f).wrBit (K.FILT_STATE e) 1 v else (s.wr (K.FILT_RAW e) code).modChain e f) :=
      .ite b (hin.wr _) hin
    exact .ite _ ((hz.wr _).raiseIn _ _ _) hz
  unfold chainResult
  dsimp only
  exact .ite _ ((hnew _ _ _ _ _ rfl).trans (settleStep_step _ e _)) ((hnew _ _ _ _ _ rfl).trans (firStep_step _ e))

end State

/-! ## Results (R307, R309) -/

namespace State

variable (s : State)

theorem monClip_keeps (e : Option Nat) (code : Nat) :
    CeKeeps (· ∈ [K.MON_CLIPS, K.DET_MON_CLIP]) (fun _ => False) s (s.monClip e code) := by
  have hcount : CeKeeps (· ∈ [K.MON_CLIPS, K.DET_MON_CLIP]) (fun _ => False) s (s.incSat K.MON_CLIPS) :=
    (CeKeeps.refl _ _ s).wr _ (by decide) (by decide)
  unfold monClip
  split
  · cases e with
    | none => exact hcount.raise _
    | some e => exact hcount.raiseIn _ _ (by decide) (by decide)
  · exact .refl _ _ _

/-- A result at either end of the scale is counted as clipped. -/
theorem monClip_clips (e : Option Nat) {code : Nat} (h : code = 0 ∨ code = 4095) :
    CountsUp s (s.monClip e code) K.MON_CLIPS 1 ∧ Raised (s.monClip e code) (Src.MON 5) := by
  unfold monClip
  rw [if_pos (by simpa using h)]
  cases e with
  | none => exact ⟨(rd_raise_area _ _ _ (by decide)).trans (countsUp_incSat s _), raised_raise _ _ (by decide)⟩
  | some e =>
    refine ⟨?_, raised_raiseIn _ _ _ (by decide)⟩
    rw [CountsUp, rd_raiseIn _ _ _ _ (by decide), if_neg (by decide)]
    exact countsUp_incSat s _

theorem monLoad_keeps (head code : Nat) :
    CeKeeps (· ∈ [K.MON_DATA, K.MON_DATA_TIME, K.MON_OVERRUNS]) (fun _ => False) s (s.monLoad head code) := by
  have hload : CeKeeps (· ∈ [K.MON_DATA, K.MON_DATA_TIME, K.MON_OVERRUNS]) (fun _ => False) s
      ((s.wr K.MON_DATA (2 ^ 31 + (if s.bit K.MON_DATA 31 then 2 ^ 30 else 0) + head + code)).wr K.MON_DATA_TIME (time96 s.ce.sampled)) :=
    ((CeKeeps.refl _ _ s).wr _ (by decide) (by decide)).wr _ (by decide) (by decide)
  exact CeKeeps.ite _ ((hload.wr _ (by decide) (by decide)).raise _) (hload.raise _)

theorem rd_monLoad (head code : Nat) : (s.monLoad head code).rd K.MON_DATA =
      (2 ^ 31 + (if s.bit K.MON_DATA 31 then 2 ^ 30 else 0) + head + code) % 2 ^ 32 ∧
    (s.monLoad head code).rd K.MON_DATA_TIME = time96 s.ce.sampled % 2 ^ 96 ∧
    (s.bit K.MON_DATA 31 = true → CountsUp s (s.monLoad head code) K.MON_OVERRUNS 1) := by
  have hdata : bitsOf K.MON_DATA = 32 := rfl
  have htime : bitsOf K.MON_DATA_TIME = 96 := rfl
  unfold monLoad
  dsimp only
  refine ⟨?_, ?_, fun h => ?_⟩
  · rw [rd_ite, rd_raise_area _ _ _ (by decide), rd_raise_area _ _ _ (by decide), rd_incSat,
      if_neg (show K.MON_DATA ≠ K.MON_OVERRUNS by decide), ite_self,
      rd_wr_ne _ _ (by decide), rd_wr_self, hdata]
  · rw [rd_ite, rd_raise_area _ _ _ (by decide), rd_raise_area _ _ _ (by decide), rd_incSat,
      if_neg (show K.MON_DATA_TIME ≠ K.MON_OVERRUNS by decide), ite_self, rd_wr_self,
      htime]
  · rw [if_pos h, CountsUp, rd_raise_area _ _ _ (by decide), countsUp_incSat, rd_wr_ne _ _ (by decide), rd_wr_ne _ _ (by decide)]

/-- `MON_DATA` after a result: VALID, OVERRUN where the last was not read, the result below the bits that name its source. -/
theorem monLoad_data {m code : Nat} (hm : m < 2 ^ 14) (hcode : code < 2 ^ 12) :
    (s.monLoad (2 ^ 16 * m) code).bit K.MON_DATA 31 = true ∧
    (s.bit K.MON_DATA 31 = true → (s.monLoad (2 ^ 16 * m) code).bit K.MON_DATA 30 = true) ∧
    ((s.monLoad (2 ^ 16 * m) code).bit K.MON_DATA 29 = decide (2 ^ 13 ≤ m)) ∧
    (s.monLoad (2 ^ 16 * m) code).rd K.MON_DATA % 4096 = code := by
  obtain ⟨hrd, -, -⟩ := rd_monLoad s (2 ^ 16 * m) code
  simp only [bit, hrd, Nat.testBit_eq_decide_div_mod_eq, decide_eq_true_eq, decide_eq_decide]
  refine ⟨?_, fun h => ?_, ?_, ?_⟩
  · split <;> omega
  · rw [if_pos h]
    omega
  · split <;> omega
  · split <;> omega

end State

end Sys2Proof.Machine
end

section
/-!
SUPPORT. A slot's end (R307 to R309), urgent requests (R310, R311) and the ADC's calibration (R271 to R273).
-/

namespace Sys2Proof.Machine

/-! ## Slots of a pass -/

namespace State

variable (s : State)

/-- A result of entry `e` of the sequence goes to `MON_DATA` where the entry `v` says so. -/
def slotLoad (v e code : Nat) : State :=
  if v.testBit 15 then s.monLoad ((if v.testBit 14 then 2 ^ 28 else 0) + field v 5 0 * 2 ^ 22 + e * 2 ^ 16) code else s

/-- A result of entry `e` of the sequence is counted, loaded and filtered. -/
def slotResult (e : Fin 64) (code : Nat) : State :=
  (((s.incSat K.MON_CONVERSIONS).monClip (some e.val) code).slotLoad ((s.ce.seq[e.val]?).getD 0) e.val code).chainResult e code

/-- What follows the slot of entry `e` in a sequence of `l`. -/
def slotNext (l e : Nat) : State :=
  if e + 1 < l then (s.modCe fun c => { c with pass := some (e + 1) }).sampleNow
  else ((s.modCe fun c => { c with pass := none }).incSat K.MON_PASSES).wrBit K.MON_STATUS 0 false

variable {s}

theorem conversionEnd_eq {e : Nat} (h : e < 64) (hpass : s.ce.pass = some e) (hce : s.ceRuns = true) (hslot : s.slotRuns = true)
    (code : Nat) : s.conversionEnd code = (s.slotResult ⟨e, h⟩ code).slotNext s.ce.seq.length e := by
  unfold conversionEnd slotResult slotNext slotLoad
  rw [hpass]
  dsimp only
  rw [if_neg (by simp [hce, hslot]), dif_pos h]

theorem conversionEnd_stands (h : s.slotRuns = false ∨ s.ceRuns = false) (code : Nat) : s.conversionEnd code = s := by
  unfold conversionEnd
  split
  · rfl
  · exact if_pos (by simpa using h.symm)

variable (s)

theorem slotLoad_keeps (v e code : Nat) :
    CeKeeps (· ∈ [K.MON_DATA, K.MON_DATA_TIME, K.MON_OVERRUNS]) (fun _ => False) s (s.slotLoad v e code) :=
  CeKeeps.ite _ (monLoad_keeps s _ code) (.refl _ _ s)

theorem field_six_lt (v : Nat) : field v 5 0 < 64 := by
  unfold field
  omega

theorem slotLoad_loads {v e code : Nat} (hv : v.testBit 15 = true) (he : e < 64) (hcode : code < 4096) :
    (s.slotLoad v e code).bit K.MON_DATA 31 = true ∧ (s.slotLoad v e code).rd K.MON_DATA % 4096 = code ∧
    (s.slotLoad v e code).rd K.MON_DATA_TIME = time96 s.ce.sampled % 2 ^ 96 ∧
    (s.bit K.MON_DATA 31 = true → CountsUp s (s.slotLoad v e code) K.MON_OVERRUNS 1 ∧ (s.slotLoad v e code).bit K.MON_DATA 30 = true) := by
  have hentry := field_six_lt v
  have hhead : (if v.testBit 14 then 2 ^ 28 else 0) + field v 5 0 * 2 ^ 22 + e * 2 ^ 16 =
      2 ^ 16 * ((if v.testBit 14 then 2 ^ 12 else 0) + field v 5 0 * 2 ^ 6 + e) := by
    split <;> omega
  have hsmall : (if v.testBit 14 then 2 ^ 12 else 0) + field v 5 0 * 2 ^ 6 + e < 2 ^ 14 := by
    split <;> omega
  unfold slotLoad
  rw [if_pos hv, hhead]
  obtain ⟨hvalid, hover, -, hlow⟩ := monLoad_data s hsmall hcode
  obtain ⟨-, htime, hcount⟩ := rd_monLoad s (2 ^ 16 * ((if v.testBit 14 then 2 ^ 12 else 0) + field v 5 0 * 2 ^ 6 + e)) code
  exact ⟨hvalid, hlow, htime, fun h => ⟨hcount h, hover h⟩⟩

theorem rd_slotNext (l e : Nat) {k : Key} (hpasses : k ≠ K.MON_PASSES) (hstatus : k ≠ K.MON_STATUS) : (s.slotNext l e).rd k = s.rd k := by
  unfold slotNext
  split
  · rfl
  · rw [rd_wrBit_ne _ _ _ hstatus, rd_incSat, if_neg hpasses]
    rfl

theorem slotNext_goes {l e : Nat} (h : e + 1 < l) : (s.slotNext l e).ce.pass = some (e + 1) := by
  unfold slotNext
  rw [if_pos h]
  rfl

theorem slotNext_ends {l e : Nat} (h : l ≤ e + 1) : (s.slotNext l e).ce.pass = none ∧ (s.slotNext l e).bit K.MON_STATUS 0 = false ∧
    CountsUp s (s.slotNext l e) K.MON_PASSES 1 := by
  unfold slotNext
  rw [if_neg (by omega)]
  refine ⟨rfl, by rw [bit_wrBit, if_pos rfl, if_pos rfl, Bool.and_false], ?_⟩
  rw [CountsUp, rd_wrBit_ne _ _ _ (by decide)]
  exact countsUp_incSat _ _

end State

/-- A conversion of the pass (R307 to R309). -/
theorem conversionEnd_result {s : State} {e : Nat} (h : e < 64) {code : Nat} (hcode : code < 4096) (hpass : s.ce.pass = some e)
    (hce : s.ceRuns = true) (hslot : s.slotRuns = true) :
    CountsUp s (s.conversionEnd code) K.MON_CONVERSIONS 1 ∧ (s.conversionEnd code).rd (K.FILT_RAW ⟨e, h⟩) = code ∧
    (code = 0 ∨ code = 4095 → CountsUp s (s.conversionEnd code) K.MON_CLIPS 1 ∧ Raised (s.conversionEnd code) (Src.MON 5)) ∧
    (((s.ce.seq[e]?).getD 0).testBit 15 = true → (s.conversionEnd code).bit K.MON_DATA 31 = true ∧
      (s.conversionEnd code).rd K.MON_DATA % 4096 = code ∧
      (s.conversionEnd code).rd K.MON_DATA_TIME = time96 s.ce.sampled % 2 ^ 96 ∧
      (s.bit K.MON_DATA 31 = true → CountsUp s (s.conversionEnd code) K.MON_OVERRUNS 1 ∧
        (s.conversionEnd code).bit K.MON_DATA 30 = true)) ∧
    (e + 1 < s.ce.seq.length → (s.conversionEnd code).ce.pass = some (e + 1)) ∧
    (s.ce.seq.length ≤ e + 1 → (s.conversionEnd code).ce.pass = none ∧ (s.conversionEnd code).bit K.MON_STATUS 0 = false ∧
      CountsUp s (s.conversionEnd code) K.MON_PASSES 1) := by
  rw [State.conversionEnd_eq h hpass hce hslot]
  have hclip := State.monClip_keeps (s.incSat K.MON_CONVERSIONS) (some e) code
  have hload := State.slotLoad_keeps ((s.incSat K.MON_CONVERSIONS).monClip (some e) code) ((s.ce.seq[e]?).getD 0) e code
  have hchain := State.chainResult_step (((s.incSat K.MON_CONVERSIONS).monClip (some e) code).slotLoad ((s.ce.seq[e]?).getD 0) e code)
    ⟨e, h⟩ code
  have hnext : ∀ {k : Key}, k.blk = .dev → k.area ≠ none → k.off ≠ 0x7005 → k ≠ K.MON_PASSES → k ≠ K.MON_STATUS →
      ((s.slotResult ⟨e, h⟩ code).slotNext s.ce.seq.length e).rd k =
        (((s.incSat K.MON_CONVERSIONS).monClip (some e) code).slotLoad ((s.ce.seq[e]?).getD 0) e code).rd k := by
    intro k hblk ha hoff hpasses hstatus
    have hraw : k ≠ K.FILT_RAW ⟨e, h⟩ := fun hk => by
      rw [hk] at hblk
      cases hblk
    rw [State.rd_slotNext _ _ _ hpasses hstatus, State.slotResult, hchain.rd k ha (by simp [chainInner, hblk, hoff]),
      State.rd_wr_ne _ _ hraw]
  have hmon : ((s.incSat K.MON_CONVERSIONS).monClip (some e) code).bit K.MON_DATA 31 = s.bit K.MON_DATA 31 := by
    rw [hclip.bit (by decide) (by decide), State.bit, State.rd_incSat, if_neg (by decide)]
    rfl
  refine ⟨?_, ?_, fun hend => ⟨?_, ?_⟩, fun hto => ?_, fun hl => State.slotNext_goes _ hl, fun hl => ?_⟩
  · rw [CountsUp, hnext rfl (by decide) (by decide) (by decide) (by decide), hload.rd _ (by decide) (by decide),
      hclip.rd _ (by decide) (by decide)]
    exact State.countsUp_incSat s _
  · rw [State.rd_slotNext _ _ _ (by simp) (by simp), State.slotResult, hchain.rd _ (by simp) (by simp [chainInner]), State.rd_wr_self]
    exact Nat.mod_eq_of_lt (hcode.trans (show 4096 < 2 ^ 16 by decide))
  · rw [CountsUp, hnext rfl (by decide) (by decide) (by decide) (by decide), hload.rd _ (by decide) (by decide),
      (State.monClip_clips _ _ hend).1, State.rd_incSat, if_neg (by decide)]
  · have hraised := hload.raised _ (by decide) (State.monClip_clips (s.incSat K.MON_CONVERSIONS) (some e) hend).2
    have hfiltered := hchain.raised (Src.MON 5) (by decide) (State.raised_of_rd (State.rd_wr_ne _ _ (by simp)) hraised)
    exact State.raised_of_rd (State.rd_slotNext _ _ _ (by decide) (by decide)) hfiltered
  · obtain ⟨hvalid, hlow, htime, hover⟩ :=
      State.slotLoad_loads ((s.incSat K.MON_CONVERSIONS).monClip (some e) code) hto h hcode
    have hdata := hnext (k := K.MON_DATA) rfl (by decide) (by decide) (by decide) (by decide)
    refine ⟨(State.bit_of_rd hdata _).trans hvalid, by rw [hdata, hlow], ?_, fun hold => ?_⟩
    · rw [hnext rfl (by decide) (by decide) (by decide) (by decide), htime, hclip.sampled]
      rfl
    · obtain ⟨hcount, hbit⟩ := hover (hmon.trans hold)
      refine ⟨?_, (State.bit_of_rd hdata _).trans hbit⟩
      rw [CountsUp, hnext rfl (by decide) (by decide) (by decide) (by decide), hcount, hclip.rd _ (by decide) (by decide),
        State.rd_incSat, if_neg (by decide)]
  · obtain ⟨hpass, hstatus, hcount⟩ := State.slotNext_ends (s.slotResult ⟨e, h⟩ code) hl
    refine ⟨hpass, hstatus, ?_⟩
    rw [CountsUp, hcount, State.slotResult, hchain.rd _ (by decide) (by simp [chainInner]), State.rd_wr_ne _ _ (by simp),
      hload.rd _ (by decide) (by decide), hclip.rd _ (by decide) (by decide), State.rd_incSat, if_neg (by decide)]

/-! ## Reads of the result (R309) -/

theorem State.req_monTaken (s : State) (r : Fin 18) : s.monTaken.req r = s.req r := rfl

/-- A read of `MON_DATA` answers, and takes the result. -/
theorem monDataRead_takes (s : State) (r : Fin 18) (all : Bool) : Runs (.monDataRead r all) s fun t =>
    t.bit K.MON_DATA 31 = false ∧ t.bit K.MON_DATA 30 = false ∧
    (t.req r).lastAnswer = (if all then s.monAll else be 4 (s.rd K.MON_DATA)) ∧ (t.req r).outcome = 0 ∧ t.ce = s.ce ∧
    Changes [K.MON_DATA] s t := by
  refine ⟨_, exec_monDataRead s r all, ?_, ?_, ?_, ?_, ?_, ?_⟩
  · rw [State.monTaken, State.bit_wrBit, if_pos rfl, if_neg (by decide), State.bit_wrBit, if_pos rfl, if_pos rfl, Bool.and_false,
      Bool.and_false]
  · rw [State.monTaken, State.bit_wrBit, if_pos rfl, if_pos rfl, Bool.and_false]
  · rw [State.req_monTaken, State.reply, State.req_modReq]
  · rw [State.req_monTaken, State.reply, State.req_modReq]
  · exact (State.taken_touches (A := fun _ => false) (Touches.refl _ s)).ce rfl
  · rw [changes_iff]
    intro k ha hk
    have hne : k ≠ K.MON_DATA := by simpa using hk
    rw [State.monTaken, State.rd_wrBit_ne _ _ _ hne, State.rd_wrBit_ne _ _ _ hne]
    exact State.rd_taken_area s k ha

/-! ## Urgent conversions (R272, R310, R311, R476) -/

namespace State

variable {s : State} {v : Nat} {fits : Bool}

theorem urgentReq_calibrating (h : s.ce.calRun = true) : s.urgentReq v fits = s.incSat K.MON_CAL_URGENT_REFUSED := if_pos h

theorem urgentReq_stopped (hcal : s.ce.calRun = false) (h : s.ceRuns = false) : s.urgentReq v fits = s.urgentDropped := by
  simp [urgentReq, hcal, h]

/-- Mode 0 serves a request between the passes. -/
theorem urgentReq_waits (hcal : s.ce.calRun = false) (hce : s.ceRuns = true) (hmode : s.ce.urgMode = 0) :
    s.urgentReq v fits =
      if s.ce.urgent = none ∧ s.slotRuns = false ∧ (fits = true ∨ (s.ce.pass = none ∧ s.rd K.MON_PASS_FRAMES = 0)) then
        (s.modCe fun c => { c with urgent := some v }).sampleNow
      else s.urgentDropped := by
  simp only [urgentReq, hcal, hce, hmode, Bool.not_true, Bool.false_eq_true, if_false, if_true]
  exact if_congr (by simp [and_assoc]) rfl rfl

/-- Other modes interrupt the pass. -/
theorem urgentReq_interrupts (hcal : s.ce.calRun = false) (hce : s.ceRuns = true) (hmode : s.ce.urgMode ≠ 0) :
    s.urgentReq v fits =
      if s.ce.urgent ≠ none then (if s.ce.urgHeld ≠ none then s.urgentDropped else s.setHeld (some v))
      else ((if s.slotRuns = true then (s.incSat K.MON_ENTRY_RESTARTED).raise (Src.MON 4) else s).modCe fun c =>
        { c with urgent := some v }).sampleNow := by
  simp only [urgentReq, hcal, hce, hmode, Bool.not_true, Bool.false_eq_true, if_false]
  exact if_congr (by simp [Option.isSome_iff_ne_none]) (if_congr (by simp [Option.isSome_iff_ne_none]) rfl rfl) rfl

variable (s)

theorem urgentDropped_counts : s.urgentDropped.ce = s.ce ∧ CountsUp s s.urgentDropped K.MON_URGENT_DROPPED 1 ∧
    Raised s.urgentDropped (Src.MON 3) :=
  ⟨raise_ce _ _, (rd_raise_area _ _ _ (by decide)).trans (countsUp_incSat s _), raised_raise _ _ (by decide)⟩

theorem setHeld_holds (h : Option Nat) : (s.setHeld h).ce = { s.ce with urgHeld := h } ∧ (s.setHeld h).bit K.MON_STATUS 1 = h.isSome := by
  refine ⟨rfl, ?_⟩
  rw [setHeld, bit_wrBit, if_pos rfl, if_pos rfl]
  exact Bool.true_and _

theorem urgentRestart_counts (h : s.slotRuns = true) (f : CeS → CeS) :
    CountsUp s (((if s.slotRuns = true then (s.incSat K.MON_ENTRY_RESTARTED).raise (Src.MON 4) else s).modCe f).sampleNow)
      K.MON_ENTRY_RESTARTED 1 ∧
    Raised (((if s.slotRuns = true then (s.incSat K.MON_ENTRY_RESTARTED).raise (Src.MON 4) else s).modCe f).sampleNow) (Src.MON 4) := by
  rw [if_pos h]
  exact ⟨(rd_raise_area _ _ _ (by decide)).trans (countsUp_incSat s _),
    raised_raise (s.incSat K.MON_ENTRY_RESTARTED) (Src.MON 4) (by decide)⟩

end State

/-- A request is served, held, dropped or refused by its mode and by what runs. -/
theorem monUrgentReq_answers {s : State} {r : Fin 18} (v : BitVec 16) (fits : Bool)
    (h : s.accepts r K.MON_URGENT_REQ (be 2 v.toNat) = true) :
    Runs (.monUrgentReq r v fits) s fun t =>
      (s.ce.calRun = true → CountsUp s t K.MON_CAL_URGENT_REFUSED 1 ∧ t.ce = s.ce) ∧
      (s.ce.calRun = false → s.ceRuns = false → t.ce = s.ce ∧ CountsUp s t K.MON_URGENT_DROPPED 1 ∧ Raised t (Src.MON 3)) ∧
      (s.ce.calRun = false → s.ceRuns = true → s.ce.urgMode = 0 →
        (s.ce.urgent = none → s.slotRuns = false → fits = true ∨ (s.ce.pass = none ∧ s.rd K.MON_PASS_FRAMES = 0) →
          t.ce.urgent = some v.toNat ∧ t.ce.sampled = s.time.counter) ∧
        (s.ce.urgent ≠ none ∨ s.slotRuns = true ∨ (fits = false ∧ (s.ce.pass ≠ none ∨ s.rd K.MON_PASS_FRAMES ≠ 0)) →
          t.ce = s.ce ∧ CountsUp s t K.MON_URGENT_DROPPED 1 ∧ Raised t (Src.MON 3))) ∧
      (s.ce.calRun = false → s.ceRuns = true → s.ce.urgMode ≠ 0 →
        (s.ce.urgent = none → t.ce.urgent = some v.toNat ∧
          (s.slotRuns = true → CountsUp s t K.MON_ENTRY_RESTARTED 1 ∧ Raised t (Src.MON 4))) ∧
        (s.ce.urgent ≠ none → s.ce.urgHeld = none →
          t.ce.urgent = s.ce.urgent ∧ t.ce.urgHeld = some v.toNat ∧ t.bit K.MON_STATUS 1 = true) ∧
        (s.ce.urgent ≠ none → s.ce.urgHeld ≠ none →
          t.ce = s.ce ∧ CountsUp s t K.MON_URGENT_DROPPED 1 ∧ Raised t (Src.MON 3))) := by
  refine runs_ceEffect (exec_monUrgentReq s r v fits) h fun z t hrd hce htime htrd htce => ?_
  have hruns : s.ceRuns = z.ceRuns := (State.bit_of_rd (hrd K.CE_STATUS (by decide)) 0).symm
  have hslot : s.slotRuns = z.slotRuns := by rw [State.slotRuns, State.slotRuns, hce]
  have hdrop : z.urgentReq v.toNat fits = z.urgentDropped →
      t.ce = z.ce ∧ CountsUp s t K.MON_URGENT_DROPPED 1 ∧ Raised t (Src.MON 3) := fun heq => by
    obtain ⟨hsame, hcount, hraised⟩ := State.urgentDropped_counts z
    rw [heq] at htce htrd
    refine ⟨htce.trans hsame, ?_, State.raised_of_rd (htrd _) hraised⟩
    rw [CountsUp, htrd, hcount, hrd _ (by decide)]
  rw [← hce, ← htime, hruns, hslot, ← hrd K.MON_PASS_FRAMES (by decide)]
  refine ⟨fun hcal => ?_, fun hcal hstop => hdrop (State.urgentReq_stopped hcal hstop), fun hcal hrun hmode => ?_,
    fun hcal hrun hmode => ?_⟩
  · rw [State.urgentReq_calibrating hcal] at htce htrd
    exact ⟨by rw [CountsUp, htrd, State.countsUp_incSat, hrd _ (by decide)], htce⟩
  · have heq := State.urgentReq_waits (v := v.toNat) (fits := fits) hcal hrun hmode
    refine ⟨fun hnone hidle hfits => ?_, fun hbusy => hdrop (heq.trans (if_neg ?_))⟩
    · rw [heq, if_pos ⟨hnone, hidle, hfits⟩] at htce
      rw [htce]
      exact ⟨rfl, rfl⟩
    · rintro ⟨hnone, hidle, hfits⟩
      rcases hbusy with hbusy | hbusy | ⟨hnot, hbusy⟩
      · exact hbusy hnone
      · exact Bool.false_ne_true (hidle.symm.trans hbusy)
      · rcases hfits with hfits | ⟨hpass, hframes⟩
        · exact Bool.false_ne_true (hnot.symm.trans hfits)
        · exact hbusy.elim (· hpass) (· hframes)
  · have heq := State.urgentReq_interrupts (v := v.toNat) (fits := fits) hcal hrun hmode
    refine ⟨fun hnone => ?_, fun hurgent hheld => ?_, fun hurgent hheld => hdrop ?_⟩
    · rw [if_neg (not_not_intro hnone)] at heq
      rw [heq] at htce htrd
      refine ⟨by rw [htce]; rfl, fun hslots => ?_⟩
      obtain ⟨hcount, hraised⟩ := State.urgentRestart_counts z hslots fun c => { c with urgent := some v.toNat }
      exact ⟨by rw [CountsUp, htrd, hcount, hrd _ (by decide)], State.raised_of_rd (htrd _) hraised⟩
    · rw [if_pos hurgent, if_neg (not_not_intro hheld)] at heq
      rw [heq] at htce htrd
      obtain ⟨hfields, hbit⟩ := State.setHeld_holds z (some v.toNat)
      rw [htce, hfields]
      exact ⟨rfl, rfl, (State.bit_of_rd (htrd _) 1).trans hbit⟩
    · rw [heq, if_pos hurgent, if_pos hheld]

namespace State

variable {s : State}

theorem urgentEnd_eq {v : Nat} (hurgent : s.ce.urgent = some v) (hce : s.ceRuns = true) (code : Nat) : s.urgentEnd code =
    (((((((s.incSat K.MON_CONVERSIONS).monClip none code).monLoad
      (2 ^ 29 + (if v.testBit 14 then 2 ^ 28 else 0) + field v 5 0 * 2 ^ 22) code).incSat K.MON_URGENT_SERVED).raise (Src.MON 2)).modCe
        fun c => { c with urgent := c.urgHeld }).setHeld none).sampleNow := by
  unfold urgentEnd
  rw [if_pos hce, hurgent]

theorem urgentEnd_stands (h : s.ce.urgent = none ∨ s.ceRuns = false) (code : Nat) : s.urgentEnd code = s := by
  have hnone : (if s.ceRuns then s.ce.urgent else none) = none := by
    rcases h with h | h
    · rw [h, ite_self]
    · exact if_neg (by rw [h]; decide)
  unfold urgentEnd
  rw [hnone]

end State

/-- An urgent conversion ends: its result goes to `MON_DATA` with the urgent bit, and the one held is served. -/
theorem urgentEnd_result {s : State} {v code : Nat} (hcode : code < 4096) (hurgent : s.ce.urgent = some v) (hce : s.ceRuns = true) :
    (s.urgentEnd code).ce.urgent = s.ce.urgHeld ∧ (s.urgentEnd code).ce.urgHeld = none ∧ (s.urgentEnd code).bit K.MON_STATUS 1 = false ∧
    CountsUp s (s.urgentEnd code) K.MON_CONVERSIONS 1 ∧ CountsUp s (s.urgentEnd code) K.MON_URGENT_SERVED 1 ∧
    Raised (s.urgentEnd code) (Src.MON 2) ∧ (s.urgentEnd code).bit K.MON_DATA 31 = true ∧ (s.urgentEnd code).bit K.MON_DATA 29 = true ∧
    (s.urgentEnd code).rd K.MON_DATA % 4096 = code ∧ (s.urgentEnd code).rd K.MON_DATA_TIME = time96 s.ce.sampled % 2 ^ 96 := by
  have hentry := State.field_six_lt v
  have hhead : 2 ^ 29 + (if v.testBit 14 then 2 ^ 28 else 0) + field v 5 0 * 2 ^ 22 =
      2 ^ 16 * (2 ^ 13 + (if v.testBit 14 then 2 ^ 12 else 0) + field v 5 0 * 2 ^ 6) := by
    split <;> omega
  have hsmall : 2 ^ 13 + (if v.testBit 14 then 2 ^ 12 else 0) + field v 5 0 * 2 ^ 6 < 2 ^ 14 := by
    split <;> omega
  rw [State.urgentEnd_eq hurgent hce, hhead]
  have hclip := State.monClip_keeps (s.incSat K.MON_CONVERSIONS) none code
  have hload := State.monLoad_keeps ((s.incSat K.MON_CONVERSIONS).monClip none code)
    (2 ^ 16 * (2 ^ 13 + (if v.testBit 14 then 2 ^ 12 else 0) + field v 5 0 * 2 ^ 6)) code
  obtain ⟨hvalid, -, hkind, hlow⟩ := State.monLoad_data ((s.incSat K.MON_CONVERSIONS).monClip none code) hsmall hcode
  obtain ⟨-, htime, -⟩ := State.rd_monLoad ((s.incSat K.MON_CONVERSIONS).monClip none code)
    (2 ^ 16 * (2 ^ 13 + (if v.testBit 14 then 2 ^ 12 else 0) + field v 5 0 * 2 ^ 6)) code
  generalize ((s.incSat K.MON_CONVERSIONS).monClip none code).monLoad
    (2 ^ 16 * (2 ^ 13 + (if v.testBit 14 then 2 ^ 12 else 0) + field v 5 0 * 2 ^ 6)) code = u at hload hvalid hkind hlow htime ⊢
  have hheld : u.ce.urgHeld = s.ce.urgHeld := (hload.field _ fun _ => rfl).trans (hclip.field _ fun _ => rfl)
  obtain ⟨hfields, hstatus⟩ := State.setHeld_holds
    (((u.incSat K.MON_URGENT_SERVED).raise (Src.MON 2)).modCe fun c => { c with urgent := c.urgHeld }) none
  have hnext : ∀ {k : Key}, k ≠ K.MON_STATUS → (((((u.incSat K.MON_URGENT_SERVED).raise (Src.MON 2)).modCe
      fun c => { c with urgent := c.urgHeld }).setHeld none).sampleNow).rd k =
        ((u.incSat K.MON_URGENT_SERVED).raise (Src.MON 2)).rd k := fun hk => by
    rw [State.sampleNow, State.modCe_rd, State.setHeld, State.rd_wrBit_ne _ _ _ hk, State.modCe_rd, State.modCe_rd]
  have hend : ∀ {k : Key}, k.area ≠ none → k ≠ K.MON_STATUS → k ≠ K.MON_URGENT_SERVED → (((((u.incSat K.MON_URGENT_SERVED).raise
      (Src.MON 2)).modCe fun c => { c with urgent := c.urgHeld }).setHeld none).sampleNow).rd k = u.rd k := fun {k} ha hk hne => by
    rw [hnext hk, State.rd_raise_area _ _ _ ha, State.rd_incSat, if_neg hne]
  have hraised : Raised ((u.incSat K.MON_URGENT_SERVED).raise (Src.MON 2)) (Src.MON 2) := State.raised_raise _ _ (by decide)
  refine ⟨?_, congrArg CeS.urgHeld hfields, hstatus, ?_, ?_, ?_, ?_, ?_, ?_, ?_⟩
  · refine (congrArg CeS.urgent hfields).trans ?_
    exact (congrArg CeS.urgHeld (State.raise_ce (u.incSat K.MON_URGENT_SERVED) (Src.MON 2))).trans hheld
  · rw [CountsUp, hend (by decide) (by decide) (by decide), hload.rd _ (by decide) (by decide), hclip.rd _ (by decide) (by decide)]
    exact State.countsUp_incSat s _
  · rw [CountsUp, hnext (by decide), State.rd_raise_area _ _ _ (by decide), State.countsUp_incSat, hload.rd _ (by decide) (by decide),
      hclip.rd _ (by decide) (by decide), State.rd_incSat, if_neg (by decide)]
  · exact State.raised_of_rd (hnext (by decide)) hraised
  · exact (State.bit_of_rd (hend (by decide) (by decide) (by decide)) _).trans hvalid
  · rw [State.bit_of_rd (hend (by decide) (by decide) (by decide)) 29, hkind, decide_eq_true_eq]
    omega
  · rw [hend (by decide) (by decide) (by decide), hlow]
  · rw [hend (by decide) (by decide) (by decide), htime, hclip.sampled]
    rfl

/-! ## The ADC's calibration (R271 to R273) -/

/-- A trigger by a write pends, where no calibration runs. -/
theorem monCalCmd_triggers {s : State} {r : Fin 18} (h : s.accepts r K.MON_CAL_CMD (be 1 1) = true) :
    Runs (.monCalCmd r 1) s fun t =>
      (s.ce.calRun = false → t.ce = { s.ce with calPend := true }) ∧ (s.ce.calRun = true → t.ce = s.ce) ∧ Changes [] s t := by
  refine runs_ceEffect (eff := effMonCalCmd 1) (exec_monCalCmd s r 1) h fun z t hrd hce _ htrd htce => ?_
  have htrig : effMonCalCmd 1 z = if z.ce.calRun = true then z else z.modCe fun c => { c with calPend := true } := rfl
  rw [htrig] at htrd htce
  rw [← hce]
  refine ⟨fun hidle => ?_, fun hrun => ?_, changes_iff.mpr fun k ha _ => ?_⟩
  · rw [htce, if_neg (by rw [hidle]; decide)]
    rfl
  · rw [htce, if_pos hrun]
  · rw [htrd, State.rd_ite, State.modCe_rd, ite_self, hrd k ha]

namespace State

variable {s : State}

theorem monCalStart_stands (h : s.ce.calPend = false ∨ s.ceRuns = false ∨ s.ce.urgent ≠ none) : s.monCalStart = s := by
  refine if_neg ?_
  rcases h with h | h | h <;> simp [h]

/-- A calibration starts with the loops held. -/
theorem monCalStart_starts (hpend : s.ce.calPend = true) (hce : s.ceRuns = true) (hurgent : s.ce.urgent = none) :
    s.monCalStart.ce.calRun = true ∧ s.monCalStart.ce.calPend = false ∧ s.monCalStart.ce.hold = true ∧
    s.monCalStart.bit K.CE_STATUS 1 = true ∧ s.monCalStart.bit K.MON_STATUS 2 = true ∧ s.monCalStart.rd K.MON_CAL_LAST = s.timeNow ∧
    Changes [K.CE_STATUS, K.MON_STATUS, K.MON_CAL_LAST, K.MON_CAL_TEMP] s s.monCalStart := by
  unfold monCalStart
  rw [if_pos (by simp [hpend, hce, hurgent])]
  refine ⟨rfl, rfl, rfl, ?_, ?_, ?_, changes_iff.mpr fun k _ hk => ?_⟩
  · rw [bit_of_rd (rd_wr_ne _ _ (by decide)), bit_of_rd (rd_wr_ne _ _ (by decide)), bit_of_rd (rd_wrBit_ne _ _ _ (by decide)), setMonHold,
      bit_wrBit, if_pos rfl, if_pos rfl]
    rfl
  · rw [bit_of_rd (rd_wr_ne _ _ (by decide)), bit_of_rd (rd_wr_ne _ _ (by decide)), bit_wrBit, if_pos rfl, if_pos rfl]
    rfl
  · rw [rd_wr_ne _ _ (by decide), rd_wr_self]
    exact Nat.mod_eq_of_lt (time96_lt _)
  · simp only [List.mem_cons, List.not_mem_nil, or_false, not_or] at hk
    obtain ⟨hstatus, hmon, hlast, htemp⟩ := hk
    rw [rd_wr_ne _ _ htemp, rd_wr_ne _ _ hlast, rd_wrBit_ne _ _ _ hmon, setMonHold, rd_wrBit_ne _ _ _ hstatus, modCe_rd, modCe_rd]

theorem monCalEnd_stands (h : s.ce.calRun = false) (bad : Bool) : s.monCalEnd bad = s := if_neg (by rw [h]; decide)

/-- A calibration ends with its result; the loops stay held. -/
theorem monCalEnd_ends (h : s.ce.calRun = true) (bad : Bool) :
    (s.monCalEnd bad).ce.calRun = false ∧ (s.monCalEnd bad).ce.hold = s.ce.hold ∧ (s.monCalEnd bad).bit K.MON_STATUS 2 = false ∧
    CountsUp s (s.monCalEnd bad) K.MON_CAL_COUNT 1 ∧ (s.monCalEnd bad).rd K.MON_CAL_RESULT = (if bad then 2 else 1) ∧
    Raised (s.monCalEnd bad) (Src.MON 6) ∧ (bad = true → Raised (s.monCalEnd bad) Src.FG_CAL_FAIL) := by
  have hend : s.monCalEnd bad = if bad = true then (s.monCalFinish (if bad = true then 2 else 1)).raiseIn Src.FG_CAL_FAIL
      K.CAL_FG_FAIL_SRC 16 else s.monCalFinish (if bad = true then 2 else 1) := if_pos h
  have hkeeps : CeKeeps (· ∈ [K.CAL_FG_FAIL_SRC]) (fun _ => False) (s.monCalFinish (if bad = true then 2 else 1)) (s.monCalEnd bad) := by
    rw [hend]
    exact CeKeeps.ite _ ((CeKeeps.refl _ _ _).raiseIn _ _ (by decide) (by decide)) (.refl _ _ _)
  have hfinish : s.monCalFinish (if bad = true then 2 else 1) = ((((s.modCe fun c => { c with calRun := false }).wrBit K.MON_STATUS 2
      false).incSat K.MON_CAL_COUNT).wr K.MON_CAL_RESULT (if bad = true then 2 else 1)).raise (Src.MON 6) := if_pos h
  have hce : (s.monCalFinish (if bad = true then 2 else 1)).ce = { s.ce with calRun := false } := by
    rw [hfinish, raise_ce]
    rfl
  have hrd : ∀ {k : Key}, k.area ≠ none → (s.monCalFinish (if bad = true then 2 else 1)).rd k = ((((s.modCe fun c => { c with calRun := false
      }).wrBit K.MON_STATUS 2 false).incSat K.MON_CAL_COUNT).wr K.MON_CAL_RESULT (if bad = true then 2 else 1)).rd k := fun ha => by
    rw [hfinish, rd_raise_area _ _ _ ha]
  refine ⟨?_, ?_, ?_, ?_, ?_, hkeeps.raised _ (by decide) ?_, fun hbad => ?_⟩
  · rw [hkeeps.field CeS.calRun fun _ => rfl, hce]
  · rw [hkeeps.hold, hce]
  · rw [hkeeps.bit (by decide) (by decide), bit_of_rd (hrd (by decide)), bit_of_rd (rd_wr_ne _ _ (by decide)), bit,
      rd_incSat, if_neg (by decide)]
    exact (bit_wrBit _ _ _ _ _ _).trans (by rw [if_pos rfl, if_pos rfl, Bool.and_false])
  · rw [CountsUp, hkeeps.rd _ (by decide) (by decide), hrd (by decide), rd_wr_ne _ _ (by decide), countsUp_incSat,
      rd_wrBit_ne _ _ _ (by decide), modCe_rd]
  · rw [hkeeps.rd _ (by decide) (by decide), hrd (by decide), rd_wr_self]
    cases bad <;> rfl
  · rw [hfinish]
    exact raised_raise _ _ (by decide)
  · rw [hend, if_pos hbad]
    exact raised_raiseIn _ _ _ (by decide)

end State

/-- Settles O37, by the steps of a pass, of the urgent conversions and of the calibration. -/
theorem monitorSequencer : Obligations.MonitorSequencer := by
  unfold Obligations.MonitorSequencer
  exact ⟨fun s e h code hpass hce hslot =>
      ⟨_, exec_monConversionEnd s code, conversionEnd_result h code.isLt hpass hce hslot⟩,
    fun s code h => ⟨_, exec_monConversionEnd s code, State.conversionEnd_stands h code.toNat⟩,
    monDataRead_takes,
    fun _ _ v fits h => monUrgentReq_answers v fits h,
    fun s _ code hurgent hce => ⟨_, exec_monUrgentEnd s code, urgentEnd_result code.isLt hurgent hce⟩,
    fun s code h => ⟨_, exec_monUrgentEnd s code, State.urgentEnd_stands h code.toNat⟩,
    fun _ _ h => monCalCmd_triggers h,
    fun s hpend hce hurgent => ⟨_, exec_monCalStart s, State.monCalStart_starts hpend hce hurgent⟩,
    fun s h => ⟨_, exec_monCalStart s, State.monCalStart_stands h⟩,
    fun s bad h => ⟨_, exec_monCalEnd s bad, State.monCalEnd_ends h bad⟩,
    fun s bad h => ⟨_, exec_monCalEnd s bad, State.monCalEnd_stands h bad⟩⟩

end Sys2Proof.Machine
end

section
/-!
SUPPORT. Writes that wait for the control frame's boundary (R306, R388), what each does there, and the rest of the boundary (R304): a
calibration's hold ends and a pass starts.
-/

namespace Sys2Proof.Machine

/-! ## Waiting for the boundary (R306, R388) -/

/-- An accepted write of a control entry waits for the frame boundary, and changes nothing until then. -/
theorem ceWrite_waits {s : State} {c : Instr} {r : Fin 18} {k : Key} {data : List Byte} (hexec : exec c s = .next (s.ceWrite r k data))
    (h : s.accepts r k data = true) : Runs c s fun t =>
      t.od.waiting = s.od.waiting ++ [{ req := r, epoch := (s.req r).epoch, bound := .frame, grp := false, writes := [(k, data)] }] ∧
      t.ce = s.ce ∧ Changes [] s t := by
  obtain ⟨hwaiting, hepoch⟩ := State.admitted_waiting s r r k data
  refine ⟨_, hexec, ?_, ?_, ?_⟩
  · rw [State.ceWrite, State.write_waiting _ h, State.defer_waiting, hwaiting, hepoch]
  · exact (State.write_ce s _ h).trans (State.admitted_ce s k r data)
  · exact State.write_changes s _ h (State.changes_of_rd [] fun _ => rfl)

/-! ## The rest of the boundary (R304) -/

/-- What the rest of the boundary leaves alone: entries but three of the engine's, the dictionary, and the records of loops, pins and
swaps. -/
structure FrameKeeps (s t : State) : Prop where
  rd : ∀ k, k ∉ [K.CE_STATUS, K.MON_PASS_FRAMES, K.MON_STATUS] → t.rd k = s.rd k
  od : t.od = s.od
  loops : t.ce.loops = s.ce.loops
  auxs : t.ce.auxs = s.ce.auxs
  release : t.ce.release = s.ce.release
  swap : ∀ e, (t.chain e).swap = (s.chain e).swap

namespace FrameKeeps

variable {s t u : State}

theorem refl (s : State) : FrameKeeps s s := ⟨fun _ _ => rfl, rfl, rfl, rfl, rfl, fun _ => rfl⟩

theorem trans (h1 : FrameKeeps s t) (h2 : FrameKeeps t u) : FrameKeeps s u :=
  ⟨fun k hk => (h2.rd k hk).trans (h1.rd k hk), h2.od.trans h1.od, h2.loops.trans h1.loops, h2.auxs.trans h1.auxs,
    h2.release.trans h1.release, fun e => (h2.swap e).trans (h1.swap e)⟩

theorem ite (c : Prop) [Decidable c] (h1 : FrameKeeps s t) (h2 : FrameKeeps s u) : FrameKeeps s (if c then t else u) := by
  split
  · exact h1
  · exact h2

end FrameKeeps

namespace State

variable (s : State)

/-- Restarts of chains move the chains' records alone, and no swap that waits. -/
theorem restarts_eq (f : Fin 64 → State → State) (hf : ∀ e z, f e z = z ∨ f e z = z.modChain e fun c => { c with restart := true })
    (l : List (Fin 64)) (s : State) : ∃ cs : Vector ChainS 64, forAll l f s = (s.modCe fun c => { c with chains := cs }) ∧
      ∀ e, (cs.get e).swap = (s.chain e).swap := by
  refine forAll_induct (P := fun z => ∃ cs : Vector ChainS 64, z = (s.modCe fun c => { c with chains := cs }) ∧
    ∀ e, (cs.get e).swap = (s.chain e).swap) ?_ l ⟨s.ce.chains, rfl, fun _ => rfl⟩
  rintro e z ⟨cs, rfl, hcs⟩
  rcases hf e (s.modCe fun c => { c with chains := cs }) with heq | heq
  · exact ⟨cs, heq, hcs⟩
  · refine ⟨_, heq, fun i => (congrArg ChainS.swap (get_setVec _ _ _ _)).trans ?_⟩
    split
    next hi => exact hi ▸ hcs e
    · exact hcs i

/-- What a pass's start writes in the record, but for the restarts of chains. -/
def passRec (s : State) : State :=
  (s.wr K.MON_PASS_FRAMES ((105 * s.rd K.MON_SEQ_LEN + 1023) / 1024)).modCe fun c =>
    { c with seq := (List.range (s.rd K.MON_SEQ_LEN)).map fun i => s.rd (K.MON_SEQ_ENTRY i), urgMode := s.rd K.MON_URGENT_MODE,
             pass := if s.rd K.MON_SEQ_LEN = 0 then none else some 0, passStart := s.now, sampled := s.time.counter }

/-- The restart of a chain at a pass's start, where its input changed or its entry enters. -/
def passRestart (old seq : List Nat) (e : Fin 64) (s : State) : State :=
  match seq[e.val]? with
  | none => s
  | some v =>
    if (match old[e.val]? with
        | some w => field v 5 0 == field w 5 0 && v.testBit 14 == w.testBit 14
        | none => false) then s
    else s.modChain e fun c => { c with restart := true }

theorem passRestart_cases (old seq : List Nat) (e : Fin 64) (z : State) :
    passRestart old seq e z = z ∨ passRestart old seq e z = z.modChain e fun c => { c with restart := true } := by
  unfold passRestart
  split
  · exact .inl rfl
  · exact ite_eq_or_eq _ _ _

theorem passStart_eq : ∃ cs : Vector ChainS 64,
    s.passStart = (s.passRec.modCe fun c => { c with chains := cs }).wrBit K.MON_STATUS 0 (s.rd K.MON_SEQ_LEN != 0) ∧
      ∀ e, (cs.get e).swap = (s.chain e).swap := by
  obtain ⟨cs, heq, hcs⟩ := restarts_eq (passRestart s.ce.seq ((List.range (s.rd K.MON_SEQ_LEN)).map fun i => s.rd (K.MON_SEQ_ENTRY i)))
    (passRestart_cases _ _) (allFin 64) s.passRec
  exact ⟨cs, congrArg (fun z : State => z.wrBit K.MON_STATUS 0 (s.rd K.MON_SEQ_LEN != 0)) heq, hcs⟩

theorem passRec_keeps : FrameKeeps s s.passRec :=
  ⟨fun _ hk => rd_wr_ne s _ fun h => hk (by rw [h]; decide), rfl, rfl, rfl, rfl, fun _ => rfl⟩

theorem wrBit_keeps {k : Key} (hk : k ∈ [K.CE_STATUS, K.MON_PASS_FRAMES, K.MON_STATUS]) (i : Nat) (b : Bool) : FrameKeeps s (s.wrBit k i b) :=
  ⟨fun _ h => rd_wrBit_ne s i b fun e => h (e ▸ hk), rfl, rfl, rfl, rfl, fun _ => rfl⟩

theorem passStart_keeps : FrameKeeps s s.passStart := by
  obtain ⟨cs, heq, hcs⟩ := passStart_eq s
  rw [heq]
  refine FrameKeeps.trans (t := s.passRec.modCe fun c => { c with chains := cs }) ?_ (wrBit_keeps _ (by decide) _ _)
  exact (passRec_keeps s).trans ⟨fun _ _ => rfl, rfl, rfl, rfl, rfl, hcs⟩

/-- A pass starts with the sequence, the length and the urgent mode of now. -/
theorem passStart_starts :
    s.passStart.ce.pass = (if s.rd K.MON_SEQ_LEN = 0 then none else some 0) ∧
    s.passStart.bit K.MON_STATUS 0 = decide (s.rd K.MON_SEQ_LEN ≠ 0) ∧ s.passStart.ce.urgMode = s.rd K.MON_URGENT_MODE ∧
    s.passStart.ce.passStart = s.now ∧ s.passStart.ce.snapDone = s.ce.snapDone ∧ s.passStart.ce.hold = s.ce.hold := by
  obtain ⟨cs, heq, -⟩ := passStart_eq s
  rw [heq]
  refine ⟨rfl, ?_, rfl, rfl, rfl, rfl⟩
  have hbits : bitsOf K.MON_STATUS = 8 := rfl
  rw [bit_wrBit, if_pos rfl, if_pos rfl, hbits]
  cases s.rd K.MON_SEQ_LEN <;> rfl

/-- A calibration that has ended holds the loops no longer: the sequencer resumes. -/
def monResume (s : State) : State :=
  if s.ce.hold && !s.ce.calRun then (if s.ce.urgent.isSome then s.setMonHold false else (s.setMonHold false).sampleNow) else s

/-- A pass starts where none runs and no urgent conversion or calibration does. -/
def passBegins (s : State) : State :=
  if s.ce.pass.isNone && !s.ce.calRun && !s.ce.calPend && s.ce.urgent.isNone then s.passStart else s

theorem monResume_keeps : FrameKeeps s s.monResume :=
  have hrelease : FrameKeeps s (s.setMonHold false) :=
    FrameKeeps.trans (t := s.modCe fun c => { c with hold := false }) ⟨fun _ _ => rfl, rfl, rfl, rfl, rfl, fun _ => rfl⟩
      (wrBit_keeps _ (by decide) _ _)
  .ite _ (.ite _ hrelease (hrelease.trans ⟨fun _ _ => rfl, rfl, rfl, rfl, rfl, fun _ => rfl⟩)) (.refl s)

theorem passBegins_keeps : FrameKeeps s s.passBegins := .ite _ (passStart_keeps s) (.refl s)

/-- The record after the hold's end. -/
theorem monResume_ce : s.monResume.ce.pass = s.ce.pass ∧ s.monResume.ce.seq = s.ce.seq ∧ s.monResume.ce.calRun = s.ce.calRun ∧
    s.monResume.ce.calPend = s.ce.calPend ∧ s.monResume.ce.urgent = s.ce.urgent ∧ s.monResume.ce.snapDone = s.ce.snapDone ∧
    s.monResume.ce.hold = (s.ce.hold && s.ce.calRun) := by
  unfold monResume
  split
  next h =>
    have hhold : (s.ce.hold && s.ce.calRun) = false := by
      revert h
      cases s.ce.hold <;> cases s.ce.calRun <;> decide
    rw [hhold]
    split <;> exact ⟨rfl, rfl, rfl, rfl, rfl, rfl, rfl⟩
  next h =>
    refine ⟨rfl, rfl, rfl, rfl, rfl, rfl, ?_⟩
    revert h
    cases s.ce.hold <;> cases s.ce.calRun <;> decide

theorem monResume_now : s.monResume.now = s.now := by
  unfold monResume
  split
  · split <;> rfl
  · rfl

/-! ## The boundary (R304, R306) -/

/-- The next frame's number, before the writes that waited. -/
def frameCounted (s : State) : State := (s.incWrap K.CE_FRAME).modCe fun c => { c with snapDone := false, outDone := false }

variable {s}

theorem frameBoundary_runs (h : s.ceRuns = true) : s.frameBoundary = s.frameCounted.frameWrites.monResume.passBegins :=
  if_neg (by rw [h]; decide)

theorem frameBoundary_stopped (h : s.ceRuns = false) : s.frameBoundary = if s.clk.lsynRuns then s.frameCounted.frameWrites else s :=
  if_pos (by rw [h]; rfl)

/-- Where the frame's clock runs, what follows the writes moves nothing of theirs. -/
theorem frameBoundary_keeps (h : s.ceRuns = true ∨ s.clk.lsynRuns = true) : FrameKeeps s.frameCounted.frameWrites s.frameBoundary := by
  cases hrun : s.ceRuns with
  | true =>
    rw [frameBoundary_runs hrun]
    exact (monResume_keeps _).trans (passBegins_keeps _)
  | false =>
    rw [frameBoundary_stopped hrun, if_pos (by simpa [hrun] using h)]
    exact .refl _

/-- The writes that wait for the frame take effect, the others wait on. -/
theorem frameWrites_of {due stays : List Waiting} (hdue : (s.od.waiting.filter fun g => g.bound == .frame) = due)
    (hstays : (s.od.waiting.filter fun g => g.bound != .frame) = stays) :
    s.frameWrites = forAll due (fun g s => when_ g.grp (fun s => s.raise (Src.CE 15))
      (s.ceApplySet (g.writes.map fun w => (w.1, beNat w.2)))) (s.modOd fun o => { o with waiting := stays }) := by
  rw [← hdue, ← hstays]
  rfl

theorem frameWrites_none (h : ∀ g ∈ s.od.waiting, g.bound ≠ .frame) : s.frameWrites = s :=
  frameWrites_of (List.filter_eq_nil_iff.mpr fun g hg => by simpa using h g hg)
    (List.filter_eq_self.mpr fun g hg => by simpa using h g hg)

/-- One write is its own order. -/
theorem ceOrder_singleton (p : Key × Nat) : ceOrder [p] = [p] := by
  obtain ⟨⟨blk, off, sub⟩, v⟩ := p
  cases blk
  case loop j =>
    by_cases hint : off = 5
    · simp [ceOrder, hint]
    · by_cases hmode : off = 1 ∧ sub = 1
      · by_cases hv : v = 0 <;> simp [ceOrder, hmode, hv]
      · have hno : (off == 1 && sub == 1) = false := by simpa using hmode
        simp [ceOrder, hint, hno]
  all_goals simp [ceOrder]

theorem frameWrites_one {r : Fin 18} {e : Nat} {k : Key} {data : List Byte}
    (h : s.od.waiting = [{ req := r, epoch := e, bound := .frame, grp := false, writes := [(k, data)] }]) :
    s.frameWrites = (s.modOd fun o => { o with waiting := [] }).ceApply [k] k (beNat data) := by
  have hset : ∀ z : State, z.ceApplySet [(k, beNat data)] = z.ceApply [k] k (beNat data) := fun z => by
    rw [ceApplySet, ceOrder_singleton]
    rfl
  rw [frameWrites_of (due := s.od.waiting) (stays := []) (by rw [h]; rfl) (by rw [h]; rfl), h]
  exact hset _

end State
end Sys2Proof.Machine
end

section
/-!
SUPPORT. What a control entry's write does at the frame boundary (R306): modes of loops (R320 to R323), integrators, the RC memory, the
counters of the monitor, filter banks (R315), modes of aux pins (R329), the pads' release (R331).
-/

namespace Sys2Proof.Machine

namespace State

variable {s : State} (j : Fin 64)

/-! ## Modes of loops -/

theorem rd_setMode (s : State) (m : Nat) : (s.setMode j m).rd (K.LOOP_MODE j) = m % 2 ^ 8 := by
  have hbits : bitsOf (K.LOOP_MODE j) = 8 := rfl
  rw [setMode, rd_wrBit_ne _ _ _ (by simp), wrField, rd_wr_ne _ _ (by simp), rd_wr_self, hbits]

theorem rd_setMode_ne (s : State) (m : Nat) {k : Key} (hmode : k ≠ K.LOOP_MODE j) (hstate : k ≠ K.LOOP_STATE j) :
    (s.setMode j m).rd k = s.rd k := by
  rw [setMode, rd_wrBit_ne _ _ _ hstate, wrField, rd_wr_ne _ _ hstate, rd_wr_ne _ _ hmode]

variable {j} {v : Nat} {man int : Bool}

/-- A written mode stands, but in HOLD. -/
theorem rd_modeTo_mode (hv : v < 256) (hold : s.rd (K.LOOP_MODE j) ≠ 4) : (s.modeTo j v man int).rd (K.LOOP_MODE j) = v := by
  unfold modeTo
  dsimp only
  by_cases h : s.rd (K.LOOP_MODE j) = v
  · rw [if_pos h, h]
  · rw [if_neg h, if_neg hold, rd_setMode]
    exact Nat.mod_eq_of_lt hv

/-- A loop that leaves OFF takes the value of its destination. -/
theorem rd_modeTo_out (hoff : s.rd (K.LOOP_MODE j) = 0) (hv : v ≠ 0) {u : Nat} (hu : s.destValue j = some u) :
    (s.modeTo j v man int).rd (K.LOOP_OUT j) = u % 2 ^ 16 := by
  have hbits : bitsOf (K.LOOP_OUT j) = 16 := rfl
  unfold modeTo
  dsimp only
  rw [hoff, if_neg hv.symm, if_neg (by decide), hu, rd_setMode_ne _ _ _ (by simp) (by simp)]
  exact (rd_wr_self s _ u).trans (by rw [hbits])

/-! ## Filter banks (R315) -/

variable {e : Fin 64}

theorem rd_fadeDone (s : State) (e : Fin 64) {k : Key} (ha : k.area ≠ none) (hstate : k ≠ K.FILT_STATE e)
    (hdet : k ≠ K.DET_FILT_XFADE_DONE) : (s.fadeDone e).rd k = s.rd k := by
  rw [fadeDone, rd_raiseIn _ _ _ _ ha, if_neg hdet, rd_wrBit_ne _ _ _ hstate]
  rfl

theorem filtPreset_range : ∀ p < 4, ∀ i < 16, -32768 ≤ getI (filtPreset p) i ∧ getI (filtPreset p) i ≤ 32767 := by decide

theorem bitsOf_bank (e : Fin 64) {i : Nat} (hi : i < 16) : bitsOf (K.FILT_BANK_A e i) = 16 ∧ bitsOf (K.FILT_BANK_B e i) = 16 := by
  interval_cases i <;> exact ⟨rfl, rfl⟩

/-- A preset writes its coefficient of the bank that is in use. -/
def presetStep (e : Fin 64) (l : List Int) (i : Nat) (s : State) : State :=
  s.wrI (if s.filtActive e then K.FILT_BANK_A e i else K.FILT_BANK_B e i) (getI l i)

theorem rd_presetStep (e : Fin 64) (l : List Int) (i : Nat) (s : State) {k : Key} (hA : k ≠ K.FILT_BANK_A e i) (hB : k ≠ K.FILT_BANK_B e i) :
    (s.presetStep e l i).rd k = s.rd k := by
  refine rd_wr_ne s _ ?_
  split
  · exact hA
  · exact hB

theorem presets_od (e : Fin 64) (l : List Int) (is : List Nat) (s : State) : (forAll is (presetStep e l) s).od = s.od :=
  forAll_keep (f := presetStep e l) State.od (fun _ _ _ => rfl) s

/-- Every coefficient of the bank in use is the preset's. -/
theorem rdI_preset (s : State) (e : Fin 64) {p i : Nat} (hp : p < 4) (hi : i < 16) :
    (forAll (List.range 16) (presetStep e (filtPreset p)) s).rdI
      (if s.rd (K.FILT_ACTIVE e) = 1 then K.FILT_BANK_A e i else K.FILT_BANK_B e i) = getI (filtPreset p) i := by
  obtain ⟨l₁, l₂, -, hout, heq⟩ := exists_forAll_eq (List.mem_range.mpr hi) List.nodup_range (presetStep e (filtPreset p)) s
  obtain ⟨hlo, hhi⟩ := filtPreset_range p hp i hi
  obtain ⟨hbitsA, hbitsB⟩ := bitsOf_bank e hi
  have hactive : (forAll l₁ (presetStep e (filtPreset p)) s).filtActive e = decide (s.rd (K.FILT_ACTIVE e) = 1) := by
    have h : (forAll l₁ (presetStep e (filtPreset p)) s).rd (K.FILT_ACTIVE e) = s.rd (K.FILT_ACTIVE e) :=
      rd_forAll_of_keep (fun x z => rd_presetStep e _ x z (by simp) (by simp)) l₁ s
    rw [filtActive, h]
    rfl
  have hlater : ∀ z : State, ∀ k, k = K.FILT_BANK_A e i ∨ k = K.FILT_BANK_B e i →
      (forAll l₂ (presetStep e (filtPreset p)) z).rd k = z.rd k := by
    rintro z k hk
    refine forAll_keep (fun z => z.rd k) (fun x hx y => ?_) z
    have hne : i ≠ x := fun h => hout (h ▸ hx)
    rcases hk with rfl | rfl <;> exact rd_presetStep e _ x y (by simp [hne]) (by simp [hne])
  rw [heq]
  by_cases h : s.rd (K.FILT_ACTIVE e) = 1
  · rw [if_pos h, rdI_of_rd (hlater _ _ (.inl rfl)), presetStep, hactive, decide_eq_true h]
    exact rdI_wrI_of_16 _ hbitsA hlo hhi
  · rw [if_neg h, rdI_of_rd (hlater _ _ (.inr rfl)), presetStep, hactive, decide_eq_false h]
    exact rdI_wrI_of_16 _ hbitsB hlo hhi

/-! ## The dictionary (R388) -/

theorem fadeDone_od (s : State) : (s.fadeDone e).od = s.od := raise_od _ _

theorem clrAll_od (s : State) (ks : List Key) : (s.clrAll ks).od = s.od := by
  induction ks generalizing s with
  | nil => rfl
  | cons k ks ih => exact ih (s.clr k)

theorem urgentReq_od (s : State) (v : Nat) (fits : Bool) : (s.urgentReq v fits).od = s.od := by
  have hdrop : s.urgentDropped.od = s.od := raise_od _ _
  have hrestart : ∀ b : Bool, ((((if b then (s.incSat K.MON_ENTRY_RESTARTED).raise (Src.MON 4) else s).modCe fun c =>
      { c with urgent := some v }).sampleNow).od) = s.od := fun b => by
    cases b
    · rfl
    · exact raise_od (s.incSat K.MON_ENTRY_RESTARTED) (Src.MON 4)
  unfold urgentReq
  dsimp only
  split
  · rfl
  · split
    · exact hdrop
    · split
      · split
        · rfl
        · exact hdrop
      · split
        · split
          · exact hdrop
          · rfl
        · exact hrestart _

theorem modeTo_waiting (s : State) : (s.modeTo j v man int).od.waiting = s.od.waiting := by
  have hset : ∀ (z : State) (f : LoopS → LoopS), ((z.modLoop j f).setMode j v).od.waiting = z.od.waiting := fun _ _ => rfl
  have hleave : (s.leavePin j).od.waiting = s.od.waiting := by
    unfold leavePin
    dsimp only
    split
    · exact noteUnsaved_waiting _ _
    · rfl
  unfold modeTo
  dsimp only
  split
  · rfl
  · split
    · rfl
    · rw [hset]
      split
      · split <;> rfl
      · rfl
      · split <;> rfl
      · exact hleave
      · exact hleave
      · rfl

/-- What a write does at its boundary leaves the writes that wait alone. -/
theorem ceApply_waiting (s : State) (grp : List Key) (k : Key) (v : Nat) : (s.ceApply grp k v).od.waiting = s.od.waiting := by
  unfold ceApply
  rw [noteUnsaved_waiting]
  split
  · exact modeTo_waiting s
  · split <;> rfl
  · split <;> rfl
  · rfl
  · split <;> rfl
  · split <;> rfl
  · split
    · rfl
    · split
      · rw [fadeDone_od]
        rfl
      · rfl
  · exact congrArg OdS.waiting (presets_od _ (filtPreset v) (List.range 16) s)
  · split <;> rfl
  · split <;> rfl
  · rw [urgentReq_od]
  · split
    · unfold monCalTrigger
      split <;> rfl
    · rfl
  · split
    · rw [clrAll_od]
    · rfl
  · rfl

theorem noteUnsaved_ce (s : State) (k : Key) : (s.noteUnsaved k).ce = s.ce :=
  (noteUnsaved_touches (A := fun _ => false) k (Touches.refl _ s)).ce rfl

theorem destValue_of_rd {s t : State} (h : ∀ k : Key, k.blk ≠ .dev → t.rd k = s.rd k) (j : Fin 64) : t.destValue j = s.destValue j := by
  unfold destValue
  simp only [h (K.LOOP_OUTPUT j) (by simp), h (K.AUX_CODE _) (by simp), h (K.LOOP_SETPOINT _) (by simp)]

end State

/-- A number's bytes spell it. -/
theorem beNat_be (n v : Nat) : beNat (be n v) = v % 256 ^ n := by
  have hacc : ∀ n acc, (be n v).foldl (fun acc b => acc * 256 + b.toNat) acc = acc * 256 ^ n + v % 256 ^ n := by
    intro n
    induction n with
    | zero => simp [be, Nat.mod_one]
    | succ n ih =>
      intro acc
      have hbyte : (BitVec.ofNat 8 (v / 256 ^ n)).toNat = v / 256 ^ n % 256 := BitVec.toNat_ofNat _ _
      rw [be, List.foldl_cons, ih, hbyte, Nat.mod_pow_succ, Nat.pow_succ]
      ring
  simpa [beNat] using hacc n 0

/-! ## Boundaries without writes (R304, R484) -/

/-- A boundary of the running engine to which no write waited: the frame's number goes up, an ended calibration's hold ends, a pass starts
where none runs. -/
theorem frameBoundary_counts {s : State} (hrun : s.ceRuns = true) (hnone : ∀ g ∈ s.od.waiting, g.bound ≠ .frame) :
    s.frameBoundary.rd K.CE_FRAME = (s.rd K.CE_FRAME + 1) % 2 ^ 64 ∧ s.frameBoundary.ce.snapDone = false ∧
    s.frameBoundary.ce.hold = (s.ce.hold && s.ce.calRun) ∧ s.frameBoundary.od.waiting = s.od.waiting ∧
    (s.ce.pass = none → s.ce.calRun = false → s.ce.calPend = false → s.ce.urgent = none →
      s.frameBoundary.ce.pass = (if s.rd K.MON_SEQ_LEN = 0 then none else some 0) ∧
      s.frameBoundary.bit K.MON_STATUS 0 = decide (s.rd K.MON_SEQ_LEN ≠ 0) ∧ s.frameBoundary.ce.urgMode = s.rd K.MON_URGENT_MODE ∧
      s.frameBoundary.ce.passStart = s.now) ∧
    (s.ce.pass ≠ none ∨ s.ce.calRun = true ∨ s.ce.calPend = true ∨ s.ce.urgent ≠ none →
      s.frameBoundary.ce.pass = s.ce.pass ∧ s.frameBoundary.ce.seq = s.ce.seq) := by
  have hkeeps := State.frameBoundary_keeps (.inl hrun)
  have hwrites : s.frameCounted.frameWrites = s.frameCounted := State.frameWrites_none hnone
  have hrd : ∀ {k : Key}, k ∉ [K.CE_FRAME, K.CE_STATUS, K.MON_PASS_FRAMES, K.MON_STATUS] → s.frameCounted.monResume.rd k = s.rd k := by
    intro k hk
    rw [(State.monResume_keeps _).rd k fun h => hk (List.mem_cons_of_mem _ h)]
    exact State.rd_wr_ne s _ fun h => hk (by rw [h]; decide)
  obtain ⟨hpass, hseq, hcal, hpend, hurgent, hsnap, hhold⟩ := State.monResume_ce s.frameCounted
  have hnow : s.frameCounted.monResume.now = s.now := State.monResume_now _
  obtain ⟨hstart, hbit, hmode, htime, hsnap', hhold'⟩ := State.passStart_starts s.frameCounted.monResume
  rw [hwrites] at hkeeps
  have hframe : s.frameBoundary.rd K.CE_FRAME = (s.rd K.CE_FRAME + 1) % 2 ^ 64 := by
    rw [hkeeps.rd _ (by decide)]
    exact (State.rd_incWrap _ _ _).trans (if_pos rfl)
  have hod : s.frameBoundary.od.waiting = s.od.waiting := congrArg OdS.waiting hkeeps.od
  refine ⟨hframe, ?_, ?_, hod, fun h1 h2 h3 h4 => ?_, fun h => ?_⟩ <;> rw [State.frameBoundary_runs hrun, hwrites]
  · refine Eq.trans ?_ hsnap
    exact (apply_ite (fun z : State => z.ce.snapDone) _ _ _).trans (by rw [hsnap', ite_self])
  · refine Eq.trans ?_ hhold
    exact (apply_ite (fun z : State => z.ce.hold) _ _ _).trans (by rw [hhold', ite_self])
  · have hbegin : s.frameCounted.monResume.passBegins = s.frameCounted.monResume.passStart := by
      refine if_pos ?_
      rw [hpass, hcal, hpend, hurgent]
      simp [State.frameCounted, State.modCe, State.incWrap, State.wr, h1, h2, h3, h4]
    rw [hbegin, hstart, hbit, hmode, htime, hnow, hrd (by decide), hrd (by decide)]
    exact ⟨rfl, rfl, rfl, rfl⟩
  · have hnot : s.frameCounted.monResume.passBegins = s.frameCounted.monResume := by
      refine if_neg ?_
      rw [hpass, hcal, hpend, hurgent]
      rcases h with h | h | h | h <;> simp [State.frameCounted, State.modCe, State.incWrap, State.wr, h]
    rw [hnot]
    exact ⟨hpass, hseq⟩

/-- A boundary of the stopped engine to which no write waited: the frames are counted, and no pass starts. -/
theorem frameBoundary_idles {s : State} (hstop : s.ceRuns = false) (hclock : s.clk.lsynRuns = true)
    (hnone : ∀ g ∈ s.od.waiting, g.bound ≠ .frame) :
    s.frameBoundary.rd K.CE_FRAME = (s.rd K.CE_FRAME + 1) % 2 ^ 64 ∧
    s.frameBoundary.ce = { s.ce with snapDone := false, outDone := false } ∧ Changes [K.CE_FRAME] s s.frameBoundary := by
  have hwrites : s.frameCounted.frameWrites = s.frameCounted := State.frameWrites_none hnone
  rw [State.frameBoundary_stopped hstop, if_pos hclock, hwrites]
  exact ⟨(State.rd_incWrap _ _ _).trans (if_pos rfl), rfl, State.changes_wr s K.CE_FRAME _⟩

/-! ## The effect of one write (R306) -/

section

variable {s z t : State} {grp : List Key}

/-- A mode takes effect. -/
theorem loopMode_acts (hz : ∀ k : Key, k ≠ K.CE_FRAME → z.rd k = s.rd k) {j : Fin 64} {v : Nat} (hv : v ≤ 2) (hheld : s.rd (K.LOOP_MODE j) ≠ 4)
    (ht : FrameKeeps (z.ceApply grp (K.LOOP_MODE j) v) t) :
    t.rd (K.LOOP_MODE j) = v ∧ (s.rd (K.LOOP_MODE j) = 0 → v ≠ 0 → ∀ u, s.destValue j = some u → t.rd (K.LOOP_OUT j) = u % 2 ^ 16) := by
  have hmode : z.rd (K.LOOP_MODE j) = s.rd (K.LOOP_MODE j) := hz _ (by simp)
  have hacts : z.ceApply grp (K.LOOP_MODE j) v = (z.modeTo j v (grp.contains (K.LOOP_MAN_VALUE j))
    (grp.contains (K.LOOP_INTEGRATOR j))).noteUnsaved (K.LOOP_MODE j) := rfl
  rw [hacts] at ht
  refine ⟨?_, fun hoff hv0 u hu => ?_⟩
  · rw [ht.rd _ (by simp), State.rd_noteUnsaved, State.rd_modeTo_mode (by omega) (by rwa [hmode])]
  · have hdest : z.destValue j = some u :=
      (State.destValue_of_rd (fun k hk => hz k fun h => hk (by rw [h])) j).trans hu
    rw [ht.rd _ (by simp), State.rd_noteUnsaved, State.rd_modeTo_out (hmode.trans hoff) hv0 hdest]

/-- An integrator is preset. -/
theorem loopIntegrator_acts {j : Fin 64} {v : Nat} (hv : v < 2 ^ 64) (ht : FrameKeeps (z.ceApply grp (K.LOOP_INTEGRATOR j) v) t) :
    t.rd (K.LOOP_INTEGRATOR j) = v ∧ (t.loop j).preset = false := by
  have hbits : bitsOf (K.LOOP_INTEGRATOR j) = 64 := rfl
  have hacts : z.ceApply grp (K.LOOP_INTEGRATOR j) v =
    ((z.wr (K.LOOP_INTEGRATOR j) v).modLoop j fun l => { l with preset := false }).noteUnsaved (K.LOOP_INTEGRATOR j) := rfl
  rw [hacts] at ht
  refine ⟨?_, ?_⟩
  · rw [ht.rd _ (by simp), State.rd_noteUnsaved]
    exact (State.rd_wr_self z _ v).trans (by rw [hbits, Nat.mod_eq_of_lt hv])
  · rw [State.loop, ht.loops, State.noteUnsaved_ce]
    exact (congrArg LoopS.preset (State.loop_modLoop _ _ _ _)).trans (by rw [if_pos rfl])

/-- The RC memory is zeroed. -/
theorem rcClear_acts {j : Fin 64} (ht : FrameKeeps (z.ceApply grp (K.RC_CLEAR j) 1) t) :
    t.rd (K.RC_MEM j) = 0 ∧ t.rd (K.LOOP_RC_INDEX j) = 0 := by
  have hacts : z.ceApply grp (K.RC_CLEAR j) 1 = (z.rcZero j).noteUnsaved (K.RC_CLEAR j) := rfl
  rw [hacts] at ht
  refine ⟨?_, ?_⟩
  · rw [ht.rd _ (by simp), State.rd_noteUnsaved, State.rcZero, State.rd_wr_ne _ _ (by simp), State.rd_wr_self, Nat.zero_mod]
  · rw [ht.rd _ (by simp), State.rd_noteUnsaved, State.rcZero, State.rd_wr_self, Nat.zero_mod]

/-- The monitor's counters return to their reset values. -/
theorem monCntClear_acts (ht : FrameKeeps (z.ceApply grp K.MON_CNT_CLEAR 1) t) {i : Nat} (hlo : 1 ≤ i) (hhi : i ≤ 7) :
    t.rd ⟨.dev, 0x7004, i⟩ = resetOf ⟨.dev, 0x7004, i⟩ := by
  have hacts : z.ceApply grp K.MON_CNT_CLEAR 1 =
    (z.clrAll ((List.range 7).map fun i => ⟨.dev, 0x7004, i + 1⟩)).noteUnsaved K.MON_CNT_CLEAR := rfl
  have hmem : (⟨.dev, 0x7004, i⟩ : Key) ∈ (List.range 7).map fun i => (⟨.dev, 0x7004, i + 1⟩ : Key) :=
    List.mem_map.mpr ⟨i - 1, List.mem_range.mpr (by omega), by rw [Nat.sub_add_cancel hlo]⟩
  rw [hacts] at ht
  rw [ht.rd _ (by simp), State.rd_noteUnsaved, State.rd_clrAll, if_pos hmem]

/-- A pin's mode changes in steps. -/
theorem auxMode_acts (hz : ∀ k : Key, k ≠ K.CE_FRAME → z.rd k = s.rd k) {a : Fin 48} {v : Nat} (hv : v < 256)
    (hnew : v ≠ s.rd (K.AUX_MODE a)) (ht : FrameKeeps (z.ceApply grp (K.AUX_MODE a) v) t) :
    t.rd (K.AUX_MODE a) = v ∧ (t.ce.auxs.get a).step = 2 := by
  have hbits : bitsOf (K.AUX_MODE a) = 8 := rfl
  have hacts : z.ceApply grp (K.AUX_MODE a) v = (if v = z.rd (K.AUX_MODE a) then z
    else (z.wr (K.AUX_MODE a) v).modAux a fun x => { x with step := 2 }).noteUnsaved (K.AUX_MODE a) := rfl
  rw [hacts, hz _ (by simp), if_neg hnew] at ht
  refine ⟨?_, ?_⟩
  · rw [ht.rd _ (by simp), State.rd_noteUnsaved]
    exact (State.rd_wr_self z _ v).trans (by rw [hbits]; exact Nat.mod_eq_of_lt hv)
  · rw [ht.auxs, State.noteUnsaved_ce]
    exact (congrArg AuxS.step (State.aux_modAux _ _ _ _)).trans (by rw [if_pos rfl])

/-- The pads' release is noted. -/
theorem padRelease_acts (ht : FrameKeeps (z.ceApply grp K.CE_PAD_RELEASE 1) t) : t.ce.release = true := by
  have hacts : z.ceApply grp K.CE_PAD_RELEASE 1 = (z.modCe fun c => { c with release := true }).noteUnsaved K.CE_PAD_RELEASE := rfl
  rw [hacts] at ht
  rw [ht.release, State.noteUnsaved_ce]
  rfl

/-- A preset fills the bank in use. -/
theorem filtPreset_acts (hz : ∀ k : Key, k ≠ K.CE_FRAME → z.rd k = s.rd k) {f : Fin 64} {v i : Nat} (hv : v ≤ 3) (hi : i < 16)
    (ht : FrameKeeps (z.ceApply grp (K.FILT_PRESET f) v) t) :
    t.rdI (if s.rd (K.FILT_ACTIVE f) = 1 then K.FILT_BANK_A f i else K.FILT_BANK_B f i) = getI (filtPreset v) i := by
  have hacts : z.ceApply grp (K.FILT_PRESET f) v =
    (forAll (List.range 16) (State.presetStep f (filtPreset v)) z).noteUnsaved (K.FILT_PRESET f) := rfl
  rw [hacts] at ht
  rw [← hz (K.FILT_ACTIVE f) (by simp), ← State.rdI_preset z f (by omega : v < 4) hi]
  refine State.rdI_of_rd ((ht.rd _ ?_).trans (State.rd_noteUnsaved _ _ _))
  split <;> simp

/-- A swap switches the bank of a settle chain at once, and waits in a FIR chain. -/
theorem filtSwap_acts (hz : ∀ k : Key, k ≠ K.CE_FRAME → z.rd k = s.rd k) {f : Fin 64} (ht : FrameKeeps (z.ceApply grp (K.FILT_SWAP f) 1) t) :
    (s.rd (K.FILT_MODE f) = 1 → t.rd (K.FILT_ACTIVE f) = 1 - s.rd (K.FILT_ACTIVE f) ∧ Raised t (Src.MON 8)) ∧
    (s.rd (K.FILT_MODE f) ≠ 1 → (t.chain f).swap = true) := by
  have hacts : z.ceApply grp (K.FILT_SWAP f) 1 = (if z.rd (K.FILT_MODE f) = 1 then
    (z.wr (K.FILT_ACTIVE f) (1 - z.rd (K.FILT_ACTIVE f))).fadeDone f else z.modChain f fun c => { c with swap := true }).noteUnsaved
      (K.FILT_SWAP f) := rfl
  rw [hacts, hz _ (by simp), hz _ (by simp)] at ht
  refine ⟨fun hsettle => ?_, fun hfir => ?_⟩
  · rw [if_pos hsettle] at ht
    have hbits : bitsOf (K.FILT_ACTIVE f) = 8 := rfl
    refine ⟨?_, ?_⟩
    · rw [ht.rd _ (by simp), State.rd_noteUnsaved, State.rd_fadeDone _ _ (by simp) (by simp) (by simp), State.rd_wr_self, hbits]
      exact Nat.mod_eq_of_lt (by omega)
    · refine State.raised_of_rd ((ht.rd _ (by decide)).trans (State.rd_noteUnsaved _ _ _)) ?_
      exact State.raised_raiseIn _ _ _ (by decide)
  · rw [if_neg hfir] at ht
    rw [ht.swap, State.chain, State.noteUnsaved_ce]
    exact (congrArg ChainS.swap (State.chain_modChain z f _ f)).trans (by rw [if_pos rfl])

end

/-- Settles O38, by the rest of the boundary and what each write does before it. -/
theorem controlFrameWrites : Obligations.ControlFrameWrites := by
  unfold Obligations.ControlFrameWrites
  refine ⟨?_, fun s hrun hnone => ⟨_, exec_controlFrameBoundary s, frameBoundary_counts hrun hnone⟩,
    fun s hstop hclock hnone => ⟨_, exec_controlFrameBoundary s, frameBoundary_idles hstop hclock hnone⟩,
    fun s hstop hclock => ⟨_, exec_controlFrameBoundary s, ?_⟩, fun s r e k data hclock hwait => ⟨_, exec_controlFrameBoundary s, ?_⟩⟩
  · intro s r v w e j a c k data hc h
    rcases hc with ⟨rfl, rfl, rfl⟩ | ⟨rfl, rfl, rfl⟩ | ⟨rfl, rfl, rfl⟩ | ⟨rfl, rfl, rfl⟩ | ⟨rfl, rfl, rfl⟩ | ⟨rfl, rfl, rfl⟩ |
      ⟨rfl, rfl, rfl⟩ | ⟨rfl, rfl, rfl⟩
    · exact ceWrite_waits (exec_monCntClear s r v) h
    · exact ceWrite_waits (exec_filtPreset s r e v) h
    · exact ceWrite_waits (exec_filtSwap s r e v) h
    · exact ceWrite_waits (exec_loopModeWrite s r j v) h
    · exact ceWrite_waits (exec_loopIntegratorWrite s r j w) h
    · exact ceWrite_waits (exec_rcClear s r j v) h
    · exact ceWrite_waits (exec_auxModeWrite s r a v) h
    · exact ceWrite_waits (exec_cePadRelease s r v) h
  · rw [State.frameBoundary_stopped hstop, hclock]
    rfl
  · have ht := State.frameBoundary_keeps hclock
    rw [State.frameWrites_one (s := s.frameCounted) hwait] at ht
    have hz : ∀ k : Key, k ≠ K.CE_FRAME → (s.frameCounted.modOd fun o => { o with waiting := [] }).rd k = s.rd k :=
      fun k hk => State.rd_wr_ne s _ hk
    have hwaiting : (s.frameCounted.modOd fun o => { o with waiting := [] }).od.waiting = [] := rfl
    generalize s.frameCounted.modOd (fun o => { o with waiting := [] }) = z at ht hz hwaiting
    refine ⟨?_, ?_, ?_, ?_, ?_, ?_, ?_, ?_, ?_⟩
    · rw [ht.od, State.ceApply_waiting, hwaiting]
    · rintro j v rfl rfl hv hheld
      rw [beNat_be_one] at ht
      exact loopMode_acts hz hv hheld ht
    · rintro j v rfl rfl
      rw [beNat_be, Nat.mod_eq_of_lt (show v.toNat < 256 ^ 8 from v.isLt)] at ht
      exact loopIntegrator_acts v.isLt ht
    · rintro j rfl rfl
      exact rcClear_acts ht
    · rintro rfl rfl i hlo hhi
      exact monCntClear_acts ht hlo hhi
    · rintro f rfl rfl
      exact filtSwap_acts hz ht
    · rintro f v i rfl rfl hv hi
      rw [beNat_be_one] at ht
      exact filtPreset_acts hz hv hi ht
    · rintro a v rfl rfl hnew
      rw [beNat_be_one] at ht
      exact auxMode_acts hz v.isLt hnew ht
    · rintro rfl rfl
      exact padRelease_acts ht

end Sys2Proof.Machine
end

section
/-!
SUPPORT. Cycle 923 (R304, R318 to R325): what the work of one loop may move, and that it leaves what the others read.
-/

namespace Sys2Proof.Machine

/-- The entries that a loop's work at cycle 923 may move: its own but the output that cycle 960 writes, and the detail registers. -/
def loopInner (j : Fin 64) (k : Key) : Prop := k.blk = .loop j ∧ k ≠ K.LOOP_OUT j ∨ k.blk = .dev ∧ k.off = 0x6001

/-- The work of a loop at cycle 923. -/
def LoopStep (j : Fin 64) : State → State → Prop := CeKeeps (loopInner j) (· = .loop j)

namespace LoopStep

variable {j : Fin 64} {a s : State}

theorem refl (s : State) : LoopStep j s s := CeKeeps.refl _ _ s

theorem ite {u : State} (c : Prop) [Decidable c] (h1 : LoopStep j a s) (h2 : LoopStep j a u) : LoopStep j a (if c then s else u) :=
  CeKeeps.ite c h1 h2

theorem trans {u : State} (h1 : LoopStep j a s) (h2 : LoopStep j s u) : LoopStep j a u := CeKeeps.trans h1 h2

theorem wr (h : LoopStep j a s) {o x : Nat} (v : Nat) (hne : (o, x) ≠ (0x05, 0x02) := by decide) : LoopStep j a (s.wr ⟨.loop j, o, x⟩ v) :=
  CeKeeps.wr h v (.inl ⟨rfl, fun hk => hne (by cases hk; rfl)⟩) (by simp)

theorem raise (h : LoopStep j a s) (y : Src) : LoopStep j a (s.raise y) := CeKeeps.raise h y

theorem raiseIn (h : LoopStep j a s) (y : Src) (x b : Nat) : LoopStep j a (s.raiseIn y ⟨.dev, 0x6001, x⟩ b) :=
  CeKeeps.raiseIn h y b (.inr ⟨rfl, rfl⟩) (by simp [devArea])

theorem modLoop (h : LoopStep j a s) (f : LoopS → LoopS) : LoopStep j a (s.modLoop j f) := CeKeeps.modLoop h f rfl

end LoopStep

namespace State

variable (s : State) (j : Fin 64)

theorem rcAdvance_step : LoopStep j s (s.rcAdvance j) := .ite _ (.refl s) (.wr (.refl s) _)

theorem rcSet_step (i : Nat) (v : Int) : LoopStep j s (s.rcSet j i v) := .wr (.refl s) _

theorem rcUpdate_step (e1 : Int) : LoopStep j s (s.rcUpdate j e1) := .ite _ (.refl s) (rcSet_step s j _ _)

theorem rcRms_step (e1 : Int) : LoopStep j s (s.rcRms j e1) := by
  refine .ite _ (.refl s) ?_
  exact .ite _ (((LoopStep.wr (.refl s) _).modLoop _).modLoop _ |>.raise _) ((LoopStep.wr (.refl s) _).modLoop _)

theorem setMode_step (m : Nat) : LoopStep j s (s.setMode j m) := ((LoopStep.wr (.refl s) _).wr _).wr _

/-- The locks that SAFE takes are neither entries of the engine nor records of its. -/
theorem ceSafeTake_keeps : s.ceSafeTake.ce = s.ce ∧ ∀ k, s.ceSafeTake.rd k = s.rd k := by
  have htake : ∀ (k : Fin 32) (z : State), ∃ f, (if z.bit K.LK_CE_SAFE k.val then z.takeLock k 19 else z) = z.modMgmt f := by
    intro k z
    split
    · unfold takeLock
      split
      · exact ⟨_, rfl⟩
      · exact ⟨id, rfl⟩
    · exact ⟨id, rfl⟩
  refine ⟨forAll_keep State.ce (fun k _ z => ?_) s, fun x => forAll_keep (fun z => z.rd x) (fun k _ z => ?_) s⟩ <;>
    obtain ⟨f, hf⟩ := htake k z
  · exact (congrArg State.ce hf).trans rfl
  · exact (congrArg (State.rd · x) hf).trans rfl

theorem ceSafeTake_step : LoopStep j s s.ceSafeTake := by
  obtain ⟨hce, hrd⟩ := ceSafeTake_keeps s
  refine ⟨fun k _ _ => hrd k, fun _ _ => ?_, fun _ _ => ?_, fun _ _ => ?_, ?_, fun _ _ h => raised_of_rd (hrd _) h⟩
  · rw [chain, chain, hce]
  · rw [loop, loop, hce]
  · rw [hce]
  · rw [hce]

theorem toSafe_step (fault : Bool) : LoopStep j s (s.toSafe j fault) := by
  have hwhen : ∀ (c : Bool) (f : State → State) (z : State), LoopStep j s z → LoopStep j s (f z) → LoopStep j s (when_ c f z) :=
    fun c f z h1 h2 => LoopStep.ite _ h2 h1
  have hsafe : ∀ f, LoopStep j s (((s.modLoop j f).setMode j 3).ceSafeTake) := fun f =>
    ((LoopStep.modLoop (.refl s) f).trans (setMode_step _ j 3)).trans (ceSafeTake_step _ j)
  unfold toSafe
  have hraise : ∀ f, LoopStep j s (((when_ fault (fun s => s.raiseIn (Src.CE 0) K.DET_LOOP_FAULT j.val)
      (((s.modLoop j f).setMode j 3).ceSafeTake)).raiseIn (Src.CE 1) K.DET_LOOP_SAFE j.val).raiseIn (Src.CE 5) K.DET_LOOP_MODE_CHG j.val) :=
    fun f => ((hwhen _ _ _ (hsafe f) ((hsafe f).raiseIn _ _ _)).raiseIn _ _ _).raiseIn _ _ _
  exact hwhen _ _ _ (hraise _) ((hraise _).raise _)

theorem manualStep_step : LoopStep j s (s.manualStep j) := by
  unfold manualStep
  exact .modLoop (.refl s) _

theorem limitStep_step (u : Nat) : LoopStep j s (s.limitStep j u) := by
  refine .ite _ ?_ (.wr (.modLoop (.refl s) _) _)
  exact .ite _ ((LoopStep.wr (.modLoop (.refl s) _) _).raiseIn _ _ _) (.modLoop (.refl s) _)

theorem regionStep_step (e1 : Option Int) : LoopStep j s (s.regionStep j e1) := by
  unfold regionStep
  dsimp only
  refine .ite _ (.refl s) ?_
  cases e1 with
  | none => exact .raiseIn (.wr (.refl s) _) _ _ _
  | some e => exact .wr (.raiseIn (.wr (.refl s) _) _ _ _) _

theorem autoStep_step (y : Nat) (hold : Bool) : LoopStep j s (s.autoStep j y hold) := by
  unfold autoStep
  dsimp only
  refine .ite _ (.trans ?_ (limitStep_step _ j _)) (.trans ?_ (limitStep_step _ j _))
  · refine .trans (.trans ?_ (rcRms_step _ j _)) (rcAdvance_step _ j)
    exact .wr (.modLoop (.wr (regionStep_step s j _) _) _) _
  · refine .trans (.trans (.trans ?_ (rcUpdate_step _ j _)) (rcRms_step _ j _)) (rcAdvance_step _ j)
    exact .wr (.modLoop (.wr (regionStep_step s j _) _) _) _

theorem staleStep_step (m : Nat) (hold : Bool) : LoopStep j s (s.staleStep j m hold) := by
  have hstale : LoopStep j s ((((s.wrBit (K.LOOP_STATE j) 4 true).incSat (K.LOOP_STALE j)).modLoop j fun l =>
      { l with staleRun := l.staleRun + 1 }).rcAdvance j) :=
    .trans (.modLoop (.wr (.wr (.refl s) _) _) _) (rcAdvance_step _ j)
  have htold : ∀ (c : Prop) [Decidable c] (z : State), LoopStep j s z →
      LoopStep j s (if c then z.raiseIn (Src.CE 3) K.DET_LOOP_STALE j.val else z) := fun c _ z hz => .ite c (.raiseIn hz _ _ _) hz
  unfold staleStep
  dsimp only
  refine .ite _ (.trans (htold _ _ hstale) (limitStep_step _ j _)) (.ite _ ?_ ?_)
  · exact .trans (.trans (htold _ _ hstale) (manualStep_step _ j)) (limitStep_step _ j _)
  · exact .trans (.modLoop (htold _ _ hstale) _) (limitStep_step _ j _)

theorem faultStep_step (y : Nat) : LoopStep j s (s.faultStep j y).1 := by
  have hrun : ∀ f b, LoopStep j s ((s.modLoop j f).wrBit (K.LOOP_STATE j) 3 b) := fun f b => .wr (.modLoop (.refl s) f) _
  unfold faultStep
  dsimp only
  split
  · exact .refl s
  · split
    · exact hrun _ _
    · split
      · exact .trans (.trans (hrun _ _) (toSafe_step _ j _)) (rcAdvance_step _ j)
      · exact hrun _ _

theorem loopExec_step (fresh : Bool) : LoopStep j s (s.loopExec j fresh) := by
  have hcount : LoopStep j s (s.incWrap (K.LOOP_EXEC j)) := .wr (.refl s) _
  have hfault : ∀ f y, LoopStep j s ((((s.incWrap (K.LOOP_EXEC j)).wrBit (K.LOOP_STATE j) 4 false).modLoop j f).faultStep j y).1 :=
    fun f y => .trans (.modLoop (.wr hcount _) f) (faultStep_step _ j y)
  have hregion : ∀ f y, LoopStep j s ((((((s.incWrap (K.LOOP_EXEC j)).wrBit (K.LOOP_STATE j) 4 false).modLoop j f).faultStep j
      y).1.regionStep j none).rcAdvance j) := fun f y => .trans (.trans (hfault f y) (regionStep_step _ j _)) (rcAdvance_step _ j)
  unfold loopExec
  dsimp only
  refine .ite _ (rcAdvance_step s j) (.ite _ (.trans hcount (staleStep_step _ j _ _)) (.ite _ (hfault _ _) (.ite _ ?_ (.ite _ ?_ ?_))))
  · exact .trans (hfault _ _) (autoStep_step _ j _ _)
  · exact .trans (hregion _ _) (limitStep_step _ j _)
  · exact .trans (.trans (hregion _ _) (manualStep_step _ j)) (limitStep_step _ j _)

/-- A loop at cycle 923 moves its own alone. -/
theorem loopAt_step : LoopStep j s (s.loopAt j) := by
  have hdue : ∀ f, LoopStep j s (s.modLoop j f) := fun f => .modLoop (.refl s) f
  refine .ite _ (.ite _ (manualStep_step s j) (.refl s)) (.ite _ (hdue _) (.ite _ ?_ ?_))
  · exact .trans (hdue _) (rcAdvance_step _ j)
  · exact .trans (hdue _) (loopExec_step _ j _)

end State

end Sys2Proof.Machine
end

section
/-!
SUPPORT. The snapshot of a frame (R304, R318, R319): what one loop finds in it, and an execution in AUTO.
-/

namespace Sys2Proof.Machine

/-! ## Inputs (R330) -/

/-- The entries of the GPIOs, and the detail registers of the engine's group. -/
def gpioEntry (k : Key) : Prop := (∃ g, k.blk = .og g) ∨ k.blk = .dev ∧ k.off = 0x6001

namespace State

/-- A GPIO's level is taken. -/
def ogTake (levels : Nat) (g : Fin 16) (s : State) : State :=
  if s.on (K.OG_IN g) == levels.testBit g.val then s
  else if s.on (K.OG_IN_IRQ g) then
    (s.wr (K.OG_IN g) (levels.testBit g.val).toNat).raiseIn (Src.CE 10) K.DET_OG g.val
  else s.wr (K.OG_IN g) (levels.testBit g.val).toNat

variable (s : State) (levels : Nat)

theorem ogSample_eq : s.ogSample levels = forAll (allFin 16) (ogTake levels) s := rfl

theorem ogTake_keeps (g : Fin 16) : CeKeeps gpioEntry (fun _ => False) s (ogTake levels g s) := by
  have hwr : CeKeeps gpioEntry (fun _ => False) s (s.wr (K.OG_IN g) (levels.testBit g.val).toNat) :=
    (CeKeeps.refl _ _ s).wr _ (.inl ⟨g, rfl⟩) (by simp)
  exact .ite _ (.refl _ _ s) (.ite _ (hwr.raiseIn _ _ (.inr ⟨rfl, rfl⟩) (by decide)) hwr)

theorem ogSample_keeps : CeKeeps gpioEntry (fun _ => False) s (s.ogSample levels) := by
  rw [ogSample_eq]
  exact (CeKeeps.forAll (E := fun _ => gpioEntry) (B := fun _ _ => False) (fun g z => ogTake_keeps z levels g) (allFin 16) s).mono
    (fun _ ⟨_, _, h⟩ => h) (fun _ ⟨_, _, h⟩ => h)

theorem on_ogTake (g : Fin 16) : (ogTake levels g s).on (K.OG_IN g) = levels.testBit g.val := by
  have hwr : (s.wr (K.OG_IN g) (levels.testBit g.val).toNat).rd (K.OG_IN g) = (levels.testBit g.val).toNat := by
    rw [rd_wr_self]
    cases levels.testBit g.val <;> rfl
  unfold ogTake
  split
  next h => exact beq_iff_eq.mp h
  · have hrd : ∀ z : State, z.rd (K.OG_IN g) = (levels.testBit g.val).toNat → z.on (K.OG_IN g) = levels.testBit g.val := by
      intro z hz
      rw [on, hz]
      cases levels.testBit g.val <;> rfl
    split
    · exact hrd _ ((rd_raiseIn _ _ _ _ (by simp)).trans ((if_neg (by simp)).trans hwr))
    · exact hrd _ hwr

theorem on_ogTake_ne {g h : Fin 16} (hne : h ≠ g) : (ogTake levels h s).on (K.OG_IN g) = s.on (K.OG_IN g) := by
  have hwr : (s.wr (K.OG_IN h) (levels.testBit h.val).toNat).rd (K.OG_IN g) = s.rd (K.OG_IN g) := rd_wr_ne s _ (by simp [hne.symm])
  have hrd : (ogTake levels h s).rd (K.OG_IN g) = s.rd (K.OG_IN g) := by
    unfold ogTake
    split
    · rfl
    · split
      · exact (rd_raiseIn _ _ _ _ (by simp)).trans ((if_neg (by simp)).trans hwr)
      · exact hwr
  rw [on, on, hrd]

/-- The inputs are taken. -/
theorem on_ogSample (g : Fin 16) : (s.ogSample levels).on (K.OG_IN g) = levels.testBit g.val := by
  obtain ⟨l₁, l₂, -, hout, heq⟩ := exists_forAll_eq (List.mem_finRange g) (List.nodup_finRange 16) (ogTake levels) s
  rw [ogSample_eq, allFin, heq]
  refine (forAll_keep (fun z : State => z.on (K.OG_IN g)) (fun h hh z => on_ogTake_ne z levels fun e => hout (e ▸ hh)) _).trans ?_
  exact on_ogTake _ levels g

/-! ## Loops -/

end State

/-- What the inputs and the loops other than `j` may move. -/
def othersEntry (j : Fin 64) (k : Key) : Prop := gpioEntry k ∨ ∃ i, i ≠ j ∧ loopInner i k

/-- A change by the inputs and by the other loops. -/
def OthersStep (j : Fin 64) : State → State → Prop := CeKeeps (othersEntry j) fun b => ∃ i, i ≠ j ∧ b = .loop i

namespace OthersStep

variable {j : Fin 64} {s z : State}

theorem forAll (l : List (Fin 64)) (hl : j ∉ l) (s : State) : OthersStep j s (forAll l (fun i z => z.loopAt i) s) :=
  (CeKeeps.forAll (fun i z => State.loopAt_step z i) l s).mono
    (fun _ ⟨i, hi, h⟩ => .inr ⟨i, fun e => hl (e ▸ hi), h⟩) (fun _ ⟨i, hi, h⟩ => ⟨i, fun e => hl (e ▸ hi), h⟩)

/-- What `j` reads stands: its own entries, the chains and the outputs of loops, the frame's number. -/
theorem rd_own (h : OthersStep j s z) {o x : Nat} : z.rd ⟨.loop j, o, x⟩ = s.rd ⟨.loop j, o, x⟩ := by
  refine h.rd _ (by simp) ?_
  rintro ((⟨g, hg⟩ | ⟨hd, -⟩) | ⟨i, hi, ⟨hb, -⟩ | ⟨hb, -⟩⟩)
  · cases hg
  · cases hd
  · cases hb
    exact hi rfl
  · cases hb

theorem loop_own (h : OthersStep j s z) : z.loop j = s.loop j := h.loop j fun ⟨_, hi, he⟩ => hi (by cases he; rfl)

theorem rd_out (h : OthersStep j s z) (i : Fin 64) : z.rd (K.LOOP_OUT i) = s.rd (K.LOOP_OUT i) := by
  refine h.rd _ (by simp) ?_
  rintro ((⟨g, hg⟩ | ⟨hd, -⟩) | ⟨x, hx, ⟨hb, hne⟩ | ⟨hb, -⟩⟩)
  · cases hg
  · cases hd
  · cases hb
    exact hne rfl
  · cases hb

theorem rd_chain (h : OthersStep j s z) (e : Fin 64) {o x : Nat} : z.rd ⟨.chain e, o, x⟩ = s.rd ⟨.chain e, o, x⟩ := by
  refine h.rd _ (by simp) ?_
  rintro ((⟨g, hg⟩ | ⟨hd, -⟩) | ⟨x, hx, ⟨hb, -⟩ | ⟨hb, -⟩⟩)
  · cases hg
  · cases hd
  · cases hb
  · cases hb

theorem rd_dev (h : OthersStep j s z) {o x : Nat} (ho : o ≠ 0x6001) (ha : (⟨.dev, o, x⟩ : Key).area ≠ none) :
    z.rd ⟨.dev, o, x⟩ = s.rd ⟨.dev, o, x⟩ := by
  refine h.rd _ ha ?_
  rintro ((⟨g, hg⟩ | ⟨-, hd⟩) | ⟨x, hx, ⟨hb, -⟩ | ⟨-, hd⟩⟩)
  · cases hg
  · exact ho hd
  · cases hb
  · exact ho hd

end OthersStep
end Sys2Proof.Machine
end

section
/-!
SUPPORT. The snapshot seen from one loop (R304, R318), its executions in AUTO (R319), and its movement in MANUAL.
-/

namespace Sys2Proof.Machine

namespace OthersStep

variable {j : Fin 64} {s z : State}

theorem srcValue (h : OthersStep j s z) (x : Nat) : z.srcValue x = s.srcValue x := by
  have htemp : z.rdI (K.TEMP_T (x - 64)) = s.rdI (K.TEMP_T (x - 64)) :=
    State.rdI_of_rd (h.rd_dev (by decide) (by simp [devArea]))
  unfold State.srcValue
  simp only [h.rd_chain, h.rd_out, htemp]

theorem srcNew (h : OthersStep j s z) (x cur : Nat) (prev : Option Nat) : z.srcNew x cur prev = s.srcNew x cur prev := by
  have hchain : ∀ e, z.chain e = s.chain e := fun e => h.chain e fun ⟨_, _, he⟩ => by cases he
  unfold State.srcNew
  simp only [hchain, h.tempNew]

theorem rd_frame (h : OthersStep j s z) : z.rd K.CE_FRAME = s.rd K.CE_FRAME := h.rd_dev (by decide) (by decide)

end OthersStep

/-- The snapshot seen from one loop: the others before it and after it. -/
theorem loopSnapshot_at {s : State} (levels : Nat) (j : Fin 64) (hrun : s.ceRuns = true) (hsnap : s.ce.snapDone = false) :
    ∃ z t, OthersStep j s z ∧ OthersStep j (z.loopAt j) t ∧
      s.loopSnapshot levels = t.modCe fun c => { c with snapDone := true } := by
  obtain ⟨l₁, l₂, hbefore, hafter, heq⟩ := exists_forAll_eq (List.mem_finRange j) (List.nodup_finRange 64)
    (fun i z => State.loopAt z i) (s.ogSample levels)
  have hinputs : OthersStep j s (s.ogSample levels) := (State.ogSample_keeps s levels).mono (fun _ h => .inl h) (fun _ h => h.elim)
  refine ⟨_, _, hinputs.trans (OthersStep.forAll l₁ hbefore _), OthersStep.forAll l₂ hafter _, ?_⟩
  unfold State.loopSnapshot
  rw [if_neg (by rw [hsnap]; decide), if_neg (by rw [hrun]; decide), allFin, heq]

/-- The snapshot of the running engine takes the inputs, and is noted. -/
theorem loopSnapshot_takes {s : State} (levels : Nat) (hrun : s.ceRuns = true) (hsnap : s.ce.snapDone = false) :
    (s.loopSnapshot levels).ce.snapDone = true ∧ (s.loopSnapshot levels).rd K.CE_FRAME = s.rd K.CE_FRAME ∧
    ∀ g : Fin 16, (s.loopSnapshot levels).on (K.OG_IN g) = levels.testBit g.val := by
  have hloops := CeKeeps.forAll (fun i z => State.loopAt_step z i) (allFin 64) (s.ogSample levels)
  have heq : s.loopSnapshot levels = (forAll (allFin 64) (fun j z => z.loopAt j) (s.ogSample levels)).modCe fun c =>
      { c with snapDone := true } := by
    unfold State.loopSnapshot
    rw [if_neg (by rw [hsnap]; decide), if_neg (by rw [hrun]; decide)]
  rw [heq]
  refine ⟨rfl, ?_, fun g => ?_⟩
  · rw [State.modCe_rd, hloops.rd _ (by decide) (by rintro ⟨i, -, ⟨h, -⟩ | ⟨-, h⟩⟩ <;> cases h),
      (State.ogSample_keeps s levels).rd _ (by decide) (by rintro (⟨g, h⟩ | ⟨-, h⟩) <;> cases h)]
  · have hin : (forAll (allFin 64) (fun j z => z.loopAt j) (s.ogSample levels)).rd (K.OG_IN g) = (s.ogSample levels).rd (K.OG_IN g) :=
      hloops.rd _ (by simp) (by rintro ⟨i, -, ⟨h, -⟩ | ⟨h, -⟩⟩ <;> cases h)
    refine Eq.trans ?_ (State.on_ogSample s levels g)
    rw [State.on, State.modCe_rd, hin, State.on]

/-! ## The stopped engine (R318) -/

theorem loopSnapshot_stands {s : State} (levels : Nat) (h : s.ce.snapDone = true ∨ (s.ceRuns = false ∧ s.clk.lsynRuns = false)) :
    s.loopSnapshot levels = s := by
  unfold State.loopSnapshot
  rcases h with h | ⟨hrun, hclock⟩
  · exact if_pos h
  · rw [hrun, hclock]
    exact ite_self _

/-- While the engine stands a due frame is noted as the loop's latest. -/
theorem loopSnapshot_notes {s : State} (levels : Nat) (hrun : s.ceRuns = false) (hclock : s.clk.lsynRuns = true)
    (hsnap : s.ce.snapDone = false) : (s.loopSnapshot levels).ce.snapDone = true ∧
    (∀ j, ((s.loopSnapshot levels).loop j).out = (s.loop j).out ∧ ((s.loopSnapshot levels).loop j).prevDue =
      (if s.rd K.CE_FRAME % s.rd (K.LOOP_PERIOD j) = 0 then some (s.rd K.CE_FRAME) else (s.loop j).prevDue)) ∧
    ∀ x, (s.loopSnapshot levels).rd x = s.rd x := by
  have heq : s.loopSnapshot levels = (forAll (allFin 64) (fun j z => z.loopPassed j) s).modCe fun c => { c with snapDone := true } := by
    unfold State.loopSnapshot
    rw [if_neg (by rw [hsnap]; decide), if_pos (by rw [hrun]; rfl), if_pos hclock]
  have hrd : ∀ (i : Fin 64) (z : State) (x : Key), (z.loopPassed i).rd x = z.rd x := fun i z x => by
    unfold State.loopPassed
    split <;> rfl
  have hloop : ∀ (i j : Fin 64) (z : State), (z.loopPassed i).loop j = if z.rd K.CE_FRAME % z.rd (K.LOOP_PERIOD i) = 0 ∧ j = i then
      { z.loop i with prevDue := some (z.rd K.CE_FRAME) } else z.loop j := fun i j z => by
    unfold State.loopPassed
    split
    next h =>
      rw [State.loop_modLoop]
      exact if_congr (by simp [h]) rfl rfl
    next h => rw [if_neg fun hc => h hc.1]
  have hpassed : ∀ (l : List (Fin 64)) (z : State) (x : Key), (forAll l (fun j z => z.loopPassed j) z).rd x = z.rd x :=
    fun l z x => State.rd_forAll_of_keep (fun i y => hrd i y x) l z
  rw [heq]
  refine ⟨rfl, fun j => ?_, fun x => (State.modCe_rd _ _ x).trans (hpassed (allFin 64) s x)⟩
  obtain ⟨l₁, l₂, hbefore, hafter, hsplit⟩ := exists_forAll_eq (List.mem_finRange j) (List.nodup_finRange 64)
    (fun i z => State.loopPassed z i) s
  have hother : ∀ (l : List (Fin 64)) (z : State), j ∉ l → (forAll l (fun i z => z.loopPassed i) z).loop j = z.loop j :=
    fun l z hl => forAll_keep (fun z => z.loop j) (fun i hi y => by
      rw [hloop i j y, if_neg]
      rintro ⟨-, rfl⟩
      exact hl hi) z
  have hown : (forAll (allFin 64) (fun j z => z.loopPassed j) s).loop j =
      if s.rd K.CE_FRAME % s.rd (K.LOOP_PERIOD j) = 0 then { s.loop j with prevDue := some (s.rd K.CE_FRAME) } else s.loop j := by
    rw [allFin, hsplit, hother _ _ hafter, hloop, hpassed, hpassed, hother _ _ hbefore]
    exact if_congr (by simp) rfl rfl
  have hnoted : ∀ u : State, (u.modCe fun c => { c with snapDone := true }).loop j = u.loop j := fun _ => rfl
  rw [hnoted, hown]
  exact ⟨(apply_ite LoopS.out _ _ _).trans (ite_self _), apply_ite LoopS.prevDue _ _ _⟩

/-! ## MANUAL (R320) -/

/-- A loop in MANUAL moves toward its written value between its executions. -/
theorem loopSnapshot_manual {s : State} (levels : Nat) {j : Fin 64} (hrun : s.ceRuns = true) (hsnap : s.ce.snapDone = false)
    (hhold : s.ce.hold = false) (hmode : s.rd (K.LOOP_MODE j) = 1) (hdue : s.rd K.CE_FRAME % s.rd (K.LOOP_PERIOD j) ≠ 0) :
    ((s.loopSnapshot levels).loop j).out = some (if s.rd (K.LOOP_MAN_SLEW j) = 0 then s.rd (K.LOOP_MAN_VALUE j)
      else if s.rd (K.LOOP_OUT j) < s.rd (K.LOOP_MAN_VALUE j) then
        min (s.rd (K.LOOP_MAN_VALUE j)) (s.rd (K.LOOP_OUT j) + s.rd (K.LOOP_MAN_SLEW j))
      else max (s.rd (K.LOOP_MAN_VALUE j)) (s.rd (K.LOOP_OUT j) - s.rd (K.LOOP_MAN_SLEW j))) ∧
    (s.loopSnapshot levels).rd (K.LOOP_EXEC j) = s.rd (K.LOOP_EXEC j) := by
  obtain ⟨z, t, hz, ht, heq⟩ := loopSnapshot_at levels j hrun hsnap
  have hstep : z.loopAt j = z.manualStep j := by
    unfold State.loopAt
    dsimp only
    rw [hz.rd_frame, hz.rd_own, hz.rd_own, hmode, hz.hold, hhold]
    exact (if_pos (by simpa using hdue)).trans (if_pos rfl)
  have hout : ((z.manualStep j).loop j).out = some (if z.rd (K.LOOP_MAN_SLEW j) = 0 then z.rd (K.LOOP_MAN_VALUE j)
      else if z.rd (K.LOOP_OUT j) < z.rd (K.LOOP_MAN_VALUE j) then
        min (z.rd (K.LOOP_MAN_VALUE j)) (z.rd (K.LOOP_OUT j) + z.rd (K.LOOP_MAN_SLEW j))
      else max (z.rd (K.LOOP_MAN_VALUE j)) (z.rd (K.LOOP_OUT j) - z.rd (K.LOOP_MAN_SLEW j))) :=
    (congrArg LoopS.out (State.loop_modLoop _ _ _ _)).trans (by rw [if_pos rfl])
  rw [hstep] at ht
  rw [heq]
  refine ⟨(congrArg LoopS.out ht.loop_own).trans ?_, ht.rd_own.trans hz.rd_own⟩
  rw [hout, hz.rd_own, hz.rd_own, hz.rd_own]

/-! ## AUTO (R319) -/

/-- A signed value that fits reads back. -/
theorem sx_zx_of_fit {w : Nat} (hw : 0 < w) {i : Int} (hlo : -(2 ^ (w - 1) : Nat) ≤ i) (hhi : i < (2 ^ (w - 1) : Nat)) :
    sx w (zx w i % 2 ^ w) = i := by
  have hpow : 2 ^ w = 2 * 2 ^ (w - 1) := by rw [← pow_succ', Nat.sub_add_cancel hw]
  unfold sx zx
  rw [hpow]
  generalize 2 ^ (w - 1) = m at hlo hhi ⊢
  have hfit : ∀ x : Nat, x < 2 * m → x % (2 * m) % (2 * m) = x := fun x hx => by rw [Nat.mod_mod, Nat.mod_eq_of_lt hx]
  rcases lt_or_ge i 0 with hneg | hpos
  · have hmod : i % ((2 * m : Nat) : Int) = i + (2 * m : Nat) := by
      rw [← Int.add_mul_emod_self_left i (2 * m : Nat) 1, mul_one]
      exact Int.emod_eq_of_lt (by omega) (by omega)
    rw [hmod, hfit _ (by omega), if_neg (by omega)]
    omega
  · have hmod : i % ((2 * m : Nat) : Int) = i := Int.emod_eq_of_lt hpos (by omega)
    rw [hmod, hfit _ (by omega), if_pos (by omega)]
    omega

theorem clampI_mem {lo hi b : Int} (hlo : 0 ≤ lo) (hhi : 0 ≤ hi) (hlob : lo < b) (hhib : hi < b) (i : Int) :
    0 ≤ clampI lo hi i ∧ clampI lo hi i < b := by
  unfold clampI
  split
  · exact ⟨hlo, hlob⟩
  · split
    · exact ⟨hhi, hhib⟩
    · omega

namespace State

theorem rdI_wrI_self (s : State) {k : Key} {i : Int} {w : Nat} (hbits : bitsOf k = w) (hw : 0 < w) (hlo : -(2 ^ (w - 1) : Nat) ≤ i)
    (hhi : i < (2 ^ (w - 1) : Nat)) : (s.wrI k i).rdI k = i := by
  rw [rdI, rd_wrI, if_pos rfl, hbits, sx_zx_of_fit hw hlo hhi]

theorem rdI_range (s : State) {k : Key} {w : Nat} (hbits : bitsOf k = w) (hw : 0 < w) :
    -(2 ^ (w - 1) : Nat) ≤ s.rdI k ∧ s.rdI k < (2 ^ (w - 1) : Nat) := by
  have hpow : 2 ^ w = 2 * 2 ^ (w - 1) := by rw [← pow_succ', Nat.sub_add_cancel hw]
  have hmod := Nat.mod_lt (s.rd k) (Nat.two_pow_pos w)
  rw [rdI, hbits]
  unfold sx
  rw [hpow] at hmod ⊢
  generalize 2 ^ (w - 1) = m at hmod ⊢
  split <;> omega

variable {s : State} {j : Fin 64}

/-- A loop of one region stays in it. -/
theorem regionStep_one (hvar : s.rd (K.SCHED_VAR j) = 255) (hregion : s.rd (K.LOOP_REGION j) = 0) (e1 : Option Int) :
    s.regionStep j e1 = s := by
  unfold regionStep
  dsimp only
  rw [hvar, hregion]
  rfl

/-- A loop without a repetitive controller leaves its memory alone. -/
theorem rc_none (hlen : s.rd (K.RC_LEN j) = 0) (e1 : Int) :
    s.rcUpdate j e1 = s ∧ s.rcRms j e1 = s ∧ s.rcAdvance j = s :=
  ⟨if_pos (by rw [hlen]; rfl), if_pos hlen, if_pos hlen⟩

/-- What the limit's count moves. -/
theorem limitStep_keeps (s : State) (j : Fin 64) (u : Nat) :
    (∀ k : Key, k.area ≠ none → k ≠ K.LOOP_STATE j → k ≠ K.DET_LOOP_LIMIT → (s.limitStep j u).rd k = s.rd k) ∧
    ((s.limitStep j u).loop j).out = (s.loop j).out := by
  have hout : ∀ n : LoopS → Nat, ((s.modLoop j fun l => { l with limitRun := n l }).loop j).out = (s.loop j).out := fun n =>
    (congrArg LoopS.out (loop_modLoop _ _ _ _)).trans (by rw [if_pos rfl])
  unfold limitStep
  dsimp only
  split
  · split
    · refine ⟨fun k ha hstate hdet => ?_, ?_⟩
      · rw [rd_raiseIn _ _ _ _ ha, if_neg hdet, rd_wrBit_ne _ _ _ hstate]
        rfl
      · rw [raiseIn_eq, loop, raise_ce]
        exact hout fun l => l.limitRun + 1
    · exact ⟨fun _ _ _ _ => rfl, hout _⟩
  · exact ⟨fun k _ hstate _ => rd_wrBit_ne _ _ _ hstate, hout fun _ => 0⟩

end State

/-- The terms of an execution in AUTO of a loop of one region without a repetitive controller, for the input `y` (R319): the error and the
shaped error, the terms of the sum with its limits, and the integral with its anti-windup. -/
structure AutoTerms (s : State) (j : Fin 64) (y : Nat) (e e1 p d ff umin umax sum i1 : Int) : Prop where
  err : e = (if s.on (K.LOOP_POLARITY j) then (y : Int) - s.rd (K.LOOP_SETPOINT j) else (s.rd (K.LOOP_SETPOINT j) : Int) - y)
  shaped : e1 = clampI (-2147483648) 2147483647
    (roundAway (e * (loopGain (fun k => s.rd (K.LOOP_GAIN_LUT j k)) (s.rd (K.LOOP_GAIN_SHIFT j)) e : Int)) 16384)
  prop : p = s.rdI (K.SCHED_KP j 0) * e1
  step : d = s.rdI (K.SCHED_KI j 0) * e1
  feed : ff = s.rdI (K.LOOP_FF j) * 65536
  low : umin = (s.rd (K.LOOP_UMIN j) * 65536 : Nat)
  high : umax = (s.rd (K.LOOP_UMAX j) * 65536 : Nat)
  total : sum = p + s.rdI (K.LOOP_INTEGRATOR j) + ff
  int : i1 = (if !(decide (umax < sum) && decide (0 < d)) && !(decide (sum < umin) && decide (d < 0)) then
    clampI umin umax (s.rdI (K.LOOP_INTEGRATOR j) + d) else s.rdI (K.LOOP_INTEGRATOR j))

namespace AutoTerms

variable {s w : State} {j : Fin 64} {y : Nat} {e e1 p d ff umin umax sum i1 : Int}

/-- The terms are those of the loop's entries, but of its state, its error and its count of executions. -/
theorem of_rd (h : AutoTerms s j y e e1 p d ff umin umax sum i1)
    (hrd : ∀ {o x : Nat}, (o, x) ∉ [(0x05, 0x01), (0x05, 0x03), (0x05, 0x07)] → w.rd ⟨.loop j, o, x⟩ = s.rd ⟨.loop j, o, x⟩) :
    AutoTerms w j y e e1 p d ff umin umax sum i1 := by
  have hrdI : ∀ {o x : Nat}, (o, x) ∉ [(0x05, 0x01), (0x05, 0x03), (0x05, 0x07)] → w.rdI ⟨.loop j, o, x⟩ = s.rdI ⟨.loop j, o, x⟩ :=
    fun hk => State.rdI_of_rd (hrd hk)
  have hon : w.on (K.LOOP_POLARITY j) = s.on (K.LOOP_POLARITY j) := congrArg (· != 0) (hrd (by decide))
  have hlut : ∀ k, w.rd (K.LOOP_GAIN_LUT j k) = s.rd (K.LOOP_GAIN_LUT j k) := fun k => hrd (by simp)
  have hint : w.rdI (K.LOOP_INTEGRATOR j) = s.rdI (K.LOOP_INTEGRATOR j) := hrdI (by decide)
  refine ⟨?_, ?_, ?_, ?_, ?_, ?_, ?_, ?_, ?_⟩
  · rw [hon, hrd (by decide)]
    exact h.err
  · simp only [hlut, hrd (o := 0x01) (x := 0x11) (by decide)]
    exact h.shaped
  · rw [hrdI (by decide)]
    exact h.prop
  · rw [hrdI (by decide)]
    exact h.step
  · rw [hrdI (by decide)]
    exact h.feed
  · rw [hrd (by decide)]
    exact h.low
  · rw [hrd (by decide)]
    exact h.high
  · rw [hint]
    exact h.total
  · rw [hint]
    exact h.int

/-- The shaped error and the integral fit their entries. -/
theorem fits (h : AutoTerms s j y e e1 p d ff umin umax sum i1) (hmax : s.rd (K.LOOP_UMAX j) < 2 ^ 16) (hmin : s.rd (K.LOOP_UMIN j) < 2 ^ 16) :
    (-2147483648 ≤ e1 ∧ e1 ≤ 2147483647) ∧ -(2 ^ (64 - 1) : Nat) ≤ i1 ∧ i1 < (2 ^ (64 - 1) : Nat) := by
  have hlow := h.low
  have hhigh := h.high
  refine ⟨?_, ?_⟩
  · rw [h.shaped]
    unfold clampI
    split <;> [skip; split] <;> omega
  · rw [h.int]
    split
    · have hclamp := clampI_mem (lo := umin) (hi := umax) (b := 2 ^ 32) (by omega) (by omega) (by omega) (by omega)
        (s.rdI (K.LOOP_INTEGRATOR j) + d)
      omega
    · exact State.rdI_range s rfl (by decide)

end AutoTerms

/-- An execution in AUTO of a loop of one region without a repetitive controller: its error, its integral, its output. -/
theorem autoStep_computes {z : State} {j : Fin 64} {y : Nat} (hvar : z.rd (K.SCHED_VAR j) = 255) (hregion : z.rd (K.LOOP_REGION j) = 0)
    (hlen : z.rd (K.RC_LEN j) = 0) (hpreset : (z.loop j).preset = false) {e e1 p d ff umin umax sum i1 : Int}
    (h : AutoTerms z j y e e1 p d ff umin umax sum i1) :
    z.autoStep j y false = (((z.wrI (K.LOOP_ERR j) e1).modLoop j fun l =>
      { l with preset := false, out := some (roundAway (clampI umin umax (p + i1 + ff)) 65536).toNat }).wrI (K.LOOP_INTEGRATOR j) i1).limitStep j
        (roundAway (clampI umin umax (p + i1 + ff)) 65536).toNat := by
  have hother : ∀ {o x : Nat}, (o, x) ≠ (0x05, 0x03) → (z.wrI (K.LOOP_ERR j) e1).rd ⟨.loop j, o, x⟩ = z.rd ⟨.loop j, o, x⟩ :=
    fun hne => State.rd_wr_ne z _ fun hk => hne (by cases hk; rfl)
  have hlen' : (z.wrI (K.LOOP_ERR j) e1).rd (K.RC_LEN j) = 0 := (hother (by decide)).trans hlen
  have hregion' : (z.wrI (K.LOOP_ERR j) e1).rd (K.LOOP_REGION j) = 0 := (hother (by decide)).trans hregion
  have hpre : ((z.wrI (K.LOOP_ERR j) e1).loop j).preset = false := hpreset
  have hnoted : AutoTerms (z.wrI (K.LOOP_ERR j) e1) j y e e1 p d ff umin umax sum i1 :=
    h.of_rd fun hk => hother fun he => hk (by rw [he]; decide)
  unfold State.autoStep
  dsimp only
  rw [State.regionStep_one hvar hregion, ← h.err, ← h.shaped]
  simp only [hregion', hlen', hpre, if_true, Bool.false_eq_true, if_false, add_zero, ← hnoted.prop, ← hnoted.step, ← hnoted.feed,
    ← hnoted.low, ← hnoted.high, ← hnoted.total, ← hnoted.int]
  have hrc : ∀ f, (((z.wrI (K.LOOP_ERR j) e1).modLoop j f).wrI (K.LOOP_INTEGRATOR j) i1).rd (K.RC_LEN j) = 0 :=
    fun f => (State.rd_wr_ne _ _ (by simp)).trans hlen'
  obtain ⟨hupdate, hrms, hadvance⟩ := State.rc_none (hrc _) e1
  rw [hupdate, hrms, hadvance]

/-- A loop as an execution with a new input finds it: the execution counted, the run of stale ones ended. -/
def State.loopFresh (z : State) (j : Fin 64) : State :=
  ((z.incWrap (K.LOOP_EXEC j)).wrBit (K.LOOP_STATE j) 4 false).modLoop j fun l => { l with staleRun := 0 }

theorem rd_loopFresh (z : State) (j : Fin 64) {k : Key} (hexec : k ≠ K.LOOP_EXEC j) (hstate : k ≠ K.LOOP_STATE j) :
    (z.loopFresh j).rd k = z.rd k := (State.rd_wrBit_ne _ _ _ hstate).trans (State.rd_wr_ne _ _ hexec)

theorem rd_loopFresh_exec (z : State) (j : Fin 64) : (z.loopFresh j).rd (K.LOOP_EXEC j) = (z.rd (K.LOOP_EXEC j) + 1) % 2 ^ 32 := by
  have hbits : bitsOf (K.LOOP_EXEC j) = 32 := rfl
  rw [State.loopFresh, State.modLoop, State.modCe_rd, State.rd_wrBit_ne _ _ _ (by simp), State.rd_incWrap, if_pos rfl, hbits]

theorem loopFresh_preset (z : State) (j : Fin 64) : ((z.loopFresh j).loop j).preset = (z.loop j).preset := by
  have hkeep : ((z.incWrap (K.LOOP_EXEC j)).wrBit (K.LOOP_STATE j) 4 false).ce = z.ce := by simp [State.incWrap, State.wrBit]
  rw [State.loopFresh, State.loop_modLoop, if_pos rfl, State.loop, hkeep]
  rfl

/-- An execution in AUTO without a fault window. -/
theorem loopExec_auto {z : State} {j : Fin 64} (hmode : z.rd (K.LOOP_MODE j) = 2) (hfault : z.rd (K.LOOP_FAULT_COUNT j) = 0) :
    z.loopExec j true = (z.loopFresh j).autoStep j (z.srcValue (z.rd (K.LOOP_INPUT j))) false := by
  have hwindow : ∀ y, (z.loopFresh j).faultStep j y = (z.loopFresh j, false) := fun y =>
    if_pos ((rd_loopFresh z j (by simp) (by simp)).trans hfault)
  have hheld : ((2 : Nat) == 4) = false := rfl
  have hsafe : ((2 : Nat) = 3) = False := eq_false (by decide)
  unfold State.loopExec
  dsimp only
  rw [hmode, ← State.loopFresh]
  simp only [hheld, hsafe, hwindow, Bool.false_eq_true, if_false, if_true, Bool.not_true]

theorem srcValue_modLoop (z : State) (j : Fin 64) (f : LoopS → LoopS) (x : Nat) : (z.modLoop j f).srcValue x = z.srcValue x := by
  unfold State.srcValue
  rfl

/-- A due loop in AUTO with a new input executes. -/
theorem loopAt_auto {z : State} {j : Fin 64} (hhold : z.ce.hold = false) (hmode : z.rd (K.LOOP_MODE j) = 2)
    (hdue : z.rd K.CE_FRAME % z.rd (K.LOOP_PERIOD j) = 0)
    (hnew : z.srcNew (z.rd (K.LOOP_INPUT j)) (z.rd K.CE_FRAME) (z.loop j).prevDue = true) (hfault : z.rd (K.LOOP_FAULT_COUNT j) = 0) :
    z.loopAt j = ((z.modLoop j fun l => { l with prevDue := some (z.rd K.CE_FRAME) }).loopFresh j).autoStep j
      (z.srcValue (z.rd (K.LOOP_INPUT j))) false := by
  have hexec := loopExec_auto (z := z.modLoop j fun l => { l with prevDue := some (z.rd K.CE_FRAME) }) hmode hfault
  rw [srcValue_modLoop] at hexec
  unfold State.loopAt
  dsimp only
  rw [hdue, hmode, hhold, hnew, if_neg (by decide), if_neg (by decide), if_neg (by decide)]
  exact hexec

/-- The snapshot of a due loop in AUTO of one region, without a fault window and a repetitive controller. -/
theorem loopSnapshot_auto {s : State} (levels : Nat) {j : Fin 64} (hrun : s.ceRuns = true) (hsnap : s.ce.snapDone = false)
    (hhold : s.ce.hold = false) (hmode : s.rd (K.LOOP_MODE j) = 2) (hdue : s.rd K.CE_FRAME % s.rd (K.LOOP_PERIOD j) = 0)
    (hnew : s.srcNew (s.rd (K.LOOP_INPUT j)) (s.rd K.CE_FRAME) (s.loop j).prevDue = true) (hfault : s.rd (K.LOOP_FAULT_COUNT j) = 0)
    (hvar : s.rd (K.SCHED_VAR j) = 255) (hregion : s.rd (K.LOOP_REGION j) = 0) (hlen : s.rd (K.RC_LEN j) = 0)
    (hpreset : (s.loop j).preset = false) (hmaxlt : s.rd (K.LOOP_UMAX j) < 2 ^ 16) (hminlt : s.rd (K.LOOP_UMIN j) < 2 ^ 16)
    {e e1 p d ff umin umax sum i1 : Int} (h : AutoTerms s j (s.srcValue (s.rd (K.LOOP_INPUT j))) e e1 p d ff umin umax sum i1) :
    (s.loopSnapshot levels).rdI (K.LOOP_ERR j) = e1 ∧ (s.loopSnapshot levels).rdI (K.LOOP_INTEGRATOR j) = i1 ∧
    ((s.loopSnapshot levels).loop j).out = some (roundAway (clampI umin umax (p + i1 + ff)) 65536).toNat ∧
    (s.loopSnapshot levels).rd (K.LOOP_EXEC j) = (s.rd (K.LOOP_EXEC j) + 1) % 2 ^ 32 := by
  obtain ⟨z, t, hz, ht, heq⟩ := loopSnapshot_at levels j hrun hsnap
  have hloop := hz.loop_own
  have hstep := loopAt_auto (z := z) (j := j) (hz.hold.trans hhold) (hz.rd_own.trans hmode) (by rw [hz.rd_frame, hz.rd_own, hdue])
    (by rw [hz.srcNew, hz.rd_frame, hz.rd_own, hloop, hnew]) (hz.rd_own.trans hfault)
  rw [hz.srcValue, hz.rd_own] at hstep
  generalize hw : (z.modLoop j fun l => { l with prevDue := some (z.rd K.CE_FRAME) }).loopFresh j = w at hstep
  have hrd : ∀ {o x : Nat}, (o, x) ≠ (0x05, 0x07) → (o, x) ≠ (0x05, 0x01) → w.rd ⟨.loop j, o, x⟩ = s.rd ⟨.loop j, o, x⟩ := by
    intro o x hexec hstate
    rw [← hw, rd_loopFresh _ _ (fun h => hexec (by cases h; rfl)) (fun h => hstate (by cases h; rfl))]
    exact hz.rd_own
  have hexec : w.rd (K.LOOP_EXEC j) = (s.rd (K.LOOP_EXEC j) + 1) % 2 ^ 32 := by
    rw [← hw, rd_loopFresh_exec]
    exact congrArg (fun n => (n + 1) % 2 ^ 32) hz.rd_own
  have hpre : (w.loop j).preset = false := by
    rw [← hw, loopFresh_preset, State.loop_modLoop, if_pos rfl, hloop]
    exact hpreset
  have hcomp := autoStep_computes (z := w) ((hrd (by decide) (by decide)).trans hvar) ((hrd (by decide) (by decide)).trans hregion)
    ((hrd (by decide) (by decide)).trans hlen) hpre
    (h.of_rd fun hk => hrd (fun he => hk (by rw [he]; decide)) fun he => hk (by rw [he]; decide))
  rw [hcomp] at hstep
  obtain ⟨hkeep, hout⟩ := State.limitStep_keeps (((w.wrI (K.LOOP_ERR j) e1).modLoop j fun l =>
      { l with preset := false, out := some (roundAway (clampI umin umax (p + i1 + ff)) 65536).toNat }).wrI (K.LOOP_INTEGRATOR j) i1) j
    (roundAway (clampI umin umax (p + i1 + ff)) 65536).toNat
  rw [hstep] at ht
  obtain ⟨herr, hintrange⟩ := h.fits hmaxlt hminlt
  rw [heq]
  refine ⟨?_, ?_, ?_, ?_⟩
  · refine (State.rdI_of_rd (ht.rd_own.trans (hkeep _ (by simp) (by simp) (by simp)))).trans ?_
    rw [State.wrI, State.rdI_of_rd (State.rd_wr_ne _ _ (by simp))]
    exact State.rdI_wrI_self w (w := 32) rfl (by decide) (by omega) (by omega)
  · refine (State.rdI_of_rd (ht.rd_own.trans (hkeep _ (by simp) (by simp) (by simp)))).trans ?_
    exact State.rdI_wrI_self _ (w := 64) rfl (by decide) hintrange.1 hintrange.2
  · refine (congrArg LoopS.out ht.loop_own).trans (hout.trans ?_)
    have hwr : ∀ (u : State) (k : Key) (i : Int), (u.wrI k i).loop j = u.loop j := fun _ _ _ => rfl
    rw [hwr, State.loop_modLoop, if_pos rfl]
  · refine (ht.rd_own.trans (hkeep _ (by simp) (by simp) (by simp))).trans ?_
    rw [State.wrI, State.rd_wr_ne _ _ (by simp), State.modLoop, State.modCe_rd, State.wrI, State.rd_wr_ne _ _ (by simp), hexec]

end Sys2Proof.Machine
end

section
/-!
SUPPORT. Cycle 960 (R304, R324, R326, R329): outputs of loops reach their registers and pins, and the pins move in steps of their own.
-/

namespace Sys2Proof.Machine

/-- What holds is kept by changes for each unit of a list that keep it. -/
theorem forAll_mem_induct {α : Type} {P : State → Prop} {f : α → State → State} {l : List α} (hf : ∀ a ∈ l, ∀ z, P z → P (f a z))
    {s : State} (h : P s) : P (forAll l f s) := by
  induction l generalizing s with
  | nil => exact h
  | cons a l ih => exact ih (fun b hb => hf b (List.mem_cons_of_mem a hb)) (hf a List.mem_cons_self s h)

/-! ## Outputs of loops (R326) -/

/-- The entries that a loop's output may move. -/
def outEntry (j : Fin 64) (k : Key) : Prop := k = K.LOOP_OUT j ∨ (∃ a, k = K.AUX_CODE a) ∨ ∃ i, k = K.LOOP_SETPOINT i

/-- The entries of a pin that cycle 960 may move, and the detail registers. -/
def padEntry (a : Fin 48) (k : Key) : Prop := k = K.AUX_CODE a ∨ k = K.AUX_STATUS a ∨ k.blk = .dev ∧ k.off = 0x6001

namespace State

variable (s : State)

theorem loopWrite_keeps (j : Fin 64) : CeKeeps (outEntry j) (· = .loop j) s (s.loopWrite j) := by
  have hout : ∀ u f, CeKeeps (outEntry j) (· = .loop j) s ((s.wr (K.LOOP_OUT j) u).modLoop j f) := fun u f =>
    ((CeKeeps.refl _ _ s).wr u (.inl rfl) (by simp)).modLoop f rfl
  unfold loopWrite
  split
  · exact .refl _ _ s
  · dsimp only
    split
    · split
      · split
        · exact (CeKeeps.refl _ _ s).wr _ (.inl rfl) (by simp)
        · exact hout _ _
      · exact (hout _ _).wr _ (.inr (.inl ⟨_, rfl⟩)) (by simp)
    · split
      · exact (hout _ _).wr _ (.inr (.inr ⟨_, rfl⟩)) (by simp)
      · exact hout _ _

/-- A pin's code stands where the loop drives another destination, or the pin is latched. -/
theorem rd_loopWrite_code (j : Fin 64) {a : Fin 48} (h : s.rd (K.LOOP_OUTPUT j) ≠ a.val ∨ s.auxHeld a = true) :
    (s.loopWrite j).rd (K.AUX_CODE a) = s.rd (K.AUX_CODE a) := by
  have hout : ∀ u f, ((s.wr (K.LOOP_OUT j) u).modLoop j f).rd (K.AUX_CODE a) = s.rd (K.AUX_CODE a) := fun u f => rd_wr_ne s u (by simp)
  unfold loopWrite
  split
  · rfl
  · dsimp only
    split
    next hd =>
      split
      next hheld =>
        split
        · exact rd_wr_ne s _ (by simp)
        · exact hout _ _
      next hheld =>
        refine (rd_wr_ne _ _ fun hk => ?_).trans (hout _ _)
        cases hk
        exact h.elim (· rfl) hheld
    · split
      · exact (rd_wr_ne _ _ (by simp)).trans (hout _ _)
      · exact hout _ _

variable {s} {j : Fin 64} {u : Nat}

/-- An output whose destination is a pin. -/
theorem loopWrite_pin (hout : (s.loop j).out = some u) {a : Fin 48} (hdest : s.rd (K.LOOP_OUTPUT j) = a.val) : s.loopWrite j =
    if s.auxHeld a then
      (if s.rd (K.LOOP_MODE j) = 3 then s.wr (K.LOOP_OUT j) u else (s.wr (K.LOOP_OUT j) u).modLoop j fun l => { l with out := none })
    else ((s.wr (K.LOOP_OUT j) u).modLoop j fun l => { l with out := none }).wr (K.AUX_CODE a) (dacCodeOf u) := by
  have hpin : ∀ h : s.rd (K.LOOP_OUTPUT j) < 48, (⟨s.rd (K.LOOP_OUTPUT j), h⟩ : Fin 48) = a := fun _ => Fin.ext hdest
  unfold loopWrite
  rw [hout]
  dsimp only
  rw [dif_pos (hdest.trans_lt a.isLt), hpin]

/-- An output reaches a pin that is free. -/
theorem loopWrite_code (hout : (s.loop j).out = some u) {a : Fin 48} (hdest : s.rd (K.LOOP_OUTPUT j) = a.val) (hfree : s.auxHeld a = false) :
    (s.loopWrite j).rd (K.AUX_CODE a) = dacCodeOf u := by
  have hbits : bitsOf (K.AUX_CODE a) = 16 := rfl
  have hcode : dacCodeOf u ≤ 4095 := Nat.min_le_left _ _
  rw [loopWrite_pin hout hdest, hfree, if_neg (by decide), rd_wr_self, hbits]
  exact Nat.mod_eq_of_lt (by omega)

/-- At a latched pin the output of SAFE stands until the pin is released. -/
theorem loopWrite_held (hout : (s.loop j).out = some u) {a : Fin 48} (hdest : s.rd (K.LOOP_OUTPUT j) = a.val)
    (hheld : s.auxHeld a = true) : ((s.loopWrite j).loop j).out = if s.rd (K.LOOP_MODE j) = 3 then some u else none := by
  rw [loopWrite_pin hout hdest, if_pos hheld]
  split
  · exact hout
  · rw [loop_modLoop, if_pos rfl]

theorem rd_loopWrite_out (hout : (s.loop j).out = some u) (hu : u < 2 ^ 16) : (s.loopWrite j).rd (K.LOOP_OUT j) = u := by
  have hbits : bitsOf (K.LOOP_OUT j) = 16 := rfl
  have hwr : (s.wr (K.LOOP_OUT j) u).rd (K.LOOP_OUT j) = u := (rd_wr_self s _ u).trans (by rw [hbits, Nat.mod_eq_of_lt hu])
  unfold loopWrite
  rw [hout]
  dsimp only
  split
  · split
    · split <;> exact hwr
    · exact (rd_wr_ne _ _ (by simp)).trans hwr
  · split
    · exact (rd_wr_ne _ _ (by simp)).trans hwr
    · exact hwr

/-- An output that its pin does not hold back is handed over. -/
theorem loopWrite_none (hout : (s.loop j).out = some u) (hfree : ∀ a : Fin 48, s.rd (K.LOOP_OUTPUT j) = a.val → s.auxHeld a = false) :
    ((s.loopWrite j).loop j).out = none := by
  have hnone : (((s.wr (K.LOOP_OUT j) u).modLoop j fun l => { l with out := none }).loop j).out = none := by
    rw [loop_modLoop, if_pos rfl]
  have hwr : ∀ (z : State) (k : Key) (v : Nat), (z.wr k v).loop j = z.loop j := fun _ _ _ => rfl
  unfold loopWrite
  rw [hout]
  dsimp only
  split
  next hd =>
    rw [if_neg (by rw [hfree ⟨_, hd⟩ rfl]; decide), hwr]
    exact hnone
  · split
    · rw [hwr]
      exact hnone
    · exact hnone

/-! ## Pins (R329, R535) -/

variable (s) (a : Fin 48)

theorem auxStep_keeps : CeKeeps (padEntry a) (· = .aux a) s (s.auxStep a) := by
  have hrefl : CeKeeps (padEntry a) (· = .aux a) s s := .refl _ _ s
  unfold auxStep
  split
  · exact hrefl
  · split
    · exact (hrefl.modAux _ rfl).wr _ (.inl rfl) (by simp)
    · exact (hrefl.modAux _ rfl).wr _ (.inl rfl) (by simp)
    · exact .ite _ hrefl (hrefl.wr _ (.inl rfl) (by simp))

/-- A flag of a pad is shown, its rise raised. -/
def padShow (s : State) (a : Fin 48) (i : Nat) (b : Bool) (src : Nat) : State :=
  if b && !s.bit (K.AUX_STATUS a) i then (s.wrBit (K.AUX_STATUS a) i b).raiseIn (Src.CE src) K.DET_AUX a.val
  else s.wrBit (K.AUX_STATUS a) i b

/-- The flags of a pad after this frame. -/
def padFlags (s : State) (a : Fin 48) (compl short : Bool) : State :=
  ((s.modAux a fun x =>
    { x with complRun := (padFlag x.complRun (s.bit (K.AUX_STATUS a) 1) compl).1,
             shortRun := (padFlag x.shortRun (s.bit (K.AUX_STATUS a) 2) short).1 }).padShow a 1
      (padFlag (s.ce.auxs.get a).complRun (s.bit (K.AUX_STATUS a) 1) compl).2 11).padShow a 2
      (padFlag (s.ce.auxs.get a).shortRun (s.bit (K.AUX_STATUS a) 2) short).2 12

theorem auxPads_stands (compl short : Bool) (h : s.auxHeld a = true ∨ (s.ce.auxs.get a).mode = 0) : s.auxPads a compl short = s :=
  if_pos (by simpa using h)

theorem auxPads_eq (compl short : Bool) (hheld : s.auxHeld a = false) (hmode : (s.ce.auxs.get a).mode ≠ 0) :
    s.auxPads a compl short = s.padFlags a compl short := by
  have hcond : ¬ ((s.auxHeld a || decide ((s.ce.auxs.get a).mode = 0)) = true) := by simp [hheld, hmode]
  unfold auxPads
  dsimp only
  rw [if_neg hcond]
  rfl

theorem padShow_keeps (i : Nat) (b : Bool) (src : Nat) :
    CeKeeps (fun k => k = K.AUX_STATUS a ∨ k = K.DET_AUX) (fun _ => False) s (s.padShow a i b src) := by
  have hwr : CeKeeps (fun k => k = K.AUX_STATUS a ∨ k = K.DET_AUX) (fun _ => False) s (s.wrBit (K.AUX_STATUS a) i b) :=
    (CeKeeps.refl _ _ s).wr _ (.inl rfl) (by simp)
  exact .ite _ (hwr.raiseIn _ _ (.inr rfl) (by decide)) hwr

theorem bit_padShow (i : Nat) (b : Bool) (src : Nat) {n : Nat} (hn : n < 8) :
    (s.padShow a i b src).bit (K.AUX_STATUS a) n = if n = i then b else s.bit (K.AUX_STATUS a) n := by
  have hbits : bitsOf (K.AUX_STATUS a) = 8 := rfl
  have hwr : (s.wrBit (K.AUX_STATUS a) i b).bit (K.AUX_STATUS a) n = if n = i then b else s.bit (K.AUX_STATUS a) n := by
    rw [bit_wrBit, if_pos rfl, hbits, decide_eq_true hn, Bool.true_and]
  unfold padShow
  split
  · rw [bit_of_rd ((rd_raiseIn _ _ _ _ (by simp)).trans (if_neg (by simp))), hwr]
  · exact hwr

theorem raised_padShow (i : Nat) {src : Nat} (hsrc : src < 16) (h : s.bit (K.AUX_STATUS a) i = false) :
    Raised (s.padShow a i true src) (Src.CE src) := by
  unfold padShow
  rw [h, if_pos (by decide)]
  exact raised_raiseIn _ _ _ hsrc

theorem padFlags_keeps (compl short : Bool) :
    CeKeeps (fun k => k = K.AUX_STATUS a ∨ k = K.DET_AUX) (· = .aux a) s (s.padFlags a compl short) := by
  have hrefl : CeKeeps (fun k => k = K.AUX_STATUS a ∨ k = K.DET_AUX) (· = .aux a) s s := .refl _ _ s
  have hshow : ∀ (z : State) (i : Nat) (b : Bool) (src : Nat),
      CeKeeps (fun k => k = K.AUX_STATUS a ∨ k = K.DET_AUX) (· = .aux a) z (z.padShow a i b src) := fun z i b src =>
    (padShow_keeps z a i b src).mono (fun _ h => h) fun _ h => h.elim
  exact ((hrefl.modAux _ rfl).trans (hshow _ _ _ _)).trans (hshow _ _ _ _)

theorem auxPads_keeps (compl short : Bool) :
    CeKeeps (fun k => k = K.AUX_STATUS a ∨ k = K.DET_AUX) (· = .aux a) s (s.auxPads a compl short) := by
  by_cases h : s.auxHeld a = true ∨ (s.ce.auxs.get a).mode = 0
  · rw [auxPads_stands s a compl short h]
    exact .refl _ _ s
  · obtain ⟨hheld, hmode⟩ := not_or.mp h
    rw [auxPads_eq s a compl short (by simpa using hheld) hmode]
    exact padFlags_keeps s a compl short

/-- The record of a pin after its flags are shown: the runs, and nothing of its mode. -/
theorem padFlags_aux (compl short : Bool) : (s.padFlags a compl short).ce.auxs.get a =
    { s.ce.auxs.get a with complRun := (padFlag (s.ce.auxs.get a).complRun (s.bit (K.AUX_STATUS a) 1) compl).1
                           shortRun := (padFlag (s.ce.auxs.get a).shortRun (s.bit (K.AUX_STATUS a) 2) short).1 } := by
  unfold padFlags
  rw [(padShow_keeps _ a _ _ _).aux a id, (padShow_keeps _ a _ _ _).aux a id, aux_modAux, if_pos rfl]

theorem auxPads_mode (compl short : Bool) : ((s.auxPads a compl short).ce.auxs.get a).mode = (s.ce.auxs.get a).mode ∧
    ((s.auxPads a compl short).ce.auxs.get a).step = (s.ce.auxs.get a).step := by
  by_cases h : s.auxHeld a = true ∨ (s.ce.auxs.get a).mode = 0
  · rw [auxPads_stands s a compl short h]
    exact ⟨rfl, rfl⟩
  · obtain ⟨hheld, hmode⟩ := not_or.mp h
    rw [auxPads_eq s a compl short (by simpa using hheld) hmode, padFlags_aux]
    exact ⟨rfl, rfl⟩

/-- The flags that are shown, and the rises that are raised. -/
theorem padFlags_shows (compl short : Bool) :
    (s.padFlags a compl short).bit (K.AUX_STATUS a) 1 = (padFlag (s.ce.auxs.get a).complRun (s.bit (K.AUX_STATUS a) 1) compl).2 ∧
    (s.padFlags a compl short).bit (K.AUX_STATUS a) 2 = (padFlag (s.ce.auxs.get a).shortRun (s.bit (K.AUX_STATUS a) 2) short).2 ∧
    (s.bit (K.AUX_STATUS a) 1 = false → (padFlag (s.ce.auxs.get a).complRun (s.bit (K.AUX_STATUS a) 1) compl).2 = true →
      Raised (s.padFlags a compl short) (Src.CE 11)) ∧
    (s.bit (K.AUX_STATUS a) 2 = false → (padFlag (s.ce.auxs.get a).shortRun (s.bit (K.AUX_STATUS a) 2) short).2 = true →
      Raised (s.padFlags a compl short) (Src.CE 12)) := by
  unfold padFlags
  refine ⟨?_, ?_, fun hflag hrise => ?_, fun hflag hrise => ?_⟩
  · rw [bit_padShow _ a _ _ _ (by decide), if_neg (by decide), bit_padShow _ a _ _ _ (by decide), if_pos rfl]
  · rw [bit_padShow _ a _ _ _ (by decide), if_pos rfl]
  · refine (padShow_keeps _ a _ _ _).raised (Src.CE 11) (by decide) ?_
    rw [hrise]
    exact raised_padShow _ a 1 (by decide) hflag
  · rw [hrise]
    refine raised_padShow _ a 2 (by decide) ?_
    rw [bit_padShow _ a _ _ _ (by decide), if_neg (by decide)]
    exact hflag

variable {s a}

/-- A change of a pin's mode passes through 0. -/
theorem auxStep_off (hheld : s.auxHeld a = false) (hstep : (s.ce.auxs.get a).step = 2) :
    s.auxStep a = (s.modAux a fun x => { x with mode := 0, step := 1 }).wr (K.AUX_CODE a) 0 := by
  unfold auxStep
  rw [if_neg (by rw [hheld]; decide), hstep]
  rfl

theorem auxStep_on (hheld : s.auxHeld a = false) (hstep : (s.ce.auxs.get a).step = 1) :
    s.auxStep a = (s.modAux a fun x => { x with mode := s.rd (K.AUX_MODE a), step := 0 }).wr (K.AUX_CODE a) 0 := by
  unfold auxStep
  rw [if_neg (by rw [hheld]; decide), hstep]
  rfl

/-- A pin in its mode moves its code alone; one that a loop drives stands. -/
theorem auxStep_steady (hheld : s.auxHeld a = false) (hstep : (s.ce.auxs.get a).step = 0) :
    ∃ v, s.auxStep a = if driven s a.val none then s else s.wr (K.AUX_CODE a) v := by
  unfold auxStep
  rw [if_neg (by rw [hheld]; decide), hstep]
  exact ⟨_, rfl⟩

theorem auxStep_stands (hheld : s.auxHeld a = true) : s.auxStep a = s := if_pos hheld

end State

/-! ## Cycle 960 -/

/-- A pin at cycle 960. -/
def State.auxAt (s : State) (compl short : Nat) (a : Fin 48) : State :=
  (s.auxStep a).auxPads a (compl.testBit a.val) (short.testBit a.val)

theorem auxAt_keeps (s : State) (compl short : Nat) (a : Fin 48) : CeKeeps (padEntry a) (· = .aux a) s (s.auxAt compl short a) :=
  (State.auxStep_keeps s a).trans ((State.auxPads_keeps _ a _ _).mono
    (fun _ h => h.elim (fun e => .inr (.inl e)) fun e => .inr (.inr ⟨by rw [e], by rw [e]⟩)) fun _ h => h)

theorem ogWrite_keeps (s : State) (g : Fin 16) : CeKeeps (fun _ => False) (fun _ => False) s (s.ogWrite g) :=
  .ite _ (.refl _ _ s) ⟨fun _ _ _ => rfl, fun _ _ => rfl, fun _ _ => rfl, fun _ _ => rfl, rfl, fun _ _ h => h⟩

/-- Cycle 960 without a trip, a resumption and a release of the pads. -/
theorem outputWrite_runs {s : State} (compl short : Nat) (hrun : s.ceRuns = true) (hsnap : s.ce.snapDone = true)
    (hdone : s.ce.outDone = false) (hhold : s.ce.hold = false) (htrip : s.ce.trip = false) (hresume : s.ce.resume = false)
    (hrelease : s.ce.release = false) : s.outputWrite compl short =
      forAll (allFin 16) (fun g z => z.ogWrite g) (forAll (allFin 48) (fun a z => z.auxAt compl short a)
        (forAll (allFin 64) (fun j z => z.loopWrite j) (s.modCe fun c => { c with outDone := true }))) := by
  have htrips : (s.modCe fun c => { c with outDone := true }).tripStep = s.modCe fun c => { c with outDone := true } :=
    if_neg (show ¬ s.ce.trip = true by rw [htrip]; decide)
  have hresumes : (s.modCe fun c => { c with outDone := true }).tripResume = s.modCe fun c => { c with outDone := true } :=
    if_neg (show ¬ s.ce.resume = true by rw [hresume]; decide)
  have hreleases : (s.modCe fun c => { c with outDone := true }).padRelease = s.modCe fun c => { c with outDone := true } :=
    if_neg (show ¬ s.ce.release = true by rw [hrelease]; decide)
  unfold State.outputWrite
  rw [if_neg (by simp [hrun, hsnap, hdone])]
  dsimp only
  rw [htrips, hresumes, hreleases]
  exact if_neg (show ¬ (s.ce.hold && !s.ce.trip) = true by rw [hhold, Bool.false_and]; exact Bool.false_ne_true)

theorem outputWrite_stands {s : State} (compl short : Nat) (h : s.ceRuns = false ∨ s.ce.snapDone = false ∨ s.ce.outDone = true) :
    s.outputWrite compl short = s := by
  refine if_pos ?_
  rcases h with h | h | h <;> simp [h]

/-- While a calibration holds the loops nothing is written. -/
theorem outputWrite_holds {s : State} (compl short : Nat) (hrun : s.ceRuns = true) (hsnap : s.ce.snapDone = true)
    (hdone : s.ce.outDone = false) (hhold : s.ce.hold = true) (htrip : s.ce.trip = false) :
    s.outputWrite compl short = s.modCe fun c => { c with outDone := true } := by
  unfold State.outputWrite
  rw [if_neg (by simp [hrun, hsnap, hdone])]
  exact if_pos (show (s.ce.hold && !s.ce.trip) = true by rw [hhold, htrip]; rfl)

end Sys2Proof.Machine
end

section
/-!
SUPPORT. Cycle 960 seen from one loop and from one pin (R326, R329), and memory errors (R328).
-/

namespace Sys2Proof.Machine

namespace State

variable (s : State)

/-- The outputs of loops. -/
def loopsWrite (l : List (Fin 64)) (s : State) : State := forAll l (fun j z => z.loopWrite j) s

/-- Every loop's output is written. -/
def outsWritten (s : State) : State := loopsWrite (allFin 64) (s.modCe fun c => { c with outDone := true })

theorem loopsWrite_keeps (l : List (Fin 64)) :
    CeKeeps (fun k => ∃ j ∈ l, outEntry j k) (fun b => ∃ j ∈ l, b = .loop j) s (loopsWrite l s) :=
  CeKeeps.forAll (fun j z => loopWrite_keeps z j) l s

/-- Modes and destinations of loops stand. -/
theorem rd_loopsWrite_dest (l : List (Fin 64)) (i : Fin 64) : (loopsWrite l s).rd (K.LOOP_OUTPUT i) = s.rd (K.LOOP_OUTPUT i) ∧
    (loopsWrite l s).rd (K.LOOP_MODE i) = s.rd (K.LOOP_MODE i) := by
  refine ⟨(loopsWrite_keeps s l).rd _ (by simp) ?_, (loopsWrite_keeps s l).rd _ (by simp) ?_⟩ <;>
    simp [outEntry]

/-- Modes and flags of pins stand. -/
theorem rd_loopsWrite_pin (l : List (Fin 64)) (a : Fin 48) : (loopsWrite l s).rd (K.AUX_STATUS a) = s.rd (K.AUX_STATUS a) ∧
    (loopsWrite l s).rd (K.AUX_MODE a) = s.rd (K.AUX_MODE a) ∧ (loopsWrite l s).ce.auxs.get a = s.ce.auxs.get a := by
  refine ⟨(loopsWrite_keeps s l).rd _ (by simp) ?_, (loopsWrite_keeps s l).rd _ (by simp) ?_, (loopsWrite_keeps s l).aux a ?_⟩ <;>
    simp [outEntry]

theorem auxHeld_loopsWrite (l : List (Fin 64)) (a : Fin 48) : (loopsWrite l s).auxHeld a = s.auxHeld a :=
  bit_of_rd (rd_loopsWrite_pin s l a).1 3

/-- What a loop out of the list has stands. -/
theorem loopsWrite_own {l : List (Fin 64)} {j : Fin 64} (hj : j ∉ l) :
    (loopsWrite l s).rd (K.LOOP_OUT j) = s.rd (K.LOOP_OUT j) ∧ (loopsWrite l s).loop j = s.loop j := by
  refine ⟨(loopsWrite_keeps s l).rd _ (by simp) ?_, (loopsWrite_keeps s l).loop j ?_⟩
  · rintro ⟨i, hi, h | ⟨a, h⟩ | ⟨a, h⟩⟩
    · cases h
      exact hj hi
    · cases h
    · cases h
  · rintro ⟨i, hi, h⟩
    cases h
    exact hj hi

/-- The code of a pin that no loop of the list drives, or that is latched, stands. -/
theorem rd_loopsWrite_code {l : List (Fin 64)} {a : Fin 48}
    (h : (∀ j ∈ l, s.rd (K.LOOP_OUTPUT j) ≠ a.val) ∨ s.auxHeld a = true) :
    (loopsWrite l s).rd (K.AUX_CODE a) = s.rd (K.AUX_CODE a) := by
  have hall := forAll_mem_induct (l := l) (f := fun j z => z.loopWrite j) (P := fun z =>
    (∀ j, z.rd (K.LOOP_OUTPUT j) = s.rd (K.LOOP_OUTPUT j)) ∧ z.auxHeld a = s.auxHeld a ∧ z.rd (K.AUX_CODE a) = s.rd (K.AUX_CODE a))
    (fun j hj z hz => ?_) (s := s) ⟨fun _ => rfl, rfl, rfl⟩
  · exact hall.2.2
  · obtain ⟨hdest, hheld, hcode⟩ := hz
    refine ⟨fun i => ?_, ?_, ?_⟩
    · exact ((loopWrite_keeps z j).rd _ (by simp) (by simp [outEntry])).trans (hdest i)
    · exact ((loopWrite_keeps z j).bit (by simp) (by simp [outEntry]) 3).trans hheld
    · refine (rd_loopWrite_code z j ?_).trans hcode
      exact h.imp (fun h => by rw [hdest]; exact h j hj) fun h => hheld.trans h

end State

/-! ## One pin -/

/-- A change by the other pins and by the GPIOs. -/
def OtherPins (a : Fin 48) : State → State → Prop := CeKeeps (fun k => ∃ x, x ≠ a ∧ padEntry x k) fun b => ∃ x, x ≠ a ∧ b = .aux x

namespace OtherPins

variable {a : Fin 48} {s t : State}

theorem rd_own (h : OtherPins a s t) {o x : Nat} : t.rd ⟨.aux a, o, x⟩ = s.rd ⟨.aux a, o, x⟩ := by
  refine h.rd _ (by simp) ?_
  rintro ⟨i, hi, hk | hk | ⟨hk, -⟩⟩
  · cases hk
    exact hi rfl
  · cases hk
    exact hi rfl
  · cases hk

theorem rd_loop (h : OtherPins a s t) {j : Fin 64} {o x : Nat} : t.rd ⟨.loop j, o, x⟩ = s.rd ⟨.loop j, o, x⟩ := by
  refine h.rd _ (by simp) ?_
  rintro ⟨i, hi, hk | hk | ⟨hk, -⟩⟩ <;> cases hk

theorem aux_own (h : OtherPins a s t) : t.ce.auxs.get a = s.ce.auxs.get a := h.aux a fun ⟨_, hi, he⟩ => hi (by cases he; rfl)

theorem auxHeld (h : OtherPins a s t) : t.auxHeld a = s.auxHeld a := State.bit_of_rd h.rd_own 3

end OtherPins

theorem driven_of_rd {s t : State} (h : ∀ i, t.rd (K.LOOP_OUTPUT i) = s.rd (K.LOOP_OUTPUT i) ∧ t.rd (K.LOOP_MODE i) = s.rd (K.LOOP_MODE i))
    (d : Nat) : driven t d none = driven s d none := by
  unfold driven loopOn
  simp only [fun i => (h i).1, fun i => (h i).2]

/-- A loop that is not in OFF drives its destination. -/
theorem driven_of_loop {s : State} {j : Fin 64} {a : Fin 48} (hmode : s.rd (K.LOOP_MODE j) ≠ 0) (hdest : s.rd (K.LOOP_OUTPUT j) = a.val) :
    driven s a.val none = true := by
  have ha : (a.val != 255) = true := bne_iff_ne.mpr (by omega)
  rw [driven, ha, Bool.true_and, List.any_eq_true]
  exact ⟨j, List.mem_finRange j, by simp [loopOn, hmode, hdest]⟩

/-- What a pin finds after the outputs of loops: its flags, modes and record as before, driven as before. -/
theorem outsWritten_pin (s : State) (a : Fin 48) : s.outsWritten.auxHeld a = s.auxHeld a ∧
    s.outsWritten.rd (K.AUX_STATUS a) = s.rd (K.AUX_STATUS a) ∧ s.outsWritten.rd (K.AUX_MODE a) = s.rd (K.AUX_MODE a) ∧
    s.outsWritten.ce.auxs.get a = s.ce.auxs.get a ∧ driven s.outsWritten a.val none = driven s a.val none := by
  obtain ⟨hstatus, hmode, haux⟩ := State.rd_loopsWrite_pin (s.modCe fun c => { c with outDone := true }) (allFin 64) a
  unfold State.outsWritten
  rw [State.auxHeld_loopsWrite, hstatus, hmode, haux, driven_of_rd (fun i => State.rd_loopsWrite_dest _ _ i)]
  exact ⟨rfl, rfl, rfl, rfl, rfl⟩

/-- The outputs of loops seen from one loop: the others before it and after it. -/
theorem outsWritten_at (s : State) (j : Fin 64) : ∃ (y : State) (l : List (Fin 64)), j ∉ l ∧
    s.outsWritten = State.loopsWrite l (y.loopWrite j) ∧
    y.loop j = s.loop j ∧ (∀ i, y.rd (K.LOOP_OUTPUT i) = s.rd (K.LOOP_OUTPUT i) ∧ y.rd (K.LOOP_MODE i) = s.rd (K.LOOP_MODE i)) ∧
    ∀ a, y.auxHeld a = s.auxHeld a := by
  obtain ⟨l₁, l₂, hbefore, hafter, heq⟩ := exists_forAll_eq (l := allFin 64) (List.mem_finRange j) (List.nodup_finRange 64)
    (fun i z => State.loopWrite z i) (s.modCe fun c => { c with outDone := true })
  refine ⟨State.loopsWrite l₁ (s.modCe fun c => { c with outDone := true }), l₂, hafter, heq, ?_, fun i => ?_, fun a => ?_⟩
  · rw [(State.loopsWrite_own _ hbefore).2]
    rfl
  · obtain ⟨hdest, hmode⟩ := State.rd_loopsWrite_dest (s.modCe fun c => { c with outDone := true }) l₁ i
    rw [hdest, hmode]
    exact ⟨rfl, rfl⟩
  · rw [State.auxHeld_loopsWrite]
    rfl

section

variable {s : State} (compl short : Nat) (hrun : s.ceRuns = true) (hsnap : s.ce.snapDone = true) (hdone : s.ce.outDone = false)
  (hhold : s.ce.hold = false) (htrip : s.ce.trip = false) (hresume : s.ce.resume = false) (hrelease : s.ce.release = false)

include hrun hsnap hdone hhold htrip hresume hrelease

/-- Cycle 960 seen from one pin. -/
theorem outputWrite_at (a : Fin 48) : ∃ w,
    OtherPins a s.outsWritten w ∧
    OtherPins a (w.auxAt compl short a) (s.outputWrite compl short) := by
  obtain ⟨l₁, l₂, hbefore, hafter, heq⟩ := exists_forAll_eq (l := allFin 48) (List.mem_finRange a) (List.nodup_finRange 48)
    (fun x z => State.auxAt z compl short x) s.outsWritten
  have hpins : ∀ (l : List (Fin 48)) (z : State), a ∉ l → OtherPins a z (forAll l (fun x z => State.auxAt z compl short x) z) :=
    fun l z hl => (CeKeeps.forAll (fun x z => auxAt_keeps z compl short x) l z).mono
      (fun _ ⟨x, hx, h⟩ => ⟨x, fun e => hl (e ▸ hx), h⟩) (fun _ ⟨x, hx, h⟩ => ⟨x, fun e => hl (e ▸ hx), h⟩)
  have hgpios : ∀ z : State, OtherPins a z (forAll (allFin 16) (fun g z => z.ogWrite g) z) := fun z =>
    (CeKeeps.forAll (fun g z => ogWrite_keeps z g) (allFin 16) z).mono (fun _ ⟨_, _, h⟩ => h.elim) (fun _ ⟨_, _, h⟩ => h.elim)
  refine ⟨_, hpins l₁ _ hbefore, ?_⟩
  rw [outputWrite_runs compl short hrun hsnap hdone hhold htrip hresume hrelease]
  refine CeKeeps.trans ?_ (hgpios _)
  rw [← State.loopsWrite, ← State.outsWritten, heq]
  exact hpins l₂ _ hafter

/-- After the outputs of loops nothing moves their registers and records. -/
theorem outputWrite_loops (j : Fin 64) :
    (s.outputWrite compl short).rd (K.LOOP_OUT j) =
      s.outsWritten.rd (K.LOOP_OUT j) ∧
    (s.outputWrite compl short).loop j = s.outsWritten.loop j ∧
    (s.outputWrite compl short).ce.outDone = true := by
  obtain ⟨w, hbefore, hafter⟩ := outputWrite_at compl short hrun hsnap hdone hhold htrip hresume hrelease 0
  have hpin := auxAt_keeps w compl short 0
  have hloop : ∀ {a : Fin 48} {y z : State}, OtherPins a y z → z.loop j = y.loop j := fun h =>
    h.loop j fun ⟨_, _, he⟩ => by cases he
  refine ⟨?_, ?_, ?_⟩
  · rw [hafter.rd_loop, hpin.rd _ (by simp) (by simp [padEntry]), hbefore.rd_loop]
  · rw [hloop hafter, hpin.loop j (by simp), hloop hbefore]
  · rw [hafter.outDone, hpin.outDone, hbefore.outDone, State.outsWritten,
      (State.loopsWrite_keeps _ _).outDone]
    rfl

/-- A pin at cycle 960: it finds its record, its flags and its modes, and what the others do leaves its own alone. -/
theorem outputWrite_pin (a : Fin 48) : ∃ w : State, w.auxHeld a = s.auxHeld a ∧ w.rd (K.AUX_STATUS a) = s.rd (K.AUX_STATUS a) ∧
    w.rd (K.AUX_MODE a) = s.rd (K.AUX_MODE a) ∧ w.ce.auxs.get a = s.ce.auxs.get a ∧ driven w a.val none = driven s a.val none ∧
    w.rd (K.AUX_CODE a) = s.outsWritten.rd (K.AUX_CODE a) ∧ OtherPins a (w.auxAt compl short a) (s.outputWrite compl short) := by
  obtain ⟨w, hbefore, hafter⟩ := outputWrite_at compl short hrun hsnap hdone hhold htrip hresume hrelease a
  obtain ⟨hheld, hstatus, hmode, haux, hdriven⟩ := outsWritten_pin s a
  exact ⟨w, hbefore.auxHeld.trans hheld, hbefore.rd_own.trans hstatus, hbefore.rd_own.trans hmode, hbefore.aux_own.trans haux,
    (driven_of_rd (fun i => ⟨hbefore.rd_loop, hbefore.rd_loop⟩) a.val).trans hdriven, hbefore.rd_own, hafter⟩

/-- An output that no pin holds back reaches its register, and its pin where it alone drives it. -/
theorem outputWrite_outs {j : Fin 64} {u : Nat} (hout : (s.loop j).out = some u) (hu : u < 2 ^ 16)
    (hfree : ∀ a : Fin 48, s.rd (K.LOOP_OUTPUT j) = a.val → s.auxHeld a = false) :
    (s.outputWrite compl short).ce.outDone = true ∧ (s.outputWrite compl short).rd (K.LOOP_OUT j) = u ∧
    ((s.outputWrite compl short).loop j).out = none ∧
    (∀ a : Fin 48, s.rd (K.LOOP_OUTPUT j) = a.val → (∀ i, i ≠ j → s.rd (K.LOOP_OUTPUT i) ≠ a.val) → s.rd (K.LOOP_MODE j) ≠ 0 →
      (s.ce.auxs.get a).step = 0 → (s.outputWrite compl short).rd (K.AUX_CODE a) = dacCodeOf u) := by
  obtain ⟨hrd, hloop, hnoted⟩ := outputWrite_loops compl short hrun hsnap hdone hhold htrip hresume hrelease j
  obtain ⟨y, l, hl, heq, hown, hdest, hheld⟩ := outsWritten_at s j
  have hsome : (y.loop j).out = some u := by rw [hown, hout]
  obtain ⟨hrd', hloop'⟩ := State.loopsWrite_own (y.loopWrite j) hl
  refine ⟨hnoted, ?_, ?_, fun a hpin halone hmode hstep => ?_⟩
  · rw [hrd, heq, hrd', State.rd_loopWrite_out hsome hu]
  · rw [hloop, heq, hloop', State.loopWrite_none hsome]
    intro a ha
    rw [hheld]
    exact hfree a ((hdest j).1.symm.trans ha)
  · obtain ⟨w, hwheld, -, -, hwaux, hwdriven, hwcode, hafter⟩ :=
      outputWrite_pin compl short hrun hsnap hdone hhold htrip hresume hrelease a
    have hdrives : driven w a.val none = true := hwdriven.trans (driven_of_loop hmode hpin)
    have hstands : w.auxStep a = w := by
      obtain ⟨v, hv⟩ := State.auxStep_steady (hwheld.trans (hfree a hpin)) (by rw [hwaux, hstep])
      rw [hv, if_pos hdrives]
    have hcode : s.outsWritten.rd (K.AUX_CODE a) = dacCodeOf u := by
      rw [heq, State.rd_loopsWrite_code, State.loopWrite_code hsome ((hdest j).1.trans hpin) ((hheld a).trans (hfree a hpin))]
      refine .inl fun i hi => ?_
      rw [(State.loopWrite_keeps y j).rd _ (by simp) (by simp [outEntry]), (hdest i).1]
      exact halone i fun e => hl (e ▸ hi)
    rw [hafter.rd_own, State.auxAt, hstands, (State.auxPads_keeps w a _ _).rd _ (by simp) (by simp), hwcode, hcode]

/-- At a latched pin the code stands, and the output of SAFE waits for the release. -/
theorem outputWrite_latched {j : Fin 64} {u : Nat} {a : Fin 48} (hout : (s.loop j).out = some u) (hu : u < 2 ^ 16)
    (hpin : s.rd (K.LOOP_OUTPUT j) = a.val) (hheld : s.auxHeld a = true) :
    (s.outputWrite compl short).ce.outDone = true ∧ (s.outputWrite compl short).rd (K.AUX_CODE a) = s.rd (K.AUX_CODE a) ∧
    (s.outputWrite compl short).rd (K.LOOP_OUT j) = u ∧
    ((s.outputWrite compl short).loop j).out = (if s.rd (K.LOOP_MODE j) = 3 then some u else none) := by
  obtain ⟨hrd, hloop, hnoted⟩ := outputWrite_loops compl short hrun hsnap hdone hhold htrip hresume hrelease j
  obtain ⟨y, l, hl, heq, hown, hdest, hlatch⟩ := outsWritten_at s j
  have hsome : (y.loop j).out = some u := by rw [hown, hout]
  obtain ⟨hrd', hloop'⟩ := State.loopsWrite_own (y.loopWrite j) hl
  refine ⟨hnoted, ?_, ?_, ?_⟩
  · obtain ⟨w, hwheld, -, -, -, -, hwcode, hafter⟩ := outputWrite_pin compl short hrun hsnap hdone hhold htrip hresume hrelease a
    have hw : w.auxHeld a = true := hwheld.trans hheld
    have hnoted : (s.modCe fun c => { c with outDone := true }).auxHeld a = true := hheld
    rw [hafter.rd_own, State.auxAt, State.auxStep_stands hw, State.auxPads_stands w a _ _ (.inl hw), hwcode, State.outsWritten,
      State.rd_loopsWrite_code _ (.inr hnoted)]
    rfl
  · rw [hrd, heq, hrd', State.rd_loopWrite_out hsome hu]
  · rw [hloop, heq, hloop', State.loopWrite_held hsome ((hdest j).1.trans hpin) ((hlatch a).trans hheld), (hdest j).2]

/-- A change of a pin's mode passes through 0. -/
theorem outputWrite_modes {a : Fin 48} (hfree : s.auxHeld a = false) :
    ((s.ce.auxs.get a).step = 2 → (s.outputWrite compl short).rd (K.AUX_CODE a) = 0 ∧
      ((s.outputWrite compl short).ce.auxs.get a).mode = 0 ∧ ((s.outputWrite compl short).ce.auxs.get a).step = 1) ∧
    ((s.ce.auxs.get a).step = 1 → (s.outputWrite compl short).rd (K.AUX_CODE a) = 0 ∧
      ((s.outputWrite compl short).ce.auxs.get a).mode = s.rd (K.AUX_MODE a) ∧
      ((s.outputWrite compl short).ce.auxs.get a).step = 0) := by
  obtain ⟨w, hwheld, -, hwmode, hwaux, -, -, hafter⟩ := outputWrite_pin compl short hrun hsnap hdone hhold htrip hresume hrelease a
  have hsteps : ∀ m n, w.auxStep a = (w.modAux a fun x => { x with mode := m, step := n }).wr (K.AUX_CODE a) 0 →
      (s.outputWrite compl short).rd (K.AUX_CODE a) = 0 ∧ ((s.outputWrite compl short).ce.auxs.get a).mode = m ∧
      ((s.outputWrite compl short).ce.auxs.get a).step = n := by
    intro m n hstep
    have haux : ((w.auxStep a).ce.auxs.get a).mode = m ∧ ((w.auxStep a).ce.auxs.get a).step = n := by
      have hwr : ∀ (z : State) (k : Key) (v : Nat), (z.wr k v).ce = z.ce := fun _ _ _ => rfl
      rw [hstep, hwr, State.aux_modAux, if_pos rfl]
      exact ⟨rfl, rfl⟩
    obtain ⟨hmode, hstep'⟩ := State.auxPads_mode (w.auxStep a) a (compl.testBit a.val) (short.testBit a.val)
    rw [hafter.rd_own, hafter.aux_own, State.auxAt, hmode, hstep', (State.auxPads_keeps _ a _ _).rd _ (by simp) (by simp)]
    refine ⟨?_, haux⟩
    rw [hstep, State.rd_wr_self, Nat.zero_mod]
  have hfree' : w.auxHeld a = false := hwheld.trans hfree
  refine ⟨fun hstep => hsteps _ _ (State.auxStep_off hfree' (by rw [hwaux, hstep])), fun hstep => ?_⟩
  have hon := State.auxStep_on hfree' (by rw [hwaux, hstep])
  rw [hwmode] at hon
  exact hsteps _ _ hon

/-- The flags of a steady pin after cycle 960, and the rises that are raised. -/
theorem outputWrite_flags {a : Fin 48} (hfree : s.auxHeld a = false) (hstep : (s.ce.auxs.get a).step = 0)
    (hmode : (s.ce.auxs.get a).mode ≠ 0) (isShort : Bool) :
    (s.outputWrite compl short).bit (K.AUX_STATUS a) (if isShort then 2 else 1) =
      (State.padFlag (if isShort then (s.ce.auxs.get a).shortRun else (s.ce.auxs.get a).complRun)
        (s.bit (K.AUX_STATUS a) (if isShort then 2 else 1)) ((if isShort then short else compl).testBit a.val)).2 ∧
    (if isShort then ((s.outputWrite compl short).ce.auxs.get a).shortRun else ((s.outputWrite compl short).ce.auxs.get a).complRun) =
      (State.padFlag (if isShort then (s.ce.auxs.get a).shortRun else (s.ce.auxs.get a).complRun)
        (s.bit (K.AUX_STATUS a) (if isShort then 2 else 1)) ((if isShort then short else compl).testBit a.val)).1 ∧
    (s.bit (K.AUX_STATUS a) (if isShort then 2 else 1) = false →
      (s.outputWrite compl short).bit (K.AUX_STATUS a) (if isShort then 2 else 1) = true →
      Raised (s.outputWrite compl short) (Src.CE (if isShort then 12 else 11))) := by
  obtain ⟨w, hwheld, hwstatus, -, hwaux, -, -, hafter⟩ := outputWrite_pin compl short hrun hsnap hdone hhold htrip hresume hrelease a
  obtain ⟨v, hv⟩ := State.auxStep_steady (hwheld.trans hfree) (by rw [hwaux, hstep])
  have hmoved : (w.auxStep a).rd (K.AUX_STATUS a) = s.rd (K.AUX_STATUS a) ∧ (w.auxStep a).ce.auxs.get a = s.ce.auxs.get a := by
    rw [hv]
    split
    · exact ⟨hwstatus, hwaux⟩
    · exact ⟨(State.rd_wr_ne _ _ (by simp)).trans hwstatus, hwaux⟩
  obtain ⟨hstatus, haux⟩ := hmoved
  have hbit := fun i => State.bit_of_rd hstatus i
  have hpads : w.auxAt compl short a = (w.auxStep a).padFlags a (compl.testBit a.val) (short.testBit a.val) :=
    State.auxPads_eq _ a _ _ ((hbit 3).trans hfree) (by rw [haux]; exact hmode)
  obtain ⟨hcompl, hshort, hrise, hrise'⟩ := State.padFlags_shows (w.auxStep a) a (compl.testBit a.val) (short.testBit a.val)
  have hrec := State.padFlags_aux (w.auxStep a) a (compl.testBit a.val) (short.testBit a.val)
  rw [hpads] at hafter
  rw [haux, hbit, hbit] at hrec
  rw [haux, hbit] at hcompl hshort hrise hrise'
  rw [State.bit_of_rd hafter.rd_own, hafter.aux_own, hrec]
  cases isShort
  · exact ⟨hcompl, rfl, fun hflag hset => hafter.raised (Src.CE 11) (by decide) (hrise hflag (hcompl.symm.trans hset))⟩
  · exact ⟨hshort, rfl, fun hflag hset => hafter.raised (Src.CE 12) (by decide) (hrise' hflag (hshort.symm.trans hset))⟩

end

/-- A flag of a pad sets in the 4th frame with its condition and clears in the 64th without it (R535). -/
theorem padFlag_runs (run : Nat) (flag cond : Bool) :
    (flag = cond → State.padFlag run flag cond = (0, flag)) ∧
    (flag = false → cond = true → run < 3 → State.padFlag run flag cond = (run + 1, flag)) ∧
    (flag = false → cond = true → run = 3 → (State.padFlag run flag cond).2 = true) ∧
    (flag = true → cond = false → run < 63 → State.padFlag run flag cond = (run + 1, flag)) ∧
    (flag = true → cond = false → run = 63 → (State.padFlag run flag cond).2 = false) := by
  refine ⟨?_, ?_, ?_, ?_, ?_⟩
  · rintro rfl
    simp [State.padFlag]
  · rintro rfl rfl hrun
    simp [State.padFlag, show run ≠ 3 by omega]
  · rintro rfl rfl rfl
    rfl
  · rintro rfl rfl hrun
    simp [State.padFlag, show run ≠ 63 by omega]
  · rintro rfl rfl rfl
    rfl

/-! ## Memory errors (R328) -/

/-- A corrected error is counted, by the engine and by the performance counters. -/
theorem ceMemError_corrected (s : State) (j : Fin 64) :
    CountsUp s (s.ceMemError j .corrected) K.CE_MEM_CORRECTED 1 ∧ (s.ceMemError j .corrected).ce = s.ce ∧
    ∀ k : Key, k ≠ K.CE_MEM_CORRECTED → k.area ≠ none → (s.ceMemError j .corrected).rd k = s.rd k := by
  have htouch : Touches (fun _ => false) (s.incSat K.CE_MEM_CORRECTED) (s.ceMemError j .corrected) :=
    State.pcSecded_touches none (Touches.refl _ _)
  refine ⟨(State.rd_of_touches htouch (by decide)).trans (State.countsUp_incSat s _), htouch.ce rfl, fun k hk ha => ?_⟩
  rw [State.rd_of_touches htouch ha, State.rd_incSat, if_neg hk]

namespace State

/-- A loop's state of SAFE: its mode, its output for cycle 960, the locks that are taken. -/
def safeEntered (s : State) (j : Fin 64) : State :=
  ((s.modLoop j fun l =>
    { l with former := if (if s.rd (K.LOOP_MODE j) = 4 then (s.loop j).heldFrom else s.rd (K.LOOP_MODE j)) = 3 then l.former
               else if s.rd (K.LOOP_MODE j) = 4 then (s.loop j).heldFrom else s.rd (K.LOOP_MODE j)
             out := some (s.rd (K.LOOP_SAFE_VALUE j)), faultRun := 0, preset := false }).setMode j 3).ceSafeTake

/-- SAFE is told, with a laser's enable where the loop has one. -/
def safeTold (s : State) (j : Fin 64) (laser : Bool) : State :=
  when_ laser (fun z => z.raise (Src.CE 9)) ((s.raiseIn (Src.CE 1) K.DET_LOOP_SAFE j.val).raiseIn (Src.CE 5) K.DET_LOOP_MODE_CHG j.val)

variable (s : State) (j : Fin 64)

theorem toSafe_eq : s.toSafe j false = (s.safeEntered j).safeTold j (decide (s.rd (K.LOOP_LASER_EN j) ≤ 15)) := rfl

theorem safeEntered_enters : (s.safeEntered j).rd (K.LOOP_MODE j) = 3 ∧ ((s.safeEntered j).loop j).out = some (s.rd (K.LOOP_SAFE_VALUE j)) := by
  have hset : ∀ z : State, (z.setMode j 3).ce = z.ce := fun _ => rfl
  unfold safeEntered
  refine ⟨?_, ?_⟩
  · rw [(ceSafeTake_keeps _).2, rd_setMode]
    rfl
  · rw [loop, (ceSafeTake_keeps _).1, hset, ← loop, loop_modLoop, if_pos rfl]

/-- What tells of SAFE moves the detail registers alone. -/
theorem safeTold_keeps (laser : Bool) : CeKeeps (fun k => k.blk = .dev) (fun _ => False) s (s.safeTold j laser) ∧
    Raised (s.safeTold j laser) (Src.CE 1) := by
  have hmode : ∀ z : State, CeKeeps (fun k => k.blk = .dev) (fun _ => False) z
      (when_ laser (fun z => z.raise (Src.CE 9)) (z.raiseIn (Src.CE 5) K.DET_LOOP_MODE_CHG j.val)) := fun z =>
    have htold : CeKeeps (fun k => k.blk = .dev) (fun _ => False) z (z.raiseIn (Src.CE 5) K.DET_LOOP_MODE_CHG j.val) :=
      (CeKeeps.refl _ _ z).raiseIn _ _ rfl (by decide)
    CeKeeps.ite _ (htold.raise _) htold
  have hsafe : CeKeeps (fun k => k.blk = .dev) (fun _ => False) s (s.raiseIn (Src.CE 1) K.DET_LOOP_SAFE j.val) :=
    (CeKeeps.refl _ _ s).raiseIn _ _ rfl (by decide)
  exact ⟨hsafe.trans (hmode _), (hmode _).raised (Src.CE 1) (by decide) (raised_raiseIn _ _ _ (by decide))⟩

end State

/-- An error of a configuration takes its loop to SAFE. -/
theorem ceMemError_config (s : State) (j : Fin 64) : (s.ceMemError j .config).rd (K.LOOP_MODE j) = 3 ∧
    ((s.ceMemError j .config).loop j).out = some (s.rd (K.LOOP_SAFE_VALUE j)) ∧ Raised (s.ceMemError j .config) (Src.CE 8) ∧
    Raised (s.ceMemError j .config) (Src.CE 1) ∧ ∀ i, i ≠ j → (s.ceMemError j .config).loop i = s.loop i := by
  have hraise : s.ceMemError j .config = (s.toSafe j false).raise (Src.CE 8) := rfl
  have hloop : ∀ i, (s.ceMemError j .config).loop i = (s.toSafe j false).loop i := fun i => by
    rw [hraise, State.loop, State.raise_ce, ← State.loop]
  obtain ⟨hmode, hout⟩ := State.safeEntered_enters s j
  obtain ⟨htold, hraised⟩ := State.safeTold_keeps (s.safeEntered j) j (decide (s.rd (K.LOOP_LASER_EN j) ≤ 15))
  refine ⟨?_, ?_, State.raised_raise _ _ (by decide), State.raised_keep _ _ ?_ (by decide), fun i hi => ?_⟩
  · rw [hraise, State.rd_raise_area _ _ _ (by simp), State.toSafe_eq, htold.rd _ (by simp) (by simp), hmode]
  · rw [hloop, State.toSafe_eq, htold.loop j id, hout]
  · rw [State.toSafe_eq]
    exact hraised
  · rw [hloop, (State.toSafe_step s j false).loop i (by simpa using hi)]

/-- An error of the RC memory zeroes the value. -/
theorem ceMemError_rc (s : State) (j : Fin 64) (i : Fin 1024) : (s.ceMemError j (.rc i)).rcAt j i.val = 0 ∧
    Raised (s.ceMemError j (.rc i)) (Src.CE 7) ∧ (s.ceMemError j (.rc i)).ce = s.ce ∧ Changes [K.RC_MEM j] s (s.ceMemError j (.rc i)) := by
  have hraise : s.ceMemError j (.rc i) = (s.rcSet j i.val 0).raise (Src.CE 7) := rfl
  have hzero : (s.rcSet j i.val 0).rd (K.RC_MEM j) / 2 ^ (32 * (1023 - i.val)) % 2 ^ 32 = 0 := by
    refine Nat.eq_of_testBit_eq fun n => ?_
    rw [Nat.testBit_mod_two_pow, Nat.testBit_div_two_pow, State.rcSet, State.rd_wr_self, Nat.testBit_mod_two_pow, State.testBit_withField]
    by_cases hn : n < 32
    · rw [if_pos (by omega)]
      simp [zx]
    · simp [hn]
  rw [hraise]
  refine ⟨?_, State.raised_raise _ _ (by decide), State.raise_ce _ _, (State.changes_wr s _ _).trans (State.changes_raise _ _ _)⟩
  rw [State.rcAt, State.rd_raise_area _ _ _ (by simp), sx, hzero]
  rfl

/-! ## The obligation -/

/-- Settles O39, by cycle 923 seen from one loop and cycle 960 seen from one loop and from one pin. -/
theorem controlLoops : Obligations.ControlLoops := by
  unfold Obligations.ControlLoops
  refine ⟨fun s levels h => ⟨_, exec_loopSnapshot s levels, loopSnapshot_stands _ h⟩,
    fun s levels hrun hclock hsnap => ⟨_, exec_loopSnapshot s levels, loopSnapshot_notes _ hrun hclock hsnap⟩,
    fun s levels hrun hsnap => ⟨_, exec_loopSnapshot s levels, loopSnapshot_takes _ hrun hsnap⟩,
    fun s levels j hrun hsnap hhold hmode hdue =>
      ⟨_, exec_loopSnapshot s levels, loopSnapshot_manual _ hrun hsnap hhold hmode hdue⟩,
    ?_,
    fun s compl short h => ⟨_, exec_outputWrite s compl short, outputWrite_stands _ _ h⟩,
    ?_,
    fun s compl short j u hrun hsnap hdone hhold htrip hresume hrelease hout hu hfree => ⟨_, exec_outputWrite s compl short,
      outputWrite_outs _ _ hrun hsnap hdone hhold htrip hresume hrelease hout hu hfree⟩,
    fun s compl short j u a hrun hsnap hdone hhold htrip hresume hrelease hout hu hpin hheld => ⟨_, exec_outputWrite s compl short,
      outputWrite_latched _ _ hrun hsnap hdone hhold htrip hresume hrelease hout hu hpin hheld⟩,
    fun s compl short a hrun hsnap hdone hhold htrip hresume hrelease hfree => ⟨_, exec_outputWrite s compl short,
      outputWrite_modes _ _ hrun hsnap hdone hhold htrip hresume hrelease hfree⟩,
    ?_, ?_,
    fun s j => ⟨_, exec_ceMemError s j .config, ceMemError_config s j⟩,
    fun s j i => ⟨_, exec_ceMemError s j (.rc i), ceMemError_rc s j i⟩⟩
  · intro s levels j hrun hsnap hhold hmode hdue hnew hfault hvar hregion hlen hpreset hmax hmin y hy e he e1 he1 p hp d hd ff hff umin humin
      umax humax sum hsum i1 hi1
    exact ⟨_, exec_loopSnapshot s levels, loopSnapshot_auto _ hrun hsnap hhold hmode hdue hnew hfault hvar hregion hlen hpreset hmax hmin
      ⟨by rw [← hy]; exact he, he1, hp, hd, hff, humin, humax, hsum, hi1⟩⟩
  · intro s compl short hrun hsnap hdone hhold htrip
    refine ⟨_, exec_outputWrite s compl short, ?_⟩
    rw [outputWrite_holds _ _ hrun hsnap hdone hhold htrip]
    exact ⟨rfl, fun _ => rfl⟩
  · intro s compl short a isShort hrun hsnap hdone hhold htrip hresume hrelease hfree hstep hmode flag hflag cond hcond run hruns
    obtain ⟨hbit, hcount, hrise⟩ := outputWrite_flags compl.toNat short.toNat hrun hsnap hdone hhold htrip hresume hrelease hfree hstep hmode
      isShort
    have hcond' : ((if isShort then short.toNat else compl.toNat).testBit a.val) = cond := by
      rw [hcond]
      cases isShort <;> rfl
    rw [hcond', ← hflag, ← hruns] at hbit hcount
    rw [← hflag] at hrise
    refine ⟨_, exec_outputWrite s compl short, fun flag' hflag' run' hrun' => ?_⟩
    rw [hbit] at hflag' hrise
    rw [hcount] at hrun'
    rw [hflag', hrun']
    obtain ⟨hsame, hrising, hset, hfalling, hclear⟩ := padFlag_runs run flag cond
    refine ⟨fun h => by rw [hsame h]; exact ⟨rfl, rfl⟩, fun h1 h2 h3 => by rw [hrising h1 h2 h3]; exact ⟨h1, rfl⟩,
      fun h1 h2 h3 => ⟨hset h1 h2 h3, hrise h1 (hset h1 h2 h3)⟩, fun h1 h2 h3 => by rw [hfalling h1 h2 h3]; exact ⟨h1, rfl⟩, hclear⟩
  · intro s j
    obtain ⟨hcount, hce, hkeep⟩ := ceMemError_corrected s j
    refine ⟨_, exec_ceMemError s j .corrected, hcount, hce, fun k hk => ?_⟩
    obtain ⟨hother, hentry⟩ := Bool.or_eq_false_iff.mp hk
    refine hkeep k (by simpa using hother) fun hnone => ?_
    split at hentry
    · exact Bool.noConfusion hentry
    · rw [hnone] at hentry
      exact Bool.noConfusion hentry

end Sys2Proof.Machine
end
